-- ==== Sys2Proof/Word.lean ====
section
/-! DEFINITION. The plain word types of the model: a byte, byte strings, and the 64-bit word of the
kernels' scalar registers. -/

namespace Sys2Proof

/-- One byte (R3: byte 0 of a byte string is the byte at the lowest address). -/
abbrev Byte := BitVec 8

/-- A byte string, lowest address first. -/
abbrev Bytes := List (BitVec 8)

/-- The 64-bit word of a scalar register or an instruction word. -/
abbrev Word := BitVec 64

end Sys2Proof
end

