-- ==== Sys2Proof/Machine/Data.lean ====
section
/-! DEFINITION. Byte strings and their little-endian reading (R4), keyed tables, and sparse memory in
one canonical form. -/

namespace Sys2Proof.Machine

/-! ## Byte strings -/

/-- The little-endian value of a byte string (R4). -/
def leNat : Bytes → Nat
  | [] => 0
  | b :: bs => b.toNat + 256 * leNat bs

/-- The `n` little-endian bytes of a value, modulo 2^(8n) (R4). -/
def leBytes : Nat → Nat → Bytes
  | 0, _ => []
  | n + 1, v => BitVec.ofNat 8 v :: leBytes n (v / 256)

/-- `n` bytes from offset `o`; bytes beyond the end read as zero. -/
def sliceZ (bs : Bytes) (o n : Nat) : Bytes :=
  let t := (bs.drop o).take n
  t ++ List.replicate (n - t.length) 0

/-- The little-endian field of `n` bytes at offset `o`. -/
def fieldAt (bs : Bytes) (o n : Nat) : Nat := leNat ((bs.drop o).take n)

/-- `n` zero bytes. -/
def zeros (n : Nat) : Bytes := List.replicate n 0

/-- `⌈a ÷ b⌉`. -/
def ceilDiv (a b : Nat) : Nat := (a + b - 1) / b

/-- `a` rounded up to a multiple of `b`. -/
def roundUp (a b : Nat) : Nat := ceilDiv a b * b

/-- The byte string zero-filled to a multiple of `b` bytes. -/
def padTo (bs : Bytes) (b : Nat) : Bytes := bs ++ zeros (roundUp bs.length b - bs.length)

/-- Bits `hi:lo` of a value (R3). -/
def bits (v hi lo : Nat) : Nat := v / 2 ^ lo % 2 ^ (hi + 1 - lo)

/-- Bit `i` of a value. -/
def bit (v i : Nat) : Bool := v.testBit i

/-- The value with bit `i` set or cleared. -/
def setBit (v i : Nat) (b : Bool) : Nat :=
  if v.testBit i then (if b then v else v - 2 ^ i) else (if b then v + 2 ^ i else v)

/-- Number of set bits among bits `0 .. n-1`. -/
def popCount : Nat → Nat → Nat
  | 0, _ => 0
  | n + 1, v => popCount n v + (if v.testBit n then 1 else 0)

/-- The numbers of the set bits among bits `0 .. n-1`, increasing. -/
def setBits (n v : Nat) : List Nat := (List.range n).filter fun i => v.testBit i

/-- The number a signed field of `w` bits stands for. -/
def toSigned (w v : Nat) : Int :=
  if v % 2 ^ w < 2 ^ (w - 1) then (v % 2 ^ w : Nat) else (v % 2 ^ w : Nat) - (2 ^ w : Nat)

/-- The `w`-bit two's complement code of an integer. -/
def ofSigned (w : Nat) (i : Int) : Nat := (i % (2 ^ w : Nat)).toNat

/-- Number of bits up to and including the highest set bit; `bitLen 0 = 0` (R162). -/
def bitLen (v : Nat) : Nat := if v = 0 then 0 else v.log2 + 1

/-! ## Keyed tables -/

/-- A table keyed by a number, keys rising; what is not listed has the default that the reader names. -/
abbrev Tbl (α : Type) := List (Nat × α)

/-- The entry of key `k`, if listed. -/
def Tbl.find {α : Type} (t : Tbl α) (k : Nat) : Option α :=
  match t with
  | [] => none
  | (j, v) :: r => if j = k then some v else Tbl.find r k

/-- The entry of key `k`, or the default `d`. -/
def Tbl.get {α : Type} (t : Tbl α) (d : α) (k : Nat) : α :=
  match Tbl.find t k with
  | some v => v
  | none => d

/-- The table with `k` set to `v`. -/
def Tbl.set {α : Type} (t : Tbl α) (k : Nat) (v : α) : Tbl α :=
  match t with
  | [] => [(k, v)]
  | (j, w) :: r =>
    if k < j then (k, v) :: (j, w) :: r
    else if k = j then (k, v) :: r
    else (j, w) :: Tbl.set r k v

/-- The table without `k`. -/
def Tbl.del {α : Type} (t : Tbl α) (k : Nat) : Tbl α := t.filter fun p => p.1 ≠ k

/-- The entry of key `k` changed by `f`, starting from the default `d` when it is not listed. -/
def Tbl.upd {α : Type} (t : Tbl α) (d : α) (k : Nat) (f : α → α) : Tbl α :=
  Tbl.set t k (f (Tbl.get t d k))

/-! ## Sparse memory -/

/-- Memory as (address, byte) pairs, addresses strictly rising; a byte not listed reads as zero, and no
listed byte is zero (R58: every byte of the scratch and output windows is zero at entry). -/
abbrev Memory := List Host.Cell

/-- The byte at an address. (DESIGN CHOICE, log entry 27; DESIGN CHOICE, log entry 28) -/
def Memory.read (m : Memory) (a : Nat) : Byte := Tbl.get m 0 a

/-- The memory with one byte written, kept in canonical form. -/
def Memory.write (m : Memory) (a : Nat) (b : Byte) : Memory := if b = 0 then Tbl.del m a else Tbl.set m a b

/-- `n` bytes from address `a`. -/
def Memory.readN (m : Memory) (a : Nat) : Nat → Bytes
  | 0 => []
  | n + 1 => Memory.read m a :: Memory.readN m (a + 1) n

/-- The bytes written from address `a` up. -/
def Memory.writeN (m : Memory) (a : Nat) : Bytes → Memory
  | [] => m
  | b :: bs => Memory.writeN (Memory.write m a b) (a + 1) bs

/-- Whether every listed address lies above `lo`, the addresses rise strictly and no byte is zero. -/
def Memory.wfFrom : Option Nat → Memory → Bool
  | _, [] => true
  | none, (a, b) :: r => decide (b ≠ 0) && Memory.wfFrom (some a) r
  | some lo, (a, b) :: r => decide (lo < a) && decide (b ≠ 0) && Memory.wfFrom (some a) r

/-- The canonical form of memory. -/
def Memory.wf (m : Memory) : Bool := Memory.wfFrom none m

end Sys2Proof.Machine
end

