-- ==== Sys2Proof/Machine/Types.lean ====
section
/-! DEFINITION. The records that the machine's state is made of, one per kind of thing the spec names. Every
field has the value it takes at a cold reset as its default; each docstring names the rule of spec/ that gives
the field. Times are GTC ticks (R2); digests and blocks of data are byte strings (R4). -/

namespace Sys2Proof.Machine

/-! ## Streams, images and jobs -/

/-- R39, R50: the states of a stream, coded 0 to 5 in STREAM_STATE. -/
inductive StreamState
  | idle | loaded | running | paused | held | moved
  deriving DecidableEq, Repr

/-- R34: the states of a job that occupies a job record; FREE is the absence of a record. -/
inductive JobState
  | admitted | fetching | decoding | transforming | scoring | packed | delivered | retired | excluded
  deriving DecidableEq, Repr

/-- R27: one of the 16 image slots. -/
structure ImageSlot where
  /-- R23: the whole image, signed part and signature block; empty: the slot holds none. -/
  image : Bytes := []
  /-- R23: the image digest, SHA3-512 of the signed part. -/
  digest : Bytes := []
  /-- R50: LOAD_STATUS, the status of the last load into the slot. -/
  loadStatus : Nat := 0
  /-- R420: mirror records that pin the image. -/
  pins : Nat := 0
  /-- R137: stages whose lens record has been compiled to a mesh. -/
  meshes : List Nat := []
  deriving DecidableEq, Repr

/-- R338: a transfer being assembled (an image load, a snapshot, a firmware image, an OD value). -/
structure Assembly where
  /-- R338, R497: total length that the transfer stated. -/
  total : Nat := 0
  /-- R338, R497: bytes received so far. -/
  data : Bytes := []
  /-- R497: GTC of the last segment. -/
  at_ : Nat := 0
  deriving DecidableEq, Repr

/-- R34: one job. -/
structure Job where
  /-- R34: number of the job record. -/
  id : Nat
  /-- R34: the stream. -/
  stream : Nat
  /-- R34: the epoch. -/
  epoch : Nat := 0
  /-- R34: the position. -/
  pos : Nat := 0
  /-- R201: 0 for the position's own sample, t for its t-th replacement. -/
  try_ : Nat := 0
  /-- R144: the sample index. -/
  sample : Nat := 0
  /-- R38: the service class at admission. -/
  cls : Nat := 4
  /-- R34: the job state. -/
  state : JobState := .admitted
  /-- R35, R36: attempts used. -/
  attempts : Nat := 1
  /-- R48: the Caravan chosen. -/
  caravan : Nat := 0
  /-- R48: the core within the Caravan. -/
  core : Nat := 0
  /-- R43: host set H of the job, a bit per stage. -/
  hostSet : Nat := 0
  /-- R546: outputs of the completed stages, by stage ID. -/
  outputs : List (Nat × Bytes) := []
  /-- R546: the failing stage with the lowest ID so far, with its final status. -/
  failing : Option (Nat × Nat) := none
  /-- R34: the final status once it is fixed. -/
  status : Option Nat := none
  /-- R208: content digest of the sample's stored bytes. -/
  digest : Bytes := zeros 24
  /-- R306: the read of the stored sample, done once for every FETCH stage: its status, stored bytes and FLAGS. -/
  stored : Option (Nat × Bytes × Nat) := none
  /-- R319: delivery count of its batch. -/
  k : Nat := 0
  /-- R263, R268: buffers reserved: the pool that the image names, the pool that holds them (64 the S0 reserve) and
  their number. -/
  reserved : List (Nat × Nat × Nat) := []
  /-- R216: the release slot of a clock-exact stream. -/
  relSlot : Option Nat := none
  /-- R216: whether the job was released to its first covered stage. -/
  released : Bool := false
  /-- R193: the signature that a SCORE stage in SIGNATURE mode made, with the stage's RADIUS. -/
  sig : Option (Nat × Nat) := none
  /-- R340: the namespace and bytes that an INGEST command feeds to FETCH. -/
  ingest : Option (Nat × Bytes) := none
  /-- R174: CODEC stages whose blocks are all coded. -/
  coded : List Nat := []
  /-- R254, R256, R257: a word of its buffers has failed: the status that its next read of them receives. -/
  struck : Option Nat := none
  deriving DecidableEq, Repr

/-- R207: an entry of the manifest, with the output that it places. -/
structure Entry where
  /-- R207: SAMPLE_INDEX. -/
  sample : Nat := 0
  /-- R207: POSITION. -/
  pos : Nat := 0
  /-- R207: STATUS. -/
  status : Nat := 0
  /-- R207: TRY. -/
  try_ : Nat := 0
  /-- R230: KIND, 0 placed, 1 tail, 2 padded. -/
  kind : Nat := 0
  /-- R207: the 24-byte content digest. -/
  digest : Bytes := zeros 24
  /-- R198: the bytes that PACK places. -/
  output : Bytes := []
  /-- R234: a placed attempt of a restored snapshot whose payload is still to be rebuilt. -/
  rebuild : Bool := false
  deriving DecidableEq, Repr

/-- R197: the make-up of one batch. -/
structure BatchPlan where
  /-- R197: its positions, increasing. -/
  positions : List Nat := []
  /-- R197: in SEQUENCE mode, the first token of each position's span and its length. -/
  spans : List (Nat × Nat) := []
  /-- R206: OVERSIZE. -/
  oversize : Bool := false
  deriving DecidableEq, Repr

/-- R200, R318: how far an open batch has come. -/
inductive BatchState
  | open_ | settled | writing | ready
  deriving DecidableEq, Repr

/-- R200: a batch from the first admission of one of its positions until it is retired. -/
structure OpenBatch where
  /-- R319: delivery count since the start command. -/
  k : Nat
  /-- R206: EPOCH. -/
  epoch : Nat := 0
  /-- R197: batch number within the epoch. -/
  b : Nat := 0
  /-- R206: LAST. -/
  last : Bool := false
  /-- R197: its make-up. -/
  plan : BatchPlan := {}
  /-- R204: backfill cursor at the start of the batch. -/
  cursor0 : Nat := 0
  /-- R192: THRESH_GEN under which it is made. -/
  threshGen : Nat := 0
  /-- R192: thresholds in force for it. -/
  thresholds : List Nat := []
  /-- R201: settled attempts in settling order. -/
  entries : List Entry := []
  /-- R201: positions settled so far. -/
  settled : Nat := 0
  /-- R200: progress. -/
  state : BatchState := .open_
  /-- R206 to R208: manifest and payload once built. -/
  content : Bytes := []
  /-- R228: the batch digest. -/
  digest : Bytes := []
  /-- R377: DLV_SEQ taken on a fabric port. -/
  dlvSeq : Nat := 0
  /-- R327: the batch is being regenerated for a slot. -/
  redeliver : Bool := false
  /-- R44, R51: SPLIT_MODE in force when it opened; 0: it is not split. -/
  mode : Nat := 0
  /-- R45, R51: SPLIT_CUT in force when it opened. -/
  cut : Nat := 0x40
  /-- R319: its result slot. -/
  slot : Nat := 0
  deriving DecidableEq, Repr

/-- R318: the states of a result slot, coded 0 to 3. -/
inductive SlotState
  | free | pending | ready | retired
  deriving DecidableEq, Repr

/-- R318: one entry of the host die's slot table. -/
structure Slot where
  /-- R318: SLOT_STATE. -/
  state : SlotState := .free
  /-- R318: SLOT_SPLIT. -/
  split : Bool := false
  /-- R318: SLOT_BFILL. -/
  bfill : Bool := false
  /-- R318: SLOT_GEN, modulo 2^32. -/
  gen : Nat := 0
  /-- R318: SLOT_SEQ. -/
  seq : Nat := 0
  /-- R318: SLOT_BATCH. -/
  batch : Nat := 0
  /-- R318: SLOT_EPOCH. -/
  epoch : Nat := 0
  /-- R318: SLOT_FENCE. -/
  fence : Nat := 0
  /-- R318: SLOT_DIGEST_PTR. -/
  digestPtr : Nat := 0
  /-- R318: SLOT_STATUS. -/
  status : Nat := 0
  /-- R318: SLOT_READY_GTC. -/
  readyGtc : Nat := 0
  /-- R321: the content from offset 128; its length is SLOT_LENGTH. -/
  content : Bytes := []
  /-- R328: slot offsets of the 64-byte lines that are withheld, with their status. -/
  poisoned : List (Nat × Nat) := []
  /-- R332: HOST_STAGE_TIMEOUT was raised for the present content. -/
  timedOut : Bool := false
  deriving DecidableEq, Repr

/-- R185: a portion list received. -/
structure Portion where
  /-- R185: EPOCH. -/
  epoch : Nat
  /-- R185: SOURCE. -/
  source : Nat
  /-- R185: PORTION. -/
  portion : Nat
  /-- R185: its entries, SAMPLE_INDEX and LOGICAL_LEN. -/
  entries : List (Nat × Nat)
  deriving DecidableEq, Repr

/-- R201, R331: an epoch of a stream whose batches are open: its set, its order and its backfill cursor. -/
structure PastEpoch where
  /-- R206: EPOCH. -/
  epoch : Nat
  /-- R185: sorted, with the logical lengths. -/
  sorted : List (Nat × Nat) := []
  /-- R189: in exact mode, the samples by stream position. -/
  order : List Nat := []
  /-- R197: the batches of the epoch. -/
  plan : List BatchPlan := []
  /-- R201: backfill cursor. -/
  cursor : Nat := 0
  /-- R331: position of the previous backfill request of the epoch. -/
  lastBackfill : Option Nat := none
  deriving DecidableEq, Repr

/-- R38, R201, R216: a job that is to be admitted. -/
structure ToRun where
  /-- R319: delivery count of its batch. -/
  k : Nat := 0
  /-- R34: its position. -/
  pos : Nat := 0
  /-- R201: 0 for the position's own sample, t for its t-th replacement. -/
  try_ : Nat := 0
  /-- R144: its sample index. -/
  sample : Nat := 0
  /-- R216: its release slot, given to a replacement when the device creates it. -/
  slot : Option Nat := none
  /-- R331: the epoch that a backfill request names. -/
  epoch : Option Nat := none
  /-- R392: GTC at which it joined the queue of resource 16. -/
  since : Nat := 0
  deriving DecidableEq, Repr

/-- R51, R210: the settings of a stream that are in force, as against those written. -/
structure InForce where
  /-- R51: SPLIT_MODE in force. -/
  splitMode : Nat := 0
  /-- R51: SPLIT_CUT in force. -/
  splitCut : Nat := 0x40
  /-- R51: LOADBAL in force. -/
  loadbal : Bool := true
  /-- R51: CARAVAN_MASK in force. -/
  mask : Nat := 2 ^ 48 - 1
  /-- R51: MAX_IN_FLIGHT in force. -/
  maxInFlight : Nat := 1024
  /-- R210: BATCH_WINDOW in force. -/
  window : Nat := 4
  deriving DecidableEq, Repr

/-- R185 to R204: the run of a stream through its epochs. -/
structure RunSt where
  /-- R236: a cursor kept by a pipeline reset or brought by a restored snapshot. -/
  hasCursor : Bool := false
  /-- R235: the cursor is that of a restored snapshot. -/
  restored : Bool := false
  /-- R230: epoch cursor. -/
  epoch : Nat := 0
  /-- R230: EPOCH_SIZE of a restored cursor whose epoch has not begun. -/
  size : Nat := 0
  /-- R185: the epoch has begun. -/
  begun : Bool := false
  /-- R185: portion lists received and not yet used. -/
  lists : List Portion := []
  /-- R185: sorted, the epoch set in increasing index, with the logical lengths. -/
  sorted : List (Nat × Nat) := []
  /-- R189: in exact mode, the samples by stream position. -/
  order : List Nat := []
  /-- R197: the batches of the epoch. -/
  plan : List BatchPlan := []
  /-- R200: number of the next batch to open. -/
  nextOpen : Nat := 0
  /-- R38: jobs of the opened batches not yet admitted, in position order. -/
  toAdmit : List ToRun := []
  /-- R200: the open batches, oldest first. -/
  batches : List OpenBatch := []
  /-- R201: backfill cursor. -/
  cursor : Nat := 0
  /-- R319: batches opened since the start command. -/
  k : Nat := 0
  /-- R319: batches delivered since the start command. -/
  delivered : Nat := 0
  /-- R230: NEXT_BATCH, first batch not delivered. -/
  nextBatch : Nat := 0
  /-- R230: NEXT_POSITION as an index into the epoch's settling order. -/
  nextPos : Nat := 0
  /-- R204: backfill cursor at the start of NEXT_BATCH. -/
  batchCursor : Nat := 0
  /-- R185: the newest epoch for which this member has sent its portion lists. -/
  sentLists : Option Nat := none
  /-- R340: ingest jobs taken so far: the position of the next one. -/
  ingested : Nat := 0
  /-- R203: position held under R36. -/
  heldPos : Option Nat := none
  /-- R234: partial records of a restored snapshot still to be rebuilt. -/
  partials : List Entry := []
  /-- R331: position of the previous backfill request of the epoch. -/
  lastBackfill : Option Nat := none
  /-- R331: epoch and position that the accepted backfill request names, while its job runs. -/
  backfillFor : Option (Nat × Nat) := none
  /-- R331: earlier epochs of which batches are open. -/
  past : List PastEpoch := []
  deriving DecidableEq, Repr

/-- R214 to R227: the clock-exact state of a stream. -/
structure ExactSt where
  /-- R240: EXACT_STATE, 0 OFF, 2 EXACT, 3 LOST. -/
  state : Nat := 0
  /-- R218: EXACT_LOST_CAUSE. -/
  cause : Nat := 0
  /-- R215: EXACT_START_FAIL. -/
  startFail : Nat := 0
  /-- R240: EXACT_LATE. -/
  late : Nat := 0
  /-- R226: the launch window has come. -/
  launched : Bool := false
  /-- R226: T0, as a tick of the GTC clock. -/
  t0 : Nat := 0
  /-- R216: next unassigned release slot. -/
  nextSlot : Nat := 0
  /-- R227: GTC at which the start command arrived. -/
  startGtc : Nat := 0
  deriving DecidableEq, Repr

/-- R325 to R332, R377, R378: delivery of a stream. -/
structure DlvSt where
  /-- R320: the stream's slots, by slot number. -/
  slots : Tbl Slot := []
  /-- R325: DB_STATUS.LAST. -/
  dbLast : Nat := 0
  /-- R325: DB_STATUS.SLOT. -/
  dbSlot : Nat := 0
  /-- R325: DB_STATUS.COUNT. -/
  dbCount : Nat := 0
  /-- R325: DB_READY_SEQ and READY_SEQ. -/
  readySeq : Nat := 0
  /-- R325: DB_RETIRED_SEQ. -/
  retiredSeq : Nat := 0
  /-- R377: DLV_SEQ of the next batch. -/
  dlvSeq : Nat := 0
  /-- R378: last accepted GRANTED. -/
  granted : Nat := 0
  /-- R378: FENCE written by the consumer. -/
  creditFence : Nat := 0
  /-- R378: batches acknowledged. -/
  acked : Nat := 0
  /-- R378: DLV_CREDIT_KEY. -/
  creditKey : Nat := 0
  /-- R381: DLV_READ_KEY. -/
  readKey : Nat := 0
  /-- R381: DLV_LOCAL_QPN. -/
  localQpn : Nat := 0
  /-- R381: DLV_PD. -/
  pd : Nat := 0
  deriving DecidableEq, Repr

/-- R420 to R436: protection of a stream. -/
structure ProtSt where
  /-- R443: PROT_STATE, 0 to 4. -/
  state : Nat := 0
  /-- R443: PROT_CAUSE. -/
  cause : Nat := 0
  /-- R421: step of the mirror open that awaits its acknowledgement, 0 for none. -/
  openStep : Nat := 0
  /-- R422: MIRROR_NEXT_BATCH, latest acknowledged. -/
  ackedBatch : Nat := 0
  /-- R423: snapshots sent and not yet acknowledged: SNAP_SEQ, NEXT_BATCH and GTC of sending. -/
  unacked : List (Nat × Nat × Nat) := []
  /-- R429: FENCE_EPOCH. -/
  fenceEpoch : Nat := 0
  /-- R429: FENCE_OWNER. -/
  fenceOwner : Nat := 0
  /-- R424: MARK_GTC. -/
  markGtc : Nat := 0
  /-- R424: MARK_SEQ. -/
  markSeq : Nat := 0
  /-- R424: a mark being written: its bytes, its SNAP_SEQ, its GTC and the acknowledgements still awaited. -/
  pendingMark : Option (Bytes × Nat × Nat × Nat) := none
  /-- R424: GTC at which the last mark was begun. -/
  lastMark : Nat := 0
  /-- R435: target of a planned handoff in progress. -/
  moveTo : Option Nat := none
  /-- R443: MOVED_TO. -/
  movedTo : Nat := 0xFFFF
  deriving DecidableEq, Repr

/-- R39: one of the 64 streams, its OD settings apart. -/
structure Stream where
  /-- R39: STREAM_STATE. -/
  state : StreamState := .idle
  /-- R50: LAST_STATUS. -/
  lastStatus : Nat := 0
  /-- R233: a pause drains. -/
  draining : Bool := false
  /-- R210: MEMBER has been written since the defaults. -/
  memberWritten : Bool := false
  /-- R210: MEMBER kept once the stream has left LOADED. -/
  memberFixed : Option Nat := none
  /-- R51: settings in force. -/
  inForce : InForce := {}
  /-- R192: the staged thresholds, FP32 codes. -/
  staged : List Nat := List.replicate 16 0x7FC00000
  /-- R192: the thresholds in force. -/
  force : List Nat := List.replicate 16 0x7FC00000
  /-- R209: THRESH_GEN. -/
  threshGen : Nat := 0
  /-- R192: epoch at which the staged set was armed to apply, and the epoch begun when it was armed. -/
  armedAfter : Option Nat := none
  /-- R185 to R204: its run. -/
  run : RunSt := {}
  /-- R214: its clock-exact state. -/
  exact : ExactSt := {}
  /-- R325: its delivery. -/
  dlv : DlvSt := {}
  /-- R420: its protection. -/
  prot : ProtSt := {}
  /-- R232: the latest snapshot. -/
  snapshot : Option Bytes := none
  /-- R230: SNAP_SEQ of the latest snapshot. -/
  snapSeq : Nat := 0
  /-- R240: LAST_BATCH_DIGEST. -/
  lastBatchDigest : Bytes := zeros 64
  /-- R340: samples of an ingest stream that are open. -/
  openSamples : List Nat := []
  deriving DecidableEq, Repr

/-! ## Barchan cores, TMU and codec engines -/

/-- R89: a descriptor that the TMU copied at TISSUE. -/
structure TmuJob where
  /-- R89: its tag, 0 to 3. -/
  tag : Nat
  /-- R90: the 64 bytes copied. -/
  desc : Bytes
  deriving DecidableEq, Repr

/-- R58 to R61: one Barchan core. -/
structure Core where
  /-- R55: the job whose kernel the core runs; none: the core is at its entry state. -/
  job : Option Nat := none
  /-- R88: STAGE_ID of the running stage. -/
  stage : Nat := 0
  /-- R55: the kernel in the instruction store, 8-byte little-endian words. -/
  kernel : List Word := []
  /-- R60: program counter. -/
  pc : Nat := 0
  /-- R96: instructions retired by the attempt. -/
  steps : Nat := 0
  /-- R87: draw number. -/
  draw : Nat := 0
  /-- R58: scalar registers X1 to X31; X0 is not listed and reads zero. -/
  x : Tbl Word := []
  /-- R58: vector registers V0 to V31. -/
  v : Tbl (BitVec 1024) := []
  /-- R58: predicate registers P1 to P7; P0 is not listed and reads all ones. -/
  p : Tbl (BitVec 128) := []
  /-- R61: scratch window. -/
  scratch : Memory := []
  /-- R61: output window. -/
  output : Memory := []
  /-- R61: inputs, in predecessor order. -/
  inputs : List Bytes := []
  /-- R61: CONSTANTS section. -/
  consts : Bytes := []
  /-- R191: plaintext weights of a SCORE kernel's model. -/
  weights : Option Bytes := none
  /-- R31: MEM_LIMIT, KiB. -/
  memLimit : Nat := 0
  /-- R31: STEP_LIMIT, in units of 1,024 instructions. -/
  stepLimit : Nat := 0
  /-- R31: OUT_MAX_BYTES. -/
  outMax : Nat := 0
  /-- R145: the generator's key and counter base: K (16 bytes). -/
  rngKey : Bytes := []
  /-- R58: sample index, position and epoch of the job. -/
  sample : Nat := 0
  /-- R58: epoch of the job, for the counter of R145. -/
  epoch : Nat := 0
  /-- R89: outstanding TMU descriptors. -/
  tmu : List TmuJob := []
  deriving DecidableEq, Repr

/-- R174: the work that a codec engine holds or that waits in its save memory. -/
structure CodecWork where
  /-- R174: the job. -/
  job : Nat
  /-- R174: the stage. -/
  stage : Nat
  /-- R174: the job's class. -/
  cls : Nat
  /-- R174: blocks done. -/
  blocks : Nat := 0
  /-- R174: total blocks of the stream. -/
  total : Nat := 1
  /-- R173: the state saved when its engine turned to other work; an unreadable one is empty. -/
  state : Option Bytes := none
  /-- R174: the saved state is spilled to Oasis. -/
  spilled : Bool := false
  deriving DecidableEq, Repr

/-- R174: one of the 16 Ahnet codec engines. -/
structure CodecEngine where
  /-- R174: the work in progress. -/
  current : Option CodecWork := none
  /-- R174: waiting and saved work, oldest first. -/
  waiting : List CodecWork := []
  /-- R173: saved coder states held in the engine, at most 16. -/
  saved : Nat := 0
  deriving DecidableEq, Repr

/-! ## Memory, pools and buffers -/

/-- R258, R266: a pool's own state. -/
structure PoolSt where
  /-- R266: POOL_STATE, 0 to 3. -/
  state : Nat := 0
  /-- R258: OCCUPIED. -/
  occupied : Nat := 0
  /-- R258: PEAK. -/
  peak : Nat := 0
  /-- R258: SPILLS. -/
  spills : Nat := 0
  /-- R257: retired buffers, by index; in a CARAVAN pool the parts follow one another in the order of the Caravans. -/
  gone : List Nat := []
  /-- R268: buffers occupied in each Caravan's part. -/
  parts : Tbl Nat := []
  deriving DecidableEq, Repr

/-- R269, R270: an ALLOCATED buffer; a FREE buffer has no record. -/
structure Buffer where
  /-- R261: REQUESTER charged. -/
  requester : Nat := 0
  /-- R270: holders, with their bits; empty: not shared. -/
  holders : List (Nat × Bool) := []
  /-- R270: final owner. -/
  owner : Nat := 0
  /-- R270: ORPHANED. -/
  orphan : Bool := false
  /-- R257: holds a failed word. -/
  failed : Bool := false
  /-- R268: in a CARAVAN pool, the Caravan whose part it lies in. -/
  part : Option Nat := none
  deriving DecidableEq, Repr

/-- R271: a record of the release log. -/
structure RelLog where
  /-- R271: GTC. -/
  gtc : Nat
  /-- R271: releaser. -/
  requester : Nat
  /-- R271: status. -/
  status : Nat
  /-- R271: handle. -/
  handle : Nat
  deriving DecidableEq, Repr

/-- R248, R252: a 64-byte line of the DRAM data region that is not at rest. (DESIGN CHOICE, log entry 138) -/
structure DramLine where
  /-- R252: WRITTEN. -/
  written : Bool := true
  /-- R252: POISON. -/
  poison : Bool := false
  /-- R251: the tag stored at TAG_BASE + 8i. -/
  tag : Bytes := []
  deriving DecidableEq, Repr

/-! ## Flash -/

/-- R278, R297: what a block is used for. -/
inductive BlockUse
  | free | openHost | openReloc | openRefresh | closed | erasing | retired | reserved
  deriving DecidableEq, Repr

/-- R278: a row of the block table. -/
structure Block where
  /-- R278: state. -/
  use : BlockUse := .free
  /-- R278: erase count. -/
  erases : Nat := 0
  /-- R278: read count. -/
  reads : Nat := 0
  /-- R297: next slot to program. -/
  next : Nat := 0
  /-- R293: refresh scheduled. -/
  refresh : Bool := false
  /-- R297: chosen as a victim: it is erased once its valid units have been relocated. -/
  victim : Bool := false
  deriving DecidableEq, Repr

/-- R277: a programmed slot: its metadata and data. (DESIGN CHOICE, log entry 138) -/
structure NandUnit where
  /-- R277: LPN. -/
  lpn : Nat
  /-- R277: KEY_SLOT. -/
  key : Nat := 0
  /-- R277: the data, as plaintext under its key. -/
  data : Bytes := []
  /-- R292: the last read of the unit did not decode at any step. -/
  bad : Bool := false
  deriving DecidableEq, Repr

/-- R283: a journal record. -/
structure JRec where
  /-- R283: LPN. -/
  lpn : Nat
  /-- R283: VALUE. -/
  value : Nat
  /-- R283: TYPE, 1 MAP, 2 UNMAP, 3 LOST. -/
  type : Nat
  /-- R283: GROUP bits. -/
  group : Nat := 3
  deriving DecidableEq, Repr

/-- R283: a journal page. -/
structure JPage where
  /-- R283: BASE_SEQ. -/
  base : Nat
  /-- R283: its records, at most 254. -/
  recs : List JRec := []
  deriving DecidableEq, Repr

/-- R278, R285: what an anchor points to: the newest checkpoint and the journal. -/
structure Anchor where
  /-- R285: the oldest sequence number that a segment still needs. -/
  base : Nat := 0
  /-- R285: checkpoints, by segment: CKPT_SEQ and the segment's entries. -/
  ckpts : Tbl (Nat × Tbl Nat) := []
  /-- R278: the block tables as they were written with the checkpoint. -/
  blocks : Tbl Block := []
  deriving DecidableEq, Repr

/-- R280, R288: an entry of the volatile write buffer. -/
structure WbEntry where
  /-- R280: logical page. -/
  lpn : Nat
  /-- R280: data, 4,096 bytes. -/
  data : Bytes
  /-- R288: PUN of the program operation that holds the entry. -/
  pun : Option Nat := none
  /-- R347: JOURNAL class. -/
  journal : Bool := false
  /-- R277: key slot of its namespace. -/
  key : Nat := 0
  /-- R284: number of the write that it belongs to, whose map changes are one group. -/
  write : Nat := 0
  /-- R288: its program operation has reported success, and the group waits for the write's other pages. -/
  done : Bool := false
  deriving DecidableEq, Repr

/-- R294: a relocation in progress. -/
structure Copy where
  /-- R294: source PUN. -/
  src : Nat
  /-- R294: target PUN. -/
  dst : Nat
  /-- R294: LPN of the metadata. -/
  lpn : Nat
  /-- R294: step 1 has been done: the source has decoded. -/
  read : Bool := false
  /-- R294: the target's program operation has reported success. -/
  programmed : Bool := false
  /-- R294: steps 1 to 3 have been done: the target is verified. -/
  verified : Bool := false
  deriving DecidableEq, Repr

/-- R278 to R303: flash media. -/
structure FlashSt where
  /-- R278, R424: the stream-marks area: the two latest durable marks of each stream owned, newest first. -/
  marks : Tbl (List Bytes) := []
  /-- R275: enabled targets of each channel, a bit each. -/
  chips : Tbl Nat := []
  /-- R274: the cells are QLC, else TLC. -/
  qlc : Bool := false
  /-- R276: blocks per LUN. -/
  bpl : Nat := 0
  /-- R276: pages per block. -/
  ppb : Nat := 0
  /-- R274: LUNs per target. -/
  luns : Nat := 0
  /-- R279: blocks that the factory has marked bad. -/
  factoryBad : List Nat := []
  /-- R278: blocks of each channel set aside for the reserved areas, the anchor apart. -/
  aside : Tbl Nat := []
  /-- R278, R289: blocks that have taken the place of retired blocks of a reserved area. -/
  extra : List Nat := []
  /-- R279: good blocks of each media pool outside the reserved areas, at the start. -/
  good0 : Tbl Nat := []
  /-- R278: block table, by block number. -/
  blocks : Tbl Block := []
  /-- R280: map, by LPN; an LPN not listed is UNMAPPED. -/
  map : Tbl Nat := []
  /-- R277: programmed slots, by PUN. -/
  units : Tbl NandUnit := []
  /-- R283: journal pages, oldest first; the last is the journal buffer while it has not been programmed. -/
  journal : List JPage := []
  /-- R283: sequence number of the next record while no page is held. -/
  journalBase : Nat := 0
  /-- R288: sequence number of the first record not yet programmed, at the end of a page. -/
  journalDone : Nat := 0
  /-- R278: the newest anchor. -/
  root : Anchor := {}
  /-- R286: the anchor before it. -/
  older : Anchor := {}
  /-- R285: dirty segments, oldest change first, with the sequence number of that change. -/
  dirty : List (Nat × Nat) := []
  /-- R280: volatile write buffer. -/
  wbuf : List WbEntry := []
  /-- R284: number of the next write. -/
  nextWrite : Nat := 0
  /-- R291: contents of the flush region. -/
  flushed : List WbEntry := []
  /-- R291: blocks of the flush region that have been erased since its replay. -/
  flushErased : List Nat := []
  /-- R291: the flush region is being erased, so no write is admitted. -/
  erasingFlush : Bool := false
  /-- R294: relocations in progress. -/
  copies : List Copy := []
  /-- R298: patrol position: next LPN. -/
  patrol : Nat := 0
  /-- R308: patrol report, newest first, at most 4,096: GTC, LPN, PUN, step. -/
  report : List (Nat × Nat × Nat × Nat) := []
  /-- R300: pools CLOSED by a retirement. -/
  closedRetire : List Nat := []
  /-- R300: pools CLOSED because garbage collection can free nothing. -/
  closedGc : List Nat := []
  /-- R303: pools in which a closed block has gained an invalid unit, through a deallocation or a deletion, since garbage collection
  closed them. -/
  gained : List Nat := []
  /-- R300: the first write admitted after a pool became CLOSED. -/
  closedAt : Tbl Nat := []
  /-- R299: spare blocks, by pool, at the last change of FORMATTED. -/
  spareBase : Nat := 0
  /-- R299: blocks retired so far, by pool. -/
  retiredIn : Tbl Nat := []
  /-- R301: MEDIA_STATE READ_ONLY. -/
  readOnly : Bool := false
  deriving DecidableEq, Repr

/-! ## Corpora -/

/-- R304: a sample record. -/
structure SampleRec where
  /-- R304: BYTE_OFFSET. -/
  offset : Nat
  /-- R304: LENGTH. -/
  len : Nat
  /-- R304: LOGICAL_LEN. -/
  logical : Nat
  /-- R304: FLAGS, bit 0 PARTS, bit 1 AHNET, bit 2 DUPLICATE. -/
  flags : Nat := 0
  /-- R304: DIGEST. -/
  digest : Bytes := zeros 24
  deriving DecidableEq, Repr

/-- R340: a sample whose LAST piece has not arrived. -/
structure OpenSample where
  /-- R340: bytes held. -/
  data : Bytes := []
  /-- R340: flags of the first piece. -/
  flags : Nat := 0
  /-- R340: ingest stream, if VIA_STREAM. -/
  stream : Option Nat := none
  /-- R341: GTC of the last piece. -/
  at_ : Nat := 0
  /-- R340: the INGEST command of the LAST piece, whose completion waits: its submission queue and identifier. -/
  cmd : Option (Nat × Nat) := none
  deriving DecidableEq, Repr

/-- R178, R181, R304: a corpus namespace's own records. -/
structure Corpus where
  /-- R338: CORPUS_ID. -/
  id : Nat
  /-- R178: PLACE_SEED. -/
  seed : Nat := 0
  /-- R182: DRIFT_SHIFT. -/
  drift : Nat := 0
  /-- R181: geometry recorded. -/
  geometry : Nat := 0
  /-- R182: sealed. -/
  sealed : Bool := false
  /-- R304: sample records, by index. -/
  records : Tbl SampleRec := []
  /-- R340: open samples, by index. -/
  open_ : Tbl OpenSample := []
  /-- R341: indices of samples discarded by the 60 s rule. -/
  discarded : List Nat := []
  /-- R193: signatures, by sample index. -/
  sigs : Tbl Nat := []
  /-- R195: RADIUS of the SCORE stage that made the signatures. -/
  radius : Nat := 0
  /-- R304: next free byte of the namespace, a multiple of 128. -/
  next : Nat := 0
  /-- R429: fence record of each member location: epoch and owner. -/
  fences : Tbl (Nat × Nat) := []
  /-- R421: location sets held for other members: member, epoch and records. -/
  locSets : List (Nat × Nat × List (Nat × Nat)) := []
  /-- R182: members whose location role this device has taken over (R433). -/
  roles : List Nat := []
  /-- R186: the newest epoch that a stream on the corpus has begun on this device. -/
  newest : Nat := 0
  /-- R186: samples of which a copy has been sent to the member towards which they move. -/
  moving : List Nat := []
  deriving DecidableEq, Repr

/-- R194: a band recorded by its owner. -/
structure Band where
  /-- R194: CORPUS_ID. -/
  corpus : Nat
  /-- R194: band number. -/
  k : Nat
  /-- R194: band value. -/
  band : Nat
  /-- R194: sample index. -/
  sample : Nat
  /-- R194: the whole signature. -/
  sig : Nat
  deriving DecidableEq, Repr

/-! ## NVMe and CXL -/

/-- R336: a namespace. -/
structure Namespace where
  /-- R336: class, 0 NORMAL, 1 JOURNAL, 2 CORPUS. -/
  cls : Nat := 0
  /-- R336: TENANT_ID. -/
  tenant : Nat := 0
  /-- R336: capacity in extents of 1 GiB. -/
  extents : List Nat := []
  /-- R338: a CORPUS namespace's records. -/
  corpus : Option Corpus := none
  /-- R449: generation of the media key. -/
  key : Nat := 0
  deriving DecidableEq, Repr

/-- R310: a submission queue. -/
structure SQueue where
  /-- R335: entries. -/
  size : Nat := 0
  /-- R335: completion queue. -/
  cq : Nat := 0
  /-- R335: host address. -/
  base : Nat := 0
  /-- R310: head, next entry to take. -/
  head : Nat := 0
  /-- R310: tail doorbell. -/
  tail : Nat := 0
  /-- R343: commands started and not completed. -/
  busy : List Nat := []
  /-- R343: an ORDERED command is running. -/
  ordered : Bool := false
  deriving DecidableEq, Repr

/-- R310: a completion queue. -/
structure CQueue where
  /-- R335: entries. -/
  size : Nat := 0
  /-- R311: MSI-X vector. -/
  vector : Nat := 0
  /-- R335: host address. -/
  base : Nat := 0
  /-- R310: head doorbell. -/
  head : Nat := 0
  /-- R310: tail, where the device posts. -/
  tail : Nat := 0
  /-- R310: interrupts enabled. -/
  ien : Bool := false
  deriving DecidableEq, Repr

/-- R346: a write whose completion waits for flash. -/
structure WriteThrough where
  /-- R346: submission queue. -/
  sq : Nat
  /-- R346: command identifier. -/
  cid : Nat
  /-- R346: logical pages and data. -/
  pages : List (Nat × Bytes)
  /-- R277: key slot. -/
  key : Nat := 0
  /-- R344: JOURNAL class, whose unit of atomicity is one block. -/
  journal : Bool := false
  deriving DecidableEq, Repr

/-- R309 to R312, R334: the host die. -/
structure HostSt where
  /-- R349: LINK_RATE. -/
  linkRate : Nat := 0
  /-- R349: LINK_WIDTH. -/
  linkWidth : Nat := 0
  /-- R349: FLIT_MODE. -/
  flitMode : Nat := 0
  /-- R519: PERST_N is low. -/
  perst : Bool := false
  /-- R526: a CXL lane in 8 to 15 failed BIST, so the link trains at ×8. -/
  half : Bool := false
  /-- R526: a CXL lane in 0 to 7 or the CXL PLL failed BIST, so the link is not trained. -/
  noLink : Bool := false
  /-- R517: the configuration space is loaded. -/
  cfgLoaded : Bool := false
  /-- R517: configuration space registers written by the host, by offset. -/
  cfg : Tbl Nat := []
  /-- R310: MSI-X table entries and masks, by dword. -/
  msix : Tbl Nat := []
  /-- R310: MSI-X pending bits, a bit per vector. -/
  msixPending : Nat := 0
  /-- R309, R310: values written to the CXL component and memory device registers, the HDM decoders among them, by BAR0
  offset. -/
  cxlRegs : Tbl Nat := []
  /-- R334: NVMe controller registers, by offset (CC, AQA, ASQ, ACQ, INTMS). -/
  nvmeRegs : Tbl Nat := []
  /-- R518: CC.EN. -/
  enabled : Bool := false
  /-- R518: CSTS.RDY. -/
  ready : Bool := false
  /-- R518: CSTS.CFS. -/
  cfs : Bool := false
  /-- R310: submission queues, 0 the admin queue. -/
  sqs : Tbl SQueue := []
  /-- R310: completion queues. -/
  cqs : Tbl CQueue := []
  /-- R335: features set, by identifier. -/
  features : Tbl Nat := []
  /-- R335: outstanding Asynchronous Event Requests, by command identifier. -/
  aers : List Nat := []
  /-- R348: asynchronous events that wait for a request: type, info, log page. -/
  events : List (Nat × Nat × Nat) := []
  /-- R336: namespaces, by NSID. -/
  nss : Tbl Namespace := []
  /-- R280: extents in use. -/
  extents : List Nat := []
  /-- R335: namespaces attached to the controller. -/
  attached : List Nat := []
  /-- R348: Changed Namespace List. -/
  changed : List Nat := []
  /-- R348: Error Information entries, newest first, at most 64: SQ, CID, status. -/
  errors : List (Nat × Nat × Nat) := []
  /-- R335: aborts of commands not yet started: submission queue, identifier and entries of the queue still ahead. -/
  aborts : List (Nat × Nat × Nat) := []
  /-- R348: Critical Warning bits that an event has signalled. -/
  warned : Nat := 0
  /-- R346: write-through writes in progress. -/
  throughs : List WriteThrough := []
  /-- R338: image loads being assembled, by load ID. -/
  loads : Tbl Assembly := []
  /-- R338: snapshots being assembled, by stream. -/
  restores : Tbl Assembly := []
  /-- R335: firmware image downloaded. -/
  fwBuf : Memory := []
  /-- R335: length of the firmware image downloaded. -/
  fwLen : Nat := 0
  /-- R309: CXL memory device event records, by log. -/
  cxlEvents : Tbl (List Bytes) := []
  /-- R449: namespaces created so far, the generation of media keys. -/
  keyGen : Nat := 1
  deriving DecidableEq, Repr

/-! ## Midway -/

/-- R355, R356: a frame, header, payload and trailer. -/
structure Frame where
  /-- R355: FTYPE. -/
  ftype : Nat := 0
  /-- R355: VL. -/
  vl : Nat := 0
  /-- R355: LSEQ. -/
  lseq : Nat := 0
  /-- R355: LACK. -/
  lack : Nat := 0
  /-- R355: TENANT. -/
  tenant : Nat := 0
  /-- R355: DST coordinates. -/
  dst : Nat := 0
  /-- R355: SRC coordinates. -/
  src : Nat := 0
  /-- R355: ESC. -/
  esc : Bool := false
  /-- R355: DL. -/
  dl : Bool := false
  /-- R355: MSG_ID. -/
  msgId : Nat := 0
  /-- R355: OFFSET. -/
  offset : Nat := 0
  /-- R355: TOTAL_LEN. -/
  total : Nat := 0
  /-- R355: OP. -/
  op : Nat := 0
  /-- R355: DQP. -/
  dqp : Nat := 0
  /-- R355: FENCE_EPOCH. -/
  fence : Nat := 0
  /-- R355: RKEY. -/
  rkey : Nat := 0
  /-- R355: RBASE. -/
  rbase : Nat := 0
  /-- R355: payload, PAYLOAD_LEN bytes. -/
  payload : Bytes := []
  /-- R356: MSG_DIGEST. -/
  digest : Bytes := []
  /-- R356: FEC decode succeeds on arrival. -/
  decodes : Bool := true
  /-- R356: the FCS with which it arrives; none: the one that its other fields give. -/
  fcs : Option Nat := none
  /-- R381: codewords of the frame that FEC corrected on arrival. -/
  fec : Nat := 0
  deriving DecidableEq, Repr

/-- R353: the states of a link, coded 0 to 4. -/
inductive LinkState
  | down | training | up | fenced | retrain
  deriving DecidableEq, Repr

/-- R359, R363: a frame that waits in the device: for credits, or at its output port. -/
structure QFrame where
  /-- R363: the frame. -/
  frame : Frame
  /-- R363: GTC since which it waits. -/
  since : Nat
  /-- R359: credits returned when it leaves its input buffer: port, 3·VL + buffer, units. -/
  back : Option (Nat × Nat × Nat) := none
  /-- R362: dimension of the hop by which it arrived. -/
  dim : Option Nat := none
  /-- R363: it is the first frame of its message at this device. -/
  first : Bool := true
  deriving DecidableEq, Repr

/-- R376, R386: a RoCEv2 request that arrived from the network. -/
structure RocePkt where
  /-- R376: 0 RDMA WRITE, 1 RDMA READ, 2 SEND. -/
  op : Nat
  /-- R376: its queue pair. -/
  qp : Nat
  /-- R370: the key it names. -/
  rkey : Nat := 0
  /-- R376: the address it names. -/
  addr : Nat := 0
  /-- R376: the length that a read asks for. -/
  len : Nat := 0
  /-- R376: the data of a write. -/
  data : Bytes := []
  /-- R382: its service class. -/
  cls : Nat := 0
  /-- R386: its DSCP is one of those in YELLOW_DSCP. -/
  marked : Bool := false
  /-- R392: GTC of its arrival. -/
  since : Nat := 0
  deriving DecidableEq, Repr

/-- R353 to R361: a fabric port. -/
structure Port where
  /-- R353: LINK_STATE. -/
  link : LinkState := .down
  /-- R353: LINK_VERSION. -/
  version : Nat := 0
  /-- R381: PORT_DOWN_CAUSE. -/
  cause : Nat := 0
  /-- R381: PEER_PARTITION. -/
  peerPartition : Nat := 0
  /-- R353: the PCS has locked. -/
  pcs : Bool := false
  /-- R360: LSEQ of the next DATA frame to send. -/
  txSeq : Nat := 0
  /-- R360: LSEQ expected. -/
  rxSeq : Nat := 0
  /-- R360: replay buffer: LSEQ and frame, oldest first. -/
  held : List (Nat × Frame) := []
  /-- R361: replays of the oldest held frame. -/
  replays : Nat := 0
  /-- R360: GTC at which LACK last advanced. -/
  lackGtc : Nat := 0
  /-- R360: a NAK was sent for the present gap. -/
  nakSent : Bool := false
  /-- R361: GTC at which RETRAIN began. -/
  retrainGtc : Nat := 0
  /-- R357: credits granted by the peer since link up, by 3·VL + buffer. -/
  granted : Tbl Nat := []
  /-- R358: credits used since link up, by 3·VL + buffer. -/
  used : Tbl Nat := []
  /-- R359: credits granted to the peer since link up, by 3·VL + buffer. -/
  given : Tbl Nat := []
  /-- R358, R359: units of frames that still stand in this port's buffers since before the link last went DOWN, by
  3·VL + buffer: they are not returned on the new link. -/
  stale : Tbl Nat := []
  /-- R463: the counts shown while a scrub of DEVICE scope keeps them frozen. -/
  frozen : Option (Tbl Nat) := none
  /-- R359: GTC of the last CREDIT frame. -/
  creditGtc : Nat := 0
  /-- R359: a credit count has changed since the last CREDIT frame. -/
  creditDue : Bool := false
  /-- R385: frames queued for the port, oldest first. -/
  queue : List QFrame := []
  /-- R387: frames held RED in a receive buffer, each since its arrival. -/
  red : List QFrame := []
  /-- R387: RoCEv2 packets held RED in a receive buffer. -/
  redRoce : List RocePkt := []
  /-- R374: packets in the miss buffer. -/
  miss : List Frame := []
  /-- R375: packets that stay in their VL buffer while the miss buffer is full. -/
  stalled : List Frame := []
  /-- R222: hop count that the port's neighbour last sent, 0xFF none. -/
  hops : Nat := 0xFF
  deriving DecidableEq, Repr

/-- R364: a reassembly entry. -/
structure Reasm where
  /-- R364: source coordinates. -/
  src : Nat
  /-- R364: MSG_ID. -/
  msgId : Nat
  /-- R364: the first packet's header, which later packets must agree with. -/
  head : Frame
  /-- R364: bytes written, by offset. -/
  data : Memory := []
  /-- R364: bytes received. -/
  received : Nat := 0
  /-- R366: GTC of the last packet. -/
  at_ : Nat := 0
  /-- R364: receive buffers allocated: their pool and number. -/
  buffers : Nat × Nat := (0, 0)
  /-- R268: in a CARAVAN pool, the Caravan whose part they lie in. -/
  part : Option Nat := none
  deriving DecidableEq, Repr

/-- R367: what a message is for. -/
inductive Purpose
  | none_ | portion | band | od | deliver | store | migrate
  deriving DecidableEq, Repr

/-- R367, R368: a message sent and not yet answered. -/
structure OutMsg where
  /-- R367: MSG_ID. -/
  msgId : Nat
  /-- R355: header fields that every packet of it carries. -/
  head : Frame
  /-- R364: the message bytes. -/
  data : Bytes := []
  /-- R367: resends so far. -/
  resends : Nat := 0
  /-- R368: BUSY answers so far. -/
  busy : Nat := 0
  /-- R368: GTC at which it is sent again after BUSY. -/
  retryAt : Option Nat := none
  /-- R367: what it is for. -/
  purpose : Purpose := .none_
  /-- R367: stream concerned. -/
  subject : Nat := 0
  deriving DecidableEq, Repr

/-- R369, R371, R373: a queue pair context. -/
structure Qp where
  /-- R369: protection domain. -/
  pd : Nat := 0
  /-- R371: fence epoch held. -/
  fence : Nat := 0
  /-- R429: fence owner held. -/
  owner : Nat := 0
  /-- R373: message credits granted. -/
  credits : Nat := 0
  /-- R373: SENDs received. -/
  sends : Nat := 0
  /-- R364: receive pool. -/
  pool : Nat := 0
  /-- R374: cached. -/
  cached : Bool := false
  /-- R376: a RoCEv2 queue pair. -/
  roce : Bool := false
  /-- R376: stream it delivers for. -/
  stream : Nat := 0
  /-- R376: next PSN to send. -/
  psn : Nat := 0
  /-- R376: retransmissions of the oldest unacknowledged request. -/
  retries : Nat := 0
  /-- R376: unacknowledged batches: DLV_SEQ and last PSN. -/
  unacked : List (Nat × Nat) := []
  /-- R379: sending rate in sixteenths of a percent of the port: 1,600 is the full rate. -/
  rate : Nat := 1600
  /-- R379: GTC of the last CNP received. -/
  cnpGtc : Nat := 0
  /-- R379: GTC of the last CNP sent. -/
  cnpSent : Nat := 0
  /-- R379: packets marked ECN-CE have been received since then. -/
  marked : Bool := false
  deriving DecidableEq, Repr

/-- R370: a registered region. -/
structure Region where
  /-- R370: the random tag, bits 31:16 of the key. -/
  tag : Nat := 0
  /-- R370: protection domain. -/
  pd : Nat := 0
  /-- R370: base address in the device. -/
  base : Nat := 0
  /-- R370: length. -/
  len : Nat := 0
  /-- R370: may be read. -/
  read : Bool := false
  /-- R370: may be written. -/
  write : Bool := false
  /-- R378, R380: 0 plain memory, 1 credit window of a stream, 2 exposed result window of a stream. -/
  kind : Nat := 0
  /-- R378: the stream. -/
  stream : Nat := 0
  deriving DecidableEq, Repr

/-- R365: a message delivered to its queue pair and not yet acted on. -/
structure InMsg where
  /-- R362: its source. -/
  src : Nat
  /-- R364: its queue pair. -/
  qp : Nat
  /-- R365: its bytes. -/
  data : Bytes
  /-- R364: pool of its receive buffers. -/
  pool : Nat := 0
  /-- R364: their number. -/
  count : Nat := 0
  /-- R268: in a CARAVAN pool, the Caravan whose part they lie in. -/
  part : Option Nat := none
  deriving DecidableEq, Repr

/-- R350 to R381: the fabric. -/
structure FabricSt where
  /-- R351: the ports. -/
  ports : Tbl Port := []
  /-- R363: frames that wait for credits. -/
  waiting : List QFrame := []
  /-- R363: messages of other devices of which a frame has come through, newest first, at most 16,384. -/
  seen : List (Nat × Nat) := []
  /-- R364: reassembly entries. -/
  reasm : List Reasm := []
  /-- R367: messages sent. -/
  msgs : List OutMsg := []
  /-- R355: next MSG_ID. -/
  nextMsg : Nat := 0
  /-- R369: queue pairs. -/
  qps : Tbl Qp := []
  /-- R369: protection domains: tenant. -/
  pds : Tbl Nat := []
  /-- R370: regions, by number. -/
  regions : Tbl Region := []
  /-- R370: contents of plain regions, by address. -/
  mem : Memory := []
  /-- R365: messages delivered to their queue pair and not yet acted on. -/
  inbox : List InMsg := []
  deriving DecidableEq, Repr

/-! ## Service classes -/

/-- R383, R384, R392: a class queue of a resource. -/
structure Queue where
  /-- R384: committed tokens, units × 10^9. -/
  tc : Nat := 0
  /-- R384: peak tokens, units × 10^9. -/
  tp : Nat := 0
  /-- R384: last refill. -/
  last : Nat := 0
  /-- R383: the buckets are at their reset or rewritten size, full. -/
  full : Bool := true
  /-- R385: units waiting: size and GTC of arrival, oldest first. -/
  waiting : List (Nat × Nat) := []
  /-- R392: longest wait of a unit that left since the last sample. -/
  maxWait : Nat := 0
  deriving DecidableEq, Repr

/-- R388, R390: a gate port. -/
structure Gate where
  /-- R388: operational list. -/
  oper : List Nat := [0x0F4240FF]
  /-- R390: armed change: base and list. -/
  armed : Option (Nat × List Nat) := none
  /-- R388: current entry. -/
  cur : Nat := 0
  /-- R388: GTC at which the current entry began. -/
  start : Nat := 0
  /-- R391: closed S0 run that straddles the last switch. -/
  straddle : Nat := 0
  deriving DecidableEq, Repr

/-! ## Ringmasters, mailboxes, domains -/

/-- R399 to R401: a Ringmaster processor. -/
structure Rm where
  /-- R400: RM_STATE, 0 RUNNING, 1 RESTARTING, 2 HALTED. -/
  state : Nat := 0
  /-- R417: WDT_EXPIRIES. -/
  expiries : Nat := 0
  /-- R401: GTCs of the expiries that count. -/
  times : List Nat := []
  /-- R417: RM_LAST_RESTART. -/
  lastRestart : Nat := 0
  /-- R440: hung by RM_HANG. -/
  hung : Bool := false
  deriving DecidableEq, Repr

/-- R403: one direction of a channel. -/
structure MbxDir where
  /-- R403: PTR. -/
  ptr : Nat := 0
  /-- R403: LEN. -/
  len : Nat := 0
  /-- R403: SEQ. -/
  seq : Nat := 0
  /-- R403: SENDER. -/
  sender : Nat := 0
  /-- R406: the body. -/
  body : Bytes := []
  deriving DecidableEq, Repr

/-- R404: the status bits of a device end of a mailbox channel, in the spine's CTL space. -/
structure MbxEnd where
  /-- R407: EMPTY_IRQ. -/
  emptyIrq : Bool := false
  /-- R405: WAKE. -/
  wake : Bool := false
  /-- R405: OVERRUN. -/
  overrun : Bool := false
  deriving DecidableEq, Repr

/-- R404: a channel: its two directions and its host window. -/
structure Chan where
  /-- R405: the message towards the device; none: TX_FULL is 0. -/
  tx : Option MbxDir := none
  /-- R405: the message towards the host; none: RX_FULL is 0. -/
  rx : Option MbxDir := none
  /-- R404: MBX_SEND_PTR. -/
  sendPtr : Nat := 0
  /-- R404: EMPTY_IRQ. -/
  emptyIrq : Bool := false
  /-- R404: WAKE. -/
  wake : Bool := false
  /-- R404: OVERRUN. -/
  overrun : Bool := false
  /-- R404: FLUSHED. -/
  flushed : Bool := false
  /-- R404: DENIED. -/
  denied : Bool := false
  /-- R404: IRQ_EN. -/
  irqEn : Bool := false
  /-- R404: MBX_RXBUF_BASE. -/
  rxBase : Nat := 0
  /-- R404: MBX_RXBUF_LEN. -/
  rxLen : Nat := 0
  /-- R417: CHAN_POSTED. -/
  posted : Nat := 0
  /-- R417: CHAN_TAKEN. -/
  taken : Nat := 0
  /-- R406: messages that the device has taken and not yet answered. -/
  inbox : List MbxDir := []
  /-- R404: the status bits of the device end; of two device ends, of the first in R402's table. -/
  first : MbxEnd := {}
  /-- R404: the status bits of the second of two device ends. -/
  second : MbxEnd := {}
  /-- R402: the device's sender IDs whose MBX_STATUS of this channel has DENIED set. -/
  deniedTo : List Nat := []
  deriving DecidableEq, Repr

/-- R410, R442: a notice. -/
structure Notice where
  /-- R410: KIND. -/
  kind : Nat
  /-- R410: STATUS. -/
  status : Nat := 0
  /-- R410: SUBJECT. -/
  subject : Nat := 0
  /-- R410: GTC. -/
  gtc : Nat := 0
  /-- R410: DETAIL. -/
  detail : Nat := 0
  deriving DecidableEq, Repr

/-- R411, R417: a power domain. -/
structure Domain where
  /-- R417: DOMAIN_STATE, 0 ON, 1 SLEEP, 2 OFF, 3 in transition. -/
  state : Nat := 0
  /-- R414: state to which a transition leads. -/
  going : Nat := 0
  /-- R416: a request that arrived during a transition. -/
  next : Option Nat := none
  /-- R413: a wake source arrived during a transition to SLEEP. -/
  wakeAfter : Bool := false
  /-- R413: accesses held until the domain is ON. -/
  held : Nat := 0
  /-- R417: WAKES. -/
  wakes : Nat := 0
  /-- R417: OFF_ACCESSES. -/
  offAccesses : Nat := 0
  /-- R526, R440, R469: held OFF. -/
  heldOff : Bool := false
  deriving DecidableEq, Repr

/-! ## Fault tolerance -/

/-- R420, R443: a mirror record. -/
structure Mirror where
  /-- R443: MIR_STATE, 1 OPENING, 2 MIRRORING, 3 TAKING_OVER. -/
  state : Nat := 1
  /-- R443: MIR_OWNER. -/
  owner : Nat := 0xFFFF
  /-- R443: MIR_STREAM. -/
  stream : Nat := 0xFF
  /-- R421: image digest of the mirrored stream. -/
  image : Bytes := []
  /-- R421: tenant of the stream. -/
  tenant : Nat := 0
  /-- R421: settings block: index, subindex and value of every RW object. -/
  settings : List (Nat × Nat) := []
  /-- R422: latest snapshot. -/
  snapshot : Bytes := []
  /-- R422: SNAP_SEQ of it. -/
  seq : Nat := 0
  /-- R443: MIR_NEXT_BATCH. -/
  nextBatch : Nat := 0
  /-- R443: MIR_FENCE, and the owner of the record held. -/
  fence : Nat × Nat := (0, 0)
  /-- R424: the two latest marks of the stream, newest first. -/
  marks : List Bytes := []
  /-- R421: corpus and member of the stream. -/
  member : Nat × Nat := (0, 0)
  /-- R436: coordinates of the stream's PROTECTED partner, when this record is OPENING. -/
  partner : Nat := 0xFFFF
  deriving DecidableEq, Repr

/-- R425 to R443: fault tolerance. -/
structure FtSt where
  /-- R443: DEVICE_STATE, 0 SERVING, 1 SELF_FENCED, 2 SIM_DEATH. -/
  state : Nat := 0
  /-- R426: the FAILED set, coordinates. -/
  failed : List Nat := []
  /-- R443: LAST_FAILED. -/
  lastFailed : Nat := 0xFFFF
  /-- R426: GTC of the last heartbeat received, by coordinates. -/
  heard : Tbl Nat := []
  /-- R426: GTC of the declaration of each FAILED device, by coordinates. -/
  declared : Tbl Nat := []
  /-- R425: GTC of the last heartbeat sent; none: not yet. -/
  sent : Option Nat := none
  /-- R420: mirror records. -/
  mirrors : Tbl Mirror := []
  /-- R440: active hook: number, argument and GTC of its end. -/
  hook : Option (Nat × Nat × Nat) := none
  /-- R443: what the ended hook is still restoring: hook and argument. -/
  restoring : Option (Nat × Nat) := none
  /-- R441: HOOK_CAUSE. -/
  hookCause : Nat := 0
  /-- R515: no FAILED message for this device has arrived since the cold reset, so the first makes it rejoin by itself. -/
  autoRejoin : Bool := true
  deriving DecidableEq, Repr

/-! ## Security -/

/-- R456, R457: a released model key. -/
structure Release where
  /-- R455: TENANT_ID. -/
  tenant : Nat
  /-- R455: MODEL_DIGEST. -/
  digest : Bytes
  /-- R455: the key. -/
  key : Bytes
  /-- R457: the weights are placed, decrypted and checked. -/
  loaded : Bool := false
  /-- R457: the weights lie in the model region of Oasis. -/
  oasis : Bool := false
  /-- R457: the plaintext weights. -/
  weights : Bytes := []
  deriving DecidableEq, Repr

/-- R456: evidence that the enclave signed. -/
structure Signed where
  /-- R452: NONCE. -/
  nonce : Bytes
  /-- R452: GTC. -/
  gtc : Nat
  /-- R452: TENANT_ID filter. -/
  tenant : Nat
  /-- R454: UPDATE_PENDING was set. -/
  pending : Bool
  deriving DecidableEq, Repr

/-- R461 to R464: a tenant scrub. -/
structure Scrub where
  /-- R461: TENANT_ID, or 0xFFFF_FFFF for DEVICE scope. -/
  scope : Nat
  /-- R462: SCRUB_STEP in progress, 1 to 6. -/
  step : Nat := 1
  /-- R462: step 4b is in progress. -/
  overwriting : Bool := false
  /-- R463: queue pairs that step 1 has destroyed. -/
  qps : List Nat := []
  /-- R446: life-cycle state to burn when the scrub ends. -/
  thenState : Option Nat := none
  deriving DecidableEq, Repr

/-- R460: a firmware slot. -/
structure FwSlot where
  /-- R460: the image. -/
  image : Bytes := []
  /-- R460: security version. -/
  svn : Nat := 0
  /-- R506: version. -/
  version : Nat := 0
  deriving DecidableEq, Repr

/-- R444 to R466: the enclave. -/
structure SecSt where
  /-- R444: LC_STATE. -/
  lc : Nat := 0
  /-- R446: LC_PENDING, when a transition has been accepted. -/
  pending : Option Nat := none
  /-- R446: LC_NONCE draws so far. -/
  nonceNo : Nat := 0
  /-- R445: LC_AUTH. -/
  auth : Bytes := []
  /-- R449: the seed is fused. -/
  uds : Bool := false
  /-- R447: the seed-lock fuse is blown. -/
  seedLock : Bool := false
  /-- R456: release keys drawn so far; the current one is the last. -/
  kemNo : Nat := 0
  /-- R456: released model keys, by TENANT_ID × 256 + release slot. -/
  released : Tbl Release := []
  /-- R459: released snapshot keys, by TENANT_ID. -/
  snapKeys : Tbl Bytes := []
  /-- R456: evidence signed under the current release key. -/
  signed : List Signed := []
  /-- R467: EVIDENCE. -/
  evidence : Bytes := []
  /-- R461: scrub in progress. -/
  scrub : Option Scrub := none
  /-- R467: SCRUB_STATE DONE. -/
  scrubDone : Bool := false
  /-- R467: SCRUB_DONE_GTC. -/
  scrubGtc : Nat := 0
  /-- R460: firmware slots 0 and 1. -/
  fw : Tbl FwSlot := []
  /-- R460: active firmware slot. -/
  active : Nat := 0
  /-- R454: firmware slot to activate at the next reset. -/
  commit : Option Nat := none
  /-- R465: a commit with action 3 was accepted during a scrub: its reset begins after step 6. -/
  waits : Bool := false
  /-- R460: FW_SVN. -/
  svn : Nat := 0
  /-- R502: FACTORY credential. -/
  factoryCred : Option Bytes := none
  /-- R502: OPERATOR credentials. -/
  operatorCreds : Tbl Bytes := []
  /-- R449: generation of each DRAM key, by key ID. -/
  dramKeys : Tbl Nat := []
  deriving DecidableEq, Repr

/-! ## Power, clocks and the hold-up bank -/

/-- R469 to R475: power and clocks. -/
structure PowerSt where
  /-- R474: thermal demand, 0 to 4. -/
  thermal : Nat := 0
  /-- R474: power demand, 0 to 4. -/
  power : Nat := 0
  /-- R474: GTC since which the junction has been 3 °C below the entry point. -/
  coolSince : Option Nat := none
  /-- R474: GTC since which the power has been below 95 %. -/
  lowSince : Option Nat := none
  /-- R475: GTC since which a junction has been above 105 °C at T4. -/
  hotSince : Option Nat := none
  /-- R485: TJ_NOW. -/
  tj : Int := 0
  /-- R485: TJ_PEAK. -/
  tjPeak : Int := 0
  /-- R485: INPUT_VOLTAGE, mV. -/
  inputMv : Nat := 0
  /-- R485: INPUT_POWER, W. -/
  inputW : Nat := 0
  /-- R505: energy at the 12 V input since the cold reset, mJ. -/
  energy : Nat := 0
  /-- R472: units whose cycles are suppressed: 0 to 47 a Caravan, 48 the spine. -/
  droop : List Nat := []
  /-- R471: GTC at which REFCLK was lost. -/
  refLost : Option Nat := none
  deriving DecidableEq, Repr

/-- R477 to R482: the hold-up bank. -/
structure HoldUp where
  /-- R477: HU_STATE, 0 ABSENT, 1 CHARGING, 2 READY, 3 TESTING, 4 FAULT. -/
  state : Nat := 0
  /-- R477: bank voltage, mV. -/
  mv : Nat := 0
  /-- R477: bank current, mA, positive into the bank. -/
  ma : Int := 0
  /-- R477, R541: the whole degrees Celsius at or below the bank temperature. -/
  temp : Int := 0
  /-- R477: HU_TEMP, an I8 code. -/
  tempRead : Nat := 0
  /-- R480: k_T in hundredths. -/
  kt : Nat := 100
  /-- R479: C_est, µF; none before the first estimate. -/
  cEst : Option Nat := none
  /-- R479: ESR_est, µΩ. -/
  esr : Nat := 0
  /-- R485: HU_E_USABLE, J. -/
  eUsable : Nat := 0
  /-- R481: HU_D_ALLOW, bytes. -/
  dAllow : Nat := 0
  /-- R478: the charger is on (HU_EN high). -/
  charging : Bool := false
  /-- R477: GTC since which the bank has been charging, with the voltage then. -/
  chargeFrom : Option (Nat × Nat) := none
  /-- R479: the estimate: the HU_VSNS codes of V0 and of the voltage after the ESR step (none before it), and the charge so
  far in nC. -/
  test : Option (Nat × Option Nat × Nat) := none
  /-- R477: the bank did not rise in the last 60 s of charging. -/
  stuck : Bool := false
  /-- R477: the bank was below 5 V after the last 60 s of charging. -/
  low : Bool := false
  /-- R526: an ADC channel of the bank failed BIST. -/
  adcBad : Bool := false
  /-- R477: HU_VSNS code of the last sample. -/
  code : Nat := 0
  /-- R485: HU_LAST_TEST. -/
  lastTest : Nat := 0
  /-- R483: PF_COUNT. -/
  pfCount : Nat := 0
  /-- R483: PF_LAST_MS. -/
  pfMs : Nat := 0
  /-- R483: PF_LAST_BYTES. -/
  pfBytes : Nat := 0
  deriving DecidableEq, Repr

/-- R483: why a flush runs. -/
inductive FlushFor
  | powerFail | haltFault | clockFault | reset | warm
  deriving DecidableEq, Repr

/-- R483: a flush in progress. -/
structure Flush where
  /-- R483: step in progress, 1 to 5. -/
  step : Nat := 1
  /-- R483: its cause. -/
  why : FlushFor
  /-- R483: GTC at which it began. -/
  began : Nat := 0
  /-- R484: PWR_FAIL_N has returned high. -/
  returned : Bool := false
  deriving DecidableEq, Repr

/-! ## Management -/

/-- R489: the role that a request acts with. -/
inductive Role
  | operator | tenant (id : Nat) | factory
  deriving DecidableEq, Repr

/-- R503, R504: where a request comes from. -/
inductive OdSource
  | channel (c : Nat) | session (id : Nat) | remote (coord : Nat) (role : Role)
  deriving DecidableEq, Repr

/-- R500: a management-port session. -/
structure Session where
  /-- R500: role. -/
  role : Role := .operator
  /-- R500: K_S. -/
  key : Bytes := []
  /-- R500: established. -/
  established : Bool := false
  /-- R501: SEQ of the last accepted request. -/
  seq : Nat := 0
  /-- R501: the last accepted request, byte for byte. -/
  request : Bytes := []
  /-- R501: the response sent. -/
  response : Bytes := []
  /-- R500: GTC at which it opened or was last used. -/
  at_ : Nat := 0
  deriving DecidableEq, Repr

/-- R497: a copy taken by a READ at offset 0. -/
structure ReadCopy where
  /-- R497: the requester. -/
  src : OdSource
  /-- R497: index and subindex. -/
  key : Nat
  /-- R497: the value. -/
  data : Bytes
  /-- R497: GTC of the last read of it. -/
  at_ : Nat
  deriving DecidableEq, Repr

/-- R497: a value being assembled by WRITE segments. -/
structure WriteAsm where
  /-- R497: the requester. -/
  src : OdSource
  /-- R497: index and subindex. -/
  key : Nat
  /-- R497: the assembly. -/
  asm : Assembly
  deriving DecidableEq, Repr

/-- R504: a request forwarded to another device and not yet answered. -/
structure Forward where
  /-- MODEL: its number, which names it while its message is on the way. -/
  num : Nat
  /-- R504: the requester. -/
  src : OdSource
  /-- R494: OP. -/
  op : Nat
  /-- R494: SEQ. -/
  seq : Nat
  deriving DecidableEq, Repr

/-- R497 to R510: management. -/
structure MgmtSt where
  /-- R500: sessions, by SESSION. -/
  sessions : Tbl Session := []
  /-- R500: sessions opened so far. -/
  opened : Nat := 0
  /-- R497: read copies. -/
  copies : List ReadCopy := []
  /-- R497: write assemblies. -/
  asms : List WriteAsm := []
  /-- R506: writes that take effect 100 ms later: GTC due, key and value. -/
  due : List (Nat × Nat × Nat) := []
  /-- R501: GTCs of the discards of the last second. -/
  fails : List Nat := []
  /-- R501: GTC until which OPEN is ignored. -/
  ignoreUntil : Nat := 0
  /-- R504: forwarded requests that await their answer. -/
  forwards : List Forward := []
  /-- R504: requests forwarded so far. -/
  forwarded : Nat := 0
  /-- R507: session to which telemetry goes. -/
  telemSession : Nat := 0
  /-- R508: the units that each queue had carried at the last record, by queue. -/
  telemUnits : Tbl Nat := []
  /-- R508: RECORD_SEQ. -/
  recordSeq : Nat := 0
  /-- R510: TELEM_RING_HEAD. -/
  ringHead : Nat := 0
  /-- R506: T1S_LINK. -/
  link : Nat := 0
  /-- R506: settings in force of the PLCA, IPv6 and UDP port objects, by key. -/
  inForce : Tbl Nat := []
  deriving DecidableEq, Repr

/-! ## The global time counter -/

/-- R222 to R227: the GTC. -/
structure ClkSt where
  /-- R2: the GTC. -/
  gtc : Nat := 0
  /-- R225: GTC_STATE, 0 FREE, 1 ACQUIRING, 2 LOCKED, 3 HOLDOVER. -/
  state : Nat := 0
  /-- R222: hops to the root, 0xFF none. -/
  hops : Nat := 0xFF
  /-- R222: port of the parent. -/
  parent : Option Nat := none
  /-- R223: GTC_OFFSET, in 1/64 tick. -/
  offset : Int := 0
  /-- R224: fractional accumulator, 32 bits. -/
  frac : Nat := 0
  /-- R224: rate adjustment, parts per 10^9. -/
  rate : Int := 0
  /-- R225: consecutive exchanges within ±1 tick. -/
  good : Nat := 0
  /-- R225: GTC of the last exchange with a parent. -/
  exchanged : Nat := 0
  /-- R505: ticks of the GTC clock since the cold reset. -/
  ticks : Nat := 0
  /-- R17, R219: the divider phase: the tick, modulo the 20 of a window, at which every divider is at count zero; none: the
  dividers are not aligned. -/
  phase : Option Nat := none
  /-- R515: GTC since which the state has been FREE. -/
  freeSince : Nat := 0
  /-- R223: T1 of the exchange in progress, in 1/64 tick. -/
  t1 : Option Nat := none
  /-- R223: LINK_DELAY, by port. -/
  delay : Tbl Nat := []
  /-- R240: GTC_IN_LATCH. -/
  latch : Nat := 0
  /-- R240: GTC at which GTC_SYNC_OUT last rose. -/
  syncOut : Option Nat := none
  deriving DecidableEq, Repr

/-! ## Start-up, reset and BIST -/

/-- R525 to R529: the result of a BIST group. -/
structure BistGroup where
  /-- R531: GROUP_RESULT. -/
  result : Nat := 0
  /-- R531: FAIL_UNIT. -/
  unit : Nat := 0xFFFFFFFF
  /-- R531: FAIL_COUNT. -/
  fails : Nat := 0
  /-- R531: REPAIRS. -/
  repairs : Nat := 0
  deriving DecidableEq, Repr

/-- R511 to R531: the device as a whole. -/
structure SysSt where
  /-- R511: RST_N is low. -/
  rstLow : Bool := true
  /-- R519: the device is held in cold reset. -/
  inReset : Bool := true
  /-- R521: a release of RST_N arrived during the flush that precedes the reset. -/
  releasePending : Bool := false
  /-- R531: STARTUP_STEP in progress, 0 serving. -/
  step : Nat := 0
  /-- R514: failed alignment attempts. -/
  alignFails : Nat := 0
  /-- R512: GTC at which the start began. -/
  began : Nat := 0
  /-- R531: STARTUP_MS. -/
  startupMs : Nat := 0
  /-- R520: a warm reset runs, and the steps run are those of R520. -/
  warm : Bool := false
  /-- R531: RESET_CAUSE. -/
  cause : Nat := 0
  /-- R531: FAULT_CODE. -/
  faultCode : Nat := 0
  /-- R522, R475: the device is halted. -/
  halted : Bool := false
  /-- R538: LED_FAULT: 0 off, 1 steady, 2 pulsed by FAULT_CODE. -/
  ledFault : Nat := 0
  /-- R484: PWR_FAIL_N is low. -/
  pwrFail : Bool := false
  /-- R483: flush in progress. -/
  flush : Option Flush := none
  /-- R531: BIST_LAST_MODE. -/
  bistMode : Nat := 0
  /-- R531: BIST_LAST_GTC. -/
  bistGtc : Nat := 0
  /-- R531: BIST_STATE. -/
  bistState : Nat := 0
  /-- R531: BIST_CAUSE. -/
  bistCause : Nat := 0
  /-- R527: groups still running, a bit each. -/
  bistGroups : Nat := 0
  /-- R528: bank under test: region and bank. -/
  bistBank : Option (Nat × Nat) := none
  /-- R526: Oasis banks that BIST has retired. -/
  badBanks : List Nat := []
  /-- R531: group results. -/
  groups : Tbl BistGroup := []
  /-- R527: structural scan runs. -/
  scan : Bool := false
  /-- R537: straps sampled at the last release of RST_N: PLCA_ID in bits 2:0, PLCA_OFF bit 3, CXL_X8 bit 4. -/
  straps : Nat := 0
  deriving DecidableEq, Repr

/-! ## Operands of the commands -/

/-- R335: a command of the NVMe controller, as taken from its submission queue. -/
structure NvmeCmd where
  /-- R310: submission queue, 0 the admin queue. -/
  sq : Nat := 0
  /-- R339: command identifier. -/
  cid : Nat := 0
  /-- R338: NSID. -/
  nsid : Nat := 0
  /-- R343: CDW2, whose bit 31 is ORDERED. -/
  cdw2 : Nat := 0
  /-- R338: CDW10. -/
  cdw10 : Nat := 0
  /-- R338: CDW11. -/
  cdw11 : Nat := 0
  /-- R338: CDW12. -/
  cdw12 : Nat := 0
  /-- R338: CDW13. -/
  cdw13 : Nat := 0
  /-- R338: CDW14. -/
  cdw14 : Nat := 0
  /-- R338: CDW15. -/
  cdw15 : Nat := 0
  /-- R335: PRP Entry 1, a host address. -/
  prp : Nat := 0
  /-- R335: data that the command carries from the host. -/
  data : Bytes := []
  deriving DecidableEq, Repr

/-- R493: a write of an object that has a row of its own, whole. -/
structure OdReq where
  /-- R503: the requester. -/
  src : OdSource
  /-- R494: SEQ. -/
  seq : Nat := 0
  /-- R495: the data written. -/
  data : Bytes := []
  deriving DecidableEq, Repr

/-- R186: a migrated copy that arrives. -/
structure MigCopy where
  /-- R186: the stored bytes. -/
  data : Bytes := []
  /-- R304: FLAGS of the record. -/
  flags : Nat := 0
  /-- R304: LOGICAL_LEN of the record. -/
  logical : Nat := 0
  /-- R304: DIGEST of the record, against which the copy is verified. -/
  digest : Bytes := zeros 24
  deriving DecidableEq, Repr

/-- R186: what happens to a sample that migrates: its holder sends a copy; the copy arrives at the member towards which it moves,
is verified and committed; the holder learns that a copy with a digest is committed, and frees its own. -/
inductive Migrate
  | send | arrive (copy : MigCopy) | committed (digest : Bytes)
  deriving DecidableEq, Repr

/-- R260: who makes a request of the pool manager: a stream with its jobs and batch assembler, an NVMe I/O queue, the fabric receive of
a protection domain, or a Ringmaster processor. -/
inductive Requester
  | stream (n : Nat) | nvme (q : Nat) | fabric (pd : Nat) | ringmaster (p : Nat)
  deriving DecidableEq, Repr

/-- R260: the requester ID that the device stamps into a request. -/
def Requester.id : Requester → Nat
  | .stream n => n
  | .nvme q => 64 + q % 256
  | .fabric d => 320 + d % 512
  | .ringmaster p => 1020 + p

/-- R260: a requester that the device has. -/
def Requester.exists : Requester → Bool
  | .stream n => decide (n < 64)
  | .nvme _ => true
  | .fabric _ => true
  | .ringmaster p => decide (p < 4)

/-- R262: an ALLOC. -/
structure AllocReq where
  /-- R260: the engine or channel that makes the request. -/
  source : Requester
  /-- R262: the pool. -/
  pool : Nat
  /-- R262: 1 to 256 buffers. -/
  count : Nat
  /-- R265: service class. -/
  cls : Nat := 4
  /-- R262: holder list, empty for an unshared buffer. -/
  holders : List Nat := []
  /-- R262: final owner. -/
  owner : Nat := 0
  /-- R265: a blocking ALLOC waits. -/
  blocking : Bool := false
  deriving DecidableEq, Repr

/-- R260: the requester ID charged. -/
def AllocReq.requester (a : AllocReq) : Nat := a.source.id

/-- R248, R256: what a scrub read finds. -/
inductive ScrubFind
  | clean | corrected | uncorrectable | tagFail
  deriving DecidableEq, Repr

/-- R249, R251: the errors with which a DRAM line is read: DRAM devices of the subchannel, 0 to 9, with the bits in error of the 64
that each gives, and the bits in error of the stored tag. -/
structure LineFault where
  /-- R249: devices with their bits in error. -/
  devices : List (Nat × Nat) := []
  /-- R251: bits of the tag in error. -/
  tag : Nat := 0
  deriving DecidableEq, Repr

/-- R421: what an owner sends to open a mirror. -/
structure MirrorOpen where
  /-- R421: image digest. -/
  image : Bytes := []
  /-- R420: arithmetic revision of the image. -/
  arith : Nat := 1
  /-- R420: MODEL_DIGESTs of the image. -/
  models : List Bytes := []
  /-- R421: tenant. -/
  tenant : Nat := 0
  /-- R421: latest durable mark. -/
  mark : Bytes := []
  /-- R421: settings block. -/
  settings : List (Nat × Nat) := []
  /-- R429: fence record of the owner. -/
  fence : Nat × Nat := (0, 0)
  /-- R176: corpus and member. -/
  member : Nat × Nat := (0, 0)
  /-- R436: the stream's PROTECTED partner, 0xFFFF none. -/
  partner : Nat := 0xFFFF
  deriving DecidableEq, Repr

/-- R274, R275: a NAND target as a cold start finds it. -/
structure TargetFacts where
  /-- R274: its channel. -/
  channel : Nat
  /-- R274: its chip enable. -/
  target : Nat
  /-- R274: an ONFI 5.1 NV-LPDDR4 interface of 8 bits at 3,600 MT/s that trains. -/
  trains : Bool := true
  /-- R274: LUNs. -/
  luns : Nat := 1
  /-- R276: blocks per LUN. -/
  bpl : Nat := 0
  /-- R276: pages per block. -/
  ppb : Nat := 0
  /-- R274: data bytes of a page. -/
  page : Nat := 16384
  /-- R274: spare bytes of a page. -/
  spare : Nat := 2048
  /-- R274: bits per cell. -/
  cell : Nat := 3
  /-- R279: blocks marked bad by the factory, as LUN × BPL + block. -/
  bad : List Nat := []
  deriving DecidableEq, Repr

/-- R512: what the device finds in the start-up step that ends. -/
structure StartFacts where
  /-- R513: firmware slots that verify, a bit each. -/
  fwOk : Nat := 3
  /-- R522: the root PLL locks within its bound. -/
  pllOk : Bool := true
  /-- R514: the phase monitors confirm the alignment. -/
  alignOk : Bool := true
  /-- R525: failed units: group, unit. -/
  failed : List (Nat × Nat) := []
  /-- R525: spare rows in use, by group. -/
  repairs : Tbl Nat := []
  /-- R245: DDR channels that train. -/
  ddr : Nat := 0xFFFF
  /-- R244: the modules of each channel: their number and their capacity in GB. -/
  modules : Tbl (Nat × Nat) := []
  /-- R275: the NAND targets found. -/
  targets : List TargetFacts := []
  /-- R286: anchors read with a CRC that fails: 0 the newest, 1 the one before, and the copy, 0 or 1. -/
  badAnchors : List (Nat × Nat) := []
  /-- R286: segment copies that fail to decode: 0 the newest checkpoint, 1 the older one, the segment, and the copy. -/
  badSegments : List (Nat × Nat × Nat) := []
  /-- R284: journal pages read with a CRC that fails: BASE_SEQ and the copy. -/
  badJournal : List (Nat × Nat) := []
  deriving DecidableEq, Repr

/-! ## What leaves the block -/

/-- Everything the block sends out of itself; the model's own record of it, in order.
(DESIGN CHOICE, log entry 4; DESIGN CHOICE, log entry 144) -/
inductive Emit
  /-- R495: an OD response: requester, OP + 0x80, SEQ, RESULT, STATUS and the rest of the body. -/
  | odResponse (src : OdSource) (op seq result status : Nat) (body : Bytes)
  /-- R262: what an ALLOC or RELEASE answers its requester: status and handles. -/
  | buffers (requester status : Nat) (handles : List Nat)
  /-- R310: an MSI-X vector. -/
  | msix (vector : Nat)
  /-- R335: a completion entry: CQ, SQ, CID, status code type, status code, DNR, Dword 0, data returned. -/
  | cqe (cq sq cid sct sc : Nat) (dnr : Bool) (dw0 : Nat) (data : Bytes)
  /-- R321: S2M data, with the poison indication. -/
  | cxlData (data : Bytes) (poison : Bool)
  /-- R315: completion of a CXL.mem write. -/
  | cxlWriteDone
  /-- R309: response of a CXL memory device command: opcode, return code and payload. -/
  | cxlMailbox (opcode code : Nat) (data : Bytes)
  /-- R517: a configuration request answered: true with Configuration Request Retry Status. -/
  | cfg (retry : Bool) (data : Nat)
  /-- R415: Completer Abort of a read. -/
  | abort (addr : Nat)
  /-- R404: data of a BAR0 read. -/
  | bar0 (data : Nat)
  /-- R406: bytes written to host memory by DMA. -/
  | dma (addr : Nat) (data : Bytes)
  /-- R355: a frame sent on a port. -/
  | frame (port : Nat) (f : Frame)
  /-- R376: RDMA WRITE of a batch: port, queue pair, remote address, key, immediate and bytes. -/
  | rdmaWrite (port qpn addr rkey imm : Nat) (data : Bytes)
  /-- R380: data of an RDMA READ or a READ_RESP. -/
  | rdmaRead (qpn : Nat) (data : Bytes)
  /-- R376: a NAK of a RoCEv2 request, with its code. -/
  | nak (qpn code : Nat)
  /-- R379: a CNP. -/
  | cnp (qpn : Nat)
  /-- R499: a datagram on the management port. -/
  | datagram (session : Nat) (data : Bytes)
  /-- R240: GTC_SYNC_OUT rises. -/
  | syncOut
  /-- R453: an SPDM vendor-defined response. -/
  | spdm (data : Bytes)
  /-- R425: a heartbeat to a device. -/
  | heartbeat (coord : Nat) (data : Bytes)
  /-- R426: a FAILED message: addressee (0xFFFF every device), peer and GTC. -/
  | failed (dst peer gtc : Nat)
  /-- R438: a REJOINED message to every device. -/
  | rejoined (coord : Nat)
  /-- R430: a FENCE message to the consumers and the group: corpus, member, epoch and owner. -/
  | fence (corpus member epoch owner : Nat)
  /-- R421 to R424: mirror and mark traffic to a device: kind, stream and bytes. -/
  | mirror (coord kind stream : Nat) (data : Bytes)
  /-- R457: the outcome of placing a released model's weights: tenant, release slot and status. -/
  | modelReport (tenant slot status : Nat)
  /-- R433: a request to send portion lists again: corpus, member and epoch. -/
  | resendLists (corpus member epoch : Nat)
  deriving DecidableEq, Repr

end Sys2Proof.Machine
end

