-- ==== Sys2Proof/Syntax.lean ====
section
/-! DEFINITION. The commands that the block takes: one constructor for each row of spec/opcode_table.json, in the
table's order. A command names an operation that something outside asks for (a write of an object or a register,
a frame, a doorbell, a management request) or an event whose instant the block's surroundings decide (the end of
a program operation, a sample of a sensor, a step of a kernel). -/

namespace Sys2Proof

open Sys2Proof.Machine

/-- The commands, one for each row of the table. (DESIGN CHOICE, log entry 12) -/
inductive Instr
  /-- R338: Vendor admin command 0xC4 that assembles a pipeline image segment and, at LAST, checks it and returns its image slot. -/
  | pipelineLoad (c : NvmeCmd)
  /-- R30: Write of 1 to an image slot's UNLOAD object, refused while any stream refers to the slot. -/
  | unload (r : OdReq) (k : Nat)
  /-- R51: Write of IMAGE_SLOT that moves a stream between IDLE and LOADED, sets the stream's tenant and rechecks a split. -/
  | imageSlotWrite (r : OdReq) (n : Nat)
  /-- R46: Write of SPLIT_MODE or SPLIT_CUT, refused when no valid host set exists or the stream delivers to a fabric port or corpus. -/
  | splitModeWrite (r : OdReq) (n : Nat) (cut : Bool)
  /-- R49: Write of CLOCK_EXACT, refused unless SPLIT_MODE is 0 and LOADBAL is clear. -/
  | clockExactWrite (r : OdReq) (n : Nat)
  /-- R547: CONTROL = 1 to a LOADED stream, checked in order and moving it to RUNNING. -/
  | streamStart (r : OdReq) (n : Nat)
  /-- R233: CONTROL = 2 stops admission and begins the drain of the jobs in flight. -/
  | streamPause (r : OdReq) (n : Nat)
  /-- R233: When the jobs in flight have completed, the device settles, delivers complete batches, takes a snapshot and enters PAUSED. -/
  | pauseDrainDone (n : Nat)
  /-- R39: CONTROL = 3 returns a PAUSED or HELD stream to RUNNING when every model is released. -/
  | streamResume (r : OdReq) (n : Nat)
  /-- R40: CONTROL = 4 ends every job, discards undelivered batches, cursors and snapshot, and returns the stream to LOADED. -/
  | streamStop (r : OdReq) (n : Nat)
  /-- R40: CONTROL = 5 ends the stream's jobs without delivery, keeps the cursor at the first undelivered batch and frees its buffers. -/
  | pipelineReset (r : OdReq) (n : Nat)
  /-- R39: CONTROL = 6 returns a MOVED stream to IDLE, clearing IMAGE_SLOT, snapshot and cursors. -/
  | streamRelease (r : OdReq) (n : Nat)
  /-- R38: Admission decision in a CORE cycle with a free job slot, choosing by class, stream round robin, pool state and buffer availability. -/
  | jobAdmit
  /-- R546: Completion of a stage's operation, which fixes the job's status by stage ID and starts the successor stages. -/
  | stageComplete (job stage : Nat) (transient : Option Nat)
  /-- R174: At each Ahnet block boundary an engine continues the highest-class waiting job, saving or restoring coder state. -/
  | codecBlockDone (e : Nat)
  /-- R65: Scalar add modulo 2^64. -/
  | add (core : Nat)
  /-- R65: Scalar multiply keeping the low 64 bits. -/
  | mul (core : Nat)
  /-- R70: Signed scalar division truncated toward zero, without fault on zero divisor. -/
  | divs (core : Nat)
  /-- R65: Scalar arithmetic shift right by X[SRCB] mod 64. -/
  | sar (core : Nat)
  /-- R67: Scalar add of a sign-extended 35-bit immediate. -/
  | addi (core : Nat)
  /-- R68: Unconditional jump by OFFSET. -/
  | j (core : Nat)
  /-- R68: Branch when two scalar registers are equal. -/
  | beq (core : Nat)
  /-- R68: Branch when X[SRCA] is signed less than X[SRCB]. -/
  | blt (core : Nat)
  /-- R68: Jump and link, writing PC + 1 to X31. -/
  | jal (core : Nat)
  /-- R68: Jump to the instruction index in X[SRCA]. -/
  | jr (core : Nat)
  /-- R63: Scalar 8-byte load from a mapped window. -/
  | ld64 (core : Nat)
  /-- R63: Scalar 8-byte store to a writable window. -/
  | st64 (core : Nat)
  /-- R80: Element-wise vector sum with one rounding. -/
  | vadd (core : Nat)
  /-- R80: Element-wise vector product with one rounding. -/
  | vmul (core : Nat)
  /-- R81: Correctly rounded element-wise quotient. -/
  | vdiv (core : Nat)
  /-- R79: Element-wise minimumNumber. -/
  | vmin (core : Nat)
  /-- R79: Element-wise maximumNumber. -/
  | vmax (core : Nat)
  /-- R81: Correctly rounded element-wise square root. -/
  | vsqrt (core : Nat)
  /-- R81: Correctly rounded element-wise 2^x. -/
  | vexp2 (core : Nat)
  /-- R81: Correctly rounded element-wise base-2 logarithm. -/
  | vlog2 (core : Nat)
  /-- R84: Saturating integer element-wise sum. -/
  | vadds (core : Nat)
  /-- R69: Broadcast the low element bits of a scalar register to every element. -/
  | vbcast (core : Nat)
  /-- R80: Fused multiply-add with one rounding. -/
  | vfma (core : Nat)
  /-- R80: Fused multiply-subtract with one rounding. -/
  | vfms (core : Nat)
  /-- R82: Vector type conversion with RNE and saturation rules. -/
  | vcvt (core : Nat)
  /-- R83: Floating to integer conversion toward zero, saturating. -/
  | vcvtz (core : Nat)
  /-- R85: Fixed-order tree sum of one vector register in the element type. -/
  | vredsum (core : Nat)
  /-- R85: Fixed-order tree sum widened to FP32 or INT32. -/
  | vredsumw (core : Nat)
  /-- R85: Fixed-order tree maximum. -/
  | vredmax (core : Nat)
  /-- R71: Predicated 128-byte vector load. -/
  | vld (core : Nat)
  /-- R71: Predicated 128-byte vector store. -/
  | vst (core : Nat)
  /-- R72: Indexed vector load with 32-bit indices, performing no access if any active element faults. -/
  | vgather (core : Nat)
  /-- R73: Indexed vector store in which the highest active element wins a shared address. -/
  | vscatter (core : Nat)
  /-- R71: Element-wise less-than compare into a predicate register. -/
  | vcmplt (core : Nat)
  /-- R60: Set the first X[SRCA] bits of a predicate register. -/
  | pfirstn (core : Nat)
  /-- R89: Copy a TMU descriptor and issue it with a tag, waiting if the tag is outstanding. -/
  | tissue (core : Nat)
  /-- R89: Stall the core until the descriptor with the given tag completes. -/
  | twait (core : Nat)
  /-- R92: The TMU finishes a descriptor, writing D and releasing waiting instructions. -/
  | tmuDescriptorDone (core tag : Nat)
  /-- R95: End the kernel with a status and output length. -/
  | halt (core : Nat)
  /-- R87: One 128-bit Philox draw into two scalar registers, advancing the draw number. -/
  | draw (core : Nat)
  /-- R87: Eight Philox draws into a vector register, advancing the draw number by 8. -/
  | vdraw (core : Nat)
  /-- R88: Read a system register into a scalar register. -/
  | srd (core : Nat)
  /-- R96: The retired-instruction count reaches STEP_LIMIT × 1,024 and the job ends. -/
  | kernelStepLimit (core : Nat)
  /-- R56: A KERNEL job starts only after MEM_LIMIT KiB of Caravan SRAM is reserved, waiting otherwise. -/
  | scratchReserve (job stage : Nat)
  /-- R185: Receipt of a portion list message, merged into the stream's sorted epoch set. -/
  | portionListReceive (n epoch owner : Nat) (data : Bytes)
  /-- R185: When all s³ lists have arrived, the stream begins the epoch with its sorted set and EPOCH_SIZE. -/
  | epochBegin (n : Nat)
  /-- R186: A verified migrated copy of a stored sample is committed and the old copy freed. -/
  | sampleMigrate (nsid idx : Nat) (m : Migrate)
  /-- R194: The owner of a signature band records the band with its sample index and signature. -/
  | dedupBandReceive (corpus k band idx sig : Nat)
  /-- R200: A batch opens when BATCH_WINDOW and the 1,024 open-batch limit leave room. -/
  | batchOpen (n : Nat)
  /-- R192: Write of THRESH_EPOCH that arms the staged threshold set. -/
  | threshEpochWrite (r : OdReq) (n : Nat)
  /-- R201: When a position's outcome becomes final, the device settles it by policy, consuming backfill entries in fixed order. -/
  | settlePosition (n : Nat)
  /-- R216: At the cycle T0 + k × EXACT_INTERVAL the job in release slot k starts its first covered stage, or is counted late. -/
  | exactRelease (job : Nat)
  /-- R226: A started stream admits its first job in the first launch window at or after LAUNCH_AT. -/
  | launchWindow (n : Nat)
  /-- R319: DELIVER begins writing a settled batch into its result slot once the slot is FREE and the mirror allows. -/
  | slotDeliver (n : Nat)
  /-- R377: DELIVER writes a batch to its remote slot by RDMA WRITE or WRITE_NOTIFY while credits and the mirror allow. -/
  | fabricDeliver (n : Nat)
  /-- R320: Completion of DELIVER's write of a whole batch, making the slot READY. -/
  | deliverWritten (n : Nat)
  /-- R326: Doorbell that retires a READY result slot, freeing it with SLOT_GEN + 1. -/
  | dbRetire (n value : Nat)
  /-- R327: Doorbell that makes a READY slot PENDING and regenerates its batch bit-identically. -/
  | dbRedeliver (n value : Nat)
  /-- R331: Doorbell by which the host requests the next backfill entry of a split stream. -/
  | dbBackfill (n value : Nat)
  /-- R321: A CXL.mem read of a result window, returning batch bytes, header or zeros. -/
  | cxlMemRead (dpa : Nat)
  /-- R315: A CXL.mem write to a result window is completed and discarded. -/
  | cxlMemWrite (dpa : Nat) (data : Bytes)
  /-- R332: A split READY slot unretired for HOST_DEADLINE raises HOST_STAGE_TIMEOUT. -/
  | hostDeadlineExpiry (n slot : Nat)
  /-- R262: ALLOC of 1–256 buffers, all or none, against quota and class limit. -/
  | bufferAlloc (a : AllocReq)
  /-- R270: RELEASE of a buffer or a shared holder, with DOUBLE_FREE and NOT_FINAL_OWNER refusals. -/
  | bufferRelease (releaser : Requester) (handle : Nat)
  /-- R259: Write of POOL_PLACE that places, moves or removes a pool after its checks. -/
  | poolPlaceWrite (r : OdReq) (p : Nat)
  /-- R258: Write of 1 to RECLAIM returning a pool's orphaned buffers. -/
  | reclaim (r : OdReq) (p : Nat)
  /-- R256: The DRAM scrubber reads a line within its share and writes back a correction if no write intervened. -/
  | dramScrubRead (line : Nat) (errors : LineFault) (intervened : Bool)
  /-- R256: The Oasis scrubber reads a word within its share, correcting or marking it failed. -/
  | oasisScrubRead (word : Nat) (errors : List Nat) (intervened : Bool)
  /-- R20: DDR and ONFI PHY recalibration every 128 ms. -/
  | phyRecalibrate
  /-- R288: The device programs write-buffer data into the open host block of an OPEN or LOW pool. -/
  | destage (m : Nat)
  /-- R288: A NAND program completes, releasing its buffer entries once journalled. -/
  | programComplete (pun : Nat) (ok : Bool)
  /-- R289: A block erase completes, or on failure retires the block. -/
  | eraseComplete (block : Nat) (ok : Bool)
  /-- R292: A codeword read completes and is decoded through the retry steps. -/
  | nandReadComplete (pun step : Nat)
  /-- R294: A verified relocation copy commits to the map only if the entry still names the source. -/
  | unitCopyCommit (src : Nat)
  /-- R297: Garbage collection picks the closed block with fewest valid units and relocates them. -/
  | gcVictimSelect (m : Nat)
  /-- R298: Media patrol reads and decodes the next mapped unit within its share. -/
  | patrolRead (step : Nat)
  /-- R285: A dirty map segment is written to the checkpoint area with its CKPT_SEQ. -/
  | checkpointWrite
  /-- R307: Once a minute the device reads target temperatures and adds a minute to a histogram bin. -/
  | flashTempSample (temps : List Int)
  /-- R310: Write of an SQ tail doorbell that submits commands. -/
  | nvmeSqDoorbell (q tail : Nat)
  /-- R310: Write of a CQ head doorbell that frees completion entries. -/
  | nvmeCqDoorbell (q head : Nat)
  /-- R518: Write of CC.EN, with CSTS.RDY set only after the map rebuild. -/
  | controllerEnable (en : Bool)
  /-- R335: Admin Identify command. -/
  | nvmeIdentify (c : NvmeCmd)
  /-- R348: Admin Get Log Page command. -/
  | nvmeGetLogPage (c : NvmeCmd)
  /-- R335: Admin Get Features command. -/
  | nvmeGetFeatures (c : NvmeCmd)
  /-- R335: Admin Set Features command. -/
  | nvmeSetFeatures (c : NvmeCmd)
  /-- R335: Admin Create I/O Submission Queue command. -/
  | nvmeCreateIoSq (c : NvmeCmd)
  /-- R311: Admin Create I/O Completion Queue command, refusing mailbox vectors. -/
  | nvmeCreateIoCq (c : NvmeCmd)
  /-- R335: Admin Delete I/O Submission Queue command. -/
  | nvmeDeleteIoSq (c : NvmeCmd)
  /-- R335: Admin Delete I/O Completion Queue command. -/
  | nvmeDeleteIoCq (c : NvmeCmd)
  /-- R335: Admin Abort of a command not yet started. -/
  | nvmeAbort (c : NvmeCmd)
  /-- R348: Admin Asynchronous Event Request. -/
  | asynchronousEventRequest (c : NvmeCmd)
  /-- R337: Admin Namespace Management create or delete of a NORMAL or JOURNAL namespace. -/
  | namespaceManagement (c : NvmeCmd)
  /-- R335: Admin Namespace Attachment command. -/
  | namespaceAttachment (c : NvmeCmd)
  /-- R335: Admin Format NVM with SES 0 or 2. -/
  | formatNvm (c : NvmeCmd)
  /-- R335: Admin Firmware Image Download. -/
  | firmwareImageDownload (c : NvmeCmd)
  /-- R460: Admin Firmware Commit, verified and staged by the enclave. -/
  | firmwareCommit (c : NvmeCmd)
  /-- R338: Vendor command creating a CORPUS namespace and recording its placement parameters. -/
  | corpusCreate (c : NvmeCmd)
  /-- R338: Vendor command sealing a corpus after duplicate decisions and returning the seal report. -/
  | corpusSeal (c : NvmeCmd)
  /-- R338: Vendor command returning bytes of a stream's latest snapshot. -/
  | snapshotRead (c : NvmeCmd)
  /-- R235: Vendor command assembling a snapshot and, at LAST, restoring it into a LOADED stream after its checks. -/
  | snapshotRestore (c : NvmeCmd)
  /-- R342: I/O Read command. -/
  | nvmeRead (c : NvmeCmd)
  /-- R345: I/O Write, admitted to the mirrored write buffer or as write-through. -/
  | nvmeWrite (c : NvmeCmd)
  /-- R346: I/O Flush, completed at once. -/
  | nvmeFlush (c : NvmeCmd)
  /-- R335: I/O Dataset Management deallocate. -/
  | datasetManagement (c : NvmeCmd)
  /-- R335: I/O Write Zeroes, which deallocates. -/
  | writeZeroes (c : NvmeCmd)
  /-- R340: I/O vendor command writing one piece of a sample directly or through an ingest stream. -/
  | ingest (c : NvmeCmd)
  /-- R341: An open sample whose next piece has not arrived within 60 s is discarded. -/
  | ingestPieceTimeout (nsid idx : Nat)
  /-- R346: A write-through write's data and journal group are programmed and verified, and its completion is posted. -/
  | writeThroughDone (sq cid : Nat)
  /-- R517: A CXL configuration request, answered with retry status until the space is loaded. -/
  | configRequest (offset : Nat) (write : Option Nat)
  /-- R453: An SPDM vendor-defined request over DOE carrying an evidence request. -/
  | spdmVendorRequest (data : Bytes)
  /-- R309: CXL memory device command Identify Memory Device. -/
  | identifyMemoryDevice
  /-- R309: CXL memory device command Get Partition Info. -/
  | getPartitionInfo
  /-- R309: CXL memory device command Get Health Info. -/
  | getHealthInfo
  /-- R309: CXL memory device command Get Event Records. -/
  | getEventRecords (log : Nat)
  /-- R309: CXL memory device command Clear Event Records. -/
  | clearEventRecords (log count : Nat)
  /-- R309: CXL memory device command Get Supported Logs. -/
  | getSupportedLogs
  /-- R309: CXL memory device command Get Log. -/
  | getLog (data : Bytes)
  /-- R309: CXL memory device command Get Poison List. -/
  | getPoisonList (dpa len : Nat)
  /-- R353: A Midway port's PCS locks and it begins exchanging VERSION frames. -/
  | linkPcsLock (k : Nat)
  /-- R353: Receipt of a VERSION frame, setting the link UP, FENCED or DOWN. -/
  | versionFrameReceive (k : Nat) (f : Frame)
  /-- R360: Receipt of a DATA frame, accepted in LSEQ order and routed onward or delivered locally. -/
  | dataFrameReceive (k : Nat) (f : Frame)
  /-- R358: Receipt of a CREDIT frame updating cumulative credits per VL and buffer. -/
  | creditFrameReceive (k : Nat) (f : Frame)
  /-- R360: Receipt of a NAK, replaying every held frame from LACK. -/
  | nakFrameReceive (k : Nat) (f : Frame)
  /-- R357: Receipt of an IDLE frame carrying LACK. -/
  | idleFrameReceive (k : Nat) (f : Frame)
  /-- R360: No LACK advance for 2 µs with frames held triggers a replay. -/
  | replayTimeout (k : Nat)
  /-- R361: A link not UP within 10 ms goes DOWN and its held frames are rerouted. -/
  | retrainTimeout (k : Nat)
  /-- R359: A CREDIT frame is sent within 100 ns of a change and at least every 1 µs. -/
  | creditFrameTimer (k : Nat)
  /-- R363: A frame without usable credits for 100 µs is discarded, returning REMOTE_UNREACHABLE. -/
  | routeWaitExpiry (src msgId offset : Nat)
  /-- R366: An entry with no packet for REASM_TIMEOUT is discarded with REASSEMBLY_TIMEOUT. -/
  | reassemblyTimeout (src msgId : Nat)
  /-- R367: Receipt of a RESP message, resending on transient status or BUSY, or passing the status up. -/
  | respReceive (f : Frame)
  /-- R368: After the doubling backoff a BUSY message is sent again under a new MSG_ID. -/
  | busyBackoffExpiry (msgId : Nat)
  /-- R374: A queue-pair context fetch completes and the miss-buffer packets are processed. -/
  | qpContextFetchDone (k qp : Nat)
  /-- R378: A consumer's RDMA WRITE into a credit window updates GRANTED or FENCE. -/
  | rdmaWriteReceive (qp rkey addr : Nat) (data : Bytes)
  /-- R380: An RDMA READ of an exposed result window. -/
  | rdmaReadRequest (qp rkey addr len : Nat)
  /-- R376: An inbound RoCEv2 SEND, answered with NAK Invalid Request. -/
  | roceSendReceive (qp : Nat)
  /-- R377: The acknowledgement of a batch's last write retires the batch. -/
  | roceAckReceive (qp psn : Nat)
  /-- R376: RC retransmission on timeout or NAK, up to the retry count. -/
  | roceRetryTimeout (qp : Nat)
  /-- R379: A CNP halves the queue pair's sending rate. -/
  | cnpReceive (qp : Nat)
  /-- R379: After each 50 µs without a CNP the rate recovers by 1/16 of the port, and CNPs are sent for marked packets. -/
  | cnpRateRestore (qp : Nat)
  /-- R383: Write of CIR, CBS, PIR or PBS, checked and refilling both buckets. -/
  | shaperParamWrite (r : OdReq) (q sub : Nat)
  /-- R390: Write of 1 to CONFIG_CHANGE arming the admin gate list at ADMIN_BASE. -/
  | configChange (r : OdReq) (g : Nat)
  /-- R390: At GTC ADMIN_BASE the admin list becomes operational. -/
  | gateListSwitch (g : Nat)
  /-- R388: The current gate entry's DURATION ends and the next entry takes effect. -/
  | gateEntryExpiry (g : Nat)
  /-- R392: At each multiple of 2^SAMPLE_K ticks every queue's depth and delay are sampled. -/
  | queueSample
  /-- R400: A Ringmaster's watchdog expires and the processor is halted and restarted. -/
  | watchdogExpiry (p : Nat)
  /-- R400: A restarted Ringmaster serves again, ending RECOVERY. -/
  | ringmasterRestartDone (p : Nat)
  /-- R405: Write of 0x008 posting a host message on a channel. -/
  | mbxPost (c value : Nat) (body : Bytes)
  /-- R406: Host read of 0x018 that takes the waiting device message. -/
  | mbxTake (c : Nat)
  /-- R407: A Ringmaster or the enclave copies and takes a posted message. -/
  | mbxDeviceTake (c : Nat)
  /-- R406: The device writes a body into the receive buffer and posts it. -/
  | mbxDevicePost (c sender seq : Nat) (body : Bytes)
  /-- R404: Write to a BAR0 register that has no row of its own. -/
  | registerWrite (addr size value : Nat)
  /-- R412: Write of DOMAIN_TARGET requesting ON, SLEEP or OFF. -/
  | domainTargetWrite (r : OdReq) (d : Nat)
  /-- R413: An access needing a sleeping domain wakes it and is held. -/
  | domainWake (d : Nat)
  /-- R414: A domain reaches its new state and held accesses complete. -/
  | domainTransitionDone (d : Nat)
  /-- R415: A BAR0 access to an OFF domain is aborted and recorded. -/
  | domainOffAccess (d addr : Nat) (write : Bool)
  /-- R425: Every 50 ms the scheduler sends a heartbeat to neighbours and mirror holders. -/
  | heartbeatSend
  /-- R427: Receipt of a heartbeat, answered with FAILED if the sender is in the FAILED set. -/
  | heartbeatReceive (data : Bytes)
  /-- R426: The 1 ms check finds 300 ms without a peer's heartbeat and declares it failed. -/
  | declareFailed (coord : Nat)
  /-- R426: Receipt of a FAILED message, adding the peer or self-fencing if addressed to this device. -/
  | failedMessageReceive (sender peer gtc : Nat)
  /-- R433: A TAKING_OVER record completes its takeover when a stream becomes IDLE. -/
  | takeoverDeferred (m : Nat)
  /-- R430: Receipt of a FENCE message raising the held fence record. -/
  | fenceMessageReceive (corpus member epoch owner : Nat)
  /-- R431: A device meeting STALE_EPOCH_FENCE for its own stream moves it to MOVED. -/
  | staleFenceRefusal (n epoch owner : Nat)
  /-- R421: Acknowledgement of a mirror-open step, advancing to the next step or PROTECTED. -/
  | mirrorOpenAck (n cause : Nat)
  /-- R422: The partner replaces its copy with a newer snapshot and acknowledges it. -/
  | mirrorSnapshotReceive (coord stream owner : Nat) (data : Bytes)
  /-- R423: The owner receives a snapshot acknowledgement, releasing waiting DELIVER. -/
  | mirrorAckReceive (n seq : Nat)
  /-- R423: An acknowledgement more than 100 ms overdue shows LAGGING. -/
  | mirrorLag (n : Nat)
  /-- R424: Every 10 s the owner takes a durable mark and writes it to its flash and to mirror holders. -/
  | markTimer (n : Nat)
  /-- R420: Write of PARTNER, closing the old mirror and opening a new one. -/
  | partnerWrite (r : OdReq) (n : Nat)
  /-- R435: Write of MOVE_TO starting a planned handoff to a protected mirror holder. -/
  | moveTo (r : OdReq) (n : Nat)
  /-- R438: Write of 1 to REJOIN returning a SELF_FENCED device to SERVING. -/
  | rejoin (r : OdReq)
  /-- R438: Receipt of a REJOINED message removing the device from the FAILED set. -/
  | rejoinedReceive (coord : Nat)
  /-- R439: Write of a domain number resetting one Caravan, fabric port or FLASH. -/
  | domainReset (r : OdReq)
  /-- R440: HOOK 1 stops heartbeats, holds owned streams and stops mirrors and marks. -/
  | simDeath (r : OdReq)
  /-- R440: HOOK 2 forces a port DOWN with cause 5. -/
  | portDown (r : OdReq)
  /-- R440: HOOK 3 stops a Ringmaster servicing its watchdog. -/
  | rmHang (r : OdReq)
  /-- R440: HOOK 4 resets a Caravan and holds it OFF. -/
  | caravanLoss (r : OdReq)
  /-- R440: Write of 0 to HOOK ending the active hook early. -/
  | hookEnd (r : OdReq)
  /-- R440: The active hook ends by itself after HOOK_SECONDS. -/
  | hookExpiry
  /-- R446: Write of a life-cycle target state, checked and burnt into fuses. -/
  | lcStateWrite (r : OdReq)
  /-- R445: Write of the RMA authorisation signature. -/
  | lcAuthWrite (r : OdReq)
  /-- R452: Write of an evidence request, after which the enclave signs evidence. -/
  | evidenceReq (r : OdReq)
  /-- R456: KEY_RELEASE of KIND 0 releasing a model key after ordered checks. -/
  | modelKeyRelease (r : OdReq)
  /-- R456: KEY_RELEASE of KIND 1 releasing the tenant's snapshot key. -/
  | snapshotKeyRelease (r : OdReq)
  /-- R459: KEY_RELEASE of KIND 2 destroying a released key and holding its streams. -/
  | withdraw (r : OdReq)
  /-- R457: The ciphertext read completes and the weights are placed, decrypted and checked. -/
  | modelWeightsLoaded (slot : Nat)
  /-- R461: Write of a TENANT_ID to SCRUB_TENANT starting a TENANT-scope scrub. -/
  | scrubTenantScope (r : OdReq)
  /-- R461: Write of 0xFFFF_FFFF to SCRUB_TENANT starting a DEVICE-scope scrub. -/
  | scrubDeviceScope (r : OdReq)
  /-- R462: A scrub step completes, is recorded and the next begins. -/
  | scrubStepDone
  /-- R469: The 12 V input below 10.8 V for 5 µs is treated as PWR_FAIL_N. -/
  | inputUndervoltage (mv : Nat)
  /-- R469: A VCAR rail out of range for 1 µs resets and holds its Caravan OFF. -/
  | caravanRailFault (n : Nat)
  /-- R469: Any other rail out of range for 1 µs flushes and halts the device. -/
  | railFault
  /-- R471: No REFCLK edge for 100 ns; the PLLs hold. -/
  | refclkLoss
  /-- R471: REFCLK returns within 10 µs and is followed again. -/
  | refclkReturn
  /-- R471: After 10 µs without REFCLK the device flushes and halts. -/
  | refclkLossExpiry
  /-- R472: A rail 3 % low suppresses cycles of the Caravan or spine. -/
  | droopTrip (u : Nat)
  /-- R472: The rail recovers and cycle suppression ends. -/
  | droopRecover (u : Nat)
  /-- R474: Each 100 µs junction sensors are sampled and the thermal demand applied. -/
  | junctionSample (t : Int)
  /-- R474: Each 1 ms input power average updates the power demand. -/
  | powerAverage (w : Nat)
  /-- R475: A junction at 112 °C, or above 105 °C for 1 s at T4, flushes and halts. -/
  | thermalTrip (t : Int)
  /-- R477: Every 100 µs bank voltage and current are read, charging controlled and state updated. -/
  | huSample (vsns isns : Nat)
  /-- R477: Every 100 ms HU_TSNS is read and k_T applied. -/
  | huTempSample (code : Nat)
  /-- R479: Every HU_TEST_PERIOD days a 5 % discharge estimate starts. -/
  | huTestStart
  /-- R479: Write of 1 to HU_TEST_NOW starting an estimate. -/
  | huTestNow (r : OdReq)
  /-- R483: PWR_FAIL_N low stops admission and starts the flush. -/
  | pwrFailAssert (ns : Nat)
  /-- R483: A flush step's programs complete and the next step, or the halt, follows. -/
  | flushStepDone
  /-- R484: PWR_FAIL_N returns high; the flush completes and the device stays halted. -/
  | pwrFailRelease
  /-- R500: OD OPEN establishing a management-port session. -/
  | odOpen (seq role slot : Nat) (clientNonce : Bytes)
  /-- R500: OD CLOSE discarding a session. -/
  | odClose (session seq : Nat)
  /-- R497: OD READ of an object, segmented from a copy at offset 0. -/
  | odRead (src : OdSource) (seq target idx sub offset maxLen : Nat)
  /-- R493: OD WRITE of an object with no row of its own, assembled and applied at LAST. -/
  | odWrite (src : OdSource) (seq target idx sub : Nat) (last : Bool) (offset total : Nat) (data : Bytes)
  /-- R498: OD WRITE_MANY checking every entry, then applying all or none. -/
  | odWriteMany (src : OdSource) (seq target : Nat) (entries : List (Nat × Nat × Bytes))
  /-- R505: OD DESCRIBE returning an object's descriptor. -/
  | odDescribe (src : OdSource) (seq target idx sub : Nat)
  /-- R501: A management-port datagram is verified by tag and SEQ, repeated, or discarded. -/
  | mgmtDatagramReceive (data : Bytes)
  /-- R500: A session not established in 10 s or idle 60 s is discarded. -/
  | sessionTimeout (id : Nat)
  /-- R497: A read copy or write assembly idle for 10 s is discarded. -/
  | segmentTimeout (src : OdSource) (key : Nat)
  /-- R504: An OD frame forwarded over Midway is applied with the forwarded role. -/
  | remoteOdRequest (data : Bytes)
  /-- R506: 100 ms after the response, a PLCA, IPv6 or UDP port write takes effect. -/
  | settingsApply
  /-- R507: At each multiple of 2^TELEM_K ticks a telemetry record is sent to the selected destinations. -/
  | telemetry
  /-- R223: Every 1 ms a device exchanges timestamps with its parent. -/
  | gtcExchange
  /-- R224: Receipt of a TIME frame, replying or correcting the GTC and updating its state. -/
  | timeFrameReceive (k : Nat) (f : Frame) (stamp : Nat)
  /-- R225: No exchange for 64 ms moves the GTC to HOLDOVER. -/
  | gtcHoldover
  /-- R241: Write of GTC_ROOT re-forming the time tree. -/
  | gtcRootWrite (r : OdReq)
  /-- R540: A rising edge on GTC_SYNC_IN latches the GTC. -/
  | gtcSyncInEdge
  /-- R540: The GTC reaching a multiple of 2^24 ticks raises GTC_SYNC_OUT for 1,024 ticks. -/
  | gtcSyncOutPulse
  /-- R220: A divider-phase mismatch records a clock alignment fault, flushes and halts. -/
  | phaseMonitorMismatch
  /-- R232: Write of 1 to SNAP_CONTROL taking a snapshot of a PAUSED or HELD stream. -/
  | snapControl (r : OdReq) (n : Nat)
  /-- R521: RST_N low, flushing admitted writes first and then entering cold reset. -/
  | rstNAssert
  /-- R512: RST_N release samples the straps and starts the cold start sequence. -/
  | rstNRelease (straps : Nat)
  /-- R512: A start-up step completes and the next begins. -/
  | startupStepDone (facts : StartFacts)
  /-- R515: Once the GTC is locked or free and the first heartbeat is sent, the device enters SERVICE. -/
  | ringAdmission
  /-- R520: WRST_N low starts a warm reset. -/
  | wrstNAssert
  /-- R520: Write of 1 to WARM_RESET starting a warm reset. -/
  | warmReset (r : OdReq)
  /-- R519: PERST_N low resets the host die only. -/
  | perstNAssert
  /-- R517: PERST_N release starts host-die configuration and link training. -/
  | perstNRelease
  /-- R529: Write of a group mask starting on-demand BIST. -/
  | bistRun (r : OdReq)
  /-- R528: On-demand BIST finishes one bank, copying contents back and moving on. -/
  | bistBankDone (ok : Bool)
  /-- R527: Write of 1 by FACTORY starting structural scan, ending in a cold reset. -/
  | scanRun (r : OdReq)
  /-- R418: A Midway port loses PCS lock and goes DOWN with PORT_DOWN_CAUSE 4, and routing goes around it. -/
  | linkPcsLoss (k : Nat)
  /-- R385: A frame finishes on a fabric port or gate port, giving the shaper and gate a decision point for the next unit. -/
  | frameTransmitDone (k : Nat)
  /-- R385: At each XBAR cycle the shapers of the crossbar, flash, DRAM, CXL.mem and codec resources choose one unit. -/
  | crossbarDecisionPoint (res : Nat)
  /-- R387: A RED frame held under RED_ACTION 0 is coloured again on each tick until it is YELLOW and accepted. -/
  | policerHoldRecolour (k : Nat)
  /-- R420: The prospective partner checks a mirror open against its free records, image, models and revision and accepts or refuses it. -/
  | mirrorOpenReceive (coord stream : Nat) (o : MirrorOpen)
  /-- R420: The old partner receives the close of a mirror after a PARTNER write and frees its mirror record. -/
  | mirrorCloseReceive (coord stream : Nat)
  /-- R422: The partner receives and stores the member's location set for an epoch. -/
  | locationSetReceive (coord stream epoch : Nat) (entries : List (Nat × Nat))
  /-- R424: A device holding a mirror record receives a durable mark, writes it to its flash and acknowledges. -/
  | markReceive (coord stream owner : Nat) (data : Bytes)
  /-- R424: The owner receives the last acknowledgement of a mark's writes, making it durable and advancing MARK_GTC and MARK_SEQ. -/
  | markAckReceive (n coord : Nat)
  /-- R433: A source member receives a taking device's request and sends again its portion lists for the current epoch. -/
  | portionListResendRequest (corpus member epoch : Nat)
  /-- R525: An on-demand BIST group other than memory ends, records its result and, when the last group ends, sets BIST_STATE DONE. -/
  | bistGroupDone (g unit fails repairs : Nat)
  /-- R527: Structural scan ends and the device performs a cold reset by itself. -/
  | scanDone
  /-- R506: The management-port PHY goes up, down, or loses the PLCA beacon, changing T1S_LINK. -/
  | t1sLinkChange (v : Nat)
  /-- R34: The background return of a retired batch's buffers ends, moving its jobs from RETIRED to FREE. -/
  | batchBuffersReturned (n k : Nat)
  deriving DecidableEq, Repr

end Sys2Proof
end

