-- ==== Sys2Proof/Decode.lean ====
section
/-! DEFINITION. The command that a word spells. The rows of the table give no bits: a command reaches the block as an
object write, a frame, a doorbell, a management request or an event, never as a word. -/

namespace Sys2Proof

/-- No row of the table gives bits, so no word spells a command. (DESIGN CHOICE, log entry 11) -/
def decodeTableWord (_nbits _w : Nat) : Option Instr := none

end Sys2Proof
end

