-- ==== Sys2Proof/Machine/Hash.lean ====
section
/-! DEFINITION. The fixed functions the manual names: SHA3-512 and KMAC256 (FIPS 202, SP 800-185, which
the manual names without restating), CRC-32C, and Philox-4x32-10 (R145) with the Carousel's keyed
hash (R179). -/

namespace Sys2Proof.Machine

/-! ## Keccak -/

/-- A Keccak state: 25 lanes of 64 bits, the lane of column x and row y at place x + 5y. -/
abbrev Lanes := List Word

/-- The rotation of the rho step for the lane at a place, from 25 fields of 6 bits. -/
def rhoTurn (place : Nat) : Nat := 0xee3d0922153eda6766b2835371ac91b73e040 / 64 ^ place % 64

/-- The seven bits that the iota step's shift register gives for a round: bit j stands for bit 2^j − 1 of lane 0. -/
def iotaCode (round : Nat) : Nat := 0xe886c79cc5a452a7767bf4cd460eabe509fe178d01 / 128 ^ round % 128

/-- The word of the iota step for a round. -/
def iotaWord (round : Nat) : Word :=
  BitVec.ofNat 64 (((List.range 7).map fun j => ((iotaCode round).testBit j).toNat * 2 ^ (2 ^ j - 1)).sum)

/-- The parity of column x. -/
def parity (a : Lanes) (x : Nat) : Word := (List.range 5).foldl (fun p y => p ^^^ a.getD (x % 5 + 5 * y) 0) 0

/-- The steps theta, rho and pi together: the lane that moves to a place, turned, with the parities of its neighbouring
columns added. -/
def moved (a : Lanes) (ps : List Word) (place : Nat) : Word :=
  let x := (place + 3 * (place / 5)) % 5
  let source := x + 5 * (place % 5)
  (a.getD source 0 ^^^ ps.getD ((x + 4) % 5) 0 ^^^ (ps.getD ((x + 1) % 5) 0).rotateLeft 1).rotateLeft (rhoTurn source)

/-- The step chi on a row of five lanes. -/
def chiRow (r : Lanes) : Lanes :=
  (List.range 5).map fun x => r.getD x 0 ^^^ (r.getD ((x + 2) % 5) 0 &&& ~~~ r.getD ((x + 1) % 5) 0)

/-- One round of Keccak-f[1600]. -/
def keccakRound (a : Lanes) (round : Nat) : Lanes :=
  let ps := (List.range 5).map (parity a)
  let rows := (List.range 5).flatMap fun y => chiRow ((List.range 5).map fun x => moved a ps (x + 5 * y))
  match rows with
  | v :: r => (v ^^^ iotaWord round) :: r
  | [] => []

/-- Keccak-f[1600]. -/
def keccakF (a : Lanes) : Lanes := (List.range 24).foldl keccakRound a

/-- XOR a block of bytes (a multiple of 8) into the state. -/
def absorbBlock (a : Lanes) (blk : Bytes) : Lanes :=
  keccakF ((List.range 25).map fun i =>
    a.getD i 0 ^^^ BitVec.ofNat 64 (fieldAt blk (8 * i) 8))

/-- Absorb whole blocks of `rate` bytes. -/
def absorbAll (rate : Nat) (a : Lanes) (bs : Bytes) : Nat → Lanes
  | 0 => a
  | n + 1 => absorbAll rate (absorbBlock a (bs.take rate)) (bs.drop rate) n

/-- The sponge's zero state. -/
def zeroLanes : Lanes := List.replicate 25 0

/-- The bytes of a state. -/
def laneBytes (a : Lanes) : Bytes := a.flatMap fun w => leBytes 8 w.toNat

/-- The message padded with the domain byte `dom` and the closing bit to whole blocks. -/
def spongePad (rate dom : Nat) (bs : Bytes) : Bytes :=
  let total := roundUp (bs.length + 1) rate
  let body := bs ++ [BitVec.ofNat 8 dom] ++ zeros (total - bs.length - 1)
  body.take (total - 1) ++ [(body.getD (total - 1) 0) ||| 0x80]

/-- Output of `n` bytes, `n` at most the rate. -/
def sponge (rate dom n : Nat) (bs : Bytes) : Bytes :=
  let p := spongePad rate dom bs
  (laneBytes (absorbAll rate zeroLanes p (p.length / rate))).take n

/-- SHA3-512. -/
def sha3_512 (bs : Bytes) : Bytes := sponge 72 0x06 64 bs

/-- `left_encode` of SP 800-185. -/
def leftEncode (v : Nat) : Bytes :=
  let n := max 1 (ceilDiv (bitLen v) 8)
  BitVec.ofNat 8 n :: (leBytes n v).reverse

/-- `right_encode` of SP 800-185. -/
def rightEncode (v : Nat) : Bytes :=
  let n := max 1 (ceilDiv (bitLen v) 8)
  (leBytes n v).reverse ++ [BitVec.ofNat 8 n]

/-- `encode_string` of SP 800-185. -/
def encodeString (bs : Bytes) : Bytes := leftEncode (8 * bs.length) ++ bs

/-- The bytes of an ASCII string. -/
def asciiBytes (s : String) : Bytes := s.toList.map fun c => BitVec.ofNat 8 c.toNat

/-- KMAC256 with an output of `n` bytes and a customisation string. -/
def kmac256 (key msg : Bytes) (n : Nat) (custom : String) : Bytes :=
  let bytepad := fun (x : Bytes) => padTo (leftEncode 136 ++ x) 136
  let head := bytepad (encodeString (asciiBytes "KMAC") ++ encodeString (asciiBytes custom))
  let newX := bytepad (encodeString key) ++ msg ++ rightEncode (8 * n)
  sponge 136 0x04 n (head ++ newX)

/-! ## CRC-32C -/

/-- One bit of the reflected Castagnoli division. -/
def crcBit (c : BitVec 32) : BitVec 32 :=
  if c.getLsbD 0 then (c >>> 1) ^^^ 0x82F63B78 else c >>> 1

/-- One byte of the division. -/
def crcByte (c : BitVec 32) (b : Byte) : BitVec 32 :=
  crcBit (crcBit (crcBit (crcBit (crcBit (crcBit (crcBit (crcBit (c ^^^ b.setWidth 32))))))))

/-- CRC-32C (Castagnoli polynomial) of a byte string (R159). -/
def crc32c (bs : Bytes) : Nat := (~~~ bs.foldl crcByte 0xFFFFFFFF).toNat

/-! ## Philox-4x32-10 and the keyed hash -/

/-- Four 32-bit words. -/
structure Quad where
  w0 : BitVec 32
  w1 : BitVec 32
  w2 : BitVec 32
  w3 : BitVec 32
  deriving DecidableEq, Repr

/-- The high and low halves of a full 64-bit product. -/
def mulHiLo (a b : BitVec 32) : BitVec 32 × BitVec 32 :=
  let p := a.toNat * b.toNat
  (BitVec.ofNat 32 (p / 2 ^ 32), BitVec.ofNat 32 p)

/-- `n` rounds of R145 from round number `10 - n`, with the key words of that round. -/
def philoxRounds : Nat → Quad → BitVec 32 → BitVec 32 → Quad
  | 0, c, _, _ => c
  | n + 1, c, k0, k1 =>
    let p0 := mulHiLo 0xD2511F53 c.w0
    let p1 := mulHiLo 0xCD9E8D57 c.w2
    let c' : Quad := { w0 := p1.1 ^^^ c.w1 ^^^ k0, w1 := p1.2, w2 := p0.1 ^^^ c.w3 ^^^ k1, w3 := p0.2 }
    philoxRounds n c' (k0 + 0x9E3779B9) (k1 + 0xBB67AE85)

/-- The procedure of R145. -/
def philox (c : Quad) (k0 k1 : BitVec 32) : Quad := philoxRounds 10 c k0 k1

/-- The four key words of a 16-byte key, read little-endian (R143). -/
def keyWords (k : Bytes) : Quad :=
  { w0 := BitVec.ofNat 32 (fieldAt k 0 4), w1 := BitVec.ofNat 32 (fieldAt k 4 4),
    w2 := BitVec.ofNat 32 (fieldAt k 8 4), w3 := BitVec.ofNat 32 (fieldAt k 12 4) }

/-- The keyed hash of R179. -/
def chash (k : Quad) (tag a b x : Nat) : Quad :=
  philox { w0 := BitVec.ofNat 32 (tag * 2 ^ 24 + b), w1 := BitVec.ofNat 32 a,
           w2 := BitVec.ofNat 32 x ^^^ k.w2, w3 := BitVec.ofNat 32 (x / 2 ^ 32) ^^^ k.w3 } k.w0 k.w1

end Sys2Proof.Machine
end

