-- ==== Sys2Proof/Config.lean ====
section
/-! DEFINITION. What the spec fixes as constants of the device, and the free values: constants without a body, so
that no proof can lean on a value of them. A free value stands where the spec states an effect and leaves the
value open, or takes the value from a published standard, from fuses or from a random generator. -/

namespace Sys2Proof

/-- R104: what a video sequence header declares. -/
structure VideoSeq where
  /-- The number of the profile in its standard. -/
  profile : Nat
  /-- R104: H.264: the Constrained form of the Baseline profile. -/
  constrained : Bool
  /-- R104: ten times the level. -/
  level : Nat
  /-- R104: bit depth. -/
  depth : Nat
  /-- R104: 0 monochrome, 1 4:2:0, else another. -/
  chroma : Nat
  /-- R114: the declared size: width of the coded picture. -/
  codedW : Nat
  /-- R114: height of the coded picture. -/
  codedH : Nat
  /-- R115: width of the output picture. -/
  w : Nat
  /-- R115: height of the output picture. -/
  h : Nat
  /-- R114: width of a coding tree block. -/
  ctb : Nat
  /-- R104: another feature that is not supported. -/
  other : Bool
  deriving DecidableEq, Repr

namespace Config

/-! ## Constants of the device -/

/-- R39: streams. -/
def streams : Nat := 64
/-- R1, R48: Caravans. -/
def caravans : Nat := 48
/-- R55: cores of the device. -/
def cores : Nat := 384
/-- R37: limit of jobs in flight in class S0. -/
def maxS0Jobs : Nat := 512
/-- R37: limit of jobs in flight in classes S1 to S7 together. -/
def maxOtherJobs : Nat := 7680
/-- R35: attempts of a job before its stream is held. -/
def maxAttempts : Nat := 4
/-- R200: batches open on the device. -/
def maxOpenBatches : Nat := 1024
/-- R27: image format N of OD 2000:01. -/
def imageFormat : Nat := 1
/-- R54: arithmetic revisions of OD 2000:02. -/
def arithRevs : Nat := 2
/-- R235: snapshot version V of OD 2000:06. -/
def snapVersion : Nat := 1
/-- R364: reassembly entries, and those kept for VL 0. -/
def reasmEntries : Nat := 16384
/-- R364: reassembly entries kept for VL 0. -/
def reasmVl0 : Nat := 1024
/-- R360: replay buffer, bytes. -/
def replayBytes : Nat := 32768
/-- R374: miss buffer, bytes. -/
def missBytes : Nat := 262144
/-- R410: notices that wait while a channel is full. -/
def noticeQueue : Nat := 256
/-- R420: mirror records. -/
def mirrors : Nat := 128
/-- R337: namespaces. -/
def namespaces : Nat := 256
/-- R347: write-buffer bytes reserved for JOURNAL writes. -/
def journalReserve : Nat := 268435456
/-- R246: the volatile write buffer, bytes. -/
def writeBuffer : Nat := 17179869184
/-- R501: discards within 1 s after which OPEN is ignored. -/
def authLimit : Nat := 16
/-- R243: bytes of an Oasis bank. -/
def oasisBank : Nat := 262144
/-- R2: ticks of a millisecond. (DESIGN CHOICE, log entry 60) -/
def ms : Nat := 1000000
/-- R2: ticks of a second. -/
def sec : Nat := 1000000000

/-! ## Free values -/

/-- MODEL: the value that the spec leaves open at the `n`-th draw. -/
opaque freeWord : Nat → BitVec 64
/-- R446, R449, R500: random bytes of the enclave at the `n`-th draw. -/
opaque freeBytes : Nat → List (BitVec 8)
/-- MODEL: a choice that the spec leaves to the device at the `n`-th draw. -/
opaque freeBool : Nat → Bool
/-- R370: the random tag of a region key at the `n`-th draw. -/
opaque freeTag : Nat → BitVec 16
/-- R366: a byte of a region that is undefined after a failed WRITE. -/
opaque undefinedByte : Nat → BitVec 8

/-- R506: SERIAL, from fuses. -/
opaque serial : BitVec 128
/-- R506: FW_VERSION of the firmware slot that runs. -/
opaque fwVersion : BitVec 32
/-- R506: BOOT_ROM_VERSION. -/
opaque bootRom : BitVec 16
/-- R506: T1S_MAC, from fuses. -/
opaque t1sMac : BitVec 48
/-- R381: MAC_ADDR of port k, from fuses. -/
opaque macAddr : Nat → BitVec 48
/-- R250: what a granule of the data region above the fixed regions and the flash map holds, which the spec leaves open:
the number of a pool, or 64 plus the DRAM key ID under which the sample cache uses it. (DESIGN CHOICE, log entry 57) -/
opaque granuleUse : Nat → Nat
/-- R250: the AES-256-XTS key, 64 bytes, of a DRAM key ID after `n` rotations. -/
opaque dramKey : Nat → Nat → List (BitVec 8)
/-- R251: the integrity key of a DRAM key ID after `n` rotations. -/
opaque integrityKey : Nat → Nat → List (BitVec 8)
/-- R248: the plaintext that an engine of the device has written into a line whose place in its region the spec does not state, at
the `n`-th draw; none: it has not been written. (DESIGN CHOICE, log entry 153) -/
opaque lineHeld : Nat → Nat → Option (List (BitVec 8))
/-- R277, R449: the AES-256-XTS media key of a namespace key number, 64 bytes. -/
opaque mediaKey : Nat → List (BitVec 8)
/-- R277: the parity of a codeword's data and metadata, 496 bytes. -/
opaque ldpcParity : List (BitVec 8) → List (BitVec 8)
/-- R249: the ciphertext that the symbol code makes of a line with errors in three or more devices, for which no rule is given; none:
it detects them. (DESIGN CHOICE, log entry 153) -/
opaque symbolBeyond : List (Nat × Nat) → List (BitVec 8) → Option (List (BitVec 8))
/-- R243: what the SECDED code makes of a word with three or more bits in error, for which no rule is given: 0 a clean word, 1 a
corrected one, else an uncorrectable one. (DESIGN CHOICE, log entry 153) -/
opaque secdedBeyond : List Nat → Nat
/-- R449: the identity public key, ML-DSA-87. -/
opaque identityKey : List (BitVec 8)
/-- R452: measurement of the boot ROM. -/
opaque bootRomDigest : List (BitVec 8)
/-- R452: the alias public key under a firmware measurement. -/
opaque aliasKey : List (BitVec 8) → List (BitVec 8)
/-- R449: the encapsulation part of the `n`-th release key. -/
opaque kemKey : Nat → List (BitVec 8)
/-- R452: an identity-key signature. -/
opaque identitySign : List (BitVec 8) → List (BitVec 8)
/-- R452: an alias-key signature. -/
opaque aliasSign : List (BitVec 8) → List (BitVec 8) → List (BitVec 8)
/-- R26, R456: ML-DSA-87 verification: public key, message, signature. (PRESUMED, log entry 14) -/
opaque dsaVerify : List (BitVec 8) → List (BitVec 8) → List (BitVec 8) → Bool
/-- R445: verification by Treryn's RMA key: message, signature. -/
opaque rmaVerify : List (BitVec 8) → List (BitVec 8) → Bool
/-- R445: whether IDENTITY_CERT is Treryn's certificate for the identity public key. -/
opaque certOk : List (BitVec 8) → Bool
/-- R460: a firmware image's security version, when Treryn's firmware key verifies it. -/
opaque fwVerify : List (BitVec 8) → Option Nat
/-- R506: the version that a firmware image carries. -/
opaque fwVersionOf : List (BitVec 8) → BitVec 32
/-- R455: ML-KEM-1024 decapsulation under the `n`-th release key. -/
opaque kemDecap : Nat → List (BitVec 8) → List (BitVec 8)
/-- R455, R457: AES-256-GCM opening: key, IV, AAD, ciphertext, tag. -/
opaque gcmOpen : List (BitVec 8) → List (BitVec 8) → List (BitVec 8) → List (BitVec 8) → List (BitVec 8) →
  Option (List (BitVec 8))
/-- R449: the enclave's snapshot of LC_NONCE after `n` draws. -/
opaque lcNonce : Nat → List (BitVec 8)

/-- R104, R113: the sequence header active at an access unit of a clip, for CODEC 3, 4 or 5, as its standard reads it; an error where
it does not parse, true where the access unit ends inside it. -/
opaque videoSeq : Nat → List (BitVec 8) → Nat → Except Bool VideoSeq
/-- R111: whether the frame of the second entry can be decoded from the random access point at the first without any picture before
it. -/
opaque videoFrom : List (BitVec 8) → Nat → Nat → Bool
/-- R112: the slices, slice segments or tile groups of the picture of an access unit that has most of them. -/
opaque videoSlices : List (BitVec 8) → Nat → Nat
/-- R117: the fault met in the data of an access unit: 0 bits beyond its end, 1 the last line of the table's video row, else a feature
outside R104. -/
opaque videoFault : List (BitVec 8) → Nat → Option Nat
/-- R104, R111: sample i of plane c of the frame of an entry, as the standard reconstructs it, in its low bits. -/
opaque videoSample : List (BitVec 8) → Nat → Nat → Nat → Nat
/-- R133, R140: what a stage gives for an input that is not a record in the layout of R115, which the spec does not
state: a final status or an output. The arguments are the stage type and the input. (DESIGN CHOICE, log entry 16) -/
opaque badRecord : Nat → List (BitVec 8) → Except Nat (List (BitVec 8))
/-- R207: OFFSET of a tail entry, which the spec does not state. (DESIGN CHOICE, log entry 17) -/
opaque tailOffset : BitVec 32
/-- R198: what PACK places when its stage has several predecessors, which the spec does not state. (DESIGN CHOICE, log entry 18) -/
opaque packJoin : List (List (BitVec 8)) → List (BitVec 8)
/-- R307: the rated erase cycles of the NAND parts. -/
opaque ratedCycles : Nat
/-- R186, R306: a sample that another device holds, by CORPUS_ID and sample index: whether its media fail, its FLAGS and its
stored bytes; none when no device holds a record of it. (DESIGN CHOICE, log entry 44) -/
opaque remoteSample : Nat → Nat → Option (Bool × Nat × List (BitVec 8))
/-- R184: the samples that other devices hold of a corpus, with their logical lengths, as they stand when the lists of an epoch
are made, by CORPUS_ID and epoch. (DESIGN CHOICE, log entry 44) -/
opaque remoteSet : Nat → Nat → List (Nat × Nat)
/-- R195: whether a sample of a corpus that other devices hold has a smaller index and a signature within RADIUS bits, by
CORPUS_ID and sample index. (DESIGN CHOICE, log entry 44) -/
opaque remoteTwin : Nat → Nat → Bool
/-- R485, R541: whether HU_TEMP rounds the temperature of a code of HU_TSNS up to a whole degree, for which no rule is given. -/
opaque bankTempUp : Nat → Bool
/-- R485, R541: HU_TEMP for a code of HU_TSNS whose temperature an I8 does not hold. -/
opaque bankTempHigh : Nat → BitVec 8
/-- R65: the OP value of VMAX, which the table of representative operations does not list. (DEDUCED, log entry 19) -/
opaque opVmax : BitVec 8
/-- R65: the OP value of VLOG2, which the table of representative operations does not list. -/
opaque opVlog2 : BitVec 8
/-- R79, R85: the OP value of the reduction by VMIN, which the table of representative operations does not list. -/
opaque opVredmin : BitVec 8
/-- R85: what a reduction by VMAX, or by VMIN, of an integer register gives when the predicate selects no element, by element
type: the identities that the rule lists are no integers. -/
opaque redNone : Bool → Nat → BitVec 32
/-- R193: bit i of a signature whose kernel output is too short to hold element i, by output and bit. -/
opaque shortSignature : List (BitVec 8) → Nat → Bool
/-- R339: the result bits of the completion of a vendor command that has no result, by status. (DESIGN CHOICE, log entry 119) -/
opaque noResult : Nat → BitVec 16
/-- R335: fields of an NVMe data structure that the published standard gives: structure, instance, length. -/
opaque nvmeData : Nat → Nat → Nat → List (BitVec 8)
/-- R334: an NVMe controller register, by offset, in the bits that the published standard leaves to the controller and the spec
does not state. -/
opaque nvmeReg : Nat → BitVec 64
/-- R310: a CXL component or memory device register that has not been written, by BAR0 offset. -/
opaque cxlReg : Nat → BitVec 64
/-- R309: data of a CXL memory device command that the published standard gives. -/
opaque cxlData : Nat → List (BitVec 8) → List (BitVec 8)
/-- R309: the event records that a CXL memory device has logged since the `n`-th draw, by log. -/
opaque cxlNewEvents : Nat → Nat → List (List (BitVec 8))
/-- R517: the bits of a dword of the configuration space that a configuration write changes. (DESIGN CHOICE, log entry 118) -/
opaque configMask : Nat → BitVec 32
/-- R517: the configuration space at an offset, as loaded. -/
opaque configSpace : Nat → BitVec 32

end Config

end Sys2Proof
end

