-- ==== Sys2Proof/Machine/State.lean ====
section
/-! DEFINITION. The state of the block as plain data, the reasons a command can stop, and the state at reset. -/

namespace Sys2Proof.Machine

/-- The machine. Each field is one part of the device; the records of the parts stand in Machine/Types.lean. -/
structure State where
  /-- MODEL: commands waiting, first in, first out. -/
  pending : List Instr := []
  /-- MODEL: what the block has sent out of itself, oldest first. -/
  out : List Emit := []
  /-- MODEL: free values drawn so far; the next one is Config applied to this counter. -/
  fresh : Nat := 0
  /-- R486: stored values of the object dictionary that differ from their defaults, by index × 256 + subindex. -/
  od : Tbl Nat := []
  /-- R8: changes drawn from each RWL object, by index × 256 + subindex. -/
  drawn : Tbl Nat := []
  /-- R9, R210, R258, R537: objects written since they last took their defaults. -/
  written : List Nat := []
  /-- R2, R222: the global time counter. -/
  clk : ClkSt := {}
  /-- R27: image slots 0 to 15. -/
  images : Tbl ImageSlot := []
  /-- R34: job records. -/
  jobs : List Job := []
  /-- R34: number of the next job record. -/
  nextJob : Nat := 0
  /-- R38: stream last served, by class. -/
  lastServed : Tbl Nat := []
  /-- R39: streams 0 to 63. -/
  streams : Tbl Stream := []
  /-- R55: cores 0 to 383, core c of Caravan n at 8n + c. -/
  cores : Tbl Core := []
  /-- R174: codec engines 0 to 15. -/
  engines : Tbl CodecEngine := []
  /-- R174: coder states spilled to the system region of Oasis. -/
  spilled : Nat := 0
  /-- R194: bands recorded by this owner. -/
  bands : List Band := []
  /-- R258: pools 0 to 63. -/
  pools : Tbl PoolSt := []
  /-- R269: ALLOCATED buffers, by pool × 2^26 + index. -/
  buffers : Tbl Buffer := []
  /-- R396: bytes of the S0 reserve in use. -/
  s0Used : Nat := 0
  /-- R265: blocking ALLOCs that wait, in order of arrival. -/
  allocs : List AllocReq := []
  /-- R267: buffers charged, by requester × 64 + pool. -/
  charged : Tbl Nat := []
  /-- R271: release log, newest first, at most 64. -/
  relLog : List RelLog := []
  /-- R271: OD 3040:41, events logged since cold reset. -/
  relCount : Nat := 0
  /-- R252: DRAM data-region lines that the model records, by line index. -/
  dram : Tbl DramLine := []
  /-- R252, R253: the other lines of the granules of each DRAM key ID: 0 in use by the device's own engines, 1 WRITTEN clear,
  2 overwritten with zeros. -/
  granules : Tbl Nat := []
  /-- R245: enabled DDR channels. -/
  ddrChannels : Nat := 0
  /-- R244: DDR rate, MT/s. -/
  ddrRate : Nat := 0
  /-- R244: capacity C of the enabled channels. -/
  ddrCapacity : Nat := 0
  /-- R256: next line of the DRAM scrub. -/
  dramScrub : Nat := 0
  /-- R256: next word of the Oasis scrub. -/
  oasisScrub : Nat := 0
  /-- R256: Oasis words marked failed. -/
  oasisFailed : List Nat := []
  /-- R278: flash media. -/
  flash : FlashSt := {}
  /-- R309: host die. -/
  host : HostSt := {}
  /-- R350: fabric. -/
  fabric : FabricSt := {}
  /-- R382: queue of class c at resource r, by 8r + c. -/
  queues : Tbl Queue := []
  /-- R388: gate ports 0 to 8. -/
  gates : Tbl Gate := []
  /-- R399: Ringmaster processors 0 to 3. -/
  rms : Tbl Rm := []
  /-- R402: mailbox channels 0 to 63. -/
  chans : Tbl Chan := []
  /-- R410: device notices that wait for channel 0. -/
  notices : List Notice := []
  /-- R442: recovery notices that wait for channel 8. -/
  recovery : List Notice := []
  /-- R411: power domains, by d. -/
  domains : Tbl Domain := []
  /-- R415: LAST_OFF_STATUS. -/
  offStatus : Nat := 0
  /-- R415: LAST_OFF_DOMAIN. -/
  offDomain : Nat := 0xFF
  /-- R415: LAST_OFF_ADDR. -/
  offAddr : Nat := 0
  /-- R415: LAST_OFF_GTC. -/
  offGtc : Nat := 0
  /-- R425: fault tolerance. -/
  ft : FtSt := {}
  /-- R444: enclave. -/
  sec : SecSt := {}
  /-- R468: power and clocks. -/
  power : PowerSt := {}
  /-- R477: hold-up bank. -/
  hold : HoldUp := {}
  /-- R486: management. -/
  mgmt : MgmtSt := {}
  /-- R511: start-up, resets and BIST. -/
  sys : SysSt := {}
  deriving DecidableEq, Repr

/-- Why a command stops the machine: its operand names a thing that the spec says does not exist. Each is raised
by every command whose operand is of that kind, and each is safe: no claim about a state after it can be proved.
(DESIGN CHOICE, log entry 8) -/
inductive Fault
  /-- R39: a stream number of 64 or more. Raised by the stream events. Safe. -/
  | noSuchStream
  /-- R55: a core number of 384 or more. Raised by the kernel rows. Safe. -/
  | noSuchCore
  /-- R174: a codec engine number of 16 or more. Raised by CODEC_BLOCK_DONE. Safe. -/
  | noSuchEngine
  /-- R350: a fabric port number of 8 or more. Raised by the fabric events. Safe. -/
  | noSuchPort
  /-- R258: a pool number of 64 or more. Raised by BUFFER_ALLOC and BUFFER_RELEASE. Safe. -/
  | noSuchPool
  /-- R260: a stream or a Ringmaster processor that the device does not have. Raised by BUFFER_ALLOC and BUFFER_RELEASE. Safe. -/
  | noSuchRequester
  /-- R278: a media pool number of 16 or more. Raised by DESTAGE and GC_VICTIM_SELECT. Safe. -/
  | noSuchMediaPool
  /-- R388: a gate port number of 9 or more. Raised by the gate events. Safe. -/
  | noSuchGate
  /-- R382: a resource without a shaper of its own decision point. Raised by CROSSBAR_DECISION_POINT. Safe. -/
  | noSuchResource
  /-- R399: a processor number of 4 or more. Raised by the Ringmaster events. Safe. -/
  | noSuchProcessor
  /-- R402: a channel number of 64 or more. Raised by the mailbox rows. Safe. -/
  | noSuchChannel
  /-- R411, R468: a domain number that the table does not list, or a rail of no Caravan. Raised by the domain, rail and
  droop events. Safe. -/
  | noSuchDomain
  /-- R443: a mirror record number of 128 or more. Raised by TAKEOVER_DEFERRED. Safe. -/
  | noSuchMirror
  /-- R525: a BIST group number of 7 or more. Raised by BIST_GROUP_DONE. Safe. -/
  | noSuchGroup
  /-- R312: a device physical address beyond RESULT_DPA. Raised by CXL_MEM_READ and CXL_MEM_WRITE. Safe. -/
  | dpaUnmapped
  /-- R310: an address beyond BAR0. Raised by REGISTER_WRITE and DOMAIN_OFF_ACCESS. Safe. -/
  | outsideBar0
  deriving DecidableEq, Repr

/-- Why a command has no meaning here. -/
inductive Refusal
  /-- A row of the table that has no meaning yet; raised by exec's own arm only. Safe. -/
  | notModelled (mnemonic : String)
  deriving DecidableEq, Repr

/-- What a command answers. -/
abbrev Res := Host.Outcome State Fault Refusal

/-- R519: the machine held in cold reset by RST_N, which the board holds low until power is good (R511). The
domains that start-up powers are OFF (R411, R512); PERST_N is released. (DESIGN CHOICE, log entry 1; DESIGN CHOICE, log entry 115) -/
def State.reset : State :=
  { domains := [(0, { state := 2 }), (1, { state := 2 }), (2, { state := 2 })] }

end Sys2Proof.Machine
end

