-- ==== Sys2Proof/Machine/OdTable.lean ====
section
/-! DEFINITION. The object dictionary's table: every object that the spec's OD tables give, with its type, access
code, default and range (R7, R486 to R488), and the key by which the model names each object: index × 256 +
subindex. -/

namespace Sys2Proof.Machine

/-! ## Keys of the objects -/

/-- R50: OD 2000:01 IMAGE_FORMAT. -/
def oImageFormat : Nat := 0x200001
/-- R50: OD 2000:02 ARITH_REVS. -/
def oArithRevs : Nat := 0x200002
/-- R50: OD 2000:03 JOBS_IN_FLIGHT. -/
def oJobsInFlight : Nat := 0x200003
/-- R50: OD 2000:04 JOBS_IN_FLIGHT_S0. -/
def oJobsInFlightS0 : Nat := 0x200004
/-- R50: OD 2000:05 IMAGE_SLOTS_FREE. -/
def oImageSlotsFree : Nat := 0x200005
/-- R50: OD 2010+k:01 SLOT_STATE. -/
def oSlotState (n : Nat) : Nat := 0x201001 + 256 * n
/-- R50: OD 2010+k:02 IMAGE_DIGEST. -/
def oImageDigest (n : Nat) : Nat := 0x201002 + 256 * n
/-- R50: OD 2010+k:03 SLOT_ARITH_REV. -/
def oSlotArithRev (n : Nat) : Nat := 0x201003 + 256 * n
/-- R50: OD 2010+k:04 SLOT_TENANT. -/
def oSlotTenant (n : Nat) : Nat := 0x201004 + 256 * n
/-- R50: OD 2010+k:05 LOAD_STATUS. -/
def oLoadStatus (n : Nat) : Nat := 0x201005 + 256 * n
/-- R50: OD 2010+k:06 UNLOAD. -/
def oUnload (n : Nat) : Nat := 0x201006 + 256 * n
/-- R50: OD 2100+n:01 IMAGE_SLOT. -/
def oImageSlot (n : Nat) : Nat := 0x210001 + 256 * n
/-- R50: OD 2100+n:02 SERVICE_CLASS. -/
def oServiceClass (n : Nat) : Nat := 0x210002 + 256 * n
/-- R50: OD 2100+n:03 STREAM_STATE. -/
def oStreamState (n : Nat) : Nat := 0x210003 + 256 * n
/-- R50: OD 2100+n:04 SEED. -/
def oSeed (n : Nat) : Nat := 0x210004 + 256 * n
/-- R50: OD 2100+n:05 CORPUS_ID. -/
def oCorpusId (n : Nat) : Nat := 0x210005 + 256 * n
/-- R50: OD 2100+n:06 START_EPOCH. -/
def oStartEpoch (n : Nat) : Nat := 0x210006 + 256 * n
/-- R50: OD 2100+n:07 SPLIT_MODE. -/
def oSplitMode (n : Nat) : Nat := 0x210007 + 256 * n
/-- R50: OD 2100+n:08 SPLIT_CUT. -/
def oSplitCut (n : Nat) : Nat := 0x210008 + 256 * n
/-- R50: OD 2100+n:09 LOADBAL. -/
def oLoadbal (n : Nat) : Nat := 0x210009 + 256 * n
/-- R50: OD 2100+n:0A CARAVAN_MASK. -/
def oCaravanMask (n : Nat) : Nat := 0x21000A + 256 * n
/-- R50: OD 2100+n:0B MAX_IN_FLIGHT. -/
def oMaxInFlight (n : Nat) : Nat := 0x21000B + 256 * n
/-- R50: OD 2100+n:0C CLOCK_EXACT. -/
def oClockExact (n : Nat) : Nat := 0x21000C + 256 * n
/-- R50: OD 2100+n:0D CONTROL. -/
def oControl (n : Nat) : Nat := 0x21000D + 256 * n
/-- R50: OD 2100+n:0E LAST_STATUS. -/
def oLastStatus (n : Nat) : Nat := 0x21000E + 256 * n
/-- R209: OD 2300:01 PLACE_GEOMETRY. -/
def oPlaceGeometry : Nat := 0x230001
/-- R209: OD 2100+n:10 CAROUSEL_MODE. -/
def oCarouselMode (n : Nat) : Nat := 0x210010 + 256 * n
/-- R209: OD 2100+n:11 MEMBER. -/
def oMember (n : Nat) : Nat := 0x210011 + 256 * n
/-- R209: OD 2100+n:12 NEIGHBOUR_S. -/
def oNeighbourS (n : Nat) : Nat := 0x210012 + 256 * n
/-- R209: OD 2100+n:13 DRIFT_SHIFT. -/
def oDriftShift (n : Nat) : Nat := 0x210013 + 256 * n
/-- R209: OD 2100+n:14 BATCH_MODE. -/
def oBatchMode (n : Nat) : Nat := 0x210014 + 256 * n
/-- R209: OD 2100+n:15 BATCH_COUNT. -/
def oBatchCount (n : Nat) : Nat := 0x210015 + 256 * n
/-- R209: OD 2100+n:16 BYTE_BUDGET. -/
def oByteBudget (n : Nat) : Nat := 0x210016 + 256 * n
/-- R209: OD 2100+n:17 BATCH_MAX_BYTES. -/
def oBatchMaxBytes (n : Nat) : Nat := 0x210017 + 256 * n
/-- R209: OD 2100+n:18 EXCL_POLICY. -/
def oExclPolicy (n : Nat) : Nat := 0x210018 + 256 * n
/-- R209: OD 2100+n:19 BACKFILL_TRIES. -/
def oBackfillTries (n : Nat) : Nat := 0x210019 + 256 * n
/-- R209: OD 2100+n:1A BATCH_WINDOW. -/
def oBatchWindow (n : Nat) : Nat := 0x21001A + 256 * n
/-- R209: OD 2100+n:1B THRESH_EPOCH. -/
def oThreshEpoch (n : Nat) : Nat := 0x21001B + 256 * n
/-- R209: OD 2100+n:1C THRESH_GEN. -/
def oThreshGen (n : Nat) : Nat := 0x21001C + 256 * n
/-- R209: OD 2100+n:1D EPOCH_SIZE. -/
def oEpochSize (n : Nat) : Nat := 0x21001D + 256 * n
/-- R209: OD 2100+n:1E PLAN_MISMATCH. -/
def oPlanMismatch (n : Nat) : Nat := 0x21001E + 256 * n
/-- R209: OD 2100+n:20–2F THRESH0–15. -/
def oThresh (n i : Nat) : Nat := 0x210020 + 256 * n + i
/-- R240: OD 2000:06 SNAP_VERSION. -/
def oSnapVersion : Nat := 0x200006
/-- R240: OD 2200+n:01 LAUNCH_AT. -/
def oLaunchAt (n : Nat) : Nat := 0x220001 + 256 * n
/-- R240: OD 2200+n:02 EXACT_INTERVAL. -/
def oExactInterval (n : Nat) : Nat := 0x220002 + 256 * n
/-- R240: OD 2200+n:03 EXACT_STATE. -/
def oExactState (n : Nat) : Nat := 0x220003 + 256 * n
/-- R240: OD 2200+n:04 EXACT_LOST_CAUSE. -/
def oExactLostCause (n : Nat) : Nat := 0x220004 + 256 * n
/-- R240: OD 2200+n:05 EXACT_LATE. -/
def oExactLate (n : Nat) : Nat := 0x220005 + 256 * n
/-- R240: OD 2200+n:06 SNAP_CONTROL. -/
def oSnapControl (n : Nat) : Nat := 0x220006 + 256 * n
/-- R240: OD 2200+n:07 SNAP_SEQ. -/
def oSnapSeq (n : Nat) : Nat := 0x220007 + 256 * n
/-- R240: OD 2200+n:08 SNAP_LENGTH. -/
def oSnapLength (n : Nat) : Nat := 0x220008 + 256 * n
/-- R240: OD 2200+n:09 SNAP_DIGEST. -/
def oSnapDigest (n : Nat) : Nat := 0x220009 + 256 * n
/-- R240: OD 2200+n:0A LAST_BATCH_DIGEST. -/
def oLastBatchDigest (n : Nat) : Nat := 0x22000A + 256 * n
/-- R240: OD 2200+n:0B EXACT_START_FAIL. -/
def oExactStartFail (n : Nat) : Nat := 0x22000B + 256 * n
/-- R240: OD 2400:01 GTC. -/
def oGtc : Nat := 0x240001
/-- R240: OD 2400:02 GTC_STATE. -/
def oGtcState : Nat := 0x240002
/-- R240: OD 2400:03 GTC_ROOT. -/
def oGtcRoot : Nat := 0x240003
/-- R240: OD 2400:04 GTC_HOPS. -/
def oGtcHops : Nat := 0x240004
/-- R240: OD 2400:05 GTC_OFFSET. -/
def oGtcOffset : Nat := 0x240005
/-- R240: OD 2400:06 GTC_IN_LATCH. -/
def oGtcInLatch : Nat := 0x240006
/-- R240: OD 2400:10–17 LINK_DELAY0–7. -/
def oLinkDelay (i : Nat) : Nat := 0x240010 + i
/-- R258: OD 3100+p:01 POOL_PLACE. -/
def oPoolPlace (n : Nat) : Nat := 0x310001 + 256 * n
/-- R258: OD 3100+p:02 BUF_SIZE. -/
def oBufSize (n : Nat) : Nat := 0x310002 + 256 * n
/-- R258: OD 3100+p:03 BUF_COUNT. -/
def oBufCount (n : Nat) : Nat := 0x310003 + 256 * n
/-- R258: OD 3100+p:04 POOL_CARAVANS. -/
def oPoolCaravans (n : Nat) : Nat := 0x310004 + 256 * n
/-- R258: OD 3100+p:05 SPILL_POOL. -/
def oSpillPool (n : Nat) : Nat := 0x310005 + 256 * n
/-- R258: OD 3100+p:06 NOTICE_AT. -/
def oNoticeAt (n : Nat) : Nat := 0x310006 + 256 * n
/-- R258: OD 3100+p:07 PRESSURE_AT. -/
def oPressureAt (n : Nat) : Nat := 0x310007 + 256 * n
/-- R258: OD 3100+p:08 STOP_AT. -/
def oStopAt (n : Nat) : Nat := 0x310008 + 256 * n
/-- R258: OD 3100+p:09 HYST. -/
def oHyst (n : Nat) : Nat := 0x310009 + 256 * n
/-- R258: OD 3100+p:0A POOL_STATE. -/
def oPoolState (n : Nat) : Nat := 0x31000A + 256 * n
/-- R258: OD 3100+p:0B OCCUPIED. -/
def oOccupied (n : Nat) : Nat := 0x31000B + 256 * n
/-- R258: OD 3100+p:0C PEAK. -/
def oPeak (n : Nat) : Nat := 0x31000C + 256 * n
/-- R258: OD 3100+p:0D SPILLS. -/
def oSpills (n : Nat) : Nat := 0x31000D + 256 * n
/-- R258: OD 3100+p:0E ORPHANED. -/
def oOrphaned (n : Nat) : Nat := 0x31000E + 256 * n
/-- R258: OD 3100+p:0F RECLAIM. -/
def oReclaim (n : Nat) : Nat := 0x31000F + 256 * n
/-- R267: OD 3400+r:01–40 QUOTA0–63. -/
def oQuota (n i : Nat) : Nat := 0x340001 + 256 * n + i
/-- R267: OD 3400+r:41–80 CHARGED0–63. -/
def oCharged (n i : Nat) : Nat := 0x340041 + 256 * n + i
/-- R273: OD 3000:01 DDR_CHANNELS. -/
def oDdrChannels : Nat := 0x300001
/-- R273: OD 3000:02 DDR_RATE. -/
def oDdrRate : Nat := 0x300002
/-- R273: OD 3000:03 DRAM_CAPACITY. -/
def oDramCapacity : Nat := 0x300003
/-- R273: OD 3000:04 DATA_REGION. -/
def oDataRegion : Nat := 0x300004
/-- R273: OD 3000:05 DRAM_RESERVED. -/
def oDramReserved : Nat := 0x300005
/-- R273: OD 3000:06 MODEL_OASIS_MIB. -/
def oModelOasisMib : Nat := 0x300006
/-- R273: OD 3000:07 SAMPLE_CACHE. -/
def oSampleCache : Nat := 0x300007
/-- R273: OD 3000:10 DRAM_CORRECTED. -/
def oDramCorrected : Nat := 0x300010
/-- R273: OD 3000:11 DRAM_UNCORRECTABLE. -/
def oDramUncorrectable : Nat := 0x300011
/-- R273: OD 3000:12 TAG_FAILURES. -/
def oTagFailures : Nat := 0x300012
/-- R273: OD 3000:13 SRAM_CORRECTED. -/
def oSramCorrected : Nat := 0x300013
/-- R273: OD 3000:14 SRAM_UNCORRECTABLE. -/
def oSramUncorrectable : Nat := 0x300014
/-- R273: OD 3000:15 POISONED_LINES. -/
def oPoisonedLines : Nat := 0x300015
/-- R273: OD 3000:16 RETIRED_BUFFERS. -/
def oRetiredBuffers : Nat := 0x300016
/-- R273: OD 3000:17 DRAM_SCRUB_DONE. -/
def oDramScrubDone : Nat := 0x300017
/-- R273: OD 3000:18 OASIS_SCRUB_DONE. -/
def oOasisScrubDone : Nat := 0x300018
/-- R307: OD 3800:01 MEDIA_RAW. -/
def oMediaRaw : Nat := 0x380001
/-- R307: OD 3800:02 OP_PERMILLE. -/
def oOpPermille : Nat := 0x380002
/-- R307: OD 3800:03 FORMATTABLE. -/
def oFormattable : Nat := 0x380003
/-- R307: OD 3800:04 FORMATTED. -/
def oFormatted : Nat := 0x380004
/-- R307: OD 3800:05 PATROL_DAYS. -/
def oPatrolDays : Nat := 0x380005
/-- R307: OD 3800:06 PATROL_DONE. -/
def oPatrolDone : Nat := 0x380006
/-- R307: OD 3800:07 SPARE_PERMILLE. -/
def oSparePermille : Nat := 0x380007
/-- R307: OD 3800:08 SPARE_THRESHOLD. -/
def oSpareThreshold : Nat := 0x380008
/-- R307: OD 3800:09 WEAR_USED. -/
def oWearUsed : Nat := 0x380009
/-- R307: OD 3800:0A RD_LIMIT. -/
def oRdLimit : Nat := 0x38000A
/-- R307: OD 3800:0B REFRESH_STEP. -/
def oRefreshStep : Nat := 0x38000B
/-- R307: OD 3800:0C WL_SPREAD. -/
def oWlSpread : Nat := 0x38000C
/-- R307: OD 3800:10 COR_HARD. -/
def oCorHard : Nat := 0x380010
/-- R307: OD 3800:11 COR_RETRY. -/
def oCorRetry : Nat := 0x380011
/-- R307: OD 3800:12 COR_SOFT. -/
def oCorSoft : Nat := 0x380012
/-- R307: OD 3800:13 UNCORRECTABLE. -/
def oUncorrectable : Nat := 0x380013
/-- R307: OD 3800:14 PROGRAM_FAILS. -/
def oProgramFails : Nat := 0x380014
/-- R307: OD 3800:15 ERASE_FAILS. -/
def oEraseFails : Nat := 0x380015
/-- R307: OD 3800:16 RETIRED_BLOCKS. -/
def oRetiredBlocks : Nat := 0x380016
/-- R307: OD 3800:17 LOST_UNITS. -/
def oLostUnits : Nat := 0x380017
/-- R307: OD 3800:18 REFRESH_PENDING. -/
def oRefreshPending : Nat := 0x380018
/-- R307: OD 3800:19 FLASH_CHANNELS. -/
def oFlashChannels : Nat := 0x380019
/-- R307: OD 3800:1A FLASH_TARGETS. -/
def oFlashTargets : Nat := 0x38001A
/-- R307: OD 3800:20 TEMP_NOW. -/
def oTempNow : Nat := 0x380020
/-- R307: OD 3800:21–35 TEMP_HIST0–20. -/
def oTempHist (i : Nat) : Nat := 0x380021 + i
/-- R307: OD 3810+m:01 POOL_MEDIA_STATE. -/
def oPoolMediaState (n : Nat) : Nat := 0x381001 + 256 * n
/-- R307: OD 3810+m:02 FREE_BLOCKS. -/
def oFreeBlocks (n : Nat) : Nat := 0x381002 + 256 * n
/-- R307: OD 3810+m:03 SPARE_BLOCKS. -/
def oSpareBlocks (n : Nat) : Nat := 0x381003 + 256 * n
/-- R307: OD 3810+m:04 CRIT_MARK. -/
def oCritMark (n : Nat) : Nat := 0x381004 + 256 * n
/-- R307: OD 3810+m:05 ERASE_MEAN. -/
def oEraseMean (n : Nat) : Nat := 0x381005 + 256 * n
/-- R307: OD 3810+m:06 ERASE_MAX. -/
def oEraseMax (n : Nat) : Nat := 0x381006 + 256 * n
/-- R307: OD 3900+k:01 MEDIA_STATE. -/
def oMediaState (n : Nat) : Nat := 0x390001 + 256 * n
/-- R349: OD 4000:01 LINK_RATE. -/
def oLinkRate : Nat := 0x400001
/-- R349: OD 4000:02 LINK_WIDTH. -/
def oLinkWidth : Nat := 0x400002
/-- R349: OD 4000:03 FLIT_MODE. -/
def oFlitMode : Nat := 0x400003
/-- R349: OD 4000:04 RESULT_DPA. -/
def oResultDpa : Nat := 0x400004
/-- R349: OD 4000:05 HDM_WRITES_DISCARDED. -/
def oHdmWritesDiscarded : Nat := 0x400005
/-- R349: OD 4000:06 DB_IGNORED. -/
def oDbIgnored : Nat := 0x400006
/-- R349: OD 4000:07 POISON_RETURNED. -/
def oPoisonReturned : Nat := 0x400007
/-- R349: OD 4000:08 WRITE_THROUGH. -/
def oWriteThrough : Nat := 0x400008
/-- R349: OD 4000:09 JOURNAL_GRANT. -/
def oJournalGrant : Nat := 0x400009
/-- R349: OD 4000:0A DIRTY_BYTES. -/
def oDirtyBytes : Nat := 0x40000A
/-- R349: OD 4100+n:01 WIN_OFFSET. -/
def oWinOffset (n : Nat) : Nat := 0x410001 + 256 * n
/-- R349: OD 4100+n:02 SLOT_SIZE. -/
def oSlotSize (n : Nat) : Nat := 0x410002 + 256 * n
/-- R349: OD 4100+n:03 SLOT_COUNT. -/
def oSlotCount (n : Nat) : Nat := 0x410003 + 256 * n
/-- R349: OD 4100+n:04 HOST_DEADLINE. -/
def oHostDeadline (n : Nat) : Nat := 0x410004 + 256 * n
/-- R349: OD 4100+n:05 READY_SEQ. -/
def oReadySeq (n : Nat) : Nat := 0x410005 + 256 * n
/-- R349: OD 4100+n:06 REDELIVERIES. -/
def oRedeliveries (n : Nat) : Nat := 0x410006 + 256 * n
/-- R349: OD 4100+n:07 HOST_TIMEOUTS. -/
def oHostTimeouts (n : Nat) : Nat := 0x410007 + 256 * n
/-- R349: OD 4200+k:01 NS_CLASS. -/
def oNsClass (n : Nat) : Nat := 0x420001 + 256 * n
/-- R349: OD 4200+k:02 NS_TENANT. -/
def oNsTenant (n : Nat) : Nat := 0x420002 + 256 * n
/-- R349: OD 4200+k:03 NS_CORPUS. -/
def oNsCorpus (n : Nat) : Nat := 0x420003 + 256 * n
/-- R349: OD 4200+k:04 NS_SEALED. -/
def oNsSealed (n : Nat) : Nat := 0x420004 + 256 * n
/-- R381: OD 4800:01 MIDWAY_VER_MAX. -/
def oMidwayVerMax : Nat := 0x480001
/-- R381: OD 4800:02 PARTITION_ID. -/
def oPartitionId : Nat := 0x480002
/-- R381: OD 4800:03 REASM_IN_USE. -/
def oReasmInUse : Nat := 0x480003
/-- R381: OD 4800:04 REASM_TIMEOUT. -/
def oReasmTimeout : Nat := 0x480004
/-- R381: OD 4800:05 QP_MISSES. -/
def oQpMisses : Nat := 0x480005
/-- R381: OD 4800:06 RNR_NAKS_SENT. -/
def oRnrNaksSent : Nat := 0x480006
/-- R381: OD 4800:07 PROTECTION_VIOLATIONS. -/
def oProtectionViolations : Nat := 0x480007
/-- R381: OD 4800:08 FENCE_REFUSALS. -/
def oFenceRefusals : Nat := 0x480008
/-- R381: OD 4800:09 CREDIT_VIOLATIONS. -/
def oCreditViolations : Nat := 0x480009
/-- R381: OD 4800:0A DIGEST_FAILURES. -/
def oDigestFailures : Nat := 0x48000A
/-- R381: OD 4800:0B TORUS_GEOMETRY. -/
def oTorusGeometry : Nat := 0x48000B
/-- R381: OD 4800:0C RNR_TIMER. -/
def oRnrTimer : Nat := 0x48000C
/-- R381: OD 4810+k:01 PORT_ROLE. -/
def oPortRole (n : Nat) : Nat := 0x481001 + 256 * n
/-- R381: OD 4810+k:02 PORT_DIR. -/
def oPortDir (n : Nat) : Nat := 0x481002 + 256 * n
/-- R381: OD 4810+k:03 LINK_STATE. -/
def oLinkState (n : Nat) : Nat := 0x481003 + 256 * n
/-- R381: OD 4810+k:04 LINK_VERSION. -/
def oLinkVersion (n : Nat) : Nat := 0x481004 + 256 * n
/-- R381: OD 4810+k:05 PORT_DOWN_CAUSE. -/
def oPortDownCause (n : Nat) : Nat := 0x481005 + 256 * n
/-- R381: OD 4810+k:06 PEER_PARTITION. -/
def oPeerPartition (n : Nat) : Nat := 0x481006 + 256 * n
/-- R381: OD 4810+k:07 REPLAYS. -/
def oReplays (n : Nat) : Nat := 0x481007 + 256 * n
/-- R381: OD 4810+k:08 FEC_CORRECTED. -/
def oFecCorrected (n : Nat) : Nat := 0x481008 + 256 * n
/-- R381: OD 4810+k:09 FEC_UNCORRECTED. -/
def oFecUncorrected (n : Nat) : Nat := 0x481009 + 256 * n
/-- R381: OD 4810+k:0A FENCED_DROPS. -/
def oFencedDrops (n : Nat) : Nat := 0x48100A + 256 * n
/-- R381: OD 4810+k:0B MISS_BUFFER_PEAK. -/
def oMissBufferPeak (n : Nat) : Nat := 0x48100B + 256 * n
/-- R381: OD 4810+k:10 MAC_ADDR. -/
def oMacAddr (n : Nat) : Nat := 0x481010 + 256 * n
/-- R381: OD 4810+k:11 IPV6_ADDR. -/
def oIpv6Addr (n : Nat) : Nat := 0x481011 + 256 * n
/-- R381: OD 4810+k:12 IPV4_ADDR. -/
def oIpv4Addr (n : Nat) : Nat := 0x481012 + 256 * n
/-- R381: OD 4810+k:13 VLAN. -/
def oVlan (n : Nat) : Nat := 0x481013 + 256 * n
/-- R381: OD 4810+k:14 DSCP_MAP. -/
def oDscpMap (n : Nat) : Nat := 0x481014 + 256 * n
/-- R381: OD 4A00+n:01 DLV_LOCAL_QPN. -/
def oDlvLocalQpn (n : Nat) : Nat := 0x4A0001 + 256 * n
/-- R381: OD 4A00+n:02 DLV_PD. -/
def oDlvPd (n : Nat) : Nat := 0x4A0002 + 256 * n
/-- R381: OD 4A00+n:03 DLV_REMOTE_QPN. -/
def oDlvRemoteQpn (n : Nat) : Nat := 0x4A0003 + 256 * n
/-- R381: OD 4A00+n:04 DLV_REMOTE_GID. -/
def oDlvRemoteGid (n : Nat) : Nat := 0x4A0004 + 256 * n
/-- R381: OD 4A00+n:05 DLV_REMOTE_MAC. -/
def oDlvRemoteMac (n : Nat) : Nat := 0x4A0005 + 256 * n
/-- R381: OD 4A00+n:06 DLV_REMOTE_COORD. -/
def oDlvRemoteCoord (n : Nat) : Nat := 0x4A0006 + 256 * n
/-- R381: OD 4A00+n:07 DLV_RADDR. -/
def oDlvRaddr (n : Nat) : Nat := 0x4A0007 + 256 * n
/-- R381: OD 4A00+n:08 DLV_RKEY. -/
def oDlvRkey (n : Nat) : Nat := 0x4A0008 + 256 * n
/-- R381: OD 4A00+n:09 DLV_RSLOT_BYTES. -/
def oDlvRslotBytes (n : Nat) : Nat := 0x4A0009 + 256 * n
/-- R381: OD 4A00+n:0A DLV_RSLOTS. -/
def oDlvRslots (n : Nat) : Nat := 0x4A000A + 256 * n
/-- R381: OD 4A00+n:0B DLV_START_PSN. -/
def oDlvStartPsn (n : Nat) : Nat := 0x4A000B + 256 * n
/-- R381: OD 4A00+n:0C DLV_CREDIT_KEY. -/
def oDlvCreditKey (n : Nat) : Nat := 0x4A000C + 256 * n
/-- R381: OD 4A00+n:0D DLV_GRANTED. -/
def oDlvGranted (n : Nat) : Nat := 0x4A000D + 256 * n
/-- R381: OD 4A00+n:0E DLV_READ_EXPOSE. -/
def oDlvReadExpose (n : Nat) : Nat := 0x4A000E + 256 * n
/-- R381: OD 4A00+n:0F DLV_READ_KEY. -/
def oDlvReadKey (n : Nat) : Nat := 0x4A000F + 256 * n
/-- R381: OD 4A00+n:10 DLV_SEQ. -/
def oDlvSeq (n : Nat) : Nat := 0x4A0010 + 256 * n
/-- R398: OD 5000:01 S0_BOUND_STATE. -/
def oS0BoundState : Nat := 0x500001
/-- R398: OD 5000:02 S0_RESERVE_EN. -/
def oS0ReserveEn : Nat := 0x500002
/-- R398: OD 5000:03 S0_CARAVANS. -/
def oS0Caravans : Nat := 0x500003
/-- R398: OD 5000:04 S0_GRAIN. -/
def oS0Grain : Nat := 0x500004
/-- R398: OD 5000:05 SAMPLE_K. -/
def oSampleK : Nat := 0x500005
/-- R398: OD 5000:06 S0_RESERVE_SHORT. -/
def oS0ReserveShort : Nat := 0x500006
/-- R398: OD 5000:07 YELLOW_DSCP. -/
def oYellowDscp : Nat := 0x500007
/-- R398: OD 5100+8r+c:01 CIR. -/
def oCir (n : Nat) : Nat := 0x510001 + 256 * n
/-- R398: OD 5100+8r+c:02 CBS. -/
def oCbs (n : Nat) : Nat := 0x510002 + 256 * n
/-- R398: OD 5100+8r+c:03 PIR. -/
def oPir (n : Nat) : Nat := 0x510003 + 256 * n
/-- R398: OD 5100+8r+c:04 PBS. -/
def oPbs (n : Nat) : Nat := 0x510004 + 256 * n
/-- R398: OD 5100+8r+c:05 POLICE. -/
def oPolice (n : Nat) : Nat := 0x510005 + 256 * n
/-- R398: OD 5100+8r+c:06 RED_ACTION. -/
def oRedAction (n : Nat) : Nat := 0x510006 + 256 * n
/-- R398: OD 5100+8r+c:07 GREEN_UNITS. -/
def oGreenUnits (n : Nat) : Nat := 0x510007 + 256 * n
/-- R398: OD 5100+8r+c:08 YELLOW_UNITS. -/
def oYellowUnits (n : Nat) : Nat := 0x510008 + 256 * n
/-- R398: OD 5100+8r+c:09 RED_UNITS. -/
def oRedUnits (n : Nat) : Nat := 0x510009 + 256 * n
/-- R398: OD 5100+8r+c:0A DEPTH. -/
def oDepth (n : Nat) : Nat := 0x51000A + 256 * n
/-- R398: OD 5100+8r+c:0B DELAY. -/
def oDelay (n : Nat) : Nat := 0x51000B + 256 * n
/-- R398: OD 5100+8r+c:0C DEPTH_PEAK. -/
def oDepthPeak (n : Nat) : Nat := 0x51000C + 256 * n
/-- R398: OD 5100+8r+c:0D DELAY_PEAK. -/
def oDelayPeak (n : Nat) : Nat := 0x51000D + 256 * n
/-- R398: OD 5200+g:01 OPER_LEN. -/
def oOperLen (n : Nat) : Nat := 0x520001 + 256 * n
/-- R398: OD 5200+g:02 ADMIN_LEN. -/
def oAdminLen (n : Nat) : Nat := 0x520002 + 256 * n
/-- R398: OD 5200+g:03 ADMIN_BASE. -/
def oAdminBase (n : Nat) : Nat := 0x520003 + 256 * n
/-- R398: OD 5200+g:04 CONFIG_CHANGE. -/
def oConfigChange (n : Nat) : Nat := 0x520004 + 256 * n
/-- R398: OD 5200+g:05 CHANGE_ARMED. -/
def oChangeArmed (n : Nat) : Nat := 0x520005 + 256 * n
/-- R398: OD 5200+g:06 OPER_BASE. -/
def oOperBase (n : Nat) : Nat := 0x520006 + 256 * n
/-- R398: OD 5200+g:07 G0_NOW. -/
def oG0Now (n : Nat) : Nat := 0x520007 + 256 * n
/-- R398: OD 5300+g:00–FF ADMIN_ENTRY0–255. -/
def oAdminEntry (n i : Nat) : Nat := 0x530000 + 256 * n + i
/-- R398: OD 5400+g:00–FF OPER_ENTRY0–255. -/
def oOperEntry (n i : Nat) : Nat := 0x540000 + 256 * n + i
/-- R417: OD 1400:01 DEV_MODE. -/
def oDevMode : Nat := 0x140001
/-- R417: OD 1400:02 MBX_DENIED. -/
def oMbxDenied : Nat := 0x140002
/-- R417: OD 1400:03 MBX_OVERRUNS. -/
def oMbxOverruns : Nat := 0x140003
/-- R417: OD 1400:04 MBX_FLUSHED. -/
def oMbxFlushed : Nat := 0x140004
/-- R417: OD 1400:05 NOTICES_LOST. -/
def oNoticesLost : Nat := 0x140005
/-- R417: OD 1410+c:01 CHAN_TENANT. -/
def oChanTenant (n : Nat) : Nat := 0x141001 + 256 * n
/-- R417: OD 1410+c:02 CHAN_POSTED. -/
def oChanPosted (n : Nat) : Nat := 0x141002 + 256 * n
/-- R417: OD 1410+c:03 CHAN_TAKEN. -/
def oChanTaken (n : Nat) : Nat := 0x141003 + 256 * n
/-- R417: OD 1480+p:01 RM_STATE. -/
def oRmState (n : Nat) : Nat := 0x148001 + 256 * n
/-- R417: OD 1480+p:02 WDT_TIMEOUT. -/
def oWdtTimeout (n : Nat) : Nat := 0x148002 + 256 * n
/-- R417: OD 1480+p:03 WDT_EXPIRIES. -/
def oWdtExpiries (n : Nat) : Nat := 0x148003 + 256 * n
/-- R417: OD 1480+p:04 RM_LAST_RESTART. -/
def oRmLastRestart (n : Nat) : Nat := 0x148004 + 256 * n
/-- R417: OD 6A00+d:01 DOMAIN_STATE. -/
def oDomainState (n : Nat) : Nat := 0x6A0001 + 256 * n
/-- R417: OD 6A00+d:02 DOMAIN_TARGET. -/
def oDomainTarget (n : Nat) : Nat := 0x6A0002 + 256 * n
/-- R417: OD 6A00+d:03 WAKES. -/
def oWakes (n : Nat) : Nat := 0x6A0003 + 256 * n
/-- R417: OD 6A00+d:04 OFF_ACCESSES. -/
def oOffAccesses (n : Nat) : Nat := 0x6A0004 + 256 * n
/-- R417: OD 6A80:01 LAST_OFF_STATUS. -/
def oLastOffStatus : Nat := 0x6A8001
/-- R417: OD 6A80:02 LAST_OFF_DOMAIN. -/
def oLastOffDomain : Nat := 0x6A8002
/-- R417: OD 6A80:03 LAST_OFF_ADDR. -/
def oLastOffAddr : Nat := 0x6A8003
/-- R417: OD 6A80:04 LAST_OFF_GTC. -/
def oLastOffGtc : Nat := 0x6A8004
/-- R443: OD 5800:01 HB_PERIOD. -/
def oHbPeriod : Nat := 0x580001
/-- R443: OD 5800:02 HB_MISS_LIMIT. -/
def oHbMissLimit : Nat := 0x580002
/-- R443: OD 5800:03 DEVICE_STATE. -/
def oDeviceState : Nat := 0x580003
/-- R443: OD 5800:04 FAILED_COUNT. -/
def oFailedCount : Nat := 0x580004
/-- R443: OD 5800:05 LAST_FAILED. -/
def oLastFailed : Nat := 0x580005
/-- R443: OD 5800:06 TAKEOVERS. -/
def oTakeovers : Nat := 0x580006
/-- R443: OD 5800:07 FENCE_REFUSED_OWN. -/
def oFenceRefusedOwn : Nat := 0x580007
/-- R443: OD 5800:08 REJOIN. -/
def oRejoin : Nat := 0x580008
/-- R443: OD 5800:09 MARK_PERIOD. -/
def oMarkPeriod : Nat := 0x580009
/-- R443: OD 5800:0A MIRRORS_FREE. -/
def oMirrorsFree : Nat := 0x58000A
/-- R443: OD 5800:10 DOMAIN_RESET. -/
def oDomainReset : Nat := 0x580010
/-- R443: OD 5810+n:01 PARTNER. -/
def oPartner (n : Nat) : Nat := 0x581001 + 256 * n
/-- R443: OD 5810+n:02 PROT_STATE. -/
def oProtState (n : Nat) : Nat := 0x581002 + 256 * n
/-- R443: OD 5810+n:03 PROT_CAUSE. -/
def oProtCause (n : Nat) : Nat := 0x581003 + 256 * n
/-- R443: OD 5810+n:04 FENCE_EPOCH. -/
def oFenceEpoch (n : Nat) : Nat := 0x581004 + 256 * n
/-- R443: OD 5810+n:05 FENCE_OWNER. -/
def oFenceOwner (n : Nat) : Nat := 0x581005 + 256 * n
/-- R443: OD 5810+n:06 MIRROR_NEXT_BATCH. -/
def oMirrorNextBatch (n : Nat) : Nat := 0x581006 + 256 * n
/-- R443: OD 5810+n:07 MARK_GTC. -/
def oMarkGtc (n : Nat) : Nat := 0x581007 + 256 * n
/-- R443: OD 5810+n:08 MARK_SEQ. -/
def oMarkSeq (n : Nat) : Nat := 0x581008 + 256 * n
/-- R443: OD 5810+n:09 MOVE_TO. -/
def oMoveTo (n : Nat) : Nat := 0x581009 + 256 * n
/-- R443: OD 5810+n:0A MOVED_TO. -/
def oMovedTo (n : Nat) : Nat := 0x58100A + 256 * n
/-- R443: OD 5900+m:01 MIR_STATE. -/
def oMirState (n : Nat) : Nat := 0x590001 + 256 * n
/-- R443: OD 5900+m:02 MIR_OWNER. -/
def oMirOwner (n : Nat) : Nat := 0x590002 + 256 * n
/-- R443: OD 5900+m:03 MIR_STREAM. -/
def oMirStream (n : Nat) : Nat := 0x590003 + 256 * n
/-- R443: OD 5900+m:04 MIR_NEXT_BATCH. -/
def oMirNextBatch (n : Nat) : Nat := 0x590004 + 256 * n
/-- R443: OD 5900+m:05 MIR_FENCE. -/
def oMirFence (n : Nat) : Nat := 0x590005 + 256 * n
/-- R443: OD 5A00:01 HOOK. -/
def oHook : Nat := 0x5A0001
/-- R443: OD 5A00:02 HOOK_ARG. -/
def oHookArg : Nat := 0x5A0002
/-- R443: OD 5A00:03 HOOK_SECONDS. -/
def oHookSeconds : Nat := 0x5A0003
/-- R443: OD 5A00:04 HOOK_STATE. -/
def oHookState : Nat := 0x5A0004
/-- R443: OD 5A00:05 HOOK_CAUSE. -/
def oHookCause : Nat := 0x5A0005
/-- R467: OD 6000:01 LC_STATE. -/
def oLcState : Nat := 0x600001
/-- R467: OD 6000:02 LC_PENDING. -/
def oLcPending : Nat := 0x600002
/-- R467: OD 6000:03 LC_NONCE. -/
def oLcNonce : Nat := 0x600003
/-- R467: OD 6000:04 LC_AUTH. -/
def oLcAuth : Nat := 0x600004
/-- R467: OD 6000:05 IDENTITY_CERT. -/
def oIdentityCert : Nat := 0x600005
/-- R467: OD 6000:06 FW_SVN. -/
def oFwSvn : Nat := 0x600006
/-- R467: OD 6000:07 IDENTITY_DIGEST. -/
def oIdentityDigest : Nat := 0x600007
/-- R467: OD 6000:08 UPDATE_PENDING. -/
def oUpdatePending : Nat := 0x600008
/-- R467: OD 6000:09 IDENTITY_PUBKEY. -/
def oIdentityPubkey : Nat := 0x600009
/-- R467: OD 6000:10 SCRUB_TENANT. -/
def oScrubTenant : Nat := 0x600010
/-- R467: OD 6000:11 SCRUB_OVERWRITE. -/
def oScrubOverwrite : Nat := 0x600011
/-- R467: OD 6000:12 SCRUB_STATE. -/
def oScrubState : Nat := 0x600012
/-- R467: OD 6000:13 SCRUB_STEP. -/
def oScrubStep : Nat := 0x600013
/-- R467: OD 6000:14 SCRUB_DONE_GTC. -/
def oScrubDoneGtc : Nat := 0x600014
/-- R467: OD 6000:20 EVIDENCE_REQ. -/
def oEvidenceReq : Nat := 0x600020
/-- R467: OD 6000:21 EVIDENCE. -/
def oEvidence : Nat := 0x600021
/-- R467: OD 6000:22 KEY_RELEASE. -/
def oKeyRelease : Nat := 0x600022
/-- R467: OD 6000:23 RELEASED_KEYS. -/
def oReleasedKeys : Nat := 0x600023
/-- R467: OD 6100+t:01 TENANT_ID. -/
def oTenantId (n : Nat) : Nat := 0x610001 + 256 * n
/-- R467: OD 6100+t:02 TEN_PUBKEY. -/
def oTenPubkey (n : Nat) : Nat := 0x610002 + 256 * n
/-- R467: OD 6100+t:03 TEN_POOLS. -/
def oTenPools (n : Nat) : Nat := 0x610003 + 256 * n
/-- R467: OD 6100+t:04 TEN_RELEASED. -/
def oTenReleased (n : Nat) : Nat := 0x610004 + 256 * n
/-- R467: OD 6100+t:05 TEN_KEY_ID. -/
def oTenKeyId (n : Nat) : Nat := 0x610005 + 256 * n
/-- R485: OD 6800:01 INPUT_VOLTAGE. -/
def oInputVoltage : Nat := 0x680001
/-- R485: OD 6800:02 INPUT_POWER. -/
def oInputPower : Nat := 0x680002
/-- R485: OD 6800:03 PKG_POWER_LIMIT. -/
def oPkgPowerLimit : Nat := 0x680003
/-- R485: OD 6800:04 THROTTLE_STEP. -/
def oThrottleStep : Nat := 0x680004
/-- R485: OD 6800:05 THROTTLE_EVENTS. -/
def oThrottleEvents : Nat := 0x680005
/-- R485: OD 6800:06 DROOP_EVENTS. -/
def oDroopEvents : Nat := 0x680006
/-- R485: OD 6800:07 TJ_NOW. -/
def oTjNow : Nat := 0x680007
/-- R485: OD 6800:08 TJ_PEAK. -/
def oTjPeak : Nat := 0x680008
/-- R485: OD 6800:09 THERMTRIPS. -/
def oThermtrips : Nat := 0x680009
/-- R485: OD 6800:0A RAIL_FAULTS. -/
def oRailFaults : Nat := 0x68000A
/-- R485: OD 6800:0B REFCLK_LOSSES. -/
def oRefclkLosses : Nat := 0x68000B
/-- R485: OD 6900:01 HU_STATE. -/
def oHuState : Nat := 0x690001
/-- R485: OD 6900:02 HU_VBANK. -/
def oHuVbank : Nat := 0x690002
/-- R485: OD 6900:03 HU_TEMP. -/
def oHuTemp : Nat := 0x690003
/-- R485: OD 6900:04 HU_C_EST. -/
def oHuCEst : Nat := 0x690004
/-- R485: OD 6900:05 HU_ESR_EST. -/
def oHuEsrEst : Nat := 0x690005
/-- R485: OD 6900:06 HU_E_USABLE. -/
def oHuEUsable : Nat := 0x690006
/-- R485: OD 6900:07 HU_D_ALLOW. -/
def oHuDAllow : Nat := 0x690007
/-- R485: OD 6900:08 HU_VTARGET. -/
def oHuVtarget : Nat := 0x690008
/-- R485: OD 6900:09 HU_VMIN. -/
def oHuVmin : Nat := 0x690009
/-- R485: OD 6900:0A HU_CHARGE_MA. -/
def oHuChargeMa : Nat := 0x69000A
/-- R485: OD 6900:0B HU_ISET_FS. -/
def oHuIsetFs : Nat := 0x69000B
/-- R485: OD 6900:0C HU_C_NOMINAL. -/
def oHuCNominal : Nat := 0x69000C
/-- R485: OD 6900:0D HU_ESR_LIMIT. -/
def oHuEsrLimit : Nat := 0x69000D
/-- R485: OD 6900:0E HU_TEST_PERIOD. -/
def oHuTestPeriod : Nat := 0x69000E
/-- R485: OD 6900:0F HU_TEST_NOW. -/
def oHuTestNow : Nat := 0x69000F
/-- R485: OD 6900:10 HU_LAST_TEST. -/
def oHuLastTest : Nat := 0x690010
/-- R485: OD 6900:11 PF_COUNT. -/
def oPfCount : Nat := 0x690011
/-- R485: OD 6900:12 PF_LAST_MS. -/
def oPfLastMs : Nat := 0x690012
/-- R485: OD 6900:13 PF_LAST_BYTES. -/
def oPfLastBytes : Nat := 0x690013
/-- R506: OD 1000:01 VENDOR. -/
def oVendor : Nat := 0x100001
/-- R506: OD 1000:02 PRODUCT. -/
def oProduct : Nat := 0x100002
/-- R506: OD 1000:03 STEPPING. -/
def oStepping : Nat := 0x100003
/-- R506: OD 1000:04 SERIAL. -/
def oSerial : Nat := 0x100004
/-- R506: OD 1000:05 FW_VERSION. -/
def oFwVersion : Nat := 0x100005
/-- R506: OD 1000:06 FW_STAGED. -/
def oFwStaged : Nat := 0x100006
/-- R506: OD 1000:07 BOOT_ROM_VERSION. -/
def oBootRomVersion : Nat := 0x100007
/-- R506: OD 1000:08 CORES. -/
def oCores : Nat := 0x100008
/-- R506: OD 1000:09 COORDINATES. -/
def oCoordinates : Nat := 0x100009
/-- R506: OD 1100:01 T1S_MAC. -/
def oT1sMac : Nat := 0x110001
/-- R506: OD 1100:02 PLCA_NODE_ID. -/
def oPlcaNodeId : Nat := 0x110002
/-- R506: OD 1100:03 PLCA_NODE_COUNT. -/
def oPlcaNodeCount : Nat := 0x110003
/-- R506: OD 1100:04 PLCA_TO_TIMER. -/
def oPlcaToTimer : Nat := 0x110004
/-- R506: OD 1100:05 IPV6_ADDR. -/
def oIpv6AddrMgmt : Nat := 0x110005
/-- R506: OD 1100:06 IPV6_PREFIX_LEN. -/
def oIpv6PrefixLen : Nat := 0x110006
/-- R506: OD 1100:07 OD_UDP_PORT. -/
def oOdUdpPort : Nat := 0x110007
/-- R506: OD 1100:08 T1S_SESSIONS. -/
def oT1sSessions : Nat := 0x110008
/-- R506: OD 1100:09 AUTH_FAILURES. -/
def oAuthFailures : Nat := 0x110009
/-- R506: OD 1100:0A REMOTE_OD_ACCEPT. -/
def oRemoteOdAccept : Nat := 0x11000A
/-- R506: OD 1100:0B T1S_LINK. -/
def oT1sLink : Nat := 0x11000B
/-- R506: OD 1100:10 FACTORY_CRED. -/
def oFactoryCred : Nat := 0x110010
/-- R506: OD 1100:11 FACTORY_CRED_SET. -/
def oFactoryCredSet : Nat := 0x110011
/-- R506: OD 1140+i:01 OPERATOR_CRED. -/
def oOperatorCred (n : Nat) : Nat := 0x114001 + 256 * n
/-- R506: OD 1140+i:02 OPERATOR_CRED_SET. -/
def oOperatorCredSet (n : Nat) : Nat := 0x114002 + 256 * n
/-- R510: OD 7000:01 TELEM_K. -/
def oTelemK : Nat := 0x700001
/-- R510: OD 7000:02 TELEM_SET. -/
def oTelemSet : Nat := 0x700002
/-- R510: OD 7000:03 TELEM_DEST. -/
def oTelemDest : Nat := 0x700003
/-- R510: OD 7000:04 TELEM_RING_BASE. -/
def oTelemRingBase : Nat := 0x700004
/-- R510: OD 7000:05 TELEM_RING_LEN. -/
def oTelemRingLen : Nat := 0x700005
/-- R510: OD 7000:06 TELEM_RING_HEAD. -/
def oTelemRingHead : Nat := 0x700006
/-- R510: OD 7000:07 TELEM_RING_TAIL. -/
def oTelemRingTail : Nat := 0x700007
/-- R510: OD 7000:08 TELEM_DROPPED. -/
def oTelemDropped : Nat := 0x700008
/-- R510: OD 7000:10 SAMPLES_PREPARED. -/
def oSamplesPrepared : Nat := 0x700010
/-- R510: OD 7000:11 BATCHES_DELIVERED. -/
def oBatchesDelivered : Nat := 0x700011
/-- R510: OD 7000:12 JOBS_EXCLUDED. -/
def oJobsExcluded : Nat := 0x700012
/-- R510: OD 7000:13 JOBS_RETRIED. -/
def oJobsRetried : Nat := 0x700013
/-- R510: OD 7000:14 POOL_STATE_EVENTS. -/
def oPoolStateEvents : Nat := 0x700014
/-- R510: OD 7000:15 FLASH_READ_BYTES. -/
def oFlashReadBytes : Nat := 0x700015
/-- R510: OD 7000:16 FABRIC_TX_BYTES. -/
def oFabricTxBytes : Nat := 0x700016
/-- R510: OD 7000:17 CXL_MEM_READ_BYTES. -/
def oCxlMemReadBytes : Nat := 0x700017
/-- R510: OD 7000:18 NVME_WRITE_BYTES. -/
def oNvmeWriteBytes : Nat := 0x700018
/-- R510: OD 7000:19 ENERGY. -/
def oEnergy : Nat := 0x700019
/-- R510: OD 7000:1A SECONDS_UP. -/
def oSecondsUp : Nat := 0x70001A
/-- R531: OD 7800:01 BIST_SUMMARY. -/
def oBistSummary : Nat := 0x780001
/-- R531: OD 7800:02 BIST_LAST_MODE. -/
def oBistLastMode : Nat := 0x780002
/-- R531: OD 7800:03 BIST_LAST_GTC. -/
def oBistLastGtc : Nat := 0x780003
/-- R531: OD 7800:04 BIST_RUN. -/
def oBistRun : Nat := 0x780004
/-- R531: OD 7800:05 BIST_STATE. -/
def oBistState : Nat := 0x780005
/-- R531: OD 7800:06 BIST_CAUSE. -/
def oBistCause : Nat := 0x780006
/-- R531: OD 7800:07 WARM_BIST. -/
def oWarmBist : Nat := 0x780007
/-- R531: OD 7800:08 SCAN_RUN. -/
def oScanRun : Nat := 0x780008
/-- R531: OD 7800:09 WARM_RESET. -/
def oWarmReset : Nat := 0x780009
/-- R531: OD 7800:0A RESET_CAUSE. -/
def oResetCause : Nat := 0x78000A
/-- R531: OD 7800:0B STARTUP_STEP. -/
def oStartupStep : Nat := 0x78000B
/-- R531: OD 7800:0C STARTUP_MS. -/
def oStartupMs : Nat := 0x78000C
/-- R531: OD 7800:0D FAULT_CODE. -/
def oFaultCode : Nat := 0x78000D
/-- R531: OD 7800:0E CLOCK_ALIGN_FAULTS. -/
def oClockAlignFaults : Nat := 0x78000E
/-- R531: OD 7810+g:01 GROUP_RESULT. -/
def oGroupResult (n : Nat) : Nat := 0x781001 + 256 * n
/-- R531: OD 7810+g:02 FAIL_UNIT. -/
def oFailUnit (n : Nat) : Nat := 0x781002 + 256 * n
/-- R531: OD 7810+g:03 FAIL_COUNT. -/
def oFailCount (n : Nat) : Nat := 0x781003 + 256 * n
/-- R531: OD 7810+g:04 REPAIRS. -/
def oRepairs (n : Nat) : Nat := 0x781004 + 256 * n

/-! ## The table -/

/-- R7: the access codes, coded 0 to 4 as in R505. -/
inductive Access
  | ro | rw | wo | rwl | rwf
  deriving DecidableEq, Repr

/-- R486, R487: a row of an OD table: the objects at `span` indices from `base` and `subs` subindices from `sub`. -/
structure OdRow where
  /-- First index. -/
  base : Nat
  /-- Number of indices. -/
  span : Nat
  /-- First subindex. -/
  sub : Nat
  /-- Number of subindices. -/
  subs : Nat
  /-- Type code of R487. -/
  type : Nat
  /-- SIZE of R487. -/
  size : Nat
  /-- Access code of R7. -/
  access : Access
  /-- Default, as a little-endian number. -/
  dflt : Nat
  /-- Least value of the Range/unit column. -/
  lo : Nat
  /-- Greatest value of the Range/unit column. -/
  hi : Nat
  /-- Changes that an RWL object may take (R8). -/
  limit : Nat := 0
  deriving DecidableEq, Repr

/-- Objects of the chapter 02 of spec/, part 1. -/
def odRows02a : List OdRow := [
  ⟨0x2000, 1, 0x01, 1, 3, 2, .ro, 1, 0, 65535, 0⟩,
  ⟨0x2000, 1, 0x02, 1, 5, 8, .ro, 2, 0, 18446744073709551615, 0⟩,
  ⟨0x2000, 1, 0x03, 1, 3, 2, .ro, 0, 0, 65535, 0⟩,
  ⟨0x2000, 1, 0x04, 1, 3, 2, .ro, 0, 0, 65535, 0⟩,
  ⟨0x2000, 1, 0x05, 1, 2, 1, .ro, 16, 0, 255, 0⟩,
  ⟨0x2010, 16, 0x01, 1, 2, 1, .ro, 0, 0, 255, 0⟩,
  ⟨0x2010, 16, 0x02, 1, 11, 64, .ro, 0, 0, 0, 0⟩,
  ⟨0x2010, 16, 0x03, 1, 3, 2, .ro, 0, 0, 65535, 0⟩,
  ⟨0x2010, 16, 0x04, 1, 4, 4, .ro, 0, 0, 4294967295, 0⟩,
  ⟨0x2010, 16, 0x05, 1, 3, 2, .ro, 0, 0, 65535, 0⟩,
  ⟨0x2010, 16, 0x06, 1, 2, 1, .wo, 0, 1, 1, 0⟩,
  ⟨0x2100, 64, 0x01, 1, 2, 1, .rw, 255, 0, 255, 0⟩,
  ⟨0x2100, 64, 0x02, 1, 2, 1, .rw, 4, 0, 7, 0⟩,
  ⟨0x2100, 64, 0x03, 1, 2, 1, .ro, 0, 0, 255, 0⟩,
  ⟨0x2100, 64, 0x04, 1, 5, 8, .rw, 0, 0, 18446744073709551615, 0⟩,
  ⟨0x2100, 64, 0x05, 1, 4, 4, .rw, 0, 0, 4294967295, 0⟩,
  ⟨0x2100, 64, 0x06, 1, 4, 4, .rw, 0, 0, 4294967295, 0⟩,
  ⟨0x2100, 64, 0x07, 1, 2, 1, .rw, 0, 0, 2, 0⟩,
  ⟨0x2100, 64, 0x08, 1, 2, 1, .rw, 64, 0, 64, 0⟩,
  ⟨0x2100, 64, 0x09, 1, 1, 1, .rw, 1, 0, 1, 0⟩,
  ⟨0x2100, 64, 0x0A, 1, 5, 8, .rw, 281474976710655, 1, 281474976710655, 0⟩,
  ⟨0x2100, 64, 0x0B, 1, 3, 2, .rw, 1024, 1, 8192, 0⟩,
  ⟨0x2100, 64, 0x0C, 1, 1, 1, .rw, 0, 0, 1, 0⟩,
  ⟨0x2100, 64, 0x0D, 1, 2, 1, .wo, 0, 1, 6, 0⟩]
/-- Objects of the chapter 02 of spec/, part 2. -/
def odRows02b : List OdRow := [
  ⟨0x2100, 64, 0x0E, 1, 3, 2, .ro, 0, 0, 65535, 0⟩]
/-- Objects of the chapter 07 of spec/, part 1. -/
def odRows07a : List OdRow := [
  ⟨0x2300, 1, 0x01, 1, 5, 8, .rwl, 0, 0, 18446744073709551615, 64⟩,
  ⟨0x2100, 64, 0x10, 1, 2, 1, .rw, 0, 0, 1, 0⟩,
  ⟨0x2100, 64, 0x11, 1, 3, 2, .rw, 0, 0, 65535, 0⟩,
  ⟨0x2100, 64, 0x12, 1, 2, 1, .rw, 3, 3, 5, 0⟩,
  ⟨0x2100, 64, 0x13, 1, 2, 1, .ro, 0, 0, 255, 0⟩,
  ⟨0x2100, 64, 0x14, 1, 2, 1, .rw, 0, 0, 2, 0⟩,
  ⟨0x2100, 64, 0x15, 1, 4, 4, .rw, 256, 1, 65536, 0⟩,
  ⟨0x2100, 64, 0x16, 1, 4, 4, .rw, 16777216, 1, 2147483648, 0⟩,
  ⟨0x2100, 64, 0x17, 1, 4, 4, .rw, 67108864, 4096, 1073741824, 0⟩,
  ⟨0x2100, 64, 0x18, 1, 2, 1, .rw, 0, 0, 2, 0⟩,
  ⟨0x2100, 64, 0x19, 1, 2, 1, .rw, 8, 1, 16, 0⟩,
  ⟨0x2100, 64, 0x1A, 1, 2, 1, .rw, 4, 1, 16, 0⟩,
  ⟨0x2100, 64, 0x1B, 1, 4, 4, .rw, 4294967295, 0, 4294967295, 0⟩,
  ⟨0x2100, 64, 0x1C, 1, 3, 2, .ro, 0, 0, 65535, 0⟩,
  ⟨0x2100, 64, 0x1D, 1, 5, 8, .ro, 0, 0, 18446744073709551615, 0⟩,
  ⟨0x2100, 64, 0x1E, 1, 4, 4, .ro, 0, 0, 4294967295, 0⟩,
  ⟨0x2100, 64, 0x20, 16, 10, 4, .rw, 2143289344, 0, 4294967295, 0⟩]
/-- Objects of the chapter 08 of spec/, part 1. -/
def odRows08a : List OdRow := [
  ⟨0x2000, 1, 0x06, 1, 3, 2, .ro, 1, 0, 65535, 0⟩,
  ⟨0x2200, 64, 0x01, 1, 5, 8, .rw, 0, 0, 18446744073709551615, 0⟩,
  ⟨0x2200, 64, 0x02, 1, 4, 4, .rw, 0, 0, 16777216, 0⟩,
  ⟨0x2200, 64, 0x03, 1, 2, 1, .ro, 0, 0, 255, 0⟩,
  ⟨0x2200, 64, 0x04, 1, 2, 1, .ro, 0, 0, 255, 0⟩,
  ⟨0x2200, 64, 0x05, 1, 5, 8, .ro, 0, 0, 18446744073709551615, 0⟩,
  ⟨0x2200, 64, 0x06, 1, 2, 1, .wo, 0, 1, 1, 0⟩,
  ⟨0x2200, 64, 0x07, 1, 5, 8, .ro, 0, 0, 18446744073709551615, 0⟩,
  ⟨0x2200, 64, 0x08, 1, 4, 4, .ro, 0, 0, 4294967295, 0⟩,
  ⟨0x2200, 64, 0x09, 1, 11, 64, .ro, 0, 0, 0, 0⟩,
  ⟨0x2200, 64, 0x0A, 1, 11, 64, .ro, 0, 0, 0, 0⟩,
  ⟨0x2200, 64, 0x0B, 1, 2, 1, .ro, 0, 0, 255, 0⟩,
  ⟨0x2400, 1, 0x01, 1, 5, 8, .ro, 0, 0, 18446744073709551615, 0⟩,
  ⟨0x2400, 1, 0x02, 1, 2, 1, .ro, 0, 0, 255, 0⟩,
  ⟨0x2400, 1, 0x03, 1, 1, 1, .rw, 0, 0, 1, 0⟩,
  ⟨0x2400, 1, 0x04, 1, 2, 1, .ro, 255, 0, 255, 0⟩,
  ⟨0x2400, 1, 0x05, 1, 8, 4, .ro, 0, 0, 4294967295, 0⟩,
  ⟨0x2400, 1, 0x06, 1, 5, 8, .ro, 0, 0, 18446744073709551615, 0⟩,
  ⟨0x2400, 1, 0x10, 8, 4, 4, .ro, 0, 0, 4294967295, 0⟩]
/-- Objects of the chapter 09 of spec/, part 1. -/
def odRows09a : List OdRow := [
  ⟨0x3100, 64, 0x01, 1, 2, 1, .rw, 0, 0, 3, 0⟩,
  ⟨0x3100, 64, 0x02, 1, 4, 4, .rw, 4096, 256, 2097152, 0⟩,
  ⟨0x3100, 64, 0x03, 1, 4, 4, .rw, 0, 1, 67108864, 0⟩,
  ⟨0x3100, 64, 0x04, 1, 5, 8, .rw, 0, 0, 281474976710655, 0⟩,
  ⟨0x3100, 64, 0x05, 1, 2, 1, .rw, 255, 0, 255, 0⟩,
  ⟨0x3100, 64, 0x06, 1, 4, 4, .rw, 0, 0, 4294967295, 0⟩,
  ⟨0x3100, 64, 0x07, 1, 4, 4, .rw, 0, 0, 4294967295, 0⟩,
  ⟨0x3100, 64, 0x08, 1, 4, 4, .rw, 0, 0, 4294967295, 0⟩,
  ⟨0x3100, 64, 0x09, 1, 4, 4, .rw, 0, 0, 4294967295, 0⟩,
  ⟨0x3100, 64, 0x0A, 1, 2, 1, .ro, 0, 0, 255, 0⟩,
  ⟨0x3100, 64, 0x0B, 1, 4, 4, .ro, 0, 0, 4294967295, 0⟩,
  ⟨0x3100, 64, 0x0C, 1, 4, 4, .ro, 0, 0, 4294967295, 0⟩,
  ⟨0x3100, 64, 0x0D, 1, 5, 8, .ro, 0, 0, 18446744073709551615, 0⟩,
  ⟨0x3100, 64, 0x0E, 1, 4, 4, .ro, 0, 0, 4294967295, 0⟩,
  ⟨0x3100, 64, 0x0F, 1, 2, 1, .wo, 0, 1, 1, 0⟩,
  ⟨0x3040, 1, 0x01, 64, 13, 20, .ro, 0, 0, 0, 0⟩,
  ⟨0x3040, 1, 0x41, 1, 5, 8, .ro, 0, 0, 18446744073709551615, 0⟩,
  ⟨0x3400, 1024, 0x01, 64, 4, 4, .rw, 4294967295, 0, 4294967295, 0⟩,
  ⟨0x3400, 1024, 0x41, 64, 4, 4, .ro, 0, 0, 4294967295, 0⟩,
  ⟨0x3000, 1, 0x01, 1, 3, 2, .ro, 0, 0, 65535, 0⟩,
  ⟨0x3000, 1, 0x02, 1, 3, 2, .ro, 0, 0, 65535, 0⟩,
  ⟨0x3000, 1, 0x03, 1, 5, 8, .ro, 0, 0, 18446744073709551615, 0⟩,
  ⟨0x3000, 1, 0x04, 1, 5, 8, .ro, 0, 0, 18446744073709551615, 0⟩,
  ⟨0x3000, 1, 0x05, 1, 5, 8, .ro, 137438953472, 0, 18446744073709551615, 0⟩,
  ⟨0x3000, 1, 0x06, 1, 3, 2, .rw, 256, 0, 1024, 0⟩,
  ⟨0x3000, 1, 0x07, 1, 5, 8, .ro, 0, 0, 18446744073709551615, 0⟩]
/-- Objects of the chapter 09 of spec/, part 2. -/
def odRows09b : List OdRow := [
  ⟨0x3000, 1, 0x10, 1, 5, 8, .ro, 0, 0, 18446744073709551615, 0⟩,
  ⟨0x3000, 1, 0x11, 1, 5, 8, .ro, 0, 0, 18446744073709551615, 0⟩,
  ⟨0x3000, 1, 0x12, 1, 5, 8, .ro, 0, 0, 18446744073709551615, 0⟩,
  ⟨0x3000, 1, 0x13, 1, 5, 8, .ro, 0, 0, 18446744073709551615, 0⟩,
  ⟨0x3000, 1, 0x14, 1, 5, 8, .ro, 0, 0, 18446744073709551615, 0⟩,
  ⟨0x3000, 1, 0x15, 1, 5, 8, .ro, 0, 0, 18446744073709551615, 0⟩,
  ⟨0x3000, 1, 0x16, 1, 4, 4, .ro, 0, 0, 4294967295, 0⟩,
  ⟨0x3000, 1, 0x17, 1, 5, 8, .ro, 0, 0, 18446744073709551615, 0⟩,
  ⟨0x3000, 1, 0x18, 1, 5, 8, .ro, 0, 0, 18446744073709551615, 0⟩]
/-- Objects of the chapter 10 of spec/, part 1. -/
def odRows10a : List OdRow := [
  ⟨0x3800, 1, 0x01, 1, 5, 8, .ro, 0, 0, 18446744073709551615, 0⟩,
  ⟨0x3800, 1, 0x02, 1, 3, 2, .rwl, 125, 70, 500, 8⟩,
  ⟨0x3800, 1, 0x03, 1, 5, 8, .ro, 0, 0, 18446744073709551615, 0⟩,
  ⟨0x3800, 1, 0x04, 1, 5, 8, .ro, 0, 0, 18446744073709551615, 0⟩,
  ⟨0x3800, 1, 0x05, 1, 2, 1, .rw, 6, 2, 14, 0⟩,
  ⟨0x3800, 1, 0x06, 1, 5, 8, .ro, 0, 0, 18446744073709551615, 0⟩,
  ⟨0x3800, 1, 0x07, 1, 3, 2, .ro, 1000, 0, 65535, 0⟩,
  ⟨0x3800, 1, 0x08, 1, 3, 2, .rw, 100, 0, 1000, 0⟩,
  ⟨0x3800, 1, 0x09, 1, 2, 1, .ro, 0, 0, 255, 0⟩,
  ⟨0x3800, 1, 0x0A, 1, 4, 4, .rw, 100000, 10000, 1000000, 0⟩,
  ⟨0x3800, 1, 0x0B, 1, 2, 1, .rw, 8, 1, 17, 0⟩,
  ⟨0x3800, 1, 0x0C, 1, 3, 2, .rw, 200, 20, 2000, 0⟩,
  ⟨0x3800, 1, 0x10, 1, 5, 8, .ro, 0, 0, 18446744073709551615, 0⟩,
  ⟨0x3800, 1, 0x11, 1, 5, 8, .ro, 0, 0, 18446744073709551615, 0⟩,
  ⟨0x3800, 1, 0x12, 1, 5, 8, .ro, 0, 0, 18446744073709551615, 0⟩,
  ⟨0x3800, 1, 0x13, 1, 5, 8, .ro, 0, 0, 18446744073709551615, 0⟩,
  ⟨0x3800, 1, 0x14, 1, 5, 8, .ro, 0, 0, 18446744073709551615, 0⟩,
  ⟨0x3800, 1, 0x15, 1, 5, 8, .ro, 0, 0, 18446744073709551615, 0⟩,
  ⟨0x3800, 1, 0x16, 1, 5, 8, .ro, 0, 0, 18446744073709551615, 0⟩,
  ⟨0x3800, 1, 0x17, 1, 5, 8, .ro, 0, 0, 18446744073709551615, 0⟩,
  ⟨0x3800, 1, 0x18, 1, 5, 8, .ro, 0, 0, 18446744073709551615, 0⟩,
  ⟨0x3800, 1, 0x19, 1, 5, 8, .ro, 0, 0, 18446744073709551615, 0⟩,
  ⟨0x3800, 1, 0x1A, 1, 3, 2, .ro, 0, 0, 65535, 0⟩,
  ⟨0x3800, 1, 0x20, 1, 6, 1, .ro, 128, 0, 255, 0⟩]
/-- Objects of the chapter 10 of spec/, part 2. -/
def odRows10b : List OdRow := [
  ⟨0x3800, 1, 0x21, 21, 4, 4, .ro, 0, 0, 4294967295, 0⟩,
  ⟨0x3810, 16, 0x01, 1, 2, 1, .ro, 0, 0, 255, 0⟩,
  ⟨0x3810, 16, 0x02, 1, 4, 4, .ro, 0, 0, 4294967295, 0⟩,
  ⟨0x3810, 16, 0x03, 1, 4, 4, .ro, 0, 0, 4294967295, 0⟩,
  ⟨0x3810, 16, 0x04, 1, 4, 4, .rw, 0, 0, 4294967295, 0⟩,
  ⟨0x3810, 16, 0x05, 1, 4, 4, .ro, 0, 0, 4294967295, 0⟩,
  ⟨0x3810, 16, 0x06, 1, 4, 4, .ro, 0, 0, 4294967295, 0⟩,
  ⟨0x3900, 256, 0x01, 1, 2, 1, .ro, 0, 0, 255, 0⟩]
/-- Objects of the chapter 11 of spec/, part 1. -/
def odRows11a : List OdRow := [
  ⟨0x4000, 1, 0x01, 1, 2, 1, .ro, 0, 0, 255, 0⟩,
  ⟨0x4000, 1, 0x02, 1, 2, 1, .ro, 0, 0, 255, 0⟩,
  ⟨0x4000, 1, 0x03, 1, 2, 1, .ro, 0, 0, 255, 0⟩,
  ⟨0x4000, 1, 0x04, 1, 3, 2, .rw, 256, 1, 256, 0⟩,
  ⟨0x4000, 1, 0x05, 1, 5, 8, .ro, 0, 0, 18446744073709551615, 0⟩,
  ⟨0x4000, 1, 0x06, 1, 5, 8, .ro, 0, 0, 18446744073709551615, 0⟩,
  ⟨0x4000, 1, 0x07, 1, 5, 8, .ro, 0, 0, 18446744073709551615, 0⟩,
  ⟨0x4000, 1, 0x08, 1, 5, 8, .ro, 0, 0, 18446744073709551615, 0⟩,
  ⟨0x4000, 1, 0x09, 1, 2, 1, .rw, 0, 0, 8, 0⟩,
  ⟨0x4000, 1, 0x0A, 1, 5, 8, .ro, 0, 0, 18446744073709551615, 0⟩,
  ⟨0x4100, 64, 0x01, 1, 5, 8, .rw, 0, 0, 18446744073709551615, 0⟩,
  ⟨0x4100, 64, 0x02, 1, 4, 4, .rw, 16777216, 65536, 2147483648, 0⟩,
  ⟨0x4100, 64, 0x03, 1, 3, 2, .rw, 0, 0, 4096, 0⟩,
  ⟨0x4100, 64, 0x04, 1, 4, 4, .rw, 10000, 0, 4294967295, 0⟩,
  ⟨0x4100, 64, 0x05, 1, 5, 8, .ro, 0, 0, 18446744073709551615, 0⟩,
  ⟨0x4100, 64, 0x06, 1, 5, 8, .ro, 0, 0, 18446744073709551615, 0⟩,
  ⟨0x4100, 64, 0x07, 1, 5, 8, .ro, 0, 0, 18446744073709551615, 0⟩,
  ⟨0x4200, 256, 0x01, 1, 2, 1, .ro, 0, 0, 255, 0⟩,
  ⟨0x4200, 256, 0x02, 1, 4, 4, .ro, 0, 0, 4294967295, 0⟩,
  ⟨0x4200, 256, 0x03, 1, 4, 4, .ro, 0, 0, 4294967295, 0⟩,
  ⟨0x4200, 256, 0x04, 1, 1, 1, .ro, 0, 0, 1, 0⟩]
/-- Objects of the chapter 12 of spec/, part 1. -/
def odRows12a : List OdRow := [
  ⟨0x4800, 1, 0x01, 1, 2, 1, .ro, 1, 0, 255, 0⟩,
  ⟨0x4800, 1, 0x02, 1, 4, 4, .rw, 0, 0, 4294967295, 0⟩,
  ⟨0x4800, 1, 0x03, 1, 3, 2, .ro, 0, 0, 65535, 0⟩,
  ⟨0x4800, 1, 0x04, 1, 4, 4, .rw, 1000, 10, 100000, 0⟩,
  ⟨0x4800, 1, 0x05, 1, 5, 8, .ro, 0, 0, 18446744073709551615, 0⟩,
  ⟨0x4800, 1, 0x06, 1, 5, 8, .ro, 0, 0, 18446744073709551615, 0⟩,
  ⟨0x4800, 1, 0x07, 1, 5, 8, .ro, 0, 0, 18446744073709551615, 0⟩,
  ⟨0x4800, 1, 0x08, 1, 5, 8, .ro, 0, 0, 18446744073709551615, 0⟩,
  ⟨0x4800, 1, 0x09, 1, 5, 8, .ro, 0, 0, 18446744073709551615, 0⟩,
  ⟨0x4800, 1, 0x0A, 1, 5, 8, .ro, 0, 0, 18446744073709551615, 0⟩,
  ⟨0x4800, 1, 0x0B, 1, 5, 8, .rw, 0, 0, 18446744073709551615, 0⟩,
  ⟨0x4800, 1, 0x0C, 1, 2, 1, .rw, 1, 1, 31, 0⟩,
  ⟨0x4810, 8, 0x01, 1, 2, 1, .rw, 0, 0, 2, 0⟩,
  ⟨0x4810, 8, 0x02, 1, 2, 1, .rw, 0, 0, 5, 0⟩,
  ⟨0x4810, 8, 0x03, 1, 2, 1, .ro, 0, 0, 255, 0⟩,
  ⟨0x4810, 8, 0x04, 1, 2, 1, .ro, 0, 0, 255, 0⟩,
  ⟨0x4810, 8, 0x05, 1, 2, 1, .ro, 0, 0, 255, 0⟩,
  ⟨0x4810, 8, 0x06, 1, 4, 4, .ro, 0, 0, 4294967295, 0⟩,
  ⟨0x4810, 8, 0x07, 1, 5, 8, .ro, 0, 0, 18446744073709551615, 0⟩,
  ⟨0x4810, 8, 0x08, 1, 5, 8, .ro, 0, 0, 18446744073709551615, 0⟩,
  ⟨0x4810, 8, 0x09, 1, 5, 8, .ro, 0, 0, 18446744073709551615, 0⟩,
  ⟨0x4810, 8, 0x0A, 1, 5, 8, .ro, 0, 0, 18446744073709551615, 0⟩,
  ⟨0x4810, 8, 0x0B, 1, 4, 4, .ro, 0, 0, 4294967295, 0⟩,
  ⟨0x4810, 8, 0x10, 1, 11, 6, .rw, 0, 0, 0, 0⟩]
/-- Objects of the chapter 12 of spec/, part 2. -/
def odRows12b : List OdRow := [
  ⟨0x4810, 8, 0x11, 1, 11, 16, .rw, 0, 0, 0, 0⟩,
  ⟨0x4810, 8, 0x12, 1, 4, 4, .rw, 0, 0, 4294967295, 0⟩,
  ⟨0x4810, 8, 0x13, 1, 3, 2, .rw, 65535, 0, 65535, 0⟩,
  ⟨0x4810, 8, 0x14, 1, 5, 8, .rw, 0, 0, 18446744073709551615, 0⟩,
  ⟨0x4A00, 64, 0x01, 1, 4, 4, .ro, 0, 0, 4294967295, 0⟩,
  ⟨0x4A00, 64, 0x02, 1, 3, 2, .ro, 0, 0, 65535, 0⟩,
  ⟨0x4A00, 64, 0x03, 1, 4, 4, .rw, 0, 0, 16777215, 0⟩,
  ⟨0x4A00, 64, 0x04, 1, 11, 16, .rw, 0, 0, 0, 0⟩,
  ⟨0x4A00, 64, 0x05, 1, 11, 6, .rw, 0, 0, 0, 0⟩,
  ⟨0x4A00, 64, 0x06, 1, 3, 2, .rw, 0, 0, 65535, 0⟩,
  ⟨0x4A00, 64, 0x07, 1, 5, 8, .rw, 0, 0, 18446744073709551615, 0⟩,
  ⟨0x4A00, 64, 0x08, 1, 4, 4, .rw, 0, 0, 4294967295, 0⟩,
  ⟨0x4A00, 64, 0x09, 1, 4, 4, .rw, 16777216, 0, 4294967295, 0⟩,
  ⟨0x4A00, 64, 0x0A, 1, 3, 2, .rw, 4, 1, 4096, 0⟩,
  ⟨0x4A00, 64, 0x0B, 1, 4, 4, .rw, 0, 0, 16777215, 0⟩,
  ⟨0x4A00, 64, 0x0C, 1, 4, 4, .ro, 0, 0, 4294967295, 0⟩,
  ⟨0x4A00, 64, 0x0D, 1, 5, 8, .ro, 0, 0, 18446744073709551615, 0⟩,
  ⟨0x4A00, 64, 0x0E, 1, 1, 1, .rw, 0, 0, 1, 0⟩,
  ⟨0x4A00, 64, 0x0F, 1, 4, 4, .ro, 0, 0, 4294967295, 0⟩,
  ⟨0x4A00, 64, 0x10, 1, 5, 8, .ro, 0, 0, 18446744073709551615, 0⟩]
/-- Objects of the chapter 13 of spec/, part 1. -/
def odRows13a : List OdRow := [
  ⟨0x5000, 1, 0x01, 1, 2, 1, .ro, 0, 0, 255, 0⟩,
  ⟨0x5000, 1, 0x02, 1, 1, 1, .rw, 1, 0, 1, 0⟩,
  ⟨0x5000, 1, 0x03, 1, 5, 8, .rw, 65535, 0, 281474976710655, 0⟩,
  ⟨0x5000, 1, 0x04, 1, 1, 1, .rw, 1, 0, 1, 0⟩,
  ⟨0x5000, 1, 0x05, 1, 2, 1, .rw, 16, 10, 24, 0⟩,
  ⟨0x5000, 1, 0x06, 1, 5, 8, .ro, 0, 0, 18446744073709551615, 0⟩,
  ⟨0x5000, 1, 0x07, 1, 5, 8, .rw, 0, 0, 18446744073709551615, 0⟩,
  ⟨0x5100, 176, 0x01, 1, 5, 8, .rw, 0, 0, 18446744073709551615, 0⟩,
  ⟨0x5100, 176, 0x02, 1, 4, 4, .rw, 0, 0, 4294967295, 0⟩,
  ⟨0x5100, 176, 0x03, 1, 5, 8, .rw, 0, 0, 18446744073709551615, 0⟩,
  ⟨0x5100, 176, 0x04, 1, 4, 4, .rw, 0, 0, 4294967295, 0⟩,
  ⟨0x5100, 176, 0x05, 1, 2, 1, .rw, 0, 0, 2, 0⟩,
  ⟨0x5100, 176, 0x06, 1, 2, 1, .rw, 0, 0, 1, 0⟩,
  ⟨0x5100, 176, 0x07, 1, 5, 8, .ro, 0, 0, 18446744073709551615, 0⟩,
  ⟨0x5100, 176, 0x08, 1, 5, 8, .ro, 0, 0, 18446744073709551615, 0⟩,
  ⟨0x5100, 176, 0x09, 1, 5, 8, .ro, 0, 0, 18446744073709551615, 0⟩,
  ⟨0x5100, 176, 0x0A, 1, 4, 4, .ro, 0, 0, 4294967295, 0⟩,
  ⟨0x5100, 176, 0x0B, 1, 4, 4, .ro, 0, 0, 4294967295, 0⟩,
  ⟨0x5100, 176, 0x0C, 1, 4, 4, .ro, 0, 0, 4294967295, 0⟩,
  ⟨0x5100, 176, 0x0D, 1, 4, 4, .ro, 0, 0, 4294967295, 0⟩,
  ⟨0x5200, 9, 0x01, 1, 3, 2, .ro, 1, 0, 65535, 0⟩,
  ⟨0x5200, 9, 0x02, 1, 3, 2, .rw, 1, 1, 256, 0⟩,
  ⟨0x5200, 9, 0x03, 1, 5, 8, .rw, 0, 0, 18446744073709551615, 0⟩,
  ⟨0x5200, 9, 0x04, 1, 2, 1, .wo, 0, 1, 1, 0⟩]
/-- Objects of the chapter 13 of spec/, part 2. -/
def odRows13b : List OdRow := [
  ⟨0x5200, 9, 0x05, 1, 1, 1, .ro, 0, 0, 1, 0⟩,
  ⟨0x5200, 9, 0x06, 1, 5, 8, .ro, 0, 0, 18446744073709551615, 0⟩,
  ⟨0x5200, 9, 0x07, 1, 4, 4, .ro, 0, 0, 4294967295, 0⟩,
  ⟨0x5300, 9, 0x00, 256, 4, 4, .rw, 256000255, 0, 4294967295, 0⟩,
  ⟨0x5400, 9, 0x00, 256, 4, 4, .ro, 256000255, 0, 4294967295, 0⟩]
/-- Objects of the chapter 14 of spec/, part 1. -/
def odRows14a : List OdRow := [
  ⟨0x1400, 1, 0x01, 1, 2, 1, .ro, 0, 0, 255, 0⟩,
  ⟨0x1400, 1, 0x02, 1, 5, 8, .ro, 0, 0, 18446744073709551615, 0⟩,
  ⟨0x1400, 1, 0x03, 1, 5, 8, .ro, 0, 0, 18446744073709551615, 0⟩,
  ⟨0x1400, 1, 0x04, 1, 5, 8, .ro, 0, 0, 18446744073709551615, 0⟩,
  ⟨0x1400, 1, 0x05, 1, 5, 8, .ro, 0, 0, 18446744073709551615, 0⟩,
  ⟨0x1410, 64, 0x01, 1, 4, 4, .rw, 0, 0, 4294967295, 0⟩,
  ⟨0x1410, 64, 0x02, 1, 5, 8, .ro, 0, 0, 18446744073709551615, 0⟩,
  ⟨0x1410, 64, 0x03, 1, 5, 8, .ro, 0, 0, 18446744073709551615, 0⟩,
  ⟨0x1480, 4, 0x01, 1, 2, 1, .ro, 0, 0, 255, 0⟩,
  ⟨0x1480, 4, 0x02, 1, 3, 2, .rw, 100, 10, 1000, 0⟩,
  ⟨0x1480, 4, 0x03, 1, 4, 4, .ro, 0, 0, 4294967295, 0⟩,
  ⟨0x1480, 4, 0x04, 1, 5, 8, .ro, 0, 0, 18446744073709551615, 0⟩,
  ⟨0x6A00, 72, 0x01, 1, 2, 1, .ro, 0, 0, 255, 0⟩,
  ⟨0x6A00, 72, 0x02, 1, 2, 1, .rw, 0, 0, 2, 0⟩,
  ⟨0x6A00, 72, 0x03, 1, 5, 8, .ro, 0, 0, 18446744073709551615, 0⟩,
  ⟨0x6A00, 72, 0x04, 1, 5, 8, .ro, 0, 0, 18446744073709551615, 0⟩,
  ⟨0x6A80, 1, 0x01, 1, 3, 2, .ro, 0, 0, 65535, 0⟩,
  ⟨0x6A80, 1, 0x02, 1, 2, 1, .ro, 255, 0, 255, 0⟩,
  ⟨0x6A80, 1, 0x03, 1, 5, 8, .ro, 0, 0, 18446744073709551615, 0⟩,
  ⟨0x6A80, 1, 0x04, 1, 5, 8, .ro, 0, 0, 18446744073709551615, 0⟩]
/-- Objects of the chapter 15 of spec/, part 1. -/
def odRows15a : List OdRow := [
  ⟨0x5800, 1, 0x01, 1, 3, 2, .ro, 50, 0, 65535, 0⟩,
  ⟨0x5800, 1, 0x02, 1, 2, 1, .ro, 6, 0, 255, 0⟩,
  ⟨0x5800, 1, 0x03, 1, 2, 1, .ro, 0, 0, 255, 0⟩,
  ⟨0x5800, 1, 0x04, 1, 3, 2, .ro, 0, 0, 65535, 0⟩,
  ⟨0x5800, 1, 0x05, 1, 3, 2, .ro, 65535, 0, 65535, 0⟩,
  ⟨0x5800, 1, 0x06, 1, 5, 8, .ro, 0, 0, 18446744073709551615, 0⟩,
  ⟨0x5800, 1, 0x07, 1, 5, 8, .ro, 0, 0, 18446744073709551615, 0⟩,
  ⟨0x5800, 1, 0x08, 1, 2, 1, .wo, 0, 1, 1, 0⟩,
  ⟨0x5800, 1, 0x09, 1, 3, 2, .ro, 10000, 0, 65535, 0⟩,
  ⟨0x5800, 1, 0x0A, 1, 2, 1, .ro, 128, 0, 255, 0⟩,
  ⟨0x5800, 1, 0x10, 1, 2, 1, .wo, 0, 0, 255, 0⟩,
  ⟨0x5810, 64, 0x01, 1, 3, 2, .rw, 0, 0, 65535, 0⟩,
  ⟨0x5810, 64, 0x02, 1, 2, 1, .ro, 0, 0, 255, 0⟩,
  ⟨0x5810, 64, 0x03, 1, 2, 1, .ro, 0, 0, 255, 0⟩,
  ⟨0x5810, 64, 0x04, 1, 4, 4, .ro, 0, 0, 4294967295, 0⟩,
  ⟨0x5810, 64, 0x05, 1, 3, 2, .ro, 0, 0, 65535, 0⟩,
  ⟨0x5810, 64, 0x06, 1, 5, 8, .ro, 0, 0, 18446744073709551615, 0⟩,
  ⟨0x5810, 64, 0x07, 1, 5, 8, .ro, 0, 0, 18446744073709551615, 0⟩,
  ⟨0x5810, 64, 0x08, 1, 5, 8, .ro, 0, 0, 18446744073709551615, 0⟩,
  ⟨0x5810, 64, 0x09, 1, 3, 2, .wo, 0, 0, 65535, 0⟩,
  ⟨0x5810, 64, 0x0A, 1, 3, 2, .ro, 65535, 0, 65535, 0⟩,
  ⟨0x5900, 128, 0x01, 1, 2, 1, .ro, 0, 0, 255, 0⟩,
  ⟨0x5900, 128, 0x02, 1, 3, 2, .ro, 65535, 0, 65535, 0⟩,
  ⟨0x5900, 128, 0x03, 1, 2, 1, .ro, 255, 0, 255, 0⟩]
/-- Objects of the chapter 15 of spec/, part 2. -/
def odRows15b : List OdRow := [
  ⟨0x5900, 128, 0x04, 1, 5, 8, .ro, 0, 0, 18446744073709551615, 0⟩,
  ⟨0x5900, 128, 0x05, 1, 4, 4, .ro, 0, 0, 4294967295, 0⟩,
  ⟨0x5A00, 1, 0x01, 1, 2, 1, .wo, 0, 0, 4, 0⟩,
  ⟨0x5A00, 1, 0x02, 1, 2, 1, .rw, 0, 0, 255, 0⟩,
  ⟨0x5A00, 1, 0x03, 1, 3, 2, .rw, 30, 1, 600, 0⟩,
  ⟨0x5A00, 1, 0x04, 1, 2, 1, .ro, 0, 0, 255, 0⟩,
  ⟨0x5A00, 1, 0x05, 1, 2, 1, .ro, 0, 0, 255, 0⟩]
/-- Objects of the chapter 16 of spec/, part 1. -/
def odRows16a : List OdRow := [
  ⟨0x6000, 1, 0x01, 1, 2, 1, .rwl, 0, 0, 5, 5⟩,
  ⟨0x6000, 1, 0x02, 1, 2, 1, .ro, 0, 0, 255, 0⟩,
  ⟨0x6000, 1, 0x03, 1, 11, 32, .ro, 0, 0, 0, 0⟩,
  ⟨0x6000, 1, 0x04, 1, 11, 4627, .wo, 0, 0, 0, 0⟩,
  ⟨0x6000, 1, 0x05, 1, 11, 8192, .rwf, 0, 0, 0, 0⟩,
  ⟨0x6000, 1, 0x06, 1, 3, 2, .ro, 0, 0, 65535, 0⟩,
  ⟨0x6000, 1, 0x07, 1, 11, 64, .ro, 0, 0, 0, 0⟩,
  ⟨0x6000, 1, 0x08, 1, 1, 1, .ro, 0, 0, 1, 0⟩,
  ⟨0x6000, 1, 0x09, 1, 11, 2592, .ro, 0, 0, 0, 0⟩,
  ⟨0x6000, 1, 0x10, 1, 4, 4, .wo, 0, 0, 4294967295, 0⟩,
  ⟨0x6000, 1, 0x11, 1, 1, 1, .rw, 0, 0, 1, 0⟩,
  ⟨0x6000, 1, 0x12, 1, 2, 1, .ro, 0, 0, 255, 0⟩,
  ⟨0x6000, 1, 0x13, 1, 2, 1, .ro, 0, 0, 255, 0⟩,
  ⟨0x6000, 1, 0x14, 1, 5, 8, .ro, 0, 0, 18446744073709551615, 0⟩,
  ⟨0x6000, 1, 0x20, 1, 11, 44, .wo, 0, 0, 0, 0⟩,
  ⟨0x6000, 1, 0x21, 1, 11, 54512, .ro, 0, 0, 0, 0⟩,
  ⟨0x6000, 1, 0x22, 1, 11, 6360, .wo, 0, 0, 0, 0⟩,
  ⟨0x6000, 1, 0x23, 1, 3, 2, .ro, 0, 0, 65535, 0⟩,
  ⟨0x6100, 32, 0x01, 1, 4, 4, .rw, 0, 0, 4294967295, 0⟩,
  ⟨0x6100, 32, 0x02, 1, 11, 2592, .rwl, 0, 0, 0, 16⟩,
  ⟨0x6100, 32, 0x03, 1, 5, 8, .rw, 0, 0, 18446744073709551615, 0⟩,
  ⟨0x6100, 32, 0x04, 1, 3, 2, .ro, 0, 0, 65535, 0⟩,
  ⟨0x6100, 32, 0x05, 1, 2, 1, .ro, 0, 0, 255, 0⟩]
/-- Objects of the chapter 17 of spec/, part 1. -/
def odRows17a : List OdRow := [
  ⟨0x6800, 1, 0x01, 1, 3, 2, .ro, 0, 0, 65535, 0⟩,
  ⟨0x6800, 1, 0x02, 1, 3, 2, .ro, 0, 0, 65535, 0⟩,
  ⟨0x6800, 1, 0x03, 1, 3, 2, .rw, 1450, 600, 1450, 0⟩,
  ⟨0x6800, 1, 0x04, 1, 2, 1, .ro, 0, 0, 255, 0⟩,
  ⟨0x6800, 1, 0x05, 1, 5, 8, .ro, 0, 0, 18446744073709551615, 0⟩,
  ⟨0x6800, 1, 0x06, 1, 5, 8, .ro, 0, 0, 18446744073709551615, 0⟩,
  ⟨0x6800, 1, 0x07, 1, 6, 1, .ro, 0, 0, 255, 0⟩,
  ⟨0x6800, 1, 0x08, 1, 6, 1, .ro, 0, 0, 255, 0⟩,
  ⟨0x6800, 1, 0x09, 1, 4, 4, .ro, 0, 0, 4294967295, 0⟩,
  ⟨0x6800, 1, 0x0A, 1, 4, 4, .ro, 0, 0, 4294967295, 0⟩,
  ⟨0x6800, 1, 0x0B, 1, 4, 4, .ro, 0, 0, 4294967295, 0⟩,
  ⟨0x6900, 1, 0x01, 1, 2, 1, .ro, 0, 0, 255, 0⟩,
  ⟨0x6900, 1, 0x02, 1, 3, 2, .ro, 0, 0, 65535, 0⟩,
  ⟨0x6900, 1, 0x03, 1, 6, 1, .ro, 0, 0, 255, 0⟩,
  ⟨0x6900, 1, 0x04, 1, 4, 4, .ro, 0, 0, 4294967295, 0⟩,
  ⟨0x6900, 1, 0x05, 1, 4, 4, .ro, 0, 0, 4294967295, 0⟩,
  ⟨0x6900, 1, 0x06, 1, 4, 4, .ro, 0, 0, 4294967295, 0⟩,
  ⟨0x6900, 1, 0x07, 1, 5, 8, .ro, 0, 0, 18446744073709551615, 0⟩,
  ⟨0x6900, 1, 0x08, 1, 3, 2, .rw, 54000, 48000, 60000, 0⟩,
  ⟨0x6900, 1, 0x09, 1, 3, 2, .rw, 30000, 24000, 40000, 0⟩,
  ⟨0x6900, 1, 0x0A, 1, 3, 2, .rw, 500, 50, 10000, 0⟩,
  ⟨0x6900, 1, 0x0B, 1, 3, 2, .rw, 2000, 100, 10000, 0⟩,
  ⟨0x6900, 1, 0x0C, 1, 4, 4, .rw, 1500000, 0, 4294967295, 0⟩,
  ⟨0x6900, 1, 0x0D, 1, 4, 4, .rw, 200000, 0, 4294967295, 0⟩]
/-- Objects of the chapter 17 of spec/, part 2. -/
def odRows17b : List OdRow := [
  ⟨0x6900, 1, 0x0E, 1, 3, 2, .rw, 30, 7, 90, 0⟩,
  ⟨0x6900, 1, 0x0F, 1, 2, 1, .wo, 0, 1, 1, 0⟩,
  ⟨0x6900, 1, 0x10, 1, 5, 8, .ro, 0, 0, 18446744073709551615, 0⟩,
  ⟨0x6900, 1, 0x11, 1, 4, 4, .ro, 0, 0, 4294967295, 0⟩,
  ⟨0x6900, 1, 0x12, 1, 4, 4, .ro, 0, 0, 4294967295, 0⟩,
  ⟨0x6900, 1, 0x13, 1, 5, 8, .ro, 0, 0, 18446744073709551615, 0⟩]
/-- Objects of the chapter 18 of spec/, part 1. -/
def odRows18a : List OdRow := [
  ⟨0x1000, 1, 0x01, 1, 12, 32, .ro, 2574115460306667510019499924231300784100569684, 0, 0, 0⟩,
  ⟨0x1000, 1, 0x02, 1, 12, 16, .ro, 13568206240039247, 0, 0, 0⟩,
  ⟨0x1000, 1, 0x03, 1, 3, 2, .ro, 176, 0, 65535, 0⟩,
  ⟨0x1000, 1, 0x04, 1, 11, 16, .ro, 0, 0, 0, 0⟩,
  ⟨0x1000, 1, 0x05, 1, 4, 4, .ro, 0, 0, 4294967295, 0⟩,
  ⟨0x1000, 1, 0x06, 1, 4, 4, .ro, 0, 0, 4294967295, 0⟩,
  ⟨0x1000, 1, 0x07, 1, 3, 2, .ro, 0, 0, 65535, 0⟩,
  ⟨0x1000, 1, 0x08, 1, 3, 2, .ro, 384, 0, 65535, 0⟩,
  ⟨0x1000, 1, 0x09, 1, 3, 2, .ro, 0, 0, 65535, 0⟩,
  ⟨0x1100, 1, 0x01, 1, 11, 6, .ro, 0, 0, 0, 0⟩,
  ⟨0x1100, 1, 0x02, 1, 2, 1, .rw, 0, 0, 255, 0⟩,
  ⟨0x1100, 1, 0x03, 1, 2, 1, .rw, 8, 2, 8, 0⟩,
  ⟨0x1100, 1, 0x04, 1, 2, 1, .rw, 32, 0, 255, 0⟩,
  ⟨0x1100, 1, 0x05, 1, 11, 16, .rw, 0, 0, 0, 0⟩,
  ⟨0x1100, 1, 0x06, 1, 2, 1, .rw, 64, 1, 128, 0⟩,
  ⟨0x1100, 1, 0x07, 1, 3, 2, .rw, 47264, 1024, 65535, 0⟩,
  ⟨0x1100, 1, 0x08, 1, 2, 1, .ro, 0, 0, 255, 0⟩,
  ⟨0x1100, 1, 0x09, 1, 5, 8, .ro, 0, 0, 18446744073709551615, 0⟩,
  ⟨0x1100, 1, 0x0A, 1, 1, 1, .rw, 1, 0, 1, 0⟩,
  ⟨0x1100, 1, 0x0B, 1, 2, 1, .ro, 0, 0, 255, 0⟩,
  ⟨0x1100, 1, 0x10, 1, 11, 32, .wo, 0, 0, 0, 0⟩,
  ⟨0x1100, 1, 0x11, 1, 1, 1, .ro, 0, 0, 1, 0⟩,
  ⟨0x1140, 4, 0x01, 1, 11, 32, .wo, 0, 0, 0, 0⟩,
  ⟨0x1140, 4, 0x02, 1, 1, 1, .ro, 0, 0, 1, 0⟩]
/-- Objects of the chapter 18 of spec/, part 2. -/
def odRows18b : List OdRow := [
  ⟨0x7000, 1, 0x01, 1, 2, 1, .rw, 20, 10, 24, 0⟩,
  ⟨0x7000, 1, 0x02, 1, 5, 8, .rw, 1, 0, 255, 0⟩,
  ⟨0x7000, 1, 0x03, 1, 2, 1, .rw, 0, 0, 3, 0⟩,
  ⟨0x7000, 1, 0x04, 1, 5, 8, .rw, 0, 0, 18446744073709551615, 0⟩,
  ⟨0x7000, 1, 0x05, 1, 4, 4, .rw, 1048576, 65536, 67108864, 0⟩,
  ⟨0x7000, 1, 0x06, 1, 5, 8, .ro, 0, 0, 18446744073709551615, 0⟩,
  ⟨0x7000, 1, 0x07, 1, 5, 8, .rw, 0, 0, 18446744073709551615, 0⟩,
  ⟨0x7000, 1, 0x08, 1, 5, 8, .ro, 0, 0, 18446744073709551615, 0⟩,
  ⟨0x7000, 1, 0x10, 1, 5, 8, .ro, 0, 0, 18446744073709551615, 0⟩,
  ⟨0x7000, 1, 0x11, 1, 5, 8, .ro, 0, 0, 18446744073709551615, 0⟩,
  ⟨0x7000, 1, 0x12, 1, 5, 8, .ro, 0, 0, 18446744073709551615, 0⟩,
  ⟨0x7000, 1, 0x13, 1, 5, 8, .ro, 0, 0, 18446744073709551615, 0⟩,
  ⟨0x7000, 1, 0x14, 1, 5, 8, .ro, 0, 0, 18446744073709551615, 0⟩,
  ⟨0x7000, 1, 0x15, 1, 5, 8, .ro, 0, 0, 18446744073709551615, 0⟩,
  ⟨0x7000, 1, 0x16, 1, 5, 8, .ro, 0, 0, 18446744073709551615, 0⟩,
  ⟨0x7000, 1, 0x17, 1, 5, 8, .ro, 0, 0, 18446744073709551615, 0⟩,
  ⟨0x7000, 1, 0x18, 1, 5, 8, .ro, 0, 0, 18446744073709551615, 0⟩,
  ⟨0x7000, 1, 0x19, 1, 5, 8, .ro, 0, 0, 18446744073709551615, 0⟩,
  ⟨0x7000, 1, 0x1A, 1, 5, 8, .ro, 0, 0, 18446744073709551615, 0⟩]
/-- Objects of the chapter 19 of spec/, part 1. -/
def odRows19a : List OdRow := [
  ⟨0x7800, 1, 0x01, 1, 2, 1, .ro, 0, 0, 255, 0⟩,
  ⟨0x7800, 1, 0x02, 1, 2, 1, .ro, 0, 0, 255, 0⟩,
  ⟨0x7800, 1, 0x03, 1, 5, 8, .ro, 0, 0, 18446744073709551615, 0⟩,
  ⟨0x7800, 1, 0x04, 1, 2, 1, .wo, 0, 0, 255, 0⟩,
  ⟨0x7800, 1, 0x05, 1, 2, 1, .ro, 0, 0, 255, 0⟩,
  ⟨0x7800, 1, 0x06, 1, 2, 1, .ro, 0, 0, 255, 0⟩,
  ⟨0x7800, 1, 0x07, 1, 1, 1, .rw, 0, 0, 1, 0⟩,
  ⟨0x7800, 1, 0x08, 1, 2, 1, .wo, 0, 1, 1, 0⟩,
  ⟨0x7800, 1, 0x09, 1, 2, 1, .wo, 0, 1, 1, 0⟩,
  ⟨0x7800, 1, 0x0A, 1, 2, 1, .ro, 0, 0, 255, 0⟩,
  ⟨0x7800, 1, 0x0B, 1, 2, 1, .ro, 0, 0, 255, 0⟩,
  ⟨0x7800, 1, 0x0C, 1, 4, 4, .ro, 0, 0, 4294967295, 0⟩,
  ⟨0x7800, 1, 0x0D, 1, 2, 1, .ro, 0, 0, 255, 0⟩,
  ⟨0x7800, 1, 0x0E, 1, 4, 4, .ro, 0, 0, 4294967295, 0⟩,
  ⟨0x7810, 7, 0x01, 1, 2, 1, .ro, 0, 0, 255, 0⟩,
  ⟨0x7810, 7, 0x02, 1, 4, 4, .ro, 4294967295, 0, 4294967295, 0⟩,
  ⟨0x7810, 7, 0x03, 1, 4, 4, .ro, 0, 0, 4294967295, 0⟩,
  ⟨0x7810, 7, 0x04, 1, 4, 4, .ro, 0, 0, 4294967295, 0⟩]

/-- Every row. -/
def odTable : List OdRow :=
  odRows02a ++ odRows02b ++ odRows07a ++ odRows08a ++ odRows09a ++ odRows09b ++ odRows10a ++ odRows10b ++ odRows11a ++ odRows12a ++ odRows12b ++ odRows13a ++ odRows13b ++ odRows14a ++ odRows15a ++ odRows15b ++ odRows16a ++ odRows17a ++ odRows17b ++ odRows18a ++ odRows18b ++ odRows19a

end Sys2Proof.Machine
end

