-- ==== Sys2Proof/Machine/Ops.lean ====
section
/-! DEFINITION. The named operations over the state that every family of commands shares: status codes, reading
and changing a part, the object store, sending something out, notices, completions, and the gates that decide
whether the device acts at all. -/

namespace Sys2Proof.Machine

/-! ## Status codes (R52) -/

def stSuccess : Nat := 0x0000
def stDimension : Nat := 0x0101
def stCorrupt : Nat := 0x0102
def stUnsupported : Nat := 0x0103
def stTruncated : Nat := 0x0104
def stBound : Nat := 0x0105
def stFrame : Nat := 0x0106
def stFormat : Nat := 0x0107
def stMeshRange : Nat := 0x0201
def stMeshInvalid : Nat := 0x0202
def stSensorMissing : Nat := 0x0203
def stSkew : Nat := 0x0204
def stStepLimit : Nat := 0x0205
def stMemLimit : Nat := 0x0206
def stKernelFault : Nat := 0x0207
def stReject : Nat := 0x0301
def stModelNotReleased : Nat := 0x0302
def stModelDigest : Nat := 0x0303
def stDuplicate : Nat := 0x0304
def stMedia : Nat := 0x0401
def stNsReadOnly : Nat := 0x0402
def stSampleNotFound : Nat := 0x0403
def stNsNotReady : Nat := 0x0404
def stIndexInUse : Nat := 0x0405
def stQuota : Nat := 0x0501
def stPoolExhausted : Nat := 0x0502
def stDoubleFree : Nat := 0x0503
def stNotFinalOwner : Nat := 0x0504
def stDram : Nat := 0x0505
def stTag : Nat := 0x0506
def stSram : Nat := 0x0507
def stSlotsFull : Nat := 0x0508
def stProtection : Nat := 0x0601
def stCredit : Nat := 0x0602
def stStaleFence : Nat := 0x0603
def stUnreachable : Nat := 0x0604
def stMsgDigest : Nat := 0x0605
def stReasm : Nat := 0x0606
def stKeyRefused : Nat := 0x0701
def stImageSig : Nat := 0x0702
def stImageRev : Nat := 0x0703
def stImageFormat : Nat := 0x0704
def stImageMalformed : Nat := 0x0705
def stTenantKey : Nat := 0x0706
def stScrub : Nat := 0x0707
def stSlotNotReady : Nat := 0x0801
def stSlotRetired : Nat := 0x0802
def stHostTimeout : Nat := 0x0803
def stDomainOff : Nat := 0x0804
def stMoved : Nat := 0x0901
def stCaravanReset : Nat := 0x0902
def stHeld : Nat := 0x0903
def stState : Nat := 0x0904
def stConfig : Nat := 0x0905

/-- R52: whether a status is transient. -/
def isTransient (st : Nat) : Bool :=
  st == stDram || st == stTag || st == stSram || st == stUnreachable || st == stMsgDigest || st == stReasm ||
  st == stCaravanReset

/-! ## OD results (R496) -/

def rOk : Nat := 0
def rNoObject : Nat := 1
def rAccess : Nat := 2
def rRights : Nat := 3
def rLength : Nat := 4
def rRange : Nat := 5
def rState : Nat := 6
def rCount : Nat := 7
def rBusy : Nat := 8
def rSegment : Nat := 9
def rMixed : Nat := 10
def rUnreachable : Nat := 11

/-! ## Parts of the state -/

/-- R2: the GTC. -/
def State.gtc (s : State) : Nat := s.clk.gtc

/-- R39: stream n. -/
def State.stream (s : State) (n : Nat) : Stream := Tbl.get s.streams {} n

/-- R39: the state with stream n changed. -/
def State.updStream (s : State) (n : Nat) (f : Stream → Stream) : State :=
  { s with streams := Tbl.upd s.streams {} n f }

/-- R185: the run of stream n. -/
def State.run (s : State) (n : Nat) : RunSt := (s.stream n).run

/-- R185: the state with the run of stream n changed. -/
def State.updRun (s : State) (n : Nat) (f : RunSt → RunSt) : State :=
  s.updStream n fun x => { x with run := f x.run }

/-- R325: the state with the delivery of stream n changed. -/
def State.updDlv (s : State) (n : Nat) (f : DlvSt → DlvSt) : State :=
  s.updStream n fun x => { x with dlv := f x.dlv }

/-- R420: the state with the protection of stream n changed. -/
def State.updProt (s : State) (n : Nat) (f : ProtSt → ProtSt) : State :=
  s.updStream n fun x => { x with prot := f x.prot }

/-- R424: the durable marks of stream n in the device's own flash, newest first. (DEDUCED, log entry 177) -/
def State.marksOf (s : State) (n : Nat) : List Bytes := Tbl.get s.flash.marks [] n

/-- R424: the durable marks of stream n are these. (DEDUCED, log entry 177) -/
def State.setMarks (s : State) (n : Nat) (l : List Bytes) : State :=
  { s with flash := { s.flash with marks := Tbl.set s.flash.marks n l } }

/-- R214: the state with the clock-exact part of stream n changed. -/
def State.updExact (s : State) (n : Nat) (f : ExactSt → ExactSt) : State :=
  s.updStream n fun x => { x with exact := f x.exact }

/-- R218: the clock-exact mode of stream n is lost, for the first cause only. -/
def State.exactLose (s : State) (n cause : Nat) : State :=
  if (s.stream n).exact.state = 2 then s.updExact n fun x => { x with state := 3, cause := cause } else s

/-- R27: image slot k. -/
def State.image (s : State) (k : Nat) : ImageSlot := Tbl.get s.images {} k

/-- R55: core c. -/
def State.core (s : State) (c : Nat) : Core := Tbl.get s.cores {} c

/-- R55: the state with core c replaced. -/
def State.setCore (s : State) (c : Nat) (x : Core) : State := { s with cores := Tbl.set s.cores c x }

/-- R174: codec engine e. -/
def State.engine (s : State) (e : Nat) : CodecEngine := Tbl.get s.engines {} e

/-- R258: pool p. -/
def State.pool (s : State) (p : Nat) : PoolSt := Tbl.get s.pools {} p

/-- R258: the state with pool p changed. -/
def State.updPool (s : State) (p : Nat) (f : PoolSt → PoolSt) : State :=
  { s with pools := Tbl.upd s.pools {} p f }

/-- R351: fabric port k. -/
def State.port (s : State) (k : Nat) : Port := Tbl.get s.fabric.ports {} k

/-- R351: the state with port k changed. -/
def State.updPort (s : State) (k : Nat) (f : Port → Port) : State :=
  { s with fabric := { s.fabric with ports := Tbl.upd s.fabric.ports {} k f } }

/-- R369: the state with queue pair q changed. -/
def State.updQp (s : State) (q : Nat) (f : Qp → Qp) : State :=
  { s with fabric := { s.fabric with qps := Tbl.upd s.fabric.qps {} q f } }

/-- R382: queue q = 8r + c. -/
def State.queue (s : State) (q : Nat) : Queue := Tbl.get s.queues {} q

/-- R388: gate port g. -/
def State.gate (s : State) (g : Nat) : Gate := Tbl.get s.gates {} g

/-- R388: the state with gate port g changed. -/
def State.updGate (s : State) (g : Nat) (f : Gate → Gate) : State :=
  { s with gates := Tbl.upd s.gates {} g f }

/-- R399: Ringmaster p. -/
def State.rm (s : State) (p : Nat) : Rm := Tbl.get s.rms {} p

/-- R399: the state with Ringmaster p changed. -/
def State.updRm (s : State) (p : Nat) (f : Rm → Rm) : State := { s with rms := Tbl.upd s.rms {} p f }

/-- R402: channel c. -/
def State.chan (s : State) (c : Nat) : Chan := Tbl.get s.chans {} c

/-- R402: the state with channel c changed. -/
def State.updChan (s : State) (c : Nat) (f : Chan → Chan) : State := { s with chans := Tbl.upd s.chans {} c f }

/-- R411: domain d. -/
def State.domain (s : State) (d : Nat) : Domain := Tbl.get s.domains {} d

/-- R411: the state with domain d changed. -/
def State.updDomain (s : State) (d : Nat) (f : Domain → Domain) : State :=
  { s with domains := Tbl.upd s.domains {} d f }

/-- R411: whether a domain number is in the table. -/
def isDomain (d : Nat) : Bool := d < 4 || (0x10 ≤ d && d < 0x40) || (0x40 ≤ d && d < 0x48)

/-- R336: namespace nsid. (DESIGN CHOICE, log entry 120) -/
def State.ns (s : State) (nsid : Nat) : Option Namespace := Tbl.find s.host.nss nsid

/-- R336: the state with a namespace replaced. -/
def State.setNs (s : State) (nsid : Nat) (x : Namespace) : State :=
  { s with host := { s.host with nss := Tbl.set s.host.nss nsid x } }

/-- R13, R400: Ringmaster p runs: it is RUNNING and does not hang. (DESIGN CHOICE, log entry 13) -/
def State.rmRuns (s : State) (p : Nat) : Bool := (s.rm p).state == 0 && !(s.rm p).hung

/-- R34: the job with a number. -/
def State.job (s : State) (id : Nat) : Option Job := s.jobs.find? fun j => j.id == id

/-- R34: the state with a job changed. -/
def State.updJob (s : State) (id : Nat) (f : Job → Job) : State :=
  { s with jobs := s.jobs.map fun j => if j.id == id then f j else j }

/-- R34: the state without the jobs that a test names. -/
def State.dropJobs (s : State) (p : Job → Bool) : State := { s with jobs := s.jobs.filter fun j => !p j }

/-- R338: the namespaces that are CORPUS namespaces, with their records. -/
def State.corpora (s : State) : List (Nat × Corpus) :=
  s.host.nss.filterMap fun p => p.2.corpus.map fun c => (p.1, c)

/-- R182: the corpus that this device holds under a CORPUS_ID, with its NSID. -/
def State.corpusOf (s : State) (id : Nat) : Option (Nat × Corpus) := s.corpora.find? fun p => p.2.id == id

/-- R338: the state with the records of a corpus namespace changed. -/
def State.updCorpus (s : State) (nsid : Nat) (f : Corpus → Corpus) : State :=
  match s.ns nsid with
  | some x => s.setNs nsid { x with corpus := x.corpus.map f }
  | none => s

/-! ## Coordinates (R176, R181, R352) -/

/-- R181: dimension d of a geometry; a dimension of 0 counts as 1. -/
def geoDim (g d : Nat) : Nat := let v := bits g (8 * d + 7) (8 * d); if v = 0 then 1 else v

/-- R181: the own coordinate in dimension d. -/
def geoOwn (g d : Nat) : Nat := bits g (24 + 8 * d + 7) (24 + 8 * d)

/-- R176: the number of members of a geometry. (DESIGN CHOICE, log entry 36) -/
def geoCount (g : Nat) : Nat := geoDim g 0 * geoDim g 1 * geoDim g 2

/-- R429: the rank x + Dx (y + Dy z) of coordinates. -/
def geoRank (g x y z : Nat) : Nat := x + geoDim g 0 * (y + geoDim g 1 * z)

/-- R176: the coordinate in dimension d of rank r. -/
def geoCoord (g r d : Nat) : Nat :=
  if d = 0 then r % geoDim g 0
  else if d = 1 then r / geoDim g 0 % geoDim g 1
  else r / (geoDim g 0 * geoDim g 1)

/-- R355: coordinates in the layout of W1[12:0]. -/
def packCoord (x y z : Nat) : Nat := x % 32 + 32 * (y % 16) + 512 * (z % 16)

/-- R355: the coordinate in dimension d of a packed value. -/
def coordOf (w d : Nat) : Nat := if d = 0 then bits w 4 0 else if d = 1 then bits w 8 5 else bits w 12 9

/-! ## The object store -/

/-- R486: the row that an object key belongs to. -/
def rowOf (key : Nat) : Option OdRow :=
  odTable.find? fun r => r.base ≤ key / 256 && key / 256 < r.base + r.span &&
    r.sub ≤ key % 256 && key % 256 < r.sub + r.subs

/-- R382, R398: the default of a queue parameter: sub 1 CIR, 2 CBS, 3 PIR, 4 PBS, of queue q = 8r + c. -/
def queueDefault (q sub : Nat) : Nat :=
  let r := q / 8
  let bound := (r < 8 || r == 20) && q % 8 == 0
  let cir := if r == 20 then 16000000000 else 12500000000
  match sub with
  | 1 => if bound then cir else 0
  | 2 => if bound then 65536 else 0
  | 3 => if bound then cir else 2 ^ 64 - 1
  | _ => if bound then 65536 else 1048576

/-- R381, R398, R467, R506: the default of an object whose default is not one number of the table and does not
depend on the state. -/
def fixedDefault (key : Nat) : Option Nat :=
  let i := key / 256
  let u := key % 256
  if 0x4810 ≤ i && i < 0x4818 then
    let k := i - 0x4810
    if u == 1 then some (if k < 6 then 0 else 1)
    else if u == 2 then some (if k < 6 then k else 0)
    else if u == 0x10 then some (Config.macAddr k).toNat
    else none
  else if 0x5100 ≤ i && i < 0x51B0 && 1 ≤ u && u ≤ 4 then some (queueDefault (i - 0x5100) u)
  else if 0x6100 ≤ i && i < 0x6120 && u == 5 then some (i - 0x6100 + 1)
  else if key == oSerial then some Config.serial.toNat
  else if key == oBootRomVersion then some Config.bootRom.toNat
  else if key == oT1sMac then some Config.t1sMac.toNat
  else none

/-- R7: the stored value of an object whose default does not depend on the state. -/
def State.stored (s : State) (key : Nat) : Nat :=
  match Tbl.find s.od key with
  | some v => v
  | none =>
    match fixedDefault key with
    | some v => v
    | none =>
      match rowOf key with
      | some r => r.dflt
      | none => 0

/-- R7: the state with an object's stored value set. -/
def State.store (s : State) (key v : Nat) : State := { s with od := Tbl.set s.od key v }

/-- R493: a counter object raised by n, within its size. -/
def State.count (s : State) (key n : Nat) : State := s.store key (s.stored key + n)

/-- R181, R209: PLACE_GEOMETRY. -/
def State.place (s : State) : Nat := s.stored oPlaceGeometry

/-- R352: TORUS_GEOMETRY. -/
def State.torus (s : State) : Nat := s.stored oTorusGeometry

/-- R506: the device's own coordinates, from TORUS_GEOMETRY. -/
def State.coord (s : State) : Nat :=
  packCoord (geoOwn s.torus 0) (geoOwn s.torus 1) (geoOwn s.torus 2)

/-- R429: the device's own rank. -/
def State.rank (s : State) : Nat :=
  geoRank s.torus (geoOwn s.torus 0) (geoOwn s.torus 1) (geoOwn s.torus 2)

/-- R351: the neighbour's coordinates in direction 0 to 5 (+X, −X, +Y, −Y, +Z, −Z). -/
def State.neighbour (s : State) (dir : Nat) : Nat :=
  let g := s.torus
  let at_ (d : Nat) : Nat :=
    let n := geoDim g d
    if dir / 2 = d then (if dir % 2 = 0 then (geoOwn g d + 1) % n else (geoOwn g d + n - 1) % n) else geoOwn g d
  packCoord (at_ 0) (at_ 1) (at_ 2)

/-- R50: a Boolean object. -/
def State.flag (s : State) (key : Nat) : Bool := s.stored key == 1

/-! ## Sending out -/

/-- What the block sends. -/
def State.emit (s : State) (e : Emit) : State := { s with out := s.out ++ [e] }

/-- A fresh free value's number. (DESIGN CHOICE, log entry 3) -/
def State.draw (s : State) : Nat × State := (s.fresh, { s with fresh := s.fresh + 1 })

/-- R517: raises an MSI-X vector; a vector masked in the table is left pending. -/
def State.raiseVector (s : State) (v : Nat) : State :=
  if bit (Tbl.get s.host.msix 0 (4 * v + 3)) 0 then
    { s with host := { s.host with msixPending := setBit s.host.msixPending v true } }
  else s.emit (.msix v)

/-- R408: a wake event at the host on channel c. -/
def State.wakeHost (s : State) (c : Nat) : State :=
  let s' := s.updChan c fun x => { x with wake := true }
  if (s.chan c).irqEn then s'.raiseVector (1984 + c) else s'

/-- R406: the device posts a body to the host on channel c: the body first, then the notice, then the wake. -/
def State.postHost (s : State) (c sender seq : Nat) (body : Bytes) : State :=
  let b := (s.chan c).rxBase
  let s' := (s.emit (.dma b body)).updChan c fun x =>
    { x with rx := some { ptr := b, len := body.length, seq := seq, sender := sender, body := body },
             posted := x.posted + 1 }
  s'.wakeHost c

/-- R410: the 32-byte body of a notice. -/
def noticeBody (n : Notice) : Bytes :=
  leBytes 2 n.kind ++ leBytes 2 n.status ++ leBytes 4 n.subject ++ leBytes 8 n.gtc ++ leBytes 8 n.detail ++ zeros 8

/-- R411, R415: processor p runs in a SPINE domain that is ON, so that it can send a notice. (DESIGN CHOICE, log entry 110) -/
def State.rmSends (s : State) (p : Nat) : Bool := s.rmRuns p && (s.domain 0).state == 0

/-- R410: sends, queues or loses a device notice on channel 0. (DESIGN CHOICE, log entry 110) -/
def State.notice (s : State) (kind status subject detail : Nat) : State :=
  let n : Notice := { kind := kind, status := status, subject := subject, gtc := s.gtc, detail := detail }
  if (s.chan 0).rxLen = 0 then s.count oNoticesLost 1
  else if (s.chan 0).rx.isSome || !s.notices.isEmpty || !s.rmSends 0 then
    if s.notices.length < Config.noticeQueue then { s with notices := s.notices ++ [n] }
    else s.count oNoticesLost 1
  else s.postHost 0 0x0010 0 (noticeBody n)

/-- R442: sends, queues or loses a recovery notice on channel 8. -/
def State.recover (s : State) (kind status subject detail : Nat) : State :=
  let n : Notice := { kind := kind, status := status, subject := subject, gtc := s.gtc, detail := detail }
  if (s.chan 8).rxLen = 0 then s.count oNoticesLost 1
  else if (s.chan 8).rx.isSome || !s.recovery.isEmpty || !s.rmSends 1 then
    if s.recovery.length < Config.noticeQueue then { s with recovery := s.recovery ++ [n] }
    else s.count oNoticesLost 1
  else s.postHost 8 0x0011 0 (noticeBody n)

/-- R410, R442: sends the oldest waiting notice of a channel that has become empty. -/
def State.pumpNotices (s : State) (c : Nat) : State :=
  if c = 0 && (s.chan 0).rx.isNone && s.rmSends 0 && (s.chan 0).rxLen ≠ 0 then
    match s.notices with
    | n :: r => State.postHost { s with notices := r } 0 0x0010 0 (noticeBody n)
    | [] => s
  else if c = 8 && (s.chan 8).rx.isNone && s.rmSends 1 && (s.chan 8).rxLen ≠ 0 then
    match s.recovery with
    | n :: r => State.postHost { s with recovery := r } 8 0x0011 0 (noticeBody n)
    | [] => s
  else s

/-! ## Gates -/

/-- R519, R522, R484: the device is out of reset and not halted. (DESIGN CHOICE, log entry 6) -/
def State.up (s : State) : Bool := !s.sys.inReset && !s.sys.halted && !s.sys.scan

/-- R519: a command that reaches a device in reset or halted has no effect. -/
def whenUp (s : State) (f : State → Res) : Res := if s.up then f s else .next s

/-- R39: a stream event names one of the 64 streams. -/
def withStream (n : Nat) (s : State) (f : State → Res) : Res :=
  if n < Config.streams then whenUp s f else .fault .noSuchStream

/-- R55, R472: a kernel row names one of the 384 cores; a cycle that a droop suppresses changes nothing. -/
def withCore (c : Nat) (s : State) (f : State → Res) : Res :=
  if c < Config.cores then (if s.power.droop.contains (c / 8) then .next s else whenUp s f) else .fault .noSuchCore

/-- R350: a fabric event names one of the 8 ports. -/
def withPort (k : Nat) (s : State) (f : State → Res) : Res :=
  if k < 8 then whenUp s f else .fault .noSuchPort

/-- R13, R399: a duty of Ringmaster p waits while that processor does not run. -/
def whenRm (p : Nat) (s : State) (f : State → Res) : Res :=
  whenUp s fun s => if s.rmRuns p && (s.sys.step == 0 || 5 ≤ s.sys.step) then f s else .next s

/-- R39, R399: a duty of Ringmaster p for one of the 64 streams. -/
def withRmStream (p n : Nat) (s : State) (f : State → Res) : Res := withStream n s fun s => whenRm p s f

/-- R17, R226: the device stands at a phase-zero instant: every 20th tick of the GTC clock since the divider release.
(DEDUCED, log entry 168) -/
def State.phaseZero (s : State) : Bool :=
  match s.clk.phase with
  | some p => s.clk.ticks % 20 == p
  | none => false

/-- R512: the device has reached ring admission. -/
def State.serving (s : State) : Bool := s.up && s.sys.step == 0

/-- R407, R417: DEV_MODE: 2 TEST while BIST runs, 0 STARTUP until ring admission, 3 RECOVERY while a Ringmaster
restarts, 1 SERVICE otherwise. -/
def State.devMode (s : State) : Nat :=
  if s.sys.inReset then 0
  else if s.sys.step ≠ 0 then (if s.sys.step == 5 && s.sec.lc ≠ 0 then 2 else 0)
  else if s.sys.bistState == 1 then 2
  else if (s.rm 0).state == 1 || (s.rm 1).state == 1 || (s.rm 2).state == 1 || (s.rm 3).state == 1 then 3
  else 1

/-- R538: LED_ACT: 0 off, 1 at 4 Hz, 2 at 1 Hz, 3 steadily on. -/
def State.ledAct (s : State) : Nat :=
  if s.sys.halted then 0
  else if (match s.sec.scrub with | some b => decide (b.step ≤ 5) | none => false) then 1
  else if s.devMode == 1 then 3
  else 2

/-! ## Pools named by a tenant, tenants of streams -/

/-- R50: the stream's tenant: TENANT_ID of the image in its slot. -/
def imageTenant (i : ImageSlot) : Nat := fieldAt i.image 8 4

/-- R27: whether image slot k holds an image. -/
def State.hasImage (s : State) (k : Nat) : Bool := k < 16 && !(s.image k).image.isEmpty

/-- R50: the image in a stream's IMAGE_SLOT. -/
def State.imageOf (s : State) (n : Nat) : ImageSlot :=
  let k := s.stored (oImageSlot n)
  if k < 16 then s.image k else {}

/-- R50: the tenant of stream n; none when its IMAGE_SLOT is 0xFF. -/
def State.tenantOf (s : State) (n : Nat) : Option Nat :=
  let k := s.stored (oImageSlot n)
  if k < 16 then some (imageTenant (s.image k)) else none

/-- R461: whether a scrub that runs touches a tenant. -/
def State.scrubs (s : State) (tenant : Nat) : Bool :=
  match s.sec.scrub with
  | some b => b.scope == tenant || b.scope == 0xFFFFFFFF
  | none => false

/-- R463: a scrub of DEVICE scope runs. -/
def State.deviceScrub (s : State) : Bool :=
  match s.sec.scrub with
  | some b => b.scope == 0xFFFFFFFF
  | none => false

/-- R450: the tenant slot that holds a TENANT_ID. -/
def State.tenantSlot (s : State) (id : Nat) : Option Nat :=
  if id = 0 then none else (List.range 32).find? fun t => s.stored (oTenantId t) == id

/-! ## NVMe completions -/

/-- R335, R347: posts a completion entry and raises the queue's vector; none is posted after PWR_FAIL_N. -/
def State.complete (s : State) (sq cid sct sc : Nat) (dnr : Bool) (dw0 : Nat) (data : Bytes) : State :=
  if s.sys.pwrFail || s.sys.flush.isSome || (Tbl.find s.host.sqs sq).isNone then s
  else
    let q := Tbl.get s.host.sqs {} sq
    let c := Tbl.get s.host.cqs {} q.cq
    let q' := { q with busy := q.busy.filter fun b => b ≠ cid, ordered := q.ordered && q.busy ≠ [cid] }
    let c' := { c with tail := if c.tail + 1 = c.size then 0 else c.tail + 1 }
    let s1 := { s with host := { s.host with sqs := Tbl.set s.host.sqs sq q', cqs := Tbl.set s.host.cqs q.cq c' } }
    let s2 := s1.emit (.cqe q.cq sq cid sct sc dnr dw0 data)
    if c.ien then s2.raiseVector c.vector else s2

/-- R335: posts Successful Completion. -/
def State.nvmeOk (s : State) (c : NvmeCmd) (dw0 : Nat) (data : Bytes) : State :=
  s.complete c.sq c.cid 0 0 false dw0 data

/-- R348: logs an error and posts a status with DNR set. -/
def State.nvmeErr (s : State) (c : NvmeCmd) (sct sc : Nat) (dnr : Bool := true) : State :=
  let s' := { s with host := { s.host with errors := ((c.sq, c.cid, 256 * sct + sc) :: s.host.errors).take 64 } }
  s'.complete c.sq c.cid sct sc dnr 0 []

/-- R339: posts the outcome of a vendor command: the Treryn status in bits 15:0 of Dword 0 and the result above;
the result bits are free where there is no result. -/
def State.vendorDone (s : State) (c : NvmeCmd) (status : Nat) (result : Option Nat) (data : Bytes) : State :=
  let res := result.getD (Config.noResult status).toNat % 65536 * 65536
  if status = stSuccess then s.complete c.sq c.cid 0 0 false res data
  else
    let retry := status == stPoolExhausted || status == stNsNotReady || status == stHeld
    s.complete c.sq c.cid 7 0xC0 (!retry) (res + status) data

/-- R310: entries that completion queue k can take. -/
def State.cqFree (s : State) (k : Nat) : Nat :=
  let c := Tbl.get s.host.cqs {} k
  if c.size = 0 then 0 else (c.head + c.size - c.tail - 1) % c.size

/-- R310: completions that the commands in progress still owe completion queue k; an Asynchronous Event Request owes none
until an event answers it. -/
def State.cqOwed (s : State) (k : Nat) : Nat :=
  ((s.host.sqs.filter fun q => q.2.cq == k).map fun q => if q.1 = 0 then q.2.busy.length - s.host.aers.length else q.2.busy.length).sum

/-- R310, R343: whether the command at hand can be taken now: the controller is ready, a submitted entry waits, its
completion has room, and no ORDERED command stands in the way. -/
def State.nvmeCanTake (s : State) (c : NvmeCmd) : Bool :=
  let q := Tbl.get s.host.sqs {} c.sq
  s.host.ready && !s.sys.pwrFail && s.sys.flush.isNone && q.size ≠ 0 && q.head ≠ q.tail && !q.ordered && !q.busy.contains c.cid &&
  !(c.sq ≠ 0 && bit c.cdw2 31 && !q.busy.isEmpty) && decide (s.cqOwed q.cq < s.cqFree q.cq)

/-- R335: an abort names the command at hand. -/
def State.aborted (s : State) (c : NvmeCmd) : Bool := s.host.aborts.any fun a => a.1 == c.sq && a.2.1 == c.cid

/-- R310: takes the entry at the head of its queue; an abort lapses once the entries that stood in the queue are taken. -/
def State.nvmeTake (s : State) (c : NvmeCmd) : State :=
  let q := Tbl.get s.host.sqs {} c.sq
  let q' := { q with head := if q.head + 1 = q.size then 0 else q.head + 1, busy := q.busy ++ [c.cid],
                     ordered := c.sq ≠ 0 && bit c.cdw2 31 }
  let left := s.host.aborts.filterMap fun a =>
    if a.1 ≠ c.sq then some a else if a.2.1 = c.cid || a.2.2 ≤ 1 then none else some (a.1, a.2.1, a.2.2 - 1)
  { s with host := { s.host with sqs := Tbl.set s.host.sqs c.sq q', aborts := left } }

/-- R335: an NVMe command runs when it can be taken; the meaning gets the state with its entry taken. `admin` says
which kind of queue the command belongs to; on the other kind its opcode is another command's. An aborted command
ends with Command Abort Requested. -/
def nvmeRun (admin : Bool) (c : NvmeCmd) (s : State) (f : State → State) : Res :=
  whenUp s fun s =>
    if s.nvmeCanTake c && (admin == (c.sq == 0)) then
      (if s.aborted c then .next ((s.nvmeTake c).nvmeErr c 0 0x07) else .next (f (s.nvmeTake c)))
    else .next s

/-! ## Stopping -/

/-- R522: a fatal halt with a fault code: LED_FAULT pulses, CSTS.CFS is set. -/
def State.fatal (s : State) (code : Nat) : State :=
  { s with sys := { s.sys with halted := true, faultCode := code, ledFault := 2, flush := none }
           host := { s.host with cfs := true } }

/-- R291: the dirty data of the write buffer, in bytes. -/
def State.dirtyBytes (s : State) : Nat := 4096 * s.flash.wbuf.length

/-- R483: begins a flush: admission stops and no completion is posted from now on. -/
def State.beginFlush (s : State) (why : FlushFor) : State :=
  match s.sys.flush with
  | some _ => s
  | none =>
    { s with sys := { s.sys with flush := some { why := why, began := s.gtc }
                                 pwrFail := s.sys.pwrFail || why == .powerFail }
             hold := { s.hold with test := none, state := if s.hold.state == 3 then 2 else s.hold.state } }

/-- R520, R530: a warm reset begins, unless the device is starting or already resetting. -/
def State.beginWarm (s : State) (cause : Nat) : State :=
  if s.sys.step ≠ 0 || s.sys.flush.isSome then s
  else State.beginFlush { s with sys := { s.sys with cause := cause } } .warm

end Sys2Proof.Machine
end

