-- ==== Sys2Proof/Machine/Image.lean ====
section
/-! DEFINITION. Pipeline images: the layout of R23 to R26 and R545, the stage descriptors of R31, the graph rules
of R33, the stage-parameter rules that each chapter gives, and the acceptance checks of R27. -/

namespace Sys2Proof.Machine

/-! ## Layout (R23 to R25) -/

/-- R23: IMAGE_LENGTH. -/
def imgLength (b : Bytes) : Nat := fieldAt b 0x10 8
/-- R23: STAGE_COUNT. -/
def imgStages (b : Bytes) : Nat := fieldAt b 0x18 2
/-- R23: KERNEL_COUNT. -/
def imgKernelCount (b : Bytes) : Nat := fieldAt b 0x1A 2
/-- R23: MODEL_COUNT. -/
def imgModelCount (b : Bytes) : Nat := fieldAt b 0x1C 2
/-- R23: SECTION_COUNT. -/
def imgSections (b : Bytes) : Nat := fieldAt b 0x1E 2
/-- R23: ARITH_REV. -/
def imgArith (b : Bytes) : Nat := fieldAt b 6 2
/-- R23: FLAGS bit 0, an ingest image. -/
def imgIngest (b : Bytes) : Bool := bit (fieldAt b 0xC 4) 0

/-- R24: field of the section-table entry i, at an offset of the entry. -/
def secField (b : Bytes) (i o n : Nat) : Nat := fieldAt b (0x80 + 16 * i + o) n

/-- R25: the section of a type: its offset and length. -/
def secOf (b : Bytes) (type : Nat) : Option (Nat × Nat) :=
  ((List.range (imgSections b)).find? fun i => secField b i 0 2 == type).map fun i =>
    (secField b i 4 4, secField b i 8 4)

/-- R25: the bytes of the section of a type; empty when there is none. -/
def secBytes (b : Bytes) (type : Nat) : Bytes :=
  match secOf b type with
  | some (o, n) => (b.drop o).take n
  | none => []

/-- R25: the CONSTANTS section. -/
def imgConsts (b : Bytes) : Bytes := secBytes b 5

/-- R25: the kernels of a KERNELS section: each an 8-byte length and its bytes, to the section's last byte. -/
def kernelsOf : Nat → Bytes → Option (List Bytes)
  | 0, bs => if bs.isEmpty then some [] else none
  | n + 1, bs =>
    let len := fieldAt bs 0 8
    if bs.length < 8 + len then none
    else (kernelsOf n (bs.drop (8 + len))).map fun r => (bs.drop 8).take len :: r

/-- R25: kernel k of the image. -/
def imgKernel (b : Bytes) (k : Nat) : Bytes :=
  match kernelsOf (imgKernelCount b) (secBytes b 2) with
  | some ks => ks.getD k []
  | none => []

/-- R545: the model reference m, 96 bytes. -/
def imgModel (b : Bytes) (m : Nat) : Bytes := ((secBytes b 4).drop (96 * m)).take 96

/-- R545: MODEL_DIGEST of model reference m. -/
def modelDigest (b : Bytes) (m : Nat) : Bytes := (imgModel b m).take 64

/-- R545: the MODEL_DIGESTs of the image. -/
def imgModels (b : Bytes) : List Bytes := (List.range (imgModelCount b)).map (modelDigest b)

/-! ## Stage descriptors (R31) -/

/-- R31: a stage descriptor, its eight words. -/
structure Desc where
  /-- R31: W0 to W7. -/
  w : List Nat
  deriving DecidableEq, Repr

/-- R31: word i. -/
def Desc.word (d : Desc) (i : Nat) : Nat := d.w.getD i 0
/-- R31: STAGE_ID. -/
def Desc.id (d : Desc) : Nat := bits (d.word 0) 5 0
/-- R31: TYPE. -/
def Desc.type (d : Desc) : Nat := bits (d.word 0) 11 8
/-- R31: BINDING. -/
def Desc.binding (d : Desc) : Nat := bits (d.word 0) 13 12
/-- R31: BUFFER_CLASS. -/
def Desc.pool (d : Desc) : Nat := bits (d.word 0) 21 16
/-- R31: IN_COUNT. -/
def Desc.inCount (d : Desc) : Nat := bits (d.word 0) 27 24
/-- R31: OUT_COUNT. -/
def Desc.outCount (d : Desc) : Nat := bits (d.word 0) 31 28
/-- R31: CONFIG_INDEX. -/
def Desc.config (d : Desc) : Nat := bits (d.word 0) 47 32
/-- R31: OBJECT_INDEX. -/
def Desc.object (d : Desc) : Nat := bits (d.word 0) 63 48
/-- R31: PRED j. -/
def Desc.pred (d : Desc) (j : Nat) : Nat := bits (d.word 1) (6 * j + 5) (6 * j)
/-- R31: PRED0 to PRED(IN_COUNT − 1). -/
def Desc.preds (d : Desc) : List Nat := (List.range (min d.inCount 8)).map d.pred
/-- R31: IN_MAX_BYTES. -/
def Desc.inMax (d : Desc) : Nat := bits (d.word 2) 31 0
/-- R31: OUT_MAX_BYTES. -/
def Desc.outMax (d : Desc) : Nat := bits (d.word 2) 63 32
/-- R31: STEP_LIMIT. -/
def Desc.step (d : Desc) : Nat := bits (d.word 3) 31 0
/-- R31: MEM_LIMIT. -/
def Desc.mem (d : Desc) : Nat := bits (d.word 3) 47 32

/-- R31: the descriptor of stage i. -/
def imgDesc (b : Bytes) (i : Nat) : Desc :=
  let s := (secBytes b 1).drop (64 * i)
  { w := (List.range 8).map fun j => fieldAt s (8 * j) 8 }

/-- R31: every descriptor, in stage-ID order. -/
def imgDescs (b : Bytes) : List Desc := (List.range (imgStages b)).map (imgDesc b)

/-- R32: the stage types. -/
def tFetch : Nat := 0
def tDecode : Nat := 1
def tGeometry : Nat := 2
def tColour : Nat := 3
def tKernel : Nat := 4
def tScore : Nat := 5
def tAlign : Nat := 6
def tCodec : Nat := 7
def tPack : Nat := 8
def tDeliver : Nat := 9

/-- R33: the successors of stage i. -/
def succs (ds : List Desc) (i : Nat) : List Nat := (ds.filter fun d => d.preds.contains i).map Desc.id

/-- R33: the stages of a type. -/
def ofType (ds : List Desc) (t : Nat) : List Desc := ds.filter fun d => d.type == t

/-- R316: TARGET of the DELIVER stage. -/
def imgTarget (b : Bytes) : Nat :=
  match ofType (imgDescs b) tDeliver with
  | d :: _ => bits (d.word 4) 1 0
  | [] => 0

/-- R377: PROTO and PORTS of the DELIVER stage. -/
def imgProto (b : Bytes) : Nat :=
  match ofType (imgDescs b) tDeliver with
  | d :: _ => bits (d.word 4) 2 2
  | [] => 0

/-- R377: PORTS of the DELIVER stage, bit 0 port 6, bit 1 port 7. -/
def imgPorts (b : Bytes) : Nat :=
  match ofType (imgDescs b) tDeliver with
  | d :: _ => bits (d.word 4) 4 3
  | [] => 0

/-- R196: the PACK stage. -/
def imgPack (b : Bytes) : Option Desc := (ofType (imgDescs b) tPack).head?

/-- R190: the SCORE stages, in stage-ID order. -/
def imgScores (b : Bytes) : List Desc := ofType (imgDescs b) tScore

/-- R31, R190: MEM_LIMIT of a stage that runs a kernel. -/
def kernelMem (d : Desc) : Nat := if d.type == tScore then bits (d.word 5) 47 32 else d.mem
/-- R31, R190: STEP_LIMIT of a stage that runs a kernel. -/
def kernelStep (d : Desc) : Nat := if d.type == tScore then bits (d.word 6) 31 0 else d.step
/-- R31, R190: the kernel that a stage runs. -/
def kernelIndex (d : Desc) : Nat := if d.type == tScore then bits (d.word 5) 15 0 else d.object

/-! ## Meshes and lens records (R120, R121, R136) -/

/-- R120: the fixed fields that a mesh and a lens record share: GW, GH, cx, cy, DW and DH in their ranges. -/
def gridOk (gw gh cx cy dw dh : Nat) : Bool :=
  2 ≤ gw && gw ≤ 257 && 2 ≤ gh && gh ≤ 257 && cx ≤ 14 && cy ≤ 14 &&
  1 ≤ dw && dw ≤ 16384 && dw ≤ (gw - 1) * 2 ^ cx && 1 ≤ dh && dh ≤ 16384 && dh ≤ (gh - 1) * 2 ^ cy

/-- R120: a mesh record read from bytes. -/
structure Mesh where
  /-- R120: GW. -/
  gw : Nat
  /-- R120: GH. -/
  gh : Nat
  /-- R120: CELL_LOG2_X. -/
  cx : Nat
  /-- R120: CELL_LOG2_Y. -/
  cy : Nat
  /-- R120: MODE is projective. -/
  proj : Bool
  /-- R120: DW. -/
  dw : Nat
  /-- R120: DH. -/
  dh : Nat
  /-- R120: POINTS, X then Y, row-major. -/
  points : List (Int × Int)
  deriving DecidableEq, Repr

/-- R120: control point (i, j). -/
def Mesh.point (m : Mesh) (i j : Nat) : Int × Int := m.points.getD (j * m.gw + i) (0, 0)

/-- R126: the coefficients g, h and den of a projective cell with corners p0, p1, p2, p3. -/
def projCoeffs (p0 p1 p2 p3 : Int × Int) : Int × Int × Int :=
  let sx := p0.1 - p1.1 + p2.1 - p3.1
  let sy := p0.2 - p1.2 + p2.2 - p3.2
  let dx1 := p1.1 - p2.1
  let dx2 := p3.1 - p2.1
  let dy1 := p1.2 - p2.2
  let dy2 := p3.2 - p2.2
  (sx * dy2 - sy * dx2, dx1 * sy - dy1 * sx, dx1 * dy2 - dx2 * dy1)

/-- R126: the denominator d at (tx, ty). -/
def projD (c : Int × Int × Int) (tx ty : Int) : Int := c.1 * tx + c.2.1 * ty + c.2.2 * 65536

/-- R126: the corners p0 to p3 of cell (i, j). -/
def Mesh.corners (m : Mesh) (i j : Nat) : (Int × Int) × (Int × Int) × (Int × Int) × (Int × Int) :=
  (m.point i j, m.point (i + 1) j, m.point (i + 1) (j + 1), m.point i (j + 1))

/-- R126: the projective condition of cell (i, j). -/
def Mesh.cellOk (m : Mesh) (i j : Nat) : Bool :=
  let p := m.corners i j
  let c := projCoeffs p.1 p.2.1 p.2.2.1 p.2.2.2
  let d := [projD c 0 0, projD c 65536 0, projD c 0 65536, projD c 65536 65536]
  decide (c.2.2 ≠ 0) && (d.all (fun v => decide (0 < v)) || d.all (fun v => decide (v < 0)))

/-- R121: the mesh record at the start of the bytes, when it is valid. -/
def meshOf (b : Bytes) : Option Mesh :=
  let gw := fieldAt b 4 2
  let gh := fieldAt b 6 2
  let m : Mesh :=
    { gw := gw, gh := gh, cx := fieldAt b 8 1, cy := fieldAt b 9 1, proj := fieldAt b 10 1 == 1,
      dw := fieldAt b 12 2, dh := fieldAt b 14 2,
      points := (List.range (if gw ≤ 257 && gh ≤ 257 then gw * gh else 0)).map fun k =>
        (toSigned 32 (fieldAt b (16 + 8 * k) 4), toSigned 32 (fieldAt b (20 + 8 * k) 4)) }
  if fieldAt b 0 4 == 0x4853454D && gridOk gw gh m.cx m.cy m.dw m.dh && fieldAt b 10 1 ≤ 1 &&
      fieldAt b 11 1 == 0 && 16 + 8 * gw * gh ≤ b.length &&
      (!m.proj || (List.range (gw - 1)).all fun i => (List.range (gh - 1)).all fun j => m.cellOk i j)
  then some m else none

/-- R136: whether a lens record stands at the start of the bytes; its reserved bytes are ignored (R5). -/
def lensOk (b : Bytes) : Bool :=
  96 ≤ b.length && fieldAt b 0 4 == 0x534E454C && fieldAt b 4 1 ≤ 1 &&
  gridOk (fieldAt b 8 2) (fieldAt b 10 2) (fieldAt b 12 1) (fieldAt b 13 1) (fieldAt b 14 2) (fieldAt b 16 2)

/-! ## Align records (R149) -/

/-- R149: an entry of an align record. -/
structure AlignEntry where
  /-- R149: SENSOR_ID. -/
  sensor : Nat
  /-- R149: MODE is linear. -/
  linear : Bool
  /-- R149: REQUIRED. -/
  required : Bool
  /-- R149: OFFSET_NS. -/
  offset : Int
  /-- R149: SKEW_NS. -/
  skew : Nat
  deriving DecidableEq, Repr

/-- R149: the entries of the align record at the start of the bytes. -/
def alignEntries (b : Bytes) : List AlignEntry :=
  (List.range (fieldAt b 4 1)).map fun i =>
    let o := 8 + 24 * i
    { sensor := fieldAt b o 1, linear := fieldAt b (o + 1) 1 == 1, required := fieldAt b (o + 2) 1 == 1,
      offset := toSigned 64 (fieldAt b (o + 8) 8), skew := fieldAt b (o + 16) 8 }

/-- R149: whether an align record stands at the start of the bytes; its reserved bytes are ignored (R5). -/
def alignOk (b : Bytes) : Bool :=
  let n := fieldAt b 4 1
  fieldAt b 0 4 == 0x4E474C41 && 1 ≤ n && n ≤ 16 && 8 + 24 * n ≤ b.length &&
  ((List.range n).all fun i => fieldAt b (9 + 24 * i) 1 ≤ 1 && fieldAt b (10 + 24 * i) 1 ≤ 1) &&
  (match (alignEntries b).filter fun e => e.sensor == fieldAt b 5 1 with
   | [e] => !e.linear
   | _ => false)

/-! ## Stage parameters (R55, R101, R102, R132, R133, R138, R149, R171, R190, R196, R305, R316, R377) -/

/-- R102: the fields of W5 of a DECODE stage that accepts a video format. -/
def decodeVideoOk (w5 : Nat) (consts : Bytes) : Bool :=
  let x := bits w5 1 0
  let n := bits w5 15 8
  x ≤ 2 && bits w5 7 2 == 0 && 1 ≤ n && n ≤ 64 && (x ≠ 0 || n == 1) && (x ≠ 1 || 1 ≤ bits w5 31 16) &&
  (x ≠ 2 || (bits w5 63 32 % 8 == 0 && bits w5 63 32 + 8 * n ≤ consts.length))

/-- R101, R102: the parameters of a DECODE stage. -/
def decodeParamsOk (d : Desc) (consts : Bytes) : Bool :=
  let w := d.word 4
  d.inCount == 1 && bits w 6 0 ≠ 0 && !bit w 7 && bits w 9 8 ≤ 2 && bits w 15 11 == 0 &&
  bits w 47 32 ≤ 16384 && bits w 63 48 ≤ 16384 && d.word 6 == 0 &&
  (bits w 5 3 == 0 || decodeVideoOk (d.word 5) consts)

/-- R132, R133: the parameters of a GEOMETRY stage. -/
def geometryParamsOk (d : Desc) (consts : Bytes) : Bool :=
  let w := d.word 4
  let src := bits w 37 36
  let off := bits (d.word 5) 31 0
  let lo := bits (d.word 6) 16 0
  let hi := bits (d.word 6) 33 17
  1 ≤ bits w 15 0 && bits w 15 0 ≤ 16384 && 1 ≤ bits w 31 16 && bits w 31 16 ≤ 16384 &&
  bits w 33 32 ≤ 2 && bits w 35 34 ≤ 2 && bits w 47 40 == 0 && bits (d.word 5) 63 32 == 0 &&
  1 ≤ lo && lo ≤ 65536 && lo ≤ hi && hi ≤ 65536 && bits (d.word 6) 63 34 == 0 &&
  d.inCount == (if src == 2 then 2 else 1) &&
  (if src == 1 then off % 8 == 0 && (meshOf (consts.drop off)).isSome
   else if src == 3 then off % 8 == 0 && lensOk (consts.drop off)
   else off == 0)

/-- R138: the parameters of a COLOUR stage. -/
def colourParamsOk (d : Desc) (consts : Bytes) : Bool :=
  let w := d.word 4
  let off := bits w 31 0
  bits w 34 32 ≤ 3 && bits w 39 38 == 0 && 1 ≤ bits w 42 40 && bits w 42 40 ≤ 4 && bits w 63 43 == 0 &&
  d.word 5 == 0 && d.word 6 == 0 && d.inCount == 1 && off % 8 == 0 &&
  off + (if bit w 36 then 16480 else 96) ≤ consts.length

/-- R149: the parameters of an ALIGN stage; the reserved bits of W4 to W6 are ignored (R5). -/
def alignParamsOk (d : Desc) (consts : Bytes) : Bool :=
  1 ≤ d.inCount && d.inCount ≤ 8 && alignOk (consts.drop (bits (d.word 4) 31 0))

/-- R171: the parameters of a CODEC stage; PRED counts only when encoding rasters. -/
def codecParamsOk (d : Desc) : Bool :=
  let w := d.word 4
  d.inCount == 1 && (bit w 0 || bit w 4 || bits w 3 1 ≤ 4) && bits w 63 5 == 0 && d.word 5 == 0 && d.word 6 == 0

/-- R190: the parameters of a SCORE stage. (DEDUCED, log entry 162) -/
def scoreParamsOk (d : Desc) (ingest : Bool) (kernels : Nat) : Bool :=
  let w := d.word 4
  bits w 39 35 == 0 && bits w 63 59 == 0 && (!bit w 34 || ingest) && bits (d.word 5) 31 16 == 0 &&
  bits (d.word 5) 63 48 == 0 && bits (d.word 6) 63 32 == 0 && kernelIndex d < kernels && kernelMem d ≤ 20480

/-- R196: the parameters of a PACK stage. (DEDUCED, log entry 162) -/
def packParamsOk (d : Desc) : Bool :=
  let w := d.word 4
  bits w 31 0 % 128 == 0 && bits w 34 33 ≤ 2 && bits w 63 35 == 0 && d.word 5 == 0 && d.word 6 == 0

/-- R316, R377: the parameters of a DELIVER stage. (DEDUCED, log entry 162) -/
def deliverParamsOk (d : Desc) (ingest : Bool) : Bool :=
  let w := d.word 4
  let t := bits w 1 0
  d.word 5 == 0 && d.word 6 == 0 &&
  (match t with
   | 0 => !ingest && w == 0
   | 1 => !ingest && bits w 63 5 == 0
   | 2 => ingest && bits w 63 2 == 0
   | _ => false)

/-- R133: whether the output of stage i may be a record in the layout of R115: that of a DECODE or GEOMETRY stage, of a CODEC stage
that decodes, of a KERNEL, which writes what it likes, or of a SCORE stage that passes on such an input. -/
def givesRecord (ds : List Desc) : Nat → Nat → Bool
  | 0, _ => false
  | k + 1, i =>
    match ds[i]? with
    | none => false
    | some p =>
      p.type == tDecode || p.type == tGeometry || p.type == tKernel || (p.type == tCodec && bit (p.word 4) 0) ||
      (p.type == tScore && givesRecord ds k (p.pred 0))

/-- R27: the stage-parameter rules of the chapter of the stage's type. -/
def paramsOk (b consts : Bytes) (d : Desc) : Bool :=
  match d.type with
  | 0 => bits (d.word 4) 63 5 == 0 && d.word 5 == 0 && d.word 6 == 0
  | 1 => decodeParamsOk d consts
  | 2 => geometryParamsOk d consts && givesRecord (imgDescs b) 64 (d.pred 0)
  | 3 => colourParamsOk d consts
  | 5 => scoreParamsOk d (imgIngest b) (imgKernelCount b)
  | 6 => alignParamsOk d consts
  | 7 => codecParamsOk d
  | 8 => packParamsOk d
  | 9 => deliverParamsOk d (imgIngest b)
  | _ => true

/-! ## Graph rules (R31, R33) -/

/-- R31: the reserved fields and the ranges of a descriptor in place i. (DEDUCED, log entry 30) -/
def descOk (i : Nat) (d : Desc) : Bool :=
  bits (d.word 0) 7 6 == 0 && bits (d.word 0) 15 14 == 0 && bits (d.word 0) 23 22 == 0 &&
  bits (d.word 1) 63 48 == 0 && bits (d.word 3) 63 48 == 0 && d.word 7 == 0 && d.id == i &&
  d.type ≤ 9 && d.binding ≤ 2 && d.inCount ≤ 8 && d.outCount ≤ 8 && d.mem ≤ 20480 &&
  (d.type == tKernel || d.mem == 0) &&
  (d.type == tKernel || d.type == tAlign || d.type == tColour || d.step == 0)

/-- R33: the rules about one stage. -/
def stageGraphOk (b : Bytes) (ds : List Desc) (records : Nat) (d : Desc) : Bool :=
  d.preds.all (fun p => p < d.id) &&
  d.outCount == (succs ds d.id).length &&
  (d.inCount == 0) == (d.type == tFetch) &&
  (d.type == tDeliver) == (d.id + 1 == ds.length) &&
  (d.outCount == 0) == (d.type == tDeliver) &&
  (!(d.type == tFetch || d.type == tDeliver) || d.binding == 0) &&
  (if d.type == tKernel then d.object < imgKernelCount b
   else if d.type == tScore then d.object < imgModelCount b
   else d.object == 0xFFFF) &&
  (d.config < records || d.config == 0xFFFF) &&
  d.preds.all (fun p => decide ((ds.getD p ⟨[]⟩).outMax ≤ d.inMax)) &&
  d.preds.dedup.length == d.preds.length &&
  ((List.range 8).all fun j => j < d.inCount || d.pred j == 0)

/-- R33: the rules about the whole graph. -/
def graphOk (b : Bytes) (ds : List Desc) (records : Nat) : Bool :=
  ds.all (stageGraphOk b ds records) && !(ofType ds tFetch).isEmpty &&
  (if imgIngest b then (ofType ds tPack).isEmpty
   else match ofType ds tPack, ofType ds tDeliver with
     | [p], [d] => d.preds == [p.id]
     | _, _ => false) &&
  (imgScores b).length ≤ 16

/-! ## Section rules (R23, R25, R545) -/

/-- R23: the header field ranges and the reserved fields of the header. -/
def headerOk (b : Bytes) : Bool :=
  imgArith b ≤ 63 && fieldAt b 0xC 4 ≤ 1 && 1 ≤ imgStages b && imgStages b ≤ 64 && imgKernelCount b ≤ 64 &&
  imgModelCount b ≤ 16 && 2 ≤ imgSections b && imgSections b ≤ 6 && fieldAt b 0x60 32 == 0

/-- R25: the rules about entry i of the section table. -/
def sectionOk (b : Bytes) (i : Nat) : Bool :=
  let o := secField b i 4 4
  let n := secField b i 8 4
  let t := secField b i 0 2
  1 ≤ t && t ≤ 6 && secField b i 2 2 == 0 && secField b i 12 4 == 0 && o % 8 == 0 &&
  0x80 + 16 * imgSections b ≤ o && o + n ≤ imgLength b &&
  ((List.range i).all fun j =>
    secField b j 0 2 ≠ t && (o + n ≤ secField b j 4 4 || secField b j 4 4 + secField b j 8 4 ≤ o))

/-- R545: OFFSET and LENGTH of record i of an ENGINE_CONFIG section. (DEDUCED, log entry 31) -/
def recordAt (e : Bytes) (i : Nat) : Nat × Nat := (fieldAt e (8 + 8 * i) 4, fieldAt e (12 + 8 * i) 4)

/-- R545: the rules of an ENGINE_CONFIG section; its reserved bytes are ignored (R5). -/
def configOk (e : Bytes) : Bool :=
  let n := fieldAt e 0 4
  8 ≤ e.length && n ≤ 65534 &&
  (if n == 0 then e.length == 8
   else
    8 + 8 * n ≤ e.length &&
    ((List.range n).all fun i =>
      let r := recordAt e i
      r.1 % 8 == 0 && 8 + 8 * n ≤ r.1 && r.1 + r.2 ≤ e.length &&
      ((List.range i).all fun j =>
        let q := recordAt e j
        r.1 + r.2 ≤ q.1 || q.1 + q.2 ≤ r.1)) &&
    ((List.range n).any fun i => (recordAt e i).1 + (recordAt e i).2 == e.length))

/-- R25: the reserved fields of a model reference. -/
def modelOk (b : Bytes) (m : Nat) : Bool := fieldAt (imgModel b m) 68 4 == 0 && fieldAt (imgModel b m) 90 6 == 0

/-- R25, R55: the content of the sections. -/
def sectionsOk (b : Bytes) : Bool :=
  0x80 + 16 * imgSections b ≤ imgLength b &&
  ((List.range (imgSections b)).all (sectionOk b)) &&
  (secOf b 1).isSome && (secOf b 3).isSome &&
  ((secOf b 2).isSome == (imgKernelCount b ≠ 0)) && ((secOf b 4).isSome == (imgModelCount b ≠ 0)) &&
  (secBytes b 1).length == 64 * imgStages b && (secBytes b 4).length == 96 * imgModelCount b &&
  (match kernelsOf (imgKernelCount b) (secBytes b 2) with
   | some ks => ks.all fun k => k.length ≠ 0 && k.length % 8 == 0 && k.length ≤ 262144
   | none => false) &&
  configOk (secBytes b 3) && (List.range (imgModelCount b)).all (modelOk b)

/-- R27 step 6: everything the image's own bytes must meet. -/
def imageWellFormed (b : Bytes) : Bool :=
  headerOk b && sectionsOk b &&
  (List.range (imgStages b)).all (fun i => descOk i (imgDesc b i)) &&
  graphOk b (imgDescs b) (fieldAt (secBytes b 3) 0 4) &&
  (imgDescs b).all (paramsOk b (imgConsts b))

/-! ## Acceptance (R27) -/

/-- R23: the signed part. -/
def signedPart (b : Bytes) : Bytes := b.take (imgLength b)

/-- R26: the signature block. -/
def signatureOk (b : Bytes) (pubkey : Bytes) : Bool :=
  let g := b.drop (imgLength b)
  fieldAt g 0 2 == 0x0087 && fieldAt g 2 2 == 4627 && fieldAt g 4631 9 == 0 &&
  Config.dsaVerify pubkey (sha3_512 (signedPart b)) ((g.drop 4).take 4627)

/-- R450: the public key of tenant slot t. -/
def State.tenantKey (s : State) (t : Nat) : Bytes := leBytes 2592 (s.stored (oTenPubkey t))

/-- R27, R29: the slot that holds an image with a digest. -/
def State.slotWith (s : State) (digest : Bytes) : Option Nat :=
  (List.range 16).find? fun k => s.hasImage k && (s.image k).digest == digest

/-- R27: a free image slot. -/
def State.freeSlot (s : State) : Option Nat := (List.range 16).find? fun k => !s.hasImage k

/-- R27: the acceptance checks, in order: the slot that takes or already holds the image, or the status of the
first check that fails. -/
def State.acceptImage (s : State) (b : Bytes) : Except Nat Nat :=
  if fieldAt b 0 4 ≠ 0x4950424F || b.length < 32 || imgLength b < 128 || 2 ^ 26 < imgLength b ||
      b.length ≠ imgLength b + 4640 then .error stImageMalformed
  else
    let f := fieldAt b 4 2
    if !(f == Config.imageFormat || (f + 1 == Config.imageFormat && 1 ≤ f)) then .error stImageFormat
    else
      match s.tenantSlot (fieldAt b 8 4) with
      | none => .error stTenantKey
      | some t =>
        if sha3_512 (s.tenantKey t) ≠ (b.drop 0x20).take 64 then .error stTenantKey
        else if !signatureOk b (s.tenantKey t) then .error stImageSig
        else if !(imgArith b ≤ 63 && bit Config.arithRevs (imgArith b)) then .error stImageRev
        else if !imageWellFormed b then .error stImageMalformed
        else
          match s.slotWith (sha3_512 (signedPart b)) with
          | some k => .ok k
          | none =>
            match s.freeSlot with
            | some k => .ok k
            | none => .error stSlotsFull

/-- R27 to R29: loads an image whole or keeps no part of it. -/
def State.loadImage (s : State) (b : Bytes) : Except Nat (Nat × State) :=
  match s.acceptImage b with
  | .error e => .error e
  | .ok k =>
    let i : ImageSlot :=
      if s.hasImage k then { s.image k with loadStatus := stSuccess }
      else { image := b, digest := sha3_512 (signedPart b), loadStatus := stSuccess }
    .ok (k, { s with images := Tbl.set s.images k i })

end Sys2Proof.Machine
end

