-- ==== Sys2Proof/Machine/Float.lean ====
section
/-! DEFINITION. Floating-point arithmetic of arithmetic revision 1 (R75 to R83): every operation computes
exactly and is rounded once to nearest, ties to even. -/

namespace Sys2Proof.Machine

/-! ## Formats and values -/

/-- A floating-point format (R75): exponent and fraction widths, and whether the format has infinities
with overflow to them (BF16, FP16, FP32) or saturates (the two FP8 formats, R82). -/
structure Fmt where
  eb : Nat
  mb : Nat
  sat : Bool
  e4m3 : Bool
  deriving DecidableEq, Repr

def fmtE4M3 : Fmt := { eb := 4, mb := 3, sat := true, e4m3 := true }
def fmtE5M2 : Fmt := { eb := 5, mb := 2, sat := true, e4m3 := false }
def fmtBF16 : Fmt := { eb := 8, mb := 7, sat := false, e4m3 := false }
def fmtFP16 : Fmt := { eb := 5, mb := 10, sat := false, e4m3 := false }
def fmtFP32 : Fmt := { eb := 8, mb := 23, sat := false, e4m3 := false }
/-- binary64, used only by the write allowance (R481). -/
def fmtFP64 : Fmt := { eb := 11, mb := 52, sat := false, e4m3 := false }

/-- Exponent bias (R75). -/
def Fmt.bias (f : Fmt) : Nat := 2 ^ (f.eb - 1) - 1
/-- Exponent of the least subnormal. -/
def Fmt.emin (f : Fmt) : Int := 1 - (f.bias : Int) - f.mb
/-- The sign bit's weight. -/
def Fmt.sign (f : Fmt) : Nat := 2 ^ (f.eb + f.mb)
/-- The magnitude code of infinity in the IEEE form. -/
def Fmt.infCode (f : Fmt) : Nat := (2 ^ f.eb - 1) * 2 ^ f.mb
/-- The magnitude code of the largest finite value (R75). -/
def Fmt.maxCode (f : Fmt) : Nat := if f.e4m3 then 0x7E else f.infCode - 1
/-- The canonical NaN (R75). -/
def Fmt.nan (f : Fmt) : Nat := if f.e4m3 then 0x7F else f.infCode + 2 ^ (f.mb - 1)

/-- An exact value: NaN, an infinity, or `±m × 2^e`. -/
inductive FV where
  | nan
  | inf (neg : Bool)
  | fin (neg : Bool) (m : Nat) (e : Int)
  deriving DecidableEq, Repr

/-- The value of a code (R75, R77: subnormals keep their value). -/
def fpDecode (f : Fmt) (v : Nat) : FV :=
  let neg := v / f.sign % 2 = 1
  let ex := v / 2 ^ f.mb % 2 ^ f.eb
  let fr := v % 2 ^ f.mb
  if ex = 2 ^ f.eb - 1 ∧ ¬ f.e4m3 then (if fr = 0 then .inf neg else .nan)
  else if f.e4m3 ∧ ex = 15 ∧ fr = 7 then .nan
  else if ex = 0 then .fin neg fr f.emin
  else .fin neg (fr + 2 ^ f.mb) (f.emin + ex - 1)

/-- `n ÷ d` rounded to nearest, ties to even. -/
def rneDiv (n d : Nat) : Nat :=
  let q := n / d
  let r := n % d
  if 2 * r < d then q else if d < 2 * r then q + 1 else if q % 2 = 0 then q else q + 1

/-- The code of `±(n ÷ d) × 2^e` rounded once by RNE (R76), with overflow to infinity, or to the largest
finite value in a saturating format (R82). `d` is not zero. -/
def fpRound (f : Fmt) (neg : Bool) (n d : Nat) (e : Int) : Nat :=
  let s := if neg then f.sign else 0
  if n = 0 then s
  else
    -- floor of log2 (n / d)
    let l0 : Int := (n.log2 : Int) - d.log2
    let le : Bool := if 0 ≤ l0 then d * 2 ^ l0.toNat ≤ n else d ≤ n * 2 ^ (-l0).toNat
    let l : Int := if le then l0 else l0 - 1
    let qe : Int := max (l + e - f.mb) f.emin
    let sh : Int := e - qe
    let r := if 0 ≤ sh then rneDiv (n * 2 ^ sh.toNat) d else rneDiv n (d * 2 ^ (-sh).toNat)
    let code := (qe - f.emin).toNat * 2 ^ f.mb + r
    if f.sat then s + min code f.maxCode
    else if f.infCode ≤ code then s + f.infCode else s + code

/-- The code of an exact value (R76, R78, R82). -/
def fpEncode (f : Fmt) : FV → Nat
  | .nan => f.nan
  | .inf neg => (if neg then f.sign else 0) + (if f.sat then f.maxCode else f.infCode)
  | .fin neg m e => fpRound f neg m 1 e

/-! ## Exact operations -/

/-- The signed integer `±m × 2^(e - lo)`, for `lo ≤ e`. -/
def scaled (neg : Bool) (m : Nat) (e lo : Int) : Int :=
  let v : Int := (m * 2 ^ (e - lo).toNat : Nat)
  if neg then -v else v

/-- The opposite value. -/
def FV.negate : FV → FV
  | .nan => .nan
  | .inf s => .inf (!s)
  | .fin s m e => .fin (!s) m e

/-- The exact sum; an exact zero takes the IEEE sign under RNE. -/
def FV.add : FV → FV → FV
  | .nan, _ => .nan
  | _, .nan => .nan
  | .inf a, .inf b => if a = b then .inf a else .nan
  | .inf a, _ => .inf a
  | _, .inf b => .inf b
  | .fin a m e, .fin b n g =>
    let lo := min e g
    let t := scaled a m e lo + scaled b n g lo
    if t = 0 then .fin (a && b) 0 lo else .fin (decide (t < 0)) t.natAbs lo

/-- The exact product. -/
def FV.mul : FV → FV → FV
  | .nan, _ => .nan
  | _, .nan => .nan
  | .inf a, .inf b => .inf (a != b)
  | .inf a, .fin b n _ => if n = 0 then .nan else .inf (a != b)
  | .fin a m _, .inf b => if m = 0 then .nan else .inf (a != b)
  | .fin a m e, .fin b n g => .fin (a != b) (m * n) (e + g)

/-- Numbers compared: `a < b` with −0 equal to +0, and false with a NaN. -/
def FV.lt : FV → FV → Bool
  | .nan, _ => false
  | _, .nan => false
  | .inf a, .inf b => a && !b
  | .inf a, _ => a
  | _, .inf b => !b
  | .fin a m e, .fin b n g =>
    let lo := min e g
    decide (scaled a m e lo < scaled b n g lo)

/-- The sign of a value. -/
def FV.neg : FV → Bool
  | .nan => false
  | .inf s => s
  | .fin s _ _ => s

/-- minimumNumber of IEEE 754-2019 (R79). -/
def FV.minNum (a b : FV) : FV :=
  if a = .nan then b else if b = .nan then a
  else if a.lt b then a else if b.lt a then b else if a.neg then a else b

/-- maximumNumber of IEEE 754-2019 (R79). -/
def FV.maxNum (a b : FV) : FV :=
  if a = .nan then b else if b = .nan then a
  else if a.lt b then b else if b.lt a then a else if a.neg then b else a

/-! ## Rounded operations on codes -/

def fpAdd (f : Fmt) (a b : Nat) : Nat := fpEncode f ((fpDecode f a).add (fpDecode f b))
def fpSub (f : Fmt) (a b : Nat) : Nat := fpEncode f ((fpDecode f a).add (fpDecode f b).negate)
def fpMul (f : Fmt) (a b : Nat) : Nat := fpEncode f ((fpDecode f a).mul (fpDecode f b))
/-- Product and sum exact, one rounding (R80). -/
def fpFma (f : Fmt) (a b c : Nat) : Nat :=
  fpEncode f (((fpDecode f a).mul (fpDecode f b)).add (fpDecode f c))
def fpFms (f : Fmt) (a b c : Nat) : Nat :=
  fpEncode f (((fpDecode f a).mul (fpDecode f b)).add (fpDecode f c).negate)
def fpMin (f : Fmt) (a b : Nat) : Nat := fpEncode f ((fpDecode f a).minNum (fpDecode f b))
def fpMax (f : Fmt) (a b : Nat) : Nat := fpEncode f ((fpDecode f a).maxNum (fpDecode f b))
def fpLt (f : Fmt) (a b : Nat) : Bool := (fpDecode f a).lt (fpDecode f b)

/-- The correctly rounded quotient (R81). -/
def fpDiv (f : Fmt) (a b : Nat) : Nat :=
  match fpDecode f a, fpDecode f b with
  | .nan, _ => f.nan
  | _, .nan => f.nan
  | .inf _, .inf _ => f.nan
  | .inf s, y => fpEncode f (.inf (s != y.neg))
  | x, .inf t => if (x.neg != t) then f.sign else 0
  | .fin s m e, .fin t n g =>
    if n = 0 then (if m = 0 then f.nan else fpEncode f (.inf (s != t)))
    else fpRound f (s != t) m n (e - g)

/-- The code of `sqrt (m × 2^e)`, `e` even: the root is taken with enough bits below the last place that
one more bit, set when the root is inexact, decides the rounding. -/
def sqrtRound (f : Fmt) (m : Nat) (e : Int) : Nat :=
  let k := 2 * (f.mb + 4)
  let n := m * 2 ^ (2 * k)
  let r := n.sqrt
  let sticky := if r * r = n then 0 else 1
  fpRound f false (2 * r + sticky) 1 (e / 2 - k - 1)

/-- The correctly rounded square root (R81). -/
def fpSqrt (f : Fmt) (a : Nat) : Nat :=
  match fpDecode f a with
  | .nan => f.nan
  | .inf s => if s then f.nan else f.infCode
  | .fin s m e =>
    if m = 0 then a % (2 * f.sign)
    else if s then f.nan
    else if e % 2 = 0 then sqrtRound f m e else sqrtRound f (2 * m) (e - 1)

/-! ### 2^x, log2 and atan

The results are irrational but for the exact cases, which are taken first. The irrational ones are
computed to far more bits than any binary32 result needs to decide its rounding. -/

/-- Fraction bits of the working precision. -/
def wp : Nat := 400

/-- `2^(2^-i)` in `wp` fraction bits, rounded down: `i` square roots of 2. -/
def exp2Root : Nat → Nat
  | 0 => 2 * 2 ^ wp
  | i + 1 => (exp2Root i * 2 ^ wp).sqrt

/-- `2^(0.b1 b2 … bn)` in `wp` fraction bits, where `v` holds the `n` bits, b1 highest. -/
def exp2Frac (v : Nat) : Nat → Nat → Nat → Nat
  | 0, _, acc => acc
  | n + 1, i, acc =>
    exp2Frac v n (i + 1) (if v.testBit n then acc * exp2Root i / 2 ^ wp else acc)

/-- The correctly rounded 2^x (R81). (DESIGN CHOICE, log entry 35) -/
def fpExp2 (f : Fmt) (a : Nat) : Nat :=
  match fpDecode f a with
  | .nan => f.nan
  | .inf s => if s then 0 else f.infCode
  | .fin s m e =>
    if m = 0 then fpRound f false 1 1 0
    else if 20 ≤ e + m.log2 then (if s then 0 else f.infCode)
    else if e + m.log2 < -60 then
      -- |x| < 2^-59: the result rounds to 1
      fpRound f false 1 1 0
    else
      -- x = fix × 2^-fb, exactly
      let fb := (-(min e 0)).toNat
      let fix : Int := if s then -((m * 2 ^ (e + fb).toNat : Nat) : Int) else ((m * 2 ^ (e + fb).toNat : Nat) : Int)
      let ip := fix / (2 ^ fb : Nat)
      let fr := (fix % (2 ^ fb : Nat)).toNat
      if fr = 0 then fpRound f false 1 1 ip
      else fpRound f false (2 * exp2Frac fr fb 1 (2 ^ wp) + 1) 1 (ip - wp - 1)

/-- `n` bits of `log2 (x ÷ 2^wp)` for x from 2^wp to 2^(wp+1), by repeated squaring. -/
def log2Bits : Nat → Nat → Nat → Nat
  | 0, _, acc => acc
  | n + 1, x, acc =>
    let y := x * x / 2 ^ wp
    if 2 * 2 ^ wp ≤ y then log2Bits n (y / 2) (2 * acc + 1) else log2Bits n y (2 * acc)

/-- The correctly rounded base-2 logarithm (R81). -/
def fpLog2 (f : Fmt) (a : Nat) : Nat :=
  match fpDecode f a with
  | .nan => f.nan
  | .inf s => if s then f.nan else f.infCode
  | .fin s m e =>
    if m = 0 then fpEncode f (.inf true)
    else if s then f.nan
    else
      let l := m.log2
      let ip : Int := e + l
      if m = 2 ^ l then fpRound f (decide (ip < 0)) ip.natAbs 1 0
      else
        -- 150 fraction bits, and one more that marks the value as inexact
        let fr := log2Bits 150 (m * 2 ^ (wp - l)) 0
        let t : Int := 2 * (ip * (2 ^ 150 : Nat) + fr) + 1
        fpRound f (decide (t < 0)) t.natAbs 1 (-151)

/-- One Taylor term of atan after another: `x` and `x2` have `wp` fraction bits, `k` is odd. -/
def atanSeries (x2 : Nat) : Nat → Nat → Nat → Bool → Int → Int
  | 0, _, _, _, acc => acc
  | n + 1, p, k, neg, acc =>
    let t : Int := (p / k : Nat)
    atanSeries x2 n (p * x2 / 2 ^ wp) (k + 2) (!neg) (if neg then acc - t else acc + t)

/-- atan of a small `x` in `wp` fraction bits. -/
def atanSmall (x : Nat) : Nat := (atanSeries (x * x / 2 ^ wp) 120 x 1 false 0).toNat

/-- `x ÷ (1 + sqrt (1 + x²))`: the tangent of half the angle. -/
def tanHalf (x : Nat) : Nat :=
  let one := 2 ^ wp
  x * one / (one + (one * one + x * x).sqrt)

/-- π in `wp` fraction bits, by Machin's formula. -/
def piFix : Nat := 16 * atanSmall (2 ^ wp / 5) - 4 * atanSmall (2 ^ wp / 239)

/-- atan of `x` from 0 to 1, in `wp` fraction bits. -/
def atanUnit (x : Nat) : Nat := 8 * atanSmall (tanHalf (tanHalf (tanHalf x)))

/-- The correctly rounded arc tangent of a number that is not negative (R137). -/
def fpAtan (f : Fmt) (a : Nat) : Nat :=
  match fpDecode f a with
  | .nan => f.nan
  | .inf s => fpRound f s piFix 1 (-(wp : Int) - 1)
  | .fin s m e =>
    if m = 0 then a % (2 * f.sign)
    else
      let t : Int := e + m.log2
      if t < -100 then
        -- atan x = x - x³/3 + …: just below x
        fpRound f s (m * 2 ^ 200 - 1) 1 (e - 200)
      else if t < 0 then
        fpRound f s (2 * atanUnit (if 0 ≤ e + wp then m * 2 ^ (e + wp).toNat else m / 2 ^ (-(e + wp)).toNat) + 1) 1 (-(wp : Int) - 1)
      else if m = 2 ^ m.log2 ∧ t = 0 then fpRound f s piFix 1 (-(wp : Int) - 2)
      else
        let inv := if 0 ≤ e then 2 ^ wp / (m * 2 ^ e.toNat) else 2 ^ (wp + (-e).toNat) / m
        fpRound f s (2 * (piFix / 2 - atanUnit inv) + 1) 1 (-(wp : Int) - 1)

/-! ## Conversions -/

/-- The greatest integer not above `m × 2^e`, and whether that is exact, with twice the remainder compared
to one half by the caller through `rneDiv`. -/
def magnitudeRne (m : Nat) (e : Int) : Nat :=
  if 0 ≤ e then m * 2 ^ e.toNat else rneDiv m (2 ^ (-e).toNat)

/-- The magnitude cut toward zero. -/
def magnitudeTrunc (m : Nat) (e : Int) : Nat :=
  if 0 ≤ e then m * 2 ^ e.toNat else m / 2 ^ (-e).toNat

/-- An integer held to a range. -/
def clampInt (lo hi i : Int) : Int := if i < lo then lo else if hi < i then hi else i

/-- Floating point to an integer in `lo … hi`: RNE or toward zero, saturating; a NaN gives 0 (R83). -/
def fvToInt (trunc : Bool) (lo hi : Int) : FV → Int
  | .nan => 0
  | .inf s => if s then lo else hi
  | .fin s m e =>
    let a : Int := ((if trunc then magnitudeTrunc m e else magnitudeRne m e : Nat) : Int)
    clampInt lo hi (if s then -a else a)

/-- An integer as an exact value. -/
def intFV (i : Int) : FV := .fin (decide (i < 0)) i.natAbs 0

/-- The code of an integer, rounded by RNE (R83). -/
def intToFp (f : Fmt) (i : Int) : Nat := fpEncode f (intFV i)

/-- The saturating range of a signed integer type of `w` bits. -/
def sMin (w : Nat) : Int := -(2 ^ (w - 1) : Nat)
def sMax (w : Nat) : Int := (2 ^ (w - 1) : Nat) - 1

/-- The exact FP32 value (u >> 8) × 2^−24 of R146. -/
def unitF32 (u : Nat) : Nat := fpRound fmtFP32 false (u / 256) 1 (-24)

end Sys2Proof.Machine
end

