-- ==== Sys2Proof/Machine/Operands.lean ====
section
/-! DEFINITION. The operand forms of the kernels: fields of an instruction word (R65 to R68), element types (R69),
registers (R58, R60), predication (R71), and the address windows with their access checks (R61 to R63). -/

namespace Sys2Proof.Machine

/-! ## Fields of an instruction word -/

/-- R66: CLASS. -/
def iClass (w : Nat) : Nat := bits w 63 60
/-- R66: OP. -/
def iOp (w : Nat) : Nat := bits w 59 52
/-- R66: PRED. -/
def iPred (w : Nat) : Nat := bits w 51 49
/-- R66: ETYPE. -/
def iEtype (w : Nat) : Nat := bits w 48 46
/-- R66: PZ. -/
def iPz (w : Nat) : Bool := bit w 45
/-- R66: DST. -/
def iDst (w : Nat) : Nat := bits w 44 40
/-- R66: SRCA. -/
def iSrcA (w : Nat) : Nat := bits w 39 35
/-- R66: SRCB. -/
def iSrcB (w : Nat) : Nat := bits w 34 30
/-- R66: SRCC. -/
def iSrcC (w : Nat) : Nat := bits w 29 25
/-- R66: IMM25. -/
def iImm25 (w : Nat) : Nat := bits w 24 0
/-- R67: IMM35, sign-extended. -/
def iImm35 (w : Nat) : Int := toSigned 35 (bits w 34 0)
/-- R68: OFFSET. -/
def iOffset (w : Nat) : Int := toSigned 30 (bits w 29 0)

/-- R65, R66: PRED, ETYPE and PZ are 0. -/
def noVector (w : Nat) : Bool := bits w 51 45 == 0
/-- R65, R66: in format V outside VFMA, SRCC is 0 and IMM25 has no bit at or above `n`. -/
def immOk (w n : Nat) : Bool := iSrcC w == 0 && iImm25 w < 2 ^ n
/-- R68: the reserved field of format B is 0. -/
def branchOk (w : Nat) : Bool := bits w 51 40 == 0

/-- R65: the (CLASS, OP) pairs that the classes define, those of VMAX, VLOG2 and the reduction by VMIN apart. -/
def knownOps : List (Nat × Nat) :=
  [(0, 0x00), (0, 0x02), (0, 0x05), (0, 0x0C), (1, 0x00), (2, 0x00), (2, 0x01), (2, 0x03), (2, 0x05), (2, 0x06),
   (3, 0x03), (3, 0x13), (4, 0x00), (4, 0x02), (4, 0x03), (4, 0x04), (4, 0x06), (4, 0x07), (4, 0x10), (4, 0x20),
   (5, 0x01), (5, 0x02), (6, 0x00), (6, 0x01), (7, 0x00), (7, 0x01), (7, 0x03), (8, 0x00), (8, 0x01), (9, 0x00),
   (9, 0x01), (10, 0x01), (10, 0x13), (11, 0x00), (11, 0x01), (12, 0x00), (12, 0x01), (12, 0x02), (12, 0x03)]

/-- R65: whether a word's class defines its OP. (DEDUCED, log entry 20) -/
def opDefined (w : Nat) : Bool :=
  knownOps.contains (iClass w, iOp w) ||
  (iClass w == 4 && (iOp w == Config.opVmax.toNat || iOp w == Config.opVlog2.toNat)) ||
  (iClass w == 7 && iOp w == Config.opVredmin.toNat)

/-! ## Element types (R69) -/

/-- R69: element width in bits. -/
def eBits (e : Nat) : Nat :=
  match e with
  | 0 => 8
  | 1 => 16
  | 2 => 32
  | 3 => 8
  | 4 => 8
  | 5 => 16
  | 6 => 16
  | _ => 32
/-- R69: element width in bytes. -/
def eBytes (e : Nat) : Nat := eBits e / 8
/-- R69: elements of a vector register. -/
def eCount (e : Nat) : Nat := 1024 / eBits e
/-- R69: an integer type. -/
def eInt (e : Nat) : Bool := e ≤ 2
/-- R69: an FP8 type. -/
def eFp8 (e : Nat) : Bool := e == 3 || e == 4
/-- R75: the format of a floating-point type. -/
def eFmt (e : Nat) : Fmt :=
  match e with
  | 3 => fmtE4M3
  | 4 => fmtE5M2
  | 5 => fmtBF16
  | 6 => fmtFP16
  | _ => fmtFP32

/-- R70: integer, BF16, FP16 and FP32. -/
def notFp8 (e : Nat) : Bool := !eFp8 e
/-- R70: BF16, FP16 and FP32. -/
def wideFp (e : Nat) : Bool := 5 ≤ e
/-- R70: FP16 and FP32. -/
def ieeeFp (e : Nat) : Bool := 6 ≤ e

/-! ## Registers -/

/-- R58: X[r]; X0 reads zero. -/
def Core.xr (x : Core) (r : Nat) : Word := if r = 0 then 0 else Tbl.get x.x 0 r
/-- R58: X[r] as a number. -/
def Core.xn (x : Core) (r : Nat) : Nat := (x.xr r).toNat
/-- R58: writes X[r]; a write of X0 is ignored. -/
def Core.setX (x : Core) (r : Nat) (v : Word) : Core := if r = 0 then x else { x with x := Tbl.set x.x r v }
/-- R58: writes X[r] with a number modulo 2^64. -/
def Core.setXn (x : Core) (r v : Nat) : Core := x.setX r (BitVec.ofNat 64 v)
/-- R58: V[r] as a number. -/
def Core.vr (x : Core) (r : Nat) : Nat := (Tbl.get x.v 0 r).toNat
/-- R58: writes V[r]. -/
def Core.setV (x : Core) (r v : Nat) : Core := { x with v := Tbl.set x.v r (BitVec.ofNat 1024 v) }
/-- R58: P[r]; P0 has every bit set. -/
def Core.pr (x : Core) (r : Nat) : Nat := if r = 0 then 2 ^ 128 - 1 else (Tbl.get x.p 0 r).toNat
/-- R58: writes P[r]; a write of P0 is ignored. -/
def Core.setP (x : Core) (r v : Nat) : Core :=
  if r = 0 then x else { x with p := Tbl.set x.p r (BitVec.ofNat 128 v) }
/-- R68: the instruction is retired and the next one follows. -/
def Core.advance (x : Core) : Core := { x with pc := x.pc + 1, steps := x.steps + 1 }
/-- R68: the instruction is retired and the one at the target follows. -/
def Core.goto (x : Core) (t : Nat) : Core := { x with pc := t, steps := x.steps + 1 }

/-- R60: element i of width b of a register. -/
def elem (v b i : Nat) : Nat := v / 2 ^ (b * i) % 2 ^ b
/-- R60: the elements of a register. -/
def elems (v b n : Nat) : List Nat := (List.range n).map (elem v b)
/-- R60: a register from its elements. -/
def packElems (b : Nat) : List Nat → Nat
  | [] => 0
  | e :: es => e % 2 ^ b + 2 ^ b * packElems b es

/-- R71: element i of a destination: the new value where the predicate is set, else zero or the old value. -/
def predicated (p : Nat) (pz : Bool) (old : Nat → Nat) (new : Nat → Nat) (i : Nat) : Nat :=
  if p.testBit i then new i else if pz then 0 else old i

/-- R71: writes the elements of V[DST] that the predicate selects. -/
def Core.writeElems (x : Core) (w : Nat) (b n : Nat) (new : Nat → Nat) : Core :=
  let old := x.vr (iDst w)
  x.setV (iDst w) (packElems b ((List.range n).map (predicated (x.pr (iPred w)) (iPz w) (elem old b) new)))

/-! ## Windows (R61 to R63) -/

/-- R61: where an address range lies. -/
inductive Window
  | scratch | input (i : Nat) | output | consts | weights | unmapped
  deriving DecidableEq, Repr

/-- R62: a length rounded up to a multiple of 128. -/
def up128 (n : Nat) : Nat := roundUp n 128

/-- R61, R191: the window that holds the `n` bytes at an address. -/
def Core.window (x : Core) (a n : Nat) : Window :=
  let page := a / 2 ^ 32
  let o := a % 2 ^ 32
  if a + n ≤ 20 * 2 ^ 20 then .scratch
  else if 1 ≤ page && page ≤ x.inputs.length then
    (if o + n ≤ up128 (x.inputs.getD (page - 1) []).length then .input (page - 1) else .unmapped)
  else if page = 9 then (if o + n ≤ x.outMax then .output else .unmapped)
  else if page = 0xA then (if o + n ≤ up128 x.consts.length then .consts else .unmapped)
  else if page = 0xB then
    (match x.weights with
     | some b => if o + n ≤ up128 b.length then .weights else .unmapped
     | none => .unmapped)
  else .unmapped

/-- R63: what an access of `n` bytes with elements of `size` bytes meets: 0 none, 1 KERNEL_FAULT,
2 KERNEL_MEMORY_LIMIT. -/
def Core.access (x : Core) (write : Bool) (a n size : Nat) : Nat :=
  if a % size ≠ 0 then 1
  else
    match x.window a n with
    | .unmapped => 1
    | .scratch => if a + n ≤ x.memLimit * 1024 then 0 else 2
    | .output => 0
    | _ => if write then 1 else 0

/-- R62: bytes read; beyond the data's length they are zero. -/
def Core.load (x : Core) (a n : Nat) : Bytes :=
  match x.window a n with
  | .scratch => x.scratch.readN a n
  | .input i => sliceZ (x.inputs.getD i []) (a % 2 ^ 32) n
  | .output => x.output.readN (a % 2 ^ 32) n
  | .consts => sliceZ x.consts (a % 2 ^ 32) n
  | .weights => sliceZ (x.weights.getD []) (a % 2 ^ 32) n
  | .unmapped => zeros n

/-- R61: bytes stored to the scratch or the output window. -/
def Core.save (x : Core) (a : Nat) (b : Bytes) : Core :=
  match x.window a b.length with
  | .scratch => { x with scratch := x.scratch.writeN a b }
  | .output => { x with output := x.output.writeN (a % 2 ^ 32) b }
  | _ => x

/-- R97: the first of KERNEL_FAULT and KERNEL_MEMORY_LIMIT among the codes of several accesses. -/
def worstAccess (l : List Nat) : Nat := if l.contains 1 then 1 else if l.contains 2 then 2 else 0

/-- R67: the address X[SRCA] + IMM35 modulo 2^64. -/
def Core.addr (x : Core) (w : Nat) : Nat := (x.xr (iSrcA w) + BitVec.ofInt 64 (iImm35 w)).toNat

end Sys2Proof.Machine
end

