-- ==== Sys2Proof/Machine/KernelOps.lean ====
section
/-! DEFINITION. What each kernel instruction does to its core (R65 to R97), as a function of the core and the
instruction word. Machine/Kernel.lean fetches the word, applies the step limit and ends the job. -/

namespace Sys2Proof.Machine

/-- R95 to R97: how an instruction leaves its core. -/
inductive KOut
  /-- The instruction is retired. -/
  | next (x : Core)
  /-- R89, R93: it waits; the core does not change. -/
  | wait
  /-- R97: it ends the job with a status. -/
  | stop (status : Nat)
  /-- R95: HALT with a status and an output length. -/
  | halt (status len : Nat)
  deriving DecidableEq, Repr

/-- R65: KERNEL_FAULT. -/
def kFault : KOut := .stop 0x0207

/-- R65: an instruction whose encoding breaks its format ends the job. -/
def kIf (ok : Bool) (f : KOut) : KOut := if ok then f else kFault

/-- R63, R97: an instruction whose accesses meet a code; on 0 it goes on. -/
def kAccess (code : Nat) (f : KOut) : KOut :=
  match code with
  | 0 => f
  | 1 => kFault
  | _ => .stop 0x0206

/-! ## Scalar (R65 to R70) -/

/-- R66: format V without vector fields and without SRCC and IMM25. -/
def saluOk (w : Nat) : Bool := noVector w && immOk w 0

/-- R65: a scalar operation on X[SRCA] and X[SRCB]. -/
def kScalar (f : Word → Word → Word) (x : Core) (w : Nat) : KOut :=
  kIf (saluOk w) (.next ((x.setX (iDst w) (f (x.xr (iSrcA w)) (x.xr (iSrcB w)))).advance))

/-- R65: ADD. -/
def kAdd (x : Core) (w : Nat) : KOut := kScalar (fun a b => a + b) x w
/-- R65: MUL. -/
def kMul (x : Core) (w : Nat) : KOut := kScalar (fun a b => a * b) x w
/-- R70: DIVS: truncated toward zero; by zero it is 0, and the most negative value by −1 is itself. -/
def kDivs (x : Core) (w : Nat) : KOut := kScalar (fun a b => if b = 0 then 0 else a.sdiv b) x w
/-- R65: SAR. -/
def kSar (x : Core) (w : Nat) : KOut := kScalar (fun a b => a.sshiftRight (b.toNat % 64)) x w
/-- R67: ADDI. -/
def kAddi (x : Core) (w : Nat) : KOut :=
  kIf (noVector w) (.next ((x.setX (iDst w) (x.xr (iSrcA w) + BitVec.ofInt 64 (iImm35 w))).advance))

/-! ## Branches (R68) -/

/-- R68: a jump to an instruction index; a target outside the kernel is a fault. -/
def kJump (x : Core) (t : Int) : KOut :=
  if 0 ≤ t ∧ t < (x.kernel.length : Int) then .next (x.goto t.toNat) else kFault

/-- R68: the target PC + OFFSET. -/
def kTarget (x : Core) (w : Nat) : Int := (x.pc : Int) + iOffset w

/-- R68: a conditional branch. -/
def kBranch (c : Word → Word → Bool) (x : Core) (w : Nat) : KOut :=
  kIf (branchOk w)
    (if c (x.xr (iSrcA w)) (x.xr (iSrcB w)) then kJump x (kTarget x w) else .next x.advance)

/-- R68: J. -/
def kJ (x : Core) (w : Nat) : KOut := kIf (branchOk w) (kJump x (kTarget x w))
/-- R68: BEQ. -/
def kBeq (x : Core) (w : Nat) : KOut := kBranch (fun a b => a == b) x w
/-- R68: BLT. -/
def kBlt (x : Core) (w : Nat) : KOut := kBranch (fun a b => a.slt b) x w
/-- R68: JAL. -/
def kJal (x : Core) (w : Nat) : KOut := kIf (branchOk w) (kJump (x.setXn 31 (x.pc + 1)) (kTarget x w))
/-- R68: JR. -/
def kJr (x : Core) (w : Nat) : KOut := kIf (branchOk w) (kJump x (x.xn (iSrcA w)))

/-! ## The tile matrix unit (R89 to R93) -/

/-- R90: a descriptor read from its 64 bytes. -/
structure TmuDesc where
  /-- R90: W0 to W7. -/
  w : List Nat
  deriving DecidableEq, Repr

/-- R90: word i. -/
def TmuDesc.word (d : TmuDesc) (i : Nat) : Nat := d.w.getD i 0
/-- R90: the descriptor in 64 bytes. -/
def tmuDesc (b : Bytes) : TmuDesc := { w := (List.range 8).map fun i => fieldAt b (8 * i) 8 }
/-- R90: A_TYPE. -/
def TmuDesc.aType (d : TmuDesc) : Nat := bits (d.word 0) 10 8
/-- R90: B_TYPE. -/
def TmuDesc.bType (d : TmuDesc) : Nat := bits (d.word 0) 13 11
/-- R90: C_TYPE. -/
def TmuDesc.cType (d : TmuDesc) : Nat := bits (d.word 0) 16 14
/-- R90: D_TYPE. -/
def TmuDesc.dType (d : TmuDesc) : Nat := bits (d.word 0) 19 17
/-- R90: ACCUMULATE. -/
def TmuDesc.acc (d : TmuDesc) : Bool := bit (d.word 0) 20
/-- R90: TRANS_A. -/
def TmuDesc.transA (d : TmuDesc) : Bool := bit (d.word 0) 21
/-- R90: TRANS_B. -/
def TmuDesc.transB (d : TmuDesc) : Bool := bit (d.word 0) 22
/-- R90: SCALE_EN. -/
def TmuDesc.scaleEn (d : TmuDesc) : Bool := bit (d.word 0) 23
/-- R90: SCALE. -/
def TmuDesc.scale (d : TmuDesc) : Nat := bits (d.word 0) 63 32
/-- R90: M. -/
def TmuDesc.m (d : TmuDesc) : Nat := bits (d.word 1) 15 0
/-- R90: N. -/
def TmuDesc.n (d : TmuDesc) : Nat := bits (d.word 1) 31 16
/-- R90: K. -/
def TmuDesc.k (d : TmuDesc) : Nat := bits (d.word 1) 63 32

/-- R90: an operand as stored: first address, rows, elements of a row, stride and element type. -/
structure TmuOperand where
  /-- R90: address. -/
  addr : Nat
  /-- R90: rows as stored. -/
  rows : Nat
  /-- R90: elements of a row as stored. -/
  cols : Nat
  /-- R90: bytes between rows. -/
  stride : Nat
  /-- R90: element type. -/
  type : Nat
  deriving DecidableEq, Repr

/-- R90: operand A. -/
def TmuDesc.opA (d : TmuDesc) : TmuOperand :=
  { addr := bits (d.word 2) 47 0, rows := if d.transA then d.k else d.m, cols := if d.transA then d.m else d.k,
    stride := bits (d.word 6) 31 0, type := d.aType }
/-- R90: operand B. -/
def TmuDesc.opB (d : TmuDesc) : TmuOperand :=
  { addr := bits (d.word 3) 47 0, rows := if d.transB then d.n else d.k, cols := if d.transB then d.k else d.n,
    stride := bits (d.word 6) 63 32, type := d.bType }
/-- R90: operand C. -/
def TmuDesc.opC (d : TmuDesc) : TmuOperand :=
  { addr := bits (d.word 4) 47 0, rows := d.m, cols := d.n, stride := bits (d.word 7) 31 0, type := d.cType }
/-- R90: operand D. -/
def TmuDesc.opD (d : TmuDesc) : TmuOperand :=
  { addr := bits (d.word 5) 47 0, rows := d.m, cols := d.n, stride := bits (d.word 7) 63 32, type := d.dType }

/-- R90: the address of row r of an operand. -/
def TmuOperand.row (o : TmuOperand) (r : Nat) : Nat := o.addr + r * o.stride
/-- R90: the bytes of a row of an operand. -/
def TmuOperand.rowBytes (o : TmuOperand) : Nat := o.cols * eBytes o.type

/-- R91: the access code of a whole operand. -/
def TmuOperand.check (o : TmuOperand) (write : Bool) (x : Core) : Nat :=
  worstAccess ((List.range o.rows).map fun r => x.access write (o.row r) o.rowBytes (eBytes o.type))

/-- R90, R91: the fields of a descriptor. -/
def TmuDesc.fieldsOk (d : TmuDesc) : Bool :=
  let a := d.aType
  let b := d.bType
  bits (d.word 0) 7 0 == 1 && bits (d.word 0) 31 24 == 0 &&
  ((eFp8 a && eFp8 b) || (a == 5 && b == 5) || (a == 6 && b == 6) || (a == 0 && b == 0)) &&
  d.cType == (if a == 0 then 2 else 7) && 2 ≤ d.dType &&
  1 ≤ d.m && d.m ≤ 4096 && 1 ≤ d.n && d.n ≤ 4096 && 1 ≤ d.k && d.k ≤ 65536 &&
  bits (d.word 2) 63 48 == 0 && bits (d.word 3) 63 48 == 0 && bits (d.word 4) 63 48 == 0 &&
  bits (d.word 5) 63 48 == 0

/-- R91: the access code of a descriptor's operands. -/
def TmuDesc.check (d : TmuDesc) (x : Core) : Nat :=
  worstAccess [d.opA.check false x, d.opB.check false x, if d.acc then d.opC.check false x else 0,
    d.opD.check true x]

/-- R93: whether an operand overlaps the `n` bytes at an address. -/
def TmuOperand.overlaps (o : TmuOperand) (a n : Nat) : Bool :=
  (List.range o.rows).any fun r => decide (o.row r < a + n) && decide (a < o.row r + o.rowBytes)

/-- R93: whether an access waits for one of the outstanding descriptors; loads from A, B or C do not. -/
def Core.blocked (x : Core) (write : Bool) (a n : Nat) : Bool :=
  x.tmu.any fun j =>
    let d := tmuDesc j.desc
    d.opD.overlaps a n ||
    (write && (d.opA.overlaps a n || d.opB.overlaps a n || (d.acc && d.opC.overlaps a n)))

/-- R62: element (r, c) of an operand as stored. -/
def TmuOperand.get (o : TmuOperand) (x : Core) (r c : Nat) : Nat :=
  leNat (x.load (o.row r + c * eBytes o.type) (eBytes o.type))

/-- R92: a[i][k]. -/
def TmuDesc.a (d : TmuDesc) (x : Core) (i k : Nat) : Nat := if d.transA then d.opA.get x k i else d.opA.get x i k
/-- R92: b[k][j]. -/
def TmuDesc.b (d : TmuDesc) (x : Core) (k j : Nat) : Nat := if d.transB then d.opB.get x j k else d.opB.get x k j

/-- R92: the exact sum of the products of one group of at most 16 values of k. -/
def TmuDesc.group (d : TmuDesc) (x : Core) (i j g : Nat) : FV :=
  (List.range (min 16 (d.k - 16 * g))).foldl (fun s t =>
    let k := 16 * g + t
    s.add ((fpDecode (eFmt d.aType) (d.a x i k)).mul (fpDecode (eFmt d.bType) (d.b x k j)))) (.fin false 0 0)

/-- R92: one element for floating-point inputs, an FP32 code before the conversion to D. -/
def TmuDesc.fpElem (d : TmuDesc) (x : Core) (i j : Nat) : Nat :=
  let acc0 := if d.acc then d.opC.get x i j else fmtFP32.sign
  let acc := (List.range (ceilDiv d.k 16)).foldl (fun a g => fpAdd fmtFP32 a (fpEncode fmtFP32 (d.group x i j g))) acc0
  if d.scaleEn then fpMul fmtFP32 acc d.scale else acc

/-- R92: one sum for INT8 inputs, modulo 2^32. -/
def TmuDesc.intSum (d : TmuDesc) (x : Core) (i j : Nat) : Int :=
  let acc0 : Int := if d.acc then toSigned 32 (d.opC.get x i j) else 0
  let t := (List.range d.k).foldl (fun (a : Int) k => a + toSigned 8 (d.a x i k) * toSigned 8 (d.b x k j)) acc0
  toSigned 32 (ofSigned 32 t)

/-- R82, R83: an FP32 code converted to a type. -/
def convFromF32 (t v : Nat) : Nat :=
  if eInt t then ofSigned (eBits t) (fvToInt false (sMin (eBits t)) (sMax (eBits t)) (fpDecode fmtFP32 v))
  else fpEncode (eFmt t) (fpDecode fmtFP32 v)

/-- R82, R83: an integer converted to a type; an integer target wraps. -/
def convFromInt (t : Nat) (v : Int) : Nat := if eInt t then ofSigned (eBits t) v else intToFp (eFmt t) v

/-- R92: element (i, j) of D. A scaled INT8 sum is taken exactly and rounded to FP32 once. -/
def TmuDesc.elem (d : TmuDesc) (x : Core) (i j : Nat) : Nat :=
  if d.aType == 0 then
    let s := d.intSum x i j
    if d.scaleEn then convFromF32 d.dType (fpEncode fmtFP32 ((intFV s).mul (fpDecode fmtFP32 d.scale))) else convFromInt d.dType s
  else convFromF32 d.dType (d.fpElem x i j)

/-- R92: the core with D written, every element computed from the operands as they stood. -/
def TmuDesc.run (d : TmuDesc) (x : Core) : Core :=
  (List.range d.m).foldl (fun y i =>
    y.save (d.opD.row i) ((List.range d.n).flatMap fun j => leBytes (eBytes d.dType) (d.elem x i j))) x

/-- R89 to R91, R93: TISSUE: it waits for an outstanding descriptor of its tag, and for one whose D holds bytes of the
descriptor, and only then judges what the descriptor says. (DESIGN CHOICE, log entry 147) -/
def kTissue (x : Core) (w : Nat) : KOut :=
  kIf (noVector w && immOk w 2)
    (let a := x.xn (iSrcA w)
     if x.tmu.any fun j => j.tag == iImm25 w then .wait
     else
       kAccess (x.access false a 64 8)
         (if x.blocked false a 64 then .wait
          else
            let d := tmuDesc (x.load a 64)
            kIf d.fieldsOk
              (kAccess (d.check x)
                (KOut.next ({ x with tmu := x.tmu ++ [{ tag := iImm25 w, desc := x.load a 64 }] } : Core).advance))))

/-- R89: TWAIT. -/
def kTwait (x : Core) (w : Nat) : KOut :=
  kIf (noVector w && immOk w 2) (if x.tmu.any fun j => j.tag == iImm25 w then .wait else .next x.advance)

/-! ## Scalar memory (R63, R93) -/

/-- R63: LD64. -/
def kLd64 (x : Core) (w : Nat) : KOut :=
  kIf (noVector w)
    (let a := x.addr w
     kAccess (x.access false a 8 8)
       (if x.blocked false a 8 then .wait else .next (x.setXn (iDst w) (leNat (x.load a 8))).advance))

/-- R63: ST64. -/
def kSt64 (x : Core) (w : Nat) : KOut :=
  kIf (noVector w)
    (let a := x.addr w
     kAccess (x.access true a 8 8)
       (if x.blocked true a 8 then .wait else .next (x.save a (leBytes 8 (x.xn (iDst w)))).advance))

/-! ## Vector element-wise (R70, R71, R79 to R84) -/

/-- R65, R70: format V with a governing predicate, the type accepted, and the fields that are not used zero. -/
def valuOk (types : Nat → Bool) (w : Nat) : Bool := types (iEtype w) && immOk w 0

/-- R71: an element-wise operation on V[SRCA] and V[SRCB]: by integers or by codes of the type. -/
def kVec2 (types : Nat → Bool) (fi : Nat → Int → Int → Int) (ff : Fmt → Nat → Nat → Nat) (x : Core) (w : Nat) :
    KOut :=
  let e := iEtype w
  let b := eBits e
  let va := x.vr (iSrcA w)
  let vb := x.vr (iSrcB w)
  kIf (valuOk types w)
    (.next (x.writeElems w b (eCount e) fun i =>
      if eInt e then ofSigned b (fi b (toSigned b (elem va b i)) (toSigned b (elem vb b i)))
      else ff (eFmt e) (elem va b i) (elem vb b i)).advance)

/-- R71: an element-wise operation on V[SRCA]. -/
def kVec1 (types : Nat → Bool) (ff : Fmt → Nat → Nat) (x : Core) (w : Nat) : KOut :=
  let e := iEtype w
  let va := x.vr (iSrcA w)
  kIf (valuOk types w)
    (.next (x.writeElems w (eBits e) (eCount e) fun i => ff (eFmt e) (elem va (eBits e) i)).advance)

/-- R80: VADD. -/
def kVadd (x : Core) (w : Nat) : KOut := kVec2 notFp8 (fun _ a b => a + b) fpAdd x w
/-- R80: VMUL. -/
def kVmul (x : Core) (w : Nat) : KOut := kVec2 notFp8 (fun _ a b => a * b) fpMul x w
/-- R81: VDIV. -/
def kVdiv (x : Core) (w : Nat) : KOut := kVec2 wideFp (fun _ a _ => a) fpDiv x w
/-- R79: VMIN. -/
def kVmin (x : Core) (w : Nat) : KOut := kVec2 notFp8 (fun _ a b => min a b) fpMin x w
/-- R79: VMAX, which takes every type but FP8. (PRESUMED, log entry 149) -/
def kVmax (x : Core) (w : Nat) : KOut := kVec2 notFp8 (fun _ a b => max a b) fpMax x w
/-- R81: VSQRT. -/
def kVsqrt (x : Core) (w : Nat) : KOut := kVec1 wideFp fpSqrt x w
/-- R81: VEXP2. -/
def kVexp2 (x : Core) (w : Nat) : KOut := kVec1 ieeeFp fpExp2 x w
/-- R81: VLOG2, which takes FP16 and FP32. (PRESUMED, log entry 149) -/
def kVlog2 (x : Core) (w : Nat) : KOut := kVec1 ieeeFp fpLog2 x w
/-- R84: VADDS. -/
def kVadds (x : Core) (w : Nat) : KOut :=
  kVec2 eInt (fun b s t => clampInt (sMin b) (sMax b) (s + t)) (fun _ a _ => a) x w
/-- R69: VBCAST. -/
def kVbcast (x : Core) (w : Nat) : KOut :=
  let b := eBits (iEtype w)
  kIf (immOk w 0) (.next (x.writeElems w b (eCount (iEtype w)) fun _ => x.xn (iSrcA w) % 2 ^ b).advance)

/-- R80: a fused operation on V[SRCA], V[SRCB] and V[SRCC]. -/
def kFused (ff : Fmt → Nat → Nat → Nat → Nat) (x : Core) (w : Nat) : KOut :=
  let e := iEtype w
  let b := eBits e
  kIf (wideFp e && iImm25 w == 0)
    (.next (x.writeElems w b (eCount e) fun i =>
      ff (eFmt e) (elem (x.vr (iSrcA w)) b i) (elem (x.vr (iSrcB w)) b i) (elem (x.vr (iSrcC w)) b i)).advance)

/-- R80: VFMA. -/
def kVfma (x : Core) (w : Nat) : KOut := kFused fpFma x w
/-- R80: VFMS. -/
def kVfms (x : Core) (w : Nat) : KOut := kFused fpFms x w

/-! ## Conversions (R82 to R84) -/

/-- R82, R83: an element of type e converted to type t, to nearest or, for VCVTZ, toward zero. (DESIGN CHOICE, log entry 22) -/
def convElem (trunc : Bool) (e t v : Nat) : Nat :=
  if eInt e then convFromInt t (toSigned (eBits e) v)
  else if eInt t then
    ofSigned (eBits t) (fvToInt trunc (sMin (eBits t)) (sMax (eBits t)) (fpDecode (eFmt e) v))
  else fpEncode (eFmt t) (fpDecode (eFmt e) v)

/-- R84: the conversion of a register, or of the part IMM25[4:3] of it. (DESIGN CHOICE, log entry 25) -/
def kConvert (trunc : Bool) (ok : Nat → Nat → Bool) (x : Core) (w : Nat) : KOut :=
  let e := iEtype w
  let t := bits (iImm25 w) 2 0
  let part := bits (iImm25 w) 4 3
  let be := eBits e
  let bt := eBits t
  let parts := max (be / bt) (bt / be)
  let n := 1024 / max be bt
  let va := x.vr (iSrcA w)
  let p := x.pr (iPred w)
  let src (i : Nat) : Nat := convElem trunc e t (elem va be (if be < bt then part * n + i else i))
  let old := x.vr (iDst w)
  kIf (immOk w 5 && ok e t && part < parts)
    (if bt < be then
      .next (x.setV (iDst w) (packElems bt ((List.range (1024 / bt)).map fun j =>
        if part * n ≤ j && j < part * n + n then
          predicated p (iPz w) (fun i => elem old bt (part * n + i)) src (j - part * n)
        else elem old bt j))).advance
     else .next (x.writeElems w bt n src).advance)

/-- R82: VCVT. -/
def kVcvt (x : Core) (w : Nat) : KOut := kConvert false (fun _ _ => true) x w
/-- R83: VCVTZ. -/
def kVcvtz (x : Core) (w : Nat) : KOut := kConvert true (fun e t => wideFp e && eInt t) x w

/-! ## Reductions (R85) -/

/-- R85: one level of the tree. -/
def pairUp {α : Type} (op : α → α → α) : List α → List α
  | a :: b :: r => op a b :: pairUp op r
  | l => l

/-- R85: `k` levels of the tree over 2^k elements. -/
def treeReduce {α : Type} (op : α → α → α) : Nat → List α → List α
  | 0, l => l
  | k + 1, l => treeReduce op k (pairUp op l)

/-- R85: the tree reduction of a register: the elements that the predicate selects, the identity for the others. -/
def vred {α : Type} (op : α → α → α) (id : α) (f : Nat → α) (p n : Nat) : α :=
  (treeReduce op n.log2 ((List.range n).map fun i => if p.testBit i then f i else id)).headD id

/-- R85: the result in element 0, of width b, and zero elsewhere. -/
def Core.writeRed (x : Core) (w b v : Nat) : Core := x.setV (iDst w) (v % 2 ^ b)

/-- R85: VREDSUM. -/
def kVredsum (x : Core) (w : Nat) : KOut :=
  let e := iEtype w
  let b := eBits e
  let va := x.vr (iSrcA w)
  let p := x.pr (iPred w)
  kIf (valuOk notFp8 w)
    (.next (x.writeRed w b
      (if eInt e then vred (fun s t => (s + t) % 2 ^ b) 0 (elem va b) p (eCount e)
       else vred (fpAdd (eFmt e)) (eFmt e).sign (elem va b) p (eCount e))).advance)

/-- R85: VREDSUMW. -/
def kVredsumw (x : Core) (w : Nat) : KOut :=
  let e := iEtype w
  let b := eBits e
  let va := x.vr (iSrcA w)
  let p := x.pr (iPred w)
  kIf (valuOk (fun e => e == 0 || e == 1 || e == 5 || e == 6) w)
    (.next (x.writeRed w 32
      (if eInt e then
        vred (fun s t => (s + t) % 2 ^ 32) 0 (fun i => ofSigned 32 (toSigned b (elem va b i))) p (eCount e)
       else
        vred (fpAdd fmtFP32) fmtFP32.sign (fun i => fpEncode fmtFP32 (fpDecode (eFmt e) (elem va b i))) p
          (eCount e))).advance)

/-- R85: the greatest or least of the integers that the predicate selects; none when it selects none. -/
def intBest (op : Int → Int → Int) (b va p n : Nat) : Option Int :=
  vred (fun s t =>
    match s, t with
    | some u, some v => some (op u v)
    | some u, none => some u
    | none, t => t) none (fun i => some (toSigned b (elem va b i))) p n

/-- R79, R85: the reduction by VMAX, or by VMIN. Over no integer, which has no identity in the rule's list, the result is a
free value of the element type. (DESIGN CHOICE, log entry 22) -/
def kVredBest (max_ : Bool) (x : Core) (w : Nat) : KOut :=
  let e := iEtype w
  let b := eBits e
  let va := x.vr (iSrcA w)
  let p := x.pr (iPred w)
  kIf (valuOk notFp8 w)
    (.next (x.writeRed w b
      (if eInt e then
        (match intBest (if max_ then max else min) b va p (eCount e) with
         | some m => ofSigned b m
         | none => (Config.redNone max_ e).toNat)
       else vred (if max_ then fpMax (eFmt e) else fpMin (eFmt e)) (eFmt e).nan (elem va b) p (eCount e))).advance)

/-- R85: VREDMAX. -/
def kVredmax (x : Core) (w : Nat) : KOut := kVredBest true x w
/-- R79, R85: the reduction by VMIN. -/
def kVredmin (x : Core) (w : Nat) : KOut := kVredBest false x w

/-! ## Vector memory (R63, R71 to R74, R93) -/

/-- R71: the elements that a predicate selects. -/
def activeElems (p n : Nat) : List Nat := (List.range n).filter fun i => p.testBit i

/-- R74: an access of each active element at its address: the code that the instruction meets. -/
def Core.accessAll (x : Core) (write : Bool) (es : List Nat) (at_ : Nat → Nat) (size : Nat) : Nat :=
  worstAccess (es.map fun i => x.access write (at_ i) size size)

/-- R93: whether one of the accesses waits. -/
def Core.blockedAll (x : Core) (write : Bool) (es : List Nat) (at_ : Nat → Nat) (size : Nat) : Bool :=
  es.any fun i => x.blocked write (at_ i) size

/-- R71, R74: a vector load with the address of each element. -/
def kLoadElems (x : Core) (w : Nat) (at_ : Nat → Nat) : KOut :=
  let e := iEtype w
  let size := eBytes e
  let es := activeElems (x.pr (iPred w)) (eCount e)
  kAccess (x.accessAll false es at_ size)
    (if x.blockedAll false es at_ size then .wait
     else .next (x.writeElems w (eBits e) (eCount e) fun i => leNat (x.load (at_ i) size)).advance)

/-- R71, R73, R74: a vector store, elements in increasing number, so that the highest of those at one address stays. -/
def kStoreElems (x : Core) (w : Nat) (at_ : Nat → Nat) : KOut :=
  let e := iEtype w
  let size := eBytes e
  let es := activeElems (x.pr (iPred w)) (eCount e)
  let v := x.vr (iDst w)
  kAccess (x.accessAll true es at_ size)
    (if x.blockedAll true es at_ size then .wait
     else .next (es.foldl (fun y i => y.save (at_ i) (leBytes size (elem v (eBits e) i))) x).advance)

/-- R71: element i of a contiguous access, modulo 2^64. -/
def Core.vaddr (x : Core) (w i : Nat) : Nat := (x.addr w + i * eBytes (iEtype w)) % 2 ^ 64

/-- R71: VLD. -/
def kVld (x : Core) (w : Nat) : KOut := kLoadElems x w (x.vaddr w)
/-- R71: VST; PZ is 0. -/
def kVst (x : Core) (w : Nat) : KOut := kIf (!iPz w) (kStoreElems x w (x.vaddr w))

/-- R72: the registers that hold the indices. -/
def indexRegs (e : Nat) : Nat := 32 / eBits e

/-- R72: the address of element i of a gather or scatter, modulo 2^64. -/
def Core.gaddr (x : Core) (w i : Nat) : Nat :=
  (x.xn (iSrcA w) + elem (x.vr (iSrcB w + i / 32)) 32 (i % 32) * eBytes (iEtype w)) % 2 ^ 64

/-- R72: SRCB is a multiple of the number of index registers and X[SRCA] of the element width. -/
def gatherOk (x : Core) (w : Nat) : Bool :=
  iSrcB w % indexRegs (iEtype w) == 0 && x.xn (iSrcA w) % eBytes (iEtype w) == 0

/-- R72: VGATHER. -/
def kVgather (x : Core) (w : Nat) : KOut :=
  kIf (immOk w 0) (kIf (gatherOk x w) (kLoadElems x w (x.gaddr w)))
/-- R73: VSCATTER. -/
def kVscatter (x : Core) (w : Nat) : KOut :=
  kIf (immOk w 0) (kIf (gatherOk x w) (kStoreElems x w (x.gaddr w)))

/-! ## Predicates (R60, R71) -/

/-- R60: a predicate from its bits 0 to 127. -/
def packBits (f : Nat → Bool) : Nat := packElems 1 ((List.range 128).map fun i => if f i then 1 else 0)

/-- R71: writes bits 0 to n − 1 of P[DST[2:0]] that the governing predicate selects. -/
def Core.writePred (x : Core) (w n : Nat) (new : Nat → Bool) : Core :=
  let d := iDst w % 8
  let old := x.pr d
  let p := x.pr (iPred w)
  x.setP d (packBits fun i =>
    if i < n then (if p.testBit i then new i else if iPz w then false else old.testBit i) else old.testBit i)

/-- R71: VCMPLT. -/
def kVcmplt (x : Core) (w : Nat) : KOut :=
  let e := iEtype w
  let b := eBits e
  let va := x.vr (iSrcA w)
  let vb := x.vr (iSrcB w)
  kIf (valuOk notFp8 w)
    (.next (x.writePred w (eCount e) fun i =>
      if eInt e then decide (toSigned b (elem va b i) < toSigned b (elem vb b i))
      else fpLt (eFmt e) (elem va b i) (elem vb b i)).advance)

/-- R60: PFIRSTN. (DESIGN CHOICE, log entry 24) -/
def kPfirstn (x : Core) (w : Nat) : KOut :=
  kIf (immOk w 0) (.next (x.writePred w 128 fun i => decide (i < x.xn (iSrcA w))).advance)

/-! ## System instructions (R87, R88, R95) -/

/-- R144: draw number dn of the running stage. -/
def Core.drawOut (x : Core) (dn : Nat) : Quad :=
  let k := keyWords x.rngKey
  philox { w0 := BitVec.ofNat 32 (x.stage * 2 ^ 26 + dn), w1 := BitVec.ofNat 32 x.epoch,
           w2 := BitVec.ofNat 32 x.sample ^^^ k.w2, w3 := BitVec.ofNat 32 (x.sample / 2 ^ 32) ^^^ k.w3 } k.w0 k.w1

/-- R145: the 128 bits of a draw. -/
def quadNat (q : Quad) : Nat := q.w0.toNat + 2 ^ 32 * q.w1.toNat + 2 ^ 64 * q.w2.toNat + 2 ^ 96 * q.w3.toNat

/-- R87: DRAW. -/
def kDraw (x : Core) (w : Nat) : KOut :=
  let d := iDst w
  let q := quadNat (x.drawOut x.draw)
  kIf (noVector w && immOk w 0)
    (kIf (d % 2 == 0 && d ≤ 30 && x.draw < 2 ^ 26)
      (.next ({ (x.setXn d q).setXn (d + 1) (q / 2 ^ 64) with draw := x.draw + 1 } : Core).advance))

/-- R87: VDRAW: PRED is 0 (R66), so every element is written. (DESIGN CHOICE, log entry 148) -/
def kVdraw (x : Core) (w : Nat) : KOut :=
  kIf (noVector w && immOk w 0)
    (kIf (x.draw + 7 < 2 ^ 26)
      (.next ({ x.setV (iDst w) (packElems 128 ((List.range 8).map fun i => quadNat (x.drawOut (x.draw + i)))) with
        draw := x.draw + 8 } : Core).advance))

/-- R88: a system register. -/
def Core.sr (x : Core) (i : Nat) : Option Nat :=
  if i = 0 then some x.stage
  else if i = 1 then some x.memLimit
  else if i = 2 then some x.stepLimit
  else if i = 3 then some (x.steps + 1)
  else if i = 4 then some x.draw
  else if 8 ≤ i && i < 16 then some (x.inputs.getD (i - 8) []).length
  else if i = 0x10 then some x.consts.length
  else none

/-- R88: SRD. -/
def kSrd (x : Core) (w : Nat) : KOut :=
  kIf (noVector w && immOk w 8)
    (match x.sr (iImm25 w) with
     | some v => .next (x.setXn (iDst w) v).advance
     | none => kFault)

/-- R95: the statuses that HALT may give. -/
def haltStatus (st : Nat) : Bool :=
  st == 0 || (0x0101 ≤ st && st ≤ 0x0107) || (0x0201 ≤ st && st ≤ 0x0204) || st == 0x0301 || st == 0x0304

/-- R95: HALT. (DEDUCED, log entry 26) -/
def kHalt (x : Core) (w : Nat) : KOut :=
  let st := iImm25 w
  let len := x.xn (iSrcA w)
  kIf (noVector w && immOk w 16) (kIf (haltStatus st && len ≤ x.outMax) (.halt st len))

end Sys2Proof.Machine
end

