-- ==== Sys2Proof/Machine/Geometry.lean ====
section
/-! DEFINITION. Sample records (R115, R116) and the GEOMETRY stage (R122 to R137). -/

namespace Sys2Proof.Machine

/-! ## Records (R115, R116) -/

/-- R115: a record read from bytes. -/
structure Rec where
  /-- R115: FORMAT. -/
  format : Nat
  /-- R115: WIDTH. -/
  width : Nat
  /-- R115: HEIGHT. -/
  height : Nat
  /-- R115: COMPONENTS. -/
  comps : Nat
  /-- R115: BIT_DEPTH. -/
  depth : Nat
  /-- R115: CHROMA. -/
  chroma : Nat
  /-- R115: SAMPLE_KIND. -/
  kind : Nat
  /-- R115: SAMPLE_BYTES. -/
  sbytes : Nat
  /-- R115: FRAMES. -/
  frames : Nat
  /-- R115: FRAME_BYTES. -/
  frameBytes : Nat
  /-- R115: PLANE_OFFSET0 to 3. -/
  planes : List Nat
  /-- R115: DATA_OFFSET. -/
  dataOff : Nat
  /-- R115: PTS, 8 bytes for each frame. -/
  pts : Bytes
  /-- R115: the record's bytes. -/
  raw : Bytes
  deriving DecidableEq, Repr

/-- R115: whether plane c is subsampled across. -/
def Rec.subX (r : Rec) (c : Nat) : Bool := r.chroma ≠ 0 && (c == 1 || c == 2)
/-- R115: whether plane c is subsampled down. -/
def Rec.subY (r : Rec) (c : Nat) : Bool := r.chroma == 1 && (c == 1 || c == 2)
/-- R116: width of plane c. -/
def Rec.planeW (r : Rec) (c : Nat) : Nat := if r.subX c then ceilDiv r.width 2 else r.width
/-- R116: height of plane c. -/
def Rec.planeH (r : Rec) (c : Nat) : Nat := if r.subY c then ceilDiv r.height 2 else r.height

/-- R115, R116: the record at the start of the bytes, when its fields are in their ranges and its planes lie in it. -/
def recOf (b : Bytes) : Option Rec :=
  let frames := fieldAt b 14 2
  let r : Rec :=
    { format := fieldAt b 0 4, width := fieldAt b 4 2, height := fieldAt b 6 2, comps := fieldAt b 8 1,
      depth := fieldAt b 9 1, chroma := fieldAt b 10 1, kind := fieldAt b 11 1, sbytes := fieldAt b 12 1,
      frames := frames, frameBytes := fieldAt b 16 4,
      planes := (List.range 4).map fun c => fieldAt b (20 + 4 * c) 4,
      dataOff := fieldAt b 36 4, pts := (b.drop 64).take (8 * frames), raw := b }
  if 1 ≤ r.width && r.width ≤ 16384 && 1 ≤ r.height && r.height ≤ 16384 && 1 ≤ r.comps && r.comps ≤ 4 &&
      [8, 10, 12, 16, 32].contains r.depth && r.chroma ≤ 2 && r.kind ≤ 2 && [1, 2, 4].contains r.sbytes &&
      (r.kind ≠ 2 || (r.sbytes == 4 && r.depth == 32)) && 1 ≤ frames && r.frameBytes % 128 == 0 &&
      64 + 8 * frames ≤ r.dataOff &&
      r.dataOff + frames * r.frameBytes ≤ b.length &&
      ((List.range r.comps).all fun c =>
        r.planes.getD c 0 + r.planeW c * r.planeH c * r.sbytes ≤ r.frameBytes)
  then some r else none

/-- R116: the raw code of the sample at (col, row) of plane c of frame f. -/
def Rec.code (r : Rec) (f c col row : Nat) : Nat :=
  fieldAt r.raw (r.dataOff + f * r.frameBytes + r.planes.getD c 0 + (row * r.planeW c + col) * r.sbytes) r.sbytes

/-- R116: an integer sample's value. -/
def Rec.value (r : Rec) (f c col row : Nat) : Int :=
  if r.kind = 1 then toSigned (8 * r.sbytes) (r.code f c col row) else r.code f c col row

/-- R116: the range of integer samples of a kind and depth. -/
def sampleRange (kind depth : Nat) : Int × Int :=
  if kind = 1 then (sMin depth, sMax depth) else (0, (2 ^ depth : Nat) - 1)

/-- R115, R116: the header of a record with every plane full size. -/
def recHeader (format w h comps depth kind sbytes frames : Nat) (pts : Bytes) : Bytes :=
  let plane := up128 (w * h * sbytes)
  let off := up128 (64 + 8 * frames)
  let head := leBytes 4 format ++ leBytes 2 w ++ leBytes 2 h ++ leBytes 1 comps ++ leBytes 1 depth ++ leBytes 1 0 ++
    leBytes 1 kind ++ leBytes 1 sbytes ++ leBytes 1 0 ++ leBytes 2 frames ++ leBytes 4 (comps * plane) ++
    ((List.range 4).flatMap fun c => leBytes 4 (if c < comps then c * plane else 0)) ++ leBytes 4 off ++ zeros 24
  sliceZ (head ++ pts) 0 off

/-- R116: the length of a record with every plane full size. -/
def recLength (w h comps sbytes frames : Nat) : Nat :=
  up128 (64 + 8 * frames) + frames * (comps * up128 (w * h * sbytes))

/-! ## What a stage's engine is given -/

/-- R143, R144: what fixes a stage's output. -/
structure StageIn where
  /-- R31: the stage's descriptor. -/
  desc : Desc
  /-- R25: CONSTANTS. -/
  consts : Bytes
  /-- R31: the inputs in predecessor order. -/
  inputs : List Bytes
  /-- R143: the key K. -/
  key : Bytes
  /-- R144: the sample index. -/
  sample : Nat
  /-- R144: the epoch. -/
  epoch : Nat
  deriving DecidableEq, Repr

/-- R144: draw 0 of the stage. -/
def StageIn.draw0 (g : StageIn) : Quad :=
  let k := keyWords g.key
  philox { w0 := BitVec.ofNat 32 (g.desc.id * 2 ^ 26), w1 := BitVec.ofNat 32 g.epoch,
           w2 := BitVec.ofNat 32 g.sample ^^^ k.w2, w3 := BitVec.ofNat 32 (g.sample / 2 ^ 32) ^^^ k.w3 } k.w0 k.w1

/-- R31: input i. -/
def StageIn.input (g : StageIn) (i : Nat) : Bytes := g.inputs.getD i []

/-! ## Crop, flip and mapping (R123 to R128) -/

/-- R123: a crop rectangle and the flip. -/
structure Crop where
  /-- R123: x0. -/
  x0 : Nat
  /-- R123: y0. -/
  y0 : Nat
  /-- R123: cw. -/
  cw : Nat
  /-- R123: ch. -/
  ch : Nat
  /-- R123: mirrored. -/
  flip : Bool
  deriving DecidableEq, Repr

/-- R123: the crop and flip of the sample in a domain dw × dh. -/
def cropOf (g : StageIn) (dw dh : Nat) : Crop :=
  let w4 := g.desc.word 4
  let lo := bits (g.desc.word 6) 16 0
  let hi := bits (g.desc.word 6) 33 17
  let u := g.draw0
  let flip := bit w4 39 && decide (u.w3.toNat / 65536 < bits w4 63 48)
  if bit w4 38 then
    let s := lo + (hi - lo + 1) * u.w0.toNat / 2 ^ 32
    let cw := max 1 (dw * s / 65536)
    let ch := max 1 (dh * s / 65536)
    { x0 := (dw - cw + 1) * u.w1.toNat / 2 ^ 32, y0 := (dh - ch + 1) * u.w2.toNat / 2 ^ 32, cw := cw, ch := ch,
      flip := flip }
  else { x0 := 0, y0 := 0, cw := dw, ch := dh, flip := flip }

/-- R124: division rounded half up. -/
def divr (a b : Int) : Int := (2 * a + b) / (2 * b)

/-- R124: the domain coordinate of output pixel (x, y). -/
def domainAt (c : Crop) (ow oh x y : Nat) : Int × Int :=
  let xs : Int := if c.flip then (ow : Int) - 1 - x else x
  ((c.x0 : Int) * 65536 + divr ((2 * xs + 1) * c.cw * 65536) (2 * ow) - 0x8000,
   (c.y0 : Int) * 65536 + divr ((2 * (y : Int) + 1) * c.ch * 65536) (2 * oh) - 0x8000)

/-- R125: an index held to 0 … hi. -/
def clampIdx (hi : Nat) (i : Int) : Nat := if i < 0 then 0 else min hi i.toNat

/-- R125: the bilinear mapping of one component. -/
def bilinearAt (p00 p10 p01 p11 tx ty : Int) : Int :=
  ((65536 - tx) * (65536 - ty) * p00 + tx * (65536 - ty) * p10 + (65536 - tx) * ty * p01 + tx * ty * p11 + 2 ^ 31) /
    2 ^ 32

/-- R126: the projective mapping; none where d is zero or of the sign opposite to the cell's. -/
def projectiveAt (p0 p1 p2 p3 : Int × Int) (tx ty : Int) : Option (Int × Int) :=
  let c := projCoeffs p0 p1 p2 p3
  let g := c.1
  let h := c.2.1
  let den := c.2.2
  let nx := ((p1.1 - p0.1) * den + g * p1.1) * tx + ((p3.1 - p0.1) * den + h * p3.1) * ty + p0.1 * den * 65536
  let ny := ((p1.2 - p0.2) * den + g * p1.2) * tx + ((p3.2 - p0.2) * den + h * p3.2) * ty + p0.2 * den * 65536
  let d := projD c tx ty
  if 0 < d * den then
    let s : Int := if d < 0 then -1 else 1
    some (divr (s * nx) (s * d), divr (s * ny) (s * d))
  else none

/-- R125: the source luma coordinate of a domain coordinate. -/
def Mesh.map (m : Mesh) (u v : Int) : Option (Int × Int) :=
  let i := clampIdx (m.gw - 2) (u / 2 ^ (16 + m.cx))
  let j := clampIdx (m.gh - 2) (v / 2 ^ (16 + m.cy))
  let tx := (u - (i : Int) * 2 ^ (16 + m.cx)) / 2 ^ m.cx
  let ty := (v - (j : Int) * 2 ^ (16 + m.cy)) / 2 ^ m.cy
  let p := m.corners i j
  if m.proj then projectiveAt p.1 p.2.1 p.2.2.1 p.2.2.2 tx ty
  else some (bilinearAt p.1.1 p.2.1.1 p.2.2.2.1 p.2.2.1.1 tx ty, bilinearAt p.1.2 p.2.1.2 p.2.2.2.2 p.2.2.1.2 tx ty)

/-- R127: what becomes of a pixel: its coordinate, zero, or MESH_OUT_OF_RANGE. -/
inductive Landing
  | at_ (x y : Int) | zero | bad
  deriving DecidableEq, Repr

/-- R127: the range test against a picture of W × H with a border rule. -/
def border (b w h : Nat) : Option (Int × Int) → Landing
  | none => .bad
  | some (x, y) =>
    let lo : Int := -0x8000
    let hx : Int := (w : Int) * 65536 - 0x8000
    let hy : Int := (h : Int) * 65536 - 0x8000
    if lo ≤ x ∧ x < hx ∧ lo ≤ y ∧ y < hy then .at_ x y
    else if b = 1 then .at_ (clampInt lo (hx - 1) x) (clampInt lo (hy - 1) y)
    else if b = 2 then .zero
    else .bad

/-! ## Filters (R129 to R131) -/

/-- R129, R130: Lanczos-3 weights of phases 0 to 15, taps −2 to 3. -/
def lanczosA : List (List Int) := [
  [0, 0, 16384, 0, 0, 0],
  [52, -207, 16377, 216, -54, 0],
  [100, -405, 16356, 442, -111, 2],
  [147, -593, 16320, 676, -170, 4],
  [190, -772, 16272, 919, -232, 7],
  [230, -941, 16208, 1171, -296, 12],
  [268, -1101, 16131, 1431, -362, 17],
  [303, -1251, 16041, 1699, -431, 23],
  [335, -1391, 15936, 1975, -501, 30],
  [364, -1522, 15819, 2258, -573, 38],
  [390, -1643, 15687, 2549, -646, 47],
  [414, -1755, 15542, 2847, -721, 57],
  [435, -1858, 15386, 3151, -798, 68],
  [453, -1951, 15215, 3462, -875, 80],
  [468, -2035, 15033, 3778, -953, 93],
  [481, -2111, 14840, 4100, -1032, 106]]

/-- R129, R130: Lanczos-3 weights of phases 16 to 31, taps −2 to 3. -/
def lanczosB : List (List Int) := [
  [492, -2177, 14632, 4427, -1111, 121],
  [500, -2235, 14415, 4758, -1190, 136],
  [506, -2284, 14186, 5094, -1269, 151],
  [509, -2325, 13947, 5434, -1348, 167],
  [511, -2358, 13697, 5776, -1426, 184],
  [510, -2383, 13437, 6122, -1504, 202],
  [507, -2400, 13168, 6470, -1580, 219],
  [503, -2410, 12889, 6819, -1654, 237],
  [497, -2413, 12602, 7170, -1728, 256],
  [489, -2409, 12307, 7522, -1799, 274],
  [479, -2398, 12004, 7874, -1867, 292],
  [469, -2381, 11692, 8226, -1933, 311],
  [457, -2359, 11377, 8576, -1996, 329],
  [444, -2330, 11053, 8926, -2056, 347],
  [429, -2296, 10726, 9273, -2113, 365],
  [414, -2257, 10392, 9618, -2165, 382]]

/-- R129, R130: Lanczos-3 weights of phases 32 to 47, taps −2 to 3. -/
def lanczosC : List (List Int) := [
  [398, -2213, 10054, 9960, -2213, 398],
  [382, -2165, 9618, 10392, -2257, 414],
  [365, -2113, 9273, 10726, -2296, 429],
  [347, -2056, 8926, 11053, -2330, 444],
  [329, -1996, 8576, 11377, -2359, 457],
  [311, -1933, 8226, 11692, -2381, 469],
  [292, -1867, 7874, 12004, -2398, 479],
  [274, -1799, 7522, 12307, -2409, 489],
  [256, -1728, 7170, 12602, -2413, 497],
  [237, -1654, 6819, 12889, -2410, 503],
  [219, -1580, 6470, 13168, -2400, 507],
  [202, -1504, 6122, 13437, -2383, 510],
  [184, -1426, 5776, 13697, -2358, 511],
  [167, -1348, 5434, 13947, -2325, 509],
  [151, -1269, 5094, 14186, -2284, 506],
  [136, -1190, 4758, 14415, -2235, 500]]

/-- R129, R130: Lanczos-3 weights of phases 48 to 63, taps −2 to 3. -/
def lanczosD : List (List Int) := [
  [121, -1111, 4427, 14632, -2177, 492],
  [106, -1032, 4100, 14840, -2111, 481],
  [93, -953, 3778, 15033, -2035, 468],
  [80, -875, 3462, 15215, -1951, 453],
  [68, -798, 3151, 15386, -1858, 435],
  [57, -721, 2847, 15542, -1755, 414],
  [47, -646, 2549, 15687, -1643, 390],
  [38, -573, 2258, 15819, -1522, 364],
  [30, -501, 1975, 15936, -1391, 335],
  [23, -431, 1699, 16041, -1251, 303],
  [17, -362, 1431, 16131, -1101, 268],
  [12, -296, 1171, 16208, -941, 230],
  [7, -232, 919, 16272, -772, 190],
  [4, -170, 676, 16320, -593, 147],
  [2, -111, 442, 16356, -405, 100],
  [0, -54, 216, 16377, -207, 52]]

/-- R129, R130: the bicubic weight of the kernel at distance n ÷ 64, in units of 16,384, half away from zero. -/
def keysWeight (n : Nat) : Int :=
  -- 2 × 64³ × kernel: |d| ≤ 1: 3n³ − 5·64n² + 2·64³; 1 < |d| < 2: −n³ + 5·64n² − 8·64²n + 4·64³
  let m : Int := n
  let v : Int :=
    if n ≤ 64 then 3 * m ^ 3 - 320 * m ^ 2 + 524288
    else if n < 128 then -(m ^ 3) + 320 * m ^ 2 - 32768 * m + 1048576
    else 0
  -- × 16384 ÷ 524288 = ÷ 32
  let a : Int := ((v.natAbs + 16) / 32 : Nat)
  if v < 0 then -a else a

/-- R130: adds what the sum lacks of 16,384 to the largest weight, the first of equal ones. -/
def fixSum (ws : List Int) : List Int :=
  let diff := 16384 - ws.sum
  let m := ws.foldl max (ws.headD 0)
  let i := ws.findIdx fun w => w == m
  ws.set i (m + diff)

/-- R129: the first tap and the weights of a filter at a phase. -/
def filterTaps (f p : Nat) : Int × List Int :=
  match f with
  | 0 => (0, [16384 - 256 * p, 256 * p])
  | 1 => (-1, fixSum [keysWeight (64 + p), keysWeight p, keysWeight (64 - p), keysWeight (128 - p)])
  | _ => (-2, (lanczosA ++ lanczosB ++ lanczosC ++ lanczosD).getD p [])

/-- R129: the base column and the phase of a coordinate. -/
def phaseOf (x : Int) : Int × Nat :=
  let p := ((x % 65536).toNat + 512) / 1024
  if p = 64 then (x / 65536 + 1, 0) else (x / 65536, p)

/-- R127, R131: the columns (or rows) of the taps, held to the plane, with their weights. -/
def tapsAt (f : Nat) (size : Nat) (x : Int) : List (Nat × Int) :=
  let bp := phaseOf x
  let t := filterTaps f bp.2
  (List.range t.2.length).map fun (k : Nat) => (clampIdx (size - 1) (bp.1 + t.1 + (k : Int)), t.2.getD k 0)

/-- R131: a weight as an FP32 code, w ÷ 16,384 exactly. -/
def weightF32 (w : Int) : Nat := fpRound fmtFP32 (decide (w < 0)) w.natAbs 1 (-14)

/-- R131: sum of products in order, one rounding per operation. -/
def dotF32 : List (Nat × Nat) → Nat
  | [] => 0
  | (w, s) :: r => r.foldl (fun a p => fpAdd fmtFP32 a (fpMul fmtFP32 p.1 p.2)) (fpMul fmtFP32 w s)

/-- R131: the output sample's code of plane c of frame f at a plane coordinate. -/
def Rec.resample (r : Rec) (filter f c : Nat) (x y : Int) : Nat :=
  let tx := tapsAt filter (r.planeW c) x
  let ty := tapsAt filter (r.planeH c) y
  if r.kind = 2 then
    dotF32 (ty.map fun q => (weightF32 q.2, dotF32 (tx.map fun p => (weightF32 p.2, r.code f c p.1 q.1))))
  else
    let acc : Int := (ty.map fun q => q.2 * (tx.map fun p => p.2 * r.value f c p.1 q.1).sum).sum
    let lim := sampleRange r.kind r.depth
    ofSigned (8 * r.sbytes) (clampInt lim.1 lim.2 ((acc + 2 ^ 27) / 2 ^ 28))

/-- R128: the coordinate in a plane. -/
def planeCoord (sub : Bool) (x : Int) : Int := if sub then (x - 0x8000) / 2 else x

/-! ## Lens records (R137) -/

/-- R137: FP32 codes. -/
def fAdd (a b : Nat) : Nat := fpAdd fmtFP32 a b
def fSub (a b : Nat) : Nat := fpSub fmtFP32 a b
def fMul (a b : Nat) : Nat := fpMul fmtFP32 a b
def fDiv (a b : Nat) : Nat := fpDiv fmtFP32 a b
/-- R137: an integer as an FP32 code. -/
def fInt (i : Int) : Nat := intToFp fmtFP32 i

/-- R137: one control point of a lens record. -/
def lensPoint (b : Bytes) (i j : Nat) : Int × Int :=
  let p (o : Nat) : Nat := fieldAt b o 4
  let u := fInt (i * 2 ^ fieldAt b 12 1 : Nat)
  let v := fInt (j * 2 ^ fieldAt b 13 1 : Nat)
  let x := fDiv (fSub u (p 48)) (p 40)
  let y := fDiv (fSub v (p 52)) (p 44)
  let xx := fMul x x
  let yy := fMul y y
  let xy := fMul x y
  let r2 := fAdd xx yy
  let one := fInt 1
  let two := fInt 2
  let d : Nat × Nat :=
    if fieldAt b 4 1 = 0 then
      let rad := fAdd one (fMul r2 (fAdd (p 56) (fMul r2 (fAdd (p 60) (fMul r2 (p 64))))))
      let p1 := p 72
      let p2 := p 76
      (fAdd (fAdd (fMul x rad) (fMul (fMul two p1) xy)) (fMul p2 (fAdd r2 (fMul two xx))),
       fAdd (fAdd (fMul y rad) (fMul p1 (fAdd r2 (fMul two yy)))) (fMul (fMul two p2) xy))
    else
      let r := fpSqrt fmtFP32 r2
      let t := fpAtan fmtFP32 r
      let q := fMul t t
      let td := fMul t (fAdd one (fMul q (fAdd (p 56) (fMul q (fAdd (p 60) (fMul q (fAdd (p 64) (fMul q (p 68)))))))))
      let sc := if fpLt fmtFP32 0 r then fDiv td r else one
      (fMul x sc, fMul y sc)
  let out (f d c : Nat) : Int :=
    fvToInt false (sMin 32) (sMax 32) (fpDecode fmtFP32 (fMul (fAdd (fMul f d) c) (fInt 65536)))
  (out (p 24) d.1 (p 32), out (p 28) d.2 (p 36))

/-- R137: the bilinear-cell mesh of a lens record. -/
def lensMesh (b : Bytes) : Mesh :=
  let gw := fieldAt b 8 2
  let gh := fieldAt b 10 2
  { gw := gw, gh := gh, cx := fieldAt b 12 1, cy := fieldAt b 13 1, proj := false, dw := fieldAt b 14 2,
    dh := fieldAt b 16 2,
    points := (List.range gh).flatMap fun j => (List.range gw).map fun i => lensPoint b i j }

/-! ## The stage (R124, R134) -/

/-- R132: the mesh of the stage: none for the identity; an invalid mesh in input 1 is MESH_INVALID. -/
def stageMesh (g : StageIn) : Except Nat (Option Mesh) :=
  let off := bits (g.desc.word 5) 31 0
  match bits (g.desc.word 4) 37 36 with
  | 0 => .ok none
  | 1 => .ok (meshOf (g.consts.drop off))
  | 2 =>
    match meshOf (g.input 1) with
    | some m => .ok (some m)
    | none => .error stMeshInvalid
  | _ => .ok (some (lensMesh (g.consts.drop off)))

/-- R124 to R127: where each output pixel lands, row by row. -/
def landings (g : StageIn) (r : Rec) (m : Option Mesh) : List Landing :=
  let w4 := g.desc.word 4
  let ow := bits w4 15 0
  let oh := bits w4 31 16
  let dw := match m with
    | some m => m.dw
    | none => r.width
  let dh := match m with
    | some m => m.dh
    | none => r.height
  let c := cropOf g dw dh
  (List.range oh).flatMap fun y => (List.range ow).map fun x =>
    let d := domainAt c ow oh x y
    border (bits w4 35 34) r.width r.height
      (match m with
       | some m => m.map d.1 d.2
       | none => some d)

/-- R131: one output plane. -/
def outPlane (g : StageIn) (r : Rec) (ls : List Landing) (f c : Nat) : Bytes :=
  padTo (ls.flatMap fun l => leBytes r.sbytes
    (match l with
     | .at_ x y =>
       r.resample (bits (g.desc.word 4) 33 32) f c (planeCoord (r.subX c) x) (planeCoord (r.subY c) y)
     | _ => 0)) 128

/-- R124, R134: the output of a GEOMETRY stage. -/
def geometryStage (g : StageIn) : Except Nat Bytes :=
  match recOf (g.input 0) with
  | none => Config.badRecord tGeometry (g.input 0)
  | some r =>
    match stageMesh g with
    | .error e => .error e
    | .ok m =>
      let w4 := g.desc.word 4
      let ow := bits w4 15 0
      let oh := bits w4 31 16
      if g.desc.outMax < recLength ow oh r.comps r.sbytes r.frames then .error stBound
      else
        let ls := landings g r m
        if ls.contains .bad then .error stMeshRange
        else .ok (recHeader r.format ow oh r.comps r.depth r.kind r.sbytes r.frames r.pts ++
          (List.range r.frames).flatMap fun f => (List.range r.comps).flatMap fun c => outPlane g r ls f c)

end Sys2Proof.Machine
end

