-- ==== Sys2Proof/Machine/Ahnet.lean ====
section
/-! DEFINITION. The Ahnet format (R154 to R173): prediction, the adaptive Golomb–Rice coder with its run mode, the
encoder's decisions, the decoder's checks and the codec state snapshot. -/

namespace Sys2Proof.Machine

/-! ## The coded domain -/

/-- R156: what fixes the coding of a stream. -/
structure AhCfg where
  /-- R156: KIND is raster. -/
  raster : Bool
  /-- R156: WIDTH. -/
  w : Nat
  /-- R156: HEIGHT. -/
  h : Nat
  /-- R156: CHANNELS. -/
  ch : Nat
  /-- R156: DEPTH. -/
  d : Nat
  /-- R156: SIGNED. -/
  signed : Bool
  deriving DecidableEq, Repr

/-- R156: SB. -/
def AhCfg.sb (g : AhCfg) : Nat := if g.d = 8 then 1 else 2
/-- R160: mid. -/
def AhCfg.mid (g : AhCfg) : Nat := 2 ^ (g.d - 1)
/-- R158: samples of a whole block. -/
def AhCfg.perBlock (g : AhCfg) : Nat := 65536 / g.sb
/-- R163: the coded-domain value of a pattern, and back: bit D − 1 inverted when SIGNED. -/
def AhCfg.flip (g : AhCfg) (v : Nat) : Nat := if g.signed then (if v.testBit (g.d - 1) then v - g.mid else v + g.mid) else v
/-- R166: the plane of sample i. -/
def AhCfg.plane (g : AhCfg) (i : Nat) : Nat := if g.raster then i / (g.w * g.h) else 0

/-- R164 to R167: the counters of every context, (A, N), and m′. -/
structure AhCtx where
  /-- R165: regular contexts, by 16 × plane + context. -/
  ctx : Tbl (Nat × Nat) := []
  /-- R165: run contexts, by plane. -/
  run : Tbl (Nat × Nat) := []
  /-- R167: m′. -/
  lastM : Nat := 0
  deriving DecidableEq, Repr

/-- R165: a regular context's counters. -/
def AhCtx.reg (s : AhCtx) (g : AhCfg) (k : Nat) : Nat × Nat := Tbl.get s.ctx (2 ^ (g.d - 6), 1) k
/-- R165: a run context's counters. -/
def AhCtx.runOf (s : AhCtx) (p : Nat) : Nat × Nat := Tbl.get s.run (2, 1) p

/-- R160: the neighbours a, b, c, d of sample i. -/
def neighbours (g : AhCfg) (get : Nat → Nat) (i : Nat) : Nat × Nat × Nat × Nat :=
  let x := i % g.w
  let y := i % (g.w * g.h) / g.w
  if y = 0 then
    (if x = 0 then (g.mid, g.mid, g.mid, g.mid)
     else
      let a := get (i - 1)
      (a, a, a, a))
  else
    let b := get (i - g.w)
    let d := if x + 1 = g.w then b else get (i - g.w + 1)
    if x = 0 then (b, b, b, d) else (get (i - 1), b, get (i - g.w - 1), d)

/-- |a − b|. -/
def absDiff (a b : Nat) : Nat := if a ≤ b then b - a else a - b

/-- R162: the activity. -/
def activity (n : Nat × Nat × Nat × Nat) : Nat :=
  absDiff n.1 n.2.2.1 + absDiff n.2.1 n.2.2.1 + absDiff n.2.2.2 n.2.1

/-- R161: the predictor. -/
def predictAh (g : AhCfg) (pred : Nat) (n : Nat × Nat × Nat × Nat) : Nat :=
  let a := n.1
  let b := n.2.1
  let c := n.2.2.1
  let d := n.2.2.2
  match pred with
  | 1 => a
  | 2 => b
  | 3 => if max a b ≤ c then min a b else if c ≤ min a b then max a b else a + b - c
  | _ =>
    let dh := absDiff c b + absDiff b d
    let dv := 2 * absDiff a c
    let t := 2 ^ (g.d - 4)
    if dh + t < dv then a
    else if dv + t < dh then b
    else (clampInt 0 ((2 ^ g.d : Nat) - 1) (((a + b : Nat) : Int) / 2 + ((d : Int) - c) / 4)).toNat

/-- R163: the mapped residue of x against p. -/
def mapResidue (g : AhCfg) (x p : Nat) : Nat :=
  let e : Int := ((x : Int) - p + g.mid) % (2 ^ g.d : Nat) - g.mid
  if 0 ≤ e then (2 * e).toNat else (-2 * e - 1).toNat

/-- R163: x from its mapped residue. -/
def unmapResidue (g : AhCfg) (m p : Nat) : Nat :=
  let e : Int := if m % 2 = 0 then (m / 2 : Nat) else -((m + 1) / 2 : Nat)
  (((p : Int) + e) % (2 ^ g.d : Nat)).toNat

/-- R166, R167: how sample i is treated: predictor value and regular context. -/
def modelAt (g : AhCfg) (pred : Nat) (get : Nat → Nat) (s : AhCtx) (i : Nat) : Nat × Nat :=
  if g.raster then
    let n := neighbours g get i
    (predictAh g pred n, 16 * g.plane i + min 15 (bitLen (activity n)))
  else (if i = 0 then 0 else get (i - 1), min 15 (bitLen s.lastM))

/-- R166, R167: whether run mode applies at sample i, with the run value. -/
def runAt (g : AhCfg) (get : Nat → Nat) (i : Nat) : Option Nat :=
  if g.raster then
    let n := neighbours g get i
    if activity n = 0 then some n.1 else none
  else if 2 ≤ i && get (i - 1) == get (i - 2) then some (get (i - 1))
  else none

/-- R166, R167: rmax at sample i of a block that ends before `fin`. -/
def runMax (g : AhCfg) (i fin : Nat) : Nat := if g.raster then min (g.w - i % g.w) (fin - i) else fin - i

/-! ## The coder (R164) -/

/-- R164: the least k with N × 2^k ≥ A, from k up. -/
def grK (a n : Nat) : Nat → Nat → Nat
  | 0, k => k
  | f + 1, k => if n * 2 ^ k < a then grK a n f (k + 1) else k

/-- R164: the counters after a value. -/
def grUpdate (c : Nat × Nat) (m : Nat) : Nat × Nat :=
  let a := c.1 + m
  if c.2 + 1 = 64 then (a / 2, 32) else (a, c.2 + 1)

/-- R164: the low n bits of v, most significant first. -/
def msbBits (v : Nat) : Nat → List Bool
  | 0 => []
  | n + 1 => v.testBit n :: msbBits v n

/-- R164: the code of m. -/
def grPut (m : Nat) (c : Nat × Nat) (e : Nat) : List Bool :=
  let k := grK c.1 c.2 64 0
  let q := m / 2 ^ k
  if q < 24 then List.replicate q false ++ true :: msbBits m k
  else List.replicate 24 false ++ true :: msbBits m e

/-- R169: n bits read most significant first; none beyond the payload. -/
def takeBits : Nat → Nat → List Bool → Option (Nat × List Bool)
  | 0, acc, bs => some (acc, bs)
  | _ + 1, _, [] => none
  | n + 1, acc, b :: bs => takeBits n (2 * acc + if b then 1 else 0) bs

/-- R164: the zeros before the first one, at most 24, and what follows that one. -/
def takeZeros : Nat → Nat → List Bool → Option (Nat × List Bool)
  | _, _, [] => none
  | _, q, true :: bs => some (q, bs)
  | 0, _, false :: _ => none
  | f + 1, q, false :: bs => takeZeros f (q + 1) bs

/-- R169 step 11: a code read; none where the code is one that the coder never writes. -/
def grGet (bs : List Bool) (c : Nat × Nat) (e : Nat) : Option (Nat × List Bool) :=
  let k := grK c.1 c.2 64 0
  match takeZeros 24 0 bs with
  | none => none
  | some (q, r) =>
    if q < 24 then (takeBits k 0 r).map fun v => (q * 2 ^ k + v.1, v.2)
    else
      match takeBits e 0 r with
      | some (m, r') => if m / 2 ^ k < 24 then none else some (m, r')
      | none => none

/-! ## Encoding a block (R166 to R168) -/

/-- R166: the run length at sample i. -/
def runLen (get : Nat → Nat) (v i : Nat) : Nat → Nat
  | 0 => 0
  | n + 1 => if get i = v then 1 + runLen get v (i + 1) n else 0

/-- R163, R164: sample i coded in regular mode. -/
def codeRegular (g : AhCfg) (pred : Nat) (get : Nat → Nat) (i : Nat) (s : AhCtx) : List Bool × AhCtx :=
  let md := modelAt g pred get s i
  let m := mapResidue g (get i) md.1
  let c := s.reg g md.2
  (grPut m c g.d, { s with ctx := Tbl.set s.ctx md.2 (grUpdate c m), lastM := m })

/-- R166: the samples from i to before `fin`. -/
def encLoop (g : AhCfg) (pred : Nat) (get : Nat → Nat) (fin : Nat) :
    Nat → Nat → AhCtx → List (List Bool) → List (List Bool) × AhCtx
  | 0, _, s, acc => (acc, s)
  | f + 1, i, s, acc =>
    if fin ≤ i then (acc, s)
    else
      match runAt g get i with
      | some v =>
        let rm := runMax g i fin
        let r := runLen get v i rm
        let p := g.plane i
        let c := s.runOf p
        let s1 := { s with run := Tbl.set s.run p (grUpdate c r) }
        let acc1 := grPut r c 17 :: acc
        if r = rm then encLoop g pred get fin f (i + r) s1 acc1
        else
          let q := codeRegular g pred get (i + r) s1
          encLoop g pred get fin f (i + r + 1) q.2 (q.1 :: acc1)
      | none =>
        let q := codeRegular g pred get i s
        encLoop g pred get fin f (i + 1) q.2 (q.1 :: acc)

/-- R159: a bit string packed most significant bit first and padded with zeros. -/
def packMsb : Nat → List Bool → Bytes
  | 0, _ => []
  | n + 1, bs =>
    let b := bs.take 8
    BitVec.ofNat 8 ((b ++ List.replicate (8 - b.length) false).foldl (fun a x => 2 * a + if x then 1 else 0) 0) ::
      packMsb n (bs.drop 8)

/-- R168: the sum of m over a block with a predictor, every sample in regular mode. -/
def predCost (g : AhCfg) (get : Nat → Nat) (lo fin pred : Nat) : Nat :=
  ((List.range (fin - lo)).map fun t => mapResidue g (get (lo + t)) (modelAt g pred get {} (lo + t)).1).sum

/-- R168: the predictor chosen: the fixed one, or the least sum and the lowest code on a tie. -/
def choosePred (g : AhCfg) (get : Nat → Nat) (lo fin pred : Nat) : Nat :=
  if !g.raster then 0
  else if pred ≠ 0 then pred
  else
    let c := [1, 2, 3, 4].map fun p => (p, predCost g get lo fin p)
    (c.foldl (fun (b : Nat × Nat) q => if q.2 < b.2 then q else b) (1, predCost g get lo fin 1)).1

/-- R157: the uncompressed bytes of the samples lo to before fin. -/
def rawBytes (g : AhCfg) (get : Nat → Nat) (lo fin : Nat) : Bytes :=
  (List.range (fin - lo)).flatMap fun t => leBytes g.sb (g.flip (get (lo + t)))

/-- R159: a block header. -/
def blockHeader (len ulen : Nat) (raw : Bool) (pred : Nat) (u : Bytes) : Bytes :=
  leBytes 4 len ++ leBytes 4 ulen ++ leBytes 1 (if raw then 1 else 0) ++ leBytes 1 pred ++ zeros 2 ++ leBytes 4 (crc32c u)

/-- R168: one block, header and payload, with the counters after it. -/
def encBlock (g : AhCfg) (pred : Nat) (get : Nat → Nat) (lo fin : Nat) (s : AhCtx) : Bytes × AhCtx :=
  let p := choosePred g get lo fin pred
  let q := encLoop g p get fin (fin - lo) lo s []
  let bs := q.1.reverse.flatten
  let n := ceilDiv bs.length 8
  let u := rawBytes g get lo fin
  if n < u.length then (blockHeader n u.length false p u ++ packMsb n bs, q.2)
  else (blockHeader u.length u.length true 0 u ++ u, s)

/-- R168: blocks n to before n + k. -/
def encBlocks (g : AhCfg) (pred : Nat) (get : Nat → Nat) (total : Nat) : Nat → Nat → AhCtx → Bytes → Bytes × AhCtx
  | 0, _, s, acc => (acc, s)
  | k + 1, n, s, acc =>
    let b := encBlock g pred get (g.perBlock * n) (min total (g.perBlock * (n + 1))) s
    encBlocks g pred get total k (n + 1) b.2 (acc ++ b.1)

/-- R156: the stream header. -/
def streamHeader (g : AhCfg) (total : Nat) (digest : Bytes) : Bytes :=
  leBytes 4 0x544E4841 ++ leBytes 1 1 ++ leBytes 1 (if g.raster then 0 else 1) ++ leBytes 1 g.ch ++ leBytes 1 g.d ++
  leBytes 2 g.w ++ leBytes 2 g.h ++ leBytes 1 (if g.signed then 1 else 0) ++ zeros 3 ++ leBytes 8 total ++
  leBytes 4 (ceilDiv total 65536) ++ zeros 4 ++ sliceZ digest 0 32

/-- R168: the whole stream of coded-domain samples. -/
def encodeStream (g : AhCfg) (pred : Nat) (samples : List Nat) : Bytes :=
  let a := samples.toArray
  let get (i : Nat) : Nat := a.getD i 0
  let u := rawBytes g get 0 samples.length
  streamHeader g u.length (sha3_512 u) ++
    (encBlocks g pred get samples.length (ceilDiv u.length 65536) 0 {} []).1

/-! ## Decoding (R169) -/

/-- R169: the stream header read, when steps 1 to 4 pass. -/
def ahHeader (b : Bytes) : Except Nat (AhCfg × Nat × Nat) :=
  if b.length < 4 || fieldAt b 0 4 ≠ 0x544E4841 then .error stCorrupt
  else if b.length < 64 then .error stTruncated
  else if fieldAt b 4 1 ≠ 1 then .error stUnsupported
  else
    let kind := fieldAt b 5 1
    let g : AhCfg := { raster := kind == 0, w := fieldAt b 8 2, h := fieldAt b 10 2, ch := fieldAt b 6 1,
                       d := fieldAt b 7 1, signed := fieldAt b 12 1 == 1 }
    let total := fieldAt b 16 8
    let ok := kind ≤ 1 && fieldAt b 12 1 ≤ (if kind == 0 then 1 else 0) && fieldAt b 13 3 == 0 && fieldAt b 28 4 == 0 &&
      (if kind == 0 then
        1 ≤ g.ch && g.ch ≤ 4 && (g.d == 8 || g.d == 12 || g.d == 16) && 1 ≤ g.w && g.w ≤ 16384 && 1 ≤ g.h &&
        g.h ≤ 16384 && total == g.w * g.h * g.ch * g.sb
       else g.ch == 0 && g.d == 8 && g.w == 0 && g.h == 0 && 1 ≤ total && total < 2 ^ 32) &&
      fieldAt b 24 4 == ceilDiv total 65536
    if ok then .ok (g, total, fieldAt b 24 4) else .error stCorrupt

/-- R169 step 11: one regular code. -/
def decRegular (g : AhCfg) (pred : Nat) (out : Array Nat) (s : AhCtx) (bs : List Bool) :
    Option (Nat × AhCtx × List Bool) :=
  let md := modelAt g pred (fun i => out.getD i 0) s out.size
  let c := s.reg g md.2
  match grGet bs c g.d with
  | some (m, r) =>
    if 2 ^ g.d ≤ m then none
    else some (unmapResidue g m md.1, { s with ctx := Tbl.set s.ctx md.2 (grUpdate c m), lastM := m }, r)
  | none => none

/-- R169 step 11: the samples of a coded block up to `fin`. -/
def decLoop (g : AhCfg) (pred fin : Nat) : Nat → Array Nat → AhCtx → List Bool → Option (Array Nat × AhCtx × List Bool)
  | 0, out, s, bs => some (out, s, bs)
  | f + 1, out, s, bs =>
    if fin ≤ out.size then some (out, s, bs)
    else
      match runAt g (fun i => out.getD i 0) out.size with
      | some v =>
        let p := g.plane out.size
        let c := s.runOf p
        let rm := runMax g out.size fin
        match grGet bs c 17 with
        | none => none
        | some (r, bs1) =>
          if rm < r then none
          else
            let s1 := { s with run := Tbl.set s.run p (grUpdate c r) }
            let out1 := out ++ (List.replicate r v).toArray
            if r = rm then decLoop g pred fin f out1 s1 bs1
            else
              match decRegular g pred out1 s1 bs1 with
              | some (x, s2, bs2) => if x = v then none else decLoop g pred fin f (out1.push x) s2 bs2
              | none => none
      | none =>
        match decRegular g pred out s bs with
        | some (x, s1, bs1) => decLoop g pred fin f (out.push x) s1 bs1
        | none => none

/-- R159: the bits of a payload. -/
def bitsOf (b : Bytes) : List Bool := b.flatMap fun x => msbBits x.toNat 8

/-- R158: the samples of raw bytes, in the coded domain. -/
def rawSamples (g : AhCfg) (u : Bytes) : List Nat :=
  (List.range (u.length / g.sb)).map fun i => g.flip (fieldAt u (g.sb * i) g.sb)

/-- R169 steps 8 to 13: block n at the start of the input. -/
def decBlock (g : AhCfg) (total n : Nat) (b : Bytes) (out : Array Nat) (s : AhCtx) :
    Except Nat (Array Nat × AhCtx × Bytes) :=
  if b.length < 16 then .error stTruncated
  else
    let plen := fieldAt b 0 4
    let ulen := fieldAt b 4 4
    let raw := fieldAt b 8 1 == 1
    let pred := fieldAt b 9 1
    if 1 < fieldAt b 8 1 || fieldAt b 10 2 ≠ 0 || plen = 0 || 65536 < plen ||
        ulen ≠ min total (65536 * (n + 1)) - 65536 * n ||
        (if raw || !g.raster then pred ≠ 0 else (pred = 0 || 4 < pred)) || (raw && plen ≠ ulen) then .error stCorrupt
    else if b.length < 16 + plen then .error stTruncated
    else
      let pay := (b.drop 16).take plen
      let rest := b.drop (16 + plen)
      let lo := out.size
      let fin := lo + ulen / g.sb
      let res : Option (Array Nat × AhCtx) :=
        if raw then
          let xs := rawSamples g pay
          if g.raster && g.d == 12 && (List.range (ulen / 2)).any fun i => decide (2 ^ 12 ≤ fieldAt pay (2 * i) 2) then none
          else some (out ++ xs.toArray, s)
        else
          match decLoop g pred fin (fin - lo) out s (bitsOf pay) with
          | some (o, s1, left) => if left.length < 8 && left.all (fun x => !x) then some (o, s1) else none
          | none => none
      match res with
      | none => .error stCorrupt
      | some (o, s1) =>
        if crc32c (rawBytes g (fun i => o.getD i 0) lo fin) ≠ fieldAt b 12 4 then .error stCorrupt
        else .ok (o, s1, rest)

/-- R169: blocks n to before n + k, with the counters and the input after them. -/
def decBlocks (g : AhCfg) (total : Nat) : Nat → Nat → Bytes → Array Nat → AhCtx → Except Nat (Array Nat × AhCtx × Bytes)
  | 0, _, b, out, s => .ok (out, s, b)
  | k + 1, n, b, out, s =>
    match decBlock g total n b out s with
    | .error e => .error e
    | .ok (o, s1, r) => decBlocks g total k (n + 1) r o s1

/-- R116: planes that a DECODE stage writes: only the first with CHROMA_OUT 2. -/
def ahPlanes (g : AhCfg) (first : Bool) : Nat := if first then 1 else g.ch

/-- R172: the decoded form: the record of a raster, the bytes of a byte stream. -/
def ahOutput (g : AhCfg) (first : Bool) (out : Array Nat) : Bytes :=
  if g.raster then
    let n := g.w * g.h
    recHeader 6 g.w g.h (ahPlanes g first) g.d (if g.signed then 1 else 0) g.sb 1 (zeros 8) ++
      (List.range (ahPlanes g first)).flatMap fun c => padTo ((List.range n).flatMap fun i =>
        let v := g.flip (out.getD (c * n + i) 0)
        leBytes g.sb (if g.signed then ofSigned (8 * g.sb) (toSigned g.d v) else v)) 128
  else out.toList.map fun v => BitVec.ofNat 8 v

/-- R172: the length of the decoded form. -/
def ahOutLen (g : AhCfg) (first : Bool) (total : Nat) : Nat :=
  if g.raster then recLength g.w g.h (ahPlanes g first) g.sb 1 else total

/-- R169 steps 2 to 7, and R170: the checks before allocation; `stage` says that a DECODE stage decodes, and `first` that it
writes only the first plane. Step 7 stands for the whole of step 6 of R113, MAX_WIDTH and MAX_HEIGHT among it. (DEDUCED, log entry 34) -/
def ahChecks (b : Bytes) (stage first : Bool) (outMax : Nat) : Except Nat (AhCfg × Nat × Nat) :=
  match ahHeader b with
  | .error e => .error e
  | .ok (g, total, blocks) =>
    if stage && !g.raster then .error stUnsupported
    else if b.length - 64 < 17 * blocks then .error stDimension
    else if outMax < ahOutLen g first total then .error stBound
    else .ok (g, total, blocks)

/-- R169: the decoder. -/
def ahDecode (b : Bytes) (stage first : Bool) (outMax : Nat) : Except Nat Bytes :=
  match ahChecks b stage first outMax with
  | .error e => .error e
  | .ok (g, total, blocks) =>
    match decBlocks g total blocks 0 (b.drop 64) #[] {} with
    | .error e => .error e
    | .ok (out, _, _) =>
      if (sha3_512 (rawBytes g (fun i => out.getD i 0) 0 out.size)).take 32 ≠ (b.drop 32).take 32 then .error stCorrupt
      else .ok (ahOutput g first out)

/-! ## Stage use (R171, R172) -/

/-- R172: whether a record is one that the encoder accepts. -/
def ahAccepts (r : Rec) : Bool :=
  r.frames == 1 && r.chroma == 0 && r.kind ≤ 1 && (r.depth == 8 || r.depth == 12 || r.depth == 16) &&
  r.sbytes == (if r.depth == 8 then 1 else 2)

/-- R157: the samples of a record, planes in channel order. -/
def recSamples (r : Rec) : List Int :=
  (List.range r.comps).flatMap fun c => (List.range r.height).flatMap fun y => (List.range r.width).map fun x => r.value 0 c x y

/-- R172: the encoder's configuration and coded-domain samples for an input, its checks made. -/
def ahEncInput (d : Desc) (b : Bytes) : Except Nat (AhCfg × List Nat) :=
  if bit (d.word 4) 4 then
    if b.isEmpty || 2 ^ 32 ≤ b.length then .error stUnsupported
    else .ok ({ raster := false, w := 0, h := 0, ch := 0, d := 8, signed := false }, b.map fun x => x.toNat)
  else
    match recOf b with
    | none => .error stUnsupported
    | some r =>
      let g : AhCfg := { raster := true, w := r.width, h := r.height, ch := r.comps, d := r.depth, signed := r.kind == 1 }
      let xs := recSamples r
      let lim := sampleRange r.kind r.depth
      if !ahAccepts r || xs.any (fun v => decide (v < lim.1) || decide (lim.2 < v)) then .error stUnsupported
      else .ok (g, xs.map fun v => g.flip (ofSigned r.depth v))

/-- R172: the output of a CODEC stage that encodes. -/
def ahEncodeStage (d : Desc) (b : Bytes) : Except Nat Bytes :=
  match ahEncInput d b with
  | .error e => .error e
  | .ok (g, xs) =>
    let total := xs.length * g.sb
    if d.outMax < 64 + total + 16 * ceilDiv total 65536 then .error stBound
    else .ok (encodeStream g (bits (d.word 4) 3 1) xs)

/-- R171, R172: the output of a CODEC stage. -/
def codecStage (g : StageIn) : Except Nat Bytes :=
  if bit (g.desc.word 4) 0 then ahDecode (g.input 0) false false g.desc.outMax
  else ahEncodeStage g.desc (g.input 0)

/-- R171: whether a stage that a codec engine runs encodes; a DECODE stage decodes. -/
def ahEncodes (d : Desc) : Bool := d.type == tCodec && !bit (d.word 4) 0

/-- R174, R169: the blocks that a decoder takes up: those of the stream, up to the first that fails a check. -/
def decSteps (g : AhCfg) (total : Nat) : Nat → Nat → Bytes → Array Nat → AhCtx → Nat
  | 0, _, _, _, _ => 0
  | k + 1, n, b, out, s =>
    match decBlock g total n b out s with
    | .error _ => 1
    | .ok (o, s1, r) => 1 + decSteps g total k (n + 1) r o s1

/-- R174: the blocks that an engine takes up for a stage; 1 for an input that the checks before the first block end. -/
def codecBlocks (d : Desc) (b : Bytes) : Nat :=
  if ahEncodes d then
    (match ahEncInput d b with
     | .ok (g, xs) => max 1 (ceilDiv (xs.length * g.sb) 65536)
     | .error _ => 1)
  else
    match ahHeader b with
    | .ok (g, total, n) => max 1 (decSteps g total n 0 (b.drop 64) #[] {})
    | .error _ => 1

/-! ## State snapshot (R173) -/

/-- R173: the state of a stream between two blocks. -/
structure AhPoint where
  /-- R173: DIR is decode. -/
  decode : Bool := false
  /-- R156: what fixes the coding. -/
  cfg : AhCfg
  /-- R173: NEXT_BLOCK. -/
  next : Nat := 0
  /-- R173: IN_OFFSET. -/
  inOff : Nat := 0
  /-- R173: OUT_OFFSET. -/
  outOff : Nat := 0
  /-- R173: STREAM_HEADER. -/
  header : Bytes := []
  /-- R173: the uncompressed bytes so far. -/
  seen : Bytes := []
  /-- R165: the counters. -/
  ctx : AhCtx := {}
  deriving DecidableEq, Repr

/-- R173: the encoder between two blocks of the samples `xs`. -/
def encPoint (g : AhCfg) (pred : Nat) (xs : List Nat) (n : Nat) : AhPoint :=
  let a := xs.toArray
  let get (i : Nat) : Nat := a.getD i 0
  let e := encBlocks g pred get xs.length n 0 {} []
  let seen := rawBytes g get 0 (min xs.length (g.perBlock * n))
  { cfg := g, next := n, inOff := seen.length, outOff := 64 + e.1.length,
    header := streamHeader g (xs.length * g.sb) (zeros 32), seen := seen, ctx := e.2 }

/-- R173: the decoder between two blocks of the stream `b`. -/
def decPoint (g : AhCfg) (total : Nat) (b : Bytes) (n : Nat) : AhPoint :=
  let p : AhPoint := { decode := true, cfg := g, next := n, header := b.take 64 }
  match decBlocks g total n 0 (b.drop 64) #[] {} with
  | .ok (out, s, r) =>
    let seen := rawBytes g (fun i => out.getD i 0) 0 out.size
    { p with inOff := b.length - r.length, outOff := seen.length, seen := seen, ctx := s }
  | .error _ => p

/-- R173: a context's 8 bytes. -/
def ctxBytes (c : Nat × Nat) : Bytes := leBytes 4 c.1 ++ leBytes 2 c.2 ++ zeros 2

/-- R173: the snapshot of a state. IN_OFFSET of an encoder and OUT_OFFSET of a decoder count uncompressed bytes. (DEDUCED, log entry 170) -/
def AhPoint.bytes (p : AhPoint) : Bytes :=
  let k := p.seen.length / 72
  let body := leBytes 4 0x53534841 ++ leBytes 2 1 ++ leBytes 1 (if p.decode then 1 else 0) ++ zeros 1 ++ leBytes 8 p.next ++
    leBytes 8 p.inOff ++ leBytes 8 p.outOff ++ sliceZ p.header 0 64 ++
    laneBytes (absorbAll 72 zeroLanes p.seen k) ++ leBytes 1 (p.seen.length - 72 * k) ++ zeros 7 ++
    sliceZ (p.seen.drop (72 * k)) 0 72 ++ zeros 8 ++
    ((List.range 64).flatMap fun c => ctxBytes (p.ctx.reg p.cfg c)) ++ ((List.range 4).flatMap fun q => ctxBytes (p.ctx.runOf q)) ++
    leBytes 4 p.ctx.lastM ++ zeros 3160
  body ++ leBytes 4 (crc32c body)

/-- R156: what fixes the coding of a byte stream. -/
def AhCfg.byteStream : AhCfg := { raster := false, w := 0, h := 0, ch := 0, d := 8, signed := false }

/-- R173, R174: the state of a stage that a codec engine runs, after n blocks of its input. -/
def codecPoint (d : Desc) (b : Bytes) (n : Nat) : AhPoint :=
  if ahEncodes d then
    (match ahEncInput d b with
     | .ok (g, xs) => encPoint g (bits (d.word 4) 3 1) xs n
     | .error _ => { cfg := AhCfg.byteStream })
  else
    match ahHeader b with
    | .ok (g, total, _) => decPoint g total b n
    | .error _ => { decode := true, cfg := AhCfg.byteStream }

/-- R174: MAGIC, VERSION and CRC of a snapshot that is restored. -/
def codecStateOk (b : Bytes) : Bool :=
  b.length == 4096 && fieldAt b 0 4 == 0x53534841 && fieldAt b 4 2 == 1 && fieldAt b 4092 4 == crc32c (b.take 4092)

/-- R340: the length of the record that begins with a header, its planes whole. -/
def recLen (b : Bytes) : Nat := fieldAt b 36 4 + fieldAt b 14 2 * fieldAt b 16 4

/-- R116: the samples of a record of one frame whose bytes have arrived, planes in channel order. -/
def recArrived (r : Rec) (len : Nat) : Nat :=
  ((List.range r.comps).map fun c =>
    min (r.width * r.height) ((len - (r.dataOff + r.planes.getD c 0)) / max 1 r.sbytes)).sum

/-- R173, R174, R340: the state of an encoder to which the first bytes of its input have come: after every block of which
each sample has arrived. -/
def heldPoint (d : Desc) (b : Bytes) : AhPoint :=
  if bit (d.word 4) 4 then encPoint AhCfg.byteStream 0 (b.map BitVec.toNat) (b.length / 65536)
  else
    let whole := sliceZ b 0 (recLen b)
    match recOf whole, ahEncInput d whole with
    | some r, .ok (g, xs) => encPoint g (bits (d.word 4) 3 1) xs (recArrived r b.length / g.perBlock)
    | _, _ => { cfg := AhCfg.byteStream }

end Sys2Proof.Machine
end

