-- ==== Sys2Proof/Machine/Carousel.lean ====
section
/-! DEFINITION. The Carousel's decisions (R176 to R189), the make-up of batches (R197), payload layout (R198, R199)
and the manifest (R206 to R208, R228). -/

namespace Sys2Proof.Machine

/-! ## Keys (R143, R178) -/

/-- R143: SHA3-512 over SEED and CORPUS_ID. -/
def seedDigest (seed corpus : Nat) : Bytes := sha3_512 (leBytes 8 seed ++ leBytes 4 corpus)
/-- R143: K. -/
def rngKey (seed corpus : Nat) : Bytes := (seedDigest seed corpus).take 16
/-- R178: K_C. -/
def carouselKey (seed corpus : Nat) : Quad := keyWords (((seedDigest seed corpus).drop 16).take 16)
/-- R185: CHECK. -/
def planCheck (seed corpus : Nat) : Nat := fieldAt (seedDigest seed corpus) 32 4
/-- R178: K_P. -/
def placeKey (seed corpus : Nat) : Quad := keyWords ((sha3_512 (leBytes 8 seed ++ leBytes 4 corpus ++ [0x50])).take 16)

/-! ## Placement (R176, R180 to R183) -/

/-- R180: the home of sample idx. -/
def homeOf (kp : Quad) (n idx : Nat) : Nat :=
  let q := chash kp 1 0 0 idx
  n * (q.w1.toNat * 2 ^ 32 + q.w0.toNat) / 2 ^ 64

/-- R182: coordinates as a triple. -/
abbrev Coord3 := Nat × Nat × Nat

/-- R176: the coordinates of member r. -/
def memberCoord (g r : Nat) : Coord3 := (geoCoord g r 0, geoCoord g r 1, geoCoord g r 2)

/-- R176: the member at coordinates. -/
def coordMember (g : Nat) (c : Coord3) : Nat := geoRank g c.1 c.2.1 c.2.2

/-- R182: one hop in dimension d. -/
def hop (g d : Nat) (c : Coord3) : Coord3 :=
  match d with
  | 0 => ((c.1 + 1) % geoDim g 0, c.2.1, c.2.2)
  | 1 => (c.1, (c.2.1 + 1) % geoDim g 1, c.2.2)
  | _ => (c.1, c.2.1, (c.2.2 + 1) % geoDim g 2)

/-- R182: the drift over epochs 0 to e − 1. -/
def drifted (kp : Quad) (g shift idx : Nat) (c : Coord3) : Nat → Coord3
  | 0 => c
  | t + 1 =>
    let c' := drifted kp g shift idx c t
    if (chash kp 3 t 0 idx).w0.toNat < 2 ^ (32 - shift) then hop g (t % 3) c' else c'

/-- R182: loc(idx, e), as a member. -/
def locOf (kp : Quad) (g shift idx e : Nat) : Nat :=
  let c := memberCoord g (homeOf kp (geoCount g) idx)
  coordMember g (if shift = 0 then c else drifted kp g shift idx c e)

/-- R183: the portion of sample idx in epoch e. -/
def portionOf (kc : Quad) (s e idx : Nat) : Nat := s ^ 3 * (chash kc 2 e 0 idx).w0.toNat / 2 ^ 32

/-- R183: member u + o_j. -/
def offsetMember (g s u j : Nat) : Nat :=
  let q := (s - 1) / 2
  let c := memberCoord g u
  let at_ (x d o : Nat) : Nat := (x + o + d * s - q) % d
  coordMember g (at_ c.1 (geoDim g 0) (j % s), at_ c.2.1 (geoDim g 1) (j / s % s), at_ c.2.2 (geoDim g 2) (j / (s * s)))

/-- R184: member v − o_j, the source of portion j at v. -/
def sourceMember (g s v j : Nat) : Nat :=
  let q := (s - 1) / 2
  let c := memberCoord g v
  let at_ (x d o : Nat) : Nat := (x + q + d * s - o) % d
  coordMember g (at_ c.1 (geoDim g 0) (j % s), at_ c.2.1 (geoDim g 1) (j / s % s), at_ c.2.2 (geoDim g 2) (j / (s * s)))

/-- R194: the owner of a band. -/
def bandOwner (kp : Quad) (n k band : Nat) : Nat := n * (chash kp 7 k 0 band).w0.toNat / 2 ^ 32

/-! ## Order (R188, R189, R201) -/

/-- R188: the smallest even width. -/
def permWidth (n : Nat) : Nat → Nat → Nat
  | 0, h => h
  | f + 1, h => if 2 ^ (2 * h) < n then permWidth n f (h + 1) else h

/-- R188: the Feistel rounds from round 8 − r. -/
def feistel (kc : Quad) (tag e m h : Nat) : Nat → Nat → Nat → Nat × Nat
  | 0, l, r => (l, r)
  | k + 1, l, r =>
    let f := (chash kc tag e (m * 8 + (7 - k)) r).w0.toNat % 2 ^ h
    feistel kc tag e m h k r (l ^^^ f)

/-- R188: one pass. -/
def permPass (kc : Quad) (tag e m h x : Nat) : Nat :=
  let q := feistel kc tag e m h 8 (x / 2 ^ h) (x % 2 ^ h)
  q.1 * 2 ^ h + q.2

/-- R188: passes until the value is below n; `f` bounds their number by the length of a cycle. -/
def permWalk (kc : Quad) (n tag e m h : Nat) : Nat → Nat → Nat
  | 0, x => x
  | f + 1, x =>
    let y := permPass kc tag e m h x
    if y < n then y else permWalk kc n tag e m h f y

/-- R188: perm(p, n, tag, e, m). -/
def perm (kc : Quad) (p n tag e m : Nat) : Nat :=
  let h := permWidth n 40 1
  permWalk kc n tag e m h (2 ^ (2 * h)) p

/-- R189: the samples of a member in exact mode, by stream position, from the whole epoch set G. -/
def exactOrder (kc : Quad) (g : List (Nat × Nat)) (n e member : Nat) : List (Nat × Nat) :=
  let m := g.length
  let a := g.toArray
  (List.range (if member < m then ceilDiv (m - member) n else 0)).map fun i =>
    a.getD (perm kc (i * n + member) m 6 e 0) (0, 0)

/-- Entries in increasing index, the first of those with one index kept, with the number dropped. -/
def mergeEntries (l : List (Nat × Nat)) : List (Nat × Nat) × Nat :=
  let s := l.mergeSort fun p q => decide (p.1 ≤ q.1)
  let r := s.foldr (fun e (acc : List (Nat × Nat)) =>
    match acc with
    | x :: _ => if x.1 = e.1 then e :: acc.drop 1 else e :: acc
    | [] => [e]) []
  (r, l.length - r.length)

/-! ## The make-up of batches (R197) -/

/-- R197: what fixes the make-up: mode, BATCH_COUNT, BYTE_BUDGET (ROW_TOKENS) and token size. -/
structure BatchCfg where
  /-- R197: BATCH_MODE. -/
  mode : Nat
  /-- R197: BATCH_COUNT. -/
  count : Nat
  /-- R197: BYTE_BUDGET. -/
  budget : Nat
  /-- R196: token size in bytes. -/
  token : Nat
  deriving DecidableEq, Repr

/-- R197: a batch being formed: positions and spans, newest first, bytes used, tokens used in each row, size. -/
structure Forming where
  /-- R197: positions, newest first. -/
  ps : List Nat := []
  /-- R197: spans, newest first. -/
  spans : List (Nat × Nat) := []
  /-- R197: logical bytes. -/
  bytes : Nat := 0
  /-- R197: tokens used in each row. -/
  rows : List Nat := []
  /-- R197: size. -/
  size : Nat := 0
  deriving DecidableEq, Repr

/-- R197: the tokens that a position needs. -/
def tokensOf (c : BatchCfg) (len : Nat) : Nat := max 1 (min (len / c.token) c.budget)

/-- R197: fits and place: the batch with the position placed, when it fits. -/
def tryPlace (c : BatchCfg) (f : Forming) (p len : Nat) : Option Forming :=
  if c.mode = 1 then
    if f.bytes + len ≤ c.budget then some { f with ps := p :: f.ps, bytes := f.bytes + len, size := f.size + 1 } else none
  else
    let t := tokensOf c len
    let r := (List.range c.count).find? fun r => f.rows.getD r 0 + t ≤ c.budget
    r.map fun r =>
      let u := f.rows.getD r 0
      { f with ps := p :: f.ps, spans := (r * c.budget + u, t) :: f.spans, size := f.size + 1,
               rows := (f.rows ++ List.replicate (r + 1 - f.rows.length) 0).set r (u + t) }

/-- R197: one batch from the unassigned positions, with those left over. -/
def formBatch (c : BatchCfg) (len : Nat → Nat) : List Nat → Nat → Forming → List Nat → Forming × List Nat
  | [], _, f, kept => (f, kept.reverse)
  | p :: r, skipped, f, kept =>
    if 64 ≤ skipped || 65536 ≤ f.size then (f, kept.reverse ++ p :: r)
    else
      match tryPlace c f p (len p) with
      | some f' => formBatch c len r skipped f' kept
      | none => formBatch c len r (skipped + 1) f (p :: kept)

/-- R197: the batches of BYTES and SEQUENCE mode. -/
def formBatches (c : BatchCfg) (len : Nat → Nat) : Nat → List Nat → List BatchPlan
  | 0, _ => []
  | _ + 1, [] => []
  | k + 1, p :: r =>
    let q := formBatch c len (p :: r) 0 {} []
    if q.1.size = 0 then { positions := [p], oversize := true } :: formBatches c len k r
    else { positions := q.1.ps.reverse, spans := q.1.spans.reverse } :: formBatches c len k q.2

/-- R197: the batches of an epoch of n positions with their logical lengths. -/
def planBatches (c : BatchCfg) (n : Nat) (len : Nat → Nat) : List BatchPlan :=
  if c.mode = 0 then
    (List.range (ceilDiv n c.count)).map fun b =>
      { positions := (List.range (min (c.count * (b + 1)) n - c.count * b)).map fun i => c.count * b + i }
  else formBatches c len n (List.range n)

/-! ## Payload (R198, R199) -/

/-- R198: what fixes the layout. -/
structure PackCfg where
  /-- R197: the batch modes. -/
  batch : BatchCfg
  /-- R196: SLOT_BYTES. -/
  slot : Nat
  deriving DecidableEq, Repr

/-- R198: the position entries of a batch: placed and padded ones. -/
def positionEntries (es : List Entry) : List Entry := es.filter fun e => e.kind ≠ 1
/-- R207: the tail entries. -/
def tailEntries (es : List Entry) : List Entry := es.filter fun e => e.kind == 1

/-- R198: bytes that an entry places. -/
def entryBytes (e : Entry) : Bytes := if e.kind = 0 then e.output else []

/-- R198: data and the offset of each entry in slot layout, from entry k. -/
def slotLayout (slot : Nat) : List Entry → Nat → Bytes × List Nat
  | [], _ => ([], [])
  | e :: r, k =>
    let q := slotLayout slot r (k + 1)
    (sliceZ (entryBytes e) 0 slot ++ q.1, k * slot :: q.2)

/-- R198: data and offsets in the variable layout, from offset `off`; an entry that places nothing takes no bytes. -/
def varLayout : List Entry → Nat → Bytes × List Nat
  | [], _ => ([], [])
  | e :: r, off =>
    let b := padTo (entryBytes e) 128
    let q := varLayout r (off + b.length)
    (b ++ q.1, off :: q.2)

/-- R198: the span of a position in a batch. -/
def spanOf (p : BatchPlan) (pos : Nat) : Nat × Nat :=
  match (p.positions.zip p.spans).find? fun x => x.1 == pos with
  | some x => x.2
  | none => (0, 0)

/-- R198: the placed entries of a row in placement order, numbered from 1: their spans with the number. -/
def rowNumbers (row len : Nat) (l : List ((Nat × Nat) × Entry)) : List ((Nat × Nat) × Nat) :=
  (((l.filter fun x => x.1.1 / len == row && x.2.kind == 0).map Prod.fst).zipIdx 1)

/-- R198: token t of the TOKENS array. -/
def tokenAt (size t : Nat) (l : List ((Nat × Nat) × Entry)) : Bytes :=
  match l.find? fun x => x.1.1 ≤ t && t < x.1.1 + x.1.2 with
  | some x => sliceZ ((entryBytes x.2).drop (size * (t - x.1.1))) 0 size
  | none => zeros size

/-- R198: the whole payload of a batch with its plan, and the OFFSET of each position entry. -/
def payloadOf (c : PackCfg) (p : BatchPlan) (es : List Entry) : Bytes × List Nat :=
  let ps := positionEntries es
  let d : Bytes × List Nat :=
    if c.batch.mode = 2 then
      let l := ps.map fun e => (spanOf p e.pos, e)
      let n := c.batch.count * c.batch.budget
      let nums := (List.range c.batch.count).flatMap fun r => rowNumbers r c.batch.budget l
      let seg (t : Nat) : Nat := ((nums.find? fun x => x.1.1 ≤ t && t < x.1.1 + x.1.2).map Prod.snd).getD 0
      (padTo ((List.range n).flatMap fun t => tokenAt c.batch.token t l) 128 ++
        padTo ((List.range n).flatMap fun t => leBytes 2 (seg t)) 128, l.map fun x => x.1.1)
    else if c.batch.mode = 0 && c.slot ≠ 0 then slotLayout c.slot ps 0
    else varLayout ps 0
  let mask := packBytes (ps.map fun e => e.kind == 0)
  (padTo (padTo d.1 128 ++ mask) 128, d.2)
where
  /-- R198: bits packed from bit 0 of the first byte. -/
  packBytes (l : List Bool) : Bytes :=
    leBytes (ceilDiv l.length 8) (l.zipIdx.foldl (fun a x => if x.1 then a + 2 ^ x.2 else a) 0)

/-- R199: the length of the payload, without its bytes. -/
def payloadLength (c : PackCfg) (es : List Entry) : Nat :=
  let ps := positionEntries es
  let d :=
    if c.batch.mode = 2 then
      let n := c.batch.count * c.batch.budget
      up128' (n * c.batch.token) + up128' (n * 2)
    else if c.batch.mode = 0 && c.slot ≠ 0 then up128' (ps.length * c.slot)
    else (ps.map fun e => up128' (entryBytes e).length).sum
  d + up128' (ceilDiv ps.length 8)
where
  /-- R198: the next multiple of 128. -/
  up128' (n : Nat) : Nat := roundUp n 128

/-! ## The manifest (R206 to R208, R228) -/

/-- R206: what the header names. -/
structure ManifestCfg where
  /-- R206: MEMBER. -/
  member : Nat
  /-- R206: CORPUS_ID. -/
  corpus : Nat
  /-- R206: EXACT. -/
  exact : Bool
  /-- R228: image digest. -/
  image : Bytes
  /-- R228: SEED. -/
  seed : Nat
  deriving DecidableEq, Repr

/-- R207: FLAGS of an entry of a batch. -/
def entryFlags (c : PackCfg) (p : BatchPlan) (e : Entry) : Nat :=
  let trunc := c.batch.mode == 2 && e.kind == 0 && (spanOf p e.pos).2 * c.batch.token < e.output.length
  (if e.kind = 0 then 1 else 0) + (if e.kind ≠ 2 && 0 < e.try_ then 2 else 0) + (if e.kind = 2 then 4 else 0) +
  (if e.kind = 1 then 8 else 0) + (if trunc then 16 else 0) + e.try_ * 256

/-- R207: LENGTH of an entry. -/
def entryLength (c : PackCfg) (p : BatchPlan) (e : Entry) : Nat :=
  if e.kind ≠ 0 then 0
  else if c.batch.mode = 2 then min (ceilDiv e.output.length c.batch.token) (spanOf p e.pos).2
  else e.output.length

/-- R207: the 48 bytes of an entry. -/
def entryEncode (c : PackCfg) (p : BatchPlan) (e : Entry) (off : Nat) : Bytes :=
  leBytes 8 e.sample ++ leBytes 4 e.pos ++ leBytes 2 (if e.kind = 0 then 0 else e.status) ++ leBytes 2 (entryFlags c p e) ++
  leBytes 4 off ++ leBytes 4 (entryLength c p e) ++ (if e.kind = 2 then zeros 24 else sliceZ e.digest 0 24)

/-- R206: the header with a DIGEST_PREFIX. -/
def manifestHeader (m : ManifestCfg) (b : OpenBatch) (entries tail : Nat) (prefix24 : Bytes) : Bytes :=
  leBytes 4 0x5453464D ++ leBytes 1 1 ++
  leBytes 1 ((if b.last then 1 else 0) + (if m.exact then 2 else 0) + (if b.plan.oversize then 4 else 0)) ++
  leBytes 2 m.member ++ leBytes 8 b.b ++ leBytes 4 b.epoch ++ leBytes 4 m.corpus ++ leBytes 4 entries ++ leBytes 4 tail ++
  leBytes 2 b.threshGen ++ zeros 6 ++ sliceZ prefix24 0 24

/-- R208: every entry of the manifest, position entries and then the tail. -/
def manifestEntries (c : PackCfg) (b : OpenBatch) (offs : List Nat) : Bytes :=
  ((positionEntries b.entries).zip offs).flatMap (fun x => entryEncode c b.plan x.1 x.2) ++
  ((tailEntries b.entries).mergeSort fun x y => decide (x.pos < y.pos || (x.pos = y.pos && x.try_ ≤ y.try_))).flatMap
    fun e => entryEncode c b.plan e Config.tailOffset.toNat

/-- R228: the batch digest. -/
def batchDigest (m : ManifestCfg) (models : List Bytes) (b : OpenBatch) : Bytes :=
  sha3_512 (m.image ++ models.flatten ++
    ((positionEntries b.entries).flatMap fun e => if e.kind = 2 then zeros 24 else sliceZ e.digest 0 24) ++
    leBytes 8 m.seed ++ leBytes 4 b.epoch ++ leBytes 8 b.b)

/-- R206 to R208: the delivered batch, manifest and then payload, with its digest. -/
def buildBatch (m : ManifestCfg) (c : PackCfg) (models : List Bytes) (b : OpenBatch) : Bytes × Bytes :=
  let pay := payloadOf c b.plan b.entries
  let dg := batchDigest m models b
  let man := manifestHeader m b (positionEntries b.entries).length (tailEntries b.entries).length (dg.take 24) ++
    manifestEntries c b pay.2 ++ dg
  (padTo man 128 ++ pay.1, dg)

end Sys2Proof.Machine
end

