-- ==== Sys2Proof/Machine/Aes.lean ====
section
/-! DEFINITION. AES-256 in XTS mode, with which the device encrypts DRAM lines and NAND units (R250, R277): the field of 256
elements, the cipher and its inverse, and the mode. The spec names the published standard. -/

namespace Sys2Proof.Machine

/-! ## The field -/

/-- The product of a field element with the element 2. -/
def gfTwice (a : Byte) : Byte := (a <<< 1) ^^^ (if a.msb then 0x1B else 0)

/-- The product of two field elements. -/
def gfTimes (a b : Byte) : Byte :=
  ((List.range 8).foldl (fun (q : Byte × Byte) i => (if b.getLsbD i then q.1 ^^^ q.2 else q.1, gfTwice q.2)) (0, a)).1

/-- The 254th power of a field element, its inverse, by seven squarings. -/
def gfInverse (a : Byte) : Byte :=
  ((List.range 7).foldl (fun (q : Byte × Byte) _ => let s := gfTimes q.2 q.2; (gfTimes q.1 s, s)) (1, a)).1

/-- The substitution of a byte. -/
def subByte (a : Byte) : Byte :=
  let i := gfInverse a
  [1, 2, 3, 4].foldl (fun s r => s ^^^ i.rotateLeft r) (i ^^^ 0x63)

/-- Its inverse. -/
def unsubByte (a : Byte) : Byte := gfInverse ([3, 6].foldl (fun s r => s ^^^ a.rotateLeft r) (a.rotateLeft 1 ^^^ 0x05))

/-! ## The cipher -/

/-- The exclusive or of two byte strings of one length. -/
def xorBytes (a b : Bytes) : Bytes := List.zipWith (fun x y => x ^^^ y) a b

/-- Word k of the key schedule, from the words before it, newest first. -/
def nextKeyWord (k : Nat) (ws : List Bytes) : Bytes :=
  let last := ws.headD []
  let t :=
    if k % 8 = 0 then xorBytes ((last.drop 1 ++ last.take 1).map subByte) [(List.range (k / 8 - 1)).foldl (fun c _ => gfTwice c) 1, 0, 0, 0]
    else if k % 8 = 4 then last.map subByte
    else last
  xorBytes (ws.getD 7 []) t

/-- The 15 round keys of a 32-byte key. -/
def roundKeys (key : Bytes) : List Bytes :=
  let first := (List.range 8).foldl (fun ws i => (key.drop (4 * i)).take 4 :: ws) []
  let all := ((List.range 52).foldl (fun ws i => nextKeyWord (i + 8) ws :: ws) first).reverse.flatten
  (List.range 15).map fun r => (all.drop (16 * r)).take 16

/-- Each column of a block times the polynomial whose coefficients are given. -/
def mixWith (coef : List Byte) (b : Bytes) : Bytes :=
  (List.range 16).map fun i =>
    (List.range 4).foldl (fun s k => s ^^^ gfTimes (coef.getD ((k + 4 - i % 4) % 4) 0) (b.getD (4 * (i / 4) + k) 0)) 0

/-- The bytes of a block in the order that `step` gives: byte i comes from place step × i modulo 16. -/
def permuteBlock (step : Nat) (b : Bytes) : Bytes := (List.range 16).map fun i => b.getD (step * i % 16) 0

/-- AES-256 of a block. (PRESUMED, log entry 152) -/
def aesEncrypt (key block : Bytes) : Bytes :=
  let ks := roundKeys key
  let mid := (List.range 13).foldl (fun b r =>
    xorBytes (mixWith [2, 3, 1, 1] (permuteBlock 5 (b.map subByte))) (ks.getD (r + 1) [])) (xorBytes block (ks.getD 0 []))
  xorBytes (permuteBlock 5 (mid.map subByte)) (ks.getD 14 [])

/-- The inverse of AES-256. -/
def aesDecrypt (key block : Bytes) : Bytes :=
  let ks := roundKeys key
  let undo (b : Bytes) : Bytes := (permuteBlock 13 b).map unsubByte
  let mid := (List.range 13).foldl (fun b r => undo (mixWith [14, 11, 13, 9] (xorBytes b (ks.getD (13 - r) []))))
    (undo (xorBytes block (ks.getD 14 [])))
  xorBytes mid (ks.getD 0 [])

/-! ## XTS -/

/-- The tweak of the next block. -/
def nextTweak (t : Bytes) : Bytes :=
  let v := 2 * leNat t
  leBytes 16 (if v < 2 ^ 128 then v else v % 2 ^ 128 ^^^ 0x87)

/-- The blocks of a data unit of whole blocks, each between its tweaks, under `f`. -/
def xtsBlocks (f : Bytes → Bytes) : Nat → Bytes → Bytes → Bytes
  | 0, _, _ => []
  | n + 1, t, b => xorBytes (f (xorBytes (b.take 16) t)) t ++ xtsBlocks f n (nextTweak t) (b.drop 16)

/-- The first tweak of a data unit: its number under the second half of the key. -/
def firstTweak (key : Bytes) (unit : Nat) : Bytes := aesEncrypt ((key.drop 32).take 32) (leBytes 16 unit)

/-- AES-256-XTS of a data unit, with the two keys one after the other. (PRESUMED, log entry 152) -/
def xtsEncrypt (key : Bytes) (unit : Nat) (b : Bytes) : Bytes :=
  xtsBlocks (aesEncrypt (key.take 32)) (b.length / 16) (firstTweak key unit) b

/-- Its inverse. -/
def xtsDecrypt (key : Bytes) (unit : Nat) (b : Bytes) : Bytes :=
  xtsBlocks (aesDecrypt (key.take 32)) (b.length / 16) (firstTweak key unit) b

end Sys2Proof.Machine
end

