-- ==== Sys2Proof/Machine/Flags.lean ====
section
/-! DEFINITION. The status values that the device computes from its state: pool states, image slot states, the S0
bound, job counts and the like. -/

namespace Sys2Proof.Machine

/-! ## Pools (R258, R266) -/

/-- R258: the total of a pool under a placement. -/
def State.poolTotalAs (s : State) (p place : Nat) : Nat :=
  s.stored (oBufCount p) * (if place = 1 then popCount 48 (s.stored (oPoolCaravans p)) else 1)

/-- R258: the total of a pool. -/
def State.poolTotal (s : State) (p : Nat) : Nat := s.poolTotalAs p (s.stored (oPoolPlace p))

/-- R257: what is compared with the thresholds: OCCUPIED plus the retired buffers. -/
def PoolSt.filled (q : PoolSt) : Nat := q.occupied + q.gone.length

/-- R268: the Caravan part in which a buffer of a pool lies. -/
def State.indexPart (s : State) (p i : Nat) : Option Nat :=
  if s.stored (oPoolPlace p) = 1 then (setBits 48 (s.stored (oPoolCaravans p)))[i / s.stored (oBufCount p)]? else none

/-- R257, R268: buffers of a Caravan's part that are occupied or retired. -/
def State.partFilled (s : State) (p c : Nat) : Nat :=
  Tbl.get (s.pool p).parts 0 c + ((s.pool p).gone.filter fun i => s.indexPart p i == some c).length

/-- R263: limit(c), against OCCUPIED plus the retired buffers. -/
def State.poolLimit (s : State) (p cls : Nat) : Nat :=
  if cls ≤ 1 then s.poolTotal p else if cls ≤ 3 then s.stored (oStopAt p) else s.stored (oPressureAt p)

/-- R266: the state that a filling gives. -/
def State.poolRaw (s : State) (p n : Nat) : Nat :=
  if s.stored (oStopAt p) ≤ n then 3
  else if s.stored (oPressureAt p) ≤ n then 2
  else if s.stored (oNoticeAt p) ≤ n then 1 else 0

/-- R266: the threshold of a pool state. -/
def State.poolMark (s : State) (p st : Nat) : Nat :=
  if st = 1 then s.stored (oNoticeAt p) else if st = 2 then s.stored (oPressureAt p) else s.stored (oStopAt p)

/-- R266: the pool state that follows from the present one. -/
def State.poolLevel (s : State) (p : Nat) : Nat :=
  if s.stored (oPoolPlace p) = 0 then 0
  else
    let q := s.pool p
    let n := q.filled
    let raw := s.poolRaw p n
    if raw < q.state && s.poolMark p q.state ≤ n + s.stored (oHyst p) then q.state else raw

/-- R258: ORPHANED of a pool. -/
def State.orphans (s : State) (p : Nat) : Nat :=
  (s.buffers.filter fun b => b.1 / 2 ^ 26 == p && b.2.orphan).length

/-! ## Jobs (R37) -/

/-- R37: whether a job is in flight. -/
def Job.inFlight (j : Job) : Bool :=
  match j.state with
  | .admitted | .fetching | .decoding | .transforming | .scoring => true
  | _ => false

/-- R50: JOBS_IN_FLIGHT. -/
def State.jobsInFlight (s : State) : Nat := (s.jobs.filter Job.inFlight).length

/-- R50: JOBS_IN_FLIGHT_S0. -/
def State.jobsS0 (s : State) : Nat := (s.jobs.filter fun j => j.inFlight && j.cls == 0).length

/-- R38: jobs of stream n in flight. -/
def State.streamJobs (s : State) (n : Nat) : Nat := (s.jobs.filter fun j => j.inFlight && j.stream == n).length

/-! ## Streams and images (R50) -/

/-- R50: the code of a stream state. -/
def StreamState.code : StreamState → Nat
  | .idle => 0 | .loaded => 1 | .running => 2 | .paused => 3 | .held => 4 | .moved => 5

/-- R39: RUNNING, PAUSED or HELD. -/
def StreamState.active : StreamState → Bool
  | .running | .paused | .held => true
  | _ => false

/-- R50: the stage descriptors of a stream's image. -/
def State.descsOf (s : State) (n : Nat) : List Desc := imgDescs (s.imageOf n).image

/-- R30: whether a stream or a mirror record refers to image slot k. -/
def State.imageInUse (s : State) (k : Nat) : Bool :=
  (List.range Config.streams).any fun n => (s.stream n).state ≠ .idle && s.stored (oImageSlot n) == k

/-- R50: SLOT_STATE of image slot k. -/
def State.slotState (s : State) (k : Nat) : Nat :=
  if !s.hasImage k then 0 else if s.imageInUse k then 2 else 1

/-- R263: the pools that an image names. -/
def imgPools (ds : List Desc) : List Nat := (ds.map Desc.pool).dedup

/-- R263: a job's need in pool k. -/
def State.needOf (s : State) (ds : List Desc) (k : Nat) : Nat :=
  ((ds.filter fun d => d.pool == k).map fun d => ceilDiv d.outMax (s.stored (oBufSize k))).sum

/-- R259: a stream that is not IDLE runs an image that names pool p. -/
def State.poolNamed (s : State) (p : Nat) : Bool :=
  (List.range Config.streams).any fun n =>
    (s.stream n).state ≠ .idle && (imgPools (s.descsOf n)).contains p

/-! ## Clock-exact coverage (R214, R215) -/

/-- R214: whether a stage is covered: DECODE only when it may run on a Caravan engine. -/
def Desc.covered (d : Desc) : Bool :=
  d.type == tGeometry || d.type == tColour || d.type == tKernel || d.type == tScore || d.type == tAlign ||
  (d.type == tDecode && bits (d.word 4) 5 0 ≠ 0)

/-- R215 condition 4: the pools of covered stages and of the stages that feed them. -/
def coveredPools (ds : List Desc) : List Nat :=
  let cs := ds.filter Desc.covered
  ((cs.map Desc.pool) ++ (ds.filter fun d => cs.any fun c => c.preds.contains d.id).map Desc.pool).dedup

/-! ## Memory (R242, R246, R247, R259) -/

/-- One MiB. -/
def mib : Nat := 1048576
/-- One GiB. -/
def gib : Nat := 1073741824
/-- R246: the fixed regions, 37.0625 GiB. -/
def fixedRegions : Nat := 37 * gib + gib / 16
/-- R246, R273: the data region, 7C ÷ 8. -/
def State.dataRegion (s : State) : Nat := 7 * s.ddrCapacity / 8
/-- R258: bytes of one pool, of one Caravan when it is placed CARAVAN. -/
def State.poolBytes (s : State) (p : Nat) : Nat := s.stored (oBufSize p) * s.stored (oBufCount p)
/-- R259: bytes of the pools placed as `place`, pool p counted as placed `v`. -/
def State.placedBytes (s : State) (place p v : Nat) : Nat :=
  ((List.range 64).map fun q =>
    if (if q = p then v else s.stored (oPoolPlace q)) = place then s.poolBytes q else 0).sum
/-- R57, R259: bytes of the CARAVAN pools on Caravan c, pool p counted as placed `v`. -/
def State.caravanBytes (s : State) (c p v : Nat) : Nat :=
  ((List.range 64).map fun q =>
    if (if q = p then v else s.stored (oPoolPlace q)) = 1 && bit (s.stored (oPoolCaravans q)) c
    then s.poolBytes q else 0).sum
/-- R57: SCRATCH_MAX of Caravan c in KiB, pool p counted as placed `v`. -/
def State.scratchMax (s : State) (c p v : Nat) : Nat := 18432 - ceilDiv (s.caravanBytes c p v) 1024
/-- R57: the largest MEM_LIMIT of an image. -/
def imgMem (ds : List Desc) : Nat :=
  ((ds.filter fun d => d.type == tKernel || d.type == tScore).map kernelMem).foldl max 0
/-- R246: bytes of the flash map at its present size. -/
def State.mapBytes (s : State) : Nat := 5 * (s.host.extents.length * gib / 4096)
/-- R242, R457: bytes of released weights in DRAM (true: in the model region of Oasis). -/
def State.modelBytes (s : State) (oasis : Bool) : Nat :=
  ((s.sec.released.filter fun r => r.2.oasis == oasis).map fun r => r.2.weights.length).sum
/-- R242: the space left for pools placed OASIS. -/
def State.oasisSpace (s : State) (modelMib : Nat) : Nat := (1408 - modelMib) * mib - s.sys.badBanks.length * Config.oasisBank

/-! ## Service classes (R393, R396) -/

/-- R396: the S0 reservations are in force. -/
def State.s0Reserve (s : State) : Bool := s.flag oS0ReserveEn

/-- R393 cause 4, R526: the reservations of R396 are in place: no Caravan named in S0_CARAVANS is held OFF. -/
def State.s0InPlace (s : State) : Bool :=
  s.s0Reserve && (setBits 48 (s.stored oS0Caravans)).all fun c => !(s.domain (0x10 + c)).heldOff

/-- R393 cause 5: the prepared samples of every active S0 stream lie in a pool placed OASIS or CARAVAN. -/
def State.s0PoolsOk (s : State) : Bool :=
  (List.range Config.streams).all fun n =>
    !((s.stream n).state.active && s.stored (oServiceClass n) == 0) ||
    match imgPack (s.imageOf n).image with
    | some d => s.stored (oPoolPlace d.pool) == 1 || s.stored (oPoolPlace d.pool) == 2
    | none => true

/-- R393: S0_BOUND_STATE: 0 HOLDS, or the first condition that fails. -/
def State.s0Bound (s : State) : Nat :=
  let qs := [0, 8, 16, 24, 32, 40, 48, 56, 160]
  if qs.any fun q => (if q = 160 then 16000000000 else 12500000000) < s.stored (oCir q) then 1
  else if qs.any fun q => 65536 < s.stored (oCbs q) then 2
  else if Config.maxS0Jobs < s.jobsS0 then 3
  else if !s.s0InPlace then 4
  else if !s.s0PoolsOk then 5
  else 0

/-! ## Frames (R354, R355) -/

/-- R355: the header: five 64-bit little-endian words. -/
def Frame.header (f : Frame) : Bytes :=
  leBytes 8 (f.ftype + 2 ^ 4 * f.vl + 2 ^ 8 * f.lseq + 2 ^ 20 * f.lack + 2 ^ 32 * f.payload.length + 2 ^ 48 * f.tenant) ++
  leBytes 8 (f.dst + 2 ^ 16 * f.src + (if f.esc then 2 ^ 29 else 0) + (if f.dl then 2 ^ 30 else 0) + 2 ^ 32 * f.msgId) ++
  leBytes 8 (f.offset + 2 ^ 32 * f.total) ++
  leBytes 8 (f.op + 2 ^ 8 * f.dqp + 2 ^ 32 * f.fence) ++
  leBytes 8 (f.rkey + 2 ^ 32 * f.rbase)

/-- R355, R356: the bytes that FCS covers: the header, the padded payload and MSG_DIGEST. -/
def Frame.covered (f : Frame) : Bytes :=
  f.header ++ sliceZ f.payload 0 (roundUp f.payload.length 8) ++ sliceZ f.digest 0 16

/-- R356: FCS. -/
def Frame.crc (f : Frame) : Nat := crc32c f.covered

/-- R355, R356: the frame as it stands on the line. -/
def Frame.wire (f : Frame) : Bytes := f.covered ++ leBytes 4 f.crc ++ zeros 4

/-- R356: the frame passes FEC decode and FCS. -/
def Frame.good (f : Frame) : Bool :=
  f.decodes && match f.fcs with | none => true | some x => x == f.crc

/-- Frame length: 40-byte header, payload padded to a multiple of 8, 24-byte trailer. -/
def Frame.bytes (f : Frame) : Nat := 64 + roundUp f.payload.length 8

end Sys2Proof.Machine
end

