-- ==== Sys2Proof/Machine/Lines.lean ====
section
/-! DEFINITION. Lines of DRAM: the keys of granules and their rotation (R250, R253), encryption, tag and check symbols (R248, R249,
R251), the line-state map (R252), and the accesses of a plain region, which lies in the data region (R254, R255, R370). -/

namespace Sys2Proof.Machine

/-! ## Keys of granules (R250, R253) -/

/-- R450: the tenant slot to which a pool is assigned. -/
def State.poolSlot (s : State) (p : Nat) : Option Nat :=
  (List.range 32).find? fun t => s.stored (oTenantId t) ≠ 0 && bit (s.stored (oTenPools t)) p

/-- R250: the key ID of a pool. -/
def State.poolKey (s : State) (p : Nat) : Nat := match s.poolSlot p with | some t => t + 1 | none => 33

/-- R250: the key ID of a granule. -/
def State.granuleKey (s : State) (g : Nat) : Nat :=
  if g * gib < fixedRegions + s.mapBytes then 0
  else
    let u := Config.granuleUse g
    if u < 64 then s.poolKey u else if 1 ≤ u - 64 && u - 64 ≤ 33 then u - 64 else 33

/-- R250: the key ID of a line of the data region. -/
def State.lineKey (s : State) (i : Nat) : Nat := s.granuleKey (64 * i / gib)

/-- R252, R253: what the lines of a key's granules hold that no record lists. -/
def State.setGranules (s : State) (key v : Nat) : State :=
  { s with dram := s.dram.filter fun l => s.lineKey l.1 ≠ key, granules := Tbl.set s.granules key v }

/-- R253: the granules of a DRAM key are rotated: a new key, and every WRITTEN bit clear. -/
def State.rotateKey (s : State) (key : Nat) : State :=
  State.setGranules { s with sec := { s.sec with dramKeys := Tbl.upd s.sec.dramKeys 0 key (· + 1) } } key 1

/-- R253, R462: zeros written through the write path to every line of the granules of a key. -/
def State.overwriteKey (s : State) (key : Nat) : State := s.setGranules key 2

/-- R248: the engines of the device write into the granules of a key, at places that the spec does not state. -/
def State.useKey (s : State) (key : Nat) : State := { s with granules := Tbl.set s.granules key 0 }

/-! ## A line (R248, R249, R251) -/

/-- R250: the encryption of a line's plaintext. -/
def State.cipherOf (s : State) (i : Nat) (plain : Bytes) : Bytes :=
  xtsEncrypt (Config.dramKey (s.lineKey i) (Tbl.get s.sec.dramKeys 0 (s.lineKey i))) i plain

/-- R250: its decryption. -/
def State.plainOf (s : State) (i : Nat) (cipher : Bytes) : Bytes :=
  xtsDecrypt (Config.dramKey (s.lineKey i) (Tbl.get s.sec.dramKeys 0 (s.lineKey i))) i cipher

/-- R251: the tag of a line with a ciphertext. -/
def State.tagOf (s : State) (i : Nat) (cipher : Bytes) : Bytes :=
  let k := s.lineKey i
  kmac256 (Config.integrityKey k (Tbl.get s.sec.dramKeys 0 k)) (leBytes 8 i ++ leBytes 1 k ++ cipher) 8 "OA1640 DRAM TAG"

/-- R251: TAG_BASE, the first byte above the data region. -/
def State.tagBase (s : State) : Nat := s.dataRegion

/-- R249: the DRAM devices in error. -/
def LineFault.bad (f : LineFault) : List Nat :=
  ((f.devices.filter fun d => decide (d.1 < 10) && d.2 % 2 ^ 64 ≠ 0).map Prod.fst).dedup

/-- R249: the symbol code: errors of one device are corrected, those of two detected. The ciphertext, and whether it was corrected;
none: the line is uncorrectable. -/
def LineFault.correct (f : LineFault) (cipher : Bytes) : Option (Bytes × Bool) :=
  match f.bad.length with
  | 0 => some (cipher, false)
  | 1 => some (cipher, true)
  | 2 => none
  | _ => (Config.symbolBeyond f.devices cipher).map fun c => (c, true)

/-- R252: POISON of a line. -/
def State.poisoned (s : State) (i : Nat) : Bool := match Tbl.find s.dram i with | some l => l.poison | none => false

/-- R248, R252: the ciphertext and the tag that the memory dies hold of a line; none: WRITTEN is clear. -/
def State.held (s : State) (i : Nat) : Option (Bytes × Bytes) × State :=
  let sealed (p : Bytes) : Bytes × Bytes := (s.cipherOf i p, s.tagOf i (s.cipherOf i p))
  match Tbl.find s.dram i with
  | some l => (if l.written then some (s.cipherOf i (s.fabric.mem.readN (64 * i) 64), l.tag) else none, s)
  | none =>
    match Tbl.get s.granules 1 (s.lineKey i) with
    | 0 => let d := s.draw; ((Config.lineHeld i d.1).map fun p => sealed (sliceZ p 0 64), d.2)
    | 1 => (none, s)
    | _ => (some (sealed (zeros 64)), s)

/-- R248, R252: a read of line i of the data region: what it finds, the plaintext, and the state after it. -/
def State.readLine (s : State) (i : Nat) (f : LineFault) : ScrubFind × Bytes × State :=
  if s.poisoned i then (.uncorrectable, [], s)
  else
    let h := s.held i
    match h.1 with
    | none => (.clean, zeros 64, h.2)
    | some (c, tag) =>
      match f.correct c with
      | none => (.uncorrectable, [], h.2)
      | some (x, fixed) =>
        if s.tagOf i x ≠ xorBytes tag (leBytes 8 f.tag) then (.tagFail, [], h.2)
        else (if fixed then .corrected else .clean, s.plainOf i x, h.2)

/-- R248: a line whose bytes have been written: encrypted and tagged, WRITTEN set and POISON clear. -/
def State.sealLine (s : State) (i : Nat) : State :=
  { s with dram := Tbl.set s.dram i { written := true, poison := false, tag := s.tagOf i (s.cipherOf i (s.fabric.mem.readN (64 * i) 64)) } }

/-- R248: a whole line is written. -/
def State.writeLine (s : State) (i : Nat) (plain : Bytes) : State :=
  State.sealLine { s with fabric := { s.fabric with mem := s.fabric.mem.writeN (64 * i) (sliceZ plain 0 64) } } i

/-- R255: a line that has failed is poisoned. -/
def State.poisonLine (s : State) (i : Nat) : State :=
  { s with dram := Tbl.upd s.dram { written := false } i fun l => { l with poison := true } }

/-! ## The regions of R246 -/

/-- R246: bytes from address 0 up to the end of the flash map and the model region, which are rebuilt at once. -/
def State.rebuiltBytes (s : State) : Nat := fixedRegions + s.mapBytes + s.modelBytes false

/-- R254, R255: a line or word of its pools fails a reader with a transient status: the failure is counted, and the line is poisoned.
Which line it is is not stated, so it is free. (DESIGN CHOICE, log entry 55) -/
def State.meetFailure (s : State) (st : Nat) : State :=
  if st = stSram then s.count oSramUncorrectable 1
  else if st = stDram || st = stTag then
    let d := s.draw
    let i := s.rebuiltBytes / 64 + (Config.freeWord d.1).toNat % max 1 (s.placedBytes 3 64 0 / 64)
    if d.2.poisoned i then d.2 else (d.2.count (if st = stDram then oDramUncorrectable else oTagFailures) 1).poisonLine i
  else s

/-! ## Plain regions (R254, R255, R370) -/

/-- The lines that n bytes from an address touch. -/
def linesOf (a n : Nat) : List Nat := if n = 0 then [] else (List.range ((a + n - 1) / 64 + 1 - a / 64)).map (a / 64 + ·)

/-- R254: a read of n bytes of a plain region, which lies in the data region: none when a line of it is poisoned.
(DESIGN CHOICE, log entry 154) -/
def State.readPlain (s : State) (a n : Nat) : Option Bytes :=
  if (linesOf a n).any s.poisoned then none else some (s.fabric.mem.readN a n)

/-- R255: whether bytes written from an address leave part of a poisoned line as it is. -/
def State.mergesPoison (s : State) (a n : Nat) : Bool :=
  (linesOf a n).any fun i => s.poisoned i && !(decide (a ≤ 64 * i) && decide (64 * i + 64 ≤ a + n))

/-- R248, R255: a write into a plain region: none when it would merge with a poisoned line. (DESIGN CHOICE, log entry 154) -/
def State.writePlain (s : State) (a : Nat) (b : Bytes) : Option State :=
  if s.mergesPoison a b.length then none
  else some ((linesOf a b.length).foldl State.sealLine { s with fabric := { s.fabric with mem := s.fabric.mem.writeN a b } })

end Sys2Proof.Machine
end

