-- ==== Sys2Proof/Machine/Pools.lean ====
section
/-! DEFINITION. The buffer pool manager (R257 to R272): occupancy and pool states, reservations of jobs, placement and
spill, ALLOC and RELEASE, retirement and reclaim. -/

namespace Sys2Proof.Machine

/-! ## Occupancy, charges and states -/

/-- R266: brings POOL_STATE up to date, with the notice and the count that a change gives. -/
def State.settlePool (s : State) (p : Nat) : State :=
  let l := s.poolLevel p
  let s' := s.updPool p fun x => { x with peak := max x.peak x.occupied, state := l }
  if l = (s.pool p).state then s' else (s'.count oPoolStateEvents 1).notice 2 0 p l

/-- R260, R267: n buffers of pool p taken by requester r, in a Caravan's part where one is named; those of a DRAM pool are written
through R248. -/
def State.occupy (s : State) (r p n : Nat) (part : Option Nat) : State :=
  if n = 0 then s
  else
    let s' := State.updPool (if s.stored (oPoolPlace p) = 3 then s.useKey (s.poolKey p) else s) p fun x =>
      { x with occupied := x.occupied + n,
               parts := match part with | some c => Tbl.upd x.parts 0 c (· + n) | none => x.parts }
    State.settlePool { s' with charged := Tbl.upd s'.charged 0 (64 * r + p) (· + n) } p

/-- R260, R267: n buffers of pool p given back by requester r. -/
def State.vacate (s : State) (r p n : Nat) (part : Option Nat) : State :=
  if n = 0 then s
  else
    let s' := s.updPool p fun x =>
      { x with occupied := x.occupied - n,
               parts := match part with | some c => Tbl.upd x.parts 0 c (· - n) | none => x.parts }
    State.settlePool { s' with charged := Tbl.upd s'.charged 0 (64 * r + p) (· - n) } p

/-- R267: whether n more buffers of pool p keep requester r within its quota. -/
def State.quotaOk (s : State) (r p n : Nat) : Bool :=
  let q := s.stored (oQuota r p)
  q == 0xFFFFFFFF || Tbl.get s.charged 0 (64 * r + p) + n ≤ q

/-- R263: whether n more buffers of pool p keep within limit(c). -/
def State.limitOk (s : State) (p cls n : Nat) : Bool := (s.pool p).filled + n ≤ s.poolLimit p cls

/-! ## Reservations of jobs (R263, R268, R396) -/

/-- R242: bytes of the S0 reserve. -/
def s0ReserveBytes : Nat := 64 * mib

/-- R268, R396: the pool that holds a need of n buffers of pool k: k itself, its SPILL_POOL, or 64 for the S0 reserve;
none when neither can hold it. -/
def State.route (s : State) (cls caravan k n : Nat) : Option Nat :=
  let place := s.stored (oPoolPlace k)
  if place = 0 then none
  else if place = 1 then
    if bit (s.stored (oPoolCaravans k)) caravan &&
        s.partFilled k caravan + n ≤ s.stored (oBufCount k) then some k
    else
      let sp := s.stored (oSpillPool k)
      if sp < 64 && 2 ≤ s.stored (oPoolPlace sp) then some sp else none
  else if place = 2 && cls = 0 && s.s0Reserve && s.s0Used + n * s.stored (oBufSize k) ≤ s0ReserveBytes then some 64
  else some k

/-- R268: the Caravan part from which a pool's buffers come for a job on a Caravan. -/
def State.partOf (s : State) (p caravan : Nat) : Option Nat :=
  if s.stored (oPoolPlace p) = 1 then some caravan else none

/-- R268: takes n buffers of pool k for requester r where `at_` says. -/
def State.takeBufs (s : State) (r caravan k at_ n : Nat) : State :=
  if at_ = 64 then
    { s with s0Used := s.s0Used + n * s.stored (oBufSize k), charged := Tbl.upd s.charged 0 (64 * r + k) (· + n) }
  else s.occupy r at_ n (s.partOf at_ caravan)

/-- R263: gives them back. -/
def State.giveBufs (s : State) (r caravan k at_ n : Nat) : State :=
  if at_ = 64 then
    { s with s0Used := s.s0Used - n * s.stored (oBufSize k), charged := Tbl.upd s.charged 0 (64 * r + k) (· - n) }
  else s.vacate r at_ n (s.partOf at_ caravan)

/-- R263: the need in one pool reserved for stream r, or none when a check fails. -/
def State.reserveOne (s : State) (r cls caravan k n : Nat) : Option (State × Nat) :=
  if !(s.limitOk k cls n && s.quotaOk r k n) then none
  else
    match s.route cls caravan k n with
    | none => none
    | some at_ =>
      if at_ < 64 && at_ ≠ k then
        if s.limitOk at_ cls n && s.quotaOk r at_ n then
          let s' := (s.takeBufs r caravan k at_ n).updPool k fun x => { x with spills := x.spills + 1 }
          some (if (coveredPools (s.descsOf r)).contains k then s'.exactLose r 4 else s', at_)
        else none
      else some (s.takeBufs r caravan k at_ n, at_)

/-- R263: the whole need of a job of stream r reserved, pool by pool, or none. -/
def State.reserveAll (r cls caravan : Nat) : List (Nat × Nat) → State → Option (State × List (Nat × Nat × Nat))
  | [], s => some (s, [])
  | (k, n) :: rest, s =>
    if n = 0 then State.reserveAll r cls caravan rest s
    else
      match s.reserveOne r cls caravan k n with
      | none => none
      | some (s', at_) => (State.reserveAll r cls caravan rest s').map fun q => (q.1, (k, at_, n) :: q.2)

/-- R263: the needs of an image, by pool. -/
def State.needs (s : State) (ds : List Desc) : List (Nat × Nat) := (imgPools ds).map fun k => (k, s.needOf ds k)

/-- R263: fetch_buffer_available, for a Caravan, with the reservation it makes. -/
def State.reserveJob (s : State) (r cls caravan : Nat) (ds : List Desc) :
    Option (State × List (Nat × Nat × Nat)) :=
  if (imgPools ds).all fun k => s.stored (oPoolPlace k) ≠ 0 then State.reserveAll r cls caravan (s.needs ds) s else none

/-- R257, R264: the start is refused for want of buffers; the retired ones are not usable. -/
def State.startPoolsBad (s : State) (r cls : Nat) (ds : List Desc) : Bool :=
  (imgPools ds).any fun k =>
    let n := s.needOf ds k
    let q := s.stored (oQuota r k)
    s.stored (oPoolPlace k) == 0 || decide (s.poolLimit k cls < n + (s.pool k).gone.length) || (q ≠ 0xFFFFFFFF && decide (q < n))

/-- R57: some MEM_LIMIT of the image exceeds SCRATCH_MAX of a Caravan of the mask. -/
def State.scratchBad (s : State) (mask : Nat) (ds : List Desc) : Bool :=
  (setBits 48 mask).any fun c => s.scratchMax c 64 0 < imgMem ds

/-! ## Placement (R259) -/

/-- R259: 1 ≤ NOTICE_AT ≤ PRESSURE_AT ≤ STOP_AT ≤ total, and HYST < NOTICE_AT. -/
def marksOk (n p t h total : Nat) : Bool := 1 ≤ n && n ≤ p && p ≤ t && t ≤ total && h < n

/-- R258: the threshold in force when POOL_PLACE takes effect: written, or computed from the total. -/
def State.markAs (s : State) (key default_ : Nat) : Nat := if s.written.contains key then s.stored key else default_

/-- R258: NOTICE_AT, PRESSURE_AT, STOP_AT and HYST for a total. -/
def State.marksFor (s : State) (p total : Nat) : Nat × Nat × Nat × Nat :=
  (s.markAs (oNoticeAt p) (ceilDiv (3 * total) 4), s.markAs (oPressureAt p) (ceilDiv (7 * total) 8),
   s.markAs (oStopAt p) (ceilDiv (15 * total) 16), s.markAs (oHyst p) (total / 64))

/-- R259: pool p placed as v keeps every active stream's scratch condition. (DESIGN CHOICE, log entry 54) -/
def State.scratchKept (s : State) (p v : Nat) : Bool :=
  (List.range Config.streams).all fun n =>
    !(s.stream n).state.active ||
    (setBits 48 ((s.stream n).inForce.mask ||| s.stored (oCaravanMask n))).all fun c => imgMem (s.descsOf n) ≤ s.scratchMax c p v

/-- R259: the condition on the spill pool of pool p. -/
def State.spillOk (s : State) (p : Nat) : Bool :=
  let sp := s.stored (oSpillPool p)
  sp == 0xFF || (sp < 64 && sp ≠ p && s.stored (oBufSize sp) == s.stored (oBufSize p) && 2 ≤ s.stored (oPoolPlace sp) &&
    s.stored (oSpillPool sp) == 0xFF)

/-- R259: the other conditions on a non-zero placement v of pool p. -/
def State.placeFits (s : State) (p v : Nat) : Bool :=
  let size := s.stored (oBufSize p)
  let count := s.stored (oBufCount p)
  let cars := s.stored (oPoolCaravans p)
  let total := s.poolTotalAs p v
  let m := s.marksFor p total
  256 ≤ size && size ≤ (if v = 3 then 2 * mib else 65536) && 1 ≤ count && count ≤ 2 ^ 26 &&
  (v ≠ 1 || (cars ≠ 0 && (setBits 48 cars).all fun c => s.caravanBytes c p v ≤ 16 * mib)) &&
  (v ≠ 2 || s.placedBytes 2 p v ≤ s.oasisSpace (s.stored oModelOasisMib)) &&
  (v ≠ 3 || fixedRegions + s.mapBytes + s.modelBytes false + s.placedBytes 3 p v ≤ s.dataRegion) &&
  marksOk m.1 m.2.1 m.2.2.1 m.2.2.2 total && s.scratchKept p v

/-- R259: the conditions on a non-zero placement v of pool p. -/
def State.placeOk (s : State) (p v : Nat) : Bool := s.placeFits p v && s.spillOk p

/-- R259: whether a write of POOL_PLACE is accepted. -/
def State.placeAccepted (s : State) (p v : Nat) : Bool :=
  let old := s.stored (oPoolPlace p)
  if v = 0 then (s.pool p).occupied == 0 && !s.poolNamed p
  else if v = old then true
  else (old = 0 || ((s.pool p).occupied == 0 && !s.poolNamed p)) && s.placeOk p v

/-- R258, R259: POOL_PLACE takes effect. -/
def State.placePool (s : State) (p v : Nat) : State :=
  if v = s.stored (oPoolPlace p) then s
  else if v = 0 then (s.store (oPoolPlace p) 0).settlePool p
  else
    let m := s.marksFor p (s.poolTotalAs p v)
    ((((((s.store (oNoticeAt p) m.1).store (oPressureAt p) m.2.1).store (oStopAt p) m.2.2.1).store (oHyst p)
      m.2.2.2).store (oPoolPlace p) v).updPool p fun x => { x with parts := [] }).settlePool p

/-- R259: whether a threshold write is accepted. -/
def State.markAccepted (s : State) (p sub v : Nat) : Bool :=
  let f (i key : Nat) : Nat := if sub = i then v else s.stored key
  s.stored (oPoolPlace p) = 0 ||
    marksOk (f 6 (oNoticeAt p)) (f 7 (oPressureAt p)) (f 8 (oStopAt p)) (f 9 (oHyst p)) (s.poolTotal p)

/-! ## Handles, ALLOC and RELEASE (R261, R262, R265, R269 to R272) -/

/-- R261: the handle of a buffer. -/
def handleOf (p i : Nat) (b : Buffer) : Nat :=
  i + 2 ^ 26 * p + 2 ^ 32 * b.requester + 2 ^ 42 * (if b.holders.isEmpty then 0 else 1)

/-- The key of a buffer's record. -/
def bufKey (p i : Nat) : Nat := p * 2 ^ 26 + i

/-- R271: logs a release that is refused. -/
def State.logRelease (s : State) (r status handle : Nat) : State :=
  { s with relLog := ({ gtc := s.gtc, requester := r, status := status, handle := handle } :: s.relLog).take 64,
           relCount := s.relCount + 1 }

/-- R269: the first n FREE buffers of pool p, from index i up; `f` bounds the search by the pool's total. -/
def State.freeIndices (s : State) (p : Nat) : Nat → Nat → Nat → List Nat
  | _, 0, _ => []
  | 0, _, _ => []
  | f + 1, n + 1, i =>
    if (Tbl.find s.buffers (bufKey p i)).isSome || (s.pool p).gone.contains i then s.freeIndices p f (n + 1) (i + 1)
    else i :: s.freeIndices p f n (i + 1)

/-- R268: the part of a CARAVAN pool that holds an ALLOC: the first Caravan whose part has room. (DESIGN CHOICE, log entry 58) -/
def State.allocPart (s : State) (p n : Nat) : Option Nat :=
  (setBits 48 (s.stored (oPoolCaravans p))).find? fun c => s.partFilled p c + n ≤ s.stored (oBufCount p)

/-- R268: the first buffer of a part. -/
def State.partStart (s : State) (p : Nat) (part : Option Nat) : Nat :=
  match part with
  | some c => s.stored (oBufCount p) * (setBits 48 (s.stored (oPoolCaravans p))).idxOf c
  | none => 0

/-- R265: the part that an ALLOC takes its buffers from. -/
def State.takePart (s : State) (p n : Nat) : Option Nat := if s.stored (oPoolPlace p) = 1 then s.allocPart p n else none

/-- R265: SUCCESS when an ALLOC can be granted now, else the status of the check that fails. -/
def State.allocCheck (s : State) (a : AllocReq) : Nat :=
  if !s.quotaOk a.requester a.pool a.count then stQuota
  else if s.stored (oPoolPlace a.pool) = 0 || !s.limitOk a.pool a.cls a.count ||
      (s.stored (oPoolPlace a.pool) = 1 && (s.allocPart a.pool a.count).isNone) then stPoolExhausted
  else stSuccess

/-- R262: grants an ALLOC, every buffer of it, charged to the caller. -/
def State.grant (s : State) (a : AllocReq) : State :=
  let part := s.takePart a.pool a.count
  let b : Buffer := { requester := a.requester, holders := a.holders.map fun h => (h, true), owner := a.owner, part := part }
  let is := s.freeIndices a.pool (a.count + (s.pool a.pool).filled) a.count (s.partStart a.pool part)
  let s' := { s with buffers := is.foldl (fun t i => Tbl.set t (bufKey a.pool i) b) s.buffers }
  (s'.occupy a.requester a.pool a.count part).emit
    (.buffers a.requester stSuccess (is.map fun i => handleOf a.pool i b))

/-- R262: whether the arguments are those of an ALLOC. -/
def AllocReq.ok (a : AllocReq) : Bool :=
  1 ≤ a.count && a.count ≤ 256 && a.cls < 8 &&
  (a.holders.isEmpty || (2 ≤ a.holders.length && a.holders.length ≤ 16 && a.holders.contains a.owner))

/-- R265: the waiting ALLOCs that can be granted now, in order of arrival. -/
def State.serveAllocs (s : State) : State :=
  let q := s.allocs.foldl (fun (acc : State × List AllocReq) a =>
    if acc.1.allocCheck a = stSuccess then (acc.1.grant a, acc.2) else (acc.1, acc.2 ++ [a])) (s, [])
  { q.1 with allocs := q.2 }

/-- R257: an Oasis buffer that held a failed word is written and read back, and retired when it fails again. -/
def State.retireCheck (s : State) (p i : Nat) : State :=
  let d := s.draw
  if Config.freeBool d.1 then ((d.2.updPool p fun x => { x with gone := x.gone ++ [i] }).count oRetiredBuffers 1).settlePool p
  else d.2

/-- R257, R269: frees a buffer and refunds the charge of the requester in its handle. -/
def State.freeBuffer (s : State) (key : Nat) (b : Buffer) : State :=
  let p := key / 2 ^ 26
  let s' := State.vacate { s with buffers := Tbl.del s.buffers key } b.requester p 1 b.part
  if b.failed then s'.retireCheck p (key % 2 ^ 26) else s'

/-- R269, R270: RELEASE of a handle by a requester: the state after it and its status. -/
def State.release (s : State) (r handle : Nat) : State × Nat :=
  let key := bufKey (bits handle 31 26) (bits handle 25 0)
  match Tbl.find s.buffers key with
  | none => (s.logRelease r stDoubleFree handle, stDoubleFree)
  | some b =>
    if b.holders.isEmpty then (s.freeBuffer key b, stSuccess)
    else if !b.holders.contains (r, true) then (s.logRelease r stDoubleFree handle, stDoubleFree)
    else
      let hs := b.holders.map fun h => if h.1 = r then (h.1, false) else h
      if hs.any fun h => h.2 then
        ({ s with buffers := Tbl.set s.buffers key { b with holders := hs } }, stSuccess)
      else if r = b.owner then (s.freeBuffer key { b with holders := hs }, stSuccess)
      else
        (State.logRelease { s with buffers := Tbl.set s.buffers key { b with holders := hs, orphan := true } } r
          stNotFinalOwner handle, stNotFinalOwner)

/-- R272: every buffer charged to requester r is freed, its holder bits in others are cleared, and a shared buffer
whose count reaches zero is freed. -/
def State.freeRequester (s : State) (r : Nat) : State :=
  let s' := s.buffers.foldl (fun (acc : State) kb =>
    let b := kb.2
    if b.requester = r then acc.freeBuffer kb.1 b
    else if b.holders.contains (r, true) then
      let hs := b.holders.map fun h => if h.1 = r then (h.1, false) else h
      if hs.any fun h => h.2 then { acc with buffers := Tbl.set acc.buffers kb.1 { b with holders := hs } }
      else acc.freeBuffer kb.1 { b with holders := hs }
    else acc) s
  State.serveAllocs { s' with allocs := s'.allocs.filter fun a => a.requester ≠ r }

/-- R258: RECLAIM returns the orphaned buffers of pool p. -/
def State.reclaimPool (s : State) (p : Nat) : State :=
  (s.buffers.foldl (fun (acc : State) kb =>
    if kb.1 / 2 ^ 26 = p && kb.2.orphan then acc.freeBuffer kb.1 kb.2 else acc) s).serveAllocs

/-- R262, R265: BUFFER_ALLOC. -/
def execBufferAlloc (a : AllocReq) (s : State) : Res :=
  if 64 ≤ a.pool then .fault .noSuchPool
  else if !a.source.exists then .fault .noSuchRequester
  else whenUp s fun s =>
    if !a.ok then .next s
    else if s.allocCheck a = stSuccess then .next (s.grant a)
    else if a.blocking then .next { s with allocs := s.allocs ++ [a] }
    else .next (s.emit (.buffers a.requester (s.allocCheck a) []))

/-- R269 to R271: BUFFER_RELEASE. -/
def execBufferRelease (releaser : Requester) (handle : Nat) (s : State) : Res :=
  if !releaser.exists then .fault .noSuchRequester
  else whenUp s fun s =>
    let q := s.release releaser.id handle
    .next ((q.1.serveAllocs).emit (.buffers releaser.id q.2 []))

end Sys2Proof.Machine
end

