-- ==== Sys2Proof/Machine/Flash.lean ====
section
/-! DEFINITION. Flash translation and media management (R274 to R303): physical units, capacity, the map, the journal
and its checkpoints, destaging, programming and erasing, reads and refresh, relocation, patrol, and the pools' states. -/

namespace Sys2Proof.Machine

/-! ## Geometry (R276, R278, R279) -/

/-- R280: the map values. -/
def lpnLost : Nat := 0xFFFFFFFFFD
/-- R280: UNMAPPED. -/
def lpnUnmapped : Nat := 0xFFFFFFFFFF

/-- R276: slots of a block. -/
def FlashSt.blockSlots (f : FlashSt) : Nat := 4 * f.ppb
/-- R276: the block that holds a PUN. -/
def FlashSt.blockOf (f : FlashSt) (pun : Nat) : Nat := pun / f.blockSlots
/-- R276: the first PUN of a block. -/
def FlashSt.firstPun (f : FlashSt) (b : Nat) : Nat := b * f.blockSlots
/-- R276: the channel of a block. -/
def FlashSt.chanOf (f : FlashSt) (b : Nat) : Nat := b / (128 * f.bpl)
/-- R278: the media pool of a block. -/
def FlashSt.mpoolOf (f : FlashSt) (b : Nat) : Nat := f.chanOf b / 4
/-- R276: the target of a block within its channel. -/
def FlashSt.targetOf (f : FlashSt) (b : Nat) : Nat := b / (8 * f.bpl) % 16
/-- R276: the LUN of a block within its target. -/
def FlashSt.lunOf (f : FlashSt) (b : Nat) : Nat := b / f.bpl % 8
/-- R275: the enabled targets of a channel, a bit each. -/
def FlashSt.chipsOf (f : FlashSt) (c : Nat) : Nat := Tbl.get f.chips 0 c
/-- R307: FLASH_CHANNELS. -/
def FlashSt.channels (f : FlashSt) : Nat := f.chips.foldl (fun m c => if c.2 = 0 then m else setBit m c.1 true) 0
/-- R307: FLASH_TARGETS. -/
def FlashSt.targets (f : FlashSt) : Nat := (f.chips.map fun c => popCount 16 c.2).sum
/-- R279: enabled LUNs of a channel. -/
def FlashSt.chanLuns (f : FlashSt) (c : Nat) : Nat := popCount 16 (f.chipsOf c) * f.luns
/-- R279: enabled LUNs of pool m. -/
def FlashSt.poolLuns (f : FlashSt) (m : Nat) : Nat := ((List.range 4).map fun c => f.chanLuns (4 * m + c)).sum
/-- R279: data bytes of a block in native mode. -/
def FlashSt.blockBytes (f : FlashSt) : Nat := f.ppb * 16384
/-- R307: MEDIA_RAW. -/
def FlashSt.raw (f : FlashSt) : Nat := f.targets * f.luns * f.bpl * f.blockBytes
/-- R274, R278: data bytes of a block run in SLC mode: one bit of the three or four of a cell. -/
def FlashSt.slcBytes (f : FlashSt) : Nat := f.blockBytes / (if f.qlc then 4 else 3)
/-- R275: whether a number names a block of an enabled target. -/
def FlashSt.isBlock (f : FlashSt) (b : Nat) : Bool :=
  f.bpl ≠ 0 && f.chanOf b < 64 && bit (f.chipsOf (f.chanOf b)) (f.targetOf b) && f.lunOf b < f.luns
/-- R279: W(m). -/
def FlashSt.working (f : FlashSt) (m : Nat) : Nat := 4 * f.poolLuns m

/-! ## Reserved areas (R278). Where the spec names no block, the place is the model's own. -/

/-- R275: enabled channels. -/
def FlashSt.enabledChans (f : FlashSt) : List Nat := (List.range 64).filter fun c => f.chipsOf c ≠ 0
/-- R278: the first enabled channels in 0 to 31 and in 32 to 63. -/
def FlashSt.anchorChans (f : FlashSt) : List Nat :=
  (f.enabledChans.find? (· < 32)).toList ++ (f.enabledChans.find? (32 ≤ ·)).toList
/-- R278: the anchor blocks: blocks 0 and 1 of LUN 0 of target 0, or of the first enabled target of the channel.
(DESIGN CHOICE, log entry 157) -/
def FlashSt.anchors (f : FlashSt) : List Nat :=
  f.anchorChans.flatMap fun c =>
    let b := (c * 16 + ((List.range 16).find? (bit (f.chipsOf c))).getD 0) * 8 * f.bpl
    [b, b + 1]
/-- R278: a block's place in the order of the blocks of its channel: the lower block numbers of every LUN first. -/
def FlashSt.rank (f : FlashSt) (b : Nat) : Nat :=
  let c := f.chanOf b
  b % f.bpl * f.chanLuns c + popCount (f.targetOf b) (f.chipsOf c) * f.luns + f.lunOf b
/-- R278: its place among the good blocks of the channel outside the anchor. -/
def FlashSt.place (f : FlashSt) (b : Nat) : Nat :=
  f.rank b - ((f.factoryBad ++ f.anchors).dedup.filter fun x => f.chanOf x == f.chanOf b && decide (f.rank x < f.rank b)).length
/-- The part of item i when `total` blocks are spread evenly over n items. -/
def shareOf (total n i : Nat) : Nat := total / n + (if i < total % n then 1 else 0)
/-- R278: blocks of the flush region. -/
def FlashSt.flushBlocks (f : FlashSt) : Nat := ceilDiv (20 * gib) (max 1 f.slcBytes)
/-- R278: blocks of the flush region on a channel, over every enabled channel. -/
def FlashSt.flushShare (f : FlashSt) (c : Nat) : Nat := shareOf f.flushBlocks f.enabledChans.length (f.enabledChans.idxOf c)
/-- R278: the channels c with c and c + 32 enabled. -/
def FlashSt.pairs (f : FlashSt) : List Nat := (List.range 32).filter fun c => f.chipsOf c ≠ 0 && f.chipsOf (c + 32) ≠ 0
/-- R278: blocks on a channel of areas of n blocks that are kept twice, on channels c and c + 32; over every enabled channel where no
pair is enabled. (DESIGN CHOICE, log entry 157) -/
def FlashSt.mirrorShare (f : FlashSt) (n c : Nat) : Nat :=
  if f.pairs.isEmpty then shareOf (2 * n) f.enabledChans.length (f.enabledChans.idxOf c)
  else if f.pairs.contains (c % 32) then shareOf n f.pairs.length (f.pairs.idxOf (c % 32)) else 0
/-- R278: blocks of a channel set aside, with `ckpt` blocks for a copy of the checkpoint area. -/
def FlashSt.asideWith (f : FlashSt) (ckpt c : Nat) : Nat :=
  f.flushShare c + f.mirrorShare (ceilDiv (8 * gib) (max 1 f.slcBytes) + ceilDiv gib (max 1 f.slcBytes) + ckpt) c
/-- R279: good blocks of a channel outside the anchor. -/
def FlashSt.chanGood (f : FlashSt) (c : Nat) : Nat :=
  f.chanLuns c * f.bpl - ((f.factoryBad ++ f.anchors).dedup.filter fun b => f.chanOf b == c).length
/-- R279: good blocks of pool m outside the reserved areas, with a number of blocks set aside on each channel. -/
def FlashSt.goodWith (f : FlashSt) (aside : Nat → Nat) (m : Nat) : Nat :=
  ((List.range 4).map fun c => f.chanGood (4 * m + c) - aside (4 * m + c)).sum
/-- R278: blocks for a copy of the checkpoint area: the least that hold 5 bytes per 4 KiB of the usable capacity which they leave.
(DESIGN CHOICE, log entry 157) -/
def FlashSt.ckptBlocks (f : FlashSt) : Nat :=
  let most := ((List.range 16).map fun m => (f.goodWith (f.asideWith 0) m - f.working m) * f.blockBytes).sum
  ceilDiv (5 * most) (max 1 (4096 * f.slcBytes + 10 * f.blockBytes))
/-- R278, R279: sets the reserved areas aside and counts the good blocks. (DESIGN CHOICE, log entry 157) -/
def FlashSt.plan (f : FlashSt) : FlashSt :=
  let n := f.ckptBlocks
  { f with aside := f.enabledChans.map fun c => (c, f.asideWith n c)
           good0 := (List.range 16).map fun m => (m, f.goodWith (f.asideWith n) m) }
/-- R278: whether a block lies in a reserved area, which runs in SLC mode. (DESIGN CHOICE, log entry 157) -/
def FlashSt.isReserved (f : FlashSt) (b : Nat) : Bool :=
  f.anchors.contains b || f.extra.contains b || (!f.factoryBad.contains b && decide (f.place b < Tbl.get f.aside 0 (f.chanOf b)))
/-- R278, R291: whether a block lies in the flush region. -/
def FlashSt.isFlush (f : FlashSt) (b : Nat) : Bool :=
  !f.anchors.contains b && !f.factoryBad.contains b && decide (f.place b < f.flushShare (f.chanOf b))

/-! ## Capacity (R279 to R281) -/

/-- R279, R299: G(m). -/
def FlashSt.good (f : FlashSt) (m : Nat) : Nat := Tbl.get f.good0 0 m - Tbl.get f.retiredIn 0 m
/-- R279: the usable capacity. -/
def FlashSt.usable (f : FlashSt) : Nat :=
  ((List.range 16).map fun m => (f.good m - f.working m) * f.blockBytes).sum
/-- R280: FORMATTED. -/
def State.formatted (s : State) : Nat := s.host.extents.length * gib
/-- R281: FORMATTABLE under an OP_PERMILLE. -/
def State.formattableAt (s : State) (op : Nat) : Nat :=
  let media := (1000 - op) * s.flash.usable / 1000
  let q := fixedRegions + s.modelBytes false + s.placedBytes 3 64 0
  let dram := (s.dataRegion - max (128 * gib) q) / 5 * 4096
  min media dram / gib * gib
/-- R281: FORMATTABLE. (DEDUCED, log entry 74) -/
def State.formattable (s : State) : Nat := s.formattableAt (s.stored oOpPermille)

/-! ## Codewords (R277) -/

/-- R277: the ciphertext of a unit's data, under the key of its namespace; the tweak is its LPN, which relocation keeps.
(DESIGN CHOICE, log entry 161) -/
def NandUnit.cipher (u : NandUnit) : Bytes := xtsEncrypt (Config.mediaKey u.key) u.lpn (sliceZ u.data 0 4096)

/-- R277: the 16 bytes of metadata. -/
def NandUnit.meta (u : NandUnit) : Bytes :=
  let head := leBytes 5 u.lpn ++ leBytes 1 u.key ++ zeros 6
  head ++ leBytes 4 (crc32c (u.cipher ++ head))

/-- R277: the codeword of a slot: data, metadata and parity. (DESIGN CHOICE, log entry 161) -/
def NandUnit.codeword (u : NandUnit) : Bytes := u.cipher ++ u.meta ++ sliceZ (Config.ldpcParity (u.cipher ++ u.meta)) 0 496

/-! ## Spares and pool states (R299 to R303) -/

/-- R299: D(m). -/
def State.poolDemand (s : State) (m : Nat) : Nat :=
  let all := ((List.range 16).map s.flash.good).sum
  ceilDiv (ceilDiv (s.formatted * s.flash.good m) (max 1 all)) (max 1 s.flash.blockBytes)
/-- R299: SPARE_BLOCKS(m). -/
def State.spares (s : State) (m : Nat) : Nat := s.flash.good m - s.flash.working m - s.poolDemand m
/-- R299: Σ SPARE_BLOCKS. -/
def State.allSpares (s : State) : Nat := ((List.range 16).map s.spares).sum
/-- R299: SPARE_PERMILLE. -/
def State.sparePermille (s : State) : Nat :=
  if s.flash.spareBase = 0 then 1000 else min 1000 (1000 * s.allSpares / s.flash.spareBase)
/-- R307: FREE_BLOCKS(m): the good blocks that the block table does not show in another use. -/
def FlashSt.freeBlocks (f : FlashSt) (m : Nat) : Nat :=
  f.good m - (f.blocks.filter fun b => f.mpoolOf b.1 == m && !f.isReserved b.1 && b.2.use ≠ .free && b.2.use ≠ .retired).length
/-- R307: CRIT_MARK(m): as written, or 2 % of G(m), and at least W(m). -/
def State.critMark (s : State) (m : Nat) : Nat :=
  if s.written.contains (oCritMark m) then s.stored (oCritMark m)
  else max (s.flash.working m) (s.flash.good m / 50)
/-- R300: POOL_MEDIA_STATE. -/
def State.mediaPool (s : State) (m : Nat) : Nat :=
  if s.flash.closedRetire.contains m || s.flash.closedGc.contains m then 2
  else if s.flash.freeBlocks m ≤ s.critMark m then 1 else 0
/-- R278: the media pools that have an enabled LUN. -/
def FlashSt.livePools (f : FlashSt) : List Nat := (List.range 16).filter fun m => f.poolLuns m ≠ 0

/-- R294: whether a unit is valid: the map entry of its LPN names it. -/
def FlashSt.valid (f : FlashSt) (pun : Nat) : Bool :=
  match Tbl.find f.units pun with
  | some u => Tbl.get f.map lpnUnmapped u.lpn == pun
  | none => false
/-- R297: the valid units of a block. -/
def FlashSt.validUnits (f : FlashSt) (b : Nat) : List Nat :=
  (f.units.filter fun u => f.blockOf u.1 == b && f.valid u.1).map Prod.fst
/-- R288, R294: a program operation of a block is still in progress, or its units wait for their group or their commit. -/
def FlashSt.pending (f : FlashSt) (b : Nat) : Bool :=
  (f.wbuf.any fun e => e.pun.any fun p => f.blockOf p == b) || f.copies.any fun c => f.blockOf c.dst == b
/-- R297: whether a block is closed: all of its slots are programmed. -/
def FlashSt.isClosed (f : FlashSt) (b : Nat) : Bool := (Tbl.get f.blocks {} b).use == .closed && !f.pending b
/-- R300: some closed block of pool m holds an invalid unit. -/
def FlashSt.anyInvalid (f : FlashSt) (m : Nat) : Bool :=
  f.blocks.any fun b => f.mpoolOf b.1 == m && f.isClosed b.1 && decide ((f.validUnits b.1).length < b.2.next)

/-- R307: LOST_UNITS. -/
def FlashSt.lostUnits (f : FlashSt) : Nat := (f.map.filter fun e => e.2 == lpnLost).length

/-- R348: asynchronous events: a kind that the host has not masked answers an outstanding request, or waits for one. -/
def State.asyncEvent (s : State) (type info page : Nat) : State :=
  match s.host.aers with
  | cid :: r =>
    if 0 < s.cqFree 0 then
      State.complete { s with host := { s.host with aers := r } } 0 cid 0 0 false (type + 256 * info + 65536 * page) []
    else { s with host := { s.host with events := s.host.events ++ [(type, info, page)] } }
  | [] => { s with host := { s.host with events := s.host.events ++ [(type, info, page)] } }

/-- R308, R482: the bits of Critical Warning that the spec states: 0 spare below threshold, 2 a pool CLOSED or a LOST unit,
3 a namespace READ_ONLY, 4 the hold-up bank in FAULT. -/
def State.criticalWarning (s : State) : Nat :=
  (if s.sparePermille < s.stored oSpareThreshold then 1 else 0) +
  (if (s.flash.livePools.any fun m => s.mediaPool m == 2) || s.flash.lostUnits ≠ 0 then 4 else 0) +
  (if s.flash.readOnly && !s.host.nss.isEmpty then 8 else 0) + (if s.hold.state = 4 then 16 else 0)

/-- R335: whether the Asynchronous Event Configuration lets an event through; every event until the host has set it. -/
def State.eventOn (s : State) (i : Nat) : Bool :=
  match Tbl.find s.host.features 0x0B with
  | some v => bit v i
  | none => true

/-- R348: a Critical Warning bit that has come up is signalled, bit 0 as spare below threshold, the others as reliability. -/
def State.warn (s : State) : State :=
  let w := s.criticalWarning
  let up (i : Nat) : Bool := bit w i && !bit s.host.warned i && s.eventOn i
  let s1 := { s with host := { s.host with warned := w } }
  let s2 := if up 0 then s1.asyncEvent 1 2 2 else s1
  if up 2 || up 3 || up 4 then s2.asyncEvent 1 0 2 else s2

/-- R301, R303: MEDIA_STATE follows the pools; a change adds every namespace to the Changed Namespace List and signals
Namespace Attribute Changed. -/
def State.followMedia (s : State) : State :=
  let ro := !s.flash.livePools.isEmpty && s.flash.livePools.all fun m => s.mediaPool m == 2
  if ro = s.flash.readOnly then s.warn
  else
    let nsids := s.host.nss.map Prod.fst
    let s' := { s with flash := { s.flash with readOnly := ro },
                       host := { s.host with changed := (s.host.changed ++ nsids).dedup } }
    if nsids.isEmpty || !s.eventOn 8 then s'.warn else (s'.asyncEvent 2 0 4).warn

/-- R300, R303: a pool that garbage collection can no longer help becomes CLOSED; it leaves CLOSED when it has spare blocks and a
deallocation or a deletion has made a unit of a closed block invalid. A pool closed by a retirement leaves CLOSED with spare blocks. -/
def State.followGc (s : State) (m : Nat) : State :=
  let f := s.flash
  let stuck := f.poolLuns m ≠ 0 && f.freeBlocks m ≤ f.working m && !f.anyInvalid m
  let opens := f.closedGc.contains m && f.gained.contains m && decide (0 < s.spares m)
  let closes := !f.closedGc.contains m && stuck
  let rt := if f.closedRetire.contains m && 0 < s.spares m then f.closedRetire.filter (· ≠ m) else f.closedRetire
  State.followMedia { s with flash := { f with
    closedGc := if opens then f.closedGc.filter (· ≠ m) else if closes then f.closedGc ++ [m] else f.closedGc
    gained := if opens || closes then f.gained.filter (· ≠ m) else f.gained
    closedAt := if closes && !f.closedRetire.contains m then Tbl.set f.closedAt m f.nextWrite else f.closedAt
    closedRetire := rt } }

/-- R303: every pool's state brought up to date. -/
def State.followPools (s : State) : State := (List.range 16).foldl State.followGc s

/-! ## The journal and the map (R283 to R287) -/

/-- R283: the records that the journal holds, oldest first. -/
def FlashSt.records (f : FlashSt) : List JRec := f.journal.flatMap JPage.recs

/-- R283: the sequence number of the next record. -/
def FlashSt.seq (f : FlashSt) : Nat :=
  match f.journal.getLast? with
  | some p => p.base + p.recs.length
  | none => f.journalBase

/-- R283: the 16 bytes of a record. -/
def JRec.bytes (r : JRec) : Bytes := leBytes 5 r.lpn ++ leBytes 5 r.value ++ leBytes 1 r.type ++ leBytes 1 r.group ++ zeros 4

/-- R283: the 4 KiB of a journal page. Its CRC is taken with the CRC field zero. (DESIGN CHOICE, log entry 158) -/
def JPage.bytes (p : JPage) : Bytes :=
  let head := leBytes 4 0x4C4E524A ++ leBytes 8 p.base ++ leBytes 2 p.recs.length ++ zeros 14
  let body := sliceZ (p.recs.flatMap JRec.bytes) 0 4064
  head ++ leBytes 4 (crc32c (head ++ zeros 4 ++ body)) ++ body

/-- R285: the segment of an LPN. -/
def segmentOf (lpn : Nat) : Nat := lpn / 2 ^ 20

/-- R280, R285: a map entry changed; an UNMAPPED entry is not listed. -/
def FlashSt.setEntry (f : FlashSt) (lpn value : Nat) : FlashSt :=
  let seg := segmentOf lpn
  { f with map := if value = lpnUnmapped then Tbl.del f.map lpn else Tbl.set f.map lpn value,
           dirty := if f.dirty.any (fun d => d.1 == seg) then f.dirty else f.dirty ++ [(seg, f.seq)] }

/-- R283, R284: a group appended to the journal buffer, or to a new page when it does not fit; the page before is then programmed. -/
def FlashSt.append (f : FlashSt) (g : List JRec) : FlashSt :=
  match f.journal.getLast? with
  | some p =>
    if f.journalDone ≤ p.base && p.recs.length + g.length ≤ 254 then
      { f with journal := f.journal.dropLast ++ [{ p with recs := p.recs ++ g }] }
    else { f with journal := f.journal ++ [{ base := f.seq, recs := g }], journalDone := f.seq }
  | none => { f with journal := [{ base := f.seq, recs := g }], journalDone := f.seq }

/-- R284: GROUP of record i of a group of n. -/
def groupBits (i n : Nat) : Nat := (if i = 0 then 1 else 0) + (if i + 1 = n then 2 else 0)

/-- R284: a list cut into pieces of n; `k` bounds their number. -/
def pieces {α : Type} (n : Nat) : Nat → List α → List (List α)
  | 0, _ => []
  | k + 1, l => if l.isEmpty then [] else l.take n :: pieces n k (l.drop n)

/-- R280, R284: map entries, LPN, VALUE and TYPE, changed and journalled as one group; more than a page holds are several groups.
(DESIGN CHOICE, log entry 158) -/
def FlashSt.remapGroup (f : FlashSt) (l : List (Nat × Nat × Nat)) : FlashSt :=
  (pieces 254 l.length l).foldl (fun (f : FlashSt) c =>
    (c.foldl (fun (f : FlashSt) x => f.setEntry x.1 x.2.1) f).append
      (c.zipIdx.map fun x => { lpn := x.1.1, value := x.1.2.1, type := x.1.2.2, group := groupBits x.2 c.length })) f

/-- R280, R283: one map entry changed and journalled. -/
def FlashSt.remap (f : FlashSt) (lpn value type : Nat) : FlashSt := f.remapGroup [(lpn, value, type)]

/-- R280, R284: LPNs deallocated as one group. -/
def FlashSt.unmap (f : FlashSt) (lpns : List Nat) : FlashSt := f.remapGroup (lpns.map fun l => (l, lpnUnmapped, 2))

/-- R284, R288: the pages of a write have all been programmed: the map names their units, the group is journalled and the entries are
released. (DEDUCED, log entry 159) -/
def FlashSt.settleWrite (f : FlashSt) (w : Nat) : FlashSt :=
  let es := f.wbuf.filter fun e => e.write == w
  if !es.isEmpty && es.all WbEntry.done then
    FlashSt.remapGroup { f with wbuf := f.wbuf.filter fun e => e.write ≠ w } (es.map fun e => (e.lpn, e.pun.getD lpnUnmapped, 1))
  else f

/-- R284: the writes that have lost pages to a newer write or a deallocation. -/
def FlashSt.settle (f : FlashSt) : FlashSt := ((f.wbuf.map WbEntry.write).dedup).foldl FlashSt.settleWrite f

/-- R283: the entry that a record gives. -/
def JRec.apply (r : JRec) (m : Tbl Nat) : Tbl Nat :=
  if r.type = 2 then Tbl.del m r.lpn else Tbl.set m r.lpn r.value

/-- R286: both copies of an item are bad. -/
def copiesBad (l : List (Nat × Nat)) (x : Nat) : Bool := l.contains (x, 0) && l.contains (x, 1)

/-- R286: step 1: the newest anchor of which a copy has a valid CRC; without one nothing is mapped. (DESIGN CHOICE, log entry 160) -/
def FlashSt.rootFor (f : FlashSt) (x : StartFacts) : Anchor :=
  if !copiesBad x.badAnchors 0 then f.root else if !copiesBad x.badAnchors 1 then f.older else {}

/-- R286: a segment as its checkpoint gives it, from either copy, or its older checkpoint; none when no copy decodes. -/
def FlashSt.segmentFor (f : FlashSt) (x : StartFacts) (seg : Nat) (k : Nat × Tbl Nat) : Option (Nat × Tbl Nat) :=
  let bad (age : Nat) : Bool := x.badSegments.contains (age, seg, 0) && x.badSegments.contains (age, seg, 1)
  if !bad 0 then some k
  else (Tbl.find f.older.ckpts seg).filter fun o => decide (o.1 < k.1) && !bad 1

/-- R284, R286: the journal up to the first page whose CRC fails in both copies. -/
def FlashSt.journalFor (f : FlashSt) (x : StartFacts) : List JPage := f.journal.takeWhile fun p => !copiesBad x.badJournal p.base

/-- R283: the records of pages, with their sequence numbers. -/
def numbered (ps : List JPage) : List (Nat × JRec) := ps.flatMap fun p => p.recs.zipIdx.map fun r => (p.base + r.2, r.1)

/-- R286: the map rebuilt from the checkpoints and the journal, for namespaces that hold the given extents: a record is applied when its
sequence number is at least the CKPT_SEQ of its segment; the LPNs of a segment without a checkpoint that decodes are LOST. The erase and
read counts are those written with the checkpoint. (DEDUCED, log entry 78; DESIGN CHOICE, log entry 160) -/
def FlashSt.rebuild (f : FlashSt) (x : StartFacts) (extents : List Nat) : FlashSt :=
  let root := f.rootFor x
  let pages := f.journalFor x
  let segs := root.ckpts.map fun c => (c.1, f.segmentFor x c.1 c.2)
  let gone := (segs.filter fun c => c.2.isNone).map Prod.fst
  let lost := (extents.filter fun e => gone.contains (e / 4)).flatMap fun e => (List.range 262144).map (e * 262144 + ·)
  let base : Tbl Nat := segs.foldl (fun m c => (c.2.getD (0, [])).2.foldl (fun m e => Tbl.set m e.1 e.2) m) []
  let m := (numbered pages).foldl (fun m r =>
    let seg := segmentOf r.2.lpn
    let from_ := match Tbl.find segs seg with | some (some k) => k.1 | _ => 0
    if from_ ≤ r.1 && !gone.contains seg then r.2.apply m else m) base
  let counts (b : Nat) (y : Block) : Block :=
    let z := Tbl.get root.blocks {} b
    { y with erases := z.erases, reads := z.reads }
  { f with map := lost.foldl (fun m l => Tbl.set m l lpnLost) m, journal := pages, root := root
           journalDone := match pages.getLast? with | some p => p.base + p.recs.length | none => f.journalBase
           blocks := f.blocks.map fun b => (b.1, counts b.1 b.2)
           wbuf := f.flushed.map fun e => { e with pun := none, done := false }, copies := [], flushErased := [] }

/-- R283: journal pages that no anchor needs are let go. -/
def FlashSt.trim (f : FlashSt) (from_ : Nat) : FlashSt :=
  let ps := f.journal.dropWhile fun p => decide (p.base + p.recs.length ≤ from_)
  { f with journal := ps, journalBase := f.seq }

/-- R278, R285: the oldest dirty segment written to the checkpoint area with the block tables, and an anchor that points to it; the
journal is kept as far back as the anchor before it needs. -/
def FlashSt.checkpoint (f : FlashSt) : FlashSt :=
  match f.dirty with
  | [] => f
  | (seg, _) :: rest =>
    let entries : Tbl Nat := f.map.filter fun e => segmentOf e.1 == seg
    let keep := match rest with
      | (_, q) :: _ => q
      | [] => f.seq
    FlashSt.trim { f with root := { base := keep, ckpts := Tbl.set f.root.ckpts seg (f.seq, entries), blocks := f.blocks }
                          older := f.root, dirty := rest, journalDone := f.seq } f.root.base

/-! ## Reading (R280, R292, R293) -/

/-- R280, R292: a logical page as a reader gets it: the newest data of the write buffer, else the mapped unit's; none
when the page is LOST or its unit does not decode. -/
def FlashSt.page (f : FlashSt) (lpn : Nat) : Option Bytes :=
  match f.wbuf.reverse.find? fun e => e.lpn == lpn with
  | some e => some (sliceZ e.data 0 4096)
  | none =>
    let v := Tbl.get f.map lpnUnmapped lpn
    if v = lpnUnmapped then some (zeros 4096)
    else if v = lpnLost then none
    else
      match Tbl.find f.units v with
      | some u => if u.bad then none else some (sliceZ u.data 0 4096)
      | none => none

/-- R336, R280: the LPN of a namespace's logical block; none beyond its capacity. -/
def Namespace.lpn (x : Namespace) (lba : Nat) : Option Nat :=
  (x.extents[lba / 262144]?).map fun e => e * 262144 + lba % 262144

/-- R280: pages of a namespace from a logical block up, or none when one cannot be read. (DEDUCED, log entry 139) -/
def State.readPages (s : State) (x : Namespace) (lba : Nat) : Nat → Option Bytes
  | 0 => some []
  | n + 1 =>
    match (x.lpn lba).bind s.flash.page, s.readPages x (lba + 1) n with
    | some p, some r => some (p ++ r)
    | _, _ => none

/-- R280: bytes of a namespace from a byte offset. -/
def State.readBytes (s : State) (x : Namespace) (off n : Nat) : Option Bytes :=
  let first := off / 4096
  (s.readPages x first (ceilDiv (off % 4096 + n) 4096)).map fun b => (b.drop (off % 4096)).take n

/-- R292: counts the step at which a codeword decoded: 0 hard, 1 to 16 retry, 17 soft, 18 failure. -/
def State.countDecode (s : State) (step : Nat) : State :=
  if step = 0 then s.count oCorHard 1
  else if step ≤ 16 then s.count oCorRetry 1
  else if step = 17 then s.count oCorSoft 1
  else s.count oUncorrectable 1

/-- R293: a page read of block b that needed `step`: the read count, and the refresh that it schedules. (DEDUCED, log entry 75) -/
def State.countRead (s : State) (b step : Nat) : State :=
  let x := Tbl.get s.flash.blocks {} b
  let due := s.stored oRefreshStep ≤ step || s.stored oRdLimit ≤ x.reads + 1
  let x' := { x with reads := x.reads + 1, refresh := x.refresh || (due && x.use ≠ .free && x.use ≠ .retired) }
  { s with flash := { s.flash with blocks := Tbl.set s.flash.blocks b x' } }

/-- R292: the unit of a PUN marked as decoding or not. -/
def State.markUnit (s : State) (pun : Nat) (bad : Bool) : State :=
  match Tbl.find s.flash.units pun with
  | some u => { s with flash := { s.flash with units := Tbl.set s.flash.units pun { u with bad := bad } } }
  | none => s

/-! ## Blocks -/

/-- The record of block b changed. -/
def FlashSt.updBlock (f : FlashSt) (b : Nat) (g : Block → Block) : FlashSt :=
  { f with blocks := Tbl.upd f.blocks {} b g }

/-- R297: the numbers of pool m's blocks outside the reserved areas, `k` of them from block b up. -/
def FlashSt.scanBlocks (f : FlashSt) (m : Nat) : List Nat :=
  ((List.range 4).flatMap fun c => (List.range 16).flatMap fun t => (List.range 8).flatMap fun l =>
    (List.range f.bpl).map fun b => ((((4 * m + c) * 16 + t) * 8 + l) * f.bpl + b)).filter fun b =>
      f.isBlock b && !f.factoryBad.contains b && !f.isReserved b

/-- R297: the free block of pool m with the lowest erase count, the first such. -/
def FlashSt.freshBlock (f : FlashSt) (m : Nat) : Option Nat :=
  (f.scanBlocks m).foldl (fun best b =>
    let x := Tbl.get f.blocks {} b
    if x.use ≠ .free then best
    else
      match best with
      | none => some b
      | some c => if x.erases < (Tbl.get f.blocks {} c).erases then some b else best) none

/-- R288: the open block of a kind in pool m, opening one when there is none. -/
def FlashSt.openBlock (f : FlashSt) (m : Nat) (u : BlockUse) : Option (Nat × FlashSt) :=
  match f.blocks.find? fun b => f.mpoolOf b.1 == m && b.2.use == u with
  | some b => some (b.1, f)
  | none => (f.freshBlock m).map fun b => (b, f.updBlock b fun x => { x with use := u, next := 0 })

/-- R276: takes the next slot of an open block; a block whose last slot is taken becomes closed. -/
def FlashSt.takeSlot (f : FlashSt) (m : Nat) (u : BlockUse) : Option (Nat × FlashSt) :=
  match f.openBlock m u with
  | none => none
  | some (b, f') =>
    let x := Tbl.get f'.blocks {} b
    some (f'.firstPun b + x.next, f'.updBlock b fun x =>
      { x with next := x.next + 1, use := if x.next + 1 = f'.blockSlots then .closed else u })

/-- R302, R300: the pool into which units of pool m are relocated: m itself, or another when m is CLOSED. -/
def State.relocPool (s : State) (m : Nat) : Nat :=
  if s.mediaPool m ≠ 2 then m else (s.flash.livePools.find? fun k => s.mediaPool k ≠ 2).getD m

/-- R280, R295: the entry of an LPN becomes LOST. -/
def State.lose (s : State) (lpn : Nat) : State := State.warn { s with flash := s.flash.remap lpn lpnLost 3 }

/-- R302: blocks that the data still to be destaged needs. -/
def FlashSt.destageNeed (f : FlashSt) : Nat := ceilDiv (f.wbuf.filter fun e => e.pun.isNone).length (max 1 f.blockSlots)

/-- R294, R302: a slot of the open relocation block of pool m; in READ_ONLY a block is opened only of those left after destaging. -/
def FlashSt.relocSlot (f : FlashSt) (m : Nat) : Option (Nat × FlashSt) :=
  let isOpen := f.blocks.any fun b => f.mpoolOf b.1 == m && b.2.use == .openReloc
  if f.readOnly && !isOpen && decide ((f.livePools.map f.freeBlocks).sum ≤ f.destageNeed) then none else f.takeSlot m .openReloc

/-- R294: begins the copy of a valid unit, unless a copy of it is in progress. A unit that did not decode is LOST (R295, R298). -/
def State.beginCopy (s : State) (m pun : Nat) : State :=
  if (s.flash.copies.any fun c => c.src == pun) || !s.flash.valid pun then s
  else
    match Tbl.find s.flash.units pun with
    | none => s
    | some u =>
      if u.bad then s.lose u.lpn
      else
        match s.flash.relocSlot (s.relocPool m) with
        | some (dst, f) => { s with flash := { f with copies := f.copies ++ [{ src := pun, dst := dst, lpn := u.lpn }] } }
        | none => s

/-- R293: a block whose units have all been relocated is erased. -/
def State.afterMove (s : State) (b : Nat) : State :=
  let x := Tbl.get s.flash.blocks {} b
  if (x.victim || x.refresh) && s.flash.isClosed b && (s.flash.validUnits b).isEmpty &&
      !(s.flash.copies.any fun c => s.flash.blockOf c.src == b) then
    { s with flash := s.flash.updBlock b fun x => { x with use := .erasing } }
  else s

/-- R293, R294: relocates every valid unit of a block; a block without one is erased. -/
def State.evacuate (s : State) (b : Nat) : State :=
  ((s.flash.validUnits b).foldl (fun (s : State) p => s.beginCopy (s.flash.mpoolOf b) p)
    { s with flash := s.flash.updBlock b fun x => { x with victim := true } }).afterMove b

/-- R289, R296: the block's program operations are issued again elsewhere: data from the write buffer, and copies from their sources. -/
def State.restartPrograms (s : State) (b : Nat) : State :=
  let f := s.flash
  let back (e : WbEntry) : WbEntry := if e.pun.any fun p => f.blockOf p == b then { e with pun := none, done := false } else e
  let cs := f.copies.filter fun c => f.blockOf c.dst == b
  cs.foldl (fun (s : State) c => s.beginCopy (s.flash.mpoolOf (s.flash.blockOf c.src)) c.src)
    { s with flash := { f with wbuf := f.wbuf.map back, copies := f.copies.filter fun c => f.blockOf c.dst ≠ b } }

/-- R289, R296, R299, R300: retires a block: it leaves its pool, which closes when SPARE_BLOCKS is at 0, its valid units are relocated
and its program operations issued again. A block that is retired already leaves its pool no second time. -/
def State.retireBlock (s : State) (b : Nat) : State :=
  let m := s.flash.mpoolOf b
  let closes := s.spares m == 0 && !s.flash.closedRetire.contains m
  let f := { s.flash.updBlock b fun x => { x with use := .retired } with
             retiredIn := Tbl.upd s.flash.retiredIn 0 m (· + 1)
             closedRetire := if closes then s.flash.closedRetire ++ [m] else s.flash.closedRetire
             closedAt := if closes && !s.flash.closedGc.contains m then Tbl.set s.flash.closedAt m s.flash.nextWrite else s.flash.closedAt }
  let s1 := if (Tbl.get s.flash.blocks {} b).use = .retired then s else State.count { s with flash := f } oRetiredBlocks 1
  ((s1.evacuate b).restartPrograms b).followPools

/-- R289: a block of a reserved area is retired, and another of its pool takes its place. -/
def State.retireReserved (s : State) (b : Nat) : State :=
  let s1 := s.retireBlock b
  match s1.flash.freshBlock (s.flash.mpoolOf b) with
  | some k => { s1 with flash := { s1.flash with extra := s1.flash.extra ++ [k] } }
  | none => s1

/-- R302: REFRESH_PENDING: in READ_ONLY, with no free block left, the blocks that await refresh. -/
def FlashSt.refreshPending (f : FlashSt) : Nat :=
  if f.readOnly && f.livePools.all (fun m => f.freeBlocks m == 0) then (f.blocks.filter fun b => b.2.refresh).length else 0

/-! ## Admission of writes (R290, R345) -/

/-- R290: the free capacity of the OPEN and LOW pools. -/
def State.freeCapacity (s : State) : Nat :=
  (s.flash.livePools.map fun m => if s.mediaPool m = 2 then 0 else s.flash.freeBlocks m * s.flash.blockBytes).sum

/-- R290, R347: room for n more bytes of dirty data, of JOURNAL class or not. -/
def State.bufferRoom (s : State) (journal : Bool) (n : Nat) : Bool :=
  let used := s.dirtyBytes
  let jused := 4096 * (s.flash.wbuf.filter fun e => e.journal).length
  !s.flash.erasingFlush && decide (used + n < s.freeCapacity) &&
  (if journal then (decide (jused + n ≤ Config.journalReserve) || decide (used + n ≤ Config.writeBuffer))
   else decide (used + n + (Config.journalReserve - min jused Config.journalReserve) ≤ Config.writeBuffer))

/-- R344, R345: a page admitted into the write buffer as part of a write; a waiting entry of the same page that has not been programmed
gives way. -/
def FlashSt.admitPage (f : FlashSt) (journal : Bool) (key write : Nat) (p : Nat × Bytes) : FlashSt :=
  { f with wbuf := (f.wbuf.filter fun e => !(e.lpn == p.1 && e.pun.isNone)) ++
             [{ lpn := p.1, data := sliceZ p.2 0 4096, journal := journal, key := key, write := write }] }

/-- R344, R345: the pages of a write admitted: one write on a NORMAL namespace, one for each block on a JOURNAL namespace. -/
def FlashSt.admitPages (f : FlashSt) (pages : List (Nat × Bytes)) (journal : Bool) (key : Nat) : FlashSt :=
  let f1 := pages.zipIdx.foldl (fun (f1 : FlashSt) p => f1.admitPage journal key (if journal then f.nextWrite + p.2 else f.nextWrite) p.1) f
  FlashSt.settle { f1 with nextWrite := f.nextWrite + (if journal then pages.length else 1) }

/-- R280: pages deallocated: their waiting entries and map entries go. -/
def FlashSt.dealloc (f : FlashSt) (lpns : List Nat) : FlashSt :=
  (FlashSt.unmap { f with wbuf := f.wbuf.filter fun e => !lpns.contains e.lpn }
    (lpns.filter fun l => (Tbl.find f.map l).isSome || f.wbuf.any fun e => e.lpn == l)).settle

/-- R280, R303: pages deallocated; a pool closed by garbage collection in which a closed block loses a valid unit by it may open. -/
def State.freePages (s : State) (lpns : List Nat) : State :=
  let f := s.flash
  let hit := lpns.filterMap fun l =>
    let v := Tbl.get f.map lpnUnmapped l
    if f.valid v && f.isClosed (f.blockOf v) then some (f.mpoolOf (f.blockOf v)) else none
  { s with flash := { f.dealloc lpns with gained := (f.gained ++ hit.filter f.closedGc.contains).dedup } }

/-- R346: the next slot for write-through data: of the open host block of the first pool that is OPEN or LOW and has one.
(DESIGN CHOICE, log entry 131) -/
def State.takeThrough (s : State) : Option (Nat × FlashSt) :=
  (s.flash.livePools.filter fun m => s.mediaPool m ≠ 2).findSome? fun m => s.flash.takeSlot m .openHost

/-- R346: the pages of a write-through write, programmed and verified in flash, with the slots that they took; none when no pool has a
slot. -/
def State.programFrom (key : Nat) : List (Nat × Bytes) → State → Option (State × List (Nat × Nat))
  | [], s => some (s, [])
  | p :: r, s =>
    match s.takeThrough with
    | none => none
    | some (pun, f) =>
      let f1 := { f with units := Tbl.set f.units pun { lpn := p.1, key := key, data := sliceZ p.2 0 4096 },
                         wbuf := f.wbuf.filter fun e => e.lpn ≠ p.1 }
      (State.programFrom key r { s with flash := f1 }).map fun q => (q.1, (p.1, pun) :: q.2)

/-- R284, R344, R346: a write-through write: its pages, and its map changes journalled and programmed, as one group, or on a JOURNAL
namespace as one group per block. -/
def State.programPages (s : State) (journal : Bool) (key : Nat) (pages : List (Nat × Bytes)) : Option State :=
  (State.programFrom key pages s).map fun q =>
    let f := if journal then q.2.foldl (fun (f : FlashSt) x => f.remap x.1 x.2 1) q.1.flash
      else q.1.flash.remapGroup (q.2.map fun x => (x.1, x.2, 1))
    let g := f.settle
    State.followPools { q.1 with flash := { g with journalDone := g.seq, nextWrite := g.nextWrite + 1 } }

/-- R481, R482: n more bytes of dirty data lie within the allowance. -/
def State.inAllowance (s : State) (n : Nat) : Bool := s.dirtyBytes + n ≤ s.hold.dAllow

/-! ## The commands -/

/-- R411: the FLASH domain is ON. -/
def State.flashOn (s : State) : Bool := (s.domain 2).state == 0

/-- A media event acts while the device is up and the FLASH domain is ON. -/
def withFlash (s : State) (f : State → Res) : Res := whenUp s fun s => if s.flashOn then f s else .next s

/-- R288, R300, R347: the entry to destage next into pool m: the oldest of JOURNAL class, else the oldest, that no program operation holds
and behind which no older data of its page waits for its group; a CLOSED pool takes what was admitted before it closed. -/
def State.nextDestage (s : State) (m : Nat) : Option WbEntry :=
  let f := s.flash
  let ready (e : WbEntry) : Bool :=
    e.pun.isNone && (s.mediaPool m ≠ 2 || decide (e.write < Tbl.get f.closedAt 0 m)) &&
    !f.wbuf.any fun o => o.lpn == e.lpn && o.pun.isSome
  match f.wbuf.find? fun e => ready e && e.journal with
  | some e => some e
  | none => f.wbuf.find? ready

/-- R288, R300: DESTAGE programs an entry of the write buffer into the open host block of pool m. (DESIGN CHOICE, log entry 77) -/
def execDestage (m : Nat) (s : State) : Res :=
  if 16 ≤ m then .fault .noSuchMediaPool
  else withFlash s fun s =>
    match s.nextDestage m, s.flash.takeSlot m .openHost with
    | some e, some (pun, f) =>
      let w := f.wbuf.map fun (x : WbEntry) => if x = e then { x with pun := some pun } else x
      .next { s with flash := { f with wbuf := w } }
    | _, _ => .next s

/-- R284, R288: the program operation of a write-buffer entry succeeds; once every page of the write has been programmed its units are
mapped and journalled, and its entries released. -/
def State.programmed (s : State) (pun : Nat) (e : WbEntry) : State :=
  let f := { s.flash with units := Tbl.set s.flash.units pun { lpn := e.lpn, key := e.key, data := e.data },
                          wbuf := s.flash.wbuf.map fun (x : WbEntry) => if x.pun = some pun then { x with done := true } else x }
  { s with flash := f.settleWrite e.write }

/-- R288, R289, R294, R296: PROGRAM_COMPLETE: of a write-buffer entry, or of a copy whose source has been read. -/
def execProgramComplete (pun : Nat) (ok : Bool) (s : State) : Res :=
  withFlash s fun s =>
    let b := s.flash.blockOf pun
    match s.flash.wbuf.find? fun e => e.pun == some pun && !e.done with
    | some e =>
      if ok then .next ((s.programmed pun e).followGc (s.flash.mpoolOf b))
      else .next ((s.count oProgramFails 1).retireBlock b)
    | none =>
      match s.flash.copies.find? fun c => c.dst == pun && c.read && !c.programmed with
      | some c =>
        if ok then
          match Tbl.find s.flash.units c.src with
          | some u =>
            .next { s with flash := { s.flash with
              units := Tbl.set s.flash.units pun u,
              copies := s.flash.copies.map fun x => if x.dst = pun then { x with programmed := true } else x } }
          | none => .next { s with flash := { s.flash with copies := s.flash.copies.filter fun x => x.dst ≠ pun } }
        else .next ((s.count oProgramFails 1).retireBlock b)
      | none => .next s

/-- R289, R291, R293: ERASE_COMPLETE: the block is free again, or is retired. The erase of the flush region that follows its replay ends
with its last block. -/
def execEraseComplete (block : Nat) (ok : Bool) (s : State) : Res :=
  withFlash s fun s =>
    let f := s.flash
    let x := Tbl.get f.blocks {} block
    if x.use = .erasing then
      if ok then
        .next (State.followPools { s with flash := { f with units := f.units.filter fun u => f.blockOf u.1 ≠ block
                                                            blocks := Tbl.set f.blocks block { erases := x.erases + 1 } } })
      else .next ((s.count oEraseFails 1).retireBlock block)
    else if f.erasingFlush && f.isBlock block && f.isFlush block && !f.flushErased.contains block then
      let done := f.flushErased ++ [block]
      let ended := decide (f.flushBlocks ≤ done.length)
      let s1 := { s with flash := { f with flushErased := done, erasingFlush := !ended, flushed := if ended then [] else f.flushed
                                           blocks := if ok then Tbl.set f.blocks block { erases := x.erases + 1 } else f.blocks } }
      if ok then .next s1 else .next ((s1.count oEraseFails 1).retireReserved block)
    else .next s

/-- R292 to R296: NAND_READ_COMPLETE: the step at which the codeword decoded, 18 for none. A read of a copy's source is its step 1, and a
source that does not decode is LOST; a read of its target verifies it at step 0. A reserved area has its other copy.
(DESIGN CHOICE, log entry 76) -/
def execNandReadComplete (pun step : Nat) (s : State) : Res :=
  withFlash s fun s =>
    let b := s.flash.blockOf pun
    let s1 := (s.countDecode step).countRead b step
    if s.flash.isBlock b && s.flash.isReserved b then .next s1
    else
      match Tbl.find s.flash.units pun with
      | none => .next s
      | some u =>
        let s2 := s1.markUnit pun (decide (17 < step))
        let mark (g : Copy → Copy) (p : Copy → Bool) : State :=
          { s2 with flash := { s2.flash with copies := s2.flash.copies.map fun x => if p x then g x else x } }
        if s.flash.copies.any fun c => c.dst == pun && c.programmed then
          if step = 0 then .next (mark (fun x => { x with verified := true }) (·.dst == pun))
          else .next (s2.retireBlock b)
        else if s.flash.copies.any fun c => c.src == pun then
          if step ≤ 17 then .next (mark (fun x => { x with read := true }) (·.src == pun))
          else
            let s3 := { s2 with flash := { s2.flash with copies := s2.flash.copies.filter fun x => x.src ≠ pun } }
            .next ((if s.flash.valid pun then s3.lose u.lpn else s3).afterMove b)
        else .next s2

/-- R294, R295: UNIT_COPY_COMMIT: a verified copy commits only if the map entry still names the source. -/
def execUnitCopyCommit (src : Nat) (s : State) : Res :=
  withFlash s fun s =>
    match s.flash.copies.find? fun c => c.src == src && c.verified with
    | none => .next s
    | some c =>
      let f := { s.flash with copies := s.flash.copies.filter fun x => x.src ≠ src }
      let f' := if Tbl.get f.map lpnUnmapped c.lpn = src then f.remap c.lpn c.dst 1 else f
      .next ((State.afterMove { s with flash := f' } (s.flash.blockOf src)).followGc (s.flash.mpoolOf (s.flash.blockOf src)))

/-- R294: a valid unit of the block is not being copied. -/
def FlashSt.leftBehind (f : FlashSt) (b : Nat) : Bool := (f.validUnits b).any fun p => !f.copies.any fun c => c.src == p

/-- R297: the better of two victims: fewer valid units, then the lower erase count. -/
def FlashSt.better (f : FlashSt) (b c : Nat × Block) : Bool :=
  let vb := (f.validUnits b.1).length
  let vc := (f.validUnits c.1).length
  decide (vb < vc) || (vb == vc && decide (b.2.erases < c.2.erases))

/-- The first of a list that no later one is better than. -/
def bestOf {α : Type} (better : α → α → Bool) : List α → Option α
  | [] => none
  | a :: r => some (r.foldl (fun c b => if better b c then b else c) a)

/-- R289, R297: the victim of pool m: a retired block that still holds units, a closed block that awaits refresh, the block with the
lowest erase count when the counts differ by more than WL_SPREAD, else the closed block with the fewest valid units, the lowest erase
count on a tie; in each case one whose units are not all being copied. -/
def State.victim (s : State) (m : Nat) : Option Nat :=
  let f := s.flash
  let mine := f.blocks.filter fun b => f.mpoolOf b.1 == m
  let closed := mine.filter fun b => f.isClosed b.1 && ((f.validUnits b.1).isEmpty || f.leftBehind b.1)
  match mine.find? fun b => b.2.use == .retired && f.leftBehind b.1, closed.find? fun b => b.2.refresh with
  | some b, _ => some b.1
  | none, some b => some b.1
  | none, none =>
    if s.mediaPool m = 2 then none
    else
      match bestOf (fun b c => decide (b.2.erases < c.2.erases)) closed with
      | none => none
      | some l =>
        if s.stored oWlSpread + l.2.erases < (mine.map fun b => b.2.erases).foldl max 0 then some l.1
        else (bestOf f.better closed).map Prod.fst

/-- R297: GC_VICTIM_SELECT relocates the victim's valid units. -/
def execGcVictimSelect (m : Nat) (s : State) : Res :=
  if 16 ≤ m then .fault .noSuchMediaPool
  else withFlash s fun s =>
    match s.victim m with
    | some b => .next ((s.evacuate b).followGc m)
    | none => .next (s.followGc m)

/-- R298: PATROL_READ reads and decodes the next mapped unit and delivers no data; a pass ends after the last one. -/
def execPatrolRead (step : Nat) (s : State) : Res :=
  whenRm 3 s fun s => withFlash s fun s =>
    match s.flash.map.find? fun e => s.flash.patrol ≤ e.1 && e.2 ≠ lpnLost with
    | none => .next (State.store { s with flash := { s.flash with patrol := 0 } } oPatrolDone s.gtc)
    | some (lpn, pun) =>
      let s1 := (((s.countDecode step).countRead (s.flash.blockOf pun) step).markUnit pun (decide (17 < step)))
      let f := { s1.flash with patrol := lpn + 1,
                               report := if 17 < step then ((s.gtc, lpn, pun, step) :: s1.flash.report).take 4096 else s1.flash.report }
      .next { s1 with flash := f }

/-- R285: CHECKPOINT_WRITE. -/
def execCheckpointWrite (s : State) : Res :=
  whenRm 3 s fun s => withFlash s fun s => .next { s with flash := s.flash.checkpoint }

/-- R307: the histogram bin of a temperature. -/
def tempBin (t : Int) : Nat := if t < 0 then 0 else min 20 (t.toNat / 5 + 1)

/-- R307: FLASH_TEMP_SAMPLE: TEMP_NOW is the hottest reading, and each reading adds a minute to its bin. -/
def execFlashTempSample (temps : List Int) (s : State) : Res :=
  withFlash s fun s =>
    let hot := temps.foldl (fun a t => if a < t then t else a) (-128)
    .next (temps.foldl (fun s t => s.count (oTempHist (tempBin t)) 1) (s.store oTempNow (ofSigned 8 hot)))

end Sys2Proof.Machine
end

