-- ==== Sys2Proof/Machine/Qos.lean ====
section
/-! DEFINITION. Service classes: the two-bucket shaper and policer (R383 to R387), gate control lists (R388 to R391),
and depth and delay sampling (R392). -/

namespace Sys2Proof.Machine

/-! ## Colours (R384) -/

/-- R384: the colours. -/
inductive Tint
  | green | yellow | red
  deriving DecidableEq, Repr

/-- R384: tokens are counted in units × 10^9. -/
def tokenScale : Nat := 1000000000

/-- R383: a queue is unshaped. -/
def State.unshaped (s : State) (q : Nat) : Bool := s.stored (oPir q) == 2 ^ 64 - 1

/-- R384: the committed and peak tokens of queue q after a refill at the present GTC. -/
def State.tokens (s : State) (q : Nat) : Nat × Nat :=
  let x := s.queue q
  let d := s.gtc - x.last
  if x.full then (s.stored (oCbs q) * tokenScale, s.stored (oPbs q) * tokenScale)
  else (min (s.stored (oCbs q) * tokenScale) (x.tc + s.stored (oCir q) * d),
        min (s.stored (oPbs q) * tokenScale) (x.tp + s.stored (oPir q) * d))

/-- R384: the colour of a unit of n units offered to queue q now. -/
def State.tint (s : State) (q n : Nat) (cin : Tint) : Tint :=
  if s.unshaped q then (if cin = .red then .red else .green)
  else
    let t := s.tokens q
    let need := n * tokenScale
    if cin = .red || t.2 < need then .red
    else if cin = .yellow || t.1 < need then .yellow
    else .green

/-- R384: the state with queue q replaced. -/
def State.setQueue (s : State) (q : Nat) (x : Queue) : State := { s with queues := Tbl.set s.queues q x }

/-- R384: the state with the tokens of a unit of n units and a colour taken from queue q. -/
def State.takeTokens (s : State) (q n : Nat) (c : Tint) : State :=
  if s.unshaped q then s
  else
    let t := s.tokens q
    let need := n * tokenScale
    let x := s.queue q
    match c with
    | .green => s.setQueue q { x with tc := t.1 - need, tp := t.2 - need, last := s.gtc, full := false }
    | .yellow => s.setQueue q { x with tc := t.1, tp := t.2 - need, last := s.gtc, full := false }
    | .red => s.setQueue q { x with tc := t.1, tp := t.2, last := s.gtc, full := false }

/-- R383: both buckets full again after a write to the parameters of queue q. -/
def State.fillBuckets (s : State) (q : Nat) : State := s.setQueue q { s.queue q with full := true, last := s.gtc }

/-! ## Parameter writes (R383) -/

/-- R383: the capacity of a resource at whose ports the bound holds. -/
def boundCapacity (r : Nat) : Option Nat :=
  if r < 8 then some 100000000000 else if r = 20 then some 128000000000 else none

/-- R383: the largest unit of a resource, where the rule names one. -/
def largestUnit (r : Nat) : Nat := if r < 16 then 4160 else if r = 20 then 64 else if r = 16 then 1 else 0

/-- R383: whether CIR, CBS, PIR and PBS of queue q may stand together. -/
def paramsStand (q cir cbs pir pbs : Nat) : Bool :=
  let r := q / 8
  cir ≤ pir && cbs ≤ pbs && largestUnit r ≤ pbs &&
  (match boundCapacity r with
   | some c => q % 8 ≠ 0 || (8 * cir ≤ c && cbs ≤ 65536)
   | none => true)

/-- R383: S0 at a port of the bound, where PIR follows CIR and PBS follows CBS. -/
def boundQueue (q : Nat) : Bool := q % 8 == 0 && (boundCapacity (q / 8)).isSome

/-- R383: whether a write of parameter `sub` (1 CIR, 2 CBS, 3 PIR, 4 PBS) of queue q is accepted. -/
def State.shaperAccepted (s : State) (q sub v : Nat) : Bool :=
  if boundQueue q then
    sub ≤ 2 &&
    let cir := if sub = 1 then v else s.stored (oCir q)
    let cbs := if sub = 2 then v else s.stored (oCbs q)
    paramsStand q cir cbs cir cbs
  else
    paramsStand q (if sub = 1 then v else s.stored (oCir q)) (if sub = 2 then v else s.stored (oCbs q))
      (if sub = 3 then v else s.stored (oPir q)) (if sub = 4 then v else s.stored (oPbs q))

/-- R383: an accepted write of a shaper parameter. -/
def State.setShaper (s : State) (q sub v : Nat) : State :=
  let s' :=
    match sub with
    | 1 => if boundQueue q then (s.store (oCir q) v).store (oPir q) v else s.store (oCir q) v
    | 2 => if boundQueue q then (s.store (oCbs q) v).store (oPbs q) v else s.store (oCbs q) v
    | 3 => s.store (oPir q) v
    | _ => s.store (oPbs q) v
  s'.fillBuckets q

/-! ## Gate lists (R388 to R391) -/

/-- R388: class c is open in an entry. -/
def gateOpen (e c : Nat) : Bool := bit e c
/-- R388: DURATION of an entry. -/
def gateDur (e : Nat) : Nat := bits e 31 8
/-- R388: entry i of a cyclic list. -/
def gateAt (l : List Nat) (i : Nat) : Nat := l.getD (i % l.length) 0x0F4240FF

/-- R389: ticks until class c closes, over the next k entries from entry i; none when it stays open. -/
def openFor (l : List Nat) (c : Nat) : Nat → Nat → Option Nat
  | 0, _ => none
  | k + 1, i =>
    if gateOpen (gateAt l i) c then (openFor l c k (i + 1)).map fun t => t + gateDur (gateAt l i) else some 0

/-- R389: whether a unit of class c and n bytes may start now on gate port g: its transmission ends before the gate
closes, at 0.01 ns a byte on a fabric port and 0.5 ns a line of 64 bytes at gate port 8. (DESIGN CHOICE, log entry 114) -/
def State.gateAllows (s : State) (g c n : Nat) : Bool :=
  let x := s.gate g
  let e := gateAt x.oper x.cur
  if !gateOpen e c then false
  else
    let past := min (s.gtc - x.start) (gateDur e)
    match openFor x.oper c x.oper.length x.cur with
    | none => true
    | some t => if g = 8 then 50 * ceilDiv n 64 < 100 * (t - past) else n < 100 * (t - past)

/-- R391: the closed run of S0 from entry i, over at most k entries. -/
def closedRun (l : List Nat) : Nat → Nat → Nat
  | 0, _ => 0
  | k + 1, i => if gateOpen (gateAt l i) 0 then 0 else gateDur (gateAt l i) + closedRun l k (i + 1)

/-- R391: the closed run of S0 that ends just before entry i, over at most k entries. -/
def closedBefore (l : List Nat) : Nat → Nat → Nat
  | 0, _ => 0
  | k + 1, i =>
    let j := (i + l.length - 1) % l.length
    if gateOpen (gateAt l j) 0 then 0 else gateDur (gateAt l j) + closedBefore l k j

/-- R391: the longest interval in which S0 stays closed, taking the list as cyclic. -/
def longestClosed (l : List Nat) : Nat := ((List.range l.length).map fun i => closedRun l l.length i).foldl max 0

/-- R391: G0_NOW of gate port g. -/
def State.g0Now (s : State) (g : Nat) : Nat := max (longestClosed (s.gate g).oper) (s.gate g).straddle

/-- R390: the admin list of gate port g. -/
def State.adminList (s : State) (g : Nat) : List Nat :=
  (List.range (s.stored (oAdminLen g))).map fun i => s.stored (oAdminEntry g i)

/-- R388, R390: whether CONFIG_CHANGE is accepted. -/
def State.changeAccepted (s : State) (g : Nat) : Bool :=
  let l := s.adminList g
  l.all (fun e => gateDur e ≠ 0) && l.any (fun e => gateOpen e 0) && s.gtc + 100000 ≤ s.stored (oAdminBase g)

/-- R390: CONFIG_CHANGE arms the admin list; a second one replaces the armed change. -/
def State.armChange (s : State) (g : Nat) : State :=
  s.updGate g fun x => { x with armed := some (s.stored (oAdminBase g), s.adminList g) }

/-- R390: a gate event names one of the nine gate ports. -/
def withGate (g : Nat) (s : State) (f : State → Res) : Res :=
  if g < 9 then whenUp s f else .fault .noSuchGate

/-- R390, R391: GATE_LIST_SWITCH: at GTC ADMIN_BASE the admin list becomes operational at entry 0, and the old list's
current entry is cut. -/
def execGateListSwitch (g : Nat) (s : State) : Res :=
  withGate g s fun s =>
    let x := s.gate g
    match x.armed with
    | none => .next s
    | some (base, l) =>
      if s.gtc < base then .next s
      else
        let before := if gateOpen (gateAt x.oper x.cur) 0 then 0
          else (base - x.start) + closedBefore x.oper (x.oper.length - 1) x.cur
        let s' := s.updGate g fun _ =>
          { oper := l, armed := none, cur := 0, start := base, straddle := before + closedRun l l.length 0 }
        .next (s'.store (oOperBase g) base)

/-- R388: GATE_ENTRY_EXPIRY: the current entry's DURATION has ended and the next entry takes effect; the cycle of a
change ends when the list comes round to entry 0. -/
def execGateEntryExpiry (g : Nat) (s : State) : Res :=
  withGate g s fun s =>
    let x := s.gate g
    let d := gateDur (gateAt x.oper x.cur)
    if s.gtc < x.start + d then .next s
    else
      let i := (x.cur + 1) % x.oper.length
      .next (s.updGate g fun x => { x with cur := i, start := x.start + d, straddle := if i = 0 then 0 else x.straddle })

/-! ## Queues of the internal resources (R382, R385) -/

/-- R385: a unit of n units of class c offered to resource r. -/
def State.offer (s : State) (r c n : Nat) : State :=
  let q := 8 * r + c
  if n = 0 then s else s.setQueue q { s.queue q with waiting := (s.queue q).waiting ++ [(n, s.gtc)] }

/-- R392: the wait of a unit that leaves queue q. -/
def State.leave (s : State) (q since : Nat) : State :=
  s.setQueue q { s.queue q with maxWait := max (s.queue q).maxWait (s.gtc - since) }

/-- R385: of the candidates (class and units), the one sent: the GREEN candidate of the highest class, else the
YELLOW one. -/
def State.shaperPick (s : State) (r : Nat) (cands : List (Nat × Nat)) : Option (Nat × Nat × Tint) :=
  match cands.find? fun x => s.tint (8 * r + x.1) x.2 .green == .green with
  | some x => some (x.1, x.2, .green)
  | none => (cands.find? fun x => s.tint (8 * r + x.1) x.2 .green == .yellow).map fun x => (x.1, x.2, .yellow)

/-- R385: the candidates of an internal resource, class by class; resource 20 has gate port 8. -/
def State.internalCands (s : State) (r : Nat) : List (Nat × Nat) :=
  (List.range 8).filterMap fun c =>
    match (s.queue (8 * r + c)).waiting with
    | (n, _) :: _ => if r = 20 && !s.gateAllows 8 c n then none else some (c, n)
    | [] => none

/-- R385: a decision point of an internal resource: the shaper chooses one unit. -/
def State.decide_ (s : State) (r : Nat) : State :=
  match s.shaperPick r (s.internalCands r) with
  | none => s
  | some (c, n, t) =>
    let q := 8 * r + c
    let s' := s.takeTokens q n t
    match (s'.queue q).waiting with
    | (_, since) :: rest => (s'.setQueue q { s'.queue q with waiting := rest }).leave q since
    | [] => s'

/-- R385: CROSSBAR_DECISION_POINT, at the crossbar, flash, DRAM, CXL.mem and codec resources. -/
def execCrossbarDecisionPoint (res : Nat) (s : State) : Res :=
  if 17 ≤ res && res ≤ 21 then whenUp s fun s => .next (s.decide_ res) else .fault .noSuchResource

/-! ## Sampling (R392) -/

/-- R386: the bytes of a packet; one without data is a line. -/
def RocePkt.bytes (x : RocePkt) : Nat := max 64 x.data.length

/-- R392: the units queued at queue q. -/
def State.depthOf (s : State) (q : Nat) : Nat :=
  let r := q / 8
  let c := q % 8
  if r < 8 then ((s.port r).queue.map fun x => if x.frame.vl = c then x.frame.bytes else 0).sum
  else if r < 16 then
    let p := s.port (r - 8)
    ((p.red.map QFrame.frame ++ p.stalled).map fun f => if f.vl = c then f.bytes else 0).sum +
    (p.redRoce.map fun x => if x.cls = c then x.bytes else 0).sum
  else if r = 16 then
    ((List.range Config.streams).map fun n =>
      if (s.stream n).state = .running && s.stored (oServiceClass n) = c then (s.run n).toAdmit.length else 0).sum
  else ((s.queue q).waiting.map Prod.fst).sum

/-- R392: one queue sampled. -/
def State.sampleQueue (s : State) (q : Nat) : State :=
  let d := min (s.depthOf q) (2 ^ 32 - 1)
  let w := min (s.queue q).maxWait (2 ^ 32 - 1)
  let put (s : State) (key v : Nat) : State := if s.stored key = v then s else s.store key v
  let s1 := put (put s (oDepth q) d) (oDelay q) w
  let s2 := put (put s1 (oDepthPeak q) (max (s.stored (oDepthPeak q)) d)) (oDelayPeak q) (max (s.stored (oDelayPeak q)) w)
  if (s2.queue q).maxWait = 0 then s2 else s2.setQueue q { s2.queue q with maxWait := 0 }

/-- R392: QUEUE_SAMPLE, at each GTC value that is a multiple of 2^SAMPLE_K. -/
def execQueueSample (s : State) : Res :=
  whenUp s fun s =>
    if s.gtc % 2 ^ s.stored oSampleK = 0 then .next ((List.range 176).foldl State.sampleQueue s) else .next s

/-! ## Policers (R386) -/

/-- R386: the colour that the policer of receive port k gives a packet of class c; `marked`: its DSCP bit is set in
YELLOW_DSCP. -/
def State.policeTint (s : State) (k c n : Nat) (marked : Bool) : Tint :=
  let q := 8 * (8 + k) + c
  match s.stored (oPolice q) with
  | 0 => .green
  | 1 => s.tint q n .green
  | _ => s.tint q n (if marked then .yellow else .green)

/-- R387: counts a colour at queue q. -/
def State.countTint (s : State) (q n : Nat) (t : Tint) : State :=
  match t with
  | .green => s.count (oGreenUnits q) n
  | .yellow => s.count (oYellowUnits q) n
  | .red => s.count (oRedUnits q) n

/-! ## Job admission (R385) -/

/-- R385: shaper_allows(c): queue (16, c) colours one job GREEN, or YELLOW while no class with a runnable stream
colours one GREEN. -/
def State.shaperAllows (s : State) (c : Nat) (runnable : List Nat) : Bool :=
  match s.tint (128 + c) 1 .green with
  | .green => true
  | .yellow => !runnable.any fun d => s.tint (128 + d) 1 .green == .green
  | .red => false

/-- R385: one job of class c admitted. -/
def State.shaperAdmit (s : State) (c : Nat) : State := s.takeTokens (128 + c) 1 (s.tint (128 + c) 1 .green)

end Sys2Proof.Machine
end

