-- ==== Sys2Proof/Machine/Run.lean ====
section
/-! DEFINITION. What the commands on streams and jobs share: waking a domain (R413), ending the work of jobs (R98,
R175, R272), a stream's settings (R197, R206, R210), its cursors and snapshots (R230 to R232), holding it (R36) and its
result slots (R318 to R320). -/

namespace Sys2Proof.Machine

/-! ## Domains that an access needs (R413, R416) -/

/-- R413, R416: an access that needs domain d: a sleeping domain wakes, and one that is on its way to sleep wakes
after. -/
def State.touch (s : State) (d : Nat) : State :=
  let x := s.domain d
  if x.state = 1 then s.updDomain d fun x => { x with state := 3, going := 0, held := x.held + 1, wakes := x.wakes + 1 }
  else if x.state = 3 && x.going = 0 then s.updDomain d fun x => { x with held := x.held + 1 }
  else if x.state = 3 && x.going = 1 then s.updDomain d fun x => { x with held := x.held + 1, wakeAfter := true }
  else s

/-- R411: the domain number of a Caravan. -/
def carDomain (n : Nat) : Nat := 0x10 + n
/-- R411: the domain number of a fabric port. -/
def portDomain (k : Nat) : Nat := 0x40 + k
/-- R415: a domain is OFF or on its way there. -/
def State.domOff (s : State) (d : Nat) : Bool := (s.domain d).state == 2 || ((s.domain d).state == 3 && (s.domain d).going == 2)

/-! ## Ending work -/

/-- R34: a job that no delivered batch holds. -/
def Job.undelivered (j : Job) : Bool := !(j.state == .delivered || j.state == .retired)

/-- R257: one of the job's Oasis buffers holds the failed word; which one is not stated, so it is free. (DESIGN CHOICE, log entry 55) -/
def State.retireStruck (s : State) (j : Job) : State :=
  let at_ := (j.reserved.filter fun r => r.2.2 ≠ 0 && r.2.1 < 64 && s.stored (oPoolPlace r.2.1) ≠ 3).map fun r => r.2.1
  let d := s.draw
  match at_[(Config.freeWord d.1).toNat % max 1 at_.length]? with
  | some p =>
    (match d.2.freeIndices p ((s.pool p).filled + 1) 1 (s.partStart p (s.partOf p j.caravan)) with
    | i :: _ => d.2.retireCheck p i
    | [] => d.2)
  | none => d.2

/-- R257, R263, R272: gives back every buffer that a job has reserved. -/
def State.freeJobBuffers (s : State) (j : Job) : State :=
  let s1 := j.reserved.foldl (fun s r => s.giveBufs j.stream j.caravan r.1 r.2.1 r.2.2) s
  if j.struck = some stSram then s1.retireStruck j else s1

/-- R98: the cores that run kernels of the jobs that a test names return to their entry state. -/
def State.freeCores (s : State) (p : Nat → Bool) : State :=
  { s with cores := s.cores.filter fun c => !(match c.2.job with | some j => p j | none => false) }

/-- R174: what an engine takes up next: the oldest work of the highest class. (DESIGN CHOICE, log entry 136) -/
def nextWork (ws : List CodecWork) : Option CodecWork :=
  let best := (ws.map CodecWork.cls).foldl min 8
  ws.find? fun w => w.cls == best

/-- R173, R174: an engine with its count of the states that it holds. -/
def CodecEngine.recount (e : CodecEngine) : CodecEngine :=
  { e with saved := (e.waiting.filter fun w => w.state.isSome && !w.spilled).length }

/-- R174: an engine without work takes up what comes next. -/
def CodecEngine.takeUp (e : CodecEngine) : CodecEngine :=
  match e.current with
  | some _ => e.recount
  | none =>
    match nextWork e.waiting with
    | some w => CodecEngine.recount { e with current := some w, waiting := e.waiting.erase w }
    | none => e.recount

/-- R174, R175: the codec work that a test names is dropped, its saved state with it, and the engine takes up what waits. -/
def CodecEngine.drop (e : CodecEngine) (p : CodecWork → Bool) : CodecEngine :=
  CodecEngine.takeUp { e with current := e.current.filter fun w => !p w, waiting := e.waiting.filter fun w => !p w }

/-- R174: the states that the engines have spilled to Oasis. -/
def State.countSpilled (s : State) : State :=
  { s with spilled := (s.engines.map fun e => (e.2.waiting.filter CodecWork.spilled).length).sum }

/-- R174, R175: the codec work that a test names is dropped on every engine. -/
def State.dropCodec (s : State) (p : CodecWork → Bool) : State :=
  State.countSpilled { s with engines := s.engines.map fun e => (e.1, e.2.drop p) }

/-- R98, R272: ends the jobs that a test names: their kernels, codec work and buffers. -/
def State.endJobs (s : State) (p : Job → Bool) : State :=
  let ended := s.jobs.filter p
  let ids := ended.map Job.id
  let s1 := ended.foldl State.freeJobBuffers s
  (((s1.freeCores ids.contains).dropCodec fun w => ids.contains w.job).dropJobs p).serveAllocs

/-! ## Settings of a stream -/

/-- R210: MEMBER: written, or kept once the stream left LOADED, or the device's placement rank. (DEDUCED, log entry 42) -/
def State.member (s : State) (n : Nat) : Nat :=
  let x := s.stream n
  if x.memberWritten then s.stored (oMember n)
  else
    match x.memberFixed with
    | some m => m
    | none => geoRank s.place (geoOwn s.place 0) (geoOwn s.place 1) (geoOwn s.place 2)

/-- R182, R210: the corpus that CORPUS_ID of stream n names on this device. -/
def State.corpusFor (s : State) (n : Nat) : Option (Nat × Corpus) := s.corpusOf (s.stored (oCorpusId n))

/-- R210: DRIFT_SHIFT of stream n. -/
def State.driftOf (s : State) (n : Nat) : Nat :=
  match s.corpusFor n with
  | some c => c.2.drift
  | none => 0

/-- R210: N at a write: that of the corpus, else of PLACE_GEOMETRY. -/
def State.membersAt (s : State) (n : Nat) : Nat :=
  match s.corpusFor n with
  | some c => geoCount c.2.geometry
  | none => geoCount s.place

/-- R178: K_C of stream n. -/
def State.kc (s : State) (n : Nat) : Quad := carouselKey (s.stored (oSeed n)) (s.stored (oCorpusId n))

/-- R189: exact mode of the Carousel. -/
def State.exactMode (s : State) (n : Nat) : Bool := s.stored (oCarouselMode n) == 1

/-- R196: token size of the image's PACK stage. -/
def tokenSize (b : Bytes) : Nat :=
  match imgPack b with
  | some d => if bits (d.word 4) 34 33 = 2 then 4 else 2
  | none => 2

/-- R197: what fixes the make-up of stream n's batches. -/
def State.batchCfg (s : State) (n : Nat) : BatchCfg :=
  { mode := s.stored (oBatchMode n), count := s.stored (oBatchCount n), budget := s.stored (oByteBudget n),
    token := tokenSize (s.imageOf n).image }

/-- R198: what fixes the layout of stream n's payloads. -/
def State.packCfg (s : State) (n : Nat) : PackCfg :=
  { batch := s.batchCfg n,
    slot := match imgPack (s.imageOf n).image with | some d => bits (d.word 4) 31 0 | none => 0 }

/-- R206: what the manifest header of stream n names. -/
def State.manifestCfg (s : State) (n : Nat) : ManifestCfg :=
  { member := s.member n, corpus := s.stored (oCorpusId n), exact := s.exactMode n, image := (s.imageOf n).digest,
    seed := s.stored (oSeed n) }

/-- R377: stream n delivers to a fabric port. -/
def State.toFabric (s : State) (n : Nat) : Bool := imgTarget (s.imageOf n).image == 1

/-- R316: stream n is an ingest stream. -/
def State.toCorpus (s : State) (n : Nat) : Bool := imgTarget (s.imageOf n).image == 2

/-! ## Epoch order -/

/-- R201: the present epoch of a run. -/
def RunSt.view (r : RunSt) : PastEpoch :=
  { epoch := r.epoch, sorted := r.sorted, order := r.order, plan := r.plan, cursor := r.cursor, lastBackfill := r.lastBackfill }

/-- R331: what a run keeps of an epoch that has begun. -/
def RunSt.epochOf (r : RunSt) (e : Nat) : Option PastEpoch :=
  if r.begun && r.epoch == e then some r.view else r.past.find? fun p => p.epoch == e

/-- R188, R189: the sample at position p of an epoch. -/
def State.sampleIn (s : State) (n : Nat) (v : PastEpoch) (p : Nat) : Nat :=
  if s.exactMode n then v.order.getD p 0
  else (v.sorted.getD (perm (s.kc n) p v.sorted.length 4 v.epoch (s.member n)) (0, 0)).1

/-- R188, R189: the sample at position p. -/
def State.sampleAt (s : State) (n p : Nat) : Nat := s.sampleIn n (s.run n).view p

/-- R201: entry i of the backfill list of an epoch. -/
def State.backfillIn (s : State) (n : Nat) (v : PastEpoch) (i : Nat) : Nat :=
  (v.sorted.getD (perm (s.kc n) i v.sorted.length 5 v.epoch (s.member n)) (0, 0)).1

/-- R201: entry i of the backfill list. -/
def State.backfillEntry (s : State) (n i : Nat) : Nat := s.backfillIn n (s.run n).view i

/-- R208: the content digest of a stored sample, from the record that this device holds or from the bytes that another device
holds; zero where no device holds it. -/
def State.recordDigest (s : State) (n idx : Nat) : Bytes :=
  match s.corpusFor n with
  | some c =>
    match Tbl.find c.2.records idx with
    | some r => r.digest
    | none =>
      if geoCount c.2.geometry ≤ 1 then zeros 24
      else
        match Config.remoteSample c.2.id idx with
        | some (_, _, b) => (sha3_512 b).take 24
        | none => zeros 24
  | none => zeros 24

/-! ## Cursors and snapshots (R230 to R232) -/

/-- R230: the first batch not delivered, when it is open. -/
def RunSt.firstOpen (r : RunSt) : Option OpenBatch := r.batches.find? fun b => b.state ≠ .ready

/-- R231: the settled attempts of NEXT_BATCH that a snapshot records. -/
def RunSt.records (r : RunSt) : List Entry :=
  match r.firstOpen with
  | some b => if b.entries.length ≤ 98304 then b.entries else []
  | none => if r.hasCursor then r.partials else []

/-- R231: PARTIAL is clear because the attempts are too many to record. -/
def RunSt.tooMany (r : RunSt) : Bool :=
  match r.firstOpen with
  | some b => 98304 < b.entries.length
  | none => false

/-- R201, R204: backfill entries that the settled attempts of a batch have consumed. -/
def OpenBatch.consumed (b : OpenBatch) : Nat := (b.entries.filter fun e => e.try_ ≠ 0 && e.kind ≠ 2).length

/-- R331: the backfill cursor without the entry of a request of the present epoch whose record has not been made READY. -/
def RunSt.live (r : RunSt) : Nat :=
  r.cursor - (match r.backfillFor with | some q => if q.1 == r.epoch then 1 else 0 | none => 0)

/-- R230, R331: whether the device has consumed no entry for a batch on its own account. -/
def OpenBatch.untouched (b : OpenBatch) : Bool := b.mode ≠ 0 || b.entries.isEmpty

/-- R230: BATCH_CURSOR. -/
def RunSt.batchCur (r : RunSt) : Nat :=
  match r.firstOpen with
  | some b => if b.untouched then r.live else b.cursor0
  | none => if r.hasCursor then r.batchCursor else r.live

/-- R230: CURSOR, the backfill cursor at NEXT_POSITION, whatever later batches have consumed. -/
def RunSt.cur (r : RunSt) : Nat :=
  if r.tooMany then r.batchCur
  else
    match r.firstOpen with
    | some b => if b.untouched then r.live else b.cursor0 + b.consumed
    | none => r.live

/-- R230: EPOCH_SIZE. -/
def RunSt.epochSize (r : RunSt) : Nat := if r.begun then r.sorted.length else r.size

/-- R230: first position of batch b, or the end of the epoch. -/
def RunSt.firstOf (r : RunSt) (b : Nat) : Nat :=
  match r.plan[b]? with
  | some p => p.positions.headD 0
  | none => r.epochSize

/-- R230: NEXT_POSITION, the first position of NEXT_BATCH that is not settled. -/
def RunSt.nextPosition (r : RunSt) : Nat :=
  if r.hasCursor then r.nextPos
  else
    let settled := match r.firstOpen with
      | some b => if r.tooMany then 0 else b.settled
      | none => 0
    match r.plan[r.nextBatch]? with
    | some p => p.positions.getD settled (r.firstOf (r.nextBatch + 1))
    | none => r.epochSize

/-- R230: one partial record. -/
def partialRecord (first : Nat) (e : Entry) : Bytes :=
  leBytes 2 (e.pos - first) ++ leBytes 2 e.status ++ leBytes 1 e.try_ ++ leBytes 1 e.kind ++ zeros 2

/-- R230: SETTINGS_DIGEST. -/
def State.settingsDigest (s : State) (n : Nat) : Bytes :=
  (sha3_512 (leBytes 1 (s.stored (oCarouselMode n)) ++ leBytes 2 (s.member n) ++ leBytes 1 (s.stored (oNeighbourS n)) ++
    leBytes 1 (s.stored (oBatchMode n)) ++ leBytes 4 (s.stored (oBatchCount n)) ++ leBytes 4 (s.stored (oByteBudget n)) ++
    leBytes 4 (s.stored (oBatchMaxBytes n)) ++ leBytes 1 (s.stored (oExclPolicy n)) ++
    leBytes 1 (s.stored (oBackfillTries n)))).take 32

/-- R230: a codec entry for an open sample of an ingest stream. -/
def codecEntry (d : Desc) (idx : Nat) (data : Bytes) : Bytes :=
  leBytes 8 idx ++ leBytes 8 data.length ++ zeros 48 ++ (heldPoint d data).bytes

/-- R230, R340: the codec entries of stream n: its open samples that are held in pieces. -/
def State.codecEntries (s : State) (n : Nat) : List Bytes :=
  match ofType (s.descsOf n) tCodec with
  | [] => []
  | d :: _ =>
    (s.corpora.flatMap fun c => (c.2.open_.filter fun o => o.2.stream == some n).map fun o => codecEntry d o.1 o.2.data).take 16

/-- R230: DLV_SEQ that NEXT_BATCH takes. -/
def State.nextDlvSeq (s : State) (n : Nat) : Nat :=
  if !s.toFabric n then 0
  else
    match (s.run n).firstOpen with
    | some b => if b.state = .writing then b.dlvSeq else (s.stream n).dlv.dlvSeq
    | none => (s.stream n).dlv.dlvSeq

/-- R230: SNAP_MAC of the bytes before the trailer. -/
def snapMac (key body : Bytes) : Bytes := kmac256 key body 32 ""

/-- R459: the released snapshot key of a tenant. -/
def State.snapKey (s : State) (tenant : Nat) : Bytes := Tbl.get s.sec.snapKeys [] tenant

/-- R230: the snapshot of stream n with a SNAP_SEQ, its run standing at `r`. -/
def State.snapshotOf (s : State) (n seq : Nat) (r : RunSt) : Bytes :=
  let x := s.stream n
  let i := s.imageOf n
  let recs := r.records
  let first := match r.plan[r.nextBatch]? with
    | some p => p.positions.headD 0
    | none => (recs.map Entry.pos).headD 0
  let codec := s.codecEntries n
  let len := 576 + 4160 * codec.length + 8 * recs.length
  let body :=
    leBytes 4 0x50414E53 ++ leBytes 2 Config.snapVersion ++ leBytes 2 (imgArith i.image) ++ leBytes 4 len ++
    leBytes 4 (imageTenant i) ++ leBytes 8 seq ++ leBytes 8 s.gtc ++ sliceZ i.digest 0 64 ++ s.settingsDigest n ++
    rngKey (s.stored (oSeed n)) (s.stored (oCorpusId n)) ++ leBytes 8 (s.stored (oSeed n)) ++
    leBytes 4 (s.stored (oCorpusId n)) ++ leBytes 2 (s.member n) ++ leBytes 2 (if recs.isEmpty then 0 else 1) ++
    leBytes 4 r.epoch ++ leBytes 4 x.prot.fenceEpoch ++ leBytes 8 r.epochSize ++ leBytes 8 r.nextBatch ++
    leBytes 8 r.nextPosition ++ leBytes 8 r.batchCur ++ leBytes 8 r.cur ++ leBytes 2 x.threshGen ++
    leBytes 2 codec.length ++ leBytes 4 recs.length ++ leBytes 4 (s.stored (oThreshEpoch n)) ++ zeros 4 ++
    x.force.flatMap (leBytes 4) ++ x.staged.flatMap (leBytes 4) ++ leBytes 8 (s.nextDlvSeq n) ++
    leBytes 8 (if s.toFabric n then x.dlv.granted else 0) ++ zeros 144 ++ codec.flatten ++
    recs.flatMap (partialRecord first)
  body ++ snapMac (s.snapKey (imageTenant i)) body ++ zeros 32

/-- R230: the snapshot of stream n with a SNAP_SEQ. -/
def State.snapshotBytes (s : State) (n seq : Nat) : Bytes := s.snapshotOf n seq (s.run n)

/-- R232: takes a snapshot of stream n, with SNAP_SEQ one higher. -/
def State.takeSnapshot (s : State) (n : Nat) : State :=
  let q := (s.stream n).snapSeq + 1
  let b := s.snapshotBytes n q
  s.updStream n fun x => { x with snapshot := some b, snapSeq := q }

/-- R233, R236, R40: the run stopped at its cursor: NEXT_BATCH with its settled attempts, or from its start. -/
def RunSt.park (r : RunSt) (keepRecords : Bool) : RunSt :=
  { r with hasCursor := true, restored := false, batchCursor := r.batchCur,
           cursor := if keepRecords then r.cur else r.batchCur,
           past := r.past.map fun p =>
             if r.backfillFor.any fun q => q.1 == p.epoch then { p with cursor := p.cursor - 1 } else p
           partials := if keepRecords then r.records else [],
           nextPos := if keepRecords then r.nextPosition else r.firstOf r.nextBatch, nextOpen := r.nextBatch, k := r.delivered,
           toAdmit := [], heldPos := none, backfillFor := none,
           batches := r.batches.filter fun b => b.state = .ready }

/-- R422: takes a snapshot of stream n at the boundary after the batch that it has delivered last: it has no partial records.
(DEDUCED, log entry 178) -/
def State.takeBoundary (s : State) (n : Nat) : State :=
  let q := (s.stream n).snapSeq + 1
  let b := s.snapshotOf n q ((s.run n).park false)
  s.updStream n fun x => { x with snapshot := some b, snapSeq := q }

/-! ## Result slots (R318 to R320) -/

/-- R320: slot i of stream n. -/
def State.slot (s : State) (n i : Nat) : Slot := Tbl.get (s.stream n).dlv.slots {} i

/-- R320: the state with slot i of stream n changed. -/
def State.updSlot (s : State) (n i : Nat) (f : Slot → Slot) : State :=
  s.updDlv n fun d => { d with slots := Tbl.upd d.slots {} i f }

/-- R320: FREE with SLOT_GEN + 1. -/
def Slot.freed (x : Slot) : Slot := { gen := (x.gen + 1) % 2 ^ 32 }

/-- R320: the stream enters LOADED or MOVED: FREE and PENDING slots become RETIRED. (DESIGN CHOICE, log entry 142) -/
def State.retireSlots (s : State) (n : Nat) : State :=
  (List.range (s.stored (oSlotCount n))).foldl (fun s i =>
    let x := s.slot n i
    if x.state = .free || x.state = .pending then s.updSlot n i fun x => { state := .retired, gen := x.gen } else s) s

/-- R320: the next start command or a restore: RETIRED slots become FREE with SLOT_GEN + 1. -/
def State.freeRetired (s : State) (n : Nat) : State :=
  (List.range (s.stored (oSlotCount n))).foldl (fun s i =>
    let x := s.slot n i
    if x.state = .retired then s.updSlot n i Slot.freed else s) s

/-- R320, R461: a tenant scrub: every slot FREE with SLOT_GEN + 1, READY content discarded. -/
def State.scrubSlots (s : State) (n : Nat) : State :=
  (List.range (s.stored (oSlotCount n))).foldl (fun s i => s.updSlot n i Slot.freed) s

/-- R319: S: the slots that take batches. -/
def State.slotsInUse (s : State) (n : Nat) : Nat :=
  let c := s.stored (oSlotCount n)
  if (s.stream n).inForce.splitMode = 0 then c else c - 1

/-- R330: whether the batches that stream n opens now are delivered as split records. -/
def State.isSplit (s : State) (n : Nat) : Bool := (s.stream n).inForce.splitMode ≠ 0

/-- R319: the backfill slot of a split stream, its last slot. -/
def State.backfillSlot (s : State) (n : Nat) : Nat := s.stored (oSlotCount n) - 1

/-! ## Holding a stream (R36, R39, R232) -/

/-- R331: the request that a PENDING backfill slot awaits is dropped; the slot is FREE again. -/
def State.dropBackfill (s : State) (n : Nat) : State :=
  let i := s.backfillSlot n
  if (s.slot n i).state = .pending && (s.slot n i).bfill then s.updSlot n i fun x => { gen := x.gen } else s

/-- R340: whether an ingest job waits only for the outcome of the commit of its sample. -/
def Job.committing (j : Job) : Bool := j.ingest.isSome && j.state == .packed && j.status == some stSuccess

/-- R36, R40, R340: the samples that an ingest stream has taken and not delivered, in position order; none for a training stream. -/
def State.ingestQueue (s : State) (n : Nat) : List ToRun :=
  if s.toCorpus n then
    ((((s.jobs.filter fun j => j.stream == n && j.undelivered && !j.committing).map fun j =>
      ({ k := j.k, pos := j.pos, sample := j.sample, since := s.gtc } : ToRun)) ++ (s.run n).toAdmit).mergeSort fun a b => decide (a.pos ≤ b.pos))
  else []

/-- R232, R233: the run of stream n stops at its cursor: it takes a snapshot, and everything beyond the cursor will be
regenerated. (DEDUCED, log entry 40) -/
def State.parkStream (s : State) (n : Nat) : State :=
  let q := s.ingestQueue n
  let s1 := ((s.takeSnapshot n).endJobs fun j => j.stream == n && j.undelivered && !j.committing).dropBackfill n
  (s1.updDlv n fun d => { d with dlvSeq := s.nextDlvSeq n }).updRun n fun r => { r.park true with toAdmit := q }

/-- R39: stream n enters HELD with a status. (DEDUCED, log entry 39) -/
def State.holdStream (s : State) (n status : Nat) : State :=
  (s.parkStream n).updStream n fun x => { x with state := .held, lastStatus := status, draining := false }

/-- R36: a transient status on the fourth attempt holds the stream and raises the stream notice. -/
def State.holdForJob (s : State) (n status pos : Nat) : State :=
  (s.holdStream n status).notice 1 status n pos

end Sys2Proof.Machine
end

