-- ==== Sys2Proof/Machine/Protect.lean ====
section
/-! DEFINITION. What streams and fault tolerance share: regions and delivery queue pairs (R369, R370, R378), mirrors of a
stream (R420 to R423), ending a run (R40, R272) and moving a stream (R431). -/

namespace Sys2Proof.Machine

/-! ## Regions and queue pairs of a stream (R369, R370, R378, R380) -/

/-- R370: a region registered under the lowest free number, with a random tag: its key and the state. -/
def State.register (s : State) (r : Region) : Nat × State :=
  let i := ((List.range (s.fabric.regions.length + 1)).find? fun i => (Tbl.find s.fabric.regions i).isNone).getD 0
  let tag := (Config.freeTag s.fresh).toNat
  (tag * 65536 + i,
   { s with fresh := s.fresh + 1
            fabric := { s.fabric with regions := Tbl.set s.fabric.regions i { r with tag := tag } } })

/-- R370: the region that a key names. -/
def State.regionOf (s : State) (key : Nat) : Option Region :=
  match Tbl.find s.fabric.regions (key % 65536) with
  | some r => if r.tag = key / 65536 then some r else none
  | none => none

/-- R370: the region that a key names is destroyed. -/
def State.unregister (s : State) (key : Nat) : State :=
  if (s.regionOf key).isSome then
    { s with fabric := { s.fabric with regions := Tbl.del s.fabric.regions (key % 65536) } }
  else s

/-- R369: the delivery queue pair of stream n and its protection domain, which firmware creates. -/
def dlvQpn (n : Nat) : Nat := 64 + n
/-- R369: the protection domain of stream n. -/
def dlvPd (n : Nat) : Nat := 1 + n

/-- R369, R381: the delivery queue pair of stream n exists, in a protection domain of its tenant. -/
def State.ensureQp (s : State) (n : Nat) : State :=
  let q := Tbl.get s.fabric.qps {} (dlvQpn n)
  let q' := { q with pd := dlvPd n, roce := imgProto (s.imageOf n).image == 0, stream := n,
                     psn := if (Tbl.find s.fabric.qps (dlvQpn n)).isSome then q.psn else s.stored (oDlvStartPsn n) }
  let s1 := { s with fabric := { s.fabric with qps := Tbl.set s.fabric.qps (dlvQpn n) q',
                                               pds := Tbl.set s.fabric.pds (dlvPd n) ((s.tenantOf n).getD 0) } }
  s1.updDlv n fun d => { d with localQpn := dlvQpn n, pd := dlvPd n }

/-- R378: stream n registers a credit window, with GRANTED at a value. -/
def State.openCredit (s : State) (n granted : Nat) : State :=
  let r := (s.ensureQp n).register { pd := dlvPd n, len := 64, write := true, kind := 1, stream := n }
  r.2.updDlv n fun d => { d with creditKey := r.1, granted := granted, creditFence := 0 }

/-- R378: the credit window of stream n is destroyed. -/
def State.closeCredit (s : State) (n : Nat) : State :=
  (s.unregister (s.stream n).dlv.creditKey).updDlv n fun d => { d with creditKey := 0, granted := 0, creditFence := 0 }

/-! ## Mirrors (R420 to R423) -/

/-- R421 to R424: kinds of mirror traffic. -/
def mkOpen : Nat := 1
/-- R421: the settings block. -/
def mkSettings : Nat := 2
/-- R421, R422: a location set. -/
def mkLocations : Nat := 3
/-- R421, R422: a snapshot. -/
def mkSnapshot : Nat := 4
/-- R420: the close of a mirror. -/
def mkClose : Nat := 5
/-- R424: a durable mark. -/
def mkMark : Nat := 6
/-- R435: the request of a planned handoff. -/
def mkMove : Nat := 7
/-- R421: the answer to a step of an open. -/
def mkOpenAck : Nat := 8
/-- R422: the acknowledgement of a snapshot. -/
def mkSnapAck : Nat := 9
/-- R424: the acknowledgement of a mark. -/
def mkMarkAck : Nat := 10
/-- R429: a refusal with STALE_EPOCH_FENCE. -/
def mkStale : Nat := 11

/-- R443: PARTNER of stream n: written, or the +X neighbour. -/
def State.partnerOf (s : State) (n : Nat) : Nat := (Tbl.find s.od (oPartner n)).getD (s.neighbour 0)

/-- R381: port k has the MIDWAY role. -/
def State.isMidway (s : State) (k : Nat) : Bool := s.stored (oPortRole k) == 0

/-- R351: the direction that port k faces, 0 to 5. -/
def State.portDir (s : State) (k : Nat) : Nat := if k < 6 then k else s.stored (oPortDir k)

/-- R362: port k is up for routing. -/
def State.portUp (s : State) (k : Nat) : Bool := s.isMidway k && (s.port k).link == .up && !s.domOff (portDomain k)

/-- R362: the direction of a dimension from the own coordinate to a destination: none, or 2d plus and 2d + 1 minus. -/
def State.dirTo (s : State) (dst d : Nat) : Option Nat :=
  let n := geoDim s.torus d
  let delta := (coordOf dst d + n - geoOwn s.torus d % n) % n
  if delta = 0 then none else if delta ≤ n - delta then some (2 * d) else some (2 * d + 1)

/-- R351, R362: the ports that face a direction and are up. -/
def State.portsOf (s : State) (dir : Nat) : List Nat := (List.range 8).filter fun k => s.portUp k && s.portDir k == dir

/-- R354, R362, R419, R420: the device can reach a partner: other coordinates of its torus, not in the FAILED set, towards which
a port is UP. (DEDUCED, log entry 178) -/
def State.reaches (s : State) (c : Nat) : Bool :=
  c ≠ s.coord && coordOf c 0 < geoDim s.torus 0 && coordOf c 1 < geoDim s.torus 1 && coordOf c 2 < geoDim s.torus 2 &&
  c < 8192 && !s.ft.failed.contains c && ((List.range 3).filterMap (s.dirTo c)).any fun dir => !(s.portsOf dir).isEmpty

/-- R440: the device sends mirrors and marks. -/
def State.mirrors (s : State) : Bool := s.ft.state == 0

/-- R420: the stream is UNPROTECTED, with a cause and the notice. -/
def State.unprotect (s : State) (n cause : Nat) : State :=
  (s.updProt n fun p => { p with state := 4, cause := cause, openStep := 0, unacked := [], moveTo := none }).recover 18 0 n cause

/-- R421: the values of the RW objects of stream n at OD 2100+n, 2200+n, 4100+n and 4A00+n, with their keys. -/
def State.settingsBlock (s : State) (n : Nat) : List (Nat × Nat) :=
  (odTable.filter fun r => (r.base == 0x2100 || r.base == 0x2200 || r.base == 0x4100 || r.base == 0x4A00) && r.access == .rw).flatMap
    fun r => (List.range r.subs).map fun i =>
      let key := (r.base + n) * 256 + r.sub + i
      (key, if key = oMember n then s.member n else s.stored key)

/-- R421: the bytes of a settings block. -/
def settingsBytes (l : List (Nat × Nat)) : Bytes :=
  l.flatMap fun e => leBytes ((rowOf e.1).map OdRow.size |>.getD 0) e.2

/-- R182, R184, R421: the location set of a member in an epoch: the samples whose location it is, those held here and those that
other devices still hold. (DESIGN CHOICE, log entry 43) -/
def State.locationSet (s : State) (n epoch : Nat) : List (Nat × Nat) :=
  match s.corpusFor n with
  | some (_, c) =>
    if !c.sealed then []
    else
      let at_ (idx : Nat) : Bool := locOf (placeKey c.seed c.id) c.geometry c.drift idx epoch == s.member n
      let away := if geoCount c.geometry ≤ 1 then [] else
        (Config.remoteSet c.id epoch).filter fun r => at_ r.1 && (Tbl.find c.records r.1).isNone
      ((c.records.filter fun r => !bit r.2.flags 2 && at_ r.1).map fun r => (r.1, r.2.logical)) ++ away
  | none => []

/-- R421: the 16-byte records of a location set. -/
def locationBytes (l : List (Nat × Nat)) : Bytes := l.flatMap fun e => leBytes 8 e.1 ++ leBytes 4 e.2 ++ zeros 4

/-- R422, R423: a mirror snapshot is taken and sent to the partner. -/
def State.sendSnapshot (s : State) (n : Nat) : State :=
  let s1 := s.takeBoundary n
  let x := s1.stream n
  (s1.emit (.mirror (s1.partnerOf n) mkSnapshot n (x.snapshot.getD []))).updProt n fun p =>
    { p with unacked := p.unacked ++ [(x.snapSeq, x.run.nextBatch, s1.gtc)] }

/-- R421: one step of an open is sent: 1 the mark, 2 the settings, 3 the location sets, 4 the first snapshot. -/
def State.openSend (s : State) (n step : Nat) : State :=
  let c := s.partnerOf n
  let s' := s.updProt n fun p => { p with openStep := step }
  if step = 1 then s'.emit (.mirror c mkOpen n ((s.marksOf n).headD []))
  else if step = 2 then s'.emit (.mirror c mkSettings n (settingsBytes (s.settingsBlock n)))
  else if step = 3 then
    let e := (s.run n).epoch
    (s'.emit (.mirror c mkLocations n (leBytes 4 e ++ locationBytes (s.locationSet n e)))).emit
      (.mirror c mkLocations n (leBytes 4 (e + 1) ++ locationBytes (s.locationSet n (e + 1))))
  else s'.sendSnapshot n

/-- R420: the device opens a mirror of stream n at its partner. -/
def State.openMirror (s : State) (n : Nat) : State :=
  let c := s.partnerOf n
  let s1 := s.updProt n fun p => { p with cause := 0, ackedBatch := 0, unacked := [], moveTo := none }
  if c = 0xFFFF then s1.unprotect n 4
  else if !s1.reaches c then s1.unprotect n 1
  else if !s1.mirrors then s1
  else (s1.updProt n fun p => { p with state := 1 }).openSend n 1

/-- R443: a mirror of stream n is open or opening at its partner. -/
def State.mirrored (s : State) (n : Nat) : Bool := let p := (s.stream n).prot.state; p == 1 || p == 2 || p == 3

/-- R420: the mirror at a device is closed. -/
def State.closeMirror (s : State) (n coord : Nat) : State :=
  if s.mirrored n then
    (s.emit (.mirror coord mkClose n [])).updProt n fun p => { p with state := 0, openStep := 0, unacked := [], ackedBatch := 0 }
  else s

/-! ## Ending a run (R40, R272) and moving a stream (R431) -/

/-- R40, R272: the run of stream n ends: its jobs, its undelivered batches and every buffer charged to it.
(DEDUCED, log entry 40; DESIGN CHOICE, log entry 52) -/
def State.endRun (s : State) (n : Nat) : State :=
  let s1 := (s.endJobs fun j => j.stream == n).freeRequester n
  let s2 := if (Tbl.find s1.fabric.qps (dlvQpn n)).isSome then s1.updQp (dlvQpn n) fun q => { q with unacked := [] } else s1
  s2.updRun n fun r => { r with batches := [], toAdmit := [] }

/-- R39, R431: stream n moves to MOVED, the record of the device that took it naming MOVED_TO. -/
def State.moveStream (s : State) (n to_ status : Nat) : State :=
  let s1 := (s.endRun n).updStream n fun x =>
    { x with state := .moved, lastStatus := status, draining := false
             prot := { x.prot with state := 0, cause := 0, openStep := 0, unacked := [], moveTo := none, movedTo := to_,
                                   pendingMark := none } }
  s1.retireSlots n

/-- R431, R429: the coordinates of a rank of the torus. -/
def State.coordOfRank (s : State) (r : Nat) : Nat :=
  packCoord (geoCoord s.torus r 0) (geoCoord s.torus r 1) (geoCoord s.torus r 2)

/-- R429: whether fence record a is lower than b. -/
def fenceLt (a b : Nat × Nat) : Bool := a.1 < b.1 || (a.1 == b.1 && a.2 < b.2)

/-- R429: the fence record of stream n. -/
def State.fenceOf (s : State) (n : Nat) : Nat × Nat := ((s.stream n).prot.fenceEpoch, (s.stream n).prot.fenceOwner)

end Sys2Proof.Machine
end

