-- ==== Sys2Proof/Machine/Fabric.lean ====
section
/-! DEFINITION. Midway: link credits and retry (R357 to R361), routing (R362, R363), messages and their answers (R364 to
R368). -/

namespace Sys2Proof.Machine

/-! ## Links (R353 to R361) -/

/-- R358: credits that a frame uses. -/
def Frame.credits (f : Frame) : Nat := ceilDiv f.bytes 64

/-- R358: the buffer that a frame occupies: 0 ADAPT, 1 ESC0, 2 ESC1. -/
def Frame.buffer (f : Frame) : Nat := if !f.esc then 0 else if f.dl then 2 else 1

/-- R358: the key of a buffer of a VL. -/
def bufOf (vl b : Nat) : Nat := 3 * vl + b

/-- R358: credits granted to a buffer at link up. -/
def creditBase (key : Nat) : Nat := if key % 3 = 0 then 1024 else 256

/-- R358: free credits of a buffer at the far end of port k. -/
def Port.free (p : Port) (key : Nat) : Nat :=
  (Tbl.get p.granted (creditBase key) key + 2 ^ 32 - Tbl.get p.used 0 key) % 2 ^ 32

/-- R358: credits used for a frame that will enter a buffer. -/
def Port.use (p : Port) (key n : Nat) : Port := { p with used := Tbl.upd p.used 0 key fun u => (u + n) % 2 ^ 32 }

/-- R358, R359: n units leave a buffer: those that were granted before the link last went DOWN are not returned. (DEDUCED, log entry 175) -/
def Port.giveBack (p : Port) (key n : Nat) : Port :=
  let old := min n (Tbl.get p.stale 0 key)
  { p with stale := Tbl.upd p.stale 0 key (· - old), creditDue := true
           given := Tbl.upd p.given (creditBase key) key fun g => (g + (n - old)) % 2 ^ 32 }

/-- R359: credits returned to the sender at port k. -/
def State.giveBack (s : State) (b : Option (Nat × Nat × Nat)) : State :=
  match b with
  | some (k, key, n) => s.updPort k fun p => p.giveBack key n
  | none => s

/-- R358: what a frame's credits name at port k. -/
def backOf (k : Nat) (f : Frame) : Option (Nat × Nat × Nat) := some (k, bufOf f.vl f.buffer, f.credits)

/-- R359, R374, R387: frames that stand in a receive buffer of the port itself. -/
def Port.standing (p : Port) : List Frame := p.red.map QFrame.frame ++ p.miss ++ p.stalled

/-- R359: the credits that a set of frames, of the ports' receive buffers and of those that wait, will return. -/
def FabricSt.backs (f : FabricSt) (own : Frame → Bool) : List (Nat × Nat × Nat) :=
  (f.ports.flatMap fun p => (p.2.standing.filter own).filterMap (backOf p.1)) ++
  ((f.ports.flatMap fun p => p.2.queue) ++ f.waiting).filterMap fun q => if own q.frame then q.back else none

/-- R357, R463: a link-control frame of port k: it carries LACK and no LSEQ; during a scrub of DEVICE scope only IDLE and
CREDIT frames are sent. -/
def State.control (s : State) (k ftype : Nat) (payload : Bytes) : State :=
  if s.deviceScrub && decide (3 ≤ ftype) then s
  else s.emit (.frame k { ftype := ftype, lack := (s.port k).rxSeq, payload := payload })

/-- R357, R463: the payload of a CREDIT frame; the counts stay frozen during a scrub of DEVICE scope. -/
def Port.creditPayload (p : Port) : Bytes :=
  (List.range 24).flatMap fun key => leBytes 4 (Tbl.get (p.frozen.getD p.given) (creditBase key) key)

/-- R359: sends a CREDIT frame. -/
def State.sendCredit (s : State) (k : Nat) : State :=
  (s.control k 2 (s.port k).creditPayload).updPort k fun p => { p with creditDue := false, creditGtc := s.gtc }

/-- R360: LACK frees the frames before it. -/
def State.acked (s : State) (k lack : Nat) : State :=
  let p := s.port k
  let ahead (q : Nat) : Bool := (lack + 4096 - q) % 4096 ≠ 0 && (lack + 4096 - q) % 4096 ≤ 2048
  let held := p.held.dropWhile fun h => ahead h.1
  if held.length = p.held.length then s
  else s.updPort k fun p => { p with held := held, replays := 0, lackGtc := s.gtc }

/-- R360: bytes in the replay buffer. -/
def Port.heldBytes (p : Port) : Nat := (p.held.map fun h => h.2.bytes).sum

/-- R361, R463: a frame replayed 16 times without LACK advancing puts the link into RETRAIN. -/
def State.replay (s : State) (k : Nat) : State :=
  let p := s.port k
  if p.held.isEmpty || s.deviceScrub then s
  else if 16 ≤ p.replays then s.updPort k fun p => { p with link := .retrain, retrainGtc := s.gtc }
  else
    let s1 := p.held.foldl (fun s h => s.emit (.frame k { h.2 with lack := p.rxSeq })) s
    (s1.count (oReplays k) 1).updPort k fun p => { p with replays := p.replays + 1, lackGtc := s.gtc }

/-! ## Routing (R362, R363) -/

/-- R362: a hop in a direction crosses the wrap. -/
def State.wraps (s : State) (dir : Nat) : Bool :=
  let d := dir / 2
  if dir % 2 = 0 then geoOwn s.torus d + 1 == geoDim s.torus d else geoOwn s.torus d == 0

/-- R363: a destination lies in the torus. -/
def State.inTorus (s : State) (c : Nat) : Bool := (List.range 3).all fun d => coordOf c d < geoDim s.torus d

/-- R362: the port with the most free ADAPT credits on a VL, the lowest on a tie. -/
def State.bestPort (s : State) (vl : Nat) (ks : List Nat) : Option Nat :=
  ks.foldl (fun (b : Option Nat) k =>
    match b with
    | none => some k
    | some j => if (s.port j).free (bufOf vl 0) < (s.port k).free (bufOf vl 0) then some k else some j) none

/-- R362: the output port and buffer for a frame that arrived by a hop in a dimension; none: it waits for credits. -/
def State.routeFrame (s : State) (f : Frame) (dim : Option Nat) : Option (Nat × Nat × Bool) :=
  let dirs := (List.range 3).filterMap (s.dirTo f.dst)
  let dlNext (dir : Nat) : Bool := (dim == some (dir / 2) && f.dl) || s.wraps dir
  let n := f.credits
  match (s.bestPort f.vl ((List.range 8).filter fun k => dirs.any fun d => (s.portsOf d).contains k)).filter fun k => n ≤ (s.port k).free (bufOf f.vl 0) with
  | some k => some (k, 0, dlNext (s.portDir k))
  | none =>
    match dirs.head? with
    | none => none
    | some dir =>
      let b := if dlNext dir then 2 else 1
      ((s.portsOf dir).find? fun k => n ≤ (s.port k).free (bufOf f.vl b)).map fun k => (k, b, dlNext dir)

/-- R362: a frame goes to its output port, or waits for credits. -/
def State.forward (s : State) (q : QFrame) : State :=
  match s.routeFrame q.frame q.dim with
  | some (k, b, dl) =>
    let f := { q.frame with esc := b ≠ 0, dl := dl }
    s.updPort k fun p => { p.use (bufOf f.vl b) f.credits with queue := p.queue ++ [{ q with frame := f, since := s.gtc }] }
  | none => { s with fabric := { s.fabric with waiting := s.fabric.waiting ++ [{ q with since := s.gtc }] } }

/-- R363: the waiting frames that find credits now go on; the others keep the time since which they wait. -/
def State.retryWaiting (s : State) : State :=
  s.fabric.waiting.foldl (fun (s : State) (q : QFrame) =>
    match s.routeFrame q.frame q.dim with
    | some (k, b, dl) =>
      let f := { q.frame with esc := b ≠ 0, dl := dl }
      s.updPort k fun p => { p.use (bufOf f.vl b) f.credits with queue := p.queue ++ [{ q with frame := f, since := s.gtc }] }
    | none => { s with fabric := { s.fabric with waiting := s.fabric.waiting ++ [q] } })
    { s with fabric := { s.fabric with waiting := [] } }

/-! ## Messages (R364 to R368) -/

/-- R355: operations. -/
def opSend : Nat := 0
/-- R355: WRITE. -/
def opWrite : Nat := 1
/-- R355: WRITE_NOTIFY. -/
def opWriteNotify : Nat := 2
/-- R355: READ_REQ. (DESIGN CHOICE, log entry 50) -/
def opReadReq : Nat := 3
/-- R355: READ_RESP. -/
def opReadResp : Nat := 4
/-- R355: RESP. -/
def opResp : Nat := 5

/-- R369: system queue pair of portion lists. (DESIGN CHOICE, log entry 49) -/
def qpPortion : Nat := 1
/-- R369: system queue pair of signature bands. -/
def qpBand : Nat := 3
/-- R369, R504: system queue pair of remote OD access. -/
def qpOd : Nat := 2

/-- R364: the packets of a message: 4,096 bytes each, the last may be shorter. -/
def packets (head : Frame) (data : Bytes) : List Frame :=
  (List.range (ceilDiv data.length 4096)).map fun i =>
    { head with offset := 4096 * i, payload := (data.drop (4096 * i)).take 4096 }

/-- R355, R356: the header that every packet of a message carries. -/
def State.msgHead (s : State) (head : Frame) (data : Bytes) : Frame :=
  { head with ftype := 0, src := s.coord, msgId := s.fabric.nextMsg, total := data.length, digest := (sha3_512 data).take 16 }

/-- R365: a SEND whose destination is the device itself is delivered to its queue pair. -/
def State.loopback (s : State) (dqp : Nat) (data : Bytes) : State :=
  { s with fabric := { s.fabric with inbox := s.fabric.inbox ++ [({ src := s.coord, qp := dqp, data := data } : InMsg)] } }

/-- R355, R367: a message is cut into packets and sent under a new MSG_ID; a record is kept until it is answered. -/
def State.sendAs (s : State) (m : OutMsg) : State :=
  let h := s.msgHead m.head m.data
  let s1 := { s with fabric := { s.fabric with nextMsg := (s.fabric.nextMsg + 1) % 2 ^ 32
                                               msgs := s.fabric.msgs ++ [{ m with msgId := h.msgId, head := h, retryAt := none }] } }
  if s.inTorus h.dst && h.dst != s.coord then (packets h m.data).foldl (fun s f => s.forward { frame := f, since := s.gtc, first := f.offset == 0 }) s1 else s1

/-- R363, R367: a new message for a purpose; a destination outside the torus is unreachable at once: nothing is sent. -/
def State.sendMessage (s : State) (head : Frame) (data : Bytes) (p : Purpose) (subject : Nat) : State :=
  if head.dst = s.coord && head.op = opSend then s.loopback head.dqp data
  else if !s.inTorus head.dst then s
  else s.sendAs { msgId := 0, head := head, data := data, purpose := p, subject := subject }

/-- R366, R368: the answer to a message: MSG_ID, STATUS, FLAGS. -/
def State.sendResp (s : State) (f : Frame) (status flags : Nat) : State :=
  let data := leBytes 4 f.msgId ++ leBytes 2 status ++ leBytes 2 flags ++ zeros 8
  let h := s.msgHead { vl := f.vl, tenant := f.tenant, dst := f.src, op := opResp } data
  let s1 := { s with fabric := { s.fabric with nextMsg := (s.fabric.nextMsg + 1) % 2 ^ 32 } }
  (packets h data).foldl (fun s x => s.forward { frame := x, since := s.gtc }) s1

/-- R365, R380: the data of a READ_REQ. -/
def State.sendReadResp (s : State) (f : Frame) (data : Bytes) : State :=
  let h := s.msgHead { vl := f.vl, tenant := f.tenant, dst := f.src, op := opReadResp, dqp := f.dqp } data
  let s1 := { s with fabric := { s.fabric with nextMsg := (s.fabric.nextMsg + 1) % 2 ^ 32 } }
  (packets h data).foldl (fun s x => s.forward { frame := x, since := s.gtc }) s1

/-- R367: the message with a MSG_ID that waits for an answer. -/
def State.message (s : State) (id : Nat) : Option OutMsg := s.fabric.msgs.find? fun m => m.msgId == id

/-- R367: a message is no longer waited for. -/
def State.dropMessage (s : State) (id : Nat) : State :=
  { s with fabric := { s.fabric with msgs := s.fabric.msgs.filter fun m => m.msgId ≠ id } }

/-- R365: receive buffers of a queue pair go back. -/
def State.freeReceive (s : State) (qp pool n : Nat) (part : Option Nat) : State :=
  if n = 0 then s else (s.vacate (Requester.fabric (Tbl.get s.fabric.qps {} qp).pd).id pool n part).serveAllocs

/-- R365: the first delivered message with these bytes is acted on, and its receive buffers go back. -/
def State.takeInbox (s : State) (data : Bytes) : State :=
  match s.fabric.inbox.find? fun m => m.data == data with
  | some m =>
    State.freeReceive { s with fabric := { s.fabric with inbox := s.fabric.inbox.erase m } } m.qp m.pool m.count m.part
  | none => s

/-! ## Links going down and coming up -/

/-- R361, R439: the frames that port k holds or has queued are routed again through other ports. -/
def State.reroute (s : State) (k : Nat) : State :=
  let p := s.port k
  let qs := (p.held.map fun h => ({ frame := h.2, since := s.gtc, dim := some (s.portDir k / 2) } : QFrame)) ++ p.queue
  qs.foldl State.forward (s.updPort k fun p => { p with held := [], queue := [] })

/-- R353, R361: the link of port k goes DOWN with a cause; its frames take other ports, and those that it has accepted stay.
(DEDUCED, log entry 175) -/
def State.linkDown (s : State) (k cause : Nat) : State :=
  let old := (s.fabric.backs fun _ => true).filter fun b => b.1 == k
  let stale := old.foldl (fun (t : Tbl Nat) b => Tbl.upd t 0 b.2.1 (· + b.2.2)) []
  (s.updPort k fun p => { p with link := .down, cause := cause, pcs := false, hops := 0xFF, stale := stale }).reroute k

/-- R359, R439: the receive buffers of port k are cleared. (DEDUCED, log entry 175) -/
def State.clearPort (s : State) (k : Nat) : State := s.updPort k fun p => { p with miss := [], stalled := [], red := [], redRoce := [] }

/-- R358, R360: the counters of a link that comes up. -/
def Port.fresh (p : Port) (gtc : Nat) : Port :=
  { p with txSeq := 0, rxSeq := 0, held := [], replays := 0, lackGtc := gtc, nakSent := false, granted := [], used := [], given := [],
           creditGtc := gtc, creditDue := true }

end Sys2Proof.Machine
end

