-- ==== Sys2Proof/Machine/Colour.lean ====
section
/-! DEFINITION. The COLOUR stage (R138 to R142) and the ALIGN stage (R147 to R153). -/

namespace Sys2Proof.Machine

/-! ## COLOUR -/

/-- R142: element size of an output type. -/
def outBytes (t : Nat) : Nat := if t = 0 then 1 else if t = 3 then 4 else 2

/-- R141: conversion of an FP32 code to the output type; U8 under R83, the others under R82. -/
def outConvert (t v : Nat) : Nat :=
  match t with
  | 0 => (fvToInt false 0 255 (fpDecode fmtFP32 v)).toNat
  | 1 => fpEncode fmtFP16 (fpDecode fmtFP32 v)
  | 2 => fpEncode fmtBF16 (fpDecode fmtFP32 v)
  | _ => v

/-- R141: the table lookup of a sample v of depth d in table c of the colour record. -/
def lutAt (crec : Bytes) (c d v : Nat) : Nat :=
  let l (i : Nat) : Nat := fieldAt crec (96 + 4096 * c + 4 * i) 4
  if d ≤ 10 then l (v * 2 ^ (10 - d))
  else
    let i := v / 2 ^ (d - 10)
    let f := v % 2 ^ (d - 10)
    let e0 := l i
    let e1 := l (min (i + 1) 1023)
    fAdd e0 (fMul (fSub e1 e0) (fpRound fmtFP32 false f 1 (-((d - 10 : Nat) : Int))))

/-- R141: gain and bias of the sample. -/
def jitterOf (g : StageIn) (crec : Bytes) : Nat × Nat :=
  let p (o : Nat) : Nat := fieldAt crec o 4
  let u := g.draw0
  (fAdd (p 80) (fMul (fSub (p 84) (p 80)) (unitF32 u.w0.toNat)),
   fAdd (p 88) (fMul (fSub (p 92) (p 88)) (unitF32 u.w1.toNat)))

/-- R141: the four input values a[0] to a[3] of a pixel. -/
def colourIn (crec : Bytes) (lut : Bool) (r : Rec) (f x y : Nat) : List Nat :=
  (List.range 4).map fun c =>
    if r.comps ≤ c then 0
    else if lut then lutAt crec c r.depth (r.code f c x y)
    else if r.kind = 2 then r.code f c x y
    else fInt (r.value f c x y)

/-- R141: output element k of a pixel. -/
def colourOut (crec : Bytes) (jit : Option (Nat × Nat)) (t k : Nat) (a : List Nat) : Nat :=
  let m (i : Nat) : Nat := fieldAt crec (16 * k + 4 * i) 4
  let y :=
    if k = 3 then a.getD 3 0
    else
      let v := fAdd (fAdd (fAdd (fMul (m 0) (a.getD 0 0)) (fMul (m 1) (a.getD 1 0))) (fMul (m 2) (a.getD 2 0))) (m 3)
      match jit with
      | some j => fAdd (fMul v j.1) j.2
      | none => v
  outConvert t (fMul (fSub y (fieldAt crec (48 + 4 * k) 4)) (fieldAt crec (64 + 4 * k) 4))

/-- R153: the step count of COLOUR. -/
def colourSteps (r : Rec) (ch : Nat) : Nat := 64 + 16 * r.frames * ceilDiv (ch * r.width * r.height) 64

/-- R142: the header of a tensor record. -/
def tensorHeader (t layout ch w h frames bytes : Nat) : Bytes :=
  sliceZ (leBytes 4 0x52534E54 ++ leBytes 1 t ++ leBytes 1 layout ++ leBytes 1 ch ++ leBytes 1 0 ++ leBytes 2 w ++
    leBytes 2 h ++ leBytes 2 frames ++ leBytes 2 0 ++ leBytes 4 bytes) 0 64

/-- R141, R142: the data of one frame. -/
def colourFrame (g : StageIn) (crec : Bytes) (r : Rec) (f : Nat) : Bytes :=
  let w4 := g.desc.word 4
  let t := bits w4 34 32
  let ch := bits w4 42 40
  let jit := if bit w4 37 then some (jitterOf g crec) else none
  let px (x y k : Nat) : Bytes := leBytes (outBytes t) (colourOut crec jit t k (colourIn crec (bit w4 36) r f x y))
  if bit w4 35 then
    (List.range ch).flatMap fun k => (List.range r.height).flatMap fun y => (List.range r.width).flatMap fun x => px x y k
  else
    (List.range r.height).flatMap fun y => (List.range r.width).flatMap fun x => (List.range ch).flatMap fun k => px x y k

/-- R140 to R142, R153: the output of a COLOUR stage. (DEDUCED, log entry 33) -/
def colourStage (g : StageIn) : Except Nat Bytes :=
  match recOf (g.input 0) with
  | none => Config.badRecord tColour (g.input 0)
  | some r =>
    let w4 := g.desc.word 4
    let crec := g.consts.drop (bits w4 31 0)
    let t := bits w4 34 32
    let ch := bits w4 42 40
    let size := r.frames * ch * r.width * r.height * outBytes t
    if r.chroma ≠ 0 || (bit w4 36 && (r.kind ≠ 0 || 16 < r.depth)) then .error stUnsupported
    else if g.desc.step * 1024 < colourSteps r ch then .error stStepLimit
    else if g.desc.outMax < up128 (64 + size) then .error stBound
    else .ok (padTo (tensorHeader t (if bit w4 35 then 1 else 0) ch r.width r.height r.frames size ++
      (List.range r.frames).flatMap (colourFrame g crec r)) 128)

/-! ## ALIGN -/

/-- R147: a record of a sensor. -/
structure SensorRec where
  /-- R150: the corrected time. -/
  t : Int
  /-- R147: the record's bytes. -/
  data : Bytes
  deriving DecidableEq, Repr

/-- R147: a sensor of a container. -/
structure Sensor where
  /-- R147: SENSOR_ID. -/
  id : Nat
  /-- R147: ELEM. -/
  elem : Nat
  /-- R147: TIME and bytes of each record. -/
  recs : List (Nat × Bytes)
  deriving DecidableEq, Repr

/-- R147, R148: the sensors of a container; none when it breaks its layout. Its reserved bytes are ignored (R5). -/
def containerOf (b : Bytes) : Option (List Sensor) :=
  let n := fieldAt b 4 2
  if b.length < 16 || fieldAt b 0 4 ≠ 0x52534E53 || 16 < n || b.length < 16 + 24 * n then none
  else
    (List.range n).foldr (fun i (acc : Option (List Sensor)) =>
      let d := b.drop (16 + 24 * i)
      let cnt := fieldAt d 4 4
      let tab := fieldAt d 8 8
      if 1 < fieldAt d 1 1 || 65536 < cnt || b.length < tab + 16 * cnt then none
      else
        let recs := (List.range cnt).map fun k =>
          let e := b.drop (tab + 16 * k)
          (fieldAt e 0 8, fieldAt e 8 4, fieldAt e 12 4)
        if recs.all fun e => e.1 < 2 ^ 63 && e.2.1 + e.2.2 ≤ b.length && (fieldAt d 1 1 ≠ 1 || e.2.2 % 4 == 0) then
          acc.map fun r => { id := fieldAt d 0 1, elem := fieldAt d 1 1,
                             recs := recs.map fun e => (e.1, (b.drop e.2.1).take e.2.2) } :: r
        else none) (some [])

/-- R148: TIME values do not decrease. -/
def timesOk : List (Nat × Bytes) → Bool
  | a :: b :: r => decide (a.1 ≤ b.1) && timesOk (b :: r)
  | _ => true

/-- R148: every sensor of the stage's inputs; none for BITSTREAM_CORRUPT. -/
def allSensors (inputs : List Bytes) : Option (List Sensor) :=
  let l := inputs.foldr (fun b (acc : Option (List Sensor)) =>
    match containerOf b, acc with
    | some s, some r => some (s ++ r)
    | _, _ => none) (some [])
  match l with
  | some ss => if ss.all (fun s => timesOk s.recs) && (ss.map Sensor.id).dedup.length == ss.length then some ss else none
  | none => none

/-- R150: the corrected records of a sensor under an entry. -/
def corrected (e : AlignEntry) (s : Sensor) : List SensorRec :=
  s.recs.map fun r => { t := (r.1 : Int) + e.offset, data := r.2 }

/-- R152: one slot of the fused record: absent, or a time, a payload and whether it is interpolated. -/
structure Fused where
  /-- R152: TIME. -/
  time : Int := 0
  /-- R152: the payload; none: absent. -/
  data : Option Bytes := none
  /-- R152: interpolated. -/
  interp : Bool := false
  deriving DecidableEq, Repr

/-- R150: the nearest record: least distance, then the earlier time, then the lower number. -/
def nearest (rs : List SensorRec) (tr : Int) : Option SensorRec :=
  rs.foldl (fun (best : Option SensorRec) r =>
    match best with
    | none => some r
    | some b =>
      let d := (r.t - tr).natAbs
      let db := (b.t - tr).natAbs
      if d < db || (d == db && r.t < b.t) then some r else some b) none

/-- R150: FP32 interpolation of two vectors. -/
def lerp (a b : Bytes) (w : Nat) : Bytes :=
  (List.range (a.length / 4)).flatMap fun i =>
    let va := fieldAt a (4 * i) 4
    leBytes 4 (fAdd va (fMul (fSub (fieldAt b (4 * i) 4) va) w))

/-- R150: selection by an entry at a reference time: none found, a slot, or a final status. -/
def selectAt (e : AlignEntry) (rs : List SensorRec) (tr : Int) : Except Nat (Option Fused) :=
  if !e.linear then
    match nearest rs tr with
    | some r =>
      if (r.t - tr).natAbs ≤ e.skew then .ok (some { time := r.t, data := some r.data }) else .ok none
    | none => .ok none
  else
    match rs.find? fun r => r.t == tr with
    | some r => .ok (some { time := r.t, data := some r.data })
    | none =>
      match (rs.filter fun r => r.t < tr).getLast?, rs.find? fun r => tr < r.t with
      | some a, some b =>
        if (a.t - tr).natAbs ≤ e.skew && (b.t - tr).natAbs ≤ e.skew then
          if a.data.length ≠ b.data.length then .error stCorrupt
          else
            .ok (some { time := tr, interp := true,
                        data := some (lerp a.data b.data (fpRound fmtFP32 false (tr - a.t).toNat (b.t - a.t).toNat 0)) })
        else .ok none
      | _, _ => .ok none

/-- R150, R151: the slot of an entry at a reference time. -/
def slotAt (ss : List Sensor) (refId : Nat) (e : AlignEntry) (ref : SensorRec) : Except Nat Fused :=
  if e.sensor = refId then .ok { time := ref.t, data := some ref.data }
  else
    match ss.find? fun s => s.id == e.sensor with
    | none => if e.required then .error stSensorMissing else .ok {}
    | some s =>
      if e.linear && s.elem == 0 then .error stUnsupported
      else if s.recs.isEmpty then (if e.required then .error stSensorMissing else .ok {})
      else
        match selectAt e (corrected e s) ref.t with
        | .error st => .error st
        | .ok (some f) => .ok f
        | .ok none => if e.required then .error stSkew else .ok {}

/-- R150: the first error of a list of outcomes, or every value. -/
def gather {α : Type} : List (Except Nat α) → Except Nat (List α)
  | [] => .ok []
  | .error e :: _ => .error e
  | .ok a :: r =>
    match gather r with
    | .ok as => .ok (a :: as)
    | .error e => .error e

/-- R152: the slots with their payload offsets, and the payloads, each at a multiple of 16. -/
def layFused : List Fused → Nat → Bytes × Bytes
  | [], _ => ([], [])
  | f :: r, off =>
    match f.data with
    | none =>
      let q := layFused r off
      (zeros 24 ++ q.1, q.2)
    | some d =>
      let q := layFused r (roundUp (off + d.length) 16)
      (leBytes 8 (ofSigned 64 f.time) ++ leBytes 4 off ++ leBytes 4 d.length ++
        leBytes 2 (1 + if f.interp then 2 else 0) ++ zeros 6 ++ q.1, padTo d 16 ++ q.2)

/-- R152: where the last payload ends. -/
def fusedEnd : List Fused → Nat → Nat → Nat
  | [], _, last => last
  | f :: r, off, last =>
    match f.data with
    | none => fusedEnd r off last
    | some d => fusedEnd r (roundUp (off + d.length) 16) (off + d.length)

/-- R153: payload bytes of the fused slots. -/
def payloadBytes (fs : List Fused) : Nat := (fs.map fun f => (f.data.getD []).length).sum

/-- R148 to R153: the output of an ALIGN stage. (DEDUCED, log entry 33) -/
def alignStage (g : StageIn) : Except Nat Bytes :=
  let arec := g.consts.drop (bits (g.desc.word 4) 31 0)
  let es := alignEntries arec
  let refId := fieldAt arec 5 1
  match allSensors g.inputs with
  | none => .error stCorrupt
  | some ss =>
    match ss.find? (fun s => s.id == refId), es.find? (fun e => e.sensor == refId) with
    | some r, some e =>
      if 256 < r.recs.length then .error stUnsupported
      else
        let refs := corrected e r
        match gather (refs.flatMap fun t => es.map fun e => slotAt ss refId e t) with
        | .error st => .error st
        | .ok fs =>
          let base := 16 + 24 * fs.length
          let q := layFused fs (roundUp base 16)
          let out := (leBytes 4 0x45535546 ++ leBytes 2 refs.length ++ leBytes 1 es.length ++ zeros 9 ++ q.1 ++
            zeros (roundUp base 16 - base) ++ q.2).take (fusedEnd fs (roundUp base 16) base)
          if g.desc.step * 1024 < 64 + 32 * refs.length * es.length + ceilDiv (payloadBytes fs) 128 then .error stStepLimit
          else if g.desc.outMax < out.length then .error stBound
          else .ok out
    | _, _ => .error stSensorMissing

end Sys2Proof.Machine
end

