-- ==== Sys2Proof/Machine/Codecs.lean ====
section
/-! DEFINITION. What the standards of R104 share: runs of bits, prefix codes, deflate with the zlib and gzip wrappers, and the
tile codecs of FITS. The spec names these standards without restating them. A reader that needs more bits than there are gives
TRUNCATED_INPUT, and a code that the standard does not have gives BITSTREAM_CORRUPT (R117). -/

namespace Sys2Proof.Machine

/-- A big-endian field of n bytes. -/
def beAt (b : Bytes) (o n : Nat) : Nat := leNat ((b.drop o).take n).reverse

/-! ## Runs of bits -/

/-- The bits of bytes, each from its lowest bit. -/
def bitsLow (b : Bytes) : List Bool := b.flatMap fun x => (List.range 8).map fun i => x.getLsbD i

/-- The bits of bytes, each from its highest bit. -/
def bitsHigh (b : Bytes) : List Bool := b.flatMap fun x => (List.range 8).map fun i => x.getLsbD (7 - i)

/-- R117: the next n bits and what follows them. -/
def takeRun : Nat → List Bool → Except Nat (List Bool × List Bool)
  | 0, r => .ok ([], r)
  | _ + 1, [] => .error stTruncated
  | n + 1, x :: r => (takeRun n r).map fun p => (x :: p.1, p.2)

/-- The next n bits as a number, the first bit lowest. -/
def takeLow (n : Nat) (r : List Bool) : Except Nat (Nat × List Bool) :=
  (takeRun n r).map fun p => (p.1.foldr (fun x a => 2 * a + x.toNat) 0, p.2)

/-- The next n bits as a number, the first bit highest. -/
def takeHigh (n : Nat) (r : List Bool) : Except Nat (Nat × List Bool) :=
  (takeRun n r).map fun p => (p.1.foldl (fun a x => 2 * a + x.toNat) 0, p.2)

/-! ## Prefix codes -/

/-- One code word: its length, its bits as a number and the symbol it stands for. -/
structure CodeRow where
  /-- Length in bits. -/
  len : Nat
  /-- The bits, the first highest. -/
  code : Nat
  /-- The symbol. -/
  sym : Nat
  deriving DecidableEq, Repr

/-- The canonical code of symbols listed by rising length: every code follows the one before it. (PRESUMED, log entry 15) -/
def codeRows : Nat → Nat → List (Nat × Nat) → List CodeRow
  | _, _, [] => []
  | next, len, (l, s) :: r =>
    let c := next * 2 ^ (l - len)
    { len := l, code := c, sym := s } :: codeRows (c + 1) l r

/-- The symbols that have a code, by rising length, from the length of each symbol. -/
def byLength (lens : List Nat) : List (Nat × Nat) :=
  (List.range 15).flatMap fun l => (lens.zipIdx.filter fun p => p.1 == l + 1).map fun p => (l + 1, p.2)

/-- The share of the code space that lengths take, in 2^-16. -/
def codeSpace (ls : List Nat) : Nat := (ls.map fun l => 2 ^ (16 - l)).sum

/-- R117: the next symbol of a code whose words have at most `n` bits more than those in hand. -/
def readSym (rows : List CodeRow) : Nat → Nat → Nat → List Bool → Except Nat (Nat × List Bool)
  | 0, _, _, _ => .error stCorrupt
  | _ + 1, _, _, [] => .error stTruncated
  | n + 1, len, v, x :: r =>
    let v := 2 * v + x.toNat
    match rows.find? fun c => c.len == len + 1 && c.code == v with
    | some c => .ok (c.sym, r)
    | none => readSym rows n (len + 1) v r

/-! ## Deflate (R104, R117) -/

/-- Lengths: the bits that follow symbol s, and the length with those bits zero. -/
def flateLen (s : Nat) : Nat × Nat :=
  if s < 265 then (0, s - 254)
  else if s = 285 then (0, 258)
  else
    let e := (s - 261) / 4
    (e, (4 + (s - 265) % 4) * 2 ^ e + 3)

/-- Distances: the bits that follow symbol d, and the distance with those bits zero. -/
def flateDist (d : Nat) : Nat × Nat :=
  if d < 4 then (0, d + 1)
  else
    let e := (d - 2) / 2
    (e, (2 + d % 2) * 2 ^ e + 1)

/-- n bytes repeated from k bytes back. The newest byte of the output stands first. -/
def copyBack : Nat → Nat → Bytes → Bytes
  | 0, _, out => out
  | n + 1, k, out => copyBack n k (out.getD (k - 1) 0 :: out)

/-- The symbols of a compressed block. The output stands newest byte first. -/
def flateSymbols (lit dist : List CodeRow) : Nat → List Bool → Bytes → Except Nat (List Bool × Bytes)
  | 0, _, _ => .error stCorrupt
  | f + 1, r, out => do
    let (s, r) ← readSym lit 15 0 0 r
    if s < 256 then flateSymbols lit dist f r (BitVec.ofNat 8 s :: out)
    else if s = 256 then .ok (r, out)
    else if 285 < s then .error stCorrupt
    else
      let (x, r) ← takeLow (flateLen s).1 r
      let (d, r) ← readSym dist 15 0 0 r
      if 29 < d then .error stCorrupt
      else
        let (y, r) ← takeLow (flateDist d).1 r
        let k := (flateDist d).2 + y
        if out.length < k then .error stCorrupt
        else flateSymbols lit dist f r (copyBack ((flateLen s).2 + x) k out)

/-- The code lengths of a dynamic block, read until there are n. -/
def flateLengths (rows : List CodeRow) (n : Nat) : Nat → List Bool → List Nat → Except Nat (List Nat × List Bool)
  | 0, _, _ => .error stCorrupt
  | f + 1, r, acc =>
    if n ≤ acc.length then (if acc.length = n then .ok (acc.reverse, r) else .error stCorrupt)
    else do
      let (s, r) ← readSym rows 7 0 0 r
      if s = 16 then
        match acc with
        | [] => .error stCorrupt
        | v :: _ => do
          let (x, r) ← takeLow 2 r
          flateLengths rows n f r (List.replicate (3 + x) v ++ acc)
      else if s = 17 then do
        let (x, r) ← takeLow 3 r
        flateLengths rows n f r (List.replicate (3 + x) 0 ++ acc)
      else if s = 18 then do
        let (x, r) ← takeLow 7 r
        flateLengths rows n f r (List.replicate (11 + x) 0 ++ acc)
      else flateLengths rows n f r (s :: acc)

/-- Whether lengths make a code: they fill the code space, or they are those of at most one symbol, of one bit. -/
def flateCodeOk (lens : List Nat) : Bool :=
  let used := lens.filter fun l => l ≠ 0
  codeSpace used == 2 ^ 16 || used == [] || used == [1]

/-- The order in which the lengths of the code length code stand. -/
def flateOrder : List Nat := [16, 17, 18, 0, 8, 7, 9, 6, 10, 5, 11, 4, 12, 3, 13, 2, 14, 1, 15]

/-- n values of three bits. -/
def flateTriples : Nat → List Bool → Except Nat (List Nat × List Bool)
  | 0, r => .ok ([], r)
  | n + 1, r => do
    let (x, r) ← takeLow 3 r
    let (l, r) ← flateTriples n r
    .ok (x :: l, r)

/-- The two codes of a dynamic block. -/
def flateTables (r : List Bool) : Except Nat (List Nat × List Nat × List Bool) := do
  let (hl, r) ← takeLow 5 r
  let (hd, r) ← takeLow 5 r
  let (hc, r) ← takeLow 4 r
  if 29 < hl || 29 < hd then .error stCorrupt
  else
    let (cl, r) ← flateTriples (hc + 4) r
    let lens := (List.range 19).map fun s => cl.getD (flateOrder.idxOf s) 0
    if codeSpace (lens.filter fun l => l ≠ 0) ≠ 2 ^ 16 then .error stCorrupt
    else
      let n := hl + 257 + (hd + 1)
      let (ls, r) ← flateLengths (codeRows 0 0 (byLength lens)) n (n + 1) r []
      let lit := ls.take (hl + 257)
      let dist := ls.drop (hl + 257)
      if !flateCodeOk lit || !flateCodeOk dist || lit.getD 256 0 = 0 then .error stCorrupt else .ok (lit, dist, r)

/-- The codes of a block with fixed codes. -/
def flateFixed : List Nat × List Nat :=
  (List.replicate 144 8 ++ List.replicate 112 9 ++ List.replicate 24 7 ++ List.replicate 8 8, List.replicate 32 5)

/-- A stored block: what is left of the byte in hand is passed over. -/
def flateStored (r : List Bool) (out : Bytes) : Except Nat (List Bool × Bytes) := do
  let (n, r) ← takeLow 16 (r.drop (r.length % 8))
  let (c, r) ← takeLow 16 r
  if n + c ≠ 65535 then .error stCorrupt
  else
    let (data, r) ← takeRun (8 * n) r
    let v := data.foldr (fun x a => 2 * a + x.toNat) 0
    .ok (r, (leBytes n v).reverse ++ out)

/-- Deflate: block after block up to the last. The output stands newest byte first. -/
def inflate : Nat → List Bool → Bytes → Except Nat (List Bool × Bytes)
  | 0, _, _ => .error stCorrupt
  | f + 1, r, out => do
    let (last, r) ← takeLow 1 r
    let (kind, r) ← takeLow 2 r
    let (r, out) ←
      if kind = 0 then flateStored r out
      else if kind = 3 then .error stCorrupt
      else do
        let (lit, dist, r) ← if kind = 1 then .ok (flateFixed.1, flateFixed.2, r) else flateTables r
        flateSymbols (codeRows 0 0 (byLength lit)) (codeRows 0 0 (byLength dist)) (r.length + 1) r out
    if last = 1 then .ok (r, out) else inflate f r out

/-- Deflate over bytes: its output and the bytes after it. (PRESUMED, log entry 15) -/
def inflateBytes (b : Bytes) : Except Nat (Bytes × Bytes) := do
  let r := bitsLow b
  let (r, out) ← inflate (r.length + 1) r []
  .ok (out.reverse, b.drop (b.length - r.length / 8))

/-- Adler-32. -/
def adler32 (b : Bytes) : Nat :=
  let p := b.foldl (fun (p : Nat × Nat) x =>
    let a := (p.1 + x.toNat) % 65521
    (a, (p.2 + a) % 65521)) (1, 0)
  p.2 * 65536 + p.1

/-- The CRC-32 of PNG and gzip. -/
def crc32 (b : Bytes) : Nat :=
  let turn (c : BitVec 32) : BitVec 32 := if c.getLsbD 0 then (c >>> 1) ^^^ 0xEDB88320 else c >>> 1
  (~~~ b.foldl (fun (c : BitVec 32) x => (List.range 8).foldl (fun c _ => turn c) (c ^^^ x.setWidth 32)) 0xFFFFFFFF).toNat

/-- R117: a zlib stream. Bytes after its check value are an error. (PRESUMED, log entry 15) -/
def unzlib (b : Bytes) : Except Nat Bytes :=
  if b.length < 2 then .error stTruncated
  else
    let m := beAt b 0 1
    let g := beAt b 1 1
    if m % 16 ≠ 8 || 7 < m / 16 || (256 * m + g) % 31 ≠ 0 || bit g 5 then .error stCorrupt
    else do
      let (out, rest) ← inflateBytes (b.drop 2)
      if rest.length < 4 then .error stTruncated
      else if beAt rest 0 4 ≠ adler32 out || rest.length ≠ 4 then .error stCorrupt
      else .ok out

/-- Bytes after one that ends with a zero byte. -/
def afterZero (b : Bytes) : Except Nat Bytes :=
  match b.dropWhile fun x => x ≠ 0 with
  | [] => .error stTruncated
  | _ :: r => .ok r

/-- R117: a gzip member. (PRESUMED, log entry 15) -/
def gunzip (b : Bytes) : Except Nat Bytes :=
  if b.length < 10 then .error stTruncated
  else
    let g := beAt b 3 1
    if b.take 3 ≠ [0x1F, 0x8B, 0x08] || 31 < g then .error stCorrupt
    else do
      let r := b.drop 10
      let r ← if bit g 2 then (if r.length < 2 || r.length < 2 + fieldAt r 0 2 then .error stTruncated
        else .ok (r.drop (2 + fieldAt r 0 2))) else .ok r
      let r ← if bit g 3 then afterZero r else .ok r
      let r ← if bit g 4 then afterZero r else .ok r
      let r ← if bit g 1 then (if r.length < 2 then .error stTruncated else .ok (r.drop 2)) else .ok r
      let (out, rest) ← inflateBytes r
      if rest.length < 8 then .error stTruncated
      else if fieldAt rest 0 4 ≠ crc32 out || fieldAt rest 4 4 ≠ out.length % 2 ^ 32 then .error stCorrupt
      else .ok out

/-! ## Tile codecs of FITS (R104, R117) -/

/-- RICE_1: bits of the code selection, and the selection that stands for raw differences, by BYTEPIX. -/
def riceSplit (bytepix : Nat) : Nat × Nat :=
  match bytepix with
  | 1 => (3, 6)
  | 2 => (4, 14)
  | _ => (5, 25)

/-- RICE_1: n values after `last`, with their differences raw or split at `k` bits. -/
def riceBlock (w : Nat) (k : Option Nat) : Nat → Nat → List Bool → Except Nat (List Nat × Nat × List Bool)
  | 0, last, r => .ok ([], last, r)
  | n + 1, last, r => do
    let (d, r) ← match k with
      | none => takeHigh w r
      | some k => do
        let z := (r.takeWhile fun x => !x).length
        let (x, r) ← takeHigh k (← (takeRun (z + 1) r)).2
        .ok (z * 2 ^ k + x, r)
    let v := (if d % 2 = 0 then last + d / 2 else last + 2 ^ w * d - (d / 2 + 1)) % 2 ^ w
    let (l, last, r) ← riceBlock w k n v r
    .ok (v :: l, last, r)

/-- RICE_1: the blocks of a tile with n values still to come. -/
def riceBlocks (bytepix blocksize : Nat) : Nat → Nat → Nat → List Bool → Except Nat (List Nat)
  | 0, _, _, _ => .error stCorrupt
  | f + 1, n, last, r =>
    if n = 0 then .ok []
    else do
      let m := min blocksize n
      let (s, top) := riceSplit bytepix
      let (x, r) ← takeHigh s r
      let (l, last, r) ←
        if x = 0 then .ok (List.replicate m last, last, r)
        else if top + 1 < x then .error stCorrupt
        else riceBlock (8 * bytepix) (if x = top + 1 then none else some (x - 1)) m last r
      let more ← riceBlocks bytepix blocksize f (n - m) last r
      .ok (l ++ more)

/-- RICE_1: the n values of a tile. (PRESUMED, log entry 15) -/
def unrice (bytepix blocksize n : Nat) (b : Bytes) : Except Nat (List Int) := do
  let (v, r) ← takeHigh (8 * bytepix) (bitsHigh b)
  let l ← riceBlocks bytepix blocksize (n + 1) n v r
  .ok (l.map fun (x : Nat) => if bytepix = 1 then (x : Int) else toSigned (8 * bytepix) x)

/-- PLIO_1: the instructions of a line list: pixels written so far in reverse, how many, and the present high value. -/
def plioRun : List Nat → List Int → Nat → Int → Except Nat (List Int)
  | [], acc, _, _ => .ok acc
  | w :: r, acc, n, pv =>
    let d := w % 4096
    match w / 4096 with
    | 0 => plioRun r (List.replicate d 0 ++ acc) (n + d) pv
    | 1 =>
      match r with
      | [] => .error stTruncated
      | x :: r => plioRun r acc n (x * 4096 + d : Nat)
    | 2 => plioRun r acc n (pv + d)
    | 3 => plioRun r acc n (pv - d)
    | 4 => plioRun r (List.replicate d pv ++ acc) (n + d) pv
    | 5 => plioRun r ((if d = 0 then [] else pv :: List.replicate (d - 1) 0) ++ acc) (n + d) pv
    | 6 => plioRun r ((pv + d) :: acc) (n + 1) (pv + d)
    | 7 => plioRun r ((pv - d) :: acc) (n + 1) (pv - d)
    | _ => .error stCorrupt

/-- PLIO_1: the n values of a tile; zeros at its end need not be coded. (PRESUMED, log entry 15) -/
def unplio (n : Nat) (b : Bytes) : Except Nat (List Int) :=
  let ws := (List.range (b.length / 2)).map fun i => beAt b (2 * i) 2
  if ws.length < 4 then .error stTruncated
  else
    let old := decide (ws.getD 2 0 < 32768) && ws.getD 2 0 ≠ 0
    let len := if old then ws.getD 2 0 else ws.getD 4 0 * 32768 + ws.getD 3 0
    let from' := if old then 3 else ws.getD 1 0
    if ws.length < len then .error stTruncated
    else do
      let l ← plioRun ((ws.take len).drop from') [] 0 1
      if n < l.length then .error stCorrupt else .ok (l.reverse ++ List.replicate (n - l.length) 0)

/-- Big-endian values of n bytes: unsigned for one byte, signed else. -/
def beValues (n : Nat) (b : Bytes) : List Int :=
  (List.range (b.length / n)).map fun i => if n = 1 then (beAt b i 1 : Int) else toSigned (8 * n) (beAt b (n * i) n)

end Sys2Proof.Machine
end

