-- ==== Sys2Proof/Machine/Fits.lean ====
section
/-! DEFINITION. FITS inputs (R102, R104, R105, R112 to R117): header cards, the HDUs, plain images and tile-compressed images. The
format is that of the FITS Standard 4.0, which the spec names without restating it. -/

namespace Sys2Proof.Machine

/-! ## Header cards -/

/-- R104: a header card, 80 bytes. -/
def fitsCard (b : Bytes) (i : Nat) : Bytes := (b.drop (80 * i)).take 80

/-- R112, R113, R117: the number of cards up to and including END, of at most 36,000. A card that is no text before END is met where
END is missing. (DESIGN CHOICE, log entry 163) -/
def fitsEnd (b : Bytes) : Nat → Nat → Except Nat Nat
  | 0, i => .error (if b.length < 80 * (i + 1) then stTruncated else stUnsupported)
  | f + 1, i =>
    if b.length < 80 * (i + 1) then .error stTruncated
    else if (fitsCard b i).take 8 = asciiBytes "END     " then .ok (i + 1)
    else if (fitsCard b i).any fun c => decide (c.toNat < 0x20) || decide (0x7E < c.toNat) then .error stCorrupt
    else fitsEnd b f (i + 1)

/-- R104: the value field of a keyword among the first n cards, blanks before it dropped. -/
def fitsValue (b : Bytes) (n : Nat) (key : String) : Option Bytes :=
  let k := (asciiBytes key ++ List.replicate (8 - key.length) 0x20) ++ asciiBytes "= "
  ((List.range n).find? fun i => (fitsCard b i).take 10 == k).map fun i =>
    ((fitsCard b i).drop 10).dropWhile fun c => c == 0x20

/-- R104: the digits at the start of a value. -/
def digits (v : Bytes) : List Nat := (v.takeWhile fun c => decide (0x30 ≤ c.toNat) && decide (c.toNat ≤ 0x39)).map fun c => c.toNat - 0x30

/-- R104: the number that digits write. -/
def digitsNat (l : List Nat) : Nat := l.foldl (fun a x => 10 * a + x) 0

/-- R104: the integer that a value writes. -/
def fitsIntOf (v : Bytes) : Option Int :=
  let neg := v.head? == some 0x2D
  let ds := digits (if neg || v.head? == some 0x2B then v.drop 1 else v)
  if ds.isEmpty then none else some (if neg then -(digitsNat ds : Int) else digitsNat ds)

/-- R104: the integer value of a keyword. -/
def fitsInt (b : Bytes) (n : Nat) (key : String) : Option Int := (fitsValue b n key).bind fitsIntOf

/-- R105: the real number that a value writes: whether it is negative, its digits, and the power of ten of the last digit. -/
def fitsRealOf (v : Bytes) : Option (Bool × Nat × Int) :=
  let neg := v.head? == some 0x2D
  let v := if neg || v.head? == some 0x2B then v.drop 1 else v
  let i := digits v
  let r := v.drop i.length
  let f := if r.head? == some 0x2E then digits (r.drop 1) else []
  let e := if r.head? == some 0x2E then r.drop (1 + f.length) else r
  let x : Int := if e.head? == some 0x45 || e.head? == some 0x44 then (fitsIntOf (e.drop 1)).getD 0 else 0
  if (i ++ f).isEmpty then none else some (neg, digitsNat (i ++ f), x - f.length)

/-- R105: whether the real number that a value writes is the integer k. -/
def fitsIs (v : Bytes) (k : Nat) : Bool :=
  match fitsRealOf v with
  | some (neg, m, x) => (!neg || m == 0) && (if 0 ≤ x then m * 10 ^ x.toNat == k else m == k * 10 ^ (-x).toNat)
  | none => false

/-- R105: the binary value of the real number that a value writes, to nearest in 64 bits. (PRESUMED, log entry 15) -/
def fitsReal (v : Bytes) : Option FV :=
  (fitsRealOf v).map fun p =>
    fpDecode fmtFP64 (if 0 ≤ p.2.2 then fpRound fmtFP64 p.1 (p.2.1 * 10 ^ p.2.2.toNat) 1 0
      else fpRound fmtFP64 p.1 p.2.1 (10 ^ (-p.2.2).toNat) 0)

/-- R104: the text that a value writes between quotes, without blanks at its end. -/
def fitsText (v : Bytes) : Option Bytes :=
  if v.head? == some 0x27 then
    some (((v.drop 1).takeWhile fun c => c ≠ 0x27).reverse.dropWhile fun c => c == 0x20).reverse
  else none

/-- R104: whether a logical keyword is T. -/
def fitsTrue (b : Bytes) (n : Nat) (key : String) : Bool := ((fitsValue b n key).map fun v => v.take 1) == some (asciiBytes "T")

/-- R104: the value of a keyword that is a number from 0. -/
def fitsNat (b : Bytes) (n : Nat) (key : String) : Option Nat :=
  match fitsInt b n key with
  | some v => if 0 ≤ v then some v.toNat else none
  | none => none


/-- R104: the values of a keyword with the numbers 1 to k after it. -/
def fitsNats (b : Bytes) (n k : Nat) (key : String) : Option (List Nat) :=
  (List.range k).mapM fun i => fitsNat b n (key ++ toString (i + 1))

/-! ## HDUs -/

/-- R104: what the header of an HDU gives. -/
structure FitsHdu where
  /-- R113: header cards. -/
  cards : Nat
  /-- R113: header bytes, whole blocks of 2,880. -/
  head : Nat
  /-- R104: BITPIX. -/
  bitpix : Int
  /-- R104: axis lengths. -/
  axes : List Nat
  /-- R104: data bytes, whole blocks of 2,880. -/
  data : Nat
  /-- R104: PCOUNT. -/
  pcount : Nat
  /-- R104: a primary HDU or an IMAGE extension. -/
  image : Bool
  /-- R104: a BINTABLE extension with ZIMAGE = T. -/
  tiled : Bool
  /-- R104: random groups. -/
  groups : Bool
  /-- R105: BZERO = 32768 and BSCALE = 1. -/
  offset : Bool
  deriving DecidableEq, Repr

/-- R105: BZERO = 32768 and BSCALE = 1. -/
def fitsOffset (b : Bytes) (n : Nat) : Bool :=
  ((fitsValue b n "BZERO").any fun v => fitsIs v 32768) && ((fitsValue b n "BSCALE").all fun v => fitsIs v 1)

/-- R104, R113, R117: the header of the HDU at the start of the bytes, a primary HDU or an extension. -/
def fitsHdu (prim : Bool) (b : Bytes) : Except Nat FitsHdu := do
  let n ← fitsEnd b 36000 0
  let xt := if (fitsCard b 0).take 10 == asciiBytes "XTENSION= " then (fitsValue b 1 "XTENSION").bind fitsText else none
  match fitsInt b n "BITPIX", fitsNat b n "NAXIS" with
  | some bp, some na =>
    match if 999 < na then none else fitsNats b n na "NAXIS" with
    | none => .error stCorrupt
    | some ax =>
      let groups := prim && ax.head? == some 0 && fitsTrue b n "GROUPS"
      let pc := fitsNat b n "PCOUNT"
      let gc := fitsNat b n "GCOUNT"
      if (!prim && xt.isNone) || ((!prim || groups) && (pc.isNone || gc.isNone)) then .error stCorrupt
      else
        let ps := if groups then ax.drop 1 else ax
        let pixels := if ax.isEmpty then 0 else ps.foldl (fun x y => x * y) 1
        let elems := if prim && !groups then pixels else gc.getD 1 * (pc.getD 0 + pixels)
        .ok { cards := n, head := roundUp (80 * n) 2880, bitpix := bp, axes := ax, data := roundUp (bp.natAbs / 8 * elems) 2880,
              pcount := pc.getD 0, image := prim || xt == some (asciiBytes "IMAGE"),
              tiled := xt == some (asciiBytes "BINTABLE") && fitsTrue b n "ZIMAGE", groups := groups, offset := fitsOffset b n }
  | _, _ => .error stCorrupt

/-- R102: an HDU that holds image data. -/
def FitsHdu.holds (h : FitsHdu) : Bool := h.tiled || (h.image && !h.groups && !h.axes.isEmpty && !h.axes.contains 0)

/-- R102, R112: the HDU to decode: its bytes and header, after passing over at most 64. -/
def fitsFind (want : Nat) : Nat → Nat → Bytes → Except Nat (Bytes × FitsHdu)
  | 0, _, _ => .error stUnsupported
  | f + 1, i, b => do
    let h ← fitsHdu (i == 0) b
    if (want = 0xFFFF && h.holds) || want = i then .ok (b, h)
    else if b.length ≤ h.head + h.data then .error stTruncated
    else fitsFind want f (i + 1) (b.drop (h.head + h.data))

/-! ## Plain images (R105) -/

/-- R105: BITPIX 16 whose samples are marked unsigned. -/
def FitsHdu.unsigned (h : FitsHdu) : Bool := h.bitpix == 16 && h.offset

/-- R105: one stored value of a plain image as a sample's code. -/
def fitsSample (h : FitsHdu) (data : Bytes) (i : Nat) : Nat :=
  let n := h.bitpix.natAbs / 8
  let v := beAt data (n * i) n
  if h.bitpix = -64 then fpEncode fmtFP32 (fpDecode fmtFP64 v)
  else if h.unsigned then (if v.testBit 15 then v - 32768 else v + 32768)
  else v

/-- R105, R115: depth, kind and bytes of samples with a BITPIX, `float`: given as FP32. -/
def fitsKind (bitpix : Int) (unsigned float : Bool) : Nat × Nat × Nat :=
  if bitpix = 8 then (8, 0, 1)
  else if bitpix = 16 then (16, if unsigned then 0 else 1, 2)
  else (32, if float then 2 else 1, 4)

/-! ## Tile-compressed images (R104, R105, R112, R114, R117) -/

/-- A column of a binary table: name, offset in a row, letter of its type, and letter of the elements an array descriptor points to. -/
structure FitsColumn where
  /-- TTYPEn. -/
  name : Bytes
  /-- Offset in a row. -/
  off : Nat
  /-- Letter of TFORMn. -/
  letter : Byte
  /-- Letter after P or Q. -/
  elem : Byte
  deriving DecidableEq, Repr

/-- Bytes of an element of a table column, by the letter of its type; bits are counted apart. -/
def fitsElem (l : Byte) : Nat :=
  match l.toNat with
  | 0x49 => 2
  | 0x4A => 4
  | 0x45 => 4
  | 0x4B => 8
  | 0x44 => 8
  | 0x43 => 8
  | 0x50 => 8
  | 0x4D => 16
  | 0x51 => 16
  | _ => 1

/-- The columns i + 1 to TFIELDS of a table, from offset `off` of a row. -/
def fitsColumns (b : Bytes) (n : Nat) : Nat → Nat → Nat → Option (List FitsColumn)
  | 0, _, _ => some []
  | k + 1, i, off =>
    match (fitsValue b n ("TFORM" ++ toString (i + 1))).bind fitsText with
    | none => none
    | some v =>
      let ds := digits v
      let rep := if ds.isEmpty then 1 else digitsNat ds
      let l := (v.drop ds.length).headD 0
      let w := if l = 0x58 then ceilDiv rep 8 else rep * fitsElem l
      (fitsColumns b n k (i + 1) (off + w)).map fun r =>
        { name := ((fitsValue b n ("TTYPE" ++ toString (i + 1))).bind fitsText).getD [], off := off, letter := l,
          elem := (v.drop (ds.length + 1)).headD 0 } :: r

/-- R104: what the header of a tile-compressed image gives. -/
structure FitsTiled where
  /-- ZBITPIX. -/
  bitpix : Int
  /-- ZNAXISn. -/
  axes : List Nat
  /-- ZTILEn. -/
  tile : List Nat
  /-- ZCMPTYPE: 0 RICE_1, 1 GZIP_1, 2 PLIO_1, 3 NOCOMPRESS; 4 another. -/
  comp : Nat
  /-- R114: BYTEPIX. -/
  bytepix : Nat
  /-- R114: BLOCKSIZE. -/
  blocksize : Nat
  /-- ZQUANTIZ: 0 NO_DITHER, 1 SUBTRACTIVE_DITHER_1; 2 another. -/
  quant : Nat
  /-- ZDITHER0. -/
  seed : Nat
  /-- Bytes of a table row. -/
  row : Nat
  /-- Table rows. -/
  rows : Nat
  /-- Offset of the heap in the data. -/
  theap : Nat
  /-- R114: declared bytes of the heap. -/
  heap : Nat
  /-- The columns of the table. -/
  cols : List FitsColumn
  deriving DecidableEq, Repr

/-- R105: a floating-point image, whose tiles hold quantised integers. -/
def FitsTiled.float (t : FitsTiled) : Bool := decide (t.bitpix < 0)

/-- Bytes of a pixel as GZIP_1 and NOCOMPRESS store it. (DESIGN CHOICE, log entry 163) -/
def FitsTiled.pixel (t : FitsTiled) : Nat := if t.float then 4 else t.bitpix.natAbs / 8

/-- A column by name. -/
def FitsTiled.col (t : FitsTiled) (name : String) : Option FitsColumn := t.cols.find? fun c => c.name == asciiBytes name

/-- The compression parameter of a name among ZNAMEi and ZVALi. -/
def fitsParam (b : Bytes) (n : Nat) (name : String) (dflt : Nat) : Nat :=
  match (List.range 9).find? fun i => (fitsValue b n ("ZNAME" ++ toString (i + 1))).bind fitsText == some (asciiBytes name) with
  | some i => (fitsNat b n ("ZVAL" ++ toString (i + 1))).getD dflt
  | none => dflt

/-- R113, R117: step 2 for a tile-compressed image: its header, mandatory keywords present and whole. (PRESUMED, log entry 15) -/
def fitsTiledHdr (b : Bytes) (h : FitsHdu) : Except Nat FitsTiled :=
  let n := h.cards
  let o : Option FitsTiled := do
    let bp ← fitsInt b n "ZBITPIX"
    let na ← fitsNat b n "ZNAXIS"
    let ax ← if 999 < na then none else fitsNats b n na "ZNAXIS"
    let cmp ← (fitsValue b n "ZCMPTYPE").bind fitsText
    let nf ← fitsNat b n "TFIELDS"
    let cols ← if 999 < nf then none else fitsColumns b n nf 0 0
    let row ← h.axes[0]?
    let rows ← h.axes[1]?
    let tile := (List.range na).map fun i => (fitsNat b n ("ZTILE" ++ toString (i + 1))).getD (if i = 0 then ax.getD 0 0 else 1)
    let theap := (fitsNat b n "THEAP").getD (row * rows)
    let comp := if cmp = asciiBytes "RICE_1" || cmp = asciiBytes "RICE_ONE" then 0 else if cmp = asciiBytes "GZIP_1" then 1
      else if cmp = asciiBytes "PLIO_1" then 2 else if cmp = asciiBytes "NOCOMPRESS" then 3 else 4
    let quant := match fitsValue b n "ZQUANTIZ" with
      | none => 0
      | some v => if fitsText v = some (asciiBytes "NO_DITHER") then 0
        else if fitsText v = some (asciiBytes "SUBTRACTIVE_DITHER_1") then 1 else 2
    let seed := (fitsNat b n "ZDITHER0").getD 0
    let t : FitsTiled := { bitpix := bp, axes := ax, tile := tile, comp := comp, bytepix := fitsParam b n "BYTEPIX" 4, blocksize := fitsParam b n "BLOCKSIZE" 32,
                           quant := quant, seed := seed, row := row, rows := rows, theap := theap,
                           heap := row * rows + h.pcount - theap, cols := cols }
    if ax.contains 0 || tile.contains 0 || (t.col "COMPRESSED_DATA").isNone || theap < row * rows ||
        (bp < 0 && quant == 1 && !(1 ≤ seed && seed ≤ 10000)) ||
        rows ≠ ((ax.zip tile).map fun p => ceilDiv p.1 p.2).foldl (fun x y => x * y) 1 then none
    else some t
  match o with
  | some t => .ok (if t.comp = 0 then t else { t with bytepix := t.pixel })
  | none => .error stCorrupt

/-- R104: whether ZSCALE or ZZERO is there, as a column or a keyword. -/
def fitsHas (b : Bytes) (h : FitsHdu) (t : FitsTiled) (key : String) : Bool := (t.col key).isSome || (fitsValue b h.cards key).isSome

/-- R104, R112: step 3 for a tile-compressed image. -/
def fitsTiledOk (b : Bytes) (h : FitsHdu) (t : FitsTiled) : Bool :=
  (t.axes.length == 2 || (t.axes.length == 3 && decide (t.axes.getD 2 0 ≤ 4))) && decide (t.axes.getD 0 0 ≤ 16384) &&
  decide (t.axes.getD 1 0 ≤ 16384) && (t.bitpix == 8 || t.bitpix == 16 || t.bitpix == 32 || t.bitpix == -32 || t.bitpix == -64) &&
  decide (t.comp < 4) &&
  (t.comp ≠ 0 || ((t.blocksize == 16 || t.blocksize == 32) && (t.bytepix == 1 || t.bytepix == 2 || t.bytepix == 4))) &&
  (!t.float || (decide (t.quant < 2) && fitsHas b h t "ZSCALE" && fitsHas b h t "ZZERO")) && decide (t.rows ≤ 1048576)

/-- The extent of a tile in one direction: `i` tiles of `tile` pixels precede it among `n` pixels. -/
def tileExtent (n tile i : Nat) : Nat := min tile (n - i * tile)

/-- The three directions of an image or tile: missing ones have one pixel. -/
def FitsTiled.dim (t : FitsTiled) (i : Nat) : Nat × Nat := (t.axes.getD i 1, t.tile.getD i 1)

/-- Tiles across the image in a direction. -/
def FitsTiled.across (t : FitsTiled) (i : Nat) : Nat := ceilDiv (t.dim i).1 (t.dim i).2

/-- The extents of tile r in the three directions. -/
def FitsTiled.extent (t : FitsTiled) (r : Nat) : Nat × Nat × Nat :=
  let nx := t.across 0
  let ny := t.across 1
  (tileExtent (t.dim 0).1 (t.dim 0).2 (r % nx), tileExtent (t.dim 1).1 (t.dim 1).2 (r / nx % ny),
    tileExtent (t.dim 2).1 (t.dim 2).2 (r / nx / ny))

/-- R114: n of each tile. -/
def FitsTiled.counts (t : FitsTiled) : List Nat :=
  (List.range t.rows).map fun r => (t.extent r).1 * (t.extent r).2.1 * (t.extent r).2.2

/-- R114: L_min of a compressed image. -/
def fitsTiledMin (comp bytepix blocksize : Nat) (tiles : List Nat) : Nat :=
  let f := if bytepix = 1 then 3 else if bytepix = 2 then 4 else 5
  match comp with
  | 0 => (tiles.map fun n => ceilDiv (8 * bytepix + f * ceilDiv n blocksize) 8).sum
  | 1 => (tiles.map fun n => 18 + n * bytepix / 1032).sum
  | 2 => 6 * tiles.length
  | _ => (tiles.map fun n => n * bytepix).sum

/-- R114: heap bytes present. -/
def FitsTiled.present (t : FitsTiled) (data : Bytes) : Nat := min t.heap (data.length - t.theap)

/-- R117: the compressed bytes of tile r. A tile that its row keeps in another column is not supported. (DESIGN CHOICE, log entry 163) -/
def FitsTiled.bytes (t : FitsTiled) (data : Bytes) (r : Nat) : Except Nat Bytes :=
  match t.col "COMPRESSED_DATA" with
  | none => .error stCorrupt
  | some c =>
    let w := if c.letter = 0x51 then 8 else 4
    let o := t.row * r + c.off
    if c.letter ≠ 0x50 && c.letter ≠ 0x51 then .error stUnsupported
    else if data.length < o + 2 * w then .error stTruncated
    else
      let n := beAt data o w * fitsElem c.elem
      let at' := beAt data (o + w) w
      if n = 0 then .error stUnsupported
      else if t.heap < at' + n then .error stCorrupt
      else if data.length < t.theap + at' + n then .error stTruncated
      else .ok ((data.drop (t.theap + at')).take n)

/-- R104, R117: the n integers of a tile. -/
def FitsTiled.values (t : FitsTiled) (n : Nat) (b : Bytes) : Except Nat (List Int) :=
  match t.comp with
  | 0 => unrice t.bytepix t.blocksize n b
  | 2 => unplio n b
  | c => do
    let raw ← if c = 1 then gunzip b else .ok b
    if raw.length ≠ n * t.pixel then .error stCorrupt else .ok (beValues t.pixel raw)

/-! ### Dithering and reconstruction (R105) -/

/-- The n-th state of the generator of the dither values. (PRESUMED, log entry 15) -/
def ditherState : Nat → Nat
  | 0 => 1
  | n + 1 => 16807 * ditherState n % 2147483647

/-- The dither value of number i, from 0: a binary32 number. -/
def ditherValue (i : Nat) : FV :=
  fpDecode fmtFP32 (fpEncode fmtFP32 (fpDecode fmtFP64 (fpRound fmtFP64 false (ditherState (i + 1)) 2147483647 0)))

/-- Where the dither values of seed i begin. -/
def ditherStart (i : Nat) : Nat :=
  match ditherValue i with
  | .fin _ m e => magnitudeTrunc (500 * m) e
  | _ => 0

/-- The numbers of the dither values of n pixels: seed i, with value `next` first. -/
def ditherNumbers : Nat → Nat → Nat → List Nat
  | 0, _, _ => []
  | n + 1, i, next =>
    let j := if next + 1 = 10000 then (i + 1) % 10000 else i
    next :: ditherNumbers n j (if next + 1 = 10000 then ditherStart j else next + 1)

/-- R105: the FP32 code of a quantised value: the expression is exact and rounded once; a null is the canonical NaN. -/
def fitsQuantised (scale zero : FV) (dither : Option FV) (null : Option Int) (q : Int) : Nat :=
  if null = some q then fmtFP32.nan
  else
    let x := match dither with
      | some r => ((intFV q).add r.negate).add (.fin false 1 (-1))
      | none => intFV q
    fpEncode fmtFP32 ((x.mul scale).add zero)

/-- R105: ZSCALE or ZZERO of tile r: its column, or else its keyword. -/
def fitsScale (b : Bytes) (h : FitsHdu) (t : FitsTiled) (key : String) (r : Nat) : FV :=
  match t.col key with
  | some c =>
    let o := h.head + t.row * r + c.off
    if c.letter = 0x45 then fpDecode fmtFP32 (beAt b o 4) else fpDecode fmtFP64 (beAt b o 8)
  | none => ((fitsValue b h.cards key).bind fitsReal).getD (.fin false 0 0)

/-- R105: the value that stands for a null in tile r. -/
def fitsNull (b : Bytes) (h : FitsHdu) (t : FitsTiled) (r : Nat) : Option Int :=
  match t.col "ZBLANK" with
  | some c =>
    let w := fitsElem c.letter
    some (toSigned (8 * w) (beAt b (h.head + t.row * r + c.off) w))
  | none => fitsInt b h.cards "ZBLANK"

/-- R105: the sample codes of tile r from its integers. -/
def fitsTileCodes (b : Bytes) (h : FitsHdu) (t : FitsTiled) (float : Bool) (r : Nat) (vs : List Int) : List Nat :=
  if float then
    let i := (r + t.seed - 1) % 10000
    let ds := if t.quant = 1 then (ditherNumbers vs.length i (ditherStart i)).map fun k => some (ditherValue k)
      else vs.map fun _ => none
    (vs.zip ds).map fun p => fitsQuantised (fitsScale b h t "ZSCALE" r) (fitsScale b h t "ZZERO" r) p.2 (fitsNull b h t r) p.1
  else if t.bitpix = 8 then vs.map (ofSigned 8)
  else if t.bitpix = 16 then vs.map fun v => ofSigned 16 (if h.offset then v + 32768 else v)
  else vs.map (ofSigned 32)

/-- R105, R117: the planes of a tile-compressed image. (PRESUMED, log entry 15) -/
def fitsTiledPlanes (b : Bytes) (h : FitsHdu) (t : FitsTiled) (float : Bool) : Except Nat (List (List Nat)) := do
  let data := b.drop h.head
  let tiles ← (t.counts.zipIdx).mapM fun p => do
    let bs ← t.bytes data p.2
    let vs ← t.values p.1 bs
    .ok (fitsTileCodes b h t float p.2 vs).toArray
  let ts := tiles.toArray
  .ok ((List.range (t.dim 2).1).map fun z => (List.range (t.dim 1).1).flatMap fun y => (List.range (t.dim 0).1).map fun x =>
    let r := (z / (t.dim 2).2 * t.across 1 + y / (t.dim 1).2) * t.across 0 + x / (t.dim 0).2
    let e := t.extent r
    (ts.getD r #[]).getD ((z % (t.dim 2).2 * e.2.1 + y % (t.dim 1).2) * e.1 + x % (t.dim 0).2) 0)

end Sys2Proof.Machine
end

