-- ==== Sys2Proof/Machine/Jpeg.lean ====
section
/-! DEFINITION. JPEG inputs (R104, R106, R112 to R117): segments, the scans of the sequential and progressive processes, and
reconstruction. The coding itself is that of ITU-T T.81, which the spec names without restating it. -/

namespace Sys2Proof.Machine

/-! ## Segments -/

/-- R104: a component of the frame. -/
structure JComp where
  /-- Its identifier. -/
  id : Nat
  /-- R104: sampling factor across. -/
  h : Nat
  /-- R104: sampling factor down. -/
  v : Nat
  /-- R106: its quantiser table. -/
  tq : Nat
  deriving DecidableEq, Repr

/-- R104: what the segments of a JPEG input have given so far. -/
structure JpegHdr where
  /-- R104: the SOF marker; 0 before it. -/
  sof : Nat := 0
  /-- R104: sample precision. -/
  prec : Nat := 0
  /-- R104: width. -/
  w : Nat := 0
  /-- R104: height. -/
  h : Nat := 0
  /-- R104: the components. -/
  comps : List JComp := []
  /-- R112: DHT and DQT segments so far. -/
  tables : Nat := 0
  /-- R104, R112: a segment that is not supported, or one too many. -/
  bad : Bool := false
  /-- R106: the quantiser tables, in zigzag order. -/
  quants : Tbl (List Nat) := []
  /-- R117: the Huffman codes, by 16 × class + destination. -/
  codes : Tbl (List CodeRow) := []
  /-- R117: MCUs between restart markers; 0 without them. -/
  restart : Nat := 0
  deriving DecidableEq, Repr

/-- R104: the SOFn markers, the DHT, JPG and DAC codes of that range apart. -/
def isSof (m : Nat) : Bool := 0xC0 ≤ m && m ≤ 0xCF && m ≠ 0xC4 && m ≠ 0xC8 && m ≠ 0xCC

/-- R113: the next marker, its segment and what follows. -/
def jpegMarker (b : Bytes) : Except Nat (Nat × Bytes × Bytes) :=
  match b with
  | [] => .error stTruncated
  | x :: r =>
    if x ≠ 0xFF then .error stCorrupt
    else
      match r.dropWhile fun y => y == 0xFF with
      | [] => .error stTruncated
      | y :: r =>
        let m := y.toNat
        if m = 0xD9 || m = 1 then .ok (m, [], r)
        else if m = 0 || (0xD0 ≤ m && m ≤ 0xD8) then .error stCorrupt
        else
          let n := beAt r 0 2
          if r.length < 2 || r.length < n then .error stTruncated
          else if n < 2 then .error stCorrupt
          else .ok (m, (r.drop 2).take (n - 2), r.drop n)

/-- R106: the tables of a DQT segment. -/
def jpegQuants : Nat → Bytes → Tbl (List Nat) → Except Nat (Tbl (List Nat))
  | 0, _, _ => .error stCorrupt
  | f + 1, b, t =>
    match b with
    | [] => .ok t
    | x :: r =>
      let n := x.toNat / 16 + 1
      let q := (List.range 64).map fun i => beAt r (n * i) n
      if 2 < n || 3 < x.toNat % 16 || r.length < 64 * n || q.contains 0 then .error stCorrupt
      else jpegQuants f (r.drop (64 * n)) (t.set (x.toNat % 16) q)

/-- R117: the codes of a DHT segment. -/
def jpegCodes : Nat → Bytes → Tbl (List CodeRow) → Except Nat (Tbl (List CodeRow))
  | 0, _, _ => .error stCorrupt
  | f + 1, b, t =>
    match b with
    | [] => .ok t
    | x :: r =>
      let counts := (r.take 16).map BitVec.toNat
      let lens := counts.zipIdx.flatMap fun p => List.replicate p.1 (p.2 + 1)
      let syms := ((r.drop 16).take lens.length).map BitVec.toNat
      if 1 < x.toNat / 16 || 3 < x.toNat % 16 || r.length < 16 + lens.length || 256 < lens.length || 2 ^ 16 < codeSpace lens then
        .error stCorrupt
      else jpegCodes f (r.drop (16 + lens.length)) (t.set x.toNat (codeRows 0 0 (lens.zip syms)))

/-- R104: the frame that a SOF segment declares. -/
def jpegFrame (m : Nat) (seg : Bytes) (hd : JpegHdr) : Except Nat JpegHdr :=
  let n := fieldAt seg 5 1
  if seg.length < 6 || seg.length < 6 + 3 * n then .error stCorrupt
  else .ok { hd with
    sof := m, prec := fieldAt seg 0 1, h := beAt seg 1 2, w := beAt seg 3 2,
    comps := (List.range n).map fun c =>
      { id := fieldAt seg (6 + 3 * c) 1, h := fieldAt seg (7 + 3 * c) 1 / 16, v := fieldAt seg (7 + 3 * c) 1 % 16,
        tq := fieldAt seg (8 + 3 * c) 1 } }

/-- R104, R112: the effect of a segment other than a scan. -/
def jpegSegment (m : Nat) (seg : Bytes) (hd : JpegHdr) : Except Nat JpegHdr :=
  if m = 0xC4 || m = 0xDB then
    let hd := { hd with tables := hd.tables + 1, bad := hd.bad || decide (64 ≤ hd.tables) }
    if m = 0xDB then (jpegQuants (seg.length + 1) seg hd.quants).map fun q => { hd with quants := q }
    else (jpegCodes (seg.length + 1) seg hd.codes).map fun c => { hd with codes := c }
  else if m = 0xDD then (if seg.length = 2 then .ok { hd with restart := beAt seg 0 2 } else .error stCorrupt)
  else if (0xE0 ≤ m && m ≤ 0xEF) || m = 0xFE then .ok hd
  else .ok { hd with bad := true }

/-- R113: segments up to the first marker that `stop` names: what they give, that marker, its segment and what follows. With `strict`
a segment that is not supported ends the walk where it stands (R112). (DESIGN CHOICE, log entry 163) -/
def jpegTo (stop : Nat → Bool) (strict : Bool) : Nat → Bytes → JpegHdr → Except Nat (JpegHdr × Nat × Bytes × Bytes)
  | 0, _, _ => .error stCorrupt
  | f + 1, b, hd => do
    let (m, seg, rest) ← jpegMarker b
    if stop m then .ok (hd, m, seg, rest)
    else
      let hd ← jpegSegment m seg hd
      if strict && hd.bad then .error stUnsupported else jpegTo stop strict f rest hd

/-! ## Dimensions -/

/-- R104: CHROMA of the sampling factors: 0 for 4:4:4 and grey, 2 for 4:2:2, 1 for 4:2:0; none when unsupported. -/
def jpegChroma (comps : List JComp) : Option Nat :=
  match comps.map fun c => (c.h, c.v) with
  | [_] => some 0
  | [(1, 1), (1, 1), (1, 1)] => some 0
  | [(2, 1), (1, 1), (1, 1)] => some 2
  | [(2, 2), (1, 1), (1, 1)] => some 1
  | _ => none

/-- The greatest sampling factors, across and down. -/
def JpegHdr.most (hd : JpegHdr) : Nat × Nat := ((hd.comps.map JComp.h).foldl max 1, (hd.comps.map JComp.v).foldl max 1)

/-- R114: the 8 × 8 blocks of a component, across and down. -/
def JpegHdr.blocks (hd : JpegHdr) (c : JComp) : Nat × Nat :=
  (ceilDiv (ceilDiv (hd.w * c.h) hd.most.1) 8, ceilDiv (ceilDiv (hd.h * c.v) hd.most.2) 8)

/-- R114: B, the 8 × 8 blocks of the image. -/
def jpegB (hd : JpegHdr) : Nat := (hd.comps.map fun c => (hd.blocks c).1 * (hd.blocks c).2).sum

/-- MCUs of an interleaved scan, across and down. -/
def JpegHdr.mcus (hd : JpegHdr) : Nat × Nat := (ceilDiv hd.w (8 * hd.most.1), ceilDiv hd.h (8 * hd.most.2))

/-- Blocks a component holds in a row, whole MCUs. -/
def JpegHdr.stride (hd : JpegHdr) (c : JComp) : Nat := hd.mcus.1 * c.h

/-! ## Scans (R104, R112, R117) -/

/-- The header of a scan. -/
structure JScan where
  /-- Component number, DC table and AC table of each component. -/
  parts : List (Nat × Nat × Nat)
  /-- First coefficient, in zigzag order. -/
  ss : Nat
  /-- Last coefficient. -/
  se : Nat
  /-- Successive approximation: the bit position before this scan. -/
  ah : Nat
  /-- Successive approximation: the bit position of this scan. -/
  al : Nat
  deriving DecidableEq, Repr

/-- R117: the header of a scan, within the ranges that its process gives. -/
def jpegScanHdr (hd : JpegHdr) (seg : Bytes) : Except Nat JScan :=
  let n := fieldAt seg 0 1
  let parts := (List.range n).map fun i =>
    (hd.comps.findIdx fun c => c.id == fieldAt seg (1 + 2 * i) 1, fieldAt seg (2 + 2 * i) 1 / 16, fieldAt seg (2 + 2 * i) 1 % 16)
  let o := 1 + 2 * n
  let sc : JScan := { parts := parts, ss := fieldAt seg o 1, se := fieldAt seg (o + 1) 1, ah := fieldAt seg (o + 2) 1 / 16,
                      al := fieldAt seg (o + 2) 1 % 16 }
  let most := if hd.sof = 0xC0 then 1 else 3
  let range := if hd.sof = 0xC2 then
      sc.al ≤ 13 && (sc.ah == 0 || sc.ah == sc.al + 1) &&
      (if sc.ss = 0 then sc.se == 0 else decide (sc.ss ≤ sc.se) && decide (sc.se ≤ 63) && n == 1)
    else sc.ss == 0 && sc.se == 63 && sc.ah == 0 && sc.al == 0
  if seg.length = 4 + 2 * n && 1 ≤ n && n ≤ 4 && range && (parts.map Prod.fst).dedup.length == n &&
      (parts.all fun p => p.1 < hd.comps.length && p.2.1 ≤ most && p.2.2 ≤ most) then .ok sc
  else .error stCorrupt

/-- The entropy-coded bytes up to the next marker, without the zero that follows a data byte FF, and what stands there. -/
def jpegData : Bytes → Bytes × Bytes
  | [] => ([], [])
  | [x] => if x = 0xFF then ([], [x]) else ([x], [])
  | x :: y :: r =>
    if x = 0xFF then
      (if y = 0 then
        let p := jpegData r
        (x :: p.1, p.2)
       else ([], x :: y :: r))
    else
      let p := jpegData (y :: r)
      (x :: p.1, p.2)

/-- The number that the s bits v of a difference or coefficient stand for. -/
def jpegExtend (s v : Nat) : Int := if v < 2 ^ (s - 1) then (v : Int) - (2 ^ s : Nat) + 1 else v

/-- A DC difference. -/
def jpegDc (dc : List CodeRow) (r : List Bool) : Except Nat (Int × List Bool) := do
  let (t, r) ← readSym dc 16 0 0 r
  if 15 < t then .error stCorrupt
  else if t = 0 then .ok (0, r)
  else
    let (v, r) ← takeHigh t r
    .ok (jpegExtend t v, r)

/-- R117: AC coefficients from k up to `se`, each times 2^al, of a first coding: the block, and the run of blocks without further
coefficients that begins with this one. `runs`: such a run may be longer than one block. -/
def jpegAc (ac : List CodeRow) (se al : Nat) (runs : Bool) :
    Nat → Nat → List Int → List Bool → Except Nat (List Int × Nat × List Bool)
  | 0, _, _, _ => .error stCorrupt
  | f + 1, k, c, r =>
    if se + 1 < k then .error stCorrupt
    else if se < k then .ok (c, 0, r)
    else do
      let (x, r) ← readSym ac 16 0 0 r
      let n := x / 16
      let s := x % 16
      if s ≠ 0 then
        if se < k + n then .error stCorrupt
        else
          let (v, r) ← takeHigh s r
          jpegAc ac se al runs f (k + n + 1) (c.set (k + n) (jpegExtend s v * 2 ^ al)) r
      else if n = 15 then jpegAc ac se al runs f (k + 16) c r
      else if n ≠ 0 && !runs then .error stCorrupt
      else
        let (v, r) ← takeHigh n r
        .ok (c, 2 ^ n + v, r)

/-- A refinement passes over n zero coefficients from k: every other one on the way takes its correction bit. -/
def jpegCorrect (se al : Nat) : Nat → Nat → Nat → List Int → List Bool → Except Nat (Nat × List Int × List Bool)
  | 0, _, _, _, _ => .error stCorrupt
  | f + 1, k, n, c, r =>
    let v := c.getD k 0
    if se < k then .ok (k, c, r)
    else if v = 0 then (if n = 0 then .ok (k, c, r) else jpegCorrect se al f (k + 1) (n - 1) c r)
    else do
      let (x, r) ← takeHigh 1 r
      jpegCorrect se al f (k + 1) n (if x = 1 then c.set k (if v < 0 then v - 2 ^ al else v + 2 ^ al) else c) r

/-- R117: the refinement of AC coefficients from k. -/
def jpegRefine (ac : List CodeRow) (se al : Nat) :
    Nat → Nat → List Int → List Bool → Except Nat (List Int × Nat × List Bool)
  | 0, _, _, _ => .error stCorrupt
  | f + 1, k, c, r =>
    if se < k then .ok (c, 0, r)
    else do
      let (x, r) ← readSym ac 16 0 0 r
      let n := x / 16
      let s := x % 16
      if 1 < s then .error stCorrupt
      else if s = 0 && n ≠ 15 then
        let (v, r) ← takeHigh n r
        let (_, c, r) ← jpegCorrect se al 65 k 64 c r
        .ok (c, 2 ^ n + v, r)
      else
        let (sign, r) ← takeHigh s r
        let (k, c, r) ← jpegCorrect se al 65 k n c r
        if se < k then .error stCorrupt
        else jpegRefine ac se al f (k + 1) (if s = 1 then c.set k (if sign = 1 then 2 ^ al else -2 ^ al) else c) r

/-- What the decoding of a scan holds between blocks. -/
structure JRun where
  /-- Bits still to come in the interval. -/
  run : List Bool
  /-- Blocks still to come without further coefficients. -/
  eob : Nat
  /-- The DC prediction of each component. -/
  preds : List Int
  /-- The coefficients of each block of each component, in zigzag order. -/
  blocks : List (Array (List Int))

/-- R104: one block of a scan: its coefficients, run of ended blocks, DC prediction and the bits after it. -/
def jpegBlock (prog : Bool) (sc : JScan) (dc ac : List CodeRow) (eob : Nat) (pred : Int) (c : List Int) (r : List Bool) :
    Except Nat (List Int × Nat × Int × List Bool) :=
  if !prog then do
    let (d, r) ← jpegDc dc r
    let (c, _, r) ← jpegAc ac 63 0 false 65 1 (c.set 0 (pred + d)) r
    .ok (c, 0, pred + d, r)
  else if sc.ss = 0 then
    if sc.ah = 0 then do
      let (d, r) ← jpegDc dc r
      .ok (c.set 0 ((pred + d) * 2 ^ sc.al), 0, pred + d, r)
    else do
      let (x, r) ← takeHigh 1 r
      .ok (if x = 1 then c.set 0 (c.getD 0 0 + 2 ^ sc.al) else c, 0, pred, r)
  else if sc.ah = 0 then
    if 0 < eob then .ok (c, eob - 1, pred, r)
    else do
      let (c, e, r) ← jpegAc ac sc.se sc.al true 65 sc.ss c r
      .ok (c, e - 1, pred, r)
  else if 0 < eob then do
    let (_, c, r) ← jpegCorrect sc.se sc.al 65 sc.ss 64 c r
    .ok (c, eob - 1, pred, r)
  else do
    let (c, e, r) ← jpegRefine ac sc.se sc.al 65 sc.ss c r
    .ok (c, e - 1, pred, r)

/-- The blocks of each MCU of a scan, as part of the scan and place in its component. -/
def jpegMcus (hd : JpegHdr) (sc : JScan) : List (List (Nat × Nat)) :=
  let comp (p : Nat × Nat × Nat) : JComp := hd.comps.getD p.1 ⟨0, 0, 0, 0⟩
  match sc.parts with
  | [p] =>
    let c := comp p
    (List.range (hd.blocks c).2).flatMap fun y => (List.range (hd.blocks c).1).map fun x => [(0, y * hd.stride c + x)]
  | ps =>
    (List.range hd.mcus.2).flatMap fun my => (List.range hd.mcus.1).map fun mx =>
      ps.zipIdx.flatMap fun p =>
        let c := comp p.1
        (List.range c.v).flatMap fun y => (List.range c.h).map fun x => (p.2, (my * c.v + y) * hd.stride c + mx * c.h + x)

/-- R104: one block of one part of a scan. -/
def jpegStep (hd : JpegHdr) (sc : JScan) (st : JRun) (u : Nat × Nat) : Except Nat JRun :=
  let p := sc.parts.getD u.1 (0, 0, 0)
  let bs := st.blocks.getD p.1 #[]
  do
    let (c, e, d, r) ← jpegBlock (hd.sof == 0xC2) sc (hd.codes.get [] p.2.1) (hd.codes.get [] (16 + p.2.2)) st.eob
      (st.preds.getD p.1 0) (bs.getD u.2 []) st.run
    .ok { run := r, eob := e, preds := st.preds.set p.1 d, blocks := st.blocks.set p.1 (bs.setIfInBounds u.2 c) }

/-- A list cut into cutEvery of n elements, or whole where n is 0. -/
def cutEvery {α : Type} (n : Nat) : Nat → List α → List (List α)
  | 0, l => [l]
  | f + 1, l => if n = 0 || l.length ≤ n then [l] else l.take n :: cutEvery n f (l.drop n)

/-- R117: the intervals of a scan, the first with number i: the blocks, the bits left over at the end, and the bytes from the
next marker. -/
def jpegIntervals (hd : JpegHdr) (sc : JScan) :
    List (List (List (Nat × Nat))) → Nat → Bytes → List (Array (List Int)) →
    Except Nat (List (Array (List Int)) × Nat × Bytes)
  | [], _, b, bs => .ok (bs, 0, b)
  | iv :: more, i, b, bs =>
    let (data, rest) := jpegData b
    let ends := decide (rest.length < 2)
    match iv.flatten.foldlM (jpegStep hd sc)
        { run := bitsHigh data, eob := 0, preds := hd.comps.map fun _ => 0, blocks := bs } with
    | .error e => .error (if e = stTruncated && !ends then stCorrupt else e)
    | .ok st =>
      if more.isEmpty then .ok (st.blocks, st.run.length, rest)
      else if 8 ≤ st.run.length then .error stCorrupt
      else
        match rest.dropWhile fun x => x == 0xFF with
        | [] => .error stTruncated
        | m :: r => if m.toNat = 0xD0 + i % 8 then jpegIntervals hd sc more (i + 1) r st.blocks else .error stCorrupt

/-- R117: whether the tables that a scan uses are there. -/
def jpegTablesOk (hd : JpegHdr) (sc : JScan) : Bool :=
  sc.parts.all fun p =>
    (hd.quants.find ((hd.comps.getD p.1 ⟨0, 0, 0, 0⟩).tq)).isSome &&
    (hd.sof == 0xC2 && (sc.ss ≠ 0 || sc.ah ≠ 0) || (hd.codes.find p.2.1).isSome) &&
    (hd.sof == 0xC2 && sc.ss == 0 || (hd.codes.find (16 + p.2.2)).isSome)

/-- R112, R117: the scans from the one whose header is `seg`, after n others: the coefficients of each component and its quantiser
entries. A sequential image ends with its last MCU, a progressive one with EOI. (PRESUMED, log entry 15) -/
def jpegScans : Nat → Nat → JpegHdr → Bytes → Bytes → List (Array (List Int)) → Tbl (List Nat) →
    Except Nat (List (Array (List Int)) × Tbl (List Nat))
  | 0, _, _, _, _, _, _ => .error stUnsupported
  | f + 1, n, hd, seg, b, bs, qs =>
    if 64 ≤ n then .error stUnsupported
    else do
      let sc ← jpegScanHdr hd seg
      let seq := hd.sof ≠ 0xC2
      if !jpegTablesOk hd sc || (seq && sc.parts.any fun p => (qs.find p.1).isSome) then .error stCorrupt
      else
        let ms := jpegMcus hd sc
        let (bs, left, rest) ← jpegIntervals hd sc (cutEvery hd.restart ms.length ms) 0 b bs
        let qs := sc.parts.foldl (fun (t : Tbl (List Nat)) p =>
          if (t.find p.1).isSome then t else t.set p.1 (hd.quants.get [] ((hd.comps.getD p.1 ⟨0, 0, 0, 0⟩).tq))) qs
        let all := qs.length == hd.comps.length
        if seq && all then .ok (bs, qs)
        else if 8 ≤ left then .error stCorrupt
        else
          let (hd, m, seg, rest) ← jpegTo (fun m => m == 0xDA || m == 0xD9) true (rest.length + 1) rest hd
          if m = 0xDA then jpegScans f (n + 1) hd seg rest bs qs else if all then .ok (bs, qs) else .error stCorrupt

/-! ## Reconstruction (R106) -/

/-- The place of each coefficient of the zigzag order in a block, row by row. -/
def zigzag : List Nat := [
  0, 1, 8, 16, 9, 2, 3, 10, 17, 24, 32, 25, 18, 11, 4, 5, 12, 19, 26, 33, 40, 48, 41, 34, 27, 20, 13, 6, 7, 14, 21, 28,
  35, 42, 49, 56, 57, 50, 43, 36, 29, 22, 15, 23, 30, 37, 44, 51, 58, 59, 52, 45, 38, 31, 39, 46, 53, 60, 61, 54, 47, 55, 62, 63]

/-- R106: F[v][u], row by row: each coefficient times its quantiser entry. -/
def dequantise (q : List Nat) (c : List Int) : List Int :=
  (List.range 64).map fun i =>
    let k := zigzag.idxOf i
    c.getD k 0 * (q.getD k 0 : Nat)

/-- R106: t[x][u]. -/
def idctTable : List (List Int) := [
  [2896, 4017, 3784, 3406, 2896, 2276, 1567, 799],
  [2896, 3406, 1567, -799, -2896, -4017, -3784, -2276],
  [2896, 2276, -1567, -4017, -2896, 799, 3784, 3406],
  [2896, 799, -3784, -2276, 2896, 3406, -1567, -4017],
  [2896, -799, -3784, 2276, 2896, -3406, -1567, 4017],
  [2896, -2276, -1567, 4017, -2896, -799, 3784, -3406],
  [2896, -3406, 1567, 799, -2896, 4017, -3784, 2276],
  [2896, -4017, 3784, -3406, 2896, -2276, 1567, -799]]

/-- R106: t[x][u]. -/
def idctT (x u : Nat) : Int := (idctTable.getD x []).getD u 0

/-- R106: the samples p[y][x] of a block from F[v][u], both row by row. -/
def idctBlock (prec : Nat) (f : List Int) : List Nat :=
  let lvl : Int := 2 ^ (prec - 1)
  let g := (List.range 8).map fun v => (List.range 8).map fun x =>
    (((List.range 8).map fun u => idctT x u * f.getD (8 * v + u) 0).sum + 1024) / 2 ^ 11
  (List.range 8).flatMap fun y => (List.range 8).map fun x =>
    let s : Int := ((List.range 8).map fun v => idctT y v * (g.getD v []).getD x 0).sum
    (clampInt 0 ((2 ^ prec : Nat) - 1) ((s + 16384) / 2 ^ 15 + lvl)).toNat

/-- R106: a plane of cw × ch samples from its blocks F[v][u], `across` blocks a row. -/
def blocksPlane (prec cw ch across : Nat) (bs : List (List Int)) : List Nat :=
  let px := (bs.map fun b => (idctBlock prec b).toArray).toArray
  (List.range ch).flatMap fun y => (List.range cw).map fun x => (px.getD (y / 8 * across + x / 8) #[]).getD (y % 8 * 8 + x % 8) 0

/-- R106: the planes of a JPEG input from its first scan, whose header is `seg`. -/
def jpegPlanes (hd : JpegHdr) (seg b : Bytes) : Except Nat (List (List Nat)) :=
  let blank : List (Array (List Int)) := hd.comps.map fun c =>
    (List.replicate (hd.stride c * (hd.mcus.2 * c.v)) (List.replicate 64 (0 : Int))).toArray
  (jpegScans 65 0 hd seg b blank []).map fun p =>
    hd.comps.zipIdx.map fun c =>
      let cw := ceilDiv (hd.w * c.1.h) hd.most.1
      let ch := ceilDiv (hd.h * c.1.v) hd.most.2
      blocksPlane hd.prec cw ch (hd.stride c.1) (((p.1.getD c.2 #[]).toList).map (dequantise (p.2.get [] c.2)))

end Sys2Proof.Machine
end

