-- ==== Sys2Proof/Machine/Png.lean ====
section
/-! DEFINITION. PNG inputs (R104, R112 to R117): chunks, filters, interlace, palette and transparency, as ISO/IEC 15948 has them,
which the spec names without restating it. -/

namespace Sys2Proof.Machine

/-! ## Chunks -/

/-- A chunk as far as the input holds it. -/
structure PngChunk where
  /-- Its type, four bytes. -/
  kind : Bytes
  /-- R114: its data bytes present. -/
  data : Bytes
  /-- R117: the status of its length, presence and CRC; none where they are right. -/
  fault : Option Nat
  deriving DecidableEq, Repr

/-- A chunk type without which an image cannot be read. -/
def PngChunk.critical (c : PngChunk) : Bool := !bit (fieldAt c.kind 0 1) 5

/-- R113: the chunks of a PNG input up to IEND or the end of the input. -/
def pngChunks : Nat → Bytes → List PngChunk
  | 0, _ => []
  | f + 1, b =>
    if b.length < 8 then []
    else
      let n := beAt b 0 4
      let t := (b.drop 4).take 4
      let fault :=
        if 2 ^ 31 ≤ n then some stCorrupt
        else if b.length < 12 + n then some stTruncated
        else if !bit (fieldAt t 0 1) 5 && beAt b (8 + n) 4 ≠ crc32 ((b.drop 4).take (4 + n)) then some stCorrupt
        else none
      { kind := t, data := (b.drop 8).take n, fault := fault } ::
        (if t = asciiBytes "IEND" then [] else pngChunks f (b.drop (12 + n)))

/-- Whether a chunk is of a type. -/
def PngChunk.is (c : PngChunk) (t : String) : Bool := c.kind == asciiBytes t

/-- The chunks before the first IDAT. -/
def pngHead (cs : List PngChunk) : List PngChunk := cs.takeWhile fun c => !c.is "IDAT"

/-- R112: chunks before IEND. -/
def pngCount (cs : List PngChunk) : Nat := (cs.filter fun c => !c.is "IEND").length

/-- R104: a critical chunk that is not supported. -/
def PngChunk.unknown (c : PngChunk) : Bool :=
  c.critical && !(c.is "IHDR" || c.is "PLTE" || c.is "IDAT" || c.is "IEND")

/-- R104: the palette of an image. -/
def pngPalette (cs : List PngChunk) : Option Bytes := ((pngHead cs).find? fun c => c.is "PLTE").map PngChunk.data

/-- R104: the data of a tRNS chunk that applies to the colour type. -/
def pngTrns (t : Nat) (cs : List PngChunk) : Option Bytes :=
  let hs := pngHead cs
  let hs := if t = 3 then hs.dropWhile fun c => !c.is "PLTE" else hs
  if t = 0 || t = 2 || t = 3 then (hs.find? fun c => c.is "tRNS").map PngChunk.data else none

/-- R117: the image data up to the first fault of the chunks, and the status of that fault. `phase`: 0 before the first IDAT, 1 in the
IDAT chunks, 2 after them. -/
def pngData (t : Nat) : List PngChunk → Nat → Bool → Bytes × Option Nat
  | [], _, _ => ([], some stTruncated)
  | c :: r, phase, plte =>
    if c.unknown then ([], some stUnsupported)
    else if c.is "IDAT" then
      if phase = 2 then ([], some stCorrupt)
      else
        match c.fault with
        | some e => (c.data, some e)
        | none =>
          let p := pngData t r 1 plte
          (c.data ++ p.1, p.2)
    else if c.fault.isSome then ([], c.fault)
    else
      let phase := if phase = 1 then 2 else phase
      if c.is "IEND" then ([], if phase = 0 || !c.data.isEmpty then some stCorrupt else none)
      else if c.is "IHDR" then ([], some stCorrupt)
      else if c.is "PLTE" then
        (if phase ≠ 0 || plte || t = 0 || t = 4 || c.data.length % 3 ≠ 0 || c.data.isEmpty || 768 < c.data.length then ([], some stCorrupt)
         else pngData t r phase true)
      else pngData t r phase plte

/-! ## Pixels -/

/-- R104: channels of a colour type. -/
def pngChannels (t : Nat) : Nat :=
  match t with
  | 0 => 1
  | 2 => 3
  | 3 => 1
  | 4 => 2
  | _ => 4

/-- R104: planes of a colour type, with the alpha plane that tRNS adds. -/
def pngPlaneCount (t : Nat) (trns : Bool) : Nat := (if t = 3 then 3 else pngChannels t) + if trns then 1 else 0

/-- R104: the passes of an image: first column and row, and steps across and down. -/
def pngPasses (interlace : Nat) : List (Nat × Nat × Nat × Nat) :=
  if interlace = 0 then [(0, 0, 1, 1)]
  else [(0, 0, 8, 8), (4, 0, 8, 8), (0, 4, 4, 8), (2, 0, 4, 4), (0, 2, 2, 4), (1, 0, 2, 2), (0, 1, 1, 2)]

/-- The nearest of the three neighbours to left + up - corner, in that order. -/
def paeth (a b c : Nat) : Nat :=
  let p : Int := (a : Int) + b - c
  let pa := (p - a).natAbs
  let pb := (p - b).natAbs
  let pc := (p - c).natAbs
  if pa ≤ pb && pa ≤ pc then a else if pb ≤ pc then b else c

/-- A row rebuilt from its filtered bytes and the row above. `acc` holds what is rebuilt so far, newest first. -/
def pngRow (bpp kind : Nat) (up : Array Nat) : List Nat → Nat → List Nat → List Nat
  | [], _, acc => acc.reverse
  | x :: r, i, acc =>
    let a := if i < bpp then 0 else acc.getD (bpp - 1) 0
    let b := up.getD i 0
    let c := if i < bpp then 0 else up.getD (i - bpp) 0
    let p :=
      match kind with
      | 0 => 0
      | 1 => a
      | 2 => b
      | 3 => (a + b) / 2
      | _ => paeth a b c
    pngRow bpp kind up r (i + 1) ((x + p) % 256 :: acc)

/-- R117: n rows of `len` bytes with their filter types, and the bytes after them. -/
def pngRows (bpp len : Nat) : Nat → List Nat → List Nat → Except Nat (List (List Nat) × List Nat)
  | 0, _, b => .ok ([], b)
  | n + 1, up, b =>
    match b with
    | [] => .error stCorrupt
    | k :: r =>
      if 4 < k || r.length < len then .error stCorrupt
      else
        let row := pngRow bpp k up.toArray (r.take len) 0 []
        (pngRows bpp len n row (r.drop len)).map fun p => (row :: p.1, p.2)

/-- R117: the rows of each pass of a w × h image of `depth` bits and `ch` channels. -/
def pngPassRows (w h ch depth : Nat) : List (Nat × Nat × Nat × Nat) → List Nat → Except Nat (List (Array (Array Nat)))
  | [], b => if b.isEmpty then .ok [] else .error stCorrupt
  | (x0, y0, dx, dy) :: ps, b => do
    let pw := ceilDiv (w - x0) dx
    let (rows, b) ← pngRows (ch * depth / 8) (pw * ch * depth / 8) (if pw = 0 then 0 else ceilDiv (h - y0) dy) [] b
    let more ← pngPassRows w h ch depth ps b
    .ok ((rows.map List.toArray).toArray :: more)

/-- The value of channel c of the pixel at x, y. -/
def pngSample (passes : List (Nat × Nat × Nat × Nat)) (rows : List (Array (Array Nat))) (ch depth x y c : Nat) : Nat :=
  let hit (p : Nat × Nat × Nat × Nat) : Bool :=
    decide (p.1 ≤ x) && decide (p.2.1 ≤ y) && (x - p.1) % p.2.2.1 == 0 && (y - p.2.1) % p.2.2.2 == 0
  let i := passes.findIdx hit
  let p := passes.getD i (0, 0, 1, 1)
  let row := ((rows.getD i #[]).getD ((y - p.2.1) / p.2.2.2) #[])
  let o := (x - p.1) / p.2.2.1 * ch + c
  if depth = 8 then row.getD o 0 else row.getD (2 * o) 0 * 256 + row.getD (2 * o + 1) 0

/-- R104: the values of a pixel in each plane, from its channel values. -/
def pngPixel (t depth : Nat) (plte : Bytes) (trns : Option Bytes) (v : List Nat) : Except Nat (List Nat) :=
  let full := 2 ^ depth - 1
  if t = 3 then
    let i := v.headD 0
    if plte.length < 3 * (i + 1) then .error stCorrupt
    else
      .ok ((List.range 3).map (fun c => fieldAt plte (3 * i + c) 1) ++
        match trns with
        | some a => [if i < a.length then fieldAt a i 1 else 255]
        | none => [])
  else
    .ok (v ++
      match trns with
      | some a => [if v == (List.range v.length).map fun c => beAt a (2 * c) 2 % 2 ^ depth then 0 else full]
      | none => [])

/-- Whether tRNS has the length its colour type asks for. -/
def pngTrnsOk (t : Nat) (plte : Bytes) (a : Bytes) : Bool :=
  match t with
  | 0 => a.length == 2
  | 2 => a.length == 6
  | _ => decide (a.length ≤ plte.length / 3)

/-- R104, R117: the planes of a PNG image from the chunks after IHDR. (PRESUMED, log entry 15) -/
def pngPlanes (w h depth t interlace : Nat) (cs : List PngChunk) : Except Nat (List (List Nat)) :=
  let d := pngData t cs 0 false
  let plte := (pngPalette cs).getD []
  let trns := pngTrns t cs
  if (t = 3 && (pngPalette cs).isNone) || !(trns.all (pngTrnsOk t plte)) then .error (d.2.getD stCorrupt)
  else
    match unzlib d.1 with
    | .error e => .error (if e = stTruncated then d.2.getD stTruncated else e)
    | .ok raw => do
      let ch := pngChannels t
      let ps := pngPasses interlace
      let rows ← pngPassRows w h ch depth ps (raw.map BitVec.toNat)
      let px ← (List.range h).mapM fun y => (List.range w).mapM fun x =>
        pngPixel t depth plte trns ((List.range ch).map (pngSample ps rows ch depth x y))
      match d.2 with
      | some e => .error e
      | none => .ok ((List.range (pngPlaneCount t trns.isSome)).map fun c => px.flatten.map fun v => v.getD c 0)

end Sys2Proof.Machine
end

