-- ==== Sys2Proof/Machine/DecodeStage.lean ====
section
/-! DEFINITION. The DECODE stage (R100 to R119): recognition, the checks of R113 in their order, frame selection and the output
record. The reconstruction of video samples, which its standards fix and the spec does not restate, is a free function of
Config. -/

namespace Sys2Proof.Machine

/-! ## Output -/

/-- R115, R116: the header and planes of a record whose chroma planes may be subsampled. -/
def recWrite (format w h depth chroma kind sbytes : Nat) (pts : List Nat) (frames : List (List (List Nat))) : Bytes :=
  let plane (p : List Nat) : Bytes := padTo (p.flatMap fun v => leBytes sbytes v) 128
  let data := frames.map fun f => f.map plane
  let off := up128 (64 + 8 * frames.length)
  let f0 := data.headD []
  let starts := (List.range 4).map fun c => if c < f0.length then ((f0.take c).map List.length).sum else 0
  let head := leBytes 4 format ++ leBytes 2 w ++ leBytes 2 h ++ leBytes 1 f0.length ++ leBytes 1 depth ++
    leBytes 1 chroma ++ leBytes 1 kind ++ leBytes 1 sbytes ++ leBytes 1 0 ++ leBytes 2 frames.length ++
    leBytes 4 ((f0.map List.length).sum) ++ (starts.flatMap fun s => leBytes 4 s) ++ leBytes 4 off ++ zeros 24 ++
    (pts.flatMap fun t => leBytes 8 t)
  sliceZ head 0 off ++ (data.flatMap fun f => f.flatten)

/-- R116: the length of a record of `n` frames of `comps` planes with a chroma layout. -/
def recWriteLen (w h comps chroma sbytes n : Nat) : Nat :=
  let cw := if chroma = 0 then w else ceilDiv w 2
  let chh := if chroma = 1 then ceilDiv h 2 else h
  let plane (c : Nat) : Nat := if chroma ≠ 0 && (c == 1 || c == 2) then up128 (cw * chh * sbytes) else up128 (w * h * sbytes)
  up128 (64 + 8 * n) + n * ((List.range comps).map plane).sum

/-- R116: bytes of a sample of a depth. -/
def depthBytes (d : Nat) : Nat := if d ≤ 8 then 1 else if d ≤ 16 then 2 else 4

/-- R107: a chroma plane of cw samples a row replicated to w × h. -/
def replicatePlane (p : List Nat) (cw w h sx sy : Nat) : List Nat :=
  let a := p.toArray
  (List.range h).flatMap fun y => (List.range w).map fun x => a.getD (y / sy * cw + x / sx) 0

/-- R102, R107: the planes and the CHROMA field under CHROMA_OUT, from planes coded with a chroma layout. -/
def chromaOut (mode chroma w h : Nat) (planes : List (List Nat)) : Nat × List (List Nat) :=
  match mode with
  | 0 => (chroma, planes)
  | 1 =>
    if chroma = 0 then (0, planes)
    else
      let sy := if chroma = 1 then 2 else 1
      (0, planes.zipIdx.map fun p => if p.2 = 1 || p.2 = 2 then replicatePlane p.1 (ceilDiv w 2) w h 2 sy else p.1)
  | _ => (0, planes.take 1)

/-- R102: planes and CHROMA that CHROMA_OUT leaves. -/
def outLayout (mode chroma comps : Nat) : Nat × Nat :=
  match mode with
  | 0 => (chroma, comps)
  | 1 => (0, comps)
  | _ => (0, 1)

/-! ## Parameters (R102) -/

/-- R102: CHROMA_OUT. -/
def chromaMode (d : Desc) : Nat := bits (d.word 4) 9 8

/-- R113 step 6: width, height and record length within their bounds. -/
def boundOk (d : Desc) (w h len : Nat) : Bool :=
  let mw := bits (d.word 4) 47 32
  let mh := bits (d.word 4) 63 48
  (mw == 0 || w ≤ mw) && (mh == 0 || h ≤ mh) && len ≤ d.outMax

/-! ## Recognition (R103) -/

/-- R103: the format recognised. -/
def recognise (b : Bytes) : Option Nat :=
  if b.take 3 = [0xFF, 0xD8, 0xFF] then some 0
  else if b.take 8 = [0x89, 0x50, 0x4E, 0x47, 0x0D, 0x0A, 0x1A, 0x0A] then some 1
  else if 80 ≤ b.length && b.take 9 == asciiBytes "SIMPLE  =" && (b.drop 29).take 1 == asciiBytes "T" then some 2
  else if 5 ≤ b.length && fieldAt b 0 4 == 0x4C435254 && 3 ≤ fieldAt b 4 1 && fieldAt b 4 1 ≤ 5 then some (fieldAt b 4 1)
  else if 4 ≤ b.length && fieldAt b 0 4 == 0x544E4841 then some 6
  else none

/-! ## JPEG -/

/-- R113: a JPEG input. The checks follow the input: what stands after the SOF segment is met only after step 3.
(DESIGN CHOICE, log entry 163) -/
def decodeJpeg (d : Desc) (b : Bytes) : Except Nat Bytes := do
  let r := b.drop 2
  let (hd, m, seg, r) ← jpegTo (fun m => isSof m || m == 0xDA || m == 0xD9) false (r.length + 1) r {}
  if !isSof m then .error stCorrupt
  else
    let hd ← jpegFrame m seg hd
    if hd.w = 0 || hd.h = 0 || hd.comps.isEmpty then .error stCorrupt
    else
      match jpegChroma hd.comps with
      | none => .error stUnsupported
      | some chroma =>
        if hd.bad || !(hd.sof == 0xC0 || hd.sof == 0xC1 || hd.sof == 0xC2) ||
            !(hd.prec == 8 || (hd.prec == 12 && hd.sof ≠ 0xC0)) || 16384 < hd.w || 16384 < hd.h then .error stUnsupported
        else
          let (hd, m, seg, r) ← jpegTo (fun m => m == 0xDA || m == 0xD9) true (r.length + 1) r hd
          if m ≠ 0xDA then .error stCorrupt
          else if r.length < ceilDiv (jpegB hd) (if hd.sof == 0xC2 then 8 else 4) then .error stDimension
          else
            let lay := outLayout (chromaMode d) chroma hd.comps.length
            let sb := depthBytes hd.prec
            if !boundOk d hd.w hd.h (recWriteLen hd.w hd.h lay.2 lay.1 sb 1) then .error stBound
            else
              let planes ← jpegPlanes hd seg r
              let o := chromaOut (chromaMode d) chroma hd.w hd.h planes
              .ok (recWrite 0 hd.w hd.h hd.prec o.1 0 sb [0] [o.2])

/-! ## PNG -/

/-- R113: a PNG input. (DESIGN CHOICE, log entry 163) -/
def decodePng (d : Desc) (b : Bytes) : Except Nat Bytes :=
  let cs := pngChunks b.length (b.drop 8)
  match cs with
  | [] => .error stTruncated
  | ih :: cs =>
    let h := ih.data
    if !ih.is "IHDR" then .error stCorrupt
    else if ih.fault.isSome then .error (ih.fault.getD stCorrupt)
    else if h.length ≠ 13 then .error stCorrupt
    else
      let w := beAt h 0 4
      let ht := beAt h 4 4
      let depth := beAt h 8 1
      let t := beAt h 9 1
      if w = 0 || ht = 0 then .error stCorrupt
      else if !(t == 0 || t == 2 || t == 3 || t == 4 || t == 6) || !(depth == 8 || (depth == 16 && t ≠ 3)) || 1 < beAt h 12 1 ||
          beAt h 10 1 ≠ 0 || beAt h 11 1 ≠ 0 || 16384 < w || 16384 < ht || (pngHead cs).any PngChunk.unknown ||
          65535 < pngCount cs then .error stUnsupported
      else
        let data := ((cs.filter fun c => c.is "IDAT").map fun c => c.data.length).sum
        if data < 6 + ht * ceilDiv (w * pngChannels t * depth) 8 / 1032 then .error stDimension
        else
          let lay := outLayout (chromaMode d) 0 (pngPlaneCount t (pngTrns t cs).isSome)
          let sb := depthBytes depth
          if !boundOk d w ht (recWriteLen w ht lay.2 0 sb 1) then .error stBound
          else
            match pngPlanes w ht depth t (beAt h 12 1) cs with
            | .error e => .error e
            | .ok planes => .ok (recWrite 1 w ht depth 0 0 sb [0] [(chromaOut (chromaMode d) 0 w ht planes).2])

/-! ## FITS -/

/-- R105, R113: a tile-compressed image. -/
def decodeFitsTiled (d : Desc) (b : Bytes) (h : FitsHdu) : Except Nat Bytes := do
  let t ← fitsTiledHdr b h
  let w := (t.dim 0).1
  let ht := (t.dim 1).1
  let p := (t.dim 2).1
  let float := t.float && bit (d.word 4) 10
  let k := fitsKind t.bitpix h.offset float
  if !fitsTiledOk b h t then .error stUnsupported
  else if t.present (b.drop h.head) < fitsTiledMin t.comp t.bytepix t.blocksize t.counts then .error stDimension
  else if !boundOk d w ht (recWriteLen w ht (outLayout (chromaMode d) 0 p).2 0 k.2.2 1) then .error stBound
  else
    let planes ← fitsTiledPlanes b h t float
    .ok (recWrite 2 w ht k.1 0 k.2.1 k.2.2 [0] [(chromaOut (chromaMode d) 0 w ht planes).2])

/-- R113: a FITS input. -/
def decodeFits (d : Desc) (b : Bytes) : Except Nat Bytes := do
  let (hb, h) ← fitsFind (bits (d.word 4) 31 16) 65 0 b
  if h.tiled then decodeFitsTiled d hb h
  else if !h.image || h.groups then .error stUnsupported
  else if h.axes.contains 0 then .error stCorrupt
  else
    let w := h.axes.getD 0 0
    let ht := h.axes.getD 1 0
    let p := if h.axes.length = 3 then h.axes.getD 2 0 else 1
    if !(h.axes.length == 2 || h.axes.length == 3) || 4 < p || 16384 < w || 16384 < ht ||
        !(h.bitpix == 8 || h.bitpix == 16 || h.bitpix == 32 || h.bitpix == -32 || h.bitpix == -64) then .error stUnsupported
    else if hb.length - h.head < w * ht * p * (h.bitpix.natAbs / 8) then .error stDimension
    else
      let k := fitsKind h.bitpix h.unsigned (decide (h.bitpix < 0))
      if !boundOk d w ht (recWriteLen w ht (outLayout (chromaMode d) 0 p).2 0 k.2.2 1) then .error stBound
      else
        let data := hb.drop h.head
        let planes := (List.range p).map fun c => (List.range (w * ht)).map fun i => fitsSample h data (c * w * ht + i)
        .ok (recWrite 2 w ht k.1 0 k.2.1 k.2.2 [0] [(chromaOut (chromaMode d) 0 w ht planes).2])

/-! ## Video clips (R108 to R114) -/

/-- R108: an entry of a clip index. -/
structure ClipEntry where
  /-- R108: PTS. -/
  pts : Nat
  /-- R108: AU_OFFSET. -/
  off : Nat
  /-- R108: FLAGS. -/
  flags : Nat
  deriving DecidableEq, Repr

/-- R108: the entries of a clip index. -/
def clipEntries (b : Bytes) : List ClipEntry :=
  (List.range (fieldAt b 8 4)).map fun i =>
    let o := 32 + 16 * i
    { pts := fieldAt b o 8, off := fieldAt b (o + 8) 4, flags := fieldAt b (o + 12) 2 }

/-- Values that rise strictly. -/
def rising : List Nat → Bool
  | a :: b :: r => decide (a < b) && rising (b :: r)
  | _ => true

/-- R109: the conditions of a clip index, and the ranges of R108. (DESIGN CHOICE, log entry 163) -/
def clipOk (b : Bytes) : Bool :=
  let n := fieldAt b 8 4
  let so := fieldAt b 12 4
  32 ≤ b.length && fieldAt b 5 1 == 0 && fieldAt b 6 2 == 1 && fieldAt b 24 8 == 0 && 1 ≤ n && n ≤ 2 ^ 20 && so % 8 == 0 &&
  32 + 16 * n ≤ so && 32 + 16 * n ≤ b.length &&
  ((List.range n).all fun i => fieldAt b (32 + 16 * i + 12) 2 < 4 && fieldAt b (32 + 16 * i + 14) 2 == 0) &&
  (let es := clipEntries b
   rising (es.map fun e => e.off) &&
   (let shown := (es.filter fun e => !bit e.flags 1).map fun e => e.pts
    shown.dedup.length == shown.length) &&
   (match es with
    | e :: _ => bit e.flags 0
    | [] => false))

/-- R110: the displayed entries as (PTS, entry number), in increasing PTS. -/
def shownEntries (b : Bytes) : List (Nat × Nat) :=
  ((clipEntries b).zipIdx.filterMap fun e => if bit e.1.flags 1 then none else some (e.1.pts, e.2)).mergeSort
    fun p q => decide (p.1 ≤ q.1)

/-- R110: the selected displayed entries, in selection order; none for FRAME_NOT_FOUND, with XMODE 0 where no entry is displayed.
(DESIGN CHOICE, log entry 163) -/
def selectFrames (d : Desc) (consts b : Bytes) : Option (List (Nat × Nat)) :=
  let es := shownEntries b
  let w5 := d.word 5
  let n := bits w5 15 8
  match bits w5 1 0 with
  | 0 =>
    match es with
    | e :: _ => some [e]
    | [] => none
  | 1 =>
    ((List.range n).map fun i => es[bits w5 63 32 + i * bits w5 31 16]?).foldr
      (fun e (acc : Option (List (Nat × Nat))) =>
        match e, acc with
        | some x, some r => some (x :: r)
        | _, _ => none) (some [])
  | _ =>
    let last := (es.getLast?.map Prod.fst).getD 0 + fieldAt b 16 8
    ((List.range n).map fun i =>
        let t := fieldAt consts (bits w5 63 32 + 8 * i) 8
        if last ≤ t then none else (es.filter fun e => decide (e.1 ≤ t)).getLast?).foldr
      (fun e (acc : Option (List (Nat × Nat))) =>
        match e, acc with
        | some x, some r => some (x :: r)
        | _, _ => none) (some [])

/-- R108: the bytes of access unit i. -/
def accessUnit (b : Bytes) (i : Nat) : Bytes :=
  let es := clipEntries b
  let s := fieldAt b 12 4
  let lo := s + ((es[i]?).map ClipEntry.off).getD 0
  match es[i + 1]? with
  | some e => (b.drop lo).take (s + e.off - lo)
  | none => b.drop lo

/-! ### Sequence headers (R104, R113) -/

/-- R104: whether the format's profile is supported. The numbers of the profiles are those of its standard. (PRESUMED, log entry 15) -/
def videoProfileOk (fmt : Nat) (q : VideoSeq) : Bool :=
  match fmt with
  | 3 => (q.profile == 66 && q.constrained) || q.profile == 77 || q.profile == 100
  | 4 => q.profile == 1 || q.profile == 2 || q.profile == 3
  | _ => q.profile == 0

/-- R104: whether what a sequence header declares is supported. (DESIGN CHOICE, log entry 163) -/
def videoSeqOk (fmt : Nat) (q : VideoSeq) : Bool :=
  videoProfileOk fmt q && !q.other &&
  (match fmt with
   | 3 => q.level ≤ 52 && q.depth == 8 && q.chroma ≤ 1 && q.codedW ≤ 8192 && q.codedW * q.codedH ≤ 9437184
   | 4 => q.level ≤ 61 && (q.depth == 8 || (q.depth == 10 && q.profile == 2)) && q.chroma == 1 && q.codedW ≤ 8192 && q.codedH ≤ 4352
   | _ => q.level ≤ 60 && (q.depth == 8 || q.depth == 10) && q.chroma ≤ 1 && q.codedW ≤ 8192 && q.codedH ≤ 4352)

/-- R113: step 2 of a sequence header: it parses, and no dimension is zero. -/
def videoSeqAt (fmt : Nat) (b : Bytes) (i : Nat) : Except Nat VideoSeq :=
  match Config.videoSeq fmt b i with
  | .error ends => .error (if ends then stTruncated else stCorrupt)
  | .ok q => if q.w = 0 || q.h = 0 || q.codedW = 0 || q.codedH = 0 || q.ctb = 0 then .error stCorrupt else .ok q

/-- R114: L_min of the access unit at the starting random access point. -/
def videoMin (fmt : Nat) (q : VideoSeq) : Nat :=
  match fmt with
  | 3 => ceilDiv q.codedW 16 * ceilDiv q.codedH 16 / 512
  | 4 => ceilDiv q.codedW q.ctb * ceilDiv q.codedH q.ctb / 512
  | _ => ceilDiv q.codedW 64 * ceilDiv q.codedH 64 / 16384

/-- R115: planes and CHROMA of a clip. -/
def videoLayout (q : VideoSeq) : Nat × Nat := if q.chroma = 0 then (1, 0) else (3, 1)

/-- R113: the record length of n frames. -/
def videoLen (d : Desc) (q : VideoSeq) (n : Nat) : Nat :=
  let lay := outLayout (chromaMode d) (videoLayout q).2 (videoLayout q).1
  recWriteLen q.w q.h lay.2 lay.1 (depthBytes q.depth) n

/-! ### Decoding (R111, R112, R117) -/

/-- R111: the random access point from which the frame of entry e is decoded: the latest from which that can be done without any
picture before it. -/
def videoStart (b : Bytes) (e : Nat) : Nat :=
  let es := clipEntries b
  (((List.range (e + 1)).filter fun i => ((es[i]?).any fun x => bit x.flags 0) && (i == 0 || Config.videoFrom b i e)).getLast?).getD 0

/-- R111: the access units decoded for the frames of entries, in decode order, each once. -/
def videoUnits (b : Bytes) (fs : List Nat) : List Nat :=
  (List.range (fieldAt b 8 4)).filter fun i => fs.any fun e => decide (videoStart b e ≤ i) && decide (i ≤ e)

/-- R112: NAL units of an access unit in Annex B format: its start codes. (PRESUMED, log entry 15) -/
def nalCount : Bytes → Nat
  | x :: r => nalCount r + if x = 0 && r.take 2 = [0, 1] then 1 else 0
  | [] => 0

/-- A number in groups of seven bits, the lowest group first, and what follows it. -/
def leb128 : Nat → Bytes → Nat × Bytes
  | f + 1, x :: r =>
    let p := if x.toNat < 128 then (0, r) else leb128 f r
    (x.toNat % 128 + 128 * p.1, p.2)
  | _, r => (0, r)

/-- R112: OBUs of a temporal unit in the low-overhead format. (PRESUMED, log entry 15) -/
def obuCount : Nat → Bytes → Nat
  | 0, _ => 0
  | f + 1, b =>
    match b with
    | [] => 0
    | x :: r =>
      let r := if x.getLsbD 2 then r.drop 1 else r
      if x.getLsbD 1 then
        let p := leb128 8 r
        1 + obuCount f (p.2.drop p.1)
      else 1

/-- R112: NAL units or OBUs of an access unit. -/
def unitCount (fmt : Nat) (au : Bytes) : Nat := if fmt = 5 then obuCount au.length au else nalCount au

/-- R112, R113, R117: one access unit after those before it, of which there are `done`; `q` is the sequence header in force and `first`
the one of the start. -/
def videoUnit (d : Desc) (fmt : Nat) (b : Bytes) (frames : Nat) (first : VideoSeq) (st : Nat × VideoSeq) (i : Nat) :
    Except Nat (Nat × VideoSeq) :=
  let au := accessUnit b i
  if 4096 ≤ st.1 || 4096 < unitCount fmt au then .error stUnsupported
  else do
    let q ← videoSeqAt fmt b i
    let new := q.w ≠ st.2.w || q.h ≠ st.2.h || q.codedW ≠ st.2.codedW || q.codedH ≠ st.2.codedH || q.depth ≠ st.2.depth ||
      q.chroma ≠ st.2.chroma
    if new && !videoSeqOk fmt q then .error stUnsupported
    else if new && au.length < videoMin fmt q then .error stDimension
    else if new && !boundOk d q.w q.h (videoLen d q frames) then .error stBound
    else if q.w ≠ first.w || q.h ≠ first.h || 1024 < Config.videoSlices b i then .error stUnsupported
    else
      match Config.videoFault b i with
      | none => .ok (st.1 + 1, q)
      | some 0 => .error stTruncated
      | some 1 => .error stCorrupt
      | some _ => .error stUnsupported

/-- R107, R116: plane c of the frame of entry e, as the standard reconstructs it. -/
def videoPlane (b : Bytes) (q : VideoSeq) (e c : Nat) : List Nat :=
  let n := if c = 0 then q.w * q.h else ceilDiv q.w 2 * ceilDiv q.h 2
  (List.range n).map fun i => Config.videoSample b e c i % 2 ^ q.depth

/-- R109 to R113: a clip. Without a frame the sequence header is that of the first access unit. (DESIGN CHOICE, log entry 163) -/
def decodeVideo (d : Desc) (consts b : Bytes) (fmt : Nat) : Except Nat Bytes :=
  if !clipOk b then .error stCorrupt
  else if b.length < fieldAt b 12 4 + (((clipEntries b).getLast?).map ClipEntry.off).getD 0 then .error stTruncated
  else do
    let sel := selectFrames d consts b
    let fs := sel.getD []
    let units := videoUnits b (fs.map Prod.snd)
    let start := units.headD 0
    let q ← videoSeqAt fmt b start
    if !videoSeqOk fmt q then .error stUnsupported
    else if sel.isNone then .error stFrame
    else if (accessUnit b start).length < videoMin fmt q then .error stDimension
    else if !boundOk d q.w q.h (videoLen d q fs.length) then .error stBound
    else
      let _ ← units.foldlM (videoUnit d fmt b fs.length q) (0, q)
      let frames := fs.map fun f => chromaOut (chromaMode d) (videoLayout q).2 q.w q.h ((List.range (videoLayout q).1).map (videoPlane b q f.2))
      .ok (recWrite fmt q.w q.h q.depth (outLayout (chromaMode d) (videoLayout q).2 (videoLayout q).1).1 0 (depthBytes q.depth) (fs.map Prod.fst)
        (frames.map Prod.snd))

/-! ## The stage -/

/-- R100, R103, R113: the output of a DECODE stage. -/
def decodeStage (g : StageIn) : Except Nat Bytes :=
  let b := g.input 0
  match recognise b with
  | none => .error stFormat
  | some f =>
    if !bit (bits (g.desc.word 4) 6 0) f then .error stFormat
    else
      match f with
      | 0 => decodeJpeg g.desc b
      | 1 => decodePng g.desc b
      | 2 => decodeFits g.desc b
      | 6 => ahDecode b true (chromaMode g.desc == 2) g.desc.outMax
      | _ => decodeVideo g.desc g.consts b f

end Sys2Proof.Machine
end

