-- ==== Sys2Proof/Machine/Jobs.lean ====
section
/-! DEFINITION. Jobs: host sets (R43 to R48), the stages of a job and their states (R34, R546), the read of the stored
sample (R306, R428), completion, retry and exclusion (R34 to R36), the codec engines (R174), and admission (R38). -/

namespace Sys2Proof.Machine

/-! ## Host sets (R43 to R47) -/

/-- R43: the stages that the sets containing the given stages must contain: those stages, the HOST-bound ones, and
every successor of each, DELIVER excepted. -/
def hostClosure (ds : List Desc) (base : Nat → Bool) : List Nat :=
  ds.foldl (fun acc d =>
    if d.type ≠ tDeliver && (base d.id || d.binding == 1 || d.preds.any acc.contains) then acc ++ [d.id] else acc) []

/-- R43: whether a set that the closure gives is valid. -/
def hostValid (ds : List Desc) (h : List Nat) : Bool :=
  h.all fun i => match ds[i]? with | some d => d.type ≠ tFetch && d.binding ≠ 0 | none => false

/-- R45: the smallest valid host set that contains stage `cut`. -/
def fixedSet (ds : List Desc) (cut : Nat) : Option (List Nat) :=
  let h := hostClosure ds (· == cut)
  if h.contains cut && hostValid ds h then some h else none

/-- R46: a split of an image at `cut` is refused. -/
def splitBad (b : Bytes) (cut : Nat) : Bool := (fixedSet (imgDescs b) cut).isNone || imgTarget b ≠ 0

/-- A set of stages as a mask. -/
def stageMask (l : List Nat) : Nat := l.foldl (fun a i => setBit a i true) 0

/-- R45: the host set that the device chooses for a job of a stream in dynamic mode, within the fixed set, from a free
mask. (DESIGN CHOICE, log entry 137) -/
def dynamicSet (ds : List Desc) (fixed : List Nat) (mask : Nat) : List Nat := hostClosure ds fun i => fixed.contains i && bit mask i

/-- R331: number that marks the job of a backfill request; no batch has it. -/
def backfillK : Nat := 2 ^ 64

/-- R44, R51: SPLIT_MODE and SPLIT_CUT for a job: those in force when its batch opened. -/
def State.splitFor (s : State) (n : Nat) (t : ToRun) : Nat × Nat :=
  let r := s.run n
  match r.batches.find? fun b => if t.k = backfillK then b.mode ≠ 0 && some b.epoch == t.epoch else b.k == t.k with
  | some b => (b.mode, b.cut)
  | none => ((s.stream n).inForce.splitMode, (s.stream n).inForce.splitCut)

/-- R45: the host set of a job of stream n under a mode and a cut, with the state after the choice. -/
def State.hostSetFor (s : State) (n : Nat) (f : Nat × Nat) : Nat × State :=
  let ds := s.descsOf n
  match fixedSet ds f.2 with
  | none => (0, s)
  | some fixed =>
    if f.1 = 0 then (0, s)
    else if f.1 = 1 then (stageMask fixed, s)
    else
      let d := s.draw
      (stageMask (dynamicSet ds fixed (Config.freeWord d.1).toNat), d.2)

/-! ## Stages of a job -/

/-- R546: whether stage i has completed. -/
def Job.done (j : Job) (i : Nat) : Bool := j.outputs.any fun o => o.1 == i

/-- R546: the output of stage i. -/
def Job.output (j : Job) (i : Nat) : Bytes :=
  match j.outputs.find? fun o => o.1 == i with
  | some o => o.2
  | none => []

/-- R43: whether the host runs stage i. -/
def Job.onHost (j : Job) (i : Nat) : Bool := bit j.hostSet i

/-- R32: the stages that the job runs before PACK and DELIVER; an ingest job's DELIVER is one of them. -/
def Job.runs (j : Job) (ingest : Bool) (d : Desc) : Bool :=
  !j.onHost d.id && d.type ≠ tPack && (d.type ≠ tDeliver || ingest)

/-- R546: a final failure already known stops the stages above it. -/
def Job.stopped (j : Job) (i : Nat) : Bool :=
  match j.failing with
  | some f => f.1 ≤ i
  | none => false

/-- R34: whether the state of the job is one in which a stage runs: the DELIVER of an ingest job in PACKED, any other stage in
FETCHING to SCORING. -/
def Job.mayRun (j : Job) (ingest : Bool) (d : Desc) : Bool :=
  if ingest && d.type == tDeliver then j.state == .packed else j.inFlight && j.state != .admitted

/-- R34, R546: whether a stage runs now. -/
def Job.running (j : Job) (ingest : Bool) (d : Desc) : Bool :=
  j.mayRun ingest d && j.status.isNone && j.runs ingest d && !j.done d.id && !j.stopped d.id && d.preds.all j.done

/-- R32, R100: whether a spine codec engine runs a stage of the job: a CODEC stage, or a DECODE stage that accepts the Ahnet
raster that is its input. -/
def Job.onCodec (j : Job) (d : Desc) : Bool :=
  d.type == tCodec || (d.type == tDecode && bit (d.word 4) 6 && recognise (j.output (d.pred 0)) == some 6)

/-- R214: whether the clock-exact guarantee covers a stage of the job: the DECODE of an Ahnet raster is not covered. -/
def Job.covers (j : Job) (d : Desc) : Bool := d.covered && !j.onCodec d

/-- R546: stages that the job still has running or waiting. -/
def Job.left (j : Job) (ingest : Bool) (ds : List Desc) : List Desc :=
  ds.filter fun d => d.type ≠ tDeliver && j.runs ingest d && !j.done d.id && !j.stopped d.id

/-- R32: the job state of a stage type. -/
def typeState (t : Nat) : JobState :=
  if t = tFetch then .fetching
  else if t = tDecode || t = tCodec then .decoding
  else if t = tScore then .scoring
  else .transforming

/-- R34: the state of the earliest stage, in the order of the stage types, that the job has running or waiting. -/
def Job.stateOf (j : Job) (ingest : Bool) (ds : List Desc) : JobState :=
  match (j.left ingest ds).foldl (fun (a : Option Nat) d =>
      match a with | none => some d.type | some t => some (min t d.type)) none with
  | some t => typeState t
  | none => j.state

/-- R263: buffers that a stage of the job holds now: its whole need until it completes, then its output until every
successor has completed. -/
def Job.keeps (j : Job) (ds : List Desc) (size : Nat) (d : Desc) : Nat :=
  if j.onHost d.id then 0
  else if j.done d.id then
    (if (succs ds d.id).all fun i => j.done i then 0 else ceilDiv (j.output d.id).length size)
  else ceilDiv d.outMax size

/-- R263: the buffers of pool k that the job holds now. -/
def State.keepsIn (s : State) (j : Job) (ds : List Desc) (k : Nat) : Nat :=
  ((ds.filter fun d => d.pool == k).map (j.keeps ds (s.stored (oBufSize k)))).sum

/-- R263: gives back what the job no longer needs of its reservation. -/
def State.trimJob (s : State) (id : Nat) : State :=
  match s.job id with
  | none => s
  | some j =>
    let ds := s.descsOf j.stream
    let q := j.reserved.foldl (fun (acc : State × List (Nat × Nat × Nat)) r =>
      let n := min r.2.2 (s.keepsIn j ds r.1)
      (acc.1.giveBufs j.stream j.caravan r.1 r.2.1 (r.2.2 - n), acc.2 ++ [(r.1, r.2.1, n)])) (s, [])
    (q.1.updJob id fun j => { j with reserved := q.2 }).serveAllocs

/-! ## Codec engines (R174) -/

/-- R174: the engine that takes new work: the one with the least, the lowest on a tie. -/
def State.freeEngine (s : State) : Nat :=
  let load (e : Nat) : Nat := (s.engine e).waiting.length + (if (s.engine e).current.isSome then 1 else 0)
  (List.range 16).foldl (fun b e => if load e < load b then e else b) 0

/-- R174: work queued at an engine. -/
def State.queueCodec (s : State) (w : CodecWork) : State :=
  let e := s.freeEngine
  let x := s.engine e
  let x' := if x.current.isNone then { x with current := some w } else { x with waiting := x.waiting ++ [w] }
  (State.offer { s with engines := Tbl.set s.engines e x' } 21 w.cls (65536 * w.total))

/-- R174: whether a stage's codec work is queued. -/
def State.codecQueued (s : State) (job stage : Nat) : Bool :=
  s.engines.any fun e => (match e.2.current with | some w => w.job == job && w.stage == stage | none => false) ||
    e.2.waiting.any fun w => w.job == job && w.stage == stage

/-- R546: the stages that codec engines run and that have become ready are given to engines. -/
def State.startCodec (s : State) (id : Nat) : State :=
  match s.job id with
  | none => s
  | some j =>
    let ds := s.descsOf j.stream
    (ds.filter fun d => j.onCodec d && j.running (s.toCorpus j.stream) d && !j.coded.contains d.id &&
        !s.codecQueued id d.id).foldl (fun s d =>
      s.queueCodec { job := id, stage := d.id, cls := j.cls, total := codecBlocks d (j.output (d.pred 0)) }) s

/-- R173: the snapshot of a work's state between two of its blocks. -/
def State.codecSnapshot (s : State) (w : CodecWork) : Bytes :=
  match s.job w.job with
  | none => []
  | some j =>
    match (s.descsOf j.stream)[w.stage]? with
    | none => []
    | some d => (codecPoint d (j.output (d.pred 0)) w.blocks).bytes

/-- R174: the state with engine e replaced and the spilled states counted. -/
def State.setEngine (s : State) (e : Nat) (x : CodecEngine) : State :=
  State.countSpilled { s with engines := Tbl.set s.engines e x }

/-- R174: the work in progress is set aside with its state; an engine holds 16 states, and those beyond are spilled. -/
def State.setAside (s : State) (x : CodecEngine) (w : CodecWork) : CodecEngine :=
  { current := none, saved := x.saved
    waiting := x.waiting ++ [{ w with state := some (s.codecSnapshot w), spilled := decide (16 ≤ x.recount.saved) }] }

/-- R174: the state with which a work was taken up again fails a check of its restore: the attempt ends. (DEDUCED, log entry 171) -/
def CodecWork.broken (w : CodecWork) : Bool :=
  match w.state with
  | some b => !codecStateOk b
  | none => false

/-- R174: the transient status of a saved state that fails its checks, by where it was held. (DEDUCED, log entry 171) -/
def CodecWork.lossStatus (w : CodecWork) : Nat := if w.spilled then stSram else stDram

/-! ## The stored sample (R186, R306, R428) -/

/-- R182, R186: the member at which a sample lies in the newest epoch that a stream of this device has begun on its
corpus. -/
def State.holderOf (s : State) (n idx : Nat) : Nat :=
  match s.corpusFor n with
  | none => 0
  | some c => locOf (placeKey c.2.seed c.2.id) c.2.geometry c.2.drift idx c.2.newest

/-- R428: the device at a member's coordinates is in the FAILED set. -/
def State.memberFailed (s : State) (n m : Nat) : Bool :=
  match s.corpusFor n with
  | some c => s.ft.failed.contains
      (packCoord (geoCoord c.2.geometry m 0) (geoCoord c.2.geometry m 1) (geoCoord c.2.geometry m 2))
  | none => false

/-- R306 steps 1 to 3: the one read of the stored sample: its status, bytes and FLAGS. -/
def State.readSample (s : State) (n idx : Nat) : Nat × Bytes × Nat :=
  match s.corpusFor n with
  | none => (stSampleNotFound, [], 0)
  | some (nsid, c) =>
    match Tbl.find c.records idx, s.ns nsid with
    | some r, some x =>
      match s.readBytes x r.offset r.len with
      | none => (stMedia, [], r.flags)
      | some b => if (sha3_512 b).take 24 = r.digest then (stSuccess, b, r.flags) else (stMedia, [], r.flags)
    | _, _ =>
      if geoCount c.geometry ≤ 1 then (stSampleNotFound, [], 0)
      else
        match Config.remoteSample c.id idx with
        | some (bad, flags, b) => if bad then (stMedia, [], flags) else (stSuccess, b, flags)
        | none => (stSampleNotFound, [], 0)

/-- R304, R306: PART_COUNT of a sample with PARTS. -/
def partCount (b : Bytes) : Nat := fieldAt b 0 4

/-- R306 step 4: the part directory and every part lie within LENGTH. -/
def partsOk (b : Bytes) : Bool :=
  8 ≤ b.length && 1 ≤ partCount b && partCount b ≤ 8 && 8 + 8 * partCount b ≤ b.length &&
  (List.range (partCount b)).all fun i => fieldAt b (8 + 8 * i) 4 + fieldAt b (12 + 8 * i) 4 ≤ b.length

/-- R305, R306 steps 4 to 6: what a FETCH stage delivers. -/
def fetchPart (d : Desc) (b : Bytes) (flags : Nat) : Except Nat Bytes :=
  let whole := bit (d.word 4) 3
  let part := bits (d.word 4) 2 0
  let parts := bit flags 0
  if parts && !partsOk b then .error stCorrupt
  else if !whole && (if parts then partCount b ≤ part else part ≠ 0) then .error stSampleNotFound
  else
    let out := if whole || !parts then b
      else (b.drop (fieldAt b (8 + 8 * part) 4)).take (fieldAt b (12 + 8 * part) 4)
    if d.outMax < out.length then .error stBound else .ok out

/-! ## Stage operations -/

/-- R31, R143: what the engine of a stage is given. -/
def State.stageIn (s : State) (j : Job) (d : Desc) : StageIn :=
  { desc := d, consts := imgConsts (s.imageOf j.stream).image, inputs := d.preds.map j.output,
    key := rngKey (s.stored (oSeed j.stream)) (s.stored (oCorpusId j.stream)), sample := j.sample, epoch := j.epoch }

/-- R32: the outcome of a stage's operation; KERNEL and SCORE stages end at HALT. -/
def State.stageRun (s : State) (j : Job) (d : Desc) : Except Nat Bytes :=
  let g := s.stageIn j d
  match d.type with
  | 0 => (match j.stored with
    | some (st, b, flags) => if st = stSuccess then fetchPart d b flags else .error st
    | none => .error stSampleNotFound)
  | 1 => decodeStage g
  | 2 => geometryStage g
  | 3 => colourStage g
  | 6 => alignStage g
  | 7 => codecStage g
  | _ => .ok []

/-- R196, R198: what PACK places of a job, or the status that excludes it. -/
def packOutput (b : Bytes) (mode : Nat) (j : Job) : Except Nat Bytes :=
  match imgPack b with
  | none => .ok []
  | some d =>
    let input := match d.preds with
      | [p] => j.output p
      | ps => Config.packJoin (ps.map j.output)
    let strip := bit (d.word 4) 32
    let tensor := fieldAt input 0 4 == 0x52534E54 && 64 + fieldAt input 16 4 ≤ input.length
    if strip && !tensor then .error stUnsupported
    else
      let out := if strip then stripTensor input else input
      let slot := bits (d.word 4) 31 0
      if mode = 0 && slot ≠ 0 && slot < out.length then .error stBound else .ok out
where
  /-- R142, R196: DATA_BYTES of a tensor record. -/
  stripTensor (t : Bytes) : Bytes := (t.drop 64).take (fieldAt t 16 4)

/-! ## Completion, exclusion and retry -/

/-- R208: the content digest of a read sample. -/
def readDigest (r : Nat × Bytes × Nat) : Bytes := if r.1 = stSuccess then (sha3_512 r.2.1).take 24 else zeros 24

/-- R546: the status of a job whose stages have all ended, if they have. -/
def State.jobStatus (s : State) (j : Job) : Option Nat :=
  let ds := s.descsOf j.stream
  let ingest := s.toCorpus j.stream
  if !(j.left ingest ds).isEmpty then none
  else
    match j.failing with
    | some f => some f.2
    | none =>
      if ingest then (match ofType ds tDeliver with
        | d :: _ => if j.done d.id then some stSuccess else none
        | [] => none)
      else if j.hostSet ≠ 0 then some stSuccess
      else
        match packOutput (s.imageOf j.stream).image (s.stored (oBatchMode j.stream)) j with
        | .ok _ => some stSuccess
        | .error e => some e

/-- R34, R263: PACK has placed the sample of a job in its batch: the stage ends, and the job keeps only its output. -/
def State.packJob (s : State) (id : Nat) : State :=
  let packs (j : Job) : List (Nat × Bytes) :=
    match imgPack (s.imageOf j.stream).image, packOutput (s.imageOf j.stream).image (s.stored (oBatchMode j.stream)) j with
    | some d, .ok out => if j.hostSet = 0 && !j.done d.id then [(d.id, out)] else []
    | _, _ => []
  ((s.updJob id fun j => { j with state := .packed, outputs := j.outputs ++ packs j }).trimJob id).count oSamplesPrepared 1

/-- R34, R546: brings a job up to date after an event: its status once every stage has ended, its state, its buffers
and the codec work that has become ready. -/
def State.advanceJob (s : State) (id : Nat) : State :=
  match s.job id with
  | none => s
  | some j =>
    let ds := s.descsOf j.stream
    let ingest := s.toCorpus j.stream
    match s.jobStatus j with
    | some st =>
      if st = stSuccess then (s.updJob id fun j => { j with status := some st }).trimJob id
      else
        (((((s.freeJobBuffers j).freeCores (· == id)).dropCodec fun w => w.job == id).updJob id fun j =>
          { j with status := some st, state := .excluded, reserved := [], struck := none }).count oJobsExcluded 1).serveAllocs
    | none =>
      let all := (j.left ingest ds).isEmpty
      let s := if all && j.state ≠ .packed then s.count oSamplesPrepared 1 else s
      (((s.updJob id fun j => { j with state := if all then .packed else j.stateOf ingest ds }).trimJob id).startCodec id)

/-- R98, R546: kernels of a job's stages from `stage` up end. -/
def State.freeStages (s : State) (id stage : Nat) : State :=
  { s with cores := s.cores.filter fun c => !(c.2.job == some id && stage ≤ c.2.stage) }

/-- R546: a stage of a job ends with an output or a final status. -/
def State.finishStage (s : State) (id stage : Nat) (r : Except Nat Bytes) : State :=
  let s' :=
    match r with
    | .ok b => s.updJob id fun j => { j with outputs := j.outputs ++ [(stage, b)] }
    | .error st =>
      ((s.updJob id fun j => { j with failing := some (stage, st) }).dropCodec fun w => w.job == id && stage ≤ w.stage).freeStages
        id stage
  s'.advanceJob id

/-- R35: the job returns to ADMITTED: its kernels and codec work end, the buffers of the attempt are released, and its
whole need is taken again. -/
def State.restartJob (s : State) (id : Nat) : State :=
  match s.job id with
  | none => s
  | some j =>
    let ds := s.descsOf j.stream
    let s1 := ((s.freeJobBuffers j).freeCores (· == id)).dropCodec fun w => w.job == id
    let need := j.reserved.map fun r => (r.1, r.2.1, s.needOf ds r.1)
    let s2 := need.foldl (fun s r => s.takeBufs j.stream j.caravan r.1 r.2.1 r.2.2) s1
    ((s2.count oJobsRetried 1).updJob id fun j =>
      { j with state := .admitted, attempts := j.attempts + 1, outputs := [], failing := none, status := none, stored := none,
               reserved := need, coded := [], sig := none, struck := none }).serveAllocs

/-- R35, R36, R257, R546: a transient status on a stage of a job; after SRAM_UNCORRECTABLE its buffers hold a failed word. -/
def State.transientJob (s : State) (id st : Nat) (covered : Bool) : State :=
  match s.job id with
  | none => s
  | some j =>
    let s0 := if st = stSram then s.updJob id fun j => { j with struck := some stSram } else s
    let s1 := if covered then s0.exactLose j.stream 2 else s0
    if j.attempts < Config.maxAttempts then s1.restartJob id
    else (s1.updRun j.stream fun r => { r with heldPos := some j.pos }).holdForJob j.stream st j.pos

/-- R99, R119, R135: a reset of Caravan n ends its jobs that have a stage there with CARAVAN_RESET. -/
def State.caravanJobs (s : State) (n : Nat) : State :=
  let hit := (s.jobs.filter fun j => j.caravan == n && j.inFlight && j.status.isNone && j.state != .admitted).map Job.id
  hit.foldl (fun s id => s.transientJob id stCaravanReset false) s

/-- R32: whether a stage runs on the job's Caravan. -/
def Job.onCaravan (j : Job) (d : Desc) : Bool :=
  (d.type == tDecode && !j.onCodec d) || d.type == tGeometry || d.type == tColour || d.type == tKernel || d.type == tScore ||
  d.type == tAlign

/-- R174: CODEC_BLOCK_DONE: a block ends; the engine continues the waiting job of the highest class, round robin within a
class, or the job in progress. It checks a saved state before it continues from it. (DEDUCED, log entry 171) -/
def execCodecBlockDone (e : Nat) (s : State) : Res :=
  if 16 ≤ e then .fault .noSuchEngine
  else whenUp s fun s =>
    let x := s.engine e
    match x.current with
    | none => .next s
    | some w =>
      if w.broken then .next (s.transientJob w.job w.lossStatus false)
      else
        let w' := { w with blocks := w.blocks + 1, state := none, spilled := false }
        if w.total ≤ w'.blocks then
          .next ((s.setEngine e (CodecEngine.takeUp { x with current := none })).updJob w.job fun j =>
            { j with coded := j.coded ++ [w.stage] })
        else if nextWork (x.waiting ++ [w']) = some w' then .next (s.setEngine e { x with current := some w' })
        else .next (s.setEngine e (s.setAside x w').takeUp)

/-- R216: a covered stage of a stream in EXACT waits for the job's release. -/
def State.waitsRelease (s : State) (j : Job) (d : Desc) : Bool :=
  (s.stream j.stream).exact.state = 2 && j.covers d && !j.released

/-- R137: the first job of an image compiles the lens record of a stage. (DESIGN CHOICE, log entry 32) -/
def State.compileLens (s : State) (n : Nat) (d : Desc) : State :=
  if d.type = tGeometry && bits (d.word 4) 37 36 = 3 then
    let k := s.stored (oImageSlot n)
    let i := s.image k
    if i.meshes.contains d.id then s else { s with images := Tbl.set s.images k { i with meshes := i.meshes ++ [d.id] } }
  else s

/-- R306: the stored sample is read once, with its digest; the read waits in the flash queue of the job's class. -/
def State.readForJob (s : State) (j : Job) : State :=
  if j.stored.isSome then s
  else
    let r := match j.ingest with
      | some i => (stSuccess, i.2, 0)
      | none => s.readSample j.stream j.sample
    ((s.offer 18 j.cls r.2.1.length).count oFlashReadBytes (if j.ingest.isNone then r.2.1.length else 0)).updJob j.id fun x =>
      { x with stored := some r, digest := readDigest r }

/-- R385: the output of a stage crosses the crossbar, to DRAM when its pool is placed there. -/
def State.moveOutput (s : State) (j : Job) (d : Desc) (r : Except Nat Bytes) : State :=
  match r with
  | .ok b =>
    let s' := s.offer 17 j.cls b.length
    if s.stored (oPoolPlace d.pool) = 3 then s'.offer 19 j.cls b.length else s'
  | .error _ => s

/-- R546: the operation of a stage that runs ends, without a transient status. -/
def State.completeStage (s : State) (j : Job) (d : Desc) : State :=
  let s1 := if d.type = tFetch then s.readForJob j else s.compileLens j.stream d
  match s1.job j.id with
  | none => s1
  | some j1 =>
    let r := s1.stageRun j1 d
    (s1.moveOutput j1 d r).finishStage j.id d.id r

/-- R428: a transient REMOTE_UNREACHABLE of a FETCH whose sample only a failed device holds is final. -/
def State.lostSample (s : State) (j : Job) (st : Nat) (d : Desc) : Bool :=
  d.type = tFetch && st = stUnreachable && j.ingest.isNone &&
  (match s.corpusFor j.stream with
   | some c => (Tbl.find c.2.records j.sample).isNone && s.memberFailed j.stream (s.holderOf j.stream j.sample)
   | none => false)

/-! ## Admission (R38, R48) -/

/-- R48: jobs in flight on Caravan c. (DESIGN CHOICE, log entry 165) -/
def State.carJobs (s : State) (c : Nat) : Nat := (s.jobs.filter fun j => j.inFlight && j.caravan == c).length

/-- R48: jobs in flight on core k of Caravan c. (DESIGN CHOICE, log entry 165) -/
def State.coreJobs (s : State) (c k : Nat) : Nat :=
  (s.jobs.filter fun j => j.inFlight && j.caravan == c && j.core == k).length

/-- The least of a list under a measure, the first on a tie. -/
def leastBy (f : Nat → Nat) : List Nat → Option Nat
  | [] => none
  | x :: r =>
    match leastBy f r with
    | none => some x
    | some y => if f y < f x then some y else some x

/-- R48, R396: the Caravan and core of a job of class c at position p of stream n; a Caravan that is OFF takes no job.
The third component says that a reserved core runs a job of another class. (DESIGN CHOICE, log entry 165) -/
def State.placeJob (s : State) (n c p : Nat) : Option (Nat × Nat × Bool) :=
  let f := (s.stream n).inForce
  let up := fun k => !s.domOff (carDomain k)
  let reserved := fun k => s.s0Reserve && bit (s.stored oS0Caravans) k
  let cars := setBits 48 f.mask
  if f.loadbal then
    let own := (cars.filter fun k => up k && reserved k && s.coreJobs k 7 == 0)
    match (if c = 0 then own.head? else none) with
    | some k => some (k, 7, false)
    | none =>
      (leastBy s.carJobs (cars.filter up)).bind fun k =>
        (leastBy (s.coreJobs k) ((List.range 8).filter fun i => c = 0 || !(i == 7 && reserved k))).map fun i => (k, i, false)
  else
    let m := cars.length
    let k := cars.getD (p % max 1 m) 0
    let i := p / max 1 m % 8
    if up k then some (k, i, c ≠ 0 && i == 7 && reserved k) else none

/-- R226: the launch window of a stream has come, or it waits for none. -/
def State.launchOk (s : State) (n : Nat) : Bool :=
  s.stored (oLaunchAt n) == 0 || (s.stream n).exact.launched

/-- R38: whether stream n has a job that waits for admission. -/
def State.runnable (s : State) (n : Nat) : Bool :=
  (s.stream n).state == .running && !(s.stream n).draining && !(s.run n).toAdmit.isEmpty && s.launchOk n

/-- R38: the streams of class c in round robin, starting after the one last served. -/
def State.roundRobin (s : State) (c : Nat) : List Nat :=
  let last := Tbl.get s.lastServed 63 c
  ((List.range 64).map fun i => (last + 1 + i) % 64).filter fun n => s.stored (oServiceClass n) == c && s.runnable n

/-- R38: the worst state of the pools that an image names. -/
def State.worstPool (s : State) (ds : List Desc) : Nat := ((imgPools ds).map fun k => (s.pool k).state).foldl max 0

/-- R38: admits the next job of stream n in class c, when its checks hold. -/
def State.tryAdmit (s : State) (c n : Nat) : Option State :=
  let ds := s.descsOf n
  let w := s.worstPool ds
  if (s.stream n).inForce.maxInFlight ≤ s.streamJobs n then none
  else if w = 3 && 1 < c then none
  else if 2 ≤ w && 3 < c then none
  else
    match (s.run n).toAdmit with
    | [] => none
    | t :: rest =>
      match s.placeJob n c t.pos with
      | none => none
      | some (car, core, short) =>
        match s.reserveJob n c car ds with
        | none => none
        | some (s1, res) =>
          let h := s1.hostSetFor n (s1.splitFor n t)
          let s2 := h.2
          let exact := (s2.stream n).exact.state = 2
          let slot := if exact then (match t.slot with | some k => some k | none => some (s2.stream n).exact.nextSlot) else none
          let ing := ((s2.corpora.findSome? fun q =>
            if s2.toCorpus n then (Tbl.find q.2.open_ t.sample).bind fun o =>
              if o.stream = some n then some (q.1, o.data) else none else none))
          let j : Job :=
            { id := s2.nextJob, stream := n, epoch := t.epoch.getD (s2.run n).epoch, pos := t.pos, try_ := t.try_, sample := t.sample, cls := c,
              state := if s2.flashOn then .fetching else .admitted, caravan := car, core := core, hostSet := h.1,
              reserved := res, relSlot := slot, k := t.k, ingest := ing }
          let s3 := { s2 with jobs := s2.jobs ++ [j], nextJob := s2.nextJob + 1, lastServed := Tbl.set s2.lastServed c n }
          let s4 := s3.updRun n fun r => { r with toAdmit := rest }
          let s5 := if exact && t.slot.isNone then s4.updExact n fun x => { x with nextSlot := x.nextSlot + 1 } else s4
          let s6 := if short then s5.count oS0ReserveShort 1 else s5
          some ((((s6.shaperAdmit c).leave (128 + c) t.since).touch (carDomain car)).touch 2)

/-- R38: one admission decision. -/
def State.admitNext (s : State) : State :=
  let classes := (List.range 8).filter fun c => !(s.roundRobin c).isEmpty
  let try1 (c : Nat) : Option State :=
    if c = 0 && Config.maxS0Jobs ≤ s.jobsS0 then none
    else if c ≠ 0 && Config.maxOtherJobs ≤ s.jobsInFlight - s.jobsS0 then none
    else if !s.shaperAllows c (classes.filter (· < c)) then none
    else (s.roundRobin c).findSome? (s.tryAdmit c)
  match (List.range 8).findSome? try1 with
  | some s' => s'
  | none => s

/-- R34, R35: the jobs in ADMITTED whose FETCH stages start, FLASH being ON, are FETCHING. -/
def State.startFetches (s : State) : State :=
  if s.flashOn then { s with jobs := s.jobs.map fun j => if j.state = .admitted then { j with state := .fetching } else j } else s

/-- R38: JOB_ADMIT: the FETCH stages of the jobs in ADMITTED start, and one admission decision is made. Both stop while a flush
runs (R483). (DESIGN CHOICE, log entry 140) -/
def execJobAdmit (s : State) : Res :=
  whenUp s fun s => if s.serving && s.sys.flush.isNone then .next s.startFetches.admitNext else .next s

end Sys2Proof.Machine
end

