-- ==== Sys2Proof/Machine/Samples.lean ====
section
/-! DEFINITION. Stored samples: their record and bytes (R304), the home of a sample and the store of one that arrives
(R180, R340), the owner of a signature band (R194), migration (R186), and the end of a stage of a job (R34, R546). -/

namespace Sys2Proof.Machine

/-! ## Members and devices (R176, R180, R429) -/

/-- R181: this device's own member of a corpus. -/
def Corpus.own (c : Corpus) : Nat := geoRank c.geometry (geoOwn c.geometry 0) (geoOwn c.geometry 1) (geoOwn c.geometry 2)

/-- R180: the home member of a sample. -/
def Corpus.home (c : Corpus) (idx : Nat) : Nat := homeOf (placeKey c.seed c.id) (geoCount c.geometry) idx

/-- R176, R429: the device of a member: the one at its coordinates, or the owner of its fence record. -/
def State.memberDevice (s : State) (c : Corpus) (m : Nat) : Nat :=
  match Tbl.find c.fences m with
  | some f => s.coordOfRank f.2
  | none => packCoord (geoCoord c.geometry m 0) (geoCoord c.geometry m 1) (geoCoord c.geometry m 2)

/-- R186: the member towards which a sample migrates. -/
def Corpus.locNow (c : Corpus) (idx : Nat) : Nat := locOf (placeKey c.seed c.id) c.geometry c.drift idx c.newest

/-! ## The stored bytes (R304, R340) -/

/-- R336: pages that n bytes from a byte offset touch. -/
def pagesTouched (off n : Nat) : Nat := ceilDiv (off % 4096 + n) 4096

/-- R304, R280: bytes written into a namespace from a byte offset, into the write buffer, or through it beyond the allowance. -/
def State.writeBytes (s : State) (x : Namespace) (off : Nat) (b : Bytes) : State :=
  let first := off / 4096
  let k := pagesTouched off b.length
  let old (i : Nat) : Bytes := ((x.lpn (first + i)).bind s.flash.page).getD (zeros 4096)
  let tail := (off + b.length) % 4096
  let whole := (old 0).take (off % 4096) ++ b ++ (if tail = 0 then [] else (old (k - 1)).drop tail)
  let pages := (List.range k).filterMap fun i => (x.lpn (first + i)).map fun l => (l, sliceZ (whole.drop (4096 * i)) 0 4096)
  let admitted := { s with flash := s.flash.admitPages pages (x.cls == 1) x.key }
  if s.inAllowance (4096 * k) then admitted
  else ((s.count oWriteThrough 1).programPages (x.cls == 1) x.key pages).getD admitted

/-- R338: a corpus namespace has room for a sample of n bytes. -/
def Namespace.fits (x : Namespace) (c : Corpus) (n : Nat) : Bool := c.next + n ≤ x.extents.length * gib

/-- R290, R482: a sample of n bytes can be stored: the write buffer has room for its pages, or they are written through.
(DEDUCED, log entry 46) -/
def State.sampleRoom (s : State) (c : Corpus) (n : Nat) : Bool :=
  let k := 4096 * pagesTouched c.next n
  if s.inAllowance k then s.bufferRoom false k else decide (k < s.freeCapacity)

/-- R304: the 64 bytes of a sample record. -/
def SampleRec.bytes (r : SampleRec) (idx : Nat) : Bytes :=
  leBytes 8 idx ++ leBytes 8 r.offset ++ leBytes 4 r.len ++ leBytes 4 r.logical ++ leBytes 2 r.flags ++ zeros 14 ++ sliceZ r.digest 0 24

/-- R304: the sample index: 4 KiB pages of 64 records, sorted by sample index. -/
def Corpus.indexPage (c : Corpus) (k : Nat) : Bytes :=
  sliceZ (((c.records.drop (64 * k)).take 64).flatMap fun r => r.2.bytes r.1) 0 4096

/-- R304: the first sample index of a page of the index. -/
def Corpus.pageFirst (c : Corpus) (k : Nat) : Option Nat := (c.records[64 * k]?).map Prod.fst

/-- R304: a sample's record and bytes are stored in namespace nsid. -/
def State.storeRecord (s : State) (nsid idx : Nat) (b : Bytes) (flags logical : Nat) : State :=
  match s.ns nsid with
  | none => s
  | some x =>
    match x.corpus with
    | none => s
    | some c =>
      let r : SampleRec := { offset := c.next, len := b.length, logical := logical, flags := flags, digest := (sha3_512 b).take 24 }
      (s.writeBytes x c.next b).updCorpus nsid fun c =>
        { c with records := Tbl.set c.records idx r, next := c.next + roundUp b.length 128 }

/-- R304, R169: LOGICAL_LEN of stored bytes with FLAGS, or the status of the header step that fails. -/
def logicalLen (b : Bytes) (flags : Nat) : Except Nat Nat :=
  if !bit flags 1 then .ok b.length
  else
    let n := if bit flags 0 then fieldAt b 0 4 else 1
    let first := if bit flags 0 then b.drop (fieldAt b 8 4) else b
    match ahHeader first with
    | .error st => .error st
    | .ok (_, total, _) => .ok (total + ((List.range (n - 1)).map fun i => fieldAt b (20 + 8 * i) 4).sum)

/-! ## Signature bands (R194) -/

/-- R194: a band is recorded by its owner, once. -/
def State.recordBand (s : State) (b : Band) : State := if s.bands.contains b then s else { s with bands := s.bands ++ [b] }

/-- R194: the message that carries a band to its owner. (DESIGN CHOICE, log entry 48) -/
def bandMessage (b : Band) : Bytes := leBytes 4 b.corpus ++ leBytes 4 b.k ++ leBytes 4 b.band ++ leBytes 8 b.sample ++ leBytes 32 b.sig

/-- R193, R194: the signature of a sample is kept and its bands go to their owners. -/
def State.keepSignature (s : State) (nsid idx : Nat) (sig : Option (Nat × Nat)) : State :=
  match sig, s.ns nsid |>.bind Namespace.corpus with
  | some (g, radius), some c =>
    let s1 := s.updCorpus nsid fun c => { c with sigs := Tbl.set c.sigs idx g, radius := radius }
    (List.range 8).foldl (fun s k =>
      let b : Band := { corpus := c.id, k := k, band := bits g (32 * k + 31) (32 * k), sample := idx, sig := g }
      let owner := bandOwner (placeKey c.seed c.id) (geoCount c.geometry) k b.band
      if owner = c.own then s.recordBand b
      else s.sendMessage { vl := 1, dst := s.memberDevice c owner, op := opSend, dqp := qpBand } (bandMessage b) .band 0) s1
  | _, _ => s

/-- R194: DEDUP_BAND_RECEIVE: the owner of a band records it. -/
def execDedupBandReceive (corpus k band idx sig : Nat) (s : State) : Res :=
  whenUp s fun s =>
    let b : Band := { corpus := corpus, k := k % 8, band := band % 2 ^ 32, sample := idx % 2 ^ 64, sig := sig % 2 ^ 256 }
    .next ((s.takeInbox (bandMessage b)).recordBand b)

/-! ## Commit of an ingested sample (R340, R341) -/

/-- R340: system queue pair of forwarded samples. -/
def qpStore : Nat := 4

/-- R340: whether a job carries an ingested sample. -/
def Job.carries (j : Job) (nsid idx : Nat) : Bool :=
  j.sample == idx && (match j.ingest with | some i => i.1 == nsid | none => false)

/-- R34, R340: the job that carries an ingested sample whose INGEST command is completed: DELIVERED by the commit and RETIRED by
the completion, which come together; FREE when the sample is not stored. (DESIGN CHOICE, log entry 47) -/
def State.endIngestJob (s : State) (nsid idx status : Nat) : State :=
  if status = stSuccess then
    { s with jobs := s.jobs.map fun j => if j.carries nsid idx && j.state = .packed then { j with state := .retired } else j }
  else s.endJobs fun j => j.carries nsid idx && j.undelivered

/-- R340: an open sample of namespace nsid ends; the INGEST command that waits for it is completed with a status. -/
def State.endSample (s : State) (nsid idx status : Nat) : State :=
  match s.ns nsid |>.bind Namespace.corpus with
  | none => s
  | some c =>
    match Tbl.find c.open_ idx with
    | none => s
    | some o =>
      let s1 := (s.endIngestJob nsid idx status).updCorpus nsid fun c => { c with open_ := Tbl.del c.open_ idx }
      let s2 := match o.stream with
        | some n => s1.updStream n fun x => { x with openSamples := x.openSamples.filter (· ≠ idx) }
        | none => s1
      match o.cmd with
      | some q => s2.vendorDone { sq := q.1, cid := q.2 } status none []
      | none => s2

/-- R340: the samples of every corpus whose LAST piece has arrived owe no completion any more. -/
def State.forgetCommands (s : State) : State :=
  s.corpora.foldl (fun (s : State) (x : Nat × Corpus) => s.updCorpus x.1 fun c =>
    { c with open_ := c.open_.map fun o => (o.1, { o.2 with cmd := none }) }) s

/-- R193, R340: the message that forwards a sample to its home, with its signature where it has one. (DESIGN CHOICE, log entry 48) -/
def storeMessage (corpus idx flags logical : Nat) (sig : Option (Nat × Nat)) (b : Bytes) : Bytes :=
  leBytes 4 corpus ++ leBytes 2 flags ++ leBytes 1 (if sig.isSome then 1 else 0) ++ leBytes 1 ((sig.map Prod.snd).getD 0) ++
  leBytes 8 idx ++ leBytes 4 logical ++ zeros 4 ++ leBytes 32 ((sig.map Prod.fst).getD 0) ++ b

/-- R193: the signature and RADIUS that a forwarded sample brings. -/
def storeSig (m : Bytes) : Option (Nat × Nat) := if fieldAt m 6 1 = 1 then some (fieldAt m 24 32, fieldAt m 7 1) else none

/-- R180, R340: a sample whose LAST piece has arrived is stored at its home: here, or at another device, to which it is
forwarded. -/
def State.commitSample (s : State) (nsid idx : Nat) (b : Bytes) (flags logical : Nat) (sig : Option (Nat × Nat)) : State :=
  match s.ns nsid with
  | none => s
  | some x =>
    match x.corpus with
    | none => s
    | some c =>
      if c.home idx = c.own then
        if x.fits c b.length then ((s.storeRecord nsid idx b flags logical).keepSignature nsid idx sig).endSample nsid idx stSuccess
        else s.endSample nsid idx stPoolExhausted
      else if !s.inTorus (s.memberDevice c (c.home idx)) then s.endSample nsid idx stUnreachable
      else
        s.sendMessage { vl := 1, dst := s.memberDevice c (c.home idx), op := opSend, dqp := qpStore }
          (storeMessage c.id idx flags logical sig b) .store (nsid * 2 ^ 64 + idx)

/-- R340, R341: a forwarded sample arrives at its home: the status of its store. -/
def State.storeArrived (s : State) (m : Bytes) : State × Nat :=
  match s.corpusOf (fieldAt m 0 4) with
  | none => (s, stSampleNotFound)
  | some (nsid, c) =>
    let idx := fieldAt m 8 8
    let b := m.drop 56
    match s.ns nsid with
    | none => (s, stSampleNotFound)
    | some x =>
      if c.sealed || s.flash.readOnly then (s, stNsReadOnly)
      else if (Tbl.find c.records idx).isSome then (s, stIndexInUse)
      else if !(x.fits c b.length && s.sampleRoom c b.length) then (s, stPoolExhausted)
      else ((s.storeRecord nsid idx b (fieldAt m 4 2) (fieldAt m 16 4)).keepSignature nsid idx (storeSig m), stSuccess)

/-! ## Migration (R186) -/

/-- R186: the pages that lie wholly inside a sample's stored bytes are deallocated and its record goes. -/
def State.dropSample (s : State) (nsid idx : Nat) : State :=
  match s.ns nsid with
  | none => s
  | some x =>
    match x.corpus.bind fun c => Tbl.find c.records idx with
    | none => s
    | some r =>
      let first := ceilDiv r.offset 4096
      let last := (r.offset + roundUp r.len 128) / 4096
      let lpns := (List.range (last - first)).filterMap fun i => x.lpn (first + i)
      State.updCorpus (s.freePages lpns).followPools nsid fun c =>
        { c with records := Tbl.del c.records idx, moving := c.moving.filter (· ≠ idx) }

/-- R186: system queue pair of migrated samples. (DESIGN CHOICE, log entry 49) -/
def qpMigrate : Nat := 5

/-- R186: the message that carries a copy of a stored sample, with the DIGEST of its record. (DESIGN CHOICE, log entry 48) -/
def migrateMessage (corpus idx : Nat) (m : MigCopy) : Bytes :=
  leBytes 4 corpus ++ leBytes 2 m.flags ++ zeros 2 ++ leBytes 8 idx ++ leBytes 4 m.logical ++ zeros 4 ++ sliceZ m.digest 0 24 ++ m.data

/-- R186: the holder reads a sample and sends a copy to the member towards which it moves. (DESIGN CHOICE, log entry 48) -/
def State.sendCopy (s : State) (x : Namespace) (nsid idx : Nat) (c : Corpus) (r : SampleRec) : State :=
  match (if s.inTorus (s.memberDevice c (c.locNow idx)) then s.readBytes x r.offset r.len else none) with
  | none => s
  | some b =>
    State.sendMessage (s.updCorpus nsid fun c => { c with moving := idx :: c.moving.filter (· ≠ idx) })
      { vl := 1, dst := s.memberDevice c (c.locNow idx), op := opSend, dqp := qpMigrate }
      (migrateMessage c.id idx { data := b, flags := r.flags, logical := r.logical, digest := r.digest }) .migrate (nsid * 2 ^ 64 + idx)

/-- R186: a copy that could not be sent: the sample stays where it is until the next. -/
def State.copyRefused (s : State) (nsid idx : Nat) : State :=
  s.updCorpus nsid fun c => { c with moving := c.moving.filter (· ≠ idx) }

/-- R186: a copy that arrives is the sample that its record names. -/
def MigCopy.verified (m : MigCopy) : Bool := (sha3_512 m.data).take 24 == m.digest

/-- R186: SAMPLE_MIGRATE. The holder sends a copy of a sample that another member is to hold; the member towards which it moves
verifies and commits the copy; the holder frees the old copy only once a copy with the digest of its record is committed. -/
def execSampleMigrate (nsid idx : Nat) (m : Migrate) (s : State) : Res :=
  whenUp s fun s =>
    match s.ns nsid with
    | none => .next s
    | some x =>
      match x.corpus with
      | none => .next s
      | some c =>
        let here := c.locNow idx == c.own
        match m, Tbl.find c.records idx with
        | .send, some r => if here || c.moving.contains idx then .next s else .next (s.sendCopy x nsid idx c r)
        | .arrive m, none =>
          if here && m.verified && x.fits c m.data.length && s.sampleRoom c m.data.length then
            .next (s.storeRecord nsid idx m.data m.flags m.logical)
          else .next s
        | .committed d, some r => if c.moving.contains idx && d == r.digest then .next (s.dropSample nsid idx) else .next s
        | _, _ => .next s

/-! ## STAGE_COMPLETE (R34, R340, R546) -/

/-- R304, R340: FLAGS of a sample that an ingest stream stores: AHNET when DELIVER's input is an encoder's output. (DEDUCED, log entry 45) -/
def deliverFlags (ds : List Desc) (d : Desc) : Nat :=
  match ds[d.pred 0]? with
  | some p => if p.type = tCodec && !bit (p.word 4) 0 then 2 else 0
  | none => 0

/-- R340, R34: DELIVER of an ingest job commits its sample, here or at its home. -/
def State.deliverSample (s : State) (j : Job) (d : Desc) : State :=
  match j.ingest with
  | none => s
  | some (nsid, _) =>
    let b := j.output (d.pred 0)
    let flags := deliverFlags (s.descsOf j.stream) d
    match logicalLen b flags with
    | .error st => s.endSample nsid j.sample st
    | .ok n =>
      (s.updJob j.id fun x => { x with outputs := x.outputs ++ [(d.id, [])], status := some stSuccess }).commitSample
        nsid j.sample b flags n j.sig

/-- R290: DELIVER of an ingest job waits while the write buffer has no room. -/
def State.deliverWaits (s : State) (j : Job) (d : Desc) : Bool :=
  match j.ingest with
  | none => true
  | some (nsid, _) =>
    match s.ns nsid |>.bind Namespace.corpus with
    | some c => c.home j.sample == c.own && !s.sampleRoom c (j.output (d.pred 0)).length
    | none => true

/-- R34, R546: STAGE_COMPLETE: the operation of a running stage ends, with a transient status or by itself. KERNEL and
SCORE stages end by themselves at HALT, and a stage that a codec engine runs once its blocks are done. (DESIGN CHOICE, log entry 61) -/
def execStageComplete (job stage : Nat) (transient : Option Nat) (s : State) : Res :=
  whenUp s fun s =>
    match s.job job with
    | none => .next s
    | some j =>
      match (s.descsOf j.stream)[stage]? with
      | none => .next s
      | some d =>
        if !j.running (s.toCorpus j.stream) d || s.waitsRelease j d || (d.type = tFetch && !s.flashOn) ||
            (j.onCaravan d && (s.domain (carDomain j.caravan)).state ≠ 0) then .next s
        else
          match transient with
          | some st =>
            if !isTransient st then .next s
            else if s.lostSample j st d then
              .next ((s.updJob job fun x => { x with stored := some (stMedia, [], 0) }).finishStage job stage (.error stMedia))
            else .next ((s.meetFailure st).transientJob job st (j.covers d))
          | none =>
            if let some st := j.struck then .next (s.transientJob job st (j.covers d))
            else if d.type = tKernel || d.type = tScore || (j.onCodec d && !j.coded.contains stage) then .next s
            else if d.type = tDeliver then
              (if s.deliverWaits j d then .next s else .next (s.deliverSample j d))
            else .next (s.completeStage j d)

end Sys2Proof.Machine
end

