-- ==== Sys2Proof/Machine/Streams.lean ====
section
/-! DEFINITION. The commands on a stream: the start checks (R547) and the start (R39, R215, R236, R320), pause and resume
(R39, R233), stop and pipeline reset (R40), release (R39), the image slot (R51) and the settings that a split or the
clock-exact mode constrains (R46, R47, R49). Each operation answers the state after an accepted command, or the status of
its refusal. -/

namespace Sys2Proof.Machine

/-! ## Conditions (R39, R451, R458, R547) -/

/-- R444: LC_STATE DEPLOYED. -/
def lcDeployed : Nat := 3

/-- R457: a model of a tenant is released: its weights are placed, decrypted and checked. -/
def State.modelReleased (s : State) (tenant : Nat) (digest : Bytes) : Bool :=
  s.sec.released.any fun r => r.2.tenant == tenant && r.2.digest == digest && r.2.loaded

/-- R458: the tenant's snapshot key is released. -/
def State.snapReleased (s : State) (tenant : Nat) : Bool := (Tbl.find s.sec.snapKeys tenant).isSome

/-- R39, R458: every model of an image and the tenant's snapshot key are released. -/
def State.imageReleased (s : State) (i : ImageSlot) : Bool :=
  s.sec.lc == lcDeployed && s.sec.pending.isNone && s.snapReleased (imageTenant i) &&
  (imgModels i.image).all (s.modelReleased (imageTenant i))

/-- R451: a pool of an image is assigned to another tenant. -/
def State.foreignPool (s : State) (tenant : Nat) (ds : List Desc) : Bool :=
  (List.range 32).any fun t =>
    let id := s.stored (oTenantId t)
    id ≠ 0 && id ≠ tenant && (imgPools ds).any fun k => bit (s.stored (oTenPools t)) k

/-- R547 step 4: the corpus and the modes of a training stream do not allow a start. -/
def State.corpusBad (s : State) (n : Nat) : Bool :=
  match s.corpusFor n with
  | none => true
  | some (_, c) =>
    let m := geoCount c.geometry
    !c.sealed || m ≤ s.member n || (s.exactMode n && 64 < m) ||
    (s.stored (oBatchMode n) == 2 && (1048576 < s.stored (oByteBudget n) ||
      (match imgPack (s.imageOf n).image with
       | some d => let t := bits (d.word 4) 34 33; !(t == 1 || t == 2)
       | none => true)))

/-- R199: the payload of a full batch whose size is fixed. -/
def State.fixedPayload (s : State) (n : Nat) : Nat :=
  let c := s.packCfg n
  let count := s.stored (oBatchCount n)
  if c.batch.mode = 0 && c.slot ≠ 0 then roundUp (count * c.slot) 128 + roundUp (ceilDiv count 8) 128
  else if c.batch.mode = 2 then
    let t := count * c.batch.budget
    roundUp (t * c.batch.token) 128 + roundUp (t * 2) 128 + roundUp (ceilDiv (min t 65536) 8) 128
  else 0

/-- R317: P, the most positions of a batch. -/
def State.mostPositions (s : State) (n : Nat) : Nat := if s.stored (oBatchMode n) = 0 then s.stored (oBatchCount n) else 65536

/-- R317: M, the largest manifest rounded up. -/
def State.manifestMax (s : State) (n : Nat) : Nat :=
  roundUp (128 + 48 * s.mostPositions n * (s.stored (oBackfillTries n) + 2)) 128

/-- R317: L, the longest split record. -/
def splitRecordMax (ds : List Desc) (cut : Nat) : Nat :=
  let h := (fixedSet ds cut).getD []
  64 + 16 * 8 + ((ds.filter fun d => (succs ds d.id).any h.contains).map fun d => roundUp d.outMax 128).sum

/-- R317: the result window of stream n is too small. -/
def State.slotsBad (s : State) (n : Nat) : Bool :=
  let split := s.stored (oSplitMode n) ≠ 0
  let worst :=
    if split then 192 + s.mostPositions n * splitRecordMax (s.descsOf n) (s.stored (oSplitCut n))
    else 128 + s.manifestMax n + s.stored (oBatchMaxBytes n)
  s.stored (oSlotCount n) < (if split then 3 else 2) || s.stored (oSlotSize n) < worst

/-- R547: the status of the first start check that fails, or SUCCESS. -/
def State.startCheck (s : State) (n : Nat) : Nat :=
  let i := s.imageOf n
  let ds := s.descsOf n
  let train := !imgIngest i.image
  let target := imgTarget i.image
  if !s.imageReleased i then stModelNotReleased
  else if s.foreignPool (imageTenant i) ds then stProtection
  else if s.stored (oSplitMode n) ≠ 0 && splitBad i.image (s.stored (oSplitCut n)) then stConfig
  else if train && s.corpusBad n then stConfig
  else if s.startPoolsBad n (s.stored (oServiceClass n)) ds then stPoolExhausted
  else if s.scratchBad (s.stored (oCaravanMask n)) ds then stPoolExhausted
  else if train && s.stored (oBatchMaxBytes n) < s.fixedPayload n then stBound
  else if target = 0 && s.slotsBad n then stBound
  else if target = 1 && s.stored (oDlvRslotBytes n) < s.manifestMax n + s.stored (oBatchMaxBytes n) then stBound
  else stSuccess

/-! ## Clock-exact mode at a start (R215, R218, R227) -/

/-- R215 condition 5: bytes of the code that the image's stages run. -/
def codeBytes (b : Bytes) (ds : List Desc) : Nat :=
  ((List.range (imgKernelCount b)).map fun k => (imgKernel b k).length).sum +
  (if (ofType ds tColour).isEmpty then 0 else 8192) + (if (ofType ds tAlign).isEmpty then 0 else 16384)

/-- R215: the first condition that fails at a start with CLOCK_EXACT 1, or 0. -/
def State.exactFail (s : State) (n : Nat) : Nat :=
  let i := s.imageOf n
  let ds := s.descsOf n
  let mask := s.stored (oCaravanMask n)
  if s.stored (oExactInterval n) = 0 then 2
  else if (List.range Config.streams).any fun m => m ≠ n && (s.stream m).state.active && (s.stream m).inForce.mask &&& mask ≠ 0 then 3
  else if (coveredPools ds).any fun k =>
      s.stored (oPoolPlace k) ≠ 1 || s.stored (oPoolCaravans k) &&& mask ≠ mask then 4
  else if 262144 < codeBytes i.image ds then 5
  else if !((imgModels i.image).all fun d => s.sec.released.any fun r =>
      r.2.tenant == imageTenant i && r.2.digest == d && r.2.loaded && r.2.oasis) then 6
  else 0

/-- R215, R227: the clock-exact state of stream n at its start. -/
def State.exactStart (s : State) (n : Nat) : ExactSt :=
  if !s.flag (oClockExact n) then { startGtc := s.gtc }
  else
    let f := s.exactFail n
    if f ≠ 0 then { state := 3, cause := 7, startFail := f, startGtc := s.gtc }
    else
      let at_ := s.stored (oLaunchAt n)
      if at_ ≠ 0 && at_ < s.gtc then { state := 3, cause := 6, startGtc := s.gtc } else { state := 2, startGtc := s.gtc }

/-- R218 cause 8: stream n shares a Caravan with other streams that are in EXACT. -/
def State.exactShared (s : State) (n : Nat) : State :=
  (List.range Config.streams).foldl (fun s m =>
    if m ≠ n && (s.stream m).state.active && (s.stream m).inForce.mask &&& (s.stream n).inForce.mask ≠ 0 then s.exactLose m 8
    else s) s

/-! ## The commands of CONTROL (R39 to R42) -/

/-- R51, R210: the settings written. -/
def State.writtenSettings (s : State) (n : Nat) : InForce :=
  { splitMode := s.stored (oSplitMode n), splitCut := s.stored (oSplitCut n), loadbal := s.flag (oLoadbal n),
    mask := s.stored (oCaravanMask n), maxInFlight := s.stored (oMaxInFlight n), window := s.stored (oBatchWindow n) }

/-- R236, R40: the run with which a start begins: at the cursor that a reset kept or a snapshot brought, or afresh. -/
def RunSt.started (r : RunSt) (startEpoch : Nat) : RunSt :=
  if r.hasCursor then { r with k := 0, delivered := 0, batches := [] }
  else { epoch := startEpoch, lists := r.lists, ingested := r.ingested, toAdmit := r.toAdmit }

/-- R39: stream n, whose start checks hold, enters RUNNING. -/
def State.startStream (s : State) (n : Nat) : State :=
  let member := s.member n
  let s1 := s.freeRetired n
  let s2 := s1.updStream n fun x =>
    { x with state := .running, draining := false, memberFixed := some (x.memberFixed.getD member)
             inForce := s.writtenSettings n, run := x.run.started (s.stored (oStartEpoch n)), exact := s.exactStart n
             dlv := { x.dlv with dbCount := 0, readySeq := 0, retiredSeq := 0 } }
  let s3 := if s.toFabric n && (s2.stream n).dlv.creditKey = 0 then
      s2.openCredit n (if s.stream n |>.run.restored then (s.stream n).dlv.granted else 0) else s2
  (s3.exactShared n).openMirror n

/-- R39, R547: CONTROL = 1. -/
def State.startCmd (s : State) (n : Nat) : Except Nat State :=
  if (s.stream n).state = .loaded then
    let st := s.startCheck n
    if st = stSuccess then .ok (s.startStream n) else .error st
  else .error (if (s.stream n).state = .moved then stMoved else stState)

/-- R39, R42: CONTROL = 2: the stream drains. -/
def State.pauseCmd (s : State) (n : Nat) : Except Nat State :=
  match (s.stream n).state with
  | .running => .ok (s.updStream n fun x => { x with draining := true })
  | .held => .error stHeld
  | .moved => .error stMoved
  | _ => .error stState

/-- R39, R236: CONTROL = 3. -/
def State.resumeCmd (s : State) (n : Nat) : Except Nat State :=
  match (s.stream n).state with
  | .paused | .held =>
    if s.imageReleased (s.imageOf n) then .ok (s.updStream n fun x => { x with state := .running, draining := false })
    else .error stModelNotReleased
  | .moved => .error stMoved
  | _ => .error stState

/-- R40, R341: the samples that an ingest stream has taken and not stored go with its cursors; their INGEST commands are refused as
those of a stream that does not run. (DESIGN CHOICE, log entry 47) -/
def State.refuseIngest (s : State) (n : Nat) : State :=
  s.corpora.foldl (fun (s : State) (c : Nat × Corpus) =>
    (c.2.open_.filter fun o => o.2.stream == some n && o.2.cmd.isSome).foldl (fun s o => s.endSample c.1 o.1 stNsNotReady) s) s

/-- R40: CONTROL = 4: the run is ended and its cursors and snapshot are discarded. -/
def State.stopStream (s : State) (n : Nat) : State :=
  let s1 := ((s.endRun n).closeCredit n).refuseIngest n
  (s1.updStream n fun x =>
    { x with state := .loaded, draining := false, snapshot := none, armedAfter := x.armedAfter.map fun _ => 0
             run := { ingested := x.run.ingested }, dlv := { x.dlv with dlvSeq := 0 } }).retireSlots n

/-- R40: CONTROL = 5: the cursor is kept at the first batch not delivered. -/
def State.resetStream (s : State) (n : Nat) : State :=
  let seq := s.nextDlvSeq n
  let r := { (s.run n).park false with toAdmit := s.ingestQueue n }
  let keep := (s.stream n).state.active || (s.run n).hasCursor
  let s1 := s.endRun n
  (s1.updStream n fun x =>
    { x with state := .loaded, draining := false, dlv := { x.dlv with dlvSeq := seq }
             run := if keep then { r with batches := [] } else x.run }).retireSlots n

/-- R39: CONTROL = 4 in the states that have a row for it. -/
def State.stopCmd (s : State) (n : Nat) : Except Nat State :=
  match (s.stream n).state with
  | .idle => .error stState
  | .moved => .error stMoved
  | _ => .ok (s.stopStream n)

/-- R39: CONTROL = 5 in the states that have a row for it. -/
def State.resetCmd (s : State) (n : Nat) : Except Nat State :=
  match (s.stream n).state with
  | .idle => .error stState
  | .moved => .error stMoved
  | _ => .ok (s.resetStream n)

/-- R39: a slot of stream n is READY. -/
def State.anyReady (s : State) (n : Nat) : Bool := (s.stream n).dlv.slots.any fun x => x.2.state = .ready

/-- R39: stream n is IDLE with IMAGE_SLOT 0xFF. -/
def State.idleStream (s : State) (n : Nat) : State :=
  (s.store (oImageSlot n) 0xFF).updStream n fun x =>
    { x with state := .idle, snapshot := none, run := {}, draining := false }

/-- R39: CONTROL = 6: a MOVED stream with no READY slot returns to IDLE. -/
def State.releaseCmd (s : State) (n : Nat) : Except Nat State :=
  if (s.stream n).state ≠ .moved then .error stState
  else if s.anyReady n then .error stState
  else .ok ((s.closeCredit n).idleStream n)

/-! ## Image slot, split and clock-exact settings (R46, R47, R49, R51) -/

/-- R192: both threshold sets hold the canonical NaN when the stream is loaded; an arming stands, since every epoch begins after it. -/
def Stream.loadThresholds (x : Stream) : Stream :=
  { x with staged := List.replicate 16 0x7FC00000, force := List.replicate 16 0x7FC00000
           armedAfter := x.armedAfter.map fun _ => 0 }

/-- R47, R51: an accepted write of IMAGE_SLOT. -/
def State.imageSlotOk (s : State) (n v : Nat) : Bool :=
  ((s.stream n).state = .idle || (s.stream n).state = .loaded) &&
  (v == 0xFF || (s.hasImage v &&
    (s.stored (oSplitMode n) == 0 || !splitBad (s.image v).image (s.stored (oSplitCut n)))))

/-- R39, R51: IMAGE_SLOT takes effect: IDLE or LOADED; another image ends what a cursor or a snapshot kept. -/
def State.setImageSlot (s : State) (n v : Nat) : State :=
  if v = 0xFF then (s.closeCredit n).idleStream n
  else if v = s.stored (oImageSlot n) then s
  else
    let s1 := (s.closeCredit n).store (oImageSlot n) v
    (s1.updStream n fun x => { x.loadThresholds with state := .loaded, snapshot := none, run := {} }).retireSlots n

/-- R46, R49: whether SPLIT_MODE may be written with a value. -/
def State.splitModeOk (s : State) (n v : Nat) : Bool :=
  (v == 0 || !splitBad (s.imageOf n).image (s.stored (oSplitCut n))) &&
  !(s.flag (oClockExact n) && v ≠ s.stored (oSplitMode n))

/-- R47: whether SPLIT_CUT may be written with a value. -/
def State.splitCutOk (s : State) (n v : Nat) : Bool :=
  s.stored (oSplitMode n) == 0 || !splitBad (s.imageOf n).image v

/-- R49, R51: whether CLOCK_EXACT may be written with a value. -/
def State.clockExactOk (s : State) (n v : Nat) : Bool :=
  ((s.stream n).state = .idle || (s.stream n).state = .loaded) &&
  (v == 0 || (s.stored (oSplitMode n) == 0 && !s.flag (oLoadbal n)))

/-- R185, R210: a setting that fixes the plan of stream n has changed; the plan is made again. -/
def State.forgetPlan (s : State) (n : Nat) : State :=
  s.updRun n fun r => { r with begun := false, size := r.epochSize, sorted := [], order := [], plan := [], lists := [], sentLists := none }

end Sys2Proof.Machine
end

