-- ==== Sys2Proof/Machine/Batch.lean ====
section
/-! DEFINITION. Epochs and batches: portion lists (R177, R185), the start of an epoch (R185 to R189, R197), opening a
batch (R192, R200, R210), settling (R199, R201, R234), split records (R330), and clock-exact release (R216, R226). -/

namespace Sys2Proof.Machine

/-! ## Portion lists (R183, R185, R189, R433) -/

/-- R185, R189, R433: the samples that stream n's member contributes to an epoch: those of its location, and those of a
location set that this device has taken over; in exact mode its whole shard. -/
def State.sourceSet (s : State) (n epoch : Nat) : List (Nat × Nat) :=
  match s.corpusFor n with
  | none => []
  | some (_, c) =>
    let own :=
      if !c.sealed then []
      else if s.exactMode n then (c.records.filter fun r => !bit r.2.flags 2).map fun r => (r.1, r.2.logical)
      else s.locationSet n epoch
    let role := if c.roles.contains (s.member n) then
        (match c.locSets.find? fun l => l.1 == s.member n && l.2.1 == epoch with
         | some l => l.2.2
         | none => [])
      else []
    (mergeEntries (own ++ role)).1

/-- R183, R185, R189: the lists that stream n's member sends for an epoch: destination, portion and entries. -/
def State.listsOf (s : State) (n epoch : Nat) : List (Nat × Nat × List (Nat × Nat)) :=
  match s.corpusFor n with
  | none => []
  | some (_, c) =>
    let set := s.sourceSet n epoch
    if s.exactMode n then (List.range (geoCount c.geometry)).map fun v => (v, 0, set)
    else
      let w := s.stored (oNeighbourS n)
      let kc := s.kc n
      (List.range (w ^ 3)).map fun j =>
        (offsetMember c.geometry w (s.member n) j, j, set.filter fun x => portionOf kc w epoch x.1 == j)

/-- R185: the message that carries a portion list. -/
def portionMessage (check corpus epoch source portion : Nat) (l : List (Nat × Nat)) : Bytes :=
  leBytes 4 0x4E4C5050 ++ leBytes 4 check ++ leBytes 4 corpus ++ leBytes 4 epoch ++ leBytes 2 source ++ leBytes 2 portion ++
  zeros 4 ++ leBytes 8 l.length ++ locationBytes l

/-- R185: a list kept by a stream, in place of one of the same source, portion and epoch. -/
def RunSt.keepList (r : RunSt) (p : Portion) : RunSt :=
  { r with lists := (r.lists.filter fun x => !(x.epoch == p.epoch && x.source == p.source && x.portion == p.portion)) ++ [p] }

/-- R177: CHECK of stream n. -/
def State.checkOf (s : State) (n : Nat) : Nat := planCheck (s.stored (oSeed n)) (s.stored (oCorpusId n))

/-- R176, R185: the streams of this device that are a member of a corpus. -/
def State.memberStreams (s : State) (corpus member : Nat) : List Nat :=
  (List.range Config.streams).filter fun m =>
    (s.stream m).state ≠ .idle && (s.stream m).state ≠ .moved && s.stored (oCorpusId m) == corpus && s.member m == member

/-- R177, R185: a list for a member whose stream runs on this device goes to that stream, else to the member's device. Where
every stream that is that member has another check value, each counts the list. -/
def State.sendList (s : State) (n epoch : Nat) (l : Nat × Nat × List (Nat × Nat)) : State :=
  match s.corpusFor n with
  | none => s
  | some (_, c) =>
    let all := s.memberStreams c.id l.1
    let same := all.filter fun m => s.checkOf m == s.checkOf n
    if all.isEmpty then
      s.sendMessage { vl := 1, dst := s.memberDevice c l.1, op := opSend, dqp := qpPortion,
                      fence := (s.stream n).prot.fenceEpoch }
        (portionMessage (planCheck (s.stored (oSeed n)) c.id) c.id epoch (s.member n) l.2.1 l.2.2) .portion n
    else
      let give (s : State) (m : Nat) : State :=
        s.updRun m fun r => r.keepList { epoch := epoch, source := s.member n, portion := l.2.1, entries := l.2.2 }
      if same.isEmpty then all.foldl (fun s m => give (s.count (oPlanMismatch m) 1) m) s else same.foldl give s

/-- R185: stream n's member sends its lists for an epoch. -/
def State.sendLists (s : State) (n epoch : Nat) : State :=
  ((s.listsOf n epoch).foldl (fun s l => s.sendList n epoch l) s).updRun n fun r => { r with sentLists := some epoch }

/-- R185: the lists for an epoch are sent once. -/
def State.ensureLists (s : State) (n epoch : Nat) : State :=
  match (s.run n).sentLists with
  | some e => if epoch ≤ e then s else s.sendLists n epoch
  | none => s.sendLists n epoch

/-- R185: the entries of a list message. -/
def portionEntries (b : Bytes) : Nat → List (Nat × Nat)
  | 0 => []
  | k + 1 => (fieldAt b 0 8, fieldAt b 8 4) :: portionEntries (b.drop 16) k

/-- R429: a member location entry raised to a fence record. -/
def State.raiseMember (s : State) (nsid m : Nat) (f : Nat × Nat) : State :=
  s.updCorpus nsid fun c => if fenceLt (Tbl.get c.fences (0, 0) m) f then { c with fences := Tbl.set c.fences m f } else c

/-- R177, R185, R429: PORTION_LIST_RECEIVE: a list whose check value differs is counted, and one of another corpus is not taken;
a list under a lower fence record is refused. -/
def execPortionListReceive (n epoch owner : Nat) (data : Bytes) (s : State) : Res :=
  withStream n s fun s =>
    let s0 := s.takeInbox data
    let count := fieldAt data 24 8
    let listed := 32 ≤ data.length && fieldAt data 0 4 == 0x4E4C5050 && data.length == 32 + 16 * count
    let s1 := if listed && fieldAt data 4 4 ≠ s.checkOf n then s0.count (oPlanMismatch n) 1 else s0
    if !listed || fieldAt data 8 4 ≠ s.stored (oCorpusId n) then .next s1
    else
      match s.corpusFor n with
      | none => .next s1
      | some (nsid, c) =>
        let m := fieldAt data 16 2
        let f := (epoch, owner)
        let held := Tbl.get c.fences (0, 0) m
        if fenceLt f held then
          .next ((s1.count oFenceRefusals 1).emit
            (.mirror (s.coordOfRank owner) mkStale n (leBytes 4 c.id ++ leBytes 2 m ++ leBytes 4 held.1 ++ leBytes 2 held.2)))
        else
          let s3 := s1.raiseMember nsid m f
          let r := s.run n
          let e := fieldAt data 12 4
          if e < r.epoch || (e = r.epoch && r.begun) then .next s3
          else
            .next (s3.updRun n fun r => r.keepList
              { epoch := e, source := m, portion := fieldAt data 18 2, entries := portionEntries (data.drop 32) count })

/-! ## The start of an epoch (R185, R188, R189, R197) -/

/-- R185, R189: the lists of an epoch that a member waits for, when all have arrived. -/
def State.epochLists (s : State) (n epoch : Nat) : Option (List Portion) :=
  match s.corpusFor n with
  | none => none
  | some (_, c) =>
    let ls := (s.run n).lists.filter fun l => l.epoch == epoch
    let find (source portion : Nat) : Option Portion := ls.find? fun l => l.source == source && l.portion == portion
    if s.exactMode n then (List.range (geoCount c.geometry)).mapM fun v => find v 0
    else
      let w := s.stored (oNeighbourS n)
      (List.range (w ^ 3)).mapM fun j => find (sourceMember c.geometry w (s.member n) j) j

/-- R185: the epoch that stream n begins next, when it may: the first one, or the one after an epoch whose batches are
all delivered. (DESIGN CHOICE, log entry 41) -/
def State.nextEpoch (s : State) (n : Nat) : Option Nat :=
  let r := s.run n
  if (s.stream n).state ≠ .running || (s.stream n).draining || s.toCorpus n then none
  else if !r.begun then some r.epoch
  else if r.plan.length ≤ r.nextBatch && r.toAdmit.isEmpty then some (r.epoch + 1)
  else none

/-- R188, R189: the most samples of a plan. -/
def planLimit : Nat := 2 ^ 32 - 1

/-- R331: the earlier epochs that a run keeps when epoch e begins: those of which split batches are open. -/
def RunSt.keepPast (r : RunSt) (e : Nat) : List PastEpoch :=
  ((if r.begun then [r.view] else []) ++ r.past).filter fun p => p.epoch ≠ e && r.batches.any fun b => b.mode ≠ 0 && b.epoch == p.epoch

/-- R186: stream n begins epoch e on its corpus. (DEDUCED, log entry 173) -/
def State.noteEpoch (s : State) (n e : Nat) : State :=
  match s.corpusFor n with
  | some (nsid, _) => s.updCorpus nsid fun c => { c with newest := max c.newest e }
  | none => s

/-- R185, R188, R189, R197: the epoch begins with its merged set; a cursor kept for it stays. -/
def State.beginEpoch (s : State) (n e : Nat) (g : List (Nat × Nat)) : State :=
  let c := (s.corpusFor n).map Prod.snd
  let count := match c with | some c => geoCount c.geometry | none => 1
  let kc := s.kc n
  let order := if s.exactMode n then exactOrder kc g count e (s.member n) else []
  let sorted := if s.exactMode n then order.mergeSort (fun p q => decide (p.1 ≤ q.1)) else g
  let arr := sorted.toArray
  let ord := order.toArray
  let m := s.member n
  let len (p : Nat) : Nat :=
    if s.exactMode n then (ord.getD p (0, 0)).2 else (arr.getD (perm kc p sorted.length 4 e m) (0, 0)).2
  let plan := planBatches (s.batchCfg n) sorted.length len
  (s.noteEpoch n e).updRun n fun r =>
    let keep := r.hasCursor && r.epoch == e
    { r with past := r.keepPast e, hasCursor := keep, epoch := e, begun := true, size := sorted.length, sorted := sorted, order := order.map Prod.fst,
             plan := plan, lists := r.lists.filter fun l => e < l.epoch, toAdmit := [], heldPos := none
             nextBatch := if keep then r.nextBatch else 0, nextOpen := if keep then r.nextBatch else 0
             cursor := if keep then r.cursor else 0, batchCursor := if keep then r.batchCursor else 0
             nextPos := if keep then r.nextPos else 0, partials := if keep then r.partials else []
             lastBackfill := none }

/-- R422: the location set of the next epoch goes to the partner of a protected stream. -/
def State.mirrorLocations (s : State) (n e : Nat) : State :=
  let p := (s.stream n).prot
  if p.state = 2 || p.state = 3 || (p.state = 1 && p.openStep = 4) then
    s.emit (.mirror (s.partnerOf n) mkLocations n (leBytes 4 e ++ locationBytes (s.locationSet n e)))
  else s

/-- R185: EPOCH_BEGIN: the device sends its own lists for the epoch, and begins it once all s³ lists have arrived (one
from each member in exact mode); it then prepares the epoch after. -/
def execEpochBegin (n : Nat) (s : State) : Res :=
  withStream n s fun s =>
    match s.nextEpoch n with
    | none => .next s
    | some e =>
      let s1 := s.ensureLists n e
      match s1.epochLists n e with
      | none => .next s1
      | some ls =>
        let g := mergeEntries (ls.flatMap Portion.entries)
        let s2 := s1.count (oPlanMismatch n) g.2
        if planLimit < g.1.length then .next (s2.holdStream n stUnsupported)
        else
          let s3 := s2.beginEpoch n e g.1
          .next ((s3.ensureLists n (e + 1)).mirrorLocations n (e + 1))

/-! ## Opening a batch (R192, R200, R210) -/

/-- The record of batch k of stream n changed. -/
def State.updBatch (s : State) (n k : Nat) (f : OpenBatch → OpenBatch) : State :=
  s.updRun n fun r => { r with batches := r.batches.map fun b => if b.k = k then f b else b }

/-- R200, R320: batches of stream n that are open: those that are not delivered, and those delivered and not retired, whose slot is
READY or being regenerated, be it since an earlier run. -/
def State.openOf (s : State) (n : Nat) : Nat :=
  ((s.run n).batches.filter fun b => b.state ≠ .ready).length +
  ((s.stream n).dlv.slots.filter fun x =>
    !x.2.bfill && (x.2.state == .ready || (x.2.state == .pending && !x.2.content.isEmpty))).length

/-- R200: batches open on the device. -/
def State.openBatches (s : State) : Nat := ((List.range Config.streams).map s.openOf).sum

/-- R192: an armed threshold set takes effect at the first batch of an epoch. (DESIGN CHOICE, log entry 101) -/
def State.applyThresholds (s : State) (n epoch b : Nat) : State :=
  let t := s.stored (oThreshEpoch n)
  match (s.stream n).armedAfter with
  | some a =>
    if b = 0 && t ≠ 0xFFFFFFFF && t ≤ epoch && a ≤ epoch then
      (s.store (oThreshEpoch n) 0xFFFFFFFF).updStream n fun x =>
        { x with force := x.staged, threshGen := (x.threshGen + 1) % 65536, armedAfter := none }
    else s
  | none => s

/-- R51, R210, R218: the written settings come into force at a batch boundary. -/
def State.applySettings (s : State) (n : Nat) : State :=
  let f := s.writtenSettings n
  let s' := s.updStream n fun x => { x with inForce := f }
  if f.mask = (s.stream n).inForce.mask then s' else s'.exactShared n

/-- R201, R234: attempts of a position that have been settled without ending it. -/
def OpenBatch.tries (b : OpenBatch) (p : Nat) : Nat := (b.entries.filter fun e => e.pos == p && e.kind == 1).length

/-- R201: the sample of attempt t at position p. -/
def State.attempt (s : State) (n k p t cursor : Nat) : ToRun :=
  { k := k, pos := p, try_ := t, sample := if t = 0 then s.sampleAt n p else s.backfillEntry n cursor, since := s.gtc }

/-- R234, R200: the jobs of a batch: those that rebuild placed attempts, the attempt that the first unsettled position
awaits, and the later positions' own samples. -/
def State.batchJobs (s : State) (n cursor : Nat) (b : OpenBatch) : List ToRun :=
  let rest := b.plan.positions.drop b.settled
  ((b.entries.filter fun e => e.rebuild).map fun e =>
    { k := b.k, pos := e.pos, try_ := e.try_, sample := e.sample, since := s.gtc }) ++
  (rest.zipIdx.map fun x => s.attempt n b.k x.1 (if x.2 = 0 then b.tries x.1 else 0) cursor)

/-- R230, R234: partial records set against the positions of the batch. -/
def rebase (first : Nat) (l : List Entry) : List Entry :=
  let base := (l.map Entry.pos).headD 0
  l.map fun e => { e with pos := first + (e.pos - base) }

/-- R234, R201: the samples and digests that recorded attempts name, the cursor going through the entries consumed. -/
def State.nameRecords (s : State) (n : Nat) : Nat → List Entry → List Entry
  | _, [] => []
  | cur, e :: r =>
    let took := e.try_ ≠ 0 && e.kind ≠ 2
    let q := if took then s.backfillEntry n cur else s.sampleAt n e.pos
    let d := if e.status = stMedia || e.status = stSampleNotFound then zeros 24 else s.recordDigest n q
    { e with sample := q, digest := d } :: s.nameRecords n (if took then cur + 1 else cur) r

/-- R319, R320: the slot of batch k of stream n, when it opens. -/
def State.slotOf (s : State) (n k : Nat) : Nat := k % max 1 (s.slotsInUse n)

/-- R318: the header fields that name a batch. -/
def State.nameSlot (s : State) (n : Nat) (b : OpenBatch) (x : Slot) : Slot :=
  { x with seq := b.k, batch := b.b, epoch := b.epoch, fence := (s.stream n).prot.fenceEpoch, split := b.mode ≠ 0, bfill := false }

/-- R320: a FREE slot becomes PENDING when the batch assigned to it opens. (DESIGN CHOICE, log entry 141) -/
def State.pendSlot (s : State) (n : Nat) (b : OpenBatch) : State :=
  if s.toFabric n then s
  else
    let i := b.slot
    if (s.slot n i).state = .free then s.updSlot n i fun x => { s.nameSlot n b x with state := .pending } else s

/-- R200: whether stream n may open its next batch. -/
def State.mayOpen (s : State) (n : Nat) : Bool :=
  let r := s.run n
  (s.stream n).state == .running && !(s.stream n).draining && (s.stream n).prot.moveTo.isNone && r.begun &&
  decide (r.nextOpen < r.plan.length) && decide (s.openOf n < s.stored (oBatchWindow n)) &&
  decide (s.openBatches < Config.maxOpenBatches)

/-- R200, R204, R234: the next batch of stream n opens. (DEDUCED, log entry 169) -/
def State.openNext (s : State) (n : Nat) : State :=
  let r := s.run n
  let s1 := (s.applyThresholds n r.epoch r.nextOpen).applySettings n
  match r.plan[r.nextOpen]? with
  | none => s
  | some p =>
    let kept := if r.hasCursor then r.partials else []
    let es :=
      let l := rebase (p.positions.headD 0) kept
      if r.restored then s.nameRecords n r.batchCursor l else l
    let settled :=
      if kept.isEmpty then 0
      else if p.positions.contains r.nextPos then (p.positions.takeWhile (· ≠ r.nextPos)).length else p.positions.length
    let x := s1.stream n
    let b : OpenBatch :=
      { k := r.k, epoch := r.epoch, b := r.nextOpen, last := r.nextOpen + 1 == r.plan.length, plan := p
        cursor0 := if r.hasCursor then r.batchCursor else r.cursor, threshGen := x.threshGen, thresholds := x.force
        entries := es, settled := settled
        mode := x.inForce.splitMode, cut := x.inForce.splitCut, slot := s1.slotOf n r.k }
    (s1.updRun n fun r =>
      { r with hasCursor := false, restored := false, partials := [], nextOpen := r.nextOpen + 1, k := r.k + 1
               batches := r.batches ++ [b], toAdmit := r.toAdmit ++ s1.batchJobs n r.cursor b }).pendSlot n b

/-- R200: BATCH_OPEN. -/
def execBatchOpen (n : Nat) (s : State) : Res :=
  withStream n s fun s => if s.mayOpen n then .next (s.openNext n) else .next s

/-! ## Split records (R330) -/

/-- R330: the outputs that a split record carries: of completed stages with a successor on the host. A job with an empty H carries
what PACK takes in. -/
def splitOutputs (ds : List Desc) (j : Job) : List (Nat × Bytes) :=
  let goes (i : Nat) : Bool := if j.hostSet = 0 then ds.any fun d => d.id == i && d.type == tPack else j.onHost i
  (ds.filter fun d => j.done d.id && !j.onHost d.id && (succs ds d.id).any goes).map fun d => (d.id, j.output d.id)

/-- R330: the output table and the data that follow, from an offset of the record. -/
def splitData : List (Nat × Bytes) → Nat → Bytes × Bytes
  | [], _ => ([], [])
  | (i, b) :: r, off =>
    let p := padTo b 128
    let q := splitData r (off + p.length)
    (leBytes 1 i ++ zeros 3 ++ leBytes 4 b.length ++ leBytes 8 off ++ q.1, p ++ q.2)

/-- R330: one split record. -/
def splitRecord (ds : List Desc) (j : Job) (status : Nat) (exhausted : Bool) : Bytes :=
  let outs := if status = stSuccess then splitOutputs ds j else []
  let start := roundUp (64 + 16 * outs.length) 128
  let d := splitData outs start
  let len := start + d.2.length
  let mask := stageMask (j.outputs.map Prod.fst)
  leBytes 4 0x52455053 ++ leBytes 2 status ++ leBytes 1 outs.length ++ leBytes 1 (if exhausted then 1 else 0) ++
  leBytes 8 j.sample ++ leBytes 4 j.pos ++ leBytes 4 j.epoch ++ leBytes 8 mask ++ leBytes 8 len ++ sliceZ j.digest 0 24 ++
  padTo d.1 1 ++ zeros (start - 64 - 16 * outs.length) ++ d.2

/-- R330: the content of a split slot. -/
def splitContent (epoch batch : Nat) (records : List Bytes) : Bytes :=
  padTo (leBytes 4 0x50534C53 ++ leBytes 4 records.length ++ leBytes 4 epoch ++ zeros 4 ++ leBytes 8 batch ++ zeros 40) 128 ++
  records.flatten

/-! ## Settling (R199, R201 to R205, R234) -/

/-- R201: the batch that settles now, the first open one. -/
def RunSt.settling (r : RunSt) : Option OpenBatch := r.batches.find? fun b => b.state == .open_

/-- R201: the job of attempt t at position p of batch k. -/
def State.jobAt (s : State) (n k p t : Nat) : Option Job :=
  s.jobs.find? fun j => j.stream == n && j.k == k && j.pos == p && j.try_ == t

/-- R199: what a successful job places in its batch, or the status that excludes it. -/
def State.placing (s : State) (n : Nat) (b : OpenBatch) (j : Job) : Except Nat Bytes :=
  match packOutput (s.imageOf n).image (s.stored (oBatchMode n)) j with
  | .error e => .error e
  | .ok out =>
    if s.stored (oBatchMaxBytes n) < payloadLength (s.packCfg n) (b.entries ++ [{ pos := j.pos, output := out }]) then .error stBound
    else .ok out

/-- R34: the batch assembler has taken the status of an excluded job. -/
def State.takeExcluded (s : State) (j : Job) : State := s.endJobs fun x => x.id == j.id

/-- R200, R206, R228, R330: a batch whose positions are all settled is built. -/
def State.closeBatch (s : State) (n k : Nat) : State :=
  match (s.run n).batches.find? fun b => b.k == k with
  | none => s
  | some b =>
    if b.settled < b.plan.positions.length || b.entries.any fun e => e.rebuild then s
    else if b.mode ≠ 0 then
      s.updBatch n k fun b => { b with state := .settled, content := splitContent b.epoch b.b (b.entries.map Entry.output) }
    else
      let q := buildBatch (s.manifestCfg n) (s.packCfg n) (imgModels (s.imageOf n).image) b
      s.updBatch n k fun b => { b with state := .settled, content := q.1, digest := q.2 }

/-- R204: batches of which no position is settled start at the present backfill cursor. -/
def RunSt.moveCursors (r : RunSt) : RunSt :=
  { r with batches := r.batches.map fun b =>
      if b.state = .open_ && b.settled = 0 && b.entries.isEmpty then { b with cursor0 := r.cursor } else b }

/-- R201: an attempt is recorded; `fin`: it ends its position; `took`: it consumed a backfill entry. -/
def State.record (s : State) (n k : Nat) (es : List Entry) (fin took : Bool) : State :=
  let s1 := s.updBatch n k fun b => { b with entries := b.entries ++ es, settled := b.settled + (if fin then 1 else 0) }
  ((s1.updRun n fun r => { r with cursor := r.cursor + (if took then 1 else 0) }).closeBatch n k).updRun n RunSt.moveCursors

/-- R216: the release slot of a replacement job of a stream in EXACT. -/
def State.replacementSlot (s : State) (n : Nat) : Option Nat × State :=
  let x := (s.stream n).exact
  if x.state = 2 then (some x.nextSlot, s.updExact n fun x => { x with nextSlot := x.nextSlot + 1 }) else (none, s)

/-- R201: an attempt that does not place its sample, under the stream's policy. -/
def State.settleExcluded (s : State) (n : Nat) (b : OpenBatch) (j : Job) (st : Nat) : State :=
  let policy := s.stored (oExclPolicy n)
  let orig := s.sampleAt n j.pos
  let d := if st = stMedia || st = stSampleNotFound then zeros 24 else j.digest
  let tail : Entry := { sample := j.sample, pos := j.pos, status := st, try_ := j.try_, kind := 1, digest := d }
  let first := match b.entries.find? fun e => e.pos == j.pos && e.kind == 1 with
    | some e => e.status
    | none => st
  let pad : Entry := { sample := orig, pos := j.pos, status := first, try_ := j.try_, kind := 2 }
  let took := j.try_ ≠ 0
  if policy = 2 then s.record n b.k [pad] true false
  else if policy = 1 then s.record n b.k [tail] true false
  else
    let cursor := (s.run n).cursor + (if took then 1 else 0)
    if s.stored (oBackfillTries n) < j.try_ + 1 || (s.run n).sorted.length ≤ cursor then s.record n b.k [tail, pad] true took
    else
      let q := (s.record n b.k [tail] false took).replacementSlot n
      q.2.updRun n fun r => { r with toAdmit := { s.attempt n b.k j.pos (j.try_ + 1) cursor with slot := q.1 } :: r.toAdmit }

/-- R201, R234: the attempts of a batch from a placed one that could not be rebuilt are settled again. -/
def State.settleAgain (s : State) (n : Nat) (b : OpenBatch) (e : Entry) : State :=
  let keep := b.entries.takeWhile fun x => !(x.pos == e.pos && x.try_ == e.try_ && x.kind == 0)
  let settled := (b.plan.positions.takeWhile fun p => p ≠ e.pos).length
  let cursor := b.cursor0 + OpenBatch.consumed { b with entries := keep }
  let s1 := s.endJobs fun j => j.stream == n && j.k == b.k && e.pos < j.pos
  s1.updRun n fun r =>
    let b' := { b with entries := keep, settled := settled }
    let later := (b.plan.positions.drop (settled + 1)).map fun p => s.attempt n b.k p 0 0
    { r with cursor := cursor, batches := r.batches.map fun x => if x.k = b.k then b' else x
             toAdmit := later ++ r.toAdmit.filter fun t => t.k ≠ b.k }

/-- R51, R201, R331: whether the host still settles an earlier batch of the epoch, whose replacements come before those of batch b.
(DEDUCED, log entry 38) -/
def State.hostSettles (s : State) (n : Nat) (b : OpenBatch) : Bool :=
  b.mode = 0 && s.stored (oExclPolicy n) = 0 && (s.run n).batches.any fun x => x.mode ≠ 0 && x.epoch == b.epoch && decide (x.k < b.k)

/-- R34, R201, R199, R330: one settled attempt of stream n, when the attempt that comes next has its outcome. -/
def State.settleNext (s : State) (n : Nat) : Option State :=
  match (s.run n).settling with
  | none => none
  | some b =>
    if s.hostSettles n b then none
    else match b.entries.find? fun e => e.rebuild with
    | some e =>
      (s.jobAt n b.k e.pos e.try_).bind fun j => j.status.map fun st =>
        let r : Except Nat Bytes :=
          if b.mode ≠ 0 then .ok (splitRecord (s.descsOf n) j st false)
          else if st = stSuccess then packOutput (s.imageOf n).image (s.stored (oBatchMode n)) j else .error st
        match r with
        | .ok out =>
          let fill (x : Entry) : Entry :=
            if x.rebuild && x.pos = e.pos && x.try_ = e.try_ then { x with output := out, digest := j.digest, rebuild := false } else x
          let s1 := s.updBatch n b.k fun b => { b with entries := b.entries.map fill }
          (if st = stSuccess then s1.packJob j.id else s1.takeExcluded j).closeBatch n b.k
        | .error _ => s.settleAgain n b e
    | none =>
      match b.plan.positions[b.settled]? with
      | none => some (s.closeBatch n b.k)
      | some p =>
        let t := if b.mode ≠ 0 then 0 else b.tries p
        (s.jobAt n b.k p t).bind fun j => j.status.map fun st =>
          let e : Entry := { sample := j.sample, pos := p, status := st, try_ := t, digest := j.digest }
          if b.mode ≠ 0 then
            let s1 := s.record n b.k [{ e with output := splitRecord (s.descsOf n) j st false }] true false
            if st = stSuccess then s1.packJob j.id else s1.takeExcluded j
          else if st = stSuccess then
            match s.placing n b j with
            | .ok out =>
              (s.record n b.k [{ e with status := stSuccess, output := out }] true (t ≠ 0)).packJob j.id
            | .error x => ((s.settleExcluded n b j x).count oJobsExcluded 1).takeExcluded j
          else (s.settleExcluded n b j st).takeExcluded j

/-- R341: an ingest job that ended with a final status is taken: its INGEST command is refused with that status.
(DESIGN CHOICE, log entry 47) -/
def State.settleIngest (s : State) (n : Nat) : Option State :=
  (s.jobs.find? fun j => j.stream == n && j.state == .excluded).map fun j =>
    let s1 := s.takeExcluded j
    match j.ingest with
    | some i => s1.endSample i.1 j.sample (j.status.getD stSuccess)
    | none => s1

/-- R201: SETTLE_POSITION. (DEDUCED, log entry 38) -/
def execSettlePosition (n : Nat) (s : State) : Res :=
  withStream n s fun s =>
    if (s.stream n).state ≠ .running then .next s
    else
      match (if s.toCorpus n then s.settleIngest n else s.settleNext n) with
      | some s' => .next s'
      | none => .next s

/-! ## Clock-exact release and launch (R216, R226, R227) -/

/-- R216: the first covered stage of a job and whether its input is complete. -/
def State.coveredReady (s : State) (j : Job) : Bool :=
  match (s.descsOf j.stream).find? fun d => j.covers d && !j.onHost d.id with
  | some d => d.preds.all j.done
  | none => true

/-- R216: the release cycle of a slot has come; there are 7 CORE cycles in 5 ticks. -/
def State.releaseDue (s : State) (j : Job) : Bool :=
  let x := (s.stream j.stream).exact
  match j.relSlot with
  | some k => x.launched && decide (5 * (k * s.stored (oExactInterval j.stream)) ≤ 7 * (s.clk.ticks - x.t0))
  | none => false

/-- R216, R218: EXACT_RELEASE: the job of the slot whose cycle has come is released to its first covered stage; one whose
input is not complete is late, and is released when it is. -/
def execExactRelease (job : Nat) (s : State) : Res :=
  whenUp s fun s =>
    match s.job job with
    | none => .next s
    | some j =>
      if (s.stream j.stream).exact.state ≠ 2 || j.released || !s.releaseDue j then .next s
      else if s.coveredReady j then .next (s.updJob job fun j => { j with released := true })
      else
        .next ((((s.updExact j.stream fun x => { x with late := x.late + 1 }).exactLose j.stream 5).updJob job fun j =>
          { j with released := true }))

/-- R226, R227: LAUNCH_WINDOW: a started stream's launch window comes, at a phase-zero instant. (DEDUCED, log entry 168) -/
def execLaunchWindow (n : Nat) (s : State) : Res :=
  withStream n s fun s =>
    let x := s.stream n
    let at_ := s.stored (oLaunchAt n)
    if x.state = .running && !x.exact.launched && s.phaseZero && (at_ ≤ s.gtc || at_ < x.exact.startGtc) then
      .next (s.updExact n fun e => { e with launched := true, t0 := s.clk.ticks })
    else .next s

end Sys2Proof.Machine
end

