-- ==== Sys2Proof/Machine/Slots.lean ====
section
/-! DEFINITION. Delivery: into result slots (R318 to R320, R423) and to a fabric port (R377), the end of a delivery (R34,
R422), the stream doorbells (R325 to R331), reads and writes of the result window (R312 to R315, R321, R322, R328, R329),
the host deadline (R332) and the end of a pause (R233). -/

namespace Sys2Proof.Machine

/-! ## Beginning and ending a delivery (R34, R422, R423) -/

/-- R423: DELIVER of a protected stream waits while two delivered batches are not acknowledged by the mirror. -/
def State.mirrorAllows (s : State) (n : Nat) : Bool :=
  let p := (s.stream n).prot
  !(p.state == 2 || p.state == 3) || p.unacked.length ≤ 1

/-- R319, R423: the batch whose delivery comes next, when it is settled and may begin. -/
def State.nextDelivery (s : State) (n : Nat) : Option OpenBatch :=
  if (s.stream n).state ≠ .running || !s.mirrorAllows n then none
  else (s.run n).firstOpen.bind fun b => if b.state = .settled then some b else none

/-- R34: the jobs of batch k of stream n that are in state a go to state b. -/
def State.moveJobs (s : State) (n k : Nat) (a b : JobState) : State :=
  let move (j : Job) : Job := if j.stream = n && j.k = k && j.state = a then { j with state := b } else j
  { s with jobs := s.jobs.map move }

/-- R34, R422: a batch of stream n has been delivered: its jobs, the cursors, the counters and the mirror snapshot. -/
def State.delivered (s : State) (n : Nat) (b : OpenBatch) (js : JobState) : State :=
  let s1 := s.moveJobs n b.k .packed js
  let s2 := (s1.updStream n fun x => { x with lastBatchDigest := if b.digest.isEmpty then x.lastBatchDigest else b.digest }).updRun n
    fun r => { r with delivered := r.delivered + 1, nextBatch := b.b + 1 }
  let s3 := s2.count oBatchesDelivered 1
  let p := (s3.stream n).prot
  if p.state = 2 || p.state = 3 || (p.state = 1 && p.openStep = 4) then s3.sendSnapshot n else s3

/-- R34: the jobs of batch k of stream n are RETIRED. -/
def State.retireJobs (s : State) (n k : Nat) : State := s.moveJobs n k .delivered .retired

/-! ## Result slots (R319, R320) -/

/-- R319: the slot of a batch can take it. -/
def State.slotTakes (s : State) (n : Nat) (b : OpenBatch) : Bool :=
  let x := (s.slot n b.slot).state
  x == .free || x == .pending

/-- R319, R320, R423: SLOT_DELIVER: DELIVER begins to write the next settled batch into its slot. -/
def execSlotDeliver (n : Nat) (s : State) : Res :=
  withStream n s fun s =>
    if s.toFabric n then .next s
    else
      match s.nextDelivery n with
      | none => .next s
      | some b =>
        if s.slotTakes n b then
          .next ((s.updSlot n b.slot fun x => { s.nameSlot n b x with state := .pending }).updBatch n b.k fun b =>
            { b with state := .writing })
        else .next s

/-- R318: slot offset of the manifest trailer. -/
def digestPtr (es : List Entry) : Nat := 128 + 64 + 48 * es.length

/-- R320, R323: a slot becomes READY with its content. -/
def State.readySlot (s : State) (n i : Nat) (content : Bytes) (ptr : Nat) : State :=
  s.updSlot n i fun x =>
    { x with state := .ready, content := content, digestPtr := ptr, readyGtc := s.gtc, status := stSuccess, poisoned := [], timedOut := false }

/-- R327: a READY slot that is being regenerated. -/
def State.regenerating (s : State) (n : Nat) : Option Nat :=
  ((s.stream n).dlv.slots.find? fun x => x.2.state == .pending && !x.2.content.isEmpty).map Prod.fst

/-- R331: the batch of the epoch that holds a position. -/
def PastEpoch.batchHolding (v : PastEpoch) (p : Nat) : Nat := (v.plan.findIdx? fun b => b.positions.contains p).getD 0

/-- R320, R327, R331: DELIVER_WRITTEN: the write of a whole batch ends: of the batch being written, of one being
regenerated, or of the record of a backfill request. -/
def execDeliverWritten (n : Nat) (s : State) : Res :=
  withStream n s fun s =>
    if s.toFabric n then .next s
    else
      match (s.run n).batches.find? fun b => b.state == .writing with
      | some b =>
        let ptr := if b.mode ≠ 0 then 0 else digestPtr b.entries
        let s1 := s.readySlot n b.slot b.content ptr
        let s2 := (s1.updBatch n b.k fun b => { b with state := .ready }).updDlv n fun d => { d with readySeq := d.readySeq + 1 }
        .next (s2.delivered n b .delivered)
      | none =>
        match s.regenerating n with
        | some i => let x := s.slot n i; .next (s.readySlot n i x.content x.digestPtr)
        | none =>
          match s.jobs.find? fun j => j.stream == n && j.k == backfillK && j.status.isSome with
          | some j =>
            let r := splitRecord (s.descsOf n) j (j.status.getD stSuccess) false
            let b := (((s.run n).epochOf j.epoch).map fun v => v.batchHolding j.pos).getD 0
            let s1 := s.readySlot n (s.backfillSlot n) (splitContent j.epoch b [r]) 0
            .next ((s1.endJobs fun x => x.id == j.id).updRun n fun r => { r with backfillFor := none })
          | none => .next s

/-! ## Fabric ports (R376 to R378) -/

/-- R377: PORTS of the image's DELIVER stage. -/
def imgDlvPorts (b : Bytes) : List Nat := [6, 7].filter fun k => bit (imgPorts b) (k - 6)

/-- R440: the PORT_DOWN hook holds port k. -/
def State.hookHolds (s : State) (k : Nat) : Bool :=
  match s.ft.hook with
  | some h => h.1 == 2 && h.2.1 == k
  | none => false

/-- R377, R440: of the allowed ports whose domain is not OFF and that no hook holds, the one with the shorter queue. -/
def State.deliveryPort (s : State) (n : Nat) : Option Nat :=
  leastBy (fun k => (s.port k).queue.length) ((imgDlvPorts (s.imageOf n).image).filter fun k => !s.domOff (portDomain k) && !s.hookHolds k)

/-- R377: the immediate of batch k. -/
def State.immediate (s : State) (n k : Nat) : Nat := (s.stream n).prot.fenceEpoch % 256 * 2 ^ 24 + k % 2 ^ 24

/-- R377: offset of batch k's remote slot. -/
def State.remoteOffset (s : State) (n k : Nat) : Nat := k % max 1 (s.stored (oDlvRslots n)) * s.stored (oDlvRslotBytes n)

/-- R376: the write of a batch on a RoCEv2 queue pair. -/
def State.sendRdma (s : State) (n port : Nat) (b : OpenBatch) : State :=
  let q := dlvQpn n
  let last := ((Tbl.get s.fabric.qps {} q).psn + max 1 (ceilDiv b.content.length 4096) - 1) % 2 ^ 24
  ((s.emit (.rdmaWrite port (s.stored (oDlvRemoteQpn n)) (s.stored (oDlvRaddr n) + s.remoteOffset n b.dlvSeq) (s.stored (oDlvRkey n))
    (s.immediate n b.dlvSeq) b.content)).count oFabricTxBytes b.content.length).updQp q fun x =>
      { x with psn := (last + 1) % 2 ^ 24, unacked := x.unacked ++ [(b.dlvSeq, last)] }

/-- R355, R377: the WRITE_NOTIFY of a batch on Midway. -/
def State.sendNotify (s : State) (n : Nat) (b : OpenBatch) : State :=
  s.sendMessage
    { vl := s.stored (oServiceClass n), tenant := (s.tenantOf n).getD 0, dst := s.stored (oDlvRemoteCoord n), op := opWriteNotify,
      dqp := s.stored (oDlvRemoteQpn n), fence := (s.stream n).prot.fenceEpoch, rkey := s.stored (oDlvRkey n),
      rbase := s.remoteOffset n b.dlvSeq / 128 % 2 ^ 32 } b.content .deliver n

/-- R34, R377: the last write of the batch that stream n is writing is acknowledged: it is delivered and retired. -/
def State.fabricAcked (s : State) (n : Nat) : State :=
  match (s.run n).batches.find? fun b => b.state == .writing with
  | none => s
  | some b =>
    let s1 := (s.delivered n b .retired).updDlv n fun d => { d with acked := d.acked + 1 }
    s1.updRun n fun r => { r with batches := r.batches.filter fun x => x.k ≠ b.k }

/-- R34: BATCH_BUFFERS_RETURNED: the buffers of a retired batch are back in their pools; its jobs are FREE. -/
def execBatchBuffersReturned (n k : Nat) (s : State) : Res :=
  withStream n s fun s => .next (s.endJobs fun j => j.stream == n && j.k == k && j.state == .retired)

/-! ## Doorbells (R325 to R331) -/

/-- R326, R325: a refused doorbell. -/
def State.doorRefused (s : State) (n status slot : Nat) : State :=
  s.updDlv n fun d => { d with dbLast := status, dbSlot := slot % 65536, dbCount := (d.dbCount + 1) % 2 ^ 32 }

/-- R329: a scrub of the stream's tenant runs. -/
def State.scrubbed (s : State) (n : Nat) : Bool :=
  match s.tenantOf n with
  | some t => s.scrubs t
  | none => false

/-- R326: the status with which DB_RETIRE or DB_REDELIVER is refused, or SUCCESS. -/
def State.doorCheck (s : State) (n slot gen : Nat) : Nat :=
  if s.scrubbed n then stScrub
  else if s.stored (oSlotCount n) ≤ slot then stSlotNotReady
  else if (s.slot n slot).gen ≠ gen then stSlotRetired
  else if (s.slot n slot).state ≠ .ready then stSlotNotReady
  else stSuccess

/-- R320: a READY slot is retired; in LOADED or MOVED it becomes RETIRED at once. -/
def State.retireSlot (s : State) (n i : Nat) : State :=
  let st := (s.stream n).state
  let x := s.slot n i
  let s1 := s.updSlot n i fun x =>
    if st = .loaded || st = .moved then { x.freed with state := .retired } else x.freed
  if x.bfill then s1
  else
    let b := (s.run n).batches.find? fun b => b.slot == i && b.state == .ready
    let s2 := s1.updDlv n fun d => { d with retiredSeq := d.retiredSeq + 1 }
    match b with
    | some b => (s2.retireJobs n b.k).updRun n fun r => { r with batches := r.batches.filter fun y => y.k ≠ b.k }
    | none => s2

/-- R326: DB_RETIRE. -/
def execDbRetire (n value : Nat) (s : State) : Res :=
  withStream n s fun s0 =>
    let s := s0.touch 0
    let i := bits value 15 0
    let st := s.doorCheck n i (bits value 63 32)
    if st = stSuccess then .next (s.retireSlot n i) else .next (s.doorRefused n st i)

/-- R327: DB_REDELIVER: the slot is PENDING while its batch is regenerated. (DESIGN CHOICE, log entry 53) -/
def execDbRedeliver (n value : Nat) (s : State) : Res :=
  withStream n s fun s0 =>
    let s := s0.touch 0
    let i := bits value 15 0
    let st := if !s.scrubbed n && (s.stream n).state = .moved then stMoved else s.doorCheck n i (bits value 63 32)
    if st = stSuccess then .next ((s.updSlot n i fun x => { x with state := .pending }).count (oRedeliveries n) 1)
    else .next (s.doorRefused n st i)

/-- R331: the status with which DB_BACKFILL is refused, or SUCCESS. -/
def State.backfillCheck (s : State) (n pos epoch : Nat) : Nat :=
  let r := s.run n
  let split := r.batches.filter fun b => b.mode ≠ 0
  if s.scrubbed n then stScrub
  else if (!s.isSplit n && split.isEmpty) || (s.slot n (s.backfillSlot n)).state ≠ .free then stSlotNotReady
  else
    match r.epochOf epoch with
    | none => stSlotRetired
    | some v =>
      if !(split.any fun b => b.epoch == epoch) || v.lastBackfill.any fun p => pos < p then stSlotRetired else stSuccess

/-- R331: a backfill request of an epoch noted, with `took` for the entry that it takes. -/
def RunSt.requested (r : RunSt) (e pos : Nat) (took : Bool) : RunSt :=
  let c := if took then 1 else 0
  if r.begun && r.epoch == e then
    { r with lastBackfill := some pos, cursor := r.cursor + c, batchCursor := r.batchCursor + (if r.hasCursor then c else 0) }
  else { r with past := r.past.map fun p => if p.epoch = e then { p with lastBackfill := some pos, cursor := p.cursor + c } else p }

/-- R331: an accepted backfill request: the job of the next entry of the epoch's list, or a record with EXHAUSTED. -/
def State.backfillTake (s : State) (n pos epoch : Nat) : State :=
  match (s.run n).epochOf epoch with
  | none => s
  | some v =>
    let i := s.backfillSlot n
    let b := v.batchHolding pos
    let done := decide (v.sorted.length ≤ v.cursor)
    let s1 := (s.updRun n fun r => (r.requested epoch pos (!done)).moveCursors).updSlot n i fun x =>
      { x with state := .pending, split := true, bfill := true, batch := b, epoch := epoch, fence := (s.stream n).prot.fenceEpoch }
    if done then
      let rec_ := splitRecord [] { id := 0, stream := n, epoch := epoch, pos := pos, sample := s.sampleIn n v pos } stSuccess true
      s1.readySlot n i (splitContent epoch b [rec_]) 0
    else
      s1.updRun n fun r =>
        { r with backfillFor := some (epoch, pos)
                 toAdmit := { k := backfillK, pos := pos, try_ := 1, sample := s.backfillIn n v v.cursor, epoch := some epoch, since := s.gtc } :: r.toAdmit }

/-- R331: DB_BACKFILL. -/
def execDbBackfill (n value : Nat) (s : State) : Res :=
  withStream n s fun s0 =>
    let s := s0.touch 0
    let pos := bits value 31 0
    let st := s.backfillCheck n pos (bits value 63 32)
    if st = stSuccess then .next (s.backfillTake n pos (bits value 63 32)) else .next (s.doorRefused n st pos)

/-! ## The result window (R312 to R315, R318, R321, R322, R328, R329) -/

/-- R313: the stream and slot whose window holds a DPA, with the offset in the slot. -/
def State.windowAt (s : State) (dpa : Nat) : Option (Nat × Nat × Nat) :=
  (List.range Config.streams).findSome? fun n =>
    let size := s.stored (oSlotSize n)
    let off := s.stored (oWinOffset n)
    if off ≤ dpa && dpa < off + s.stored (oSlotCount n) * size && size ≠ 0 then
      some (n, (dpa - off) / size, (dpa - off) % size) else none

/-- R318: the code of a slot state. -/
def SlotState.code : SlotState → Nat
  | .free => 0 | .pending => 1 | .ready => 2 | .retired => 3

/-- R318, R329: the header of a slot of stream n, as a read gets it. -/
def slotHeader (n : Nat) (x : Slot) (hidden : Bool) : Bytes :=
  let st := if hidden then 0 else x.state.code
  let named := st = 1 || st = 2
  let ready := st = 2
  let z (b : Bool) (v : Nat) : Nat := if b then v else 0
  leBytes 4 (st + 256 * n + (if x.split then 65536 else 0) + (if x.bfill then 131072 else 0)) ++ leBytes 4 x.gen ++
  leBytes 8 (z named x.seq) ++ leBytes 8 (z named x.batch) ++ leBytes 4 (z named x.epoch) ++ leBytes 4 (z named x.fence) ++
  leBytes 8 (z ready x.content.length) ++ leBytes 8 (z ready x.digestPtr) ++ leBytes 8 x.status ++ leBytes 8 (z ready x.readyGtc)

/-- R321, R322: the 64-byte line at an offset of a slot. -/
def slotLine (n : Nat) (x : Slot) (hidden : Bool) (off : Nat) : Bytes :=
  if off < 64 then slotHeader n x hidden
  else if off < 128 || hidden || x.state ≠ .ready then zeros 64
  else sliceZ x.content (off - 128) 64

/-- R321, R328: a read of the line at a DPA: the bytes, the status with which it is withheld, and the state after it. -/
def State.readWindow (s : State) (dpa : Nat) : Bytes × Nat × State :=
  match s.windowAt dpa with
  | none => (zeros 64, stSuccess, s)
  | some (n, i, o) =>
    let off := o - o % 64
    let x := s.slot n i
    let hidden := s.scrubbed n
    match (if x.state = .ready && !hidden && 128 ≤ off then x.poisoned.find? fun p => p.1 == off else none) with
    | some p => (zeros 64, p.2, (s.updSlot n i fun x => { x with status := p.2 }).count oPoisonReturned 1)
    | none => (slotLine n x hidden off, stSuccess, s)

/-- R313: the class whose CXL.mem queue carries a read of a DPA. -/
def State.windowClass (s : State) (dpa : Nat) : Nat :=
  match s.windowAt dpa with
  | some (n, _, _) => s.stored (oServiceClass n)
  | none => 7

/-- R321, R328: CXL_MEM_READ of the 64-byte line that holds a DPA. (PRESUMED, log entry 164) -/
def execCxlMemRead (dpa : Nat) (s : State) : Res :=
  if s.stored oResultDpa * gib ≤ dpa then .fault .dpaUnmapped
  else whenUp s fun s =>
    let r := s.readWindow dpa
    .next (((r.2.2.offer 20 (s.windowClass dpa) 64).count oCxlMemReadBytes 64).emit (.cxlData r.1 (r.2.1 ≠ stSuccess)))

/-- R315: CXL_MEM_WRITE is completed and discarded. (PRESUMED, log entry 164) -/
def execCxlMemWrite (dpa : Nat) (data : Bytes) (s : State) : Res :=
  if s.stored oResultDpa * gib ≤ dpa then .fault .dpaUnmapped
  else whenUp s fun s =>
    let s1 := if (s.windowAt dpa).isSome && !data.isEmpty then s.count oHdmWritesDiscarded 1 else s
    .next (s1.emit .cxlWriteDone)

/-- R332, R410: the wake event of a slot that stays READY too long carries a notice; where the notice waits or is lost, the
wake event is sent alone. (DEDUCED, log entry 174) -/
def State.hostTimeout (s : State) (n slot : Nat) : State :=
  let s1 := s.notice 3 stHostTimeout n slot
  if (s1.chan 0).posted = (s.chan 0).posted then s1.wakeHost 0 else s1

/-- R332: HOST_DEADLINE_EXPIRY: a split slot that stays READY too long. -/
def execHostDeadlineExpiry (n slot : Nat) (s : State) : Res :=
  withStream n s fun s =>
    let x := s.slot n slot
    if x.state = .ready && x.split && !x.timedOut && x.readyGtc + s.stored (oHostDeadline n) * Config.ms ≤ s.gtc then
      .next (((s.updSlot n slot fun x => { x with timedOut := true }).doorRefused n stHostTimeout slot).count (oHostTimeouts n) 1
        |>.hostTimeout n slot)
    else .next s

/-! ## The end of a pause (R233) -/

/-- R233: the next settled batch can be delivered now. -/
def State.canDeliver (s : State) (n : Nat) : Bool :=
  match s.nextDelivery n with
  | some b =>
    if s.toFabric n then
      decide ((s.stream n).dlv.dlvSeq < (s.stream n).dlv.granted) && !decide ((s.stream n).prot.fenceEpoch < (s.stream n).dlv.creditFence)
    else s.slotTakes n b
  | none => false

/-- R233: stream n, which drains, has no job that still runs, nothing to settle and no batch to deliver. -/
def State.drained (s : State) (n : Nat) : Bool :=
  !(s.jobs.any fun j => j.stream == n && j.undelivered && j.status.isNone) &&
  (if s.toCorpus n then s.settleIngest n else s.settleNext n).isNone &&
  !((s.run n).batches.any fun b => b.state == .writing) && !s.canDeliver n

/-- R39, R233: PAUSE_DRAIN_DONE: the stream takes its snapshot and enters PAUSED. -/
def execPauseDrainDone (n : Nat) (s : State) : Res :=
  withStream n s fun s =>
    if (s.stream n).state = .running && (s.stream n).draining && s.drained n then
      .next ((s.parkStream n).updStream n fun x => { x with state := .paused, draining := false })
    else .next s

end Sys2Proof.Machine
end

