-- ==== Sys2Proof/Machine/FaultTol.lean ====
section
/-! DEFINITION. Fault tolerance: restoring a snapshot (R235), heartbeats and declaration (R425 to R428), the fence (R429 to
R431), takeover (R433, R436), the mirror and mark traffic (R420 to R424, R435, R437), partial resets (R439) and rehearsal
hooks (R440, R441). -/

namespace Sys2Proof.Machine

/-! ## Restoring a snapshot (R234, R235) -/

/-- R230: a partial record of a snapshot, with the first position of NEXT_BATCH still to be added. -/
def partialEntry (b : Bytes) : Entry :=
  { pos := fieldAt b 0 2, status := fieldAt b 2 2, try_ := fieldAt b 4 1, kind := fieldAt b 5 1, rebuild := fieldAt b 5 1 == 0 }

/-- R230: the partial records of a snapshot. -/
def partialEntries (b : Bytes) : Nat → List Entry
  | 0 => []
  | k + 1 => partialEntry b :: partialEntries (b.drop 8) k

/-- R230: LENGTH agrees with the counts and the bytes received. -/
def snapLengthOk (b : Bytes) : Bool :=
  let n := 576 + 4160 * fieldAt b 0xD2 2 + 8 * fieldAt b 0xD4 4
  fieldAt b 8 4 == n && b.length == n && fieldAt b 0xD2 2 ≤ 16 && fieldAt b 0xD4 4 ≤ 98304

/-- R235: step 4: the snapshot is of this stream's image, tenant and settings. -/
def State.snapMatches (s : State) (n : Nat) (b : Bytes) : Bool :=
  let i := s.imageOf n
  sliceZ b 0x20 64 == sliceZ i.digest 0 64 && fieldAt b 0xC 4 == imageTenant i && fieldAt b 0x90 8 == s.stored (oSeed n) &&
  fieldAt b 0x98 4 == s.stored (oCorpusId n) && fieldAt b 0x9C 2 == s.member n && sliceZ b 0x60 32 == s.settingsDigest n &&
  sliceZ b 0x80 16 == rngKey (s.stored (oSeed n)) (s.stored (oCorpusId n))

/-- R429, R430: the fence epoch that the device holds for stream n: its own record and its member's location entry. -/
def State.heldEpoch (s : State) (n : Nat) : Nat :=
  match s.corpusFor n with
  | some (_, c) => max (s.stream n).prot.fenceEpoch (Tbl.get c.fences (0, 0) (s.member n)).1
  | none => (s.stream n).prot.fenceEpoch

/-- R235: the status of the first check that fails, or SUCCESS; `fence` says whether step 5 is made. -/
def State.restoreStatus (s : State) (n : Nat) (b : Bytes) (fence : Bool) : Nat :=
  let v := fieldAt b 4 2
  if fieldAt b 0 4 ≠ 0x50414E53 || !(v == Config.snapVersion || v + 1 == Config.snapVersion) || !snapLengthOk b then
    stImageMalformed
  else if sliceZ b (b.length - 64) 32 ≠ snapMac (s.snapKey (imageTenant (s.imageOf n))) (b.take (b.length - 64)) then stImageSig
  else if !bit Config.arithRevs (fieldAt b 6 2) then stImageRev
  else if !s.snapMatches n b then stImageMalformed
  else if fence && fieldAt b 0xA4 4 < s.heldEpoch n then stStaleFence
  else stSuccess

/-- R230, R234, R236: stream n takes the cursors, thresholds and delivery counts of a snapshot. (DEDUCED, log entry 79) -/
def State.applySnapshot (s : State) (n : Nat) (b : Bytes) : State :=
  let codec := fieldAt b 0xD2 2
  let recs := if bit (fieldAt b 0x9E 2) 0 then partialEntries (b.drop (512 + 4160 * codec)) (fieldAt b 0xD4 4) else []
  let words (o : Nat) : List Nat := (List.range 16).map fun i => fieldAt b (o + 4 * i) 4
  let epoch := fieldAt b 0xA0 4
  let te := fieldAt b 0xD8 4
  let fresh := fieldAt b 0xB0 8 == 0 && recs.isEmpty
  let run : RunSt :=
    { hasCursor := true, restored := true, epoch := epoch, size := fieldAt b 0xA8 8, nextBatch := fieldAt b 0xB0 8,
      nextOpen := fieldAt b 0xB0 8, nextPos := fieldAt b 0xB8 8, batchCursor := fieldAt b 0xC0 8, cursor := fieldAt b 0xC8 8,
      partials := recs, ingested := (s.run n).ingested }
  ((s.store (oThreshEpoch n) te).updStream n fun x =>
    { x with run := run, threshGen := fieldAt b 0xD0 2, force := words 0xE0, staged := words 0x120,
             armedAfter := if te = 0xFFFFFFFF then none else some (if fresh then epoch else epoch + 1)
             dlv := { x.dlv with dlvSeq := fieldAt b 0x160 8, granted := fieldAt b 0x168 8 }
             snapshot := some b, snapSeq := fieldAt b 0x10 8 }).freeRetired n

/-- R235, R320: a snapshot is restored into stream n, or the restore is refused with a status. -/
def State.restoreBytes (s : State) (n : Nat) (b : Bytes) (fence : Bool) : Except Nat State :=
  let st := s.restoreStatus n b fence
  if st = stSuccess then .ok (s.applySnapshot n b) else .error st

/-! ## Mirror records (R420, R421) -/

/-- R420: the mirror record m. -/
def State.mirror (s : State) (m : Nat) : Option Mirror := Tbl.find s.ft.mirrors m

/-- R420: the state with mirror record m replaced. -/
def State.setMirror (s : State) (m : Nat) (x : Mirror) : State :=
  { s with ft := { s.ft with mirrors := Tbl.set s.ft.mirrors m x } }

/-- R420: the number of the record that mirrors a stream of a device. -/
def State.mirrorFor (s : State) (coord stream : Nat) : Option (Nat × Mirror) :=
  s.ft.mirrors.find? fun r => r.2.owner == coord && r.2.stream == stream

/-- R420: a free mirror record. -/
def State.freeMirror (s : State) : Option Nat :=
  (List.range Config.mirrors).find? fun m => (s.mirror m).isNone

/-- R420: an image's mirror pins changed. -/
def State.pin (s : State) (digest : Bytes) (f : Nat → Nat) : State :=
  match s.slotWith digest with
  | some k => { s with images := Tbl.upd s.images {} k fun i => { i with pins := f i.pins } }
  | none => s

/-- R420: mirror record m is freed and its pin with it. -/
def State.closeRecord (s : State) (m : Nat) : State :=
  match s.mirror m with
  | some x => State.pin { s with ft := { s.ft with mirrors := Tbl.del s.ft.mirrors m } } x.image fun p => p - 1
  | none => s

/-- R438: every mirror record of other devices' streams is closed. -/
def State.closeRecords (s : State) : State := s.ft.mirrors.foldl (fun s r => s.closeRecord r.1) s

/-- R429: the highest fence record that the device holds for a member of a corpus: in its mirror records, its member
location entries and its own streams. -/
def State.heldFence (s : State) (corpus member : Nat) : Nat × Nat :=
  let own := (List.range Config.streams).filterMap fun n =>
    if s.stored (oCorpusId n) = corpus && s.member n = member && (s.stream n).state ≠ .idle then some (s.fenceOf n) else none
  let mirs := s.ft.mirrors.filterMap fun r => if r.2.member == (corpus, member) then some r.2.fence else none
  let loc := match s.corpusOf corpus with
    | some (_, c) => [Tbl.get c.fences (0, 0) member]
    | none => []
  (own ++ mirs ++ loc).foldl (fun a b => if fenceLt a b then b else a) (0, 0)

/-- R429: what a refusal with STALE_EPOCH_FENCE tells the sender: corpus, member and the record held. -/
def staleBody (corpus member : Nat) (f : Nat × Nat) : Bytes :=
  leBytes 4 corpus ++ leBytes 2 member ++ leBytes 4 f.1 ++ leBytes 2 f.2

/-! ## Raising a fence (R430) -/

/-- R430: a fence record of a member raised wherever the device holds it: location entries and mirror records. -/
def State.raiseFence (s : State) (corpus member : Nat) (f : Nat × Nat) : State :=
  let s1 := match s.corpusOf corpus with
    | some (nsid, _) => s.raiseMember nsid member f
    | none => s
  let raise (x : Mirror) : Mirror := if x.member == (corpus, member) && fenceLt x.fence f then { x with fence := f } else x
  { s1 with ft := { s1.ft with mirrors := s1.ft.mirrors.map fun r => (r.1, raise r.2) } }

/-- R433: the lists that this device's streams have sent for an epoch to a member go again to the member's device. -/
def State.resendTo (s : State) (corpus member epoch : Nat) : State :=
  (List.range Config.streams).foldl (fun (s : State) m =>
    let sent := match (s.run m).sentLists with | some e => decide (epoch ≤ e) | none => false
    if sent && s.stored (oCorpusId m) = corpus && (s.stream m).state ≠ .idle && (s.stream m).state ≠ .moved then
      ((s.listsOf m epoch).filter fun l => l.1 == member).foldl (fun s l => s.sendList m epoch l) s
    else s) s

/-! ## Takeover (R433, R436) -/

/-- R433: the settings block of a record, rebased to stream n. -/
def Mirror.settingsFor (x : Mirror) (n : Nat) : List (Nat × Nat) :=
  x.settings.map fun e => (e.1 + 256 * n - 256 * x.stream, e.2)

/-- R433: IMAGE_SLOT and the mirrored settings are written to stream n, which is LOADED. -/
def State.loadMirror (s : State) (n k : Nat) (x : Mirror) : State :=
  let set (s : State) (e : Nat × Nat) : State := if e.1 = oImageSlot n then s else s.store e.1 e.2
  ((x.settingsFor n).foldl set (s.setImageSlot n k)).updStream n fun y => { y with memberWritten := true }

/-- R433: the location role of a member is taken over on its corpus. -/
def State.takeRole (s : State) (corpus member : Nat) : State :=
  match s.corpusOf corpus with
  | some (nsid, _) => s.updCorpus nsid fun c => if c.roles.contains member then c else { c with roles := c.roles ++ [member] }
  | none => s

/-- R430, R433: stream n is started from the bytes of a snapshot or mark under a raised fence; a restore or a start check
that fails leaves it LOADED with the status. -/
def State.bringUp (s : State) (n k m : Nat) (x : Mirror) (bytes : Bytes) : State :=
  let e := 1 + max (max x.fence.1 (fieldAt bytes 0xA4 4))
    (max (fieldAt (x.marks.headD []) 0xA4 4) (s.heldFence x.member.1 x.member.2).1)
  let s1 := (s.loadMirror n k x).updProt n fun p =>
    { p with fenceEpoch := e, fenceOwner := s.rank, pendingMark := none, movedTo := 0xFFFF }
  let s2 := (((s1.setMarks n x.marks).store (oPartner n) 0xFFFF).raiseFence x.member.1 x.member.2 (e, s.rank)).emit
    (.fence x.member.1 x.member.2 e s.rank)
  let s3 := ((s2.closeRecord m).takeRole x.member.1 x.member.2).count oTakeovers 1
  let s4 := s3.recover 17 0 n (e + 2 ^ 32 * s.rank)
  match s4.restoreBytes n bytes false with
  | .error st => s4.updStream n fun y => { y with lastStatus := st }
  | .ok s5 =>
    let st := s5.startCheck n
    if st ≠ stSuccess then s5.updStream n fun y => { y with lastStatus := st }
    else
      let ep := (s5.run n).epoch
      ((s5.startStream n).resendTo x.member.1 x.member.2 ep).emit (.resendLists x.member.1 x.member.2 ep)

/-- R433: the lowest-numbered IDLE stream. -/
def State.idleOne (s : State) : Option Nat := (List.range Config.streams).find? fun n => (s.stream n).state == .idle

/-- R433, R436: the stream of mirror record m is taken over: from its mirror, or from its mark while the record is
OPENING; without an IDLE stream the record waits as TAKING_OVER. -/
def State.takeover (s : State) (m : Nat) : State :=
  match s.mirror m with
  | none => s
  | some x =>
    let bytes := if x.snapshot.isEmpty then x.marks.headD [] else x.snapshot
    if bytes.isEmpty then s
    else
      match s.idleOne, s.slotWith x.image with
      | some n, some k => s.bringUp n k m x bytes
      | _, _ => if x.state = 3 then s else (s.setMirror m { x with state := 3 }).recover 18 0 x.stream 1

/-- R433, R435: TAKEOVER_DEFERRED: a waiting takeover is completed once a stream is IDLE; for a record that mirrors a
living owner it is the end of a planned handoff, which the owner has asked for. (DEDUCED, log entry 81) -/
def execTakeoverDeferred (m : Nat) (s : State) : Res :=
  if Config.mirrors ≤ m then .fault .noSuchMirror
  else whenRm 1 s fun s =>
    match s.mirror m with
    | some x => if x.state = 1 then .next s else .next (s.takeover m)
    | none => .next s

/-! ## Heartbeats and declaration (R425 to R428) -/

/-- R425: the devices to which a heartbeat goes: the torus neighbours and the holders of mirror records. -/
def State.heartbeatPeers (s : State) : List Nat :=
  let ns := (List.range 6).map s.neighbour
  let ps := ((List.range Config.streams).filter s.mirrored).map s.partnerOf
  ((ns ++ ps).filter fun c => c ≠ s.coord).eraseDups

/-- R425: the 32 bytes of a heartbeat. -/
def State.heartbeatBody (s : State) : Bytes :=
  leBytes 2 s.coord ++ leBytes 1 s.ft.state ++ (List.range 4).flatMap (fun p => leBytes 1 (s.rm p).state) ++ leBytes 8 s.gtc ++
  leBytes 1 (s.stored oMidwayVerMax) ++ zeros 16

/-- R425: HEARTBEAT_SEND: every 50 ms, while the scheduler runs. -/
def execHeartbeatSend (s : State) : Res :=
  whenUp s fun s =>
    let due := match s.ft.sent with | some g => decide (g + 50 * Config.ms ≤ s.gtc) | none => true
    if !(s.sys.step == 0 || s.sys.step == 9) || !due || s.ft.state = 2 || s.deviceScrub then .next s
    else
      let s1 := s.heartbeatPeers.foldl (fun (s : State) c => s.emit (.heartbeat c s.heartbeatBody)) s
      .next { s1 with ft := { s1.ft with sent := some s.gtc } }

/-- R426, R427: HEARTBEAT_RECEIVE. -/
def execHeartbeatReceive (data : Bytes) (s : State) : Res :=
  whenUp s fun s =>
    let c := fieldAt data 0 2
    let s1 := { s with ft := { s.ft with heard := Tbl.set s.ft.heard c s.gtc } }
    if s.ft.failed.contains c then .next (s1.emit (.failed c c (Tbl.get s.ft.declared 0 c))) else .next s1

/-- R426: a peer is added to the FAILED set. -/
def State.addFailed (s : State) (c gtc : Nat) : State :=
  if s.ft.failed.contains c then s
  else { s with ft := { s.ft with failed := s.ft.failed ++ [c], lastFailed := c, declared := Tbl.set s.ft.declared c gtc } }

/-- R420, R437: the streams whose partner a failed device is are UNPROTECTED, and a planned handoff to it is abandoned. -/
def State.losePartner (s : State) (c : Nat) : State :=
  (List.range Config.streams).foldl (fun (s : State) n =>
    if s.mirrored n && s.partnerOf n = c then s.unprotect n 1 else s) s

/-- R433, R436: the mirror records whose stream this device takes over, given the FAILED set: those that mirror a failed
owner, and those still OPENING when the owner and its PROTECTED partner have both failed. -/
def State.toTake (s : State) : List Nat :=
  (s.ft.mirrors.filter fun r =>
    s.ft.failed.contains r.2.owner &&
    (r.2.state == 2 || (r.2.state == 1 && (r.2.partner == 0xFFFF || r.2.partner == s.coord || s.ft.failed.contains r.2.partner)))).map Prod.fst

/-- R426, R433, R436: DECLARE_FAILED: no heartbeat from a peer for 300 ms. (DESIGN CHOICE, log entry 82) -/
def execDeclareFailed (coord : Nat) (s : State) : Res :=
  whenRm 1 s fun s =>
    match Tbl.find s.ft.heard coord with
    | none => .next s
    | some g =>
      if s.gtc < g + 300 * Config.ms || s.ft.failed.contains coord then .next s
      else
        let s1 := (((s.addFailed coord s.gtc).emit (.failed 0xFFFF coord s.gtc)).recover 16 0 coord g).losePartner coord
        .next (s1.toTake.foldl State.takeover s1)

/-- R431: every stream that the device owns moves to MOVED. -/
def State.moveAll (s : State) : State :=
  (List.range Config.streams).foldl (fun (s : State) n =>
    if (s.stream n).state = .idle || (s.stream n).state = .moved then s
    else (s.moveStream n 0xFFFF stMoved).refuseIngest n) s

/-- R438: the device rejoins: SERVING, and every device is told. -/
def State.rejoinRing (s : State) : State :=
  State.emit { s with ft := { s.ft with state := 0 } } (.rejoined s.coord)

/-- R438: whether REJOIN is accepted. -/
def State.rejoinOk (s : State) : Bool :=
  s.ft.state == 1 && (List.range Config.streams).all fun n => (s.stream n).state == .idle || (s.stream n).state == .moved

/-- R431: the device is SELF_FENCED, refused by a device. -/
def State.selfFence (s : State) (sender : Nat) : State :=
  let s1 := (s.moveAll.closeRecords).recover 19 0 sender 0
  if s.ft.state = 0 then { s1 with ft := { s1.ft with state := 1 } } else s1

/-- R426, R431, R515: FAILED_MESSAGE_RECEIVE: about a peer, which joins the FAILED set, or about this device, which fences
itself; the first one after a cold reset finds every stream IDLE and the device rejoins by itself. -/
def execFailedMessageReceive (sender peer gtc : Nat) (s : State) : Res :=
  whenRm 1 s fun s =>
    if peer ≠ s.coord then
      let s1 := (s.addFailed peer gtc).losePartner peer
      .next (s1.toTake.foldl State.takeover s1)
    else if s.ft.state = 1 then .next s
    else
      let s1 := s.selfFence sender
      let s2 := { s1 with ft := { s1.ft with autoRejoin := false } }
      let idle := (List.range Config.streams).all fun n => (s.stream n).state == .idle
      if s.ft.autoRejoin && idle && s.ft.state = 0 then .next s2.rejoinRing else .next s2

/-- R438: REJOINED_RECEIVE. -/
def execRejoinedReceive (coord : Nat) (s : State) : Res :=
  whenRm 1 s fun s =>
    .next { s with ft := { s.ft with failed := s.ft.failed.filter fun c => c ≠ coord, heard := Tbl.del s.ft.heard coord,
                                     declared := Tbl.del s.ft.declared coord } }

/-! ## FENCE messages and refusals (R429 to R431, R435) -/

/-- R430, R431, R435: FENCE_MESSAGE_RECEIVE: a higher record raises the receiver's, and an owner that it fences moves its
stream to MOVED. (DESIGN CHOICE, log entry 83) -/
def execFenceMessageReceive (corpus member epoch owner : Nat) (s : State) : Res :=
  whenRm 1 s fun s =>
    let f := (epoch, owner)
    let by_ := s.coordOfRank owner
    let s1 := s.raiseFence corpus member f
    .next ((List.range Config.streams).foldl (fun (s : State) n =>
      if s.stored (oCorpusId n) ≠ corpus || s.member n ≠ member || !fenceLt (s.fenceOf n) f then s
      else
        match (s.stream n).state with
        | .idle => s
        | .moved => if (s.stream n).prot.movedTo = 0xFFFF then s.updProt n fun p => { p with movedTo := by_ } else s
        | _ => (s.moveStream n by_ stMoved).refuseIngest n) s1)

/-- R431: STALE_FENCE_REFUSAL: the device meets STALE_EPOCH_FENCE for its own stream. -/
def execStaleFenceRefusal (n epoch owner : Nat) (s : State) : Res :=
  withRmStream 1 n s fun s =>
    let by_ := s.coordOfRank owner
    match (s.stream n).state with
    | .idle => .next s
    | .moved => if (s.stream n).prot.movedTo = 0xFFFF then .next (s.updProt n fun p => { p with movedTo := by_ }) else .next s
    | _ =>
      if fenceLt (s.fenceOf n) (epoch, owner) then
        .next ((((s.count oFenceRefusedOwn 1).moveStream n by_ stStaleFence).refuseIngest n).recover 19 0 by_ epoch)
      else .next s

/-! ## Mirrors: the owner's side (R421 to R423, R435) -/

/-- R421: MIRROR_OPEN_ACK: a step of an open is acknowledged, or refused with a cause. -/
def execMirrorOpenAck (n cause : Nat) (s : State) : Res :=
  withRmStream 1 n s fun s =>
    let p := (s.stream n).prot
    if p.state ≠ 1 || p.openStep = 0 then .next s
    else if cause ≠ 0 then .next (s.unprotect n cause)
    else if p.openStep < 4 then .next (s.openSend n (p.openStep + 1))
    else .next (s.updProt n fun p => { p with state := 2, openStep := 0 })

/-- R435: stream n has delivered every batch that it had opened, so a planned handoff can end. -/
def State.handoffReady (s : State) (n : Nat) : Bool :=
  let r := s.run n
  r.toAdmit.isEmpty && r.firstOpen.isNone

/-- R435: the target of a planned handoff is asked to take the stream, once it has acknowledged the final snapshot. -/
def State.askHandoff (s : State) (n : Nat) : State :=
  let p := (s.stream n).prot
  match p.moveTo with
  | some c => if p.unacked.isEmpty && s.handoffReady n then s.emit (.mirror c mkMove n []) else s
  | none => s

/-- R422, R423: MIRROR_ACK_RECEIVE: the snapshots up to a SNAP_SEQ are acknowledged. -/
def execMirrorAckReceive (n seq : Nat) (s : State) : Res :=
  withRmStream 1 n s fun s =>
    let p := (s.stream n).prot
    let got := p.unacked.filter fun u => u.1 ≤ seq
    match got.getLast? with
    | none => .next s
    | some g =>
      let state' := if p.state = 3 || (p.state = 1 && p.openStep = 4) then 2 else p.state
      let s1 := s.updProt n fun p =>
        { p with state := state', openStep := if state' = 2 then 0 else p.openStep, ackedBatch := g.2.1
                 unacked := p.unacked.filter fun u => !(u.1 ≤ seq) }
      .next (s1.askHandoff n)

/-- R423: MIRROR_LAG: an acknowledgement more than 100 ms overdue. -/
def execMirrorLag (n : Nat) (s : State) : Res :=
  withRmStream 1 n s fun s =>
    let p := (s.stream n).prot
    if p.state = 2 && p.unacked.any fun u => u.2.2 + 100 * Config.ms < s.gtc then
      .next (s.updProt n fun p => { p with state := 3 })
    else .next s

/-- R420, R443: PARTNER of stream n is written; while RUNNING the old mirror is closed and a new one opened. -/
def State.setPartner (s : State) (n v : Nat) : State :=
  let old := s.partnerOf n
  if (s.stream n).state = .running then ((s.closeMirror n old).store (oPartner n) v).openMirror n
  else s.store (oPartner n) v

/-- R435: MOVE_TO: a planned handoff to a device that holds a PROTECTED mirror record of the stream. -/
def State.moveToCmd (s : State) (n v : Nat) : Except Nat State :=
  let p := (s.stream n).prot
  if (s.stream n).state ≠ .running || p.state ≠ 2 || s.partnerOf n ≠ v || p.moveTo.isSome then .error stState
  else
    let s1 := s.updProt n fun p => { p with moveTo := some v }
    if s1.handoffReady n && p.unacked.isEmpty then .ok (s1.sendSnapshot n) else .ok s1

/-! ## Durable marks: the owner's side (R424) -/

/-- R424: a mark of stream n has become durable. -/
def State.markDone (s : State) (n : Nat) (b : Bytes) (seq gtc : Nat) : State :=
  (s.setMarks n ((b :: s.marksOf n).take 2)).updProt n fun p => { p with markSeq := seq, markGtc := gtc, pendingMark := none }

/-- R424: MARK_TIMER: at a settle boundary, 10 s after the last mark was begun. -/
def execMarkTimer (n : Nat) (s : State) : Res :=
  withRmStream 1 n s fun s =>
    let p := (s.stream n).prot
    if (s.stream n).state ≠ .running || s.gtc < p.lastMark + 10 * Config.sec || p.pendingMark.isSome || !s.mirrors || !s.flashOn
    then .next s
    else
      let s1 := (s.takeSnapshot n).updProt n fun p => { p with lastMark := s.gtc }
      let x := s1.stream n
      let b := x.snapshot.getD []
      if s.mirrored n then
        .next ((s1.emit (.mirror (s.partnerOf n) mkMark n b)).updProt n fun p =>
          { p with pendingMark := some (b, x.snapSeq, s.gtc, s.partnerOf n) })
      else .next (s1.markDone n b x.snapSeq s.gtc)

/-- R424: MARK_ACK_RECEIVE: the holder of the mirror record has written the mark, so it is durable. -/
def execMarkAckReceive (n coord : Nat) (s : State) : Res :=
  withRmStream 1 n s fun s =>
    match (s.stream n).prot.pendingMark with
    | some (b, seq, gtc, c) => if c = coord then .next (s.markDone n b seq gtc) else .next s
    | none => .next s

/-! ## Mirrors and marks: the partner's side (R420 to R424, R429, R437) -/

/-- R420: the cause for which an open is refused, 0 for none. -/
def State.openRefused (s : State) (o : MirrorOpen) : Nat :=
  if s.freeMirror.isNone then 3
  else if (s.slotWith o.image).isNone then 2
  else if !o.models.all (s.modelReleased o.tenant) then 2
  else if !bit Config.arithRevs o.arith then 5
  else 0

/-- R420, R421, R429: MIRROR_OPEN_RECEIVE. -/
def execMirrorOpenReceive (coord stream : Nat) (o : MirrorOpen) (s : State) : Res :=
  whenRm 1 s fun s =>
    let held := s.heldFence o.member.1 o.member.2
    if fenceLt o.fence held then
      .next ((s.count oFenceRefusals 1).emit (.mirror coord mkStale stream (staleBody o.member.1 o.member.2 held)))
    else
      let s0 := match s.mirrorFor coord stream with | some r => s.closeRecord r.1 | none => s
      let cause := s0.openRefused o
      match s0.freeMirror with
      | none => .next (s0.emit (.mirror coord mkOpenAck stream (leBytes 1 3)))
      | some m =>
        if cause ≠ 0 then .next (s0.emit (.mirror coord mkOpenAck stream (leBytes 1 cause)))
        else
          let x : Mirror :=
            { owner := coord, stream := stream, image := o.image, tenant := o.tenant, settings := o.settings, fence := o.fence,
              marks := if o.mark.isEmpty then [] else [o.mark], member := o.member, partner := o.partner }
          let s1 := ((s0.setMirror m x).pin o.image fun p => p + 1).raiseFence o.member.1 o.member.2 o.fence
          .next (s1.emit (.mirror coord mkOpenAck stream (leBytes 1 0)))

/-- R420: MIRROR_CLOSE_RECEIVE. -/
def execMirrorCloseReceive (coord stream : Nat) (s : State) : Res :=
  whenRm 1 s fun s =>
    match s.mirrorFor coord stream with
    | some r => .next (s.closeRecord r.1)
    | none => .next s

/-- R429, R437: a snapshot or mark arrives from an owner: refused under a lower fence record, else taken by the record that
mirrors its stream, which the last argument changes and answers. -/
def State.mirrorData (s : State) (coord stream owner : Nat) (data : Bytes) (f : State → Nat → Mirror → State) : State :=
  let corpus := fieldAt data 0x98 4
  let member := fieldAt data 0x9C 2
  let rec_ := (fieldAt data 0xA4 4, owner)
  let held := s.heldFence corpus member
  if fenceLt rec_ held then
    (s.count oFenceRefusals 1).emit (.mirror coord mkStale stream (staleBody corpus member held))
  else
    match s.mirrorFor coord stream with
    | some r => (f s r.1 { r.2 with fence := rec_ }).raiseFence corpus member rec_
    | none => s

/-- R422, R429, R437: MIRROR_SNAPSHOT_RECEIVE: a newer snapshot replaces the copy and is acknowledged; the first one ends
the open. -/
def execMirrorSnapshotReceive (coord stream owner : Nat) (data : Bytes) (s : State) : Res :=
  whenRm 1 s fun s =>
    .next (s.mirrorData coord stream owner data fun s m x =>
      let seq := fieldAt data 0x10 8
      let x' := if x.seq < seq || x.snapshot.isEmpty then
          { x with snapshot := data, seq := seq, nextBatch := fieldAt data 0xB0 8, state := if x.state = 1 then 2 else x.state }
        else x
      (s.setMirror m x').emit (.mirror coord mkSnapAck stream (leBytes 8 seq)))

/-- R424: MARK_RECEIVE: the mark is written to this device's flash and acknowledged. -/
def execMarkReceive (coord stream owner : Nat) (data : Bytes) (s : State) : Res :=
  whenRm 1 s fun s =>
    if !s.flashOn then .next s
    else .next (s.mirrorData coord stream owner data fun s m x =>
      (s.setMirror m { x with marks := (data :: x.marks).take 2 }).emit (.mirror coord mkMarkAck stream (leBytes 8 (fieldAt data 0x10 8))))

/-- R421, R422: LOCATION_SET_RECEIVE: the set is held in the flash space of the corpus namespace. -/
def execLocationSetReceive (coord stream epoch : Nat) (entries : List (Nat × Nat)) (s : State) : Res :=
  whenRm 1 s fun s =>
    match s.mirrorFor coord stream with
    | none => .next s
    | some r =>
      match s.corpusOf r.2.member.1 with
      | none => .next s
      | some (nsid, _) =>
        .next (s.updCorpus nsid fun c =>
          { c with locSets := (c.locSets.filter fun l => !(l.1 == r.2.member.2 && (l.2.1 == epoch || l.2.1 + 1 < epoch))) ++
                     [(r.2.member.2, epoch, entries)] })

/-- R433: PORTION_LIST_RESEND_REQUEST. -/
def execPortionListResendRequest (corpus member epoch : Nat) (s : State) : Res :=
  whenRm 1 s fun s => .next (s.resendTo corpus member epoch)

/-! ## Partial resets (R439) -/

/-- R416: a reset domain returns to the state of its DOMAIN_TARGET, unless it is held OFF. -/
def State.domainToTarget (s : State) (d : Nat) : State :=
  s.updDomain d fun x =>
    if x.heldOff then x
    else { x with state := s.stored (oDomainTarget d), next := none, wakeAfter := false, held := 0 }

/-- R99, R218, R439: a reset of Caravan n: its cores, local memory and part of the CARAVAN pools are cleared, its jobs end
with CARAVAN_RESET, and clock-exact streams that use it lose exactness. -/
def State.clearCaravan (s : State) (n : Nat) : State :=
  let s1 := (List.range Config.streams).foldl (fun (s : State) m =>
    if (s.stream m).state.active && bit (s.stream m).inForce.mask n then s.exactLose m 3 else s) s
  let s2 := s1.caravanJobs n
  let s3 := { s2 with cores := s2.cores.filter fun c => c.1 / 8 ≠ n }
  s3.buffers.foldl (fun (s : State) kb => if kb.2.part = some n then s.freeBuffer kb.1 kb.2 else s) s3

/-- R439: DOMAIN_RESET of a Caravan. -/
def State.resetCaravan (s : State) (n : Nat) : State := (s.clearCaravan n).domainToTarget (carDomain n)

/-- R361, R439: DOMAIN_RESET of a fabric port: its link and buffers are cleared, its frames are routed again, and the
cached contexts are written back. (DESIGN CHOICE, log entry 84) -/
def State.resetFabric (s : State) (k : Nat) : State :=
  let s2 := ((s.clearPort k).linkDown k 0).updPort k fun p => { Port.fresh p s.gtc with link := .down, cause := 0, pcs := false }
  State.domainToTarget { s2 with fabric := { s2.fabric with qps := s2.fabric.qps.map fun q => (q.1, { q.2 with cached := false }) } }
    (portDomain k)

/-- R439: the open-block pointers are cleared, so open blocks take no more pages, and programs that were running are
issued again. -/
def FlashSt.clearPointers (f : FlashSt) : FlashSt :=
  let close (b : Block) : Block :=
    if b.use = .openHost || b.use = .openReloc || b.use = .openRefresh then { b with use := .closed } else b
  { f with blocks := f.blocks.map fun b => (b.1, close b.2), wbuf := f.wbuf.map fun e => if e.done then e else { e with pun := none }
           copies := f.copies.filter fun c => c.programmed }

/-- R439: DOMAIN_RESET of FLASH. -/
def State.resetFlash (s : State) : State := State.domainToTarget { s with flash := s.flash.clearPointers } 2

/-- R439: DOMAIN_RESET accepts the number of a Caravan, a fabric port or FLASH. -/
def State.domainResetCmd (s : State) (d : Nat) : Except Nat State :=
  if 0x10 ≤ d && d < 0x40 then .ok (s.resetCaravan (d - 0x10))
  else if 0x40 ≤ d && d < 0x48 then .ok (s.resetFabric (d - 0x40))
  else if d = 2 then .ok s.resetFlash
  else .error stState

/-! ## Rehearsal hooks (R440, R441) -/

/-- R441: SIM_DEATH is refused. -/
def State.simDeathBad (s : State) : Bool :=
  (List.range Config.streams).any (fun n => (s.stream n).state == .running && !((s.stream n).prot.state == 2)) ||
  s.ft.mirrors.any (fun r => r.2.state == 3) || !s.ft.failed.isEmpty

/-- R441: PORT_DOWN on port k is refused: the last UP Midway port, or the only port of a stream's delivery. -/
def State.portDownBad (s : State) (k : Nat) : Bool :=
  (s.portUp k && !(List.range 8).any fun j => j ≠ k && s.portUp j) ||
  (List.range Config.streams).any fun n =>
    (s.stream n).state.active && s.toFabric n && imgProto (s.imageOf n).image == 0 && imgDlvPorts (s.imageOf n).image == [k]

/-- R441: CARAVAN_LOSS on Caravan n is refused. -/
def State.caravanLossBad (s : State) (n : Nat) : Bool :=
  (s.flag oS0ReserveEn && bit (s.stored oS0Caravans) n) ||
  (List.range Config.streams).any fun m =>
    let x := s.stream m
    (x.state == .running && x.inForce.mask == 2 ^ n) ||
    (x.state.active && bit x.inForce.mask n && (!x.inForce.loadbal || s.flag (oClockExact m)))

/-- R441: the case that refuses a hook, 0 for none. -/
def State.hookRefused (s : State) (h arg : Nat) : Nat :=
  if s.ft.hook.isSome then 1
  else if h = 1 then (if s.simDeathBad then 2 else 0)
  else if h = 2 then (if 8 ≤ arg || s.portDownBad arg then 3 else 0)
  else if h = 3 then (if 4 ≤ arg || (s.rm arg).state ≠ 0 then 4 else 0)
  else if 48 ≤ arg || s.caravanLossBad arg then 5 else 0

/-- R232, R440: SIM_DEATH holds every owned stream; each takes a snapshot as it enters HELD. -/
def State.holdAll (s : State) : State :=
  (List.range Config.streams).foldl (fun (s : State) n =>
    match (s.stream n).state with
    | .running => s.holdStream n stHeld
    | .paused => (s.takeSnapshot n).updStream n fun x => { x with state := .held, lastStatus := stHeld }
    | _ => s) s

/-- R440: Caravan n is reset and held OFF. -/
def State.caravanOff (s : State) (n : Nat) : State :=
  (s.clearCaravan n).updDomain (carDomain n) fun x =>
    { x with state := 2, heldOff := true, next := none, wakeAfter := false, held := 0 }

/-- R440: the action of a hook. -/
def State.hookAct (s : State) (h arg : Nat) : State :=
  if h = 1 then State.holdAll { s with ft := { s.ft with state := 2 } }
  else if h = 2 then s.linkDown arg 5
  else if h = 3 then s.updRm arg fun r => { r with hung := true }
  else s.caravanOff arg

/-- R440, R441: a write of 1 to 4 to HOOK, in the DEPLOYED state. -/
def State.startHook (s : State) (h : Nat) : Except Nat State × State :=
  let arg := s.stored oHookArg
  let c := s.hookRefused h arg
  let s1 := { s with ft := { s.ft with hookCause := c } }
  if c ≠ 0 then (.error stState, s1)
  else
    let s2 := s1.hookAct h arg
    (.ok { s2 with ft := { s2.ft with hook := some (h, arg, s.gtc + s.stored oHookSeconds * Config.sec), restoring := none } }, s1)

/-- R440: the active hook ends. (DESIGN CHOICE, log entry 85) -/
def State.endHook (s : State) : State :=
  match s.ft.hook with
  | none => s
  | some (h, arg, _) =>
    let s0 := { s with ft := { s.ft with hook := none } }
    let s1 :=
      if h = 1 then (s0.moveAll.closeRecords).rejoinRing
      else if h = 2 then { s0 with ft := { s0.ft with restoring := some (h, arg) } }
      else if h = 3 then s0.updRm arg fun r => { r with hung := false }
      else
        let s' := s0.updDomain (carDomain arg) fun x => { x with state := 3, going := 0, heldOff := false }
        { s' with ft := { s'.ft with restoring := some (h, arg) } }
    s1.recover 20 0 h arg

/-- R443: HOOK_STATE. -/
def State.hookState (s : State) : Nat :=
  if s.ft.hook.isSome then 1
  else
    match s.ft.restoring with
    | some (2, k) => if (s.port k).link = .up then 0 else 2
    | some (_, c) => if (s.domain (carDomain c)).state = 0 then 0 else 2
    | none => 0

/-- R440: HOOK_EXPIRY: HOOK_SECONDS have passed. -/
def execHookExpiry (s : State) : Res :=
  whenUp s fun s =>
    match s.ft.hook with
    | some (_, _, t) => if t ≤ s.gtc then .next s.endHook else .next s
    | none => .next s

end Sys2Proof.Machine
end

