-- ==== Sys2Proof/Machine/Mailbox.lean ====
section
/-! DEFINITION. Power domains (R411 to R416), Ringmaster watchdogs (R400, R401), mailbox channels (R402 to R409) and the
BAR0 registers that have no row of their own (R310, R325, R404). -/

namespace Sys2Proof.Machine

/-! ## Domains: what a write of DOMAIN_TARGET asks (R411, R412, R416) -/

/-- R411: the states that may be set for a domain: 0 ON, 1 SLEEP, 2 OFF. -/
def domainAllows (d v : Nat) : Bool :=
  isDomain d && (v == 0 || (v == 1 && d ≠ 3) || (v == 2 && (d == 2 || 0x10 ≤ d)))

/-- R412: stream n uses a domain. -/
def State.usesDomain (s : State) (n d : Nat) : Bool :=
  if d = 0 || d = 1 then true
  else if d = 2 then !(ofType (s.descsOf n) tFetch).isEmpty
  else if 0x10 ≤ d && d < 0x40 then bit (s.stream n).inForce.mask (d - 0x10)
  else if 0x40 ≤ d && s.toFabric n then
    (if imgProto (s.imageOf n).image == 0 then (imgDlvPorts (s.imageOf n).image).contains (d - 0x40) else s.isMidway (d - 0x40))
  else false

/-- R412: the domain of a Caravan holds an allocated buffer. -/
def State.domainHolds (s : State) (d : Nat) : Bool :=
  0x10 ≤ d && d < 0x40 && s.pools.any fun p => Tbl.get p.2.parts 0 (d - 0x10) ≠ 0

/-- R412: FLASH may not sleep: data is dirty, journal records wait, or mirror records are held. -/
def State.flashBusy (s : State) : Bool :=
  s.dirtyBytes ≠ 0 || s.flash.journalDone < s.flash.seq || !s.ft.mirrors.isEmpty

/-- R412: a write of SLEEP or OFF to DOMAIN_TARGET is refused. -/
def State.targetBad (s : State) (d v : Nat) : Bool :=
  (List.range Config.streams).any (fun n => (s.stream n).state.active && s.usesDomain n d) ||
  (0x10 ≤ d && d < 0x40 && s.flag oS0ReserveEn && bit (s.stored oS0Caravans) (d - 0x10)) ||
  (v == 2 && s.domainHolds d) ||
  (v == 2 && 0x40 ≤ d && s.isMidway (d - 0x40)) ||
  (d == 2 && s.flashBusy)

/-- R439: a domain that turns OFF keeps nothing: a Caravan loses its cores and buffers, a port its link. -/
def State.losePower (s : State) (d : Nat) : State :=
  if 0x10 ≤ d && d < 0x40 then s.clearCaravan (d - 0x10)
  else if 0x40 ≤ d then (s.clearPort (d - 0x40)).linkDown (d - 0x40) 5
  else if d = 2 then { s with flash := s.flash.clearPointers }
  else s

/-- R413, R414: the transition of a domain to a state begins. -/
def State.beginTransition (s : State) (d v : Nat) : State :=
  let x := s.domain d
  if x.heldOff || x.state = v then s
  else
    let s1 := s.updDomain d fun x =>
      { x with state := 3, going := v, next := none, wakes := if v = 0 && x.state = 1 then x.wakes + 1 else x.wakes }
    if v = 2 then s1.losePower d else s1

/-- R413, R416: an accepted write of DOMAIN_TARGET, at once or after the transition that runs. -/
def State.setTarget (s : State) (d v : Nat) : State :=
  let x := s.domain d
  if x.state ≠ 3 then s.beginTransition d v
  else if x.going = v then s.updDomain d fun x => { x with next := none, wakeAfter := false }
  else if v = 0 && x.going = 1 then s.updDomain d fun x => { x with next := none, wakeAfter := true }
  else s.updDomain d fun x => { x with next := some v }

/-- R412, R416: a write of DOMAIN_TARGET; SLEEP or OFF during a wake is checked once the domain is ON. -/
def State.targetCmd (s : State) (d v : Nat) : Except Nat State :=
  let x := s.domain d
  let waking := x.state = 3 && x.going = 0
  if !domainAllows d v then .error stState
  else if v ≠ 0 && !waking && s.targetBad d v then .error stState
  else .ok ((s.store (oDomainTarget d) v).setTarget d v)

/-! ## Domains: events (R413 to R416) -/

/-- R411: a domain event names a domain of the table. -/
def withDomain (d : Nat) (s : State) (f : State → Res) : Res :=
  if isDomain d then whenUp s f else .fault .noSuchDomain

/-- R413: DOMAIN_WAKE: an access that needs a sleeping domain. (DEDUCED, log entry 176) -/
def execDomainWake (d : Nat) (s : State) : Res := withDomain d s fun s => .next (s.touch d)

/-- R410, R414, R416: DOMAIN_TRANSITION_DONE: the domain reaches its state, the accesses held for it complete, and a wake or a
request that arrived in between begins; a notice that waited for SPINE is sent. -/
def execDomainTransitionDone (d : Nat) (s : State) : Res :=
  withDomain d s fun s =>
    let x := s.domain d
    if x.state ≠ 3 then .next s
    else
      let s1 := s.updDomain d fun x =>
        { x with state := x.going, next := none, wakeAfter := false, held := if x.going = 0 then 0 else x.held }
      if x.wakeAfter then .next (s1.beginTransition d 0)
      else
        match x.next with
        | none => .next (if d = 0 then (s1.pumpNotices 0).pumpNotices 8 else s1)
        | some v => if v ≠ 0 && s1.targetBad d v then .next s1 else .next (s1.beginTransition d v)

/-- R415: an access to a domain that is OFF is recorded. -/
def State.offAccess (s : State) (d addr : Nat) (write : Bool) : State :=
  let s1 := { s with offStatus := stDomainOff, offDomain := d, offAddr := addr, offGtc := s.gtc }
  let s2 := s1.updDomain d fun x => { x with offAccesses := x.offAccesses + 1 }
  (if write then s2 else s2.emit (.abort addr)).notice 4 stDomainOff d addr

/-- R415: DOMAIN_OFF_ACCESS: a BAR0 access to a domain that is OFF or on its way there. -/
def execDomainOffAccess (d addr : Nat) (write : Bool) (s : State) : Res :=
  if 2 ^ 24 ≤ addr then .fault .outsideBar0
  else withDomain d s fun s => if s.domOff d then .next (s.offAccess d addr write) else .next s

/-! ## Ringmasters (R400, R401) -/

/-- R399: a Ringmaster event names one of the four processors. -/
def withRm (p : Nat) (s : State) (f : State → Res) : Res := if p < 4 then whenUp s f else .fault .noSuchProcessor

/-- R400, R401, R440: WATCHDOG_EXPIRY: the processor restarts, or stays HALTED after the third expiry within 60 s that
counts. -/
def execWatchdogExpiry (p : Nat) (s : State) : Res :=
  withRm p s fun s =>
    let x := s.rm p
    if x.state ≠ 0 then .next s
    else
      let times := if x.hung then x.times else (x.times.filter fun t => s.gtc ≤ t + 60 * Config.sec) ++ [s.gtc]
      let x' := { x with expiries := x.expiries + 1, times := times, hung := false, state := if times.length < 3 || x.hung then 1 else 2 }
      let s1 := s.updRm p fun _ => x'
      if x'.state = 1 then .next (s1.notice 5 0 p x'.expiries)
      else .next (State.notice { s1 with sys := { s1.sys with ledFault := 1 } } 6 0 p x'.expiries)

/-- R400: RINGMASTER_RESTART_DONE: the processor serves again and sends a notice that waited. -/
def execRingmasterRestartDone (p : Nat) (s : State) : Res :=
  withRm p s fun s =>
    if (s.rm p).state ≠ 1 then .next s
    else .next (((s.updRm p fun r => { r with state := 0, lastRestart := s.gtc }).pumpNotices 0).pumpNotices 8)

/-! ## Mailboxes (R402 to R409) -/

/-- R402: a mailbox row names one of the 64 channels. -/
def withChan (c : Nat) (s : State) (f : State → Res) : Res := if c < 64 then whenUp s f else .fault .noSuchChannel

/-- R402: channel c has the host as an end. -/
def hostChan (c : Nat) : Bool := c < 56

/-- R402: the Ringmasters that are ends of channel c. -/
def chanRms (c : Nat) : List Nat :=
  if c < 8 then [0] else if c < 16 then [1] else if c < 56 then [0] else if c < 60 then [c - 56]
  else if c = 60 then [0, 1] else if c = 61 then [0, 2] else if c = 62 then [1, 3] else [2, 3]

/-- R402: a sender ID that is a device end of channel c. -/
def deviceEnd (c sender : Nat) : Bool :=
  ((chanRms c).any fun p => sender == 0x0010 + p) || (56 ≤ c && c < 60 && sender == 0x0020)

/-- R402, R405, R408: MBX_POST: the host posts the body at MBX_SEND_PTR. (DESIGN CHOICE, log entry 109) -/
def execMbxPost (c value : Nat) (body : Bytes) (s : State) : Res :=
  withChan c s fun s =>
    if s.domOff 0 then .next (s.offAccess 0 (0x200000 + 0x1000 * c + 8) true)
    else if !hostChan c then .next ((s.updChan c fun x => { x with denied := true }).count oMbxDenied 1)
    else if (s.chan c).tx.isSome then .next ((s.updChan c fun x => { x with overrun := true }).count oMbxOverruns 1)
    else
      let m : MbxDir :=
        { ptr := (s.chan c).sendPtr, len := bits value 31 0, seq := bits value 47 32, sender := 0x0001, body := body }
      .next (State.touch (s.updChan c fun x =>
        { x with tx := some m, posted := x.posted + 1, first := { x.first with wake := true } }) 0)

/-- R404: MBX_RECV_META of a waiting message. -/
def MbxDir.meta_ (m : MbxDir) : Nat := m.len + 2 ^ 32 * m.seq + 2 ^ 48 * m.sender

/-- R407: EMPTY_IRQ of a device end whose message is taken: set outside SERVICE. -/
def State.emptied (s : State) (x : MbxEnd) : MbxEnd := { x with emptyIrq := x.emptyIrq || s.devMode ≠ 1 }

/-- R404, R406, R407, R410: MBX_TAKE: the host's read of 0x018 takes the waiting message, and the next notice follows. -/
def execMbxTake (c : Nat) (s : State) : Res :=
  withChan c s fun s =>
    if s.domOff 0 then .next (s.offAccess 0 (0x200000 + 0x1000 * c + 0x18) false)
    else
      match hostChan c, (s.chan c).rx with
      | true, some m =>
        let s1 := s.updChan c fun x => { x with rx := none, taken := x.taken + 1, first := s.emptied x.first }
        .next (State.pumpNotices (s1.emit (.bar0 m.meta_)) c)
      | _, _ => .next (s.emit (.bar0 0))

/-- R406, R407: MBX_DEVICE_TAKE: the device end copies and takes a message; outside SERVICE the sender's EMPTY_IRQ is set,
and the host's vector raised. (DESIGN CHOICE, log entry 91) -/
def execMbxDeviceTake (c : Nat) (s : State) : Res :=
  withChan c s fun s =>
    if (s.domain 0).state ≠ 0 || !((chanRms c).any s.rmRuns) then .next s
    else
      match (s.chan c).tx with
      | some m =>
        let keep (x : Chan) : Chan :=
          if hostChan c then { x with tx := none, taken := x.taken + 1, inbox := x.inbox ++ [m] }
          else { x with tx := none, taken := x.taken + 1, first := s.emptied x.first }
        let s1 := s.updChan c keep
        if !hostChan c || s.devMode = 1 then .next s1
        else
          let s2 := s1.updChan c fun x => { x with emptyIrq := true }
          if (s.chan c).irqEn then .next (s2.raiseVector (1984 + c)) else .next s2
      | none =>
        if hostChan c then .next s
        else if (s.chan c).rx.isSome then .next (s.updChan c fun x => { x with rx := none, taken := x.taken + 1, second := s.emptied x.second })
        else .next s

/-- R402, R403, R405, R406: MBX_DEVICE_POST: a device end posts a body: to the host's receive buffer, or over a channel
between the device's own ends. -/
def execMbxDevicePost (c sender seq : Nat) (body : Bytes) (s : State) : Res :=
  withChan c s fun s =>
    if !deviceEnd c sender then
      .next ((s.updChan c fun x => { x with deniedTo := sender :: x.deniedTo.filter (· ≠ sender) }).count oMbxDenied 1)
    else if (s.domain 0).state ≠ 0 || (!s.rmRuns (sender - 0x0010) && sender ≠ 0x0020) || body.isEmpty || 1048576 < body.length
    then .next s
    else if hostChan c then
      (if (s.chan c).rx.isSome then
         .next ((s.updChan c fun x => { x with first := { x.first with overrun := true } }).count oMbxOverruns 1)
       else if (s.chan c).rxLen < body.length then .next s
       else .next (s.postHost c sender seq body))
    else
      let m : MbxDir := { len := body.length, seq := seq, sender := sender, body := body }
      let upper := sender ≠ 0x0010 + (chanRms c).headD 0
      if (if upper then (s.chan c).rx else (s.chan c).tx).isSome then
        .next ((s.updChan c fun x =>
          if upper then { x with second := { x.second with overrun := true } }
          else { x with first := { x.first with overrun := true } }).count oMbxOverruns 1)
      else
        .next (s.updChan c fun x =>
          if upper then { x with rx := some m, posted := x.posted + 1, first := { x.first with wake := true } }
          else { x with tx := some m, posted := x.posted + 1, second := { x.second with wake := true } })

/-- R409: a reset that clears SPINE discards every message in the slots; FLUSHED is set where the host had sent it. -/
def State.flushMail (s : State) : State :=
  (List.range 64).foldl (fun (s : State) c =>
    let x := s.chan c
    let n := (if x.tx.isSome then 1 else 0) + (if x.rx.isSome then 1 else 0)
    if n = 0 then s
    else
      (s.updChan c fun x => { x with tx := none, rx := none, inbox := [], flushed := x.flushed || (x.tx.isSome && hostChan c) }).count
        oMbxFlushed n) s

/-! ## Other BAR0 registers (R310, R325, R404) -/

/-- R404: an aligned 8-byte write to a register of channel c's window that does not post. -/
def State.mailboxWrite (s : State) (c off v : Nat) : State :=
  if off = 0 then s.updChan c fun x => { x with sendPtr := v }
  else if off = 0x20 then
    s.updChan c fun x =>
      { x with emptyIrq := x.emptyIrq && !bit v 2, wake := x.wake && !bit v 3, overrun := x.overrun && !bit v 4,
               flushed := x.flushed && !bit v 5, denied := x.denied && !bit v 6 }
  else if off = 0x28 then s.updChan c fun x => { x with irqEn := bit v 0 }
  else if off = 0x30 then (if v % 4096 = 0 then s.updChan c fun x => { x with rxBase := v } else s)
  else if off = 0x38 then
    let n := bits v 31 0
    if n = 0 || (4096 ≤ n && n ≤ 1048576) then (s.updChan c fun x => { x with rxLen := n }).pumpNotices c else s
  else s

/-- R310: a dword of the MSI-X table is written; unmasking a vector that is pending raises it. -/
def State.msixWrite (s : State) (i v : Nat) : State :=
  let s1 := { s with host := { s.host with msix := Tbl.set s.host.msix i v } }
  if i % 4 = 3 && !bit v 0 && bit s.host.msixPending (i / 4) then
    State.emit { s1 with host := { s1.host with msixPending := setBit s1.host.msixPending (i / 4) false } } (.msix (i / 4))
  else s1

/-- R285: a clean shutdown checkpoints every dirty segment, in order of oldest change. -/
def State.cleanShutdown (s : State) : State :=
  { s with flash := (List.range s.flash.dirty.length).foldl (fun (f : FlashSt) _ => f.checkpoint) s.flash }

/-- R285, R310: a write to the NVMe controller registers that is neither a doorbell nor a change of CC.EN; one that sets CC.SHN,
bits 15:14 of the published standard's register, is a shutdown. -/
def State.nvmeRegWrite (s : State) (a size v : Nat) : State :=
  let put (s : State) (k x : Nat) : State := { s with host := { s.host with nvmeRegs := Tbl.set s.host.nvmeRegs k x } }
  let old (k : Nat) : Nat := Tbl.get s.host.nvmeRegs 0 k
  if a = 0x0C then put s 0x0C (old 0x0C ||| v % 2 ^ 32)
  else if a = 0x10 then put s 0x0C (old 0x0C - (old 0x0C &&& v % 2 ^ 32))
  else if a = 0x14 then (if bits v 15 14 = 0 then put s 0x14 (v % 2 ^ 32) else (put s 0x14 (v % 2 ^ 32)).cleanShutdown)
  else if a = 0x24 then put s 0x24 (v % 2 ^ 32)
  else if a = 0x28 || a = 0x30 then
    put s a (if size = 8 then v % 2 ^ 64 else old a / 2 ^ 32 * 2 ^ 32 + v % 2 ^ 32)
  else if a = 0x2C || a = 0x34 then put s (a - 4) (old (a - 4) % 2 ^ 32 + v % 2 ^ 32 * 2 ^ 32)
  else s

/-- R310: REGISTER_WRITE: a write of `size` bytes at a BAR0 offset. -/
def execRegisterWrite (addr size value : Nat) (s : State) : Res :=
  if 2 ^ 24 ≤ addr then .fault .outsideBar0
  else whenUp s fun s =>
    let whole := size = 8 && addr % 8 = 0
    let off := addr % 0x1000
    if addr < 0x1000 then .next (s.nvmeRegWrite addr size value)
    else if 0x10000 ≤ addr && addr < 0x18000 then
      let i := (addr - 0x10000) / 4
      if whole then .next ((s.msixWrite i (bits value 31 0)).msixWrite (i + 1) (bits value 63 32))
      else if size = 4 && addr % 4 = 0 then .next (s.msixWrite i (bits value 31 0))
      else .next s
    else if 0x100000 ≤ addr && addr < 0x140000 then
      (if s.domOff 0 then .next (s.offAccess 0 addr true) else if whole then .next s else .next (s.count oDbIgnored 1))
    else if 0x200000 ≤ addr && addr < 0x240000 then
      (if s.domOff 0 then .next (s.offAccess 0 addr true)
       else if whole then .next (s.mailboxWrite ((addr - 0x200000) / 0x1000) off value) else .next s)
    else if 0x800000 ≤ addr && addr < 0x820000 then
      .next { s with host := { s.host with cxlRegs := Tbl.set s.host.cxlRegs addr value } }
    else .next s

end Sys2Proof.Machine
end

