-- ==== Sys2Proof/Machine/Answer.lean ====
section
/-! DEFINITION. How a request of the object dictionary is answered (R494, R495, R500, R503, R504): the frame of a response
and its way back to the requester. -/

namespace Sys2Proof.Machine

/-- R494: a frame: header and body. -/
def odFrame (op session seq target : Nat) (body : Bytes) : Bytes :=
  leBytes 4 0x4D444F41 ++ leBytes 1 1 ++ leBytes 1 op ++ zeros 2 ++ leBytes 4 session ++ leBytes 4 seq ++ leBytes 2 body.length ++
  leBytes 2 target ++ zeros 4 ++ body

/-- R500: TAG of a frame under a session key. -/
def odTag (key frame : Bytes) : Bytes := kmac256 key frame 16 "OA1640 OD FRAME"

/-- R495, R504: the code of a role. -/
def Role.code : Role → Nat
  | .operator => 0 | .tenant _ => 1 | .factory => 2

/-- R504: the 16-byte prefix of a forwarded frame. -/
def odPrefix (coord : Nat) (r : Role) : Bytes :=
  leBytes 2 coord ++ leBytes 1 r.code ++ zeros 1 ++ leBytes 4 (match r with | .tenant id => id | _ => 0) ++ zeros 8

/-- R504: a frame sent to a device on system queue pair 2. -/
def State.sendOd (s : State) (dst : Nat) (data : Bytes) (p : Purpose) (subject : Nat) : State :=
  s.sendMessage { vl := 1, dst := dst, op := opSend, dqp := qpOd } data p subject

/-- R495: the body of a response. -/
def odBody (result status : Nat) (rest : Bytes) : Bytes := leBytes 1 result ++ zeros 1 ++ leBytes 2 status ++ rest

/-- R403, R503: a mailbox message that has been answered leaves the messages taken. -/
def Chan.answered (c : Chan) (seq : Nat) : Chan := { c with inbox := c.inbox.eraseP fun m => fieldAt m.body 12 4 == seq }

/-- R500, R501: a response in a session: tagged, and kept for a repeat of the request. -/
def State.answerSession (s : State) (id op seq : Nat) (body : Bytes) : State :=
  match Tbl.find s.mgmt.sessions id with
  | none => s
  | some x =>
    let f := odFrame op id seq s.coord body
    let d := f ++ odTag x.key f
    State.emit { s with mgmt := { s.mgmt with sessions := Tbl.set s.mgmt.sessions id { x with response := d } } } (.datagram id d)

/-- R495, R503, R504: the response to a request, on the transport that carried it. (DESIGN CHOICE, log entry 10; DEDUCED, log entry 89) -/
def State.answer (s : State) (src : OdSource) (op seq result status : Nat) (rest : Bytes) : State :=
  let body := odBody result status rest
  let s1 := s.emit (.odResponse src (op + 0x80) seq result status rest)
  match src with
  | .channel c => s1.updChan c fun x => x.answered seq
  | .session id => s1.answerSession id (op + 0x80) seq body
  | .remote coord role => s1.sendOd coord (odPrefix coord role ++ odFrame (op + 0x80) 0 seq s.coord body) .none_ 0

/-- R504: the forwarded request with a number is answered. -/
def State.answerForward (s : State) (num result status : Nat) (rest : Bytes) : State :=
  match s.mgmt.forwards.find? fun f => f.num == num with
  | none => s
  | some f =>
    State.answer { s with mgmt := { s.mgmt with forwards := s.mgmt.forwards.erase f } } f.src f.op f.seq result status rest

/-- R504: the SEND of a forwarded request has ended with a status. -/
def State.forwardEnded (s : State) (num status : Nat) : State :=
  if status = stUnreachable || status = stReasm then s.answerForward num rUnreachable 0 [] else s

end Sys2Proof.Machine
end

