-- ==== Sys2Proof/Machine/Midway.lean ====
section
/-! DEFINITION. The commands of the Midway fabric: link bring-up (R353, R354), credits and retry (R357 to R361), the
arrival of frames, routing and reassembly (R362 to R366, R369 to R374, R386, R387), answers (R366 to R368), and the
transmission of a frame (R385). -/

namespace Sys2Proof.Machine

/-! ## Link bring-up (R353, R354, R440) -/

/-- R353, R354: port k takes part in link bring-up. -/
def State.portOn (s : State) (k : Nat) : Bool := s.isMidway k && !s.domOff (portDomain k) && !s.hookHolds k

/-- R357: the payload of a VERSION frame. -/
def State.versionPayload (s : State) (k : Nat) : Bytes :=
  leBytes 1 1 ++ leBytes 1 (s.stored oMidwayVerMax) ++ zeros 2 ++ leBytes 4 (s.stored oPartitionId) ++
  leBytes 1 (geoOwn s.torus 0) ++ leBytes 1 (geoOwn s.torus 1) ++ leBytes 1 (geoOwn s.torus 2) ++ leBytes 1 (s.portDir k) ++ zeros 4

/-- R353: LINK_PCS_LOCK: the link exchanges VERSION frames. -/
def execLinkPcsLock (k : Nat) (s : State) : Res :=
  withPort k s fun s =>
    let l := (s.port k).link
    if !s.portOn k || !(l == .down || l == .retrain) then .next s
    else
      let s1 := s.updPort k fun p => { p with pcs := true, link := if l = .down then .training else l, cause := if l = .down then 0 else p.cause }
      .next (s1.control k 4 (s.versionPayload k))

/-- R361, R363: the frames that wait find their way through a link that is up. -/
def State.linkUp (s : State) (k version partition : Nat) : State :=
  let old := (s.port k).link
  let s1 := s.updPort k fun p =>
    let q := if old = .training then p.fresh s.gtc else p
    { q with link := .up, version := version, peerPartition := partition, cause := 0 }
  let s2 := if old = .retrain then (s1.updPort k fun p => { p with replays := 0 }).replay k else s1
  (s2.sendCredit k).retryWaiting

/-- R353, R354: VERSION_FRAME_RECEIVE: the link is UP, FENCED or DOWN. -/
def execVersionFrameReceive (k : Nat) (f : Frame) (s : State) : Res :=
  withPort k s fun s =>
    let p := s.port k
    if !s.portOn k || !p.pcs || p.link = .down || !f.good || f.ftype ≠ 4 then .next s
    else
      let lo := max 1 (fieldAt f.payload 0 1)
      let hi := min (s.stored oMidwayVerMax) (fieldAt f.payload 1 1)
      let part := fieldAt f.payload 4 4
      let coord := packCoord (fieldAt f.payload 8 1) (fieldAt f.payload 9 1) (fieldAt f.payload 10 1)
      let dir := s.portDir k
      if hi < lo then .next (s.linkDown k 1)
      else if coord ≠ s.neighbour dir || fieldAt f.payload 11 1 ≠ dir ^^^ 1 then .next (s.linkDown k 2)
      else if part = s.stored oPartitionId then .next (s.linkUp k hi part)
      else
        .next ((s.updPort k fun p =>
          { (if p.link = .training then p.fresh s.gtc else p) with link := .fenced, version := hi, peerPartition := part, cause := 0 }).reroute k)

/-- R418: LINK_PCS_LOSS: the port goes DOWN with cause 4, and routing goes around it. -/
def execLinkPcsLoss (k : Nat) (s : State) : Res :=
  withPort k s fun s => if s.isMidway k && (s.port k).link ≠ .down then .next (s.linkDown k 4) else .next s

/-- R361: RETRAIN_TIMEOUT. -/
def execRetrainTimeout (k : Nat) (s : State) : Res :=
  withPort k s fun s =>
    let p := s.port k
    if p.link = .retrain && p.retrainGtc + 10 * Config.ms ≤ s.gtc then .next (s.linkDown k 3) else .next s

/-! ## Control frames (R357 to R360) -/

/-- R354: port k carries control frames. -/
def State.linked (s : State) (k : Nat) : Bool := s.portOn k && ((s.port k).link == .up || (s.port k).link == .fenced)

/-- R358: CREDIT_FRAME_RECEIVE: the cumulative credits replace those known. -/
def execCreditFrameReceive (k : Nat) (f : Frame) (s : State) : Res :=
  withPort k s fun s =>
    if !s.linked k || !f.good || f.ftype ≠ 2 then .next s
    else
      let g : Tbl Nat := (List.range 24).map fun key => (key, fieldAt f.payload (4 * key) 4)
      .next (((s.updPort k fun p => { p with granted := g }).acked k f.lack).retryWaiting)

/-- R360: NAK_FRAME_RECEIVE: every held frame from LACK onward is sent again. -/
def execNakFrameReceive (k : Nat) (f : Frame) (s : State) : Res :=
  withPort k s fun s =>
    if !s.linked k || !f.good || f.ftype ≠ 3 then .next s else .next ((s.acked k f.lack).replay k)

/-- R357: IDLE_FRAME_RECEIVE carries LACK. -/
def execIdleFrameReceive (k : Nat) (f : Frame) (s : State) : Res :=
  withPort k s fun s => if !s.linked k || !f.good || f.ftype ≠ 1 then .next s else .next (s.acked k f.lack)

/-- R360: REPLAY_TIMEOUT: no LACK has advanced for 2 µs while frames are held. -/
def execReplayTimeout (k : Nat) (s : State) : Res :=
  withPort k s fun s =>
    let p := s.port k
    if p.link = .up && !p.held.isEmpty && p.lackGtc + 2000 ≤ s.gtc then .next (s.replay k) else .next s

/-- R359: CREDIT_FRAME_TIMER: a CREDIT frame after a change, and at least every 1 µs. -/
def execCreditFrameTimer (k : Nat) (s : State) : Res :=
  withPort k s fun s =>
    let p := s.port k
    if s.linked k && (p.creditDue || p.creditGtc + 1000 ≤ s.gtc) then .next (s.sendCredit k) else .next s

/-! ## Answers to messages (R366 to R368) -/

/-- R367, R431, R504: a status that the transport passes to the requester of a message. -/
def State.passUp (s : State) (m : OutMsg) (status : Nat) : State :=
  match m.purpose with
  | .deliver =>
    if status = stSuccess then s.fabricAcked m.subject
    else if status = stStaleFence then (s.count oFenceRefusedOwn 1).moveStream m.subject 0xFFFF stStaleFence
    else (s.holdStream m.subject status).notice 1 status m.subject 0
  | .store => s.endSample (m.subject / 2 ^ 64) (m.subject % 2 ^ 64) status
  | .migrate => if status = stSuccess then s else s.copyRefused (m.subject / 2 ^ 64) (m.subject % 2 ^ 64)
  | .od => s.forwardEnded m.subject status
  | _ => s

/-- R366 to R368: the answer to a message sent: BUSY, a transient status that sends it again at most 3 times, or a status
that is passed up. -/
def State.respond (s : State) (id status flags : Nat) : State :=
  match s.message id with
  | none => s
  | some m =>
    if bit flags 0 then
      if m.retryAt.isSome then s else
      let wait := min Config.ms (2000 * 2 ^ m.busy)
      let mark (x : OutMsg) : OutMsg := if x.msgId = id then { x with busy := x.busy + 1, retryAt := some (s.gtc + wait) } else x
      { s with fabric := { s.fabric with msgs := s.fabric.msgs.map mark } }
    else if isTransient status && m.resends < 3 then (s.dropMessage id).sendAs { m with resends := m.resends + 1 }
    else (s.dropMessage id).passUp m status

/-- R367: RESP_RECEIVE. -/
def execRespReceive (f : Frame) (s : State) : Res :=
  whenUp s fun s =>
    if !f.good || f.op ≠ opResp || f.dst ≠ s.coord then .next s
    else .next (s.respond (fieldAt f.payload 0 4) (fieldAt f.payload 4 2) (fieldAt f.payload 6 2))

/-- R373: a RESP that is not BUSY grants message credits of the queue pair to which the message came; how many is a free
value. (DESIGN CHOICE, log entry 50) -/
def State.grantCredits (s : State) (dqp : Nat) : State :=
  if (Tbl.find s.fabric.qps dqp).isNone then s
  else
    let d := s.draw
    d.2.updQp dqp fun q => { q with credits := q.credits + (Config.freeWord d.1).toNat }

/-- R362, R367, R373: the answer to a message of this device itself is taken locally; another's goes to its source. -/
def State.answerMessage (s : State) (f : Frame) (status flags : Nat) : State :=
  if f.src = s.coord then s.respond f.msgId status flags else (if flags = 0 then s.grantCredits f.dqp else s).sendResp f status flags

/-- R363: REMOTE_UNREACHABLE is returned to the source of a message. (DESIGN CHOICE, log entry 113) -/
def State.unreachable (s : State) (q : QFrame) : State :=
  if !q.first || opReadResp ≤ q.frame.op then s
  else if q.frame.src = s.coord then s.respond q.frame.msgId stUnreachable 0
  else s.sendResp q.frame stUnreachable 0

/-- R363: ROUTE_WAIT_EXPIRY: a frame that has waited 100 µs without usable credits is discarded. -/
def execRouteWaitExpiry (src msgId offset : Nat) (s : State) : Res :=
  whenUp s fun s =>
    match s.fabric.waiting.find? fun q => q.frame.src == src && q.frame.msgId == msgId && q.frame.offset == offset with
    | none => .next s
    | some q =>
      if q.since + 100000 ≤ s.gtc && (s.routeFrame q.frame q.dim).isNone then
        let s1 := { s with fabric := { s.fabric with waiting := s.fabric.waiting.erase q } }
        .next ((s1.giveBack q.back).unreachable q)
      else .next s

/-! ## Queue pairs and regions (R369 to R373) -/

/-- R369: the domain and tenant of a destination queue pair; none when it does not exist. -/
def State.qpDomain (s : State) (dqp : Nat) : Option (Nat × Nat) :=
  if dqp < 16 then some (0, 0)
  else (Tbl.find s.fabric.qps dqp).map fun q => (q.pd, Tbl.get s.fabric.pds 0 q.pd)

/-- R370: an access of n bytes at an offset of the region of a key, by a queue pair of a domain, is refused. -/
def State.accessBad (s : State) (pd key off n : Nat) (read : Bool) : Bool :=
  match s.regionOf key with
  | none => true
  | some r => r.pd ≠ pd || !(if read then r.read else r.write) || decide (r.len < off + n)

/-- R429: the fence record under which a frame is sent: its epoch, and the rank of its source as the owner. (DEDUCED, log entry 145) -/
def State.recordOf (s : State) (f : Frame) : Nat × Nat :=
  (f.fence, geoRank s.torus (coordOf f.src 0) (coordOf f.src 1) (coordOf f.src 2))

/-- R369 to R373: the status of the checks that a message's first-arriving packet meets. -/
def State.entryCheck (s : State) (f : Frame) : Nat :=
  match s.qpDomain f.dqp with
  | none => stProtection
  | some (pd, tenant) =>
    let q := Tbl.get s.fabric.qps {} f.dqp
    if f.tenant ≠ tenant then stProtection
    else if f.op = opReadReq && s.accessBad pd f.rkey (128 * f.rbase) 0 true then stProtection
    else if (f.op = opWrite || f.op = opWriteNotify) && s.accessBad pd f.rkey (128 * f.rbase) f.total false then stProtection
    else if 16 ≤ f.dqp && f.fence ≠ 0 && fenceLt (s.recordOf f) (q.fence, q.owner) then stStaleFence
    else if f.op = opSend && 16 ≤ f.dqp && q.credits ≤ q.sends then stCredit
    else stSuccess

/-- R370, R371, R373: a refusal is counted by its status. -/
def State.countRefusal (s : State) (status : Nat) : State :=
  if status = stProtection then s.count oProtectionViolations 1
  else if status = stStaleFence then s.count oFenceRefusals 1
  else if status = stCredit then s.count oCreditViolations 1
  else s

/-- R371, R373: what an accepted message leaves in its queue pair's context. -/
def State.enterQp (s : State) (f : Frame) : State :=
  if f.dqp < 16 then s
  else s.updQp f.dqp fun q =>
    let r := if f.fence ≠ 0 && fenceLt (q.fence, q.owner) (s.recordOf f) then s.recordOf f else (q.fence, q.owner)
    { q with fence := r.1, owner := r.2, sends := q.sends + (if f.op = opSend then 1 else 0) }

/-- R364: receive buffers of a SEND. -/
def State.recvBuffers (s : State) (f : Frame) : Nat × Nat :=
  if f.op = opSend && 16 ≤ f.dqp then
    let q := Tbl.get s.fabric.qps {} f.dqp
    (q.pool, ceilDiv f.total (max 1 (s.stored (oBufSize q.pool))))
  else (0, 0)

/-- R364, R368: an entry and receive buffers can be allocated. -/
def State.canEnter (s : State) (f : Frame) : Bool :=
  let b := s.recvBuffers f
  let low := (s.fabric.reasm.filter fun e => e.head.vl ≠ 0).length
  decide (s.fabric.reasm.length < Config.reasmEntries) && (f.vl == 0 || decide (low < Config.reasmEntries - Config.reasmVl0)) &&
  (b.2 == 0 || s.allocCheck { source := .fabric (Tbl.get s.fabric.qps {} f.dqp).pd, pool := b.1, count := b.2, cls := f.vl } == stSuccess)

/-! ## Credit windows (R378) -/

/-- R378, R431: bytes written into the credit window of stream n at an offset. -/
def State.creditWrite (s : State) (n off : Nat) (data : Bytes) : State :=
  let d := (s.stream n).dlv
  let old := leBytes 8 d.granted ++ leBytes 4 d.creditFence ++ zeros 52
  let new := sliceZ (old.take off ++ data ++ old.drop (off + data.length)) 0 64
  let g := fieldAt new 0 8
  let fence := fieldAt new 8 4
  let bad := g < d.granted || d.acked + s.stored (oDlvRslots n) < g
  let s1 := if g = d.granted then s
    else if bad then s.count oCreditViolations 1
    else s.updDlv n fun d => { d with granted := g }
  let s2 := s1.updDlv n fun d => { d with creditFence := fence }
  if (s.stream n).prot.fenceEpoch < fence && (s.stream n).state.active then
    (s2.count oFenceRefusedOwn 1).moveStream n 0xFFFF stStaleFence
  else s2

/-! ## Reassembly (R364 to R366) -/

/-- R366: a packet agrees with the entry of its message. -/
def agrees (h f : Frame) : Bool :=
  h.total == f.total && h.op == f.op && h.dqp == f.dqp && h.tenant == f.tenant && h.fence == f.fence && h.rkey == f.rkey &&
  h.rbase == f.rbase && h.digest == f.digest

/-- R366: a packet's place in its message is legal. -/
def placed (f : Frame) : Bool :=
  f.offset % 4096 == 0 && f.offset + f.payload.length ≤ f.total && (f.payload.length == 4096 || f.offset + f.payload.length == f.total)

/-- R364: address of a plain region's byte that offset 0 of a WRITE names; none for other regions and operations. -/
def State.writeBase (s : State) (h : Frame) : Option Nat :=
  if h.op = opWrite || h.op = opWriteNotify then
    (s.regionOf h.rkey).bind fun r => if r.kind = 0 then some (r.base + 128 * h.rbase) else none
  else none

/-- R366: the bytes of a failed WRITE's range are undefined: free values. -/
def State.undefine (s : State) (base : Nat) : Nat → State
  | 0 => s
  | n + 1 =>
    let d := s.draw
    State.undefine ((d.2.writePlain base [Config.undefinedByte d.1]).getD d.2) (base + 1) n

/-- R365, R366: an entry ends; its receive buffers go back. -/
def State.dropEntry (s : State) (e : Reasm) : State :=
  let s1 := { s with fabric := { s.fabric with reasm := s.fabric.reasm.filter fun x => !(x.src == e.src && x.msgId == e.msgId) } }
  s1.freeReceive e.head.dqp e.buffers.1 e.buffers.2 e.part

/-- R366: an entry is discarded with a status, which is returned to the source. -/
def State.failEntry (s : State) (e : Reasm) (status : Nat) : State :=
  let s1 := (s.dropEntry e).sendResp e.head status 0
  match s.writeBase e.head with
  | some a => s1.undefine a e.head.total
  | none => s1

/-- R365, R378, R380: a message whose digest holds is acted on; the answer is a RESP or the data of a READ_REQ. -/
def State.deliverMessage (s : State) (e : Reasm) (data : Bytes) : State :=
  let h := e.head
  if h.op = opSend then
    if h.dqp = qpStore then
      let r := s.storeArrived data
      (r.1.dropEntry e).answerMessage h r.2 0
    else
      let s1 := { s with fabric := { s.fabric with
        reasm := s.fabric.reasm.filter fun x => !(x.src == e.src && x.msgId == e.msgId)
        inbox := s.fabric.inbox ++ [({ src := e.src, qp := h.dqp, data := data, pool := e.buffers.1, count := e.buffers.2, part := e.part } : InMsg)] } }
      s1.answerMessage h stSuccess 0
  else if h.op = opReadReq then
    let n := fieldAt data 0 4
    let s1 := s.dropEntry e
    match s.qpDomain h.dqp, s.regionOf h.rkey with
    | some (pd, _), some r =>
      if s.accessBad pd h.rkey (128 * h.rbase) n true then (s1.count oProtectionViolations 1).answerMessage h stProtection 0
      else if r.kind = 0 then
        (match s.readPlain (r.base + 128 * h.rbase) n with
         | some b => s1.sendReadResp h b
         | none => s1.answerMessage h stDram 0)
      else
        let a := r.base + 128 * h.rbase
        let out := (List.range (ceilDiv n 64)).foldl (fun (acc : Bytes × Nat × State) i =>
          let q := acc.2.2.readWindow (a + 64 * i)
          (acc.1 ++ q.1, if acc.2.1 = stSuccess then q.2.1 else acc.2.1, q.2.2)) ([], stSuccess, s1)
        if out.2.1 = stSuccess then out.2.2.sendReadResp h (out.1.take n) else out.2.2.answerMessage h out.2.1 0
    | _, _ => (s1.count oProtectionViolations 1).answerMessage h stProtection 0
  else
    let s1 := s.dropEntry e
    let s2 := match s.regionOf h.rkey with
      | some r => if r.kind = 1 then s1.creditWrite r.stream (128 * h.rbase) data else s1
      | none => s1
    let s3 := if h.op = opWriteNotify then
        { s2 with fabric := { s2.fabric with inbox := s2.fabric.inbox ++ [({ src := e.src, qp := h.dqp, data := [] } : InMsg)] } } else s2
    s3.answerMessage h stSuccess 0

/-- R365, R366: a packet is written into its entry; the message completes when all its bytes have come. -/
def State.takePacket (s : State) (e : Reasm) (f : Frame) : State :=
  if !(agrees e.head f && placed f) then s.failEntry e stMsgDigest
  else
    let e' := { e with data := e.data.writeN f.offset f.payload, received := e.received + f.payload.length, at_ := s.gtc }
    let put (x : Reasm) : Reasm := if x.src = e.src && x.msgId = e.msgId then e' else x
    let s1 := { s with fabric := { s.fabric with reasm := s.fabric.reasm.map put } }
    match (match s.writeBase e.head with | some a => s1.writePlain (a + f.offset) f.payload | none => some s1) with
    | none => s1.failEntry e' stDram
    | some s2 =>
      if e'.received ≠ f.total then s2
      else
        let data := match s.writeBase e.head with
          | some a => s2.fabric.mem.readN a f.total
          | none => e'.data.readN 0 f.total
        if (sha3_512 data).take 16 = sliceZ f.digest 0 16 then s2.deliverMessage e' data
        else (s2.count oDigestFailures 1).failEntry e' stMsgDigest

/-- R329, R461: a tenant scrub of a tenant answers first packets with BUSY. -/
def State.busyTenant (s : State) (f : Frame) : Bool := f.tenant ≠ 0 && s.scrubs f.tenant

/-- R364, R367, R368: a packet of a request message: into its entry, or through the checks into a new one. -/
def State.requestPacket (s : State) (f : Frame) : State :=
  match s.fabric.reasm.find? fun e => e.src == f.src && e.msgId == f.msgId with
  | some e => s.takePacket e f
  | none =>
    if s.busyTenant f then s.answerMessage { f with tenant := 0 } 0 1
    else
      let st := s.entryCheck f
      if st ≠ stSuccess then (s.countRefusal st).answerMessage f st 0
      else if !s.canEnter f then s.answerMessage f 0 1
      else
        let b := s.recvBuffers f
        let part := s.takePart b.1 b.2
        let e : Reasm := { src := f.src, msgId := f.msgId, head := f, at_ := s.gtc, buffers := b, part := part }
        let s1 := (s.enterQp f).occupy (Requester.fabric (Tbl.get s.fabric.qps {} f.dqp).pd).id b.1 b.2 part
        State.takePacket { s1 with fabric := { s1.fabric with reasm := s1.fabric.reasm ++ [e] } } e f

/-- R364, R367: a DATA frame for this device is processed. -/
def State.processLocal (s : State) (f : Frame) : State :=
  if f.op = opResp then s.respond (fieldAt f.payload 0 4) (fieldAt f.payload 4 2) (fieldAt f.payload 6 2)
  else if f.op ≤ opReadReq then s.requestPacket f
  else s

/-- R362: the packets of a message that this device sends to itself are delivered locally. -/
def State.deliverOwn (s : State) (id : Nat) : State :=
  match s.message id with
  | some m => if m.head.dst = s.coord then (packets m.head m.data).foldl State.processLocal s else s
  | none => s

/-- R363, R368: BUSY_BACKOFF_EXPIRY: the whole message is sent again under a new MSG_ID, unless its destination no longer
lies in the torus. -/
def execBusyBackoffExpiry (msgId : Nat) (s : State) : Res :=
  whenUp s fun s =>
    match s.message msgId with
    | some m =>
      (match m.retryAt with
       | some t =>
         if s.gtc < t then .next s
         else if s.inTorus m.head.dst then .next (((s.dropMessage msgId).sendAs m).deliverOwn s.fabric.nextMsg)
         else .next ((s.dropMessage msgId).passUp m stUnreachable)
       | none => .next s)
    | none => .next s

/-- R366: REASSEMBLY_TIMEOUT. -/
def execReassemblyTimeout (src msgId : Nat) (s : State) : Res :=
  whenUp s fun s =>
    match s.fabric.reasm.find? fun e => e.src == src && e.msgId == msgId with
    | some e => if e.at_ + 1000 * s.stored oReasmTimeout ≤ s.gtc then .next (s.failEntry e stReasm) else .next s
    | none => .next s

/-! ## The context cache (R374, R375) -/

/-- R374: bytes in a port's miss buffer. -/
def Port.missBytes (p : Port) : Nat := (p.miss.map Frame.bytes).sum

/-- R394: the contexts of the queue pairs of S0 streams are pinned in the cache. -/
def State.pinnedQp (s : State) (q : Nat × Qp) : Bool :=
  s.stored (oServiceClass q.2.stream) == 0 && (s.stream q.2.stream).dlv.localQpn == q.1

/-- R374, R394: the context of a queue pair is not cached. -/
def State.qpMiss (s : State) (dqp : Nat) : Bool :=
  16 ≤ dqp && (match Tbl.find s.fabric.qps dqp with | some q => !q.cached && !s.pinnedQp (dqp, q) | none => false)

/-- R374: a context is cached; of 4,096, 64 are kept clean and idle, so another may leave. -/
def State.cacheQp (s : State) (dqp : Nat) : State :=
  let others := s.fabric.qps.filter fun q => q.2.cached && q.1 ≠ dqp && !s.pinnedQp q
  let s1 := match others with
    | q :: _ => if 4031 < others.length then s.updQp q.1 fun x => { x with cached := false } else s
    | [] => s
  s1.updQp dqp fun q => { q with cached := true }

/-- R375: a packet that misses waits in the miss buffer, or in its VL buffer while that is full. -/
def State.missFrame (s : State) (k : Nat) (f : Frame) : State :=
  let p := s.port k
  let s1 := s.count oQpMisses 1
  if p.missBytes + f.bytes ≤ Config.missBytes then
    let s2 := s1.updPort k fun p => { p with miss := p.miss ++ [f] }
    s2.store (oMissBufferPeak k) (max (s2.stored (oMissBufferPeak k)) (p.missBytes + f.bytes))
  else s1.updPort k fun p => { p with stalled := p.stalled ++ [f] }

/-- R359, R374: a DATA frame that arrived at port k for this device. -/
def State.localFrame (s : State) (k : Nat) (f : Frame) : State :=
  if s.qpMiss f.dqp && f.op ≤ opReadReq then s.missFrame k f else (s.processLocal f).giveBack (backOf k f)

/-- R374: QP_CONTEXT_FETCH_DONE: the context is cached and the packets of port k that wait for it are processed; those
that stalled take their place in the miss buffer. -/
def execQpContextFetchDone (k qp : Nat) (s : State) : Res :=
  withPort k s fun s =>
    if (Tbl.find s.fabric.qps qp).isNone then .next s
    else
      let p := s.port k
      let ready := p.miss.filter fun f => f.dqp == qp
      let s1 := (s.cacheQp qp).updPort k fun p => { p with miss := p.miss.filter fun f => f.dqp ≠ qp, stalled := [] }
      let s2 := ready.foldl (fun s f => (s.processLocal f).giveBack (backOf k f)) s1
      .next (p.stalled.foldl (fun s f => s.localFrame k f) s2)

/-! ## The arrival of a DATA frame (R354, R360, R362, R363, R386, R387) -/

/-- R362, R363: an accepted frame is delivered here, is unreachable, or goes on. -/
def State.acceptFrame (s : State) (k : Nat) (f : Frame) : State :=
  if f.dst = s.coord then s.localFrame k f
  else
    let name := (f.src, f.msgId)
    let first := !s.fabric.seen.contains name
    let q : QFrame := { frame := f, since := s.gtc, back := backOf k f, dim := some (s.portDir k / 2), first := first }
    let s1 := if first then { s with fabric := { s.fabric with seen := (name :: s.fabric.seen).take 16384 } } else s
    if s.inTorus f.dst then s1.forward q else (s1.giveBack q.back).unreachable q

/-- R386, R387: the policer of port k colours a frame; a RED one is held. -/
def State.policeFrame (s : State) (k : Nat) (f : Frame) : State :=
  let q := 8 * (8 + k) + f.vl
  let c := s.policeTint k f.vl f.bytes false
  let s1 := (if s.stored (oPolice q) = 0 then s else s.takeTokens q f.bytes c).countTint q f.bytes c
  if c = .red then s1.updPort k fun p => { p with red := p.red ++ [{ frame := f, since := s.gtc }] } else s1.acceptFrame k f

/-- R360: a frame that is not accepted; one NAK is sent for each gap. -/
def State.gapNak (s : State) (k : Nat) : State :=
  if (s.port k).nakSent then s else (s.control k 3 []).updPort k fun p => { p with nakSent := true }

/-- R354, R356, R360, R381: DATA_FRAME_RECEIVE. (DESIGN CHOICE, log entry 111) -/
def execDataFrameReceive (k : Nat) (f : Frame) (s : State) : Res :=
  withPort k s fun s =>
    let p := s.port k
    if !s.portOn k || f.ftype ≠ 0 then .next s
    else if p.link = .fenced then .next (s.count (oFencedDrops k) 1)
    else if p.link ≠ .up then .next s
    else
      let s0 := if f.fec = 0 then s else s.count (oFecCorrected k) f.fec
      if !f.good then .next ((s0.count (oFecUncorrected k) 1).gapNak k)
      else
        let s1 := s0.acked k f.lack
        if f.lseq ≠ p.rxSeq then .next (s1.gapNak k)
        else
          .next ((s1.updPort k fun p => { p with rxSeq := (p.rxSeq + 1) % 4096, nakSent := false }).policeFrame k
            { f with fec := 0, fcs := none })

/-! ## The transmission of a frame (R360, R385, R389) -/

/-- R385, R389, R413, R463: the first frame of class c that port k may send now; a port that sleeps holds its frames.
(DEDUCED, log entry 176) -/
def State.portCand (s : State) (k c : Nat) : Option QFrame :=
  match (s.port k).queue.find? fun q => q.frame.vl == c && !s.busyTenant q.frame && !s.deviceScrub with
  | some q =>
    if (s.domain (portDomain k)).state == 0 && s.gateAllows k c q.frame.bytes && decide ((s.port k).heldBytes + q.frame.bytes ≤ Config.replayBytes) then some q else none
  | none => none

/-- R360, R385: port k sends a frame: it is held until acknowledged and its input buffer's credits go back. (DESIGN CHOICE, log entry 112) -/
def State.sendFrame (s : State) (k : Nat) (q : QFrame) (t : Tint) : State :=
  let p := s.port k
  let f := { q.frame with lseq := p.txSeq, lack := p.rxSeq }
  let s1 := s.takeTokens (8 * k + f.vl) f.bytes t
  let s2 := s1.updPort k fun p =>
    { p with txSeq := (p.txSeq + 1) % 4096, queue := p.queue.erase q, held := p.held ++ [(f.lseq, f)]
             lackGtc := if p.held.isEmpty then s.gtc else p.lackGtc }
  (((s2.leave (8 * k + f.vl) q.since).emit (.frame k f)).count oFabricTxBytes f.bytes).giveBack q.back

/-- R385, R413: FRAME_TRANSMIT_DONE: a decision point of fabric port k, or of gate port 8, the CXL.mem data; a frame that a
sleeping port is to send wakes it. -/
def execFrameTransmitDone (k : Nat) (s : State) : Res :=
  if k = 8 then whenUp s fun s => .next (s.decide_ 20)
  else withPort k s fun s =>
    if !s.portUp k then .next s
    else
      let cands := (List.range 8).filterMap fun c => (s.portCand k c).map fun q => (c, q.frame.bytes)
      match s.shaperPick k cands with
      | none => .next (if (s.port k).queue.isEmpty then s else s.touch (portDomain k))
      | some (c, _, t) =>
        match s.portCand k c with
        | some q => .next (s.sendFrame k q t)
        | none => .next s

end Sys2Proof.Machine
end

