-- ==== Sys2Proof/Machine/Clock.lean ====
section
/-! DEFINITION. The global time counter: its ticks and its rate (R2, R224), the timestamp exchange (R222, R223, R225), its
pins (R225, R540), and the phase monitors (R220, R522). -/

namespace Sys2Proof.Machine

/-! ## Ticks (R2, R224) -/

/-- R224: the offset is removed at no more than 10 ppm beyond the rate: parts per 10^9 for an offset in 1/64 tick. -/
def slew (offset : Int) : Int := max (-10000) (min 10000 (offset * 1000 / 64))

/-- R224: one tick of the GTC clock: the accumulator makes it advance by 0, 1 or 2. -/
def ClkSt.tick (c0 : ClkSt) : ClkSt :=
  let c := { c0 with ticks := c0.ticks + 1 }
  let total := c.rate + (if c.state = 2 then slew c.offset else 0)
  let acc : Int := (c.frac : Int) + total * 2 ^ 32 / 1000000000
  if acc < 0 then { c with frac := (acc + 2 ^ 32).toNat }
  else if 2 ^ 32 ≤ acc then { c with gtc := (c.gtc + 2) % 2 ^ 64, frac := (acc - 2 ^ 32).toNat }
  else { c with gtc := (c.gtc + 1) % 2 ^ 64, frac := acc.toNat }

/-- R2: one tick of the GTC clock, which runs while the device is out of cold reset. -/
def State.tick (s : State) : State := if s.sys.inReset then s else { s with clk := s.clk.tick }

/-! ## The exchange (R222, R223) -/

/-- R357: the payload of a TIME frame. -/
def timePayload (kind hops t1 t2 t3 : Nat) : Bytes :=
  leBytes 1 kind ++ leBytes 1 hops ++ zeros 6 ++ leBytes 8 t1 ++ leBytes 8 t2 ++ leBytes 8 t3

/-- R222: this device is the root. -/
def State.isRoot (s : State) : Bool := s.flag oGtcRoot

/-- R222: the device's own hop count. (DEDUCED, log entry 64) -/
def State.ownHops (s : State) : Nat := if s.isRoot then 0 else s.clk.hops

/-- R223: the GTC in 1/64 tick. -/
def State.stampNow (s : State) : Nat := s.gtc * 64 % 2 ^ 64

/-- R354: a TIME frame that port k sends; a FENCED port discards and counts it. -/
def State.sendTime (s : State) (k : Nat) (payload : Bytes) : State :=
  if (s.port k).link = .fenced then s.count (oFencedDrops k) 1 else s.control k 5 payload

/-- R223: the ports on which the device asks: its parent's, or every UP port while it has none. -/
def State.askPorts (s : State) : List Nat :=
  match s.clk.parent with
  | some k => [k]
  | none => (List.range 8).filter s.portUp

/-- R223: GTC_EXCHANGE: once every 1 ms. -/
def execGtcExchange (s : State) : Res :=
  whenUp s fun s =>
    let due := match s.clk.t1 with
      | some t => decide (t / 64 + Config.ms ≤ s.gtc)
      | none => s.clk.exchanged == 0 || decide (s.clk.exchanged + Config.ms ≤ s.gtc)
    if s.isRoot || !due || s.askPorts.isEmpty then .next s
    else
      let t := s.stampNow
      let s1 := s.askPorts.foldl (fun (s : State) k => s.sendTime k (timePayload 0 s.ownHops t 0 0)) s
      .next { s1 with clk := { s1.clk with t1 := some t } }

/-- R222: the port of the neighbour with the fewest hops to the root, the lowest on a tie. -/
def State.bestParent (s : State) : Option Nat :=
  ((List.range 8).filter fun k => s.portUp k && (s.port k).hops < 0xFF).foldl (fun (b : Option Nat) k =>
    match b with
    | none => some k
    | some j => if (s.port k).hops < (s.port j).hops then some k else some j) none

/-- R222, R225: the device takes its parent anew; a device whose parent changes passes through ACQUIRING, and one that
finds none is FREE. -/
def State.chooseParent (s : State) : State :=
  if s.isRoot then
    { s with clk := { s.clk with parent := none, hops := 0, state := 0, good := 0, rate := 0, t1 := none,
                                 freeSince := if s.clk.state = 0 then s.clk.freeSince else s.gtc } }
  else
    match s.bestParent with
    | none =>
      if s.clk.state = 3 then { s with clk := { s.clk with parent := none, hops := 0xFF } }
      else
        { s with clk := { s.clk with parent := none, hops := 0xFF, state := 0, good := 0, t1 := s.clk.t1,
                                     freeSince := if s.clk.state = 0 then s.clk.freeSince else s.gtc } }
    | some k =>
      let c := { s.clk with parent := some k, hops := (s.port k).hops + 1 }
      if s.clk.parent = some k && (s.clk.state = 1 || s.clk.state = 2) then { s with clk := c }
      else { s with clk := { c with state := 1, good := 0 } }

/-- R224: the rate that matches the parent's, which the spec bounds at ±200 ppm. (DESIGN CHOICE, log entry 62) -/
def freeRate (n : Nat) : Int := ((Config.freeWord n).toNat % 400001 : Nat) - 200000

/-- R223 to R225: a completed exchange with the parent: the offset, in 1/64 tick, steps the GTC only in ACQUIRING before
ring admission, and 16 consecutive offsets within ±1 tick lock it. -/
def State.correct (s : State) (offset : Int) : State :=
  let good := if -64 ≤ offset && offset ≤ 64 then s.clk.good + 1 else 0
  let step := s.clk.state = 1 && s.sys.step ≠ 0
  let gtc := if step then ((s.gtc : Int) + offset / 64).toNat % 2 ^ 64 else s.gtc
  let d := s.draw
  { d.2 with clk := { d.2.clk with gtc := gtc, offset := offset, good := good, rate := freeRate d.1, exchanged := gtc, t1 := none,
                                   state := if 16 ≤ good then 2 else d.2.clk.state } }

/-- R222 to R225, R354, R357: TIME_FRAME_RECEIVE: `stamp` is the instant of the arrival, in 1/64 tick. -/
def execTimeFrameReceive (k : Nat) (f : Frame) (stamp : Nat) (s : State) : Res :=
  withPort k s fun s =>
    if !s.linked k || !f.good || f.ftype ≠ 5 then .next s
    else if (s.port k).link = .fenced then .next (s.count (oFencedDrops k) 1)
    else
      let s0 := s.acked k f.lack
      let hops := fieldAt f.payload 1 1
      let s1 := (s0.updPort k fun p => { p with hops := hops }).chooseParent
      let t1 := fieldAt f.payload 8 8
      if fieldAt f.payload 0 1 = 0 then .next (s1.sendTime k (timePayload 1 s1.ownHops t1 stamp s1.stampNow))
      else if s.clk.t1 ≠ some t1 then .next s1
      else
        let t2 : Int := fieldAt f.payload 16 8
        let t3 : Int := fieldAt f.payload 24 8
        let a : Int := t2 - t1
        let b : Int := (stamp : Int) - t3
        let delay := ((a + b) / 2).toNat
        let s2 := { s1 with clk := { s1.clk with delay := Tbl.set s1.clk.delay k delay } }
        if s2.clk.parent = some k then .next (s2.correct ((a - b) / 2)) else .next s2

/-- R225: GTC_HOLDOVER: no exchange with any parent for 64 ms; the last rate is kept. -/
def execGtcHoldover (s : State) : Res :=
  whenUp s fun s =>
    if s.isRoot || s.clk.state = 0 || s.clk.state = 3 || s.gtc < s.clk.exchanged + 64 * Config.ms then .next s
    else
      let forget (p : Port) : Port := { p with hops := 0xFF }
      .next { s with clk := { s.clk with state := 3, parent := none, hops := 0xFF, good := 0, t1 := none }
                     fabric := { s.fabric with ports := s.fabric.ports.map fun q => (q.1, forget q.2) } }

/-- R222, R241: GTC_ROOT is written, and the time tree forms anew. -/
def State.setRoot (s : State) (v : Nat) : State := (s.store oGtcRoot v).chooseParent

/-! ## Pins (R225, R540) -/

/-- R225, R540: GTC_SYNC_IN_EDGE: the GTC of the rising edge is latched, within ±2 ticks. (DESIGN CHOICE, log entry 63) -/
def execGtcSyncInEdge (s : State) : Res :=
  if s.sys.inReset then .next s
  else
    let d := s.draw
    .next { d.2 with clk := { d.2.clk with latch := s.gtc + (Config.freeWord d.1).toNat % 5 - 2 } }

/-- R225, R540: GTC_SYNC_OUT_PULSE: the GTC has reached a multiple of 2^24 ticks. -/
def execGtcSyncOutPulse (s : State) : Res :=
  let m := s.gtc / 2 ^ 24 * 2 ^ 24
  if s.sys.inReset || m = 0 || s.clk.syncOut = some m then .next s
  else .next (State.emit { s with clk := { s.clk with syncOut := some m } } .syncOut)

/-! ## Phase monitors (R220, R522) -/

/-- R220, R522: PHASE_MONITOR_MISMATCH after alignment, during a warm reset too: the fault is counted, and the device halts with code 3, after a
flush once it has been admitted to the ring. -/
def execPhaseMonitorMismatch (s : State) : Res :=
  whenUp s fun s =>
    if s.clk.phase.isNone then .next s
    else
      let s1 := s.count oClockAlignFaults 1
      if s.sys.step = 0 then .next (s1.beginFlush .clockFault) else .next (s1.fatal 3)

end Sys2Proof.Machine
end

