-- ==== Sys2Proof/Machine/Security.lean ====
section
/-! DEFINITION. The enclave: identity and evidence (R449, R452), key release and the placing of weights (R455 to R458), the
destruction of keys (R459), the life cycle (R445 to R447) and the tenant scrub (R461 to R464). -/

namespace Sys2Proof.Machine

/-! ## Identity and evidence (R449, R452, R454) -/

/-- R449, R467: IDENTITY_PUBKEY, derived once the seed is fused and while it is not locked. -/
def State.identityPub (s : State) : Bytes := if s.sec.uds && !s.sec.seedLock then Config.identityKey else []

/-- R467: IDENTITY_DIGEST. -/
def State.identityDigest (s : State) : Bytes := if s.identityPub.isEmpty then zeros 64 else sha3_512 s.identityPub

/-- R449: FW_MEASUREMENT of the firmware slot that runs. -/
def State.fwMeasure (s : State) : Bytes := sha3_512 (Tbl.get s.sec.fw {} s.sec.active).image

/-- R454: UPDATE_PENDING. -/
def State.updatePending (s : State) : Bool := s.sec.commit.isSome

/-- R452: FLAGS of an evidence. -/
def State.evidenceFlags (s : State) : Nat :=
  (if s.updatePending then 1 else 0) + (if s.sys.warm then 2 else 0) + (if s.sec.scrub.isSome then 4 else 0) +
  (if (List.range 4).any fun p => (s.rm p).state == 1 then 8 else 0)

/-- R452: an entry of an evidence. -/
def evidenceEntry (kind state_ slot tenant : Nat) (digest : Bytes) : Bytes :=
  leBytes 1 kind ++ leBytes 1 state_ ++ leBytes 2 slot ++ leBytes 4 tenant ++ zeros 8 ++ sliceZ digest 0 64

/-- R452: the entries of the kinds of a mask, for a tenant or device-wide. -/
def State.evidenceEntries (s : State) (tenant kinds : Nat) : List Bytes :=
  let has (k : Nat) (l : List Bytes) : List Bytes := if bit kinds k then l else []
  let mine (t : Nat) : Bool := tenant == 0 || t == tenant
  let fw (k st : Nat) : Bytes := evidenceEntry 2 st k 0 (sha3_512 (Tbl.get s.sec.fw {} k).image)
  has 1 [evidenceEntry 1 0 0 0 (sha3_512 Config.bootRomDigest)] ++
  has 2 ([fw s.sec.active 0] ++ (match s.sec.commit with | some k => [fw k 1] | none => [])) ++
  has 3 (((List.range 16).filter fun k => s.hasImage k && mine (imageTenant (s.image k))).map fun k =>
    evidenceEntry 3 0 k (imageTenant (s.image k)) (s.image k).digest) ++
  has 4 ((s.sec.released.filter fun r => mine r.2.tenant).map fun r => evidenceEntry 4 0 (r.1 % 256) r.2.tenant r.2.digest) ++
  has 5 (((List.range 32).filter fun t => s.stored (oTenantId t) ≠ 0 && mine (s.stored (oTenantId t))).map fun t =>
    evidenceEntry 5 0 t (s.stored (oTenantId t)) (sha3_512 (s.tenantKey t)))

/-- R452: the evidence for a request. -/
def State.evidenceBytes (s : State) (nonce : Bytes) (tenant kinds : Nat) : Bytes :=
  let es := (s.evidenceEntries tenant kinds).take 512
  let m := s.fwMeasure
  let alias_ := Config.aliasKey m
  let body :=
    leBytes 4 0x44495645 ++ leBytes 2 1 ++ leBytes 1 s.sec.lc ++ zeros 1 ++ leBytes 4 s.evidenceFlags ++ leBytes 4 tenant ++
    sliceZ nonce 0 32 ++ leBytes 8 s.gtc ++ leBytes 2 s.sec.svn ++ leBytes 2 es.length ++
    leBytes 4 (8920 + 80 * es.length + 4632) ++ s.identityDigest ++ sliceZ (Config.kemKey s.sec.kemNo) 0 1568 ++
    sliceZ alias_ 0 2592 ++ sliceZ (Config.identitySign (sha3_512 (alias_ ++ m))) 0 4627 ++ zeros 5 ++ es.flatten
  body ++ sliceZ (Config.aliasSign m (sha3_512 body)) 0 4627 ++ zeros 5

/-- R452, R456: the enclave signs evidence for a 44-byte request, and remembers its nonce; refused outside PROVISIONED and
DEPLOYED. -/
def State.evidenceCmd (s : State) (req : Bytes) : Except Nat State :=
  if !(s.sec.lc == 2 || s.sec.lc == 3) then .error stKeyRefused
  else
    let nonce := sliceZ req 0 32
    let tenant := fieldAt req 32 4
    let b := s.evidenceBytes nonce tenant (fieldAt req 36 8)
    let x : Signed := { nonce := nonce, gtc := s.gtc, tenant := tenant, pending := s.updatePending }
    .ok { s with sec := { s.sec with evidence := b, signed := (s.sec.signed.filter fun e => s.gtc < e.gtc + 60 * Config.sec) ++ [x] } }

/-! ## The destruction of keys (R459) -/

/-- R459: the state without the released keys that two tests name. -/
def State.dropKeys (s : State) (models : Nat → Bool) (snaps : Nat → Bool) : State :=
  { s with sec := { s.sec with released := s.sec.released.filter (fun r => !models r.1)
                               snapKeys := s.sec.snapKeys.filter fun k => !snaps k.1 } }

/-- R39, R458, R459: released keys are destroyed with the plaintext weights that they protect, and each RUNNING stream
that uses one goes HELD. -/
def State.destroyKeys (s : State) (models : Nat → Bool) (snaps : Nat → Bool) : State :=
  let after := s.dropKeys models snaps
  let lost (n : Nat) : Bool :=
    let i := s.imageOf n
    (s.stream n).state == .running &&
    (snaps (imageTenant i) || (imgModels i.image).any fun d => s.modelReleased (imageTenant i) d && !after.modelReleased (imageTenant i) d)
  let held := ((List.range Config.streams).filter lost).foldl (fun (s : State) n => s.holdStream n stModelNotReleased) s
  held.dropKeys models snaps

/-- R459: every released key is destroyed. -/
def State.destroyAllKeys (s : State) : State := s.destroyKeys (fun _ => true) (fun _ => true)

/-! ## Key release (R455 to R458) -/

/-- R455: the wrapping key of a release message. -/
def State.wrapKey (s : State) (b : Bytes) : Bytes :=
  kmac256 (Config.kemDecap s.sec.kemNo (sliceZ b 112 1568))
    (sliceZ b 16 32 ++ sliceZ b 8 4 ++ sliceZ b 12 2 ++ sliceZ b 6 1 ++ sliceZ b 48 64) 32 "OA1640 KEY RELEASE"

/-- R455: the key that a release message carries, when its tag verifies. -/
def State.unwrap (s : State) (b : Bytes) : Option Bytes :=
  Config.gcmOpen (s.wrapKey b) (sliceZ b 16 12) (b.take 112) (sliceZ b 1680 32) (sliceZ b 1712 16)

/-- R456: step 4: the signature of a release message by the tenant in a slot. -/
def State.releaseSigned (s : State) (b : Bytes) : Bool :=
  match s.tenantSlot (fieldAt b 8 4) with
  | some t =>
    fieldAt b 1728 2 == 0x0087 && fieldAt b 1730 2 == 4627 &&
    Config.dsaVerify (s.tenantKey t) (sha3_512 (b.take 1728)) (sliceZ b 1732 4627)
  | none => false

/-- R456: step 5: the nonce belongs to evidence signed less than 60 s earlier. -/
def State.nonceFresh (s : State) (b : Bytes) : Bool :=
  s.sec.signed.any fun e =>
    e.nonce == sliceZ b 16 32 && s.gtc < e.gtc + 60 * Config.sec && !e.pending && (e.tenant == 0 || e.tenant == fieldAt b 8 4)

/-- R456: the release that a message names. (DEDUCED, log entry 102) -/
def releaseOf (b : Bytes) : Nat := fieldAt b 8 4 * 256 + fieldAt b 12 2

/-- R456: step 7. -/
def State.slotAllows (s : State) (b : Bytes) : Bool :=
  let held := Tbl.find s.sec.released (releaseOf b)
  let same := match held with | some r => r.digest == sliceZ b 48 64 | none => false
  match fieldAt b 6 1 with
  | 0 => fieldAt b 12 2 < 256 && (same || (held.isNone && s.sec.released.length + s.sec.snapKeys.length < 1024))
  | 1 => true
  | 2 => fieldAt b 12 2 < 256 && same
  | _ => false

/-- R456: the status of the first check of a release message that fails, or SUCCESS. -/
def State.releaseCheck (s : State) (b : Bytes) : Nat :=
  if fieldAt b 0 4 ≠ 0x4C45524B || fieldAt b 4 2 ≠ 1 || b.length ≠ 6360 then stKeyRefused
  else if s.scrubs (fieldAt b 8 4) then stScrub
  else if s.sec.lc ≠ lcDeployed || s.sec.pending.isSome || s.updatePending then stKeyRefused
  else if !s.releaseSigned b || !s.nonceFresh b then stKeyRefused
  else if fieldAt b 6 1 < 2 && (s.unwrap b).isNone then stKeyRefused
  else if !s.slotAllows b then stKeyRefused
  else stSuccess

/-- R455 to R459: KEY_RELEASE: a model key, a snapshot key or a withdrawal. -/
def State.keyReleaseCmd (s : State) (b : Bytes) : Except Nat State :=
  let st := s.releaseCheck b
  if st ≠ stSuccess then .error st
  else
    let tenant := fieldAt b 8 4
    let key := (s.unwrap b).getD []
    match fieldAt b 6 1 with
    | 0 =>
      let old := Tbl.get s.sec.released { tenant := tenant, digest := sliceZ b 48 64, key := key } (releaseOf b)
      .ok { s with sec := { s.sec with released := Tbl.set s.sec.released (releaseOf b) { old with key := key } } }
    | 1 => .ok { s with sec := { s.sec with snapKeys := Tbl.set s.sec.snapKeys tenant key } }
    | _ => .ok (s.destroyKeys (fun k => k == releaseOf b) fun _ => false)

/-- R25: a model reference of a resident image of a tenant that names a digest. -/
def State.modelRefOf (s : State) (tenant : Nat) (digest : Bytes) : Option Bytes :=
  (((List.range 16).filter fun k => s.hasImage k && imageTenant (s.image k) == tenant).flatMap fun k =>
    (List.range (imgModelCount (s.image k).image)).map fun m => imgModel (s.image k).image m).find? fun r => r.take 64 == digest

/-- R457: the ciphertext that a model reference names. -/
def State.ciphertext (s : State) (ref : Bytes) : Option Bytes :=
  (s.ns (fieldAt ref 64 4)).bind fun x => s.readBytes x (4096 * fieldAt ref 72 8) (fieldAt ref 80 8)

/-- R457: the plaintext weights of a ciphertext, when the tag and the digest agree. -/
def openWeights (key digest ct : Bytes) : Option Bytes :=
  let n := ct.length - 28
  match Config.gcmOpen key (ct.take 12) digest ((ct.drop 12).take n) (ct.drop (12 + n)) with
  | some w => if sha3_512 w == digest then some w else none
  | none => none

/-- R457: MODEL_WEIGHTS_LOADED: the ciphertext of a release has been read; the weights are placed, or the plaintext and the
key are discarded. (DESIGN CHOICE, log entry 103) -/
def execModelWeightsLoaded (slot : Nat) (s : State) : Res :=
  whenRm 2 s fun s =>
    match Tbl.find s.sec.released slot with
    | none => .next s
    | some r =>
      if r.loaded then .next s
      else
        match s.modelRefOf r.tenant r.digest with
        | none => .next s
        | some ref =>
          match (s.ciphertext ref).bind (openWeights r.key r.digest) with
          | some w =>
            let oasis := s.modelBytes true + w.length ≤ s.stored oModelOasisMib * mib
            let r' := { r with loaded := true, oasis := oasis, weights := w }
            .next (State.emit { s with sec := { s.sec with released := Tbl.set s.sec.released slot r' } }
              (.modelReport r.tenant (slot % 256) stSuccess))
          | none =>
            .next (State.emit { s with sec := { s.sec with released := Tbl.del s.sec.released slot } }
              (.modelReport r.tenant (slot % 256) stModelDigest))

/-! ## DRAM keys (R250, R253, R449) -/

/-- R253: every tenant DRAM key is rotated. -/
def State.rotateTenants (s : State) : State := (List.range 32).foldl (fun s t => s.rotateKey (t + 1)) s

/-! ## The tenant scrub (R461 to R464) -/

/-- R461: a tenant lies in the scope of a scrub. -/
def Scrub.covers (b : Scrub) (tenant : Nat) : Bool := b.scope == 0xFFFFFFFF || b.scope == tenant

/-- R463: the credit counts that a port shows are frozen as a scrub of DEVICE scope begins, and shown again as it ends. -/
def FabricSt.freeze (f : FabricSt) (on : Bool) : FabricSt :=
  { f with ports := f.ports.map fun p => (p.1, { p.2 with frozen := if on then some p.2.given else none, creditDue := true }) }

/-- R461: a scrub that begins; for RMA and SCRAPPED it burns a life-cycle state when it ends. -/
def State.beginScrub (s : State) (scope : Nat) (thenState : Option Nat) : State :=
  { s with fabric := if scope = 0xFFFFFFFF then s.fabric.freeze true else s.fabric
           sec := { s.sec with scrub := some { scope := scope, thenState := thenState }, scrubDone := false } }

/-- R446, R461: every stream is IDLE or MOVED. -/
def State.streamsIdle (s : State) : Bool :=
  (List.range Config.streams).all fun n => (s.stream n).state == .idle || (s.stream n).state == .moved

/-- R461: a write of SCRUB_TENANT. -/
def State.scrubCmd (s : State) (v : Nat) : Except Nat State :=
  if s.sec.scrub.isSome then .error stScrub
  else if v = 0xFFFFFFFF then
    (if s.streamsIdle && s.ft.mirrors.isEmpty then .ok (s.beginScrub v none) else .error stState)
  else if (s.tenantSlot v).isSome then .ok (s.beginScrub v none)
  else .error stState

/-- R462: step 1 for one stream: a pipeline reset, its slots freed, its marks and snapshot discarded, its buffers freed.
(DEDUCED, log entry 104) -/
def State.scrubStream (s : State) (n : Nat) : State :=
  let s1 := match (s.stream n).state with
    | .idle | .moved => s
    | _ => (s.resetStream n).closeMirror n (s.partnerOf n)
  let s2 := ((s1.scrubSlots n).freeRequester n).updStream n fun x =>
    { x with snapshot := none, lastBatchDigest := zeros 64, openSamples := []
             dlv := { x.dlv with creditKey := 0, readKey := 0, localQpn := 0, pd := 0 }
             prot := { x.prot with pendingMark := none } }
  s2.setMarks n []

/-- R462: step 1 in the fabric: the queue pairs, domains and regions of the tenant are destroyed, and frames and messages
of the tenant leave the buffers, whose credits are returned (R359). -/
def FabricSt.scrub (f : FabricSt) (covers : Nat → Bool) : FabricSt :=
  let pds := (f.pds.filter fun p => covers p.2).map Prod.fst
  let mine := (f.qps.filter fun x => pds.contains x.2.pd).map Prod.fst
  let q (x : QFrame) : Bool := !covers x.frame.tenant
  let port (p : Port) : Port :=
    { p with queue := p.queue.filter q, red := p.red.filter q, miss := p.miss.filter (fun x => !covers x.tenant)
             stalled := p.stalled.filter (fun x => !covers x.tenant), redRoce := p.redRoce.filter fun x => !mine.contains x.qp }
  { f with pds := f.pds.filter (fun p => !covers p.2), qps := f.qps.filter (fun x => !pds.contains x.2.pd)
           regions := f.regions.filter (fun r => !pds.contains r.2.pd), waiting := f.waiting.filter q
           msgs := f.msgs.filter (fun m => !covers m.head.tenant), reasm := f.reasm.filter (fun r => !covers r.head.tenant)
           ports := f.ports.map fun p => (p.1, port p.2) }

/-- R230, R437, R462: the marks in flash without those of the tenant, which each names, be its stream loaded or not.
(DEDUCED, log entry 177) -/
def FlashSt.dropMarks (f : FlashSt) (covers : Nat → Bool) : FlashSt :=
  { f with marks := f.marks.map fun m => (m.1, m.2.filter fun b => !covers (fieldAt b 12 4)) }

/-- R462: the tenant's namespaces, by NSID. -/
def State.scrubSpaces (s : State) (b : Scrub) : List (Nat × Namespace) := s.host.nss.filter fun x => b.covers x.2.tenant

/-- R336: every LPN of a namespace that is mapped or buffered. -/
def State.lpnsOf (s : State) (x : Namespace) : List Nat :=
  let mine (l : Nat) : Bool := x.extents.contains (l / 262144)
  ((s.flash.map.map Prod.fst ++ s.flash.wbuf.map WbEntry.lpn).filter mine).eraseDups

/-- R463: the queue pairs that step 1 destroys. -/
def State.scrubQps (s : State) (covers : Nat → Bool) : List Nat :=
  (s.fabric.qps.filter fun q => covers (Tbl.get s.fabric.pds 0 q.2.pd)).map Prod.fst

/-- R462: the receive buffers of the tenant's messages go back. -/
def State.dropReceives (s : State) (covers : Nat → Bool) : State :=
  let mine := s.scrubQps covers
  let s1 := (s.fabric.reasm.filter fun e => covers e.head.tenant).foldl (fun (s : State) e =>
    s.freeReceive e.head.dqp e.buffers.1 e.buffers.2 e.part) s
  let s2 := (s.fabric.inbox.filter fun m => mine.contains m.qp).foldl (fun (s : State) m =>
    s.freeReceive m.qp m.pool m.count m.part) s1
  { s2 with fabric := { s2.fabric with inbox := s2.fabric.inbox.filter fun m => !mine.contains m.qp } }

/-- R30, R437, R462: step 1. (DEDUCED, log entry 175) -/
def State.scrubQuiesce (s : State) (b : Scrub) : State :=
  let mine := (List.range Config.streams).filter fun n => match s.tenantOf n with | some t => b.covers t | none => false
  let s1 := mine.foldl State.scrubStream s
  let s2 := ((s1.ft.mirrors.filter fun r => b.covers r.2.tenant).foldl (fun (s : State) r => s.closeRecord r.1) s1).dropReceives b.covers
  let s3 := (s2.fabric.backs fun f => b.covers f.tenant).foldl (fun (s : State) x => s.giveBack (some x))
    { s2 with images := s2.images.filter fun i => !b.covers (imageTenant i.2), fabric := s2.fabric.scrub b.covers }
  let gone := (s3.scrubSpaces b).flatMap fun x => s3.lpnsOf x.2
  let hit (l : Nat) : Bool := (s3.scrubSpaces b).any fun x => x.2.extents.contains (l / 262144)
  let keep (w : WriteThrough) : WriteThrough := { w with pages := w.pages.filter fun p => !hit p.1 }
  { s3 with flash := { s3.flash.dropMarks b.covers with wbuf := s3.flash.wbuf.filter fun e => !gone.contains e.lpn }
            host := { s3.host with throughs := s3.host.throughs.map keep } }

/-- R462: step 2: the tenant's model, snapshot and DRAM keys. -/
def State.scrubKeys (s : State) (b : Scrub) : State := s.destroyKeys (fun k => b.covers (k / 256)) b.covers

/-- R462: the DRAM key IDs of a scrub: that of the tenant; in DEVICE scope those of every tenant slot and key ID 33. -/
def State.scrubKeyIds (s : State) (b : Scrub) : List Nat :=
  if b.scope = 0xFFFFFFFF then (List.range 33).map (· + 1) else (s.tenantSlot b.scope).toList.map (· + 1)

/-- R462: step 4a: the granules have a new key. -/
def State.scrubRotate (s : State) (b : Scrub) : State := (s.scrubKeyIds b).foldl State.rotateKey s

/-- R336, R462: the pages of a namespace are deallocated; write-through data still to be programmed is dropped with them. -/
def State.dropPages (s : State) (x : Namespace) : State :=
  let keep (w : WriteThrough) : WriteThrough := { w with pages := w.pages.filter fun p => !x.extents.contains (p.1 / 262144) }
  { s.freePages (s.lpnsOf x) with host := { s.host with throughs := s.host.throughs.map keep } }

/-- R299: SPARE_BLOCKS at a change of FORMATTED. -/
def State.settleSpares (s : State) : State := State.followPools { s with flash := { s.flash with spareBase := s.allSpares } }

/-- R280, R303: a namespace is deleted: its open samples end, its pages are deallocated and its extents are free. -/
def State.dropNamespace (s : State) (nsid : Nat) (x : Namespace) : State :=
  let s1 := match x.corpus with
    | some c => c.open_.foldl (fun (s : State) (o : Nat × OpenSample) => s.endSample nsid o.1 stNsNotReady) s
    | none => s
  let s2 := s1.dropPages x
  let bands := match x.corpus with
    | some c => s2.bands.filter fun (k : Band) => k.corpus ≠ c.id
    | none => s2.bands
  State.settleSpares { s2 with bands := bands
                               host := { s2.host with nss := Tbl.del s2.host.nss nsid
                                                      extents := s2.host.extents.filter (fun e => !x.extents.contains e)
                                                      attached := s2.host.attached.filter (· ≠ nsid) } }

/-- R462: step 5 for one namespace: deleted if CORPUS, else a new media key with every LPN deallocated. -/
def State.scrubSpace (s : State) (x : Nat × Namespace) : State :=
  if x.2.corpus.isSome then
    let s1 := s.dropNamespace x.1 x.2
    { s1 with host := { s1.host with changed := (s1.host.changed ++ [x.1]).dedup } }
  else
    let s1 := s.dropPages x.2
    { s1 with host := { s1.host with nss := Tbl.set s1.host.nss x.1 { x.2 with key := s1.host.keyGen }, keyGen := s1.host.keyGen + 1 } }

/-- R446, R447: the fuses of a new life-cycle state are burnt, a count is drawn, and released keys are destroyed. -/
def State.burnState (s : State) (v : Nat) : State :=
  let s1 := s.destroyAllKeys
  { s1 with sec := { s1.sec with pending := some v }, drawn := Tbl.upd s1.drawn 0 oLcState (· + 1) }

/-- R462, R463: step 6: the report; after a DEVICE scope the device sends heartbeats again and will rejoin by itself. -/
def State.scrubReport (s : State) (b : Scrub) : State :=
  let s1 := { s with sec := { s.sec with scrub := none, scrubDone := true, scrubGtc := s.gtc }
                     fabric := if b.scope = 0xFFFFFFFF then s.fabric.freeze false else s.fabric
                     ft := if b.scope = 0xFFFFFFFF then { s.ft with autoRejoin := true } else s.ft }
  let s2 := match b.thenState with
    | some v => s1.burnState v
    | none => s1
  if s2.sec.waits then State.beginWarm { s2 with sec := { s2.sec with waits := false } } 4 else s2

/-- R462: the effect of the step in progress, and what comes after it. -/
def State.scrubStep (s : State) (b : Scrub) : State :=
  let at_ (s : State) (x : Scrub) : State := { s with sec := { s.sec with scrub := some x } }
  match b.step with
  | 1 => at_ (s.scrubQuiesce b) { b with step := 2, qps := s.scrubQps b.covers }
  | 2 => at_ (s.scrubKeys b) { b with step := 3 }
  | 3 => at_ s { b with step := 4 }
  | 4 =>
    if b.overwriting then at_ ((s.scrubKeyIds b).foldl State.overwriteKey s) { b with step := 5, overwriting := false }
    else
      let s1 := s.scrubRotate b
      if s.flag oScrubOverwrite then at_ s1 { b with overwriting := true } else at_ s1 { b with step := 5 }
  | 5 => at_ ((s.scrubSpaces b).foldl State.scrubSpace s) { b with step := 6 }
  | _ => s.scrubReport b

/-- R399, R462: SCRUB_STEP_DONE, which Ringmaster 2 sequences. -/
def execScrubStepDone (s : State) : Res :=
  whenRm 2 s fun s =>
    match s.sec.scrub with
    | some b => .next (s.scrubStep b)
    | none => .next s

/-! ## Life cycle (R445, R446) -/

/-- R445: LC_AUTH holds Treryn's signature over IDENTITY_DIGEST and the current LC_NONCE. -/
def State.rmaAuthorised (s : State) : Bool :=
  Config.rmaVerify (s.identityDigest ++ sliceZ (Config.lcNonce s.sec.nonceNo) 0 32) (sliceZ s.sec.auth 0 4627)

/-- R445: a transition that the table gives, for a role and under its condition. -/
def State.transitionOk (s : State) (factory : Bool) (v : Nat) : Bool :=
  match s.sec.lc, v with
  | 0, 1 => factory
  | 1, 2 => factory && s.sec.uds && Config.certOk (leBytes 8192 (s.stored oIdentityCert))
  | 2, 3 => !factory && !s.sec.operatorCreds.isEmpty
  | 2, 4 | 3, 4 => !factory && s.rmaAuthorised
  | c, 5 => c ≠ 5
  | _, _ => false

/-- R445, R446: a write of LC_STATE by FACTORY or OPERATOR. -/
def State.lcCmd (s : State) (factory : Bool) (v : Nat) : Except Nat State :=
  if !s.transitionOk factory v || !s.streamsIdle || s.sec.pending.isSome || s.sec.scrub.isSome || 5 ≤ Tbl.get s.drawn 0 oLcState then
    .error stState
  else
    let s1 := if v = 4 then { s with sec := { s.sec with nonceNo := s.sec.nonceNo + 1 } } else s
    if v = 4 || v = 5 then .ok (s1.beginScrub 0xFFFFFFFF (some v)) else .ok (s1.burnState v)

end Sys2Proof.Machine
end

