-- ==== Sys2Proof/Machine/Cxl.lean ====
section
/-! DEFINITION. The CXL link as a device of the host (R309, R453, R517): configuration requests, evidence over SPDM, and the
memory device commands. What the spec leaves to the published CXL standard is free. -/

namespace Sys2Proof.Machine

open Sys2Proof

/-! ## Configuration (R517) -/

/-- R517: a dword of the configuration space. -/
def State.cfgWord (s : State) (a : Nat) : Nat := (Tbl.find s.host.cfg a).getD (Config.configSpace a).toNat

/-- R517: a dword of the configuration space written: the bits that a write changes. -/
def State.cfgWrite (s : State) (a v : Nat) : State :=
  let m := (Config.configMask a).toNat
  let old := s.cfgWord a
  { s with host := { s.host with cfg := Tbl.set s.host.cfg a ((old - (old &&& m)) ||| (v % 2 ^ 32 &&& m)) } }

/-- R517: CONFIG_REQUEST: Retry Status until the configuration space is loaded; then a read answers the dword, and a write
changes it. -/
def execConfigRequest (offset : Nat) (write : Option Nat) (s : State) : Res :=
  if s.sys.inReset || s.host.perst then .next s
  else if !s.host.cfgLoaded then .next (s.emit (.cfg true 0))
  else
    let a := offset % 4096 / 4 * 4
    match write with
    | some v => .next ((s.cfgWrite a v).emit (.cfg false 0))
    | none => .next (s.emit (.cfg false (s.cfgWord a)))

/-- R517: the host die takes requests over the link: its configuration space is loaded. -/
def withLink (s : State) (f : State → State) : Res :=
  if s.sys.inReset || s.host.perst || !s.host.cfgLoaded then .next s else .next (f s)

/-! ## Evidence over SPDM (R453, R454) -/

/-- R453: SPDM_VENDOR_REQUEST: payload byte 0 is 0x01 and the evidence request follows; a refusal answers its status. Another
payload is no evidence request and changes nothing. (DESIGN CHOICE, log entry 133) -/
def execSpdmVendorRequest (data : Bytes) (s : State) : Res :=
  withLink s fun s =>
    if fieldAt data 0 1 ≠ 1 || data.length ≠ 45 then s
    else
      match s.evidenceCmd (data.drop 1) with
      | .ok s1 => State.emit { s1 with sec := { s1.sec with evidence := s.sec.evidence } } (.spdm s1.sec.evidence)
      | .error e => s.emit (.spdm (leBytes 2 e))

/-! ## Memory device commands (R309, R312) -/

/-- R309: payload that the published standard gives, free at every command. (PRESUMED, log entry 117) -/
def State.freePayload (s : State) (op n : Nat) : Bytes × State :=
  let d := s.draw
  (sliceZ (Config.cxlData op (leBytes 8 d.1)) 0 n, d.2)

/-- R309, R312: the volatile capacity in multiples of 256 MiB. -/
def State.volatile (s : State) : Nat := 4 * s.stored oResultDpa

/-- R309, R312: IDENTIFY_MEMORY_DEVICE: the capacities are stated: volatile only. -/
def execIdentifyMemoryDevice (s : State) : Res :=
  withLink s fun s =>
    let r := s.freePayload 0x4000 69
    let v := leBytes 8 s.volatile
    r.2.emit (.cxlMailbox 0x4000 0 (r.1.take 16 ++ v ++ v ++ zeros 8 ++ r.1.drop 40))

/-- R309, R312: GET_PARTITION_INFO: everything is volatile, and no change is pending. -/
def execGetPartitionInfo (s : State) : Res :=
  withLink s fun s => s.emit (.cxlMailbox 0x4100 0 (leBytes 8 s.volatile ++ zeros 24))

/-- R309: GET_HEALTH_INFO, whose payload the spec leaves to the standard. -/
def execGetHealthInfo (s : State) : Res :=
  withLink s fun s =>
    let r := s.freePayload 0x4200 18
    r.2.emit (.cxlMailbox 0x4200 0 r.1)

/-- R309: return code Invalid Input. -/
def cxlInvalid : Nat := 2

/-- R309: GET_EVENT_RECORDS of one of the four logs: the records logged meanwhile are appended, and the log is returned. -/
def execGetEventRecords (log : Nat) (s : State) : Res :=
  withLink s fun s =>
    if 4 ≤ log then s.emit (.cxlMailbox 0x0100 cxlInvalid [])
    else
      let d := s.draw
      let l := Tbl.get s.host.cxlEvents [] log ++ Config.cxlNewEvents d.1 log
      State.emit { d.2 with host := { d.2.host with cxlEvents := Tbl.set d.2.host.cxlEvents log l } }
        (.cxlMailbox 0x0100 0 (zeros 20 ++ leBytes 2 l.length ++ zeros 10 ++ l.flatten))

/-- R309: CLEAR_EVENT_RECORDS: the oldest `count` records of a log are cleared; more than it holds are refused. -/
def execClearEventRecords (log count : Nat) (s : State) : Res :=
  withLink s fun s =>
    let l := Tbl.get s.host.cxlEvents [] log
    if 4 ≤ log || l.length < count then s.emit (.cxlMailbox 0x0101 cxlInvalid [])
    else State.emit { s with host := { s.host with cxlEvents := Tbl.set s.host.cxlEvents log (l.drop count) } } (.cxlMailbox 0x0101 0 [])

/-- R309: GET_SUPPORTED_LOGS. -/
def execGetSupportedLogs (s : State) : Res := withLink s fun s => s.emit (.cxlMailbox 0x0400 0 (Config.cxlData 0x0400 []))

/-- R309: GET_LOG of the log, offset and length that the payload names. -/
def execGetLog (data : Bytes) (s : State) : Res := withLink s fun s => s.emit (.cxlMailbox 0x0401 0 (Config.cxlData 0x0401 data))

/-- R313, R328: the lines of the result windows that read as poisoned. (DESIGN CHOICE, log entry 134) -/
def State.poisonList (s : State) : List Nat :=
  (List.range Config.streams).flatMap fun n =>
    (s.stream n).dlv.slots.flatMap fun x =>
      if x.2.state = .ready then x.2.poisoned.map fun p => s.stored (oWinOffset n) + x.1 * s.stored (oSlotSize n) + p.1 else []

/-- R309, R328: GET_POISON_LIST of a range of `len` lines from a DPA. -/
def execGetPoisonList (dpa len : Nat) (s : State) : Res :=
  withLink s fun s =>
    let l := s.poisonList.filter fun a => dpa ≤ a && a < dpa + 64 * len
    s.emit (.cxlMailbox 0x4300 0 (zeros 10 ++ leBytes 2 l.length ++ zeros 20 ++ l.flatMap fun a => leBytes 8 a ++ leBytes 4 1 ++ zeros 4))

end Sys2Proof.Machine
end

