-- ==== Sys2Proof/Machine/Dram.lean ====
section
/-! DEFINITION. Errors in DRAM and Oasis: the scrubbers (R20, R256), the failure of a DRAM line and its recovery by region
(R246, R254, R255), and failed Oasis words (R256, R257). -/

namespace Sys2Proof.Machine

/-! ## What an uncorrectable line or word hits (R254, R314) -/

/-- R314: the READY slots whose batch lies in a pool with one of the placements. -/
def State.slotsIn (s : State) (places : List Nat) : List (Nat × Nat) :=
  (List.range Config.streams).flatMap fun n =>
    if (imgPack (s.imageOf n).image).any fun d => places.contains (s.stored (oPoolPlace d.pool)) then
      ((s.stream n).dlv.slots.filter fun x => x.2.state == .ready && !x.2.content.isEmpty).map fun x => (n, x.1)
    else []

/-- R254: the jobs that hold buffers in a pool with one of the placements. -/
def State.jobsIn (s : State) (places : List Nat) : List Nat :=
  (s.jobs.filter fun j => j.inFlight && j.status.isNone && j.reserved.any fun r =>
    r.2.2 ≠ 0 && (if r.2.1 = 64 then places.contains 2 else places.contains (s.stored (oPoolPlace r.2.1)))).map Job.id

/-- R257: the ALLOCATED buffers in a pool with one of the placements. -/
def State.buffersIn (s : State) (places : List Nat) : List Nat :=
  (s.buffers.filter fun b => places.contains (s.stored (oPoolPlace (b.1 / 2 ^ 26)))).map Prod.fst

/-- R254, R328: a line of a READY slot is withheld from now on. -/
def State.poisonSlot (s : State) (n i status word : Nat) : State :=
  s.updSlot n i fun x =>
    let off := 128 + 64 * (word % max 1 (ceilDiv x.content.length 64))
    { x with poisoned := (x.poisoned.filter fun p => p.1 ≠ off) ++ [(off, status)] }

/-- R174: the codec works whose states are spilled to the system region of Oasis. -/
def State.spilledWorks (s : State) : List (Nat × CodecWork) :=
  s.engines.flatMap fun e => (e.2.waiting.filter CodecWork.spilled).map fun w => (e.1, w)

/-- R174, R257: a spilled codec state fails its checks when it is taken up again. -/
def State.strikeSpilled (s : State) (e : Nat) (w : CodecWork) : State :=
  let hit (x : CodecWork) : CodecWork := if x = w then { x with state := some [] } else x
  { s with engines := Tbl.upd s.engines {} e fun x => { x with waiting := x.waiting.map hit } }

/-- R246, R254: the holder of a failed line of a pool placed DRAM: a job, which is retried, a READY slot, or none. Which of them lies
there is not stated, so it is free. (DESIGN CHOICE, log entry 55) -/
def State.hitLine (s : State) (status : Nat) : State :=
  let d := s.draw
  let js := s.jobsIn [3]
  let ss := s.slotsIn [3]
  let i := (Config.freeWord d.1).toNat % (js.length + ss.length + 1)
  match js[i]? with
  | some id => d.2.transientJob id status false
  | none =>
    match ss[i - js.length]? with
    | some (n, k) => let e := d.2.draw; e.2.poisonSlot n k status (Config.freeWord e.1).toNat
    | none => d.2

/-- R254, R256, R257: the holder of a failed word of Oasis, which receives SRAM_UNCORRECTABLE at its next read: a job, a READY slot, an
ALLOCATED buffer, a spilled codec state, or none. Which of them lies there is not stated, so it is free. (DESIGN CHOICE, log entry 55) -/
def State.hitWord (s : State) : State :=
  let d := s.draw
  let js := s.jobsIn [1, 2]
  let ss := s.slotsIn [1, 2]
  let bs := s.buffersIn [1, 2]
  let ws := s.spilledWorks
  let i := (Config.freeWord d.1).toNat % (js.length + ss.length + bs.length + ws.length + 1)
  match js[i]? with
  | some id => d.2.updJob id fun j => { j with struck := some stSram }
  | none =>
    match ss[i - js.length]? with
    | some (n, k) => let e := d.2.draw; e.2.poisonSlot n k stSram (Config.freeWord e.1).toNat
    | none =>
      match bs[i - js.length - ss.length]? with
      | some b => { d.2 with buffers := Tbl.upd d.2.buffers {} b fun x => { x with failed := true } }
      | none =>
        match ws[i - js.length - ss.length - bs.length]? with
        | some (e, w) => d.2.strikeSpilled e w
        | none => d.2

/-! ## The commands -/

/-- R252, R255: lines now poisoned. -/
def State.poisonedLines (s : State) : Nat := (s.dram.filter fun l => l.2.poison).length

/-- R246, R255: the first failure of a line of the data region: its region is recovered. The regions below the pools are rebuilt at
once; a line of a pool or of the sample cache stays poisoned until it is written whole. -/
def State.lineFails (s : State) (line status : Nat) : State :=
  let a := 64 * line
  if a < s.rebuiltBytes then s
  else
    let s1 := s.poisonLine line
    if a < s.rebuiltBytes + s.placedBytes 3 64 0 then s1.hitLine status else s1

/-- R246, R255: a line that holds eight tags is uncorrectable: each of their lines is treated as uncorrectable. -/
def State.tagsFail (s : State) (line : Nat) : State :=
  let first := 8 * (line - s.tagBase / 64)
  ((List.range 8).map (first + ·)).foldl (fun (s : State) i =>
    if s.dataRegion / 64 ≤ i || s.poisoned i then s else (s.count oDramUncorrectable 1).lineFails i stDram) s

/-- R246, R249: a line above the data region, which has check symbols only: those of the tags, then the line-state map, which a rewrite
pass rebuilds as it was, and the reserved part. (DEDUCED, log entry 156) -/
def State.scrubUpper (s : State) (line : Nat) (f : LineFault) : State :=
  match f.correct (zeros 64) with
  | some (_, false) => s
  | some (_, true) => s.count oDramCorrected 1
  | none => if 64 * line < s.tagBase + s.dataRegion / 8 then s.tagsFail line else s.count oDramUncorrectable 1

/-- R248, R255, R256: a line of the data region: a corrected one is written back unless a write intervened. -/
def State.scrubLine (s : State) (line : Nat) (f : LineFault) (intervened : Bool) : State :=
  if s.poisoned line then s
  else
    let r := s.readLine line f
    match r.1 with
    | .clean => r.2.2
    | .corrected =>
      let s1 := r.2.2.count oDramCorrected 1
      if intervened then s1 else s1.writeLine line r.2.1
    | .uncorrectable => (r.2.2.count oDramUncorrectable 1).lineFails line stDram
    | .tagFail => (r.2.2.count oTagFailures 1).lineFails line stTag

/-- R20, R254 to R256: DRAM_SCRUB_READ. (DESIGN CHOICE, log entry 56) -/
def execDramScrubRead (line : Nat) (errors : LineFault) (intervened : Bool) (s : State) : Res :=
  whenUp s fun s =>
    let lines := s.ddrCapacity / 64
    if lines ≤ line then .next s
    else
      let last := line + 1 == lines
      let s1 := { s with dramScrub := if last then 0 else line + 1 }
      let s2 := if last then s1.store oDramScrubDone s.gtc else s1
      .next (if line < s.dataRegion / 64 then s2.scrubLine line errors intervened else s2.scrubUpper line errors)

/-- R242: 64-bit words of Oasis. -/
def oasisWords : Nat := 2496 * mib / 8

/-- R243: the SECDED code over the 72 stored bits of a word: one bit in error is corrected, two are detected. -/
def secded (errors : List Nat) : ScrubFind :=
  let bad := (errors.filter fun b => decide (b < 72)).dedup
  match bad.length with
  | 0 => .clean
  | 1 => .corrected
  | 2 => .uncorrectable
  | _ => match Config.secdedBeyond bad with | 0 => .clean | 1 => .corrected | _ => .uncorrectable

/-- R20, R243, R256: OASIS_SCRUB_READ: a corrected word is written back unless a write intervened, which changes no data; an
uncorrectable word is marked failed. (DESIGN CHOICE, log entry 56) -/
def execOasisScrubRead (word : Nat) (errors : List Nat) (_intervened : Bool) (s : State) : Res :=
  whenUp s fun s =>
    if oasisWords ≤ word then .next s
    else
      let last := word + 1 == oasisWords
      let s1 := { s with oasisScrub := if last then 0 else word + 1 }
      let s2 := if last then s1.store oOasisScrubDone s.gtc else s1
      match secded errors with
      | .clean => .next { s2 with oasisFailed := s2.oasisFailed.filter (· ≠ word) }
      | .corrected => .next (s2.count oSramCorrected 1)
      | _ =>
        if s.oasisFailed.contains word then .next s2
        else .next (State.count { s2 with oasisFailed := s2.oasisFailed ++ [word] } oSramUncorrectable 1).hitWord

/-- R20: PHY_RECALIBRATE takes cycles of the DDR and ONFI channels and changes nothing else. -/
def execPhyRecalibrate (s : State) : Res := .next s

end Sys2Proof.Machine
end

