-- ==== Sys2Proof/Machine/Kernel.lean ====
section
/-! DEFINITION. The kernel rows: fetching an instruction word, the step limit (R96, R97), what an instruction's outcome
does to the job (R95, R98), the SCORE decision (R191 to R193), and the start of a kernel (R56, R58). -/

namespace Sys2Proof.Machine

/-! ## The state at entry (R56 to R58) -/

/-- R55: the instruction words of a kernel. -/
def kernelWords (b : Bytes) : List Word := (List.range (b.length / 8)).map fun i => BitVec.ofNat 64 (fieldAt b (8 * i) 8)

/-- R191, R457: the plaintext weights of the model that a SCORE stage names. -/
def State.weightsFor (s : State) (n : Nat) (d : Desc) : Bytes :=
  let b := (s.imageOf n).image
  match s.sec.released.find? fun r => r.2.tenant == imageTenant (s.imageOf n) && r.2.digest == modelDigest b d.object with
  | some r => r.2.weights
  | none => []

/-- R58: the core at the entry of a kernel. -/
def State.enterKernel (s : State) (j : Job) (d : Desc) : Core :=
  let b := (s.imageOf j.stream).image
  let ins := d.preds.map j.output
  let x : Core :=
    { job := some j.id, stage := d.id, kernel := kernelWords (imgKernel b (kernelIndex d)), inputs := ins, consts := imgConsts b,
      weights := if d.type = tScore then some (s.weightsFor j.stream d) else none, memLimit := kernelMem d,
      stepLimit := kernelStep d, outMax := d.outMax, rngKey := rngKey (s.stored (oSeed j.stream)) (s.stored (oCorpusId j.stream)),
      sample := j.sample, epoch := j.epoch }
  [(1, (ins.headD []).length), (2, d.inCount), (3, d.outMax), (4, j.sample), (5, j.pos), (6, j.epoch), (7, d.word 4),
    (8, d.word 5), (9, d.word 6)].foldl (fun x r => x.setXn r.1 r.2) x

/-- R56: KiB of scratch reserved on Caravan c. -/
def State.scratchUsed (s : State) (c : Nat) : Nat := ((List.range 8).map fun i => (s.core (8 * c + i)).memLimit).sum

/-- R56, R94: SCRATCH_RESERVE: a KERNEL or SCORE stage starts once its core is free and its scratch is reserved. -/
def execScratchReserve (job stage : Nat) (s : State) : Res :=
  whenUp s fun s =>
    match s.job job with
    | none => .next s
    | some j =>
      match (s.descsOf j.stream)[stage]? with
      | none => .next s
      | some d =>
        let c := 8 * j.caravan + j.core
        let started := s.cores.any fun x => x.2.job == some job && x.2.stage == stage
        if (d.type = tKernel || d.type = tScore) && j.running (s.toCorpus j.stream) d && !s.waitsRelease j d && !started &&
            (s.core c).job.isNone && (s.domain (carDomain j.caravan)).state = 0 &&
            s.scratchUsed j.caravan + kernelMem d ≤ s.scratchMax j.caravan 64 0 then
          .next (s.setCore c (s.enterKernel j d))
        else .next s

/-! ## The end of a kernel (R95, R98, R191 to R193) -/

/-- R192: the thresholds under which a job's batch is made. -/
def State.thresholdsOf (s : State) (j : Job) : List Nat :=
  match (s.run j.stream).batches.find? fun b => b.k == j.k with
  | some b => b.thresholds
  | none => (s.stream j.stream).force

/-- R192: the threshold in force for a SCORE stage of a job. -/
def State.thresholdFor (s : State) (j : Job) (d : Desc) : Nat :=
  let i := (imgScores (s.imageOf j.stream).image).findIdx fun e => e.id == d.id
  let o := (s.thresholdsOf j).getD i 0x7FC00000
  if o = 0x7FC00000 then bits (d.word 4) 31 0 else o

/-- R190, R191: whether a score is kept: COMPARE 0 ≥ T, 1 ≤ T, 2 > T, 3 < T; a comparison with a NaN is false. -/
def keepScore (compare score t : Nat) : Bool :=
  let v := fpDecode fmtFP32 score
  let u := fpDecode fmtFP32 t
  let nan := v == .nan || u == .nan
  if compare = 0 then !nan && !v.lt u
  else if compare = 1 then !nan && !u.lt v
  else if compare = 2 then u.lt v
  else v.lt u

/-- R193: the signature of a kernel output; a bit whose element the output does not hold is a free value. -/
def signatureOf (out : Bytes) (first : Nat) : Nat :=
  (List.range 256).foldl (fun a i =>
    setBit a i (if 4 * (first + i) + 4 ≤ out.length then
      (FV.fin false 0 0).lt (fpDecode fmtFP32 (fieldAt out (4 * (first + i)) 4)) else Config.shortSignature out i)) 0

/-- R191, R193: what a SCORE stage gives for a kernel output: its outcome and, in SIGNATURE mode, which excludes no sample,
the signature. (DESIGN CHOICE, log entry 29) -/
def State.score (s : State) (j : Job) (d : Desc) (out : Bytes) : Except Nat Bytes × Option (Nat × Nat) :=
  let w := d.word 4
  let e := bits w 55 40
  let input := j.output (d.pred 0)
  if bit w 34 then (.ok input, some (signatureOf out e, bits w 58 56))
  else if out.length < 4 * e + 4 then (.error stKernelFault, none)
  else if keepScore (bits w 33 32) (fieldAt out (4 * e) 4) (s.thresholdFor j d) then (.ok input, none)
  else (.error stReject, none)

/-- R95, R98, R254: the kernel on a core ends with an outcome of its stage; the core returns to its entry state. A job that has met a
failed word is retried instead. -/
def State.endKernel (s : State) (c id stage : Nat) (r : Except Nat Bytes) : State :=
  let s1 := { s with cores := Tbl.del s.cores c }
  match s.job id with
  | none => s1.finishStage id stage r
  | some j =>
    match j.struck with
    | some st => s1.transientJob id st ((s.descsOf j.stream)[stage]?.any j.covers)
    | none => s1.finishStage id stage r

/-- R95: HALT with SUCCESS: the stage's output is the start of the output window; a SCORE stage decides by it. -/
def State.haltKernel (s : State) (c : Nat) (x : Core) (id status len : Nat) : State :=
  if status ≠ stSuccess then s.endKernel c id x.stage (.error status)
  else
    let out := x.output.readN 0 len
    match s.job id with
    | none => s
    | some j =>
      match (s.descsOf j.stream)[x.stage]? with
      | none => s
      | some d =>
        if d.type = tScore then
          let r := s.score j d out
          ((s.moveOutput j d r.1).updJob id fun j => { j with sig := if r.2.isSome then r.2 else j.sig }).endKernel c id x.stage r.1
        else (s.moveOutput j d (.ok out)).endKernel c id x.stage (.ok out)

/-! ## One instruction (R95 to R98) -/

/-- R97: the core's next instruction, when its word is of the row `op`: the step limit first, then the instruction.
(DESIGN CHOICE, log entry 21) -/
def runRow (core : Nat) (op : Nat × Nat) (f : Core → Nat → KOut) (s : State) : Res :=
  withCore core s fun s =>
    let x := s.core core
    match x.job with
    | none => .next s
    | some id =>
      if x.stepLimit * 1024 ≤ x.steps then .next (s.endKernel core id x.stage (.error stStepLimit))
      else
        match x.kernel[x.pc]? with
        | none => .next (s.endKernel core id x.stage (.error stKernelFault))
        | some w =>
          if !opDefined w.toNat then .next (s.endKernel core id x.stage (.error stKernelFault))
          else if (iClass w.toNat, iOp w.toNat) ≠ op then .next s
          else
            match f x w.toNat with
            | .next y => .next (s.setCore core y)
            | .wait => .next s
            | .stop st => .next (s.endKernel core id x.stage (.error st))
            | .halt st len => .next (s.haltKernel core x id st len)

/-- R65: ADD. -/
def execAdd (core : Nat) (s : State) : Res := runRow core (0, 0x00) kAdd s
/-- R65: MUL. -/
def execMul (core : Nat) (s : State) : Res := runRow core (0, 0x02) kMul s
/-- R70: DIVS. -/
def execDivs (core : Nat) (s : State) : Res := runRow core (0, 0x05) kDivs s
/-- R65: SAR. -/
def execSar (core : Nat) (s : State) : Res := runRow core (0, 0x0C) kSar s
/-- R67: ADDI. -/
def execAddi (core : Nat) (s : State) : Res := runRow core (1, 0x00) kAddi s
/-- R68: J. -/
def execJ (core : Nat) (s : State) : Res := runRow core (2, 0x00) kJ s
/-- R68: BEQ. -/
def execBeq (core : Nat) (s : State) : Res := runRow core (2, 0x01) kBeq s
/-- R68: BLT. -/
def execBlt (core : Nat) (s : State) : Res := runRow core (2, 0x03) kBlt s
/-- R68: JAL. -/
def execJal (core : Nat) (s : State) : Res := runRow core (2, 0x05) kJal s
/-- R68: JR. -/
def execJr (core : Nat) (s : State) : Res := runRow core (2, 0x06) kJr s
/-- R63: LD64. -/
def execLd64 (core : Nat) (s : State) : Res := runRow core (3, 0x03) kLd64 s
/-- R63: ST64. -/
def execSt64 (core : Nat) (s : State) : Res := runRow core (3, 0x13) kSt64 s
/-- R80: VADD. -/
def execVadd (core : Nat) (s : State) : Res := runRow core (4, 0x00) kVadd s
/-- R80: VMUL. -/
def execVmul (core : Nat) (s : State) : Res := runRow core (4, 0x02) kVmul s
/-- R81: VDIV. -/
def execVdiv (core : Nat) (s : State) : Res := runRow core (4, 0x03) kVdiv s
/-- R79: VMIN. -/
def execVmin (core : Nat) (s : State) : Res := runRow core (4, 0x04) kVmin s
/-- R81: VSQRT. -/
def execVsqrt (core : Nat) (s : State) : Res := runRow core (4, 0x06) kVsqrt s
/-- R81: VEXP2. -/
def execVexp2 (core : Nat) (s : State) : Res := runRow core (4, 0x07) kVexp2 s
/-- R84: VADDS. -/
def execVadds (core : Nat) (s : State) : Res := runRow core (4, 0x10) kVadds s
/-- R69: VBCAST. -/
def execVbcast (core : Nat) (s : State) : Res := runRow core (4, 0x20) kVbcast s
/-- R80: VFMA. -/
def execVfma (core : Nat) (s : State) : Res := runRow core (5, 0x01) kVfma s
/-- R80: VFMS. -/
def execVfms (core : Nat) (s : State) : Res := runRow core (5, 0x02) kVfms s
/-- R82: VCVT. -/
def execVcvt (core : Nat) (s : State) : Res := runRow core (6, 0x00) kVcvt s
/-- R83: VCVTZ. -/
def execVcvtz (core : Nat) (s : State) : Res := runRow core (6, 0x01) kVcvtz s
/-- R85: VREDSUM. -/
def execVredsum (core : Nat) (s : State) : Res := runRow core (7, 0x00) kVredsum s
/-- R85: VREDSUMW. -/
def execVredsumw (core : Nat) (s : State) : Res := runRow core (7, 0x01) kVredsumw s
/-- R71: VLD. -/
def execVld (core : Nat) (s : State) : Res := runRow core (8, 0x00) kVld s
/-- R71: VST. -/
def execVst (core : Nat) (s : State) : Res := runRow core (8, 0x01) kVst s
/-- R72: VGATHER. -/
def execVgather (core : Nat) (s : State) : Res := runRow core (9, 0x00) kVgather s
/-- R73: VSCATTER. -/
def execVscatter (core : Nat) (s : State) : Res := runRow core (9, 0x01) kVscatter s
/-- R71: VCMPLT. -/
def execVcmplt (core : Nat) (s : State) : Res := runRow core (10, 0x01) kVcmplt s
/-- R60: PFIRSTN. -/
def execPfirstn (core : Nat) (s : State) : Res := runRow core (10, 0x13) kPfirstn s
/-- R89: TISSUE. -/
def execTissue (core : Nat) (s : State) : Res := runRow core (11, 0x00) kTissue s
/-- R89: TWAIT. -/
def execTwait (core : Nat) (s : State) : Res := runRow core (11, 0x01) kTwait s
/-- R95: HALT. -/
def execHalt (core : Nat) (s : State) : Res := runRow core (12, 0x00) kHalt s
/-- R87: DRAW. -/
def execDraw (core : Nat) (s : State) : Res := runRow core (12, 0x01) kDraw s
/-- R87: VDRAW. -/
def execVdraw (core : Nat) (s : State) : Res := runRow core (12, 0x02) kVdraw s
/-- R88: SRD. -/
def execSrd (core : Nat) (s : State) : Res := runRow core (12, 0x03) kSrd s
/-- R79: VMAX. -/
def execVmax (core : Nat) (s : State) : Res := runRow core (4, Config.opVmax.toNat) kVmax s
/-- R81: VLOG2. -/
def execVlog2 (core : Nat) (s : State) : Res := runRow core (4, Config.opVlog2.toNat) kVlog2 s
/-- R79, R85: VREDMAX: a word of the reduction by VMIN, for which the tables have no row, runs under this row too.
(DESIGN CHOICE, log entry 23) -/
def execVredmax (core : Nat) (s : State) : Res :=
  let w := ((s.core core).kernel[(s.core core).pc]?.getD 0).toNat
  if iOp w = 3 then runRow core (7, 0x03) kVredmax s else runRow core (7, Config.opVredmin.toNat) kVredmin s

/-- R92: TMU_DESCRIPTOR_DONE: the TMU finishes a descriptor: D is written and its tag is free. -/
def execTmuDescriptorDone (core tag : Nat) (s : State) : Res :=
  withCore core s fun s =>
    let x := s.core core
    match x.tmu.find? fun t => t.tag == tag with
    | none => .next s
    | some t => .next (s.setCore core ((tmuDesc t.desc).run { x with tmu := x.tmu.filter fun u => u.tag ≠ tag }))

/-- R96: KERNEL_STEP_LIMIT: the next instruction would exceed the step limit, and the job ends. -/
def execKernelStepLimit (core : Nat) (s : State) : Res :=
  withCore core s fun s =>
    let x := s.core core
    match x.job with
    | none => .next s
    | some id =>
      if x.stepLimit * 1024 ≤ x.steps then .next (s.endKernel core id x.stage (.error stStepLimit)) else .next s

end Sys2Proof.Machine
end

