-- ==== Sys2Proof/Machine/Power.lean ====
section
/-! DEFINITION. Power and clocks: rails (R469), the reference clock (R471), droop and throttle (R472 to R475), and the
hold-up bank with its allowance (R477 to R481, R541). -/

namespace Sys2Proof.Machine

/-! ## Rails (R469) -/

/-- R469: INPUT_UNDERVOLTAGE: the input below 10.8 V for 5 µs is an assertion of PWR_FAIL_N. -/
def execInputUndervoltage (mv : Nat) (s : State) : Res :=
  whenUp s fun s =>
    let s1 := { s with power := { s.power with inputMv := mv } }
    if mv < 10800 then .next (s1.beginFlush .powerFail) else .next s1

/-- R469: CARAVAN_RAIL_FAULT: VCAR of Caravan n is out of range, so the Caravan is reset and held OFF. -/
def execCaravanRailFault (n : Nat) (s : State) : Res :=
  if Config.caravans ≤ n then .fault .noSuchDomain
  else whenUp s fun s => .next ((s.caravanOff n).count oRailFaults 1)

/-- R469: RAIL_FAULT: another rail is out of range: a flush, then a halt with LED_FAULT lit. (DESIGN CHOICE, log entry 143) -/
def execRailFault (s : State) : Res := whenUp s fun s => .next (s.beginFlush .haltFault)

/-! ## The reference clock (R471) -/

/-- R471: REFCLK_LOSS: no edge for 100 ns; the PLLs hold. (DESIGN CHOICE, log entry 65; DEDUCED, log entry 66) -/
def execRefclkLoss (s : State) : Res :=
  whenUp s fun s =>
    if s.power.refLost.isSome then .next s else .next { s with power := { s.power with refLost := some s.gtc } }

/-- R471: REFCLK_RETURN: a reference that returns within 10 µs is followed again, and the event is counted. -/
def execRefclkReturn (s : State) : Res :=
  whenUp s fun s =>
    match s.power.refLost with
    | some t =>
      if s.gtc < t + 10000 then .next (State.count { s with power := { s.power with refLost := none } } oRefclkLosses 1)
      else .next s
    | none => .next s

/-- R471: REFCLK_LOSS_EXPIRY: 10 µs without REFCLK: a flush, then a halt. -/
def execRefclkLossExpiry (s : State) : Res :=
  whenUp s fun s =>
    match s.power.refLost with
    | some t => if t + 10000 ≤ s.gtc then .next (s.beginFlush .haltFault) else .next s
    | none => .next s

/-! ## Droop and throttle (R472 to R475) -/

/-- R218: the streams in EXACT whose mask a test on their mask names lose exactness with cause THROTTLE. -/
def State.throttleExact (s : State) (p : Nat → Bool) : State :=
  (List.range Config.streams).foldl (fun (s : State) n => if p (s.stream n).inForce.mask then s.exactLose n 1 else s) s

/-- R472: a droop detector stands on each Caravan (0 to 47) and on the spine (48). -/
def withUnit (u : Nat) (s : State) (f : State → Res) : Res := if u ≤ 48 then whenUp s f else .fault .noSuchDomain

/-- R218, R472: DROOP_TRIP: the cycles of the unit are suppressed. (DESIGN CHOICE, log entry 72) -/
def execDroopTrip (u : Nat) (s : State) : Res :=
  withUnit u s fun s =>
    if s.power.droop.contains u then .next s
    else
      let s1 := State.count { s with power := { s.power with droop := s.power.droop ++ [u] } } oDroopEvents 1
      .next (s1.throttleExact fun mask => u < 48 && bit mask u)

/-- R472: DROOP_RECOVER: the rail has recovered. -/
def execDroopRecover (u : Nat) (s : State) : Res :=
  withUnit u s fun s => .next { s with power := { s.power with droop := s.power.droop.filter fun x => x ≠ u } }

/-- R473: THROTTLE_STEP, the higher of the two demands. -/
def PowerSt.step (p : PowerSt) : Nat := max p.thermal p.power

/-- R218, R474: new demands are applied; a change of step is counted and ends clock-exactness. -/
def State.throttle (s : State) (p : PowerSt) : State :=
  let s1 := { s with power := p }
  if p.step = s.power.step then s1 else (s1.count oThrottleEvents 1).throttleExact fun _ => true

/-- R474: the entry point of a thermal step, in °C. -/
def entryPoint (step : Nat) : Int := if step ≤ 1 then 97 else if step = 2 then 100 else if step = 3 then 103 else 105

/-- R474: the step that a junction temperature enters. -/
def enteredStep (t : Int) : Nat := if 105 ≤ t then 4 else if 103 ≤ t then 3 else if 100 ≤ t then 2 else if 97 ≤ t then 1 else 0

/-- R474, R475, R485: JUNCTION_SAMPLE: the hottest junction. -/
def execJunctionSample (t : Int) (s : State) : Res :=
  whenUp s fun s =>
    let p := { s.power with tj := t, tjPeak := max s.power.tjPeak t }
    let up := enteredStep t
    let p1 :=
      if p.thermal < up then { p with thermal := up, coolSince := none }
      else if p.thermal ≠ 0 && t ≤ entryPoint p.thermal - 3 then
        (match p.coolSince with
         | some g =>
           if g + 10 * Config.ms ≤ s.gtc then
             { p with thermal := p.thermal - 1,
                      coolSince := if p.thermal ≠ 1 && t ≤ entryPoint (p.thermal - 1) - 3 then some s.gtc else none }
           else p
         | none => { p with coolSince := some s.gtc })
      else { p with coolSince := none }
    let hot := if 105 < t && p1.step = 4 then some (p1.hotSince.getD s.gtc) else none
    .next (s.throttle { p1 with hotSince := hot })

/-- R474: POWER_AVERAGE: the 1 ms average of the input power. -/
def execPowerAverage (w : Nat) (s : State) : Res :=
  whenUp s fun s =>
    let limit := s.stored oPkgPowerLimit
    let p := { s.power with inputW := w, energy := s.power.energy + w }
    let p1 :=
      if limit < w then { p with power := min 4 (p.power + 1), lowSince := none }
      else if p.power ≠ 0 && 100 * w < 95 * limit then
        (match p.lowSince with
         | some g => if g + 10 * Config.ms ≤ s.gtc then { p with power := p.power - 1, lowSince := none } else p
         | none => { p with lowSince := some (s.gtc - Config.ms) })
      else { p with lowSince := none }
    .next (s.throttle p1)

/-- R475: THERMAL_TRIP: a junction at 112 °C, or above 105 °C for 1 s at T4. -/
def execThermalTrip (t : Int) (s : State) : Res :=
  whenUp s fun s =>
    let long := match s.power.hotSince with | some g => decide (g + Config.sec ≤ s.gtc) && decide (105 < t) | none => false
    if 112 ≤ t || long then .next ((s.count oThermtrips 1).beginFlush .haltFault) else .next s

/-! ## The allowance (R480, R481) -/

/-- R481: the binary64 nearest to n ÷ d. -/
def f64 (n d : Nat) : Nat := fpRound fmtFP64 false n d 0

/-- R481: the whole part of a binary64 that is not negative. -/
def f64Floor (v : Nat) : Nat :=
  match fpDecode fmtFP64 v with
  | .fin false m e => if 0 ≤ e then m * 2 ^ e.toNat else m / 2 ^ (-e).toNat
  | _ => 0

/-- R541: the highest code of HU_TSNS at which the bank is not colder than T °C, by the B equation, for T = −128 to 127. -/
def ntcCodes : List Nat :=
  [4095, 4095, 4095, 4095, 4095, 4095, 4095, 4095, 4095, 4095, 4095, 4095, 4095, 4095, 4095, 4095, 4095, 4095, 4095,
   4095, 4095, 4095, 4095, 4095, 4095, 4095, 4095, 4095, 4094, 4094, 4094, 4094, 4094, 4094, 4094, 4093, 4093, 4093,
   4093, 4092, 4092, 4092, 4091, 4091, 4090, 4090, 4089, 4088, 4088, 4087, 4086, 4085, 4084, 4083, 4082, 4081, 4080,
   4078, 4077, 4075, 4074, 4072, 4070, 4068] ++
  [4065, 4063, 4060, 4057, 4055, 4051, 4048, 4044, 4041, 4036, 4032, 4028, 4023, 4017, 4012, 4006, 4000, 3994, 3987,
   3979, 3972, 3964, 3955, 3946, 3937, 3927, 3917, 3906, 3894, 3882, 3870, 3857, 3843, 3829, 3814, 3798, 3782, 3765,
   3748, 3729, 3711, 3691, 3670, 3649, 3628, 3605, 3582, 3557, 3533, 3507, 3481, 3454, 3426, 3397, 3368, 3338, 3307,
   3276, 3243, 3211, 3177, 3143, 3108, 3073] ++
  [3037, 3001, 2964, 2927, 2889, 2850, 2812, 2773, 2733, 2694, 2654, 2614, 2573, 2533, 2492, 2452, 2411, 2370, 2329,
   2289, 2248, 2208, 2167, 2127, 2087, 2048, 2008, 1969, 1930, 1892, 1854, 1816, 1778, 1742, 1705, 1669, 1634, 1598,
   1564, 1530, 1496, 1463, 1431, 1399, 1368, 1337, 1306, 1277, 1247, 1219, 1191, 1163, 1136, 1110, 1084, 1059, 1034,
   1010, 986, 963, 940, 918, 896, 875] ++
  [854, 834, 814, 795, 776, 758, 740, 723, 706, 689, 673, 657, 641, 626, 612, 597, 583, 570, 556, 544, 531, 519, 507,
   495, 484, 472, 462, 451, 441, 431, 421, 412, 402, 393, 384, 376, 367, 359, 351, 344, 336, 329, 322, 315, 308, 301,
   295, 288, 282, 276, 270, 264, 259, 253, 248, 243, 238, 233, 228, 223, 219, 214, 210, 206]

/-- R541: the whole degrees Celsius at or below the temperature of a code of HU_TSNS, 127 for every warmer one.
(DESIGN CHOICE, log entry 69) -/
def bankTemp (code : Nat) : Int := ((ntcCodes.filter (code ≤ ·)).length : Int) - 129

/-- R485, R541: HU_TEMP for a code of HU_TSNS; only code 2,048 is a whole number of degrees. -/
def bankReading (code : Nat) : Nat :=
  let t := bankTemp code
  if 127 ≤ t then (Config.bankTempHigh code).toNat
  else ofSigned 8 (if code ≠ 2048 && Config.bankTempUp code then t + 1 else t)

/-- R480: k_T in hundredths for whole degrees at or below the temperature; no code gives a temperature of the table exactly. -/
def ktOf (t : Int) : Nat := if t < 0 then 80 else if t < 10 then 90 else if t < 55 then 100 else 95

/-- R481: e_use and d_allow, as binary64, for a voltage. (DESIGN CHOICE, log entry 67) -/
def State.allowance (s : State) (v : Nat) : Nat × Nat :=
  let m := fpMul fmtFP64
  let d := fpDiv fmtFP64
  let sub := fpSub fmtFP64
  let pf := f64 650 1
  let vmin := f64 (s.stored oHuVmin) 1000
  let esr := f64 (if s.hold.cEst.isSome then s.hold.esr else 0) 1000000
  let c := f64 (s.hold.cEst.getD (s.stored oHuCNominal)) 1000000
  let veff := fpAdd fmtFP64 vmin (d (m esr pf) vmin)
  let e := m (m (m (f64 s.hold.kt 100) (f64 1 2)) c) (sub (m v v) (m veff veff))
  let eUse := fpMax fmtFP64 0 e
  let a := d (m (sub (d eUse (f64 2 1)) (m pf (f64 8 100))) (f64 48000000000 1)) pf
  (eUse, fpMin fmtFP64 (f64 17179869184 1) (fpMax fmtFP64 0 a))

/-- R541: the bank voltage of a code of HU_VSNS, as a binary64 in V. -/
def voltsOf (code : Nat) : Nat := f64 (code * 1875) 100000

/-- R477, R481: the allowance after a sample. -/
def State.recompute (s : State) : State :=
  let a := s.allowance (voltsOf s.hold.code)
  let none_ := s.hold.state = 0 || s.hold.state = 4
  State.warn { s with hold := { s.hold with eUsable := f64Floor a.1, dAllow := if none_ then 0 else f64Floor a.2 } }

/-! ## The bank (R477 to R479) -/

/-- R478: whether the charger is on after a sample. (DEDUCED, log entry 70) -/
def State.charges (s : State) (mv : Nat) : Bool :=
  let target := s.stored oHuVtarget
  s.stored oHuCNominal ≠ 0 && mv < target && (s.hold.charging || mv + 500 ≤ target)

/-- R477: the 60 s of charging over which the bank must rise. -/
def HoldUp.watch (h : HoldUp) (on : Bool) (gtc mv : Nat) : HoldUp :=
  if !on then { h with charging := false, chargeFrom := none, stuck := false, low := false }
  else
    match h.chargeFrom with
    | none => { h with charging := true, chargeFrom := some (gtc, mv) }
    | some (g, v) =>
      if g + 60 * Config.sec ≤ gtc then
        { h with charging := true, chargeFrom := some (gtc, mv), stuck := decide (mv ≤ v), low := decide (mv < 5000) }
      else { h with charging := true }

/-- R477: HU_STATE outside an estimate. -/
def State.bankState (s : State) : Nat :=
  let h := s.hold
  let nominal := s.stored oHuCNominal
  let weak := match h.cEst with | some c => decide (10 * c < 7 * nominal) | none => false
  if nominal = 0 || (h.low && h.mv < 5000) then 0
  else if weak || (h.cEst.isSome && s.stored oHuEsrLimit < h.esr) || h.temp < -20 || 70 ≤ h.temp || h.stuck || h.adcBad then 4
  else if h.mv + 1000 < s.stored oHuVtarget then 1
  else 2

/-- R479: the estimate takes a sample: first the ESR step, then the charge, until 0.95 × V0. A current of zero leaves
ESR_est open, and no fall after the ESR step leaves C_est open. (DESIGN CHOICE, log entry 68) -/
def State.estimate (s : State) (code : Nat) (ma : Int) (v0 : Nat) (after : Option Nat) (nc : Nat) : State :=
  let amps := ma.natAbs
  match after with
  | none =>
    let esr := if amps = 0 then (Config.freeWord s.fresh).toNat % 2 ^ 32 else (v0 - code) * 18750000 / amps
    { s with fresh := s.fresh + 1, hold := { s.hold with esr := esr, test := some (v0, some code, nc + 100 * amps) } }
  | some v1 =>
    let nc' := nc + 100 * amps
    if 100 * code ≤ 95 * v0 then
      let c := if v1 ≤ code then (Config.freeWord s.fresh).toNat % 2 ^ 32 else nc' * 4 / (75 * (v1 - code))
      { s with fresh := s.fresh + 1, hold := { s.hold with cEst := some c, test := none, lastTest := s.gtc, charging := true } }
    else { s with hold := { s.hold with test := some (v0, some v1, nc') } }

/-- R477 to R481, R541: HU_SAMPLE: codes of HU_VSNS and HU_ISNS. -/
def execHuSample (v i : Nat) (s : State) : Res :=
  whenUp s fun s =>
    let code := v % 4096
    let mv := code * 75 / 4
    let ma : Int := (i % 4096 * 375 / 64 : Nat) - 12000
    let s1 := { s with hold := { s.hold with mv := mv, ma := ma, code := code } }
    let s2 := match s1.hold.test with
      | some (v0, after, nc) => s1.estimate code ma v0 after nc
      | none => { s1 with hold := s1.hold.watch (s1.charges mv) s1.gtc mv }
    let s3 := if s2.hold.test.isSome then s2 else { s2 with hold := { s2.hold with state := s2.bankState } }
    .next s3.recompute

/-- R477, R480, R541: HU_TEMP_SAMPLE: a code of HU_TSNS. -/
def execHuTempSample (code : Nat) (s : State) : Res :=
  whenUp s fun s =>
    let t := bankTemp code
    .next { s with hold := { s.hold with temp := t, tempRead := bankReading code, kt := ktOf t } }

/-- R479: an estimate may start: the bank is READY and the dirty data lies within the allowance at 95 % of its voltage. -/
def State.testOk (s : State) : Bool :=
  let v := fpMul fmtFP64 (f64 95 100) (voltsOf s.hold.code)
  s.hold.state == 2 && s.hold.test.isNone && s.dirtyBytes ≤ f64Floor (s.allowance v).2

/-- R479: an estimate starts: HU_EN low and HU_ISET high. -/
def State.startTest (s : State) : State :=
  { s with hold := { s.hold with state := 3, charging := false, chargeFrom := none, test := some (s.hold.code, none, 0) } }

/-- R479: HU_TEST_START: every HU_TEST_PERIOD days. -/
def execHuTestStart (s : State) : Res :=
  whenUp s fun s =>
    if s.testOk && s.hold.lastTest + s.stored oHuTestPeriod * (86400 * Config.sec) ≤ s.gtc then .next s.startTest else .next s

/-- R479: HU_TEST_NOW. (DEDUCED, log entry 71) -/
def State.testNowCmd (s : State) : Except Nat State := if s.testOk then .ok s.startTest else .error stState

end Sys2Proof.Machine
end

