-- ==== Sys2Proof/Machine/Startup.lean ====
section
/-! DEFINITION. Start-up and resets: what a cold and a warm reset clear and keep (R519 to R521, R523), the steps of a start
(R512 to R518, R522, R524), the flush (R483, R484, R521), PERST_N, and BIST (R525 to R530). -/

namespace Sys2Proof.Machine

/-! ## What a reset keeps (R519, R523) -/

/-- R523: an object that the configuration record keeps. -/
def OdRow.inRecord (r : OdRow) : Bool :=
  (r.access == .rw || r.access == .rwl || r.access == .rwf) &&
  !(r.base == 0x2010 || r.base == 0x2100 || r.base == 0x2200 || r.base == 0x4100 || r.base == 0x4A00 || r.base == 0x5810 ||
    r.base == 0x5A00)

/-- R523: an object that every reset keeps. -/
def keptObject (key : Nat) : Bool :=
  key == oClockAlignFaults || (match rowOf key with | some r => r.inRecord | none => false)

/-- R14, R523: an object that a warm reset keeps: the counters of the enclave and clock-and-sense dies beside those.
(DEDUCED, log entry 167) -/
def warmObject (key : Nat) : Bool := keptObject key || key == oAuthFailures || key == oRefclkLosses || key == oThermtrips

/-- R519: a corpus after a reset: its records are in flash; its open samples and fence records are not. -/
def Corpus.afterReset (c : Corpus) : Corpus := { c with open_ := [], discarded := [], fences := [], roles := [] }

/-- R291, R519: flash after a reset: the programmed journal, the checkpoints and the flush region stand; the map, the write
buffer and relocations in progress are volatile. (DEDUCED, log entry 172) -/
def FlashSt.afterReset (f : FlashSt) : FlashSt :=
  { f with map := [], wbuf := [], copies := [], journal := f.journal.filter fun p => decide (p.base < f.journalDone), patrol := 0
           blocks := f.blocks.map fun b => (b.1, { b.2 with victim := false }), report := [], closedGc := [], gained := []
           readOnly := false, erasingFlush := false }

/-- R519: what of the host die's records lies in flash. -/
def HostSt.media (h : HostSt) : HostSt :=
  { nss := h.nss.map fun x => (x.1, { x.2 with corpus := x.2.corpus.map Corpus.afterReset })
    extents := h.extents, attached := h.attached, keyGen := h.keyGen }

/-- R449, R459: a new release key: nonces of evidence signed under the old one are worth nothing. (DESIGN CHOICE, log entry 105) -/
def SecSt.newReleaseKey (x : SecSt) : SecSt := { x with kemNo := x.kemNo + 1, signed := [], evidence := [] }

/-- R446, R447, R449, R459, R460, R464: the enclave after a cold reset. -/
def SecSt.afterCold (x : SecSt) : SecSt :=
  let lc := x.pending.getD x.lc
  { x.newReleaseKey with
    lc := lc, pending := none, nonceNo := x.nonceNo + 1, auth := [], released := [], snapKeys := []
    active := if x.scrub.isSome then x.active else x.commit.getD x.active
    commit := if x.scrub.isSome then x.commit else none, waits := false, seedLock := x.seedLock || lc == 4, scrubDone := false, scrubGtc := 0
    dramKeys := Tbl.upd (Tbl.upd x.dramKeys 0 0 (· + 1)) 0 33 (· + 1) }

/-- R519: the state after a cold reset, held in reset. -/
def State.coldReset (s : State) : State :=
  let sec := s.sec.afterCold
  let lost := sec.seedLock
  { State.reset with
    pending := s.pending, out := s.out, fresh := s.fresh
    od := s.od.filter (fun e => keptObject e.1), drawn := s.drawn, written := s.written.filter keptObject
    flash := if lost then { s.flash.afterReset with units := [], journal := [], root := {}, older := {}, flushed := [], dirty := [], marks := [] }
             else s.flash.afterReset
    host := if lost then { keyGen := s.host.keyGen } else s.host.media
    bands := if lost then [] else s.bands
    sec := sec
    hold := { pfCount := s.hold.pfCount, pfMs := s.hold.pfMs, pfBytes := s.hold.pfBytes }
    sys := { rstLow := s.sys.rstLow, straps := s.sys.straps, cause := s.sys.cause } }

/-- R460, R465, R520: the activation of committed firmware, which waits while a scrub runs, destroys every released key, rotates the tenant DRAM keys and draws a
new release key. -/
def State.activate (s : State) : State :=
  match (if s.sec.scrub.isSome then none else s.sec.commit) with
  | none =>
    let again (r : Release) : Release := { r with loaded := false, oasis := false, weights := [] }
    { s with sec := { s.sec with released := s.sec.released.map fun r => (r.1, again r.2) } }
  | some k =>
    let s1 := State.rotateTenants { s with sec := { s.sec.newReleaseKey with released := [], snapKeys := [] } }
    { s1 with sec := { s1.sec with active := k, commit := none, waits := false } }

/-- R409, R519: what of a channel a warm reset keeps. -/
def Chan.afterWarm (c : Chan) : Chan := { flushed := c.flushed }

/-- R519, R520: the state after the clearing of a warm reset, at the verification of the firmware. (DESIGN CHOICE, log entry 108) -/
def State.warmReset (s0 : State) : State :=
  let s := s0.flushMail.activate
  { State.reset with
    pending := s.pending, out := s.out, fresh := s.fresh
    od := s.od.filter (fun e => warmObject e.1), drawn := s.drawn, written := s.written.filter keptObject
    clk := s.clk, relCount := s.relCount
    flash := s.flash.afterReset
    host := { s.host with nss := s.host.media.nss, enabled := false, ready := false, cfs := false, sqs := [], cqs := [], features := []
                          aers := [], aborts := [], warned := 0, events := [], changed := [], errors := [], throughs := [], loads := [], restores := []
                          fwBuf := [], fwLen := 0, nvmeRegs := [] }
    bands := s.bands, rms := s.rms.map (fun r => (r.1, { expiries := r.2.expiries }))
    chans := s.chans.map (fun c => (c.1, c.2.afterWarm))
    sec := s.sec, power := s.power, hold := { s.hold with test := none }, mgmt := s.mgmt
    sys := { s.sys with inReset := false, step := 2, warm := true, alignFails := 0, began := s.clk.ticks, halted := false, flush := none
                        ledFault := 0, bistState := if s.sys.bistState = 1 then 0 else s.sys.bistState, bistGroups := 0, bistBank := none } }

/-! ## The flush (R483, R484, R521) -/

/-- R483: the journal buffer is programmed. -/
def State.flushJournal (s : State) : State := { s with flash := { s.flash with journalDone := s.flash.seq } }

/-- R483, R484: the dirty data is programmed; while the region is being replayed or erased it is left as it is. -/
def State.flushData (s : State) : State :=
  if s.flash.erasingFlush then s else { s with flash := { s.flash with flushed := s.flash.wbuf } }

/-- R521: writes are admitted that a reset must flush first. -/
def State.mustFlush (s : State) : Bool := s.dirtyBytes ≠ 0 || s.flash.journalDone < s.flash.seq

/-- R511, R512: a release of RST_N: the straps are sampled and the start begins. -/
def State.beginStart (s : State) (straps : Nat) : State :=
  { s with sys := { s.sys with rstLow := false, inReset := false, releasePending := false, straps := straps, step := 1 } }

/-- R519, R521: the device enters cold reset, and starts at once when RST_N has been released meanwhile. -/
def State.enterReset (s : State) : State :=
  let go := s.sys.releasePending
  let r := s.coldReset
  let c := { r with sys := { r.sys with cause := 1 } }
  if go then c.beginStart s.sys.straps else c

/-- R469, R471, R475, R483, R520 to R522: the flush has ended: what follows depends on its cause. (DEDUCED, log entry 73) -/
def State.endFlush (s : State) (f : Flush) : State :=
  let s1 := { s with hold := { s.hold with pfCount := s.hold.pfCount + 1, pfMs := (s.gtc - f.began) / Config.ms, pfBytes := s.dirtyBytes }
                     sys := { s.sys with flush := none } }
  if s.sys.rstLow || s.sys.releasePending then s1.enterReset
  else
    match f.why with
    | .powerFail => { s1 with sys := { s1.sys with halted := true, ledFault := 1 } }
    | .haltFault => { s1 with sys := { s1.sys with halted := true, ledFault := 1 } }
    | .clockFault => s1.fatal 3
    | .reset => s1.enterReset
    | .warm => s1.warmReset

/-- R483: FLUSH_STEP_DONE. -/
def execFlushStepDone (s : State) : Res :=
  if s.sys.inReset then .next s
  else
    match s.sys.flush with
    | none => .next s
    | some f =>
      let s1 := if f.step = 3 then s.flushJournal else if f.step = 4 then s.flushData else s
      if f.step < 5 then .next { s1 with sys := { s1.sys with flush := some { f with step := f.step + 1 } } }
      else .next (s1.endFlush f)

/-- R483, R484: PWR_FAIL_ASSERT: shorter than 100 ns it is ignored; during a warm reset's flush it makes it halt. -/
def execPwrFailAssert (ns : Nat) (s : State) : Res :=
  whenUp s fun s =>
    if ns < 100 then .next s
    else
      match s.sys.flush with
      | some f =>
        let why := if f.why = .warm then .powerFail else f.why
        .next { s with sys := { s.sys with pwrFail := true, flush := some { f with why := why } } }
      | none => .next (s.beginFlush .powerFail)

/-- R484: PWR_FAIL_RELEASE: the flush completes, and the device stays halted. -/
def execPwrFailRelease (s : State) : Res :=
  .next { s with sys := { s.sys with pwrFail := false, flush := s.sys.flush.map fun f => { f with returned := true } } }

/-! ## Cold reset (R511, R521) -/

/-- R519, R521: RST_N_ASSERT: while writes are admitted they are flushed first. -/
def execRstNAssert (s : State) : Res :=
  let s1 := { s with sys := { s.sys with rstLow := true } }
  if s.sys.inReset || s.sys.flush.isSome then .next s1
  else if s.mustFlush && !s.sys.halted then .next (s1.beginFlush .reset)
  else .next s1.enterReset

/-- R511, R521, R537: RST_N_RELEASE. -/
def execRstNRelease (straps : Nat) (s : State) : Res :=
  if !s.sys.rstLow then .next s
  else if s.sys.inReset then .next (s.beginStart straps)
  else .next { s with sys := { s.sys with rstLow := false, releasePending := true, straps := straps } }

/-! ## The steps of a start (R512 to R516) -/

/-- R526: units of a group that failed. -/
def StartFacts.bad (f : StartFacts) (g : Nat) : List Nat := (f.failed.filter fun x => x.1 == g).map Prod.snd

/-- R525, R531: the result of a group. (DESIGN CHOICE, log entry 106) -/
def groupOf (units : List Nat) (repairs : Nat) : BistGroup :=
  { result := if !units.isEmpty then 3 else if repairs ≠ 0 then 2 else 1
    unit := units.foldl min 0xFFFFFFFF, fails := units.length, repairs := repairs }

/-- R526: a domain is held OFF. -/
def State.holdOff (s : State) (d : Nat) : State := s.updDomain d fun x => { x with state := 2, heldOff := true }

/-- R526: a fabric port whose lane, PLL or buffer failed is held OFF with PORT_DOWN_CAUSE 4. -/
def State.badPort (s : State) (k : Nat) : State := (s.updPort k fun p => { p with link := .down, cause := 4 }).holdOff (portDomain k)

/-- R526: the fabric ports that failed: 4 lanes a port in group 0, PLLs 33 to 40 of group 4, and units 64 to 71 of group 6. -/
def StartFacts.badPorts (f : StartFacts) : List Nat :=
  (f.bad 0).map (· / 4) ++ ((f.bad 4).filter fun u => 33 ≤ u && u < 41).map (· - 33) ++
  ((f.bad 6).filter fun u => 64 ≤ u && u < 72).map (· - 64)

/-- R526: the Caravans that failed: units 0 to 47 of group 6, and their junction sensors, units 16 to 63 of group 5. -/
def StartFacts.badCaravans (f : StartFacts) : List Nat :=
  (f.bad 6).filter (· < 48) ++ ((f.bad 5).filter fun u => 16 ≤ u && u < 64).map (· - 16)

/-- R522, R526: the fatal code of the failed units: the root PLL, or the SRAM of Ringmaster 0 or the crossbar. -/
def StartFacts.fatal (f : StartFacts) : Option Nat :=
  if (f.bad 4).contains 0 then some 2 else if (f.bad 6).contains 48 || (f.bad 6).contains 52 then some 4 else none

/-- R525, R526: the results of BIST at a start, and what the device does about failed units. -/
def State.applyBist (s : State) (f : StartFacts) : State :=
  let groups := (List.range 7).map fun g => (g, groupOf (f.bad g) (Tbl.get f.repairs 0 g))
  let s1 := { s with sys := { s.sys with groups := groups, bistMode := 1, bistGtc := s.gtc, bistState := 2
                                         badBanks := (f.bad 6).filter (72 ≤ ·) }
                     host := { s.host with half := (f.bad 1).any (fun u => 8 ≤ u), noLink := (f.bad 1).any (· < 8) || (f.bad 4).contains 41 }
                     hold := { s.hold with adcBad := (f.bad 5).any (· < 3) } }
  let s2 := f.badPorts.foldl State.badPort s1
  let s3 := f.badCaravans.foldl (fun (s : State) n => s.holdOff (carDomain n)) s2
  ((f.bad 6).filter fun u => 49 ≤ u && u ≤ 51).foldl (fun (s : State) u => s.updRm (u - 48) fun r => { r with state := 2 }) s3

/-- R309, R517: the host die trains its link: the rate, flit mode and width depend on the partner. (DESIGN CHOICE, log entry 107) -/
def State.trainLink (s : State) : State :=
  if s.host.noLink then s
  else
    let d := s.draw
    let w := (Config.freeWord d.1).toNat
    let fast := bit w 0
    let wide := bit w 1 && !s.host.half && !bit s.sys.straps 4
    { d.2 with host := { d.2.host with linkRate := if fast then 2 else 1, linkWidth := if wide then 16 else 8
                                       flitMode := if fast then (if bit w 2 then 2 else 1) else 0 } }

/-- R517: the configuration space is loaded and the link trained, once step 2 is over and PERST_N is released. -/
def State.loadHost (s : State) : State :=
  if s.host.perst || s.host.cfgLoaded || s.sys.inReset || s.sys.step = 1 || (s.sys.step = 2 && !s.sys.warm) then s
  else State.trainLink { s with host := { s.host with cfgLoaded := true } }

/-- R460, R513: the firmware slot that boots. -/
def State.bootSlot (s : State) (ok : Nat) : Option Nat :=
  [s.sec.active, 1 - s.sec.active].find? fun k => bit ok k && (s.sec.svn == 0 || s.sec.svn ≤ (Tbl.get s.sec.fw {} k).svn)

/-- R460: a firmware boots; FW_SVN rises to its security version, each step drawing a count. -/
def State.boot (s : State) (k : Nat) : State :=
  let v := (Tbl.get s.sec.fw {} k).svn
  let up := v - s.sec.svn
  { s with sec := { s.sec with active := k, svn := max s.sec.svn v }, drawn := if up = 0 then s.drawn else Tbl.upd s.drawn 0 oFwSvn (· + up) }

/-- R524: the pools are placed in increasing number, under the checks of R259. (DESIGN CHOICE, log entry 59) -/
def State.placePools (s : State) : State :=
  let clear := (List.range 64).foldl (fun (s : State) p => s.store (oPoolPlace p) 0) s
  (List.range 64).foldl (fun (c : State) p =>
    let v := s.stored (oPoolPlace p)
    if v ≠ 0 && c.placeFits p v && s.spillOk p then c.placePool p v else c) clear

/-- R244: the DDR5 configurations that the device supports: modules per channel and their capacity in GB. -/
def ddrSupported (m : Nat × Nat) : Bool := (m.1 == 1 || m.1 == 2) && (m.2 == 72 || m.2 == 144 || m.2 == 288)

/-- R244: the rate of a configuration in MT/s, by its modules per channel. -/
def ddrRateOf (m : Nat × Nat) : Nat := if m.1 = 1 then 12800 else 8800

/-- R244, R245: the modules of a channel. -/
def StartFacts.channel (f : StartFacts) (c : Nat) : Nat × Nat := Tbl.get f.modules (1, 72) c

/-- R244, R245: the channels that train: those whose interface and PLL work and whose modules are of a supported configuration. -/
def StartFacts.ddrTrained (f : StartFacts) : List Nat :=
  let bad := f.bad 2 ++ ((f.bad 4).filter fun u => 1 ≤ u && u ≤ 16).map (· - 1)
  (List.range 16).filter fun c => bit f.ddr c && !bad.contains c && ddrSupported (f.channel c)

/-- R245: the modules of the reference, channel 0 or the lowest channel that trains, and the channels enabled, whose modules are like
those of the reference. -/
def StartFacts.ddrEnabled (f : StartFacts) : (Nat × Nat) × List Nat :=
  match f.ddrTrained with
  | [] => ((1, 72), [])
  | r :: rest => (f.channel r, (r :: rest).filter fun c => f.channel c == f.channel r)

/-- R274: a target of a kind that the device supports. -/
def TargetFacts.supported (t : TargetFacts) : Bool :=
  t.trains && t.channel < 64 && t.target < 16 && 1 ≤ t.luns && t.luns ≤ 8 && t.page == 16384 && 2048 ≤ t.spare &&
  (t.cell == 3 || t.cell == 4) && 1 ≤ t.bpl && 1 ≤ t.ppb && t.bpl * t.ppb < 2 ^ 25

/-- R275: the enabled targets: those that train and are like the first that trains, in channel and then target order. -/
def StartFacts.enabledTargets (f : StartFacts) (noChan : List Nat) : List TargetFacts :=
  let ok := ((List.range 1024).flatMap fun i => f.targets.filter fun t => 16 * t.channel + t.target == i).filter fun t =>
    t.supported && !noChan.contains t.channel
  match ok with
  | [] => []
  | r :: _ => ok.filter fun t => t.luns == r.luns && t.bpl == r.bpl && t.ppb == r.ppb && t.cell == r.cell

/-- R275 to R279: the flash with the targets that are enabled, its reserved areas set aside. -/
def FlashSt.withTargets (x : FlashSt) (ts : List TargetFacts) : FlashSt :=
  match ts with
  | [] => x
  | r :: _ =>
    FlashSt.plan { x with
      luns := r.luns, bpl := r.bpl, ppb := r.ppb, qlc := r.cell == 4
      chips := ts.foldl (fun m t => Tbl.upd m 0 t.channel fun v => setBit v t.target true) []
      factoryBad := ts.flatMap fun t => t.bad.map fun b => (t.channel * 16 + t.target) * 8 * r.bpl + b }

/-- R244, R245, R275: step 6: what trained. -/
def State.trained (s : State) (f : StartFacts) : State :=
  let ddr := f.ddrEnabled
  let noChan := f.bad 3 ++ ((f.bad 4).filter fun u => 17 ≤ u && u ≤ 32).flatMap fun u => (List.range 4).map (4 * (u - 17) + ·)
  let chips := f.enabledTargets noChan
  if ddr.2.length < 2 then s.fatal 5
  else if chips.isEmpty then s.fatal 6
  else
    let s1 := { s with ddrChannels := stageMask ddr.2, ddrRate := ddrRateOf ddr.1
                       ddrCapacity := ddr.2.length * ddr.1.1 * ddr.1.2 * 10 ^ 9
                       granules := [(0, 0), (33, 0)]
                       flash := s.flash.withTargets chips }
    let s2 := (s1.updDomain 1 fun x => { x with state := 0 }).updDomain 2 fun x => { x with state := 0 }
    State.placePools { s2 with sys := { s2.sys with step := 7 } }

/-- R286, R291, R518: step 7: the map is rebuilt, the flush region replayed and about to be erased; a controller that has
been enabled is ready. -/
def State.rebuilt (s : State) (x : StartFacts) : State :=
  let f := s.flash.rebuild x s.host.extents
  State.followPools { s with flash := { f with erasingFlush := !s.flash.flushed.isEmpty }
                             host := { s.host with ready := s.host.enabled }, sys := { s.sys with step := 8 } }

/-- R411, R416: the domains of the Caravans and ports take the states of their targets. -/
def State.wakeDies (s : State) : State :=
  ((List.range 48).map carDomain ++ (List.range 8).map portDomain).foldl State.domainToTarget s

/-- R353: step 8: a port that is still training is DOWN. -/
def State.settlePorts (s : State) : State :=
  let settle (p : Port) : Port := if p.link = .training || p.link = .retrain then { p with link := .down } else p
  { s with fabric := { s.fabric with ports := s.fabric.ports.map fun p => (p.1, settle p.2) }, sys := { s.sys with step := 9 } }

/-- R512: the step in progress. -/
def State.toStep (s : State) (k : Nat) : State := { s with sys := { s.sys with step := k } }

/-- R447, R512 to R516, R520, R522: the end of the step in progress. -/
def State.stepDone (s : State) (f : StartFacts) : State :=
  match s.sys.step with
  | 1 =>
    if s.sec.lc = 5 then { s with sys := { s.sys with halted := true, ledFault := 1 } }
    else State.toStep { s with sec := { s.sec with uds := s.sec.uds || s.sec.lc == 1 } } 2
  | 2 =>
    (match s.bootSlot f.fwOk with
     | some k => ((s.boot k).toStep (if s.sys.warm then 4 else 3)).loadHost
     | none => s.fatal 1)
  | 3 =>
    if !f.pllOk then s.fatal 2
    else if f.alignOk then State.toStep { s with clk := { s.clk with phase := some (s.clk.ticks % 20) } } 4
    else if s.sys.alignFails + 1 < 3 then { s with sys := { s.sys with alignFails := s.sys.alignFails + 1 } }
    else s.fatal 3
  | 4 =>
    let s1 := (((s.updDomain 0 fun x => { x with state := 0 }).pumpNotices 0).pumpNotices 8).wakeDies
    s1.toStep (if s.sys.warm && !s.flag oWarmBist then 6 else 5)
  | 5 =>
    if s.sec.lc = 0 then s
    else
      (match f.fatal with
       | some c => (s.applyBist f).fatal c
       | none => (s.applyBist f).toStep 6)
  | 6 => s.trained f
  | 7 => s.rebuilt f
  | 8 => s.settlePorts
  | _ => s

/-- R512: STARTUP_STEP_DONE: a step of the start ends with what the device found in it. -/
def execStartupStepDone (facts : StartFacts) (s : State) : Res :=
  whenUp s fun s => if s.sys.step = 0 || s.sys.flush.isSome then .next s else .next (s.stepDone facts)

/-- R515: RING_ADMISSION: the GTC is LOCKED, or has been FREE for 100 ms, and the first heartbeat has been sent. -/
def execRingAdmission (s : State) : Res :=
  whenUp s fun s =>
    let free := s.clk.state = 0 && s.clk.freeSince + 100 * Config.ms ≤ s.gtc
    if s.sys.step ≠ 9 || s.sys.flush.isSome || !(s.clk.state = 2 || free) || s.ft.sent.isNone then .next s
    else
      .next (State.domainToTarget { s with sys := { s.sys with step := 0, warm := false, startupMs := (s.clk.ticks - s.sys.began) / Config.ms } } 2)

/-! ## Warm reset and PERST_N (R519, R520, R530) -/

/-- R520: WRST_N_ASSERT. -/
def execWrstNAssert (s : State) : Res := whenUp s fun s => .next (s.beginWarm 2)

/-- R519: PERST_N_ASSERT: the host die alone is reset. -/
def execPerstNAssert (s : State) : Res :=
  if s.sys.inReset then .next { s with host := { s.host with perst := true } }
  else
    let h : HostSt :=
      { nss := s.host.nss, extents := s.host.extents, attached := s.host.attached, keyGen := s.host.keyGen, half := s.host.half
        noLink := s.host.noLink, cxlEvents := s.host.cxlEvents, perst := true }
    .next ((State.updDomain { s with host := h } 3 fun x => { x with state := 2 }).forgetCommands)

/-- R517: PERST_N_RELEASE: the host die starts. -/
def execPerstNRelease (s : State) : Res :=
  if !s.host.perst then .next s
  else .next ((State.updDomain { s with host := { s.host with perst := false } } 3 fun x => { x with state := 0 }).loadHost)

/-! ## BIST on demand and scan (R527 to R529) -/

/-- R529: a takeover or a planned handoff is in progress. -/
def State.handoff (s : State) : Bool :=
  s.ft.mirrors.any (fun r => r.2.state == 3) || (List.range Config.streams).any fun n => (s.stream n).prot.moveTo.isSome

/-- R529: a unit of group 0 to 3 is in use. -/
def State.groupBusy (s : State) (g : Nat) : Bool :=
  match g with
  | 0 => (List.range 8).any fun k => (s.domain (portDomain k)).state ≠ 2
  | 1 => !s.host.perst
  | 2 => s.ddrChannels ≠ 0
  | _ => s.flash.channels ≠ 0

/-- R529: the case that refuses a mask, 0 for none. -/
def State.bistRefused (s : State) (mask : Nat) : Nat :=
  if s.sys.bistState = 1 then 1
  else if s.devMode = 0 || s.devMode = 3 then 2
  else if s.sec.scrub.isSome || s.handoff || s.ft.hook.isSome then 3
  else if (List.range 4).any fun g => bit mask g && s.groupBusy g then 4
  else if 128 ≤ mask then 5
  else 0

/-- R527 to R529: a write of BIST_RUN; in BLANK and SCRAPPED there is no in-field BIST. -/
def State.bistCmd (s : State) (mask : Nat) : Except Nat State × State :=
  let c := s.bistRefused mask
  if c ≠ 0 || s.sec.lc = 0 || s.sec.lc = 5 then
    let state' := if s.sys.bistState = 1 then 1 else 3
    (.error stState, { s with sys := { s.sys with bistState := state', bistCause := c } })
  else
    let r := { s with sys := { s.sys with bistState := if mask = 0 then 2 else 1, bistCause := 0, bistGroups := mask
                                          bistBank := if bit mask 6 then some (0, 0) else none
                                          groups := if bit mask 6 then Tbl.set s.sys.groups 6 { result := 1 } else s.sys.groups } }
    (.ok r, s)

/-- R531: a group on demand has ended; after the last one the run is DONE. -/
def State.endGroup (s : State) (g : Nat) : State :=
  let left := setBit s.sys.bistGroups g false
  if left = 0 then
    { s with sys := { s.sys with bistGroups := 0, bistBank := none, bistState := 2, bistMode := 2, bistGtc := s.gtc } }
  else { s with sys := { s.sys with bistGroups := left, bistBank := if g = 6 then none else s.sys.bistBank } }

/-- R525, R531: BIST_GROUP_DONE: a group other than memory ends; group 5 follows the others. -/
def execBistGroupDone (g unit fails repairs : Nat) (s : State) : Res :=
  if 7 ≤ g then .fault .noSuchGroup
  else whenUp s fun s =>
    if g = 6 || s.sys.bistState ≠ 1 || !bit s.sys.bistGroups g || (g = 5 && s.sys.bistGroups % 32 ≠ 0) then .next s
    else
      let r : BistGroup :=
        { result := if fails ≠ 0 then 3 else if repairs ≠ 0 then 2 else 1, unit := if fails ≠ 0 then unit else 0xFFFFFFFF
          fails := fails, repairs := repairs }
      .next (State.endGroup { s with sys := { s.sys with groups := Tbl.set s.sys.groups g r } } g)

/-- R528: BIST_BANK_DONE: the bank under test is done and its contents are back; a failed Caravan is held OFF at once.
Whether a further bank remains is not stated, so it is free. -/
def execBistBankDone (ok : Bool) (s : State) : Res :=
  whenUp s fun s =>
    match s.sys.bistBank with
    | none => .next s
    | some (region, bank) =>
      let g := Tbl.get s.sys.groups {} 6
      let g' := if ok then g else { g with result := 3, unit := min g.unit bank, fails := g.fails + 1 }
      let s1 := { s with sys := { s.sys with groups := Tbl.set s.sys.groups 6 g' } }
      let s2 := if !ok && bank < 48 then s1.caravanOff bank else s1
      let d := s2.draw
      if Config.freeBool d.1 then .next { d.2 with sys := { d.2.sys with bistBank := some (region, bank + 1) } }
      else .next (d.2.endGroup 6)

/-- R527: a write of 1 to SCAN_RUN: in MANUFACTURE and RMA the structural scan runs, and the device serves nothing. -/
def State.scanCmd (s : State) : Except Nat State :=
  if !(s.sec.lc == 1 || s.sec.lc == 4) || s.sys.step ≠ 0 then .error stState
  else
    let s1 := s.flushJournal.flushData
    .ok { s1 with sys := { s1.sys with scan := true } }

/-- R527: SCAN_DONE: the device performs a cold reset by itself. -/
def execScanDone (s : State) : Res :=
  if s.sys.scan then .next ((s.coldReset).beginStart s.sys.straps) else .next s

end Sys2Proof.Machine
end

