-- ==== Sys2Proof/Machine/OdValue.lean ====
section
/-! DEFINITION. What every object of the dictionary reads as (R486, R487, R493): the stored value, or, for an object that
reports a part of the machine, the value of that part. Values are little-endian numbers (R4). -/

namespace Sys2Proof.Machine

/-! ## Values that are computed -/

/-- R246, R273: SAMPLE_CACHE: the rest of the data region. -/
def State.sampleCache (s : State) : Nat :=
  s.dataRegion - (fixedRegions + s.mapBytes + s.modelBytes false + s.placedBytes 3 64 0)

/-- R307: the erase counts of the good blocks of media pool m. -/
def FlashSt.eraseCounts (f : FlashSt) (m : Nat) : List Nat :=
  (f.blocks.filter fun b => f.mpoolOf b.1 == m && !f.isReserved b.1 && b.2.use ≠ .retired).map fun b => b.2.erases

/-- R307: ERASE_MEAN of media pool m, rounded down. -/
def FlashSt.eraseMean (f : FlashSt) (m : Nat) : Nat := (f.eraseCounts m).sum / max 1 (f.good m)

/-- R307: WEAR_USED. -/
def FlashSt.wearUsed (f : FlashSt) : Nat :=
  let all := ((List.range 16).map fun m => (f.eraseCounts m).sum).sum
  min 255 (100 * all / (max 1 ((List.range 16).map f.good).sum * max 1 Config.ratedCycles))

/-- R506: FW_VERSION. -/
def State.fwVersion (s : State) : Nat :=
  match Tbl.find s.sec.fw s.sec.active with
  | some x => x.version
  | none => Config.fwVersion.toNat

/-- R506, R537: PLCA_NODE_ID: as written, or as the straps give it. -/
def State.plcaId (s : State) : Nat :=
  (Tbl.find s.od oPlcaNodeId).getD (if bit s.sys.straps 3 then 0xFF else bits s.sys.straps 2 0)

/-- R467: the keys released to the tenant of slot t. -/
def State.tenReleased (s : State) (t : Nat) : Nat :=
  let id := s.stored (oTenantId t)
  if id = 0 then 0
  else (s.sec.released.filter fun r => r.2.tenant == id).length + (s.sec.snapKeys.filter fun k => k.1 == id).length

/-- R531: BIST_SUMMARY. -/
def State.bistSummary (s : State) : Nat :=
  ((List.range 7).map fun g => if (Tbl.get s.sys.groups {} g).result = 3 then 2 ^ g else 0).sum

/-! ## The projections, by area -/

/-- R50, R209, R240: the values of OD 2000 to 2400. -/
def State.odPipeline (s : State) (i u : Nat) : Option Nat :=
  if i = 0x2000 then
    match u with
    | 3 => some s.jobsInFlight
    | 4 => some s.jobsS0
    | 5 => some ((List.range 16).filter fun k => !s.hasImage k).length
    | _ => none
  else if 0x2010 ≤ i && i < 0x2020 then
    let k := i - 0x2010
    let x := s.image k
    match u with
    | 1 => some (s.slotState k)
    | 2 => some (leNat x.digest)
    | 3 => some (imgArith x.image)
    | 4 => some (imageTenant x)
    | 5 => some x.loadStatus
    | _ => none
  else if 0x2100 ≤ i && i < 0x2140 then
    let n := i - 0x2100
    let x := s.stream n
    if 0x20 ≤ u && u < 0x30 then some (x.staged.getD (u - 0x20) 0x7FC00000)
    else
      match u with
      | 0x03 => some x.state.code
      | 0x0E => some x.lastStatus
      | 0x11 => some (s.member n)
      | 0x13 => some (s.driftOf n)
      | 0x1C => some x.threshGen
      | 0x1D => some x.run.epochSize
      | _ => none
  else if 0x2200 ≤ i && i < 0x2240 then
    let x := s.stream (i - 0x2200)
    match u with
    | 3 => some x.exact.state
    | 4 => some x.exact.cause
    | 5 => some x.exact.late
    | 7 => some x.snapSeq
    | 8 => some (x.snapshot.getD []).length
    | 9 => some (match x.snapshot with | some b => leNat (sha3_512 b) | none => 0)
    | 0x0A => some (leNat x.lastBatchDigest)
    | 0x0B => some x.exact.startFail
    | _ => none
  else if i = 0x2400 then
    if 0x10 ≤ u && u < 0x18 then some (Tbl.get s.clk.delay 0 (u - 0x10))
    else
      match u with
      | 1 => some s.gtc
      | 2 => some s.clk.state
      | 4 => some s.ownHops
      | 5 => some (ofSigned 32 s.clk.offset)
      | 6 => some s.clk.latch
      | _ => none
  else none

/-- R271: a record of the release log. (DESIGN CHOICE, log entry 155) -/
def RelLog.bytes (r : RelLog) : Bytes := leBytes 8 r.gtc ++ leBytes 2 r.requester ++ leBytes 2 r.status ++ leBytes 8 r.handle

/-- R258, R267, R273: the values of OD 3000 to 37FF. -/
def State.odMemory (s : State) (i u : Nat) : Option Nat :=
  if i = 0x3000 then
    match u with
    | 1 => some s.ddrChannels
    | 2 => some s.ddrRate
    | 3 => some s.ddrCapacity
    | 4 => some s.dataRegion
    | 7 => some s.sampleCache
    | 0x15 => some s.poisonedLines
    | _ => none
  else if 0x3100 ≤ i && i < 0x3140 then
    let p := i - 0x3100
    match u with
    | 0x0A => some (s.pool p).state
    | 0x0B => some (s.pool p).occupied
    | 0x0C => some (s.pool p).peak
    | 0x0D => some (s.pool p).spills
    | 0x0E => some (s.orphans p)
    | _ => none
  else if i = 0x3040 then
    if u = 0x41 then some s.relCount
    else s.relLog[(s.relCount + 64 - u) % 64]?.map fun r => leNat (RelLog.bytes r)
  else if 0x3400 ≤ i && i < 0x3800 && 0x41 ≤ u && u ≤ 0x80 then some (Tbl.get s.charged 0 (64 * (i - 0x3400) + (u - 0x41)))
  else none

/-- R307: the values of OD 3800 to 3FFF. -/
def State.odFlash (s : State) (i u : Nat) : Option Nat :=
  if i = 0x3800 then
    match u with
    | 0x01 => some s.flash.raw
    | 0x03 => some s.formattable
    | 0x04 => some s.formatted
    | 0x07 => some s.sparePermille
    | 0x09 => some s.flash.wearUsed
    | 0x17 => some s.flash.lostUnits
    | 0x18 => some s.flash.refreshPending
    | 0x19 => some s.flash.channels
    | 0x1A => some s.flash.targets
    | _ => none
  else if 0x3810 ≤ i && i < 0x3820 then
    let m := i - 0x3810
    match u with
    | 1 => some (s.mediaPool m)
    | 2 => some (s.flash.freeBlocks m)
    | 3 => some (s.spares m)
    | 4 => some (s.critMark m)
    | 5 => some (s.flash.eraseMean m)
    | 6 => some ((s.flash.eraseCounts m).foldl max 0)
    | _ => none
  else if 0x3900 ≤ i && i < 0x3A00 then some (if s.flash.readOnly && (s.ns (i - 0x3900 + 1)).isSome then 1 else 0)
  else none

/-- R349: the values of OD 4000 to 47FF; index 4200 + k shows the namespace with NSID k + 1. -/
def State.odHost (s : State) (i u : Nat) : Option Nat :=
  if i = 0x4000 then
    match u with
    | 1 => some s.host.linkRate
    | 2 => some s.host.linkWidth
    | 3 => some s.host.flitMode
    | 0x0A => some s.dirtyBytes
    | _ => none
  else if 0x4100 ≤ i && i < 0x4140 && u = 5 then some (s.stream (i - 0x4100)).dlv.readySeq
  else if 0x4200 ≤ i && i < 0x4300 then
    match s.ns (i - 0x4200 + 1) with
    | none => some 0
    | some x =>
      match u with
      | 1 => some x.cls
      | 2 => some x.tenant
      | 3 => some (match x.corpus with | some c => c.id | none => 0)
      | 4 => some (match x.corpus with | some c => if c.sealed then 1 else 0 | none => 0)
      | _ => none
  else none

/-- R353: the code of a link state. -/
def LinkState.code : LinkState → Nat
  | .down => 0 | .training => 1 | .up => 2 | .fenced => 3 | .retrain => 4

/-- R381: the values of OD 4800 to 4FFF. -/
def State.odFabric (s : State) (i u : Nat) : Option Nat :=
  if i = 0x4800 && u = 3 then some s.fabric.reasm.length
  else if 0x4810 ≤ i && i < 0x4818 then
    let p := s.port (i - 0x4810)
    match u with
    | 2 => some (s.portDir (i - 0x4810))
    | 3 => some p.link.code
    | 4 => some p.version
    | 5 => some p.cause
    | 6 => some p.peerPartition
    | _ => none
  else if 0x4A00 ≤ i && i < 0x4A40 then
    let x := (s.stream (i - 0x4A00)).dlv
    match u with
    | 0x01 => some x.localQpn
    | 0x02 => some x.pd
    | 0x0C => some x.creditKey
    | 0x0D => some x.granted
    | 0x0F => some x.readKey
    | 0x10 => some (s.nextDlvSeq (i - 0x4A00))
    | _ => none
  else none

/-- R398: the values of OD 5000 to 57FF. -/
def State.odClasses (s : State) (i u : Nat) : Option Nat :=
  if i = 0x5000 && u = 1 then some s.s0Bound
  else if 0x5200 ≤ i && i < 0x5209 then
    let g := s.gate (i - 0x5200)
    match u with
    | 1 => some g.oper.length
    | 5 => some (if g.armed.isSome then 1 else 0)
    | 7 => some (s.g0Now (i - 0x5200))
    | _ => none
  else if 0x5400 ≤ i && i < 0x5409 then some ((s.gate (i - 0x5400)).oper.getD u 0x0F4240FF)
  else none

/-- R443: the values of OD 5800 to 5FFF. -/
def State.odFault (s : State) (i u : Nat) : Option Nat :=
  if i = 0x5800 then
    match u with
    | 3 => some s.ft.state
    | 4 => some s.ft.failed.length
    | 5 => some s.ft.lastFailed
    | 0x0A => some (Config.mirrors - s.ft.mirrors.length)
    | _ => none
  else if 0x5810 ≤ i && i < 0x5850 then
    let x := (s.stream (i - 0x5810)).prot
    match u with
    | 0x01 => some (s.partnerOf (i - 0x5810))
    | 0x02 => some x.state
    | 0x03 => some x.cause
    | 0x04 => some x.fenceEpoch
    | 0x05 => some x.fenceOwner
    | 0x06 => some x.ackedBatch
    | 0x07 => some x.markGtc
    | 0x08 => some x.markSeq
    | 0x0A => some x.movedTo
    | _ => none
  else if 0x5900 ≤ i && i < 0x5980 then
    match Tbl.find s.ft.mirrors (i - 0x5900) with
    | none => none
    | some x =>
      match u with
      | 1 => some x.state
      | 2 => some x.owner
      | 3 => some x.stream
      | 4 => some x.nextBatch
      | 5 => some x.fence.1
      | _ => none
  else if i = 0x5A00 then
    match u with
    | 4 => some s.hookState
    | 5 => some s.ft.hookCause
    | _ => none
  else none

/-- R417: the values of OD 1400 to 14FF and OD 6A00 to 6A80. -/
def State.odControl (s : State) (i u : Nat) : Option Nat :=
  if i = 0x1400 && u = 1 then some s.devMode
  else if 0x1410 ≤ i && i < 0x1450 then
    match u with
    | 2 => some (s.chan (i - 0x1410)).posted
    | 3 => some (s.chan (i - 0x1410)).taken
    | _ => none
  else if 0x1480 ≤ i && i < 0x1484 then
    let r := s.rm (i - 0x1480)
    match u with
    | 1 => some r.state
    | 3 => some r.expiries
    | 4 => some r.lastRestart
    | _ => none
  else if 0x6A00 ≤ i && i < 0x6A48 then
    let d := s.domain (i - 0x6A00)
    match u with
    | 1 => some d.state
    | 3 => some d.wakes
    | 4 => some d.offAccesses
    | _ => none
  else if i = 0x6A80 then
    match u with
    | 1 => some s.offStatus
    | 2 => some s.offDomain
    | 3 => some s.offAddr
    | 4 => some s.offGtc
    | _ => none
  else none

/-- R467: the values of OD 6000 to 61FF. -/
def State.odSecurity (s : State) (i u : Nat) : Option Nat :=
  if i = 0x6000 then
    match u with
    | 0x01 => some s.sec.lc
    | 0x02 => some (s.sec.pending.getD s.sec.lc)
    | 0x03 => some (leNat (Config.lcNonce s.sec.nonceNo))
    | 0x06 => some s.sec.svn
    | 0x07 => some (leNat s.identityDigest)
    | 0x08 => some (if s.updatePending then 1 else 0)
    | 0x09 => some (leNat s.identityPub)
    | 0x12 => some (if s.sec.scrub.isSome then 1 else if s.sec.scrubDone then 2 else 0)
    | 0x13 => some (match s.sec.scrub with | some b => b.step | none => 0)
    | 0x14 => some s.sec.scrubGtc
    | 0x21 => some (leNat s.sec.evidence)
    | 0x23 => some (s.sec.released.length + s.sec.snapKeys.length)
    | _ => none
  else if 0x6100 ≤ i && i < 0x6120 && u = 4 then some (s.tenReleased (i - 0x6100))
  else none

/-- R485: the values of OD 6800 to 69FF. -/
def State.odPower (s : State) (i u : Nat) : Option Nat :=
  if i = 0x6800 then
    match u with
    | 1 => some s.power.inputMv
    | 2 => some s.power.inputW
    | 4 => some s.power.step
    | 7 => some (ofSigned 8 s.power.tj)
    | 8 => some (ofSigned 8 s.power.tjPeak)
    | _ => none
  else if i = 0x6900 then
    match u with
    | 0x01 => some s.hold.state
    | 0x02 => some s.hold.mv
    | 0x03 => some s.hold.tempRead
    | 0x04 => some (s.hold.cEst.getD 0)
    | 0x05 => some s.hold.esr
    | 0x06 => some s.hold.eUsable
    | 0x07 => some s.hold.dAllow
    | 0x10 => some s.hold.lastTest
    | 0x11 => some s.hold.pfCount
    | 0x12 => some s.hold.pfMs
    | 0x13 => some s.hold.pfBytes
    | _ => none
  else none

/-- R506, R510, R531: the values of OD 1000 to 11FF, OD 7000 and OD 7800 to 78FF. -/
def State.odDevice (s : State) (i u : Nat) : Option Nat :=
  if i = 0x1000 then
    match u with
    | 5 => some s.fwVersion
    | 6 => some (match s.sec.commit with | some k => (Tbl.get s.sec.fw {} k).version | none => 0)
    | 9 => some s.coord
    | _ => none
  else if i = 0x1100 then
    match u with
    | 0x02 => some s.plcaId
    | 0x08 => some s.mgmt.sessions.length
    | 0x0B => some s.mgmt.link
    | 0x11 => some (if s.sec.factoryCred.isSome then 1 else 0)
    | _ => none
  else if 0x1140 ≤ i && i < 0x1144 && u = 2 then
    some (if (Tbl.find s.sec.operatorCreds (i - 0x1140)).isSome then 1 else 0)
  else if i = 0x7000 then
    match u with
    | 0x06 => some s.mgmt.ringHead
    | 0x19 => some (s.power.energy / 1000)
    | 0x1A => some (s.clk.ticks / Config.sec)
    | _ => none
  else if i = 0x7800 then
    match u with
    | 0x01 => some s.bistSummary
    | 0x02 => some s.sys.bistMode
    | 0x03 => some s.sys.bistGtc
    | 0x05 => some s.sys.bistState
    | 0x06 => some s.sys.bistCause
    | 0x0A => some s.sys.cause
    | 0x0B => some s.sys.step
    | 0x0C => some s.sys.startupMs
    | 0x0D => some s.sys.faultCode
    | _ => none
  else if 0x7810 ≤ i && i < 0x7817 then
    let g := Tbl.get s.sys.groups {} (i - 0x7810)
    match u with
    | 1 => some g.result
    | 2 => some g.unit
    | 3 => some g.fails
    | 4 => some g.repairs
    | _ => none
  else none

/-- R493: what an object reports of the machine; none when its value is a stored one. (DEDUCED, log entry 100) -/
def State.odReported (s : State) (key : Nat) : Option Nat :=
  let i := key / 256
  let u := key % 256
  if i < 0x1400 then s.odDevice i u
  else if i < 0x2000 then s.odControl i u
  else if i < 0x3000 then s.odPipeline i u
  else if i < 0x3800 then s.odMemory i u
  else if i < 0x4000 then s.odFlash i u
  else if i < 0x4800 then s.odHost i u
  else if i < 0x5000 then s.odFabric i u
  else if i < 0x5800 then s.odClasses i u
  else if i < 0x6000 then s.odFault i u
  else if i < 0x6800 then s.odSecurity i u
  else if i < 0x6A00 then s.odPower i u
  else if i < 0x7000 then s.odControl i u
  else s.odDevice i u

/-- R487, R493: the value of an object, within its SIZE. -/
def State.odValue (s : State) (key : Nat) : Nat :=
  let size := match rowOf key with | some r => r.size | none => 8
  ((s.odReported key).getD (s.stored key)) % 256 ^ size

/-- R487: the bytes of an object. -/
def State.odBytes (s : State) (key : Nat) : Bytes :=
  leBytes (match rowOf key with | some r => r.size | none => 0) (s.odValue key)

/-- R258, R398, R485: what a read of an object does besides: the highest since read restarts from the present value. (DEDUCED, log entry 99) -/
def State.odRead (s : State) (key : Nat) : State :=
  let i := key / 256
  let u := key % 256
  if 0x3100 ≤ i && i < 0x3140 && u = 0x0C then s.updPool (i - 0x3100) fun x => { x with peak := x.occupied }
  else if 0x5100 ≤ i && i < 0x51B0 && u = 0x0C then s.store key 0
  else if 0x5100 ≤ i && i < 0x51B0 && u = 0x0D then s.store key 0
  else if key = oTjPeak then { s with power := { s.power with tjPeak := s.power.tj } }
  else s

end Sys2Proof.Machine
end

