-- ==== Sys2Proof/Machine/Rights.lean ====
section
/-! DEFINITION. Who may reach an object and with which values (R486 to R491, R503, R544): the object named, the roles and
their rights, the life-cycle narrowing, and the Range/unit column. -/

namespace Sys2Proof.Machine

/-! ## Objects and roles (R486, R489, R503, R504) -/

/-- R417, R486: whether an index and subindex name an object: OD 6A00+d only for the domains of R411, and OD 1410+c:01
only for channels 16 to 55. -/
def isObject (key : Nat) : Bool :=
  let i := key / 256
  (rowOf key).isSome && (!(0x6A00 ≤ i && i < 0x6A48) || isDomain (i - 0x6A00)) &&
  (!(0x1410 ≤ i && i < 0x1450 && key % 256 == 1) || (16 ≤ i - 0x1410 && i - 0x1410 < 56))

/-- R492: the enclave serves an object; Ringmaster 0 serves every other. -/
def enclaveServes (key : Nat) : Bool :=
  let i := key / 256
  (0x1000 ≤ i && i < 0x1200) || (0x6000 ≤ i && i < 0x6200)

/-- R489, R503, R504: the role of a requester; none when every request of it is refused with RIGHTS. -/
def State.roleOf (s : State) (src : OdSource) : Option Role :=
  match src with
  | .channel c =>
    if c < 8 then some .operator
    else if 16 ≤ c && c < 56 then
      let t := s.stored (oChanTenant c)
      if t = 0 then none else some (.tenant t)
    else none
  | .session id => (Tbl.find s.mgmt.sessions id).map fun x => x.role
  | .remote _ r => if s.flag oRemoteOdAccept then some r else none

/-- R50: the stream that an index belongs to. -/
def objectStream (i : Nat) : Option Nat :=
  if 0x2100 ≤ i && i < 0x2140 then some (i - 0x2100)
  else if 0x2200 ≤ i && i < 0x2240 then some (i - 0x2200)
  else if 0x4100 ≤ i && i < 0x4140 then some (i - 0x4100)
  else if 0x4A00 ≤ i && i < 0x4A40 then some (i - 0x4A00)
  else if 0x5810 ≤ i && i < 0x5850 then some (i - 0x5810)
  else none

/-- R489: the tenant that owns a namespace, if one does. -/
def namespaceTenant (x : Option Namespace) : Option Nat := x.bind fun x => if x.tenant = 0 then none else some x.tenant

/-- R489, R505: the owner of an object of a stream, a slot or a namespace, if it has one; none for other objects. -/
def State.ownerOf (s : State) (i : Nat) : Option (Option Nat) :=
  match objectStream i with
  | some n => some (s.tenantOf n)
  | none =>
    if 0x2010 ≤ i && i < 0x2020 then
      some (if s.hasImage (i - 0x2010) then some (imageTenant (s.image (i - 0x2010))) else none)
    else if 0x6100 ≤ i && i < 0x6120 then
      some (if s.stored (oTenantId (i - 0x6100)) = 0 then none else some (s.stored (oTenantId (i - 0x6100))))
    else if 0x3900 ≤ i && i < 0x3A00 then some (namespaceTenant (s.ns (i - 0x3900 + 1)))
    else if 0x4200 ≤ i && i < 0x4300 then some (namespaceTenant (s.ns (i - 0x4200 + 1)))
    else none

/-- R490: what a life-cycle state leaves reachable for a role. -/
def lifeReach (lc : Nat) (r : Role) (key : Nat) : Bool :=
  let i := key / 256
  match lc, r with
  | 0, .factory => i == 0x1000 || i == 0x1100 || key == oLcState || key == oLcPending
  | 1, .factory => true
  | 4, .factory => true
  | 1, .operator => i == 0x1000 || i == 0x1100 || i == 0x6000 || i == 0x7800 || (0x7810 ≤ i && i ≤ 0x7816)
  | 4, .operator => i == 0x1000 || i == 0x1100 || i == 0x6000 || i == 0x7800 || (0x7810 ≤ i && i ≤ 0x7816)
  | 2, .operator => true
  | 2, .tenant _ => true
  | 3, .operator => true
  | 3, .tenant _ => true
  | _, _ => false

/-- R50, R209, R258: the owning chapter gives FACTORY the read right. -/
def factoryReads (i : Nat) : Bool :=
  (objectStream i).isNone && i ≠ 0x2300 && !(0x3100 ≤ i && i < 0x3140)

/-- R209: the owning chapter gives TENANT the read right, of what it owns where the object has an owner. -/
def tenantReads (i : Nat) : Bool := i ≠ 0x2300

/-- R50: the owning chapter gives TENANT the write right to what it owns. -/
def tenantWrites (key : Nat) : Bool :=
  (objectStream (key / 256)).isSome || (0x2010 ≤ key / 256 && key / 256 < 0x2020 && key % 256 == 6)

/-- R445, R506, R531: the objects whose write right FACTORY holds. -/
def factoryWrites (key : Nat) : Bool := key == oFactoryCred || key == oScanRun || key == oLcState

/-- R445: a transition that the table gives to FACTORY alone, and one that it gives to OPERATOR alone. -/
def factoryStep (lc v : Nat) : Bool := (lc == 0 && v == 1) || (lc == 1 && v == 2)

/-- R445: a transition that the table gives to OPERATOR alone. -/
def operatorStep (lc v : Nat) : Bool := (lc == 2 && v == 3) || (lc == 2 && v == 4) || (lc == 3 && v == 4)

/-- R489, R490: a role's right to read an object. -/
def State.mayRead (s : State) (r : Role) (key : Nat) : Bool :=
  let i := key / 256
  lifeReach s.sec.lc r key &&
  match r with
  | .operator => true
  | .factory => factoryReads i
  | .tenant t =>
    tenantReads i &&
    match s.ownerOf i with
    | none => true
    | some (some o) => o == t
    | some none => 0x2100 ≤ i && i < 0x2140 && key % 256 == 3

/-- R50, R489, R490, R544: a role's right to write a value to an object. -/
def State.mayWrite (s : State) (r : Role) (key v : Nat) : Bool :=
  let i := key / 256
  lifeReach s.sec.lc r key &&
  match r with
  | .operator => key ≠ oFactoryCred && key ≠ oScanRun && !(key == oLcState && factoryStep s.sec.lc v)
  | .factory => factoryWrites key && !(key == oLcState && operatorStep s.sec.lc v)
  | .tenant t =>
    tenantWrites key &&
    let mine := s.ownerOf i == some (some t)
    if 0x2100 ≤ i && i < 0x2140 && key % 256 == 1 then
      (mine || s.ownerOf i == some none) && (if s.hasImage v then imageTenant (s.image v) == t else mine)
    else mine

/-! ## Values (R5, R181, R488, and the Range/unit columns) -/

/-- R181, R352: a geometry within its limits. -/
def geometryOk (v mx my mz : Nat) : Bool :=
  let d (k : Nat) : Nat := bits v (8 * k + 7) (8 * k)
  1 ≤ d 0 && d 0 ≤ mx && 1 ≤ d 1 && d 1 ≤ my && 1 ≤ d 2 && d 2 ≤ mz && d 0 * d 1 * d 2 ≤ 8192 &&
  geoOwn v 0 < d 0 && geoOwn v 1 < d 1 && geoOwn v 2 < d 2

/-- R488: an FP32 code is a NaN. -/
def isNaN32 (v : Nat) : Bool := bits v 30 23 == 255 && bits v 22 0 ≠ 0

/-- R5, R78, R488: the value that a write of v to an object asks for: reserved bits dropped, a NaN made canonical. (DEDUCED, log entry 37) -/
def normalValue (key v : Nat) : Nat :=
  if key = oPlaceGeometry || key = oTorusGeometry then v % 2 ^ 48
  else if 0x2100 ≤ key / 256 && key / 256 < 0x2140 && 0x20 ≤ key % 256 && key % 256 < 0x30 && isNaN32 v then 0x7FC00000
  else v

/-- R488: a power of two. -/
def isPow2 (v : Nat) : Bool := v ≠ 0 && 2 ^ (bitLen v - 1) == v

/-- R210: N for the range of MEMBER and the check of CAROUSEL_MODE at a write. -/
def State.membersOf (s : State) (n : Nat) : Nat :=
  match s.corpusFor n with
  | some (_, c) => geoCount c.geometry
  | none => geoCount s.place

/-- R488: what the Range/unit column asks of a stream's object besides its bounds. -/
def State.streamRange (s : State) (n u v : Nat) : Bool :=
  match u with
  | 0x01 => v < 16 || v == 0xFF
  | 0x11 => v < s.membersOf n
  | 0x12 => v == 3 || v == 5
  | _ => true

/-- R488: what the Range/unit column asks of a value besides its bounds. (DEDUCED, log entry 94) -/
def State.specialRange (s : State) (key v : Nat) : Bool :=
  let i := key / 256
  let u := key % 256
  if key = oPlaceGeometry then geometryOk v 32 32 32
  else if key = oTorusGeometry then geometryOk v 32 16 16
  else if 0x2100 ≤ i && i < 0x2140 then s.streamRange (i - 0x2100) u v
  else if 0x3100 ≤ i && i < 0x3140 then
    (match u with | 2 => isPow2 v | 5 => v < 64 || v == 0xFF | _ => true)
  else if 0x3810 ≤ i && i < 0x3820 && u = 4 then s.flash.working (i - 0x3810) ≤ v
  else if 0x4100 ≤ i && i < 0x4140 then
    (match u with | 1 => v % (2 * mib) == 0 | 2 => isPow2 v | _ => true)
  else if 0x4810 ≤ i && i < 0x4818 then
    (match u with
     | 2 => 6 ≤ i - 0x4810 || v == i - 0x4810
     | 0x13 => v ≤ 4094 || v == 0xFFFF
     | _ => true)
  else if 0x4A00 ≤ i && i < 0x4A40 then
    (match u with | 6 => v < 8192 | 9 => v % 4096 == 0 | _ => true)
  else if key = oS0Caravans then popCount 48 v == 16
  else if 0x5100 ≤ i && i < 0x51B0 && (u = 5 || u = 6) then
    v == 0 || (8 ≤ (i - 0x5100) / 8 && (i - 0x5100) / 8 < 16)
  else if 0x6A00 ≤ i && i < 0x6A48 && u = 2 then domainAllows (i - 0x6A00) v
  else if key = oDomainReset then v == 2 || (0x10 ≤ v && v < 0x48)
  else if 0x5810 ≤ i && i < 0x5850 then
    (match u with | 1 => v < 8192 || v == 0xFFFF | 9 => v < 8192 | _ => true)
  else if key = oHuChargeMa then v ≤ s.stored oHuIsetFs
  else if key = oPlcaNodeId then v ≤ 7 || v == 0xFF
  else if key = oTelemRingBase then v % 4096 == 0
  else if key = oTelemRingLen then isPow2 v
  else if key = oTelemRingTail then v ≤ s.mgmt.ringHead
  else true

/-- R488: a value within the Range/unit column. -/
def State.inRange (s : State) (r : OdRow) (key v : Nat) : Bool :=
  r.type == 11 || r.type == 12 || r.type == 10 || (r.lo ≤ v && v ≤ r.hi && s.specialRange key v)

/-- R488: the length of a value written. -/
def OdRow.lengthOk (r : OdRow) (n : Nat) : Bool := if r.type = 12 then n ≤ r.size else n == r.size

/-- R8: the changes of an RWL object that remain. -/
def State.changesLeft (s : State) (r : OdRow) (key : Nat) : Nat := r.limit - Tbl.get s.drawn 0 key

/-- R8, R9: a write that the count, or the default of an RWF object, no longer allows. -/
def State.countSpent (s : State) (r : OdRow) (key v : Nat) : Bool :=
  match r.access with
  | .rwl => v ≠ s.odValue key && s.changesLeft r key == 0
  | .rwf => s.odValue key ≠ r.dflt
  | _ => false

/-- R544: the RESULT of the first of the checks 2 to 7 that a write fails, or OK. (DEDUCED, log entry 93) -/
def State.writeCheck (s : State) (role : Role) (key : Nat) (data : Bytes) : Nat :=
  match rowOf key with
  | none => rNoObject
  | some r =>
    let v := normalValue key (leNat data)
    if !isObject key then rNoObject
    else if !s.mayWrite role key v then rRights
    else if r.access = .ro then rAccess
    else if !r.lengthOk data.length then rLength
    else if !s.inRange r key v then rRange
    else if s.countSpent r key v then rCount
    else rOk

/-- R544: the RESULT of the first of the checks 2 to 4 that a read fails, or OK. -/
def State.readCheck (s : State) (role : Role) (key : Nat) : Nat :=
  match rowOf key with
  | none => rNoObject
  | some r =>
    if !isObject key then rNoObject
    else if !s.mayRead role key then rRights
    else if r.access = .wo then rAccess
    else rOk

/-! ## Describing an object (R505) -/

/-- R505: TENANT is listed for an object, as a session of a role sees it. -/
def State.tenantListed (s : State) (role : Role) (i : Nat) : Bool :=
  match s.ownerOf i with
  | none => true
  | some none => false
  | some (some o) => (match role with | .tenant t => t == o | _ => true)

/-- R505: READ_ROLES. -/
def State.readRoles (s : State) (role : Role) (r : OdRow) (key : Nat) : Nat :=
  let i := key / 256
  if r.access = .wo then 0
  else
    (if lifeReach s.sec.lc .operator key then 1 else 0) +
    (if lifeReach s.sec.lc (.tenant 0) key && tenantReads i && s.tenantListed role i then 2 else 0) +
    (if lifeReach s.sec.lc .factory key && factoryReads i then 4 else 0)

/-- R505: WRITE_ROLES. -/
def State.writeRoles (s : State) (role : Role) (r : OdRow) (key : Nat) : Nat :=
  let i := key / 256
  if r.access = .ro then 0
  else
    (if lifeReach s.sec.lc .operator key && key ≠ oFactoryCred && key ≠ oScanRun then 1 else 0) +
    (if lifeReach s.sec.lc (.tenant 0) key && tenantWrites key && s.tenantListed role i then 2 else 0) +
    (if lifeReach s.sec.lc .factory key && factoryWrites key then 4 else 0)

/-- R505: LC_MASK. -/
def lifeMask (role : Role) (key : Nat) : Nat :=
  ((List.range 6).map fun c => if lifeReach c role key then 2 ^ c else 0).sum

/-- R505: REMAINING. -/
def State.remaining (s : State) (r : OdRow) (key : Nat) : Nat :=
  if key = oFwSvn then 256 - s.sec.svn
  else
    match r.access with
    | .rwl => s.changesLeft r key
    | .rwf => if s.odValue key = r.dflt then 1 else 0
    | _ => 0xFFFF

/-- R7, R505: the code of an access. -/
def Access.code : Access → Nat
  | .ro => 0 | .rw => 1 | .wo => 2 | .rwl => 3 | .rwf => 4

/-- R505: the descriptor of an object. -/
def State.descriptor (s : State) (role : Role) (r : OdRow) (key : Nat) : Bytes :=
  leBytes 1 r.type ++ leBytes 1 r.access.code ++ leBytes 1 (s.readRoles role r key) ++ leBytes 1 (s.writeRoles role r key) ++
  leBytes 4 r.size ++ leBytes 1 (lifeMask role key) ++ zeros 1 ++ leBytes 2 (s.remaining r key) ++ zeros 4

end Sys2Proof.Machine
end

