-- ==== Sys2Proof/Machine/OdApply.lean ====
section
/-! DEFINITION. What an accepted write of an object does, and which writes its owning chapter refuses (R10, R544 step 8),
area by area. Each operation answers a RESULT, a STATUS and the state. -/

namespace Sys2Proof.Machine

/-- What a write answers: RESULT, STATUS and the state after it, which a refusal leaves as it was (R10). -/
abbrev Applied := Nat × Nat × State

/-- A write that is applied. -/
def accept (s : State) : Applied := (rOk, 0, s)

/-- R544: a refusal with STATE and the status that the refusing rule names. -/
def refuse (s : State) (status : Nat := 0) : Applied := (rState, status, s)

/-- A write accepted under a condition, else refused with STATE and STATUS 0. -/
def acceptIf (ok : Bool) (s s' : State) : Applied := if ok then accept s' else refuse s

/-- The outcome of a command that answers a status when it is refused. -/
def ofExcept (s : State) : Except Nat State → Applied
  | .ok s' => accept s'
  | .error st => refuse s st

/-- The outcome of a command whose refusing rule names no status. -/
def ofExcept0 (s : State) : Except Nat State → Applied
  | .ok s' => accept s'
  | .error _ => refuse s

/-! ## Streams and images (R30, R50, R51, R192, R209, R210, R232, R240, R313, R381, R443) -/

/-- R51: the stream is IDLE or LOADED. -/
def State.resting (s : State) (n : Nat) : Bool := (s.stream n).state == .idle || (s.stream n).state == .loaded

/-- R463, R465: a command of a stream whose tenant is being scrubbed is refused. -/
def State.scrubbing (s : State) (n : Nat) : Bool :=
  match s.tenantOf n with
  | some t => s.scrubs t
  | none => false

/-- R30, R420: an image is unloaded, unless a stream or a mirror record refers to it, or the slot is empty. (DESIGN CHOICE, log entry 166) -/
def State.unload (s : State) (k : Nat) : Applied :=
  acceptIf (s.hasImage k && !s.imageInUse k && (s.image k).pins == 0) s
    { s with images := Tbl.set s.images k { loadStatus := (s.image k).loadStatus } }

/-- R39: CONTROL. -/
def State.control_ (s : State) (n v : Nat) : Applied :=
  if s.scrubbing n then refuse s stScrub
  else
    match v with
    | 1 => ofExcept s (s.startCmd n)
    | 2 => ofExcept s (s.pauseCmd n)
    | 3 => ofExcept s (s.resumeCmd n)
    | 4 => ofExcept s (s.stopCmd n)
    | 5 => ofExcept s (s.resetCmd n)
    | _ => ofExcept s (s.releaseCmd n)

/-- R192: THRESH_EPOCH arms the staged set for epochs that begin after the write; 0xFFFF_FFFF arms none. -/
def State.armThresholds (s : State) (n v : Nat) : State :=
  let r := s.run n
  let first := if r.begun then r.epoch + 1 else r.epoch
  (s.store (oThreshEpoch n) v).updStream n fun x => { x with armedAfter := if v = 0xFFFFFFFF then none else some first }

/-- R210: a setting that changes results, written while the stream is IDLE or LOADED; the plan is made again. -/
def State.writePlan (s : State) (n key v : Nat) : Applied := acceptIf (s.resting n) s ((s.store key v).forgetPlan n)

/-- R57: CARAVAN_MASK of stream n may take a value: a RUNNING, PAUSED or HELD stream keeps its scratch condition. -/
def State.maskAllows (s : State) (n v : Nat) : Bool := !(s.stream n).state.active || !s.scratchBad v (s.descsOf n)

/-- R46 to R51, R57, R189, R192, R209, R210: the objects at OD 2100+n. -/
def State.applyStream (s : State) (n u key v : Nat) : Applied :=
  match u with
  | 0x01 => acceptIf (s.imageSlotOk n v) s (s.setImageSlot n v)
  | 0x04 => s.writePlan n key v
  | 0x05 => s.writePlan n key v
  | 0x06 => acceptIf (s.resting n) s (s.store key v)
  | 0x07 => acceptIf (s.splitModeOk n v) s (s.store key v)
  | 0x08 => acceptIf (s.splitCutOk n v) s (s.store key v)
  | 0x09 => acceptIf (!(v == 1 && s.flag (oClockExact n))) s (s.store key v)
  | 0x0A => acceptIf (s.maskAllows n v) s (s.store key v)
  | 0x0C => acceptIf (s.clockExactOk n v) s (s.store key v)
  | 0x0D => s.control_ n v
  | 0x10 => if v = 1 && 64 < s.membersOf n then refuse s else s.writePlan n key v
  | 0x11 =>
    acceptIf (s.resting n) s (((s.store key v).updStream n fun x => { x with memberWritten := true }).forgetPlan n)
  | 0x12 => s.writePlan n key v
  | 0x14 => s.writePlan n key v
  | 0x15 => s.writePlan n key v
  | 0x16 => s.writePlan n key v
  | 0x17 => s.writePlan n key v
  | 0x18 => s.writePlan n key v
  | 0x19 => s.writePlan n key v
  | 0x1B => accept (s.armThresholds n v)
  | _ =>
    if 0x20 ≤ u && u < 0x30 then accept (s.updStream n fun x => { x with staged := x.staged.set (u - 0x20) v })
    else accept (s.store key v)

/-- R232, R241: the objects at OD 2200+n. -/
def State.applyExact (s : State) (n u key v : Nat) : Applied :=
  if u = 6 then
    (if s.scrubbing n then refuse s stScrub
     else acceptIf ((s.stream n).state == .paused || (s.stream n).state == .held) s (s.takeSnapshot n))
  else acceptIf (s.resting n) s (s.store key v)

/-- R313: the window that the objects of stream n give: base, length; empty with SLOT_COUNT 0. -/
def State.windowOf (s : State) (n : Nat) : Nat × Nat :=
  (s.stored (oWinOffset n), s.stored (oSlotSize n) * s.stored (oSlotCount n))

/-- R313: the window of stream n lies within RESULT_DPA and overlaps no other. -/
def State.windowFits (s : State) (n : Nat) : Bool :=
  let w := s.windowOf n
  w.2 == 0 ||
  (w.1 + w.2 ≤ s.stored oResultDpa * gib &&
   (List.range Config.streams).all fun m =>
     m == n || (let x := s.windowOf m; x.2 == 0 || x.1 + x.2 ≤ w.1 || w.1 + w.2 ≤ x.1))

/-- R380: the region of an exposed window follows the window. -/
def State.followWindow (s : State) (n : Nat) : State :=
  let key := (s.stream n).dlv.readKey
  match s.regionOf key with
  | some r =>
    let w := s.windowOf n
    { s with fabric := { s.fabric with regions := Tbl.set s.fabric.regions (key % 65536) { r with base := w.1, len := w.2 } } }
  | none => s

/-- R320: a slot of a stream in LOADED or MOVED is RETIRED as soon as it is FREE. -/
def State.retireAtOnce (s : State) (n : Nat) : State :=
  if (s.stream n).state = .loaded || (s.stream n).state = .moved then s.retireSlots n else s

/-- R313, R320, R349: the objects at OD 4100+n. -/
def State.applyWindow (s : State) (n u key v : Nat) : Applied :=
  if u = 4 then accept (s.store key v)
  else
    let s' := s.store key v
    acceptIf (s.resting n && s'.windowFits n) s ((s'.followWindow n).retireAtOnce n)

/-- R380, R381: DLV_READ_EXPOSE: the result window is registered for READ, or no longer. -/
def State.expose (s : State) (n v : Nat) : State :=
  let s1 := ((s.unregister (s.stream n).dlv.readKey).store (oDlvReadExpose n) v).updDlv n fun d => { d with readKey := 0 }
  if v = 0 then s1
  else
    let w := s.windowOf n
    let r := (s1.ensureQp n).register { pd := dlvPd n, base := w.1, len := w.2, read := true, kind := 2, stream := n }
    r.2.updDlv n fun d => { d with readKey := r.1 }

/-- R381: the objects at OD 4A00+n. -/
def State.applyDelivery (s : State) (n u key v : Nat) : Applied :=
  acceptIf (s.resting n) s
    (if u = 0x0E then (if v = s.stored key then s else s.expose n v) else s.store key v)

/-! ## Memory, pools and media (R258, R259, R267, R273, R282, R307) -/

/-- R273: MODEL_OASIS_MIB: accepted while no model key is released and the OASIS pools still fit. -/
def State.modelRegionOk (s : State) (v : Nat) : Bool :=
  s.sec.released.isEmpty && s.placedBytes 2 64 0 ≤ s.oasisSpace v

/-- R258, R259: the objects at OD 3100+p. -/
def State.applyPool (s : State) (p u key v : Nat) : Applied :=
  match u with
  | 1 => acceptIf (s.placeAccepted p v) s (s.placePool p v).serveAllocs
  | 0x0F => accept (s.reclaimPool p)
  | _ =>
    if 6 ≤ u && u ≤ 9 then
      let s1 := s.store key v
      acceptIf (s.markAccepted p u v) s ({ s1 with written := (key :: s1.written).dedup }.settlePool p).serveAllocs
    else acceptIf (s.stored (oPoolPlace p) == 0) s (s.store key v)

/-- R415: a FABRIC or FLASH domain that is OFF holds the object. -/
def State.objectOff (s : State) (i : Nat) : Bool :=
  if 0x3800 ≤ i && i < 0x3820 then s.domOff 2
  else if 0x4810 ≤ i && i < 0x4818 then s.domOff (portDomain (i - 0x4810))
  else false

/-- R8, R259, R267, R273, R282, R307: the objects at OD 3000 to 3FFF. -/
def State.applyMemory (s : State) (i u key v : Nat) : Applied :=
  if key = oModelOasisMib then acceptIf (s.modelRegionOk v) s (s.store key v)
  else if 0x3100 ≤ i && i < 0x3140 then s.applyPool (i - 0x3100) u key v
  else if 0x3400 ≤ i && i < 0x3800 then accept (s.store key v).serveAllocs
  else if key = oOpPermille then acceptIf (v == s.stored key || s.formatted ≤ s.formattableAt v) s (s.store key v)
  else if key = oSpareThreshold then accept (s.store key v).warn
  else if 0x3810 ≤ i && i < 0x3820 then
    let s1 := s.store key v
    accept (State.followPools { s1 with written := (key :: s1.written).dedup })
  else accept (s.store key v)

/-! ## Host, fabric and classes (R312, R349, R351, R381, R383, R386 to R390, R398) -/

/-- R312, R349: no result window is set. -/
def State.noWindow (s : State) : Bool := (List.range Config.streams).all fun n => s.stored (oSlotCount n) == 0

/-- R351: PORT_ROLE of port k: a port that changes its role loses its link; OFF gives cause 5. -/
def State.setPortRole (s : State) (k v : Nat) : State :=
  if v = s.stored (oPortRole k) then s else (s.linkDown k (if v = 2 then 5 else 0)).store (oPortRole k) v

/-- R351, R381: the objects at OD 4810+k. -/
def State.applyPort (s : State) (k u key v : Nat) : Applied :=
  if u = 1 then acceptIf (!(v == 1 && k < 6)) s (s.setPortRole k v) else accept (s.store key v)

/-- R383, R386, R387: the objects at OD 5100+q. -/
def State.applyQueue (s : State) (q u key v : Nat) : Applied :=
  let role := s.stored (oPortRole (q / 8 - 8))
  match u with
  | 5 => acceptIf (!(v == 2 && role ≠ 1)) s (s.store key v)
  | 6 => acceptIf (!(v == 1 && role == 0)) s (s.store key v)
  | _ => acceptIf (s.shaperAccepted q u v) s (s.setShaper q u v)

/-- R349, R351, R381, R383, R386 to R390, R398: the objects at OD 4000 to 57FF that no stream owns. -/
def State.applyClasses (s : State) (i u key v : Nat) : Applied :=
  if key = oResultDpa then acceptIf s.noWindow s (s.store key v)
  else if 0x4810 ≤ i && i < 0x4818 then s.applyPort (i - 0x4810) u key v
  else if 0x5100 ≤ i && i < 0x51B0 then s.applyQueue (i - 0x5100) u key v
  else if 0x5200 ≤ i && i < 0x5209 && u = 4 then
    acceptIf (s.changeAccepted (i - 0x5200)) s (s.armChange (i - 0x5200))
  else if 0x5300 ≤ i && i < 0x5309 then acceptIf (s.gate (i - 0x5300)).armed.isNone s (s.store key v)
  else accept (s.store key v)

/-! ## Control processors, fault tolerance and power (R412, R417, R435, R438 to R441, R443, R479, R485) -/

/-- R530: DEV_MODE is STARTUP. -/
def State.starting (s : State) : Bool := s.devMode == 0

/-- R440, R441, R443, R530: the hook objects, in the DEPLOYED state. -/
def State.applyHook (s : State) (key v : Nat) : Applied :=
  if s.sec.lc ≠ lcDeployed then refuse s
  else if key ≠ oHook then accept (s.store key v)
  else if s.starting then refuse s
  else if v = 0 then accept s.endHook
  else
    match s.startHook v with
    | (.ok s', _) => accept s'
    | (.error _, s') => refuse s'

/-- R417, R438, R439, R443, R485: the objects at OD 1400 to 1FFF, 5800 to 5FFF and 6800 to 6FFF that no stream owns. -/
def State.applyControl (s : State) (i u key v : Nat) : Applied :=
  if 0x1410 ≤ i && i < 0x1450 then
    let c := s.chan (i - 0x1410)
    acceptIf (c.tx.isNone && c.rx.isNone) s (s.store key v)
  else if 0x6A00 ≤ i && i < 0x6A48 && u = 2 then ofExcept0 s (s.targetCmd (i - 0x6A00) v)
  else if key = oRejoin then acceptIf s.rejoinOk s s.rejoinRing
  else if key = oDomainReset then (if s.starting then refuse s else ofExcept0 s (s.domainResetCmd v))
  else if i = 0x5A00 then s.applyHook key v
  else if key = oHuTestNow then ofExcept0 s s.testNowCmd
  else accept (s.store key v)

/-! ## Security and management (R445, R446, R450 to R461, R467, R502, R506, R510) -/

/-- R467: TENANT_ID of slot t may be written. (DEDUCED, log entry 98) -/
def State.tenantIdOk (s : State) (t : Nat) : Bool :=
  let id := s.stored (oTenantId t)
  id == 0 || (List.range Config.streams).all fun n => (s.stream n).state == .idle || s.tenantOf n ≠ some id

/-- R449, R467: TENANT_ID is written; a slot that is assigned draws a new DRAM key. -/
def State.setTenantId (s : State) (t v : Nat) : State :=
  let s1 := s.store (oTenantId t) v
  if v = 0 || v = s.stored (oTenantId t) then s1 else s1.rotateKey (t + 1)

/-- R467: the pools that a write of TEN_POOLS names, and those that it drops, are OFF. -/
def State.tenPoolsOk (s : State) (t v : Nat) : Bool :=
  (List.range 64).all fun p => bit v p == bit (s.stored (oTenPools t)) p || s.stored (oPoolPlace p) == 0

/-- R502: OPERATOR_CRED of slot i: zeros clear it, but not the last one that is set in DEPLOYED. -/
def State.applyCred (s : State) (i : Nat) (data : Bytes) : Applied :=
  let clear := leNat data == 0
  let held := s.sec.operatorCreds
  if clear && s.sec.lc = lcDeployed && (Tbl.find held i).isSome && held.length = 1 then refuse s
  else
    accept { s with sec := { s.sec with operatorCreds := if clear then Tbl.del held i else Tbl.set held i data } }

/-- R8, R445, R446, R450, R452, R455, R461, R467, R502: the objects at OD 1100 to 11FF and 6000 to 61FF. -/
def State.applySecurity (s : State) (role : Role) (i u key v : Nat) (data : Bytes) : Applied :=
  if key = oLcState then (if v = s.sec.lc then accept s else ofExcept0 s (s.lcCmd (role == .factory) v))
  else if key = oLcAuth then accept { s with sec := { s.sec with auth := data } }
  else if key = oScrubTenant then
    (match s.scrubCmd v with
     | .ok s' => accept s'
     | .error st => refuse s (if st = stScrub then st else 0))
  else if key = oEvidenceReq then ofExcept s (s.evidenceCmd data)
  else if key = oKeyRelease then ofExcept s (s.keyReleaseCmd data)
  else if key = oFactoryCred then
    acceptIf (s.sec.lc == 0 && s.sec.factoryCred.isNone) s { s with sec := { s.sec with factoryCred := some data } }
  else if 0x1140 ≤ i && i < 0x1144 then s.applyCred (i - 0x1140) data
  else if 0x6100 ≤ i && i < 0x6120 then
    (match u with
     | 1 => acceptIf (s.tenantIdOk (i - 0x6100)) s (s.setTenantId (i - 0x6100) v)
     | 3 => acceptIf (s.tenPoolsOk (i - 0x6100) v) s (s.store key v)
     | _ => accept (s.store key v))
  else accept (s.store key v)

/-- R506: the objects whose writes take effect 100 ms after the response. -/
def appliesLater (key : Nat) : Bool :=
  key == oPlcaNodeId || key == oPlcaNodeCount || key == oPlcaToTimer || key == oIpv6AddrMgmt || key == oIpv6PrefixLen || key == oOdUdpPort

/-- R506: a setting of the management port is written, and waits 100 ms. (DEDUCED, log entry 86) -/
def State.writeLater (s : State) (key v : Nat) : State :=
  let s1 := s.store key v
  { s1 with mgmt := { s1.mgmt with due := (s1.mgmt.due.filter fun d => d.2.1 ≠ key) ++ [(s.gtc + 100 * Config.ms, key, v)] } }

/-- R507, R510: TELEM_DEST: setting bit 0 empties the ring; the session that sets bit 1 receives the records. -/
def State.setTelemDest (s : State) (src : OdSource) (v : Nat) : State :=
  let s1 := s.store oTelemDest v
  let s2 := if bit v 0 && !bit (s.stored oTelemDest) 0 then
      State.store { s1 with mgmt := { s1.mgmt with ringHead := 0 } } oTelemRingTail 0 else s1
  match src with
  | .session id => if bit v 1 then { s2 with mgmt := { s2.mgmt with telemSession := id } } else s2
  | _ => s2

/-- R506, R507, R510, R520, R527, R529 to R531: the objects at OD 1100, 7000 and 7800. -/
def State.applyDevice (s : State) (src : OdSource) (key v : Nat) : Applied :=
  if appliesLater key then accept (s.writeLater key v)
  else if key = oTelemDest then accept (s.setTelemDest src v)
  else if key = oTelemRingBase || key = oTelemRingLen then acceptIf (!bit (s.stored oTelemDest) 0) s (s.store key v)
  else if key = oBistRun then
    (match s.bistCmd v with
     | (.ok s', _) => accept s'
     | (.error _, s') => refuse s')
  else if key = oScanRun then ofExcept0 s s.scanCmd
  else if key = oWarmReset then accept (s.beginWarm 3)
  else accept (s.store key v)

/-! ## Every object -/

/-- R502, R506: FACTORY_CRED is the enclave's; the other objects at OD 1000 and 1100 are the management port's. -/
def State.applyPortal (s : State) (src : OdSource) (role : Role) (i u key v : Nat) (data : Bytes) : Applied :=
  if key = oFactoryCred then s.applySecurity role i u key v data else s.applyDevice src key v

/-- R10, R493, R544 step 8: the owning chapter's rule for a write that has passed the checks before it.
(DEDUCED, log entry 80; DEDUCED, log entry 95) -/
def State.applyObject (s : State) (src : OdSource) (role : Role) (key v : Nat) (data : Bytes) : Applied :=
  let i := key / 256
  let u := key % 256
  if s.objectOff i then refuse s stDomainOff
  else if i < 0x1140 then s.applyPortal src role i u key v data
  else if i < 0x1400 then s.applySecurity role i u key v data
  else if i < 0x2000 then s.applyControl i u key v
  else if 0x2010 ≤ i && i < 0x2020 then s.unload (i - 0x2010)
  else if 0x2100 ≤ i && i < 0x2140 then s.applyStream (i - 0x2100) u key v
  else if 0x2200 ≤ i && i < 0x2240 then s.applyExact (i - 0x2200) u key v
  else if key = oGtcRoot then accept (s.setRoot v)
  else if i < 0x3000 then accept (s.store key v)
  else if i < 0x4000 then s.applyMemory i u key v
  else if 0x4100 ≤ i && i < 0x4140 then s.applyWindow (i - 0x4100) u key v
  else if 0x4A00 ≤ i && i < 0x4A40 then s.applyDelivery (i - 0x4A00) u key v
  else if i < 0x5800 then s.applyClasses i u key v
  else if 0x5810 ≤ i && i < 0x5850 then
    (if u = 1 then accept (s.setPartner (i - 0x5810) v)
     else if s.scrubbing (i - 0x5810) then refuse s stScrub else ofExcept0 s (s.moveToCmd (i - 0x5810) v))
  else if i < 0x6000 then s.applyControl i u key v
  else if i < 0x6800 then s.applySecurity role i u key v data
  else if i < 0x7000 then s.applyControl i u key v
  else s.applyDevice src key v

/-- R8, R493, R544: a whole write: its checks, its effect, and the count that a changed RWL object draws. LC_STATE draws
its count when its fuses are burnt (R446). -/
def State.writeObject (s : State) (src : OdSource) (role : Role) (key : Nat) (data : Bytes) : Applied :=
  let c := s.writeCheck role key data
  if c ≠ rOk then (c, 0, s)
  else
    let v := normalValue key (leNat data)
    let r := s.applyObject src role key v data
    let limited := match rowOf key with | some x => x.access == .rwl | none => false
    if r.1 = rOk && limited && key ≠ oLcState && v ≠ s.odValue key then
      (rOk, 0, { r.2.2 with drawn := Tbl.upd r.2.2.drawn 0 key (· + 1) })
    else r

end Sys2Proof.Machine
end

