-- ==== Sys2Proof/Machine/Od.lean ====
section
/-! DEFINITION. The services of the object dictionary (R492 to R506): the gate that every request passes, READ, WRITE,
WRITE_MANY and DESCRIBE, forwarding, the sessions of the management port, and the writes that have a row of their own. -/

namespace Sys2Proof.Machine

/-! ## The gate (R463, R492, R501, R503, R504) -/

/-- R501: a frame is discarded without a response and counted; after 16 within 1 s, OPEN is ignored for 1 s. -/
def State.discardFrame (s : State) : State :=
  let s1 := s.count oAuthFailures 1
  let fails := (s.mgmt.fails.filter fun t => s.gtc < t + Config.sec) ++ [s.gtc]
  { s1 with mgmt := { s1.mgmt with fails := fails
                                   ignoreUntil := if Config.authLimit ≤ fails.length then s.gtc + Config.sec else s.mgmt.ignoreUntil } }

/-- R500, R501: a request of a session is accepted in order; the first one establishes the session. Other transports accept
every request. (DEDUCED, log entry 87) -/
def State.acceptRequest (s : State) (src : OdSource) (seq : Nat) : Option State :=
  match src with
  | .session id =>
    match Tbl.find s.mgmt.sessions id with
    | none => none
    | some x =>
      if x.established && seq ≠ (x.seq + 1) % 2 ^ 32 then none
      else
        let x' := { x with established := true, seq := seq, at_ := s.gtc }
        some { s with mgmt := { s.mgmt with sessions := Tbl.set s.mgmt.sessions id x' } }
  | _ => some s

/-- R399, R492, R522: Ringmaster 0 serves; in a halt it does not. -/
def State.rm0Serves (s : State) : Bool := !s.sys.halted && s.rmRuns 0 && (s.sys.step == 0 || 5 ≤ s.sys.step)

/-- R522: the enclave serves: the device is out of reset, and a halt is one of the faults that have a code. (DEDUCED, log entry 7) -/
def State.enclaveUp (s : State) : Bool := s.up || (s.sys.halted && s.sys.faultCode ≠ 0 && !s.sys.inReset && !s.sys.scan)

/-- R519, R522: a request of the object dictionary has no effect on a device whose enclave does not serve. -/
def whenEnclave (s : State) (f : State → Res) : Res := if s.enclaveUp then f s else .next s

/-- R504: the request is for another device; a request that was forwarded is for this one. -/
def State.goesAway (s : State) (src : OdSource) (target : Nat) : Bool :=
  target ≠ 0xFFFF && target ≠ s.coord && (match src with | .remote _ _ => false | _ => true)

/-- R504: a request is forwarded to the device it names. (DESIGN CHOICE, log entry 92) -/
def State.forwardRequest (s : State) (src : OdSource) (seq op target : Nat) (r : Role) (body : Bytes) : State :=
  let n := s.mgmt.forwarded
  let s1 := { s with mgmt := { s.mgmt with forwarded := n + 1
                                           forwards := s.mgmt.forwards ++
                                             [({ num := n, src := src, op := op, seq := seq } : Forward)] } }
  if s.inTorus target then s1.sendOd target (odPrefix s.coord r ++ odFrame op 0 seq target body) .od n
  else s1.answerForward n rUnreachable 0 []

/-- R463: the requests of a tenant that is being scrubbed are refused. -/
def State.roleScrubbed (s : State) (r : Role) : Bool :=
  match r with
  | .tenant t => s.scrubs t
  | _ => false

/-- R447, R463, R492, R501, R503, R504: a request reaches its server with a role: `f` serves it. A request that waits for
Ringmaster 0 changes nothing. -/
def State.gate_ (s : State) (src : OdSource) (seq op target : Nat) (enclave : Bool) (body : Bytes) (f : Role → State → State) : State :=
  if s.sec.lc = 5 then s
  else
    match s.acceptRequest src seq with
    | none => s.discardFrame
    | some s1 =>
      let away := s.goesAway src target
      if (away || !enclave) && !s.rm0Serves then
        (match src with
         | .session _ => s1.answer src op seq rBusy 0 []
         | _ => s)
      else
        match s1.roleOf src with
        | none => s1.answer src op seq rRights 0 []
        | some r =>
          if away then s1.forwardRequest src seq op target r body
          else if s1.roleScrubbed r then s1.answer src op seq rState stScrub []
          else
            match src, enclave with
            | .session _, false => f r (s1.touch 0)
            | _, _ => f r s1

/-! ## READ and WRITE (R497) -/

/-- R486: the key of an index and a subindex; one that names no object where they do not fit their fields. -/
def keyOf (idx sub : Nat) : Nat := if idx < 65536 && sub < 256 then 256 * idx + sub else 0

/-- R497: the data limit of a transport; on a mailbox channel a READ is shortened to fit the receive buffer (R503). -/
def State.dataLimit (s : State) (src : OdSource) : Nat :=
  match src with
  | .channel c => min 65536 ((s.chan c).rxLen - 40)
  | .session _ => 1024
  | .remote _ _ => 65536

/-- R495: the body of a READ response. -/
def readBody (b : Bytes) (offset n : Nat) : Bytes :=
  let d := (b.drop offset).take n
  leBytes 4 b.length ++ leBytes 4 d.length ++ zeros 4 ++ d

/-- R497: the copies of a requester with that of an object replaced. -/
def State.keepCopy (s : State) (src : OdSource) (key : Nat) (b : Bytes) : State :=
  { s with mgmt := { s.mgmt with copies := (s.mgmt.copies.filter fun c => !(c.src == src && c.key == key)) ++
                                           [{ src := src, key := key, data := b, at_ := s.gtc }] } }

/-- R497: READ: at offset 0 of the object, of which a copy is taken; else of the copy. -/
def State.serveRead (s : State) (src : OdSource) (seq key offset maxLen : Nat) (role : Role) : State :=
  let n := min maxLen (s.dataLimit src)
  if offset ≠ 0 then
    match s.mgmt.copies.find? fun c => c.src == src && c.key == key with
    | none => s.answer src 0x10 seq rSegment 0 []
    | some c => (s.keepCopy src key c.data).answer src 0x10 seq rOk 0 (readBody c.data offset n)
  else
    let r := s.readCheck role key
    if r ≠ rOk then s.answer src 0x10 seq r 0 []
    else
      let b := s.odBytes key
      ((s.odRead key).keepCopy src key b).answer src 0x10 seq rOk 0 (readBody b 0 n)

/-- R497: the assembly of a requester is replaced or discarded. (DESIGN CHOICE, log entry 90) -/
def State.setAsm (s : State) (src : OdSource) (a : Option WriteAsm) : State :=
  { s with mgmt := { s.mgmt with asms := (s.mgmt.asms.filter fun x => !(x.src == src)) ++ a.toList } }

/-- R497: the bytes that the segments of a write give so far; none for a segment out of sequence. -/
def State.assembled (s : State) (src : OdSource) (key offset total : Nat) (data : Bytes) : Option Bytes :=
  let b :=
    if offset = 0 then some data
    else
      match s.mgmt.asms.find? fun x => x.src == src with
      | some x => if x.key == key && x.asm.total == total && x.asm.data.length == offset then some (x.asm.data ++ data) else none
      | none => none
  b.filter fun b => b.length ≤ total

/-- R493, R497, R544: WRITE: a segment is kept; at LAST the value is checked and applied. -/
def State.serveWrite (s : State) (src : OdSource) (seq key : Nat) (last : Bool) (offset total : Nat) (data : Bytes) (role : Role) : State :=
  if 65536 < data.length || (s.dataLimit src = 1024 && 1024 < data.length) then s.answer src 0x11 seq rLength 0 []
  else
    match s.assembled src key offset total data with
    | none => (s.setAsm src none).answer src 0x11 seq rSegment 0 []
    | some b =>
      if !last then
        (s.setAsm src (some { src := src, key := key, asm := { total := total, data := b, at_ := s.gtc } })).answer src 0x11 seq rOk 0 []
      else
        let s1 := s.setAsm src none
        if b.length ≠ total then s1.answer src 0x11 seq rLength 0 []
        else
          let r := s1.writeObject src role key b
          r.2.2.answer src 0x11 seq r.1 r.2.1 []

/-- R495: the body of a WRITE request. -/
def writeRequest (idx sub : Nat) (last : Bool) (offset total : Nat) (data : Bytes) : Bytes :=
  leBytes 2 idx ++ leBytes 1 sub ++ leBytes 1 (if last then 1 else 0) ++ leBytes 4 offset ++ leBytes 4 total ++
  leBytes 2 data.length ++ zeros 2 ++ data

/-- R493, R495: a READ request. -/
def State.readRequest (s : State) (src : OdSource) (seq target idx sub offset maxLen : Nat) : State :=
  let key := keyOf idx sub
  s.gate_ src seq 0x10 target (enclaveServes key)
    (leBytes 2 idx ++ leBytes 1 sub ++ zeros 1 ++ leBytes 4 offset ++ leBytes 4 maxLen)
    fun r s => s.serveRead src seq key offset maxLen r

/-- R493, R495: a WRITE request. -/
def State.writeReq (s : State) (src : OdSource) (seq target idx sub : Nat) (last : Bool) (offset total : Nat) (data : Bytes) : State :=
  let key := keyOf idx sub
  s.gate_ src seq 0x11 target (enclaveServes key) (writeRequest idx sub last offset total data)
    fun r s => s.serveWrite src seq key last offset total data r

/-! ## WRITE_MANY and DESCRIBE (R498, R505) -/

/-- R498: the entries of a set, checked and applied in order: the state after them, or the first refusal with its RESULT,
STATUS and key. -/
def State.writeAll (src : OdSource) (role : Role) : List (Nat × Nat × Bytes) → State → Except (Nat × Nat × Nat × Nat) State
  | [], s => .ok s
  | (idx, sub, data) :: rest, s =>
    let r := s.writeObject src role (keyOf idx sub) data
    if r.1 = rOk then State.writeAll src role rest r.2.2 else .error (r.1, r.2.1, idx, sub)

/-- R495: the rest of a WRITE_MANY response. -/
def refusedEntry (idx sub : Nat) : Bytes := leBytes 2 idx ++ leBytes 1 sub

/-- R495, R498: the counts and lengths of a set are within bounds. -/
def manyOk (es : List (Nat × Nat × Bytes)) : Bool :=
  1 ≤ es.length && es.length ≤ 16 && es.all fun e => 1 ≤ e.2.2.length && e.2.2.length ≤ 64

/-- R496, R498: WRITE_MANY: every entry is applied, or none. (DEDUCED, log entry 96; DEDUCED, log entry 97) -/
def State.serveMany (s : State) (src : OdSource) (seq : Nat) (es : List (Nat × Nat × Bytes)) (role : Role) : State :=
  if !manyOk es then s.answer src 0x12 seq rLength 0 (refusedEntry 0xFFFF 0xFF)
  else
    let server (e : Nat × Nat × Bytes) : Bool := enclaveServes (keyOf e.1 e.2.1)
    match es.find? fun e => server e ≠ (es.head?.map server).getD false with
    | some e => s.answer src 0x12 seq rMixed 0 (refusedEntry e.1 e.2.1)
    | none =>
      match State.writeAll src role es s with
      | .ok s' => s'.answer src 0x12 seq rOk 0 (refusedEntry 0xFFFF 0xFF)
      | .error (r, st, idx, sub) => s.answer src 0x12 seq r st (refusedEntry idx sub)

/-- R495: the bytes of a WRITE_MANY entry. -/
def entryRequest (e : Nat × Nat × Bytes) : Bytes :=
  leBytes 2 e.1 ++ leBytes 1 e.2.1 ++ leBytes 1 e.2.2.length ++ padTo e.2.2 4

/-- R493, R495: a WRITE_MANY request; the enclave serves a set whose entries are all its own. -/
def State.manyRequest (s : State) (src : OdSource) (seq target : Nat) (es : List (Nat × Nat × Bytes)) : State :=
  s.gate_ src seq 0x12 target (es.all fun e => enclaveServes (keyOf e.1 e.2.1))
    (leBytes 1 es.length ++ zeros 3 ++ (es.map entryRequest).flatten)
    fun r s => s.serveMany src seq es r

/-- R505: DESCRIBE. -/
def State.serveDescribe (s : State) (src : OdSource) (seq key : Nat) (role : Role) : State :=
  match rowOf key with
  | none => s.answer src 0x13 seq rNoObject 0 []
  | some r =>
    if !isObject key then s.answer src 0x13 seq rNoObject 0 []
    else if !(s.mayRead role key || bit (s.writeRoles role r key) role.code) then s.answer src 0x13 seq rRights 0 []
    else s.answer src 0x13 seq rOk 0 (s.descriptor role r key)

/-- R493, R495: a DESCRIBE request. -/
def State.describeRequest (s : State) (src : OdSource) (seq target idx sub : Nat) : State :=
  let key := keyOf idx sub
  s.gate_ src seq 0x13 target (enclaveServes key) (leBytes 2 idx ++ leBytes 1 sub ++ zeros 1)
    fun r s => s.serveDescribe src seq key r

/-- R497: READ. -/
def execOdRead (src : OdSource) (seq target idx sub offset maxLen : Nat) (s : State) : Res :=
  whenEnclave s fun s => .next (s.readRequest src seq target idx sub offset maxLen)

/-- R493, R497: WRITE. -/
def execOdWrite (src : OdSource) (seq target idx sub : Nat) (last : Bool) (offset total : Nat) (data : Bytes) (s : State) : Res :=
  whenEnclave s fun s => .next (s.writeReq src seq target idx sub last offset total data)

/-- R498: WRITE_MANY. -/
def execOdWriteMany (src : OdSource) (seq target : Nat) (entries : List (Nat × Nat × Bytes)) (s : State) : Res :=
  whenEnclave s fun s => .next (s.manyRequest src seq target entries)

/-- R505: DESCRIBE. -/
def execOdDescribe (src : OdSource) (seq target idx sub : Nat) (s : State) : Res :=
  whenEnclave s fun s => .next (s.describeRequest src seq target idx sub)

/-! ## Sessions of the management port (R499 to R502) -/

/-- R507: a closed session receives no more telemetry. -/
def State.closeSession (s : State) (id : Nat) : State :=
  let s1 := { s with mgmt := { s.mgmt with sessions := Tbl.del s.mgmt.sessions id
                                           copies := s.mgmt.copies.filter fun c => !(c.src == .session id)
                                           asms := s.mgmt.asms.filter fun a => !(a.src == .session id) } }
  if s.mgmt.telemSession = id && bit (s.stored oTelemDest) 1 then s1.store oTelemDest (setBit (s.stored oTelemDest) 1 false) else s1

/-- R500, R502: the credential of a role and a slot. -/
def State.credential (s : State) (role slot : Nat) : Option Bytes :=
  if role = 0 then Tbl.find s.sec.operatorCreds slot
  else if role = 2 then some (s.sec.factoryCred.getD (zeros 32))
  else none

/-- R500: the number of a new session: a free choice, never 0 and held by no other session. (DESIGN CHOICE, log entry 88) -/
def State.newSession (s : State) (w : Nat) : Nat :=
  ((List.range 10).find? fun i => (w + i) % 2 ^ 32 ≠ 0 && (Tbl.find s.mgmt.sessions ((w + i) % 2 ^ 32)).isNone).elim 1 fun i =>
    (w + i) % 2 ^ 32

/-- R500: the response to OPEN, untagged. -/
def State.answerOpen (s : State) (id seq result : Nat) (rest : Bytes) : State :=
  let f := odFrame 0x81 id seq s.coord (odBody result 0 rest)
  (s.emit (.odResponse (.session id) 0x81 seq result 0 rest)).emit (.datagram id f)

/-- R500 to R502: OPEN. -/
def State.openRequest (s : State) (seq role slot : Nat) (clientNonce : Bytes) : State :=
  if s.sec.lc = 5 || s.gtc < s.mgmt.ignoreUntil then s
  else if 8 ≤ s.mgmt.sessions.length then s.answerOpen 0 seq rBusy []
  else
    match s.credential role slot with
    | none => s.answerOpen 0 seq rRights []
    | some cred =>
      let id := s.newSession (Config.freeWord s.fresh).toNat
      let nonce := sliceZ (Config.freeBytes (s.fresh + 1)) 0 32
      let key := kmac256 cred (sliceZ clientNonce 0 32 ++ nonce ++ leBytes 4 id) 32 "OA1640 OD SESSION"
      let x : Session := { role := if role = 2 then .factory else .operator, key := key, at_ := s.gtc }
      State.answerOpen { s with fresh := s.fresh + 2
                                mgmt := { s.mgmt with sessions := Tbl.set s.mgmt.sessions id x, opened := s.mgmt.opened + 1 } }
        id seq rOk (leBytes 4 id ++ nonce)

/-- R500: CLOSE. -/
def State.closeRequest (s : State) (id seq : Nat) : State :=
  s.gate_ (.session id) seq 0x02 0xFFFF true [] fun _ s => (s.answer (.session id) 0x02 seq rOk 0 []).closeSession id

/-- R500: OPEN. -/
def execOdOpen (seq role slot : Nat) (clientNonce : Bytes) (s : State) : Res :=
  whenEnclave s fun s => .next (s.openRequest seq role slot clientNonce)

/-- R500: CLOSE. -/
def execOdClose (session seq : Nat) (s : State) : Res := whenEnclave s fun s => .next (s.closeRequest session seq)

/-- R500: SESSION_TIMEOUT. -/
def execSessionTimeout (id : Nat) (s : State) : Res :=
  whenEnclave s fun s =>
    match Tbl.find s.mgmt.sessions id with
    | none => .next s
    | some x =>
      if x.at_ + (if x.established then 60 else 10) * Config.sec ≤ s.gtc then .next (s.closeSession id) else .next s

/-- R497: SEGMENT_TIMEOUT: copies and assemblies idle for 10 s are discarded. -/
def execSegmentTimeout (src : OdSource) (key : Nat) (s : State) : Res :=
  whenEnclave s fun s =>
    let old (t : Nat) : Bool := t + 10 * Config.sec ≤ s.gtc
    .next { s with mgmt := { s.mgmt with copies := s.mgmt.copies.filter fun c => !(c.src == src && c.key == key && old c.at_)
                                         asms := s.mgmt.asms.filter fun a => !(a.src == src && a.key == key && old a.asm.at_) } }

/-! ## Frames (R494, R495, R499, R504) -/

/-- R495: a body that is not one of its operation is answered with LENGTH. -/
def State.malformed (s : State) (src : OdSource) (seq op : Nat) : State :=
  s.gate_ src seq op 0xFFFF true [] fun _ s => s.answer src op seq rLength 0 []

/-- R495: the entries of a WRITE_MANY body. -/
def entriesOf : Nat → Bytes → Option (List (Nat × Nat × Bytes))
  | 0, b => if b.isEmpty then some [] else none
  | k + 1, b =>
    let n := fieldAt b 3 1
    if b.length < 4 + roundUp n 4 then none
    else (entriesOf k (b.drop (4 + roundUp n 4))).map fun l => (fieldAt b 0 2, fieldAt b 2 1, (b.drop 4).take n) :: l

/-- R495: a request that a frame carries is served. -/
def State.dispatchFrame (s : State) (src : OdSource) (f : Bytes) : State :=
  let op := fieldAt f 5 1
  let seq := fieldAt f 12 4
  let target := fieldAt f 18 2
  let b := f.drop 24
  if op = 0x10 && b.length = 12 then s.readRequest src seq target (fieldAt b 0 2) (fieldAt b 2 1) (fieldAt b 4 4) (fieldAt b 8 4)
  else if op = 0x11 && 16 ≤ b.length && b.length = 16 + fieldAt b 12 2 then
    s.writeReq src seq target (fieldAt b 0 2) (fieldAt b 2 1) (bit (fieldAt b 3 1) 0) (fieldAt b 4 4) (fieldAt b 8 4) (b.drop 16)
  else if op = 0x12 then
    (match entriesOf (fieldAt b 0 1) (b.drop 4) with
     | some es => s.manyRequest src seq target es
     | none => s.malformed src seq op)
  else if op = 0x13 && b.length = 4 then s.describeRequest src seq target (fieldAt b 0 2) (fieldAt b 2 1)
  else
    match src with
    | .session id => if op = 0x02 && b.isEmpty then s.closeRequest id seq else s.malformed src seq op
    | _ => s.malformed src seq op

/-- R494, R499: a well-formed frame, followed by `tag` bytes. -/
def frameOk (f : Bytes) (tag : Nat) : Bool :=
  24 + tag ≤ f.length && fieldAt f 0 4 == 0x4D444F41 && fieldAt f 4 1 == 1 && f.length == 24 + fieldAt f 16 2 + tag

/-- R499 to R501: MGMT_DATAGRAM_RECEIVE. -/
def execMgmtDatagramReceive (data : Bytes) (s : State) : Res :=
  whenEnclave s fun s =>
    if 1232 < data.length || s.sec.lc = 5 then .next s
    else if fieldAt data 5 1 = 0x01 then
      (if frameOk data 0 && data.length = 60 then
        .next (s.openRequest (fieldAt data 12 4) (fieldAt data 24 1) (fieldAt data 25 1) (sliceZ data 28 32))
       else .next s)
    else if !frameOk data 16 then .next s
    else
      let id := fieldAt data 8 4
      let f := data.take (data.length - 16)
      match Tbl.find s.mgmt.sessions id with
      | none => .next s.discardFrame
      | some x =>
        if odTag x.key f ≠ data.drop (data.length - 16) then .next s.discardFrame
        else if x.established && data = x.request then
          .next (State.emit { s with mgmt := { s.mgmt with sessions := Tbl.set s.mgmt.sessions id { x with at_ := s.gtc } } }
            (.datagram id x.response))
        else
          let s1 := s.dispatchFrame (.session id) f
          match Tbl.find s1.mgmt.sessions id with
          | none => .next s1
          | some y =>
            if s1.stored oAuthFailures ≠ s.stored oAuthFailures then .next s1
            else .next { s1 with mgmt := { s1.mgmt with sessions := Tbl.set s1.mgmt.sessions id { y with request := data } } }

/-- R504: REMOTE_OD_REQUEST: a frame that another device forwarded, or the response to one that this device forwarded. -/
def execRemoteOdRequest (data : Bytes) (s : State) : Res :=
  whenUp s fun s =>
    let f := data.drop 16
    let op := fieldAt f 5 1
    let seq := fieldAt f 12 4
    if !frameOk f 0 then .next (s.takeInbox data)
    else if 0x80 ≤ op then
      (match s.mgmt.forwards.find? fun x => x.op + 0x80 == op && x.seq == seq with
       | none => .next (s.takeInbox data)
       | some x => .next ((s.takeInbox data).answerForward x.num (fieldAt f 24 1) (fieldAt f 26 2) (f.drop 28)))
    else if !s.rm0Serves then .next s
    else
      let role := fieldAt data 2 1
      if 3 ≤ role then .next (s.takeInbox data)
      else
        let r : Role := if role = 0 then .operator else if role = 2 then .factory else .tenant (fieldAt data 4 4)
        .next ((s.takeInbox data).dispatchFrame (.remote (fieldAt data 0 2) r) f)

/-- R506: SETTINGS_APPLY: writes of the management port's settings that are 100 ms old take effect. -/
def execSettingsApply (s : State) : Res :=
  whenEnclave s fun s =>
    let ripe := s.mgmt.due.filter fun d => d.1 ≤ s.gtc
    .next { s with mgmt := { s.mgmt with due := s.mgmt.due.filter fun d => !(d.1 ≤ s.gtc)
                                         inForce := ripe.foldl (fun t d => Tbl.set t d.2.1 d.2.2) s.mgmt.inForce } }

/-- R506: T1S_LINK_CHANGE: T1S_LINK is 0 down, 1 up or 2 for a PLCA beacon that is absent. -/
def execT1sLinkChange (v : Nat) (s : State) : Res :=
  whenEnclave s fun s => if v < 3 then .next { s with mgmt := { s.mgmt with link := v } } else .next s

/-! ## Writes that have a row of their own -/

/-- R493: a whole write of one object, of a value that the row is about; another value is another row's. (DESIGN CHOICE, log entry 9) -/
def odRow (key : Nat) (own : Nat → Bool) (r : OdReq) (s : State) : Res :=
  whenEnclave s fun s =>
    let size := match rowOf key with | some x => x.size | none => 0
    if r.data.length = size && !own (leNat r.data) then .next s
    else .next (s.writeReq r.src r.seq 0xFFFF (key / 256) (key % 256) true 0 r.data.length r.data)

/-- The key of an object of an indexed block, or one that names no object where the index leaves the block. -/
def blockKey (ok : Bool) (key : Nat) : Nat := if ok then key else 0

/-- The object of one of the 64 streams. -/
def streamRow (n key : Nat) (own : Nat → Bool) (r : OdReq) (s : State) : Res := odRow (blockKey (n < 64) key) own r s

/-- R30: UNLOAD. -/
def execUnload (r : OdReq) (k : Nat) (s : State) : Res := odRow (blockKey (k < 16) (oUnload k)) (fun _ => true) r s

/-- R51: IMAGE_SLOT_WRITE. -/
def execImageSlotWrite (r : OdReq) (n : Nat) (s : State) : Res := streamRow n (oImageSlot n) (fun _ => true) r s

/-- R46, R47: SPLIT_MODE_WRITE: SPLIT_MODE, or SPLIT_CUT. -/
def execSplitModeWrite (r : OdReq) (n : Nat) (cut : Bool) (s : State) : Res :=
  streamRow n (if cut then oSplitCut n else oSplitMode n) (fun _ => true) r s

/-- R49: CLOCK_EXACT_WRITE. -/
def execClockExactWrite (r : OdReq) (n : Nat) (s : State) : Res := streamRow n (oClockExact n) (fun _ => true) r s

/-- R39, R547: STREAM_START. -/
def execStreamStart (r : OdReq) (n : Nat) (s : State) : Res := streamRow n (oControl n) (· == 1) r s

/-- R39, R233: STREAM_PAUSE. -/
def execStreamPause (r : OdReq) (n : Nat) (s : State) : Res := streamRow n (oControl n) (· == 2) r s

/-- R39: STREAM_RESUME. -/
def execStreamResume (r : OdReq) (n : Nat) (s : State) : Res := streamRow n (oControl n) (· == 3) r s

/-- R40: STREAM_STOP. -/
def execStreamStop (r : OdReq) (n : Nat) (s : State) : Res := streamRow n (oControl n) (· == 4) r s

/-- R40: PIPELINE_RESET. -/
def execPipelineReset (r : OdReq) (n : Nat) (s : State) : Res := streamRow n (oControl n) (· == 5) r s

/-- R39: STREAM_RELEASE. -/
def execStreamRelease (r : OdReq) (n : Nat) (s : State) : Res := streamRow n (oControl n) (· == 6) r s

/-- R192: THRESH_EPOCH_WRITE. -/
def execThreshEpochWrite (r : OdReq) (n : Nat) (s : State) : Res := streamRow n (oThreshEpoch n) (fun _ => true) r s

/-- R232: SNAP_CONTROL. -/
def execSnapControl (r : OdReq) (n : Nat) (s : State) : Res := streamRow n (oSnapControl n) (fun _ => true) r s

/-- R420: PARTNER_WRITE. -/
def execPartnerWrite (r : OdReq) (n : Nat) (s : State) : Res := streamRow n (oPartner n) (fun _ => true) r s

/-- R435: MOVE_TO. -/
def execMoveTo (r : OdReq) (n : Nat) (s : State) : Res := streamRow n (oMoveTo n) (fun _ => true) r s

/-- R259: POOL_PLACE_WRITE. -/
def execPoolPlaceWrite (r : OdReq) (p : Nat) (s : State) : Res := odRow (blockKey (p < 64) (oPoolPlace p)) (fun _ => true) r s

/-- R258: RECLAIM. -/
def execReclaim (r : OdReq) (p : Nat) (s : State) : Res := odRow (blockKey (p < 64) (oReclaim p)) (fun _ => true) r s

/-- R383: SHAPER_PARAM_WRITE: subindex 1 CIR, 2 CBS, 3 PIR, 4 PBS of queue q. -/
def execShaperParamWrite (r : OdReq) (q sub : Nat) (s : State) : Res :=
  odRow (blockKey (q < 176 && 1 ≤ sub && sub ≤ 4) (keyOf (0x5100 + q) sub)) (fun _ => true) r s

/-- R390: CONFIG_CHANGE. -/
def execConfigChange (r : OdReq) (g : Nat) (s : State) : Res := odRow (blockKey (g < 9) (oConfigChange g)) (fun _ => true) r s

/-- R412: DOMAIN_TARGET_WRITE. -/
def execDomainTargetWrite (r : OdReq) (d : Nat) (s : State) : Res := odRow (blockKey (d < 72) (oDomainTarget d)) (fun _ => true) r s

/-- R438: REJOIN. -/
def execRejoin (r : OdReq) (s : State) : Res := odRow oRejoin (fun _ => true) r s

/-- R439: DOMAIN_RESET. -/
def execDomainReset (r : OdReq) (s : State) : Res := odRow oDomainReset (fun _ => true) r s

/-- R440: SIM_DEATH. -/
def execSimDeath (r : OdReq) (s : State) : Res := odRow oHook (· == 1) r s

/-- R440: PORT_DOWN. -/
def execPortDown (r : OdReq) (s : State) : Res := odRow oHook (· == 2) r s

/-- R440: RM_HANG. -/
def execRmHang (r : OdReq) (s : State) : Res := odRow oHook (· == 3) r s

/-- R440: CARAVAN_LOSS. -/
def execCaravanLoss (r : OdReq) (s : State) : Res := odRow oHook (· == 4) r s

/-- R440: HOOK_END. -/
def execHookEnd (r : OdReq) (s : State) : Res := odRow oHook (· == 0) r s

/-- R445, R446: LC_STATE_WRITE. -/
def execLcStateWrite (r : OdReq) (s : State) : Res := odRow oLcState (fun _ => true) r s

/-- R445: LC_AUTH_WRITE. -/
def execLcAuthWrite (r : OdReq) (s : State) : Res := odRow oLcAuth (fun _ => true) r s

/-- R452: EVIDENCE_REQ. -/
def execEvidenceReq (r : OdReq) (s : State) : Res := odRow oEvidenceReq (fun _ => true) r s

/-- R455: KIND of a release message. -/
def releaseKind (v : Nat) : Nat := v / 2 ^ 48 % 256

/-- R456: MODEL_KEY_RELEASE: KIND 0. -/
def execModelKeyRelease (r : OdReq) (s : State) : Res := odRow oKeyRelease (fun v => releaseKind v == 0) r s

/-- R456: SNAPSHOT_KEY_RELEASE: KIND 1. -/
def execSnapshotKeyRelease (r : OdReq) (s : State) : Res := odRow oKeyRelease (fun v => releaseKind v == 1) r s

/-- R459: WITHDRAW: KIND 2. -/
def execWithdraw (r : OdReq) (s : State) : Res := odRow oKeyRelease (fun v => releaseKind v == 2) r s

/-- R461: SCRUB_TENANT_SCOPE. -/
def execScrubTenantScope (r : OdReq) (s : State) : Res := odRow oScrubTenant (fun v => v ≠ 0xFFFFFFFF) r s

/-- R461: SCRUB_DEVICE_SCOPE. -/
def execScrubDeviceScope (r : OdReq) (s : State) : Res := odRow oScrubTenant (· == 0xFFFFFFFF) r s

/-- R479: HU_TEST_NOW. -/
def execHuTestNow (r : OdReq) (s : State) : Res := odRow oHuTestNow (fun _ => true) r s

/-- R241: GTC_ROOT_WRITE. -/
def execGtcRootWrite (r : OdReq) (s : State) : Res := odRow oGtcRoot (fun _ => true) r s

/-- R520: WARM_RESET. -/
def execWarmReset (r : OdReq) (s : State) : Res := odRow oWarmReset (fun _ => true) r s

/-- R529: BIST_RUN. -/
def execBistRun (r : OdReq) (s : State) : Res := odRow oBistRun (fun _ => true) r s

/-- R527: SCAN_RUN. -/
def execScanRun (r : OdReq) (s : State) : Res := odRow oScanRun (fun _ => true) r s

end Sys2Proof.Machine
end

