-- ==== Sys2Proof/Machine/Nvme.lean ====
section
/-! DEFINITION. The NVMe controller: its queues and its enabling (R310, R311, R518), the standard admin commands of R335,
the log pages of R308 and R348, namespaces (R336, R337) and firmware (R460). Opcodes and dword fields that the spec does
not repeat are those of the NVM Express specifications that R334 names. -/

namespace Sys2Proof.Machine

open Sys2Proof

/-! ## Queues (R310, R334, R335) -/

/-- R334: the most I/O queue pairs. -/
def maxQueues : Nat := 1024
/-- R334: the most entries of a queue, CAP.MQES + 1. -/
def maxEntries : Nat := 4096

/-- R348: waiting asynchronous events answer outstanding requests while the admin completion queue has room. -/
def State.pumpEvents (s : State) : State :=
  (List.range s.host.events.length).foldl (fun (s : State) _ =>
    match s.host.events with
    | e :: r =>
      if s.host.aers.isEmpty || s.cqFree 0 = 0 then s
      else State.asyncEvent { s with host := { s.host with events := r } } e.1 e.2.1 e.2.2
    | [] => s) s

/-- R310: NVME_SQ_DOORBELL: the tail of a submission queue; a value beyond the queue, or a queue that does not exist, is
ignored. -/
def execNvmeSqDoorbell (q tail : Nat) (s : State) : Res :=
  whenUp s fun s =>
    match Tbl.find s.host.sqs q with
    | some x =>
      if tail < x.size then .next { s with host := { s.host with sqs := Tbl.set s.host.sqs q { x with tail := tail } } } else .next s
    | none => .next s

/-- R310: NVME_CQ_DOORBELL: the head of a completion queue. -/
def execNvmeCqDoorbell (q head : Nat) (s : State) : Res :=
  whenUp s fun s =>
    match Tbl.find s.host.cqs q with
    | some x =>
      if head < x.size then
        .next (State.pumpEvents { s with host := { s.host with cqs := Tbl.set s.host.cqs q { x with head := head } } })
      else .next s
    | none => .next s

/-- R335: the host die's NVMe controller without its queues, features, events and transfers. (PRESUMED, log entry 132) -/
def HostSt.disabled (h : HostSt) : HostSt :=
  { h with enabled := false, ready := false, sqs := [], cqs := [], features := [], aers := [], events := [], aborts := [], throughs := []
           loads := [], restores := [], fwBuf := [], fwLen := 0 }

/-- R334, R518: the admin queues that AQA, ASQ and ACQ describe. -/
def HostSt.withAdmin (h : HostSt) : HostSt :=
  let aqa := Tbl.get h.nvmeRegs 0 0x24
  { h with sqs := [(0, { size := bits aqa 11 0 + 1, base := Tbl.get h.nvmeRegs 0 0x28 })]
           cqs := [(0, { size := bits aqa 27 16 + 1, base := Tbl.get h.nvmeRegs 0 0x30, ien := true })] }

/-- R518: CONTROLLER_ENABLE: CC.EN. CSTS.RDY is set at once when step 7 of the start is complete, else when it completes
(R286). A clear resets the controller. -/
def execControllerEnable (en : Bool) (s : State) : Res :=
  whenUp s fun s =>
    if s.host.perst || en == s.host.enabled then .next s
    else if en then
      .next { s with host := { s.host.withAdmin with enabled := true, ready := s.sys.step == 0 || 8 ≤ s.sys.step } }
    else .next (State.forgetCommands { s with host := s.host.disabled })

/-! ## Identify (R334, R335) -/

/-- R335: a data structure with bytes from an offset replaced. -/
def patch (b : Bytes) (off : Nat) (x : Bytes) : Bytes := b.take off ++ x ++ b.drop (off + x.length)

/-- R334: the fields of the Identify Controller data that the spec states: MDTS, NN and VWC. (PRESUMED, log entry 116) -/
def identifyController : Bytes :=
  patch (patch (patch (sliceZ (Config.nvmeData 0 1 4096) 0 4096) 77 (leBytes 1 6)) 516 (leBytes 4 256)) 525 (leBytes 1 0)

/-- R334, R336: the fields of the Identify Namespace data that the spec states: NSZE, NCAP, one LBA format of 4,096 bytes
without metadata or protection information, NAWUN and NAWUPF. -/
def Namespace.identify (x : Namespace) (nsid : Nat) : Bytes :=
  let n := x.extents.length * 262144
  let w := if x.cls = 0 then 63 else 0
  let b0 := sliceZ (Config.nvmeData 1 nsid 4096) 0 4096
  let b1 := patch (patch b0 0 (leBytes 8 n ++ leBytes 8 n)) 25 (zeros 5)
  patch (patch b1 34 (leBytes 2 w ++ leBytes 2 w)) 128 (zeros 2 ++ leBytes 1 12)

/-- R335: NSIDs above one, increasing, as a list of 4 KiB. -/
def nsidList (l : List Nat) (above : Nat) : Bytes :=
  sliceZ (((l.filter fun k => above < k).take 1024).flatMap (leBytes 4)) 0 4096

/-- R335: what Identify returns for a CNS value, or the status code of its refusal. -/
def State.identify (s : State) (cns nsid : Nat) : Except Nat Bytes :=
  let all := s.host.nss.map Prod.fst
  let live := all.filter s.host.attached.contains
  if cns = 0 || cns = 0x11 then
    (if nsid = 0xFFFFFFFF then .ok (sliceZ (Config.nvmeData 1 nsid 4096) 0 4096)
     else if nsid = 0 || 256 < nsid then .error 0x0B
     else
       match s.ns nsid with
       | some x => if cns = 0x11 || live.contains nsid then .ok (x.identify nsid) else .ok (zeros 4096)
       | none => .ok (zeros 4096))
  else if cns = 1 then .ok identifyController
  else if cns = 2 then .ok (nsidList live nsid)
  else if cns = 3 then
    (if live.contains nsid then .ok (sliceZ (Config.nvmeData 3 nsid 4096) 0 4096) else .error 0x0B)
  else if cns = 0x10 then .ok (nsidList all nsid)
  else if cns = 0x12 || cns = 0x13 then .ok (sliceZ (Config.nvmeData cns nsid 4096) 0 4096)
  else .error 0x02

/-- R335: NVME_IDENTIFY. -/
def execNvmeIdentify (c : NvmeCmd) (s : State) : Res :=
  nvmeRun true c s fun s =>
    match s.identify (bits c.cdw10 7 0) c.nsid with
    | .ok b => s.nvmeOk c 0 b
    | .error e => s.nvmeErr c 0 e

/-! ## Log pages (R308, R348) -/

/-- R348: an entry of Error Information: submission queue, identifier and status. -/
def errorEntry (i : Nat) (e : Nat × Nat × Nat) : Bytes :=
  patch (sliceZ (Config.nvmeData 4 i 64) 0 64) 8 (leBytes 2 e.1 ++ leBytes 2 e.2.1 ++ leBytes 2 (2 * e.2.2))

/-- R308, R482: SMART / Health Information. -/
def State.smartLog (s : State) : Bytes :=
  let b := sliceZ (Config.nvmeData 5 0 512) 0 512
  let keep := fieldAt b 0 1 &&& 0xE2
  let temp := ((toSigned 8 (s.odValue oTempNow)) + 273).toNat
  patch (patch b 0 (leBytes 1 (keep + s.criticalWarning) ++ leBytes 2 temp ++ leBytes 1 (s.sparePermille / 10) ++
    leBytes 1 (s.stored oSpareThreshold / 10) ++ leBytes 1 (s.odValue oWearUsed))) 160 (leBytes 16 (s.stored oUncorrectable))

/-- R348: Firmware Slot Information: the slot that runs and the one of the next reset. -/
def State.firmwareLog (s : State) : Bytes :=
  let next := match s.sec.commit with | some k => k + 1 | none => 0
  patch (sliceZ (Config.nvmeData 6 0 512) 0 512) 0 (leBytes 1 (s.sec.active + 1 + 16 * next))

/-- R308, R348: the objects of a range of indices, in object order, each at its type's size. -/
def State.objectLog (s : State) (base span : Nat) : Bytes :=
  (List.range span).flatMap fun i =>
    (odTable.filter fun r => r.base ≤ base + i && base + i < r.base + r.span).flatMap fun r =>
      (List.range r.subs).flatMap fun j => s.odBytes ((base + i) * 256 + r.sub + j)

/-- R308: a record of the patrol report. (DESIGN CHOICE, log entry 130) -/
def patrolRecord (r : Nat × Nat × Nat × Nat) : Bytes :=
  leBytes 8 r.1 ++ leBytes 5 r.2.1 ++ leBytes 5 r.2.2.1 ++ leBytes 1 r.2.2.2 ++ zeros 5

/-- R308, R348: a log page; none for an identifier that is not supported. -/
def State.logPage (s : State) (id : Nat) : Option Bytes :=
  match id with
  | 0x01 => some (sliceZ (s.host.errors.zipIdx.flatMap fun e => errorEntry e.2 e.1) 0 4096)
  | 0x02 => some s.smartLog
  | 0x03 => some s.firmwareLog
  | 0x04 => some (nsidList s.host.changed 0)
  | 0x05 => some (sliceZ (Config.nvmeData 7 0 4096) 0 4096)
  | 0xC0 => some (s.objectLog 0x3800 1 ++ s.objectLog 0x3810 16)
  | 0xC1 => some (s.flash.report.flatMap patrolRecord)
  | 0xC2 => some (((List.range 21).flatMap fun i => s.odBytes (oTempHist i)) ++ s.odBytes oTempNow)
  | 0xC3 => some (s.objectLog 0x4000 1 ++ s.objectLog 0x4100 64)
  | _ => none

/-- R308, R348: NVME_GET_LOG_PAGE. A read of the Changed Namespace List that does not retain the event clears the list. -/
def execNvmeGetLogPage (c : NvmeCmd) (s : State) : Res :=
  nvmeRun true c s fun s =>
    let id := bits c.cdw10 7 0
    let n := 4 * (bits c.cdw10 31 16 + 65536 * bits c.cdw11 15 0 + 1)
    let off := c.cdw12 + 2 ^ 32 * c.cdw13
    match s.logPage id with
    | none => s.nvmeErr c 1 0x09
    | some b =>
      if b.length < off then s.nvmeErr c 0 0x02
      else
        let s1 := if id = 4 && !bit c.cdw10 15 then { s with host := { s.host with changed := [] } } else s
        s1.nvmeOk c 0 ((b.drop off).take n)

/-! ## Features (R335) -/

/-- R335: the features that the controller supports. -/
def isFeature (f : Nat) : Bool := f == 1 || f == 2 || f == 7 || f == 8 || f == 0x0B

/-- R334, R335: the value of a feature: Number of Queues allots every pair; the others are as set, or as the published
standard and the device give them. -/
def State.feature (s : State) (f : Nat) (current : Bool) : Nat :=
  if f = 7 then (maxQueues - 1) + 65536 * (maxQueues - 1)
  else if current then (Tbl.find s.host.features f).getD (fieldAt (Config.nvmeData 8 f 4) 0 4)
  else fieldAt (Config.nvmeData 8 f 4) 0 4

/-- R335: NVME_GET_FEATURES. -/
def execNvmeGetFeatures (c : NvmeCmd) (s : State) : Res :=
  nvmeRun true c s fun s =>
    let f := bits c.cdw10 7 0
    let sel := bits c.cdw10 10 8
    if !isFeature f then s.nvmeErr c 0 0x02
    else if sel = 3 then s.nvmeOk c (fieldAt (Config.nvmeData 9 f 4) 0 4) []
    else s.nvmeOk c (s.feature f (sel = 0)) []

/-- R335: NVME_SET_FEATURES. (DESIGN CHOICE, log entry 123) -/
def execNvmeSetFeatures (c : NvmeCmd) (s : State) : Res :=
  nvmeRun true c s fun s =>
    let f := bits c.cdw10 7 0
    if !isFeature f then s.nvmeErr c 0 0x02
    else if f = 7 then s.nvmeOk c (s.feature 7 true) []
    else State.nvmeOk { s with host := { s.host with features := Tbl.set s.host.features f c.cdw11 } } c 0 []

/-! ## I/O queues, abort and event requests (R311, R335, R348) -/

/-- R335: an I/O queue number that may be created: 1 to 1,024 and not in use. -/
def queueNumberOk (q : Nat) (used : Bool) : Bool := 1 ≤ q && q ≤ maxQueues && !used

/-- R335: NVME_CREATE_IO_SQ. -/
def execNvmeCreateIoSq (c : NvmeCmd) (s : State) : Res :=
  nvmeRun true c s fun s =>
    let q := bits c.cdw10 15 0
    let n := bits c.cdw10 31 16
    let cq := bits c.cdw11 31 16
    if !queueNumberOk q (Tbl.find s.host.sqs q).isSome then s.nvmeErr c 1 0x01
    else if cq = 0 || (Tbl.find s.host.cqs cq).isNone then s.nvmeErr c 1 0x00
    else if n = 0 || maxEntries ≤ n then s.nvmeErr c 1 0x02
    else
      State.nvmeOk { s with host := { s.host with sqs := Tbl.set s.host.sqs q { size := n + 1, cq := cq, base := c.prp } } } c 0 []

/-- R311, R335: NVME_CREATE_IO_CQ, which refuses the vectors of the mailbox channels. -/
def execNvmeCreateIoCq (c : NvmeCmd) (s : State) : Res :=
  nvmeRun true c s fun s =>
    let q := bits c.cdw10 15 0
    let n := bits c.cdw10 31 16
    let v := bits c.cdw11 31 16
    if !queueNumberOk q (Tbl.find s.host.cqs q).isSome then s.nvmeErr c 1 0x01
    else if n = 0 || maxEntries ≤ n then s.nvmeErr c 1 0x02
    else if 1984 ≤ v then s.nvmeErr c 1 0x08
    else
      let x : CQueue := { size := n + 1, vector := v, base := c.prp, ien := bit c.cdw11 1 }
      State.nvmeOk { s with host := { s.host with cqs := Tbl.set s.host.cqs q x } } c 0 []

/-- R335: NVME_DELETE_IO_SQ: the completions that its commands still owe are not posted. -/
def execNvmeDeleteIoSq (c : NvmeCmd) (s : State) : Res :=
  nvmeRun true c s fun s =>
    let q := bits c.cdw10 15 0
    if q = 0 || (Tbl.find s.host.sqs q).isNone then s.nvmeErr c 1 0x01
    else State.nvmeOk { s with host := { s.host with sqs := Tbl.del s.host.sqs q
                                                     throughs := s.host.throughs.filter fun w => w.sq ≠ q } } c 0 []

/-- R335: NVME_DELETE_IO_CQ. -/
def execNvmeDeleteIoCq (c : NvmeCmd) (s : State) : Res :=
  nvmeRun true c s fun s =>
    let q := bits c.cdw10 15 0
    if q = 0 || (Tbl.find s.host.cqs q).isNone then s.nvmeErr c 1 0x01
    else if s.host.sqs.any fun x => x.2.cq == q then s.nvmeErr c 1 0x0C
    else State.nvmeOk { s with host := { s.host with cqs := Tbl.del s.host.cqs q } } c 0 []

/-- R335: NVME_ABORT, for commands not yet started: a command that runs is not aborted. Whether an entry that waits in the
queue, in host memory, carries the identifier is free. (DESIGN CHOICE, log entry 122) -/
def execNvmeAbort (c : NvmeCmd) (s : State) : Res :=
  nvmeRun true c s fun s =>
    let q := bits c.cdw10 15 0
    let id := bits c.cdw10 31 16
    let x := Tbl.get s.host.sqs {} q
    let ahead := (x.tail + x.size - x.head) % max 1 x.size
    if x.busy.contains id || ahead = 0 then s.nvmeOk c 1 []
    else
      let d := s.draw
      if Config.freeBool d.1 then
        State.nvmeOk { d.2 with host := { d.2.host with aborts := d.2.host.aborts ++ [(q, id, ahead)] } } c 0 []
      else d.2.nvmeOk c 1 []

/-- R348: ASYNCHRONOUS_EVENT_REQUEST: answered by the oldest event that waits, else when one happens. (DESIGN CHOICE, log entry 121) -/
def execAsynchronousEventRequest (c : NvmeCmd) (s : State) : Res :=
  nvmeRun true c s fun s => State.pumpEvents { s with host := { s.host with aers := s.host.aers ++ [c.cid] } }

/-! ## Namespaces (R280, R281, R336, R337) -/

/-- R280: n extents that no namespace holds, the lowest first. -/
def State.freeExtents (s : State) (n : Nat) : List Nat :=
  ((List.range (s.host.extents.length + n)).filter fun e => !s.host.extents.contains e).take n

/-- R337: the lowest NSID that is not in use. -/
def State.freeNsid (s : State) : Option Nat := ((List.range 256).map (· + 1)).find? fun k => (s.ns k).isNone

/-- R337: the NSID of a namespace of g extents that may be created, or the status code of its refusal. -/
def State.createCheck (s : State) (g : Nat) : Except Nat Nat :=
  if s.formattable < s.formatted + g * gib then .error 0x15
  else
    match s.freeNsid with
    | some k => .ok k
    | none => .error 0x16

/-- R280, R334, R449: a namespace is created with g extents and a media key, and attached to the controller. -/
def State.addNamespace (s : State) (nsid g : Nat) (x : Namespace) : State :=
  let es := s.freeExtents g
  State.settleSpares
    { s with host := { s.host with nss := Tbl.set s.host.nss nsid { x with extents := es, key := s.host.keyGen }
                                   extents := s.host.extents ++ es, attached := s.host.attached ++ [nsid]
                                   keyGen := s.host.keyGen + 1 } }

/-- R337: JOURNAL namespaces. -/
def State.journals (s : State) : Nat := (s.host.nss.filter fun x => x.2.cls == 1).length

/-- R336, R337: the create of a NORMAL or JOURNAL namespace. (DESIGN CHOICE, log entry 124) -/
def State.createNamespace (s : State) (c : NvmeCmd) : State :=
  let size := fieldAt c.data 0 8
  let cls := fieldAt c.data 3072 1
  if size ≠ fieldAt c.data 8 8 || 2 ≤ cls then s.nvmeErr c 0 0x02
  else if cls = 1 && s.stored oJournalGrant ≤ s.journals then s.nvmeErr c 0 0x02
  else
    let g := ceilDiv size 262144
    match s.createCheck g with
    | .error e => s.nvmeErr c 1 e
    | .ok k => (s.addNamespace k g { cls := cls, tenant := fieldAt c.data 3076 4 }).nvmeOk c k []

/-- R335: the namespaces that a command names: one, or all. -/
def State.named (s : State) (nsid : Nat) : List (Nat × Namespace) :=
  if nsid = 0xFFFFFFFF then s.host.nss else s.host.nss.filter fun x => x.1 == nsid

/-- R336, R337: NAMESPACE_MANAGEMENT: SEL 0 creates, SEL 1 deletes. -/
def execNamespaceManagement (c : NvmeCmd) (s : State) : Res :=
  nvmeRun true c s fun s =>
    match bits c.cdw10 3 0 with
    | 0 => s.createNamespace c
    | 1 =>
      let l := s.named c.nsid
      if l.isEmpty && c.nsid ≠ 0xFFFFFFFF then s.nvmeErr c 0 0x0B
      else (l.foldl (fun (s : State) x => s.dropNamespace x.1 x.2) s).nvmeOk c 0 []
    | _ => s.nvmeErr c 0 0x02

/-- R334, R335: NAMESPACE_ATTACHMENT to the one controller. -/
def execNamespaceAttachment (c : NvmeCmd) (s : State) : Res :=
  nvmeRun true c s fun s =>
    let on := s.host.attached.contains c.nsid
    if (s.ns c.nsid).isNone then s.nvmeErr c 0 0x0B
    else
      match bits c.cdw10 3 0 with
      | 0 =>
        if on then s.nvmeErr c 1 0x18
        else State.nvmeOk { s with host := { s.host with attached := s.host.attached ++ [c.nsid] } } c 0 []
      | 1 =>
        if !on then s.nvmeErr c 1 0x1A
        else State.nvmeOk { s with host := { s.host with attached := s.host.attached.filter (· ≠ c.nsid) } } c 0 []
      | _ => s.nvmeErr c 0 0x02

/-- R335, R449: one namespace is formatted: every page deallocated, and with SES 2 a new media key. (DEDUCED, log entry 125) -/
def State.formatOne (s : State) (erase : Bool) (x : Nat × Namespace) : State :=
  let s1 := s.dropPages x.2
  if erase then
    { s1 with host := { s1.host with nss := Tbl.set s1.host.nss x.1 { x.2 with key := s1.host.keyGen }, keyGen := s1.host.keyGen + 1 } }
  else s1

/-- R335, R342: FORMAT_NVM with SES 0 or 2. A CORPUS namespace takes INGEST only. -/
def execFormatNvm (c : NvmeCmd) (s : State) : Res :=
  nvmeRun true c s fun s =>
    let ses := bits c.cdw10 11 9
    let l := s.named c.nsid
    if l.isEmpty then s.nvmeErr c 0 0x0B
    else if !(ses == 0 || ses == 2) || l.any (fun x => x.2.cls == 2) then s.nvmeErr c 0 0x02
    else if bits c.cdw10 3 0 ≠ 0 then s.nvmeErr c 1 0x0A
    else if s.domOff 2 || l.any (fun x => s.scrubs x.2.tenant) then s.nvmeErr c 0 0x82 false
    else if s.flash.readOnly then s.nvmeErr c 0 0x20
    else ((l.foldl (State.formatOne · (ses == 2) ·) s).followPools).nvmeOk c 0 []

/-! ## Firmware (R335, R460) -/

/-- R335: FIRMWARE_IMAGE_DOWNLOAD: a portion of an image. -/
def execFirmwareImageDownload (c : NvmeCmd) (s : State) : Res :=
  nvmeRun true c s fun s =>
    let n := 4 * (c.cdw10 + 1)
    let off := 4 * c.cdw11
    if 262144 < n then s.nvmeErr c 0 0x02
    else
      State.nvmeOk { s with host := { s.host with fwBuf := Memory.writeN s.host.fwBuf off (sliceZ c.data 0 n)
                                                  fwLen := max s.host.fwLen (off + n) } } c 0 []

/-- R460: the firmware slot of a commit: FS 1 or 2, or with FS 0 the slot that does not run. (DESIGN CHOICE, log entry 126) -/
def State.commitSlot (s : State) (fs : Nat) : Option Nat :=
  match fs with
  | 0 => some (1 - s.sec.active)
  | 1 => some 0
  | 2 => some 1
  | _ => none

/-- R460: the security version of an image that the enclave accepts. -/
def State.acceptFirmware (s : State) (b : Bytes) : Option Nat :=
  match Config.fwVerify b with
  | some v => if s.sec.svn ≤ v && v ≤ 256 then some v else none
  | none => none

/-- R454, R465, R519, R520: a firmware slot becomes the one of the next reset; with commit action 3 that reset begins at
once, or after step 6 of a scrub. -/
def State.stage (s : State) (k action : Nat) : State :=
  if action = 0 then s
  else { s with sec := { s.sec with commit := some k, waits := s.sec.waits || (action == 3 && s.sec.scrub.isSome) } }

/-- R335, R454, R460: FIRMWARE_COMMIT, staged by Ringmaster 2. Actions 0, 1 and 3 store the downloaded image, if there is
one for action 3; action 2 takes the image of the slot. -/
def execFirmwareCommit (c : NvmeCmd) (s : State) : Res :=
  whenRm 2 s fun s => nvmeRun true c s fun s =>
    let action := bits c.cdw10 5 3
    if 3 < action then s.nvmeErr c 0 0x02
    else
      match s.commitSlot (bits c.cdw10 2 0) with
      | none => s.nvmeErr c 1 0x06
      | some k =>
        let fresh := action ≠ 2 && !(action = 3 && s.host.fwLen = 0)
        let b := if fresh then Memory.readN s.host.fwBuf 0 s.host.fwLen else (Tbl.get s.sec.fw {} k).image
        match s.acceptFirmware b with
        | none => s.nvmeErr c 1 0x07
        | some v =>
          let x : FwSlot := { image := b, svn := v, version := (Config.fwVersionOf b).toNat }
          let s1 := { s with sec := { s.sec with fw := Tbl.set s.sec.fw k x }
                             host := { s.host with fwBuf := [], fwLen := 0 } }
          let s2 := (s1.stage k action).nvmeOk c 0 []
          if action = 3 && s.sec.scrub.isNone then s2.beginWarm 4 else s2

end Sys2Proof.Machine
end

