-- ==== Sys2Proof/Machine/NvmeIo.lean ====
section
/-! DEFINITION. The I/O commands of the NVMe controller (R335, R342 to R347): Read, Write with its write-through, Flush,
Dataset Management and Write Zeroes. -/

namespace Sys2Proof.Machine

open Sys2Proof

/-! ## The gate of an I/O command (R335, R342) -/

/-- R335: a namespace that is attached to the controller. -/
def State.attachedNs (s : State) (nsid : Nat) : Option Namespace := if s.host.attached.contains nsid then s.ns nsid else none

/-- R342, R413: an I/O command on a namespace: Namespace Not Ready during a scrub of its tenant or with the FLASH domain OFF;
a sleeping domain wakes and the command waits; `waits` says when it waits for another reason. -/
def nvmeIo (c : NvmeCmd) (s : State) (waits : Namespace → State → Bool) (f : Namespace → State → State) : Res :=
  match s.attachedNs c.nsid with
  | none => nvmeRun false c s fun s => s.nvmeErr c 0 0x0B
  | some x =>
    if s.scrubs x.tenant || s.domOff 2 then nvmeRun false c s fun s => s.nvmeErr c 0 0x82 false
    else if !s.flashOn then
      whenUp s fun s => if c.sq ≠ 0 && s.nvmeCanTake c then .next (s.touch 2) else .next s
    else if waits x s then .next s
    else nvmeRun false c s fun s => f x s

/-- R335: SLBA of a command. -/
def NvmeCmd.slba (c : NvmeCmd) : Nat := c.cdw10 + 2 ^ 32 * c.cdw11
/-- R335: number of logical blocks of a command. -/
def NvmeCmd.blocks (c : NvmeCmd) : Nat := bits c.cdw12 15 0 + 1
/-- R335: a range of blocks lies in a namespace. -/
def Namespace.holds (x : Namespace) (lba n : Nat) : Bool := lba + n ≤ x.extents.length * 262144
/-- R280: the pages of a range of blocks of a namespace. -/
def Namespace.lpns (x : Namespace) (lba n : Nat) : List Nat := (List.range n).filterMap fun i => x.lpn (lba + i)

/-! ## Read (R280, R342, R344) -/

/-- R334: the blocks of MDTS. -/
def mdtsBlocks : Nat := 64

/-- R280, R342: NVME_READ: a page that is LOST or does not decode ends it with Unrecovered Read Error. -/
def execNvmeRead (c : NvmeCmd) (s : State) : Res :=
  nvmeIo c s (fun _ _ => false) fun x s =>
    if mdtsBlocks < c.blocks then s.nvmeErr c 0 0x02
    else if !x.holds c.slba c.blocks then s.nvmeErr c 0 0x80
    else
      match s.readPages x c.slba c.blocks with
      | some d => (s.count oFlashReadBytes d.length).nvmeOk c 0 d
      | none => s.nvmeErr c 2 0x81

/-! ## Write (R290, R301, R342 to R347, R482) -/

/-- R342: the status with which a write of a namespace is refused: code type and code. -/
def State.writeRefused (s : State) (c : NvmeCmd) (x : Namespace) : Option (Nat × Nat) :=
  if x.cls = 2 || mdtsBlocks < c.blocks then some (0, 0x02)
  else if !x.holds c.slba c.blocks then some (0, 0x80)
  else if s.flash.readOnly then some (0, 0x20)
  else none

/-- R346, R482: a write goes through to flash: with FUA, or when the allowance has no room. -/
def State.goesThrough (s : State) (c : NvmeCmd) : Bool := bit c.cdw12 30 || !s.inAllowance (4096 * c.blocks)

/-- R290: a write waits while garbage collection can free space, or until the flush region is erased. -/
def State.writeWaits (s : State) (c : NvmeCmd) (x : Namespace) : Bool :=
  (s.writeRefused c x).isNone &&
  (if s.goesThrough c then !decide (4096 * c.blocks < s.freeCapacity) else !s.bufferRoom (x.cls == 1) (4096 * c.blocks))

/-- R345, R346: an admitted write: in the write buffer, where its completion is posted, or write-through. -/
def State.admitWrite (s : State) (c : NvmeCmd) (x : Namespace) : State :=
  let pages := (x.lpns c.slba c.blocks).zipIdx.map fun p => (p.1, sliceZ c.data (4096 * p.2) 4096)
  let s1 := s.count oNvmeWriteBytes (4096 * c.blocks)
  if s.goesThrough c then
    let w : WriteThrough := { sq := c.sq, cid := c.cid, pages := pages, key := x.key, journal := x.cls == 1 }
    State.count { s1 with host := { s1.host with throughs := s1.host.throughs ++ [w] } } oWriteThrough 1
  else State.nvmeOk { s1 with flash := s1.flash.admitPages pages (x.cls == 1) x.key } c 0 []

/-- R342, R345, R346: NVME_WRITE. -/
def execNvmeWrite (c : NvmeCmd) (s : State) : Res :=
  nvmeIo c s (fun x s => s.writeWaits c x) fun x s =>
    match s.writeRefused c x with
    | some e => s.nvmeErr c e.1 e.2
    | none => s.admitWrite c x

/-- R301, R346: WRITE_THROUGH_DONE: the pages are programmed and mapped and the completion is posted; a write that waits when
the last pool closes ends with Namespace is Write Protected. -/
def execWriteThroughDone (sq cid : Nat) (s : State) : Res :=
  withFlash s fun s =>
    match s.host.throughs.find? fun w => w.sq == sq && w.cid == cid with
    | none => .next s
    | some w =>
      let drop (s : State) : State :=
        { s with host := { s.host with throughs := s.host.throughs.filter fun (v : WriteThrough) => !(v.sq == sq && v.cid == cid) } }
      match s.programPages w.journal w.key w.pages with
      | some s1 => .next ((drop s1).complete sq cid 0 0 false 0 [])
      | none => if s.flash.readOnly then .next ((drop s).complete sq cid 0 0x20 true 0 []) else .next s

/-! ## Flush, deallocation (R335, R342, R346) -/

/-- R346: NVME_FLUSH completes at once: posted data is safe. -/
def execNvmeFlush (c : NvmeCmd) (s : State) : Res := nvmeRun false c s fun s => s.nvmeOk c 0 []

/-- R335: the ranges of a Dataset Management command: first block and blocks. -/
def NvmeCmd.ranges (c : NvmeCmd) : List (Nat × Nat) :=
  (List.range (bits c.cdw10 7 0 + 1)).map fun i => (fieldAt c.data (16 * i + 8) 8, fieldAt c.data (16 * i + 4) 4)

/-- R295, R303: blocks of a namespace are deallocated, and the pools' states follow. -/
def State.deallocate (s : State) (lpns : List Nat) : State := (s.freePages lpns).followPools

/-- R335, R342: DATASET_MANAGEMENT, whose deallocate is its only effect. -/
def execDatasetManagement (c : NvmeCmd) (s : State) : Res :=
  nvmeIo c s (fun _ _ => false) fun x s =>
    let rs := c.ranges
    if !bit c.cdw11 2 then s.nvmeOk c 0 []
    else if x.cls = 2 then s.nvmeErr c 0 0x02
    else if rs.any fun r => !x.holds r.1 r.2 then s.nvmeErr c 0 0x80
    else (s.deallocate (rs.flatMap fun r => x.lpns r.1 r.2)).nvmeOk c 0 []

/-- R335, R342: WRITE_ZEROES, which deallocates. -/
def execWriteZeroes (c : NvmeCmd) (s : State) : Res :=
  nvmeIo c s (fun _ _ => false) fun x s =>
    if x.cls = 2 then s.nvmeErr c 0 0x02
    else if !x.holds c.slba c.blocks then s.nvmeErr c 0 0x80
    else if s.flash.readOnly then s.nvmeErr c 0 0x20
    else (s.deallocate (x.lpns c.slba c.blocks)).nvmeOk c 0 []

end Sys2Proof.Machine
end

