-- ==== Sys2Proof/Machine/Rdma.lean ====
section
/-! DEFINITION. RoCEv2 on ports 6 and 7 (R374 to R380): what a consumer sends, acknowledgements and retries, and congestion
notification. -/

namespace Sys2Proof.Machine

/-- R376: the NAK codes of an AETH. -/
def nakInvalid : Nat := 1
/-- R370: Remote Access Error. -/
def nakAccess : Nat := 2
/-- R380: Remote Operational Error. -/
def nakOperation : Nat := 3
/-- R375: RNR NAK, with the timer value of RNR_TIMER in its low bits. -/
def nakRnr : Nat := 32

/-- R369, R376: a queue pair on a RoCEv2 port. -/
def State.roceQp (s : State) (qp : Nat) : Option Qp :=
  match Tbl.find s.fabric.qps qp with
  | some q => if q.roce then some q else none
  | none => none

/-- R374, R375: the miss buffer of a port of a stream's delivery has no room for n more bytes. -/
def State.missFull (s : State) (n bytes : Nat) : Bool :=
  (imgDlvPorts (s.imageOf n).image).any fun k => Config.missBytes < (s.port k).missBytes + bytes

/-- R374, R375, R379: a packet for a queue pair: the context is fetched if it is not cached, or RNR NAK is the answer
while the miss buffer is full; whether the packet is marked ECN-CE is free. (DESIGN CHOICE, log entry 146) -/
def State.rocePacket (s : State) (qp : Nat) (q : Qp) (bytes : Nat) (f : State → State) : State :=
  let d := s.draw
  let s1 := d.2.updQp qp fun x => { x with marked := x.marked || Config.freeBool d.1 }
  if q.cached || s.pinnedQp (qp, q) then f s1
  else if s.missFull q.stream bytes then (s1.emit (.nak qp (nakRnr + s.stored oRnrTimer))).count oRnrNaksSent 1
  else f ((s1.count oQpMisses 1).cacheQp qp)

/-- R377, R378, R423: FABRIC_DELIVER: DELIVER writes the next settled batch while credits allow it. (DEDUCED, log entry 51) -/
def execFabricDeliver (n : Nat) (s : State) : Res :=
  withStream n s fun s =>
    let d := (s.stream n).dlv
    if !s.toFabric n || d.granted ≤ d.dlvSeq || (s.stream n).prot.fenceEpoch < d.creditFence then .next s
    else
      match s.nextDelivery n with
      | none => .next s
      | some b =>
        let b' := { b with state := .writing, dlvSeq := d.dlvSeq }
        let s1 := ((s.updBatch n b.k fun _ => b').updDlv n fun d => { d with dlvSeq := d.dlvSeq + 1 }).ensureQp n
        if imgProto (s.imageOf n).image = 1 then
          if s.inTorus (s.stored (oDlvRemoteCoord n)) then .next ((s1.sendNotify n b').deliverOwn s1.fabric.nextMsg)
          else .next ((s1.holdStream n stUnreachable).notice 1 stUnreachable n 0)
        else
          match s.deliveryPort n with
          | some k => .next (s1.sendRdma n k b')
          | none => .next s

/-- R463: a scrub answers for a queue pair: of its tenant, or of every tenant. -/
def State.scrubbedQp (s : State) (qp : Nat) : Bool :=
  match s.sec.scrub with
  | some b =>
    b.scope == 0xFFFFFFFF || b.qps.contains qp ||
    (match Tbl.find s.fabric.qps qp with
     | some q => Tbl.get s.fabric.pds 0 q.pd == b.scope
     | none => false)
  | none => false

/-- R375, R463: a packet for a queue pair that is being scrubbed is answered with RNR NAK. -/
def whenServed (qp : Nat) (s : State) (f : State → Res) : Res :=
  whenUp s fun s =>
    if s.scrubbedQp qp then .next ((s.emit (.nak qp (nakRnr + s.stored oRnrTimer))).count oRnrNaksSent 1) else f s

/-- R370: a refused access. -/
def State.nakAccessAt (s : State) (qp : Nat) : State := (s.count oProtectionViolations 1).emit (.nak qp nakAccess)

/-- R370: an access at an address by a RoCEv2 queue pair is refused. -/
def State.rangeBad (s : State) (pd key addr n : Nat) (read : Bool) : Bool :=
  match s.regionOf key with
  | some r => addr < r.base || s.accessBad pd key (addr - r.base) n read
  | none => true

/-- R376, R378: an accepted write: into a credit window. -/
def State.roceWrite (s : State) (x : RocePkt) : State :=
  match s.roceQp x.qp with
  | none => s.nakAccessAt x.qp
  | some q =>
    s.rocePacket x.qp q x.data.length fun s =>
      if s.rangeBad q.pd x.rkey x.addr x.data.length false then s.nakAccessAt x.qp
      else
        match s.regionOf x.rkey with
        | some r => if r.kind = 1 then s.creditWrite r.stream (x.addr - r.base) x.data else s.nakAccessAt x.qp
        | none => s.nakAccessAt x.qp

/-- R380: the bytes of an exposed window, the status of the first line withheld, and the state after. -/
def State.readExposed (s : State) (addr len : Nat) : Bytes × Nat × State :=
  let off := addr % 64
  let q := (List.range (ceilDiv (off + len) 64)).foldl (fun (acc : Bytes × Nat × State) i =>
    let r := acc.2.2.readWindow (addr - off + 64 * i)
    (acc.1 ++ r.1, if acc.2.1 = stSuccess then r.2.1 else acc.2.1, r.2.2)) ([], stSuccess, s)
  ((q.1.drop off).take len, q.2.1, q.2.2)

/-- R376, R380: an accepted read: of an exposed result window. -/
def State.roceRead (s : State) (x : RocePkt) : State :=
  match s.roceQp x.qp with
  | none => s.nakAccessAt x.qp
  | some q =>
    s.rocePacket x.qp q 64 fun s =>
      if s.rangeBad q.pd x.rkey x.addr x.len true then s.nakAccessAt x.qp
      else
        match s.regionOf x.rkey with
        | some r =>
          if r.kind = 2 then
            let d := s.readExposed x.addr x.len
            if d.2.1 = stSuccess then d.2.2.emit (.rdmaRead x.qp d.1) else d.2.2.emit (.nak x.qp nakOperation)
          else s.nakAccessAt x.qp
        | none => s.nakAccessAt x.qp

/-- R376: an accepted packet; an inbound SEND is answered with NAK Invalid Request. -/
def State.roceAct (s : State) (x : RocePkt) : State :=
  if x.op = 0 then s.roceWrite x else if x.op = 1 then s.roceRead x else s.emit (.nak x.qp nakInvalid)

/-! ## Policing a packet that arrives (R386, R387) -/

/-- R386: the port at which a packet of queue pair q arrives at the present draw, and whether its DSCP is one of those in
YELLOW_DSCP: neither is stated, so both are free. (DESIGN CHOICE, log entry 146) -/
def State.roceArrival (s : State) (q : Qp) : Nat × Bool :=
  let w := (Config.freeWord s.draw.1).toNat
  (match imgDlvPorts (s.imageOf q.stream).image with
   | [k] => k
   | l => l.getD (w % max 1 l.length) 6, bit (s.stored oYellowDscp) (bits w 13 8))

/-- R384, R386: the colour of a packet that arrives for queue pair q, in the class of its stream. (DESIGN CHOICE, log entry 146) -/
def State.roceTint (s : State) (q : Qp) (x : RocePkt) : Tint :=
  s.policeTint (s.roceArrival q).1 (s.stored (oServiceClass q.stream)) x.bytes (s.roceArrival q).2

/-- R386, R387: a packet is coloured and accepted; a RED one is held, or dropped without a response. (DESIGN CHOICE, log entry 146) -/
def State.roceArrive (s : State) (x : RocePkt) : State :=
  match s.roceQp x.qp with
  | none => s.roceAct x
  | some q =>
    let a := s.roceArrival q
    let c := s.roceTint q x
    let y := { x with cls := s.stored (oServiceClass q.stream), marked := a.2, since := s.gtc }
    let i := 8 * (8 + a.1) + y.cls
    let s1 := ((if s.stored (oPolice i) = 0 then s.draw.2 else s.draw.2.takeTokens i x.bytes c)).countTint i x.bytes c
    if c ≠ .red then s1.roceAct y
    else if s.stored (oRedAction i) = 1 then s1
    else s1.updPort a.1 fun p => { p with redRoce := p.redRoce ++ [y] }

/-- R376, R378, R386: RDMA_WRITE_RECEIVE: a consumer's write into a credit window. -/
def execRdmaWriteReceive (qp rkey addr : Nat) (data : Bytes) (s : State) : Res :=
  whenServed qp s fun s => .next (s.roceArrive { op := 0, qp := qp, rkey := rkey, addr := addr, data := data })

/-- R380, R386: RDMA_READ_REQUEST of an exposed result window. -/
def execRdmaReadRequest (qp rkey addr len : Nat) (s : State) : Res :=
  whenServed qp s fun s => .next (s.roceArrive { op := 1, qp := qp, rkey := rkey, addr := addr, len := len })

/-- R376, R386: ROCE_SEND_RECEIVE: an inbound SEND is answered with NAK Invalid Request. -/
def execRoceSendReceive (qp : Nat) (s : State) : Res :=
  whenServed qp s fun s => .next (s.roceArrive { op := 2, qp := qp })

/-- R387, R392: a frame held at port k that is YELLOW now is accepted as YELLOW. -/
def State.recolour (s : State) (k : Nat) (x : QFrame) : State :=
  let f := x.frame
  let q := 8 * (8 + k) + f.vl
  if s.policeTint k f.vl f.bytes false = .red then s.updPort k fun p => { p with red := p.red ++ [x] }
  else (((s.takeTokens q f.bytes .yellow).countTint q f.bytes .yellow).leave q x.since).acceptFrame k f

/-- R387, R392: a RoCEv2 packet held at port k that is YELLOW now is accepted as YELLOW. -/
def State.recolourRoce (s : State) (k : Nat) (x : RocePkt) : State :=
  let q := 8 * (8 + k) + x.cls
  if s.policeTint k x.cls x.bytes x.marked = .red then s.updPort k fun p => { p with redRoce := p.redRoce ++ [x] }
  else (((s.takeTokens q x.bytes .yellow).countTint q x.bytes .yellow).leave q x.since).roceAct x

/-- R387: POLICER_HOLD_RECOLOUR: held frames and packets that are YELLOW now are accepted as YELLOW. -/
def execPolicerHoldRecolour (k : Nat) (s : State) : Res :=
  withPort k s fun s =>
    let p := s.port k
    let s1 := s.updPort k fun p => { p with red := [], redRoce := [] }
    .next (p.redRoce.foldl (fun s x => s.recolourRoce k x) (p.red.foldl (fun s x => s.recolour k x) s1))

/-- R377: PSN a is at or beyond PSN b. -/
def psnReached (a b : Nat) : Bool := (a + 2 ^ 24 - b % 2 ^ 24) % 2 ^ 24 < 2 ^ 23

/-- R34, R377: ROCE_ACK_RECEIVE: the acknowledgement of a batch's last write retires the batch. -/
def execRoceAckReceive (qp psn : Nat) (s : State) : Res :=
  whenUp s fun s =>
    match s.roceQp qp with
    | none => .next s
    | some q =>
      match q.unacked with
      | (_, last) :: rest =>
        if psnReached psn last then
          .next ((s.updQp qp fun x => { x with unacked := rest.dropWhile fun u => psnReached psn u.2, retries := 0 }).fabricAcked
            q.stream)
        else .next s
      | [] => .next s

/-- R376: the unacknowledged batch of stream n is sent again. -/
def State.resendBatch (s : State) (n : Nat) : State :=
  match (s.run n).batches.find? fun b => b.state == .writing, s.deliveryPort n with
  | some b, some k =>
    s.emit (.rdmaWrite k (s.stored (oDlvRemoteQpn n)) (s.stored (oDlvRaddr n) + s.remoteOffset n b.dlvSeq) (s.stored (oDlvRkey n))
      (s.immediate n b.dlvSeq) b.content)
  | _, _ => s

/-- R376: ROCE_RETRY_TIMEOUT: the oldest unacknowledged write is sent again, up to 7 times; then the stream is held with
REMOTE_UNREACHABLE. -/
def execRoceRetryTimeout (qp : Nat) (s : State) : Res :=
  whenUp s fun s =>
    match s.roceQp qp with
    | none => .next s
    | some q =>
      if q.unacked.isEmpty then .next s
      else if q.retries < 7 then .next ((s.resendBatch q.stream).updQp qp fun x => { x with retries := x.retries + 1 })
      else
        .next (((s.updQp qp fun x => { x with unacked := [], retries := 0 }).holdStream q.stream stUnreachable).notice 1 stUnreachable
          q.stream 0)

/-- R379: CNP_RECEIVE halves the sending rate, down to 1 % of the port. -/
def execCnpReceive (qp : Nat) (s : State) : Res :=
  whenUp s fun s =>
    match s.roceQp qp with
    | none => .next s
    | some _ => .next (s.updQp qp fun x => { x with rate := max 16 (x.rate / 2), cnpGtc := s.gtc })

/-- R379: CNP_RATE_RESTORE: 1/16 of the port rate comes back after each 50 µs without a CNP, and one CNP is sent for
each 50 µs in which packets marked ECN-CE were received. -/
def execCnpRateRestore (qp : Nat) (s : State) : Res :=
  whenUp s fun s =>
    match s.roceQp qp with
    | none => .next s
    | some q =>
      let s1 := if q.cnpGtc + 50000 ≤ s.gtc then s.updQp qp fun x => { x with rate := min 1600 (x.rate + 100), cnpGtc := s.gtc } else s
      .next (if q.marked && q.cnpSent + 50000 ≤ s.gtc then
          (s1.emit (.cnp qp)).updQp qp fun x => { x with marked := false, cnpSent := s.gtc }
        else s1)

end Sys2Proof.Machine
end

