-- ==== Sys2Proof/Machine/Telemetry.lean ====
section
/-! DEFINITION. Telemetry (R507 to R509): the sets, the record, and its two destinations. -/

namespace Sys2Proof.Machine

open Sys2Proof

/-- R508: the units that a queue has carried. -/
def State.unitsOf (s : State) (q : Nat) : Nat := s.stored (oGreenUnits q) + s.stored (oYellowUnits q) + s.stored (oRedUnits q)

/-- R508: a queue has had traffic since the last record. -/
def State.queueBusy (s : State) (q : Nat) : Bool :=
  !(s.queue q).waiting.isEmpty || s.unitsOf q ≠ Tbl.get s.mgmt.telemUnits 0 q

/-- R509: consecutive subindices of one index. -/
def subs (i lo hi : Nat) : List Nat := (List.range (hi + 1 - lo)).map fun j => i * 256 + lo + j

/-- R508, R509: the objects of the sets selected, in increasing INDEX and SUB. -/
def State.telemKeys (s : State) : List Nat :=
  let sel (b : Nat) (l : List Nat) : List Nat := if bit (s.stored oTelemSet) b then l else []
  sel 5 ((subs 0x2000 3 4) ++ (List.range Config.streams).flatMap fun n => subs (0x2100 + n) 3 3) ++
  sel 3 (((List.range 64).filter fun p => s.stored (oPoolPlace p) ≠ 0).flatMap fun p => subs (0x3100 + p) 0x0A 0x0C) ++
  sel 7 (subs 0x3800 7 7 ++ subs 0x3800 9 9 ++ subs 0x3800 0x13 0x13 ++ subs 0x3800 0x17 0x17) ++
  sel 6 ((List.range 8).flatMap fun k => subs (0x4810 + k) 3 3 ++ subs (0x4810 + k) 7 9) ++
  sel 4 (((List.range 176).filter s.queueBusy).flatMap fun q => subs (0x5100 + q) 0x0A 0x0D) ++
  sel 5 ((List.range Config.streams).flatMap fun n => subs (0x5810 + n) 2 2) ++
  sel 1 (subs 0x6800 1 0x0B) ++ sel 2 (subs 0x6900 1 7) ++ sel 0 (subs 0x7000 0x10 0x1A)

/-- R487, R508: an entry: VALUE is zero-extended, or sign-extended for I-types. -/
def State.telemEntry (s : State) (key : Nat) : Bytes :=
  match rowOf key with
  | none => []
  | some r =>
    let v := s.odValue key % 2 ^ (8 * r.size)
    let wide := if 6 ≤ r.type && r.type ≤ 9 then ofSigned 64 (toSigned (8 * r.size) v) else v
    leBytes 2 (key / 256) ++ leBytes 1 (key % 256) ++ leBytes 1 r.type ++ zeros 4 ++ leBytes 8 wide

/-- R508: one part of a record. -/
def telemPart (seq gtc part parts : Nat) (es : List Bytes) : Bytes :=
  leBytes 4 0x4D4C4554 ++ leBytes 4 seq ++ leBytes 2 part ++ leBytes 2 parts ++ leBytes 8 gtc ++ leBytes 2 es.length ++ zeros 10 ++ es.flatten

/-- R499, R508: entries of a part that fills a datagram of 1,232 bytes. -/
def partEntries : Nat := 72

/-- R507, R508: the parts of a record for the management port. -/
def telemParts (seq gtc : Nat) (es : List Bytes) : List Bytes :=
  let n := max 1 (ceilDiv es.length partEntries)
  (List.range n).map fun i => telemPart seq gtc i n ((es.drop (partEntries * i)).take partEntries)

/-- R507: a record that is not sent. -/
def State.telemDrop (s : State) : State := s.count oTelemDropped 1

/-- R507: the record goes to the host ring, whose end wraps to its base. -/
def State.telemRing (s : State) (b : Bytes) : State :=
  let len := s.stored oTelemRingLen
  let used := s.mgmt.ringHead - s.stored oTelemRingTail
  if len < used + b.length then s.telemDrop
  else
    let at_ := s.mgmt.ringHead % max 1 len
    let base := s.stored oTelemRingBase
    let s1 := s.emit (.dma (base + at_) (b.take (len - at_)))
    let s2 := if len - at_ < b.length then s1.emit (.dma base (b.drop (len - at_))) else s1
    { s2 with mgmt := { s2.mgmt with ringHead := s2.mgmt.ringHead + b.length } }

/-- R500, R507: a part goes out in the session, tagged. -/
def State.telemFrame (s : State) (id : Nat) (b : Bytes) : State :=
  match Tbl.find s.mgmt.sessions id with
  | some x => let f := odFrame 0x20 id 0 s.coord b; s.emit (.datagram id (f ++ odTag x.key f))
  | none => s

/-- R507: the record goes to the session that last asked for it; whether the port can carry it within the cadence is free. -/
def State.telemPort (s : State) (parts : List Bytes) : State :=
  let id := s.mgmt.telemSession
  let d := s.draw
  if (Tbl.find s.mgmt.sessions id).isNone || !Config.freeBool d.1 then d.2.telemDrop
  else parts.foldl (fun (s : State) b => s.telemFrame id b) d.2

/-- R399, R507: TELEMETRY, which Ringmaster 3 samples. (DESIGN CHOICE, log entry 135) -/
def execTelemetry (s : State) : Res :=
  whenRm 3 s fun s =>
    let dest := s.stored oTelemDest
    if s.gtc % 2 ^ s.stored oTelemK ≠ 0 || dest = 0 then .next s
    else
      let es := s.telemKeys.map s.telemEntry
      let seq := s.mgmt.recordSeq
      let units := (List.range 176).foldl (fun (t : Tbl Nat) q => if s.unitsOf q = 0 then t else Tbl.set t q (s.unitsOf q)) []
      let s1 := { s with mgmt := { s.mgmt with recordSeq := (seq + 1) % 2 ^ 32, telemUnits := units } }
      let s2 := if bit dest 0 then s1.telemRing (telemPart seq s.gtc 0 1 es) else s1
      .next (if bit dest 1 then s2.telemPort (telemParts seq s.gtc es) else s2)

end Sys2Proof.Machine
end

