-- ==== Sys2Proof/Machine/Vendor.lean ====
section
/-! DEFINITION. The vendor commands of R338: PIPELINE_LOAD, CORPUS_CREATE, CORPUS_SEAL, SNAPSHOT_READ, SNAPSHOT_RESTORE and
INGEST (R340, R341). -/

namespace Sys2Proof.Machine

open Sys2Proof

/-! ## Transfers (R338) -/

/-- R338: the most bytes that a command moves. -/
def vendorMax : Nat := 262144

/-- R338: a transfer after a piece at an offset: offset 0 starts it again, and a piece out of sequence or beyond the total
length breaks it. -/
def Assembly.take (a : Option Assembly) (off total gtc : Nat) (data : Bytes) : Option Assembly :=
  let cur := if off = 0 then some { total := total } else a
  match cur with
  | some x => if x.total = total && x.data.length = off && off + data.length ≤ total then
                some { x with data := x.data ++ data, at_ := gtc } else none
  | none => none

/-- R338: image load `id` replaced, or ended. -/
def State.setLoad (s : State) (id : Nat) (a : Option Assembly) : State :=
  { s with host := { s.host with loads := match a with | some x => Tbl.set s.host.loads id x | none => Tbl.del s.host.loads id } }

/-- R338: the snapshot assembled for stream n replaced, or ended. -/
def State.setRestore (s : State) (n : Nat) (a : Option Assembly) : State :=
  { s with host := { s.host with restores := match a with | some x => Tbl.set s.host.restores n x | none => Tbl.del s.host.restores n } }

/-- R27, R465: an assembled image is checked and kept: status and image slot. -/
def State.loadWhole (s : State) (b : Bytes) : Nat × Nat × State :=
  if s.scrubs (imageTenant { image := b }) then (stScrub, 0, s)
  else
    match s.loadImage b with
    | .ok r => (stSuccess, r.1, r.2)
    | .error e => (e, 0, s)

/-- R338: PIPELINE_LOAD, which Ringmaster 0 serves. -/
def execPipelineLoad (c : NvmeCmd) (s : State) : Res :=
  whenRm 0 s fun s => nvmeRun true c s fun s =>
    let id := bits c.cdw13 1 0
    if vendorMax < c.data.length then s.nvmeErr c 0 0x02
    else
      match Assembly.take (Tbl.find s.host.loads id) c.cdw10 c.cdw11 s.gtc c.data with
      | none => (s.setLoad id none).vendorDone c stImageMalformed none []
      | some a =>
        if !bit c.cdw12 0 then (s.setLoad id (some a)).vendorDone c stSuccess none []
        else if a.data.length ≠ a.total then (s.setLoad id none).vendorDone c stImageMalformed none []
        else
          let r := (s.setLoad id none).loadWhole a.data
          r.2.2.vendorDone c r.1 (if r.1 = stSuccess then some r.2.1 else none) []

/-! ## Corpora (R178, R181, R195, R336, R338) -/

/-- R209: a DRIFT_SHIFT that a corpus may record. -/
def driftOk (d : Nat) : Bool := d == 0 || (2 ≤ d && d ≤ 6)

/-- R178, R181, R338: CORPUS_CREATE. (DESIGN CHOICE, log entry 128) -/
def execCorpusCreate (c : NvmeCmd) (s : State) : Res :=
  whenRm 0 s fun s => nvmeRun true c s fun s =>
    if s.scrubs c.cdw15 then s.vendorDone c stScrub none []
    else if !driftOk (bits c.cdw13 7 0) || (s.corpusOf c.cdw10).isSome then s.nvmeErr c 0 0x02
    else
      match s.createCheck c.cdw14 with
      | .error e => s.nvmeErr c 1 e
      | .ok k =>
        let r : Corpus := { id := c.cdw10, seed := c.cdw11 + 2 ^ 32 * c.cdw12, drift := bits c.cdw13 7 0, geometry := s.place }
        (s.addNamespace k c.cdw14 { cls := 2, tenant := c.cdw15, corpus := some r }).vendorDone c stSuccess (some k) []

/-- R195: bits in which two signatures differ. -/
def hamming (a b : Nat) : Nat := popCount 256 (a ^^^ b)

/-- R194, R195: the signatures of a corpus that this device knows, with their sample indices: of its own samples and of the
bands that it owns. -/
def State.knownSigs (s : State) (c : Corpus) : List (Nat × Nat) :=
  c.sigs ++ (s.bands.filter fun b => b.corpus == c.id).map fun b => (b.sample, b.sig)

/-- R195: a sample is DUPLICATE: another with a smaller index lies within RADIUS bits, here or on another device. -/
def State.duplicate (s : State) (c : Corpus) (idx : Nat) : Bool :=
  match Tbl.find c.sigs idx with
  | none => false
  | some g => (s.knownSigs c).any (fun x => decide (x.1 < idx) && decide (hamming x.2 g ≤ c.radius)) ||
      (decide (1 < geoCount c.geometry) && Config.remoteTwin c.id idx)

/-- R182, R195: a corpus is sealed, its DUPLICATE samples marked. -/
def State.sealCorpus (s : State) (nsid : Nat) (c : Corpus) : State :=
  let mark (r : Nat × SampleRec) : Nat × SampleRec :=
    if s.duplicate c r.1 then (r.1, { r.2 with flags := setBit r.2.flags 2 true }) else r
  s.updCorpus nsid fun c => if c.sealed then c else { c with sealed := true, records := c.records.map mark }

/-- R338: the seal report. -/
def sealReport (c : Corpus) : Bytes :=
  let dups := (c.records.filter fun r => bit r.2.flags 2).map Prod.fst
  leBytes 8 dups.length ++ zeros 8 ++ dups.flatMap (leBytes 8)

/-- R195, R338: CORPUS_SEAL. -/
def execCorpusSeal (c : NvmeCmd) (s : State) : Res :=
  whenRm 0 s fun s => nvmeRun true c s fun s =>
    match s.ns c.nsid with
    | none => s.nvmeErr c 0 0x0B
    | some x =>
      match x.corpus with
      | none => s.nvmeErr c 0 0x02
      | some p =>
        if s.scrubs x.tenant then s.vendorDone c stScrub none []
        else
          let s1 := s.sealCorpus c.nsid p
          let r := match (s1.ns c.nsid).bind Namespace.corpus with | some q => sealReport q | none => []
          s1.vendorDone c stSuccess none (r.take c.cdw10)

/-! ## Snapshots (R232, R235, R338) -/

/-- R338: completion Dword 0 and, above it, Dword 1 of a snapshot read: SNAP_SEQ bits 15:0 as the result of R339, and bits
31:0. (DESIGN CHOICE, log entry 129) -/
def snapDwords (seq : Nat) : Nat := seq % 65536 * 65536 + seq % 2 ^ 32 * 2 ^ 32

/-- R338: SNAPSHOT_READ. -/
def execSnapshotRead (c : NvmeCmd) (s : State) : Res :=
  whenRm 0 s fun s => nvmeRun true c s fun s =>
    let n := c.cdw10
    if 64 ≤ n then s.nvmeErr c 0 0x02
    else if s.scrubbed n then s.vendorDone c stScrub none []
    else
      match (s.stream n).snapshot with
      | some b => s.complete c.sq c.cid 0 0 false (snapDwords (fieldAt b 0x10 8)) ((b.drop c.cdw11).take vendorMax)
      | none => s.vendorDone c stState none []

/-- R235, R465: the assembled snapshot is restored into a LOADED stream: the status and the state. -/
def State.restoreInto (s : State) (n : Nat) (b : Bytes) : Nat × State :=
  if s.scrubbed n then (stScrub, s)
  else if (s.stream n).state = .moved then (stMoved, s)
  else if (s.stream n).state ≠ .loaded then (stState, s)
  else
    match s.restoreBytes n b true with
    | .ok s1 => (stSuccess, s1)
    | .error e => (e, s)

/-- R235, R338: SNAPSHOT_RESTORE. -/
def execSnapshotRestore (c : NvmeCmd) (s : State) : Res :=
  whenRm 0 s fun s => nvmeRun true c s fun s =>
    let n := c.cdw10
    if 64 ≤ n || vendorMax < c.data.length then s.nvmeErr c 0 0x02
    else
      match Assembly.take (Tbl.find s.host.restores n) c.cdw11 c.cdw12 s.gtc c.data with
      | none => (s.setRestore n none).vendorDone c stImageMalformed none []
      | some a =>
        if !bit c.cdw13 0 then (s.setRestore n (some a)).vendorDone c stSuccess none []
        else
          let r := (s.setRestore n none).restoreInto n a.data
          r.2.vendorDone c r.1 none []

/-! ## INGEST (R340, R341) -/

/-- R340: SAMPLE_INDEX of an INGEST. -/
def NvmeCmd.index (c : NvmeCmd) : Nat := c.cdw10 + 2 ^ 32 * c.cdw11
/-- R340: the byte offset of a piece. -/
def NvmeCmd.pieceAt (c : NvmeCmd) : Nat := 65536 * c.cdw13
/-- R340: LAST. -/
def NvmeCmd.last (c : NvmeCmd) : Bool := bit c.cdw14 0
/-- R340: VIA_STREAM, with STREAM. -/
def NvmeCmd.via (c : NvmeCmd) : Option Nat := if bit c.cdw14 15 then some (bits c.cdw14 21 16) else none
/-- R304, R340: FLAGS of a sample's record from the flags of its INGEST: bit 0 PARTS, bit 1 AHNET. -/
def recordFlags (cdw14 : Nat) : Nat := bits cdw14 2 1

/-- R340: an image of FETCH, CODEC encode and DELIVER only. -/
def encodeOnly (ds : List Desc) : Bool :=
  ds.length == 3 && (ofType ds tFetch).length == 1 && (ofType ds tDeliver).length == 1 &&
  (ofType ds tCodec).any fun d => !bit (d.word 4) 0

/-- R340, R341: the status with which the ingest stream refuses a piece. -/
def State.viaRefused (s : State) (n : Nat) (first last : Bool) : Nat :=
  if (s.stream n).state = .held then stHeld
  else if (s.stream n).state ≠ .running then stNsNotReady
  else if !s.toCorpus n then stUnsupported
  else if first && !last && !encodeOnly (s.descsOf n) then stUnsupported
  else if first && 16 ≤ (s.stream n).openSamples.length then stPoolExhausted
  else stSuccess

/-- R340, R341: the status with which a piece is refused, in the order read-only, index, number open, piece order, stream;
SUCCESS for a piece that is taken. (DESIGN CHOICE, log entry 127) -/
def State.ingestRefused (s : State) (c : NvmeCmd) (p : Corpus) : Nat :=
  let idx := c.index
  let len := c.data.length
  let o := Tbl.find p.open_ idx
  let first := c.pieceAt = 0
  let held := match o with | some x => x.data.length | none => 0
  if p.sealed || s.flash.readOnly then stNsReadOnly
  else if first && ((Tbl.find p.records idx).isSome || o.isSome) then stIndexInUse
  else if first && 256 ≤ p.open_.length then stPoolExhausted
  else if !first && o.isNone then (if p.discarded.contains idx then stSampleNotFound else stCorrupt)
  else if c.pieceAt ≠ held || (match o with | some x => x.cmd.isSome | none => false) then stCorrupt
  else if (!c.last && (len % 65536 ≠ 0 || len = 0)) || (c.last && held + len = 0) || 2 ^ 32 ≤ held + len then stCorrupt
  else
    match (match o with | some x => x.stream | none => c.via) with
    | some n => s.viaRefused n first c.last
    | none => stSuccess

/-- R340: the sample with the piece at hand added to it. -/
def NvmeCmd.extend (c : NvmeCmd) (o : Option OpenSample) (gtc : Nat) : OpenSample :=
  match o with
  | some x => { x with data := x.data ++ c.data, at_ := gtc }
  | none => { data := c.data, flags := recordFlags c.cdw14, stream := c.via, at_ := gtc }

/-- R340: an open sample of namespace nsid kept; a first piece counts as open on its stream. -/
def State.keepOpen (s : State) (nsid idx : Nat) (first : Bool) (o : OpenSample) : State :=
  let s1 := s.updCorpus nsid fun p => { p with open_ := Tbl.set p.open_ idx o, discarded := p.discarded.filter (· ≠ idx) }
  match o.stream with
  | some n => if first then s1.updStream n fun x => { x with openSamples := x.openSamples ++ [idx] } else s1
  | none => s1

/-- R340: a whole sample becomes the next job of its ingest stream. (DESIGN CHOICE, log entry 47) -/
def State.queueIngest (s : State) (n idx : Nat) : State :=
  s.updRun n fun r =>
    { r with toAdmit := r.toAdmit ++ [{ k := r.ingested, pos := r.ingested, sample := idx, since := s.gtc }], ingested := r.ingested + 1 }

/-- R340, R341: the LAST piece: through its stream the sample is run, and the command completes when it is stored or
excluded; directly it is checked and stored. -/
def State.ingestLast (s : State) (c : NvmeCmd) (first : Bool) (o : OpenSample) : State :=
  let s1 := s.keepOpen c.nsid c.index first { o with cmd := some (c.sq, c.cid) }
  match o.stream with
  | some n => s1.queueIngest n c.index
  | none =>
    match logicalLen o.data o.flags with
    | .error st => s1.endSample c.nsid c.index st
    | .ok n => s1.commitSample c.nsid c.index o.data o.flags n none

/-- R290, R340: the LAST piece of a direct store at its home waits for room in the write buffer. -/
def State.ingestWaits (s : State) (c : NvmeCmd) (x : Namespace) : Bool :=
  match x.corpus with
  | none => false
  | some p =>
    let o := c.extend (Tbl.find p.open_ c.index) s.gtc
    c.last && s.ingestRefused c p == stSuccess && o.stream.isNone && p.home c.index == p.own && x.fits p o.data.length &&
    !s.sampleRoom p o.data.length

/-- R340, R341: INGEST of one piece of a sample. -/
def execIngest (c : NvmeCmd) (s : State) : Res :=
  nvmeIo c s (fun x s => s.ingestWaits c x) fun x s =>
    match x.corpus with
    | none => s.nvmeErr c 0 0x02
    | some p =>
      if vendorMax < c.data.length || c.data.length ≠ c.cdw12 then s.nvmeErr c 0 0x02
      else
        let st := s.ingestRefused c p
        if st ≠ stSuccess then s.vendorDone c st none []
        else
          let first := c.pieceAt = 0
          let o := c.extend (Tbl.find p.open_ c.index) s.gtc
          if c.last then s.ingestLast c first o else (s.keepOpen c.nsid c.index first o).vendorDone c stSuccess none []

/-- R341: INGEST_PIECE_TIMEOUT: an open sample whose next piece has not arrived within 60 s is discarded. -/
def execIngestPieceTimeout (nsid idx : Nat) (s : State) : Res :=
  whenUp s fun s =>
    match (s.ns nsid).bind Namespace.corpus with
    | none => .next s
    | some p =>
      match Tbl.find p.open_ idx with
      | none => .next s
      | some o =>
        if o.cmd.isSome || s.gtc < o.at_ + 60 * Config.sec then .next s
        else .next ((s.endSample nsid idx stSampleNotFound).updCorpus nsid fun p => { p with discarded := p.discarded ++ [idx] })

end Sys2Proof.Machine
end

