-- ==== Sys2Proof/Machine/Dispatch.lean ====
section
/-! DEFINITION. The effect of each command: one arm per row of the table, each a direct call of the command's meaning. -/

namespace Sys2Proof.Machine

open Sys2Proof

/-- R1: the effect of a command on everything but the queue. -/
def exec (i : Instr) (s : State) : Host.Outcome State Fault Refusal :=
  match i with
  | .pipelineLoad c => Sys2Proof.Machine.execPipelineLoad c s
  | .unload r k => Sys2Proof.Machine.execUnload r k s
  | .imageSlotWrite r n => Sys2Proof.Machine.execImageSlotWrite r n s
  | .splitModeWrite r n cut => Sys2Proof.Machine.execSplitModeWrite r n cut s
  | .clockExactWrite r n => Sys2Proof.Machine.execClockExactWrite r n s
  | .streamStart r n => Sys2Proof.Machine.execStreamStart r n s
  | .streamPause r n => Sys2Proof.Machine.execStreamPause r n s
  | .pauseDrainDone n => Sys2Proof.Machine.execPauseDrainDone n s
  | .streamResume r n => Sys2Proof.Machine.execStreamResume r n s
  | .streamStop r n => Sys2Proof.Machine.execStreamStop r n s
  | .pipelineReset r n => Sys2Proof.Machine.execPipelineReset r n s
  | .streamRelease r n => Sys2Proof.Machine.execStreamRelease r n s
  | .jobAdmit => Sys2Proof.Machine.execJobAdmit s
  | .stageComplete job stage transient => Sys2Proof.Machine.execStageComplete job stage transient s
  | .codecBlockDone e => Sys2Proof.Machine.execCodecBlockDone e s
  | .add core => Sys2Proof.Machine.execAdd core s
  | .mul core => Sys2Proof.Machine.execMul core s
  | .divs core => Sys2Proof.Machine.execDivs core s
  | .sar core => Sys2Proof.Machine.execSar core s
  | .addi core => Sys2Proof.Machine.execAddi core s
  | .j core => Sys2Proof.Machine.execJ core s
  | .beq core => Sys2Proof.Machine.execBeq core s
  | .blt core => Sys2Proof.Machine.execBlt core s
  | .jal core => Sys2Proof.Machine.execJal core s
  | .jr core => Sys2Proof.Machine.execJr core s
  | .ld64 core => Sys2Proof.Machine.execLd64 core s
  | .st64 core => Sys2Proof.Machine.execSt64 core s
  | .vadd core => Sys2Proof.Machine.execVadd core s
  | .vmul core => Sys2Proof.Machine.execVmul core s
  | .vdiv core => Sys2Proof.Machine.execVdiv core s
  | .vmin core => Sys2Proof.Machine.execVmin core s
  | .vmax core => Sys2Proof.Machine.execVmax core s
  | .vsqrt core => Sys2Proof.Machine.execVsqrt core s
  | .vexp2 core => Sys2Proof.Machine.execVexp2 core s
  | .vlog2 core => Sys2Proof.Machine.execVlog2 core s
  | .vadds core => Sys2Proof.Machine.execVadds core s
  | .vbcast core => Sys2Proof.Machine.execVbcast core s
  | .vfma core => Sys2Proof.Machine.execVfma core s
  | .vfms core => Sys2Proof.Machine.execVfms core s
  | .vcvt core => Sys2Proof.Machine.execVcvt core s
  | .vcvtz core => Sys2Proof.Machine.execVcvtz core s
  | .vredsum core => Sys2Proof.Machine.execVredsum core s
  | .vredsumw core => Sys2Proof.Machine.execVredsumw core s
  | .vredmax core => Sys2Proof.Machine.execVredmax core s
  | .vld core => Sys2Proof.Machine.execVld core s
  | .vst core => Sys2Proof.Machine.execVst core s
  | .vgather core => Sys2Proof.Machine.execVgather core s
  | .vscatter core => Sys2Proof.Machine.execVscatter core s
  | .vcmplt core => Sys2Proof.Machine.execVcmplt core s
  | .pfirstn core => Sys2Proof.Machine.execPfirstn core s
  | .tissue core => Sys2Proof.Machine.execTissue core s
  | .twait core => Sys2Proof.Machine.execTwait core s
  | .tmuDescriptorDone core tag => Sys2Proof.Machine.execTmuDescriptorDone core tag s
  | .halt core => Sys2Proof.Machine.execHalt core s
  | .draw core => Sys2Proof.Machine.execDraw core s
  | .vdraw core => Sys2Proof.Machine.execVdraw core s
  | .srd core => Sys2Proof.Machine.execSrd core s
  | .kernelStepLimit core => Sys2Proof.Machine.execKernelStepLimit core s
  | .scratchReserve job stage => Sys2Proof.Machine.execScratchReserve job stage s
  | .portionListReceive n epoch owner data => Sys2Proof.Machine.execPortionListReceive n epoch owner data s
  | .epochBegin n => Sys2Proof.Machine.execEpochBegin n s
  | .sampleMigrate nsid idx m => Sys2Proof.Machine.execSampleMigrate nsid idx m s
  | .dedupBandReceive corpus k band idx sig => Sys2Proof.Machine.execDedupBandReceive corpus k band idx sig s
  | .batchOpen n => Sys2Proof.Machine.execBatchOpen n s
  | .threshEpochWrite r n => Sys2Proof.Machine.execThreshEpochWrite r n s
  | .settlePosition n => Sys2Proof.Machine.execSettlePosition n s
  | .exactRelease job => Sys2Proof.Machine.execExactRelease job s
  | .launchWindow n => Sys2Proof.Machine.execLaunchWindow n s
  | .slotDeliver n => Sys2Proof.Machine.execSlotDeliver n s
  | .fabricDeliver n => Sys2Proof.Machine.execFabricDeliver n s
  | .deliverWritten n => Sys2Proof.Machine.execDeliverWritten n s
  | .dbRetire n value => Sys2Proof.Machine.execDbRetire n value s
  | .dbRedeliver n value => Sys2Proof.Machine.execDbRedeliver n value s
  | .dbBackfill n value => Sys2Proof.Machine.execDbBackfill n value s
  | .cxlMemRead dpa => Sys2Proof.Machine.execCxlMemRead dpa s
  | .cxlMemWrite dpa data => Sys2Proof.Machine.execCxlMemWrite dpa data s
  | .hostDeadlineExpiry n slot => Sys2Proof.Machine.execHostDeadlineExpiry n slot s
  | .bufferAlloc a => Sys2Proof.Machine.execBufferAlloc a s
  | .bufferRelease releaser handle => Sys2Proof.Machine.execBufferRelease releaser handle s
  | .poolPlaceWrite r p => Sys2Proof.Machine.execPoolPlaceWrite r p s
  | .reclaim r p => Sys2Proof.Machine.execReclaim r p s
  | .dramScrubRead line errors intervened => Sys2Proof.Machine.execDramScrubRead line errors intervened s
  | .oasisScrubRead word errors intervened => Sys2Proof.Machine.execOasisScrubRead word errors intervened s
  | .phyRecalibrate => Sys2Proof.Machine.execPhyRecalibrate s
  | .destage m => Sys2Proof.Machine.execDestage m s
  | .programComplete pun ok => Sys2Proof.Machine.execProgramComplete pun ok s
  | .eraseComplete block ok => Sys2Proof.Machine.execEraseComplete block ok s
  | .nandReadComplete pun step => Sys2Proof.Machine.execNandReadComplete pun step s
  | .unitCopyCommit src => Sys2Proof.Machine.execUnitCopyCommit src s
  | .gcVictimSelect m => Sys2Proof.Machine.execGcVictimSelect m s
  | .patrolRead step => Sys2Proof.Machine.execPatrolRead step s
  | .checkpointWrite => Sys2Proof.Machine.execCheckpointWrite s
  | .flashTempSample temps => Sys2Proof.Machine.execFlashTempSample temps s
  | .nvmeSqDoorbell q tail => Sys2Proof.Machine.execNvmeSqDoorbell q tail s
  | .nvmeCqDoorbell q head => Sys2Proof.Machine.execNvmeCqDoorbell q head s
  | .controllerEnable en => Sys2Proof.Machine.execControllerEnable en s
  | .nvmeIdentify c => Sys2Proof.Machine.execNvmeIdentify c s
  | .nvmeGetLogPage c => Sys2Proof.Machine.execNvmeGetLogPage c s
  | .nvmeGetFeatures c => Sys2Proof.Machine.execNvmeGetFeatures c s
  | .nvmeSetFeatures c => Sys2Proof.Machine.execNvmeSetFeatures c s
  | .nvmeCreateIoSq c => Sys2Proof.Machine.execNvmeCreateIoSq c s
  | .nvmeCreateIoCq c => Sys2Proof.Machine.execNvmeCreateIoCq c s
  | .nvmeDeleteIoSq c => Sys2Proof.Machine.execNvmeDeleteIoSq c s
  | .nvmeDeleteIoCq c => Sys2Proof.Machine.execNvmeDeleteIoCq c s
  | .nvmeAbort c => Sys2Proof.Machine.execNvmeAbort c s
  | .asynchronousEventRequest c => Sys2Proof.Machine.execAsynchronousEventRequest c s
  | .namespaceManagement c => Sys2Proof.Machine.execNamespaceManagement c s
  | .namespaceAttachment c => Sys2Proof.Machine.execNamespaceAttachment c s
  | .formatNvm c => Sys2Proof.Machine.execFormatNvm c s
  | .firmwareImageDownload c => Sys2Proof.Machine.execFirmwareImageDownload c s
  | .firmwareCommit c => Sys2Proof.Machine.execFirmwareCommit c s
  | .corpusCreate c => Sys2Proof.Machine.execCorpusCreate c s
  | .corpusSeal c => Sys2Proof.Machine.execCorpusSeal c s
  | .snapshotRead c => Sys2Proof.Machine.execSnapshotRead c s
  | .snapshotRestore c => Sys2Proof.Machine.execSnapshotRestore c s
  | .nvmeRead c => Sys2Proof.Machine.execNvmeRead c s
  | .nvmeWrite c => Sys2Proof.Machine.execNvmeWrite c s
  | .nvmeFlush c => Sys2Proof.Machine.execNvmeFlush c s
  | .datasetManagement c => Sys2Proof.Machine.execDatasetManagement c s
  | .writeZeroes c => Sys2Proof.Machine.execWriteZeroes c s
  | .ingest c => Sys2Proof.Machine.execIngest c s
  | .ingestPieceTimeout nsid idx => Sys2Proof.Machine.execIngestPieceTimeout nsid idx s
  | .writeThroughDone sq cid => Sys2Proof.Machine.execWriteThroughDone sq cid s
  | .configRequest offset write => Sys2Proof.Machine.execConfigRequest offset write s
  | .spdmVendorRequest data => Sys2Proof.Machine.execSpdmVendorRequest data s
  | .identifyMemoryDevice => Sys2Proof.Machine.execIdentifyMemoryDevice s
  | .getPartitionInfo => Sys2Proof.Machine.execGetPartitionInfo s
  | .getHealthInfo => Sys2Proof.Machine.execGetHealthInfo s
  | .getEventRecords log => Sys2Proof.Machine.execGetEventRecords log s
  | .clearEventRecords log count => Sys2Proof.Machine.execClearEventRecords log count s
  | .getSupportedLogs => Sys2Proof.Machine.execGetSupportedLogs s
  | .getLog data => Sys2Proof.Machine.execGetLog data s
  | .getPoisonList dpa len => Sys2Proof.Machine.execGetPoisonList dpa len s
  | .linkPcsLock k => Sys2Proof.Machine.execLinkPcsLock k s
  | .versionFrameReceive k f => Sys2Proof.Machine.execVersionFrameReceive k f s
  | .dataFrameReceive k f => Sys2Proof.Machine.execDataFrameReceive k f s
  | .creditFrameReceive k f => Sys2Proof.Machine.execCreditFrameReceive k f s
  | .nakFrameReceive k f => Sys2Proof.Machine.execNakFrameReceive k f s
  | .idleFrameReceive k f => Sys2Proof.Machine.execIdleFrameReceive k f s
  | .replayTimeout k => Sys2Proof.Machine.execReplayTimeout k s
  | .retrainTimeout k => Sys2Proof.Machine.execRetrainTimeout k s
  | .creditFrameTimer k => Sys2Proof.Machine.execCreditFrameTimer k s
  | .routeWaitExpiry src msgId offset => Sys2Proof.Machine.execRouteWaitExpiry src msgId offset s
  | .reassemblyTimeout src msgId => Sys2Proof.Machine.execReassemblyTimeout src msgId s
  | .respReceive f => Sys2Proof.Machine.execRespReceive f s
  | .busyBackoffExpiry msgId => Sys2Proof.Machine.execBusyBackoffExpiry msgId s
  | .qpContextFetchDone k qp => Sys2Proof.Machine.execQpContextFetchDone k qp s
  | .rdmaWriteReceive qp rkey addr data => Sys2Proof.Machine.execRdmaWriteReceive qp rkey addr data s
  | .rdmaReadRequest qp rkey addr len => Sys2Proof.Machine.execRdmaReadRequest qp rkey addr len s
  | .roceSendReceive qp => Sys2Proof.Machine.execRoceSendReceive qp s
  | .roceAckReceive qp psn => Sys2Proof.Machine.execRoceAckReceive qp psn s
  | .roceRetryTimeout qp => Sys2Proof.Machine.execRoceRetryTimeout qp s
  | .cnpReceive qp => Sys2Proof.Machine.execCnpReceive qp s
  | .cnpRateRestore qp => Sys2Proof.Machine.execCnpRateRestore qp s
  | .shaperParamWrite r q sub => Sys2Proof.Machine.execShaperParamWrite r q sub s
  | .configChange r g => Sys2Proof.Machine.execConfigChange r g s
  | .gateListSwitch g => Sys2Proof.Machine.execGateListSwitch g s
  | .gateEntryExpiry g => Sys2Proof.Machine.execGateEntryExpiry g s
  | .queueSample => Sys2Proof.Machine.execQueueSample s
  | .watchdogExpiry p => Sys2Proof.Machine.execWatchdogExpiry p s
  | .ringmasterRestartDone p => Sys2Proof.Machine.execRingmasterRestartDone p s
  | .mbxPost c value body => Sys2Proof.Machine.execMbxPost c value body s
  | .mbxTake c => Sys2Proof.Machine.execMbxTake c s
  | .mbxDeviceTake c => Sys2Proof.Machine.execMbxDeviceTake c s
  | .mbxDevicePost c sender seq body => Sys2Proof.Machine.execMbxDevicePost c sender seq body s
  | .registerWrite addr size value => Sys2Proof.Machine.execRegisterWrite addr size value s
  | .domainTargetWrite r d => Sys2Proof.Machine.execDomainTargetWrite r d s
  | .domainWake d => Sys2Proof.Machine.execDomainWake d s
  | .domainTransitionDone d => Sys2Proof.Machine.execDomainTransitionDone d s
  | .domainOffAccess d addr write => Sys2Proof.Machine.execDomainOffAccess d addr write s
  | .heartbeatSend => Sys2Proof.Machine.execHeartbeatSend s
  | .heartbeatReceive data => Sys2Proof.Machine.execHeartbeatReceive data s
  | .declareFailed coord => Sys2Proof.Machine.execDeclareFailed coord s
  | .failedMessageReceive sender peer gtc => Sys2Proof.Machine.execFailedMessageReceive sender peer gtc s
  | .takeoverDeferred m => Sys2Proof.Machine.execTakeoverDeferred m s
  | .fenceMessageReceive corpus member epoch owner => Sys2Proof.Machine.execFenceMessageReceive corpus member epoch owner s
  | .staleFenceRefusal n epoch owner => Sys2Proof.Machine.execStaleFenceRefusal n epoch owner s
  | .mirrorOpenAck n cause => Sys2Proof.Machine.execMirrorOpenAck n cause s
  | .mirrorSnapshotReceive coord stream owner data => Sys2Proof.Machine.execMirrorSnapshotReceive coord stream owner data s
  | .mirrorAckReceive n seq => Sys2Proof.Machine.execMirrorAckReceive n seq s
  | .mirrorLag n => Sys2Proof.Machine.execMirrorLag n s
  | .markTimer n => Sys2Proof.Machine.execMarkTimer n s
  | .partnerWrite r n => Sys2Proof.Machine.execPartnerWrite r n s
  | .moveTo r n => Sys2Proof.Machine.execMoveTo r n s
  | .rejoin r => Sys2Proof.Machine.execRejoin r s
  | .rejoinedReceive coord => Sys2Proof.Machine.execRejoinedReceive coord s
  | .domainReset r => Sys2Proof.Machine.execDomainReset r s
  | .simDeath r => Sys2Proof.Machine.execSimDeath r s
  | .portDown r => Sys2Proof.Machine.execPortDown r s
  | .rmHang r => Sys2Proof.Machine.execRmHang r s
  | .caravanLoss r => Sys2Proof.Machine.execCaravanLoss r s
  | .hookEnd r => Sys2Proof.Machine.execHookEnd r s
  | .hookExpiry => Sys2Proof.Machine.execHookExpiry s
  | .lcStateWrite r => Sys2Proof.Machine.execLcStateWrite r s
  | .lcAuthWrite r => Sys2Proof.Machine.execLcAuthWrite r s
  | .evidenceReq r => Sys2Proof.Machine.execEvidenceReq r s
  | .modelKeyRelease r => Sys2Proof.Machine.execModelKeyRelease r s
  | .snapshotKeyRelease r => Sys2Proof.Machine.execSnapshotKeyRelease r s
  | .withdraw r => Sys2Proof.Machine.execWithdraw r s
  | .modelWeightsLoaded slot => Sys2Proof.Machine.execModelWeightsLoaded slot s
  | .scrubTenantScope r => Sys2Proof.Machine.execScrubTenantScope r s
  | .scrubDeviceScope r => Sys2Proof.Machine.execScrubDeviceScope r s
  | .scrubStepDone => Sys2Proof.Machine.execScrubStepDone s
  | .inputUndervoltage mv => Sys2Proof.Machine.execInputUndervoltage mv s
  | .caravanRailFault n => Sys2Proof.Machine.execCaravanRailFault n s
  | .railFault => Sys2Proof.Machine.execRailFault s
  | .refclkLoss => Sys2Proof.Machine.execRefclkLoss s
  | .refclkReturn => Sys2Proof.Machine.execRefclkReturn s
  | .refclkLossExpiry => Sys2Proof.Machine.execRefclkLossExpiry s
  | .droopTrip u => Sys2Proof.Machine.execDroopTrip u s
  | .droopRecover u => Sys2Proof.Machine.execDroopRecover u s
  | .junctionSample t => Sys2Proof.Machine.execJunctionSample t s
  | .powerAverage w => Sys2Proof.Machine.execPowerAverage w s
  | .thermalTrip t => Sys2Proof.Machine.execThermalTrip t s
  | .huSample vsns isns => Sys2Proof.Machine.execHuSample vsns isns s
  | .huTempSample code => Sys2Proof.Machine.execHuTempSample code s
  | .huTestStart => Sys2Proof.Machine.execHuTestStart s
  | .huTestNow r => Sys2Proof.Machine.execHuTestNow r s
  | .pwrFailAssert ns => Sys2Proof.Machine.execPwrFailAssert ns s
  | .flushStepDone => Sys2Proof.Machine.execFlushStepDone s
  | .pwrFailRelease => Sys2Proof.Machine.execPwrFailRelease s
  | .odOpen seq role slot clientNonce => Sys2Proof.Machine.execOdOpen seq role slot clientNonce s
  | .odClose session seq => Sys2Proof.Machine.execOdClose session seq s
  | .odRead src seq target idx sub offset maxLen => Sys2Proof.Machine.execOdRead src seq target idx sub offset maxLen s
  | .odWrite src seq target idx sub last offset total data => Sys2Proof.Machine.execOdWrite src seq target idx sub last offset total data s
  | .odWriteMany src seq target entries => Sys2Proof.Machine.execOdWriteMany src seq target entries s
  | .odDescribe src seq target idx sub => Sys2Proof.Machine.execOdDescribe src seq target idx sub s
  | .mgmtDatagramReceive data => Sys2Proof.Machine.execMgmtDatagramReceive data s
  | .sessionTimeout id => Sys2Proof.Machine.execSessionTimeout id s
  | .segmentTimeout src key => Sys2Proof.Machine.execSegmentTimeout src key s
  | .remoteOdRequest data => Sys2Proof.Machine.execRemoteOdRequest data s
  | .settingsApply => Sys2Proof.Machine.execSettingsApply s
  | .telemetry => Sys2Proof.Machine.execTelemetry s
  | .gtcExchange => Sys2Proof.Machine.execGtcExchange s
  | .timeFrameReceive k f stamp => Sys2Proof.Machine.execTimeFrameReceive k f stamp s
  | .gtcHoldover => Sys2Proof.Machine.execGtcHoldover s
  | .gtcRootWrite r => Sys2Proof.Machine.execGtcRootWrite r s
  | .gtcSyncInEdge => Sys2Proof.Machine.execGtcSyncInEdge s
  | .gtcSyncOutPulse => Sys2Proof.Machine.execGtcSyncOutPulse s
  | .phaseMonitorMismatch => Sys2Proof.Machine.execPhaseMonitorMismatch s
  | .snapControl r n => Sys2Proof.Machine.execSnapControl r n s
  | .rstNAssert => Sys2Proof.Machine.execRstNAssert s
  | .rstNRelease straps => Sys2Proof.Machine.execRstNRelease straps s
  | .startupStepDone facts => Sys2Proof.Machine.execStartupStepDone facts s
  | .ringAdmission => Sys2Proof.Machine.execRingAdmission s
  | .wrstNAssert => Sys2Proof.Machine.execWrstNAssert s
  | .warmReset r => Sys2Proof.Machine.execWarmReset r s
  | .perstNAssert => Sys2Proof.Machine.execPerstNAssert s
  | .perstNRelease => Sys2Proof.Machine.execPerstNRelease s
  | .bistRun r => Sys2Proof.Machine.execBistRun r s
  | .bistBankDone ok => Sys2Proof.Machine.execBistBankDone ok s
  | .scanRun r => Sys2Proof.Machine.execScanRun r s
  | .linkPcsLoss k => Sys2Proof.Machine.execLinkPcsLoss k s
  | .frameTransmitDone k => Sys2Proof.Machine.execFrameTransmitDone k s
  | .crossbarDecisionPoint res => Sys2Proof.Machine.execCrossbarDecisionPoint res s
  | .policerHoldRecolour k => Sys2Proof.Machine.execPolicerHoldRecolour k s
  | .mirrorOpenReceive coord stream o => Sys2Proof.Machine.execMirrorOpenReceive coord stream o s
  | .mirrorCloseReceive coord stream => Sys2Proof.Machine.execMirrorCloseReceive coord stream s
  | .locationSetReceive coord stream epoch entries => Sys2Proof.Machine.execLocationSetReceive coord stream epoch entries s
  | .markReceive coord stream owner data => Sys2Proof.Machine.execMarkReceive coord stream owner data s
  | .markAckReceive n coord => Sys2Proof.Machine.execMarkAckReceive n coord s
  | .portionListResendRequest corpus member epoch => Sys2Proof.Machine.execPortionListResendRequest corpus member epoch s
  | .bistGroupDone g unit fails repairs => Sys2Proof.Machine.execBistGroupDone g unit fails repairs s
  | .scanDone => Sys2Proof.Machine.execScanDone s
  | .t1sLinkChange v => Sys2Proof.Machine.execT1sLinkChange v s
  | .batchBuffersReturned n k => Sys2Proof.Machine.execBatchBuffersReturned n k s

end Sys2Proof.Machine
end

