-- ==== Sys2Proof/Machine/Bar0.lean ====
section
/-! DEFINITION. What a host's read of BAR0 returns (R5, R6, R310, R325, R404): registers that are write-only, reserved
fields and ranges that no table lists read zero. The one read with an effect, that of MBX_RECV_META, is the row MBX_TAKE. -/

namespace Sys2Proof.Machine

/-- A Boolean as a bit at place `i`. -/
def flagAt (b : Bool) (i : Nat) : Nat := if b then 2 ^ i else 0

/-- R404: MBX_STATUS of channel c: the bits of its table, and zero in bits 7, 15:10 and 63:32. -/
def State.mbxStatus (s : State) (c : Nat) : Nat :=
  let x := s.chan c
  let own := hostChan c
  flagAt (own && x.tx.isSome) 0 + flagAt (own && x.rx.isSome) 1 + flagAt x.emptyIrq 2 + flagAt x.wake 3 + flagAt x.overrun 4 +
  flagAt x.flushed 5 + flagAt x.denied 6 + 2 ^ 8 * s.devMode + 2 ^ 16

/-- R5, R6, R404: a register of channel c's window; of a channel of which the host is no end no message shows.
(DESIGN CHOICE, log entry 150) -/
def State.mailboxRead (s : State) (c off : Nat) : Nat :=
  let x := s.chan c
  let rx := if hostChan c then x.rx else none
  if off = 0x10 then (match rx with | some m => m.ptr | none => 0)
  else if off = 0x18 then (match rx with | some m => m.meta_ | none => 0)
  else if off = 0x20 then s.mbxStatus c
  else if off = 0x28 then flagAt x.irqEn 0
  else if off = 0x30 then x.rxBase
  else if off = 0x38 then x.rxLen
  else 0

/-- R5, R6, R325: a register of stream n's doorbell page. -/
def State.doorbellRead (s : State) (n off : Nat) : Nat :=
  let d := (s.stream n).dlv
  if off = 0x18 then d.dbLast % 2 ^ 16 + 2 ^ 16 * (d.dbSlot % 2 ^ 16) + 2 ^ 32 * (d.dbCount % 2 ^ 32)
  else if off = 0x20 then d.readySeq
  else if off = 0x28 then d.retiredSeq
  else 0

/-- R310, R334, R518: CAP: MQES 4,095, TO 30, DSTRD 0 and MPSMIN 0 (4 KiB) at the places of the published standard, which
gives the other bits. (PRESUMED, log entry 151) -/
def nvmeCap : Nat :=
  let w := Config.nvmeReg 0
  4095 + 2 ^ 16 * bits w.toNat 23 16 + 2 ^ 24 * 30 + 2 ^ 36 * bits w.toNat 47 36 + 2 ^ 52 * bits w.toNat 63 52

/-- R310, R334, R518: an NVMe controller register as an aligned 8-byte read returns it; a doorbell reads zero. -/
def State.nvmeRead8 (s : State) (a : Nat) : Nat :=
  let r (k : Nat) : Nat := Tbl.get s.host.nvmeRegs 0 k
  let cc := r 0x14 / 2 * 2 + flagAt s.host.enabled 0
  let csts := flagAt s.host.ready 0 + flagAt (s.host.cfs || s.sys.halted) 1 + 4 * bits (Config.nvmeReg 0x1C).toNat 31 2
  if a = 0x00 then nvmeCap
  else if a = 0x08 then 0x00020000 + 2 ^ 32 * r 0x0C
  else if a = 0x10 then r 0x0C + 2 ^ 32 * cc
  else if a = 0x18 then 2 ^ 32 * csts
  else if a = 0x20 then 2 ^ 32 * r 0x24
  else if a = 0x28 then r 0x28
  else if a = 0x30 then r 0x30
  else if a < 0x1000 then (Config.nvmeReg a).toNat
  else 0

/-- R310: the aligned 8 bytes of BAR0 at an offset. -/
def State.bar0Word (s : State) (a : Nat) : Nat :=
  if a < 0x4000 then s.nvmeRead8 a
  else if 0x10000 ≤ a && a < 0x18000 then
    let i := (a - 0x10000) / 4
    Tbl.get s.host.msix 0 i + 2 ^ 32 * Tbl.get s.host.msix 0 (i + 1)
  else if 0x18000 ≤ a && a < 0x18100 then bits s.host.msixPending (8 * (a - 0x18000) + 63) (8 * (a - 0x18000))
  else if 0x100000 ≤ a && a < 0x140000 then s.doorbellRead ((a - 0x100000) / 0x1000) (a % 0x1000)
  else if 0x200000 ≤ a && a < 0x240000 then s.mailboxRead ((a - 0x200000) / 0x1000) (a % 0x1000)
  else if 0x800000 ≤ a && a < 0x820000 then (Tbl.find s.host.cxlRegs a).getD (Config.cxlReg a).toNat
  else 0

/-- R310, R325, R404: an aligned read of 4 or 8 bytes; the mailbox windows and doorbell pages answer 8 bytes only.
(DESIGN CHOICE, log entry 150) -/
def State.bar0Read (s : State) (a size : Nat) : Nat :=
  let paged := 0x100000 ≤ a && a < 0x240000
  if size = 8 && a % 8 = 0 then s.bar0Word a
  else if size = 4 && a % 4 = 0 && !paged then bits (s.bar0Word (a / 8 * 8)) (8 * (a % 8) + 31) (8 * (a % 8))
  else 0

end Sys2Proof.Machine
end

