-- ==== Sys2Proof/WellFormed.lean ====
section
/-! DEFINITION. Which commands are well formed: numbers lie in the ranges of the things that they name, and fields within
their widths. -/

namespace Sys2Proof

open Sys2Proof.Machine

/-- R4: a 16-bit field. -/
def u16 (v : Nat) : Bool := decide (v < 2 ^ 16)
/-- R4: a 32-bit field. -/
def u32 (v : Nat) : Bool := decide (v < 2 ^ 32)
/-- R4: a 64-bit field. -/
def u64 (v : Nat) : Bool := decide (v < 2 ^ 64)
/-- R334: an NSID. -/
def isNsid (v : Nat) : Bool := decide (1 ≤ v) && decide (v ≤ 256)
/-- R411: a number of the domain table. -/
def isDomainNumber (d : Nat) : Bool := decide (d < 4) || (decide (0x10 ≤ d) && decide (d < 0x48))

/-- R310, R335: an NVMe command: a queue of the controller and fields within their widths. -/
def Machine.NvmeCmd.wf (c : NvmeCmd) : Bool :=
  decide (c.sq ≤ 1024) && u16 c.cid && u32 c.nsid && u32 c.cdw2 && u32 c.cdw10 && u32 c.cdw11 && u32 c.cdw12 && u32 c.cdw13 &&
  u32 c.cdw14 && u32 c.cdw15 && u64 c.prp

/-- R402, R500, R504: a requester. -/
def Machine.OdSource.wf : OdSource → Bool
  | .channel c => decide (c < 64)
  | .session id => u32 id && decide (id ≠ 0)
  | .remote coord _ => decide (coord < 8192)

/-- R494: a write of an object. -/
def Machine.OdReq.wf (r : OdReq) : Bool := r.src.wf && u32 r.seq

/-- R355: a frame: its fields within their widths and a payload of at most 4 KiB. -/
def Machine.Frame.wf (f : Frame) : Bool := 
  decide (f.ftype < 16) && decide (f.vl < 8) && decide (f.lseq < 4096) && decide (f.lack < 4096) && u16 f.tenant &&
  decide (f.dst < 8192) && decide (f.src < 8192) && u32 f.msgId && u32 f.offset && u32 f.total && decide (f.op < 16) &&
  u16 f.dqp && u32 f.fence && u32 f.rkey && u32 f.rbase && decide (f.payload.length ≤ 4096)

/-- R260: a requester that the device has. -/
def requesterOk : Requester → Bool
  | .stream n => decide (n < 64)
  | .nvme q => decide (q < 65536)
  | .fabric d => decide (d < 2 ^ 24)
  | .ringmaster p => decide (p < 4)

/-- R262: an ALLOC: 1 to 256 buffers of a pool. -/
def Machine.AllocReq.wf (a : AllocReq) : Bool :=
  decide (a.pool < 64) && requesterOk a.source && decide (1 ≤ a.count) && decide (a.count ≤ 256) && decide (a.cls < 8)

/-- A command is well formed. -/
def Instr.wf : Instr → Bool
  | .pipelineLoad c => c.wf
  | .unload r k => r.wf && decide (k < 16)
  | .imageSlotWrite r n => r.wf && decide (n < 64)
  | .splitModeWrite r n _ => r.wf && decide (n < 64)
  | .clockExactWrite r n => r.wf && decide (n < 64)
  | .streamStart r n => r.wf && decide (n < 64)
  | .streamPause r n => r.wf && decide (n < 64)
  | .pauseDrainDone n => decide (n < 64)
  | .streamResume r n => r.wf && decide (n < 64)
  | .streamStop r n => r.wf && decide (n < 64)
  | .pipelineReset r n => r.wf && decide (n < 64)
  | .streamRelease r n => r.wf && decide (n < 64)
  | .jobAdmit => true
  | .stageComplete _ stage _ => decide (stage < 64)
  | .codecBlockDone e => decide (e < 16)
  | .add core => decide (core < 384)
  | .mul core => decide (core < 384)
  | .divs core => decide (core < 384)
  | .sar core => decide (core < 384)
  | .addi core => decide (core < 384)
  | .j core => decide (core < 384)
  | .beq core => decide (core < 384)
  | .blt core => decide (core < 384)
  | .jal core => decide (core < 384)
  | .jr core => decide (core < 384)
  | .ld64 core => decide (core < 384)
  | .st64 core => decide (core < 384)
  | .vadd core => decide (core < 384)
  | .vmul core => decide (core < 384)
  | .vdiv core => decide (core < 384)
  | .vmin core => decide (core < 384)
  | .vmax core => decide (core < 384)
  | .vsqrt core => decide (core < 384)
  | .vexp2 core => decide (core < 384)
  | .vlog2 core => decide (core < 384)
  | .vadds core => decide (core < 384)
  | .vbcast core => decide (core < 384)
  | .vfma core => decide (core < 384)
  | .vfms core => decide (core < 384)
  | .vcvt core => decide (core < 384)
  | .vcvtz core => decide (core < 384)
  | .vredsum core => decide (core < 384)
  | .vredsumw core => decide (core < 384)
  | .vredmax core => decide (core < 384)
  | .vld core => decide (core < 384)
  | .vst core => decide (core < 384)
  | .vgather core => decide (core < 384)
  | .vscatter core => decide (core < 384)
  | .vcmplt core => decide (core < 384)
  | .pfirstn core => decide (core < 384)
  | .tissue core => decide (core < 384)
  | .twait core => decide (core < 384)
  | .tmuDescriptorDone core _ => decide (core < 384)
  | .halt core => decide (core < 384)
  | .draw core => decide (core < 384)
  | .vdraw core => decide (core < 384)
  | .srd core => decide (core < 384)
  | .kernelStepLimit core => decide (core < 384)
  | .scratchReserve _ stage => decide (stage < 64)
  | .portionListReceive n epoch owner _ => decide (n < 64) && u32 epoch && u16 owner
  | .epochBegin n => decide (n < 64)
  | .sampleMigrate nsid idx _ => isNsid nsid && u64 idx
  | .dedupBandReceive corpus k band idx sig => u32 corpus && decide (k < 8) && u32 band && u64 idx && decide (sig < 2 ^ 256)
  | .batchOpen n => decide (n < 64)
  | .threshEpochWrite r n => r.wf && decide (n < 64)
  | .settlePosition n => decide (n < 64)
  | .exactRelease _ => true
  | .launchWindow n => decide (n < 64)
  | .slotDeliver n => decide (n < 64)
  | .fabricDeliver n => decide (n < 64)
  | .deliverWritten n => decide (n < 64)
  | .dbRetire n value => decide (n < 64) && u64 value
  | .dbRedeliver n value => decide (n < 64) && u64 value
  | .dbBackfill n value => decide (n < 64) && u64 value
  | .cxlMemRead dpa => decide (dpa < 2 ^ 38)
  | .cxlMemWrite dpa data => decide (dpa < 2 ^ 38) && decide (data.length ≤ 64)
  | .hostDeadlineExpiry n _ => decide (n < 64)
  | .bufferAlloc a => a.wf
  | .bufferRelease releaser handle => requesterOk releaser && u64 handle
  | .poolPlaceWrite r p => r.wf && decide (p < 64)
  | .reclaim r p => r.wf && decide (p < 64)
  | .dramScrubRead _ _ _ => true
  | .oasisScrubRead _ _ _ => true
  | .phyRecalibrate => true
  | .destage m => decide (m < 16)
  | .programComplete _ _ => true
  | .eraseComplete _ _ => true
  | .nandReadComplete _ step => decide (step ≤ 18)
  | .unitCopyCommit _ => true
  | .gcVictimSelect m => decide (m < 16)
  | .patrolRead step => decide (step ≤ 18)
  | .checkpointWrite => true
  | .flashTempSample _ => true
  | .nvmeSqDoorbell q tail => decide (q ≤ 1024) && u16 tail
  | .nvmeCqDoorbell q head => decide (q ≤ 1024) && u16 head
  | .controllerEnable _ => true
  | .nvmeIdentify c => c.wf
  | .nvmeGetLogPage c => c.wf
  | .nvmeGetFeatures c => c.wf
  | .nvmeSetFeatures c => c.wf
  | .nvmeCreateIoSq c => c.wf
  | .nvmeCreateIoCq c => c.wf
  | .nvmeDeleteIoSq c => c.wf
  | .nvmeDeleteIoCq c => c.wf
  | .nvmeAbort c => c.wf
  | .asynchronousEventRequest c => c.wf
  | .namespaceManagement c => c.wf
  | .namespaceAttachment c => c.wf
  | .formatNvm c => c.wf
  | .firmwareImageDownload c => c.wf
  | .firmwareCommit c => c.wf
  | .corpusCreate c => c.wf
  | .corpusSeal c => c.wf
  | .snapshotRead c => c.wf
  | .snapshotRestore c => c.wf
  | .nvmeRead c => c.wf
  | .nvmeWrite c => c.wf
  | .nvmeFlush c => c.wf
  | .datasetManagement c => c.wf
  | .writeZeroes c => c.wf
  | .ingest c => c.wf
  | .ingestPieceTimeout nsid idx => isNsid nsid && u64 idx
  | .writeThroughDone sq cid => decide (sq ≤ 1024) && u16 cid
  | .configRequest offset _ => decide (offset < 4096)
  | .spdmVendorRequest _ => true
  | .identifyMemoryDevice => true
  | .getPartitionInfo => true
  | .getHealthInfo => true
  | .getEventRecords log => decide (log < 4)
  | .clearEventRecords log _ => decide (log < 4)
  | .getSupportedLogs => true
  | .getLog _ => true
  | .getPoisonList _ _ => true
  | .linkPcsLock k => decide (k < 8)
  | .versionFrameReceive k f => decide (k < 8) && f.wf
  | .dataFrameReceive k f => decide (k < 8) && f.wf
  | .creditFrameReceive k f => decide (k < 8) && f.wf
  | .nakFrameReceive k f => decide (k < 8) && f.wf
  | .idleFrameReceive k f => decide (k < 8) && f.wf
  | .replayTimeout k => decide (k < 8)
  | .retrainTimeout k => decide (k < 8)
  | .creditFrameTimer k => decide (k < 8)
  | .routeWaitExpiry _ msgId offset => u32 msgId && u32 offset
  | .reassemblyTimeout _ msgId => u32 msgId
  | .respReceive f => f.wf
  | .busyBackoffExpiry msgId => u32 msgId
  | .qpContextFetchDone k qp => decide (k < 8) && decide (qp < 2 ^ 24)
  | .rdmaWriteReceive qp rkey addr _ => decide (qp < 2 ^ 24) && u32 rkey && u64 addr
  | .rdmaReadRequest qp rkey addr len => decide (qp < 2 ^ 24) && u32 rkey && u64 addr && u32 len
  | .roceSendReceive qp => decide (qp < 2 ^ 24)
  | .roceAckReceive qp psn => decide (qp < 2 ^ 24) && decide (psn < 2 ^ 24)
  | .roceRetryTimeout qp => decide (qp < 2 ^ 24)
  | .cnpReceive qp => decide (qp < 2 ^ 24)
  | .cnpRateRestore qp => decide (qp < 2 ^ 24)
  | .shaperParamWrite r q sub => r.wf && decide (q < 176) && decide (1 ≤ sub) && decide (sub ≤ 4)
  | .configChange r g => r.wf && decide (g < 9)
  | .gateListSwitch g => decide (g < 9)
  | .gateEntryExpiry g => decide (g < 9)
  | .queueSample => true
  | .watchdogExpiry p => decide (p < 4)
  | .ringmasterRestartDone p => decide (p < 4)
  | .mbxPost c value _ => decide (c < 64) && u64 value
  | .mbxTake c => decide (c < 64)
  | .mbxDeviceTake c => decide (c < 64)
  | .mbxDevicePost c sender seq _ => decide (c < 64) && u16 sender && u32 seq
  | .registerWrite addr size value => decide (addr < 2 ^ 24) && decide (1 ≤ size) && decide (size ≤ 8) && u64 value
  | .domainTargetWrite r d => r.wf && isDomainNumber d
  | .domainWake d => isDomainNumber d
  | .domainTransitionDone d => isDomainNumber d
  | .domainOffAccess d addr _ => isDomainNumber d && decide (addr < 2 ^ 24)
  | .heartbeatSend => true
  | .heartbeatReceive _ => true
  | .declareFailed coord => decide (coord < 8192)
  | .failedMessageReceive sender peer _ => decide (sender < 8192) && decide (peer < 8192)
  | .takeoverDeferred m => decide (m < 128)
  | .fenceMessageReceive corpus member epoch owner => u32 corpus && u16 member && u32 epoch && u16 owner
  | .staleFenceRefusal n epoch owner => decide (n < 64) && u32 epoch && u16 owner
  | .mirrorOpenAck n _ => decide (n < 64)
  | .mirrorSnapshotReceive coord stream owner _ => decide (coord < 8192) && decide (stream < 64) && u16 owner
  | .mirrorAckReceive n seq => decide (n < 64) && u32 seq
  | .mirrorLag n => decide (n < 64)
  | .markTimer n => decide (n < 64)
  | .partnerWrite r n => r.wf && decide (n < 64)
  | .moveTo r n => r.wf && decide (n < 64)
  | .rejoin r => r.wf
  | .rejoinedReceive coord => decide (coord < 8192)
  | .domainReset r => r.wf
  | .simDeath r => r.wf
  | .portDown r => r.wf
  | .rmHang r => r.wf
  | .caravanLoss r => r.wf
  | .hookEnd r => r.wf
  | .hookExpiry => true
  | .lcStateWrite r => r.wf
  | .lcAuthWrite r => r.wf
  | .evidenceReq r => r.wf
  | .modelKeyRelease r => r.wf
  | .snapshotKeyRelease r => r.wf
  | .withdraw r => r.wf
  | .modelWeightsLoaded _ => true
  | .scrubTenantScope r => r.wf
  | .scrubDeviceScope r => r.wf
  | .scrubStepDone => true
  | .inputUndervoltage _ => true
  | .caravanRailFault n => decide (n < 48)
  | .railFault => true
  | .refclkLoss => true
  | .refclkReturn => true
  | .refclkLossExpiry => true
  | .droopTrip u => decide (u ≤ 48)
  | .droopRecover u => decide (u ≤ 48)
  | .junctionSample _ => true
  | .powerAverage _ => true
  | .thermalTrip _ => true
  | .huSample v i => decide (v < 4096) && decide (i < 4096)
  | .huTempSample code => decide (code < 4096)
  | .huTestStart => true
  | .huTestNow r => r.wf
  | .pwrFailAssert _ => true
  | .flushStepDone => true
  | .pwrFailRelease => true
  | .odOpen seq role slot clientNonce => u32 seq && decide (role < 256) && decide (slot < 256) && clientNonce.length == 32
  | .odClose session seq => u32 session && u32 seq
  | .odRead src seq target idx sub offset maxLen => src.wf && u32 seq && u16 target && u16 idx && decide (sub < 256) && u32 offset && u32 maxLen
  | .odWrite src seq target idx sub _ offset total _ => src.wf && u32 seq && u16 target && u16 idx && decide (sub < 256) && u32 offset && u32 total
  | .odWriteMany src seq target entries => src.wf && u32 seq && u16 target && decide (1 ≤ entries.length) && decide (entries.length ≤ 16)
  | .odDescribe src seq target idx sub => src.wf && u32 seq && u16 target && u16 idx && decide (sub < 256)
  | .mgmtDatagramReceive _ => true
  | .sessionTimeout _ => true
  | .segmentTimeout src _ => src.wf
  | .remoteOdRequest _ => true
  | .settingsApply => true
  | .telemetry => true
  | .gtcExchange => true
  | .timeFrameReceive k f _ => decide (k < 8) && f.wf
  | .gtcHoldover => true
  | .gtcRootWrite r => r.wf
  | .gtcSyncInEdge => true
  | .gtcSyncOutPulse => true
  | .phaseMonitorMismatch => true
  | .snapControl r n => r.wf && decide (n < 64)
  | .rstNAssert => true
  | .rstNRelease straps => decide (straps < 32)
  | .startupStepDone _ => true
  | .ringAdmission => true
  | .wrstNAssert => true
  | .warmReset r => r.wf
  | .perstNAssert => true
  | .perstNRelease => true
  | .bistRun r => r.wf
  | .bistBankDone _ => true
  | .scanRun r => r.wf
  | .linkPcsLoss k => decide (k < 8)
  | .frameTransmitDone k => decide (k < 8)
  | .crossbarDecisionPoint res => decide (17 ≤ res) && decide (res ≤ 21)
  | .policerHoldRecolour k => decide (k < 8)
  | .mirrorOpenReceive coord stream _ => decide (coord < 8192) && decide (stream < 64)
  | .mirrorCloseReceive coord stream => decide (coord < 8192) && decide (stream < 64)
  | .locationSetReceive coord stream epoch _ => decide (coord < 8192) && decide (stream < 64) && u32 epoch
  | .markReceive coord stream owner _ => decide (coord < 8192) && decide (stream < 64) && u16 owner
  | .markAckReceive n coord => decide (n < 64) && decide (coord < 8192)
  | .portionListResendRequest corpus member epoch => u32 corpus && u16 member && u32 epoch
  | .bistGroupDone g _ _ _ => decide (g < 7)
  | .scanDone => true
  | .t1sLinkChange v => decide (v < 4)
  | .batchBuffersReturned n _ => decide (n < 64)

end Sys2Proof
end

