-- ==== Sys2Proof/Safety.lean ====
section
/-! DEFINITION. What counts as a safe run, and the terms in which the statements speak of a core, its registers and its
memory. -/

namespace Sys2Proof.Machine

open Sys2Proof

/-! ## Safe runs -/

/-- A step is safe when it answers a next state. -/
def State.safe (s : State) : Prop := ∃ t, step s = .next t

/-- A run of `k` steps is safe when no step of it stops. -/
def State.safeRun (s : State) (k : Nat) : Prop := ∃ t : State, Sys2Proof.core.run k s = Host.Outcome.next t

/-! ## A core at an instruction -/

/-- R97: core `core` is in the state `x`, runs the kernel of the job `id` within its step limit, and its next instruction is
the word `w`, of the row (CLASS, OP) = `op`. -/
structure State.AtWord (s : State) (core id : Nat) (x : Core) (w : Nat) (op : Nat × Nat) : Prop where
  /-- R55: the device has 384 cores. -/
  isCore : core < Config.cores
  /-- R472: the core's Caravan is not suppressed by a droop. -/
  clocked : s.power.droop.contains (core / 8) = false
  /-- R519: the device is out of reset and not halted. -/
  up : s.up = true
  /-- The core's state. -/
  here : s.core core = x
  /-- R55: it runs the job. -/
  running : x.job = some id
  /-- R96: the step limit is not reached. -/
  within : x.steps < x.stepLimit * 1024
  /-- R68: the instruction at PC. -/
  word : (x.kernel[x.pc]?).map BitVec.toNat = some w
  /-- R65: its row. -/
  row : (iClass w, iOp w) = op

/-- R61, R62: the byte that a kernel reads at an address; an address outside every window reads as zero here. -/
def Core.byteAt (x : Core) (a : Nat) : Byte := (x.load a 1).headD 0

/-- R68: core `y` is core `x` with one instruction retired and nothing else changed but vector registers. -/
def Core.onlyVectors (x y : Core) : Prop := y = { x with v := y.v, pc := x.pc + 1, steps := x.steps + 1 }

/-- R68: core `y` is core `x` with one instruction retired and nothing else changed but the two writable windows. -/
def Core.onlyMemory (x y : Core) : Prop :=
  y = { x with scratch := y.scratch, output := y.output, pc := x.pc + 1, steps := x.steps + 1 }

/-- R60, R71: `y` is `x` after an instruction `w` that writes the `n` elements of width `b` of V[DST]: element i is `new i`
where the governing predicate is set; elsewhere it is zero if PZ is 1 and keeps its value if PZ is 0. -/
def Core.writesElems (x y : Core) (w b n : Nat) (new : Nat → Nat) : Prop :=
  x.onlyVectors y ∧ (∀ r, r ≠ iDst w → y.vr r = x.vr r) ∧
  ∀ i, i < n → elem (y.vr (iDst w)) b i =
    if (x.pr (iPred w)).testBit i then new i % 2 ^ b else if iPz w then 0 else elem (x.vr (iDst w)) b i

/-- R71, R73: `y` is `x` after a store of the elements `es`, each of `size` bytes at `adr i` with the value `val i`: a byte
that no element covers keeps its value, and a byte of an element is that of the last element at its address. -/
def Core.storesElems (x y : Core) (es : List Nat) (size : Nat) (adr val : Nat → Nat) : Prop :=
  x.onlyMemory y ∧
  (∀ a, (∀ i ∈ es, a < adr i ∨ adr i + size ≤ a) → y.byteAt a = x.byteAt a) ∧
  ∀ i ∈ es, ∀ j, j < size → (∀ k ∈ es, i < k → adr k ≠ adr i) → y.byteAt (adr i + j) = BitVec.ofNat 8 (val i / 256 ^ j)

/-- R58, R61: both writable windows of a core are in the canonical form of memory. -/
def Core.tidy (x : Core) : Bool := Memory.wf x.scratch && Memory.wf x.output

/-- R58, R61: the windows of every core are in the canonical form of memory. -/
def State.coresTidy (s : State) : Bool := s.cores.all fun c => c.2.tidy

/-! ## Requests of the object dictionary -/

/-- R492: the machine at the server of a request: a request of the management port that Ringmaster 0 serves keeps the domain
SPINE awake. -/
def State.atServer (s : State) (src : OdSource) (enclave : Bool) : State :=
  match src, enclave with
  | .session _, false => s.touch 0
  | _, _ => s

/-- R494 to R503, R544: the request `r` to write the whole of the object `key` passes every check before that of the owning
chapter: `role` is the requester's role, and `t` is the machine that has received it (the session's SEQ taken, an assembly of
the requester discarded, the domain SPINE kept awake for a request of the management port). -/
structure State.ReceivesWrite (s : State) (r : OdReq) (key : Nat) (role : Role) (t : State) : Prop where
  /-- R519, R522: the enclave serves. -/
  up : s.enclaveUp = true
  /-- R447: it is not SCRAPPED. -/
  alive : s.sec.lc ≠ 5
  /-- R492: the server of the object runs. -/
  served : enclaveServes key = true ∨ s.rm0Serves = true
  /-- R463, R489, R500: the request is accepted, and its role is not being scrubbed. -/
  received : ∃ s1, s.acceptRequest r.src r.seq = some s1 ∧ s1.roleOf r.src = some role ∧ s1.roleScrubbed role = false ∧
    t = (s1.atServer r.src (enclaveServes key)).setAsm r.src none
  /-- R497: the data fits the transport. -/
  fits : r.data.length ≤ 65536 ∧ (s.dataLimit r.src = 1024 → r.data.length ≤ 1024)
  /-- R544: checks 2 to 7. -/
  valid : t.writeCheck role key r.data = rOk

/-- R463, R489, R492, R500, R503: a request for this device, of a server that is the enclave or Ringmaster 0, reaches that server:
`role` is the requester's role, and `t` is the machine that has received it. -/
structure State.Admits (s : State) (src : OdSource) (seq : Nat) (enclave : Bool) (role : Role) (t : State) : Prop where
  /-- R519, R522: the enclave serves. -/
  up : s.enclaveUp = true
  /-- R447: it is not SCRAPPED. -/
  alive : s.sec.lc ≠ 5
  /-- R492: the server runs. -/
  served : enclave = true ∨ s.rm0Serves = true
  /-- R463, R489, R500: the request is accepted, and its role is not being scrubbed. -/
  received : ∃ s1, s.acceptRequest src seq = some s1 ∧ s1.roleOf src = some role ∧ s1.roleScrubbed role = false ∧
    t = s1.atServer src enclave

/-- R495: the write `r` is answered OK by a machine that has applied it. -/
def State.wroteOk (t : State) (r : OdReq) : Res := .next (t.answer r.src 0x11 r.seq rOk 0 [])

/-- R544: the write `r` is answered STATE with a status, and nothing but the answer changes. -/
def State.wroteNot (t : State) (r : OdReq) (status : Nat) : Res := .next (t.answer r.src 0x11 r.seq rState status [])

/-! ## NVMe commands -/

/-- R310, R335, R343: the NVMe command `c` is at the head of its queue, admin or I/O, and the controller takes it. -/
structure State.TakesCommand (s : State) (admin : Bool) (c : NvmeCmd) : Prop where
  /-- R519: the device is out of reset and not halted. -/
  up : s.up = true
  /-- R310: the entry waits and its completion has room. -/
  waits : s.nvmeCanTake c = true
  /-- R335: it stands in a queue of its kind. -/
  kind : admin = (c.sq == 0)
  /-- R335: no abort names it. -/
  live : s.aborted c = false

end Sys2Proof.Machine
end

