-- ==== Sys2Proof/Certificates/Slice0/Obligations.lean ====
section
/-! DEFINITION. The statements about the machine, family by family in the order of the table. A statement about a command
says which state it answers, so what the state leaves out of its record update is unchanged. -/

open Sys2Proof Sys2Proof.Machine

/-! ## Kernels (R54 to R98) -/

/-- R65, R67, R70: what ADD, MUL, DIVS, SAR and ADDI write to X[DST]; the instruction is retired and nothing else of the
machine changes. A quotient by zero is 0 and that of the most negative value by −1 is itself. -/
def Obligations.ScalarArithmeticResults : Prop :=
  ∀ (s : State) (core id : Nat) (x : Core) (w : Nat),
  (s.AtWord core id x w (0, 0x00) → saluOk w = true →
    ∃ v : Word, exec (.add core) s = .next (s.setCore core (x.setX (iDst w) v).advance) ∧
      v.toNat = (x.xn (iSrcA w) + x.xn (iSrcB w)) % 2 ^ 64) ∧
  (s.AtWord core id x w (0, 0x02) → saluOk w = true →
    ∃ v : Word, exec (.mul core) s = .next (s.setCore core (x.setX (iDst w) v).advance) ∧
      v.toNat = (x.xn (iSrcA w) * x.xn (iSrcB w)) % 2 ^ 64) ∧
  (s.AtWord core id x w (0, 0x05) → saluOk w = true →
    ∃ v : Word, exec (.divs core) s = .next (s.setCore core (x.setX (iDst w) v).advance) ∧
      v.toInt = if x.xr (iSrcB w) = 0 then 0
        else if (x.xr (iSrcA w)).toInt = -2 ^ 63 ∧ (x.xr (iSrcB w)).toInt = -1 then -2 ^ 63
        else (x.xr (iSrcA w)).toInt.tdiv (x.xr (iSrcB w)).toInt) ∧
  (s.AtWord core id x w (0, 0x0C) → saluOk w = true →
    ∃ v : Word, exec (.sar core) s = .next (s.setCore core (x.setX (iDst w) v).advance) ∧
      v.toInt = (x.xr (iSrcA w)).toInt / 2 ^ (x.xn (iSrcB w) % 64)) ∧
  (s.AtWord core id x w (1, 0x00) → noVector w = true →
    ∃ v : Word, exec (.addi core) s = .next (s.setCore core (x.setX (iDst w) v).advance) ∧
      (v.toNat : Int) = ((x.xn (iSrcA w) : Int) + iImm35 w) % 2 ^ 64)

/-- R68: where J, BEQ, BLT, JAL and JR go: to the target when it lies in the kernel, to the next instruction when a condition
does not hold. JAL writes PC + 1 to X31. R68: a branch or jump taken to a target outside the kernel ends the job with
KERNEL_FAULT. -/
def Obligations.BranchesAndJumps : Prop :=
  (∀ (s : State) (core id : Nat) (x : Core) (w t : Nat),
  branchOk w = true → t < x.kernel.length →
  (s.AtWord core id x w (2, 0x00) → (t : Int) = x.pc + iOffset w →
    exec (.j core) s = .next (s.setCore core { x with pc := t, steps := x.steps + 1 })) ∧
  (s.AtWord core id x w (2, 0x01) → (t : Int) = x.pc + iOffset w → x.xr (iSrcA w) = x.xr (iSrcB w) →
    exec (.beq core) s = .next (s.setCore core { x with pc := t, steps := x.steps + 1 })) ∧
  (s.AtWord core id x w (2, 0x01) → x.xr (iSrcA w) ≠ x.xr (iSrcB w) →
    exec (.beq core) s = .next (s.setCore core { x with pc := x.pc + 1, steps := x.steps + 1 })) ∧
  (s.AtWord core id x w (2, 0x03) → (t : Int) = x.pc + iOffset w → (x.xr (iSrcA w)).toInt < (x.xr (iSrcB w)).toInt →
    exec (.blt core) s = .next (s.setCore core { x with pc := t, steps := x.steps + 1 })) ∧
  (s.AtWord core id x w (2, 0x03) → (x.xr (iSrcB w)).toInt ≤ (x.xr (iSrcA w)).toInt →
    exec (.blt core) s = .next (s.setCore core { x with pc := x.pc + 1, steps := x.steps + 1 })) ∧
  (s.AtWord core id x w (2, 0x05) → (t : Int) = x.pc + iOffset w →
    exec (.jal core) s =
      .next (s.setCore core { x.setX 31 (BitVec.ofNat 64 (x.pc + 1)) with pc := t, steps := x.steps + 1 })) ∧
  (s.AtWord core id x w (2, 0x06) → t = x.xn (iSrcA w) →
    exec (.jr core) s = .next (s.setCore core { x with pc := t, steps := x.steps + 1 }))) ∧
  (∀ (s : State) (core id : Nat) (x : Core) (w : Nat),
  (x.pc + iOffset w < 0 ∨ (x.kernel.length : Int) ≤ x.pc + iOffset w →
    (s.AtWord core id x w (2, 0x00) →
      exec (.j core) s = .next (s.endKernel core id x.stage (.error stKernelFault))) ∧
    (s.AtWord core id x w (2, 0x01) → x.xr (iSrcA w) = x.xr (iSrcB w) →
      exec (.beq core) s = .next (s.endKernel core id x.stage (.error stKernelFault))) ∧
    (s.AtWord core id x w (2, 0x03) → (x.xr (iSrcA w)).toInt < (x.xr (iSrcB w)).toInt →
      exec (.blt core) s = .next (s.endKernel core id x.stage (.error stKernelFault))) ∧
    (s.AtWord core id x w (2, 0x05) →
      exec (.jal core) s = .next (s.endKernel core id x.stage (.error stKernelFault)))) ∧
  (s.AtWord core id x w (2, 0x06) → x.kernel.length ≤ x.xn (iSrcA w) →
    exec (.jr core) s = .next (s.endKernel core id x.stage (.error stKernelFault))))

/-- R58: X0 reads zero and P0 reads all ones; writes of them are ignored, and any other register reads what was last written
to it, whatever the other registers hold. -/
def Obligations.RegisterReadAfterWrite : Prop :=
  ∀ (x : Core) (q r : Nat) (v : Word) (n m : Nat),
  x.xr 0 = 0 ∧ x.pr 0 = 2 ^ 128 - 1 ∧ x.setX 0 v = x ∧ x.setP 0 m = x ∧
  (x.setX r v).xr q = (if q = r ∧ r ≠ 0 then v else x.xr q) ∧
  (x.setV r n).vr q = (if q = r then n % 2 ^ 1024 else x.vr q) ∧
  (x.setP r m).pr q = (if q = r ∧ r ≠ 0 then m % 2 ^ 128 else x.pr q)

/-- R61 to R63: LD64 writes to X[DST] the eight bytes at X[SRCA] + IMM35 modulo 2^64, little-endian, when that address is a
multiple of 8 in a readable window and no TMU operation holds it up. Nothing else changes. R61, R63: ST64 stores the eight
bytes of X[DST] at X[SRCA] + IMM35 modulo 2^64; every other byte reads as before. -/
def Obligations.ScalarMemoryAccess : Prop :=
  (∀ (s : State) (core id : Nat) (x : Core) (w a : Nat),
  s.AtWord core id x w (3, 0x03) → noVector w = true → (a : Int) = ((x.xn (iSrcA w) : Int) + iImm35 w) % 2 ^ 64 →
  x.access false a 8 8 = 0 → x.blocked false a 8 = false →
  ∃ v : Word, exec (.ld64 core) s = .next (s.setCore core (x.setX (iDst w) v).advance) ∧
    ∀ j, j < 8 → BitVec.ofNat 8 (v.toNat / 256 ^ j) = x.byteAt (a + j)) ∧
  (∀ (s : State) (core id : Nat) (x : Core) (w a : Nat),
  s.AtWord core id x w (3, 0x13) → noVector w = true → (a : Int) = ((x.xn (iSrcA w) : Int) + iImm35 w) % 2 ^ 64 →
  x.access true a 8 8 = 0 → x.blocked true a 8 = false →
  ∃ y, exec (.st64 core) s = .next (s.setCore core y) ∧
    x.storesElems y [0] 8 (fun _ => a) (fun _ => x.xn (iDst w)))

/-- R69 to R71, R79 to R81, R84: the elements that the element-wise instructions write. Integer results wrap modulo 2^w
(VADDS saturates); each floating-point result is rounded once. -/
def Obligations.VectorElementResults : Prop :=
  ∀ (s : State) (core id : Nat) (x : Core) (w : Nat),
  let e := iEtype w
  let b := eBits e
  let A := fun i => elem (x.vr (iSrcA w)) b i
  let B := fun i => elem (x.vr (iSrcB w)) b i
  let C := fun i => elem (x.vr (iSrcC w)) b i
  let gives := fun (r : Res) (new : Nat → Nat) => ∃ y, r = .next (s.setCore core y) ∧ x.writesElems y w b (eCount e) new
  (s.AtWord core id x w (4, 0x00) → valuOk notFp8 w = true → gives (exec (.vadd core) s) fun i =>
    if eInt e then ofSigned b (toSigned b (A i) + toSigned b (B i)) else fpAdd (eFmt e) (A i) (B i)) ∧
  (s.AtWord core id x w (4, 0x02) → valuOk notFp8 w = true → gives (exec (.vmul core) s) fun i =>
    if eInt e then ofSigned b (toSigned b (A i) * toSigned b (B i)) else fpMul (eFmt e) (A i) (B i)) ∧
  (s.AtWord core id x w (4, 0x04) → valuOk notFp8 w = true → gives (exec (.vmin core) s) fun i =>
    if eInt e then ofSigned b (min (toSigned b (A i)) (toSigned b (B i))) else fpMin (eFmt e) (A i) (B i)) ∧
  (s.AtWord core id x w (4, Config.opVmax.toNat) → valuOk notFp8 w = true → gives (exec (.vmax core) s) fun i =>
    if eInt e then ofSigned b (max (toSigned b (A i)) (toSigned b (B i))) else fpMax (eFmt e) (A i) (B i)) ∧
  (s.AtWord core id x w (4, 0x10) → valuOk eInt w = true → gives (exec (.vadds core) s) fun i =>
    ofSigned b (clampInt (-2 ^ (b - 1)) (2 ^ (b - 1) - 1) (toSigned b (A i) + toSigned b (B i)))) ∧
  (s.AtWord core id x w (4, 0x03) → valuOk wideFp w = true → gives (exec (.vdiv core) s) fun i =>
    fpDiv (eFmt e) (A i) (B i)) ∧
  (s.AtWord core id x w (4, 0x06) → valuOk wideFp w = true → gives (exec (.vsqrt core) s) fun i => fpSqrt (eFmt e) (A i)) ∧
  (s.AtWord core id x w (4, 0x07) → valuOk ieeeFp w = true → gives (exec (.vexp2 core) s) fun i => fpExp2 (eFmt e) (A i)) ∧
  (s.AtWord core id x w (4, Config.opVlog2.toNat) → valuOk ieeeFp w = true → gives (exec (.vlog2 core) s) fun i =>
    fpLog2 (eFmt e) (A i)) ∧
  (s.AtWord core id x w (4, 0x20) → immOk w 0 = true → gives (exec (.vbcast core) s) fun _ => x.xn (iSrcA w)) ∧
  (s.AtWord core id x w (5, 0x01) → wideFp e = true → iImm25 w = 0 → gives (exec (.vfma core) s) fun i =>
    fpFma (eFmt e) (A i) (B i) (C i)) ∧
  (s.AtWord core id x w (5, 0x02) → wideFp e = true → iImm25 w = 0 → gives (exec (.vfms core) s) fun i =>
    fpFms (eFmt e) (A i) (B i) (C i))

/-- R82 to R84: VCVT and VCVTZ. A conversion to a type as wide or wider fills V[DST] from the part IMM25[4:3] of V[SRCA]; a
narrowing one fills that part of V[DST] and leaves the rest as it was. -/
def Obligations.ConversionParts : Prop :=
  ∀ (s : State) (core id : Nat) (x : Core) (w : Nat) (z : Bool),
  let e := iEtype w
  let t := bits (iImm25 w) 2 0
  let part := bits (iImm25 w) 4 3
  let be := eBits e
  let bt := eBits t
  let n := 1024 / max be bt
  let r := if z then exec (.vcvtz core) s else exec (.vcvt core) s
  s.AtWord core id x w (6, if z then 0x01 else 0x00) → immOk w 5 = true → (z = true → wideFp e = true ∧ eInt t = true) →
  (be ≤ bt → part < bt / be → ∃ y, r = .next (s.setCore core y) ∧
    x.writesElems y w bt n fun i => convElem z e t (elem (x.vr (iSrcA w)) be (if be < bt then part * n + i else i))) ∧
  (bt < be → part < be / bt → ∃ y, r = .next (s.setCore core y) ∧ x.onlyVectors y ∧
    (∀ q, q ≠ iDst w → y.vr q = x.vr q) ∧
    (∀ i, i < n → elem (y.vr (iDst w)) bt (part * n + i) =
      if (x.pr (iPred w)).testBit i then convElem z e t (elem (x.vr (iSrcA w)) be i) % 2 ^ bt
      else if iPz w then 0 else elem (x.vr (iDst w)) bt (part * n + i)) ∧
    ∀ j, j < 1024 / bt → j < part * n ∨ part * n + n ≤ j → elem (y.vr (iDst w)) bt j = elem (x.vr (iDst w)) bt j)

/-- R79, R85: VREDSUM, VREDSUMW and VREDMAX write their result to element 0 of V[DST] and zero to the others. An integer sum
is the sum of the selected elements modulo 2^w; an integer maximum over at least one element is the largest of them; a
floating-point reduction combines pairs of neighbours, level by level. An integer maximum over no element is a free value of
the element type, the model's choice (log entry 22), and a word of the reduction by VMIN runs under VREDMAX, the model's
choice too (log entry 23). -/
def Obligations.ReductionResults : Prop :=
  ∀ (s : State) (core id : Nat) (x : Core) (w : Nat),
  let e := iEtype w
  let b := eBits e
  let n := eCount e
  let p := x.pr (iPred w)
  let A := fun i => elem (x.vr (iSrcA w)) b i
  let on := activeElems p n
  let tree := fun (op : Nat → Nat → Nat) (z : Nat) (f : Nat → Nat) =>
    (treeReduce op n.log2 ((List.range n).map fun i => if p.testBit i then f i else z)).headD z
  let gives := fun (r : Res) (b v : Nat) => ∃ y, r = .next (s.setCore core y) ∧ x.onlyVectors y ∧
    (∀ q, q ≠ iDst w → y.vr q = x.vr q) ∧ y.vr (iDst w) = v % 2 ^ b
  (s.AtWord core id x w (7, 0x00) → valuOk notFp8 w = true → gives (exec (.vredsum core) s) b
    (if eInt e then (on.map A).sum else tree (fpAdd (eFmt e)) (eFmt e).sign A)) ∧
  (s.AtWord core id x w (7, 0x01) → iEtype w = 0 ∨ iEtype w = 1 ∨ iEtype w = 5 ∨ iEtype w = 6 → immOk w 0 = true →
    gives (exec (.vredsumw core) s) 32
      (if eInt e then ofSigned 32 (on.map fun i => toSigned b (A i)).sum
       else tree (fpAdd fmtFP32) fmtFP32.sign fun i => fpEncode fmtFP32 (fpDecode (eFmt e) (A i)))) ∧
  (s.AtWord core id x w (7, 0x03) → valuOk notFp8 w = true → eInt e = false →
    gives (exec (.vredmax core) s) b (tree (fpMax (eFmt e)) (eFmt e).nan A)) ∧
  (s.AtWord core id x w (7, 0x03) → valuOk notFp8 w = true → eInt e = true → ∀ m, m ∈ on →
    (∀ i ∈ on, toSigned b (A i) ≤ toSigned b (A m)) → gives (exec (.vredmax core) s) b (A m)) ∧
  (s.AtWord core id x w (7, 0x03) → valuOk notFp8 w = true → eInt e = true → on = [] →
    gives (exec (.vredmax core) s) b (Config.redNone true e).toNat) ∧
  (Config.opVredmin.toNat ≠ 3 → s.AtWord core id x w (7, Config.opVredmin.toNat) → valuOk notFp8 w = true → eInt e = false →
    gives (exec (.vredmax core) s) b (tree (fpMin (eFmt e)) (eFmt e).nan A)) ∧
  (Config.opVredmin.toNat ≠ 3 → s.AtWord core id x w (7, Config.opVredmin.toNat) → valuOk notFp8 w = true → eInt e = true →
    ∀ m, m ∈ on → (∀ i ∈ on, toSigned b (A m) ≤ toSigned b (A i)) → gives (exec (.vredmax core) s) b (A m))

/-- R71 to R74: VLD and VGATHER read each selected element at its address; the other elements are zero or keep their value.
VGATHER takes 32-bit indices from V[SRCB] and the registers after it. R71 to R74: VST and VSCATTER store each selected
element of V[DST] at its address; of those at one address the highest-numbered stays, and every byte that none covers reads
as before. -/
def Obligations.VectorMemoryAccess : Prop :=
  (∀ (s : State) (core id : Nat) (x : Core) (w : Nat) (adr : Nat → Nat),
  let e := iEtype w
  let size := eBytes e
  let on := activeElems (x.pr (iPred w)) (eCount e)
  (∀ i ∈ on, x.access false (adr i) size size = 0 ∧ x.blocked false (adr i) size = false) →
  (s.AtWord core id x w (8, 0x00) →
    (∀ i, (adr i : Int) = ((x.xn (iSrcA w) : Int) + iImm35 w + i * size) % 2 ^ 64) →
    ∃ y, exec (.vld core) s = .next (s.setCore core y) ∧
      x.writesElems y w (eBits e) (eCount e) fun i => leNat (x.load (adr i) size)) ∧
  (s.AtWord core id x w (9, 0x00) → immOk w 0 = true → iSrcB w % (32 / eBits e) = 0 → x.xn (iSrcA w) % size = 0 →
    (∀ i, adr i = (x.xn (iSrcA w) + elem (x.vr (iSrcB w + i / 32)) 32 (i % 32) * size) % 2 ^ 64) →
    ∃ y, exec (.vgather core) s = .next (s.setCore core y) ∧
      x.writesElems y w (eBits e) (eCount e) fun i => leNat (x.load (adr i) size))) ∧
  (∀ (s : State) (core id : Nat) (x : Core) (w : Nat) (adr : Nat → Nat),
  let e := iEtype w
  let size := eBytes e
  let on := activeElems (x.pr (iPred w)) (eCount e)
  (∀ i ∈ on, x.access true (adr i) size size = 0 ∧ x.blocked true (adr i) size = false) →
  (s.AtWord core id x w (8, 0x01) → iPz w = false →
    (∀ i, (adr i : Int) = ((x.xn (iSrcA w) : Int) + iImm35 w + i * size) % 2 ^ 64) →
    ∃ y, exec (.vst core) s = .next (s.setCore core y) ∧
      x.storesElems y on size adr fun i => elem (x.vr (iDst w)) (eBits e) i) ∧
  (s.AtWord core id x w (9, 0x01) → immOk w 0 = true → iSrcB w % (32 / eBits e) = 0 → x.xn (iSrcA w) % size = 0 →
    (∀ i, adr i = (x.xn (iSrcA w) + elem (x.vr (iSrcB w + i / 32)) 32 (i % 32) * size) % 2 ^ 64) →
    ∃ y, exec (.vscatter core) s = .next (s.setCore core y) ∧
      x.storesElems y on size adr fun i => elem (x.vr (iDst w)) (eBits e) i))

/-- R60, R71: VCMPLT and PFIRSTN write the bits of P[DST[2:0]]: those that the governing predicate selects take the
comparison, and the others below the element count are zero or keep their value. -/
def Obligations.PredicateResults : Prop :=
  ∀ (s : State) (core id : Nat) (x : Core) (w : Nat),
  let e := iEtype w
  let b := eBits e
  let A := fun i => elem (x.vr (iSrcA w)) b i
  let B := fun i => elem (x.vr (iSrcB w)) b i
  let d := iDst w % 8
  let gives := fun (r : Res) (n : Nat) (new : Nat → Bool) => ∃ y, r = .next (s.setCore core y) ∧
    y = { x with p := y.p, pc := x.pc + 1, steps := x.steps + 1 } ∧ (∀ q, q ≠ d → y.pr q = x.pr q) ∧
    (d = 0 → y.p = x.p) ∧
    (d ≠ 0 → ∀ i, i < 128 → (y.pr d).testBit i =
      if i < n then (if (x.pr (iPred w)).testBit i then new i else if iPz w then false else (x.pr d).testBit i)
      else (x.pr d).testBit i)
  (s.AtWord core id x w (10, 0x01) → valuOk notFp8 w = true → gives (exec (.vcmplt core) s) (eCount e) fun i =>
    if eInt e then decide (toSigned b (A i) < toSigned b (B i)) else fpLt (eFmt e) (A i) (B i)) ∧
  (s.AtWord core id x w (10, 0x13) → immOk w 0 = true → gives (exec (.pfirstn core) s) 128 fun i =>
    decide (i < x.xn (iSrcA w)))

/-- R89 to R93: TISSUE copies the 64 bytes of a well-formed descriptor under a free tag and waits while its tag is
outstanding; TWAIT goes on once its tag is free and waits while it is outstanding; when the descriptor is done its tag is
free and what the descriptor does to the core's memory has been done. -/
def Obligations.TileMatrixUnit : Prop :=
  ∀ (s : State) (core id : Nat) (x : Core) (w : Nat),
  let a := x.xn (iSrcA w)
  let tag := iImm25 w
  (s.AtWord core id x w (11, 0x00) → noVector w = true → immOk w 2 = true → x.access false a 64 8 = 0 →
    (tmuDesc (x.load a 64)).fieldsOk = true → (tmuDesc (x.load a 64)).check x = 0 → x.blocked false a 64 = false →
    (∀ t ∈ x.tmu, t.tag ≠ tag) →
    exec (.tissue core) s = .next (s.setCore core { x with tmu := x.tmu ++ [{ tag := tag, desc := x.load a 64 }],
                                                           pc := x.pc + 1, steps := x.steps + 1 })) ∧
  (s.AtWord core id x w (11, 0x00) → noVector w = true → immOk w 2 = true → (∃ t ∈ x.tmu, t.tag = tag) →
    exec (.tissue core) s = .next s) ∧
  (s.AtWord core id x w (11, 0x01) → noVector w = true → immOk w 2 = true → (∀ t ∈ x.tmu, t.tag ≠ tag) →
    exec (.twait core) s = .next (s.setCore core { x with pc := x.pc + 1, steps := x.steps + 1 })) ∧
  (s.AtWord core id x w (11, 0x01) → noVector w = true → immOk w 2 = true → (∃ t ∈ x.tmu, t.tag = tag) →
    exec (.twait core) s = .next s) ∧
  (∀ (k : Nat) (pre post : List TmuJob) (t : TmuJob), core < Config.cores → s.power.droop.contains (core / 8) = false →
    s.up = true → s.core core = x → x.tmu = pre ++ t :: post → t.tag = k → (∀ u ∈ pre ++ post, u.tag ≠ k) →
    exec (.tmuDescriptorDone core k) s =
      .next (s.setCore core ((tmuDesc t.desc).run { x with tmu := pre ++ post })))

/-- R87, R88, R95: DRAW writes the next output of the generator to X[DST] and X[DST + 1], VDRAW the next eight to V[DST], and
SRD the system register of its index; an index without a register ends the job with KERNEL_FAULT. HALT ends the kernel with
its status, or with SUCCESS and the bytes of the output window, by which a SCORE stage decides; a status that it may not
give, or a length above OUT_MAX_BYTES, ends the job with KERNEL_FAULT. -/
def Obligations.SystemInstructions : Prop :=
  ∀ (s : State) (core id : Nat) (x : Core) (w : Nat),
  noVector w = true →
  (s.AtWord core id x w (12, 0x01) → immOk w 0 = true → iDst w % 2 = 0 → x.draw < 2 ^ 26 →
    exec (.draw core) s = .next (s.setCore core
      { (x.setX (iDst w) (BitVec.ofNat 64 ((x.drawOut x.draw).w0.toNat + 2 ^ 32 * (x.drawOut x.draw).w1.toNat))).setX
          (iDst w + 1) (BitVec.ofNat 64 ((x.drawOut x.draw).w2.toNat + 2 ^ 32 * (x.drawOut x.draw).w3.toNat)) with
        draw := x.draw + 1, pc := x.pc + 1, steps := x.steps + 1 })) ∧
  (s.AtWord core id x w (12, 0x02) → immOk w 0 = true → x.draw + 7 < 2 ^ 26 →
    ∃ y, exec (.vdraw core) s = .next (s.setCore core y) ∧
      y = { x with v := y.v, draw := x.draw + 8, pc := x.pc + 1, steps := x.steps + 1 } ∧
      (∀ q, q ≠ iDst w → y.vr q = x.vr q) ∧
      ∀ i, i < 8 → elem (y.vr (iDst w)) 128 i = quadNat (x.drawOut (x.draw + i))) ∧
  (s.AtWord core id x w (12, 0x03) → immOk w 8 = true → ∀ v, x.sr (iImm25 w) = some v →
    exec (.srd core) s = .next (s.setCore core (x.setX (iDst w) (BitVec.ofNat 64 v)).advance)) ∧
  (s.AtWord core id x w (12, 0x03) → immOk w 8 = true → x.sr (iImm25 w) = none →
    exec (.srd core) s = .next (s.endKernel core id x.stage (.error stKernelFault))) ∧
  (s.AtWord core id x w (12, 0x00) → immOk w 16 = true → haltStatus (iImm25 w) = true → x.xn (iSrcA w) ≤ x.outMax →
    iImm25 w ≠ stSuccess →
    exec (.halt core) s = .next (s.endKernel core id x.stage (.error (iImm25 w)))) ∧
  (s.AtWord core id x w (12, 0x00) → immOk w 16 = true → iImm25 w = stSuccess → x.xn (iSrcA w) ≤ x.outMax →
    ∀ j d, s.job id = some j → (s.descsOf j.stream)[x.stage]? = some d → d.type ≠ tScore →
    let out := x.output.readN 0 (x.xn (iSrcA w))
    exec (.halt core) s = .next ((s.moveOutput j d (.ok out)).endKernel core id x.stage (.ok out))) ∧
  (s.AtWord core id x w (12, 0x00) → immOk w 16 = true → iImm25 w = stSuccess → x.xn (iSrcA w) ≤ x.outMax →
    ∀ j d, s.job id = some j → (s.descsOf j.stream)[x.stage]? = some d → d.type = tScore →
    let v := s.score j d (x.output.readN 0 (x.xn (iSrcA w)))
    exec (.halt core) s = .next (((s.moveOutput j d v.1).updJob id fun j =>
      { j with sig := if v.2.isSome then v.2 else j.sig }).endKernel core id x.stage v.1)) ∧
  (s.AtWord core id x w (12, 0x00) → immOk w 16 = true → haltStatus (iImm25 w) = false ∨ x.outMax < x.xn (iSrcA w) →
    exec (.halt core) s = .next (s.endKernel core id x.stage (.error stKernelFault)))

/-- R65, R96, R97: KERNEL_STEP_LIMIT changes nothing on a core that runs no kernel or whose clock a droop holds. On another
core whose step limit is reached KERNEL_STEP_LIMIT, and ADD and HALT whatever the word at the PC, end the job with
KERNEL_STEP_LIMIT; before the limit KERNEL_STEP_LIMIT changes nothing, and with a PC past the kernel, or a word that no class
defines, ADD and HALT end the job with KERNEL_FAULT. R56, R58: SCRATCH_RESERVE starts a KERNEL or SCORE stage on its job's
core once the core is free and MEM_LIMIT KiB of the Caravan's SRAM can be reserved: the core holds the job and its stage, X0
to X31, V0 to V31 and P0 to P7 as R58's table has them, the limits of the stage, its inputs, and an empty scratch and output
window. While the SRAM is taken, the core or its Caravan cannot run it, or the stage is not one of those, does not run now or
has started, nothing changes. -/
def Obligations.KernelEntryAndEnd : Prop :=
  ((∀ (s : State) (core : Nat), core < Config.cores → s.power.droop.contains (core / 8) = true ∨ (s.core core).job = none →
    exec (.kernelStepLimit core) s = .next s) ∧
  ∀ (s : State) (core id : Nat) (x : Core),
  core < Config.cores → s.power.droop.contains (core / 8) = false → s.up = true → s.core core = x → x.job = some id →
  (x.stepLimit * 1024 ≤ x.steps →
    exec (.kernelStepLimit core) s = .next (s.endKernel core id x.stage (.error stStepLimit)) ∧
    exec (.add core) s = .next (s.endKernel core id x.stage (.error stStepLimit)) ∧
    exec (.halt core) s = .next (s.endKernel core id x.stage (.error stStepLimit))) ∧
  (x.steps < x.stepLimit * 1024 → exec (.kernelStepLimit core) s = .next s) ∧
  (x.steps < x.stepLimit * 1024 → (x.kernel.length ≤ x.pc ∨ ∃ w, x.kernel[x.pc]? = some w ∧ opDefined w.toNat = false) →
    exec (.add core) s = .next (s.endKernel core id x.stage (.error stKernelFault)) ∧
    exec (.halt core) s = .next (s.endKernel core id x.stage (.error stKernelFault)))) ∧
  ((∀ (s : State) (id stage : Nat) (j : Job) (d : Desc), s.job id = some j → (s.descsOf j.stream)[stage]? = some d →
    (d.type ≠ tKernel ∧ d.type ≠ tScore) ∨ j.running (s.toCorpus j.stream) d = false ∨ s.waitsRelease j d = true ∨
      (∃ x ∈ s.cores, x.2.job = some id ∧ x.2.stage = stage) ∨ (s.core (8 * j.caravan + j.core)).job ≠ none ∨
      (s.domain (carDomain j.caravan)).state ≠ 0 →
    exec (.scratchReserve id stage) s = .next s) ∧
  ∀ (s : State) (id stage : Nat) (j : Job) (d : Desc),
  let c := 8 * j.caravan + j.core
  s.up = true → s.job id = some j → j.id = id → (s.descsOf j.stream)[stage]? = some d → (d.type = tKernel ∨ d.type = tScore) →
  d.id = stage → j.running (s.toCorpus j.stream) d = true → s.waitsRelease j d = false →
  (∀ x ∈ s.cores, ¬ (x.2.job = some id ∧ x.2.stage = stage)) → (s.core c).job = none →
  (s.domain (carDomain j.caravan)).state = 0 →
  (s.scratchUsed j.caravan + kernelMem d ≤ s.scratchMax j.caravan 64 0 →
    ∃ y : Core, exec (.scratchReserve id stage) s = .next (s.setCore c y) ∧
      y.job = some id ∧ y.stage = stage ∧ y.pc = 0 ∧ y.steps = 0 ∧ y.draw = 0 ∧ y.scratch = [] ∧ y.output = [] ∧
      y.memLimit = kernelMem d ∧ y.stepLimit = kernelStep d ∧ y.outMax = d.outMax ∧ y.inputs = d.preds.map j.output ∧
      y.xn 1 = (y.inputs.headD []).length % 2 ^ 64 ∧ y.xn 2 = d.inCount % 2 ^ 64 ∧ y.xn 3 = d.outMax % 2 ^ 64 ∧
      y.xn 4 = j.sample % 2 ^ 64 ∧ y.xn 5 = j.pos % 2 ^ 64 ∧ y.xn 6 = j.epoch % 2 ^ 64 ∧ y.xn 7 = d.word 4 % 2 ^ 64 ∧
      y.xn 8 = d.word 5 % 2 ^ 64 ∧ y.xn 9 = d.word 6 % 2 ^ 64 ∧ y.xn 0 = 0 ∧ (∀ r, 10 ≤ r → y.xn r = 0) ∧
      (∀ r, y.vr r = 0) ∧ y.pr 0 = 2 ^ 128 - 1 ∧ (∀ r, r ≠ 0 → y.pr r = 0)) ∧
  (s.scratchMax j.caravan 64 0 < s.scratchUsed j.caravan + kernelMem d → exec (.scratchReserve id stage) s = .next s))

/-! ## Streams, images and jobs (R26 to R53) -/

/-- R39, R547: STREAM_START (CONTROL = 1) takes a LOADED stream whose start checks hold to RUNNING, with the settings written
in force; a check that fails refuses it with the status of the first that does, and other states refuse it with STREAM_MOVED
or STREAM_STATE. A refusal changes nothing but its answer. R39, R42: STREAM_PAUSE makes a RUNNING stream drain and
STREAM_RESUME takes a PAUSED or HELD one to RUNNING, when its keys are released; in the other states each is refused with the
status that R39's table gives. R39, R40, R320: STREAM_STOP and PIPELINE_RESET take a stream that is not IDLE or MOVED to
LOADED, where its FREE and PENDING slots are RETIRED and no other slot changes its state; a stop discards cursor and
snapshot, and a reset of a stream that had started keeps its cursor at the first batch not delivered. STREAM_RELEASE takes a
MOVED stream with no READY slot to IDLE with IMAGE_SLOT 0xFF. -/
def Obligations.StreamCommands : Prop :=
  (∀ (s t : State) (r : OdReq) (n : Nat) (role : Role),
  n < 64 → s.ReceivesWrite r (oControl n) role t → leNat r.data = 1 → t.scrubbing n = false →
  ((t.stream n).state = .loaded → t.startCheck n = stSuccess →
    ∃ u : State, exec (.streamStart r n) s = u.wroteOk r ∧ (u.stream n).state = .running ∧ (u.stream n).draining = false ∧
      (u.stream n).inForce = t.writtenSettings n) ∧
  ((t.stream n).state = .loaded → t.startCheck n ≠ stSuccess →
    exec (.streamStart r n) s = t.wroteNot r (t.startCheck n)) ∧
  ((t.stream n).state = .moved → exec (.streamStart r n) s = t.wroteNot r stMoved) ∧
  ((t.stream n).state ≠ .loaded → (t.stream n).state ≠ .moved → exec (.streamStart r n) s = t.wroteNot r stState)) ∧
  (∀ (s t : State) (r : OdReq) (n : Nat) (role : Role),
  n < 64 → s.ReceivesWrite r (oControl n) role t → t.scrubbing n = false →
  (leNat r.data = 2 →
    ((t.stream n).state = .running →
      exec (.streamPause r n) s = (t.updStream n fun x => { x with draining := true }).wroteOk r) ∧
    ((t.stream n).state = .held → exec (.streamPause r n) s = t.wroteNot r stHeld) ∧
    ((t.stream n).state = .moved → exec (.streamPause r n) s = t.wroteNot r stMoved) ∧
    ((t.stream n).state = .idle ∨ (t.stream n).state = .loaded ∨ (t.stream n).state = .paused →
      exec (.streamPause r n) s = t.wroteNot r stState)) ∧
  (leNat r.data = 3 →
    ((t.stream n).state = .paused ∨ (t.stream n).state = .held → t.imageReleased (t.imageOf n) = true →
      exec (.streamResume r n) s = (t.updStream n fun x => { x with state := .running, draining := false }).wroteOk r) ∧
    ((t.stream n).state = .paused ∨ (t.stream n).state = .held → t.imageReleased (t.imageOf n) = false →
      exec (.streamResume r n) s = t.wroteNot r stModelNotReleased) ∧
    ((t.stream n).state = .moved → exec (.streamResume r n) s = t.wroteNot r stMoved) ∧
    ((t.stream n).state = .idle ∨ (t.stream n).state = .loaded ∨ (t.stream n).state = .running →
      exec (.streamResume r n) s = t.wroteNot r stState))) ∧
  (∀ (s t : State) (r : OdReq) (n : Nat) (role : Role),
  n < 64 → s.ReceivesWrite r (oControl n) role t → t.scrubbing n = false →
  (leNat r.data = 4 → (t.stream n).state ≠ .idle → (t.stream n).state ≠ .moved →
    ∃ u : State, exec (.streamStop r n) s = u.wroteOk r ∧ (u.stream n).state = .loaded ∧ (u.stream n).snapshot = none ∧
      (u.run n).hasCursor = false ∧ ∀ i, i < t.stored (oSlotCount n) →
        (u.slot n i).state = if (t.slot n i).state = .ready then .ready else .retired) ∧
  (leNat r.data = 5 → (t.stream n).state ≠ .idle → (t.stream n).state ≠ .moved →
    ∃ u : State, exec (.pipelineReset r n) s = u.wroteOk r ∧ (u.stream n).state = .loaded ∧
      ((t.stream n).state ≠ .loaded → (u.run n).hasCursor = true ∧ (u.run n).nextBatch = (t.run n).nextBatch) ∧
      ∀ i, i < t.stored (oSlotCount n) →
        (u.slot n i).state = if (t.slot n i).state = .ready then .ready else .retired) ∧
  (leNat r.data = 6 → (t.stream n).state = .moved → t.anyReady n = false →
    ∃ u : State, exec (.streamRelease r n) s = u.wroteOk r ∧ (u.stream n).state = .idle ∧ u.stored (oImageSlot n) = 0xFF) ∧
  ((t.stream n).state = .idle → (leNat r.data = 4 → exec (.streamStop r n) s = t.wroteNot r stState) ∧
    (leNat r.data = 5 → exec (.pipelineReset r n) s = t.wroteNot r stState)) ∧
  (leNat r.data = 6 → (t.stream n).state ≠ .moved ∨ t.anyReady n = true →
    exec (.streamRelease r n) s = t.wroteNot r stState) ∧
  ((t.stream n).state = .moved → (leNat r.data = 4 → exec (.streamStop r n) s = t.wroteNot r stMoved) ∧
    (leNat r.data = 5 → exec (.pipelineReset r n) s = t.wroteNot r stMoved)))

/-- R30, R46 to R51, R192: IMAGE_SLOT, SPLIT_MODE, SPLIT_CUT, CLOCK_EXACT and THRESH_EPOCH take the value written when their
rules allow it; UNLOAD empties an image slot that no stream and no mirror record uses. A write that its rule refuses is
answered STATE and changes nothing else. R27, R338: PIPELINE_LOAD keeps a piece of an image load; its LAST piece, with every
byte there, loads the image that passes R27's checks into a slot and answers the slot, or leaves the slots as they were and
answers the status of the check that failed. -/
def Obligations.StreamSettingsAndImages : Prop :=
  (∀ (s t : State) (r : OdReq) (n : Nat) (role : Role),
  (n < 64 → s.ReceivesWrite r (oImageSlot n) role t →
    (t.imageSlotOk n (leNat r.data) = true →
      ∃ u : State, exec (.imageSlotWrite r n) s = u.wroteOk r ∧ u.stored (oImageSlot n) = leNat r.data ∧
        (leNat r.data = 0xFF → (u.stream n).state = .idle) ∧
        (leNat r.data ≠ 0xFF → leNat r.data ≠ t.stored (oImageSlot n) → (u.stream n).state = .loaded)) ∧
    (t.imageSlotOk n (leNat r.data) = false → exec (.imageSlotWrite r n) s = t.wroteNot r 0)) ∧
  (n < 64 → s.ReceivesWrite r (oSplitMode n) role t →
    (t.splitModeOk n (leNat r.data) = true →
      exec (.splitModeWrite r n false) s = (t.store (oSplitMode n) (leNat r.data)).wroteOk r) ∧
    (t.splitModeOk n (leNat r.data) = false → exec (.splitModeWrite r n false) s = t.wroteNot r 0)) ∧
  (n < 64 → s.ReceivesWrite r (oSplitCut n) role t →
    (t.splitCutOk n (leNat r.data) = true →
      exec (.splitModeWrite r n true) s = (t.store (oSplitCut n) (leNat r.data)).wroteOk r) ∧
    (t.splitCutOk n (leNat r.data) = false → exec (.splitModeWrite r n true) s = t.wroteNot r 0)) ∧
  (n < 64 → s.ReceivesWrite r (oClockExact n) role t →
    (t.clockExactOk n (leNat r.data) = true →
      exec (.clockExactWrite r n) s = (t.store (oClockExact n) (leNat r.data)).wroteOk r) ∧
    (t.clockExactOk n (leNat r.data) = false → exec (.clockExactWrite r n) s = t.wroteNot r 0)) ∧
  (n < 64 → s.ReceivesWrite r (oThreshEpoch n) role t →
    ∃ u : State, exec (.threshEpochWrite r n) s = u.wroteOk r ∧ u.stored (oThreshEpoch n) = leNat r.data ∧
      ((u.stream n).armedAfter = none ↔ leNat r.data = 0xFFFFFFFF) ∧ (u.stream n).force = (t.stream n).force) ∧
  (n < 16 → s.ReceivesWrite r (oUnload n) role t →
    (t.hasImage n = true → t.imageInUse n = false → (t.image n).pins = 0 →
      ∃ u : State, exec (.unload r n) s = u.wroteOk r ∧ (u.image n).image = [] ∧ ∀ k, k ≠ n → u.image k = t.image k) ∧
    (t.hasImage n = false ∨ t.imageInUse n = true ∨ (t.image n).pins ≠ 0 → exec (.unload r n) s = t.wroteNot r 0))) ∧
  (∀ (s : State) (c : NvmeCmd) (a : Assembly),
  let m := s.nvmeTake c
  let id := bits c.cdw13 1 0
  s.rm0Serves = true → s.TakesCommand true c → c.data.length ≤ 262144 →
  Assembly.take (Tbl.find m.host.loads id) c.cdw10 c.cdw11 m.gtc c.data = some a →
  (bit c.cdw12 0 = false →
    exec (.pipelineLoad c) s = .next ((m.setLoad id (some a)).vendorDone c stSuccess none [])) ∧
  (bit c.cdw12 0 = true → a.data.length = a.total → m.scrubs (imageTenant { image := a.data }) = false →
    (∀ k, (m.setLoad id none).acceptImage a.data = .ok k →
      ∃ u : State, exec (.pipelineLoad c) s = .next (u.vendorDone c stSuccess (some k) []) ∧ (u.image k).loadStatus = stSuccess ∧
        (m.hasImage k = false → (u.image k).image = a.data) ∧ ∀ j, j ≠ k → u.image j = m.image j) ∧
    (∀ e, (m.setLoad id none).acceptImage a.data = .error e → e ≠ stSuccess →
      exec (.pipelineLoad c) s = .next ((m.setLoad id none).vendorDone c e none []))) ∧
  (bit c.cdw12 0 = true → a.data.length ≠ a.total →
    exec (.pipelineLoad c) s = .next ((m.setLoad id none).vendorDone c stImageMalformed none [])))

/-- R34, R38: JOB_ADMIT starts the FETCH stages of the jobs in ADMITTED and, in the lowest class in which a stream has a job
to be admitted, where the limits of the class, its shaper and the buffers allow it, admits the first job of the stream that
is served next. With no job to admit it only starts the FETCH stages; outside service and during a flush it changes nothing.
-/
def Obligations.JobAdmission : Prop :=
  (∀ (s : State), s.serving = false ∨ s.sys.flush ≠ none → exec .jobAdmit s = .next s) ∧
  (∀ (s : State), s.serving = true → s.sys.flush = none → (∀ c, c < 8 → s.startFetches.roundRobin c = []) →
    exec .jobAdmit s = .next s.startFetches) ∧
  ∀ (s t : State) (c n : Nat) (rest : List Nat),
  let m := s.startFetches
  s.serving = true → s.sys.flush = none → c < 8 → (∀ b, b < c → m.roundRobin b = []) → m.roundRobin c = n :: rest →
  m.tryAdmit c n = some t → m.shaperAllows c [] = true →
  (c = 0 → m.jobsS0 < 512) → (c ≠ 0 → m.jobsInFlight - m.jobsS0 < 7680) →
  exec .jobAdmit s = .next t ∧
  ∃ j w, t.jobs = (s.jobs.map fun j => if s.flashOn = true ∧ j.state = .admitted then { j with state := .fetching } else j) ++ [j] ∧
    (s.run n).toAdmit.head? = some w ∧ j.stream = n ∧ j.cls = c ∧ j.pos = w.pos ∧ j.sample = w.sample ∧ j.attempts = 1 ∧
    j.state = (if s.flashOn = true then .fetching else .admitted) ∧ (t.run n).toAdmit = (s.run n).toAdmit.tail ∧
    Tbl.get t.lastServed 63 c = n

/-- R35, R36, R174, R546: the end of a stage's operation. A stage that runs gives its output or its final status to its job;
with a transient status below the fourth attempt the job starts again from ADMITTED, and on the fourth its stream is HELD
with that status; DELIVER of an ingest job stores its sample, as `State.deliverSample` says; a buffer that had failed ends
the attempt with its status, and a sample that cannot be read ends the stage with MEDIA_UNCORRECTABLE. A stage that does not
run now, a KERNEL or SCORE stage without a status, a CODEC stage whose blocks are not coded, a DELIVER stage that waits and a
status that is not transient change nothing. At the end of a block a codec engine whose work ends takes up the first waiting
work of the highest class, and one whose work goes on the first of the highest class among those that wait and, last, its own
with one block more; a work whose saved state fails its checks ends its job's attempt; an engine without work does nothing.
-/
def Obligations.StageAndCodecCompletion : Prop :=
  (∀ (s : State) (id stage : Nat) (o : Option Nat), s.job id = none → exec (.stageComplete id stage o) s = .next s) ∧
  (∀ (s : State) (id stage : Nat) (o : Option Nat) (j : Job) (d : Desc),
    s.job id = some j → (s.descsOf j.stream)[stage]? = some d →
    j.running (s.toCorpus j.stream) d = false ∨ s.waitsRelease j d = true ∨ (d.type = tFetch ∧ s.flashOn = false) ∨
      (j.onCaravan d = true ∧ (s.domain (carDomain j.caravan)).state ≠ 0) ∨ (∃ st, o = some st ∧ isTransient st = false) ∨
      (o = none ∧ j.struck = none ∧ (d.type = tKernel ∨ d.type = tScore ∨ (j.onCodec d = true ∧ stage ∉ j.coded) ∨
        (d.type = tDeliver ∧ s.deliverWaits j d = true))) →
    exec (.stageComplete id stage o) s = .next s) ∧
  (∀ (s : State) (id stage : Nat) (j : Job) (d : Desc),
    s.up = true → s.job id = some j → j.id = id → (s.descsOf j.stream)[stage]? = some d → d.id = stage →
    j.running (s.toCorpus j.stream) d = true → s.waitsRelease j d = false → (d.type = tFetch → s.flashOn = true) →
    (j.onCaravan d = true → (s.domain (carDomain j.caravan)).state = 0) →
    (j.struck = none → d.type ≠ tKernel → d.type ≠ tScore → d.type ≠ tDeliver → (j.onCodec d = true → stage ∈ j.coded) →
      exec (.stageComplete id stage none) s = .next (s.completeStage j d)) ∧
    (j.struck = none → d.type ≠ tKernel → d.type ≠ tScore → d.type ≠ tDeliver → d.type ≠ tFetch → d.type ≠ tGeometry →
      (j.onCodec d = true → stage ∈ j.coded) →
      exec (.stageComplete id stage none) s =
        .next ((s.moveOutput j d (s.stageRun j d)).finishStage id stage (s.stageRun j d))) ∧
    (j.struck = none → d.type = tDeliver → s.deliverWaits j d = false →
      exec (.stageComplete id stage none) s = .next (s.deliverSample j d)) ∧
    (∀ st, j.struck = some st → exec (.stageComplete id stage none) s = .next (s.transientJob id st (j.covers d))) ∧
    (∀ st, isTransient st = true → s.lostSample j st d = true → exec (.stageComplete id stage (some st)) s =
      .next ((s.updJob id fun x => { x with stored := some (stMedia, [], 0) }).finishStage id stage (.error stMedia))) ∧
    (∀ st, isTransient st = true → s.lostSample j st d = false → j.covers d = false → j.attempts < 4 →
      ∃ t k, exec (.stageComplete id stage (some st)) s = .next t ∧ t.job id = some k ∧ k.state = .admitted ∧
        k.attempts = j.attempts + 1 ∧ k.outputs = [] ∧ k.failing = none ∧ k.status = none) ∧
    (∀ st, isTransient st = true → s.lostSample j st d = false → j.covers d = false → 4 ≤ j.attempts →
      ∃ t, exec (.stageComplete id stage (some st)) s = .next t ∧ (t.stream j.stream).state = .held ∧
        (t.stream j.stream).lastStatus = st)) ∧
  (∀ (s : State) (e : Nat), e < 16 → (s.engine e).current = none → exec (.codecBlockDone e) s = .next s) ∧
  (∀ (s : State) (e : Nat), 16 ≤ e → exec (.codecBlockDone e) s = .fault .noSuchEngine) ∧
  (∀ (s : State) (e : Nat) (w v : CodecWork),
    e < 16 → s.up = true → (s.engine e).current = some w →
    (w.broken = true → exec (.codecBlockDone e) s = .next (s.transientJob w.job w.lossStatus false)) ∧
    (w.broken = false → w.total ≤ w.blocks + 1 → nextWork (s.engine e).waiting = some v →
      ∃ t, exec (.codecBlockDone e) s = .next t ∧ (t.engine e).current = some v ∧
        t.jobs = s.jobs.map fun j => if j.id == w.job then { j with coded := j.coded ++ [w.stage] } else j) ∧
    (w.broken = false → w.total ≤ w.blocks + 1 → (s.engine e).waiting = [] →
      ∃ t, exec (.codecBlockDone e) s = .next t ∧ (t.engine e).current = none) ∧
    (let w' := { w with blocks := w.blocks + 1, state := none, spilled := false }
     w.broken = false → w.blocks + 1 < w.total → nextWork ((s.engine e).waiting ++ [w']) = some v →
      ∃ t, exec (.codecBlockDone e) s = .next t ∧ (t.engine e).current = some v ∧ t.jobs = s.jobs) ∧
    (w.broken = false → w.blocks + 1 < w.total → (s.engine e).waiting = [] → w.cls < 8 →
      ∃ t, exec (.codecBlockDone e) s = .next t ∧
        (t.engine e).current = some { w with blocks := w.blocks + 1, state := none, spilled := false } ∧ t.jobs = s.jobs))

/-! ## Epochs, batches and delivery (R176 to R240, R312 to R332) -/

/-- R177, R185, R429: a portion list for stream n's corpus, under a fence record that is not lower than the one held, is kept
for its epoch when that has not begun, beside the lists of other sources, portions and epochs; a check value that differs is
counted in PLAN_MISMATCH. A list for an epoch that has begun or is over is not kept. A list under a lower record is refused:
FENCE_REFUSALS rises by one and its sender is told the record. A message that is no list, or a list of another corpus,
changes no list. R185, R188, R189: once every list of an epoch has arrived the epoch begins: its set is their merged entries,
or in exact mode the positions that exact order gives the member, and the run stands at its first batch, or at the cursor
that was kept for this epoch; with more than 2^32 − 1 merged entries the stream is HELD with UNSUPPORTED_FEATURE. Before the
last list the device only sees to the lists that it sends, and with no epoch to begin it changes nothing. -/
def Obligations.PortionListsAndEpochs : Prop :=
  ((∀ (s : State) (n fe fo : Nat) (data : Bytes), n < 64 → s.up = true →
    data.length < 32 ∨ fieldAt data 0 4 ≠ 0x4E4C5050 ∨ data.length ≠ 32 + 16 * fieldAt data 24 8 ∨
      fieldAt data 8 4 ≠ s.stored (oCorpusId n) ∨ s.corpusFor n = none →
    ∃ t, exec (.portionListReceive n fe fo data) s = .next t ∧ t.streams = s.streams) ∧
  ∀ (s : State) (n fe fo nsid : Nat) (data : Bytes) (c : Corpus),
  let count := fieldAt data 24 8
  let m := fieldAt data 16 2
  let e := fieldAt data 12 4
  let held := Tbl.get c.fences (0, 0) m
  n < 64 → s.up = true → 32 ≤ data.length → fieldAt data 0 4 = 0x4E4C5050 → data.length = 32 + 16 * count →
  fieldAt data 8 4 = s.stored (oCorpusId n) → s.corpusFor n = some (nsid, c) →
  (fenceLt (fe, fo) held = false → (s.run n).epoch < e ∨ ((s.run n).epoch = e ∧ (s.run n).begun = false) →
    ∃ t, exec (.portionListReceive n fe fo data) s = .next t ∧
      ({ epoch := e, source := m, portion := fieldAt data 18 2, entries := portionEntries (data.drop 32) count } : Portion) ∈
        (t.run n).lists ∧
      (∀ l ∈ (s.run n).lists, l.epoch ≠ e ∨ l.source ≠ m ∨ l.portion ≠ fieldAt data 18 2 → l ∈ (t.run n).lists) ∧
      t.stored (oPlanMismatch n) = s.stored (oPlanMismatch n) +
        (if fieldAt data 4 4 = s.checkOf n then 0 else 1)) ∧
  (fenceLt (fe, fo) held = false → e < (s.run n).epoch ∨ (e = (s.run n).epoch ∧ (s.run n).begun = true) →
    ∃ t, exec (.portionListReceive n fe fo data) s = .next t ∧ t.streams = s.streams) ∧
  (fenceLt (fe, fo) held = true → ∃ t, exec (.portionListReceive n fe fo data) s = .next t ∧ t.streams = s.streams ∧
    t.stored oFenceRefusals = s.stored oFenceRefusals + 1 ∧
    .mirror (s.coordOfRank fo) mkStale n (leBytes 4 c.id ++ leBytes 2 m ++ leBytes 4 held.1 ++ leBytes 2 held.2) ∈ t.out) ∧
  (fenceLt (fe, fo) held = true → fieldAt data 4 4 = s.checkOf n →
    exec (.portionListReceive n fe fo data) s = .next (((s.takeInbox data).count oFenceRefusals 1).emit
      (.mirror (s.coordOfRank fo) mkStale n (leBytes 4 c.id ++ leBytes 2 m ++ leBytes 4 held.1 ++ leBytes 2 held.2))))) ∧
  ((∀ (s : State) (n : Nat), n < 64 → s.nextEpoch n = none → exec (.epochBegin n) s = .next s) ∧
  (∀ (s : State) (n e : Nat), n < 64 → s.up = true → s.nextEpoch n = some e → (s.ensureLists n e).epochLists n e = none →
    exec (.epochBegin n) s = .next (s.ensureLists n e)) ∧
  (∀ (s : State) (n e : Nat) (ls : List Portion), n < 64 → s.up = true → s.nextEpoch n = some e →
    (s.ensureLists n e).epochLists n e = some ls → 2 ^ 32 - 1 < (mergeEntries (ls.flatMap Portion.entries)).1.length →
    ∃ t, exec (.epochBegin n) s = .next t ∧ (t.stream n).state = .held ∧ (t.stream n).lastStatus = stUnsupported) ∧
  ∀ (s : State) (n e : Nat) (ls : List Portion),
  let members := match s.corpusFor n with | some c => geoCount c.2.geometry | none => 1
  n < 64 → s.up = true → s.nextEpoch n = some e → (s.ensureLists n e).epochLists n e = some ls →
  (mergeEntries (ls.flatMap Portion.entries)).1.length ≤ 2 ^ 32 - 1 →
  ∃ t, exec (.epochBegin n) s = .next t ∧ (t.run n).begun = true ∧ (t.run n).epoch = e ∧
    (s.exactMode n = false → (t.run n).sorted = (mergeEntries (ls.flatMap Portion.entries)).1) ∧
    (s.exactMode n = true → (t.run n).order = (exactOrder (s.kc n) (mergeEntries (ls.flatMap Portion.entries)).1 members e
      (s.member n)).map Prod.fst) ∧
    ((s.run n).hasCursor = false ∨ (s.run n).epoch ≠ e →
      (t.run n).nextBatch = 0 ∧ (t.run n).nextOpen = 0 ∧ (t.run n).cursor = 0) ∧
    ((s.run n).hasCursor = true → (s.run n).epoch = e →
      (t.run n).nextBatch = (s.run n).nextBatch ∧ (t.run n).cursor = (s.run n).cursor))

/-- R200, R320: BATCH_OPEN opens the next planned batch of a running stream that may open one: it becomes the newest open
batch, with the settings written in force, jobs follow those still to be admitted, one for each position of its plan unless
the run goes on from a kept cursor, and its result slot, when it was FREE, is PENDING. A stream that may open none does not
change. R216, R218, R226, R227: in a stream in EXACT, EXACT_RELEASE releases the job whose cycle has come; a job whose input
is not complete counts as late and the mode is LOST with cause 5; it changes nothing in another mode, for a job released
before, or before its cycle. LAUNCH_WINDOW sets T0 of a running stream that has not been launched to the present tick, at a
phase-zero instant once LAUNCH_AT has come, or when it lay before the start; it changes nothing in another stream, at another
instant or earlier. -/
def Obligations.BatchOpeningAndReleases : Prop :=
  (∀ (s : State) (n : Nat) (p : BatchPlan),
  n < 64 → s.up = true → (s.run n).plan[(s.run n).nextOpen]? = some p →
  (s.mayOpen n = false → exec (.batchOpen n) s = .next s) ∧
  (s.mayOpen n = true → ∃ t b, exec (.batchOpen n) s = .next t ∧ (t.run n).batches = (s.run n).batches ++ [b] ∧ b.state = .open_ ∧
    b.k = (s.run n).k ∧ b.b = (s.run n).nextOpen ∧ b.epoch = (s.run n).epoch ∧ b.plan = p ∧
    b.last = decide ((s.run n).nextOpen + 1 = (s.run n).plan.length) ∧ b.thresholds = (t.stream n).force ∧
    (t.run n).nextOpen = (s.run n).nextOpen + 1 ∧ (t.run n).k = (s.run n).k + 1 ∧
    (t.stream n).inForce = s.writtenSettings n ∧ b.mode = (s.writtenSettings n).splitMode ∧
    (∃ l, (t.run n).toAdmit = (s.run n).toAdmit ++ l ∧
      ((s.run n).hasCursor = false → l.map ToRun.pos = p.positions ∧ ∀ w ∈ l, w.k = b.k ∧ w.try_ = 0)) ∧
    (s.toFabric n = false → (s.slot n b.slot).state = .free → (t.slot n b.slot).state = .pending))) ∧
  ((∀ (s : State) (id : Nat), (∀ j, s.job id = some j →
      (s.stream j.stream).exact.state ≠ 2 ∨ j.released = true ∨ s.releaseDue j = false) → exec (.exactRelease id) s = .next s) ∧
  (∀ (s : State) (n : Nat), n < 64 → (s.stream n).state ≠ .running ∨ (s.stream n).exact.launched = true →
    exec (.launchWindow n) s = .next s) ∧
  (∀ (s : State) (id : Nat) (j : Job), s.up = true → s.job id = some j → j.id = id → (s.stream j.stream).exact.state = 2 →
    j.released = false → s.releaseDue j = true →
    ∃ t, exec (.exactRelease id) s = .next t ∧ t.job id = some { j with released := true } ∧
      (s.coveredReady j = true → t.streams = s.streams) ∧
      (s.coveredReady j = false → (t.stream j.stream).exact.state = 3 ∧ (t.stream j.stream).exact.cause = 5 ∧
        (t.stream j.stream).exact.late = (s.stream j.stream).exact.late + 1)) ∧
  ∀ (s : State) (n : Nat), n < 64 → s.up = true → (s.stream n).state = .running → (s.stream n).exact.launched = false →
    (s.phaseZero = false → exec (.launchWindow n) s = .next s) ∧
    (s.gtc < s.stored (oLaunchAt n) → (s.stream n).exact.startGtc ≤ s.stored (oLaunchAt n) → exec (.launchWindow n) s = .next s) ∧
    (s.phaseZero = true → s.stored (oLaunchAt n) ≤ s.gtc ∨ s.stored (oLaunchAt n) < (s.stream n).exact.startGtc →
      exec (.launchWindow n) s = .next (s.updExact n fun e => { e with launched := true, t0 := s.clk.ticks })))

/-- R199, R201, R330: SETTLE_POSITION takes the outcome of the attempt at the next position of the first open batch. A split
batch records it with its split record, and the position is settled. In another batch a success that fits is placed and
settles the position; one that does not fit, or a failure, settles it as a tail entry under EXCL_POLICY 1 and as a pad under
2; under 0 the tail entry is recorded and the next replacement is to be admitted first, or the position is padded when no try
or no entry is left. Nothing settles in a stream that is not RUNNING or has no batch to settle, before its replacements are
known, or before the attempt has ended. In an ingest stream the first job in EXCLUDED ends, and its sample with its status;
without one nothing changes. -/
def Obligations.SettlePositionOutcomes : Prop :=
  (∀ (s : State) (n : Nat), n < 64 → s.up = true → (s.stream n).state = .running → s.toCorpus n = true →
    let first := s.jobs.find? fun j => j.stream == n && j.state == .excluded
    (first = none → exec (.settlePosition n) s = .next s) ∧
    ∀ j, first = some j →
      (j.ingest = none → exec (.settlePosition n) s = .next (s.takeExcluded j)) ∧
      ∀ i, j.ingest = some i →
        exec (.settlePosition n) s = .next ((s.takeExcluded j).endSample i.1 j.sample (j.status.getD stSuccess))) ∧
  (∀ (s : State) (n : Nat), n < 64 → (s.stream n).state ≠ .running → exec (.settlePosition n) s = .next s) ∧
  (∀ (s : State) (n : Nat), n < 64 → s.toCorpus n = false → (s.run n).settling = none → exec (.settlePosition n) s = .next s) ∧
  (∀ (s : State) (n p : Nat) (b : OpenBatch), n < 64 → s.toCorpus n = false → (s.run n).settling = some b →
    s.hostSettles n b = true ∨ (b.entries.find? (fun e => e.rebuild) = none ∧ b.plan.positions[b.settled]? = some p ∧
      ∀ j, s.jobAt n b.k p (if b.mode ≠ 0 then 0 else b.tries p) = some j → j.status = none) →
    exec (.settlePosition n) s = .next s) ∧
  ∀ (s : State) (n p : Nat) (b : OpenBatch) (j : Job) (st : Nat),
  n < 64 → s.up = true → (s.stream n).state = .running → s.toCorpus n = false → (s.run n).settling = some b →
  s.hostSettles n b = false → b.entries.find? (fun e => e.rebuild) = none → b.plan.positions[b.settled]? = some p →
  s.jobAt n b.k p (if b.mode ≠ 0 then 0 else b.tries p) = some j → j.status = some st →
  (∀ x ∈ (s.run n).batches, x.k = b.k → x = b) →
  let gives := fun (ends : Bool) (good : State → List Entry → Prop) => ∃ t x es, exec (.settlePosition n) s = .next t ∧
    x ∈ (t.run n).batches ∧ x.k = b.k ∧ x.settled = b.settled + (if ends then 1 else 0) ∧ x.entries = b.entries ++ es ∧ good t es
  let tail := fun (x : Nat) (e : Entry) => e.kind = 1 ∧ e.status = x ∧ e.sample = j.sample ∧ e.pos = p
  let pad := fun (e : Entry) => e.kind = 2 ∧ e.sample = s.sampleAt n p ∧ e.pos = p
  let cursor := (s.run n).cursor + (if j.try_ = 0 then 0 else 1)
  (b.mode ≠ 0 → gives true fun _ es => es = [{ sample := j.sample, pos := p, status := st, try_ := 0, digest := j.digest,
                                                output := splitRecord (s.descsOf n) j st false }]) ∧
  (b.mode = 0 → st = stSuccess → ∀ out, s.placing n b j = .ok out →
    gives true fun _ es => es = [{ sample := j.sample, pos := p, status := stSuccess, try_ := b.tries p, digest := j.digest,
                                   output := out }]) ∧
  (b.mode = 0 → ∀ x, st ≠ stSuccess ∧ x = st ∨ st = stSuccess ∧ s.placing n b j = .error x →
    (s.stored (oExclPolicy n) = 1 → gives true fun _ es => ∃ e, es = [e] ∧ tail x e) ∧
    (s.stored (oExclPolicy n) = 2 → gives true fun _ es => ∃ e, es = [e] ∧ pad e) ∧
    (s.stored (oExclPolicy n) = 0 → j.try_ + 1 ≤ s.stored (oBackfillTries n) → cursor < (s.run n).sorted.length →
      gives false fun t es => (∃ e, es = [e] ∧ tail x e) ∧ (t.run n).cursor = cursor ∧
        ∃ w, (t.run n).toAdmit = w :: (s.run n).toAdmit ∧ w.k = b.k ∧ w.pos = p ∧ w.try_ = j.try_ + 1 ∧
          w.sample = s.backfillEntry n cursor) ∧
    (s.stored (oExclPolicy n) = 0 → s.stored (oBackfillTries n) < j.try_ + 1 ∨ (s.run n).sorted.length ≤ cursor →
      gives true fun _ es => ∃ e f, es = [e, f] ∧ tail x e ∧ pad f))

/-- R34, R319, R320, R323: SLOT_DELIVER begins to write a settled batch into its FREE or PENDING slot, whose header names it;
when the write ends the slot is READY with the batch's content, READY_SEQ and BATCHES_DELIVERED rise by 1, NEXT_BATCH is the
one after it, and none of its jobs is PACKED. Without a batch that is being written a slot that is delivered again is READY
with the content that it has, or the record of a backfill that has ended makes its slot READY; else the end of a write
changes nothing, as does SLOT_DELIVER without a settled batch that its slot takes. A stream that delivers to a fabric port
has neither. BATCH_BUFFERS_RETURNED ends the RETIRED jobs of a batch and no others. -/
def Obligations.SlotDelivery : Prop :=
  (∀ (s : State) (n : Nat), n < 64 → s.toFabric n = true →
    exec (.slotDeliver n) s = .next s ∧ exec (.deliverWritten n) s = .next s) ∧
  (∀ (s : State) (n : Nat), n < 64 → (∀ b, s.nextDelivery n = some b → s.slotTakes n b = false) → exec (.slotDeliver n) s = .next s) ∧
  (∀ (s : State) (n : Nat), n < 64 → s.up = true → s.toFabric n = false → (s.run n).batches.find? (fun b => b.state == .writing) = none →
    let again := s.jobs.find? fun j => j.stream == n && j.k == backfillK && j.status.isSome
    (∀ i, s.regenerating n = some i → ∃ t, exec (.deliverWritten n) s = .next t ∧ (t.slot n i).state = .ready ∧
      (t.slot n i).content = (s.slot n i).content) ∧
    (∀ j, s.regenerating n = none → again = some j → ∃ t, exec (.deliverWritten n) s = .next t ∧
      (t.slot n (s.backfillSlot n)).state = .ready ∧ (t.slot n (s.backfillSlot n)).content =
        splitContent j.epoch ((((s.run n).epochOf j.epoch).map fun v => v.batchHolding j.pos).getD 0)
          [splitRecord (s.descsOf n) j (j.status.getD stSuccess) false]) ∧
    (s.regenerating n = none → again = none → exec (.deliverWritten n) s = .next s)) ∧
  ∀ (s : State) (n : Nat) (b : OpenBatch),
  n < 64 → s.up = true →
  (s.toFabric n = false → s.nextDelivery n = some b → s.slotTakes n b = true →
    ∃ t, exec (.slotDeliver n) s = .next t ∧ (t.slot n b.slot).state = .pending ∧ (t.slot n b.slot).seq = b.k ∧
      (t.slot n b.slot).batch = b.b ∧ (t.slot n b.slot).epoch = b.epoch ∧
      (t.run n).batches = (s.run n).batches.map fun x => if x.k = b.k then { x with state := .writing } else x) ∧
  (s.toFabric n = false → (s.run n).batches.find? (fun b => b.state == .writing) = some b →
    ∃ t, exec (.deliverWritten n) s = .next t ∧ (t.slot n b.slot).state = .ready ∧
      (t.slot n b.slot).content = b.content ∧ (t.slot n b.slot).readyGtc = s.gtc ∧
      (t.stream n).dlv.readySeq = (s.stream n).dlv.readySeq + 1 ∧
      t.stored oBatchesDelivered = s.stored oBatchesDelivered + 1 ∧ (t.run n).nextBatch = b.b + 1 ∧
      ∀ j ∈ t.jobs, j.stream = n → j.k = b.k → j.state ≠ .packed) ∧
  ∀ k, ∃ t, exec (.batchBuffersReturned n k) s = .next t ∧
    t.jobs = s.jobs.filter fun j => !(j.stream == n && j.k == k && j.state == .retired)

/-- R376 to R378: on a fabric port nothing is written while the consumer's credits are used up or of a later fence; else the
next settled batch takes DLV_SEQ, which rises by 1: on RoCEv2 it goes out as an RDMA WRITE with the stream's fence and the
sequence number in its immediate, and on Midway as a WRITE_NOTIFY to the consumer's coordinates, or the stream is HELD with
DESTINATION_UNREACHABLE where the torus has none such. In a stream that delivers to the host, without a settled batch and
without a port nothing is written. R320, R325 to R327, R329: DB_RETIRE and DB_REDELIVER of a READY slot under its present
SLOT_GEN retire it (FREE with the next SLOT_GEN, or RETIRED with it while the stream is LOADED or MOVED) or make it PENDING;
otherwise the doorbell is refused with the first status that applies, which DB_STATUS shows, and no slot and no job changes.
-/
def Obligations.FabricDeliveryAndDoorbells : Prop :=
  ((∀ (s : State) (n : Nat), n < 64 →
    s.toFabric n = false ∨ (s.stream n).prot.fenceEpoch < (s.stream n).dlv.creditFence ∨ s.nextDelivery n = none ∨
      (imgProto (s.imageOf n).image ≠ 1 ∧ s.deliveryPort n = none) → exec (.fabricDeliver n) s = .next s) ∧
  ∀ (s : State) (n : Nat) (b : OpenBatch),
  let d := (s.stream n).dlv
  let w := { b with state := .writing, dlvSeq := d.dlvSeq }
  n < 64 → s.up = true → s.toFabric n = true → d.creditFence ≤ (s.stream n).prot.fenceEpoch →
  (d.granted ≤ d.dlvSeq → exec (.fabricDeliver n) s = .next s) ∧
  (∀ k, d.dlvSeq < d.granted → s.nextDelivery n = some b → imgProto (s.imageOf n).image ≠ 1 → s.deliveryPort n = some k →
    ∃ t, exec (.fabricDeliver n) s = .next t ∧ (t.stream n).dlv.dlvSeq = d.dlvSeq + 1 ∧
      t.out = s.out ++ [.rdmaWrite k (s.stored (oDlvRemoteQpn n))
        (s.stored (oDlvRaddr n) + d.dlvSeq % max 1 (s.stored (oDlvRslots n)) * s.stored (oDlvRslotBytes n))
        (s.stored (oDlvRkey n)) ((s.stream n).prot.fenceEpoch % 256 * 2 ^ 24 + d.dlvSeq % 2 ^ 24) b.content] ∧
      (t.run n).batches = (s.run n).batches.map fun x => if x.k = b.k then w else x) ∧
  (d.dlvSeq < d.granted → s.nextDelivery n = some b → imgProto (s.imageOf n).image = 1 →
    s.inTorus (s.stored (oDlvRemoteCoord n)) = true →
    let m := ((s.updBatch n b.k fun _ => w).updDlv n fun d => { d with dlvSeq := d.dlvSeq + 1 }).ensureQp n
    exec (.fabricDeliver n) s = .next ((m.sendNotify n w).deliverOwn m.fabric.nextMsg)) ∧
  (d.dlvSeq < d.granted → s.nextDelivery n = some b → imgProto (s.imageOf n).image = 1 →
    s.inTorus (s.stored (oDlvRemoteCoord n)) = false →
    ∃ t, exec (.fabricDeliver n) s = .next t ∧ (t.stream n).state = .held ∧ (t.stream n).lastStatus = stUnreachable)) ∧
  (∀ (s : State) (n v : Nat),
  let i := bits v 15 0
  let x := s.slot n i
  let st := if s.scrubbed n then stScrub else if s.stored (oSlotCount n) ≤ i then stSlotNotReady
    else if x.gen ≠ bits v 63 32 then stSlotRetired else if x.state ≠ .ready then stSlotNotReady else stSuccess
  let refusedWith := fun (r : Res) (st : Nat) => ∃ t, r = .next t ∧ (t.stream n).dlv.dbLast = st ∧
    (t.stream n).dlv.dbSlot = i ∧ (t.stream n).dlv.dbCount = ((s.stream n).dlv.dbCount + 1) % 2 ^ 32 ∧
    (t.stream n).dlv.slots = (s.stream n).dlv.slots ∧ t.jobs = s.jobs
  n < 64 → s.up = true →
  (st = stSuccess → ∃ t, exec (.dbRetire n v) s = .next t ∧
    (t.slot n i).state = (if (s.stream n).state = .loaded ∨ (s.stream n).state = .moved then .retired else .free) ∧
    (t.slot n i).gen = (x.gen + 1) % 2 ^ 32 ∧
    (t.stream n).dlv.retiredSeq = (s.stream n).dlv.retiredSeq + (if x.bfill then 0 else 1)) ∧
  (st = stSuccess → (s.stream n).state ≠ .moved → ∃ t, exec (.dbRedeliver n v) s = .next t ∧ (t.slot n i).state = .pending ∧
    (t.slot n i).gen = x.gen ∧ t.stored (oRedeliveries n) = s.stored (oRedeliveries n) + 1) ∧
  (s.scrubbed n = false → (s.stream n).state = .moved → refusedWith (exec (.dbRedeliver n v) s) stMoved) ∧
  (st ≠ stSuccess → refusedWith (exec (.dbRetire n v) s) st) ∧
  (st ≠ stSuccess → (s.stream n).state ≠ .moved ∨ s.scrubbed n = true → refusedWith (exec (.dbRedeliver n v) s) st))

/-- R331, R332: an accepted DB_BACKFILL takes the next entry of its epoch's backfill list for its position, a job that is
admitted first, and leaves the backfill slot PENDING; with no entry left that slot is READY with an EXHAUSTED record. A
request that a check refuses answers its status. A split slot that has been READY for HOST_DEADLINE raises HOST_STAGE_TIMEOUT
once, and stays READY; the deadline of another slot, or before its time, changes nothing. R312 to R315, R318, R321, R322,
R328, R329: a read of the result memory gives the 64-byte line of the slot that holds the address: its header, its content
while it is READY, zero otherwise; while the stream's tenant is scrubbed the header is that of a FREE slot and the rest is
zero; a withheld line reads poisoned and its status is kept in the header. A write is completed and discarded, and one of a
window that carries data is counted. Beyond RESULT_DPA no address exists, and both stop with a fault of that name. -/
def Obligations.BackfillDeadlineAndWindows : Prop :=
  ((∀ (s : State) (n i : Nat), n < 64 → (s.slot n i).state ≠ .ready ∨ (s.slot n i).split = false ∨ (s.slot n i).timedOut = true ∨
      s.gtc < (s.slot n i).readyGtc + s.stored (oHostDeadline n) * 1000000 → exec (.hostDeadlineExpiry n i) s = .next s) ∧
  ∀ (s : State) (n v : Nat),
  let pos := bits v 31 0
  let e := bits v 63 32
  let st := (s.touch 0).backfillCheck n pos e
  n < 64 → s.up = true →
  (∀ p, st = stSuccess → (s.run n).epochOf e = some p → p.cursor < p.sorted.length →
    ∃ t w, exec (.dbBackfill n v) s = .next t ∧ (t.slot n (s.backfillSlot n)).state = .pending ∧
      (t.slot n (s.backfillSlot n)).bfill = true ∧ (t.run n).toAdmit = w :: (s.run n).toAdmit ∧ w.pos = pos ∧ w.try_ = 1 ∧
      w.epoch = some e ∧ w.sample = s.backfillIn n p p.cursor ∧
      ((s.run n).begun = true → (s.run n).epoch = e → (t.run n).cursor = (s.run n).cursor + 1)) ∧
  (∀ p, st = stSuccess → (s.run n).epochOf e = some p → p.sorted.length ≤ p.cursor →
    ∃ t, exec (.dbBackfill n v) s = .next t ∧ (t.slot n (s.backfillSlot n)).state = .ready ∧
      (t.slot n (s.backfillSlot n)).content = splitContent e (p.batchHolding pos)
        [splitRecord [] { id := 0, stream := n, epoch := e, pos := pos, sample := s.sampleIn n p pos } stSuccess true] ∧
      (t.run n).toAdmit = (s.run n).toAdmit ∧ (t.run n).cursor = (s.run n).cursor) ∧
  (st ≠ stSuccess → exec (.dbBackfill n v) s = .next ((s.touch 0).doorRefused n st pos)) ∧
  ∀ i, i < 65536 → (s.slot n i).state = .ready → (s.slot n i).split = true → (s.slot n i).timedOut = false →
    (s.slot n i).readyGtc + s.stored (oHostDeadline n) * 1000000 ≤ s.gtc →
    ∃ t, exec (.hostDeadlineExpiry n i) s = .next t ∧ (t.slot n i).timedOut = true ∧
      (t.slot n i).state = .ready ∧ (t.stream n).dlv.dbLast = stHostTimeout ∧ (t.stream n).dlv.dbSlot = i ∧
      t.stored (oHostTimeouts n) = s.stored (oHostTimeouts n) + 1 ∧ (t.chan 0).wake = true ∧
      ((s.chan 0).rxLen ≠ 0 → (s.chan 0).rx = none → s.notices = [] → s.rmSends 0 = true → ∃ m, (t.chan 0).rx = some m ∧
        m.body = noticeBody { kind := 3, status := stHostTimeout, subject := n, gtc := s.gtc, detail := i })) ∧
  (∀ (s : State) (dpa : Nat) (data : Bytes),
  s.up = true →
  (dpa < s.stored oResultDpa * 2 ^ 30 →
    (∀ n i o, s.windowAt dpa = some (n, i, o) →
      let x := s.slot n i
      let line := o - o % 64
      ((∀ p ∈ x.poisoned, p.1 ≠ line) ∨ x.state ≠ .ready ∨ o < 128 ∨ s.scrubbed n = true → ∃ t, exec (.cxlMemRead dpa) s = .next t ∧
        t.out = s.out ++ [.cxlData (if o < 64 then slotHeader n x (s.scrubbed n)
          else if 128 ≤ o ∧ x.state = .ready ∧ s.scrubbed n = false then sliceZ x.content (line - 128) 64
          else zeros 64) false] ∧ t.streams = s.streams ∧
        t.stored oCxlMemReadBytes = s.stored oCxlMemReadBytes + 64) ∧
      (∀ p, x.state = .ready → 128 ≤ o → s.scrubbed n = false → x.poisoned.find? (fun p => p.1 == line) = some p →
        p.2 ≠ stSuccess →
        ∃ t, exec (.cxlMemRead dpa) s = .next t ∧ t.out = s.out ++ [.cxlData (zeros 64) true] ∧
          (t.slot n i).status = p.2 ∧ t.stored oPoisonReturned = s.stored oPoisonReturned + 1)) ∧
    (s.windowAt dpa = none → ∃ t, exec (.cxlMemRead dpa) s = .next t ∧
      t.out = s.out ++ [.cxlData (zeros 64) false] ∧ t.streams = s.streams) ∧
    ((s.windowAt dpa).isSome = true → data ≠ [] →
      exec (.cxlMemWrite dpa data) s = .next ((s.count oHdmWritesDiscarded 1).emit .cxlWriteDone)) ∧
    (s.windowAt dpa = none ∨ data = [] → exec (.cxlMemWrite dpa data) s = .next (s.emit .cxlWriteDone))) ∧
  (s.stored oResultDpa * 2 ^ 30 ≤ dpa →
    exec (.cxlMemRead dpa) s = .fault .dpaUnmapped ∧ exec (.cxlMemWrite dpa data) s = .fault .dpaUnmapped))

/-- R186, R194, R232, R233: a band is recorded by its owner, beside those it has; the holder of a sample that another member
is to hold sends a copy of it and notes that it moves, once; a verified copy is stored at the member towards which it
migrates, when it fits; the holder drops its own once a copy with the digest of its record is committed; every other
migration changes nothing. SNAP_CONTROL of a PAUSED or HELD stream takes a snapshot with the next SNAP_SEQ, and is refused in
another state; the end of a pause that has drained takes one too, and leaves the stream PAUSED with its cursor kept, and does
nothing before that. -/
def Obligations.BandsMigrationAndSnapshots : Prop :=
  (∀ (s : State) (corpus k band idx sig : Nat), s.up = true → k < 8 → band < 2 ^ 32 → idx < 2 ^ 64 → sig < 2 ^ 256 →
    ∃ t, exec (.dedupBandReceive corpus k band idx sig) s = .next t ∧
      ({ corpus := corpus, k := k, band := band, sample := idx, sig := sig } : Band) ∈ t.bands ∧ ∀ b ∈ s.bands, b ∈ t.bands) ∧
  (∀ (s : State) (nsid idx : Nat) (x : Namespace) (c : Corpus), s.up = true → s.ns nsid = some x → x.corpus = some c →
    (∀ r, Tbl.find c.records idx = some r → c.locNow idx ≠ c.own → c.moving.contains idx = false →
      exec (.sampleMigrate nsid idx .send) s = .next (s.sendCopy x nsid idx c r)) ∧
    (∀ m : MigCopy, c.locNow idx = c.own → Tbl.find c.records idx = none → (sha3_512 m.data).take 24 = m.digest →
      x.fits c m.data.length = true → s.sampleRoom c m.data.length = true →
      exec (.sampleMigrate nsid idx (.arrive m)) s = .next (s.storeRecord nsid idx m.data m.flags m.logical)) ∧
    (∀ r, Tbl.find c.records idx = some r → c.moving.contains idx = true →
      exec (.sampleMigrate nsid idx (.committed r.digest)) s = .next (s.dropSample nsid idx)) ∧
    (Tbl.find c.records idx = none ∨ c.locNow idx = c.own ∨ c.moving.contains idx = true →
      exec (.sampleMigrate nsid idx .send) s = .next s) ∧
    (∀ m : MigCopy, c.locNow idx ≠ c.own ∨ Tbl.find c.records idx ≠ none ∨ (sha3_512 m.data).take 24 ≠ m.digest ∨
      x.fits c m.data.length = false ∨ s.sampleRoom c m.data.length = false → exec (.sampleMigrate nsid idx (.arrive m)) s = .next s) ∧
    (∀ g, (∀ r, Tbl.find c.records idx = some r → c.moving.contains idx = false ∨ g ≠ r.digest) →
      exec (.sampleMigrate nsid idx (.committed g)) s = .next s)) ∧
  (∀ (s : State) (nsid idx : Nat) (m : Migrate), (∀ x, s.ns nsid = some x → x.corpus = none) →
    exec (.sampleMigrate nsid idx m) s = .next s) ∧
  (∀ (s : State) (n : Nat), n < 64 → (s.stream n).state ≠ .running ∨ (s.stream n).draining = false ∨ s.drained n = false →
    exec (.pauseDrainDone n) s = .next s) ∧
  (∀ (s t : State) (r : OdReq) (n : Nat) (role : Role), n < 64 → s.ReceivesWrite r (oSnapControl n) role t →
    t.scrubbing n = false →
    ((t.stream n).state = .paused ∨ (t.stream n).state = .held →
      exec (.snapControl r n) s = (t.updStream n fun x =>
        { x with snapshot := some (t.snapshotBytes n ((t.stream n).snapSeq + 1)), snapSeq := (t.stream n).snapSeq + 1 }).wroteOk r) ∧
    ((t.stream n).state ≠ .paused → (t.stream n).state ≠ .held → exec (.snapControl r n) s = t.wroteNot r 0)) ∧
  ∀ (s : State) (n : Nat), n < 64 → s.up = true → (s.stream n).state = .running → (s.stream n).draining = true →
    s.drained n = true →
    ∃ t, exec (.pauseDrainDone n) s = .next t ∧ (t.stream n).state = .paused ∧ (t.stream n).draining = false ∧
      (t.stream n).snapshot = some (s.snapshotBytes n ((s.stream n).snapSeq + 1)) ∧ (t.run n).hasCursor = true

/-! ## Buffers, pools and memory errors (R20, R254 to R272) -/

/-- R260 to R262, R265, R269 to R271: an ALLOC of a requester that the device has, that passes its checks, is granted: every
handle names the pool and the caller, no buffer was in use, and all are granted when the records of the pool are no more than
its OCCUPIED count; one that fails is answered with the check's status, or waits when it blocks; one whose arguments are not
those of an ALLOC changes nothing. A RELEASE frees a buffer, drops a holder, or is refused and logged. R258, R259:
POOL_PLACE: a write of 0 takes effect on an empty pool that no image names, and is refused otherwise; a write of the present
placement changes nothing; another placement takes effect when its conditions hold on a pool that is OFF, or empty and named
by no image, with its total's default for a NOTICE_AT that has not been written, and is refused otherwise. RECLAIM frees the
orphaned buffers of the pool and, when no ALLOC waits, leaves every other buffer. -/
def Obligations.BuffersPoolsAndReclaim : Prop :=
  ((∀ (s : State) (a : AllocReq), a.pool < 64 → a.source.exists = true → s.up = true →
    (a.ok = false → exec (.bufferAlloc a) s = .next s) ∧
    (a.ok = true → s.allocCheck a = stSuccess →
      s.partStart a.pool (s.takePart a.pool a.count) + a.count + (s.pool a.pool).filled ≤ 2 ^ 26 →
      ∃ (u : State) (hs : List Nat), exec (.bufferAlloc a) s = .next (u.emit (.buffers a.requester stSuccess hs)) ∧
        (u.pool a.pool).occupied = (s.pool a.pool).occupied + a.count ∧
        Tbl.get u.charged 0 (64 * a.requester + a.pool) = Tbl.get s.charged 0 (64 * a.requester + a.pool) + a.count ∧ hs.Nodup ∧
        ((s.buffers.filter fun b => b.1 / 2 ^ 26 == a.pool).length ≤ (s.pool a.pool).occupied → hs.length = a.count) ∧
        ∀ h ∈ hs, bits h 31 26 = a.pool ∧ bits h 41 32 = a.requester ∧ bit h 42 = !a.holders.isEmpty ∧ h < 2 ^ 43 ∧
          Tbl.find s.buffers (bufKey a.pool (bits h 25 0)) = none ∧ bits h 25 0 ∉ (s.pool a.pool).gone) ∧
    (a.ok = true → s.allocCheck a ≠ stSuccess → a.blocking = true →
      exec (.bufferAlloc a) s = .next { s with allocs := s.allocs ++ [a] }) ∧
    (a.ok = true → s.quotaOk a.requester a.pool a.count = false → a.blocking = false →
      exec (.bufferAlloc a) s = .next (s.emit (.buffers a.requester stQuota []))) ∧
    (a.ok = true → s.quotaOk a.requester a.pool a.count = true → a.blocking = false →
      s.stored (oPoolPlace a.pool) = 0 ∨ s.limitOk a.pool a.cls a.count = false ∨
        (s.stored (oPoolPlace a.pool) = 1 ∧ s.allocPart a.pool a.count = none) →
      exec (.bufferAlloc a) s = .next (s.emit (.buffers a.requester stPoolExhausted [])))) ∧
  ∀ (s : State) (q : Requester) (handle : Nat),
    let r := q.id
    let key := bufKey (bits handle 31 26) (bits handle 25 0)
    let gives := fun (u : State) (st : Nat) => exec (.bufferRelease q handle) s = .next (u.serveAllocs.emit (.buffers r st []))
    let logged := fun (u : State) (st : Nat) => u.relCount = s.relCount + 1 ∧ u.relLog.length ≤ 64 ∧ u.relLog.head? =
      some ({ gtc := s.gtc, requester := r, status := st, handle := handle } : RelLog)
    q.exists = true → s.up = true →
    (Tbl.find s.buffers key = none → ∃ u, gives u stDoubleFree ∧ logged u stDoubleFree ∧ u.buffers = s.buffers) ∧
    ∀ b, Tbl.find s.buffers key = some b →
      let hs := b.holders.map fun h => if h.1 = r then (h.1, false) else h
      let left := { s with buffers := Tbl.set s.buffers key { b with holders := hs } }
      (b.holders = [] → gives (s.freeBuffer key b) stSuccess) ∧
      (b.holders ≠ [] → (r, true) ∉ b.holders → ∃ u, gives u stDoubleFree ∧ logged u stDoubleFree ∧ u.buffers = s.buffers) ∧
      ((r, true) ∈ b.holders → (∃ h ∈ hs, h.2 = true) → gives left stSuccess) ∧
      ((r, true) ∈ b.holders → (∀ h ∈ hs, h.2 = false) → r = b.owner →
        gives (s.freeBuffer key { b with holders := hs }) stSuccess) ∧
      ((r, true) ∈ b.holders → (∀ h ∈ hs, h.2 = false) → r ≠ b.owner →
        ∃ u : State, u.buffers = Tbl.set s.buffers key { b with holders := hs, orphan := true } ∧
          gives u stNotFinalOwner ∧ logged u stNotFinalOwner) ∧
      (b.failed = false → (s.freeBuffer key b).buffers = Tbl.del s.buffers key ∧
        ((s.freeBuffer key b).pool (key / 2 ^ 26)).occupied = (s.pool (key / 2 ^ 26)).occupied - 1 ∧
        Tbl.get (s.freeBuffer key b).charged 0 (64 * b.requester + key / 2 ^ 26) =
          Tbl.get s.charged 0 (64 * b.requester + key / 2 ^ 26) - 1)) ∧
  (∀ (s t : State) (r : OdReq) (p : Nat) (role : Role),
  let v := leNat r.data
  let old := t.stored (oPoolPlace p)
  let still := (t.pool p).occupied = 0 ∧ t.poolNamed p = false
  p < 64 →
  (s.ReceivesWrite r (oPoolPlace p) role t →
    (v = 0 → still → ∃ u : State, exec (.poolPlaceWrite r p) s = u.wroteOk r ∧ u.stored (oPoolPlace p) = 0) ∧
    (v = 0 → ¬ still → exec (.poolPlaceWrite r p) s = t.wroteNot r 0) ∧
    (v ≠ 0 → v = old → exec (.poolPlaceWrite r p) s = t.serveAllocs.wroteOk r) ∧
    (v ≠ 0 → v ≠ old → old = 0 ∨ still → t.placeOk p v = true →
      ∃ u : State, exec (.poolPlaceWrite r p) s = u.wroteOk r ∧ u.stored (oPoolPlace p) = v ∧
        (oNoticeAt p ∉ t.written → u.stored (oNoticeAt p) = ceilDiv (3 * t.poolTotalAs p v) 4)) ∧
    (v ≠ 0 → v ≠ old → old ≠ 0 → ¬ still → exec (.poolPlaceWrite r p) s = t.wroteNot r 0) ∧
    (v ≠ 0 → v ≠ old → t.placeOk p v = false → exec (.poolPlaceWrite r p) s = t.wroteNot r 0) ∧
    (v ≠ 0 → t.stored (oBufCount p) = 0 ∨ t.stored (oBufSize p) < 256 ∨ (v ≠ 3 ∧ 65536 < t.stored (oBufSize p)) →
      t.placeOk p v = false)) ∧
  (s.ReceivesWrite r (oReclaim p) role t →
    exec (.reclaim r p) s = (t.reclaimPool p).wroteOk r ∧
    (t.allocs = [] → (t.buffers.map Prod.fst).Nodup → ∀ k b, (k, b) ∈ t.buffers →
      (k / 2 ^ 26 = p → b.orphan = true → Tbl.find (t.reclaimPool p).buffers k = none) ∧
      (k / 2 ^ 26 ≠ p ∨ b.orphan = false → Tbl.find (t.reclaimPool p).buffers k = some b))))

/-- R20, R243, R246, R248, R249, R251, R252, R254 to R256: a scrub read steps the scrubber on, and notes the end of a pass at
the last line or word. A DRAM line with a record: one not WRITTEN or poisoned is passed over; errors of one device are
corrected, counted, and written back unless a write came between; errors of two devices, and a ciphertext whose tag does not
agree, are counted and, in a region that is not rebuilt at once, poison the line. Above the data region, beyond the tags, one
device in error is counted as corrected and two as uncorrectable. An Oasis word with one bit in error is counted; with two it
is counted and marked failed, once. A line or word beyond the memory, and PHY recalibration, change nothing. R285, R294,
R295, R297, R298, R307, R308: garbage collection begins a copy of valid units of its victim alone, none of them read or
verified, drops no copy, changes no map entry but those of units that did not decode, which become LOST, and erases a closed
block that holds nothing and is no copy's source. A patrol read counts its step, reports a unit that did not decode and
delivers nothing, and past the last mapped unit it records the end of the pass. A checkpoint writes the oldest dirty segment,
keeps the anchor before it and the journal that this one needs, and does nothing without a dirty segment. A temperature
sample gives the hottest reading and adds each to its bin. -/
def Obligations.ScrubbersPatrolAndCheckpoint : Prop :=
  ((∀ (s : State) (line : Nat) (f : LineFault) (raced : Bool), s.up = true →
    let lines := s.ddrCapacity / 64
    let on := if line + 1 = lines then State.store { s with dramScrub := 0 } oDramScrubDone s.gtc else { s with dramScrub := line + 1 }
    let r := exec (.dramScrubRead line f raced) s
    (lines ≤ line → r = .next s) ∧
    (line < lines → line < s.dataRegion / 64 → ∀ l, Tbl.find s.dram line = some l →
      let c := on.cipherOf line (s.fabric.mem.readN (64 * line) 64)
      let tagged := on.tagOf line c = xorBytes l.tag (leBytes 8 f.tag)
      let fails := fun (key : Nat) => ∃ t, r = .next t ∧ t.dramScrub = on.dramScrub ∧ t.stored key = on.stored key + 1 ∧
        (on.rebuiltBytes ≤ 64 * line → (Tbl.get t.dram {} line).poison = true)
      (l.poison = true ∨ l.written = false → r = .next on) ∧
      (l.poison = false → l.written = true →
        (f.bad.length = 0 → tagged → r = .next on) ∧
        (f.bad.length = 1 → tagged → raced = true → r = .next (on.count oDramCorrected 1)) ∧
        (f.bad.length = 1 → tagged → raced = false →
          r = .next ((on.count oDramCorrected 1).writeLine line (on.plainOf line c))) ∧
        (f.bad.length = 2 → fails oDramUncorrectable) ∧
        (f.bad.length ≤ 1 → ¬ tagged → fails oTagFailures))) ∧
    (line < lines → s.dataRegion / 64 ≤ line → on.tagBase + on.dataRegion / 8 ≤ 64 * line →
      (f.bad.length = 0 → r = .next on) ∧
      (f.bad.length = 1 → r = .next (on.count oDramCorrected 1)) ∧
      (f.bad.length = 2 → r = .next (on.count oDramUncorrectable 1)))) ∧
  (∀ (s : State) (word : Nat) (errors : List Nat) (raced : Bool), s.up = true →
    let on := if word + 1 = oasisWords then State.store { s with oasisScrub := 0 } oOasisScrubDone s.gtc
      else { s with oasisScrub := word + 1 }
    let bad := ((errors.filter fun b => decide (b < 72)).dedup).length
    let r := exec (.oasisScrubRead word errors raced) s
    (oasisWords ≤ word → r = .next s) ∧
    (word < oasisWords → bad = 0 → r = .next { on with oasisFailed := s.oasisFailed.filter (· ≠ word) }) ∧
    (word < oasisWords → bad = 1 → r = .next (on.count oSramCorrected 1)) ∧
    (word < oasisWords → bad = 2 → word ∈ s.oasisFailed → r = .next on) ∧
    (word < oasisWords → bad = 2 → word ∉ s.oasisFailed → ∃ t, r = .next t ∧
      t.oasisFailed = s.oasisFailed ++ [word] ∧ t.oasisScrub = on.oasisScrub ∧
      t.stored oSramUncorrectable = on.stored oSramUncorrectable + 1)) ∧
  ∀ s : State, exec .phyRecalibrate s = .next s) ∧
  ((∀ (s : State) (m : Nat), m < 16 → s.up = true → s.flashOn = true →
    (s.victim m = none → exec (.gcVictimSelect m) s = .next (s.followGc m)) ∧
    ∀ b, s.victim m = some b → ∃ t, exec (.gcVictimSelect m) s = .next t ∧ t.flash.units = s.flash.units ∧
      (∀ l, Tbl.get t.flash.map lpnUnmapped l = Tbl.get s.flash.map lpnUnmapped l ∨
        Tbl.get t.flash.map lpnUnmapped l = lpnLost ∧ ∃ p ∈ s.flash.validUnits b, ∃ u, Tbl.find s.flash.units p = some u ∧
          u.bad = true ∧ u.lpn = l) ∧
      (∀ c ∈ s.flash.copies, c ∈ t.flash.copies) ∧
      (∀ c ∈ t.flash.copies, c ∉ s.flash.copies → c.src ∈ s.flash.validUnits b ∧ c.read = false ∧ c.verified = false) ∧
      (s.flash.validUnits b = [] → s.flash.isClosed b = true → (∀ c ∈ s.flash.copies, s.flash.blockOf c.src ≠ b) →
        (Tbl.get t.flash.blocks {} b).use = .erasing ∧ t.flash.copies = s.flash.copies)) ∧
  (∀ (s : State) (step : Nat), s.up = true → s.flashOn = true → s.rmRuns 3 = true → s.sys.step = 0 →
    (s.flash.map.find? (fun e => s.flash.patrol ≤ e.1 && e.2 ≠ lpnLost) = none →
      ∃ t, exec (.patrolRead step) s = .next t ∧ t.flash = { s.flash with patrol := 0 } ∧
        t.stored oPatrolDone = s.gtc ∧ t.out = s.out) ∧
    ∀ lpn pun, s.flash.map.find? (fun e => s.flash.patrol ≤ e.1 && e.2 ≠ lpnLost) = some (lpn, pun) →
      ∃ t, exec (.patrolRead step) s = .next t ∧ t.flash.patrol = lpn + 1 ∧ t.flash.map = s.flash.map ∧ t.out = s.out ∧
        t.stored oCorHard = s.stored oCorHard + (if step = 0 then 1 else 0) ∧
        t.stored oCorRetry = s.stored oCorRetry + (if 1 ≤ step ∧ step ≤ 16 then 1 else 0) ∧
        t.stored oCorSoft = s.stored oCorSoft + (if step = 17 then 1 else 0) ∧
        t.stored oUncorrectable = s.stored oUncorrectable + (if 17 < step then 1 else 0) ∧
        (17 < step → t.flash.report = ((s.gtc, lpn, pun, step) :: s.flash.report).take 4096) ∧
        (step ≤ 17 → t.flash.report = s.flash.report) ∧
        (Tbl.get t.flash.blocks {} (s.flash.blockOf pun)).reads =
          (Tbl.get s.flash.blocks {} (s.flash.blockOf pun)).reads + 1) ∧
  (∀ s : State, s.up = true → s.flashOn = true → s.rmRuns 3 = true → s.sys.step = 0 →
    (s.flash.dirty = [] → exec .checkpointWrite s = .next s) ∧
    ∀ seg q rest, s.flash.dirty = (seg, q) :: rest →
      ∃ t, exec .checkpointWrite s = .next t ∧ t.flash.dirty = rest ∧ t.flash.map = s.flash.map ∧ t.flash.older = s.flash.root ∧
        Tbl.find t.flash.root.ckpts seg = some (s.flash.seq, s.flash.map.filter fun e => segmentOf e.1 == seg) ∧
        t.flash.root.base = (match rest with | (_, k) :: _ => k | [] => s.flash.seq) ∧ t.flash.root.blocks = s.flash.blocks ∧
        ∀ p ∈ s.flash.journal, s.flash.root.base < p.base + p.recs.length → p ∈ t.flash.journal) ∧
  ∀ (s : State) (temps : List Int), s.up = true → s.flashOn = true →
    (∀ x ∈ temps, -128 ≤ x ∧ x ≤ 127) →
    ∃ t, exec (.flashTempSample temps) s = .next t ∧ t.flash = s.flash ∧
      (∀ x ∈ temps, x ≤ toSigned 8 (t.stored oTempNow)) ∧ (temps ≠ [] → toSigned 8 (t.stored oTempNow) ∈ temps) ∧
      ∀ i, i < 21 → t.stored (oTempHist i) = s.stored (oTempHist i) + (temps.filter fun x => tempBin x = i).length)

/-! ## Flash translation and media (R276 to R308) -/

/-- R276, R280, R283, R284, R288, R289, R300, R347: DESTAGE gives an entry of the write buffer that no program operation
holds the next slot of the open host block, a CLOSED pool one that was admitted before it closed, and changes nothing without
an entry or a slot. When the last program operation of a write succeeds the map names every slot of the write, MAP records
follow as one group, and its entries are released; before that only the unit and the entry change. When an operation fails
the block is retired and every entry that it held waits again. R289, R291 to R295: an erase of a block that is being erased:
when it succeeds the block is free with no unit left and one more erase, when it fails the block is retired. The erase of the
flush region ends with its last block. A read counts the step at which its codeword decoded and the reads of its block: of a
copy's target at step 0 it verifies the copy, of a copy's source at a step up to 17 it is step 1 of the copy, and a source
that does not decode is LOST. A verified copy commits only while the map still names its source. -/
def Obligations.FlashOperations : Prop :=
  ((∀ (s : State) (m : Nat), m < 16 → s.up = true → s.flashOn = true →
    (∀ e pun f, s.nextDestage m = some e → s.flash.takeSlot m .openHost = some (pun, f) →
      exec (.destage m) s = .next { s with flash := { f with
        wbuf := f.wbuf.map fun (x : WbEntry) => if x = e then { x with pun := some pun } else x } }) ∧
    (s.nextDestage m = none ∨ s.flash.takeSlot m .openHost = none → exec (.destage m) s = .next s) ∧
    ∀ e, s.nextDestage m = some e → e ∈ s.flash.wbuf ∧ e.pun = none ∧ (s.mediaPool m = 2 → e.write < Tbl.get s.flash.closedAt 0 m) ∧
      (e.journal = false → s.mediaPool m ≠ 2 → ∀ x ∈ s.flash.wbuf, x.journal = true → x.pun = none →
        ∃ y ∈ s.flash.wbuf, y.lpn = x.lpn ∧ y.pun ≠ none)) ∧
  (∀ (s : State) (pun : Nat) (e : WbEntry), s.up = true → s.flashOn = true →
    s.flash.wbuf.find? (fun x => x.pun == some pun && !x.done) = some e →
    let es := s.flash.wbuf.filter fun x => x.write == e.write
    ∃ t, exec (.programComplete pun true) s = .next t ∧
      Tbl.find t.flash.units pun = some { lpn := e.lpn, key := e.key, data := e.data } ∧
      (∀ x ∈ s.flash.wbuf, x.write ≠ e.write → x.pun ≠ some pun → x ∈ t.flash.wbuf) ∧
      ((∃ x ∈ es, x.pun ≠ some pun ∧ x.done = false) → t.flash.map = s.flash.map ∧ t.flash.journal = s.flash.journal ∧
        t.flash.wbuf = s.flash.wbuf.map fun (x : WbEntry) => if x.pun = some pun then { x with done := true } else x) ∧
      ((∀ x ∈ es, x.pun = some pun ∨ x.done = true) → (∀ x ∈ t.flash.wbuf, x.write ≠ e.write) ∧
        (∀ l, (∀ x ∈ es, x.lpn ≠ l) → Tbl.get t.flash.map lpnUnmapped l = Tbl.get s.flash.map lpnUnmapped l) ∧
        ((es.map WbEntry.lpn).Nodup → ∀ x ∈ es, Tbl.get t.flash.map lpnUnmapped x.lpn = x.pun.getD lpnUnmapped) ∧
        (es.length ≤ 254 → t.flash.records = s.flash.records ++ es.zipIdx.map fun x =>
          { lpn := x.1.lpn, value := x.1.pun.getD lpnUnmapped, type := 1, group := groupBits x.2 es.length }))) ∧
  ∀ (s : State) (pun : Nat) (e : WbEntry), s.up = true → s.flashOn = true →
    s.flash.wbuf.find? (fun x => x.pun == some pun && !x.done) = some e →
    let b := s.flash.blockOf pun
    let m := s.flash.mpoolOf b
    ∃ t, exec (.programComplete pun false) s = .next t ∧
      t.stored oProgramFails = s.stored oProgramFails + 1 ∧
      t.flash.wbuf = (s.flash.wbuf.map fun (x : WbEntry) =>
        if x.pun.any (fun p => s.flash.blockOf p == b) then { x with pun := none, done := false } else x) ∧
      Tbl.get t.flash.retiredIn 0 m =
        Tbl.get s.flash.retiredIn 0 m + (if (Tbl.get s.flash.blocks {} b).use = .retired then 0 else 1) ∧
      (s.flash.validUnits b = [] → (∀ c ∈ s.flash.copies, s.flash.blockOf c.dst ≠ b) →
        (Tbl.get t.flash.blocks {} b).use = .retired ∧ t.flash.map = s.flash.map)) ∧
  ((∀ (s : State) (b : Nat), s.up = true → s.flashOn = true →
    ((Tbl.get s.flash.blocks {} b).use = .erasing →
      (∃ t, exec (.eraseComplete b true) s = .next t ∧ (Tbl.get t.flash.blocks {} b).use = .free ∧
        (Tbl.get t.flash.blocks {} b).reads = 0 ∧
        (Tbl.get t.flash.blocks {} b).erases = (Tbl.get s.flash.blocks {} b).erases + 1 ∧
        t.flash.map = s.flash.map ∧ ∀ u ∈ t.flash.units, s.flash.blockOf u.1 ≠ b) ∧
      (∃ t, exec (.eraseComplete b false) s = .next t ∧
        Tbl.get t.flash.retiredIn 0 (s.flash.mpoolOf b) = Tbl.get s.flash.retiredIn 0 (s.flash.mpoolOf b) + 1 ∧
        t.stored oEraseFails = s.stored oEraseFails + 1 ∧
        (s.flash.validUnits b = [] → (∀ c ∈ s.flash.copies, s.flash.blockOf c.dst ≠ b) →
          (Tbl.get t.flash.blocks {} b).use = .retired ∧ t.flash.map = s.flash.map))) ∧
    ((Tbl.get s.flash.blocks {} b).use ≠ .erasing → s.flash.erasingFlush = true → s.flash.isBlock b = true → s.flash.isFlush b = true →
      b ∉ s.flash.flushErased →
      ∃ t, exec (.eraseComplete b true) s = .next t ∧ t.flash.flushErased = s.flash.flushErased ++ [b] ∧
        t.flash.erasingFlush = decide (s.flash.flushErased.length + 1 < s.flash.flushBlocks) ∧ t.flash.map = s.flash.map ∧
        (Tbl.get t.flash.blocks {} b).erases = (Tbl.get s.flash.blocks {} b).erases + 1)) ∧
  (∀ (s : State) (pun step : Nat) (u : NandUnit), s.up = true → s.flashOn = true → Tbl.find s.flash.units pun = some u →
    let b := s.flash.blockOf pun
    let target := ∃ c ∈ s.flash.copies, c.dst = pun ∧ c.programmed = true
    let source := ∃ c ∈ s.flash.copies, c.src = pun
    ∃ t, exec (.nandReadComplete pun step) s = .next t ∧
      t.stored oCorHard = s.stored oCorHard + (if step = 0 then 1 else 0) ∧
      t.stored oCorRetry = s.stored oCorRetry + (if 1 ≤ step ∧ step ≤ 16 then 1 else 0) ∧
      t.stored oCorSoft = s.stored oCorSoft + (if step = 17 then 1 else 0) ∧
      t.stored oUncorrectable = s.stored oUncorrectable + (if 17 < step then 1 else 0) ∧
      (s.flash.isBlock b = true → s.flash.isReserved b = true → t = (s.countDecode step).countRead b step) ∧
      (s.flash.isReserved b = false →
        (¬ target → ¬ source → t = ((s.countDecode step).countRead b step).markUnit pun (decide (17 < step))) ∧
        (target → step = 0 → (∀ c ∈ t.flash.copies, c.dst = pun → c.verified = true) ∧ t.flash.map = s.flash.map) ∧
        (target → step ≠ 0 → (Tbl.get s.flash.blocks {} b).use ≠ .retired →
          t.stored oRetiredBlocks = s.stored oRetiredBlocks + 1) ∧
        (¬ target → source → step ≤ 17 → (∀ c ∈ t.flash.copies, c.src = pun → c.read = true) ∧ t.flash.map = s.flash.map) ∧
        (¬ target → source → 17 < step → (∀ c ∈ t.flash.copies, c.src ≠ pun) ∧
          (s.flash.valid pun = true → Tbl.get t.flash.map lpnUnmapped u.lpn = lpnLost)))) ∧
  ∀ (s : State) (src : Nat), s.up = true → s.flashOn = true →
    ((∀ c ∈ s.flash.copies, c.src = src → c.verified = false) → exec (.unitCopyCommit src) s = .next s) ∧
    ∀ c, s.flash.copies.find? (fun x => x.src == src && x.verified) = some c →
      ∃ t, exec (.unitCopyCommit src) s = .next t ∧ (∀ x ∈ t.flash.copies, x.src ≠ src) ∧
        (Tbl.get s.flash.map lpnUnmapped c.lpn = src → Tbl.get t.flash.map lpnUnmapped c.lpn = c.dst ∧
          t.flash.records = s.flash.records ++ [{ lpn := c.lpn, value := c.dst, type := 1, group := 3 }] ∧
          ∀ l, l ≠ c.lpn → Tbl.get t.flash.map lpnUnmapped l = Tbl.get s.flash.map lpnUnmapped l) ∧
        (Tbl.get s.flash.map lpnUnmapped c.lpn ≠ src → t.flash.map = s.flash.map ∧ t.flash.journal = s.flash.journal))

/-! ## The NVMe controller (R308, R310, R334 to R348, R460) -/

/-- R310, R311, R335, R518: a doorbell moves a tail or a head, and one beyond its queue, or of no queue, changes nothing; a
command takes the entry at the head of its queue and its completion names its queue, identifier and status. Setting CC.EN
makes the admin queues, and clearing it drops every queue. I/O queues are created and deleted, with the status of each
refusal; an Abort of a command that runs, or of an empty queue, aborts nothing, and another answers whether it has found the
command. R308, R334 to R336, R348: Identify answers the controller's MDTS, NN and VWC and an attached namespace's size,
capacity and LBA format; Get Log Page returns the part of a supported page that it names, and clears the Changed Namespace
List unless the event is retained; Set Features keeps the value that Get Features then answers, and Number of Queues allots
every pair; an Asynchronous Event Request is kept until an event answers it, and the oldest event that waits answers it at
once when its completion has room. -/
def Obligations.NvmeQueuesAndAdmin : Prop :=
  ((∀ (s : State) (sq cid sct sc dw0 : Nat) (dnr : Bool) (data : Bytes) (q : SQueue), s.sys.pwrFail = false →
    s.sys.flush = none → Tbl.find s.host.sqs sq = some q →
    ∃ l, (s.complete sq cid sct sc dnr dw0 data).out = s.out ++ .cqe q.cq sq cid sct sc dnr dw0 data :: l) ∧
  (∀ (s : State) (c : NvmeCmd), (Tbl.get (s.nvmeTake c).host.sqs {} c.sq).head =
    (if (Tbl.get s.host.sqs {} c.sq).head + 1 = (Tbl.get s.host.sqs {} c.sq).size then 0
     else (Tbl.get s.host.sqs {} c.sq).head + 1)) ∧
  (∀ (s : State) (k v : Nat), s.up = true →
    (Tbl.find s.host.sqs k = none → exec (.nvmeSqDoorbell k v) s = .next s) ∧
    (∀ q, Tbl.find s.host.sqs k = some q → q.size ≤ v → exec (.nvmeSqDoorbell k v) s = .next s) ∧
    (Tbl.find s.host.cqs k = none → exec (.nvmeCqDoorbell k v) s = .next s) ∧
    (∀ q, Tbl.find s.host.cqs k = some q → q.size ≤ v → exec (.nvmeCqDoorbell k v) s = .next s) ∧
    (∀ q, Tbl.find s.host.sqs k = some q → v < q.size →
      exec (.nvmeSqDoorbell k v) s = .next { s with host := { s.host with sqs := Tbl.set s.host.sqs k { q with tail := v } } }) ∧
    ∀ q, Tbl.find s.host.cqs k = some q → v < q.size → s.host.events = [] →
      exec (.nvmeCqDoorbell k v) s = .next { s with host := { s.host with cqs := Tbl.set s.host.cqs k { q with head := v } } }) ∧
  (∀ s : State, s.up = true → s.host.perst = false → exec (.controllerEnable s.host.enabled) s = .next s ∧
    (s.host.enabled = false → exec (.controllerEnable true) s =
      .next { s with host := { s.host.withAdmin with enabled := true, ready := s.sys.step == 0 || 8 ≤ s.sys.step } }) ∧
    (s.host.enabled = true → ∃ t, exec (.controllerEnable false) s = .next t ∧ t.host.enabled = false ∧
      t.host.ready = false ∧ t.host.sqs = [] ∧ t.host.cqs = [] ∧ t.flash = s.flash)) ∧
  ∀ (s : State) (c : NvmeCmd),
    let t := s.nvmeTake c
    let q := bits c.cdw10 15 0
    let n := bits c.cdw10 31 16
    s.TakesCommand true c →
    (1 ≤ q → q ≤ 1024 → 1 ≤ n → n < 4096 →
      (Tbl.find t.host.sqs q = none → bits c.cdw11 31 16 ≠ 0 → (Tbl.find t.host.cqs (bits c.cdw11 31 16)).isSome = true →
        ∃ u : State, exec (.nvmeCreateIoSq c) s = .next (u.nvmeOk c 0 []) ∧
          Tbl.find u.host.sqs q = some { size := n + 1, cq := bits c.cdw11 31 16, base := c.prp }) ∧
      (Tbl.find t.host.cqs q = none → bits c.cdw11 31 16 < 1984 →
        ∃ u : State, exec (.nvmeCreateIoCq c) s = .next (u.nvmeOk c 0 []) ∧ Tbl.find u.host.cqs q =
          some { size := n + 1, vector := bits c.cdw11 31 16, base := c.prp, ien := bit c.cdw11 1 }) ∧
      (Tbl.find t.host.cqs q = none → 1984 ≤ bits c.cdw11 31 16 → exec (.nvmeCreateIoCq c) s = .next (t.nvmeErr c 1 8))) ∧
    (q = 0 ∨ 1024 < q ∨ (Tbl.find t.host.sqs q).isSome = true → exec (.nvmeCreateIoSq c) s = .next (t.nvmeErr c 1 1)) ∧
    (q = 0 ∨ 1024 < q ∨ (Tbl.find t.host.cqs q).isSome = true → exec (.nvmeCreateIoCq c) s = .next (t.nvmeErr c 1 1)) ∧
    (q = 0 ∨ Tbl.find t.host.sqs q = none → exec (.nvmeDeleteIoSq c) s = .next (t.nvmeErr c 1 1)) ∧
    (q = 0 ∨ Tbl.find t.host.cqs q = none → exec (.nvmeDeleteIoCq c) s = .next (t.nvmeErr c 1 1)) ∧
    (q ≠ 0 → (Tbl.find t.host.sqs q).isSome = true →
      ∃ u : State, exec (.nvmeDeleteIoSq c) s = .next (u.nvmeOk c 0 []) ∧ Tbl.find u.host.sqs q = none) ∧
    (q ≠ 0 → (Tbl.find t.host.cqs q).isSome = true → (∀ x ∈ t.host.sqs, x.2.cq ≠ q) →
      ∃ u : State, exec (.nvmeDeleteIoCq c) s = .next (u.nvmeOk c 0 []) ∧ Tbl.find u.host.cqs q = none) ∧
    (q ≠ 0 → (Tbl.find t.host.cqs q).isSome = true → (∃ x ∈ t.host.sqs, x.2.cq = q) →
      exec (.nvmeDeleteIoCq c) s = .next (t.nvmeErr c 1 0x0C)) ∧
    (n ∈ (Tbl.get t.host.sqs {} q).busy ∨ (Tbl.get t.host.sqs {} q).tail = (Tbl.get t.host.sqs {} q).head →
      exec (.nvmeAbort c) s = .next (t.nvmeOk c 1 [])) ∧
    ∃ (u : State) (k : Nat), exec (.nvmeAbort c) s = .next (u.nvmeOk c k []) ∧ (k = 0 ∨ k = 1) ∧
      (k = 0 → ∃ a, u.host.aborts = t.host.aborts ++ [(q, n, a)]) ∧ (k = 1 → u.host = t.host)) ∧
  (∀ (s : State) (c : NvmeCmd),
  let t := s.nvmeTake c
  let f := bits c.cdw10 7 0
  s.TakesCommand true c →
  (f = 1 → ∃ b, exec (.nvmeIdentify c) s = .next (t.nvmeOk c 0 b) ∧ b.length = 4096 ∧ fieldAt b 77 1 = 6 ∧
    fieldAt b 516 4 = 256 ∧ fieldAt b 525 1 = 0) ∧
  (∀ x, f = 0 → t.ns c.nsid = some x → c.nsid ∈ t.host.attached → 1 ≤ c.nsid → c.nsid ≤ 256 → x.extents.length < 2 ^ 46 →
    ∃ b, exec (.nvmeIdentify c) s = .next (t.nvmeOk c 0 b) ∧ b.length = 4096 ∧
      fieldAt b 0 8 = x.extents.length * 262144 ∧ fieldAt b 8 8 = x.extents.length * 262144 ∧ fieldAt b 130 1 = 12) ∧
  (2 ≤ f → f ≠ 3 → f ≠ 0x10 → f ≠ 0x11 → f ≠ 0x12 → f ≠ 0x13 → f ≠ 2 → exec (.nvmeIdentify c) s = .next (t.nvmeErr c 0 2)) ∧
  (∀ b, t.logPage f = some b →
    (b.length < c.cdw12 + 2 ^ 32 * c.cdw13 → exec (.nvmeGetLogPage c) s = .next (t.nvmeErr c 0 2)) ∧
    (c.cdw12 + 2 ^ 32 * c.cdw13 ≤ b.length → ∃ u : State,
      exec (.nvmeGetLogPage c) s = .next (u.nvmeOk c 0 ((b.drop (c.cdw12 + 2 ^ 32 * c.cdw13)).take
        (4 * (bits c.cdw10 31 16 + 65536 * bits c.cdw11 15 0 + 1)))) ∧
      (f ≠ 4 ∨ bit c.cdw10 15 = true → u = t) ∧ (f = 4 → bit c.cdw10 15 = false → u.host.changed = []))) ∧
  (t.logPage f = none → exec (.nvmeGetLogPage c) s = .next (t.nvmeErr c 1 9)) ∧
  (isFeature f = true → f ≠ 7 →
    (exec (.nvmeSetFeatures c) s =
      .next (State.nvmeOk { t with host := { t.host with features := Tbl.set t.host.features f c.cdw11 } } c 0 [])) ∧
    ∀ v, Tbl.find t.host.features f = some v → bits c.cdw10 10 8 = 0 →
      exec (.nvmeGetFeatures c) s = .next (t.nvmeOk c v [])) ∧
  (f = 7 → exec (.nvmeSetFeatures c) s = .next (t.nvmeOk c (1023 + 65536 * 1023) []) ∧
    (bits c.cdw10 10 8 ≠ 3 → exec (.nvmeGetFeatures c) s = .next (t.nvmeOk c (1023 + 65536 * 1023) []))) ∧
  (isFeature f = true → ∃ v, exec (.nvmeGetFeatures c) s = .next (t.nvmeOk c v [])) ∧
  (isFeature f = false → exec (.nvmeGetFeatures c) s = .next (t.nvmeErr c 0 2) ∧
    exec (.nvmeSetFeatures c) s = .next (t.nvmeErr c 0 2)) ∧
  (t.host.events = [] → exec (.asynchronousEventRequest c) s =
    .next { t with host := { t.host with aers := t.host.aers ++ [c.cid] } }) ∧
  ∀ e r, t.host.events = e :: r → t.host.aers = [] → 0 < t.cqFree 0 → exec (.asynchronousEventRequest c) s =
    .next (State.complete { t with host := { t.host with events := r, aers := [] } } 0 c.cid 0 0 false
      (e.1 + 256 * e.2.1 + 65536 * e.2.2) []))

/-- R280, R335 to R337, R449, R454, R460: a NORMAL or JOURNAL namespace that may be created gets extents that no namespace
holds and a media key of its own, and is attached; a namespace that is deleted goes, and one is attached or detached; a
namespace that is formatted reads as zeros, and has a new media key after SES 2; each refusal has its status. Firmware is
downloaded, and a commit keeps an image that the enclave accepts, and makes its slot the one of the next reset unless its
action is 0; with action 3, outside a scrub, that reset begins at once. -/
def Obligations.NamespacesAndFirmware : Prop :=
  ∀ (s : State) (c : NvmeCmd),
  let t := s.nvmeTake c
  let sel := bits c.cdw10 3 0
  s.TakesCommand true c →
  (sel = 0 → fieldAt c.data 0 8 ≠ fieldAt c.data 8 8 ∨ 2 ≤ fieldAt c.data 3072 1 ∨
      (fieldAt c.data 3072 1 = 1 ∧ t.stored oJournalGrant ≤ t.journals) →
    exec (.namespaceManagement c) s = .next (t.nvmeErr c 0 2)) ∧
  (∀ k, sel = 0 → fieldAt c.data 0 8 = fieldAt c.data 8 8 →
    fieldAt c.data 3072 1 = 0 ∨ (fieldAt c.data 3072 1 = 1 ∧ t.journals < t.stored oJournalGrant) →
    t.createCheck (ceilDiv (fieldAt c.data 0 8) 262144) = .ok k →
    ∃ (u : State) (x : Namespace), exec (.namespaceManagement c) s = .next (u.nvmeOk c k []) ∧ u.ns k = some x ∧
      x.extents.length = ceilDiv (fieldAt c.data 0 8) 262144 ∧ (∀ e ∈ x.extents, e ∉ t.host.extents) ∧
      x.cls = fieldAt c.data 3072 1 ∧ x.key = t.host.keyGen ∧ x.tenant = fieldAt c.data 3076 4 ∧ k ∈ u.host.attached) ∧
  (∀ x, sel = 1 → c.nsid ≠ 0xFFFFFFFF → t.ns c.nsid = some x →
    ∃ u : State, exec (.namespaceManagement c) s = .next (u.nvmeOk c 0 []) ∧ u.ns c.nsid = none ∧
      (∀ k, k ≠ c.nsid → u.ns k = t.ns k) ∧ c.nsid ∉ u.host.attached) ∧
  (t.named c.nsid = [] → c.nsid ≠ 0xFFFFFFFF → (sel = 1 → exec (.namespaceManagement c) s = .next (t.nvmeErr c 0 0x0B)) ∧
    exec (.formatNvm c) s = .next (t.nvmeErr c 0 0x0B)) ∧
  (t.ns c.nsid = none → exec (.namespaceAttachment c) s = .next (t.nvmeErr c 0 0x0B)) ∧
  ((t.ns c.nsid).isSome = true →
    (sel = 0 → c.nsid ∈ t.host.attached → exec (.namespaceAttachment c) s = .next (t.nvmeErr c 1 0x18)) ∧
    (sel = 1 → c.nsid ∉ t.host.attached → exec (.namespaceAttachment c) s = .next (t.nvmeErr c 1 0x1A)) ∧
    (sel = 0 → c.nsid ∉ t.host.attached → exec (.namespaceAttachment c) s =
      .next (State.nvmeOk { t with host := { t.host with attached := t.host.attached ++ [c.nsid] } } c 0 [])) ∧
    (sel = 1 → c.nsid ∈ t.host.attached → ∃ u : State, exec (.namespaceAttachment c) s = .next (u.nvmeOk c 0 []) ∧
      c.nsid ∉ u.host.attached)) ∧
  (∀ x, t.named c.nsid = [(c.nsid, x)] → x.cls ≠ 2 → sel = 0 → bits c.cdw10 11 9 = 0 ∨ bits c.cdw10 11 9 = 2 →
    t.domOff 2 = false → t.scrubs x.tenant = false → t.flash.readOnly = false →
    ∃ u : State, exec (.formatNvm c) s = .next (u.nvmeOk c 0 []) ∧
      (∀ i l, x.lpn i = some l → u.flash.page l = some (zeros 4096)) ∧
      (bits c.cdw10 11 9 = 2 → (u.ns c.nsid).map Namespace.key = some t.host.keyGen)) ∧
  (∀ x, t.named c.nsid = [(c.nsid, x)] → x.cls = 2 → exec (.formatNvm c) s = .next (t.nvmeErr c 0 2)) ∧
  (262144 < 4 * (c.cdw10 + 1) → exec (.firmwareImageDownload c) s = .next (t.nvmeErr c 0 2)) ∧
  (4 * (c.cdw10 + 1) ≤ 262144 → ∃ u : State, exec (.firmwareImageDownload c) s = .next (u.nvmeOk c 0 []) ∧
    ∀ i, i < 4 * (c.cdw10 + 1) → u.host.fwBuf.read (4 * c.cdw11 + i) = (sliceZ c.data 0 (4 * (c.cdw10 + 1))).getD i 0) ∧
  (s.rmRuns 2 = true → s.sys.step = 0 → bits c.cdw10 5 3 ≤ 3 → ∀ k, t.commitSlot (bits c.cdw10 2 0) = some k →
    let b := if bits c.cdw10 5 3 = 2 ∨ (bits c.cdw10 5 3 = 3 ∧ t.host.fwLen = 0) then (Tbl.get t.sec.fw {} k).image
      else Memory.readN t.host.fwBuf 0 t.host.fwLen
    (t.acceptFirmware b = none → exec (.firmwareCommit c) s = .next (t.nvmeErr c 1 7)) ∧
    ∀ v, t.acceptFirmware b = some v → ∃ u : State,
      exec (.firmwareCommit c) s = (if bits c.cdw10 5 3 = 3 ∧ t.sec.scrub = none then .next ((u.nvmeOk c 0 []).beginWarm 4)
        else .next (u.nvmeOk c 0 [])) ∧
      (Tbl.get u.sec.fw {} k).image = b ∧ (Tbl.get u.sec.fw {} k).svn = v ∧
      u.sec.commit = (if bits c.cdw10 5 3 = 0 then t.sec.commit else some k))

/-- R280, R301, R335, R342 to R346: pages that a write admits are the newest of theirs and change no other page, while no
write is partly programmed; deallocated pages read as zeros. A read returns the pages of its blocks; a write waits, is
admitted and completes, or goes through and completes when its pages are mapped in flash, or when the media has become
READ_ONLY with no slot for them; Flush completes at once; deallocated and zeroed blocks are deallocated; each refusal has its
status. -/
def Obligations.NvmeReadsAndWrites : Prop :=
  (∀ (f : FlashSt) (ps qs : List (Nat × Bytes)) (p : Nat × Bytes) (j : Bool) (key : Nat), (∀ e ∈ f.wbuf, e.done = false) →
    (∀ q ∈ qs, q.1 ≠ p.1) →
    (f.admitPages (ps ++ p :: qs) j key).page p.1 = some (sliceZ p.2 0 4096)) ∧
  (∀ (f : FlashSt) (ps : List (Nat × Bytes)) (j : Bool) (key l : Nat), (∀ e ∈ f.wbuf, e.done = false) → (∀ q ∈ ps, q.1 ≠ l) →
    (f.admitPages ps j key).page l = f.page l) ∧
  (∀ (f : FlashSt) (ls : List Nat) (l : Nat), (l ∈ ls → (f.dealloc ls).page l = some (zeros 4096)) ∧
    (l ∉ ls → (∀ e ∈ f.wbuf, e.done = false) → (f.dealloc ls).page l = f.page l)) ∧
  (∀ (s : State) (c : NvmeCmd), s.TakesCommand false c → s.attachedNs c.nsid = none → ∀ i,
    i = .nvmeRead c ∨ i = .nvmeWrite c ∨ i = .writeZeroes c ∨ i = .datasetManagement c ∨ i = .ingest c →
    exec i s = .next ((s.nvmeTake c).nvmeErr c 0 0x0B)) ∧
  (∀ (s : State) (c : NvmeCmd) (x : Namespace), s.TakesCommand false c → s.attachedNs c.nsid = some x →
    s.scrubs x.tenant = true ∨ s.domOff 2 = true → ∀ i,
    i = .nvmeRead c ∨ i = .nvmeWrite c ∨ i = .writeZeroes c ∨ i = .datasetManagement c ∨ i = .ingest c →
    exec i s = .next ((s.nvmeTake c).nvmeErr c 0 0x82 false)) ∧
  (∀ (s : State) (c : NvmeCmd) (x : Namespace),
    let t := s.nvmeTake c
    s.TakesCommand false c → s.attachedNs c.nsid = some x → s.scrubs x.tenant = false → s.domOff 2 = false → s.flashOn = true →
    (64 < c.blocks → exec (.nvmeRead c) s = .next (t.nvmeErr c 0 2)) ∧
    (s.writeWaits c x = true → exec (.nvmeWrite c) s = .next s) ∧
    (x.cls = 2 → exec (.nvmeWrite c) s = .next (t.nvmeErr c 0 2) ∧ exec (.writeZeroes c) s = .next (t.nvmeErr c 0 2)) ∧
    (bit c.cdw11 2 = false → exec (.datasetManagement c) s = .next (t.nvmeOk c 0 [])) ∧
    (c.blocks ≤ 64 → x.holds c.slba c.blocks = true →
      (∀ d, t.readPages x c.slba c.blocks = some d →
        exec (.nvmeRead c) s = .next ((t.count oFlashReadBytes d.length).nvmeOk c 0 d)) ∧
      (t.readPages x c.slba c.blocks = none → exec (.nvmeRead c) s = .next (t.nvmeErr c 2 0x81)) ∧
      (x.cls ≠ 2 → s.flash.readOnly = false → s.writeWaits c x = false →
        let ps := (x.lpns c.slba c.blocks).zipIdx.map fun p => (p.1, sliceZ c.data (4096 * p.2) 4096)
        (s.goesThrough c = false → ∃ u : State, exec (.nvmeWrite c) s = .next (u.nvmeOk c 0 []) ∧
          u.flash = t.flash.admitPages ps (x.cls == 1) x.key ∧
          u.stored oNvmeWriteBytes = s.stored oNvmeWriteBytes + 4096 * c.blocks) ∧
        (s.goesThrough c = true → ∃ u : State, exec (.nvmeWrite c) s = .next u ∧ u.flash = t.flash ∧ u.out = t.out ∧
          u.host.throughs = t.host.throughs ++ [{ sq := c.sq, cid := c.cid, pages := ps, key := x.key, journal := x.cls == 1 }] ∧
          u.stored oWriteThrough = s.stored oWriteThrough + 1)) ∧
      (x.cls ≠ 2 → s.flash.readOnly = true → exec (.nvmeWrite c) s = .next (t.nvmeErr c 0 0x20) ∧
        exec (.writeZeroes c) s = .next (t.nvmeErr c 0 0x20)) ∧
      (x.cls ≠ 2 → s.flash.readOnly = false →
        exec (.writeZeroes c) s = .next ((t.deallocate (x.lpns c.slba c.blocks)).nvmeOk c 0 []))) ∧
    (x.holds c.slba c.blocks = false → c.blocks ≤ 64 → exec (.nvmeRead c) s = .next (t.nvmeErr c 0 0x80) ∧
      (x.cls ≠ 2 → exec (.nvmeWrite c) s = .next (t.nvmeErr c 0 0x80) ∧ exec (.writeZeroes c) s = .next (t.nvmeErr c 0 0x80))) ∧
    (bit c.cdw11 2 = true → x.cls = 2 → exec (.datasetManagement c) s = .next (t.nvmeErr c 0 2)) ∧
    (bit c.cdw11 2 = true → x.cls ≠ 2 → (∃ r ∈ c.ranges, x.holds r.1 r.2 = false) →
      exec (.datasetManagement c) s = .next (t.nvmeErr c 0 0x80)) ∧
    (bit c.cdw11 2 = true → x.cls ≠ 2 → (∀ r ∈ c.ranges, x.holds r.1 r.2 = true) →
      exec (.datasetManagement c) s =
        .next ((t.deallocate (c.ranges.flatMap fun r => x.lpns r.1 r.2)).nvmeOk c 0 []))) ∧
  (∀ (s : State) (c : NvmeCmd), s.TakesCommand false c → exec (.nvmeFlush c) s = .next ((s.nvmeTake c).nvmeOk c 0 [])) ∧
  ∀ (s : State) (w : WriteThrough), s.up = true → s.flashOn = true →
    s.host.throughs.find? (fun v => v.sq == w.sq && v.cid == w.cid) = some w →
    let gone := fun (v : State) => ∀ y ∈ v.host.throughs, y.sq ≠ w.sq ∨ y.cid ≠ w.cid
    (∀ u, s.programPages w.journal w.key w.pages = some u →
      ∃ v : State, exec (.writeThroughDone w.sq w.cid) s = .next (v.complete w.sq w.cid 0 0 false 0 []) ∧ v.flash = u.flash ∧ gone v) ∧
    (s.programPages w.journal w.key w.pages = none →
      (s.flash.readOnly = false → exec (.writeThroughDone w.sq w.cid) s = .next s) ∧
      (s.flash.readOnly = true → ∃ v : State,
        exec (.writeThroughDone w.sq w.cid) s = .next (v.complete w.sq w.cid 0 0x20 true 0 []) ∧ v.flash = s.flash ∧ gone v))

/-- R178, R181, R182, R195, R232, R235, R338: CORPUS_CREATE of a corpus that this device does not hold makes a CORPUS
namespace with its parameters and the geometry in force; CORPUS_SEAL of an unsealed corpus marks its DUPLICATE samples and
clears no such mark; SNAPSHOT_READ returns the newest snapshot from an offset, or STATE without one; SNAPSHOT_RESTORE
assembles a snapshot in sequence, and its last piece takes a LOADED stream to the snapshot's cursor, and is refused in
another state or when the snapshot fails a check. R340, R341: an INGEST piece that a check refuses answers its status; one
that no check refuses is kept; the LAST piece of a sample stored directly at its home, with room for it, stores the sample,
and that of one through a stream makes it the stream's next job; an open sample that waits 60 s for its next piece is
discarded, and before that nothing changes. -/
def Obligations.CorporaSnapshotsAndIngest : Prop :=
  (∀ (s : State) (c : NvmeCmd),
  let t := s.nvmeTake c
  s.TakesCommand true c → s.rmRuns 0 = true → s.sys.step = 0 →
  (t.scrubs c.cdw15 = false → driftOk (bits c.cdw13 7 0) = true → t.corpusOf c.cdw10 = none →
    ∀ k, t.createCheck c.cdw14 = .ok k → ∃ u : State, exec (.corpusCreate c) s = .next (u.vendorDone c stSuccess (some k) []) ∧
      (u.ns k).bind Namespace.corpus = some { id := c.cdw10, seed := c.cdw11 + 2 ^ 32 * c.cdw12, drift := bits c.cdw13 7 0,
                                              geometry := t.place }) ∧
  (∀ x p, t.ns c.nsid = some x → x.corpus = some p → p.sealed = false → t.scrubs x.tenant = false →
    ∃ (u : State) (q : Corpus), exec (.corpusSeal c) s = .next (u.vendorDone c stSuccess none ((sealReport q).take c.cdw10)) ∧
      (u.ns c.nsid).bind Namespace.corpus = some q ∧ q.sealed = true ∧ q.records.map Prod.fst = p.records.map Prod.fst ∧
      ∀ i r, (i, r) ∈ p.records → ∃ r', (i, r') ∈ q.records ∧ bit r'.flags 2 = (t.duplicate p i || bit r.flags 2)) ∧
  (c.cdw10 < 64 → t.scrubbed c.cdw10 = false →
    (∀ b, (t.stream c.cdw10).snapshot = some b → exec (.snapshotRead c) s =
      .next (t.complete c.sq c.cid 0 0 false (snapDwords (fieldAt b 0x10 8)) ((b.drop c.cdw11).take 262144))) ∧
    ((t.stream c.cdw10).snapshot = none → exec (.snapshotRead c) s = .next (t.vendorDone c stState none [])) ∧
    (c.data.length ≤ 262144 →
      (∀ a, Assembly.take (Tbl.find t.host.restores c.cdw10) c.cdw11 c.cdw12 t.gtc c.data = some a →
        (bit c.cdw13 0 = false →
          exec (.snapshotRestore c) s = .next ((t.setRestore c.cdw10 (some a)).vendorDone c stSuccess none [])) ∧
        (bit c.cdw13 0 = true → (t.stream c.cdw10).state = .loaded → t.restoreStatus c.cdw10 a.data true = stSuccess →
          ∃ u : State, exec (.snapshotRestore c) s = .next (u.vendorDone c stSuccess none []) ∧
            (u.run c.cdw10).hasCursor = true ∧ (u.run c.cdw10).nextBatch = fieldAt a.data 0xB0 8 ∧
            (u.run c.cdw10).epoch = fieldAt a.data 0xA0 4 ∧ (u.stream c.cdw10).state = .loaded ∧
            (u.stream c.cdw10).dlv.dlvSeq = fieldAt a.data 0x160 8) ∧
        (bit c.cdw13 0 = true → (t.stream c.cdw10).state = .loaded → t.restoreStatus c.cdw10 a.data true ≠ stSuccess →
          exec (.snapshotRestore c) s =
            .next ((t.setRestore c.cdw10 none).vendorDone c (t.restoreStatus c.cdw10 a.data true) none [])) ∧
        (bit c.cdw13 0 = true → (t.stream c.cdw10).state = .moved →
          exec (.snapshotRestore c) s = .next ((t.setRestore c.cdw10 none).vendorDone c stMoved none [])) ∧
        (bit c.cdw13 0 = true → (t.stream c.cdw10).state ≠ .loaded → (t.stream c.cdw10).state ≠ .moved →
          exec (.snapshotRestore c) s = .next ((t.setRestore c.cdw10 none).vendorDone c stState none []))) ∧
      (Assembly.take (Tbl.find t.host.restores c.cdw10) c.cdw11 c.cdw12 t.gtc c.data = none →
        exec (.snapshotRestore c) s = .next ((t.setRestore c.cdw10 none).vendorDone c stImageMalformed none []))))) ∧
  ((∀ (s : State) (c : NvmeCmd) (x : Namespace) (p : Corpus),
    let t := s.nvmeTake c
    let o := c.extend (Tbl.find p.open_ c.index) t.gtc
    s.TakesCommand false c → s.attachedNs c.nsid = some x → s.scrubs x.tenant = false → s.domOff 2 = false → s.flashOn = true →
    s.ingestWaits c x = false → x.corpus = some p → c.data.length ≤ 262144 → c.data.length = c.cdw12 →
    (t.ingestRefused c p ≠ stSuccess → exec (.ingest c) s = .next (t.vendorDone c (t.ingestRefused c p) none [])) ∧
    (t.ingestRefused c p = stSuccess →
      (c.last = false → ∃ (u : State) (q : Corpus), exec (.ingest c) s = .next (u.vendorDone c stSuccess none []) ∧
        (u.ns c.nsid).bind Namespace.corpus = some q ∧ Tbl.find q.open_ c.index = some o ∧ q.records = p.records) ∧
      (∀ n, c.last = true → o.stream = none → logicalLen o.data o.flags = .ok n → p.home c.index = p.own →
        x.fits p o.data.length = true →
        ∃ (u : State) (q : Corpus) (r : SampleRec), exec (.ingest c) s = .next (u.vendorDone c stSuccess none []) ∧
          (u.ns c.nsid).bind Namespace.corpus = some q ∧ Tbl.find q.open_ c.index = none ∧
          Tbl.find q.records c.index = some r ∧ r.offset = p.next ∧ r.len = o.data.length ∧ r.logical = n ∧
          r.digest = (sha3_512 o.data).take 24) ∧
      (∀ n, c.last = true → o.stream = some n →
        ∃ u : State, exec (.ingest c) s = .next u ∧ u.out = t.out ∧ (u.run n).ingested = (t.run n).ingested + 1 ∧
          (u.run n).toAdmit = (t.run n).toAdmit ++ [{ k := (t.run n).ingested, pos := (t.run n).ingested, sample := c.index, since := t.gtc }]))) ∧
  ∀ (s : State) (nsid idx : Nat) (x : Namespace) (p : Corpus) (o : OpenSample), s.up = true → s.ns nsid = some x →
    x.corpus = some p → Tbl.find p.open_ idx = some o →
    (o.cmd ≠ none ∨ s.gtc < o.at_ + 60 * Config.sec → exec (.ingestPieceTimeout nsid idx) s = .next s) ∧
    (o.cmd = none → o.at_ + 60 * Config.sec ≤ s.gtc →
      ∃ (t : State) (q : Corpus), exec (.ingestPieceTimeout nsid idx) s = .next t ∧
        (t.ns nsid).bind Namespace.corpus = some q ∧ Tbl.find q.open_ idx = none ∧ idx ∈ q.discarded ∧ q.records = p.records))

/-! ## CXL configuration and memory device commands (R309, R312, R453, R517) -/

/-- R309, R312, R328, R453, R517: a configuration request gets Retry Status until the space is loaded, and then a read
answers its dword and a write changes the bits that may be written; nothing is answered in reset. IDENTIFY and the partition
info show RESULT_DPA as volatile capacity and no other; health info, the supported logs and a log are answered; an event log
is returned with its new records, and its oldest records are cleared, unless the log does not exist or holds fewer; the
poison list names the withheld lines of the range; an SPDM request for evidence is answered with it in PROVISIONED and
DEPLOYED, is refused in another life-cycle state, and another payload changes nothing. -/
def Obligations.CxlDeviceCommands : Prop :=
  (∀ (s : State) (a : Nat) (w : Option Nat), s.sys.inReset = true ∨ s.host.perst = true → exec (.configRequest a w) s = .next s) ∧
  (∀ (s : State) (a : Nat) (w : Option Nat), s.sys.inReset = false → s.host.perst = false →
    (s.host.cfgLoaded = false → exec (.configRequest a w) s = .next (s.emit (.cfg true 0))) ∧
    (s.host.cfgLoaded = true →
      exec (.configRequest a none) s = .next (s.emit (.cfg false (s.cfgWord (a % 4096 / 4 * 4)))) ∧
      ∀ v, ∃ t, exec (.configRequest a (some v)) s = .next t ∧ t.out = s.out ++ [.cfg false 0] ∧
        (∀ b, b ≠ a % 4096 / 4 * 4 → t.cfgWord b = s.cfgWord b) ∧
        ∀ i, i < 32 → bit (t.cfgWord (a % 4096 / 4 * 4)) i =
          if bit (Config.configMask (a % 4096 / 4 * 4)).toNat i then bit v i else bit (s.cfgWord (a % 4096 / 4 * 4)) i)) ∧
  ∀ s : State, s.sys.inReset = false → s.host.perst = false → s.host.cfgLoaded = true →
    (∃ t b, exec .identifyMemoryDevice s = .next t ∧ t.out = s.out ++ [.cxlMailbox 0x4000 0 b] ∧ b.length = 69 ∧
      fieldAt b 32 8 = 0 ∧ (s.stored oResultDpa < 2 ^ 60 → fieldAt b 16 8 = 4 * s.stored oResultDpa ∧
        fieldAt b 24 8 = 4 * s.stored oResultDpa)) ∧
    exec .getPartitionInfo s = .next (s.emit (.cxlMailbox 0x4100 0 (leBytes 8 (4 * s.stored oResultDpa) ++ zeros 24))) ∧
    (∃ t b, exec .getHealthInfo s = .next t ∧ t.out = s.out ++ [.cxlMailbox 0x4200 0 b] ∧ b.length = 18) ∧
    (∀ log, log < 4 → ∃ t l, exec (.getEventRecords log) s = .next t ∧
      Tbl.get t.host.cxlEvents [] log = Tbl.get s.host.cxlEvents [] log ++ l ∧
      t.out = s.out ++ [.cxlMailbox 0x0100 0 (zeros 20 ++ leBytes 2 (Tbl.get t.host.cxlEvents [] log).length ++ zeros 10 ++
        (Tbl.get t.host.cxlEvents [] log).flatten)]) ∧
    (∀ log k, log < 4 → k ≤ (Tbl.get s.host.cxlEvents [] log).length → ∃ t, exec (.clearEventRecords log k) s = .next t ∧
      t.out = s.out ++ [.cxlMailbox 0x0101 0 []] ∧
      Tbl.get t.host.cxlEvents [] log = (Tbl.get s.host.cxlEvents [] log).drop k) ∧
    (∃ b, exec .getSupportedLogs s = .next (s.emit (.cxlMailbox 0x0400 0 b))) ∧
    (∀ data, ∃ b, exec (.getLog data) s = .next (s.emit (.cxlMailbox 0x0401 0 b))) ∧
    (∀ log k, 4 ≤ log ∨ (Tbl.get s.host.cxlEvents [] log).length < k →
      exec (.clearEventRecords log k) s = .next (s.emit (.cxlMailbox 0x0101 2 []))) ∧
    (∀ log, 4 ≤ log → exec (.getEventRecords log) s = .next (s.emit (.cxlMailbox 0x0100 2 []))) ∧
    (∀ dpa len, ∃ b, exec (.getPoisonList dpa len) s = .next (s.emit (.cxlMailbox 0x4300 0 b)) ∧
      let l := s.poisonList.filter fun a => decide (dpa ≤ a) && decide (a < dpa + 64 * len)
      fieldAt b 10 2 = l.length % 65536 ∧ b.drop 32 = l.flatMap fun a => leBytes 8 a ++ leBytes 4 1 ++ zeros 4) ∧
    (∀ data, data.length ≠ 45 ∨ fieldAt data 0 1 ≠ 1 → exec (.spdmVendorRequest data) s = .next s) ∧
    ∀ data, data.length = 45 → fieldAt data 0 1 = 1 →
      (s.sec.lc = 2 ∨ s.sec.lc = 3 → ∃ t, exec (.spdmVendorRequest data) s = .next t ∧
        t.out = s.out ++ [.spdm (s.evidenceBytes (sliceZ (data.drop 1) 0 32) (fieldAt (data.drop 1) 32 4)
          (fieldAt (data.drop 1) 36 8))] ∧ t.sec.evidence = s.sec.evidence) ∧
      (s.sec.lc ≠ 2 → s.sec.lc ≠ 3 →
        exec (.spdmVendorRequest data) s = .next (s.emit (.spdm (leBytes 2 stKeyRefused))))

/-! ## The Midway fabric and RoCEv2 ports (R351 to R380, R385 to R387) -/

/-- R353, R354, R361, R418: outside a scrub of DEVICE scope, a lock of the PCS of a link that is DOWN starts training, and of
one in RETRAIN keeps its state, and each sends a VERSION frame; the peer's VERSION frame takes the link UP under the common
version, to FENCED when the partitions differ, or DOWN with its cause; a lost lock and a retrain of 10 ms take it DOWN, and
an earlier retrain timeout changes nothing. A link that goes DOWN holds and queues no frame. -/
def Obligations.LinkBringUp : Prop :=
  ∀ (s : State) (k : Nat) (f : Frame),
  let p := s.port k
  let lo := max 1 (fieldAt f.payload 0 1)
  let hi := min (s.stored oMidwayVerMax) (fieldAt f.payload 1 1)
  let coord := packCoord (fieldAt f.payload 8 1) (fieldAt f.payload 9 1) (fieldAt f.payload 10 1)
  let part := fieldAt f.payload 4 4
  k < 8 → s.up = true → s.deviceScrub = false →
  (s.portOn k = true → p.link = .down → ∃ t, exec (.linkPcsLock k) s = .next t ∧ (t.port k).link = .training ∧
    (t.port k).pcs = true ∧ (t.port k).cause = 0 ∧
    t.out = s.out ++ [.frame k { ftype := 4, lack := p.rxSeq, payload := s.versionPayload k }]) ∧
  (s.portOn k = true → p.link = .retrain → ∃ t, exec (.linkPcsLock k) s = .next t ∧ (t.port k).link = .retrain ∧
    (t.port k).pcs = true ∧ t.out = s.out ++ [.frame k { ftype := 4, lack := p.rxSeq, payload := s.versionPayload k }]) ∧
  (s.portOn k = true → p.pcs = true → p.link ≠ .down → f.good = true → f.ftype = 4 →
    (hi < lo → exec (.versionFrameReceive k f) s = .next (s.linkDown k 1)) ∧
    (lo ≤ hi → coord ≠ s.neighbour (s.portDir k) ∨ fieldAt f.payload 11 1 ≠ s.portDir k ^^^ 1 →
      exec (.versionFrameReceive k f) s = .next (s.linkDown k 2)) ∧
    (lo ≤ hi → coord = s.neighbour (s.portDir k) → fieldAt f.payload 11 1 = s.portDir k ^^^ 1 →
      ∃ t, exec (.versionFrameReceive k f) s = .next t ∧ (t.port k).version = hi ∧ (t.port k).peerPartition = part ∧
        (t.port k).cause = 0 ∧ (t.port k).link = (if part = s.stored oPartitionId then .up else .fenced))) ∧
  (s.isMidway k = true → p.link ≠ .down → exec (.linkPcsLoss k) s = .next (s.linkDown k 4)) ∧
  (p.link ≠ .retrain ∨ s.gtc < p.retrainGtc + 10 * Config.ms → exec (.retrainTimeout k) s = .next s) ∧
  (p.link = .retrain → p.retrainGtc + 10 * Config.ms ≤ s.gtc → exec (.retrainTimeout k) s = .next (s.linkDown k 3)) ∧
  ∀ c, ((s.linkDown k c).port k).link = .down ∧ ((s.linkDown k c).port k).cause = c ∧
    ((s.linkDown k c).port k).held = [] ∧ ((s.linkDown k c).port k).queue = []

/-- R354 to R361, R385, R387: a frame is good when it decodes and its FCS is the CRC-32C of its header, padded payload and
digest. Outside a scrub of DEVICE scope, a DATA frame in sequence passes its number and goes to the policer of its port; a
damaged frame or a gap gives one NAK; a FENCED link drops and counts. LACK frees the frames before it, a NAK or 2 µs without
progress replays the rest, and the 17th replay without progress puts the link into RETRAIN. The credits of a CREDIT frame
replace those known, and a CREDIT frame is sent after a change and every 1 µs. A frame sent is held under its LSEQ. Held
frames that are still RED stay held, and a single one that is not is taken as YELLOW and accepted. -/
def Obligations.LinkSequenceCreditsAndRetry : Prop :=
  (∀ g : Frame, g.wire.length = g.bytes ∧ ∀ x, g.fcs = some x →
    (g.good = true ↔ g.decodes = true ∧ x = crc32c (g.wire.take (g.bytes - 8)))) ∧
  ∀ (s : State) (k : Nat) (f : Frame),
  let p := s.port k
  let before (q : Nat) : Prop := 1 ≤ (f.lack + 4096 - q) % 4096 ∧ (f.lack + 4096 - q) % 4096 ≤ 2048
  k < 8 → s.up = true → s.deviceScrub = false →
  (s.portOn k = true → f.ftype = 0 →
    (p.link = .fenced → exec (.dataFrameReceive k f) s = .next (s.count (oFencedDrops k) 1)) ∧
    (p.link = .up → f.good = false → ∃ t, exec (.dataFrameReceive k f) s = .next t ∧ (t.port k).nakSent = true ∧
      (t.port k).rxSeq = p.rxSeq ∧ t.stored (oFecUncorrected k) = s.stored (oFecUncorrected k) + 1 ∧
      t.out = s.out ++ (if p.nakSent then [] else [.frame k { ftype := 3, lack := p.rxSeq }])) ∧
    (p.link = .up → f.good = true → f.lseq ≠ p.rxSeq → ∃ t, exec (.dataFrameReceive k f) s = .next t ∧
      (t.port k).nakSent = true ∧ (t.port k).rxSeq = p.rxSeq ∧ t.fabric.reasm = s.fabric.reasm ∧
      t.out = s.out ++ (if p.nakSent then [] else [.frame k { ftype := 3, lack := p.rxSeq }])) ∧
    (p.link = .up → f.good = true → f.lseq = p.rxSeq → ∃ u : State,
      exec (.dataFrameReceive k f) s = .next (u.policeFrame k { f with fec := 0, fcs := none }) ∧ (u.port k).rxSeq = (p.rxSeq + 1) % 4096 ∧
        (u.port k).nakSent = false ∧ u.fabric.reasm = s.fabric.reasm ∧ u.out = s.out)) ∧
  (s.linked k = true → f.good = true →
    (f.ftype = 2 → ∃ t, exec (.creditFrameReceive k f) s = .next t ∧
      ∀ key, key < 24 → Tbl.get (t.port k).granted 0 key = fieldAt f.payload (4 * key) 4) ∧
    (f.ftype = 1 → exec (.idleFrameReceive k f) s = .next (s.acked k f.lack)) ∧
    (f.ftype = 3 → exec (.nakFrameReceive k f) s = .next ((s.acked k f.lack).replay k))) ∧
  (∀ a b, p.held = a ++ b → (∀ h ∈ a, before h.1) → (∀ h, b.head? = some h → ¬ before h.1) →
    ((s.acked k f.lack).port k).held = b) ∧
  (p.held ≠ [] →
    (p.replays < 16 → (s.replay k).out = s.out ++ p.held.map (fun h => Emit.frame k { h.2 with lack := p.rxSeq }) ∧
      ((s.replay k).port k).replays = p.replays + 1 ∧ (s.replay k).stored (oReplays k) = s.stored (oReplays k) + 1) ∧
    (16 ≤ p.replays → ((s.replay k).port k).link = .retrain ∧ ((s.replay k).port k).retrainGtc = s.gtc) ∧
    (p.link = .up → p.lackGtc + 2000 ≤ s.gtc → exec (.replayTimeout k) s = .next (s.replay k))) ∧
  (p.link ≠ .up ∨ p.held = [] ∨ s.gtc < p.lackGtc + 2000 → exec (.replayTimeout k) s = .next s) ∧
  (p.creditDue = false → s.gtc < p.creditGtc + 1000 → exec (.creditFrameTimer k) s = .next s) ∧
  (s.linked k = true → p.creditDue = true ∨ p.creditGtc + 1000 ≤ s.gtc → ∃ t, exec (.creditFrameTimer k) s = .next t ∧
    (t.port k).creditDue = false ∧ (t.port k).creditGtc = s.gtc ∧
    t.out = s.out ++ [.frame k { ftype := 2, lack := p.rxSeq, payload := p.creditPayload }]) ∧
  (s.portUp k = true → ∀ c n tint q,
    s.shaperPick k ((List.range 8).filterMap fun c => (s.portCand k c).map fun q => (c, q.frame.bytes)) = some (c, n, tint) →
    s.portCand k c = some q → ∃ t, exec (.frameTransmitDone k) s = .next t ∧
      t.out = s.out ++ [.frame k { q.frame with lseq := p.txSeq, lack := p.rxSeq }] ∧
      (t.port k).txSeq = (p.txSeq + 1) % 4096 ∧
      (t.port k).held = p.held ++ [(p.txSeq, { q.frame with lseq := p.txSeq, lack := p.rxSeq })] ∧
      (t.port k).queue = p.queue.erase q) ∧
  ((∀ g ∈ p.red, s.policeTint k g.frame.vl g.frame.bytes false = .red) →
    (∀ x ∈ p.redRoce, s.policeTint k x.cls x.bytes x.marked = .red) → ∃ t, exec (.policerHoldRecolour k) s = .next t ∧
      (t.port k).red = p.red ∧ (t.port k).redRoce = p.redRoce ∧ t.out = s.out ∧ t.fabric.reasm = s.fabric.reasm) ∧
  let e := s.updPort k fun p => { p with red := [], redRoce := [] }
  (∀ g, p.red = [g] → p.redRoce = [] →
    let f := g.frame
    let i := 8 * (8 + k) + f.vl
    e.policeTint k f.vl f.bytes false ≠ .red → exec (.policerHoldRecolour k) s =
      .next ((((e.takeTokens i f.bytes .yellow).countTint i f.bytes .yellow).leave i g.since).acceptFrame k f)) ∧
  ∀ x, p.red = [] → p.redRoce = [x] →
    let i := 8 * (8 + k) + x.cls
    e.policeTint k x.cls x.bytes x.marked ≠ .red → exec (.policerHoldRecolour k) s =
      .next ((((e.takeTokens i x.bytes .yellow).countTint i x.bytes .yellow).leave i x.since).roceAct x)

/-- R363 to R368, R374: the answer to a message makes its sender wait when it is BUSY, send it again at most three times when
it is transient, and otherwise passes its status up; a message that has waited is sent again under a new MSG_ID, or ends with
REMOTE_UNREACHABLE when its destination has left the torus. A one-packet SEND whose digest holds reaches its system queue
pair. A frame that no credits reach for 100 µs is dropped with REMOTE_UNREACHABLE, and a reassembly that stands still ends
with its status, neither before its time; the packets that wait for a context are processed when it is fetched, and those
that stalled are taken up. R370, R375 to R380, R463: a consumer's write of a legal grant, of at least 12 bytes and under a
fence epoch that the stream has reached, gives the stream its credits, and an illegal one is counted and changes none; an
access that its region does not allow is refused and counted; a read of an exposed window returns its bytes, or Remote
Operational Error; a packet of a context that cannot be fetched, and any of a queue pair that is being scrubbed, gets RNR
NAK; a SEND is refused. R386, R387: one that the policer of its port colours RED is held there with its mark and its arrival,
or dropped without a response. An acknowledgement that reaches the oldest batch retires it; a timeout sends it again up to 7
times and then holds the stream. A CNP halves the rate, down to 1 %, which comes back by 1/16 for each 50 µs. -/
def Obligations.MessagesAndRoce : Prop :=
  (∀ (s : State), s.up = true →
  (∀ f : Frame, f.good = true → f.op = opResp → f.dst = s.coord → exec (.respReceive f) s =
    .next (s.respond (fieldAt f.payload 0 4) (fieldAt f.payload 4 2) (fieldAt f.payload 6 2))) ∧
  (∀ f : Frame, f.good = false ∨ f.op ≠ opResp ∨ f.dst ≠ s.coord → exec (.respReceive f) s = .next s) ∧
  (∀ (id status flags : Nat) (m : OutMsg), s.message id = some m →
    (bit flags 0 = true → m.retryAt = none → ∃ x, (s.respond id status flags).message id = some x ∧ x.busy = m.busy + 1 ∧
      x.retryAt = some (s.gtc + min Config.ms (2000 * 2 ^ m.busy))) ∧
    (bit flags 0 = false → isTransient status = true → m.resends < 3 →
      s.respond id status flags = (s.dropMessage id).sendAs { m with resends := m.resends + 1 }) ∧
    (bit flags 0 = false → isTransient status = false ∨ 3 ≤ m.resends →
      s.respond id status flags = (s.dropMessage id).passUp m status) ∧
    (bit flags 0 = true → m.retryAt ≠ none → s.respond id status flags = s) ∧
    (m.retryAt = none → exec (.busyBackoffExpiry id) s = .next s) ∧
    (∀ g, m.retryAt = some g → s.gtc < g → exec (.busyBackoffExpiry id) s = .next s) ∧
    (∀ g, m.retryAt = some g → g ≤ s.gtc → s.inTorus m.head.dst = false →
      exec (.busyBackoffExpiry id) s = .next ((s.dropMessage id).passUp m stUnreachable)) ∧
    (∀ g, m.retryAt = some g → g ≤ s.gtc → s.inTorus m.head.dst = true → m.head.dst ≠ s.coord → s.message s.fabric.nextMsg = none →
      ∃ t x, exec (.busyBackoffExpiry id) s = .next t ∧ x ∈ t.fabric.msgs ∧
      x.msgId = s.fabric.nextMsg ∧ x.data = m.data ∧ x.retryAt = none ∧ x.busy = m.busy ∧
      t.fabric.nextMsg = (s.fabric.nextMsg + 1) % 2 ^ 32)) ∧
  (∀ f : Frame, f.op = opSend → f.dqp < 16 → f.dqp ≠ qpStore → f.tenant = 0 → f.src ≠ s.coord → f.offset = 0 → f.total = f.payload.length →
    0 < f.total → f.total ≤ 4096 → s.fabric.reasm.find? (fun e => e.src == f.src && e.msgId == f.msgId) = none →
    s.canEnter f = true → sliceZ f.digest 0 16 = (sha3_512 f.payload).take 16 →
    (∃ m : InMsg, (s.processLocal f).fabric.inbox = s.fabric.inbox ++ [m] ∧ m.src = f.src ∧ m.qp = f.dqp ∧ m.data = f.payload) ∧
    (s.processLocal f).fabric.reasm = s.fabric.reasm) ∧
  (∀ (src id off : Nat) (q : QFrame),
    s.fabric.waiting.find? (fun q => q.frame.src == src && q.frame.msgId == id && q.frame.offset == off) = some q →
    (s.gtc < q.since + 100000 ∨ s.routeFrame q.frame q.dim ≠ none → exec (.routeWaitExpiry src id off) s = .next s) ∧
    (q.since + 100000 ≤ s.gtc → s.routeFrame q.frame q.dim = none →
    exec (.routeWaitExpiry src id off) s = .next ((({ s with fabric := { s.fabric with
      waiting := s.fabric.waiting.erase q } } : State).giveBack q.back).unreachable q))) ∧
  (∀ (src id : Nat) (e : Reasm), s.fabric.reasm.find? (fun e => e.src == src && e.msgId == id) = some e →
    (s.gtc < e.at_ + 1000 * s.stored oReasmTimeout → exec (.reassemblyTimeout src id) s = .next s) ∧
    (e.at_ + 1000 * s.stored oReasmTimeout ≤ s.gtc → exec (.reassemblyTimeout src id) s = .next (s.failEntry e stReasm) ∧
      ∀ x ∈ (s.failEntry e stReasm).fabric.reasm, x ∈ s.fabric.reasm ∧ (x.src ≠ src ∨ x.msgId ≠ id))) ∧
  ∀ k qp, k < 8 →
    (Tbl.find s.fabric.qps qp = none → exec (.qpContextFetchDone k qp) s = .next s) ∧
    ((Tbl.find s.fabric.qps qp).isSome = true →
      exec (.qpContextFetchDone k qp) s = .next ((s.port k).stalled.foldl (fun s f => s.localFrame k f)
        (((s.port k).miss.filter fun f => f.dqp == qp).foldl (fun s f => (s.processLocal f).giveBack (backOf k f))
          ((s.cacheQp qp).updPort k fun p => { p with miss := p.miss.filter fun f => f.dqp ≠ qp, stalled := [] }))))) ∧
  ((∀ (s : State) (qp : Nat) (i : Instr), s.up = true → s.scrubbedQp qp = true →
    (i = .roceSendReceive qp ∨ (∃ key addr data, i = .rdmaWriteReceive qp key addr data) ∨
      ∃ key addr len, i = .rdmaReadRequest qp key addr len) →
    exec i s = .next ((s.emit (.nak qp (32 + s.stored oRnrTimer))).count oRnrNaksSent 1)) ∧
  ∀ (s : State) (qp : Nat), s.up = true → s.scrubbedQp qp = false →
  (s.roceQp qp = none → exec (.roceSendReceive qp) s = .next (s.emit (.nak qp 1))) ∧
  (s.roceQp qp = none → exec (.cnpReceive qp) s = .next s ∧ exec (.cnpRateRestore qp) s = .next s ∧
    exec (.roceRetryTimeout qp) s = .next s ∧ (∀ psn, exec (.roceAckReceive qp psn) s = .next s) ∧ ∀ key addr len,
    exec (.rdmaReadRequest qp key addr len) s = .next ((s.count oProtectionViolations 1).emit (.nak qp 2))) ∧
  (s.roceQp qp = none → ∀ key addr (data : Bytes),
    exec (.rdmaWriteReceive qp key addr data) s = .next ((s.count oProtectionViolations 1).emit (.nak qp 2))) ∧
  ∀ q, s.roceQp qp = some q →
    let pass := fun x : RocePkt => s.roceTint q x ≠ .red
    (∀ x i, (x = { op := 2, qp := qp } ∧ i = .roceSendReceive qp ∨
        (∃ key addr data, x = { op := 0, qp := qp, rkey := key, addr := addr, data := data } ∧ i = .rdmaWriteReceive qp key addr data) ∨
        ∃ key addr len, x = { op := 1, qp := qp, rkey := key, addr := addr, len := len } ∧ i = .rdmaReadRequest qp key addr len) →
      let k := (s.roceArrival q).1
      let c := s.stored (oServiceClass q.stream)
      s.roceTint q x = .red → ∃ t, exec i s = .next t ∧ t.out = s.out ∧ t.streams = s.streams ∧
        (s.stored (oRedAction (8 * (8 + k) + c)) = 1 → t.fabric.ports = s.fabric.ports) ∧
        (s.stored (oRedAction (8 * (8 + k) + c)) ≠ 1 →
          (t.port k).redRoce = (s.port k).redRoce ++ [{ x with cls := c, marked := (s.roceArrival q).2, since := s.gtc }])) ∧
    (pass { op := 2, qp := qp } → ∃ t, exec (.roceSendReceive qp) s = .next t ∧ t.out = s.out ++ [.nak qp 1] ∧ t.streams = s.streams) ∧
    (∀ (key addr : Nat) (data : Bytes) (r : Region), pass { op := 0, qp := qp, data := data } → q.cached = true → s.regionOf key = some r → r.kind = 1 →
      s.rangeBad q.pd key addr data.length false = false → addr = r.base → 12 ≤ data.length → data.length ≤ 64 →
      let d := (s.stream r.stream).dlv
      let g := fieldAt data 0 8
      fieldAt data 8 4 ≤ (s.stream r.stream).prot.fenceEpoch →
      (d.granted ≤ g → g ≤ d.acked + s.stored (oDlvRslots r.stream) → ∃ t, exec (.rdmaWriteReceive qp key addr data) s = .next t ∧
        t.out = s.out ∧ (t.stream r.stream).dlv.granted = g ∧ (t.stream r.stream).dlv.creditFence = fieldAt data 8 4) ∧
      (g < d.granted ∨ d.acked + s.stored (oDlvRslots r.stream) < g → g ≠ d.granted → ∃ t,
        exec (.rdmaWriteReceive qp key addr data) s = .next t ∧ (t.stream r.stream).dlv.granted = d.granted ∧
        t.stored oCreditViolations = s.stored oCreditViolations + 1)) ∧
    (∀ (key addr : Nat) (data : Bytes), pass { op := 0, qp := qp, data := data } → q.cached = true → s.rangeBad q.pd key addr data.length false = true →
      ∃ t, exec (.rdmaWriteReceive qp key addr data) s = .next t ∧ t.out = s.out ++ [.nak qp 2] ∧ t.streams = s.streams ∧
        t.stored oProtectionViolations = s.stored oProtectionViolations + 1) ∧
    (∀ (key addr len : Nat), pass { op := 1, qp := qp } → q.cached = true → s.rangeBad q.pd key addr len true = true →
      ∃ t, exec (.rdmaReadRequest qp key addr len) s = .next t ∧ t.out = s.out ++ [.nak qp 2] ∧ t.streams = s.streams ∧
        t.stored oProtectionViolations = s.stored oProtectionViolations + 1) ∧
    (∀ (key addr : Nat) (data : Bytes), pass { op := 0, qp := qp, data := data } → q.cached = false → s.pinnedQp (qp, q) = false → s.missFull q.stream data.length = true →
      ∃ t, exec (.rdmaWriteReceive qp key addr data) s = .next t ∧ t.out = s.out ++ [.nak qp (32 + s.stored oRnrTimer)] ∧
        t.streams = s.streams ∧ t.stored oRnrNaksSent = s.stored oRnrNaksSent + 1) ∧
    (∀ (key addr len : Nat) (r : Region), pass { op := 1, qp := qp } → q.cached = true → s.regionOf key = some r → r.kind = 2 →
      s.rangeBad q.pd key addr len true = false → ∃ u : State, u.streams = s.streams ∧ u.out = s.out ∧
        exec (.rdmaReadRequest qp key addr len) s = .next (if (u.readExposed addr len).2.1 = stSuccess then
          (u.readExposed addr len).2.2.emit (.rdmaRead qp (u.readExposed addr len).1)
          else (u.readExposed addr len).2.2.emit (.nak qp 3))) ∧
    (∀ psn a last rest, q.unacked = (a, last) :: rest → psnReached psn last = true → exec (.roceAckReceive qp psn) s =
      .next ((s.updQp qp fun x => { x with unacked := rest.dropWhile fun u => psnReached psn u.2, retries := 0 }).fabricAcked q.stream)) ∧
    (∀ psn a last rest, q.unacked = (a, last) :: rest → psnReached psn last = false → exec (.roceAckReceive qp psn) s = .next s) ∧
    (q.unacked = [] → (∀ psn, exec (.roceAckReceive qp psn) s = .next s) ∧ exec (.roceRetryTimeout qp) s = .next s) ∧
    (q.unacked ≠ [] → q.retries < 7 → exec (.roceRetryTimeout qp) s =
      .next ((s.resendBatch q.stream).updQp qp fun x => { x with retries := x.retries + 1 })) ∧
    (q.unacked ≠ [] → 7 ≤ q.retries → exec (.roceRetryTimeout qp) s = .next
      (((s.updQp qp fun x => { x with unacked := [], retries := 0 }).holdStream q.stream stUnreachable).notice 1 stUnreachable
        q.stream 0)) ∧
    (∃ t, exec (.cnpReceive qp) s = .next t ∧ (Tbl.get t.fabric.qps {} qp).rate = max 16 (q.rate / 2) ∧
      (Tbl.get t.fabric.qps {} qp).cnpGtc = s.gtc) ∧
    (s.gtc < q.cnpGtc + 50000 → q.marked = false ∨ s.gtc < q.cnpSent + 50000 → exec (.cnpRateRestore qp) s = .next s) ∧
    (q.cnpGtc + 50000 ≤ s.gtc → ∃ t, exec (.cnpRateRestore qp) s = .next t ∧
      (Tbl.get t.fabric.qps {} qp).rate = min 1600 (q.rate + 100)) ∧
    (q.marked = true → q.cnpSent + 50000 ≤ s.gtc → ∃ t, exec (.cnpRateRestore qp) s = .next t ∧
      t.out = s.out ++ [.cnp qp] ∧ (Tbl.get t.fabric.qps {} qp).marked = false))

/-! ## Service classes (R383 to R392) -/

/-- R383, R388, R390: an accepted shaper parameter is kept, with the peak that follows it at a port of the bound, and fills
the buckets of its queue alone; one that does not stand is refused. CONFIG_CHANGE is refused when its base is less than 100
µs away, an entry lasts 0, or no entry opens S0; else it arms the admin list, which becomes operational at its base and not
before. An entry gives way to the next when it has ended and not before. R384, R385, R389, R392: a decision point sends the
head unit of the highest class that is coloured GREEN, or without one that of the highest class coloured YELLOW, of the
classes whose gate lets it start at resource 20, and takes its tokens; with RED units only it sends none. A frame boundary of
gate port 8 decides resource 20. A sample, at its GTC values alone, keeps the depth and delay of every queue and their peaks.
-/
def Obligations.ShapersAndGates : Prop :=
  ((∀ (s t : State) (r : OdReq) (q sub : Nat) (role : Role),
    let key := keyOf (0x5100 + q) sub
    q < 176 → 1 ≤ sub → sub ≤ 4 → s.ReceivesWrite r key role t →
    (t.shaperAccepted q sub (leNat r.data) = true → ∃ u : State, exec (.shaperParamWrite r q sub) s = u.wroteOk r ∧
      u.stored key = leNat r.data ∧ (boundQueue q = true → sub ≤ 2 → u.stored (keyOf (0x5100 + q) (sub + 2)) = leNat r.data) ∧
      (u.queue q).full = true ∧ (u.queue q).last = t.gtc ∧
      ∀ k, k ≠ q → u.queue k = t.queue k) ∧
    (t.shaperAccepted q sub (leNat r.data) = false → exec (.shaperParamWrite r q sub) s = t.wroteNot r 0)) ∧
  (∀ (s t : State) (r : OdReq) (g : Nat) (role : Role), g < 9 → s.ReceivesWrite r (oConfigChange g) role t →
    (t.stored (oAdminBase g) < t.gtc + 100000 ∨ (∃ e ∈ t.adminList g, gateDur e = 0) ∨ (∀ e ∈ t.adminList g, gateOpen e 0 = false) →
      exec (.configChange r g) s = t.wroteNot r 0) ∧
    (t.gtc + 100000 ≤ t.stored (oAdminBase g) → (∀ e ∈ t.adminList g, gateDur e ≠ 0) → (∃ e ∈ t.adminList g, gateOpen e 0 = true) → exec (.configChange r g) s =
      (t.updGate g fun x => { x with armed := some (t.stored (oAdminBase g), t.adminList g) }).wroteOk r)) ∧
  ∀ (s : State) (g : Nat), g < 9 → s.up = true →
    ((s.gate g).armed = none → exec (.gateListSwitch g) s = .next s) ∧
    (∀ base l, (s.gate g).armed = some (base, l) → s.gtc < base → exec (.gateListSwitch g) s = .next s) ∧
    (s.gtc < (s.gate g).start + gateDur (gateAt (s.gate g).oper (s.gate g).cur) → exec (.gateEntryExpiry g) s = .next s) ∧
    (∀ base l, (s.gate g).armed = some (base, l) → base ≤ s.gtc → ∃ t, exec (.gateListSwitch g) s = .next t ∧
      (t.gate g).oper = l ∧ (t.gate g).armed = none ∧ (t.gate g).cur = 0 ∧ (t.gate g).start = base ∧
      t.stored (oOperBase g) = base ∧ ∀ k, k ≠ g → t.gate k = s.gate k) ∧
    ((s.gate g).start + gateDur (gateAt (s.gate g).oper (s.gate g).cur) ≤ s.gtc → ∃ t, exec (.gateEntryExpiry g) s = .next t ∧
      (t.gate g).cur = ((s.gate g).cur + 1) % (s.gate g).oper.length ∧ (t.gate g).oper = (s.gate g).oper ∧
      (t.gate g).start = (s.gate g).start + gateDur (gateAt (s.gate g).oper (s.gate g).cur))) ∧
  ((∀ (s : State) (res c n since : Nat) (rest : List (Nat × Nat)) (T : Tint),
    let q := 8 * res + c
    let may := fun d m => res = 20 → s.gateAllows 8 d m = true
    let heads := fun d m => ∃ x y, (s.queue (8 * res + d)).waiting = (m, x) :: y
    let colour := fun d m => s.tint (8 * res + d) m .green
    17 ≤ res → res ≤ 21 → c < 8 → s.up = true → (s.queue q).waiting = (n, since) :: rest → may c n → colour c n = T → T ≠ .red →
    (∀ d m, d < c → heads d m → may d m → colour d m ≠ T) →
    (T = .yellow → ∀ d m, d < 8 → heads d m → may d m → colour d m ≠ .green) →
    ∃ t, exec (.crossbarDecisionPoint res) s = .next t ∧ (res = 20 → exec (.frameTransmitDone 8) s = .next t) ∧
      (t.queue q).waiting = rest ∧ (t.queue q).maxWait = max (s.queue q).maxWait (s.gtc - since) ∧
      (s.unshaped q = false → (t.queue q).tc = (s.tokens q).1 - (if T = .green then n * 10 ^ 9 else 0) ∧
        (t.queue q).tp = (s.tokens q).2 - n * 10 ^ 9 ∧ (t.queue q).last = s.gtc) ∧
      ∀ k, k ≠ q → t.queue k = s.queue k) ∧
  (∀ (s : State) (res : Nat), 17 ≤ res → res ≤ 21 → s.up = true →
    (∀ c n x y, c < 8 → (s.queue (8 * res + c)).waiting = (n, x) :: y → (res = 20 → s.gateAllows 8 c n = true) →
      s.tint (8 * res + c) n .green = .red) →
    exec (.crossbarDecisionPoint res) s = .next s ∧ (res = 20 → exec (.frameTransmitDone 8) s = .next s)) ∧
  ∀ s : State, s.up = true →
    (s.gtc % 2 ^ s.stored oSampleK ≠ 0 → exec .queueSample s = .next s) ∧
    (s.gtc % 2 ^ s.stored oSampleK = 0 → ∃ t, exec .queueSample s = .next t ∧ ∀ q, q < 176 →
      t.stored (oDepth q) = min (s.depthOf q) (2 ^ 32 - 1) ∧ t.stored (oDelay q) = min (s.queue q).maxWait (2 ^ 32 - 1) ∧
      t.stored (oDepthPeak q) = max (s.stored (oDepthPeak q)) (min (s.depthOf q) (2 ^ 32 - 1)) ∧
      t.stored (oDelayPeak q) = max (s.stored (oDelayPeak q)) (min (s.queue q).maxWait (2 ^ 32 - 1)) ∧ (t.queue q).maxWait = 0))

/-! ## Power domains, Ringmasters and mailboxes (R400 to R416) -/

/-- R411 to R416: SLEEP or OFF of a domain that is in use is refused; an accepted target is kept, and begins its transition,
waits for the one that runs, or changes nothing in a domain that is there already or is held off; an access to a sleeping
domain is held and wakes it, and one to a domain that is going to sleep wakes it afterwards; a transition that ends gives its
state, releases what was held, and begins the one that waits when it may; an access to a domain that is OFF is recorded, and
a read is aborted. -/
def Obligations.DomainTransitions : Prop :=
  (∀ (s t : State) (r : OdReq) (d : Nat) (role : Role),
    let v := leNat r.data
    d < 72 → s.ReceivesWrite r (oDomainTarget d) role t → domainAllows d v = true →
    (v ≠ 0 → (t.domain d).state ≠ 3 → t.targetBad d v = true → exec (.domainTargetWrite r d) s = t.wroteNot r 0) ∧
    (v = 0 ∨ t.targetBad d v = false → (t.domain d).state ≠ 3 → (t.domain d).state ≠ v → (t.domain d).heldOff = false →
      ∃ u : State, exec (.domainTargetWrite r d) s = u.wroteOk r ∧ u.stored (oDomainTarget d) = v ∧
        (u.domain d).state = 3 ∧ (u.domain d).going = v) ∧
    (v = 0 ∨ t.targetBad d v = false → (t.domain d).state = v →
      ∃ u : State, exec (.domainTargetWrite r d) s = u.wroteOk r ∧ u.stored (oDomainTarget d) = v ∧ u.domains = t.domains) ∧
    (v = 0 ∨ t.targetBad d v = false → (t.domain d).state ≠ 3 → (t.domain d).heldOff = true →
      ∃ u : State, exec (.domainTargetWrite r d) s = u.wroteOk r ∧ u.stored (oDomainTarget d) = v ∧ u.domains = t.domains) ∧
    (v ≠ 0 → (t.domain d).state = 3 → (t.domain d).going ≠ 0 → t.targetBad d v = true →
      exec (.domainTargetWrite r d) s = t.wroteNot r 0) ∧
    ((t.domain d).state = 3 → v = 0 ∨ (t.domain d).going = 0 ∨ t.targetBad d v = false →
      ∃ u : State, exec (.domainTargetWrite r d) s = u.wroteOk r ∧ u.stored (oDomainTarget d) = v ∧ (u.domain d).state = 3 ∧
        (u.domain d).going = (t.domain d).going ∧ (v = 0 → (t.domain d).going = 1 → (u.domain d).wakeAfter = true) ∧
        (v ≠ (t.domain d).going → ¬ (v = 0 ∧ (t.domain d).going = 1) → (u.domain d).next = some v))) ∧
  ∀ (s : State) (d : Nat), isDomain d = true → s.up = true →
    ((s.domain d).state = 1 → ∃ t, exec (.domainWake d) s = .next t ∧ (t.domain d).state = 3 ∧ (t.domain d).going = 0 ∧
      (t.domain d).held = (s.domain d).held + 1 ∧ (t.domain d).wakes = (s.domain d).wakes + 1) ∧
    ((s.domain d).state = 0 ∨ s.domOff d = true → exec (.domainWake d) s = .next s) ∧
    ((s.domain d).state = 3 → (s.domain d).going < 2 → ∃ t, exec (.domainWake d) s = .next t ∧ (t.domain d).state = 3 ∧
      (t.domain d).held = (s.domain d).held + 1 ∧ ((s.domain d).going = 1 → (t.domain d).wakeAfter = true)) ∧
    ((s.domain d).state ≠ 3 → exec (.domainTransitionDone d) s = .next s) ∧
    ((s.domain d).state = 3 → (s.domain d).wakeAfter = false → (s.domain d).next = some 0 → (s.domain d).going ≠ 0 →
      (s.domain d).heldOff = false →
      ∃ t, exec (.domainTransitionDone d) s = .next t ∧ (t.domain d).state = 3 ∧ (t.domain d).going = 0) ∧
    ((s.domain d).state = 3 → (s.domain d).wakeAfter = false → (s.domain d).next = some 1 → (s.domain d).going = 0 →
      (s.domain d).heldOff = false → ∃ u : State,
        u.domains = Tbl.set s.domains d { s.domain d with state := 0, next := none, held := 0 } ∧
        exec (.domainTransitionDone d) s = .next (if u.targetBad d 1 then u else u.beginTransition d 1)) ∧
    ((s.domain d).state = 3 → (s.domain d).wakeAfter = false → (s.domain d).next = none →
      ∃ t, exec (.domainTransitionDone d) s = .next t ∧ (t.domain d).state = (s.domain d).going ∧
        ((s.domain d).going = 0 → (t.domain d).held = 0) ∧ ∀ k, k ≠ d → t.domain k = s.domain k) ∧
    ((s.domain d).state = 3 → (s.domain d).wakeAfter = true → (s.domain d).going = 1 → (s.domain d).heldOff = false →
      ∃ t, exec (.domainTransitionDone d) s = .next t ∧ (t.domain d).state = 3 ∧ (t.domain d).going = 0 ∧
        (t.domain d).wakeAfter = false) ∧
    (∀ addr w, addr < 2 ^ 24 → s.domOff d = false → exec (.domainOffAccess d addr w) s = .next s) ∧
    (∀ addr w, addr < 2 ^ 24 → s.domOff d = true → ∃ t l, exec (.domainOffAccess d addr w) s = .next t ∧
      t.offStatus = stDomainOff ∧ t.offDomain = d ∧ t.offAddr = addr ∧ t.offGtc = s.gtc ∧
      (t.domain d).offAccesses = (s.domain d).offAccesses + 1 ∧
      t.out = s.out ++ (if w then [] else [.abort addr]) ++ l)

/-- R400, R401, R440: a watchdog that expires restarts its processor, whose third expiry within 60 s halts it with LED_FAULT
on; the expiry of a hang that a rehearsal made restarts it and does not count; after the restart it serves again. In another
state neither changes anything. R5, R6, R310, R402 to R408, R415: on a channel of which the host is an end a post fills the
slot of its direction, or is counted as an overrun that leaves the slot as it is; a take empties it and answers the message's
header, or zero; on another channel the host's post is denied; with the domain SPINE OFF both are recorded. A device end
takes and posts, and is noted and counted when it is none, or finds the slot full; an end of a channel between the device's
own ends posts to the other. A register write to a channel or to the MSI-X table takes effect there, and one beyond BAR0
stops. A read answers what the registers hold, and zero for a register that is write-only and for an unlisted range. -/
def Obligations.WatchdogsAndMailboxes : Prop :=
  (∀ (s : State) (p : Nat), p < 4 → s.up = true →
  let x := s.rm p
  let recent := x.times.filter fun t => s.gtc ≤ t + 60 * Config.sec
  (x.state = 0 → x.hung = false →
    (recent.length < 2 → ∃ t, exec (.watchdogExpiry p) s = .next t ∧ (t.rm p).state = 1 ∧ (t.rm p).expiries = x.expiries + 1 ∧
      t.sys.ledFault = s.sys.ledFault) ∧
    (2 ≤ recent.length → ∃ t, exec (.watchdogExpiry p) s = .next t ∧ (t.rm p).state = 2 ∧ (t.rm p).expiries = x.expiries + 1 ∧
      t.sys.ledFault = 1)) ∧
  (x.state = 0 → x.hung = true → ∃ t, exec (.watchdogExpiry p) s = .next t ∧ (t.rm p).state = 1 ∧ (t.rm p).times = x.times) ∧
  (x.state ≠ 0 → exec (.watchdogExpiry p) s = .next s) ∧
  (x.state ≠ 1 → exec (.ringmasterRestartDone p) s = .next s) ∧
  (x.state = 1 → ∃ t, exec (.ringmasterRestartDone p) s = .next t ∧ (t.rm p).state = 0 ∧ (t.rm p).lastRestart = s.gtc)) ∧
  ((∀ (s : State) (c v : Nat) (body : Bytes), c < 64 → s.up = true →
    (s.domOff 0 = true → exec (.mbxPost c v body) s = .next (s.offAccess 0 (0x200008 + 0x1000 * c) true) ∧
      exec (.mbxTake c) s = .next (s.offAccess 0 (0x200018 + 0x1000 * c) false)) ∧
    (s.domOff 0 = false → 56 ≤ c → exec (.mbxTake c) s = .next (s.emit (.bar0 0)) ∧
      exec (.mbxPost c v body) s = .next ((s.updChan c fun x => { x with denied := true }).count oMbxDenied 1))) ∧
  (∀ (s : State) (c : Nat), c < 64 →
    let at_ := fun off => s.bar0Read (0x200000 + 0x1000 * c + off) 8
    at_ 0 = 0 ∧ at_ 8 = 0 ∧ at_ 0x28 = (if (s.chan c).irqEn then 1 else 0) ∧ at_ 0x30 = (s.chan c).rxBase ∧
    at_ 0x38 = (s.chan c).rxLen ∧ at_ 0x20 = s.mbxStatus c ∧
    (∀ m, c < 56 → (s.chan c).rx = some m → at_ 0x10 = m.ptr ∧ at_ 0x18 = m.len + 2 ^ 32 * m.seq + 2 ^ 48 * m.sender) ∧
    (56 ≤ c ∨ (s.chan c).rx = none → at_ 0x10 = 0 ∧ at_ 0x18 = 0) ∧
    bit (s.mbxStatus c) 0 = (hostChan c && (s.chan c).tx.isSome) ∧ bit (s.mbxStatus c) 1 = (hostChan c && (s.chan c).rx.isSome) ∧
    bits (s.mbxStatus c) 7 7 = 0 ∧ (s.devMode < 4 → bits (s.mbxStatus c) 15 10 = 0 ∧ bits (s.mbxStatus c) 9 8 = s.devMode)) ∧
  (∀ (s : State) (a size : Nat), 0x140000 ≤ a → a < 0x200000 → s.bar0Read a size = 0) ∧
  (∀ (s : State) (c sender seq : Nat) (body : Bytes), 56 ≤ c → c < 64 → s.up = true → deviceEnd c sender = true →
    (s.domain 0).state = 0 → s.rmRuns (sender - 0x10) = true ∨ sender = 0x20 → body ≠ [] → body.length ≤ 1048576 →
    let m : MbxDir := { len := body.length, seq := seq, sender := sender, body := body }
    (sender = 0x10 + (chanRms c).headD 0 → (s.chan c).tx = none → ∃ t, exec (.mbxDevicePost c sender seq body) s = .next t ∧
      (t.chan c).tx = some m ∧ (t.chan c).rx = (s.chan c).rx ∧ (t.chan c).second.wake = true) ∧
    (sender ≠ 0x10 + (chanRms c).headD 0 → (s.chan c).rx = none → ∃ t, exec (.mbxDevicePost c sender seq body) s = .next t ∧
      (t.chan c).rx = some m ∧ (t.chan c).tx = (s.chan c).tx ∧ (t.chan c).first.wake = true)) ∧
  ∀ (s : State) (c : Nat), c < 56 → s.up = true → s.domOff 0 = false →
  (∀ v body,
    ((s.chan c).tx = none → ∃ t, exec (.mbxPost c v body) s = .next t ∧ (t.chan c).posted = (s.chan c).posted + 1 ∧
      (t.chan c).tx = some { ptr := (s.chan c).sendPtr, len := bits v 31 0, seq := bits v 47 32, sender := 1, body := body } ∧
      (t.chan c).rx = (s.chan c).rx ∧ (t.chan c).first.wake = true) ∧
    ((s.chan c).tx.isSome = true → ∃ t, exec (.mbxPost c v body) s = .next t ∧ (t.chan c).tx = (s.chan c).tx ∧
      (t.chan c).overrun = true ∧ t.stored oMbxOverruns = s.stored oMbxOverruns + 1)) ∧
  ((s.chan c).rx = none → exec (.mbxTake c) s = .next (s.emit (.bar0 0))) ∧
  (∀ m, (s.chan c).rx = some m → ∃ t l, exec (.mbxTake c) s = .next t ∧ (t.chan c).taken = (s.chan c).taken + 1 ∧
    t.out = s.out ++ .bar0 (m.len + 2 ^ 32 * m.seq + 2 ^ 48 * m.sender) :: l ∧ (s.notices = [] → s.recovery = [] → (t.chan c).rx = none) ∧
    (t.chan c).first.emptyIrq = ((s.chan c).first.emptyIrq || s.devMode ≠ 1)) ∧
  (∀ m, (s.domain 0).state = 0 → (∃ p ∈ chanRms c, s.rmRuns p = true) → (s.chan c).tx = some m →
    ∃ t, exec (.mbxDeviceTake c) s = .next t ∧ (t.chan c).tx = none ∧ (t.chan c).taken = (s.chan c).taken + 1 ∧
      (t.chan c).inbox = (s.chan c).inbox ++ [m] ∧ (t.chan c).emptyIrq = ((s.chan c).emptyIrq || s.devMode ≠ 1)) ∧
  ((s.domain 0).state = 0 → (s.chan c).tx = none → exec (.mbxDeviceTake c) s = .next s) ∧
  (∀ sender seq body, deviceEnd c sender = false → exec (.mbxDevicePost c sender seq body) s =
    .next ((s.updChan c fun x => { x with deniedTo := sender :: x.deniedTo.filter (· ≠ sender) }).count oMbxDenied 1)) ∧
  (∀ sender seq body, deviceEnd c sender = true → (s.domain 0).state = 0 → s.rmRuns (sender - 0x10) = true → body ≠ [] →
    body.length ≤ 1048576 → (s.chan c).rx.isSome = true →
    exec (.mbxDevicePost c sender seq body) s =
      .next ((s.updChan c fun x => { x with first := { x.first with overrun := true } }).count oMbxOverruns 1)) ∧
  (∀ sender seq body, deviceEnd c sender = true → (s.domain 0).state = 0 → s.rmRuns (sender - 0x10) = true → body ≠ [] →
    body.length ≤ 1048576 → (s.chan c).rx = none → body.length ≤ (s.chan c).rxLen →
    ∃ t l, exec (.mbxDevicePost c sender seq body) s = .next t ∧ t.out = s.out ++ .dma (s.chan c).rxBase body :: l ∧
      (t.chan c).rx = some { ptr := (s.chan c).rxBase, len := body.length, seq := seq, sender := sender, body := body } ∧
      (t.chan c).wake = true) ∧
  (∀ v, exec (.registerWrite (0x200000 + 0x1000 * c) 8 v) s = .next (s.updChan c fun x => { x with sendPtr := v })) ∧
  (∀ v, exec (.registerWrite (0x200028 + 0x1000 * c) 8 v) s = .next (s.updChan c fun x => { x with irqEn := bit v 0 })) ∧
  (∀ v, exec (.registerWrite (0x200020 + 0x1000 * c) 8 v) s = .next (s.updChan c fun x =>
    { x with emptyIrq := x.emptyIrq && !bit v 2, wake := x.wake && !bit v 3, overrun := x.overrun && !bit v 4,
             flushed := x.flushed && !bit v 5, denied := x.denied && !bit v 6 })) ∧
  (∀ v, v % 4096 ≠ 0 → exec (.registerWrite (0x200030 + 0x1000 * c) 8 v) s = .next s) ∧
  (∀ v, v % 4096 = 0 → exec (.registerWrite (0x200030 + 0x1000 * c) 8 v) s =
    .next (s.updChan c fun x => { x with rxBase := v })) ∧
  (∀ i v, i < 8192 → ∃ t, exec (.registerWrite (0x10000 + 4 * i) 4 v) s = .next t ∧ Tbl.find t.host.msix i = some (bits v 31 0)) ∧
  ∀ addr size v, 2 ^ 24 ≤ addr → exec (.registerWrite addr size v) s = .fault .outsideBar0)

/-! ## Fault tolerance (R419 to R443) -/

/-- R425 to R427, R438, R440, R463: a heartbeat goes to every peer each 50 ms, and to none in a simulated death or a scrub of
DEVICE scope; the time at which a peer is heard is kept, and a FAILED one is told so; a peer that has been silent for 300 ms
joins the FAILED set and every device is told, and one that was heard since, or never, or is FAILED already does not; a
device that rejoins leaves the set, and no other does. -/
def Obligations.HeartbeatsAndDeclaration : Prop :=
  (∀ s : State, s.up = true → s.ft.state = 2 ∨ s.deviceScrub = true → exec .heartbeatSend s = .next s) ∧
  (∀ s : State, s.up = true → s.sys.step = 0 → s.ft.state ≠ 2 → s.deviceScrub = false →
    ((∀ g, s.ft.sent = some g → g + 50 * Config.ms ≤ s.gtc) → ∃ t, exec .heartbeatSend s = .next t ∧ t.ft.sent = some s.gtc ∧
      t.out = s.out ++ s.heartbeatPeers.map fun c => Emit.heartbeat c s.heartbeatBody) ∧
    (∀ g, s.ft.sent = some g → s.gtc < g + 50 * Config.ms → exec .heartbeatSend s = .next s)) ∧
  (∀ (s : State) (data : Bytes),
    let c := fieldAt data 0 2
    let s1 : State := { s with ft := { s.ft with heard := Tbl.set s.ft.heard c s.gtc } }
    s.up = true →
    (c ∉ s.ft.failed → exec (.heartbeatReceive data) s = .next s1) ∧
    (c ∈ s.ft.failed → exec (.heartbeatReceive data) s = .next (s1.emit (.failed c c (Tbl.get s.ft.declared 0 c))))) ∧
  (∀ (s : State) (c : Nat), s.up = true → s.rmRuns 1 = true → s.sys.step = 0 → Tbl.find s.ft.heard c = none ∨ c ∈ s.ft.failed →
    exec (.declareFailed c) s = .next s) ∧
  (∀ (s : State) (c g : Nat), s.up = true → s.rmRuns 1 = true → s.sys.step = 0 → Tbl.find s.ft.heard c = some g →
    (s.gtc < g + 300 * Config.ms → exec (.declareFailed c) s = .next s) ∧
    (g + 300 * Config.ms ≤ s.gtc → c ∉ s.ft.failed → ∃ t, exec (.declareFailed c) s = .next t ∧ c ∈ t.ft.failed ∧
      .failed 0xFFFF c s.gtc ∈ t.out)) ∧
  ∀ (s : State) (c : Nat), s.up = true → s.rmRuns 1 = true → s.sys.step = 0 → ∃ t, exec (.rejoinedReceive c) s = .next t ∧ c ∉ t.ft.failed ∧
    Tbl.find t.ft.heard c = none ∧ ∀ d, d ≠ c → (d ∈ t.ft.failed ↔ d ∈ s.ft.failed)

/-- R426, R429 to R431, R435, R438, R515: a peer that is reported joins the FAILED set; a device that is told it has failed
fences itself: its streams are MOVED and its mirror records closed, and the first time after a cold reset, with every stream
IDLE, it rejoins; a device that is SELF_FENCED already does not change. A higher fence record moves the stream that it
fences, and a refusal under a record that is not higher does not. REJOIN is accepted when the device is SELF_FENCED and every
stream is IDLE or MOVED, and else refused. -/
def Obligations.FencesMoveStreams : Prop :=
  (∀ (s : State) (sender peer gtc : Nat), s.up = true → s.rmRuns 1 = true → s.sys.step = 0 →
    (peer ≠ s.coord → ∃ t, exec (.failedMessageReceive sender peer gtc) s = .next t ∧ peer ∈ t.ft.failed) ∧
    (peer = s.coord → s.ft.state = 0 → s.ft.autoRejoin = false → ∃ t, exec (.failedMessageReceive sender peer gtc) s = .next t ∧
      t.ft.state = 1 ∧ t.ft.mirrors = [] ∧
      ∀ n, n < 64 → (t.stream n).state = if (s.stream n).state = .idle then .idle else .moved) ∧
    (peer = s.coord → s.ft.state = 0 → s.ft.autoRejoin = true → (∀ n, n < 64 → (s.stream n).state = .idle) →
      ∃ t, exec (.failedMessageReceive sender peer gtc) s = .next t ∧ t.ft.state = 0 ∧ t.ft.autoRejoin = false ∧ t.ft.mirrors = [] ∧
        .rejoined s.coord ∈ t.out) ∧
    (peer = s.coord → s.ft.state = 1 → exec (.failedMessageReceive sender peer gtc) s = .next s)) ∧
  (∀ (s : State) (epoch owner n : Nat), s.up = true → s.rmRuns 1 = true → s.sys.step = 0 → n < 64 →
    ((s.stream n).state = .idle → exec (.staleFenceRefusal n epoch owner) s = .next s) ∧
    ((s.stream n).state ≠ .idle → (s.stream n).state ≠ .moved → fenceLt (s.fenceOf n) (epoch, owner) = false →
      exec (.staleFenceRefusal n epoch owner) s = .next s) ∧
    ((s.stream n).state = .moved → (s.stream n).prot.movedTo = 0xFFFF →
      exec (.staleFenceRefusal n epoch owner) s = .next (s.updProt n fun p => { p with movedTo := s.coordOfRank owner }))) ∧
  (∀ (s : State) (corpus member epoch owner n : Nat), s.up = true → s.rmRuns 1 = true → s.sys.step = 0 → n < 64 → s.stored (oCorpusId n) = corpus →
    s.member n = member → fenceLt (s.fenceOf n) (epoch, owner) = true → (s.stream n).state ≠ .idle → (s.stream n).state ≠ .moved →
    (∃ t, exec (.fenceMessageReceive corpus member epoch owner) s = .next t ∧ (t.stream n).state = .moved ∧
      (t.stream n).prot.movedTo = s.coordOfRank owner) ∧
    (∃ t, exec (.staleFenceRefusal n epoch owner) s = .next t ∧ (t.stream n).state = .moved ∧
      (t.stream n).lastStatus = stStaleFence ∧ (t.stream n).prot.movedTo = s.coordOfRank owner ∧
      t.stored oFenceRefusedOwn = s.stored oFenceRefusedOwn + 1)) ∧
  ∀ (s t : State) (r : OdReq) (role : Role), s.ReceivesWrite r oRejoin role t →
    let may := t.ft.state = 1 ∧ ∀ n, n < 64 → (t.stream n).state = .idle ∨ (t.stream n).state = .moved
    (may → ∃ u : State, exec (.rejoin r) s = u.wroteOk r ∧ u.ft.state = 0 ∧ u.out = t.out ++ [.rejoined t.coord]) ∧
    (¬ may → exec (.rejoin r) s = t.wroteNot r 0)

/-- R420 to R424, R435, R443: the owner's side of a mirror: each acknowledged step of an open is followed by the next, the
last one makes the stream PROTECTED, and a refused one UNPROTECTED; a snapshot's acknowledgement ends a lag, which begins
when one is more than 100 ms overdue; a mark of a RUNNING stream is begun every 10 s and becomes durable when its holder
answers, or at once without one. PARTNER takes the value written, and NONE leaves a RUNNING stream UNPROTECTED; MOVE_TO is
kept for a RUNNING, PROTECTED stream whose partner it names and that no handoff moves, and else refused. Where a condition
does not hold nothing changes. R420 to R422, R424, R429, R433, R437: the partner's side: an open under a fence record that is
not lower gets a record of its own in place of the one of its stream, or its refusal's cause; a newer snapshot is kept, an
older one is not, and both are acknowledged; a mark is kept with the one before it and acknowledged while FLASH is ON; an
open, a snapshot or a mark under a lower fence is refused and told the record held; a close frees the record; a location set
is kept with the corpus. A takeover of a record that has a snapshot is completed under a higher fence when a stream is IDLE
and the image is held, and waits as TAKING_OVER without an IDLE stream. -/
def Obligations.MirrorsOfPairs : Prop :=
  ((∀ (s : State) (n : Nat), n < 64 → s.up = true → s.rmRuns 1 = true → s.sys.step = 0 →
    let p := (s.stream n).prot
    (p.state = 1 → p.openStep ≠ 0 →
      (∀ cause, cause ≠ 0 → exec (.mirrorOpenAck n cause) s = .next (s.unprotect n cause)) ∧
      (p.openStep < 4 → exec (.mirrorOpenAck n 0) s = .next (s.openSend n (p.openStep + 1))) ∧
      (4 ≤ p.openStep → exec (.mirrorOpenAck n 0) s = .next (s.updProt n fun p => { p with state := 2, openStep := 0 }))) ∧
    (∀ cause, p.state ≠ 1 ∨ p.openStep = 0 → exec (.mirrorOpenAck n cause) s = .next s) ∧
    (∀ seq, (∀ u ∈ p.unacked, seq < u.1) → exec (.mirrorAckReceive n seq) s = .next s) ∧
    (p.state ≠ 2 ∨ (∀ u ∈ p.unacked, s.gtc ≤ u.2.2 + 100 * Config.ms) → exec (.mirrorLag n) s = .next s) ∧
    ((s.stream n).state ≠ .running ∨ s.gtc < p.lastMark + 10 * Config.sec ∨ p.pendingMark ≠ none ∨ s.mirrors = false ∨ s.flashOn = false →
      exec (.markTimer n) s = .next s) ∧
    (p.pendingMark = none → ∀ c, exec (.markAckReceive n c) s = .next s) ∧
    (∀ b seq g c d, p.pendingMark = some (b, seq, g, c) → c ≠ d → exec (.markAckReceive n d) s = .next s) ∧
    (∀ seq g, (p.unacked.filter fun u => u.1 ≤ seq).getLast? = some g → ∃ t, exec (.mirrorAckReceive n seq) s = .next t ∧
      (t.stream n).prot.unacked = p.unacked.filter (fun u => !(u.1 ≤ seq)) ∧ (t.stream n).prot.ackedBatch = g.2.1 ∧
      (p.state = 3 → (t.stream n).prot.state = 2)) ∧
    (p.state = 2 → (∃ u ∈ p.unacked, u.2.2 + 100 * Config.ms < s.gtc) →
      exec (.mirrorLag n) s = .next (s.updProt n fun p => { p with state := 3 })) ∧
    ((s.stream n).state = .running → p.lastMark + 10 * Config.sec ≤ s.gtc → p.pendingMark = none → s.mirrors = true →
      s.flashOn = true → ∃ t, exec (.markTimer n) s = .next t ∧ (t.stream n).prot.lastMark = s.gtc ∧
        (t.stream n).snapshot.isSome = true ∧
        (s.mirrored n = false → t.marksOf n = ((t.stream n).snapshot.getD [] :: s.marksOf n).take 2 ∧
          (t.stream n).prot.markGtc = s.gtc) ∧
        (s.mirrored n = true → (t.stream n).prot.pendingMark =
          some ((t.stream n).snapshot.getD [], (t.stream n).snapSeq, s.gtc, s.partnerOf n))) ∧
    (∀ b seq g c, p.pendingMark = some (b, seq, g, c) → exec (.markAckReceive n c) s =
      .next ((s.setMarks n ((b :: s.marksOf n).take 2)).updProt n fun p => { p with markSeq := seq, markGtc := g, pendingMark := none }))) ∧
  ∀ (s t : State) (r : OdReq) (n : Nat) (role : Role), n < 64 →
    (s.ReceivesWrite r (oPartner n) role t → ∃ u : State, exec (.partnerWrite r n) s = u.wroteOk r ∧
      u.stored (oPartner n) = leNat r.data ∧
      ((t.stream n).state = .running → leNat r.data = 0xFFFF → (u.stream n).prot.state = 4 ∧ (u.stream n).prot.cause = 4)) ∧
    (s.ReceivesWrite r (oMoveTo n) role t → t.scrubbing n = false →
      ((t.stream n).state = .running → (t.stream n).prot.state = 2 → t.partnerOf n = leNat r.data →
        (t.stream n).prot.moveTo = none →
        ∃ u : State, exec (.moveTo r n) s = u.wroteOk r ∧ (u.stream n).prot.moveTo = some (leNat r.data)) ∧
      ((t.stream n).state ≠ .running ∨ (t.stream n).prot.state ≠ 2 ∨ t.partnerOf n ≠ leNat r.data ∨ (t.stream n).prot.moveTo ≠ none →
        exec (.moveTo r n) s = t.wroteNot r 0))) ∧
  (∀ s : State, s.up = true → s.rmRuns 1 = true → s.sys.step = 0 →
  (∀ (coord stream : Nat) (o : MirrorOpen),
    let held := s.heldFence o.member.1 o.member.2
    (fenceLt o.fence held = true → exec (.mirrorOpenReceive coord stream o) s =
      .next ((s.count oFenceRefusals 1).emit (.mirror coord mkStale stream (staleBody o.member.1 o.member.2 held)))) ∧
    (fenceLt o.fence held = false →
      let s0 := match s.mirrorFor coord stream with | some r => s.closeRecord r.1 | none => s
      (s0.freeMirror = none → exec (.mirrorOpenReceive coord stream o) s =
        .next (s0.emit (.mirror coord mkOpenAck stream (leBytes 1 3)))) ∧
      ∀ m, s0.freeMirror = some m →
      (s0.openRefused o ≠ 0 → exec (.mirrorOpenReceive coord stream o) s =
        .next (s0.emit (.mirror coord mkOpenAck stream (leBytes 1 (s0.openRefused o))))) ∧
      (s0.openRefused o = 0 → ∃ t x, exec (.mirrorOpenReceive coord stream o) s = .next t ∧ t.mirror m = some x ∧ x.state = 1 ∧
        x.owner = coord ∧ x.stream = stream ∧ x.image = o.image ∧ x.fence = o.fence ∧
        t.out = s.out ++ [.mirror coord mkOpenAck stream [0]]))) ∧
  (∀ (coord stream : Nat), s.mirrorFor coord stream = none → exec (.mirrorCloseReceive coord stream) s = .next s ∧
    ∀ epoch entries, exec (.locationSetReceive coord stream epoch entries) s = .next s) ∧
  (∀ (coord stream owner : Nat) (data : Bytes), s.flashOn = false → exec (.markReceive coord stream owner data) s = .next s) ∧
  (∀ (coord stream m : Nat) (x : Mirror), s.mirrorFor coord stream = some (m, x) →
    (∃ t, exec (.mirrorCloseReceive coord stream) s = .next t ∧ t.mirror m = none) ∧
    (∀ (owner : Nat) (data : Bytes),
      let corpus := fieldAt data 0x98 4
      let member := fieldAt data 0x9C 2
      let f := (fieldAt data 0xA4 4, owner)
      (fenceLt f (s.heldFence corpus member) = true → exec (.mirrorSnapshotReceive coord stream owner data) s =
        .next ((s.count oFenceRefusals 1).emit (.mirror coord mkStale stream (staleBody corpus member (s.heldFence corpus member)))) ∧
        (s.flashOn = true → exec (.markReceive coord stream owner data) s =
          .next ((s.count oFenceRefusals 1).emit (.mirror coord mkStale stream (staleBody corpus member (s.heldFence corpus member)))))) ∧
      (fenceLt f (s.heldFence corpus member) = false →
        (x.seq < fieldAt data 0x10 8 → ∃ t y, exec (.mirrorSnapshotReceive coord stream owner data) s = .next t ∧
          t.mirror m = some y ∧ y.snapshot = data ∧ y.seq = fieldAt data 0x10 8 ∧ y.fence = f ∧ y.state ≠ 1 ∧
          .mirror coord mkSnapAck stream (leBytes 8 (fieldAt data 0x10 8)) ∈ t.out) ∧
        (fieldAt data 0x10 8 ≤ x.seq → x.snapshot ≠ [] → ∃ t y, exec (.mirrorSnapshotReceive coord stream owner data) s = .next t ∧
          t.mirror m = some y ∧ y.snapshot = x.snapshot ∧ y.seq = x.seq ∧
          .mirror coord mkSnapAck stream (leBytes 8 (fieldAt data 0x10 8)) ∈ t.out) ∧
        (s.flashOn = true → ∃ t y, exec (.markReceive coord stream owner data) s = .next t ∧ t.mirror m = some y ∧
          y.marks = (data :: x.marks).take 2 ∧
          .mirror coord mkMarkAck stream (leBytes 8 (fieldAt data 0x10 8)) ∈ t.out))) ∧
    (∀ epoch entries nsid c, s.corpusOf x.member.1 = some (nsid, c) → (s.ns nsid).bind Namespace.corpus = some c → ∃ t q,
      exec (.locationSetReceive coord stream epoch entries) s = .next t ∧ (t.ns nsid).bind Namespace.corpus = some q ∧
      (x.member.2, epoch, entries) ∈ q.locSets)) ∧
  (∀ corpus member epoch, exec (.portionListResendRequest corpus member epoch) s = .next (s.resendTo corpus member epoch)) ∧
  ∀ (m n k : Nat) (x : Mirror), m < Config.mirrors → s.mirror m = some x → x.state ≠ 1 → x.snapshot ≠ [] →
    s.slotWith x.image = some k →
    (s.idleOne = some n → ∃ t e, exec (.takeoverDeferred m) s = .next t ∧ t.mirror m = none ∧ x.fence.1 < e ∧
      .fence x.member.1 x.member.2 e s.rank ∈ t.out) ∧
    (s.idleOne = none → x.state = 3 → exec (.takeoverDeferred m) s = .next s) ∧
    (s.idleOne = none → x.state ≠ 3 → ∃ t, exec (.takeoverDeferred m) s = .next t ∧ t.mirror m = some { x with state := 3 } ∧
      t.streams = s.streams))

/-- R439: DOMAIN_RESET clears its domain: a Caravan's cores, a port's link and cached contexts, or the open-block pointers of
FLASH; it is refused during start-up and for another number. R440, R441: in DEPLOYED and after start-up, a hook that is not
refused acts: SIM_DEATH holds the running streams, PORT_DOWN takes a link down, RM_HANG hangs a processor, CARAVAN_LOSS holds
a Caravan OFF; a refused hook records its case only; a write of 0 or the end of HOOK_SECONDS ends the active hook. In another
life-cycle state and during start-up each is refused. -/
def Obligations.PartialResetsAndHooks : Prop :=
  (∀ (s t : State) (r : OdReq) (role : Role),
  let v := leNat r.data
  s.ReceivesWrite r oDomainReset role t →
  (t.starting = true → exec (.domainReset r) s = t.wroteNot r 0) ∧
  (t.starting = false →
    (0x10 ≤ v → v < 0x40 → ∃ u : State, exec (.domainReset r) s = u.wroteOk r ∧ (∀ c ∈ u.cores, c.1 / 8 ≠ v - 0x10) ∧
      ((t.domain v).heldOff = false → (u.domain v).state = t.stored (oDomainTarget v))) ∧
    (0x40 ≤ v → v < 0x48 → ∃ u : State, exec (.domainReset r) s = u.wroteOk r ∧ (u.port (v - 0x40)).link = .down ∧
      (u.port (v - 0x40)).held = [] ∧ (u.port (v - 0x40)).miss = [] ∧ ∀ q ∈ u.fabric.qps, q.2.cached = false) ∧
    (v = 2 → ∃ u : State, exec (.domainReset r) s = u.wroteOk r ∧ u.flash.map = t.flash.map ∧ u.flash.units = t.flash.units ∧
      ∀ b ∈ u.flash.blocks, b.2.use ≠ .openHost ∧ b.2.use ≠ .openReloc) ∧
    (v ≠ 2 → v < 0x10 ∨ 0x48 ≤ v → exec (.domainReset r) s = t.wroteNot r 0))) ∧
  ((∀ (s t : State) (r : OdReq) (role : Role), s.ReceivesWrite r oHook role t → t.sec.lc ≠ lcDeployed ∨ t.starting = true →
    (leNat r.data = 0 → exec (.hookEnd r) s = t.wroteNot r 0) ∧ (leNat r.data = 1 → exec (.simDeath r) s = t.wroteNot r 0) ∧
    (leNat r.data = 2 → exec (.portDown r) s = t.wroteNot r 0) ∧ (leNat r.data = 3 → exec (.rmHang r) s = t.wroteNot r 0) ∧
    (leNat r.data = 4 → exec (.caravanLoss r) s = t.wroteNot r 0)) ∧
  (∀ (s t : State) (r : OdReq) (role : Role),
    let arg := t.stored oHookArg
    let c := t.hookRefused (leNat r.data) arg
    let until_ := t.gtc + t.stored oHookSeconds * Config.sec
    s.ReceivesWrite r oHook role t → t.sec.lc = lcDeployed → t.starting = false →
    (leNat r.data = 1 →
      (c = 0 → ∃ u : State, exec (.simDeath r) s = u.wroteOk r ∧ u.ft.state = 2 ∧ u.ft.hook = some (1, arg, until_) ∧
        ∀ n, n < 64 → (t.stream n).state = .running → (u.stream n).state = .held) ∧
      (c ≠ 0 → exec (.simDeath r) s = State.wroteNot { t with ft := { t.ft with hookCause := c } } r 0)) ∧
    (leNat r.data = 2 →
      (c = 0 → ∃ u : State, exec (.portDown r) s = u.wroteOk r ∧ u.ft.hook = some (2, arg, until_) ∧
        (u.port arg).link = .down ∧ (u.port arg).cause = 5) ∧
      (c ≠ 0 → exec (.portDown r) s = State.wroteNot { t with ft := { t.ft with hookCause := c } } r 0)) ∧
    (leNat r.data = 3 →
      (c = 0 → ∃ u : State, exec (.rmHang r) s = u.wroteOk r ∧ u.ft.hook = some (3, arg, until_) ∧ (u.rm arg).hung = true) ∧
      (c ≠ 0 → exec (.rmHang r) s = State.wroteNot { t with ft := { t.ft with hookCause := c } } r 0)) ∧
    (leNat r.data = 4 →
      (c = 0 → ∃ u : State, exec (.caravanLoss r) s = u.wroteOk r ∧ u.ft.hook = some (4, arg, until_) ∧
        (u.domain (carDomain arg)).state = 2 ∧ (u.domain (carDomain arg)).heldOff = true ∧ ∀ k ∈ u.cores, k.1 / 8 ≠ arg) ∧
      (c ≠ 0 → exec (.caravanLoss r) s = State.wroteNot { t with ft := { t.ft with hookCause := c } } r 0)) ∧
    (leNat r.data = 0 → exec (.hookEnd r) s = t.endHook.wroteOk r)) ∧
  (∀ s : State, s.up = true → s.ft.hook = none → exec .hookExpiry s = .next s) ∧
  ∀ (s : State) (h arg g : Nat), s.up = true → s.ft.hook = some (h, arg, g) →
    (g ≤ s.gtc → exec .hookExpiry s = .next s.endHook) ∧ (s.gtc < g → exec .hookExpiry s = .next s) ∧ s.endHook.ft.hook = none ∧
    (h = 1 → s.endHook.ft.state = 0 ∧ ∀ n, n < 64 → (s.stream n).state ≠ .idle → (s.endHook.stream n).state = .moved) ∧
    (h = 2 → s.endHook.ft.restoring = some (2, arg)) ∧ (h = 3 → (s.endHook.rm arg).hung = false) ∧
    (h = 4 → (s.endHook.domain (carDomain arg)).heldOff = false ∧ (s.endHook.domain (carDomain arg)).state = 3 ∧
      (s.endHook.domain (carDomain arg)).going = 0))

/-! ## Keys, evidence, the life cycle and the scrub (R444 to R465) -/

/-- R445, R452, R455 to R459. In PROVISIONED and DEPLOYED EVIDENCE_REQ makes EVIDENCE the bytes of R452 for the request, and
keeps its nonce, the time and its tenant among the evidence signed; in each other state it answers KEY_REFUSED. A write of
LC_AUTH is kept. A KEY_RELEASE message that a check of R456 refuses answers the status of that check. One that passes them
all keeps its key: KIND 0 in the release of its tenant and slot, a new one with the tenant and the digest of the message and
no weights, KIND 1 as the tenant's snapshot key; KIND 2 destroys the release that it names and no other key, and each RUNNING
stream goes HELD whose image names a model that is released before and not after. MODEL_WEIGHTS_LOADED reads the ciphertext
of a release without weights that a resident image of its tenant names: where its tag and digest agree it places the
plaintext, else it drops the release, and it reports which; in each other case it changes nothing. -/
def Obligations.KeysAndEvidence : Prop :=
  (∀ (s t : State) (r : OdReq) (role : Role), s.ReceivesWrite r oEvidenceReq role t →
    let b := t.evidenceBytes (sliceZ r.data 0 32) (fieldAt r.data 32 4) (fieldAt r.data 36 8)
    (t.sec.lc = 2 ∨ t.sec.lc = 3 → ∃ u : State, exec (.evidenceReq r) s = u.wroteOk r ∧ u.sec.evidence = b ∧
      ∃ e ∈ u.sec.signed, e.nonce = sliceZ r.data 0 32 ∧ e.gtc = t.gtc ∧ e.tenant = fieldAt r.data 32 4) ∧
    (t.sec.lc ≠ 2 → t.sec.lc ≠ 3 → exec (.evidenceReq r) s = t.wroteNot r stKeyRefused)) ∧
  (∀ (s t : State) (r : OdReq) (role : Role), s.ReceivesWrite r oLcAuth role t →
    exec (.lcAuthWrite r) s = State.wroteOk { t with sec := { t.sec with auth := r.data } } r) ∧
  (∀ (s t : State) (r : OdReq) (role : Role), s.ReceivesWrite r oKeyRelease role t →
    let b := r.data
    let key := (t.unwrap b).getD []
    (releaseKind (leNat b) = 0 →
      (t.releaseCheck b = stSuccess → ∃ (u : State) (x : Release), exec (.modelKeyRelease r) s = u.wroteOk r ∧
        Tbl.find u.sec.released (releaseOf b) = some x ∧ x.key = key ∧
        (Tbl.find t.sec.released (releaseOf b) = none → x.tenant = fieldAt b 8 4 ∧ x.digest = sliceZ b 48 64 ∧ x.loaded = false)) ∧
      (t.releaseCheck b ≠ stSuccess → exec (.modelKeyRelease r) s = t.wroteNot r (t.releaseCheck b))) ∧
    (releaseKind (leNat b) = 1 →
      (t.releaseCheck b = stSuccess → ∃ u : State, exec (.snapshotKeyRelease r) s = u.wroteOk r ∧
        Tbl.find u.sec.snapKeys (fieldAt b 8 4) = some key ∧ u.sec.released = t.sec.released) ∧
      (t.releaseCheck b ≠ stSuccess → exec (.snapshotKeyRelease r) s = t.wroteNot r (t.releaseCheck b))) ∧
    (releaseKind (leNat b) = 2 →
      (t.releaseCheck b = stSuccess → ∃ u : State, exec (.withdraw r) s = u.wroteOk r ∧
        u.sec.released = t.sec.released.filter (fun e => e.1 ≠ releaseOf b) ∧ u.sec.snapKeys = t.sec.snapKeys ∧
        ∀ n, n < 64 → (t.stream n).state = .running →
          (∃ d ∈ imgModels (t.imageOf n).image, t.modelReleased (imageTenant (t.imageOf n)) d = true ∧
            u.modelReleased (imageTenant (t.imageOf n)) d = false) → (u.stream n).state = .held) ∧
      (t.releaseCheck b ≠ stSuccess → exec (.withdraw r) s = t.wroteNot r (t.releaseCheck b)))) ∧
  (∀ (s : State) (slot : Nat) (x : Release) (ref : Bytes), s.up = true → s.rmRuns 2 = true → s.sys.step = 0 →
    Tbl.find s.sec.released slot = some x → x.loaded = false → s.modelRefOf x.tenant x.digest = some ref →
    (∀ w, (s.ciphertext ref).bind (openWeights x.key x.digest) = some w → ∃ t y, exec (.modelWeightsLoaded slot) s = .next t ∧
      Tbl.find t.sec.released slot = some y ∧ y.loaded = true ∧ y.weights = w ∧ y.key = x.key ∧
      t.out = s.out ++ [.modelReport x.tenant (slot % 256) stSuccess]) ∧
    ((s.ciphertext ref).bind (openWeights x.key x.digest) = none → ∃ t, exec (.modelWeightsLoaded slot) s = .next t ∧
      t.sec.released = Tbl.del s.sec.released slot ∧ t.out = s.out ++ [.modelReport x.tenant (slot % 256) stModelDigest])) ∧
  ∀ (s : State) (slot : Nat),
    (∀ x, Tbl.find s.sec.released slot = some x → x.loaded = true ∨ s.modelRefOf x.tenant x.digest = none) →
    exec (.modelWeightsLoaded slot) s = .next s

/-- R445, R446, R461 to R464. A write of LC_STATE that is not its present value is a transition: where R445 gives it, no
stream runs, no scrub runs, no transition waits and a count is left, RMA and SCRAPPED begin a scrub of DEVICE scope that ends
with the transition, and each other state is burnt, which draws a count and destroys every released key; else it is refused.
A write of the present value is accepted. A write of SCRUB_TENANT answers SCRUB_IN_PROGRESS while a scrub runs; else it
begins the scrub of a tenant that a slot names, or that of the device while every stream is IDLE or MOVED and no mirror is
held, and is refused otherwise. SCRUB_STEP_DONE takes the scrub from each step to the next: after step 1 no image and no
protection domain of the scope is left, after step 2 no released key and no snapshot key, at step 4 each DRAM key of the
scope is changed, and overwriting, where SCRUB_OVERWRITE asks for it, is one more such command; after step 5 no namespace of
the scope is a corpus; the last step reports the scrub, burns the state that waits for it, and begins a warm reset that
waits. With no scrub it changes nothing. -/
def Obligations.LifeCycleAndScrub : Prop :=
  (∀ (s t : State) (r : OdReq) (role : Role), s.ReceivesWrite r oLcState role t →
    let v := leNat r.data
    let ok := t.transitionOk (role == .factory) v = true ∧ t.streamsIdle = true ∧ t.sec.pending = none ∧ t.sec.scrub = none ∧
      Tbl.get t.drawn 0 oLcState < 5
    (ok → v ≠ 4 → v ≠ 5 → ∃ u : State, exec (.lcStateWrite r) s = u.wroteOk r ∧ u.sec.pending = some v ∧ u.sec.released = [] ∧
      u.sec.snapKeys = [] ∧ Tbl.get u.drawn 0 oLcState = Tbl.get t.drawn 0 oLcState + 1) ∧
    (ok → v = 4 ∨ v = 5 → ∃ (u : State) (b : Scrub), exec (.lcStateWrite r) s = u.wroteOk r ∧ u.sec.scrub = some b ∧
      b.scope = 0xFFFFFFFF ∧ b.thenState = some v ∧ b.step = 1 ∧ u.sec.pending = none) ∧
    (v = t.sec.lc → exec (.lcStateWrite r) s = t.wroteOk r) ∧
    (¬ ok → v ≠ t.sec.lc → exec (.lcStateWrite r) s = t.wroteNot r 0)) ∧
  (∀ (s t : State) (r : OdReq) (role : Role), s.ReceivesWrite r oScrubTenant role t →
    let v := leNat r.data
    (v ≠ 0xFFFFFFFF → (t.tenantSlot v).isSome = true → t.sec.scrub = none → ∃ (u : State) (b : Scrub),
      exec (.scrubTenantScope r) s = u.wroteOk r ∧ u.sec.scrub = some b ∧ b.scope = v ∧ b.step = 1 ∧ b.thenState = none ∧
      u.scrubs v = true) ∧
    (v = 0xFFFFFFFF → t.streamsIdle = true → t.ft.mirrors = [] → t.sec.scrub = none → ∃ (u : State) (b : Scrub),
      exec (.scrubDeviceScope r) s = u.wroteOk r ∧ u.sec.scrub = some b ∧ b.scope = v ∧ b.step = 1 ∧ b.thenState = none) ∧
    (v = 0xFFFFFFFF → t.streamsIdle = false ∨ t.ft.mirrors ≠ [] → t.sec.scrub = none →
      exec (.scrubDeviceScope r) s = t.wroteNot r 0) ∧
    (t.sec.scrub ≠ none → v ≠ 0xFFFFFFFF → exec (.scrubTenantScope r) s = t.wroteNot r stScrub) ∧
    (t.sec.scrub ≠ none → v = 0xFFFFFFFF → exec (.scrubDeviceScope r) s = t.wroteNot r stScrub) ∧
    (t.sec.scrub = none → v ≠ 0xFFFFFFFF → t.tenantSlot v = none → exec (.scrubTenantScope r) s = t.wroteNot r 0)) ∧
  (∀ (s : State), s.sec.scrub = none → exec .scrubStepDone s = .next s) ∧
  ∀ (s : State) (b : Scrub), s.up = true → s.rmRuns 2 = true → s.sys.step = 0 → s.sec.scrub = some b →
    (b.step = 1 → ∃ t, exec .scrubStepDone s = .next t ∧ t.sec.scrub = some { b with step := 2, qps := s.scrubQps b.covers } ∧
      (∀ i ∈ t.images, b.covers (imageTenant i.2) = false) ∧ (∀ q ∈ t.fabric.pds, b.covers q.2 = false)) ∧
    (b.step = 2 → ∃ t, exec .scrubStepDone s = .next t ∧ t.sec.scrub = some { b with step := 3 } ∧
      (∀ k ∈ t.sec.released, b.covers (k.1 / 256) = false) ∧ ∀ k ∈ t.sec.snapKeys, b.covers k.1 = false) ∧
    (b.step = 3 → exec .scrubStepDone s = .next { s with sec := { s.sec with scrub := some { b with step := 4 } } }) ∧
    (b.step = 4 → b.overwriting = true → ∃ t, exec .scrubStepDone s = .next t ∧
      t.sec = { s.sec with scrub := some { b with step := 5, overwriting := false } } ∧
      ∀ k ∈ s.scrubKeyIds b, Tbl.get t.granules 0 k = 2) ∧
    (b.step = 4 → b.overwriting = false → ∃ t, exec .scrubStepDone s = .next t ∧
      (∀ n, t.scrubs n = s.scrubs n) ∧
      t.sec.scrub = some (if s.flag oScrubOverwrite then { b with overwriting := true } else { b with step := 5 }) ∧
      (b.scope = 0xFFFFFFFF → ∀ k, 1 ≤ k → k ≤ 33 → Tbl.get t.sec.dramKeys 0 k = Tbl.get s.sec.dramKeys 0 k + 1) ∧
      ∀ k, s.tenantSlot b.scope = some k → b.scope ≠ 0xFFFFFFFF →
        Tbl.get t.sec.dramKeys 0 (k + 1) = Tbl.get s.sec.dramKeys 0 (k + 1) + 1) ∧
    (b.step = 5 → ∃ t, exec .scrubStepDone s = .next t ∧ t.sec.scrub = some { b with step := 6 } ∧
      ∀ x ∈ t.host.nss, b.covers x.2.tenant = true → x.2.corpus = none) ∧
    (b.step = 6 → ∃ t, exec .scrubStepDone s = .next t ∧ t.sec.scrub = none ∧
      t.sec.scrubDone = true ∧ t.sec.scrubGtc = s.gtc ∧ t.sec.waits = false ∧ (b.scope = 0xFFFFFFFF → t.ft.autoRejoin = true) ∧
      (s.sec.waits = false → t.sys = s.sys) ∧
      (s.sec.waits = true → s.sys.flush = none → t.sys.flush = some { why := .warm, began := s.gtc } ∧ t.sys.cause = 4) ∧
      (b.thenState = none → t.sec.pending = s.sec.pending ∧ t.sec.released = s.sec.released) ∧
      ∀ v, b.thenState = some v → t.sec.pending = some v ∧ t.sec.released = [] ∧ t.sec.snapKeys = [] ∧
        Tbl.get t.drawn 0 oLcState = Tbl.get s.drawn 0 oLcState + 1)

/-! ## Rails, clocks, throttle, the hold-up bank and the flush (R469 to R485) -/

/-- R469, R471, R483, of a device that is not in reset or halted. An input below 10.8 V begins a flush as PWR_FAIL_N does,
where none runs, and any other input is only noted. Another rail that fails begins a flush to a halt, where none runs. A
Caravan's rail that fails holds that Caravan OFF with its cores cleared, leaves every other domain as it is, and is counted.
The time of a loss of the reference clock is kept; a return within 10 µs ends the loss and is counted, and an expiry at 10 µs
or later begins a flush to a halt, where none runs; each of them does nothing at another time. R218, R472 to R475, of a
device that is not in reset or halted. A droop of a unit that does not droop already is kept and counted, and on a Caravan it
ends the clock-exact mode, with cause 1, of the streams in EXACT whose mask names that Caravan, and of no other; a recovery
ends the droop. A sample of the junction temperature is kept with the peak: it enters at once the step whose entry point it
reaches, and lies 3 °C below the entry point of its step for 10 ms before that step is left by one. A 1 ms average of the
power above the limit raises its step by one, up to 4, and an average below 95 % of the limit for 10 ms lowers it by one; any
other average leaves it. Where the higher of the two steps changes, the change is counted and no stream is in EXACT. A trip
at 112 °C, or above 105 °C after 1 s above 105 °C at step 4, is counted and begins a flush to a halt, where none runs; at
another temperature it does nothing. -/
def Obligations.RailsClocksAndThrottle : Prop :=
  (∀ (s : State), s.up = true →
  (∀ mv, 10800 ≤ mv ∨ s.sys.flush ≠ none →
    exec (.inputUndervoltage mv) s = .next { s with power := { s.power with inputMv := mv } }) ∧
  (∀ mv, mv < 10800 → s.sys.flush = none → ∃ t, exec (.inputUndervoltage mv) s = .next t ∧ t.power.inputMv = mv ∧
    t.sys.flush = some { why := .powerFail, began := s.gtc } ∧ t.sys.pwrFail = true) ∧
  (s.sys.flush ≠ none → exec .railFault s = .next s) ∧
  (s.sys.flush = none → ∃ t, exec .railFault s = .next t ∧ t.sys.flush = some { why := .haltFault, began := s.gtc } ∧
    t.sys.pwrFail = s.sys.pwrFail) ∧
  (∀ n, n < 48 → ∃ t, exec (.caravanRailFault n) s = .next t ∧ (t.domain (carDomain n)).state = 2 ∧
    (t.domain (carDomain n)).heldOff = true ∧ (∀ k ∈ t.cores, k.1 / 8 ≠ n) ∧ t.sys.flush = s.sys.flush ∧
    t.stored oRailFaults = s.stored oRailFaults + 1 ∧ ∀ d, d ≠ carDomain n → t.domain d = s.domain d) ∧
  (∀ n, 48 ≤ n → exec (.caravanRailFault n) s = .fault .noSuchDomain) ∧
  (s.power.refLost = none →
    exec .refclkLoss s = .next { s with power := { s.power with refLost := some s.gtc } } ∧
    exec .refclkReturn s = .next s ∧ exec .refclkLossExpiry s = .next s) ∧
  ∀ g, s.power.refLost = some g →
    exec .refclkLoss s = .next s ∧
    (s.gtc < g + 10000 → exec .refclkLossExpiry s = .next s ∧ ∃ t, exec .refclkReturn s = .next t ∧ t.power.refLost = none ∧
      t.stored oRefclkLosses = s.stored oRefclkLosses + 1 ∧ t.sys = s.sys) ∧
    (g + 10000 ≤ s.gtc → exec .refclkReturn s = .next s ∧ (s.sys.flush ≠ none → exec .refclkLossExpiry s = .next s) ∧
      (s.sys.flush = none → ∃ t, exec .refclkLossExpiry s = .next t ∧
        t.sys.flush = some { why := .haltFault, began := s.gtc }))) ∧
  (∀ (s : State), s.up = true →
  let follows := fun (t : State) =>
    t.stored oThrottleEvents = s.stored oThrottleEvents + (if t.power.step = s.power.step then 0 else 1) ∧
    ∀ n, n < 64 → (t.stream n).exact.state =
      if t.power.step ≠ s.power.step ∧ (s.stream n).exact.state = 2 then 3 else (s.stream n).exact.state
  (∀ u, u ≤ 48 → u ∉ s.power.droop → ∃ t, exec (.droopTrip u) s = .next t ∧ t.power.droop = s.power.droop ++ [u] ∧
    t.stored oDroopEvents = s.stored oDroopEvents + 1 ∧
    ∀ n, n < 64 → (s.stream n).exact.state = 2 →
      if u < 48 ∧ bit (s.stream n).inForce.mask u = true then (t.stream n).exact.state = 3 ∧ (t.stream n).exact.cause = 1
      else (t.stream n).exact.state = 2) ∧
  (∀ u, u ≤ 48 → u ∈ s.power.droop → exec (.droopTrip u) s = .next s) ∧
  (∀ u, u ≤ 48 → exec (.droopRecover u) s =
    .next { s with power := { s.power with droop := s.power.droop.filter fun x => x ≠ u } }) ∧
  (∀ u, 48 < u → exec (.droopTrip u) s = .fault .noSuchDomain ∧ exec (.droopRecover u) s = .fault .noSuchDomain) ∧
  (∀ j : Int, ∃ t, exec (.junctionSample j) s = .next t ∧ t.power.tj = j ∧ t.power.tjPeak = max s.power.tjPeak j ∧
    t.power.power = s.power.power ∧ follows t ∧
    t.power.hotSince = (if 105 < j ∧ t.power.thermal = 4 then some (s.power.hotSince.getD s.gtc) else none) ∧
    (s.power.thermal < enteredStep j → t.power.thermal = enteredStep j ∧ t.power.coolSince = none) ∧
    (enteredStep j ≤ s.power.thermal → s.power.thermal = 0 ∨ entryPoint s.power.thermal - 3 < j →
      t.power.thermal = s.power.thermal ∧ t.power.coolSince = none) ∧
    (enteredStep j ≤ s.power.thermal → s.power.thermal ≠ 0 → j ≤ entryPoint s.power.thermal - 3 →
      (s.power.coolSince = none → t.power.thermal = s.power.thermal ∧ t.power.coolSince = some s.gtc) ∧
      ∀ g, s.power.coolSince = some g →
        t.power.thermal = if g + 10 * Config.ms ≤ s.gtc then s.power.thermal - 1 else s.power.thermal)) ∧
  (∀ w, ∃ t, exec (.powerAverage w) s = .next t ∧ t.power.inputW = w ∧ t.power.energy = s.power.energy + w ∧
    t.power.thermal = s.power.thermal ∧ follows t ∧
    (s.stored oPkgPowerLimit < w → t.power.power = min 4 (s.power.power + 1) ∧ t.power.lowSince = none) ∧
    (w ≤ s.stored oPkgPowerLimit → s.power.power = 0 ∨ 95 * s.stored oPkgPowerLimit ≤ 100 * w →
      t.power.power = s.power.power ∧ t.power.lowSince = none) ∧
    (w ≤ s.stored oPkgPowerLimit → s.power.power ≠ 0 → 100 * w < 95 * s.stored oPkgPowerLimit →
      (s.power.lowSince = none → t.power.power = s.power.power ∧ t.power.lowSince = some (s.gtc - Config.ms)) ∧
      ∀ g, s.power.lowSince = some g →
        t.power.power = if g + 10 * Config.ms ≤ s.gtc then s.power.power - 1 else s.power.power)) ∧
  ∀ j : Int,
    let long := ∃ g, s.power.hotSince = some g ∧ g + Config.sec ≤ s.gtc ∧ 105 < j
    (112 ≤ j ∨ long → ∃ t, exec (.thermalTrip j) s = .next t ∧ t.stored oThermtrips = s.stored oThermtrips + 1 ∧
      t.sys.flush = some (s.sys.flush.getD { why := .haltFault, began := s.gtc })) ∧
    (j < 112 → ¬ long → exec (.thermalTrip j) s = .next s))

/-- R477 to R481, R541, of a device that is not in reset or halted. A sample of the bank gives its voltage, its current, the
usable energy and the write allowance, which is 0 while the bank is ABSENT or in FAULT. Outside an estimate it sets the state
of the bank and whether the charger is on. In an estimate the first sample gives the ESR where a current flows, and the
samples after it add their charge until the voltage has fallen to 95 % of the first; the capacitance follows from it where
the voltage fell after the ESR step, and the estimate ends. A temperature of the bank is kept with its k_T and the reading of
HU_TEMP, a neighbouring whole degree below 127 °C. HU_TEST_START and HU_TEST_NOW begin an estimate when one may start, the
first only once a period is over; else they change nothing, and the second is refused. -/
def Obligations.HoldUpBank : Prop :=
  (∀ (s : State) (v i : Nat), s.up = true →
    let code := v % 4096
    let amps := (((i % 4096 * 375 / 64 : Nat) : Int) - 12000).natAbs
    ∃ t, exec (.huSample v i) s = .next t ∧ t.hold.mv = code * 75 / 4 ∧ t.hold.ma = ((i % 4096 * 375 / 64 : Nat) : Int) - 12000 ∧
      t.hold.code = code ∧ t.hold.eUsable = f64Floor (t.allowance (voltsOf code)).1 ∧
      t.hold.dAllow = (if t.hold.state = 0 ∨ t.hold.state = 4 then 0 else f64Floor (t.allowance (voltsOf code)).2) ∧
      (s.hold.test = none → t.hold.state = t.bankState ∧ t.hold.charging = s.charges (code * 75 / 4)) ∧
      (∀ v0 nc, s.hold.test = some (v0, none, nc) → t.hold.test = some (v0, some code, nc + 100 * amps) ∧
        t.hold.state = s.hold.state ∧ t.hold.cEst = s.hold.cEst ∧ (amps ≠ 0 → t.hold.esr = (v0 - code) * 18750000 / amps)) ∧
      ∀ v0 v1 nc, s.hold.test = some (v0, some v1, nc) →
        if 100 * code ≤ 95 * v0 then t.hold.test = none ∧ t.hold.state = t.bankState ∧ t.hold.lastTest = s.gtc ∧
          t.hold.charging = true ∧ t.hold.cEst ≠ none ∧
          (code < v1 → t.hold.cEst = some ((nc + 100 * amps) * 4 / (75 * (v1 - code))))
        else t.hold.test = some (v0, some v1, nc + 100 * amps) ∧ t.hold.state = s.hold.state ∧ t.hold.cEst = s.hold.cEst) ∧
  (∀ (s : State), s.up = true →
    (∀ code, exec (.huTempSample code) s = .next { s with hold := { s.hold with temp := bankTemp code, tempRead := bankReading code,
                                                                                kt := ktOf (bankTemp code) } } ∧
      (206 < code → bankReading code = ofSigned 8 (bankTemp code) ∨ bankReading code = ofSigned 8 (bankTemp code + 1))) ∧
    (s.testOk = true → s.hold.lastTest + s.stored oHuTestPeriod * (86400 * Config.sec) ≤ s.gtc → ∃ t,
      exec .huTestStart s = .next t ∧ t.hold.state = 3 ∧ t.hold.charging = false ∧ t.hold.test = some (s.hold.code, none, 0)) ∧
    (s.testOk = false ∨ s.gtc < s.hold.lastTest + s.stored oHuTestPeriod * (86400 * Config.sec) →
      exec .huTestStart s = .next s)) ∧
  ∀ (s t : State) (r : OdReq) (role : Role), s.ReceivesWrite r oHuTestNow role t →
    (t.testOk = true → ∃ u : State, exec (.huTestNow r) s = u.wroteOk r ∧ u.hold.state = 3 ∧ u.hold.charging = false ∧
      u.hold.test = some (t.hold.code, none, 0)) ∧
    (t.testOk = false → exec (.huTestNow r) s = t.wroteNot r 0)

/-- R483, R484, R519 to R522. PWR_FAIL_N low for less than 100 ns does nothing; for 100 ns or more it begins a flush where
none runs, and makes the flush of a warm reset one that ends in a halt; its return is only noted. FLUSH_STEP_DONE takes a
flush from each step to the next: step 3 programs the journal, step 4 the write buffer unless the flush region is being
erased, and no other step changes flash. The last counts the flush and its dirty bytes; then the device is in reset while
RST_N is low, starts where RST_N has been released, and else is halted, in reset or in a warm reset, as the cause of the
flush says. It changes nothing in reset or where no flush runs. -/
def Obligations.FlushSequence : Prop :=
  (∀ (s : State) (ns : Nat), s.up = true →
    (ns < 100 → exec (.pwrFailAssert ns) s = .next s) ∧
    (100 ≤ ns → s.sys.flush = none → ∃ t, exec (.pwrFailAssert ns) s = .next t ∧
      t.sys.flush = some { why := .powerFail, began := s.gtc } ∧ t.sys.pwrFail = true ∧ t.flash = s.flash ∧ t.hold.test = none) ∧
    (∀ f, 100 ≤ ns → s.sys.flush = some f → exec (.pwrFailAssert ns) s =
      .next { s with sys := { s.sys with pwrFail := true
                                         flush := some { f with why := if f.why = .warm then .powerFail else f.why } } })) ∧
  (∀ (s : State), exec .pwrFailRelease s = .next
    { s with sys := { s.sys with pwrFail := false, flush := s.sys.flush.map fun f => { f with returned := true } } }) ∧
  (∀ (s : State), s.sys.inReset = true ∨ s.sys.flush = none → exec .flushStepDone s = .next s) ∧
  ∀ (s : State) (f : Flush), s.sys.inReset = false → s.sys.flush = some f →
    (f.step < 5 → ∃ t, exec .flushStepDone s = .next t ∧ t.sys.flush = some { f with step := f.step + 1 } ∧
      (f.step = 3 → t.flash = { s.flash with journalDone := s.flash.seq }) ∧
      (f.step = 4 → t.flash = if s.flash.erasingFlush then s.flash else { s.flash with flushed := s.flash.wbuf }) ∧
      (f.step ≠ 3 → f.step ≠ 4 → t.flash = s.flash)) ∧
    (5 ≤ f.step → ∃ t, exec .flushStepDone s = .next t ∧ t.sys.flush = none ∧ t.hold.pfCount = s.hold.pfCount + 1 ∧
      t.hold.pfBytes = s.dirtyBytes ∧
      (s.sys.rstLow = true → s.sys.releasePending = false → t.sys.inReset = true ∧ t.sys.cause = 1) ∧
      (s.sys.releasePending = true → t.sys.inReset = false ∧ t.sys.step = 1 ∧ t.sys.cause = 1) ∧
      (s.sys.rstLow = false → s.sys.releasePending = false →
        (f.why = .powerFail → t.sys.halted = true ∧ t.sys.ledFault = 1) ∧
        (f.why = .haltFault → t.sys.halted = true ∧ t.sys.ledFault = 1) ∧
        (f.why = .clockFault → t.sys.halted = true ∧ t.sys.faultCode = 3) ∧
        (f.why = .reset → t.sys.inReset = true ∧ t.sys.cause = 1) ∧
        (f.why = .warm → t.sys.halted = false ∧ t.sys.step = 2 ∧ t.sys.warm = true ∧ t.gtc = s.gtc)))

/-! ## The object dictionary and the management port (R486 to R506, R544) -/

/-- R7, R497, R504, R505, R544. A READ at offset 0 that this device serves answers the RESULT of the first check it fails, or
the length of the value and its first bytes, as many as are asked for and the transport carries, of which it keeps a copy;
TJ_PEAK alone changes by being read. A READ at another offset answers from the copy of the requester, or SEGMENT where it has
none. A DESCRIBE answers NO_OBJECT, RIGHTS, or the descriptor. A request that names another device is forwarded to it. -/
def Obligations.ObjectReads : Prop :=
  ∀ (s t : State) (src : OdSource) (seq idx sub : Nat) (role : Role), idx < 65536 → sub < 256 →
  let key := keyOf idx sub
  s.Admits src seq (enclaveServes key) role t →
  (∀ n, t.readCheck role key ≠ rOk →
    exec (.odRead src seq 0xFFFF idx sub 0 n) s = .next (t.answer src 0x10 seq (t.readCheck role key) 0 [])) ∧
  (∀ n, t.readCheck role key = rOk → ∃ u l, exec (.odRead src seq 0xFFFF idx sub 0 n) s = .next u ∧
    u.out = s.out ++ .odResponse src 0x90 seq rOk 0
      (leBytes 4 (t.odBytes key).length ++ leBytes 4 (min (min n (t.dataLimit src)) (t.odBytes key).length) ++ zeros 4 ++
        (t.odBytes key).take (min n (t.dataLimit src))) :: l ∧
    (∃ c ∈ u.mgmt.copies, c.src = src ∧ c.key = key ∧ c.data = t.odBytes key ∧ c.at_ = t.gtc) ∧
    (key ≠ oTjPeak → u.power = s.power) ∧ (key = oTjPeak → u.power.tjPeak = s.power.tj)) ∧
  (∀ n off, off ≠ 0 → (∀ c ∈ t.mgmt.copies, c.src = src → c.key ≠ key) →
    exec (.odRead src seq 0xFFFF idx sub off n) s = .next (t.answer src 0x10 seq rSegment 0 [])) ∧
  (∀ n off c, off ≠ 0 → t.mgmt.copies.find? (fun c => c.src == src && c.key == key) = some c →
    ∃ u l, exec (.odRead src seq 0xFFFF idx sub off n) s = .next u ∧
      u.out = s.out ++ .odResponse src 0x90 seq rOk 0 (readBody c.data off (min n (t.dataLimit src))) :: l) ∧
  (rowOf key = none ∨ isObject key = false → exec (.odDescribe src seq 0xFFFF idx sub) s = .next (t.answer src 0x13 seq rNoObject 0 [])) ∧
  (∀ d, rowOf key = some d → isObject key = true →
    exec (.odDescribe src seq 0xFFFF idx sub) s = .next (
      if t.mayRead role key = true ∨ bit (t.writeRoles role d key) role.code = true then
        t.answer src 0x13 seq rOk 0 (t.descriptor role d key)
      else t.answer src 0x13 seq rRights 0 [])) ∧
  ∀ s1 target, s.acceptRequest src seq = some s1 → s.goesAway src target = true → s.rm0Serves = true →
    (∀ off n, exec (.odRead src seq target idx sub off n) s = .next (s1.forwardRequest src seq 0x10 target role
      (leBytes 2 idx ++ leBytes 1 sub ++ zeros 1 ++ leBytes 4 off ++ leBytes 4 n))) ∧
    exec (.odDescribe src seq target idx sub) s =
      .next (s1.forwardRequest src seq 0x13 target role (leBytes 2 idx ++ leBytes 1 sub ++ zeros 1))

/-- R8, R10, R493, R497, R498, R504, R544. A whole WRITE that this device serves is answered LENGTH where it does not fit its
transport, else the RESULT of the first check that it fails, which changes nothing but the requester's assembly. A first
segment is kept in an assembly; one that follows it is added, and the last one is a write of the whole; one that follows none
is answered SEGMENT and drops the assembly. A write of PKG_POWER_LIMIT, TELEM_K, TELEM_SET, SCRUB_OVERWRITE or WARM_BIST that
passes the checks stores its value. One of PLACE_GEOMETRY, limited to 64 changes, stores its value and draws a count where it
is a change; with no count left a change is refused with COUNT. WRITE_MANY answers LENGTH for a set out of bounds, MIXED with
the first entry of another server, the RESULT of the first entry that is refused, with no entry applied, or OK with every
entry applied in order. A request that names another device is forwarded. -/
def Obligations.ObjectWrites : Prop :=
  (∀ (s t : State) (src : OdSource) (seq idx sub : Nat) (role : Role) (data : Bytes), idx < 65536 → sub < 256 →
    let key := keyOf idx sub
    s.Admits src seq (enclaveServes key) role t →
    let fits := data.length ≤ 65536 ∧ (t.dataLimit src = 1024 → data.length ≤ 1024)
    (¬ fits → ∀ last off total, exec (.odWrite src seq 0xFFFF idx sub last off total data) s =
      .next (t.answer src 0x11 seq rLength 0 [])) ∧
    (fits → t.writeCheck role key data ≠ rOk →
      exec (.odWrite src seq 0xFFFF idx sub true 0 data.length data) s =
        .next (State.answer (t.setAsm src none) src 0x11 seq (t.writeCheck role key data) 0 [])) ∧
    (∀ total, fits → data.length ≤ total → ∃ u, exec (.odWrite src seq 0xFFFF idx sub false 0 total data) s = .next u ∧
      (∃ a ∈ u.mgmt.asms, a.src = src ∧ a.key = key ∧ a.asm.data = data ∧ a.asm.total = total) ∧
      u.streams = t.streams ∧ u.images = t.images ∧ u.sec = t.sec) ∧
    (∀ last off total, fits → off ≠ 0 →
      (∀ a ∈ t.mgmt.asms, a.src = src → a.key ≠ key ∨ a.asm.total ≠ total ∨ a.asm.data.length ≠ off) →
      exec (.odWrite src seq 0xFFFF idx sub last off total data) s =
        .next (State.answer (t.setAsm src none) src 0x11 seq rSegment 0 [])) ∧
    (∀ a total, fits → t.mgmt.asms.find? (fun x => x.src == src) = some a → a.key = key → a.asm.total = total → a.asm.data ≠ [] →
      let off := a.asm.data.length
      (off + data.length ≤ total → ∃ u, exec (.odWrite src seq 0xFFFF idx sub false off total data) s = .next u ∧
        (∃ x ∈ u.mgmt.asms, x.src = src ∧ x.key = key ∧ x.asm.data = a.asm.data ++ data) ∧ u.streams = t.streams ∧ u.sec = t.sec) ∧
      (off + data.length = total →
        let w := State.writeObject (t.setAsm src none) src role key (a.asm.data ++ data)
        exec (.odWrite src seq 0xFFFF idx sub true off total data) s = .next (w.2.2.answer src 0x11 seq w.1 w.2.1 []))) ∧
    (∀ s1 target last off total, s.acceptRequest src seq = some s1 → s.goesAway src target = true → s.rm0Serves = true →
      exec (.odWrite src seq target idx sub last off total data) s =
        .next (s1.forwardRequest src seq 0x11 target role (writeRequest idx sub last off total data)))) ∧
  (∀ (s t : State) (r : OdReq) (key : Nat) (role : Role), key ∈ [oPkgPowerLimit, oTelemK, oTelemSet, oScrubOverwrite, oWarmBist] →
    s.ReceivesWrite r key role t →
    exec (.odWrite r.src r.seq 0xFFFF (key / 256) (key % 256) true 0 r.data.length r.data) s =
      State.wroteOk (t.store key (leNat r.data)) r ∧
    (t.store key (leNat r.data)).stored key = leNat r.data) ∧
  (∀ (s t : State) (r : OdReq) (role : Role),
    let key := oPlaceGeometry
    let v := normalValue key (leNat r.data)
    s.ReceivesWrite r key role t → ∃ u : State,
      exec (.odWrite r.src r.seq 0xFFFF (key / 256) (key % 256) true 0 r.data.length r.data) s = u.wroteOk r ∧ u.stored key = v ∧
      Tbl.get u.drawn 0 key = Tbl.get t.drawn 0 key + if v = t.odValue key then 0 else 1) ∧
  (∀ (t : State) (data : Bytes), data.length = 8 → t.sec.lc = 3 → Tbl.get t.drawn 0 oPlaceGeometry = 64 →
    geometryOk (normalValue oPlaceGeometry (leNat data)) 32 32 32 = true →
    normalValue oPlaceGeometry (leNat data) ≠ t.odValue oPlaceGeometry → t.writeCheck .operator oPlaceGeometry data = rCount) ∧
  ∀ (s t : State) (src : OdSource) (seq : Nat) (role : Role) (es : List (Nat × Nat × Bytes)),
    s.Admits src seq (es.all fun e => enclaveServes (keyOf e.1 e.2.1)) role t →
    (manyOk es = false → exec (.odWriteMany src seq 0xFFFF es) s =
      .next (t.answer src 0x12 seq rLength 0 (refusedEntry 0xFFFF 0xFF))) ∧
    (manyOk es = true → (∀ e ∈ es, ∀ f ∈ es, enclaveServes (keyOf e.1 e.2.1) = enclaveServes (keyOf f.1 f.2.1)) →
      (∀ e ∈ es, t.writeCheck role (keyOf e.1 e.2.1) e.2.2 ≠ rOk → es.head? = some e →
        exec (.odWriteMany src seq 0xFFFF es) s = .next (t.answer src 0x12 seq (t.writeCheck role (keyOf e.1 e.2.1) e.2.2) 0
          (refusedEntry e.1 e.2.1))) ∧
      (∀ front e back u, es = front ++ e :: back → State.writeAll src role front t = .ok u →
        (u.writeObject src role (keyOf e.1 e.2.1) e.2.2).1 ≠ rOk →
        exec (.odWriteMany src seq 0xFFFF es) s = .next (t.answer src 0x12 seq (u.writeObject src role (keyOf e.1 e.2.1) e.2.2).1
          (u.writeObject src role (keyOf e.1 e.2.1) e.2.2).2.1 (refusedEntry e.1 e.2.1))) ∧
      (∀ u, State.writeAll src role es t = .ok u →
        exec (.odWriteMany src seq 0xFFFF es) s = .next (u.answer src 0x12 seq rOk 0 (refusedEntry 0xFFFF 0xFF)))) ∧
    (∀ a front e back, manyOk es = true → es = a :: (front ++ e :: back) →
      (∀ f ∈ front, enclaveServes (keyOf f.1 f.2.1) = enclaveServes (keyOf a.1 a.2.1)) →
      enclaveServes (keyOf e.1 e.2.1) ≠ enclaveServes (keyOf a.1 a.2.1) →
      exec (.odWriteMany src seq 0xFFFF es) s = .next (t.answer src 0x12 seq rMixed 0 (refusedEntry e.1 e.2.1))) ∧
    (∀ s1 target, s.acceptRequest src seq = some s1 → s.goesAway src target = true → s.rm0Serves = true →
      exec (.odWriteMany src seq target es) s = .next (s1.forwardRequest src seq 0x12 target role
        (leBytes 1 es.length ++ zeros 3 ++ (es.map entryRequest).flatten)))

/-- R499 to R502, R504, R506. OPEN answers BUSY with 8 sessions, RIGHTS without a credential, else the number of a new
session, which no other has, with its role and its key; it is ignored while OPEN is. CLOSE ends its session, as does the
timeout of one that has been idle long enough, with its copies and assemblies; SEGMENT_TIMEOUT drops what has been idle for
10 s. A datagram of more than 1,232 bytes is ignored; an OPEN in one is that OPEN; a READ in one is discarded where no
session has its number or its tag does not verify, answered with the kept response where it repeats the last request of an
established session, and else has the answer and the objects of that READ. A READ that another device forwards for OPERATOR
is served as such; the response to a forwarded request answers its requester; a message that is no frame is only taken. A
setting takes effect when its 100 ms are over, and T1S_LINK follows its changes. -/
def Obligations.SessionsAndDatagrams : Prop :=
  (∀ (s : State) (seq role slot : Nat) (nonce : Bytes), s.sec.lc = 5 ∨ s.gtc < s.mgmt.ignoreUntil →
    exec (.odOpen seq role slot nonce) s = .next s) ∧
  (∀ (s : State) (seq role slot : Nat) (nonce : Bytes), s.up = true → s.sec.lc ≠ 5 → s.mgmt.ignoreUntil ≤ s.gtc →
    (8 ≤ s.mgmt.sessions.length → exec (.odOpen seq role slot nonce) s = .next (s.answerOpen 0 seq rBusy [])) ∧
    (s.mgmt.sessions.length < 8 → s.credential role slot = none →
      exec (.odOpen seq role slot nonce) s = .next (s.answerOpen 0 seq rRights [])) ∧
    (∀ cred, s.mgmt.sessions.length < 8 → s.credential role slot = some cred → ∃ t id salt x,
      exec (.odOpen seq role slot nonce) s = .next t ∧ id ≠ 0 ∧ id < 2 ^ 32 ∧ Tbl.find s.mgmt.sessions id = none ∧
      Tbl.find t.mgmt.sessions id = some x ∧ x.established = false ∧ x.role = (if role = 2 then .factory else .operator) ∧
      x.key = kmac256 cred (sliceZ nonce 0 32 ++ salt ++ leBytes 4 id) 32 "OA1640 OD SESSION" ∧
      .odResponse (.session id) 0x81 seq rOk 0 (leBytes 4 id ++ salt) ∈ t.out)) ∧
  (∀ (s t : State) (id seq : Nat) (role : Role), s.Admits (.session id) seq true role t → ∃ u,
    exec (.odClose id seq) s = .next u ∧ Tbl.find u.mgmt.sessions id = none ∧
    .odResponse (.session id) 0x82 seq rOk 0 [] ∈ u.out ∧ ∀ k, k ≠ id → Tbl.find u.mgmt.sessions k = Tbl.find s.mgmt.sessions k) ∧
  (∀ (s : State) (id : Nat), Tbl.find s.mgmt.sessions id = none → exec (.sessionTimeout id) s = .next s) ∧
  (∀ (s : State) (id : Nat) (x : Session), s.up = true → Tbl.find s.mgmt.sessions id = some x →
    let idle := (if x.established then 60 else 10) * Config.sec
    (s.gtc < x.at_ + idle → exec (.sessionTimeout id) s = .next s) ∧
    (x.at_ + idle ≤ s.gtc → ∃ t, exec (.sessionTimeout id) s = .next t ∧ Tbl.find t.mgmt.sessions id = none ∧
      (∀ c ∈ t.mgmt.copies, c.src ≠ .session id) ∧ ∀ a ∈ t.mgmt.asms, a.src ≠ .session id)) ∧
  (∀ (s : State) (src : OdSource) (key : Nat), s.up = true → ∃ t, exec (.segmentTimeout src key) s = .next t ∧
    (∀ c ∈ t.mgmt.copies, c.src = src → c.key = key → s.gtc < c.at_ + 10 * Config.sec) ∧
    (∀ a ∈ t.mgmt.asms, a.src = src → a.key = key → s.gtc < a.asm.at_ + 10 * Config.sec) ∧ t.mgmt.sessions = s.mgmt.sessions) ∧
  (∀ (s : State) (data : Bytes), s.up = true → s.sec.lc ≠ 5 →
    (1232 < data.length → exec (.mgmtDatagramReceive data) s = .next s) ∧
    (∀ seq role slot nonce, data = odFrame 0x01 0 seq 0xFFFF (leBytes 1 role ++ leBytes 1 slot ++ zeros 2 ++ nonce) →
      seq < 2 ^ 32 → role < 256 → slot < 256 → nonce.length = 32 →
      exec (.mgmtDatagramReceive data) s = exec (.odOpen seq role slot nonce) s) ∧
    ∀ id seq target idx sub off n (tag : Bytes),
      let f := odFrame 0x10 id seq target (leBytes 2 idx ++ leBytes 1 sub ++ zeros 1 ++ leBytes 4 off ++ leBytes 4 n)
      data = f ++ tag → tag.length = 16 → id < 2 ^ 32 → seq < 2 ^ 32 → target < 2 ^ 16 → idx < 2 ^ 16 → sub < 2 ^ 8 →
      off < 2 ^ 32 → n < 2 ^ 32 →
      (Tbl.find s.mgmt.sessions id = none → exec (.mgmtDatagramReceive data) s = .next s.discardFrame) ∧
      ∀ x, Tbl.find s.mgmt.sessions id = some x →
        (tag ≠ odTag x.key f → exec (.mgmtDatagramReceive data) s = .next s.discardFrame) ∧
        (tag = odTag x.key f → x.established = true → x.request = data → ∃ t, exec (.mgmtDatagramReceive data) s = .next t ∧
          t.out = s.out ++ [.datagram id x.response] ∧ t.od = s.od) ∧
        (tag = odTag x.key f → x.established = false ∨ x.request ≠ data → ∃ t u,
          exec (.odRead (.session id) seq target idx sub off n) s = .next t ∧ exec (.mgmtDatagramReceive data) s = .next u ∧
          u.out = t.out ∧ u.od = t.od ∧ u.streams = t.streams)) ∧
  (∀ (s : State) (from_ seq target idx sub off n : Nat), s.up = true → s.rm0Serves = true → from_ < 2 ^ 16 → seq < 2 ^ 32 →
    target < 2 ^ 16 → idx < 2 ^ 16 → sub < 2 ^ 8 → off < 2 ^ 32 → n < 2 ^ 32 →
    let data := odPrefix from_ .operator ++
      odFrame 0x10 0 seq target (leBytes 2 idx ++ leBytes 1 sub ++ zeros 1 ++ leBytes 4 off ++ leBytes 4 n)
    exec (.remoteOdRequest data) s = exec (.odRead (.remote from_ .operator) seq target idx sub off n) (s.takeInbox data)) ∧
  (∀ (s : State) (data : Bytes), s.up = true →
    let f := data.drop 16
    (frameOk f 0 = false → exec (.remoteOdRequest data) s = .next (s.takeInbox data)) ∧
    (frameOk f 0 = true → 0x80 ≤ fieldAt f 5 1 →
      ∀ x, s.mgmt.forwards.find? (fun x => x.op + 0x80 == fieldAt f 5 1 && x.seq == fieldAt f 12 4) = some x →
      exec (.remoteOdRequest data) s =
        .next ((s.takeInbox data).answerForward x.num (fieldAt f 24 1) (fieldAt f 26 2) (f.drop 28)))) ∧
  ∀ (s : State), s.up = true →
    (∃ t, exec .settingsApply s = .next t ∧ (∀ d ∈ t.mgmt.due, s.gtc < d.1) ∧ (∀ d ∈ s.mgmt.due, s.gtc < d.1 → d ∈ t.mgmt.due) ∧
      (∀ d ∈ s.mgmt.due, d.1 ≤ s.gtc → (∀ e ∈ s.mgmt.due, e.2.1 = d.2.1 → e = d) →
        Tbl.find t.mgmt.inForce d.2.1 = some d.2.2)) ∧
    ∀ v, exec (.t1sLinkChange v) s = .next (if v < 3 then { s with mgmt := { s.mgmt with link := v } } else s)

/-! ## Telemetry and the global time counter (R2, R220 to R227, R507 to R510, R540) -/

/-- R507, R508, of Ringmaster 3 that runs on a device in service. At an instant that TELEM_K gives, with a destination, a
record of the objects selected is sampled and numbered, and no stream changes. To the ring it goes as one part, in two pieces
where the end of the ring lies within it, and moves the head, or is dropped and counted where the ring has no room. To the
session that asked its parts go as tagged datagrams, or it is dropped and counted: so where the session is closed, and
whether the port can carry it is open. At another instant, or with no destination, nothing happens. R222 to R225, R241, R354,
R463, R540. A device that is not the root asks, a millisecond after its last exchange or unanswered request, on every port
that it asks on and that is not FENCED, with its time as T1; it asks nothing before, nor without such a port, nor during a
scrub of DEVICE scope. A TIME frame on a linked port asks for the three stamps, which are answered, or answers: the answer to
the device's own T1 gives the delay of its port, and from the parent that remains the best it gives the offset, which steps
the counter before ring admission alone, and sixteen offsets within a tick in a row make it LOCKED. A frame that is not good,
or of another type, changes nothing, and a FENCED port counts it. 64 ms without an exchange take a device that is not the
root into HOLDOVER. GTC_ROOT makes the device FREE with no parent, and its end leaves it without one where no port has one.
An edge is latched within two ticks, and a pulse goes out once for a multiple of 2^24. -/
def Obligations.TelemetryAndTime : Prop :=
  (∀ (s : State), s.up = true → s.rmRuns 3 = true → s.sys.step = 0 →
  let dest := s.stored oTelemDest
  let len := s.stored oTelemRingLen
  let base := s.stored oTelemRingBase
  let es := s.telemKeys.map s.telemEntry
  let rec_ := telemPart s.mgmt.recordSeq s.gtc 0 1 es
  let at_ := s.mgmt.ringHead % max 1 len
  let room := s.mgmt.ringHead - s.stored oTelemRingTail + rec_.length ≤ len
  let ring : List Emit :=
    if bit dest 0 = true ∧ room then
      (if at_ + rec_.length ≤ len then [.dma (base + at_) rec_]
       else [.dma (base + at_) (rec_.take (len - at_)), .dma base (rec_.drop (len - at_))])
    else []
  let lost := if bit dest 0 = true ∧ ¬ room then 1 else 0
  (s.gtc % 2 ^ s.stored oTelemK ≠ 0 ∨ dest = 0 → exec .telemetry s = .next s) ∧
  (s.gtc % 2 ^ s.stored oTelemK = 0 → dest ≠ 0 → ∃ t, exec .telemetry s = .next t ∧
    t.mgmt.recordSeq = (s.mgmt.recordSeq + 1) % 2 ^ 32 ∧ t.streams = s.streams ∧ t.sys = s.sys ∧
    t.mgmt.ringHead = s.mgmt.ringHead + (if bit dest 0 = true ∧ room then rec_.length else 0) ∧
    ((bit dest 1 = false ∧ t.out = s.out ++ ring ∧ t.stored oTelemDropped = s.stored oTelemDropped + lost) ∨
     (bit dest 1 = true ∧ t.out = s.out ++ ring ∧ t.stored oTelemDropped = s.stored oTelemDropped + lost + 1) ∨
     (∃ x, bit dest 1 = true ∧ Tbl.find s.mgmt.sessions s.mgmt.telemSession = some x ∧
       t.stored oTelemDropped = s.stored oTelemDropped + lost ∧
       t.out = s.out ++ ring ++ (telemParts s.mgmt.recordSeq s.gtc es).map fun b =>
         let f := odFrame 0x20 s.mgmt.telemSession 0 s.coord b
         .datagram s.mgmt.telemSession (f ++ odTag x.key f))))) ∧
  ((∀ (s : State), s.up = true →
    let due := (∃ t, s.clk.t1 = some t ∧ t / 64 + Config.ms ≤ s.gtc) ∨
      (s.clk.t1 = none ∧ (s.clk.exchanged = 0 ∨ s.clk.exchanged + Config.ms ≤ s.gtc))
    (s.isRoot = true ∨ ¬ due ∨ s.askPorts = [] → exec .gtcExchange s = .next s) ∧
    (s.isRoot = false → due → s.askPorts ≠ [] → ∃ t, exec .gtcExchange s = .next t ∧ t.clk.t1 = some s.stampNow ∧
      t.out = s.out ++ if s.deviceScrub then [] else
        (s.askPorts.filter fun k => (s.port k).link ≠ .fenced).map fun k =>
          .frame k { ftype := 5, lack := (s.port k).rxSeq, payload := timePayload 0 s.clk.hops s.stampNow 0 0 }) ∧
    (∀ k, s.clk.parent = some k → s.askPorts = [k]) ∧
    (s.isRoot = true ∨ s.clk.state = 0 ∨ s.clk.state = 3 ∨ s.gtc < s.clk.exchanged + 64 * Config.ms →
      exec .gtcHoldover s = .next s) ∧
    (s.isRoot = false → s.clk.state ≠ 0 → s.clk.state ≠ 3 → s.clk.exchanged + 64 * Config.ms ≤ s.gtc → ∃ t,
      exec .gtcHoldover s = .next t ∧ t.clk.state = 3 ∧ t.clk.parent = none ∧ t.clk.hops = 0xFF ∧ t.clk.rate = s.clk.rate ∧
      t.gtc = s.gtc)) ∧
  (∀ (s : State) (k : Nat) (f : Frame) (stamp : Nat), k < 8 → s.up = true →
    (s.linked k = false ∨ f.good = false ∨ f.ftype ≠ 5 → exec (.timeFrameReceive k f stamp) s = .next s) ∧
    (s.linked k = true → f.good = true → f.ftype = 5 → (s.port k).link = .fenced →
      exec (.timeFrameReceive k f stamp) s = .next (s.count (oFencedDrops k) 1))) ∧
  (∀ (s : State) (k : Nat) (f : Frame) (stamp : Nat), k < 8 → s.up = true → s.linked k = true → f.good = true → f.ftype = 5 →
    (s.port k).link ≠ .fenced →
    let t1 := fieldAt f.payload 8 8
    let a : Int := (fieldAt f.payload 16 8 : Int) - t1
    let b : Int := (stamp : Int) - (fieldAt f.payload 24 8 : Int)
    (fieldAt f.payload 0 1 = 0 → s.deviceScrub = false → ∃ t hops, exec (.timeFrameReceive k f stamp) s = .next t ∧
      (s.isRoot = true → hops = 0) ∧ t.gtc = s.gtc ∧
      .frame k { ftype := 5, lack := (s.port k).rxSeq, payload := timePayload 1 hops t1 stamp s.stampNow } ∈ t.out) ∧
    (fieldAt f.payload 0 1 ≠ 0 → s.clk.t1 ≠ some t1 → ∃ t, exec (.timeFrameReceive k f stamp) s = .next t ∧ t.gtc = s.gtc ∧
      t.clk.offset = s.clk.offset ∧ t.clk.delay = s.clk.delay) ∧
    (fieldAt f.payload 0 1 ≠ 0 → s.clk.t1 = some t1 → ∃ t, exec (.timeFrameReceive k f stamp) s = .next t ∧
      Tbl.find t.clk.delay k = some ((a + b) / 2).toNat) ∧
    (fieldAt f.payload 0 1 ≠ 0 → s.clk.t1 = some t1 → s.isRoot = false → s.clk.parent = some k → s.bestParent = some k →
      (s.port k).hops = fieldAt f.payload 1 1 → s.clk.state = 1 ∨ s.clk.state = 2 → ∃ t,
      exec (.timeFrameReceive k f stamp) s = .next t ∧ t.clk.offset = (a - b) / 2 ∧ t.clk.t1 = none ∧
      t.clk.good = (if -64 ≤ (a - b) / 2 ∧ (a - b) / 2 ≤ 64 then s.clk.good + 1 else 0) ∧
      (16 ≤ t.clk.good → t.clk.state = 2) ∧ (t.clk.good < 16 → t.clk.state = s.clk.state) ∧
      t.gtc = if s.sys.step ≠ 0 ∧ s.clk.state = 1 then ((s.gtc : Int) + (a - b) / 2 / 64).toNat % 2 ^ 64 else s.gtc)) ∧
  (∀ (s t : State) (r : OdReq) (role : Role), s.ReceivesWrite r oGtcRoot role t →
    (leNat r.data = 1 → ∃ u : State,
      exec (.gtcRootWrite r) s = u.wroteOk r ∧ u.isRoot = true ∧ u.clk.state = 0 ∧ u.clk.parent = none ∧ u.ownHops = 0) ∧
    (leNat r.data = 0 → ∃ u : State,
      exec (.gtcRootWrite r) s = u.wroteOk r ∧ u.isRoot = false ∧ (t.bestParent = none → u.clk.parent = none ∧ u.clk.hops = 0xFF))) ∧
  ∀ (s : State),
    (s.sys.inReset = true → exec .gtcSyncInEdge s = .next s ∧ exec .gtcSyncOutPulse s = .next s) ∧
    (s.sys.inReset = false → ∃ t, exec .gtcSyncInEdge s = .next t ∧ s.gtc - 2 ≤ t.clk.latch ∧ t.clk.latch ≤ s.gtc + 2 ∧
      t.gtc = s.gtc) ∧
    (s.sys.inReset = false → 2 ^ 24 ≤ s.gtc → s.clk.syncOut ≠ some (s.gtc / 2 ^ 24 * 2 ^ 24) →
      ∃ t, exec .gtcSyncOutPulse s = .next t ∧ t.out = s.out ++ [.syncOut] ∧ exec .gtcSyncOutPulse t = .next t) ∧
    (s.gtc < 2 ^ 24 ∨ s.clk.syncOut = some (s.gtc / 2 ^ 24 * 2 ^ 24) → exec .gtcSyncOutPulse s = .next s))

/-! ## Start-up, resets and BIST (R511 to R531) -/

/-- R513, R514, R522, of a start with no flush. In step 2 the active firmware slot boots where it verifies and its security
version is not below FW_SVN, else the other where it does, and FW_SVN rises to the version that boots; a warm reset goes on
to step 4, another start to step 3; with neither slot the device halts with code 1. In step 3 a PLL that does not lock halts
it with code 2, an alignment that is confirmed gives the phase of the dividers and leads to step 4, and one that is not is
repeated, the third time halting the device with code 3. -/
def Obligations.BootAndAlignment : Prop :=
  ∀ (s : State) (f : StartFacts), s.up = true → s.sys.flush = none →
  let ok := fun k => bit f.fwOk k = true ∧ (s.sec.svn = 0 ∨ s.sec.svn ≤ (Tbl.get s.sec.fw {} k).svn)
  let boots := fun k => ∃ t, exec (.startupStepDone f) s = .next t ∧ t.sec.active = k ∧ t.sys.halted = false ∧
    t.sys.step = (if s.sys.warm then 4 else 3) ∧ t.sec.svn = max s.sec.svn (Tbl.get s.sec.fw {} k).svn
  (s.sys.step = 2 → ok s.sec.active → boots s.sec.active) ∧
  (s.sys.step = 2 → ¬ ok s.sec.active → ok (1 - s.sec.active) → boots (1 - s.sec.active)) ∧
  (s.sys.step = 2 → ¬ ok s.sec.active → ¬ ok (1 - s.sec.active) → ∃ t, exec (.startupStepDone f) s = .next t ∧
    t.sys.halted = true ∧ t.sys.faultCode = 1 ∧ t.sys.ledFault = 2) ∧
  (s.sys.step = 3 → f.pllOk = false → ∃ t, exec (.startupStepDone f) s = .next t ∧ t.sys.halted = true ∧ t.sys.faultCode = 2) ∧
  (s.sys.step = 3 → f.pllOk = true → f.alignOk = true → 
    exec (.startupStepDone f) s = .next (State.toStep { s with clk := { s.clk with phase := some (s.clk.ticks % 20) } } 4)) ∧
  (s.sys.step = 3 → f.pllOk = true → f.alignOk = false →
    (s.sys.alignFails < 2 → ∃ t, exec (.startupStepDone f) s = .next t ∧ t.sys.step = 3 ∧ t.sys.halted = false ∧
      t.sys.alignFails = s.sys.alignFails + 1) ∧
    (2 ≤ s.sys.alignFails → ∃ t, exec (.startupStepDone f) s = .next t ∧ t.sys.halted = true ∧ t.sys.faultCode = 3))

/-- R244, R245, R275, R512, R515, R516, R518, R522, R524, R526, of a device with no flush. Outside a start STARTUP_STEP_DONE
does nothing. Step 1 leads to step 2, but halts a SCRAPPED device. Step 4 switches the spine on and leads to step 5, or to
step 6 in a warm reset without WARM_BIST. Step 5 waits in BLANK; else it halts with the code of a failed unit that has one,
or holds OFF the Caravans and ports that failed and leads to step 6. Step 6 halts with code 5 on fewer than 2 DDR channels
enabled and with code 6 on no NAND target enabled; else the channels, their rate and their capacity are those enabled, the
flash has the geometry of its targets, the domains of both are on, and step 7 follows, which makes an enabled controller
ready and leads to step 8. Step 8 ends the training of every port and leads to step 9. Step 9 ends with ring admission once a
heartbeat has been sent and the counter is LOCKED or has been FREE for 100 ms; until then ring admission does nothing. -/
def Obligations.StartUpSteps : Prop :=
  ∀ (s : State), s.up = true → s.sys.flush = none →
  (∀ f : StartFacts,
    (s.sys.step = 0 → exec (.startupStepDone f) s = .next s) ∧
    (s.sys.step = 1 → s.sec.lc = 5 → ∃ t, exec (.startupStepDone f) s = .next t ∧ t.sys.halted = true ∧ t.sys.ledFault = 1) ∧
    (s.sys.step = 1 → s.sec.lc ≠ 5 → ∃ t, exec (.startupStepDone f) s = .next t ∧ t.sys.step = 2 ∧ t.sec.lc = s.sec.lc) ∧
    (s.sys.step = 4 → ∃ t, exec (.startupStepDone f) s = .next t ∧ (t.domain 0).state = 0 ∧
      t.sys.step = if s.sys.warm = true ∧ s.flag oWarmBist = false then 6 else 5) ∧
    (∀ c, s.sys.step = 5 → s.sec.lc ≠ 0 → f.fatal = some c → ∃ t, exec (.startupStepDone f) s = .next t ∧
      t.sys.halted = true ∧ t.sys.faultCode = c) ∧
    (s.sys.step = 5 → s.sec.lc = 0 → exec (.startupStepDone f) s = .next s) ∧
    (s.sys.step = 5 → s.sec.lc ≠ 0 → f.fatal = none → ∃ t, exec (.startupStepDone f) s = .next t ∧ t.sys.step = 6 ∧
      t.sys.bistState = 2 ∧ t.sys.bistMode = 1 ∧ (∀ n ∈ f.badCaravans, (t.domain (carDomain n)).heldOff = true) ∧
      ∀ k ∈ f.badPorts, (t.domain (portDomain k)).heldOff = true) ∧
    (let noChan := f.bad 3 ++ ((f.bad 4).filter fun u => 17 ≤ u && u ≤ 32).flatMap fun u => (List.range 4).map (4 * (u - 17) + ·)
     let modules := f.ddrEnabled.1
     let n := f.ddrEnabled.2.length
     (s.sys.step = 6 → n < 2 → exec (.startupStepDone f) s = .next (s.fatal 5)) ∧
     (s.sys.step = 6 → 2 ≤ n → f.enabledTargets noChan = [] → exec (.startupStepDone f) s = .next (s.fatal 6)) ∧
     ∀ r rest, s.sys.step = 6 → 2 ≤ n → f.enabledTargets noChan = r :: rest → ∃ t,
      exec (.startupStepDone f) s = .next t ∧ t.sys.step = 7 ∧ t.ddrChannels = stageMask f.ddrEnabled.2 ∧
      t.ddrRate = (if modules.1 = 1 then 12800 else 8800) ∧ t.ddrCapacity = n * modules.1 * modules.2 * 10 ^ 9 ∧
      t.flash.luns = r.luns ∧ t.flash.bpl = r.bpl ∧ t.flash.ppb = r.ppb ∧ (t.domain 1).state = 0 ∧ (t.domain 2).state = 0) ∧
    (9 ≤ s.sys.step → exec (.startupStepDone f) s = .next s) ∧
    (s.sys.step = 7 → ∃ t, exec (.startupStepDone f) s = .next t ∧ t.sys.step = 8 ∧ t.host.ready = s.host.enabled) ∧
    (s.sys.step = 8 → ∃ t, exec (.startupStepDone f) s = .next t ∧ t.sys.step = 9 ∧
      ∀ p ∈ t.fabric.ports, p.2.link ≠ .training ∧ p.2.link ≠ .retrain)) ∧
  (s.sys.step = 9 → s.ft.sent ≠ none → s.clk.state = 2 ∨ (s.clk.state = 0 ∧ s.clk.freeSince + 100 * Config.ms ≤ s.gtc) → ∃ t,
    exec .ringAdmission s = .next t ∧ t.sys.step = 0 ∧ t.sys.warm = false ∧ t.serving = true) ∧
  (s.sys.step ≠ 9 ∨ s.ft.sent = none ∨ ¬ (s.clk.state = 2 ∨ (s.clk.state = 0 ∧ s.clk.freeSince + 100 * Config.ms ≤ s.gtc)) →
    exec .ringAdmission s = .next s)

/-- R220, R511, R519 to R522. RST_N low holds the device in cold reset: at once where nothing waits to be flushed or the
device is halted, else after a flush, a running one where there is one; the cold reset clears the streams, images, jobs,
cores, buffers, released keys and the counter, burns a life-cycle state that waits, and keeps of the objects those that a
reset keeps. The release of RST_N samples the straps and begins the start, or waits for the reset. PERST_N low disables the
controller and switches the host die off, and high switches it on; neither changes the streams, flash, fabric or the system
state. WRST_N low and WARM_RESET begin the flush of a warm reset, outside a start and a flush. A phase monitor that finds a
mismatch after the alignment is counted, and begins a flush, or halts a device that is starting with code 3; before the
alignment it does nothing. -/
def Obligations.ResetsTakeEffect : Prop :=
  (∀ (s : State),
    (s.sys.inReset = true → exec .rstNAssert s = .next { s with sys := { s.sys with rstLow := true } }) ∧
    (∀ f, s.sys.inReset = false → s.sys.flush = some f →
      exec .rstNAssert s = .next { s with sys := { s.sys with rstLow := true } }) ∧
    (s.sys.inReset = false → s.sys.flush = none → s.mustFlush = true → s.sys.halted = false → ∃ t, exec .rstNAssert s = .next t ∧
      t.sys.rstLow = true ∧ t.sys.flush = some { why := .reset, began := s.gtc } ∧ t.sys.inReset = false) ∧
    (s.sys.inReset = false → s.sys.flush = none → s.mustFlush = false ∨ s.sys.halted = true → s.sys.releasePending = false → ∃ t,
      exec .rstNAssert s = .next t ∧ t.sys.inReset = true ∧ t.sys.cause = 1 ∧ t.streams = [] ∧ t.images = [] ∧ t.jobs = [] ∧
      t.cores = [] ∧ t.buffers = [] ∧ t.sec.released = [] ∧ t.sec.snapKeys = [] ∧ t.gtc = 0 ∧ t.pending = s.pending ∧
      t.sec.lc = s.sec.pending.getD s.sec.lc ∧ ∀ e ∈ t.od, keptObject e.1 = true ∧ e ∈ s.od) ∧
    (s.sys.inReset = false → s.sys.flush = none → s.mustFlush = false ∨ s.sys.halted = true → s.sys.releasePending = true → ∃ t,
      exec .rstNAssert s = .next t ∧ t.sys.inReset = false ∧ t.sys.step = 1 ∧ t.streams = [] ∧ t.jobs = []) ∧
    (∀ v, s.sys.rstLow = false → exec (.rstNRelease v) s = .next s) ∧
    (∀ v, s.sys.rstLow = true → s.sys.inReset = true → ∃ t, exec (.rstNRelease v) s = .next t ∧ t.sys.inReset = false ∧
      t.sys.rstLow = false ∧ t.sys.step = 1 ∧ t.sys.straps = v) ∧
    (∀ v, s.sys.rstLow = true → s.sys.inReset = false → ∃ t, exec (.rstNRelease v) s = .next t ∧ t.sys.releasePending = true ∧
      t.sys.inReset = false ∧ t.sys.straps = v) ∧
    (s.sys.inReset = true → exec .perstNAssert s = .next { s with host := { s.host with perst := true } }) ∧
    (s.host.perst = false → exec .perstNRelease s = .next s) ∧
    (s.sys.inReset = false → ∃ t, exec .perstNAssert s = .next t ∧ t.host.perst = true ∧ t.host.enabled = false ∧ t.host.sqs = [] ∧
      (t.domain 3).state = 2 ∧ t.streams = s.streams ∧ t.flash = s.flash ∧ t.fabric = s.fabric ∧ t.sys = s.sys) ∧
    (s.host.perst = true → ∃ t, exec .perstNRelease s = .next t ∧ t.host.perst = false ∧ (t.domain 3).state = 0 ∧ t.sys = s.sys ∧
      t.streams = s.streams ∧ t.flash = s.flash ∧ t.fabric = s.fabric) ∧
    (s.up = true → s.sys.step = 0 → s.sys.flush = none → ∃ t, exec .wrstNAssert s = .next t ∧ t.sys.cause = 2 ∧
      t.sys.flush = some { why := .warm, began := s.gtc }) ∧
    (s.up = true → s.sys.step ≠ 0 ∨ s.sys.flush ≠ none → exec .wrstNAssert s = .next s) ∧
    (s.up = true → s.clk.phase ≠ none → s.sys.step = 0 → ∃ t, exec .phaseMonitorMismatch s = .next t ∧
      t.stored oClockAlignFaults = s.stored oClockAlignFaults + 1 ∧
      t.sys.flush = some (s.sys.flush.getD { why := .clockFault, began := s.gtc })) ∧
    (s.up = true → s.clk.phase ≠ none → s.sys.step ≠ 0 → ∃ t, exec .phaseMonitorMismatch s = .next t ∧ t.sys.halted = true ∧
      t.sys.faultCode = 3 ∧ t.sys.ledFault = 2 ∧ t.stored oClockAlignFaults = s.stored oClockAlignFaults + 1) ∧
    (s.clk.phase = none → exec .phaseMonitorMismatch s = .next s)) ∧
  ∀ (s t : State) (r : OdReq) (role : Role), s.ReceivesWrite r oWarmReset role t →
    (t.sys.step = 0 → t.sys.flush = none →
      ∃ u : State, exec (.warmReset r) s = u.wroteOk r ∧ u.sys.cause = 3 ∧ u.sys.flush = some { why := .warm, began := t.gtc }) ∧
    (t.sys.step ≠ 0 ∨ t.sys.flush ≠ none → exec (.warmReset r) s = t.wroteOk r)

/-- R525 to R531. A write of BIST_RUN runs the groups of its mask, or is DONE at once where the mask is empty; one that R529
or a BLANK device refuses records the case and runs no group. A group that is running ends with its result, group 5 last, and
the run with the last of them; the end of another group changes nothing. The end of a bank under test records a failure in
group 6 and holds OFF a Caravan that failed; whether another bank follows is open, and where none does the group ends. A
write of 1 to SCAN_RUN by FACTORY in MANUFACTURE or RMA begins the scan where the device is not starting, and is refused with
RIGHTS for another role or state; the end of the scan is a cold reset with its start, and nothing where no scan runs. -/
def Obligations.BistAndScan : Prop :=
  (∀ (s t : State) (r : OdReq) (role : Role), s.ReceivesWrite r oBistRun role t →
    let v := leNat r.data
    (t.bistRefused v = 0 → t.sec.lc ≠ 0 → ∃ u : State, exec (.bistRun r) s = u.wroteOk r ∧ u.sys.bistGroups = v ∧
      u.sys.bistState = (if v = 0 then 2 else 1) ∧ u.sys.bistCause = 0) ∧
    (t.bistRefused v ≠ 0 ∨ t.sec.lc = 0 → ∃ u : State, exec (.bistRun r) s = u.wroteNot r 0 ∧
      u.sys.bistState = (if t.sys.bistState = 1 then 1 else 3) ∧ u.sys.bistCause = t.bistRefused v ∧
      u.sys.bistGroups = t.sys.bistGroups ∧ u.streams = t.streams)) ∧
  (∀ (s : State) (g unit fails repairs : Nat), s.up = true → g < 7 → g ≠ 6 → s.sys.bistState = 1 → bit s.sys.bistGroups g = true →
    (g = 5 → s.sys.bistGroups % 32 = 0) → ∃ t x, exec (.bistGroupDone g unit fails repairs) s = .next t ∧
      Tbl.find t.sys.groups g = some x ∧ x.fails = fails ∧ x.repairs = repairs ∧
      x.result = (if fails ≠ 0 then 3 else if repairs ≠ 0 then 2 else 1) ∧ t.sys.bistGroups = setBit s.sys.bistGroups g false ∧
      (setBit s.sys.bistGroups g false = 0 → t.sys.bistState = 2 ∧ t.sys.bistMode = 2 ∧ t.sys.bistGtc = s.gtc)) ∧
  (∀ (s : State) (g unit fails repairs : Nat), g < 7 →
    (g = 6 ∨ s.sys.bistState ≠ 1 ∨ bit s.sys.bistGroups g = false ∨ (g = 5 ∧ s.sys.bistGroups % 32 ≠ 0) →
      exec (.bistGroupDone g unit fails repairs) s = .next s)) ∧
  (∀ (s : State) (g unit fails repairs : Nat), 7 ≤ g → exec (.bistGroupDone g unit fails repairs) s = .fault .noSuchGroup) ∧
  (∀ (s : State) (ok : Bool), s.sys.bistBank = none → exec (.bistBankDone ok) s = .next s) ∧
  (∀ (s : State) (ok : Bool) (region bank : Nat), s.up = true → s.sys.bistBank = some (region, bank) → ∃ t x,
    exec (.bistBankDone ok) s = .next t ∧ Tbl.find t.sys.groups 6 = some x ∧ (ok = false → x.result = 3 ∧ 1 ≤ x.fails) ∧
    (ok = true → x = Tbl.get s.sys.groups {} 6) ∧ (ok = false → bank < 48 → (t.domain (carDomain bank)).heldOff = true) ∧
    (t.sys.bistBank = some (region, bank + 1) ∨ (t.sys.bistBank = none ∧ t.sys.bistGroups = setBit s.sys.bistGroups 6 false))) ∧
  (∀ (s t : State) (r : OdReq) (role : Role), s.ReceivesWrite r oScanRun role t →
    (t.sys.step = 0 → ∃ u : State, exec (.scanRun r) s = u.wroteOk r ∧ u.sys.scan = true ∧ u.up = false) ∧
    (t.sys.step ≠ 0 → exec (.scanRun r) s = t.wroteNot r 0)) ∧
  (∀ (s t : State) (r : OdReq) (role : Role), s.Admits r.src r.seq (enclaveServes oScanRun) role t → r.data = [1] →
    role ≠ .factory ∨ (t.sec.lc ≠ 1 ∧ t.sec.lc ≠ 4) →
    exec (.scanRun r) s = .next (State.answer (t.setAsm r.src none) r.src 0x11 r.seq rRights 0 [])) ∧
  ∀ (s : State),
    (s.sys.scan = true → ∃ t, exec .scanDone s = .next t ∧ t.sys.scan = false ∧ t.sys.step = 1 ∧ t.sys.inReset = false ∧
      t.streams = [] ∧ t.sys.straps = s.sys.straps) ∧
    (s.sys.scan = false → exec .scanDone s = .next s)

/-! ## The block as a whole -/

/-- A step runs the command at the front of the queue on the queue's rest; on an empty queue one tick of the global time
counter passes, which is the model's choice of an idle step (log entry 2): out of cold reset the counter advances by 0, 1 or
2, and by 1 where its rate is nominal. -/
def Obligations.StepRunsTheFrontCommand : Prop :=
  (∀ (c : Instr) (rest : List Instr) (s : State), s.pending = c :: rest → step s = exec c { s with pending := rest }) ∧
  ∀ (s : State), s.pending = [] →
    (s.sys.inReset = true → step s = .next s) ∧
    (s.sys.inReset = false → ∃ t, step s = .next t ∧ t.clk.ticks = s.clk.ticks + 1 ∧ t.pending = [] ∧ t.sys = s.sys ∧ t.out = s.out ∧
      (t.gtc = s.gtc ∨ t.gtc = (s.gtc + 1) % 2 ^ 64 ∨ t.gtc = (s.gtc + 2) % 2 ^ 64) ∧
      (s.clk.rate = 0 → s.clk.state ≠ 2 → s.clk.frac < 2 ^ 32 → t.gtc = (s.gtc + 1) % 2 ^ 64))

/-- R39, R258, R411, R417, R444, R506, R519. What reset leaves: the device is held in reset, nothing waits and nothing has
gone out; every stream is IDLE, no image slot holds an image, no core has a job, every pool is OFF and empty, the domains
that start-up powers are OFF, the ports are DOWN with the roles of their kind, no key is released and no session open; and
every object whose default the object tables give has it. -/
def Obligations.ResetLeaves : Prop :=
  State.reset.sys.inReset = true ∧ State.reset.up = false ∧ State.reset.pending = [] ∧ State.reset.out = [] ∧
  State.reset.sec.released = [] ∧ State.reset.sec.snapKeys = [] ∧ State.reset.mgmt.sessions = [] ∧ State.reset.jobs = [] ∧
  State.reset.devMode = 0 ∧ State.reset.gtc = 0 ∧
  (∀ n, (State.reset.stream n).state = .idle) ∧
  (∀ k, State.reset.hasImage k = false) ∧ (∀ c, (State.reset.core c).job = none ∧ State.reset.core c = {}) ∧
  (∀ p, p < 64 → State.reset.stored (oPoolPlace p) = 0 ∧ (State.reset.pool p).occupied = 0) ∧
  (∀ d, d < 3 → (State.reset.domain d).state = 2) ∧
  (∀ k, k < 8 → (State.reset.port k).link = .down ∧ State.reset.stored (oPortRole k) = if k < 6 then 0 else 1) ∧
  (∀ n, n < 64 → State.reset.stored (oImageSlot n) = 0xFF ∧ State.reset.stored (oClockExact n) = 0) ∧
  State.reset.stored oPkgPowerLimit = 1450 ∧ State.reset.stored oTelemK = 20 ∧ State.reset.coresTidy = true ∧
  ∀ key r, rowOf key = some r → fixedDefault key = none → State.reset.stored key = r.dflt

/-- R511, R519: a step of a device in reset, with no release of RST_N among its commands and no scan, leaves it so: it sends
nothing out, and changes no clock, stream, core, flash or key. -/
def Obligations.HeldInReset : Prop :=
  ∀ (s t : State), s.sys.inReset = true → s.sys.scan = false → (∀ c ∈ s.pending, ∀ v, c ≠ .rstNRelease v) → step s = .next t →
    t.sys.inReset = true ∧ t.sys.scan = false ∧ (∀ c ∈ t.pending, ∀ v, c ≠ .rstNRelease v) ∧ t.out = s.out ∧ t.clk = s.clk ∧
    t.streams = s.streams ∧ t.flash = s.flash ∧ t.sec = s.sec ∧ t.cores = s.cores

/-- R475, R484, R492, R522: a step of a halted device, with no assertion of RST_N among its commands, no flush and no scan,
leaves it so, with the same LED_FAULT and fault code. In a halt that has a fault code a READ of a session that its server
accepts is answered with a value where it names an object of the enclave that the role may read, and with BUSY where it names
another server's. -/
def Obligations.HaltedUntilReset : Prop :=
  (∀ (s t : State), s.sys.halted = true → s.sys.inReset = false → s.sys.scan = false → s.sys.flush = none →
    Instr.rstNAssert ∉ s.pending → step s = .next t →
    t.sys.halted = true ∧ t.sys.inReset = false ∧ t.sys.scan = false ∧ t.sys.flush = none ∧ Instr.rstNAssert ∉ t.pending ∧
    t.sys.ledFault = s.sys.ledFault ∧ t.sys.faultCode = s.sys.faultCode ∧ t.up = false) ∧
  ∀ (s s1 : State) (id seq idx sub n : Nat) (role : Role), s.sys.halted = true → s.sys.inReset = false → s.sys.scan = false →
    s.sys.faultCode ≠ 0 → s.sec.lc ≠ 5 → s.acceptRequest (.session id) seq = some s1 → s1.roleOf (.session id) = some role →
    s1.roleScrubbed role = false →
    (enclaveServes (keyOf idx sub) = true → s1.readCheck role (keyOf idx sub) = rOk → ∃ t body,
      exec (.odRead (.session id) seq 0xFFFF idx sub 0 n) s = .next t ∧ .odResponse (.session id) 0x90 seq rOk 0 body ∈ t.out) ∧
    (enclaveServes (keyOf idx sub) = false →
      exec (.odRead (.session id) seq 0xFFFF idx sub 0 n) s = .next (s1.answer (.session id) 0x10 seq rBusy 0 []))

/-- Every well-formed command answers a next state in every state, but an access of the host to a device physical address
beyond the window of RESULT_DPA: no row of the table is refused, and ordinary data ends no run (R10, R519). -/
def Obligations.WellFormedCommandsNeverStop : Prop :=
  ∀ (c : Instr) (s : State), c.wf = true →
    (∀ dpa, c = .cxlMemRead dpa → dpa < s.stored oResultDpa * gib) →
    (∀ dpa d, c = .cxlMemWrite dpa d → dpa < s.stored oResultDpa * gib) → ∃ t, exec c s = .next t
end

