-- ==== Sys2Proof/Laws/Data.lean ====
section
/-! SUPPORT. The laws of keyed tables and of sparse memory: reading after writing, and the canonical form. -/

namespace Sys2Proof.Machine

open Sys2Proof

/-! ## Keyed tables -/

theorem Tbl.find_set {α : Type} (t : Tbl α) (k j : Nat) (v : α) :
    Tbl.find (Tbl.set t k v) j = if j = k then some v else Tbl.find t j := by
  induction t with
  | nil =>
    by_cases h : j = k
    · subst h; simp [Tbl.set, Tbl.find]
    · simp [Tbl.set, Tbl.find, h, Ne.symm h]
  | cons p r ih =>
    obtain ⟨i, w⟩ := p
    unfold Tbl.set
    by_cases h1 : k < i
    · rw [if_pos h1]
      by_cases h : j = k
      · subst h; simp [Tbl.find]
      · simp [Tbl.find, h, Ne.symm h]
    · rw [if_neg h1]
      by_cases h2 : k = i
      · rw [if_pos h2]; subst h2
        by_cases h : j = k
        · subst h; simp [Tbl.find]
        · simp [Tbl.find, h, Ne.symm h]
      · rw [if_neg h2]
        by_cases h : i = j
        · subst h; simp [Tbl.find, Ne.symm h2]
        · simp only [Tbl.find, if_neg h, ih]

@[simp] theorem Tbl.get_set_self {α : Type} (t : Tbl α) (d : α) (k : Nat) (v : α) : Tbl.get (Tbl.set t k v) d k = v := by
  simp [Tbl.get, Tbl.find_set]

theorem Tbl.get_set {α : Type} (t : Tbl α) (d : α) (k j : Nat) (v : α) :
    Tbl.get (Tbl.set t k v) d j = if j = k then v else Tbl.get t d j := by
  by_cases h : j = k <;> simp [Tbl.get, Tbl.find_set, h]

theorem Tbl.get_set_ne {α : Type} (t : Tbl α) (d : α) {k j : Nat} (v : α) (h : j ≠ k) :
    Tbl.get (Tbl.set t k v) d j = Tbl.get t d j := by
  simp [Tbl.get_set, h]

@[simp] theorem Tbl.get_upd_self {α : Type} (t : Tbl α) (d : α) (k : Nat) (f : α → α) :
    Tbl.get (Tbl.upd t d k f) d k = f (Tbl.get t d k) := by
  simp [Tbl.upd]

theorem Tbl.get_upd {α : Type} (t : Tbl α) (d : α) (k j : Nat) (f : α → α) :
    Tbl.get (Tbl.upd t d k f) d j = if j = k then f (Tbl.get t d k) else Tbl.get t d j := by
  simp [Tbl.upd, Tbl.get_set]

theorem Tbl.mem_set {α : Type} (t : Tbl α) (k : Nat) (v : α) (p : Nat × α) (h : p ∈ Tbl.set t k v) :
    p = (k, v) ∨ p ∈ t := by
  induction t with
  | nil => simpa [Tbl.set] using h
  | cons q r ih =>
    obtain ⟨i, w⟩ := q
    unfold Tbl.set at h
    split at h
    · simpa using h
    · split at h
      · rcases List.mem_cons.mp h with h | h
        · exact .inl h
        · exact .inr (List.mem_cons_of_mem _ h)
      · rcases List.mem_cons.mp h with h | h
        · exact .inr (h ▸ List.mem_cons_self)
        · rcases ih h with h | h
          · exact .inl h
          · exact .inr (List.mem_cons_of_mem _ h)

/-! ## Sparse memory -/

theorem Tbl.find_del {α : Type} (t : Tbl α) (k j : Nat) :
    Tbl.find (Tbl.del t k) j = if j = k then none else Tbl.find t j := by
  induction t with
  | nil => simp [Tbl.del, Tbl.find]
  | cons p r ih =>
    obtain ⟨i, w⟩ := p
    have hd : Tbl.del ((i, w) :: r) k = if i = k then Tbl.del r k else (i, w) :: Tbl.del r k := by
      by_cases h : i = k <;> simp [Tbl.del, h]
    rw [hd]
    by_cases h : i = k
    · subst h
      rw [if_pos rfl, ih]
      by_cases hj : j = i
      · simp [hj]
      · simp [hj, Tbl.find, Ne.symm hj]
    · rw [if_neg h]
      by_cases hi : i = j
      · subst hi; simp [Tbl.find, h]
      · simp only [Tbl.find, if_neg hi, ih]

/-- A byte reads what was last written to it, and a write leaves every other byte alone. -/
theorem Memory.read_write (m : Memory) (a b : Nat) (v : Byte) :
    (m.write a v).read b = if b = a then v else m.read b := by
  unfold Memory.write
  by_cases hv : v = 0
  · rw [if_pos hv]
    by_cases h : b = a <;> simp [Memory.read, Tbl.get, Tbl.find_del, h, hv]
  · rw [if_neg hv]
    simp [Memory.read, Tbl.get_set]

theorem Memory.wfFrom_weaken (r : Memory) (i : Nat) (h : Memory.wfFrom (some i) r = true) (lo : Option Nat)
    (hl : ∀ l, lo = some l → l ≤ i) : Memory.wfFrom lo r = true := by
  cases r with
  | nil => cases lo <;> rfl
  | cons q r =>
    obtain ⟨k, u⟩ := q
    simp [Memory.wfFrom] at h
    cases lo with
    | none => simp [Memory.wfFrom, h.1.2, h.2]
    | some l => have := hl l rfl; simp [Memory.wfFrom, h.1.2, h.2]; omega

theorem Memory.wfFrom_tail {lo : Option Nat} {j : Nat} {w : Byte} {r : Memory} (h : Memory.wfFrom lo ((j, w) :: r) = true) :
    w ≠ 0#8 ∧ Memory.wfFrom (some j) r = true := by
  cases lo <;> simp [Memory.wfFrom] at h <;> simp_all

theorem Memory.wfFrom_del (m : Memory) (lo : Option Nat) (a : Nat) (h : Memory.wfFrom lo m = true) :
    Memory.wfFrom lo (Tbl.del m a) = true := by
  induction m generalizing lo with
  | nil => exact h
  | cons p r ih =>
    obtain ⟨j, w⟩ := p
    have ht := Memory.wfFrom_tail h
    by_cases hj : j = a
    · have hd : Tbl.del ((j, w) :: r) a = Tbl.del r a := by simp [Tbl.del, hj]
      rw [hd]
      refine Memory.wfFrom_weaken _ j (ih _ ht.2) lo ?_
      intro l hl
      subst hl
      simp [Memory.wfFrom] at h
      omega
    · have hd : Tbl.del ((j, w) :: r) a = (j, w) :: Tbl.del r a := by simp [Tbl.del, hj]
      rw [hd]
      have := ih _ ht.2
      cases lo with
      | none => simp [Memory.wfFrom, ht.1, this]
      | some l => simp [Memory.wfFrom] at h; simp [Memory.wfFrom, ht.1, this, h.1.1]

theorem Memory.wfFrom_set (m : Memory) (lo : Option Nat) (a : Nat) (v : Byte) (hv : v ≠ 0#8) (h : Memory.wfFrom lo m = true)
    (hl : ∀ l, lo = some l → l < a) : Memory.wfFrom lo (Tbl.set m a v) = true := by
  induction m generalizing lo with
  | nil =>
    cases lo with
    | none => simp [Tbl.set, Memory.wfFrom, hv]
    | some l => simp [Tbl.set, Memory.wfFrom, hv, hl l rfl]
  | cons p r ih =>
    obtain ⟨j, w⟩ := p
    have ht := Memory.wfFrom_tail h
    unfold Tbl.set
    by_cases h1 : a < j
    · rw [if_pos h1]
      cases lo with
      | none => simp [Memory.wfFrom, hv, h1, ht.1, ht.2]
      | some l => simp [Memory.wfFrom, hv, h1, ht.1, ht.2, hl l rfl]
    · rw [if_neg h1]
      by_cases h2 : a = j
      · rw [if_pos h2]; subst h2
        cases lo with
        | none => simp [Memory.wfFrom, hv, ht.2]
        | some l => simp [Memory.wfFrom, hv, ht.2, hl l rfl]
      · rw [if_neg h2]
        have := ih (some j) ht.2 (by intro l hl; cases hl; omega)
        cases lo with
        | none => simp [Memory.wfFrom, ht.1, this]
        | some l => simp [Memory.wfFrom] at h; simp [Memory.wfFrom, ht.1, this, h.1.1]

/-- A write keeps the canonical form. -/
theorem Memory.wf_write (m : Memory) (a : Nat) (v : Byte) (h : m.wf = true) : (m.write a v).wf = true := by
  unfold Memory.write
  by_cases hv : v = 0
  · rw [if_pos hv]; exact Memory.wfFrom_del m none a h
  · rw [if_neg hv]; exact Memory.wfFrom_set m none a v hv h (by intro l hl; cases hl)

/-- Writing a string of bytes keeps the canonical form. -/
theorem Memory.wf_writeN (m : Memory) (a : Nat) (bs : Bytes) (h : m.wf = true) : (m.writeN a bs).wf = true := by
  induction bs generalizing m a with
  | nil => exact h
  | cons b bs ih => exact ih _ _ (Memory.wf_write m a b h)

/-- After a string of bytes is written, each of its bytes reads as written and every other byte as before. -/
theorem Memory.read_writeN (m : Memory) (a c : Nat) (bs : Bytes) :
    (m.writeN a bs).read c = if a ≤ c ∧ c < a + bs.length then bs.getD (c - a) 0 else m.read c := by
  induction bs generalizing m a with
  | nil =>
    have : ¬ (a ≤ c ∧ c < a + ([] : Bytes).length) := by simp
    rw [if_neg this]; rfl
  | cons b bs ih =>
    simp only [Memory.writeN]
    rw [ih, Memory.read_write]
    by_cases h1 : a + 1 ≤ c ∧ c < a + 1 + bs.length
    · have h2 : a ≤ c ∧ c < a + (b :: bs).length := by simp; omega
      rw [if_pos h1, if_pos h2]
      obtain ⟨d, rfl⟩ := Nat.exists_eq_add_of_le h1.1
      have e1 : a + 1 + d - (a + 1) = d := by omega
      have e2 : a + 1 + d - a = d + 1 := by omega
      rw [e1, e2]; simp
    · rw [if_neg h1]
      by_cases h3 : c = a
      · subst h3
        have h2 : c ≤ c ∧ c < c + (b :: bs).length := by simp
        rw [if_pos rfl, if_pos h2]; simp
      · have h2 : ¬ (a ≤ c ∧ c < a + (b :: bs).length) := by simp; omega
        rw [if_neg h3, if_neg h2]

@[simp] theorem Memory.length_readN (m : Memory) (a n : Nat) : (m.readN a n).length = n := by
  induction n generalizing a with
  | zero => rfl
  | succ n ih => simp [Memory.readN, ih]

theorem Memory.getD_readN (m : Memory) (a n i : Nat) (h : i < n) : (m.readN a n).getD i 0 = m.read (a + i) := by
  induction n generalizing a i with
  | zero => omega
  | succ n ih =>
    cases i with
    | zero => simp [Memory.readN]
    | succ i =>
      have := ih (a + 1) i (by omega)
      simp only [Memory.readN, List.getD_cons_succ, this]
      congr 1; omega

/-! ## Byte strings -/

@[simp] theorem leBytes_length (n v : Nat) : (leBytes n v).length = n := by
  induction n generalizing v with
  | zero => rfl
  | succ n ih => simp [leBytes, ih]

theorem leBytes_getD (n v i : Nat) (h : i < n) : (leBytes n v).getD i 0 = BitVec.ofNat 8 (v / 256 ^ i) := by
  induction n generalizing v i with
  | zero => omega
  | succ n ih =>
    cases i with
    | zero => simp [leBytes]
    | succ i =>
      simp only [leBytes, List.getD_cons_succ]
      rw [ih _ _ (by omega), Nat.div_div_eq_div_mul, Nat.pow_succ, Nat.mul_comm]

theorem leNat_lt (bs : Bytes) : leNat bs < 256 ^ bs.length := by
  induction bs with
  | nil => simp [leNat]
  | cons b bs ih =>
    have := b.isLt
    simp only [leNat, List.length_cons, Nat.pow_succ]
    omega

/-- The little-endian bytes of a string's value are the string. -/
theorem leNat_byte (bs : Bytes) (i : Nat) (h : i < bs.length) : BitVec.ofNat 8 (leNat bs / 256 ^ i) = bs.getD i 0 := by
  induction bs generalizing i with
  | nil => simp at h
  | cons b bs ih =>
    have hb := b.isLt
    cases i with
    | zero =>
      simp only [leNat, Nat.pow_zero, Nat.div_one, List.getD_cons_zero]
      apply BitVec.eq_of_toNat_eq
      simp only [BitVec.toNat_ofNat]
      omega
    | succ i =>
      simp only [leNat, List.getD_cons_succ]
      rw [← ih i (by simpa using h), Nat.pow_succ, Nat.mul_comm (256 ^ i) 256, ← Nat.div_div_eq_div_mul]
      congr 2
      omega

theorem leNat_leBytes (n v : Nat) : leNat (leBytes n v) = v % 256 ^ n := by
  induction n generalizing v with
  | zero => simp [leBytes, leNat, Nat.mod_one]
  | succ n ih =>
    have h : 256 ^ (n + 1) = 256 * 256 ^ n := by rw [Nat.pow_succ, Nat.mul_comm]
    rw [h, Nat.mod_mul]
    simp [leBytes, leNat, ih]

end Sys2Proof.Machine
end

