-- ==== Sys2Proof/Laws/Kernel.lean ====
section
/-! SUPPORT. What the shared operations of the kernel rows do: a row at a word of its own, registers, elements, and the
bytes of a core's windows. -/

namespace Sys2Proof.Machine

open Sys2Proof

/-! ## A row at a word of its own -/

theorem opDefined_of_row {w : Nat} {op : Nat × Nat} (h : (iClass w, iOp w) = op)
    (ho : op ∈ knownOps ∨ op = (4, Config.opVmax.toNat) ∨ op = (4, Config.opVlog2.toNat)) : opDefined w = true := by
  unfold opDefined
  rw [h]
  rcases ho with ho | ho | ho
  · simp [ho]
  · subst ho; simp at h; simp [h.1, h.2]
  · subst ho; simp at h; simp [h.1, h.2]

/-- R97: what a kernel row answers at a word of its own, within the step limit, by what its instruction does. -/
theorem runRow_atWord {s : State} {core id : Nat} {x : Core} {w : Nat} {op : Nat × Nat} {f : Core → Nat → KOut}
    (h : s.AtWord core id x w op) (ho : op ∈ knownOps ∨ op = (4, Config.opVmax.toNat) ∨ op = (4, Config.opVlog2.toNat)) :
    (∀ y, f x w = .next y → runRow core op f s = .next (s.setCore core y)) ∧
    (f x w = .wait → runRow core op f s = .next s) ∧
    (∀ st, f x w = .stop st → runRow core op f s = .next (s.endKernel core id x.stage (.error st))) ∧
    (∀ st len, f x w = .halt st len → runRow core op f s = .next (s.haltKernel core x id st len)) := by
  have hd := opDefined_of_row h.row ho
  obtain ⟨v, hv, rfl⟩ := Option.map_eq_some_iff.mp h.word
  have hl : ¬ x.stepLimit * 1024 ≤ x.steps := Nat.not_le.mpr h.within
  have key : ∀ r : KOut, f x v.toNat = r → runRow core op f s =
      KOut.casesOn r (fun y => .next (s.setCore core y)) (.next s)
        (fun st => .next (s.endKernel core id x.stage (.error st))) fun st len => .next (s.haltKernel core x id st len) := by
    intro r hr
    unfold runRow withCore whenUp
    rw [if_pos h.isCore, h.clocked, h.up]
    simp only [h.here, h.running, hl, hv, hd, h.row, hr, if_false, Bool.not_true, Bool.false_eq_true, ne_eq,
      not_true_eq_false, if_true]
    cases r <;> rfl
  exact ⟨fun y e => key _ e, fun e => key _ e, fun st e => key _ e, fun st len e => key _ e⟩

/-! ## Registers -/

@[simp] theorem Core.xr_zero (x : Core) : x.xr 0 = 0 := rfl

@[simp] theorem Core.setX_zero (x : Core) (v : Word) : x.setX 0 v = x := rfl

@[simp] theorem Core.setP_zero (x : Core) (v : Nat) : x.setP 0 v = x := rfl

theorem Core.xr_setX (x : Core) (r q : Nat) (v : Word) : (x.setX r v).xr q = if q = r ∧ r ≠ 0 then v else x.xr q := by
  unfold Core.setX Core.xr
  by_cases hr : r = 0
  · simp [hr]
  · by_cases hq : q = 0
    · subst hq; simp [hr, Ne.symm hr]
    · simp [hr, hq, Tbl.get_set]

theorem Core.vr_setV (x : Core) (r q v : Nat) : (x.setV r v).vr q = if q = r then v % 2 ^ 1024 else x.vr q := by
  unfold Core.setV Core.vr
  by_cases h : q = r
  · rw [if_pos h, Tbl.get_set, if_pos h]; exact BitVec.toNat_ofNat v 1024
  · rw [if_neg h, Tbl.get_set, if_neg h]

theorem Core.pr_setP (x : Core) (r q v : Nat) :
    (x.setP r v).pr q = if q = r ∧ r ≠ 0 then v % 2 ^ 128 else x.pr q := by
  unfold Core.setP Core.pr
  by_cases hr : r = 0
  · simp [hr]
  · by_cases hq : q = 0
    · subst hq; simp [hr, Ne.symm hr]
    · by_cases h : q = r
      · subst h; simp [hr, Tbl.get_set]
      · simp [hr, hq, h, Tbl.get_set]

theorem Core.vr_lt (x : Core) (r : Nat) : x.vr r < 2 ^ 1024 := (Tbl.get x.v 0 r).isLt

/-! ## Elements -/

theorem packElems_lt (b : Nat) (l : List Nat) : packElems b l < 2 ^ (b * l.length) := by
  induction l with
  | nil => simp [packElems]
  | cons e es ih =>
    have h1 : e % 2 ^ b < 2 ^ b := Nat.mod_lt _ (Nat.two_pow_pos b)
    have h2 : 2 ^ (b * (e :: es).length) = 2 ^ b * 2 ^ (b * es.length) := by
      rw [List.length_cons, Nat.mul_succ, Nat.add_comm, Nat.pow_add]
    rw [h2]
    calc packElems b (e :: es) = e % 2 ^ b + 2 ^ b * packElems b es := rfl
      _ < 2 ^ b + 2 ^ b * packElems b es := by omega
      _ = 2 ^ b * (packElems b es + 1) := by rw [Nat.mul_succ, Nat.add_comm]
      _ ≤ 2 ^ b * 2 ^ (b * es.length) := Nat.mul_le_mul_left _ ih

/-- R60: element i of a register made of elements. -/
theorem elem_packElems (b : Nat) (l : List Nat) (i : Nat) (h : i < l.length) :
    elem (packElems b l) b i = l.getD i 0 % 2 ^ b := by
  induction l generalizing i with
  | nil => simp at h
  | cons e es ih =>
    cases i with
    | zero => simp [elem, packElems, Nat.add_mul_mod_self_left]
    | succ i =>
      have h1 : b * (i + 1) = b + b * i := by rw [Nat.mul_succ, Nat.add_comm]
      have h2 : (e % 2 ^ b + 2 ^ b * packElems b es) / 2 ^ b = packElems b es := by
        rw [Nat.add_mul_div_left _ _ (Nat.two_pow_pos b), Nat.div_eq_of_lt (Nat.mod_lt _ (Nat.two_pow_pos b)), Nat.zero_add]
      unfold elem at ih ⊢
      rw [h1, Nat.pow_add, ← Nat.div_div_eq_div_mul, packElems, h2, ih i (by simpa using h)]
      simp

theorem elem_lt (v b i : Nat) : elem v b i < 2 ^ b := Nat.mod_lt _ (Nat.two_pow_pos b)

/-- R60, R71: what a write of predicated elements leaves in the destination. -/
theorem Core.elem_writeElems (x : Core) (w b n : Nat) (new : Nat → Nat) (hn : b * n ≤ 1024) (i : Nat) (h : i < n) :
    elem ((x.writeElems w b n new).vr (iDst w)) b i =
      if (x.pr (iPred w)).testBit i then new i % 2 ^ b else if iPz w then 0 else elem (x.vr (iDst w)) b i := by
  unfold Core.writeElems
  rw [Core.vr_setV, if_pos rfl]
  have hl := packElems_lt b ((List.range n).map (predicated (x.pr (iPred w)) (iPz w) (elem (x.vr (iDst w)) b) new))
  have hp : 2 ^ (b * n) ≤ 2 ^ 1024 := Nat.pow_le_pow_right (by decide) hn
  rw [List.length_map, List.length_range] at hl
  rw [Nat.mod_eq_of_lt (lt_of_lt_of_le hl hp), elem_packElems _ _ _ (by simpa using h)]
  have hg : ((List.range n).map (predicated (x.pr (iPred w)) (iPz w) (elem (x.vr (iDst w)) b) new)).getD i 0 =
      predicated (x.pr (iPred w)) (iPz w) (elem (x.vr (iDst w)) b) new i := by
    simp [List.getD, h]
  rw [hg]
  unfold predicated
  split
  · rfl
  · split
    · simp
    · exact Nat.mod_eq_of_lt (elem_lt _ _ _)

/-- R60, R71: a write of predicated elements writes them and nothing else. -/
theorem Core.writesElems_writeElems (x : Core) (w b n : Nat) (new : Nat → Nat) (hn : b * n ≤ 1024) :
    x.writesElems (x.writeElems w b n new).advance w b n new := by
  refine ⟨rfl, ?_, ?_⟩
  · intro r hr
    show (x.writeElems w b n new).vr r = x.vr r
    unfold Core.writeElems
    rw [Core.vr_setV, if_neg hr]
  · intro i hi
    exact Core.elem_writeElems x w b n new hn i hi

theorem eBits_mul_eCount (e : Nat) : eBits e * eCount e = 1024 := by
  unfold eCount
  unfold eBits
  split <;> rfl

end Sys2Proof.Machine
end

