-- ==== Sys2Proof/Laws/KernelMemory.lean ====
section
/-! SUPPORT. The bytes that a core loads and stores through its windows, element by element, and the predicate bits that it
writes. -/

namespace Sys2Proof.Machine

open Sys2Proof

theorem addrN {x : Core} {w a : Nat} (h : (a : Int) = ((x.xn (iSrcA w) : Int) + iImm35 w) % 2 ^ 64) : x.addr w = a := by
  unfold Core.addr
  have : ((x.xr (iSrcA w) + BitVec.ofInt 64 (iImm35 w)).toNat : Int) = a := by
    rw [h]
    simp [Core.xn, BitVec.toNat_add, BitVec.toNat_ofInt]
    have : max (iImm35 w % 18446744073709551616) 0 = iImm35 w % 18446744073709551616 := max_eq_left (Int.emod_nonneg _ (by decide))
    rw [this]; simp
  exact_mod_cast this

theorem sliceZ_length (bs : Bytes) (o n : Nat) : (sliceZ bs o n).length = n := by
  simp [sliceZ]

theorem load_length (x : Core) (a n : Nat) : (x.load a n).length = n := by
  unfold Core.load
  split <;> simp [sliceZ_length, zeros]

theorem sliceZ_getD (bs : Bytes) (o n j : Nat) (h : j < n) : (sliceZ bs o n).getD j 0 = bs.getD (o + j) 0 := by
  unfold sliceZ
  simp only [List.getD_eq_getElem?_getD]
  by_cases hj : j < ((bs.drop o).take n).length
  · rw [List.getElem?_append_left hj]
    simp [List.getElem?_take, h]
  · rw [List.getElem?_append_right (by omega)]
    have : bs.length ≤ o + j := by simp at hj; omega
    rw [List.getElem?_eq_none this]
    simp [List.getElem?_replicate]
    split <;> rfl

/- window of a sub range -/

theorem window_sub (x : Core) (a n j : Nat) (hj : j < n) (hn : a % 2^32 + n ≤ 2^32) (hw : x.window a n ≠ .unmapped) :
    x.window (a + j) 1 = x.window a n ∧ (¬ a + n ≤ 20 * 2 ^ 20 → (a + j) % 2 ^ 32 = a % 2 ^ 32 + j ∧ ¬ (a + j + 1 ≤ 20 * 2 ^ 20)) := by
  unfold Core.window at hw ⊢
  by_cases hs : a + n ≤ 20 * 2 ^ 20
  · rw [if_pos hs, if_pos (show a + j + 1 ≤ 20 * 2 ^ 20 by omega)]
    exact ⟨rfl, fun h => absurd hs h⟩
  · simp only [hs, if_false] at hw ⊢
    have hp : (a + j) / 2 ^ 32 = a / 2 ^ 32 := by omega
    have ho : (a + j) % 2 ^ 32 = a % 2 ^ 32 + j := by omega
    have hb : 1 ≤ a / 2 ^ 32 := by
      by_contra hc
      have h0 : a / 2 ^ 32 = 0 := by omega
      have h0' : a / 4294967296 = 0 := h0
      simp [h0'] at hw
    have hs' : ¬ (a + j + 1 ≤ 20 * 2 ^ 20) := by omega
    simp only [hs', if_false, hp, ho]
    split
    · rename_i hc; simp only [hc, if_true] at hw
      split at hw
      · rename_i h2; rw [if_pos h2, if_pos (by omega)]; simp
      · exact absurd rfl hw
    · rename_i hc
      simp only [hc, if_false, Bool.false_eq_true] at hw
      split
      · rename_i h9; simp only [h9, if_true] at hw
        split at hw
        · rename_i h2; rw [if_pos h2, if_pos (by omega)]; simp
        · exact absurd rfl hw
      · rename_i h9; simp only [h9, if_false] at hw
        split
        · rename_i hA; simp only [hA, if_true] at hw
          split at hw
          · rename_i h2; rw [if_pos h2, if_pos (by omega)]; simp
          · exact absurd rfl hw
        · rename_i hA; simp only [hA, if_false] at hw
          split
          · rename_i hB; simp only [hB, if_true] at hw
            cases hx : x.weights with
            | none => simp [hx] at hw
            | some b =>
              simp only [hx] at hw ⊢
              split at hw
              · rename_i h2; rw [if_pos h2, if_pos (by omega)]; simp
              · exact absurd rfl hw
          · rename_i hB; simp only [hB, if_false] at hw; exact absurd rfl hw

theorem load_getD (x : Core) (a n j : Nat) (hj : j < n) (hn : a % 2^32 + n ≤ 2^32) (hw : x.window a n ≠ .unmapped) :
    (x.load a n).getD j 0 = x.byteAt (a + j) := by
  obtain ⟨e, h⟩ := window_sub x a n j hj hn hw
  unfold Core.byteAt Core.load
  rw [e]
  cases hx : x.window a n with
  | unmapped => exact absurd hx hw
  | scratch => simp only; rw [Memory.getD_readN _ _ _ _ hj]; rfl
  | output =>
    have : ¬ a + n ≤ 20 * 2 ^ 20 := by
      intro hs; unfold Core.window at hx; rw [if_pos hs] at hx; cases hx
    simp only; rw [Memory.getD_readN _ _ _ _ hj, (h this).1]; rfl
  | input i =>
    have : ¬ a + n ≤ 20 * 2 ^ 20 := by
      intro hs; unfold Core.window at hx; rw [if_pos hs] at hx; cases hx
    simp only; rw [sliceZ_getD _ _ _ _ hj, (h this).1]
    have := sliceZ_getD (x.inputs.getD i []) (a % 2^32 + j) 1 0 (by decide)
    rw [Nat.add_zero] at this; rw [← this]
    cases sliceZ (x.inputs.getD i []) (a % 2^32 + j) 1 <;> rfl
  | consts =>
    have : ¬ a + n ≤ 20 * 2 ^ 20 := by
      intro hs; unfold Core.window at hx; rw [if_pos hs] at hx; cases hx
    simp only; rw [sliceZ_getD _ _ _ _ hj, (h this).1]
    have := sliceZ_getD x.consts (a % 2^32 + j) 1 0 (by decide)
    rw [Nat.add_zero] at this; rw [← this]
    cases sliceZ x.consts (a % 2^32 + j) 1 <;> rfl
  | weights =>
    have : ¬ a + n ≤ 20 * 2 ^ 20 := by
      intro hs; unfold Core.window at hx; rw [if_pos hs] at hx; cases hx
    simp only; rw [sliceZ_getD _ _ _ _ hj, (h this).1]
    have := sliceZ_getD (x.weights.getD []) (a % 2^32 + j) 1 0 (by decide)
    rw [Nat.add_zero] at this; rw [← this]
    cases sliceZ (x.weights.getD []) (a % 2^32 + j) 1 <;> rfl

theorem aligned_fits {a n : Nat} (hn : n = 1 ∨ n = 2 ∨ n = 4 ∨ n = 8) (ha : a % n = 0) : a % 2 ^ 32 + n ≤ 2 ^ 32 := by
  rcases hn with rfl | rfl | rfl | rfl <;> omega

theorem access_zero {x : Core} {wr : Bool} {a n sz : Nat} (h : x.access wr a n sz = 0) :
    a % sz = 0 ∧ x.window a n ≠ .unmapped ∧ (wr = true → x.window a n = .scratch ∨ x.window a n = .output) := by
  unfold Core.access at h
  split at h
  · cases h
  · rename_i h1
    refine ⟨by simpa using h1, ?_, ?_⟩
    · intro e; rw [e] at h; cases h
    · intro hw
      cases hx : x.window a n <;> rw [hx] at h <;> simp [hw] at h <;> simp

theorem save_window (x : Core) (a : Nat) (b : Bytes) (c n : Nat) : (x.save a b).window c n = x.window c n := by
  unfold Core.save
  split <;> rfl

theorem save_byteAt (x : Core) (a : Nat) (b : Bytes) (hn : a % 2 ^ 32 + b.length ≤ 2 ^ 32) (hl : 0 < b.length)
    (hw : x.window a b.length = .scratch ∨ x.window a b.length = .output) (c : Nat) :
    (x.save a b).byteAt c = if a ≤ c ∧ c < a + b.length then b.getD (c - a) 0 else x.byteAt c := by
  have hwin := save_window x a b c 1
  have hin : a ≤ c ∧ c < a + b.length → x.window c 1 = x.window a b.length ∧
      (¬ a + b.length ≤ 20 * 2 ^ 20 → c % 2 ^ 32 = a % 2 ^ 32 + (c - a)) := by
    intro hc
    have := window_sub x a b.length (c - a) (by omega) hn (by rcases hw with h | h <;> rw [h] <;> simp)
    rw [show a + (c - a) = c by omega] at this
    exact ⟨this.1, fun h => (this.2 h).1⟩
  rcases hw with hw | hw
  · have hs : x.save a b = { x with scratch := x.scratch.writeN a b } := by unfold Core.save; rw [hw]
    unfold Core.byteAt Core.load
    rw [hwin]
    by_cases hc : a ≤ c ∧ c < a + b.length
    · rw [(hin hc).1, hw, hs, if_pos hc]
      show ((x.scratch.writeN a b).readN c 1).headD 0 = _
      simp only [Memory.readN, List.headD_cons]
      rw [Memory.read_writeN, if_pos hc]
    · rw [if_neg hc, hs]
      cases x.window c 1 <;> simp only
      simp only [Memory.readN, List.headD_cons]
      rw [Memory.read_writeN, if_neg hc]
  · have hs : x.save a b = { x with output := x.output.writeN (a % 2 ^ 32) b } := by unfold Core.save; rw [hw]
    have hns : ¬ a + b.length ≤ 20 * 2 ^ 20 := by
      intro h; unfold Core.window at hw; rw [if_pos h] at hw; cases hw
    unfold Core.byteAt Core.load
    rw [hwin]
    by_cases hc : a ≤ c ∧ c < a + b.length
    · rw [(hin hc).1, hw, hs, if_pos hc]
      show ((x.output.writeN (a % 2 ^ 32) b).readN (c % 2 ^ 32) 1).headD 0 = _
      simp only [Memory.readN, List.headD_cons]
      rw [Memory.read_writeN, (hin hc).2 hns, if_pos (by omega)]
      congr 1; omega
    · rw [if_neg hc, hs]
      cases hx : x.window c 1 <;> simp only
      simp only [Memory.readN, List.headD_cons]
      have hpg : ∀ (y n : Nat), x.window y n = .output → y / 2 ^ 32 = 9 := by
        intro y n hy
        unfold Core.window at hy
        by_contra h9
        simp only [h9, if_false] at hy
        split at hy
        · cases hy
        · split at hy
          · split at hy <;> cases hy
          · split at hy
            · split at hy <;> cases hy
            · split at hy
              · split at hy
                · split at hy <;> cases hy
                · cases hy
              · cases hy
      have h1 := hpg _ _ hw
      have h2 := hpg _ _ hx
      rw [Memory.read_writeN, if_neg (by omega)]

theorem worst_zero (l : List Nat) (h : ∀ c ∈ l, c = 0) : worstAccess l = 0 := by
  unfold worstAccess
  have h1 : l.contains 1 = false := by
    rw [List.contains_eq_mem]; simp; intro hc; exact absurd (h 1 hc) (by decide)
  have h2 : l.contains 2 = false := by
    rw [List.contains_eq_mem]; simp; intro hc; exact absurd (h 2 hc) (by decide)
  rw [h1, h2]; rfl

theorem accessAll_zero (x : Core) (wr : Bool) (es : List Nat) (f : Nat → Nat) (sz : Nat) (h : ∀ i ∈ es, x.access wr (f i) sz sz = 0) :
    x.accessAll wr es f sz = 0 := by
  apply worst_zero
  intro c hc
  obtain ⟨i, hi, rfl⟩ := List.mem_map.mp hc
  exact h i hi

theorem blockedAll_false (x : Core) (wr : Bool) (es : List Nat) (f : Nat → Nat) (sz : Nat) (h : ∀ i ∈ es, x.blocked wr (f i) sz = false) :
    x.blockedAll wr es f sz = false := by
  unfold Core.blockedAll
  simp
  intro i hi; simpa using h i hi

theorem accessAll_congr (x : Core) (wr : Bool) (es : List Nat) (f : Nat → Nat) (sz : Nat) (h : ∀ i ∈ es, x.access wr (f i) sz sz = 0 ∧ x.blocked wr (f i) sz = false) :
   x.accessAll wr es f sz = 0 ∧ x.blockedAll wr es f sz = false := ⟨accessAll_zero x wr es f sz fun i hi => (h i hi).1, blockedAll_false x wr es f sz fun i hi => (h i hi).2⟩

theorem kLoad_ok (x : Core) (w : Nat) (f : Nat → Nat)
   (h : ∀ i ∈ activeElems (x.pr (iPred w)) (eCount (iEtype w)), x.access false (f i) (eBytes (iEtype w)) (eBytes (iEtype w)) = 0 ∧ x.blocked false (f i) (eBytes (iEtype w)) = false) :
   kLoadElems x w f = .next (x.writeElems w (eBits (iEtype w)) (eCount (iEtype w)) fun i => leNat (x.load (f i) (eBytes (iEtype w)))).advance := by
  obtain ⟨h1, h2⟩ := accessAll_congr x false _ f _ h
  unfold kLoadElems
  simp only [h1, h2, kAccess]; rfl

theorem vaddrN {x : Core} {w : Nat} {adr : Nat → Nat} (h : ∀ i, (adr i : Int) = ((x.xn (iSrcA w) : Int) + iImm35 w + i * eBytes (iEtype w)) % 2 ^ 64) :
   x.vaddr w = adr := by
  funext i
  unfold Core.vaddr
  have h0 : ((x.addr w : Nat) : Int) = ((x.xn (iSrcA w) : Int) + iImm35 w) % 2 ^ 64 := by
    have : x.addr w = (((x.xn (iSrcA w) : Int) + iImm35 w) % 2 ^ 64).toNat := by
      apply addrN
      rw [Int.toNat_of_nonneg (Int.emod_nonneg _ (by decide))]
    rw [this, Int.toNat_of_nonneg (Int.emod_nonneg _ (by decide))]
  have : (((x.addr w + i * eBytes (iEtype w)) % 2 ^ 64 : Nat) : Int) = adr i := by
    rw [h i]; push_cast; rw [h0]; simp
  exact_mod_cast this

theorem saves (size : Nat) (val adr : Nat → Nat) (hsz : size = 1 ∨ size = 2 ∨ size = 4) :
   ∀ (es : List Nat) (x : Core), es.Pairwise (· < ·) → (∀ i ∈ es, adr i % size = 0 ∧ (x.window (adr i) size = .scratch ∨ x.window (adr i) size = .output)) →
   let y := es.foldl (fun y i => y.save (adr i) (leBytes size (val i))) x
   (∃ a b, y = { x with scratch := a, output := b }) ∧
   (∀ a, (∀ i ∈ es, a < adr i ∨ adr i + size ≤ a) → y.byteAt a = x.byteAt a) ∧
   ∀ i ∈ es, ∀ j, j < size → (∀ k ∈ es, i < k → adr k ≠ adr i) → y.byteAt (adr i + j) = BitVec.ofNat 8 (val i / 256 ^ j) := by
  intro es
  induction es with
  | nil => intro x _ _; exact ⟨⟨x.scratch, x.output, rfl⟩, fun _ _ => rfl, by simp⟩
  | cons e es ih =>
    intro x hp hw
    have hp' := List.pairwise_cons.mp hp
    have hlen : (leBytes size (val e)).length = size := leBytes_length ..
    have he := hw e (by simp)
    have hf : adr e % 2 ^ 32 + size ≤ 2 ^ 32 := aligned_fits (by omega) he.1
    have hpos : 0 < size := by omega
    have hb := save_byteAt x (adr e) (leBytes size (val e)) (by rw [hlen]; exact hf) (by rw [hlen]; exact hpos) (by rw [hlen]; exact he.2)
    rw [hlen] at hb
    obtain ⟨⟨a, b, hy⟩, h1, h2⟩ := ih (x.save (adr e) (leBytes size (val e))) hp'.2 (by
      intro i hi; rw [save_window]; exact hw i (by simp [hi]))
    have hsv : ∃ a b, x.save (adr e) (leBytes size (val e)) = { x with scratch := a, output := b } := by
      unfold Core.save
      split
      · exact ⟨_, _, rfl⟩
      · exact ⟨_, _, rfl⟩
      · exact ⟨x.scratch, x.output, rfl⟩
    obtain ⟨a', b', hs'⟩ := hsv
    simp only [List.foldl_cons]
    refine ⟨⟨a, b, ?_⟩, ?_, ?_⟩
    · rw [hy, hs']
    · intro c hc
      rw [h1 c (fun i hi => hc i (by simp [hi])), hb c, if_neg]
      have := hc e (by simp); omega
    · intro i hi j hj hk
      rcases List.mem_cons.mp hi with rfl | hi'
      · rw [h1 (adr i + j) ?_, hb, if_pos (by omega), show adr i + j - adr i = j by omega, leBytes_getD _ _ _ hj]
        intro k hk'
        have hne := hk k (by simp [hk']) (hp'.1 k hk')
        have hka := (hw k (by simp [hk'])).1
        have hia := he.1
        rcases hsz with rfl | rfl | rfl <;> omega
      · exact h2 i hi' j hj (fun k hk' => hk k (by simp [hk']))

theorem kStore_ok (x : Core) (w : Nat) (f : Nat → Nat)
   (h : ∀ i ∈ activeElems (x.pr (iPred w)) (eCount (iEtype w)), x.access true (f i) (eBytes (iEtype w)) (eBytes (iEtype w)) = 0 ∧ x.blocked true (f i) (eBytes (iEtype w)) = false) :
   ∃ y, kStoreElems x w f = .next y ∧ x.storesElems y (activeElems (x.pr (iPred w)) (eCount (iEtype w))) (eBytes (iEtype w)) f fun i => elem (x.vr (iDst w)) (eBits (iEtype w)) i := by
  obtain ⟨h1, h2⟩ := accessAll_congr x true _ f _ h
  have hsz : eBytes (iEtype w) = 1 ∨ eBytes (iEtype w) = 2 ∨ eBytes (iEtype w) = 4 := by
    unfold eBytes eBits; split <;> simp
  have hp : (activeElems (x.pr (iPred w)) (eCount (iEtype w))).Pairwise (· < ·) := by
    unfold activeElems; exact List.Pairwise.filter _ List.pairwise_lt_range
  have hs := saves (eBytes (iEtype w)) (fun i => elem (x.vr (iDst w)) (eBits (iEtype w)) i) f hsz _ x hp (fun i hi => by
    have := access_zero (h i hi).1; exact ⟨this.1, this.2.2 rfl⟩)
  obtain ⟨⟨a, b, hy⟩, h3, h4⟩ := hs
  refine ⟨Core.advance _, ?_, ?_, h3, h4⟩
  · unfold kStoreElems
    simp only [h1, h2, kAccess]; rfl
  · rw [hy]; rfl

theorem packElems_testBit (l : List Nat) (i : Nat) (h : i < l.length) : (packElems 1 l).testBit i = (l.getD i 0 % 2 == 1) := by
  have := elem_packElems 1 l i h
  unfold elem at this
  rw [Nat.testBit_eq_decide_div_mod_eq]
  simp at this
  rw [this]; simp
  rfl

theorem packBits_lt (f : Nat → Bool) : packBits f < 2 ^ 128 := by
  have := packElems_lt 1 ((List.range 128).map fun i => if f i then 1 else 0)
  simpa [packBits] using this

theorem packBits_testBit (f : Nat → Bool) (i : Nat) (h : i < 128) : (packBits f).testBit i = f i := by
  unfold packBits
  rw [packElems_testBit _ _ (by simpa using h)]
  simp [h]
  cases f i <;> simp

theorem writePred_spec (x : Core) (w n : Nat) (new : Nat → Bool) :
   let y := (x.writePred w n new).advance
   y = { x with p := y.p, pc := x.pc + 1, steps := x.steps + 1 } ∧ (∀ q, q ≠ iDst w % 8 → y.pr q = x.pr q) ∧
    (iDst w % 8 = 0 → y.p = x.p) ∧
    (iDst w % 8 ≠ 0 → ∀ i, i < 128 → (y.pr (iDst w % 8)).testBit i =
      if i < n then (if (x.pr (iPred w)).testBit i then new i else if iPz w then false else (x.pr (iDst w % 8)).testBit i)
      else (x.pr (iDst w % 8)).testBit i) := by
  refine ⟨?_, ?_, ?_, ?_⟩
  · unfold Core.writePred Core.setP Core.advance; simp only; split <;> rfl
  · intro q hq
    show (x.writePred w n new).pr q = _
    unfold Core.writePred
    simp only
    rw [Core.pr_setP, if_neg (by simp [hq])]
  · intro h
    show (x.writePred w n new).p = _
    unfold Core.writePred; simp only; rw [h]; rfl
  · intro h i hi
    show ((x.writePred w n new).pr _).testBit i = _
    unfold Core.writePred
    simp only
    rw [Core.pr_setP, if_pos ⟨rfl, h⟩, Nat.mod_eq_of_lt (packBits_lt _), packBits_testBit _ _ hi]

end Sys2Proof.Machine
end

