-- ==== Sys2Proof/Laws/Od.lean ====
section
/-! SUPPORT. Requests of the object dictionary: what a row that writes one object does with a request that passes the checks
before the owning chapter's. -/

namespace Sys2Proof.Machine

open Sys2Proof

/-- R413: a request that keeps a domain awake touches no mailbox channel. -/
theorem touch_chans (s : State) (d : Nat) : (s.touch d).chans = s.chans := by
  unfold State.touch
  simp only
  split
  · rfl
  · split
    · rfl
    · split
      · rfl
      · rfl

/-- R493, R544: a whole write of an object by a request that passes checks 1 to 7 applies the owning chapter's rule, and
answers with its RESULT and STATUS. -/
theorem odRow_received {s t : State} {r : OdReq} {key : Nat} {own : Nat → Bool} {role : Role}
    (h : s.ReceivesWrite r key role t) (hown : own (leNat r.data) = true) (hk : keyOf (key / 256) (key % 256) = key) :
    odRow key own r s =
      .next (let w := t.writeObject r.src role key r.data; w.2.2.answer r.src 0x11 r.seq w.1 w.2.1 []) := by
  obtain ⟨s1, h1, h2, h3, h4⟩ := h.received
  have hf := h.fits
  have ha : (s.sec.lc = 5) = False := by simp [h.alive]
  have hs : ((!enclaveServes key) && !s.rm0Serves) = false := by
    rcases h.served with e | e <;> simp [e]
  have hg : s.goesAway r.src 0xFFFF = false := by simp [State.goesAway]
  have hlim : ∀ u : State, u.chans = s.chans → u.dataLimit r.src = s.dataLimit r.src := by
    intro u hu
    unfold State.dataLimit State.chan
    rw [hu]
  have hch : s1.chans = s.chans := by
    unfold State.acceptRequest at h1
    split at h1
    · split at h1
      · cases h1
      · split at h1
        · cases h1
        · cases h1; rfl
    · cases h1; rfl
  have key0 : ∀ u : State, u.chans = s.chans → u.setAsm r.src none = t →
      u.serveWrite r.src r.seq key true 0 r.data.length r.data role =
        (let w := t.writeObject r.src role key r.data; w.2.2.answer r.src 0x11 r.seq w.1 w.2.1 []) := by
    intro u hu ht
    unfold State.serveWrite
    have c1 : (decide (65536 < r.data.length) || (decide (u.dataLimit r.src = 1024) && decide (1024 < r.data.length))) = false := by
      rw [hlim u hu]
      have := hf.1; have := hf.2
      simp only [Bool.or_eq_false_iff, Bool.and_eq_false_iff, decide_eq_false_iff_not]
      omega
    simp only [c1, Bool.false_eq_true, if_false]
    have c2 : u.assembled r.src key 0 r.data.length r.data = some r.data := by simp [State.assembled]
    rw [c2]
    simp [ht]
  simp only [odRow, whenEnclave, h.up, hown]
  simp only [Bool.not_true, Bool.and_false, Bool.false_eq_true, if_true, if_false]
  unfold State.writeReq State.gate_
  simp only [hk, ha, if_false, h1, hg, Bool.false_or, hs, Bool.false_eq_true, h2, h3]
  congr 1
  cases hsrc : r.src <;> cases he : enclaveServes key <;> simp only [hsrc, he, State.atServer] at h4 key0 ⊢ <;>
    first
    | exact key0 _ hch h4.symm
    | exact key0 _ ((touch_chans s1 0).trans hch) h4.symm

end Sys2Proof.Machine
end

