-- ==== Sys2Proof/Laws/State.lean ====
section
/-! SUPPORT. The fields of State under each update of Machine/Ops.lean: one lemma per field that the update leaves, then what
the update writes. -/

namespace Sys2Proof.Machine

/-! ## State.updStream -/

@[simp] theorem State.updStream_pending (s : State) (n : Nat) (f : Stream → Stream) : (s.updStream n f).pending = s.pending := rfl
@[simp] theorem State.updStream_out (s : State) (n : Nat) (f : Stream → Stream) : (s.updStream n f).out = s.out := rfl
@[simp] theorem State.updStream_fresh (s : State) (n : Nat) (f : Stream → Stream) : (s.updStream n f).fresh = s.fresh := rfl
@[simp] theorem State.updStream_od (s : State) (n : Nat) (f : Stream → Stream) : (s.updStream n f).od = s.od := rfl
@[simp] theorem State.updStream_drawn (s : State) (n : Nat) (f : Stream → Stream) : (s.updStream n f).drawn = s.drawn := rfl
@[simp] theorem State.updStream_written (s : State) (n : Nat) (f : Stream → Stream) : (s.updStream n f).written = s.written := rfl
@[simp] theorem State.updStream_clk (s : State) (n : Nat) (f : Stream → Stream) : (s.updStream n f).clk = s.clk := rfl
@[simp] theorem State.updStream_images (s : State) (n : Nat) (f : Stream → Stream) : (s.updStream n f).images = s.images := rfl
@[simp] theorem State.updStream_jobs (s : State) (n : Nat) (f : Stream → Stream) : (s.updStream n f).jobs = s.jobs := rfl
@[simp] theorem State.updStream_nextJob (s : State) (n : Nat) (f : Stream → Stream) : (s.updStream n f).nextJob = s.nextJob := rfl
@[simp] theorem State.updStream_lastServed (s : State) (n : Nat) (f : Stream → Stream) : (s.updStream n f).lastServed = s.lastServed := rfl
@[simp] theorem State.updStream_cores (s : State) (n : Nat) (f : Stream → Stream) : (s.updStream n f).cores = s.cores := rfl
@[simp] theorem State.updStream_engines (s : State) (n : Nat) (f : Stream → Stream) : (s.updStream n f).engines = s.engines := rfl
@[simp] theorem State.updStream_spilled (s : State) (n : Nat) (f : Stream → Stream) : (s.updStream n f).spilled = s.spilled := rfl
@[simp] theorem State.updStream_bands (s : State) (n : Nat) (f : Stream → Stream) : (s.updStream n f).bands = s.bands := rfl
@[simp] theorem State.updStream_pools (s : State) (n : Nat) (f : Stream → Stream) : (s.updStream n f).pools = s.pools := rfl
@[simp] theorem State.updStream_buffers (s : State) (n : Nat) (f : Stream → Stream) : (s.updStream n f).buffers = s.buffers := rfl
@[simp] theorem State.updStream_s0Used (s : State) (n : Nat) (f : Stream → Stream) : (s.updStream n f).s0Used = s.s0Used := rfl
@[simp] theorem State.updStream_allocs (s : State) (n : Nat) (f : Stream → Stream) : (s.updStream n f).allocs = s.allocs := rfl
@[simp] theorem State.updStream_charged (s : State) (n : Nat) (f : Stream → Stream) : (s.updStream n f).charged = s.charged := rfl
@[simp] theorem State.updStream_relLog (s : State) (n : Nat) (f : Stream → Stream) : (s.updStream n f).relLog = s.relLog := rfl
@[simp] theorem State.updStream_relCount (s : State) (n : Nat) (f : Stream → Stream) : (s.updStream n f).relCount = s.relCount := rfl
@[simp] theorem State.updStream_dram (s : State) (n : Nat) (f : Stream → Stream) : (s.updStream n f).dram = s.dram := rfl
@[simp] theorem State.updStream_granules (s : State) (n : Nat) (f : Stream → Stream) : (s.updStream n f).granules = s.granules := rfl
@[simp] theorem State.updStream_ddrChannels (s : State) (n : Nat) (f : Stream → Stream) : (s.updStream n f).ddrChannels = s.ddrChannels := rfl
@[simp] theorem State.updStream_ddrRate (s : State) (n : Nat) (f : Stream → Stream) : (s.updStream n f).ddrRate = s.ddrRate := rfl
@[simp] theorem State.updStream_ddrCapacity (s : State) (n : Nat) (f : Stream → Stream) : (s.updStream n f).ddrCapacity = s.ddrCapacity := rfl
@[simp] theorem State.updStream_dramScrub (s : State) (n : Nat) (f : Stream → Stream) : (s.updStream n f).dramScrub = s.dramScrub := rfl
@[simp] theorem State.updStream_oasisScrub (s : State) (n : Nat) (f : Stream → Stream) : (s.updStream n f).oasisScrub = s.oasisScrub := rfl
@[simp] theorem State.updStream_oasisFailed (s : State) (n : Nat) (f : Stream → Stream) : (s.updStream n f).oasisFailed = s.oasisFailed := rfl
@[simp] theorem State.updStream_flash (s : State) (n : Nat) (f : Stream → Stream) : (s.updStream n f).flash = s.flash := rfl
@[simp] theorem State.updStream_host (s : State) (n : Nat) (f : Stream → Stream) : (s.updStream n f).host = s.host := rfl
@[simp] theorem State.updStream_fabric (s : State) (n : Nat) (f : Stream → Stream) : (s.updStream n f).fabric = s.fabric := rfl
@[simp] theorem State.updStream_queues (s : State) (n : Nat) (f : Stream → Stream) : (s.updStream n f).queues = s.queues := rfl
@[simp] theorem State.updStream_gates (s : State) (n : Nat) (f : Stream → Stream) : (s.updStream n f).gates = s.gates := rfl
@[simp] theorem State.updStream_rms (s : State) (n : Nat) (f : Stream → Stream) : (s.updStream n f).rms = s.rms := rfl
@[simp] theorem State.updStream_chans (s : State) (n : Nat) (f : Stream → Stream) : (s.updStream n f).chans = s.chans := rfl
@[simp] theorem State.updStream_notices (s : State) (n : Nat) (f : Stream → Stream) : (s.updStream n f).notices = s.notices := rfl
@[simp] theorem State.updStream_recovery (s : State) (n : Nat) (f : Stream → Stream) : (s.updStream n f).recovery = s.recovery := rfl
@[simp] theorem State.updStream_domains (s : State) (n : Nat) (f : Stream → Stream) : (s.updStream n f).domains = s.domains := rfl
@[simp] theorem State.updStream_offStatus (s : State) (n : Nat) (f : Stream → Stream) : (s.updStream n f).offStatus = s.offStatus := rfl
@[simp] theorem State.updStream_offDomain (s : State) (n : Nat) (f : Stream → Stream) : (s.updStream n f).offDomain = s.offDomain := rfl
@[simp] theorem State.updStream_offAddr (s : State) (n : Nat) (f : Stream → Stream) : (s.updStream n f).offAddr = s.offAddr := rfl
@[simp] theorem State.updStream_offGtc (s : State) (n : Nat) (f : Stream → Stream) : (s.updStream n f).offGtc = s.offGtc := rfl
@[simp] theorem State.updStream_ft (s : State) (n : Nat) (f : Stream → Stream) : (s.updStream n f).ft = s.ft := rfl
@[simp] theorem State.updStream_sec (s : State) (n : Nat) (f : Stream → Stream) : (s.updStream n f).sec = s.sec := rfl
@[simp] theorem State.updStream_power (s : State) (n : Nat) (f : Stream → Stream) : (s.updStream n f).power = s.power := rfl
@[simp] theorem State.updStream_hold (s : State) (n : Nat) (f : Stream → Stream) : (s.updStream n f).hold = s.hold := rfl
@[simp] theorem State.updStream_mgmt (s : State) (n : Nat) (f : Stream → Stream) : (s.updStream n f).mgmt = s.mgmt := rfl
@[simp] theorem State.updStream_sys (s : State) (n : Nat) (f : Stream → Stream) : (s.updStream n f).sys = s.sys := rfl

/-! ## State.updRun -/

@[simp] theorem State.updRun_pending (s : State) (n : Nat) (f : RunSt → RunSt) : (s.updRun n f).pending = s.pending := rfl
@[simp] theorem State.updRun_out (s : State) (n : Nat) (f : RunSt → RunSt) : (s.updRun n f).out = s.out := rfl
@[simp] theorem State.updRun_fresh (s : State) (n : Nat) (f : RunSt → RunSt) : (s.updRun n f).fresh = s.fresh := rfl
@[simp] theorem State.updRun_od (s : State) (n : Nat) (f : RunSt → RunSt) : (s.updRun n f).od = s.od := rfl
@[simp] theorem State.updRun_drawn (s : State) (n : Nat) (f : RunSt → RunSt) : (s.updRun n f).drawn = s.drawn := rfl
@[simp] theorem State.updRun_written (s : State) (n : Nat) (f : RunSt → RunSt) : (s.updRun n f).written = s.written := rfl
@[simp] theorem State.updRun_clk (s : State) (n : Nat) (f : RunSt → RunSt) : (s.updRun n f).clk = s.clk := rfl
@[simp] theorem State.updRun_images (s : State) (n : Nat) (f : RunSt → RunSt) : (s.updRun n f).images = s.images := rfl
@[simp] theorem State.updRun_jobs (s : State) (n : Nat) (f : RunSt → RunSt) : (s.updRun n f).jobs = s.jobs := rfl
@[simp] theorem State.updRun_nextJob (s : State) (n : Nat) (f : RunSt → RunSt) : (s.updRun n f).nextJob = s.nextJob := rfl
@[simp] theorem State.updRun_lastServed (s : State) (n : Nat) (f : RunSt → RunSt) : (s.updRun n f).lastServed = s.lastServed := rfl
@[simp] theorem State.updRun_cores (s : State) (n : Nat) (f : RunSt → RunSt) : (s.updRun n f).cores = s.cores := rfl
@[simp] theorem State.updRun_engines (s : State) (n : Nat) (f : RunSt → RunSt) : (s.updRun n f).engines = s.engines := rfl
@[simp] theorem State.updRun_spilled (s : State) (n : Nat) (f : RunSt → RunSt) : (s.updRun n f).spilled = s.spilled := rfl
@[simp] theorem State.updRun_bands (s : State) (n : Nat) (f : RunSt → RunSt) : (s.updRun n f).bands = s.bands := rfl
@[simp] theorem State.updRun_pools (s : State) (n : Nat) (f : RunSt → RunSt) : (s.updRun n f).pools = s.pools := rfl
@[simp] theorem State.updRun_buffers (s : State) (n : Nat) (f : RunSt → RunSt) : (s.updRun n f).buffers = s.buffers := rfl
@[simp] theorem State.updRun_s0Used (s : State) (n : Nat) (f : RunSt → RunSt) : (s.updRun n f).s0Used = s.s0Used := rfl
@[simp] theorem State.updRun_allocs (s : State) (n : Nat) (f : RunSt → RunSt) : (s.updRun n f).allocs = s.allocs := rfl
@[simp] theorem State.updRun_charged (s : State) (n : Nat) (f : RunSt → RunSt) : (s.updRun n f).charged = s.charged := rfl
@[simp] theorem State.updRun_relLog (s : State) (n : Nat) (f : RunSt → RunSt) : (s.updRun n f).relLog = s.relLog := rfl
@[simp] theorem State.updRun_relCount (s : State) (n : Nat) (f : RunSt → RunSt) : (s.updRun n f).relCount = s.relCount := rfl
@[simp] theorem State.updRun_dram (s : State) (n : Nat) (f : RunSt → RunSt) : (s.updRun n f).dram = s.dram := rfl
@[simp] theorem State.updRun_granules (s : State) (n : Nat) (f : RunSt → RunSt) : (s.updRun n f).granules = s.granules := rfl
@[simp] theorem State.updRun_ddrChannels (s : State) (n : Nat) (f : RunSt → RunSt) : (s.updRun n f).ddrChannels = s.ddrChannels := rfl
@[simp] theorem State.updRun_ddrRate (s : State) (n : Nat) (f : RunSt → RunSt) : (s.updRun n f).ddrRate = s.ddrRate := rfl
@[simp] theorem State.updRun_ddrCapacity (s : State) (n : Nat) (f : RunSt → RunSt) : (s.updRun n f).ddrCapacity = s.ddrCapacity := rfl
@[simp] theorem State.updRun_dramScrub (s : State) (n : Nat) (f : RunSt → RunSt) : (s.updRun n f).dramScrub = s.dramScrub := rfl
@[simp] theorem State.updRun_oasisScrub (s : State) (n : Nat) (f : RunSt → RunSt) : (s.updRun n f).oasisScrub = s.oasisScrub := rfl
@[simp] theorem State.updRun_oasisFailed (s : State) (n : Nat) (f : RunSt → RunSt) : (s.updRun n f).oasisFailed = s.oasisFailed := rfl
@[simp] theorem State.updRun_flash (s : State) (n : Nat) (f : RunSt → RunSt) : (s.updRun n f).flash = s.flash := rfl
@[simp] theorem State.updRun_host (s : State) (n : Nat) (f : RunSt → RunSt) : (s.updRun n f).host = s.host := rfl
@[simp] theorem State.updRun_fabric (s : State) (n : Nat) (f : RunSt → RunSt) : (s.updRun n f).fabric = s.fabric := rfl
@[simp] theorem State.updRun_queues (s : State) (n : Nat) (f : RunSt → RunSt) : (s.updRun n f).queues = s.queues := rfl
@[simp] theorem State.updRun_gates (s : State) (n : Nat) (f : RunSt → RunSt) : (s.updRun n f).gates = s.gates := rfl
@[simp] theorem State.updRun_rms (s : State) (n : Nat) (f : RunSt → RunSt) : (s.updRun n f).rms = s.rms := rfl
@[simp] theorem State.updRun_chans (s : State) (n : Nat) (f : RunSt → RunSt) : (s.updRun n f).chans = s.chans := rfl
@[simp] theorem State.updRun_notices (s : State) (n : Nat) (f : RunSt → RunSt) : (s.updRun n f).notices = s.notices := rfl
@[simp] theorem State.updRun_recovery (s : State) (n : Nat) (f : RunSt → RunSt) : (s.updRun n f).recovery = s.recovery := rfl
@[simp] theorem State.updRun_domains (s : State) (n : Nat) (f : RunSt → RunSt) : (s.updRun n f).domains = s.domains := rfl
@[simp] theorem State.updRun_offStatus (s : State) (n : Nat) (f : RunSt → RunSt) : (s.updRun n f).offStatus = s.offStatus := rfl
@[simp] theorem State.updRun_offDomain (s : State) (n : Nat) (f : RunSt → RunSt) : (s.updRun n f).offDomain = s.offDomain := rfl
@[simp] theorem State.updRun_offAddr (s : State) (n : Nat) (f : RunSt → RunSt) : (s.updRun n f).offAddr = s.offAddr := rfl
@[simp] theorem State.updRun_offGtc (s : State) (n : Nat) (f : RunSt → RunSt) : (s.updRun n f).offGtc = s.offGtc := rfl
@[simp] theorem State.updRun_ft (s : State) (n : Nat) (f : RunSt → RunSt) : (s.updRun n f).ft = s.ft := rfl
@[simp] theorem State.updRun_sec (s : State) (n : Nat) (f : RunSt → RunSt) : (s.updRun n f).sec = s.sec := rfl
@[simp] theorem State.updRun_power (s : State) (n : Nat) (f : RunSt → RunSt) : (s.updRun n f).power = s.power := rfl
@[simp] theorem State.updRun_hold (s : State) (n : Nat) (f : RunSt → RunSt) : (s.updRun n f).hold = s.hold := rfl
@[simp] theorem State.updRun_mgmt (s : State) (n : Nat) (f : RunSt → RunSt) : (s.updRun n f).mgmt = s.mgmt := rfl
@[simp] theorem State.updRun_sys (s : State) (n : Nat) (f : RunSt → RunSt) : (s.updRun n f).sys = s.sys := rfl

/-! ## State.updDlv -/

@[simp] theorem State.updDlv_pending (s : State) (n : Nat) (f : DlvSt → DlvSt) : (s.updDlv n f).pending = s.pending := rfl
@[simp] theorem State.updDlv_out (s : State) (n : Nat) (f : DlvSt → DlvSt) : (s.updDlv n f).out = s.out := rfl
@[simp] theorem State.updDlv_fresh (s : State) (n : Nat) (f : DlvSt → DlvSt) : (s.updDlv n f).fresh = s.fresh := rfl
@[simp] theorem State.updDlv_od (s : State) (n : Nat) (f : DlvSt → DlvSt) : (s.updDlv n f).od = s.od := rfl
@[simp] theorem State.updDlv_drawn (s : State) (n : Nat) (f : DlvSt → DlvSt) : (s.updDlv n f).drawn = s.drawn := rfl
@[simp] theorem State.updDlv_written (s : State) (n : Nat) (f : DlvSt → DlvSt) : (s.updDlv n f).written = s.written := rfl
@[simp] theorem State.updDlv_clk (s : State) (n : Nat) (f : DlvSt → DlvSt) : (s.updDlv n f).clk = s.clk := rfl
@[simp] theorem State.updDlv_images (s : State) (n : Nat) (f : DlvSt → DlvSt) : (s.updDlv n f).images = s.images := rfl
@[simp] theorem State.updDlv_jobs (s : State) (n : Nat) (f : DlvSt → DlvSt) : (s.updDlv n f).jobs = s.jobs := rfl
@[simp] theorem State.updDlv_nextJob (s : State) (n : Nat) (f : DlvSt → DlvSt) : (s.updDlv n f).nextJob = s.nextJob := rfl
@[simp] theorem State.updDlv_lastServed (s : State) (n : Nat) (f : DlvSt → DlvSt) : (s.updDlv n f).lastServed = s.lastServed := rfl
@[simp] theorem State.updDlv_cores (s : State) (n : Nat) (f : DlvSt → DlvSt) : (s.updDlv n f).cores = s.cores := rfl
@[simp] theorem State.updDlv_engines (s : State) (n : Nat) (f : DlvSt → DlvSt) : (s.updDlv n f).engines = s.engines := rfl
@[simp] theorem State.updDlv_spilled (s : State) (n : Nat) (f : DlvSt → DlvSt) : (s.updDlv n f).spilled = s.spilled := rfl
@[simp] theorem State.updDlv_bands (s : State) (n : Nat) (f : DlvSt → DlvSt) : (s.updDlv n f).bands = s.bands := rfl
@[simp] theorem State.updDlv_pools (s : State) (n : Nat) (f : DlvSt → DlvSt) : (s.updDlv n f).pools = s.pools := rfl
@[simp] theorem State.updDlv_buffers (s : State) (n : Nat) (f : DlvSt → DlvSt) : (s.updDlv n f).buffers = s.buffers := rfl
@[simp] theorem State.updDlv_s0Used (s : State) (n : Nat) (f : DlvSt → DlvSt) : (s.updDlv n f).s0Used = s.s0Used := rfl
@[simp] theorem State.updDlv_allocs (s : State) (n : Nat) (f : DlvSt → DlvSt) : (s.updDlv n f).allocs = s.allocs := rfl
@[simp] theorem State.updDlv_charged (s : State) (n : Nat) (f : DlvSt → DlvSt) : (s.updDlv n f).charged = s.charged := rfl
@[simp] theorem State.updDlv_relLog (s : State) (n : Nat) (f : DlvSt → DlvSt) : (s.updDlv n f).relLog = s.relLog := rfl
@[simp] theorem State.updDlv_relCount (s : State) (n : Nat) (f : DlvSt → DlvSt) : (s.updDlv n f).relCount = s.relCount := rfl
@[simp] theorem State.updDlv_dram (s : State) (n : Nat) (f : DlvSt → DlvSt) : (s.updDlv n f).dram = s.dram := rfl
@[simp] theorem State.updDlv_granules (s : State) (n : Nat) (f : DlvSt → DlvSt) : (s.updDlv n f).granules = s.granules := rfl
@[simp] theorem State.updDlv_ddrChannels (s : State) (n : Nat) (f : DlvSt → DlvSt) : (s.updDlv n f).ddrChannels = s.ddrChannels := rfl
@[simp] theorem State.updDlv_ddrRate (s : State) (n : Nat) (f : DlvSt → DlvSt) : (s.updDlv n f).ddrRate = s.ddrRate := rfl
@[simp] theorem State.updDlv_ddrCapacity (s : State) (n : Nat) (f : DlvSt → DlvSt) : (s.updDlv n f).ddrCapacity = s.ddrCapacity := rfl
@[simp] theorem State.updDlv_dramScrub (s : State) (n : Nat) (f : DlvSt → DlvSt) : (s.updDlv n f).dramScrub = s.dramScrub := rfl
@[simp] theorem State.updDlv_oasisScrub (s : State) (n : Nat) (f : DlvSt → DlvSt) : (s.updDlv n f).oasisScrub = s.oasisScrub := rfl
@[simp] theorem State.updDlv_oasisFailed (s : State) (n : Nat) (f : DlvSt → DlvSt) : (s.updDlv n f).oasisFailed = s.oasisFailed := rfl
@[simp] theorem State.updDlv_flash (s : State) (n : Nat) (f : DlvSt → DlvSt) : (s.updDlv n f).flash = s.flash := rfl
@[simp] theorem State.updDlv_host (s : State) (n : Nat) (f : DlvSt → DlvSt) : (s.updDlv n f).host = s.host := rfl
@[simp] theorem State.updDlv_fabric (s : State) (n : Nat) (f : DlvSt → DlvSt) : (s.updDlv n f).fabric = s.fabric := rfl
@[simp] theorem State.updDlv_queues (s : State) (n : Nat) (f : DlvSt → DlvSt) : (s.updDlv n f).queues = s.queues := rfl
@[simp] theorem State.updDlv_gates (s : State) (n : Nat) (f : DlvSt → DlvSt) : (s.updDlv n f).gates = s.gates := rfl
@[simp] theorem State.updDlv_rms (s : State) (n : Nat) (f : DlvSt → DlvSt) : (s.updDlv n f).rms = s.rms := rfl
@[simp] theorem State.updDlv_chans (s : State) (n : Nat) (f : DlvSt → DlvSt) : (s.updDlv n f).chans = s.chans := rfl
@[simp] theorem State.updDlv_notices (s : State) (n : Nat) (f : DlvSt → DlvSt) : (s.updDlv n f).notices = s.notices := rfl
@[simp] theorem State.updDlv_recovery (s : State) (n : Nat) (f : DlvSt → DlvSt) : (s.updDlv n f).recovery = s.recovery := rfl
@[simp] theorem State.updDlv_domains (s : State) (n : Nat) (f : DlvSt → DlvSt) : (s.updDlv n f).domains = s.domains := rfl
@[simp] theorem State.updDlv_offStatus (s : State) (n : Nat) (f : DlvSt → DlvSt) : (s.updDlv n f).offStatus = s.offStatus := rfl
@[simp] theorem State.updDlv_offDomain (s : State) (n : Nat) (f : DlvSt → DlvSt) : (s.updDlv n f).offDomain = s.offDomain := rfl
@[simp] theorem State.updDlv_offAddr (s : State) (n : Nat) (f : DlvSt → DlvSt) : (s.updDlv n f).offAddr = s.offAddr := rfl
@[simp] theorem State.updDlv_offGtc (s : State) (n : Nat) (f : DlvSt → DlvSt) : (s.updDlv n f).offGtc = s.offGtc := rfl
@[simp] theorem State.updDlv_ft (s : State) (n : Nat) (f : DlvSt → DlvSt) : (s.updDlv n f).ft = s.ft := rfl
@[simp] theorem State.updDlv_sec (s : State) (n : Nat) (f : DlvSt → DlvSt) : (s.updDlv n f).sec = s.sec := rfl
@[simp] theorem State.updDlv_power (s : State) (n : Nat) (f : DlvSt → DlvSt) : (s.updDlv n f).power = s.power := rfl
@[simp] theorem State.updDlv_hold (s : State) (n : Nat) (f : DlvSt → DlvSt) : (s.updDlv n f).hold = s.hold := rfl
@[simp] theorem State.updDlv_mgmt (s : State) (n : Nat) (f : DlvSt → DlvSt) : (s.updDlv n f).mgmt = s.mgmt := rfl
@[simp] theorem State.updDlv_sys (s : State) (n : Nat) (f : DlvSt → DlvSt) : (s.updDlv n f).sys = s.sys := rfl

/-! ## State.updProt -/

@[simp] theorem State.updProt_pending (s : State) (n : Nat) (f : ProtSt → ProtSt) : (s.updProt n f).pending = s.pending := rfl
@[simp] theorem State.updProt_out (s : State) (n : Nat) (f : ProtSt → ProtSt) : (s.updProt n f).out = s.out := rfl
@[simp] theorem State.updProt_fresh (s : State) (n : Nat) (f : ProtSt → ProtSt) : (s.updProt n f).fresh = s.fresh := rfl
@[simp] theorem State.updProt_od (s : State) (n : Nat) (f : ProtSt → ProtSt) : (s.updProt n f).od = s.od := rfl
@[simp] theorem State.updProt_drawn (s : State) (n : Nat) (f : ProtSt → ProtSt) : (s.updProt n f).drawn = s.drawn := rfl
@[simp] theorem State.updProt_written (s : State) (n : Nat) (f : ProtSt → ProtSt) : (s.updProt n f).written = s.written := rfl
@[simp] theorem State.updProt_clk (s : State) (n : Nat) (f : ProtSt → ProtSt) : (s.updProt n f).clk = s.clk := rfl
@[simp] theorem State.updProt_images (s : State) (n : Nat) (f : ProtSt → ProtSt) : (s.updProt n f).images = s.images := rfl
@[simp] theorem State.updProt_jobs (s : State) (n : Nat) (f : ProtSt → ProtSt) : (s.updProt n f).jobs = s.jobs := rfl
@[simp] theorem State.updProt_nextJob (s : State) (n : Nat) (f : ProtSt → ProtSt) : (s.updProt n f).nextJob = s.nextJob := rfl
@[simp] theorem State.updProt_lastServed (s : State) (n : Nat) (f : ProtSt → ProtSt) : (s.updProt n f).lastServed = s.lastServed := rfl
@[simp] theorem State.updProt_cores (s : State) (n : Nat) (f : ProtSt → ProtSt) : (s.updProt n f).cores = s.cores := rfl
@[simp] theorem State.updProt_engines (s : State) (n : Nat) (f : ProtSt → ProtSt) : (s.updProt n f).engines = s.engines := rfl
@[simp] theorem State.updProt_spilled (s : State) (n : Nat) (f : ProtSt → ProtSt) : (s.updProt n f).spilled = s.spilled := rfl
@[simp] theorem State.updProt_bands (s : State) (n : Nat) (f : ProtSt → ProtSt) : (s.updProt n f).bands = s.bands := rfl
@[simp] theorem State.updProt_pools (s : State) (n : Nat) (f : ProtSt → ProtSt) : (s.updProt n f).pools = s.pools := rfl
@[simp] theorem State.updProt_buffers (s : State) (n : Nat) (f : ProtSt → ProtSt) : (s.updProt n f).buffers = s.buffers := rfl
@[simp] theorem State.updProt_s0Used (s : State) (n : Nat) (f : ProtSt → ProtSt) : (s.updProt n f).s0Used = s.s0Used := rfl
@[simp] theorem State.updProt_allocs (s : State) (n : Nat) (f : ProtSt → ProtSt) : (s.updProt n f).allocs = s.allocs := rfl
@[simp] theorem State.updProt_charged (s : State) (n : Nat) (f : ProtSt → ProtSt) : (s.updProt n f).charged = s.charged := rfl
@[simp] theorem State.updProt_relLog (s : State) (n : Nat) (f : ProtSt → ProtSt) : (s.updProt n f).relLog = s.relLog := rfl
@[simp] theorem State.updProt_relCount (s : State) (n : Nat) (f : ProtSt → ProtSt) : (s.updProt n f).relCount = s.relCount := rfl
@[simp] theorem State.updProt_dram (s : State) (n : Nat) (f : ProtSt → ProtSt) : (s.updProt n f).dram = s.dram := rfl
@[simp] theorem State.updProt_granules (s : State) (n : Nat) (f : ProtSt → ProtSt) : (s.updProt n f).granules = s.granules := rfl
@[simp] theorem State.updProt_ddrChannels (s : State) (n : Nat) (f : ProtSt → ProtSt) : (s.updProt n f).ddrChannels = s.ddrChannels := rfl
@[simp] theorem State.updProt_ddrRate (s : State) (n : Nat) (f : ProtSt → ProtSt) : (s.updProt n f).ddrRate = s.ddrRate := rfl
@[simp] theorem State.updProt_ddrCapacity (s : State) (n : Nat) (f : ProtSt → ProtSt) : (s.updProt n f).ddrCapacity = s.ddrCapacity := rfl
@[simp] theorem State.updProt_dramScrub (s : State) (n : Nat) (f : ProtSt → ProtSt) : (s.updProt n f).dramScrub = s.dramScrub := rfl
@[simp] theorem State.updProt_oasisScrub (s : State) (n : Nat) (f : ProtSt → ProtSt) : (s.updProt n f).oasisScrub = s.oasisScrub := rfl
@[simp] theorem State.updProt_oasisFailed (s : State) (n : Nat) (f : ProtSt → ProtSt) : (s.updProt n f).oasisFailed = s.oasisFailed := rfl
@[simp] theorem State.updProt_flash (s : State) (n : Nat) (f : ProtSt → ProtSt) : (s.updProt n f).flash = s.flash := rfl
@[simp] theorem State.updProt_host (s : State) (n : Nat) (f : ProtSt → ProtSt) : (s.updProt n f).host = s.host := rfl
@[simp] theorem State.updProt_fabric (s : State) (n : Nat) (f : ProtSt → ProtSt) : (s.updProt n f).fabric = s.fabric := rfl
@[simp] theorem State.updProt_queues (s : State) (n : Nat) (f : ProtSt → ProtSt) : (s.updProt n f).queues = s.queues := rfl
@[simp] theorem State.updProt_gates (s : State) (n : Nat) (f : ProtSt → ProtSt) : (s.updProt n f).gates = s.gates := rfl
@[simp] theorem State.updProt_rms (s : State) (n : Nat) (f : ProtSt → ProtSt) : (s.updProt n f).rms = s.rms := rfl
@[simp] theorem State.updProt_chans (s : State) (n : Nat) (f : ProtSt → ProtSt) : (s.updProt n f).chans = s.chans := rfl
@[simp] theorem State.updProt_notices (s : State) (n : Nat) (f : ProtSt → ProtSt) : (s.updProt n f).notices = s.notices := rfl
@[simp] theorem State.updProt_recovery (s : State) (n : Nat) (f : ProtSt → ProtSt) : (s.updProt n f).recovery = s.recovery := rfl
@[simp] theorem State.updProt_domains (s : State) (n : Nat) (f : ProtSt → ProtSt) : (s.updProt n f).domains = s.domains := rfl
@[simp] theorem State.updProt_offStatus (s : State) (n : Nat) (f : ProtSt → ProtSt) : (s.updProt n f).offStatus = s.offStatus := rfl
@[simp] theorem State.updProt_offDomain (s : State) (n : Nat) (f : ProtSt → ProtSt) : (s.updProt n f).offDomain = s.offDomain := rfl
@[simp] theorem State.updProt_offAddr (s : State) (n : Nat) (f : ProtSt → ProtSt) : (s.updProt n f).offAddr = s.offAddr := rfl
@[simp] theorem State.updProt_offGtc (s : State) (n : Nat) (f : ProtSt → ProtSt) : (s.updProt n f).offGtc = s.offGtc := rfl
@[simp] theorem State.updProt_ft (s : State) (n : Nat) (f : ProtSt → ProtSt) : (s.updProt n f).ft = s.ft := rfl
@[simp] theorem State.updProt_sec (s : State) (n : Nat) (f : ProtSt → ProtSt) : (s.updProt n f).sec = s.sec := rfl
@[simp] theorem State.updProt_power (s : State) (n : Nat) (f : ProtSt → ProtSt) : (s.updProt n f).power = s.power := rfl
@[simp] theorem State.updProt_hold (s : State) (n : Nat) (f : ProtSt → ProtSt) : (s.updProt n f).hold = s.hold := rfl
@[simp] theorem State.updProt_mgmt (s : State) (n : Nat) (f : ProtSt → ProtSt) : (s.updProt n f).mgmt = s.mgmt := rfl
@[simp] theorem State.updProt_sys (s : State) (n : Nat) (f : ProtSt → ProtSt) : (s.updProt n f).sys = s.sys := rfl

/-! ## State.updExact -/

@[simp] theorem State.updExact_pending (s : State) (n : Nat) (f : ExactSt → ExactSt) : (s.updExact n f).pending = s.pending := rfl
@[simp] theorem State.updExact_out (s : State) (n : Nat) (f : ExactSt → ExactSt) : (s.updExact n f).out = s.out := rfl
@[simp] theorem State.updExact_fresh (s : State) (n : Nat) (f : ExactSt → ExactSt) : (s.updExact n f).fresh = s.fresh := rfl
@[simp] theorem State.updExact_od (s : State) (n : Nat) (f : ExactSt → ExactSt) : (s.updExact n f).od = s.od := rfl
@[simp] theorem State.updExact_drawn (s : State) (n : Nat) (f : ExactSt → ExactSt) : (s.updExact n f).drawn = s.drawn := rfl
@[simp] theorem State.updExact_written (s : State) (n : Nat) (f : ExactSt → ExactSt) : (s.updExact n f).written = s.written := rfl
@[simp] theorem State.updExact_clk (s : State) (n : Nat) (f : ExactSt → ExactSt) : (s.updExact n f).clk = s.clk := rfl
@[simp] theorem State.updExact_images (s : State) (n : Nat) (f : ExactSt → ExactSt) : (s.updExact n f).images = s.images := rfl
@[simp] theorem State.updExact_jobs (s : State) (n : Nat) (f : ExactSt → ExactSt) : (s.updExact n f).jobs = s.jobs := rfl
@[simp] theorem State.updExact_nextJob (s : State) (n : Nat) (f : ExactSt → ExactSt) : (s.updExact n f).nextJob = s.nextJob := rfl
@[simp] theorem State.updExact_lastServed (s : State) (n : Nat) (f : ExactSt → ExactSt) : (s.updExact n f).lastServed = s.lastServed := rfl
@[simp] theorem State.updExact_cores (s : State) (n : Nat) (f : ExactSt → ExactSt) : (s.updExact n f).cores = s.cores := rfl
@[simp] theorem State.updExact_engines (s : State) (n : Nat) (f : ExactSt → ExactSt) : (s.updExact n f).engines = s.engines := rfl
@[simp] theorem State.updExact_spilled (s : State) (n : Nat) (f : ExactSt → ExactSt) : (s.updExact n f).spilled = s.spilled := rfl
@[simp] theorem State.updExact_bands (s : State) (n : Nat) (f : ExactSt → ExactSt) : (s.updExact n f).bands = s.bands := rfl
@[simp] theorem State.updExact_pools (s : State) (n : Nat) (f : ExactSt → ExactSt) : (s.updExact n f).pools = s.pools := rfl
@[simp] theorem State.updExact_buffers (s : State) (n : Nat) (f : ExactSt → ExactSt) : (s.updExact n f).buffers = s.buffers := rfl
@[simp] theorem State.updExact_s0Used (s : State) (n : Nat) (f : ExactSt → ExactSt) : (s.updExact n f).s0Used = s.s0Used := rfl
@[simp] theorem State.updExact_allocs (s : State) (n : Nat) (f : ExactSt → ExactSt) : (s.updExact n f).allocs = s.allocs := rfl
@[simp] theorem State.updExact_charged (s : State) (n : Nat) (f : ExactSt → ExactSt) : (s.updExact n f).charged = s.charged := rfl
@[simp] theorem State.updExact_relLog (s : State) (n : Nat) (f : ExactSt → ExactSt) : (s.updExact n f).relLog = s.relLog := rfl
@[simp] theorem State.updExact_relCount (s : State) (n : Nat) (f : ExactSt → ExactSt) : (s.updExact n f).relCount = s.relCount := rfl
@[simp] theorem State.updExact_dram (s : State) (n : Nat) (f : ExactSt → ExactSt) : (s.updExact n f).dram = s.dram := rfl
@[simp] theorem State.updExact_granules (s : State) (n : Nat) (f : ExactSt → ExactSt) : (s.updExact n f).granules = s.granules := rfl
@[simp] theorem State.updExact_ddrChannels (s : State) (n : Nat) (f : ExactSt → ExactSt) : (s.updExact n f).ddrChannels = s.ddrChannels := rfl
@[simp] theorem State.updExact_ddrRate (s : State) (n : Nat) (f : ExactSt → ExactSt) : (s.updExact n f).ddrRate = s.ddrRate := rfl
@[simp] theorem State.updExact_ddrCapacity (s : State) (n : Nat) (f : ExactSt → ExactSt) : (s.updExact n f).ddrCapacity = s.ddrCapacity := rfl
@[simp] theorem State.updExact_dramScrub (s : State) (n : Nat) (f : ExactSt → ExactSt) : (s.updExact n f).dramScrub = s.dramScrub := rfl
@[simp] theorem State.updExact_oasisScrub (s : State) (n : Nat) (f : ExactSt → ExactSt) : (s.updExact n f).oasisScrub = s.oasisScrub := rfl
@[simp] theorem State.updExact_oasisFailed (s : State) (n : Nat) (f : ExactSt → ExactSt) : (s.updExact n f).oasisFailed = s.oasisFailed := rfl
@[simp] theorem State.updExact_flash (s : State) (n : Nat) (f : ExactSt → ExactSt) : (s.updExact n f).flash = s.flash := rfl
@[simp] theorem State.updExact_host (s : State) (n : Nat) (f : ExactSt → ExactSt) : (s.updExact n f).host = s.host := rfl
@[simp] theorem State.updExact_fabric (s : State) (n : Nat) (f : ExactSt → ExactSt) : (s.updExact n f).fabric = s.fabric := rfl
@[simp] theorem State.updExact_queues (s : State) (n : Nat) (f : ExactSt → ExactSt) : (s.updExact n f).queues = s.queues := rfl
@[simp] theorem State.updExact_gates (s : State) (n : Nat) (f : ExactSt → ExactSt) : (s.updExact n f).gates = s.gates := rfl
@[simp] theorem State.updExact_rms (s : State) (n : Nat) (f : ExactSt → ExactSt) : (s.updExact n f).rms = s.rms := rfl
@[simp] theorem State.updExact_chans (s : State) (n : Nat) (f : ExactSt → ExactSt) : (s.updExact n f).chans = s.chans := rfl
@[simp] theorem State.updExact_notices (s : State) (n : Nat) (f : ExactSt → ExactSt) : (s.updExact n f).notices = s.notices := rfl
@[simp] theorem State.updExact_recovery (s : State) (n : Nat) (f : ExactSt → ExactSt) : (s.updExact n f).recovery = s.recovery := rfl
@[simp] theorem State.updExact_domains (s : State) (n : Nat) (f : ExactSt → ExactSt) : (s.updExact n f).domains = s.domains := rfl
@[simp] theorem State.updExact_offStatus (s : State) (n : Nat) (f : ExactSt → ExactSt) : (s.updExact n f).offStatus = s.offStatus := rfl
@[simp] theorem State.updExact_offDomain (s : State) (n : Nat) (f : ExactSt → ExactSt) : (s.updExact n f).offDomain = s.offDomain := rfl
@[simp] theorem State.updExact_offAddr (s : State) (n : Nat) (f : ExactSt → ExactSt) : (s.updExact n f).offAddr = s.offAddr := rfl
@[simp] theorem State.updExact_offGtc (s : State) (n : Nat) (f : ExactSt → ExactSt) : (s.updExact n f).offGtc = s.offGtc := rfl
@[simp] theorem State.updExact_ft (s : State) (n : Nat) (f : ExactSt → ExactSt) : (s.updExact n f).ft = s.ft := rfl
@[simp] theorem State.updExact_sec (s : State) (n : Nat) (f : ExactSt → ExactSt) : (s.updExact n f).sec = s.sec := rfl
@[simp] theorem State.updExact_power (s : State) (n : Nat) (f : ExactSt → ExactSt) : (s.updExact n f).power = s.power := rfl
@[simp] theorem State.updExact_hold (s : State) (n : Nat) (f : ExactSt → ExactSt) : (s.updExact n f).hold = s.hold := rfl
@[simp] theorem State.updExact_mgmt (s : State) (n : Nat) (f : ExactSt → ExactSt) : (s.updExact n f).mgmt = s.mgmt := rfl
@[simp] theorem State.updExact_sys (s : State) (n : Nat) (f : ExactSt → ExactSt) : (s.updExact n f).sys = s.sys := rfl

/-! ## State.setCore -/

@[simp] theorem State.setCore_pending (s : State) (c : Nat) (x : Core) : (s.setCore c x).pending = s.pending := rfl
@[simp] theorem State.setCore_out (s : State) (c : Nat) (x : Core) : (s.setCore c x).out = s.out := rfl
@[simp] theorem State.setCore_fresh (s : State) (c : Nat) (x : Core) : (s.setCore c x).fresh = s.fresh := rfl
@[simp] theorem State.setCore_od (s : State) (c : Nat) (x : Core) : (s.setCore c x).od = s.od := rfl
@[simp] theorem State.setCore_drawn (s : State) (c : Nat) (x : Core) : (s.setCore c x).drawn = s.drawn := rfl
@[simp] theorem State.setCore_written (s : State) (c : Nat) (x : Core) : (s.setCore c x).written = s.written := rfl
@[simp] theorem State.setCore_clk (s : State) (c : Nat) (x : Core) : (s.setCore c x).clk = s.clk := rfl
@[simp] theorem State.setCore_images (s : State) (c : Nat) (x : Core) : (s.setCore c x).images = s.images := rfl
@[simp] theorem State.setCore_jobs (s : State) (c : Nat) (x : Core) : (s.setCore c x).jobs = s.jobs := rfl
@[simp] theorem State.setCore_nextJob (s : State) (c : Nat) (x : Core) : (s.setCore c x).nextJob = s.nextJob := rfl
@[simp] theorem State.setCore_lastServed (s : State) (c : Nat) (x : Core) : (s.setCore c x).lastServed = s.lastServed := rfl
@[simp] theorem State.setCore_streams (s : State) (c : Nat) (x : Core) : (s.setCore c x).streams = s.streams := rfl
@[simp] theorem State.setCore_engines (s : State) (c : Nat) (x : Core) : (s.setCore c x).engines = s.engines := rfl
@[simp] theorem State.setCore_spilled (s : State) (c : Nat) (x : Core) : (s.setCore c x).spilled = s.spilled := rfl
@[simp] theorem State.setCore_bands (s : State) (c : Nat) (x : Core) : (s.setCore c x).bands = s.bands := rfl
@[simp] theorem State.setCore_pools (s : State) (c : Nat) (x : Core) : (s.setCore c x).pools = s.pools := rfl
@[simp] theorem State.setCore_buffers (s : State) (c : Nat) (x : Core) : (s.setCore c x).buffers = s.buffers := rfl
@[simp] theorem State.setCore_s0Used (s : State) (c : Nat) (x : Core) : (s.setCore c x).s0Used = s.s0Used := rfl
@[simp] theorem State.setCore_allocs (s : State) (c : Nat) (x : Core) : (s.setCore c x).allocs = s.allocs := rfl
@[simp] theorem State.setCore_charged (s : State) (c : Nat) (x : Core) : (s.setCore c x).charged = s.charged := rfl
@[simp] theorem State.setCore_relLog (s : State) (c : Nat) (x : Core) : (s.setCore c x).relLog = s.relLog := rfl
@[simp] theorem State.setCore_relCount (s : State) (c : Nat) (x : Core) : (s.setCore c x).relCount = s.relCount := rfl
@[simp] theorem State.setCore_dram (s : State) (c : Nat) (x : Core) : (s.setCore c x).dram = s.dram := rfl
@[simp] theorem State.setCore_granules (s : State) (c : Nat) (x : Core) : (s.setCore c x).granules = s.granules := rfl
@[simp] theorem State.setCore_ddrChannels (s : State) (c : Nat) (x : Core) : (s.setCore c x).ddrChannels = s.ddrChannels := rfl
@[simp] theorem State.setCore_ddrRate (s : State) (c : Nat) (x : Core) : (s.setCore c x).ddrRate = s.ddrRate := rfl
@[simp] theorem State.setCore_ddrCapacity (s : State) (c : Nat) (x : Core) : (s.setCore c x).ddrCapacity = s.ddrCapacity := rfl
@[simp] theorem State.setCore_dramScrub (s : State) (c : Nat) (x : Core) : (s.setCore c x).dramScrub = s.dramScrub := rfl
@[simp] theorem State.setCore_oasisScrub (s : State) (c : Nat) (x : Core) : (s.setCore c x).oasisScrub = s.oasisScrub := rfl
@[simp] theorem State.setCore_oasisFailed (s : State) (c : Nat) (x : Core) : (s.setCore c x).oasisFailed = s.oasisFailed := rfl
@[simp] theorem State.setCore_flash (s : State) (c : Nat) (x : Core) : (s.setCore c x).flash = s.flash := rfl
@[simp] theorem State.setCore_host (s : State) (c : Nat) (x : Core) : (s.setCore c x).host = s.host := rfl
@[simp] theorem State.setCore_fabric (s : State) (c : Nat) (x : Core) : (s.setCore c x).fabric = s.fabric := rfl
@[simp] theorem State.setCore_queues (s : State) (c : Nat) (x : Core) : (s.setCore c x).queues = s.queues := rfl
@[simp] theorem State.setCore_gates (s : State) (c : Nat) (x : Core) : (s.setCore c x).gates = s.gates := rfl
@[simp] theorem State.setCore_rms (s : State) (c : Nat) (x : Core) : (s.setCore c x).rms = s.rms := rfl
@[simp] theorem State.setCore_chans (s : State) (c : Nat) (x : Core) : (s.setCore c x).chans = s.chans := rfl
@[simp] theorem State.setCore_notices (s : State) (c : Nat) (x : Core) : (s.setCore c x).notices = s.notices := rfl
@[simp] theorem State.setCore_recovery (s : State) (c : Nat) (x : Core) : (s.setCore c x).recovery = s.recovery := rfl
@[simp] theorem State.setCore_domains (s : State) (c : Nat) (x : Core) : (s.setCore c x).domains = s.domains := rfl
@[simp] theorem State.setCore_offStatus (s : State) (c : Nat) (x : Core) : (s.setCore c x).offStatus = s.offStatus := rfl
@[simp] theorem State.setCore_offDomain (s : State) (c : Nat) (x : Core) : (s.setCore c x).offDomain = s.offDomain := rfl
@[simp] theorem State.setCore_offAddr (s : State) (c : Nat) (x : Core) : (s.setCore c x).offAddr = s.offAddr := rfl
@[simp] theorem State.setCore_offGtc (s : State) (c : Nat) (x : Core) : (s.setCore c x).offGtc = s.offGtc := rfl
@[simp] theorem State.setCore_ft (s : State) (c : Nat) (x : Core) : (s.setCore c x).ft = s.ft := rfl
@[simp] theorem State.setCore_sec (s : State) (c : Nat) (x : Core) : (s.setCore c x).sec = s.sec := rfl
@[simp] theorem State.setCore_power (s : State) (c : Nat) (x : Core) : (s.setCore c x).power = s.power := rfl
@[simp] theorem State.setCore_hold (s : State) (c : Nat) (x : Core) : (s.setCore c x).hold = s.hold := rfl
@[simp] theorem State.setCore_mgmt (s : State) (c : Nat) (x : Core) : (s.setCore c x).mgmt = s.mgmt := rfl
@[simp] theorem State.setCore_sys (s : State) (c : Nat) (x : Core) : (s.setCore c x).sys = s.sys := rfl

/-! ## State.updPool -/

@[simp] theorem State.updPool_pending (s : State) (p : Nat) (f : PoolSt → PoolSt) : (s.updPool p f).pending = s.pending := rfl
@[simp] theorem State.updPool_out (s : State) (p : Nat) (f : PoolSt → PoolSt) : (s.updPool p f).out = s.out := rfl
@[simp] theorem State.updPool_fresh (s : State) (p : Nat) (f : PoolSt → PoolSt) : (s.updPool p f).fresh = s.fresh := rfl
@[simp] theorem State.updPool_od (s : State) (p : Nat) (f : PoolSt → PoolSt) : (s.updPool p f).od = s.od := rfl
@[simp] theorem State.updPool_drawn (s : State) (p : Nat) (f : PoolSt → PoolSt) : (s.updPool p f).drawn = s.drawn := rfl
@[simp] theorem State.updPool_written (s : State) (p : Nat) (f : PoolSt → PoolSt) : (s.updPool p f).written = s.written := rfl
@[simp] theorem State.updPool_clk (s : State) (p : Nat) (f : PoolSt → PoolSt) : (s.updPool p f).clk = s.clk := rfl
@[simp] theorem State.updPool_images (s : State) (p : Nat) (f : PoolSt → PoolSt) : (s.updPool p f).images = s.images := rfl
@[simp] theorem State.updPool_jobs (s : State) (p : Nat) (f : PoolSt → PoolSt) : (s.updPool p f).jobs = s.jobs := rfl
@[simp] theorem State.updPool_nextJob (s : State) (p : Nat) (f : PoolSt → PoolSt) : (s.updPool p f).nextJob = s.nextJob := rfl
@[simp] theorem State.updPool_lastServed (s : State) (p : Nat) (f : PoolSt → PoolSt) : (s.updPool p f).lastServed = s.lastServed := rfl
@[simp] theorem State.updPool_streams (s : State) (p : Nat) (f : PoolSt → PoolSt) : (s.updPool p f).streams = s.streams := rfl
@[simp] theorem State.updPool_cores (s : State) (p : Nat) (f : PoolSt → PoolSt) : (s.updPool p f).cores = s.cores := rfl
@[simp] theorem State.updPool_engines (s : State) (p : Nat) (f : PoolSt → PoolSt) : (s.updPool p f).engines = s.engines := rfl
@[simp] theorem State.updPool_spilled (s : State) (p : Nat) (f : PoolSt → PoolSt) : (s.updPool p f).spilled = s.spilled := rfl
@[simp] theorem State.updPool_bands (s : State) (p : Nat) (f : PoolSt → PoolSt) : (s.updPool p f).bands = s.bands := rfl
@[simp] theorem State.updPool_buffers (s : State) (p : Nat) (f : PoolSt → PoolSt) : (s.updPool p f).buffers = s.buffers := rfl
@[simp] theorem State.updPool_s0Used (s : State) (p : Nat) (f : PoolSt → PoolSt) : (s.updPool p f).s0Used = s.s0Used := rfl
@[simp] theorem State.updPool_allocs (s : State) (p : Nat) (f : PoolSt → PoolSt) : (s.updPool p f).allocs = s.allocs := rfl
@[simp] theorem State.updPool_charged (s : State) (p : Nat) (f : PoolSt → PoolSt) : (s.updPool p f).charged = s.charged := rfl
@[simp] theorem State.updPool_relLog (s : State) (p : Nat) (f : PoolSt → PoolSt) : (s.updPool p f).relLog = s.relLog := rfl
@[simp] theorem State.updPool_relCount (s : State) (p : Nat) (f : PoolSt → PoolSt) : (s.updPool p f).relCount = s.relCount := rfl
@[simp] theorem State.updPool_dram (s : State) (p : Nat) (f : PoolSt → PoolSt) : (s.updPool p f).dram = s.dram := rfl
@[simp] theorem State.updPool_granules (s : State) (p : Nat) (f : PoolSt → PoolSt) : (s.updPool p f).granules = s.granules := rfl
@[simp] theorem State.updPool_ddrChannels (s : State) (p : Nat) (f : PoolSt → PoolSt) : (s.updPool p f).ddrChannels = s.ddrChannels := rfl
@[simp] theorem State.updPool_ddrRate (s : State) (p : Nat) (f : PoolSt → PoolSt) : (s.updPool p f).ddrRate = s.ddrRate := rfl
@[simp] theorem State.updPool_ddrCapacity (s : State) (p : Nat) (f : PoolSt → PoolSt) : (s.updPool p f).ddrCapacity = s.ddrCapacity := rfl
@[simp] theorem State.updPool_dramScrub (s : State) (p : Nat) (f : PoolSt → PoolSt) : (s.updPool p f).dramScrub = s.dramScrub := rfl
@[simp] theorem State.updPool_oasisScrub (s : State) (p : Nat) (f : PoolSt → PoolSt) : (s.updPool p f).oasisScrub = s.oasisScrub := rfl
@[simp] theorem State.updPool_oasisFailed (s : State) (p : Nat) (f : PoolSt → PoolSt) : (s.updPool p f).oasisFailed = s.oasisFailed := rfl
@[simp] theorem State.updPool_flash (s : State) (p : Nat) (f : PoolSt → PoolSt) : (s.updPool p f).flash = s.flash := rfl
@[simp] theorem State.updPool_host (s : State) (p : Nat) (f : PoolSt → PoolSt) : (s.updPool p f).host = s.host := rfl
@[simp] theorem State.updPool_fabric (s : State) (p : Nat) (f : PoolSt → PoolSt) : (s.updPool p f).fabric = s.fabric := rfl
@[simp] theorem State.updPool_queues (s : State) (p : Nat) (f : PoolSt → PoolSt) : (s.updPool p f).queues = s.queues := rfl
@[simp] theorem State.updPool_gates (s : State) (p : Nat) (f : PoolSt → PoolSt) : (s.updPool p f).gates = s.gates := rfl
@[simp] theorem State.updPool_rms (s : State) (p : Nat) (f : PoolSt → PoolSt) : (s.updPool p f).rms = s.rms := rfl
@[simp] theorem State.updPool_chans (s : State) (p : Nat) (f : PoolSt → PoolSt) : (s.updPool p f).chans = s.chans := rfl
@[simp] theorem State.updPool_notices (s : State) (p : Nat) (f : PoolSt → PoolSt) : (s.updPool p f).notices = s.notices := rfl
@[simp] theorem State.updPool_recovery (s : State) (p : Nat) (f : PoolSt → PoolSt) : (s.updPool p f).recovery = s.recovery := rfl
@[simp] theorem State.updPool_domains (s : State) (p : Nat) (f : PoolSt → PoolSt) : (s.updPool p f).domains = s.domains := rfl
@[simp] theorem State.updPool_offStatus (s : State) (p : Nat) (f : PoolSt → PoolSt) : (s.updPool p f).offStatus = s.offStatus := rfl
@[simp] theorem State.updPool_offDomain (s : State) (p : Nat) (f : PoolSt → PoolSt) : (s.updPool p f).offDomain = s.offDomain := rfl
@[simp] theorem State.updPool_offAddr (s : State) (p : Nat) (f : PoolSt → PoolSt) : (s.updPool p f).offAddr = s.offAddr := rfl
@[simp] theorem State.updPool_offGtc (s : State) (p : Nat) (f : PoolSt → PoolSt) : (s.updPool p f).offGtc = s.offGtc := rfl
@[simp] theorem State.updPool_ft (s : State) (p : Nat) (f : PoolSt → PoolSt) : (s.updPool p f).ft = s.ft := rfl
@[simp] theorem State.updPool_sec (s : State) (p : Nat) (f : PoolSt → PoolSt) : (s.updPool p f).sec = s.sec := rfl
@[simp] theorem State.updPool_power (s : State) (p : Nat) (f : PoolSt → PoolSt) : (s.updPool p f).power = s.power := rfl
@[simp] theorem State.updPool_hold (s : State) (p : Nat) (f : PoolSt → PoolSt) : (s.updPool p f).hold = s.hold := rfl
@[simp] theorem State.updPool_mgmt (s : State) (p : Nat) (f : PoolSt → PoolSt) : (s.updPool p f).mgmt = s.mgmt := rfl
@[simp] theorem State.updPool_sys (s : State) (p : Nat) (f : PoolSt → PoolSt) : (s.updPool p f).sys = s.sys := rfl

/-! ## State.updPort -/

@[simp] theorem State.updPort_pending (s : State) (k : Nat) (f : Port → Port) : (s.updPort k f).pending = s.pending := rfl
@[simp] theorem State.updPort_out (s : State) (k : Nat) (f : Port → Port) : (s.updPort k f).out = s.out := rfl
@[simp] theorem State.updPort_fresh (s : State) (k : Nat) (f : Port → Port) : (s.updPort k f).fresh = s.fresh := rfl
@[simp] theorem State.updPort_od (s : State) (k : Nat) (f : Port → Port) : (s.updPort k f).od = s.od := rfl
@[simp] theorem State.updPort_drawn (s : State) (k : Nat) (f : Port → Port) : (s.updPort k f).drawn = s.drawn := rfl
@[simp] theorem State.updPort_written (s : State) (k : Nat) (f : Port → Port) : (s.updPort k f).written = s.written := rfl
@[simp] theorem State.updPort_clk (s : State) (k : Nat) (f : Port → Port) : (s.updPort k f).clk = s.clk := rfl
@[simp] theorem State.updPort_images (s : State) (k : Nat) (f : Port → Port) : (s.updPort k f).images = s.images := rfl
@[simp] theorem State.updPort_jobs (s : State) (k : Nat) (f : Port → Port) : (s.updPort k f).jobs = s.jobs := rfl
@[simp] theorem State.updPort_nextJob (s : State) (k : Nat) (f : Port → Port) : (s.updPort k f).nextJob = s.nextJob := rfl
@[simp] theorem State.updPort_lastServed (s : State) (k : Nat) (f : Port → Port) : (s.updPort k f).lastServed = s.lastServed := rfl
@[simp] theorem State.updPort_streams (s : State) (k : Nat) (f : Port → Port) : (s.updPort k f).streams = s.streams := rfl
@[simp] theorem State.updPort_cores (s : State) (k : Nat) (f : Port → Port) : (s.updPort k f).cores = s.cores := rfl
@[simp] theorem State.updPort_engines (s : State) (k : Nat) (f : Port → Port) : (s.updPort k f).engines = s.engines := rfl
@[simp] theorem State.updPort_spilled (s : State) (k : Nat) (f : Port → Port) : (s.updPort k f).spilled = s.spilled := rfl
@[simp] theorem State.updPort_bands (s : State) (k : Nat) (f : Port → Port) : (s.updPort k f).bands = s.bands := rfl
@[simp] theorem State.updPort_pools (s : State) (k : Nat) (f : Port → Port) : (s.updPort k f).pools = s.pools := rfl
@[simp] theorem State.updPort_buffers (s : State) (k : Nat) (f : Port → Port) : (s.updPort k f).buffers = s.buffers := rfl
@[simp] theorem State.updPort_s0Used (s : State) (k : Nat) (f : Port → Port) : (s.updPort k f).s0Used = s.s0Used := rfl
@[simp] theorem State.updPort_allocs (s : State) (k : Nat) (f : Port → Port) : (s.updPort k f).allocs = s.allocs := rfl
@[simp] theorem State.updPort_charged (s : State) (k : Nat) (f : Port → Port) : (s.updPort k f).charged = s.charged := rfl
@[simp] theorem State.updPort_relLog (s : State) (k : Nat) (f : Port → Port) : (s.updPort k f).relLog = s.relLog := rfl
@[simp] theorem State.updPort_relCount (s : State) (k : Nat) (f : Port → Port) : (s.updPort k f).relCount = s.relCount := rfl
@[simp] theorem State.updPort_dram (s : State) (k : Nat) (f : Port → Port) : (s.updPort k f).dram = s.dram := rfl
@[simp] theorem State.updPort_granules (s : State) (k : Nat) (f : Port → Port) : (s.updPort k f).granules = s.granules := rfl
@[simp] theorem State.updPort_ddrChannels (s : State) (k : Nat) (f : Port → Port) : (s.updPort k f).ddrChannels = s.ddrChannels := rfl
@[simp] theorem State.updPort_ddrRate (s : State) (k : Nat) (f : Port → Port) : (s.updPort k f).ddrRate = s.ddrRate := rfl
@[simp] theorem State.updPort_ddrCapacity (s : State) (k : Nat) (f : Port → Port) : (s.updPort k f).ddrCapacity = s.ddrCapacity := rfl
@[simp] theorem State.updPort_dramScrub (s : State) (k : Nat) (f : Port → Port) : (s.updPort k f).dramScrub = s.dramScrub := rfl
@[simp] theorem State.updPort_oasisScrub (s : State) (k : Nat) (f : Port → Port) : (s.updPort k f).oasisScrub = s.oasisScrub := rfl
@[simp] theorem State.updPort_oasisFailed (s : State) (k : Nat) (f : Port → Port) : (s.updPort k f).oasisFailed = s.oasisFailed := rfl
@[simp] theorem State.updPort_flash (s : State) (k : Nat) (f : Port → Port) : (s.updPort k f).flash = s.flash := rfl
@[simp] theorem State.updPort_host (s : State) (k : Nat) (f : Port → Port) : (s.updPort k f).host = s.host := rfl
@[simp] theorem State.updPort_queues (s : State) (k : Nat) (f : Port → Port) : (s.updPort k f).queues = s.queues := rfl
@[simp] theorem State.updPort_gates (s : State) (k : Nat) (f : Port → Port) : (s.updPort k f).gates = s.gates := rfl
@[simp] theorem State.updPort_rms (s : State) (k : Nat) (f : Port → Port) : (s.updPort k f).rms = s.rms := rfl
@[simp] theorem State.updPort_chans (s : State) (k : Nat) (f : Port → Port) : (s.updPort k f).chans = s.chans := rfl
@[simp] theorem State.updPort_notices (s : State) (k : Nat) (f : Port → Port) : (s.updPort k f).notices = s.notices := rfl
@[simp] theorem State.updPort_recovery (s : State) (k : Nat) (f : Port → Port) : (s.updPort k f).recovery = s.recovery := rfl
@[simp] theorem State.updPort_domains (s : State) (k : Nat) (f : Port → Port) : (s.updPort k f).domains = s.domains := rfl
@[simp] theorem State.updPort_offStatus (s : State) (k : Nat) (f : Port → Port) : (s.updPort k f).offStatus = s.offStatus := rfl
@[simp] theorem State.updPort_offDomain (s : State) (k : Nat) (f : Port → Port) : (s.updPort k f).offDomain = s.offDomain := rfl
@[simp] theorem State.updPort_offAddr (s : State) (k : Nat) (f : Port → Port) : (s.updPort k f).offAddr = s.offAddr := rfl
@[simp] theorem State.updPort_offGtc (s : State) (k : Nat) (f : Port → Port) : (s.updPort k f).offGtc = s.offGtc := rfl
@[simp] theorem State.updPort_ft (s : State) (k : Nat) (f : Port → Port) : (s.updPort k f).ft = s.ft := rfl
@[simp] theorem State.updPort_sec (s : State) (k : Nat) (f : Port → Port) : (s.updPort k f).sec = s.sec := rfl
@[simp] theorem State.updPort_power (s : State) (k : Nat) (f : Port → Port) : (s.updPort k f).power = s.power := rfl
@[simp] theorem State.updPort_hold (s : State) (k : Nat) (f : Port → Port) : (s.updPort k f).hold = s.hold := rfl
@[simp] theorem State.updPort_mgmt (s : State) (k : Nat) (f : Port → Port) : (s.updPort k f).mgmt = s.mgmt := rfl
@[simp] theorem State.updPort_sys (s : State) (k : Nat) (f : Port → Port) : (s.updPort k f).sys = s.sys := rfl
@[simp] theorem State.updPort_fabric_waiting (s : State) (k : Nat) (f : Port → Port) : (s.updPort k f).fabric.waiting = s.fabric.waiting := rfl
@[simp] theorem State.updPort_fabric_seen (s : State) (k : Nat) (f : Port → Port) : (s.updPort k f).fabric.seen = s.fabric.seen := rfl
@[simp] theorem State.updPort_fabric_reasm (s : State) (k : Nat) (f : Port → Port) : (s.updPort k f).fabric.reasm = s.fabric.reasm := rfl
@[simp] theorem State.updPort_fabric_msgs (s : State) (k : Nat) (f : Port → Port) : (s.updPort k f).fabric.msgs = s.fabric.msgs := rfl
@[simp] theorem State.updPort_fabric_nextMsg (s : State) (k : Nat) (f : Port → Port) : (s.updPort k f).fabric.nextMsg = s.fabric.nextMsg := rfl
@[simp] theorem State.updPort_fabric_qps (s : State) (k : Nat) (f : Port → Port) : (s.updPort k f).fabric.qps = s.fabric.qps := rfl
@[simp] theorem State.updPort_fabric_pds (s : State) (k : Nat) (f : Port → Port) : (s.updPort k f).fabric.pds = s.fabric.pds := rfl
@[simp] theorem State.updPort_fabric_regions (s : State) (k : Nat) (f : Port → Port) : (s.updPort k f).fabric.regions = s.fabric.regions := rfl
@[simp] theorem State.updPort_fabric_mem (s : State) (k : Nat) (f : Port → Port) : (s.updPort k f).fabric.mem = s.fabric.mem := rfl
@[simp] theorem State.updPort_fabric_inbox (s : State) (k : Nat) (f : Port → Port) : (s.updPort k f).fabric.inbox = s.fabric.inbox := rfl

/-! ## State.updQp -/

@[simp] theorem State.updQp_pending (s : State) (q : Nat) (f : Qp → Qp) : (s.updQp q f).pending = s.pending := rfl
@[simp] theorem State.updQp_out (s : State) (q : Nat) (f : Qp → Qp) : (s.updQp q f).out = s.out := rfl
@[simp] theorem State.updQp_fresh (s : State) (q : Nat) (f : Qp → Qp) : (s.updQp q f).fresh = s.fresh := rfl
@[simp] theorem State.updQp_od (s : State) (q : Nat) (f : Qp → Qp) : (s.updQp q f).od = s.od := rfl
@[simp] theorem State.updQp_drawn (s : State) (q : Nat) (f : Qp → Qp) : (s.updQp q f).drawn = s.drawn := rfl
@[simp] theorem State.updQp_written (s : State) (q : Nat) (f : Qp → Qp) : (s.updQp q f).written = s.written := rfl
@[simp] theorem State.updQp_clk (s : State) (q : Nat) (f : Qp → Qp) : (s.updQp q f).clk = s.clk := rfl
@[simp] theorem State.updQp_images (s : State) (q : Nat) (f : Qp → Qp) : (s.updQp q f).images = s.images := rfl
@[simp] theorem State.updQp_jobs (s : State) (q : Nat) (f : Qp → Qp) : (s.updQp q f).jobs = s.jobs := rfl
@[simp] theorem State.updQp_nextJob (s : State) (q : Nat) (f : Qp → Qp) : (s.updQp q f).nextJob = s.nextJob := rfl
@[simp] theorem State.updQp_lastServed (s : State) (q : Nat) (f : Qp → Qp) : (s.updQp q f).lastServed = s.lastServed := rfl
@[simp] theorem State.updQp_streams (s : State) (q : Nat) (f : Qp → Qp) : (s.updQp q f).streams = s.streams := rfl
@[simp] theorem State.updQp_cores (s : State) (q : Nat) (f : Qp → Qp) : (s.updQp q f).cores = s.cores := rfl
@[simp] theorem State.updQp_engines (s : State) (q : Nat) (f : Qp → Qp) : (s.updQp q f).engines = s.engines := rfl
@[simp] theorem State.updQp_spilled (s : State) (q : Nat) (f : Qp → Qp) : (s.updQp q f).spilled = s.spilled := rfl
@[simp] theorem State.updQp_bands (s : State) (q : Nat) (f : Qp → Qp) : (s.updQp q f).bands = s.bands := rfl
@[simp] theorem State.updQp_pools (s : State) (q : Nat) (f : Qp → Qp) : (s.updQp q f).pools = s.pools := rfl
@[simp] theorem State.updQp_buffers (s : State) (q : Nat) (f : Qp → Qp) : (s.updQp q f).buffers = s.buffers := rfl
@[simp] theorem State.updQp_s0Used (s : State) (q : Nat) (f : Qp → Qp) : (s.updQp q f).s0Used = s.s0Used := rfl
@[simp] theorem State.updQp_allocs (s : State) (q : Nat) (f : Qp → Qp) : (s.updQp q f).allocs = s.allocs := rfl
@[simp] theorem State.updQp_charged (s : State) (q : Nat) (f : Qp → Qp) : (s.updQp q f).charged = s.charged := rfl
@[simp] theorem State.updQp_relLog (s : State) (q : Nat) (f : Qp → Qp) : (s.updQp q f).relLog = s.relLog := rfl
@[simp] theorem State.updQp_relCount (s : State) (q : Nat) (f : Qp → Qp) : (s.updQp q f).relCount = s.relCount := rfl
@[simp] theorem State.updQp_dram (s : State) (q : Nat) (f : Qp → Qp) : (s.updQp q f).dram = s.dram := rfl
@[simp] theorem State.updQp_granules (s : State) (q : Nat) (f : Qp → Qp) : (s.updQp q f).granules = s.granules := rfl
@[simp] theorem State.updQp_ddrChannels (s : State) (q : Nat) (f : Qp → Qp) : (s.updQp q f).ddrChannels = s.ddrChannels := rfl
@[simp] theorem State.updQp_ddrRate (s : State) (q : Nat) (f : Qp → Qp) : (s.updQp q f).ddrRate = s.ddrRate := rfl
@[simp] theorem State.updQp_ddrCapacity (s : State) (q : Nat) (f : Qp → Qp) : (s.updQp q f).ddrCapacity = s.ddrCapacity := rfl
@[simp] theorem State.updQp_dramScrub (s : State) (q : Nat) (f : Qp → Qp) : (s.updQp q f).dramScrub = s.dramScrub := rfl
@[simp] theorem State.updQp_oasisScrub (s : State) (q : Nat) (f : Qp → Qp) : (s.updQp q f).oasisScrub = s.oasisScrub := rfl
@[simp] theorem State.updQp_oasisFailed (s : State) (q : Nat) (f : Qp → Qp) : (s.updQp q f).oasisFailed = s.oasisFailed := rfl
@[simp] theorem State.updQp_flash (s : State) (q : Nat) (f : Qp → Qp) : (s.updQp q f).flash = s.flash := rfl
@[simp] theorem State.updQp_host (s : State) (q : Nat) (f : Qp → Qp) : (s.updQp q f).host = s.host := rfl
@[simp] theorem State.updQp_queues (s : State) (q : Nat) (f : Qp → Qp) : (s.updQp q f).queues = s.queues := rfl
@[simp] theorem State.updQp_gates (s : State) (q : Nat) (f : Qp → Qp) : (s.updQp q f).gates = s.gates := rfl
@[simp] theorem State.updQp_rms (s : State) (q : Nat) (f : Qp → Qp) : (s.updQp q f).rms = s.rms := rfl
@[simp] theorem State.updQp_chans (s : State) (q : Nat) (f : Qp → Qp) : (s.updQp q f).chans = s.chans := rfl
@[simp] theorem State.updQp_notices (s : State) (q : Nat) (f : Qp → Qp) : (s.updQp q f).notices = s.notices := rfl
@[simp] theorem State.updQp_recovery (s : State) (q : Nat) (f : Qp → Qp) : (s.updQp q f).recovery = s.recovery := rfl
@[simp] theorem State.updQp_domains (s : State) (q : Nat) (f : Qp → Qp) : (s.updQp q f).domains = s.domains := rfl
@[simp] theorem State.updQp_offStatus (s : State) (q : Nat) (f : Qp → Qp) : (s.updQp q f).offStatus = s.offStatus := rfl
@[simp] theorem State.updQp_offDomain (s : State) (q : Nat) (f : Qp → Qp) : (s.updQp q f).offDomain = s.offDomain := rfl
@[simp] theorem State.updQp_offAddr (s : State) (q : Nat) (f : Qp → Qp) : (s.updQp q f).offAddr = s.offAddr := rfl
@[simp] theorem State.updQp_offGtc (s : State) (q : Nat) (f : Qp → Qp) : (s.updQp q f).offGtc = s.offGtc := rfl
@[simp] theorem State.updQp_ft (s : State) (q : Nat) (f : Qp → Qp) : (s.updQp q f).ft = s.ft := rfl
@[simp] theorem State.updQp_sec (s : State) (q : Nat) (f : Qp → Qp) : (s.updQp q f).sec = s.sec := rfl
@[simp] theorem State.updQp_power (s : State) (q : Nat) (f : Qp → Qp) : (s.updQp q f).power = s.power := rfl
@[simp] theorem State.updQp_hold (s : State) (q : Nat) (f : Qp → Qp) : (s.updQp q f).hold = s.hold := rfl
@[simp] theorem State.updQp_mgmt (s : State) (q : Nat) (f : Qp → Qp) : (s.updQp q f).mgmt = s.mgmt := rfl
@[simp] theorem State.updQp_sys (s : State) (q : Nat) (f : Qp → Qp) : (s.updQp q f).sys = s.sys := rfl
@[simp] theorem State.updQp_fabric_ports (s : State) (q : Nat) (f : Qp → Qp) : (s.updQp q f).fabric.ports = s.fabric.ports := rfl
@[simp] theorem State.updQp_fabric_waiting (s : State) (q : Nat) (f : Qp → Qp) : (s.updQp q f).fabric.waiting = s.fabric.waiting := rfl
@[simp] theorem State.updQp_fabric_seen (s : State) (q : Nat) (f : Qp → Qp) : (s.updQp q f).fabric.seen = s.fabric.seen := rfl
@[simp] theorem State.updQp_fabric_reasm (s : State) (q : Nat) (f : Qp → Qp) : (s.updQp q f).fabric.reasm = s.fabric.reasm := rfl
@[simp] theorem State.updQp_fabric_msgs (s : State) (q : Nat) (f : Qp → Qp) : (s.updQp q f).fabric.msgs = s.fabric.msgs := rfl
@[simp] theorem State.updQp_fabric_nextMsg (s : State) (q : Nat) (f : Qp → Qp) : (s.updQp q f).fabric.nextMsg = s.fabric.nextMsg := rfl
@[simp] theorem State.updQp_fabric_pds (s : State) (q : Nat) (f : Qp → Qp) : (s.updQp q f).fabric.pds = s.fabric.pds := rfl
@[simp] theorem State.updQp_fabric_regions (s : State) (q : Nat) (f : Qp → Qp) : (s.updQp q f).fabric.regions = s.fabric.regions := rfl
@[simp] theorem State.updQp_fabric_mem (s : State) (q : Nat) (f : Qp → Qp) : (s.updQp q f).fabric.mem = s.fabric.mem := rfl
@[simp] theorem State.updQp_fabric_inbox (s : State) (q : Nat) (f : Qp → Qp) : (s.updQp q f).fabric.inbox = s.fabric.inbox := rfl

/-! ## State.updGate -/

@[simp] theorem State.updGate_pending (s : State) (g : Nat) (f : Gate → Gate) : (s.updGate g f).pending = s.pending := rfl
@[simp] theorem State.updGate_out (s : State) (g : Nat) (f : Gate → Gate) : (s.updGate g f).out = s.out := rfl
@[simp] theorem State.updGate_fresh (s : State) (g : Nat) (f : Gate → Gate) : (s.updGate g f).fresh = s.fresh := rfl
@[simp] theorem State.updGate_od (s : State) (g : Nat) (f : Gate → Gate) : (s.updGate g f).od = s.od := rfl
@[simp] theorem State.updGate_drawn (s : State) (g : Nat) (f : Gate → Gate) : (s.updGate g f).drawn = s.drawn := rfl
@[simp] theorem State.updGate_written (s : State) (g : Nat) (f : Gate → Gate) : (s.updGate g f).written = s.written := rfl
@[simp] theorem State.updGate_clk (s : State) (g : Nat) (f : Gate → Gate) : (s.updGate g f).clk = s.clk := rfl
@[simp] theorem State.updGate_images (s : State) (g : Nat) (f : Gate → Gate) : (s.updGate g f).images = s.images := rfl
@[simp] theorem State.updGate_jobs (s : State) (g : Nat) (f : Gate → Gate) : (s.updGate g f).jobs = s.jobs := rfl
@[simp] theorem State.updGate_nextJob (s : State) (g : Nat) (f : Gate → Gate) : (s.updGate g f).nextJob = s.nextJob := rfl
@[simp] theorem State.updGate_lastServed (s : State) (g : Nat) (f : Gate → Gate) : (s.updGate g f).lastServed = s.lastServed := rfl
@[simp] theorem State.updGate_streams (s : State) (g : Nat) (f : Gate → Gate) : (s.updGate g f).streams = s.streams := rfl
@[simp] theorem State.updGate_cores (s : State) (g : Nat) (f : Gate → Gate) : (s.updGate g f).cores = s.cores := rfl
@[simp] theorem State.updGate_engines (s : State) (g : Nat) (f : Gate → Gate) : (s.updGate g f).engines = s.engines := rfl
@[simp] theorem State.updGate_spilled (s : State) (g : Nat) (f : Gate → Gate) : (s.updGate g f).spilled = s.spilled := rfl
@[simp] theorem State.updGate_bands (s : State) (g : Nat) (f : Gate → Gate) : (s.updGate g f).bands = s.bands := rfl
@[simp] theorem State.updGate_pools (s : State) (g : Nat) (f : Gate → Gate) : (s.updGate g f).pools = s.pools := rfl
@[simp] theorem State.updGate_buffers (s : State) (g : Nat) (f : Gate → Gate) : (s.updGate g f).buffers = s.buffers := rfl
@[simp] theorem State.updGate_s0Used (s : State) (g : Nat) (f : Gate → Gate) : (s.updGate g f).s0Used = s.s0Used := rfl
@[simp] theorem State.updGate_allocs (s : State) (g : Nat) (f : Gate → Gate) : (s.updGate g f).allocs = s.allocs := rfl
@[simp] theorem State.updGate_charged (s : State) (g : Nat) (f : Gate → Gate) : (s.updGate g f).charged = s.charged := rfl
@[simp] theorem State.updGate_relLog (s : State) (g : Nat) (f : Gate → Gate) : (s.updGate g f).relLog = s.relLog := rfl
@[simp] theorem State.updGate_relCount (s : State) (g : Nat) (f : Gate → Gate) : (s.updGate g f).relCount = s.relCount := rfl
@[simp] theorem State.updGate_dram (s : State) (g : Nat) (f : Gate → Gate) : (s.updGate g f).dram = s.dram := rfl
@[simp] theorem State.updGate_granules (s : State) (g : Nat) (f : Gate → Gate) : (s.updGate g f).granules = s.granules := rfl
@[simp] theorem State.updGate_ddrChannels (s : State) (g : Nat) (f : Gate → Gate) : (s.updGate g f).ddrChannels = s.ddrChannels := rfl
@[simp] theorem State.updGate_ddrRate (s : State) (g : Nat) (f : Gate → Gate) : (s.updGate g f).ddrRate = s.ddrRate := rfl
@[simp] theorem State.updGate_ddrCapacity (s : State) (g : Nat) (f : Gate → Gate) : (s.updGate g f).ddrCapacity = s.ddrCapacity := rfl
@[simp] theorem State.updGate_dramScrub (s : State) (g : Nat) (f : Gate → Gate) : (s.updGate g f).dramScrub = s.dramScrub := rfl
@[simp] theorem State.updGate_oasisScrub (s : State) (g : Nat) (f : Gate → Gate) : (s.updGate g f).oasisScrub = s.oasisScrub := rfl
@[simp] theorem State.updGate_oasisFailed (s : State) (g : Nat) (f : Gate → Gate) : (s.updGate g f).oasisFailed = s.oasisFailed := rfl
@[simp] theorem State.updGate_flash (s : State) (g : Nat) (f : Gate → Gate) : (s.updGate g f).flash = s.flash := rfl
@[simp] theorem State.updGate_host (s : State) (g : Nat) (f : Gate → Gate) : (s.updGate g f).host = s.host := rfl
@[simp] theorem State.updGate_fabric (s : State) (g : Nat) (f : Gate → Gate) : (s.updGate g f).fabric = s.fabric := rfl
@[simp] theorem State.updGate_queues (s : State) (g : Nat) (f : Gate → Gate) : (s.updGate g f).queues = s.queues := rfl
@[simp] theorem State.updGate_rms (s : State) (g : Nat) (f : Gate → Gate) : (s.updGate g f).rms = s.rms := rfl
@[simp] theorem State.updGate_chans (s : State) (g : Nat) (f : Gate → Gate) : (s.updGate g f).chans = s.chans := rfl
@[simp] theorem State.updGate_notices (s : State) (g : Nat) (f : Gate → Gate) : (s.updGate g f).notices = s.notices := rfl
@[simp] theorem State.updGate_recovery (s : State) (g : Nat) (f : Gate → Gate) : (s.updGate g f).recovery = s.recovery := rfl
@[simp] theorem State.updGate_domains (s : State) (g : Nat) (f : Gate → Gate) : (s.updGate g f).domains = s.domains := rfl
@[simp] theorem State.updGate_offStatus (s : State) (g : Nat) (f : Gate → Gate) : (s.updGate g f).offStatus = s.offStatus := rfl
@[simp] theorem State.updGate_offDomain (s : State) (g : Nat) (f : Gate → Gate) : (s.updGate g f).offDomain = s.offDomain := rfl
@[simp] theorem State.updGate_offAddr (s : State) (g : Nat) (f : Gate → Gate) : (s.updGate g f).offAddr = s.offAddr := rfl
@[simp] theorem State.updGate_offGtc (s : State) (g : Nat) (f : Gate → Gate) : (s.updGate g f).offGtc = s.offGtc := rfl
@[simp] theorem State.updGate_ft (s : State) (g : Nat) (f : Gate → Gate) : (s.updGate g f).ft = s.ft := rfl
@[simp] theorem State.updGate_sec (s : State) (g : Nat) (f : Gate → Gate) : (s.updGate g f).sec = s.sec := rfl
@[simp] theorem State.updGate_power (s : State) (g : Nat) (f : Gate → Gate) : (s.updGate g f).power = s.power := rfl
@[simp] theorem State.updGate_hold (s : State) (g : Nat) (f : Gate → Gate) : (s.updGate g f).hold = s.hold := rfl
@[simp] theorem State.updGate_mgmt (s : State) (g : Nat) (f : Gate → Gate) : (s.updGate g f).mgmt = s.mgmt := rfl
@[simp] theorem State.updGate_sys (s : State) (g : Nat) (f : Gate → Gate) : (s.updGate g f).sys = s.sys := rfl

/-! ## State.updRm -/

@[simp] theorem State.updRm_pending (s : State) (p : Nat) (f : Rm → Rm) : (s.updRm p f).pending = s.pending := rfl
@[simp] theorem State.updRm_out (s : State) (p : Nat) (f : Rm → Rm) : (s.updRm p f).out = s.out := rfl
@[simp] theorem State.updRm_fresh (s : State) (p : Nat) (f : Rm → Rm) : (s.updRm p f).fresh = s.fresh := rfl
@[simp] theorem State.updRm_od (s : State) (p : Nat) (f : Rm → Rm) : (s.updRm p f).od = s.od := rfl
@[simp] theorem State.updRm_drawn (s : State) (p : Nat) (f : Rm → Rm) : (s.updRm p f).drawn = s.drawn := rfl
@[simp] theorem State.updRm_written (s : State) (p : Nat) (f : Rm → Rm) : (s.updRm p f).written = s.written := rfl
@[simp] theorem State.updRm_clk (s : State) (p : Nat) (f : Rm → Rm) : (s.updRm p f).clk = s.clk := rfl
@[simp] theorem State.updRm_images (s : State) (p : Nat) (f : Rm → Rm) : (s.updRm p f).images = s.images := rfl
@[simp] theorem State.updRm_jobs (s : State) (p : Nat) (f : Rm → Rm) : (s.updRm p f).jobs = s.jobs := rfl
@[simp] theorem State.updRm_nextJob (s : State) (p : Nat) (f : Rm → Rm) : (s.updRm p f).nextJob = s.nextJob := rfl
@[simp] theorem State.updRm_lastServed (s : State) (p : Nat) (f : Rm → Rm) : (s.updRm p f).lastServed = s.lastServed := rfl
@[simp] theorem State.updRm_streams (s : State) (p : Nat) (f : Rm → Rm) : (s.updRm p f).streams = s.streams := rfl
@[simp] theorem State.updRm_cores (s : State) (p : Nat) (f : Rm → Rm) : (s.updRm p f).cores = s.cores := rfl
@[simp] theorem State.updRm_engines (s : State) (p : Nat) (f : Rm → Rm) : (s.updRm p f).engines = s.engines := rfl
@[simp] theorem State.updRm_spilled (s : State) (p : Nat) (f : Rm → Rm) : (s.updRm p f).spilled = s.spilled := rfl
@[simp] theorem State.updRm_bands (s : State) (p : Nat) (f : Rm → Rm) : (s.updRm p f).bands = s.bands := rfl
@[simp] theorem State.updRm_pools (s : State) (p : Nat) (f : Rm → Rm) : (s.updRm p f).pools = s.pools := rfl
@[simp] theorem State.updRm_buffers (s : State) (p : Nat) (f : Rm → Rm) : (s.updRm p f).buffers = s.buffers := rfl
@[simp] theorem State.updRm_s0Used (s : State) (p : Nat) (f : Rm → Rm) : (s.updRm p f).s0Used = s.s0Used := rfl
@[simp] theorem State.updRm_allocs (s : State) (p : Nat) (f : Rm → Rm) : (s.updRm p f).allocs = s.allocs := rfl
@[simp] theorem State.updRm_charged (s : State) (p : Nat) (f : Rm → Rm) : (s.updRm p f).charged = s.charged := rfl
@[simp] theorem State.updRm_relLog (s : State) (p : Nat) (f : Rm → Rm) : (s.updRm p f).relLog = s.relLog := rfl
@[simp] theorem State.updRm_relCount (s : State) (p : Nat) (f : Rm → Rm) : (s.updRm p f).relCount = s.relCount := rfl
@[simp] theorem State.updRm_dram (s : State) (p : Nat) (f : Rm → Rm) : (s.updRm p f).dram = s.dram := rfl
@[simp] theorem State.updRm_granules (s : State) (p : Nat) (f : Rm → Rm) : (s.updRm p f).granules = s.granules := rfl
@[simp] theorem State.updRm_ddrChannels (s : State) (p : Nat) (f : Rm → Rm) : (s.updRm p f).ddrChannels = s.ddrChannels := rfl
@[simp] theorem State.updRm_ddrRate (s : State) (p : Nat) (f : Rm → Rm) : (s.updRm p f).ddrRate = s.ddrRate := rfl
@[simp] theorem State.updRm_ddrCapacity (s : State) (p : Nat) (f : Rm → Rm) : (s.updRm p f).ddrCapacity = s.ddrCapacity := rfl
@[simp] theorem State.updRm_dramScrub (s : State) (p : Nat) (f : Rm → Rm) : (s.updRm p f).dramScrub = s.dramScrub := rfl
@[simp] theorem State.updRm_oasisScrub (s : State) (p : Nat) (f : Rm → Rm) : (s.updRm p f).oasisScrub = s.oasisScrub := rfl
@[simp] theorem State.updRm_oasisFailed (s : State) (p : Nat) (f : Rm → Rm) : (s.updRm p f).oasisFailed = s.oasisFailed := rfl
@[simp] theorem State.updRm_flash (s : State) (p : Nat) (f : Rm → Rm) : (s.updRm p f).flash = s.flash := rfl
@[simp] theorem State.updRm_host (s : State) (p : Nat) (f : Rm → Rm) : (s.updRm p f).host = s.host := rfl
@[simp] theorem State.updRm_fabric (s : State) (p : Nat) (f : Rm → Rm) : (s.updRm p f).fabric = s.fabric := rfl
@[simp] theorem State.updRm_queues (s : State) (p : Nat) (f : Rm → Rm) : (s.updRm p f).queues = s.queues := rfl
@[simp] theorem State.updRm_gates (s : State) (p : Nat) (f : Rm → Rm) : (s.updRm p f).gates = s.gates := rfl
@[simp] theorem State.updRm_chans (s : State) (p : Nat) (f : Rm → Rm) : (s.updRm p f).chans = s.chans := rfl
@[simp] theorem State.updRm_notices (s : State) (p : Nat) (f : Rm → Rm) : (s.updRm p f).notices = s.notices := rfl
@[simp] theorem State.updRm_recovery (s : State) (p : Nat) (f : Rm → Rm) : (s.updRm p f).recovery = s.recovery := rfl
@[simp] theorem State.updRm_domains (s : State) (p : Nat) (f : Rm → Rm) : (s.updRm p f).domains = s.domains := rfl
@[simp] theorem State.updRm_offStatus (s : State) (p : Nat) (f : Rm → Rm) : (s.updRm p f).offStatus = s.offStatus := rfl
@[simp] theorem State.updRm_offDomain (s : State) (p : Nat) (f : Rm → Rm) : (s.updRm p f).offDomain = s.offDomain := rfl
@[simp] theorem State.updRm_offAddr (s : State) (p : Nat) (f : Rm → Rm) : (s.updRm p f).offAddr = s.offAddr := rfl
@[simp] theorem State.updRm_offGtc (s : State) (p : Nat) (f : Rm → Rm) : (s.updRm p f).offGtc = s.offGtc := rfl
@[simp] theorem State.updRm_ft (s : State) (p : Nat) (f : Rm → Rm) : (s.updRm p f).ft = s.ft := rfl
@[simp] theorem State.updRm_sec (s : State) (p : Nat) (f : Rm → Rm) : (s.updRm p f).sec = s.sec := rfl
@[simp] theorem State.updRm_power (s : State) (p : Nat) (f : Rm → Rm) : (s.updRm p f).power = s.power := rfl
@[simp] theorem State.updRm_hold (s : State) (p : Nat) (f : Rm → Rm) : (s.updRm p f).hold = s.hold := rfl
@[simp] theorem State.updRm_mgmt (s : State) (p : Nat) (f : Rm → Rm) : (s.updRm p f).mgmt = s.mgmt := rfl
@[simp] theorem State.updRm_sys (s : State) (p : Nat) (f : Rm → Rm) : (s.updRm p f).sys = s.sys := rfl

/-! ## State.updChan -/

@[simp] theorem State.updChan_pending (s : State) (c : Nat) (f : Chan → Chan) : (s.updChan c f).pending = s.pending := rfl
@[simp] theorem State.updChan_out (s : State) (c : Nat) (f : Chan → Chan) : (s.updChan c f).out = s.out := rfl
@[simp] theorem State.updChan_fresh (s : State) (c : Nat) (f : Chan → Chan) : (s.updChan c f).fresh = s.fresh := rfl
@[simp] theorem State.updChan_od (s : State) (c : Nat) (f : Chan → Chan) : (s.updChan c f).od = s.od := rfl
@[simp] theorem State.updChan_drawn (s : State) (c : Nat) (f : Chan → Chan) : (s.updChan c f).drawn = s.drawn := rfl
@[simp] theorem State.updChan_written (s : State) (c : Nat) (f : Chan → Chan) : (s.updChan c f).written = s.written := rfl
@[simp] theorem State.updChan_clk (s : State) (c : Nat) (f : Chan → Chan) : (s.updChan c f).clk = s.clk := rfl
@[simp] theorem State.updChan_images (s : State) (c : Nat) (f : Chan → Chan) : (s.updChan c f).images = s.images := rfl
@[simp] theorem State.updChan_jobs (s : State) (c : Nat) (f : Chan → Chan) : (s.updChan c f).jobs = s.jobs := rfl
@[simp] theorem State.updChan_nextJob (s : State) (c : Nat) (f : Chan → Chan) : (s.updChan c f).nextJob = s.nextJob := rfl
@[simp] theorem State.updChan_lastServed (s : State) (c : Nat) (f : Chan → Chan) : (s.updChan c f).lastServed = s.lastServed := rfl
@[simp] theorem State.updChan_streams (s : State) (c : Nat) (f : Chan → Chan) : (s.updChan c f).streams = s.streams := rfl
@[simp] theorem State.updChan_cores (s : State) (c : Nat) (f : Chan → Chan) : (s.updChan c f).cores = s.cores := rfl
@[simp] theorem State.updChan_engines (s : State) (c : Nat) (f : Chan → Chan) : (s.updChan c f).engines = s.engines := rfl
@[simp] theorem State.updChan_spilled (s : State) (c : Nat) (f : Chan → Chan) : (s.updChan c f).spilled = s.spilled := rfl
@[simp] theorem State.updChan_bands (s : State) (c : Nat) (f : Chan → Chan) : (s.updChan c f).bands = s.bands := rfl
@[simp] theorem State.updChan_pools (s : State) (c : Nat) (f : Chan → Chan) : (s.updChan c f).pools = s.pools := rfl
@[simp] theorem State.updChan_buffers (s : State) (c : Nat) (f : Chan → Chan) : (s.updChan c f).buffers = s.buffers := rfl
@[simp] theorem State.updChan_s0Used (s : State) (c : Nat) (f : Chan → Chan) : (s.updChan c f).s0Used = s.s0Used := rfl
@[simp] theorem State.updChan_allocs (s : State) (c : Nat) (f : Chan → Chan) : (s.updChan c f).allocs = s.allocs := rfl
@[simp] theorem State.updChan_charged (s : State) (c : Nat) (f : Chan → Chan) : (s.updChan c f).charged = s.charged := rfl
@[simp] theorem State.updChan_relLog (s : State) (c : Nat) (f : Chan → Chan) : (s.updChan c f).relLog = s.relLog := rfl
@[simp] theorem State.updChan_relCount (s : State) (c : Nat) (f : Chan → Chan) : (s.updChan c f).relCount = s.relCount := rfl
@[simp] theorem State.updChan_dram (s : State) (c : Nat) (f : Chan → Chan) : (s.updChan c f).dram = s.dram := rfl
@[simp] theorem State.updChan_granules (s : State) (c : Nat) (f : Chan → Chan) : (s.updChan c f).granules = s.granules := rfl
@[simp] theorem State.updChan_ddrChannels (s : State) (c : Nat) (f : Chan → Chan) : (s.updChan c f).ddrChannels = s.ddrChannels := rfl
@[simp] theorem State.updChan_ddrRate (s : State) (c : Nat) (f : Chan → Chan) : (s.updChan c f).ddrRate = s.ddrRate := rfl
@[simp] theorem State.updChan_ddrCapacity (s : State) (c : Nat) (f : Chan → Chan) : (s.updChan c f).ddrCapacity = s.ddrCapacity := rfl
@[simp] theorem State.updChan_dramScrub (s : State) (c : Nat) (f : Chan → Chan) : (s.updChan c f).dramScrub = s.dramScrub := rfl
@[simp] theorem State.updChan_oasisScrub (s : State) (c : Nat) (f : Chan → Chan) : (s.updChan c f).oasisScrub = s.oasisScrub := rfl
@[simp] theorem State.updChan_oasisFailed (s : State) (c : Nat) (f : Chan → Chan) : (s.updChan c f).oasisFailed = s.oasisFailed := rfl
@[simp] theorem State.updChan_flash (s : State) (c : Nat) (f : Chan → Chan) : (s.updChan c f).flash = s.flash := rfl
@[simp] theorem State.updChan_host (s : State) (c : Nat) (f : Chan → Chan) : (s.updChan c f).host = s.host := rfl
@[simp] theorem State.updChan_fabric (s : State) (c : Nat) (f : Chan → Chan) : (s.updChan c f).fabric = s.fabric := rfl
@[simp] theorem State.updChan_queues (s : State) (c : Nat) (f : Chan → Chan) : (s.updChan c f).queues = s.queues := rfl
@[simp] theorem State.updChan_gates (s : State) (c : Nat) (f : Chan → Chan) : (s.updChan c f).gates = s.gates := rfl
@[simp] theorem State.updChan_rms (s : State) (c : Nat) (f : Chan → Chan) : (s.updChan c f).rms = s.rms := rfl
@[simp] theorem State.updChan_notices (s : State) (c : Nat) (f : Chan → Chan) : (s.updChan c f).notices = s.notices := rfl
@[simp] theorem State.updChan_recovery (s : State) (c : Nat) (f : Chan → Chan) : (s.updChan c f).recovery = s.recovery := rfl
@[simp] theorem State.updChan_domains (s : State) (c : Nat) (f : Chan → Chan) : (s.updChan c f).domains = s.domains := rfl
@[simp] theorem State.updChan_offStatus (s : State) (c : Nat) (f : Chan → Chan) : (s.updChan c f).offStatus = s.offStatus := rfl
@[simp] theorem State.updChan_offDomain (s : State) (c : Nat) (f : Chan → Chan) : (s.updChan c f).offDomain = s.offDomain := rfl
@[simp] theorem State.updChan_offAddr (s : State) (c : Nat) (f : Chan → Chan) : (s.updChan c f).offAddr = s.offAddr := rfl
@[simp] theorem State.updChan_offGtc (s : State) (c : Nat) (f : Chan → Chan) : (s.updChan c f).offGtc = s.offGtc := rfl
@[simp] theorem State.updChan_ft (s : State) (c : Nat) (f : Chan → Chan) : (s.updChan c f).ft = s.ft := rfl
@[simp] theorem State.updChan_sec (s : State) (c : Nat) (f : Chan → Chan) : (s.updChan c f).sec = s.sec := rfl
@[simp] theorem State.updChan_power (s : State) (c : Nat) (f : Chan → Chan) : (s.updChan c f).power = s.power := rfl
@[simp] theorem State.updChan_hold (s : State) (c : Nat) (f : Chan → Chan) : (s.updChan c f).hold = s.hold := rfl
@[simp] theorem State.updChan_mgmt (s : State) (c : Nat) (f : Chan → Chan) : (s.updChan c f).mgmt = s.mgmt := rfl
@[simp] theorem State.updChan_sys (s : State) (c : Nat) (f : Chan → Chan) : (s.updChan c f).sys = s.sys := rfl

/-! ## State.updDomain -/

@[simp] theorem State.updDomain_pending (s : State) (d : Nat) (f : Domain → Domain) : (s.updDomain d f).pending = s.pending := rfl
@[simp] theorem State.updDomain_out (s : State) (d : Nat) (f : Domain → Domain) : (s.updDomain d f).out = s.out := rfl
@[simp] theorem State.updDomain_fresh (s : State) (d : Nat) (f : Domain → Domain) : (s.updDomain d f).fresh = s.fresh := rfl
@[simp] theorem State.updDomain_od (s : State) (d : Nat) (f : Domain → Domain) : (s.updDomain d f).od = s.od := rfl
@[simp] theorem State.updDomain_drawn (s : State) (d : Nat) (f : Domain → Domain) : (s.updDomain d f).drawn = s.drawn := rfl
@[simp] theorem State.updDomain_written (s : State) (d : Nat) (f : Domain → Domain) : (s.updDomain d f).written = s.written := rfl
@[simp] theorem State.updDomain_clk (s : State) (d : Nat) (f : Domain → Domain) : (s.updDomain d f).clk = s.clk := rfl
@[simp] theorem State.updDomain_images (s : State) (d : Nat) (f : Domain → Domain) : (s.updDomain d f).images = s.images := rfl
@[simp] theorem State.updDomain_jobs (s : State) (d : Nat) (f : Domain → Domain) : (s.updDomain d f).jobs = s.jobs := rfl
@[simp] theorem State.updDomain_nextJob (s : State) (d : Nat) (f : Domain → Domain) : (s.updDomain d f).nextJob = s.nextJob := rfl
@[simp] theorem State.updDomain_lastServed (s : State) (d : Nat) (f : Domain → Domain) : (s.updDomain d f).lastServed = s.lastServed := rfl
@[simp] theorem State.updDomain_streams (s : State) (d : Nat) (f : Domain → Domain) : (s.updDomain d f).streams = s.streams := rfl
@[simp] theorem State.updDomain_cores (s : State) (d : Nat) (f : Domain → Domain) : (s.updDomain d f).cores = s.cores := rfl
@[simp] theorem State.updDomain_engines (s : State) (d : Nat) (f : Domain → Domain) : (s.updDomain d f).engines = s.engines := rfl
@[simp] theorem State.updDomain_spilled (s : State) (d : Nat) (f : Domain → Domain) : (s.updDomain d f).spilled = s.spilled := rfl
@[simp] theorem State.updDomain_bands (s : State) (d : Nat) (f : Domain → Domain) : (s.updDomain d f).bands = s.bands := rfl
@[simp] theorem State.updDomain_pools (s : State) (d : Nat) (f : Domain → Domain) : (s.updDomain d f).pools = s.pools := rfl
@[simp] theorem State.updDomain_buffers (s : State) (d : Nat) (f : Domain → Domain) : (s.updDomain d f).buffers = s.buffers := rfl
@[simp] theorem State.updDomain_s0Used (s : State) (d : Nat) (f : Domain → Domain) : (s.updDomain d f).s0Used = s.s0Used := rfl
@[simp] theorem State.updDomain_allocs (s : State) (d : Nat) (f : Domain → Domain) : (s.updDomain d f).allocs = s.allocs := rfl
@[simp] theorem State.updDomain_charged (s : State) (d : Nat) (f : Domain → Domain) : (s.updDomain d f).charged = s.charged := rfl
@[simp] theorem State.updDomain_relLog (s : State) (d : Nat) (f : Domain → Domain) : (s.updDomain d f).relLog = s.relLog := rfl
@[simp] theorem State.updDomain_relCount (s : State) (d : Nat) (f : Domain → Domain) : (s.updDomain d f).relCount = s.relCount := rfl
@[simp] theorem State.updDomain_dram (s : State) (d : Nat) (f : Domain → Domain) : (s.updDomain d f).dram = s.dram := rfl
@[simp] theorem State.updDomain_granules (s : State) (d : Nat) (f : Domain → Domain) : (s.updDomain d f).granules = s.granules := rfl
@[simp] theorem State.updDomain_ddrChannels (s : State) (d : Nat) (f : Domain → Domain) : (s.updDomain d f).ddrChannels = s.ddrChannels := rfl
@[simp] theorem State.updDomain_ddrRate (s : State) (d : Nat) (f : Domain → Domain) : (s.updDomain d f).ddrRate = s.ddrRate := rfl
@[simp] theorem State.updDomain_ddrCapacity (s : State) (d : Nat) (f : Domain → Domain) : (s.updDomain d f).ddrCapacity = s.ddrCapacity := rfl
@[simp] theorem State.updDomain_dramScrub (s : State) (d : Nat) (f : Domain → Domain) : (s.updDomain d f).dramScrub = s.dramScrub := rfl
@[simp] theorem State.updDomain_oasisScrub (s : State) (d : Nat) (f : Domain → Domain) : (s.updDomain d f).oasisScrub = s.oasisScrub := rfl
@[simp] theorem State.updDomain_oasisFailed (s : State) (d : Nat) (f : Domain → Domain) : (s.updDomain d f).oasisFailed = s.oasisFailed := rfl
@[simp] theorem State.updDomain_flash (s : State) (d : Nat) (f : Domain → Domain) : (s.updDomain d f).flash = s.flash := rfl
@[simp] theorem State.updDomain_host (s : State) (d : Nat) (f : Domain → Domain) : (s.updDomain d f).host = s.host := rfl
@[simp] theorem State.updDomain_fabric (s : State) (d : Nat) (f : Domain → Domain) : (s.updDomain d f).fabric = s.fabric := rfl
@[simp] theorem State.updDomain_queues (s : State) (d : Nat) (f : Domain → Domain) : (s.updDomain d f).queues = s.queues := rfl
@[simp] theorem State.updDomain_gates (s : State) (d : Nat) (f : Domain → Domain) : (s.updDomain d f).gates = s.gates := rfl
@[simp] theorem State.updDomain_rms (s : State) (d : Nat) (f : Domain → Domain) : (s.updDomain d f).rms = s.rms := rfl
@[simp] theorem State.updDomain_chans (s : State) (d : Nat) (f : Domain → Domain) : (s.updDomain d f).chans = s.chans := rfl
@[simp] theorem State.updDomain_notices (s : State) (d : Nat) (f : Domain → Domain) : (s.updDomain d f).notices = s.notices := rfl
@[simp] theorem State.updDomain_recovery (s : State) (d : Nat) (f : Domain → Domain) : (s.updDomain d f).recovery = s.recovery := rfl
@[simp] theorem State.updDomain_offStatus (s : State) (d : Nat) (f : Domain → Domain) : (s.updDomain d f).offStatus = s.offStatus := rfl
@[simp] theorem State.updDomain_offDomain (s : State) (d : Nat) (f : Domain → Domain) : (s.updDomain d f).offDomain = s.offDomain := rfl
@[simp] theorem State.updDomain_offAddr (s : State) (d : Nat) (f : Domain → Domain) : (s.updDomain d f).offAddr = s.offAddr := rfl
@[simp] theorem State.updDomain_offGtc (s : State) (d : Nat) (f : Domain → Domain) : (s.updDomain d f).offGtc = s.offGtc := rfl
@[simp] theorem State.updDomain_ft (s : State) (d : Nat) (f : Domain → Domain) : (s.updDomain d f).ft = s.ft := rfl
@[simp] theorem State.updDomain_sec (s : State) (d : Nat) (f : Domain → Domain) : (s.updDomain d f).sec = s.sec := rfl
@[simp] theorem State.updDomain_power (s : State) (d : Nat) (f : Domain → Domain) : (s.updDomain d f).power = s.power := rfl
@[simp] theorem State.updDomain_hold (s : State) (d : Nat) (f : Domain → Domain) : (s.updDomain d f).hold = s.hold := rfl
@[simp] theorem State.updDomain_mgmt (s : State) (d : Nat) (f : Domain → Domain) : (s.updDomain d f).mgmt = s.mgmt := rfl
@[simp] theorem State.updDomain_sys (s : State) (d : Nat) (f : Domain → Domain) : (s.updDomain d f).sys = s.sys := rfl

/-! ## State.setNs -/

@[simp] theorem State.setNs_pending (s : State) (nsid : Nat) (x : Namespace) : (s.setNs nsid x).pending = s.pending := rfl
@[simp] theorem State.setNs_out (s : State) (nsid : Nat) (x : Namespace) : (s.setNs nsid x).out = s.out := rfl
@[simp] theorem State.setNs_fresh (s : State) (nsid : Nat) (x : Namespace) : (s.setNs nsid x).fresh = s.fresh := rfl
@[simp] theorem State.setNs_od (s : State) (nsid : Nat) (x : Namespace) : (s.setNs nsid x).od = s.od := rfl
@[simp] theorem State.setNs_drawn (s : State) (nsid : Nat) (x : Namespace) : (s.setNs nsid x).drawn = s.drawn := rfl
@[simp] theorem State.setNs_written (s : State) (nsid : Nat) (x : Namespace) : (s.setNs nsid x).written = s.written := rfl
@[simp] theorem State.setNs_clk (s : State) (nsid : Nat) (x : Namespace) : (s.setNs nsid x).clk = s.clk := rfl
@[simp] theorem State.setNs_images (s : State) (nsid : Nat) (x : Namespace) : (s.setNs nsid x).images = s.images := rfl
@[simp] theorem State.setNs_jobs (s : State) (nsid : Nat) (x : Namespace) : (s.setNs nsid x).jobs = s.jobs := rfl
@[simp] theorem State.setNs_nextJob (s : State) (nsid : Nat) (x : Namespace) : (s.setNs nsid x).nextJob = s.nextJob := rfl
@[simp] theorem State.setNs_lastServed (s : State) (nsid : Nat) (x : Namespace) : (s.setNs nsid x).lastServed = s.lastServed := rfl
@[simp] theorem State.setNs_streams (s : State) (nsid : Nat) (x : Namespace) : (s.setNs nsid x).streams = s.streams := rfl
@[simp] theorem State.setNs_cores (s : State) (nsid : Nat) (x : Namespace) : (s.setNs nsid x).cores = s.cores := rfl
@[simp] theorem State.setNs_engines (s : State) (nsid : Nat) (x : Namespace) : (s.setNs nsid x).engines = s.engines := rfl
@[simp] theorem State.setNs_spilled (s : State) (nsid : Nat) (x : Namespace) : (s.setNs nsid x).spilled = s.spilled := rfl
@[simp] theorem State.setNs_bands (s : State) (nsid : Nat) (x : Namespace) : (s.setNs nsid x).bands = s.bands := rfl
@[simp] theorem State.setNs_pools (s : State) (nsid : Nat) (x : Namespace) : (s.setNs nsid x).pools = s.pools := rfl
@[simp] theorem State.setNs_buffers (s : State) (nsid : Nat) (x : Namespace) : (s.setNs nsid x).buffers = s.buffers := rfl
@[simp] theorem State.setNs_s0Used (s : State) (nsid : Nat) (x : Namespace) : (s.setNs nsid x).s0Used = s.s0Used := rfl
@[simp] theorem State.setNs_allocs (s : State) (nsid : Nat) (x : Namespace) : (s.setNs nsid x).allocs = s.allocs := rfl
@[simp] theorem State.setNs_charged (s : State) (nsid : Nat) (x : Namespace) : (s.setNs nsid x).charged = s.charged := rfl
@[simp] theorem State.setNs_relLog (s : State) (nsid : Nat) (x : Namespace) : (s.setNs nsid x).relLog = s.relLog := rfl
@[simp] theorem State.setNs_relCount (s : State) (nsid : Nat) (x : Namespace) : (s.setNs nsid x).relCount = s.relCount := rfl
@[simp] theorem State.setNs_dram (s : State) (nsid : Nat) (x : Namespace) : (s.setNs nsid x).dram = s.dram := rfl
@[simp] theorem State.setNs_granules (s : State) (nsid : Nat) (x : Namespace) : (s.setNs nsid x).granules = s.granules := rfl
@[simp] theorem State.setNs_ddrChannels (s : State) (nsid : Nat) (x : Namespace) : (s.setNs nsid x).ddrChannels = s.ddrChannels := rfl
@[simp] theorem State.setNs_ddrRate (s : State) (nsid : Nat) (x : Namespace) : (s.setNs nsid x).ddrRate = s.ddrRate := rfl
@[simp] theorem State.setNs_ddrCapacity (s : State) (nsid : Nat) (x : Namespace) : (s.setNs nsid x).ddrCapacity = s.ddrCapacity := rfl
@[simp] theorem State.setNs_dramScrub (s : State) (nsid : Nat) (x : Namespace) : (s.setNs nsid x).dramScrub = s.dramScrub := rfl
@[simp] theorem State.setNs_oasisScrub (s : State) (nsid : Nat) (x : Namespace) : (s.setNs nsid x).oasisScrub = s.oasisScrub := rfl
@[simp] theorem State.setNs_oasisFailed (s : State) (nsid : Nat) (x : Namespace) : (s.setNs nsid x).oasisFailed = s.oasisFailed := rfl
@[simp] theorem State.setNs_flash (s : State) (nsid : Nat) (x : Namespace) : (s.setNs nsid x).flash = s.flash := rfl
@[simp] theorem State.setNs_fabric (s : State) (nsid : Nat) (x : Namespace) : (s.setNs nsid x).fabric = s.fabric := rfl
@[simp] theorem State.setNs_queues (s : State) (nsid : Nat) (x : Namespace) : (s.setNs nsid x).queues = s.queues := rfl
@[simp] theorem State.setNs_gates (s : State) (nsid : Nat) (x : Namespace) : (s.setNs nsid x).gates = s.gates := rfl
@[simp] theorem State.setNs_rms (s : State) (nsid : Nat) (x : Namespace) : (s.setNs nsid x).rms = s.rms := rfl
@[simp] theorem State.setNs_chans (s : State) (nsid : Nat) (x : Namespace) : (s.setNs nsid x).chans = s.chans := rfl
@[simp] theorem State.setNs_notices (s : State) (nsid : Nat) (x : Namespace) : (s.setNs nsid x).notices = s.notices := rfl
@[simp] theorem State.setNs_recovery (s : State) (nsid : Nat) (x : Namespace) : (s.setNs nsid x).recovery = s.recovery := rfl
@[simp] theorem State.setNs_domains (s : State) (nsid : Nat) (x : Namespace) : (s.setNs nsid x).domains = s.domains := rfl
@[simp] theorem State.setNs_offStatus (s : State) (nsid : Nat) (x : Namespace) : (s.setNs nsid x).offStatus = s.offStatus := rfl
@[simp] theorem State.setNs_offDomain (s : State) (nsid : Nat) (x : Namespace) : (s.setNs nsid x).offDomain = s.offDomain := rfl
@[simp] theorem State.setNs_offAddr (s : State) (nsid : Nat) (x : Namespace) : (s.setNs nsid x).offAddr = s.offAddr := rfl
@[simp] theorem State.setNs_offGtc (s : State) (nsid : Nat) (x : Namespace) : (s.setNs nsid x).offGtc = s.offGtc := rfl
@[simp] theorem State.setNs_ft (s : State) (nsid : Nat) (x : Namespace) : (s.setNs nsid x).ft = s.ft := rfl
@[simp] theorem State.setNs_sec (s : State) (nsid : Nat) (x : Namespace) : (s.setNs nsid x).sec = s.sec := rfl
@[simp] theorem State.setNs_power (s : State) (nsid : Nat) (x : Namespace) : (s.setNs nsid x).power = s.power := rfl
@[simp] theorem State.setNs_hold (s : State) (nsid : Nat) (x : Namespace) : (s.setNs nsid x).hold = s.hold := rfl
@[simp] theorem State.setNs_mgmt (s : State) (nsid : Nat) (x : Namespace) : (s.setNs nsid x).mgmt = s.mgmt := rfl
@[simp] theorem State.setNs_sys (s : State) (nsid : Nat) (x : Namespace) : (s.setNs nsid x).sys = s.sys := rfl
@[simp] theorem State.setNs_host_linkRate (s : State) (nsid : Nat) (x : Namespace) : (s.setNs nsid x).host.linkRate = s.host.linkRate := rfl
@[simp] theorem State.setNs_host_linkWidth (s : State) (nsid : Nat) (x : Namespace) : (s.setNs nsid x).host.linkWidth = s.host.linkWidth := rfl
@[simp] theorem State.setNs_host_flitMode (s : State) (nsid : Nat) (x : Namespace) : (s.setNs nsid x).host.flitMode = s.host.flitMode := rfl
@[simp] theorem State.setNs_host_perst (s : State) (nsid : Nat) (x : Namespace) : (s.setNs nsid x).host.perst = s.host.perst := rfl
@[simp] theorem State.setNs_host_half (s : State) (nsid : Nat) (x : Namespace) : (s.setNs nsid x).host.half = s.host.half := rfl
@[simp] theorem State.setNs_host_noLink (s : State) (nsid : Nat) (x : Namespace) : (s.setNs nsid x).host.noLink = s.host.noLink := rfl
@[simp] theorem State.setNs_host_cfgLoaded (s : State) (nsid : Nat) (x : Namespace) : (s.setNs nsid x).host.cfgLoaded = s.host.cfgLoaded := rfl
@[simp] theorem State.setNs_host_cfg (s : State) (nsid : Nat) (x : Namespace) : (s.setNs nsid x).host.cfg = s.host.cfg := rfl
@[simp] theorem State.setNs_host_msix (s : State) (nsid : Nat) (x : Namespace) : (s.setNs nsid x).host.msix = s.host.msix := rfl
@[simp] theorem State.setNs_host_msixPending (s : State) (nsid : Nat) (x : Namespace) : (s.setNs nsid x).host.msixPending = s.host.msixPending := rfl
@[simp] theorem State.setNs_host_cxlRegs (s : State) (nsid : Nat) (x : Namespace) : (s.setNs nsid x).host.cxlRegs = s.host.cxlRegs := rfl
@[simp] theorem State.setNs_host_nvmeRegs (s : State) (nsid : Nat) (x : Namespace) : (s.setNs nsid x).host.nvmeRegs = s.host.nvmeRegs := rfl
@[simp] theorem State.setNs_host_enabled (s : State) (nsid : Nat) (x : Namespace) : (s.setNs nsid x).host.enabled = s.host.enabled := rfl
@[simp] theorem State.setNs_host_ready (s : State) (nsid : Nat) (x : Namespace) : (s.setNs nsid x).host.ready = s.host.ready := rfl
@[simp] theorem State.setNs_host_cfs (s : State) (nsid : Nat) (x : Namespace) : (s.setNs nsid x).host.cfs = s.host.cfs := rfl
@[simp] theorem State.setNs_host_sqs (s : State) (nsid : Nat) (x : Namespace) : (s.setNs nsid x).host.sqs = s.host.sqs := rfl
@[simp] theorem State.setNs_host_cqs (s : State) (nsid : Nat) (x : Namespace) : (s.setNs nsid x).host.cqs = s.host.cqs := rfl
@[simp] theorem State.setNs_host_features (s : State) (nsid : Nat) (x : Namespace) : (s.setNs nsid x).host.features = s.host.features := rfl
@[simp] theorem State.setNs_host_aers (s : State) (nsid : Nat) (x : Namespace) : (s.setNs nsid x).host.aers = s.host.aers := rfl
@[simp] theorem State.setNs_host_events (s : State) (nsid : Nat) (x : Namespace) : (s.setNs nsid x).host.events = s.host.events := rfl
@[simp] theorem State.setNs_host_extents (s : State) (nsid : Nat) (x : Namespace) : (s.setNs nsid x).host.extents = s.host.extents := rfl
@[simp] theorem State.setNs_host_attached (s : State) (nsid : Nat) (x : Namespace) : (s.setNs nsid x).host.attached = s.host.attached := rfl
@[simp] theorem State.setNs_host_changed (s : State) (nsid : Nat) (x : Namespace) : (s.setNs nsid x).host.changed = s.host.changed := rfl
@[simp] theorem State.setNs_host_errors (s : State) (nsid : Nat) (x : Namespace) : (s.setNs nsid x).host.errors = s.host.errors := rfl
@[simp] theorem State.setNs_host_aborts (s : State) (nsid : Nat) (x : Namespace) : (s.setNs nsid x).host.aborts = s.host.aborts := rfl
@[simp] theorem State.setNs_host_warned (s : State) (nsid : Nat) (x : Namespace) : (s.setNs nsid x).host.warned = s.host.warned := rfl
@[simp] theorem State.setNs_host_throughs (s : State) (nsid : Nat) (x : Namespace) : (s.setNs nsid x).host.throughs = s.host.throughs := rfl
@[simp] theorem State.setNs_host_loads (s : State) (nsid : Nat) (x : Namespace) : (s.setNs nsid x).host.loads = s.host.loads := rfl
@[simp] theorem State.setNs_host_restores (s : State) (nsid : Nat) (x : Namespace) : (s.setNs nsid x).host.restores = s.host.restores := rfl
@[simp] theorem State.setNs_host_fwBuf (s : State) (nsid : Nat) (x : Namespace) : (s.setNs nsid x).host.fwBuf = s.host.fwBuf := rfl
@[simp] theorem State.setNs_host_fwLen (s : State) (nsid : Nat) (x : Namespace) : (s.setNs nsid x).host.fwLen = s.host.fwLen := rfl
@[simp] theorem State.setNs_host_cxlEvents (s : State) (nsid : Nat) (x : Namespace) : (s.setNs nsid x).host.cxlEvents = s.host.cxlEvents := rfl
@[simp] theorem State.setNs_host_keyGen (s : State) (nsid : Nat) (x : Namespace) : (s.setNs nsid x).host.keyGen = s.host.keyGen := rfl

/-! ## State.updJob -/

@[simp] theorem State.updJob_pending (s : State) (id : Nat) (f : Job → Job) : (s.updJob id f).pending = s.pending := rfl
@[simp] theorem State.updJob_out (s : State) (id : Nat) (f : Job → Job) : (s.updJob id f).out = s.out := rfl
@[simp] theorem State.updJob_fresh (s : State) (id : Nat) (f : Job → Job) : (s.updJob id f).fresh = s.fresh := rfl
@[simp] theorem State.updJob_od (s : State) (id : Nat) (f : Job → Job) : (s.updJob id f).od = s.od := rfl
@[simp] theorem State.updJob_drawn (s : State) (id : Nat) (f : Job → Job) : (s.updJob id f).drawn = s.drawn := rfl
@[simp] theorem State.updJob_written (s : State) (id : Nat) (f : Job → Job) : (s.updJob id f).written = s.written := rfl
@[simp] theorem State.updJob_clk (s : State) (id : Nat) (f : Job → Job) : (s.updJob id f).clk = s.clk := rfl
@[simp] theorem State.updJob_images (s : State) (id : Nat) (f : Job → Job) : (s.updJob id f).images = s.images := rfl
@[simp] theorem State.updJob_nextJob (s : State) (id : Nat) (f : Job → Job) : (s.updJob id f).nextJob = s.nextJob := rfl
@[simp] theorem State.updJob_lastServed (s : State) (id : Nat) (f : Job → Job) : (s.updJob id f).lastServed = s.lastServed := rfl
@[simp] theorem State.updJob_streams (s : State) (id : Nat) (f : Job → Job) : (s.updJob id f).streams = s.streams := rfl
@[simp] theorem State.updJob_cores (s : State) (id : Nat) (f : Job → Job) : (s.updJob id f).cores = s.cores := rfl
@[simp] theorem State.updJob_engines (s : State) (id : Nat) (f : Job → Job) : (s.updJob id f).engines = s.engines := rfl
@[simp] theorem State.updJob_spilled (s : State) (id : Nat) (f : Job → Job) : (s.updJob id f).spilled = s.spilled := rfl
@[simp] theorem State.updJob_bands (s : State) (id : Nat) (f : Job → Job) : (s.updJob id f).bands = s.bands := rfl
@[simp] theorem State.updJob_pools (s : State) (id : Nat) (f : Job → Job) : (s.updJob id f).pools = s.pools := rfl
@[simp] theorem State.updJob_buffers (s : State) (id : Nat) (f : Job → Job) : (s.updJob id f).buffers = s.buffers := rfl
@[simp] theorem State.updJob_s0Used (s : State) (id : Nat) (f : Job → Job) : (s.updJob id f).s0Used = s.s0Used := rfl
@[simp] theorem State.updJob_allocs (s : State) (id : Nat) (f : Job → Job) : (s.updJob id f).allocs = s.allocs := rfl
@[simp] theorem State.updJob_charged (s : State) (id : Nat) (f : Job → Job) : (s.updJob id f).charged = s.charged := rfl
@[simp] theorem State.updJob_relLog (s : State) (id : Nat) (f : Job → Job) : (s.updJob id f).relLog = s.relLog := rfl
@[simp] theorem State.updJob_relCount (s : State) (id : Nat) (f : Job → Job) : (s.updJob id f).relCount = s.relCount := rfl
@[simp] theorem State.updJob_dram (s : State) (id : Nat) (f : Job → Job) : (s.updJob id f).dram = s.dram := rfl
@[simp] theorem State.updJob_granules (s : State) (id : Nat) (f : Job → Job) : (s.updJob id f).granules = s.granules := rfl
@[simp] theorem State.updJob_ddrChannels (s : State) (id : Nat) (f : Job → Job) : (s.updJob id f).ddrChannels = s.ddrChannels := rfl
@[simp] theorem State.updJob_ddrRate (s : State) (id : Nat) (f : Job → Job) : (s.updJob id f).ddrRate = s.ddrRate := rfl
@[simp] theorem State.updJob_ddrCapacity (s : State) (id : Nat) (f : Job → Job) : (s.updJob id f).ddrCapacity = s.ddrCapacity := rfl
@[simp] theorem State.updJob_dramScrub (s : State) (id : Nat) (f : Job → Job) : (s.updJob id f).dramScrub = s.dramScrub := rfl
@[simp] theorem State.updJob_oasisScrub (s : State) (id : Nat) (f : Job → Job) : (s.updJob id f).oasisScrub = s.oasisScrub := rfl
@[simp] theorem State.updJob_oasisFailed (s : State) (id : Nat) (f : Job → Job) : (s.updJob id f).oasisFailed = s.oasisFailed := rfl
@[simp] theorem State.updJob_flash (s : State) (id : Nat) (f : Job → Job) : (s.updJob id f).flash = s.flash := rfl
@[simp] theorem State.updJob_host (s : State) (id : Nat) (f : Job → Job) : (s.updJob id f).host = s.host := rfl
@[simp] theorem State.updJob_fabric (s : State) (id : Nat) (f : Job → Job) : (s.updJob id f).fabric = s.fabric := rfl
@[simp] theorem State.updJob_queues (s : State) (id : Nat) (f : Job → Job) : (s.updJob id f).queues = s.queues := rfl
@[simp] theorem State.updJob_gates (s : State) (id : Nat) (f : Job → Job) : (s.updJob id f).gates = s.gates := rfl
@[simp] theorem State.updJob_rms (s : State) (id : Nat) (f : Job → Job) : (s.updJob id f).rms = s.rms := rfl
@[simp] theorem State.updJob_chans (s : State) (id : Nat) (f : Job → Job) : (s.updJob id f).chans = s.chans := rfl
@[simp] theorem State.updJob_notices (s : State) (id : Nat) (f : Job → Job) : (s.updJob id f).notices = s.notices := rfl
@[simp] theorem State.updJob_recovery (s : State) (id : Nat) (f : Job → Job) : (s.updJob id f).recovery = s.recovery := rfl
@[simp] theorem State.updJob_domains (s : State) (id : Nat) (f : Job → Job) : (s.updJob id f).domains = s.domains := rfl
@[simp] theorem State.updJob_offStatus (s : State) (id : Nat) (f : Job → Job) : (s.updJob id f).offStatus = s.offStatus := rfl
@[simp] theorem State.updJob_offDomain (s : State) (id : Nat) (f : Job → Job) : (s.updJob id f).offDomain = s.offDomain := rfl
@[simp] theorem State.updJob_offAddr (s : State) (id : Nat) (f : Job → Job) : (s.updJob id f).offAddr = s.offAddr := rfl
@[simp] theorem State.updJob_offGtc (s : State) (id : Nat) (f : Job → Job) : (s.updJob id f).offGtc = s.offGtc := rfl
@[simp] theorem State.updJob_ft (s : State) (id : Nat) (f : Job → Job) : (s.updJob id f).ft = s.ft := rfl
@[simp] theorem State.updJob_sec (s : State) (id : Nat) (f : Job → Job) : (s.updJob id f).sec = s.sec := rfl
@[simp] theorem State.updJob_power (s : State) (id : Nat) (f : Job → Job) : (s.updJob id f).power = s.power := rfl
@[simp] theorem State.updJob_hold (s : State) (id : Nat) (f : Job → Job) : (s.updJob id f).hold = s.hold := rfl
@[simp] theorem State.updJob_mgmt (s : State) (id : Nat) (f : Job → Job) : (s.updJob id f).mgmt = s.mgmt := rfl
@[simp] theorem State.updJob_sys (s : State) (id : Nat) (f : Job → Job) : (s.updJob id f).sys = s.sys := rfl

/-! ## State.store -/

@[simp] theorem State.store_pending (s : State) (key v : Nat) : (s.store key v).pending = s.pending := rfl
@[simp] theorem State.store_out (s : State) (key v : Nat) : (s.store key v).out = s.out := rfl
@[simp] theorem State.store_fresh (s : State) (key v : Nat) : (s.store key v).fresh = s.fresh := rfl
@[simp] theorem State.store_drawn (s : State) (key v : Nat) : (s.store key v).drawn = s.drawn := rfl
@[simp] theorem State.store_written (s : State) (key v : Nat) : (s.store key v).written = s.written := rfl
@[simp] theorem State.store_clk (s : State) (key v : Nat) : (s.store key v).clk = s.clk := rfl
@[simp] theorem State.store_images (s : State) (key v : Nat) : (s.store key v).images = s.images := rfl
@[simp] theorem State.store_jobs (s : State) (key v : Nat) : (s.store key v).jobs = s.jobs := rfl
@[simp] theorem State.store_nextJob (s : State) (key v : Nat) : (s.store key v).nextJob = s.nextJob := rfl
@[simp] theorem State.store_lastServed (s : State) (key v : Nat) : (s.store key v).lastServed = s.lastServed := rfl
@[simp] theorem State.store_streams (s : State) (key v : Nat) : (s.store key v).streams = s.streams := rfl
@[simp] theorem State.store_cores (s : State) (key v : Nat) : (s.store key v).cores = s.cores := rfl
@[simp] theorem State.store_engines (s : State) (key v : Nat) : (s.store key v).engines = s.engines := rfl
@[simp] theorem State.store_spilled (s : State) (key v : Nat) : (s.store key v).spilled = s.spilled := rfl
@[simp] theorem State.store_bands (s : State) (key v : Nat) : (s.store key v).bands = s.bands := rfl
@[simp] theorem State.store_pools (s : State) (key v : Nat) : (s.store key v).pools = s.pools := rfl
@[simp] theorem State.store_buffers (s : State) (key v : Nat) : (s.store key v).buffers = s.buffers := rfl
@[simp] theorem State.store_s0Used (s : State) (key v : Nat) : (s.store key v).s0Used = s.s0Used := rfl
@[simp] theorem State.store_allocs (s : State) (key v : Nat) : (s.store key v).allocs = s.allocs := rfl
@[simp] theorem State.store_charged (s : State) (key v : Nat) : (s.store key v).charged = s.charged := rfl
@[simp] theorem State.store_relLog (s : State) (key v : Nat) : (s.store key v).relLog = s.relLog := rfl
@[simp] theorem State.store_relCount (s : State) (key v : Nat) : (s.store key v).relCount = s.relCount := rfl
@[simp] theorem State.store_dram (s : State) (key v : Nat) : (s.store key v).dram = s.dram := rfl
@[simp] theorem State.store_granules (s : State) (key v : Nat) : (s.store key v).granules = s.granules := rfl
@[simp] theorem State.store_ddrChannels (s : State) (key v : Nat) : (s.store key v).ddrChannels = s.ddrChannels := rfl
@[simp] theorem State.store_ddrRate (s : State) (key v : Nat) : (s.store key v).ddrRate = s.ddrRate := rfl
@[simp] theorem State.store_ddrCapacity (s : State) (key v : Nat) : (s.store key v).ddrCapacity = s.ddrCapacity := rfl
@[simp] theorem State.store_dramScrub (s : State) (key v : Nat) : (s.store key v).dramScrub = s.dramScrub := rfl
@[simp] theorem State.store_oasisScrub (s : State) (key v : Nat) : (s.store key v).oasisScrub = s.oasisScrub := rfl
@[simp] theorem State.store_oasisFailed (s : State) (key v : Nat) : (s.store key v).oasisFailed = s.oasisFailed := rfl
@[simp] theorem State.store_flash (s : State) (key v : Nat) : (s.store key v).flash = s.flash := rfl
@[simp] theorem State.store_host (s : State) (key v : Nat) : (s.store key v).host = s.host := rfl
@[simp] theorem State.store_fabric (s : State) (key v : Nat) : (s.store key v).fabric = s.fabric := rfl
@[simp] theorem State.store_queues (s : State) (key v : Nat) : (s.store key v).queues = s.queues := rfl
@[simp] theorem State.store_gates (s : State) (key v : Nat) : (s.store key v).gates = s.gates := rfl
@[simp] theorem State.store_rms (s : State) (key v : Nat) : (s.store key v).rms = s.rms := rfl
@[simp] theorem State.store_chans (s : State) (key v : Nat) : (s.store key v).chans = s.chans := rfl
@[simp] theorem State.store_notices (s : State) (key v : Nat) : (s.store key v).notices = s.notices := rfl
@[simp] theorem State.store_recovery (s : State) (key v : Nat) : (s.store key v).recovery = s.recovery := rfl
@[simp] theorem State.store_domains (s : State) (key v : Nat) : (s.store key v).domains = s.domains := rfl
@[simp] theorem State.store_offStatus (s : State) (key v : Nat) : (s.store key v).offStatus = s.offStatus := rfl
@[simp] theorem State.store_offDomain (s : State) (key v : Nat) : (s.store key v).offDomain = s.offDomain := rfl
@[simp] theorem State.store_offAddr (s : State) (key v : Nat) : (s.store key v).offAddr = s.offAddr := rfl
@[simp] theorem State.store_offGtc (s : State) (key v : Nat) : (s.store key v).offGtc = s.offGtc := rfl
@[simp] theorem State.store_ft (s : State) (key v : Nat) : (s.store key v).ft = s.ft := rfl
@[simp] theorem State.store_sec (s : State) (key v : Nat) : (s.store key v).sec = s.sec := rfl
@[simp] theorem State.store_power (s : State) (key v : Nat) : (s.store key v).power = s.power := rfl
@[simp] theorem State.store_hold (s : State) (key v : Nat) : (s.store key v).hold = s.hold := rfl
@[simp] theorem State.store_mgmt (s : State) (key v : Nat) : (s.store key v).mgmt = s.mgmt := rfl
@[simp] theorem State.store_sys (s : State) (key v : Nat) : (s.store key v).sys = s.sys := rfl

/-! ## State.count -/

@[simp] theorem State.count_pending (s : State) (key n : Nat) : (s.count key n).pending = s.pending := rfl
@[simp] theorem State.count_out (s : State) (key n : Nat) : (s.count key n).out = s.out := rfl
@[simp] theorem State.count_fresh (s : State) (key n : Nat) : (s.count key n).fresh = s.fresh := rfl
@[simp] theorem State.count_drawn (s : State) (key n : Nat) : (s.count key n).drawn = s.drawn := rfl
@[simp] theorem State.count_written (s : State) (key n : Nat) : (s.count key n).written = s.written := rfl
@[simp] theorem State.count_clk (s : State) (key n : Nat) : (s.count key n).clk = s.clk := rfl
@[simp] theorem State.count_images (s : State) (key n : Nat) : (s.count key n).images = s.images := rfl
@[simp] theorem State.count_jobs (s : State) (key n : Nat) : (s.count key n).jobs = s.jobs := rfl
@[simp] theorem State.count_nextJob (s : State) (key n : Nat) : (s.count key n).nextJob = s.nextJob := rfl
@[simp] theorem State.count_lastServed (s : State) (key n : Nat) : (s.count key n).lastServed = s.lastServed := rfl
@[simp] theorem State.count_streams (s : State) (key n : Nat) : (s.count key n).streams = s.streams := rfl
@[simp] theorem State.count_cores (s : State) (key n : Nat) : (s.count key n).cores = s.cores := rfl
@[simp] theorem State.count_engines (s : State) (key n : Nat) : (s.count key n).engines = s.engines := rfl
@[simp] theorem State.count_spilled (s : State) (key n : Nat) : (s.count key n).spilled = s.spilled := rfl
@[simp] theorem State.count_bands (s : State) (key n : Nat) : (s.count key n).bands = s.bands := rfl
@[simp] theorem State.count_pools (s : State) (key n : Nat) : (s.count key n).pools = s.pools := rfl
@[simp] theorem State.count_buffers (s : State) (key n : Nat) : (s.count key n).buffers = s.buffers := rfl
@[simp] theorem State.count_s0Used (s : State) (key n : Nat) : (s.count key n).s0Used = s.s0Used := rfl
@[simp] theorem State.count_allocs (s : State) (key n : Nat) : (s.count key n).allocs = s.allocs := rfl
@[simp] theorem State.count_charged (s : State) (key n : Nat) : (s.count key n).charged = s.charged := rfl
@[simp] theorem State.count_relLog (s : State) (key n : Nat) : (s.count key n).relLog = s.relLog := rfl
@[simp] theorem State.count_relCount (s : State) (key n : Nat) : (s.count key n).relCount = s.relCount := rfl
@[simp] theorem State.count_dram (s : State) (key n : Nat) : (s.count key n).dram = s.dram := rfl
@[simp] theorem State.count_granules (s : State) (key n : Nat) : (s.count key n).granules = s.granules := rfl
@[simp] theorem State.count_ddrChannels (s : State) (key n : Nat) : (s.count key n).ddrChannels = s.ddrChannels := rfl
@[simp] theorem State.count_ddrRate (s : State) (key n : Nat) : (s.count key n).ddrRate = s.ddrRate := rfl
@[simp] theorem State.count_ddrCapacity (s : State) (key n : Nat) : (s.count key n).ddrCapacity = s.ddrCapacity := rfl
@[simp] theorem State.count_dramScrub (s : State) (key n : Nat) : (s.count key n).dramScrub = s.dramScrub := rfl
@[simp] theorem State.count_oasisScrub (s : State) (key n : Nat) : (s.count key n).oasisScrub = s.oasisScrub := rfl
@[simp] theorem State.count_oasisFailed (s : State) (key n : Nat) : (s.count key n).oasisFailed = s.oasisFailed := rfl
@[simp] theorem State.count_flash (s : State) (key n : Nat) : (s.count key n).flash = s.flash := rfl
@[simp] theorem State.count_host (s : State) (key n : Nat) : (s.count key n).host = s.host := rfl
@[simp] theorem State.count_fabric (s : State) (key n : Nat) : (s.count key n).fabric = s.fabric := rfl
@[simp] theorem State.count_queues (s : State) (key n : Nat) : (s.count key n).queues = s.queues := rfl
@[simp] theorem State.count_gates (s : State) (key n : Nat) : (s.count key n).gates = s.gates := rfl
@[simp] theorem State.count_rms (s : State) (key n : Nat) : (s.count key n).rms = s.rms := rfl
@[simp] theorem State.count_chans (s : State) (key n : Nat) : (s.count key n).chans = s.chans := rfl
@[simp] theorem State.count_notices (s : State) (key n : Nat) : (s.count key n).notices = s.notices := rfl
@[simp] theorem State.count_recovery (s : State) (key n : Nat) : (s.count key n).recovery = s.recovery := rfl
@[simp] theorem State.count_domains (s : State) (key n : Nat) : (s.count key n).domains = s.domains := rfl
@[simp] theorem State.count_offStatus (s : State) (key n : Nat) : (s.count key n).offStatus = s.offStatus := rfl
@[simp] theorem State.count_offDomain (s : State) (key n : Nat) : (s.count key n).offDomain = s.offDomain := rfl
@[simp] theorem State.count_offAddr (s : State) (key n : Nat) : (s.count key n).offAddr = s.offAddr := rfl
@[simp] theorem State.count_offGtc (s : State) (key n : Nat) : (s.count key n).offGtc = s.offGtc := rfl
@[simp] theorem State.count_ft (s : State) (key n : Nat) : (s.count key n).ft = s.ft := rfl
@[simp] theorem State.count_sec (s : State) (key n : Nat) : (s.count key n).sec = s.sec := rfl
@[simp] theorem State.count_power (s : State) (key n : Nat) : (s.count key n).power = s.power := rfl
@[simp] theorem State.count_hold (s : State) (key n : Nat) : (s.count key n).hold = s.hold := rfl
@[simp] theorem State.count_mgmt (s : State) (key n : Nat) : (s.count key n).mgmt = s.mgmt := rfl
@[simp] theorem State.count_sys (s : State) (key n : Nat) : (s.count key n).sys = s.sys := rfl

/-! ## State.emit -/

@[simp] theorem State.emit_pending (s : State) (e : Emit) : (s.emit e).pending = s.pending := rfl
@[simp] theorem State.emit_fresh (s : State) (e : Emit) : (s.emit e).fresh = s.fresh := rfl
@[simp] theorem State.emit_od (s : State) (e : Emit) : (s.emit e).od = s.od := rfl
@[simp] theorem State.emit_drawn (s : State) (e : Emit) : (s.emit e).drawn = s.drawn := rfl
@[simp] theorem State.emit_written (s : State) (e : Emit) : (s.emit e).written = s.written := rfl
@[simp] theorem State.emit_clk (s : State) (e : Emit) : (s.emit e).clk = s.clk := rfl
@[simp] theorem State.emit_images (s : State) (e : Emit) : (s.emit e).images = s.images := rfl
@[simp] theorem State.emit_jobs (s : State) (e : Emit) : (s.emit e).jobs = s.jobs := rfl
@[simp] theorem State.emit_nextJob (s : State) (e : Emit) : (s.emit e).nextJob = s.nextJob := rfl
@[simp] theorem State.emit_lastServed (s : State) (e : Emit) : (s.emit e).lastServed = s.lastServed := rfl
@[simp] theorem State.emit_streams (s : State) (e : Emit) : (s.emit e).streams = s.streams := rfl
@[simp] theorem State.emit_cores (s : State) (e : Emit) : (s.emit e).cores = s.cores := rfl
@[simp] theorem State.emit_engines (s : State) (e : Emit) : (s.emit e).engines = s.engines := rfl
@[simp] theorem State.emit_spilled (s : State) (e : Emit) : (s.emit e).spilled = s.spilled := rfl
@[simp] theorem State.emit_bands (s : State) (e : Emit) : (s.emit e).bands = s.bands := rfl
@[simp] theorem State.emit_pools (s : State) (e : Emit) : (s.emit e).pools = s.pools := rfl
@[simp] theorem State.emit_buffers (s : State) (e : Emit) : (s.emit e).buffers = s.buffers := rfl
@[simp] theorem State.emit_s0Used (s : State) (e : Emit) : (s.emit e).s0Used = s.s0Used := rfl
@[simp] theorem State.emit_allocs (s : State) (e : Emit) : (s.emit e).allocs = s.allocs := rfl
@[simp] theorem State.emit_charged (s : State) (e : Emit) : (s.emit e).charged = s.charged := rfl
@[simp] theorem State.emit_relLog (s : State) (e : Emit) : (s.emit e).relLog = s.relLog := rfl
@[simp] theorem State.emit_relCount (s : State) (e : Emit) : (s.emit e).relCount = s.relCount := rfl
@[simp] theorem State.emit_dram (s : State) (e : Emit) : (s.emit e).dram = s.dram := rfl
@[simp] theorem State.emit_granules (s : State) (e : Emit) : (s.emit e).granules = s.granules := rfl
@[simp] theorem State.emit_ddrChannels (s : State) (e : Emit) : (s.emit e).ddrChannels = s.ddrChannels := rfl
@[simp] theorem State.emit_ddrRate (s : State) (e : Emit) : (s.emit e).ddrRate = s.ddrRate := rfl
@[simp] theorem State.emit_ddrCapacity (s : State) (e : Emit) : (s.emit e).ddrCapacity = s.ddrCapacity := rfl
@[simp] theorem State.emit_dramScrub (s : State) (e : Emit) : (s.emit e).dramScrub = s.dramScrub := rfl
@[simp] theorem State.emit_oasisScrub (s : State) (e : Emit) : (s.emit e).oasisScrub = s.oasisScrub := rfl
@[simp] theorem State.emit_oasisFailed (s : State) (e : Emit) : (s.emit e).oasisFailed = s.oasisFailed := rfl
@[simp] theorem State.emit_flash (s : State) (e : Emit) : (s.emit e).flash = s.flash := rfl
@[simp] theorem State.emit_host (s : State) (e : Emit) : (s.emit e).host = s.host := rfl
@[simp] theorem State.emit_fabric (s : State) (e : Emit) : (s.emit e).fabric = s.fabric := rfl
@[simp] theorem State.emit_queues (s : State) (e : Emit) : (s.emit e).queues = s.queues := rfl
@[simp] theorem State.emit_gates (s : State) (e : Emit) : (s.emit e).gates = s.gates := rfl
@[simp] theorem State.emit_rms (s : State) (e : Emit) : (s.emit e).rms = s.rms := rfl
@[simp] theorem State.emit_chans (s : State) (e : Emit) : (s.emit e).chans = s.chans := rfl
@[simp] theorem State.emit_notices (s : State) (e : Emit) : (s.emit e).notices = s.notices := rfl
@[simp] theorem State.emit_recovery (s : State) (e : Emit) : (s.emit e).recovery = s.recovery := rfl
@[simp] theorem State.emit_domains (s : State) (e : Emit) : (s.emit e).domains = s.domains := rfl
@[simp] theorem State.emit_offStatus (s : State) (e : Emit) : (s.emit e).offStatus = s.offStatus := rfl
@[simp] theorem State.emit_offDomain (s : State) (e : Emit) : (s.emit e).offDomain = s.offDomain := rfl
@[simp] theorem State.emit_offAddr (s : State) (e : Emit) : (s.emit e).offAddr = s.offAddr := rfl
@[simp] theorem State.emit_offGtc (s : State) (e : Emit) : (s.emit e).offGtc = s.offGtc := rfl
@[simp] theorem State.emit_ft (s : State) (e : Emit) : (s.emit e).ft = s.ft := rfl
@[simp] theorem State.emit_sec (s : State) (e : Emit) : (s.emit e).sec = s.sec := rfl
@[simp] theorem State.emit_power (s : State) (e : Emit) : (s.emit e).power = s.power := rfl
@[simp] theorem State.emit_hold (s : State) (e : Emit) : (s.emit e).hold = s.hold := rfl
@[simp] theorem State.emit_mgmt (s : State) (e : Emit) : (s.emit e).mgmt = s.mgmt := rfl
@[simp] theorem State.emit_sys (s : State) (e : Emit) : (s.emit e).sys = s.sys := rfl

/-! ## What each update writes -/

theorem State.stream_updStream (s : State) (n j : Nat) (f : Stream → Stream) :
    (s.updStream n f).stream j = if j = n then f (s.stream n) else s.stream j := Tbl.get_upd ..
theorem State.pool_updPool (s : State) (p j : Nat) (f : PoolSt → PoolSt) :
    (s.updPool p f).pool j = if j = p then f (s.pool p) else s.pool j := Tbl.get_upd ..
theorem State.port_updPort (s : State) (k j : Nat) (f : Port → Port) :
    (s.updPort k f).port j = if j = k then f (s.port k) else s.port j := Tbl.get_upd ..
theorem State.gate_updGate (s : State) (g j : Nat) (f : Gate → Gate) :
    (s.updGate g f).gate j = if j = g then f (s.gate g) else s.gate j := Tbl.get_upd ..
theorem State.rm_updRm (s : State) (p j : Nat) (f : Rm → Rm) :
    (s.updRm p f).rm j = if j = p then f (s.rm p) else s.rm j := Tbl.get_upd ..
theorem State.chan_updChan (s : State) (c j : Nat) (f : Chan → Chan) :
    (s.updChan c f).chan j = if j = c then f (s.chan c) else s.chan j := Tbl.get_upd ..
theorem State.domain_updDomain (s : State) (d j : Nat) (f : Domain → Domain) :
    (s.updDomain d f).domain j = if j = d then f (s.domain d) else s.domain j := Tbl.get_upd ..
theorem State.stream_updRun (s : State) (n j : Nat) (f : RunSt → RunSt) :
    (s.updRun n f).stream j = if j = n then { s.stream n with run := f (s.stream n).run } else s.stream j :=
  State.stream_updStream ..
theorem State.stream_updDlv (s : State) (n j : Nat) (f : DlvSt → DlvSt) :
    (s.updDlv n f).stream j = if j = n then { s.stream n with dlv := f (s.stream n).dlv } else s.stream j :=
  State.stream_updStream ..
theorem State.stream_updProt (s : State) (n j : Nat) (f : ProtSt → ProtSt) :
    (s.updProt n f).stream j = if j = n then { s.stream n with prot := f (s.stream n).prot } else s.stream j :=
  State.stream_updStream ..
theorem State.stream_updExact (s : State) (n j : Nat) (f : ExactSt → ExactSt) :
    (s.updExact n f).stream j = if j = n then { s.stream n with exact := f (s.stream n).exact } else s.stream j :=
  State.stream_updStream ..
theorem State.core_setCore (s : State) (c j : Nat) (x : Core) : (s.setCore c x).core j = if j = c then x else s.core j :=
  Tbl.get_set ..
theorem State.ns_setNs (s : State) (k j : Nat) (x : Namespace) : (s.setNs k x).ns j = if j = k then some x else s.ns j :=
  Tbl.find_set ..
theorem State.stored_store (s : State) (key v k : Nat) : (s.store key v).stored k = if k = key then v else s.stored k := by
  unfold State.store State.stored
  simp only [Tbl.find_set]
  by_cases h : k = key
  · simp [h]
  · simp [h]
@[simp] theorem State.stored_store_self (s : State) (key v : Nat) : (s.store key v).stored key = v := by
  simp [State.stored_store]
theorem State.stored_count (s : State) (key n k : Nat) :
    (s.count key n).stored k = if k = key then s.stored key + n else s.stored k := State.stored_store ..
@[simp] theorem State.emit_out (s : State) (e : Emit) : (s.emit e).out = s.out ++ [e] := rfl

/-! ## The readings that an update leaves -/

@[simp] theorem State.updStream_core (s : State) (n : Nat) (f : Stream → Stream) (i : Nat) : (s.updStream n f).core i = s.core i := rfl
@[simp] theorem State.updStream_pool (s : State) (n : Nat) (f : Stream → Stream) (i : Nat) : (s.updStream n f).pool i = s.pool i := rfl
@[simp] theorem State.updStream_port (s : State) (n : Nat) (f : Stream → Stream) (i : Nat) : (s.updStream n f).port i = s.port i := rfl
@[simp] theorem State.updStream_gate (s : State) (n : Nat) (f : Stream → Stream) (i : Nat) : (s.updStream n f).gate i = s.gate i := rfl
@[simp] theorem State.updStream_rm (s : State) (n : Nat) (f : Stream → Stream) (i : Nat) : (s.updStream n f).rm i = s.rm i := rfl
@[simp] theorem State.updStream_chan (s : State) (n : Nat) (f : Stream → Stream) (i : Nat) : (s.updStream n f).chan i = s.chan i := rfl
@[simp] theorem State.updStream_domain (s : State) (n : Nat) (f : Stream → Stream) (i : Nat) : (s.updStream n f).domain i = s.domain i := rfl
@[simp] theorem State.updStream_queue (s : State) (n : Nat) (f : Stream → Stream) (i : Nat) : (s.updStream n f).queue i = s.queue i := rfl
@[simp] theorem State.updStream_engine (s : State) (n : Nat) (f : Stream → Stream) (i : Nat) : (s.updStream n f).engine i = s.engine i := rfl
@[simp] theorem State.updStream_image (s : State) (n : Nat) (f : Stream → Stream) (i : Nat) : (s.updStream n f).image i = s.image i := rfl
@[simp] theorem State.updStream_stored (s : State) (n : Nat) (f : Stream → Stream) (i : Nat) : (s.updStream n f).stored i = s.stored i := rfl
@[simp] theorem State.updStream_ns (s : State) (n : Nat) (f : Stream → Stream) (i : Nat) : (s.updStream n f).ns i = s.ns i := rfl
@[simp] theorem State.updStream_job (s : State) (n : Nat) (f : Stream → Stream) (i : Nat) : (s.updStream n f).job i = s.job i := rfl
@[simp] theorem State.updStream_gtc (s : State) (n : Nat) (f : Stream → Stream) : (s.updStream n f).gtc = s.gtc := rfl
@[simp] theorem State.updStream_up (s : State) (n : Nat) (f : Stream → Stream) : (s.updStream n f).up = s.up := rfl
@[simp] theorem State.updRun_core (s : State) (n : Nat) (f : RunSt → RunSt) (i : Nat) : (s.updRun n f).core i = s.core i := rfl
@[simp] theorem State.updRun_pool (s : State) (n : Nat) (f : RunSt → RunSt) (i : Nat) : (s.updRun n f).pool i = s.pool i := rfl
@[simp] theorem State.updRun_port (s : State) (n : Nat) (f : RunSt → RunSt) (i : Nat) : (s.updRun n f).port i = s.port i := rfl
@[simp] theorem State.updRun_gate (s : State) (n : Nat) (f : RunSt → RunSt) (i : Nat) : (s.updRun n f).gate i = s.gate i := rfl
@[simp] theorem State.updRun_rm (s : State) (n : Nat) (f : RunSt → RunSt) (i : Nat) : (s.updRun n f).rm i = s.rm i := rfl
@[simp] theorem State.updRun_chan (s : State) (n : Nat) (f : RunSt → RunSt) (i : Nat) : (s.updRun n f).chan i = s.chan i := rfl
@[simp] theorem State.updRun_domain (s : State) (n : Nat) (f : RunSt → RunSt) (i : Nat) : (s.updRun n f).domain i = s.domain i := rfl
@[simp] theorem State.updRun_queue (s : State) (n : Nat) (f : RunSt → RunSt) (i : Nat) : (s.updRun n f).queue i = s.queue i := rfl
@[simp] theorem State.updRun_engine (s : State) (n : Nat) (f : RunSt → RunSt) (i : Nat) : (s.updRun n f).engine i = s.engine i := rfl
@[simp] theorem State.updRun_image (s : State) (n : Nat) (f : RunSt → RunSt) (i : Nat) : (s.updRun n f).image i = s.image i := rfl
@[simp] theorem State.updRun_stored (s : State) (n : Nat) (f : RunSt → RunSt) (i : Nat) : (s.updRun n f).stored i = s.stored i := rfl
@[simp] theorem State.updRun_ns (s : State) (n : Nat) (f : RunSt → RunSt) (i : Nat) : (s.updRun n f).ns i = s.ns i := rfl
@[simp] theorem State.updRun_job (s : State) (n : Nat) (f : RunSt → RunSt) (i : Nat) : (s.updRun n f).job i = s.job i := rfl
@[simp] theorem State.updRun_gtc (s : State) (n : Nat) (f : RunSt → RunSt) : (s.updRun n f).gtc = s.gtc := rfl
@[simp] theorem State.updRun_up (s : State) (n : Nat) (f : RunSt → RunSt) : (s.updRun n f).up = s.up := rfl
@[simp] theorem State.updDlv_core (s : State) (n : Nat) (f : DlvSt → DlvSt) (i : Nat) : (s.updDlv n f).core i = s.core i := rfl
@[simp] theorem State.updDlv_pool (s : State) (n : Nat) (f : DlvSt → DlvSt) (i : Nat) : (s.updDlv n f).pool i = s.pool i := rfl
@[simp] theorem State.updDlv_port (s : State) (n : Nat) (f : DlvSt → DlvSt) (i : Nat) : (s.updDlv n f).port i = s.port i := rfl
@[simp] theorem State.updDlv_gate (s : State) (n : Nat) (f : DlvSt → DlvSt) (i : Nat) : (s.updDlv n f).gate i = s.gate i := rfl
@[simp] theorem State.updDlv_rm (s : State) (n : Nat) (f : DlvSt → DlvSt) (i : Nat) : (s.updDlv n f).rm i = s.rm i := rfl
@[simp] theorem State.updDlv_chan (s : State) (n : Nat) (f : DlvSt → DlvSt) (i : Nat) : (s.updDlv n f).chan i = s.chan i := rfl
@[simp] theorem State.updDlv_domain (s : State) (n : Nat) (f : DlvSt → DlvSt) (i : Nat) : (s.updDlv n f).domain i = s.domain i := rfl
@[simp] theorem State.updDlv_queue (s : State) (n : Nat) (f : DlvSt → DlvSt) (i : Nat) : (s.updDlv n f).queue i = s.queue i := rfl
@[simp] theorem State.updDlv_engine (s : State) (n : Nat) (f : DlvSt → DlvSt) (i : Nat) : (s.updDlv n f).engine i = s.engine i := rfl
@[simp] theorem State.updDlv_image (s : State) (n : Nat) (f : DlvSt → DlvSt) (i : Nat) : (s.updDlv n f).image i = s.image i := rfl
@[simp] theorem State.updDlv_stored (s : State) (n : Nat) (f : DlvSt → DlvSt) (i : Nat) : (s.updDlv n f).stored i = s.stored i := rfl
@[simp] theorem State.updDlv_ns (s : State) (n : Nat) (f : DlvSt → DlvSt) (i : Nat) : (s.updDlv n f).ns i = s.ns i := rfl
@[simp] theorem State.updDlv_job (s : State) (n : Nat) (f : DlvSt → DlvSt) (i : Nat) : (s.updDlv n f).job i = s.job i := rfl
@[simp] theorem State.updDlv_gtc (s : State) (n : Nat) (f : DlvSt → DlvSt) : (s.updDlv n f).gtc = s.gtc := rfl
@[simp] theorem State.updDlv_up (s : State) (n : Nat) (f : DlvSt → DlvSt) : (s.updDlv n f).up = s.up := rfl
@[simp] theorem State.updProt_core (s : State) (n : Nat) (f : ProtSt → ProtSt) (i : Nat) : (s.updProt n f).core i = s.core i := rfl
@[simp] theorem State.updProt_pool (s : State) (n : Nat) (f : ProtSt → ProtSt) (i : Nat) : (s.updProt n f).pool i = s.pool i := rfl
@[simp] theorem State.updProt_port (s : State) (n : Nat) (f : ProtSt → ProtSt) (i : Nat) : (s.updProt n f).port i = s.port i := rfl
@[simp] theorem State.updProt_gate (s : State) (n : Nat) (f : ProtSt → ProtSt) (i : Nat) : (s.updProt n f).gate i = s.gate i := rfl
@[simp] theorem State.updProt_rm (s : State) (n : Nat) (f : ProtSt → ProtSt) (i : Nat) : (s.updProt n f).rm i = s.rm i := rfl
@[simp] theorem State.updProt_chan (s : State) (n : Nat) (f : ProtSt → ProtSt) (i : Nat) : (s.updProt n f).chan i = s.chan i := rfl
@[simp] theorem State.updProt_domain (s : State) (n : Nat) (f : ProtSt → ProtSt) (i : Nat) : (s.updProt n f).domain i = s.domain i := rfl
@[simp] theorem State.updProt_queue (s : State) (n : Nat) (f : ProtSt → ProtSt) (i : Nat) : (s.updProt n f).queue i = s.queue i := rfl
@[simp] theorem State.updProt_engine (s : State) (n : Nat) (f : ProtSt → ProtSt) (i : Nat) : (s.updProt n f).engine i = s.engine i := rfl
@[simp] theorem State.updProt_image (s : State) (n : Nat) (f : ProtSt → ProtSt) (i : Nat) : (s.updProt n f).image i = s.image i := rfl
@[simp] theorem State.updProt_stored (s : State) (n : Nat) (f : ProtSt → ProtSt) (i : Nat) : (s.updProt n f).stored i = s.stored i := rfl
@[simp] theorem State.updProt_ns (s : State) (n : Nat) (f : ProtSt → ProtSt) (i : Nat) : (s.updProt n f).ns i = s.ns i := rfl
@[simp] theorem State.updProt_job (s : State) (n : Nat) (f : ProtSt → ProtSt) (i : Nat) : (s.updProt n f).job i = s.job i := rfl
@[simp] theorem State.updProt_gtc (s : State) (n : Nat) (f : ProtSt → ProtSt) : (s.updProt n f).gtc = s.gtc := rfl
@[simp] theorem State.updProt_up (s : State) (n : Nat) (f : ProtSt → ProtSt) : (s.updProt n f).up = s.up := rfl
@[simp] theorem State.updExact_core (s : State) (n : Nat) (f : ExactSt → ExactSt) (i : Nat) : (s.updExact n f).core i = s.core i := rfl
@[simp] theorem State.updExact_pool (s : State) (n : Nat) (f : ExactSt → ExactSt) (i : Nat) : (s.updExact n f).pool i = s.pool i := rfl
@[simp] theorem State.updExact_port (s : State) (n : Nat) (f : ExactSt → ExactSt) (i : Nat) : (s.updExact n f).port i = s.port i := rfl
@[simp] theorem State.updExact_gate (s : State) (n : Nat) (f : ExactSt → ExactSt) (i : Nat) : (s.updExact n f).gate i = s.gate i := rfl
@[simp] theorem State.updExact_rm (s : State) (n : Nat) (f : ExactSt → ExactSt) (i : Nat) : (s.updExact n f).rm i = s.rm i := rfl
@[simp] theorem State.updExact_chan (s : State) (n : Nat) (f : ExactSt → ExactSt) (i : Nat) : (s.updExact n f).chan i = s.chan i := rfl
@[simp] theorem State.updExact_domain (s : State) (n : Nat) (f : ExactSt → ExactSt) (i : Nat) : (s.updExact n f).domain i = s.domain i := rfl
@[simp] theorem State.updExact_queue (s : State) (n : Nat) (f : ExactSt → ExactSt) (i : Nat) : (s.updExact n f).queue i = s.queue i := rfl
@[simp] theorem State.updExact_engine (s : State) (n : Nat) (f : ExactSt → ExactSt) (i : Nat) : (s.updExact n f).engine i = s.engine i := rfl
@[simp] theorem State.updExact_image (s : State) (n : Nat) (f : ExactSt → ExactSt) (i : Nat) : (s.updExact n f).image i = s.image i := rfl
@[simp] theorem State.updExact_stored (s : State) (n : Nat) (f : ExactSt → ExactSt) (i : Nat) : (s.updExact n f).stored i = s.stored i := rfl
@[simp] theorem State.updExact_ns (s : State) (n : Nat) (f : ExactSt → ExactSt) (i : Nat) : (s.updExact n f).ns i = s.ns i := rfl
@[simp] theorem State.updExact_job (s : State) (n : Nat) (f : ExactSt → ExactSt) (i : Nat) : (s.updExact n f).job i = s.job i := rfl
@[simp] theorem State.updExact_gtc (s : State) (n : Nat) (f : ExactSt → ExactSt) : (s.updExact n f).gtc = s.gtc := rfl
@[simp] theorem State.updExact_up (s : State) (n : Nat) (f : ExactSt → ExactSt) : (s.updExact n f).up = s.up := rfl
@[simp] theorem State.setCore_stream (s : State) (c : Nat) (x : Core) (i : Nat) : (s.setCore c x).stream i = s.stream i := rfl
@[simp] theorem State.setCore_pool (s : State) (c : Nat) (x : Core) (i : Nat) : (s.setCore c x).pool i = s.pool i := rfl
@[simp] theorem State.setCore_port (s : State) (c : Nat) (x : Core) (i : Nat) : (s.setCore c x).port i = s.port i := rfl
@[simp] theorem State.setCore_gate (s : State) (c : Nat) (x : Core) (i : Nat) : (s.setCore c x).gate i = s.gate i := rfl
@[simp] theorem State.setCore_rm (s : State) (c : Nat) (x : Core) (i : Nat) : (s.setCore c x).rm i = s.rm i := rfl
@[simp] theorem State.setCore_chan (s : State) (c : Nat) (x : Core) (i : Nat) : (s.setCore c x).chan i = s.chan i := rfl
@[simp] theorem State.setCore_domain (s : State) (c : Nat) (x : Core) (i : Nat) : (s.setCore c x).domain i = s.domain i := rfl
@[simp] theorem State.setCore_queue (s : State) (c : Nat) (x : Core) (i : Nat) : (s.setCore c x).queue i = s.queue i := rfl
@[simp] theorem State.setCore_engine (s : State) (c : Nat) (x : Core) (i : Nat) : (s.setCore c x).engine i = s.engine i := rfl
@[simp] theorem State.setCore_image (s : State) (c : Nat) (x : Core) (i : Nat) : (s.setCore c x).image i = s.image i := rfl
@[simp] theorem State.setCore_stored (s : State) (c : Nat) (x : Core) (i : Nat) : (s.setCore c x).stored i = s.stored i := rfl
@[simp] theorem State.setCore_ns (s : State) (c : Nat) (x : Core) (i : Nat) : (s.setCore c x).ns i = s.ns i := rfl
@[simp] theorem State.setCore_job (s : State) (c : Nat) (x : Core) (i : Nat) : (s.setCore c x).job i = s.job i := rfl
@[simp] theorem State.setCore_gtc (s : State) (c : Nat) (x : Core) : (s.setCore c x).gtc = s.gtc := rfl
@[simp] theorem State.setCore_up (s : State) (c : Nat) (x : Core) : (s.setCore c x).up = s.up := rfl
@[simp] theorem State.updPool_stream (s : State) (p : Nat) (f : PoolSt → PoolSt) (i : Nat) : (s.updPool p f).stream i = s.stream i := rfl
@[simp] theorem State.updPool_core (s : State) (p : Nat) (f : PoolSt → PoolSt) (i : Nat) : (s.updPool p f).core i = s.core i := rfl
@[simp] theorem State.updPool_port (s : State) (p : Nat) (f : PoolSt → PoolSt) (i : Nat) : (s.updPool p f).port i = s.port i := rfl
@[simp] theorem State.updPool_gate (s : State) (p : Nat) (f : PoolSt → PoolSt) (i : Nat) : (s.updPool p f).gate i = s.gate i := rfl
@[simp] theorem State.updPool_rm (s : State) (p : Nat) (f : PoolSt → PoolSt) (i : Nat) : (s.updPool p f).rm i = s.rm i := rfl
@[simp] theorem State.updPool_chan (s : State) (p : Nat) (f : PoolSt → PoolSt) (i : Nat) : (s.updPool p f).chan i = s.chan i := rfl
@[simp] theorem State.updPool_domain (s : State) (p : Nat) (f : PoolSt → PoolSt) (i : Nat) : (s.updPool p f).domain i = s.domain i := rfl
@[simp] theorem State.updPool_queue (s : State) (p : Nat) (f : PoolSt → PoolSt) (i : Nat) : (s.updPool p f).queue i = s.queue i := rfl
@[simp] theorem State.updPool_engine (s : State) (p : Nat) (f : PoolSt → PoolSt) (i : Nat) : (s.updPool p f).engine i = s.engine i := rfl
@[simp] theorem State.updPool_image (s : State) (p : Nat) (f : PoolSt → PoolSt) (i : Nat) : (s.updPool p f).image i = s.image i := rfl
@[simp] theorem State.updPool_stored (s : State) (p : Nat) (f : PoolSt → PoolSt) (i : Nat) : (s.updPool p f).stored i = s.stored i := rfl
@[simp] theorem State.updPool_ns (s : State) (p : Nat) (f : PoolSt → PoolSt) (i : Nat) : (s.updPool p f).ns i = s.ns i := rfl
@[simp] theorem State.updPool_job (s : State) (p : Nat) (f : PoolSt → PoolSt) (i : Nat) : (s.updPool p f).job i = s.job i := rfl
@[simp] theorem State.updPool_gtc (s : State) (p : Nat) (f : PoolSt → PoolSt) : (s.updPool p f).gtc = s.gtc := rfl
@[simp] theorem State.updPool_up (s : State) (p : Nat) (f : PoolSt → PoolSt) : (s.updPool p f).up = s.up := rfl
@[simp] theorem State.updPort_stream (s : State) (k : Nat) (f : Port → Port) (i : Nat) : (s.updPort k f).stream i = s.stream i := rfl
@[simp] theorem State.updPort_core (s : State) (k : Nat) (f : Port → Port) (i : Nat) : (s.updPort k f).core i = s.core i := rfl
@[simp] theorem State.updPort_pool (s : State) (k : Nat) (f : Port → Port) (i : Nat) : (s.updPort k f).pool i = s.pool i := rfl
@[simp] theorem State.updPort_gate (s : State) (k : Nat) (f : Port → Port) (i : Nat) : (s.updPort k f).gate i = s.gate i := rfl
@[simp] theorem State.updPort_rm (s : State) (k : Nat) (f : Port → Port) (i : Nat) : (s.updPort k f).rm i = s.rm i := rfl
@[simp] theorem State.updPort_chan (s : State) (k : Nat) (f : Port → Port) (i : Nat) : (s.updPort k f).chan i = s.chan i := rfl
@[simp] theorem State.updPort_domain (s : State) (k : Nat) (f : Port → Port) (i : Nat) : (s.updPort k f).domain i = s.domain i := rfl
@[simp] theorem State.updPort_queue (s : State) (k : Nat) (f : Port → Port) (i : Nat) : (s.updPort k f).queue i = s.queue i := rfl
@[simp] theorem State.updPort_engine (s : State) (k : Nat) (f : Port → Port) (i : Nat) : (s.updPort k f).engine i = s.engine i := rfl
@[simp] theorem State.updPort_image (s : State) (k : Nat) (f : Port → Port) (i : Nat) : (s.updPort k f).image i = s.image i := rfl
@[simp] theorem State.updPort_stored (s : State) (k : Nat) (f : Port → Port) (i : Nat) : (s.updPort k f).stored i = s.stored i := rfl
@[simp] theorem State.updPort_ns (s : State) (k : Nat) (f : Port → Port) (i : Nat) : (s.updPort k f).ns i = s.ns i := rfl
@[simp] theorem State.updPort_job (s : State) (k : Nat) (f : Port → Port) (i : Nat) : (s.updPort k f).job i = s.job i := rfl
@[simp] theorem State.updPort_gtc (s : State) (k : Nat) (f : Port → Port) : (s.updPort k f).gtc = s.gtc := rfl
@[simp] theorem State.updPort_up (s : State) (k : Nat) (f : Port → Port) : (s.updPort k f).up = s.up := rfl
@[simp] theorem State.updQp_stream (s : State) (q : Nat) (f : Qp → Qp) (i : Nat) : (s.updQp q f).stream i = s.stream i := rfl
@[simp] theorem State.updQp_core (s : State) (q : Nat) (f : Qp → Qp) (i : Nat) : (s.updQp q f).core i = s.core i := rfl
@[simp] theorem State.updQp_pool (s : State) (q : Nat) (f : Qp → Qp) (i : Nat) : (s.updQp q f).pool i = s.pool i := rfl
@[simp] theorem State.updQp_gate (s : State) (q : Nat) (f : Qp → Qp) (i : Nat) : (s.updQp q f).gate i = s.gate i := rfl
@[simp] theorem State.updQp_rm (s : State) (q : Nat) (f : Qp → Qp) (i : Nat) : (s.updQp q f).rm i = s.rm i := rfl
@[simp] theorem State.updQp_chan (s : State) (q : Nat) (f : Qp → Qp) (i : Nat) : (s.updQp q f).chan i = s.chan i := rfl
@[simp] theorem State.updQp_domain (s : State) (q : Nat) (f : Qp → Qp) (i : Nat) : (s.updQp q f).domain i = s.domain i := rfl
@[simp] theorem State.updQp_queue (s : State) (q : Nat) (f : Qp → Qp) (i : Nat) : (s.updQp q f).queue i = s.queue i := rfl
@[simp] theorem State.updQp_engine (s : State) (q : Nat) (f : Qp → Qp) (i : Nat) : (s.updQp q f).engine i = s.engine i := rfl
@[simp] theorem State.updQp_image (s : State) (q : Nat) (f : Qp → Qp) (i : Nat) : (s.updQp q f).image i = s.image i := rfl
@[simp] theorem State.updQp_stored (s : State) (q : Nat) (f : Qp → Qp) (i : Nat) : (s.updQp q f).stored i = s.stored i := rfl
@[simp] theorem State.updQp_ns (s : State) (q : Nat) (f : Qp → Qp) (i : Nat) : (s.updQp q f).ns i = s.ns i := rfl
@[simp] theorem State.updQp_job (s : State) (q : Nat) (f : Qp → Qp) (i : Nat) : (s.updQp q f).job i = s.job i := rfl
@[simp] theorem State.updQp_gtc (s : State) (q : Nat) (f : Qp → Qp) : (s.updQp q f).gtc = s.gtc := rfl
@[simp] theorem State.updQp_up (s : State) (q : Nat) (f : Qp → Qp) : (s.updQp q f).up = s.up := rfl
@[simp] theorem State.updGate_stream (s : State) (g : Nat) (f : Gate → Gate) (i : Nat) : (s.updGate g f).stream i = s.stream i := rfl
@[simp] theorem State.updGate_core (s : State) (g : Nat) (f : Gate → Gate) (i : Nat) : (s.updGate g f).core i = s.core i := rfl
@[simp] theorem State.updGate_pool (s : State) (g : Nat) (f : Gate → Gate) (i : Nat) : (s.updGate g f).pool i = s.pool i := rfl
@[simp] theorem State.updGate_port (s : State) (g : Nat) (f : Gate → Gate) (i : Nat) : (s.updGate g f).port i = s.port i := rfl
@[simp] theorem State.updGate_rm (s : State) (g : Nat) (f : Gate → Gate) (i : Nat) : (s.updGate g f).rm i = s.rm i := rfl
@[simp] theorem State.updGate_chan (s : State) (g : Nat) (f : Gate → Gate) (i : Nat) : (s.updGate g f).chan i = s.chan i := rfl
@[simp] theorem State.updGate_domain (s : State) (g : Nat) (f : Gate → Gate) (i : Nat) : (s.updGate g f).domain i = s.domain i := rfl
@[simp] theorem State.updGate_queue (s : State) (g : Nat) (f : Gate → Gate) (i : Nat) : (s.updGate g f).queue i = s.queue i := rfl
@[simp] theorem State.updGate_engine (s : State) (g : Nat) (f : Gate → Gate) (i : Nat) : (s.updGate g f).engine i = s.engine i := rfl
@[simp] theorem State.updGate_image (s : State) (g : Nat) (f : Gate → Gate) (i : Nat) : (s.updGate g f).image i = s.image i := rfl
@[simp] theorem State.updGate_stored (s : State) (g : Nat) (f : Gate → Gate) (i : Nat) : (s.updGate g f).stored i = s.stored i := rfl
@[simp] theorem State.updGate_ns (s : State) (g : Nat) (f : Gate → Gate) (i : Nat) : (s.updGate g f).ns i = s.ns i := rfl
@[simp] theorem State.updGate_job (s : State) (g : Nat) (f : Gate → Gate) (i : Nat) : (s.updGate g f).job i = s.job i := rfl
@[simp] theorem State.updGate_gtc (s : State) (g : Nat) (f : Gate → Gate) : (s.updGate g f).gtc = s.gtc := rfl
@[simp] theorem State.updGate_up (s : State) (g : Nat) (f : Gate → Gate) : (s.updGate g f).up = s.up := rfl
@[simp] theorem State.updRm_stream (s : State) (p : Nat) (f : Rm → Rm) (i : Nat) : (s.updRm p f).stream i = s.stream i := rfl
@[simp] theorem State.updRm_core (s : State) (p : Nat) (f : Rm → Rm) (i : Nat) : (s.updRm p f).core i = s.core i := rfl
@[simp] theorem State.updRm_pool (s : State) (p : Nat) (f : Rm → Rm) (i : Nat) : (s.updRm p f).pool i = s.pool i := rfl
@[simp] theorem State.updRm_port (s : State) (p : Nat) (f : Rm → Rm) (i : Nat) : (s.updRm p f).port i = s.port i := rfl
@[simp] theorem State.updRm_gate (s : State) (p : Nat) (f : Rm → Rm) (i : Nat) : (s.updRm p f).gate i = s.gate i := rfl
@[simp] theorem State.updRm_chan (s : State) (p : Nat) (f : Rm → Rm) (i : Nat) : (s.updRm p f).chan i = s.chan i := rfl
@[simp] theorem State.updRm_domain (s : State) (p : Nat) (f : Rm → Rm) (i : Nat) : (s.updRm p f).domain i = s.domain i := rfl
@[simp] theorem State.updRm_queue (s : State) (p : Nat) (f : Rm → Rm) (i : Nat) : (s.updRm p f).queue i = s.queue i := rfl
@[simp] theorem State.updRm_engine (s : State) (p : Nat) (f : Rm → Rm) (i : Nat) : (s.updRm p f).engine i = s.engine i := rfl
@[simp] theorem State.updRm_image (s : State) (p : Nat) (f : Rm → Rm) (i : Nat) : (s.updRm p f).image i = s.image i := rfl
@[simp] theorem State.updRm_stored (s : State) (p : Nat) (f : Rm → Rm) (i : Nat) : (s.updRm p f).stored i = s.stored i := rfl
@[simp] theorem State.updRm_ns (s : State) (p : Nat) (f : Rm → Rm) (i : Nat) : (s.updRm p f).ns i = s.ns i := rfl
@[simp] theorem State.updRm_job (s : State) (p : Nat) (f : Rm → Rm) (i : Nat) : (s.updRm p f).job i = s.job i := rfl
@[simp] theorem State.updRm_gtc (s : State) (p : Nat) (f : Rm → Rm) : (s.updRm p f).gtc = s.gtc := rfl
@[simp] theorem State.updRm_up (s : State) (p : Nat) (f : Rm → Rm) : (s.updRm p f).up = s.up := rfl
@[simp] theorem State.updChan_stream (s : State) (c : Nat) (f : Chan → Chan) (i : Nat) : (s.updChan c f).stream i = s.stream i := rfl
@[simp] theorem State.updChan_core (s : State) (c : Nat) (f : Chan → Chan) (i : Nat) : (s.updChan c f).core i = s.core i := rfl
@[simp] theorem State.updChan_pool (s : State) (c : Nat) (f : Chan → Chan) (i : Nat) : (s.updChan c f).pool i = s.pool i := rfl
@[simp] theorem State.updChan_port (s : State) (c : Nat) (f : Chan → Chan) (i : Nat) : (s.updChan c f).port i = s.port i := rfl
@[simp] theorem State.updChan_gate (s : State) (c : Nat) (f : Chan → Chan) (i : Nat) : (s.updChan c f).gate i = s.gate i := rfl
@[simp] theorem State.updChan_rm (s : State) (c : Nat) (f : Chan → Chan) (i : Nat) : (s.updChan c f).rm i = s.rm i := rfl
@[simp] theorem State.updChan_domain (s : State) (c : Nat) (f : Chan → Chan) (i : Nat) : (s.updChan c f).domain i = s.domain i := rfl
@[simp] theorem State.updChan_queue (s : State) (c : Nat) (f : Chan → Chan) (i : Nat) : (s.updChan c f).queue i = s.queue i := rfl
@[simp] theorem State.updChan_engine (s : State) (c : Nat) (f : Chan → Chan) (i : Nat) : (s.updChan c f).engine i = s.engine i := rfl
@[simp] theorem State.updChan_image (s : State) (c : Nat) (f : Chan → Chan) (i : Nat) : (s.updChan c f).image i = s.image i := rfl
@[simp] theorem State.updChan_stored (s : State) (c : Nat) (f : Chan → Chan) (i : Nat) : (s.updChan c f).stored i = s.stored i := rfl
@[simp] theorem State.updChan_ns (s : State) (c : Nat) (f : Chan → Chan) (i : Nat) : (s.updChan c f).ns i = s.ns i := rfl
@[simp] theorem State.updChan_job (s : State) (c : Nat) (f : Chan → Chan) (i : Nat) : (s.updChan c f).job i = s.job i := rfl
@[simp] theorem State.updChan_gtc (s : State) (c : Nat) (f : Chan → Chan) : (s.updChan c f).gtc = s.gtc := rfl
@[simp] theorem State.updChan_up (s : State) (c : Nat) (f : Chan → Chan) : (s.updChan c f).up = s.up := rfl
@[simp] theorem State.updDomain_stream (s : State) (d : Nat) (f : Domain → Domain) (i : Nat) : (s.updDomain d f).stream i = s.stream i := rfl
@[simp] theorem State.updDomain_core (s : State) (d : Nat) (f : Domain → Domain) (i : Nat) : (s.updDomain d f).core i = s.core i := rfl
@[simp] theorem State.updDomain_pool (s : State) (d : Nat) (f : Domain → Domain) (i : Nat) : (s.updDomain d f).pool i = s.pool i := rfl
@[simp] theorem State.updDomain_port (s : State) (d : Nat) (f : Domain → Domain) (i : Nat) : (s.updDomain d f).port i = s.port i := rfl
@[simp] theorem State.updDomain_gate (s : State) (d : Nat) (f : Domain → Domain) (i : Nat) : (s.updDomain d f).gate i = s.gate i := rfl
@[simp] theorem State.updDomain_rm (s : State) (d : Nat) (f : Domain → Domain) (i : Nat) : (s.updDomain d f).rm i = s.rm i := rfl
@[simp] theorem State.updDomain_chan (s : State) (d : Nat) (f : Domain → Domain) (i : Nat) : (s.updDomain d f).chan i = s.chan i := rfl
@[simp] theorem State.updDomain_queue (s : State) (d : Nat) (f : Domain → Domain) (i : Nat) : (s.updDomain d f).queue i = s.queue i := rfl
@[simp] theorem State.updDomain_engine (s : State) (d : Nat) (f : Domain → Domain) (i : Nat) : (s.updDomain d f).engine i = s.engine i := rfl
@[simp] theorem State.updDomain_image (s : State) (d : Nat) (f : Domain → Domain) (i : Nat) : (s.updDomain d f).image i = s.image i := rfl
@[simp] theorem State.updDomain_stored (s : State) (d : Nat) (f : Domain → Domain) (i : Nat) : (s.updDomain d f).stored i = s.stored i := rfl
@[simp] theorem State.updDomain_ns (s : State) (d : Nat) (f : Domain → Domain) (i : Nat) : (s.updDomain d f).ns i = s.ns i := rfl
@[simp] theorem State.updDomain_job (s : State) (d : Nat) (f : Domain → Domain) (i : Nat) : (s.updDomain d f).job i = s.job i := rfl
@[simp] theorem State.updDomain_gtc (s : State) (d : Nat) (f : Domain → Domain) : (s.updDomain d f).gtc = s.gtc := rfl
@[simp] theorem State.updDomain_up (s : State) (d : Nat) (f : Domain → Domain) : (s.updDomain d f).up = s.up := rfl
@[simp] theorem State.setNs_stream (s : State) (nsid : Nat) (x : Namespace) (i : Nat) : (s.setNs nsid x).stream i = s.stream i := rfl
@[simp] theorem State.setNs_core (s : State) (nsid : Nat) (x : Namespace) (i : Nat) : (s.setNs nsid x).core i = s.core i := rfl
@[simp] theorem State.setNs_pool (s : State) (nsid : Nat) (x : Namespace) (i : Nat) : (s.setNs nsid x).pool i = s.pool i := rfl
@[simp] theorem State.setNs_port (s : State) (nsid : Nat) (x : Namespace) (i : Nat) : (s.setNs nsid x).port i = s.port i := rfl
@[simp] theorem State.setNs_gate (s : State) (nsid : Nat) (x : Namespace) (i : Nat) : (s.setNs nsid x).gate i = s.gate i := rfl
@[simp] theorem State.setNs_rm (s : State) (nsid : Nat) (x : Namespace) (i : Nat) : (s.setNs nsid x).rm i = s.rm i := rfl
@[simp] theorem State.setNs_chan (s : State) (nsid : Nat) (x : Namespace) (i : Nat) : (s.setNs nsid x).chan i = s.chan i := rfl
@[simp] theorem State.setNs_domain (s : State) (nsid : Nat) (x : Namespace) (i : Nat) : (s.setNs nsid x).domain i = s.domain i := rfl
@[simp] theorem State.setNs_queue (s : State) (nsid : Nat) (x : Namespace) (i : Nat) : (s.setNs nsid x).queue i = s.queue i := rfl
@[simp] theorem State.setNs_engine (s : State) (nsid : Nat) (x : Namespace) (i : Nat) : (s.setNs nsid x).engine i = s.engine i := rfl
@[simp] theorem State.setNs_image (s : State) (nsid : Nat) (x : Namespace) (i : Nat) : (s.setNs nsid x).image i = s.image i := rfl
@[simp] theorem State.setNs_stored (s : State) (nsid : Nat) (x : Namespace) (i : Nat) : (s.setNs nsid x).stored i = s.stored i := rfl
@[simp] theorem State.setNs_job (s : State) (nsid : Nat) (x : Namespace) (i : Nat) : (s.setNs nsid x).job i = s.job i := rfl
@[simp] theorem State.setNs_gtc (s : State) (nsid : Nat) (x : Namespace) : (s.setNs nsid x).gtc = s.gtc := rfl
@[simp] theorem State.setNs_up (s : State) (nsid : Nat) (x : Namespace) : (s.setNs nsid x).up = s.up := rfl
@[simp] theorem State.updJob_stream (s : State) (id : Nat) (f : Job → Job) (i : Nat) : (s.updJob id f).stream i = s.stream i := rfl
@[simp] theorem State.updJob_core (s : State) (id : Nat) (f : Job → Job) (i : Nat) : (s.updJob id f).core i = s.core i := rfl
@[simp] theorem State.updJob_pool (s : State) (id : Nat) (f : Job → Job) (i : Nat) : (s.updJob id f).pool i = s.pool i := rfl
@[simp] theorem State.updJob_port (s : State) (id : Nat) (f : Job → Job) (i : Nat) : (s.updJob id f).port i = s.port i := rfl
@[simp] theorem State.updJob_gate (s : State) (id : Nat) (f : Job → Job) (i : Nat) : (s.updJob id f).gate i = s.gate i := rfl
@[simp] theorem State.updJob_rm (s : State) (id : Nat) (f : Job → Job) (i : Nat) : (s.updJob id f).rm i = s.rm i := rfl
@[simp] theorem State.updJob_chan (s : State) (id : Nat) (f : Job → Job) (i : Nat) : (s.updJob id f).chan i = s.chan i := rfl
@[simp] theorem State.updJob_domain (s : State) (id : Nat) (f : Job → Job) (i : Nat) : (s.updJob id f).domain i = s.domain i := rfl
@[simp] theorem State.updJob_queue (s : State) (id : Nat) (f : Job → Job) (i : Nat) : (s.updJob id f).queue i = s.queue i := rfl
@[simp] theorem State.updJob_engine (s : State) (id : Nat) (f : Job → Job) (i : Nat) : (s.updJob id f).engine i = s.engine i := rfl
@[simp] theorem State.updJob_image (s : State) (id : Nat) (f : Job → Job) (i : Nat) : (s.updJob id f).image i = s.image i := rfl
@[simp] theorem State.updJob_stored (s : State) (id : Nat) (f : Job → Job) (i : Nat) : (s.updJob id f).stored i = s.stored i := rfl
@[simp] theorem State.updJob_ns (s : State) (id : Nat) (f : Job → Job) (i : Nat) : (s.updJob id f).ns i = s.ns i := rfl
@[simp] theorem State.updJob_gtc (s : State) (id : Nat) (f : Job → Job) : (s.updJob id f).gtc = s.gtc := rfl
@[simp] theorem State.updJob_up (s : State) (id : Nat) (f : Job → Job) : (s.updJob id f).up = s.up := rfl
@[simp] theorem State.store_stream (s : State) (key v : Nat) (i : Nat) : (s.store key v).stream i = s.stream i := rfl
@[simp] theorem State.store_core (s : State) (key v : Nat) (i : Nat) : (s.store key v).core i = s.core i := rfl
@[simp] theorem State.store_pool (s : State) (key v : Nat) (i : Nat) : (s.store key v).pool i = s.pool i := rfl
@[simp] theorem State.store_port (s : State) (key v : Nat) (i : Nat) : (s.store key v).port i = s.port i := rfl
@[simp] theorem State.store_gate (s : State) (key v : Nat) (i : Nat) : (s.store key v).gate i = s.gate i := rfl
@[simp] theorem State.store_rm (s : State) (key v : Nat) (i : Nat) : (s.store key v).rm i = s.rm i := rfl
@[simp] theorem State.store_chan (s : State) (key v : Nat) (i : Nat) : (s.store key v).chan i = s.chan i := rfl
@[simp] theorem State.store_domain (s : State) (key v : Nat) (i : Nat) : (s.store key v).domain i = s.domain i := rfl
@[simp] theorem State.store_queue (s : State) (key v : Nat) (i : Nat) : (s.store key v).queue i = s.queue i := rfl
@[simp] theorem State.store_engine (s : State) (key v : Nat) (i : Nat) : (s.store key v).engine i = s.engine i := rfl
@[simp] theorem State.store_image (s : State) (key v : Nat) (i : Nat) : (s.store key v).image i = s.image i := rfl
@[simp] theorem State.store_ns (s : State) (key v : Nat) (i : Nat) : (s.store key v).ns i = s.ns i := rfl
@[simp] theorem State.store_job (s : State) (key v : Nat) (i : Nat) : (s.store key v).job i = s.job i := rfl
@[simp] theorem State.store_gtc (s : State) (key v : Nat) : (s.store key v).gtc = s.gtc := rfl
@[simp] theorem State.store_up (s : State) (key v : Nat) : (s.store key v).up = s.up := rfl
@[simp] theorem State.count_stream (s : State) (key n : Nat) (i : Nat) : (s.count key n).stream i = s.stream i := rfl
@[simp] theorem State.count_core (s : State) (key n : Nat) (i : Nat) : (s.count key n).core i = s.core i := rfl
@[simp] theorem State.count_pool (s : State) (key n : Nat) (i : Nat) : (s.count key n).pool i = s.pool i := rfl
@[simp] theorem State.count_port (s : State) (key n : Nat) (i : Nat) : (s.count key n).port i = s.port i := rfl
@[simp] theorem State.count_gate (s : State) (key n : Nat) (i : Nat) : (s.count key n).gate i = s.gate i := rfl
@[simp] theorem State.count_rm (s : State) (key n : Nat) (i : Nat) : (s.count key n).rm i = s.rm i := rfl
@[simp] theorem State.count_chan (s : State) (key n : Nat) (i : Nat) : (s.count key n).chan i = s.chan i := rfl
@[simp] theorem State.count_domain (s : State) (key n : Nat) (i : Nat) : (s.count key n).domain i = s.domain i := rfl
@[simp] theorem State.count_queue (s : State) (key n : Nat) (i : Nat) : (s.count key n).queue i = s.queue i := rfl
@[simp] theorem State.count_engine (s : State) (key n : Nat) (i : Nat) : (s.count key n).engine i = s.engine i := rfl
@[simp] theorem State.count_image (s : State) (key n : Nat) (i : Nat) : (s.count key n).image i = s.image i := rfl
@[simp] theorem State.count_ns (s : State) (key n : Nat) (i : Nat) : (s.count key n).ns i = s.ns i := rfl
@[simp] theorem State.count_job (s : State) (key n : Nat) (i : Nat) : (s.count key n).job i = s.job i := rfl
@[simp] theorem State.count_gtc (s : State) (key n : Nat) : (s.count key n).gtc = s.gtc := rfl
@[simp] theorem State.count_up (s : State) (key n : Nat) : (s.count key n).up = s.up := rfl
@[simp] theorem State.emit_stream (s : State) (e : Emit) (i : Nat) : (s.emit e).stream i = s.stream i := rfl
@[simp] theorem State.emit_core (s : State) (e : Emit) (i : Nat) : (s.emit e).core i = s.core i := rfl
@[simp] theorem State.emit_pool (s : State) (e : Emit) (i : Nat) : (s.emit e).pool i = s.pool i := rfl
@[simp] theorem State.emit_port (s : State) (e : Emit) (i : Nat) : (s.emit e).port i = s.port i := rfl
@[simp] theorem State.emit_gate (s : State) (e : Emit) (i : Nat) : (s.emit e).gate i = s.gate i := rfl
@[simp] theorem State.emit_rm (s : State) (e : Emit) (i : Nat) : (s.emit e).rm i = s.rm i := rfl
@[simp] theorem State.emit_chan (s : State) (e : Emit) (i : Nat) : (s.emit e).chan i = s.chan i := rfl
@[simp] theorem State.emit_domain (s : State) (e : Emit) (i : Nat) : (s.emit e).domain i = s.domain i := rfl
@[simp] theorem State.emit_queue (s : State) (e : Emit) (i : Nat) : (s.emit e).queue i = s.queue i := rfl
@[simp] theorem State.emit_engine (s : State) (e : Emit) (i : Nat) : (s.emit e).engine i = s.engine i := rfl
@[simp] theorem State.emit_image (s : State) (e : Emit) (i : Nat) : (s.emit e).image i = s.image i := rfl
@[simp] theorem State.emit_stored (s : State) (e : Emit) (i : Nat) : (s.emit e).stored i = s.stored i := rfl
@[simp] theorem State.emit_ns (s : State) (e : Emit) (i : Nat) : (s.emit e).ns i = s.ns i := rfl
@[simp] theorem State.emit_job (s : State) (e : Emit) (i : Nat) : (s.emit e).job i = s.job i := rfl
@[simp] theorem State.emit_gtc (s : State) (e : Emit) : (s.emit e).gtc = s.gtc := rfl
@[simp] theorem State.emit_up (s : State) (e : Emit) : (s.emit e).up = s.up := rfl

end Sys2Proof.Machine
end

