-- ==== Sys2Proof/Laws/Ops.lean ====
section
/-! SUPPORT. The guards through which commands reach their meanings, each said once: when the meaning runs, and what a
command that answers a next state can have done. -/

namespace Sys2Proof.Machine

open Sys2Proof

/-! ## The device is out of reset and not halted -/

theorem whenUp_runs {s : State} (f : State → Res) (h : s.up = true) : whenUp s f = f s := by
  simp [whenUp, h]

theorem whenUp_down {s : State} (f : State → Res) (h : s.up = false) : whenUp s f = .next s := by
  simp [whenUp, h]

/-- A next state under the guard is the meaning's, or the device is in reset or halted and nothing has changed. -/
theorem whenUp_next {s t : State} {f : State → Res} (h : whenUp s f = .next t) :
    (s.up = true ∧ f s = .next t) ∨ (s.up = false ∧ t = s) := by
  unfold whenUp at h
  split at h
  · exact .inl ⟨‹_›, h⟩
  · rename_i hu
    cases h; exact .inr ⟨by simpa using hu, rfl⟩

theorem whenEnclave_runs {s : State} (f : State → Res) (h : s.enclaveUp = true) : whenEnclave s f = f s := by
  simp [whenEnclave, h]

theorem enclaveUp_of_up {s : State} (h : s.up = true) : s.enclaveUp = true := by
  simp [State.enclaveUp, h]

theorem whenRm_runs {p : Nat} {s : State} (f : State → Res) (h : s.up = true) (hr : s.rmRuns p = true)
    (hs : s.sys.step = 0 ∨ 5 ≤ s.sys.step) : whenRm p s f = f s := by
  rcases hs with hs | hs <;> simp [whenRm, whenUp, h, hr, hs]

/-- A duty of Ringmaster p has run, or it waits and nothing has changed. -/
theorem whenRm_next {p : Nat} {s t : State} {f : State → Res} (h : whenRm p s f = .next t) :
    (s.up = true ∧ s.rmRuns p = true ∧ f s = .next t) ∨ t = s := by
  rcases whenUp_next h with ⟨hu, h⟩ | ⟨_, h⟩
  · split at h
    · exact .inl ⟨hu, by simp_all, h⟩
    · cases h; exact .inr rfl
  · exact .inr h

/-! ## Numbers in range -/

theorem withStream_runs {n : Nat} {s : State} (f : State → Res) (hn : n < 64) (h : s.up = true) : withStream n s f = f s := by
  simp [withStream, whenUp, Config.streams, hn, h]

theorem withRmStream_runs {p n : Nat} {s : State} (f : State → Res) (hn : n < 64) (h : s.up = true) (hr : s.rmRuns p = true)
    (hs : s.sys.step = 0 ∨ 5 ≤ s.sys.step) : withRmStream p n s f = f s := by
  rw [withRmStream, withStream_runs _ hn h, whenRm_runs f h hr hs]

theorem withCore_runs {c : Nat} {s : State} (f : State → Res) (hc : c < 384) (hd : s.power.droop.contains (c / 8) = false)
    (h : s.up = true) : withCore c s f = f s := by
  unfold withCore whenUp
  rw [if_pos (by simpa [Config.cores] using hc), hd, h]
  simp

theorem withPort_runs {k : Nat} {s : State} (f : State → Res) (hk : k < 8) (h : s.up = true) : withPort k s f = f s := by
  simp [withPort, whenUp, hk, h]

theorem withRm_runs {p : Nat} {s : State} (f : State → Res) (hp : p < 4) (h : s.up = true) : withRm p s f = f s := by
  simp [withRm, whenUp, hp, h]

theorem withChan_runs {c : Nat} {s : State} (f : State → Res) (hc : c < 64) (h : s.up = true) : withChan c s f = f s := by
  simp [withChan, whenUp, hc, h]

theorem withGate_runs {g : Nat} {s : State} (f : State → Res) (hg : g < 9) (h : s.up = true) : withGate g s f = f s := by
  simp [withGate, whenUp, hg, h]

theorem withUnit_runs {u : Nat} {s : State} (f : State → Res) (hu : u ≤ 48) (h : s.up = true) : withUnit u s f = f s := by
  simp [withUnit, whenUp, hu, h]

theorem withDomain_runs {d : Nat} {s : State} (f : State → Res) (hd : isDomain d = true) (h : s.up = true) :
    withDomain d s f = f s := by
  simp [withDomain, whenUp, hd, h]

theorem withFlash_runs {s : State} (f : State → Res) (h : s.up = true) (ho : s.flashOn = true) : withFlash s f = f s := by
  simp [withFlash, whenUp, h, ho]

/-! ## NVMe commands -/

/-- A command that the controller takes runs its meaning on the state with its entry taken. -/
theorem nvmeRun_takes {s : State} {admin : Bool} {c : NvmeCmd} (f : State → State) (h : s.TakesCommand admin c) :
    nvmeRun admin c s f = .next (f (s.nvmeTake c)) := by
  have hk := h.kind
  simp [nvmeRun, whenUp, h.up, h.waits, h.live, hk]

/-! ## Answers -/

/-- The answer to a request is the first thing that it sends out. -/
theorem answerSession_out (s : State) (id op seq : Nat) (body : Bytes) :
    ∃ l, (s.answerSession id op seq body).out = s.out ++ l := by
  unfold State.answerSession
  split
  · exact ⟨[], by simp⟩
  · exact ⟨_, rfl⟩

/-- A request on a channel or in a session is answered with its response, and then with the datagram that carries it. -/
theorem answer_out (s : State) (src : OdSource) (op seq result status : Nat) (rest : Bytes) (h : ∀ c r, src ≠ .remote c r) :
    ∃ l, (s.answer src op seq result status rest).out =
      s.out ++ .odResponse src (op + 0x80) seq result status rest :: l := by
  unfold State.answer
  cases src with
  | channel c => exact ⟨[], by simp⟩
  | session id =>
    obtain ⟨l, hl⟩ := answerSession_out (s.emit (.odResponse (.session id) (op + 0x80) seq result status rest)) id (op + 0x80) seq
      (odBody result status rest)
    exact ⟨l, by simp [hl]⟩
  | remote c r => exact absurd rfl (h c r)

/-! ## Writes that the owning chapter's rule decides -/

theorem acceptIf_true (s t : State) : acceptIf true s t = accept t := rfl
theorem acceptIf_false (s t : State) : acceptIf false s t = refuse s := rfl

/-- R544: a request for this device that reaches its server is served with its role. -/
theorem gate_admits {s t : State} {src : OdSource} {seq op : Nat} {enclave : Bool} {role : Role} {body : Bytes}
    (f : Role → State → State) (h : s.Admits src seq enclave role t) :
    s.gate_ src seq op 0xFFFF enclave body f = f role t := by
  obtain ⟨s1, h1, h2, h3, h4⟩ := h.received
  have ha : (s.sec.lc = 5) = False := by simp [h.alive]
  have hg : s.goesAway src 0xFFFF = false := by simp [State.goesAway]
  have hs : ((!enclave) && !s.rm0Serves) = false := by
    rcases h.served with e | e <;> simp [e]
  unfold State.gate_
  simp only [ha, if_false, h1, hg, Bool.false_or, hs, Bool.false_eq_true, h2, h3]
  subst h4
  cases src <;> cases enclave <;> rfl

end Sys2Proof.Machine
end

