-- ==== Sys2Proof/Tests/Slice0.lean ====
section
/-! SUPPORT. Small tests: well-formedness, the spec's worked examples, and for every statement a state and operands that meet
its hypotheses (witness_…, in the order of the statements). -/

set_option autoImplicit false
set_option Elab.async false
set_option maxRecDepth 20000
set_option exponentiation.threshold 2048

namespace Sys2Proof.Tests

open Sys2Proof Sys2Proof.Machine

/-! ## Helpers -/

/-- A device that serves: out of reset, DEPLOYED, past ring admission, every domain ON. -/
def live : State := { State.reset with sys := { inReset := false, rstLow := false }, sec := { lc := 3 }, domains := [] }

/-- A serving device whose core 0 runs job 1 of a kernel of one word, with two registers set. -/
def atCore (x : Core) (w : Nat) : Core :=
  { x with job := some 1, kernel := [BitVec.ofNat 64 w], pc := 0, steps := 0, stepLimit := 1 }

/-- The state of that device. -/
def running (x : Core) (w : Nat) : State := { live with cores := [(0, atCore x w)] }

/-- A device whose core 0 is at a word of a row. -/
def Here (x : Core) (w : Nat) (op : Nat × Nat) : Prop := (running x w).AtWord 0 1 (atCore x w) w op

theorem at_word (x : Core) (w : Nat) (op : Nat × Nat) (hw : w < 2 ^ 64) (h : (iClass w, iOp w) = op) :
    Here x w op where
  isCore := by decide +kernel
  clocked := rfl
  up := rfl
  here := rfl
  running := rfl
  within := by simp [atCore]
  word := by simp [atCore, BitVec.toNat_ofNat]; exact hw
  row := h

theorem here {x : Core} {w : Nat} {op : Nat × Nat} (h : w < 2 ^ 64 ∧ (iClass w, iOp w) = op) : Here x w op := at_word x w op h.1 h.2

/-- A format V word: CLASS, OP, PRED, ETYPE, PZ, DST, SRCA, SRCB, SRCC, IMM25. -/
def vword (cls op pred ety pz dst a b c imm : Nat) : Nat :=
  cls * 2 ^ 60 + op * 2 ^ 52 + pred * 2 ^ 49 + ety * 2 ^ 46 + pz * 2 ^ 45 + dst * 2 ^ 40 + a * 2 ^ 35 + b * 2 ^ 30 + c * 2 ^ 25 + imm

/-- A descriptor's 64 bytes from its words. -/
def descBytes (ws : List Nat) : Bytes := (List.range 8).flatMap fun i => leBytes 8 (ws.getD i 0)

/-- An image that holds nothing but its header's counts and its stage descriptors. -/
def img (flags : Nat) (ds : List (List Nat)) : Bytes :=
  zeros 0xC ++ leBytes 4 flags ++ zeros 8 ++ leBytes 2 ds.length ++ zeros 4 ++ leBytes 2 1 ++ zeros 0x60 ++ leBytes 2 1 ++ zeros 2 ++ leBytes 4 0x90 ++
    leBytes 4 (64 * ds.length) ++ zeros 4 ++ ds.flatMap descBytes

/-- Word 0 of a descriptor: STAGE_ID, TYPE, IN_COUNT, OUT_COUNT. -/
def w0 (id type ins outs : Nat) : Nat := id + type * 2 ^ 8 + ins * 2 ^ 24 + outs * 2 ^ 28

/-- The device with an image of these descriptors in image slot 0 and stream 0 on it in a state. -/
def withStream (flags : Nat) (ds : List (List Nat)) (st : StreamState) (s : State) : State :=
  { State.store s (oImageSlot 0) 0 with images := [(0, { image := img flags ds })], streams := [(0, { (s.stream 0) with state := st })] }

/-- The write that a test sends. -/
def wr (src : OdSource) (data : Bytes) : OdReq := { src := src, seq := 1, data := data }
/-- The host on mailbox channel 0, which acts as OPERATOR. -/
def host : OdSource := .channel 0
/-- A FACTORY session of another device, whose request is forwarded. -/
def factory : OdSource := .remote 1 .factory

/-- What a concrete request must show: the state it meets, its object, requester, role and data. -/
def Sends (s : State) (key : Nat) (src : OdSource) (role : Role) (data : Bytes) : Prop :=
  s.ReceivesWrite (wr src data) key role (s.setAsm src none)

theorem sends {s : State} {key : Nat} {src : OdSource} {role : Role} {data : Bytes}
    (h : s.up = true ∧ s.sec.lc ≠ 5 ∧ s.rm0Serves = true ∧ (data.length ≤ 65536 ∧ s.dataLimit src ≠ 1024) ∧ s.roleOf src = some role ∧
      (s.setAsm src none).writeCheck role key data = rOk)
    (ha : s.acceptRequest src 1 = some s := by rfl) (hs : s.roleScrubbed role = false := by rfl)
    (hb : ∀ b, s.atServer src b = s := by intro b; cases b <;> rfl) : Sends s key src role data where
  up := enclaveUp_of_up h.1
  alive := h.2.1
  served := .inr h.2.2.1
  received := ⟨s, ha, h.2.2.2.2.1, hs, by show _ = (s.atServer src _).setAsm src none; rw [hb]⟩
  fits := ⟨h.2.2.2.1.1, fun e => absurd e h.2.2.2.1.2⟩
  valid := h.2.2.2.2.2

/-- A controller that is ready, with the admin queues and I/O queues 1, and one entry waiting in each submission queue. -/
def nvme (s : State) : State :=
  let q : SQueue := { size := 16, tail := 1 }
  let host := { s.host with
    enabled := true, ready := true, sqs := [(0, q), (1, { q with cq := 1 })], cqs := [(0, { size := 16 }), (1, { size := 16 })] }
  { s with host := host }

theorem takes {s : State} {admin : Bool} {c : NvmeCmd}
    (h : s.up = true ∧ s.nvmeCanTake c = true ∧ admin = (c.sq == 0) ∧ s.aborted c = false) : s.TakesCommand admin c :=
  ⟨h.1, h.2.1, h.2.2.1, h.2.2.2⟩

/-- A small medium: one LUN of 20 large blocks, of which block 15 is open for the host and block 16 for relocations. -/
def media : FlashSt :=
  { chips := [(0, 1)], luns := 1, bpl := 20, ppb := 2 ^ 20, good0 := [(0, 18)], blocks := [(15, { use := .openHost }), (16, { use := .openReloc })] }


/-! ## Kernels -/

/-- X1 = 7 and X2 = −3. -/
def regs : Core := { x := [(1, 7), (2, -3)] }

/-- R66, the worked example: VFMA in FP16 of V3 = V1 × V2 + V3 under P2 is the word 0x5015_8308_8600_0000. -/
theorem test_vfma_word : let w := 0x5015830886000000
    (iClass w, iOp w) = (5, 1) ∧ iPred w = 2 ∧ iEtype w = 6 ∧ iPz w = false ∧ iDst w = 3 ∧ iSrcA w = 1 ∧ iSrcB w = 2 ∧ iSrcC w = 3 := by
  decide

/-- R83, the worked example: 300.0 converts to E4M3 0x79 and 500.0 to 0x7E. -/
theorem test_fp32_to_e4m3 : convElem false 7 3 0x43960000 = 0x79 ∧ convElem false 7 3 0x43FA0000 = 0x7E := by decide +kernel

/-- R85, the worked example: 2,048 and seven values of 1 in FP16 sum to 2,054. -/
theorem test_tree_sum : (treeReduce (fpAdd fmtFP16) 3 [0x6800, 0x3C00, 0x3C00, 0x3C00, 0x3C00, 0x3C00, 0x3C00, 0x3C00]).headD 0 = 0x6803 := by
  decide

theorem witness_ScalarArithmeticResults :
    (∀ op ∈ [0, 2, 5, 12], Here regs (vword 0 op 0 0 0 3 1 2 0 0) (0, op) ∧ saluOk (vword 0 op 0 0 0 3 1 2 0 0) = true) ∧
    Here regs (vword 1 0 0 0 0 3 1 0 0 9) (1, 0) ∧ noVector (vword 1 0 0 0 0 3 1 0 0 9) = true ∧
    -- the corners of DIVS: a divisor of 0, and −2^63 by −1
    regs.xr 0 = 0 ∧ ({ x := [(1, -2 ^ 63), (2, -1)] } : Core).xr 1 = -2 ^ 63 :=
  ⟨fun op h => ⟨here (by revert op; decide +kernel), by revert op; decide +kernel⟩,
    here (by decide +kernel), by decide +kernel, by decide +kernel, by decide +kernel⟩

/-- A kernel word of format B: OP, SRCA, SRCB and OFFSET. -/
def bword (op a b off : Nat) : Nat := 2 * 2 ^ 60 + op * 2 ^ 52 + a * 2 ^ 35 + b * 2 ^ 30 + off

theorem witness_BranchesAndJumps :
    -- taken within the kernel, to PC + 0: the last address that exists
    (∀ op ∈ [0, 1, 5, 6], Here regs (bword op 0 0 0) (2, op) ∧ branchOk (bword op 0 0 0) = true ∧ iOffset (bword op 0 0 0) = 0 ∧
      regs.xr (iSrcA (bword op 0 0 0)) = regs.xr (iSrcB (bword op 0 0 0)) ∧ regs.xn (iSrcA (bword op 0 0 0)) = 0) ∧
    Here regs (bword 3 2 1 0) (2, 3) ∧ (regs.xr 2).toInt < (regs.xr 1).toInt ∧
    -- not taken
    Here regs (bword 1 1 2 0) (2, 1) ∧ regs.xr 1 ≠ regs.xr 2 ∧ Here regs (bword 3 1 1 0) (2, 3) ∧ (regs.xr 1).toInt ≤ (regs.xr 1).toInt ∧
    -- outside: one past the end, and one before the start; JR to 7
    (∀ op ∈ [0, 1, 5], Here regs (bword op 0 0 1) (2, op) ∧ iOffset (bword op 0 0 1) = 1) ∧
    (∀ op ∈ [0, 1, 5], Here regs (bword op 0 0 (2 ^ 30 - 1)) (2, op) ∧ iOffset (bword op 0 0 (2 ^ 30 - 1)) = -1) ∧
    Here regs (bword 3 2 1 1) (2, 3) ∧ Here regs (bword 6 1 0 0) (2, 6) ∧ regs.xn 1 = 7 ∧
    ∀ w, (atCore regs w).kernel.length = 1 ∧ (atCore regs w).pc = 0 :=
  ⟨fun op h => ⟨here (by revert op; decide +kernel), by revert op; decide +kernel⟩, here (by decide +kernel),
    by decide +kernel, here (by decide +kernel), by decide +kernel, here (by decide +kernel), by decide +kernel,
    fun op h => ⟨here (by revert op; decide +kernel), by revert op; decide +kernel⟩,
    fun op h => ⟨here (by revert op; decide +kernel), by revert op; decide +kernel⟩,
    here (by decide +kernel), here (by decide +kernel), by decide +kernel, fun _ => ⟨rfl, rfl⟩⟩

/-- A core with 1 KiB of scratch whose X1 is the last address for an 8-byte access, and P1 selects element 0 alone. -/
def edge : Core := { x := [(1, 1016)], memLimit := 1, p := [(1, 1)] }

theorem witness_ScalarMemoryAccess : let w := vword 3 0x03 0 0 0 3 1 0 0 0
    let v := vword 3 0x13 0 0 0 3 1 0 0 0
    Here edge w (3, 0x03) ∧ noVector w = true ∧ Here edge v (3, 0x13) ∧ noVector v = true ∧
    ((1016 : Nat) : Int) = ((edge.xn (iSrcA w) : Int) + iImm35 w) % 2 ^ 64 ∧
    (∀ b, edge.access b 1016 8 8 = 0 ∧ edge.blocked b 1016 8 = false) ∧ edge.access false 1024 8 8 ≠ 0 :=
  ⟨here (by decide +kernel), by decide +kernel, here (by decide +kernel), by decide +kernel, by decide +kernel, by decide +kernel, by decide +kernel⟩

theorem witness_VectorElementResults :
    (∀ op ∈ [0, 2, 4, Config.opVmax.toNat], Here regs (vword 4 op 0 0 0 3 1 2 0 0) (4, op) ∧ Here regs (vword 4 op 0 7 0 3 1 2 0 0) (4, op)) ∧
    (∀ op < 256, valuOk notFp8 (vword 4 op 0 0 0 3 1 2 0 0) = true ∧ valuOk notFp8 (vword 4 op 0 7 0 3 1 2 0 0) = true) ∧
    Here regs (vword 4 16 1 2 1 3 1 2 0 0) (4, 16) ∧ valuOk eInt (vword 4 16 1 2 1 3 1 2 0 0) = true ∧
    (∀ op ∈ [3, 6], Here regs (vword 4 op 0 5 0 3 1 2 0 0) (4, op) ∧ valuOk wideFp (vword 4 op 0 5 0 3 1 2 0 0) = true) ∧
    Here regs (vword 4 7 0 6 0 3 1 2 0 0) (4, 7) ∧ Here regs (vword 4 Config.opVlog2.toNat 0 7 0 3 1 2 0 0) (4, Config.opVlog2.toNat) ∧
    (∀ op < 256, valuOk ieeeFp (vword 4 op 0 6 0 3 1 2 0 0) = true ∧ valuOk ieeeFp (vword 4 op 0 7 0 3 1 2 0 0) = true) ∧
    Here regs (vword 4 32 0 3 0 3 1 0 0 0) (4, 32) ∧ immOk (vword 4 32 0 3 0 3 1 0 0 0) 0 = true ∧
    ∀ op ∈ [1, 2], Here regs (vword 5 op 2 6 0 3 1 2 3 0) (5, op) ∧ wideFp (iEtype (vword 5 op 2 6 0 3 1 2 3 0)) = true ∧
      iImm25 (vword 5 op 2 6 0 3 1 2 3 0) = 0 := by
  have v4 : ∀ op < 256, ∀ e ∈ [0, 7], vword 4 op 0 e 0 3 1 2 0 0 < 2 ^ 64 ∧
      (iClass (vword 4 op 0 e 0 3 1 2 0 0), iOp (vword 4 op 0 e 0 3 1 2 0 0)) = (4, op) := by decide +kernel
  have hm : ∀ op ∈ [0, 2, 4, Config.opVmax.toNat], op < 256 := fun op h => by
    have := Config.opVmax.isLt
    simp at h; omega
  exact ⟨fun op h => ⟨at_word _ _ _ (v4 op (hm op h) 0 (by decide +kernel)).1 (v4 op (hm op h) 0 (by decide +kernel)).2,
      at_word _ _ _ (v4 op (hm op h) 7 (by decide +kernel)).1 (v4 op (hm op h) 7 (by decide +kernel)).2⟩, by decide +kernel, here (by decide +kernel), by decide +kernel,
    fun op h => ⟨here (by revert op; decide +kernel), by revert op; decide +kernel⟩, here (by decide +kernel),
    at_word _ _ _ (v4 _ Config.opVlog2.isLt 7 (by decide +kernel)).1 (v4 _ Config.opVlog2.isLt 7 (by decide +kernel)).2, by decide +kernel,
    here (by decide +kernel), by decide +kernel,
    fun op h => ⟨here (by revert op; decide +kernel), by revert op; decide +kernel⟩⟩

theorem witness_ConversionParts :
    -- as wide or wider: INT8 to FP32 from its last part, 3; narrowing: FP32 to INT8 into part 3; VCVTZ from FP16 to INT16, part 0
    (let w := vword 6 0 0 0 0 3 1 0 0 (7 + 3 * 8);
      Here regs w (6, 0) ∧ immOk w 5 = true ∧ eBits (iEtype w) ≤ eBits (bits (iImm25 w) 2 0) ∧
        bits (iImm25 w) 4 3 < eBits (bits (iImm25 w) 2 0) / eBits (iEtype w)) ∧
    (let w := vword 6 0 0 7 0 3 1 0 0 (0 + 3 * 8);
      Here regs w (6, 0) ∧ immOk w 5 = true ∧ eBits (bits (iImm25 w) 2 0) < eBits (iEtype w) ∧
        bits (iImm25 w) 4 3 < eBits (iEtype w) / eBits (bits (iImm25 w) 2 0)) ∧
    let w := vword 6 1 0 6 1 3 1 0 0 1
    Here regs w (6, 1) ∧ immOk w 5 = true ∧ wideFp (iEtype w) = true ∧ eInt (bits (iImm25 w) 2 0) = true ∧
      eBits (iEtype w) ≤ eBits (bits (iImm25 w) 2 0) :=
  ⟨⟨here (by decide +kernel), by decide +kernel⟩, ⟨here (by decide +kernel), by decide +kernel⟩, here (by decide +kernel), by decide +kernel⟩

theorem witness_ReductionResults :
    (∀ op ∈ [0, 3], ∀ e ∈ [2, 7], let w := vword 7 op 1 e 0 3 1 0 0 0;
      Here edge w (7, op) ∧ valuOk notFp8 w = true ∧ activeElems ((atCore edge w).pr (iPred w)) (eCount (iEtype w)) = [0]) ∧
    (∀ e ∈ [0, 1, 5, 6], let w := vword 7 1 0 e 0 3 1 0 0 0;
      Here regs w (7, 1) ∧ immOk w 0 = true ∧ iEtype w = e) ∧
    -- no selected element: P2 is zero
    let w := vword 7 3 2 2 0 3 1 0 0 0
    Here edge w (7, 3) ∧ valuOk notFp8 w = true ∧ eInt (iEtype w) = true ∧ activeElems ((atCore edge w).pr (iPred w)) (eCount (iEtype w)) = [] :=
  ⟨fun op h e g => ⟨here (by revert op e; decide +kernel), by revert op e; decide +kernel⟩, fun e h => ⟨here (by revert e; decide +kernel), by revert e; decide +kernel⟩,
    here (by decide +kernel), by decide +kernel⟩

theorem witness_VectorMemoryAccess :
    -- one 4-byte element at the end of the scratch: X1 + 4
    (∀ op ∈ [0, 1], let w := vword 8 op 1 7 0 3 1 0 0 4
      let x := atCore edge w
      let adr : Nat → Nat := fun i => (x.xn (iSrcA w) + 4 + i * 4) % 2 ^ 64
      Here edge w (8, op) ∧ iPz w = false ∧ iImm35 w = 4 ∧ adr 0 = 1020 ∧
      (∀ i, (adr i : Int) = ((x.xn (iSrcA w) : Int) + iImm35 w + i * eBytes (iEtype w)) % 2 ^ 64) ∧
      ∀ i ∈ activeElems (x.pr (iPred w)) (eCount (iEtype w)), ∀ b, x.access b (adr i) 4 4 = 0 ∧ x.blocked b (adr i) 4 = false) ∧
    ∀ op ∈ [0, 1], let w := vword 9 op 1 7 0 3 1 0 0 0
      let x := atCore edge w
      let adr : Nat → Nat := fun i => (x.xn (iSrcA w) + elem (x.vr (iSrcB w + i / 32)) 32 (i % 32) * eBytes (iEtype w)) % 2 ^ 64
      Here edge w (9, op) ∧ immOk w 0 = true ∧ iSrcB w % (32 / eBits (iEtype w)) = 0 ∧ x.xn (iSrcA w) % eBytes (iEtype w) = 0 ∧
      ∀ i ∈ activeElems (x.pr (iPred w)) (eCount (iEtype w)), ∀ b, x.access b (adr i) 4 4 = 0 ∧ x.blocked b (adr i) 4 = false := by
  refine ⟨fun op h => ?_, fun op h => ⟨here (by revert op; decide +kernel), by revert op; decide +kernel⟩⟩
  refine ⟨here (by revert op; decide +kernel), by revert op; decide +kernel, by revert op; decide +kernel, by revert op; decide +kernel, fun i => ?_, by revert op; decide +kernel⟩
  have e : ∀ op ∈ [0, 1], iImm35 (vword 8 op 1 7 0 3 1 0 0 4) = 4 ∧ eBytes (iEtype (vword 8 op 1 7 0 3 1 0 0 4)) = 4 := by decide +kernel
  rw [(e op h).1, (e op h).2]
  simp

theorem witness_PredicateResults :
    (∀ e ∈ [2, 6], ∀ d ∈ [0, 7], let w := vword 10 1 1 e 1 d 1 2 0 0;
      Here regs w (10, 1) ∧ valuOk notFp8 w = true ∧ iDst w % 8 = d) ∧
    let w := vword 10 0x13 0 0 0 3 1 0 0 0
    Here regs w (10, 0x13) ∧ immOk w 0 = true :=
  ⟨fun e h d g => ⟨here (by revert e d; decide +kernel), by revert e d; decide +kernel⟩, here (by decide +kernel), by decide +kernel⟩

/-- R90: a descriptor of a product of two single INT8 elements at 64 and 65, whose result goes to 68. -/
def product : Bytes := descBytes [1 + 2 * 2 ^ 14 + 2 * 2 ^ 17, 1 + 2 ^ 16 + 2 ^ 32, 64, 65, 0, 68, 1 + 2 ^ 32, 2 ^ 34]

/-- A core that holds that descriptor at address 0 of its scratch, and the descriptor of tag 3 if it is outstanding. -/
def tmuCore (out : Bool) : Core :=
  { memLimit := 1, scratch := Memory.writeN [] 0 product, tmu := if out then [{ tag := 3, desc := product }] else [] }

theorem witness_TileMatrixUnit : let w := vword 11 0 0 0 0 0 0 0 0 3
    let v := vword 11 1 0 0 0 0 0 0 0 3
    (∀ o, Here (tmuCore o) w (11, 0) ∧ Here (tmuCore o) v (11, 1)) ∧ noVector w = true ∧ immOk w 2 = true ∧ noVector v = true ∧
    immOk v 2 = true ∧ iImm25 w = 3 ∧ (atCore (tmuCore false) w).tmu = [] ∧ (∃ t ∈ (atCore (tmuCore true) w).tmu, t.tag = 3) ∧
    (∀ o, let x := atCore (tmuCore o) w;
      x.access false 0 64 8 = 0 ∧ (tmuDesc (x.load 0 64)).fieldsOk = true ∧ (tmuDesc (x.load 0 64)).check x = 0 ∧ x.blocked false 0 64 = false) ∧
    -- the end of the descriptor
    (running (tmuCore true) w).up = true ∧ (atCore (tmuCore true) w).tmu = [] ++ { tag := 3, desc := product } :: [] :=
  ⟨fun o => ⟨here (by decide +kernel), here (by decide +kernel)⟩, by decide +kernel, by decide +kernel, by decide +kernel, by decide +kernel, by decide +kernel, by decide +kernel, by decide +kernel, by decide +kernel, by decide +kernel,
    by decide +kernel⟩

/-- One KERNEL stage of 1 KiB with a kernel's length of one step and an output of 128 bytes. -/
def kernelStage : List (List Nat) := [[w0 0 4 0 1, 0, 128 * 2 ^ 32, 1 + 2 ^ 32]]

theorem witness_SystemInstructions :
    -- the last draws of a stage: 2^26 − 1, and eight from 2^26 − 8
    (let x : Core := { draw := 2 ^ 26 - 1 }
      let w := vword 12 1 0 0 0 2 0 0 0 0
      Here x w (12, 1) ∧ noVector w = true ∧ immOk w 0 = true ∧ iDst w % 2 = 0 ∧ (atCore x w).draw < 2 ^ 26) ∧
    (let x : Core := { draw := 2 ^ 26 - 8 }
      let w := vword 12 2 0 0 0 2 0 0 0 0
      Here x w (12, 2) ∧ noVector w = true ∧ immOk w 0 = true ∧ (atCore x w).draw + 7 < 2 ^ 26) ∧
    (∀ k ∈ [0, 0x10], let w := vword 12 3 0 0 0 2 0 0 0 k;
      Here regs w (12, 3) ∧ noVector w = true ∧ immOk w 8 = true ∧ ((atCore regs w).sr (iImm25 w)).isSome = true) ∧
    (let w := vword 12 3 0 0 0 2 0 0 0 255;
      Here regs w (12, 3) ∧ noVector w = true ∧ immOk w 8 = true ∧ (atCore regs w).sr (iImm25 w) = none) ∧
    (let w := vword 12 0 0 0 0 0 0 0 0 stReject;
      Here {} w (12, 0) ∧ noVector w = true ∧ immOk w 16 = true ∧ haltStatus (iImm25 w) = true ∧ (atCore {} w).xn (iSrcA w) ≤ (atCore {} w).outMax ∧
        iImm25 w ≠ stSuccess) ∧
    let w := vword 12 0 0 0 0 0 0 0 0 stSuccess
    let s : State := { withStream 0 kernelStage .running (running {} w) with jobs := [{ id := 1, stream := 0 }] }
    s.AtWord 0 1 (atCore {} w) w (12, 0) ∧ noVector w = true ∧ immOk w 16 = true ∧ iImm25 w = stSuccess ∧
      (atCore {} w).xn (iSrcA w) ≤ (atCore {} w).outMax ∧ s.job 1 = some { id := 1, stream := 0 } ∧
      ((s.descsOf 0)[(atCore {} w).stage]?).map Desc.type = some tKernel ∧ tKernel ≠ tScore :=
  ⟨⟨here (by decide +kernel), by decide +kernel⟩, ⟨here (by decide +kernel), by decide +kernel⟩, fun k h => ⟨here (by revert k; decide +kernel), by revert k; decide +kernel⟩,
    ⟨here (by decide +kernel), by decide +kernel⟩, ⟨here (by decide +kernel), by decide +kernel⟩,
    ⟨by decide +kernel, rfl, rfl, rfl, rfl, by decide +kernel, by decide +kernel, by decide +kernel⟩, by decide +kernel, by decide +kernel, by decide +kernel, by decide +kernel, by decide +kernel, by decide +kernel, by decide +kernel⟩

theorem witness_KernelEntryAndEnd :
    -- the step limit; past the last instruction; an undefined word (class 0xD)
    (let x : Core := { job := some 1 };
      x.stepLimit * 1024 ≤ x.steps ∧ x.job = some 1 ∧ ({ live with cores := [(0, x)] } : State).core 0 = x) ∧
    (let x : Core := { job := some 1, stepLimit := 1 };
      x.steps < x.stepLimit * 1024 ∧ x.kernel.length ≤ x.pc ∧ ({ live with cores := [(0, x)] } : State).core 0 = x) ∧
    (let x : Core := { job := some 1, stepLimit := 1, kernel := [0xD000000000000000] };
      x.kernel[x.pc]? = some 0xD000000000000000 ∧ opDefined 0xD000000000000000 = false) ∧
    -- a stage that starts: 1 KiB of an idle Caravan; and one that waits: the other cores hold all of it
    let j : Job := { id := 1, stream := 0, state := .transforming }
    let s : State := { withStream 0 kernelStage .running live with jobs := [j] }
    s.up = true ∧ s.job 1 = some j ∧ ((s.descsOf 0)[0]?).map (fun d => (d.type, d.id, j.running (s.toCorpus 0) d, s.waitsRelease j d)) =
        some (tKernel, 0, true, false) ∧ s.cores = [] ∧ (s.core 0).job = none ∧ (s.domain (carDomain 0)).state = 0 ∧
      (((s.descsOf 0)[0]?).map fun d => decide (s.scratchUsed 0 + kernelMem d ≤ s.scratchMax 0 64 0)) = some true ∧
      (let full : State := { s with cores := [(1, { job := some 2, memLimit := 18432 })] };
        (((full.descsOf 0)[0]?).map fun d => decide (full.scratchMax 0 64 0 < full.scratchUsed 0 + kernelMem d)) = some true) :=
  ⟨by decide +kernel, by decide +kernel, by decide +kernel, by decide +kernel, by decide +kernel, by decide +kernel, rfl, by decide +kernel, by decide +kernel, by decide +kernel, by decide +kernel⟩

/-! ## Streams, images and jobs -/

/-- The stages of an ingest image that delivers to the device: FETCH, PACK and DELIVER with TARGET 2. -/
def ingestStages : List (List Nat) := [[w0 0 0 0 1, 0, 0, 0], [w0 1 8 1 1, 0, 0, 0], [w0 2 9 1 0, 1, 0, 0, 2]]

/-- Pool 0 in Oasis with eight buffers, and a snapshot key for the tenant 0. -/
def pooled (s : State) : State :=
  ((((({ s with sec := { s.sec with snapKeys := [(0, zeros 32)] } } : State).store (oPoolPlace 0) 2).store (oBufCount 0) 8).store (oStopAt 0) 8).store (oPressureAt 0) 8).store (oNoticeAt 0) 8

/-- Stream 0 of such a device, with an ingest image, in a state. -/
def streamIn (st : StreamState) : State := withStream 1 ingestStages st (pooled live)

/-- Commands of CONTROL with the states in which the statement has a clause for them. -/
def controls : List (Nat × StreamState) :=
  [(1, .loaded), (1, .running), (1, .moved), (2, .running), (2, .held), (2, .moved), (2, .paused), (3, .paused), (3, .moved), (3, .running),
   (4, .running), (4, .idle), (4, .moved), (5, .loaded), (5, .idle), (5, .moved), (6, .moved), (6, .running)]

theorem witness_StreamCommands :
    -- each command of CONTROL reaches stream 0 in the states that the clauses name, and stream 63
    (∀ p ∈ controls, Sends (streamIn p.2) (oControl 0) host .operator [BitVec.ofNat 8 p.1]) ∧
    Sends live (oControl 63) host .operator [6] ∧
    (∀ st : StreamState, let t := (streamIn st).setAsm host none
      (t.stream 0).state = st ∧ t.scrubbing 0 = false ∧ t.imageReleased (t.imageOf 0) = true ∧ t.anyReady 0 = false) ∧
    -- a start that every check allows, and one without its keys
    ((streamIn .loaded).setAsm host none).startCheck 0 = stSuccess ∧
    (((withStream 1 ingestStages .loaded live).setAsm host none).startCheck 0 = stModelNotReleased ∧ stModelNotReleased ≠ stSuccess) ∧
    -- keys that are not released, and a READY slot
    (∃ s : State, Sends s (oControl 0) host .operator [3] ∧ ((s.setAsm host none).stream 0).state = .paused ∧
      (s.setAsm host none).imageReleased ((s.setAsm host none).imageOf 0) = false) ∧
    ∃ s : State, Sends s (oControl 0) host .operator [6] ∧ ((s.setAsm host none).stream 0).state = .moved ∧
      (s.setAsm host none).anyReady 0 = true := by
  refine ⟨fun p h => sends (by revert p; decide +kernel), sends (by decide +kernel), fun st => by cases st <;> decide +kernel, by decide +kernel, by decide +kernel, ?_, ?_⟩
  · exact ⟨withStream 1 ingestStages .paused live, sends (by decide +kernel), by decide +kernel, by decide +kernel⟩
  · exact ⟨{ live with streams := [(0, { state := .moved, dlv := { slots := [(0, { state := .ready })] } })] }, sends (by decide +kernel), by decide +kernel,
      by decide +kernel⟩

/-- A device whose stream 0 is LOADED with an image that is in image slot 0, and that has an unused image in slot 15. -/
def loaded : State :=
  let s := streamIn .loaded
  { s with images := s.images ++ [(15, { image := img 1 ingestStages })] }

theorem witness_StreamSettingsAndImages :
    -- IMAGE_SLOT: none, another one, and refused while RUNNING
    (Sends loaded (oImageSlot 0) host .operator [0xFF] ∧ (loaded.setAsm host none).imageSlotOk 0 0xFF = true) ∧
    (Sends loaded (oImageSlot 0) host .operator [15] ∧ (loaded.setAsm host none).imageSlotOk 0 15 = true ∧
      15 ≠ (loaded.setAsm host none).stored (oImageSlot 0)) ∧
    (Sends (streamIn .running) (oImageSlot 0) host .operator [0] ∧ ((streamIn .running).setAsm host none).imageSlotOk 0 0 = false) ∧
    -- SPLIT_MODE, SPLIT_CUT and CLOCK_EXACT
    (∀ v ∈ [0, 1], Sends live (oSplitMode 63) host .operator [BitVec.ofNat 8 v] ∧ (live.setAsm host none).splitModeOk 63 v = decide (v = 0)) ∧
    (Sends live (oSplitCut 63) host .operator [0] ∧ (live.setAsm host none).splitCutOk 63 0 = true) ∧
    (∃ s : State, Sends s (oSplitCut 0) host .operator [0] ∧ (s.setAsm host none).splitCutOk 0 0 = false) ∧
    (∀ v ∈ [0, 1], Sends live (oClockExact 63) host .operator [BitVec.ofNat 8 v] ∧ (live.setAsm host none).clockExactOk 63 v = decide (v = 0)) ∧
    -- THRESH_EPOCH: armed and cleared
    (∀ b ∈ [0, 0xFF], Sends live (oThreshEpoch 63) host .operator (List.replicate 4 (BitVec.ofNat 8 b))) ∧
    -- UNLOAD of the unused slot, of one in use, and of an empty one
    (Sends loaded (oUnload 15) host .operator [1] ∧ (loaded.setAsm host none).hasImage 15 = true ∧
      (loaded.setAsm host none).imageInUse 15 = false ∧ ((loaded.setAsm host none).image 15).pins = 0) ∧
    (Sends loaded (oUnload 0) host .operator [1] ∧ (loaded.setAsm host none).imageInUse 0 = true) ∧
    (Sends live (oUnload 15) host .operator [1] ∧ (live.setAsm host none).hasImage 15 = false) := by
  refine ⟨⟨sends (by decide +kernel), by decide +kernel⟩, ⟨sends (by decide +kernel), by decide +kernel⟩, ⟨sends (by decide +kernel), by decide +kernel⟩,
    fun v h => ⟨sends (by revert v; decide +kernel), by revert v; decide +kernel⟩, ⟨sends (by decide +kernel), by decide +kernel⟩, ?_,
    fun v h => ⟨sends (by revert v; decide +kernel), by revert v; decide +kernel⟩, fun b h => sends (by revert b; decide +kernel), ⟨sends (by decide +kernel), by decide +kernel⟩,
    ⟨sends (by decide +kernel), by decide +kernel⟩, ⟨sends (by decide +kernel), by decide +kernel⟩⟩
  exact ⟨(withStream 1 ingestStages .loaded live).store (oSplitMode 0) 1, sends (by decide +kernel), by decide +kernel⟩

/-- PIPELINE_LOAD: a first piece, a LAST piece of an image that is malformed, and a LAST piece with bytes missing. The bytes
of an image that is accepted depend on its signature, which is a free value of the model. -/
theorem witness_StreamSettingsAndImages_load :
    (nvme live).rm0Serves = true ∧
    (let c : NvmeCmd := { data := zeros 2, cdw11 := 4 }
     (nvme live).TakesCommand true c ∧ c.data.length ≤ 262144 ∧ bit c.cdw12 0 = false ∧
       (Assembly.take none c.cdw10 c.cdw11 0 c.data).isSome = true) ∧
    (let c : NvmeCmd := { data := zeros 4, cdw11 := 4, cdw12 := 1 }
     let m := (nvme live).nvmeTake c
     (nvme live).TakesCommand true c ∧ bit c.cdw12 0 = true ∧
       (Assembly.take none c.cdw10 c.cdw11 0 c.data).map (fun a => (a.data.length, a.total)) = some (4, 4) ∧
       m.scrubs (imageTenant { image := zeros 4 }) = false ∧ (m.setLoad 0 none).acceptImage (zeros 4) = .error stImageMalformed ∧
       stImageMalformed ≠ stSuccess) ∧
    let c : NvmeCmd := { data := zeros 2, cdw11 := 4, cdw12 := 1 }
    (nvme live).TakesCommand true c ∧ bit c.cdw12 0 = true ∧
      (Assembly.take none c.cdw10 c.cdw11 0 c.data).map (fun a => (a.data.length, a.total)) = some (2, 4) :=
  ⟨by decide +kernel, ⟨takes (by decide +kernel), by decide +kernel⟩, ⟨takes (by decide +kernel), by decide +kernel⟩, takes (by decide +kernel), by decide +kernel⟩

/-- Stream 0 RUNNING in a class, with one job that waits for admission. -/
def admitting (c : Nat) : State :=
  ((streamIn .running).store (oServiceClass 0) c).updRun 0 fun r => { r with toAdmit := [{ pos := 3, sample := 9 }] }

theorem witness_JobAdmission :
    ∀ c ∈ [0, 4, 7], let s := admitting c
      s.serving = true ∧ s.sys.flush = none ∧ (∀ b < c, s.roundRobin b = []) ∧ s.roundRobin c = [0] ∧ (s.tryAdmit c 0).isSome = true ∧
        s.shaperAllows c [] = true ∧ s.jobsS0 < 512 ∧ s.jobsInFlight - s.jobsS0 < 7680 := by decide +kernel

/-- A job of stream 0 whose stages a test ends, with all before `i` done. -/
def jobAt (i : Nat) : Job := { id := 1, stream := 0, state := .fetching, outputs := (List.range i).map fun k => (k, [1]), attempts := 1 }

/-- That job on a stream with an image of these stages. -/
def working (ds : List (List Nat)) (j : Job) : State := { withStream 0 ds .running live with jobs := [j] }

/-- Stages of every kind of a training image: FETCH, COLOUR, CODEC, PACK, DELIVER. -/
def trainStages : List (List Nat) := [[w0 0 0 0 1], [w0 1 3 1 1], [w0 2 7 1 1, 1], [w0 3 8 1 1, 2], [w0 4 9 1 0, 3]]

/-- What the statement asks of a stage whose operation ends. -/
def stageRuns (s : State) (i : Nat) (j : Job) : Bool :=
  match (s.descsOf j.stream)[i]? with
  | some d => s.up && decide (s.job j.id = some j) && d.id == i && j.running (s.toCorpus j.stream) d && !s.waitsRelease j d && s.flashOn &&
      (s.domain (carDomain j.caravan)).state == 0 && true
  | none => false

theorem witness_StageAndCodecCompletion :
    -- FETCH, COLOUR, and CODEC with its blocks coded
    (∀ i ∈ [0, 1], stageRuns (working trainStages (jobAt i)) i (jobAt i) = true) ∧
    (let j := { jobAt 2 with coded := [2] }
     stageRuns (working trainStages j) 2 j = true ∧ 2 ∈ j.coded) ∧
    -- DELIVER of an ingest job
    (let j := { jobAt 2 with state := .packed, ingest := some (1, [7]) }
     let host := { live.host with nss := [(1, { corpus := some { id := 5 } })], attached := [1] }
     let s : State := { streamIn .running with jobs := [j], host := host, flash := media }
     stageRuns s 2 j = true ∧ ((s.descsOf 0)[2]?).map (fun d => (d.type, s.deliverWaits j d)) = some (tDeliver, false)) ∧
    -- a transient status on the third attempt and on the fourth
    (∀ n ∈ [3, 4], let j := { jobAt 0 with attempts := n }
      let s := working trainStages j
      stageRuns s 0 j = true ∧ isTransient stCaravanReset = true ∧
        ((s.descsOf 0)[0]?).map (fun d => (s.lostSample j stCaravanReset d, d.covered)) = some (false, false)) ∧
    -- a codec engine: the last block with work that waits and without, and a block that is not the last
    (let v : CodecWork := { job := 2, stage := 2, cls := 7, total := 1 }
     let w : CodecWork := { job := 1, stage := 2, cls := 4, total := 1 }
     let s : State := { live with engines := [(15, { current := some w, waiting := [v] })] }
     s.up = true ∧ (s.engine 15).current = some w ∧ w.total ≤ w.blocks + 1 ∧ nextWork (s.engine 15).waiting = some v) ∧
    (let w : CodecWork := { job := 1, stage := 2, cls := 7, total := 2 }
     let s : State := { live with engines := [(15, { current := some w })] }
     (s.engine 15).current = some w ∧ (s.engine 15).waiting = [] ∧ w.blocks + 1 < w.total ∧ w.cls < 8 ∧
       ({ w with blocks := 1 } : CodecWork).total ≤ 1 + 1) :=
  ⟨by decide +kernel, by decide +kernel, by decide +kernel, by decide +kernel, by decide +kernel, by decide +kernel⟩

/-! ## Epochs, batches and delivery -/

/-- Stream 0 of a sealed corpus 5 of one sample, RUNNING on a training image, with a neighbourhood of one member. -/
def training : State :=
  let s := withStream 0 trainStages .running (((pooled live).store (oCorpusId 0) 5).store (oNeighbourS 0) 1)
  let host := { live.host with nss := [(1, { corpus := some { id := 5, sealed := true } })], attached := [1] }
  { s with host := host, flash := media }

/-- A list of no entries of source 0 and portion 0 for epoch e of corpus 5. -/
def portionList (e : Nat) : Bytes := leBytes 4 0x4E4C5050 ++ zeros 4 ++ leBytes 4 5 ++ leBytes 4 e ++ zeros 16

theorem witness_PortionListsAndEpochs :
    -- a list for a later epoch and for the present one that has not begun, under an equal fence record; and under a lower one
    (∀ e ∈ [0, 1], let d := portionList e
      training.up = true ∧ 32 ≤ d.length ∧ fieldAt d 0 4 = 0x4E4C5050 ∧ d.length = 32 + 16 * fieldAt d 24 8 ∧
      fieldAt d 8 4 = training.stored (oCorpusId 0) ∧ (training.corpusFor 0).map Prod.fst = some 1 ∧
      (training.corpusFor 0).map (fun c => fenceLt (0, 0) (Tbl.get c.2.fences (0, 0) 0)) = some false ∧
      ((training.run 0).epoch < e ∨ (training.run 0).epoch = e ∧ (training.run 0).begun = false)) ∧
    (let s := training.updCorpus 1 fun c => { c with fences := [(0, (2, 3))] }
     (s.corpusFor 0).map (fun c => fenceLt (1, 7) (Tbl.get c.2.fences (0, 0) 0)) = some true) ∧
    -- every list is there: afresh, and at a cursor that was kept for the epoch
    ∀ kept, let l : Portion := { epoch := 0, source := 0, portion := 0, entries := [(4, 100)] }
      let s := training.updRun 0 fun r => { r with lists := [l], sentLists := some 0, hasCursor := kept }
      s.up = true ∧ s.nextEpoch 0 = some 0 ∧ (s.ensureLists 0 0).epochLists 0 0 = some [l] ∧ s.exactMode 0 = false ∧
        (s.run 0).hasCursor = kept ∧ (s.run 0).epoch = 0 :=
  ⟨by decide +kernel, by decide +kernel, fun kept => by cases kept <;> decide +kernel⟩

/-- The batch of position 0, open, with a state and what it holds. -/
def batch0 (st : BatchState) : OpenBatch := { k := 0, plan := { positions := [0] }, state := st, content := [1, 2] }

/-- Stream 0 in its first epoch of two batches, with the first of them open in a state, and the job of its position. -/
def inEpoch (st : BatchState) (j : Job) : State :=
  let s := training.updRun 0 fun r => { r with begun := true, sorted := [(4, 100), (5, 100)], plan := [{ positions := [0] }, { positions := [1] }], batches := [batch0 st], nextOpen := 1 }
  { s with jobs := [j] }

theorem witness_BatchOpeningAndReleases :
    (let s := inEpoch .open_ (jobAt 1)
     s.up = true ∧ s.mayOpen 0 = true ∧ (s.run 0).plan[(s.run 0).nextOpen]? = some { positions := [1] } ∧ s.toFabric 0 = false) ∧
    -- a release that is due, with its input complete and without
    (∀ i ∈ [0, 1], let j := { jobAt i with relSlot := some 0 }
      let s := (inEpoch .open_ j).updExact 0 fun e => { e with state := 2, launched := true }
      s.up = true ∧ s.job 1 = some j ∧ (s.stream j.stream).exact.state = 2 ∧ j.released = false ∧ s.releaseDue j = true ∧
        s.coveredReady j = decide (i = 1)) ∧
    (let s := training.updExact 0 fun e => { e with launched := false }
     (s.stream 0).state = .running ∧ (s.stream 0).exact.launched = false ∧ s.stored (oLaunchAt 0) ≤ s.gtc) :=
  ⟨by decide +kernel, by decide +kernel, by decide +kernel⟩

/-- The job of position 0, ended with a status and one byte. -/
def ended (st : Nat) : Job := { jobAt 4 with status := some st, sample := 4 }

theorem witness_SettlePositionOutcomes :
    (∀ st ∈ [stSuccess, stReject], ∀ p ∈ [1, 2], let s := (inEpoch .open_ (ended st)).store (oExclPolicy 0) p
      s.up = true ∧ (s.stream 0).state = .running ∧ s.toCorpus 0 = false ∧ s.isSplit 0 = false ∧
      (s.run 0).settling = some (batch0 .open_) ∧ (batch0 .open_).entries.find? (fun e => e.rebuild) = none ∧
      (batch0 .open_).plan.positions[(batch0 .open_).settled]? = some 0 ∧
      s.jobAt 0 0 0 ((batch0 .open_).tries 0) = some (ended st) ∧ (ended st).status = some st ∧
      (∀ x ∈ (s.run 0).batches, x.k = 0 → x = batch0 .open_) ∧ s.stored (oExclPolicy 0) = p) ∧
    (match ((inEpoch .open_ (ended stSuccess)).placing 0 (batch0 .open_) (ended stSuccess)) with | .ok _ => true | .error _ => false) = true :=
  ⟨by decide +kernel, by decide +kernel⟩

/-- Stream 0 with two result slots. -/
def slotted (s : State) : State := (s.store (oSlotCount 0) 2).store (oSlotSize 0) 4096

theorem witness_SlotDelivery :
    (let s := slotted (inEpoch .settled (jobAt 4))
     s.up = true ∧ s.toFabric 0 = false ∧ s.nextDelivery 0 = some (batch0 .settled) ∧ s.slotTakes 0 (batch0 .settled) = true) ∧
    let s := slotted (inEpoch .writing (jobAt 4))
    s.toFabric 0 = false ∧ (s.run 0).batches.find? (fun b => b.state == .writing) = some (batch0 .writing) := by decide +kernel

/-- A stream whose image delivers on a fabric port by RDMA. -/
def fabricStages : List (List Nat) := [[w0 0 0 0 1], [w0 1 8 1 1], [w0 2 9 1 0, 1, 0, 0, 1 + 2 ^ 3]]

theorem witness_FabricDeliveryAndDoorbells :
    (∀ g ∈ [0, 1], let s : State := { inEpoch .settled (jobAt 1) with images := [(0, { image := img 0 fabricStages })] }
      let s := s.updDlv 0 fun d => { d with granted := g }
      s.up = true ∧ s.toFabric 0 = true ∧ (s.stream 0).dlv.creditFence ≤ (s.stream 0).prot.fenceEpoch ∧
      (s.stream 0).dlv.granted = g ∧ (s.stream 0).dlv.dlvSeq = 0 ∧ s.nextDelivery 0 = some (batch0 .settled) ∧
      imgProto (s.imageOf 0).image = 0 ∧ (s.deliveryPort 0).isSome = true) ∧
    -- a doorbell for a READY slot of the present SLOT_GEN: the last slot, 1
    (∀ st ∈ [StreamState.running, .moved], let s := ((slotted (streamIn st)).updSlot 0 1 fun x => { x with gen := 7, state := .ready })
      s.up = true ∧ s.scrubbed 0 = false ∧ (s.stream 0).state = st ∧ bits (7 * 2 ^ 32 + 1) 15 0 = 1 ∧ 1 < s.stored (oSlotCount 0) ∧
      (s.slot 0 1).gen = bits (7 * 2 ^ 32 + 1) 63 32 ∧ (s.slot 0 1).state = .ready ∧
      -- no such slot, and another SLOT_GEN
      s.stored (oSlotCount 0) ≤ bits 2 15 0 ∧ (s.slot 0 1).gen ≠ bits 1 63 32) ∧
    -- a slot that is not READY
    let s := slotted (streamIn .running)
    bits 1 15 0 < s.stored (oSlotCount 0) ∧ (s.slot 0 1).gen = bits 1 63 32 ∧ (s.slot 0 1).state ≠ .ready :=
  ⟨by decide +kernel, by decide +kernel, by decide +kernel⟩

theorem witness_BackfillDeadlineAndWindows :
    -- a backfill request of a split stream, with an entry left; and one of a stream that is not split
    (let s := (slotted (inEpoch .open_ (jobAt 1))).updRun 0 fun r => { r with batches := r.batches.map fun b => { b with mode := 1 } }
     s.up = true ∧ (s.touch 0).backfillCheck 0 (bits 0 31 0) (bits 0 63 32) = stSuccess ∧
       ((s.run 0).epochOf 0).any (fun v => decide (v.cursor < v.sorted.length)) = true) ∧
    (live.touch 0).backfillCheck 63 0 0 ≠ stSuccess ∧
    -- a deadline that is reached exactly
    (let s := ((slotted training).store (oHostDeadline 0) 1).updSlot 0 1 fun x => { x with state := .ready, split := true }
     let s := { s with clk := { s.clk with gtc := 1000000 } }.updChan 0 fun c => { c with rxLen := 4096 }
     (s.chan 0).rxLen ≠ 0 ∧ (s.chan 0).rx = none ∧ s.notices = [] ∧ s.rmSends 0 = true ∧ s.up = true ∧ (s.slot 0 1).state = .ready ∧ (s.slot 0 1).split = true ∧ (s.slot 0 1).timedOut = false ∧
       (s.slot 0 1).readyGtc + s.stored (oHostDeadline 0) * 1000000 ≤ s.gtc) ∧
    -- reads: the header, the last line of a READY slot, a withheld line, and an address of no window; the address space ends at RESULT_DPA
    (let s := ((slotted (streamIn .running)).store oResultDpa 1).updSlot 0 1 fun x => { x with state := .ready, content := [9] }
     s.up = true ∧ 8191 < s.stored oResultDpa * 2 ^ 30 ∧ s.windowAt 4096 = some (0, 1, 0) ∧ s.windowAt 8191 = some (0, 1, 4095) ∧
       s.windowAt 8192 = none ∧ s.scrubbed 0 = false ∧ (s.slot 0 1).poisoned = [] ∧ s.stored oResultDpa * 2 ^ 30 ≤ 2 ^ 30) ∧
    let s := (slotted (streamIn .running)).updSlot 0 1 fun x => { x with state := .ready, poisoned := [(128, stDram)] }
    s.windowAt (4096 + 191) = some (0, 1, 191) ∧ (s.slot 0 1).state = .ready ∧ (s.slot 0 1).poisoned = [(191 - 191 % 64, stDram)] ∧ stDram ≠ stSuccess :=
  ⟨by decide +kernel, by decide +kernel, by decide +kernel, by decide +kernel, by decide +kernel⟩

/-- Corpus 5 of two members, of which this device is member 0, with a record of sample 0. -/
def twoMembers : Corpus := { id := 5, geometry := 2 + 2 ^ 8 + 2 ^ 16, records := [(0, { offset := 0, len := 1, logical := 1 })] }

theorem witness_BandsMigrationAndSnapshots :
    -- the last of each field of a band
    (live.up = true ∧ 7 < 8 ∧ 2 ^ 32 - 1 < 2 ^ 32 ∧ 2 ^ 64 - 1 < 2 ^ 64 ∧ 2 ^ 256 - 1 < 2 ^ 256) ∧
    -- a copy that arrives at the member towards which sample 2 migrates, and the old copy of sample 0 at a member that is not sample 0's
    (let host := { live.host with nss := [(1, { corpus := some twoMembers, extents := [0] })] }
     let s : State := { live with host := host, flash := media }
     s.up = true ∧ twoMembers.locNow 2 = twoMembers.own ∧ Tbl.find twoMembers.records 2 = none ∧
       ({ corpus := some twoMembers, extents := [0] } : Namespace).fits twoMembers 1 = true ∧ s.sampleRoom twoMembers 1 = true ∧
       twoMembers.locNow 0 ≠ twoMembers.own ∧ (Tbl.find twoMembers.records 0).isSome = true) ∧
    -- SNAP_CONTROL in PAUSED, HELD and RUNNING
    (∀ st ∈ [StreamState.paused, .held, .running], Sends (streamIn st) (oSnapControl 0) host .operator [1] ∧
      ((streamIn st).setAsm host none).scrubbing 0 = false ∧ (((streamIn st).setAsm host none).stream 0).state = st) ∧
    -- a pause that has drained
    (let s := training.updStream 0 fun x => { x with draining := true }
     s.up = true ∧ (s.stream 0).state = .running ∧ (s.stream 0).draining = true ∧ s.drained 0 = true) :=
  ⟨by decide +kernel, by decide +kernel, fun st h => ⟨sends (by revert st; decide +kernel), by revert st; decide +kernel⟩, by decide +kernel⟩

/-! ## Buffers, pools and memory errors -/

theorem witness_BuffersPoolsAndReclaim_alloc :
    -- the last buffers of pool 0 for the requester 1023; more than the limit, waiting or not; and beyond a quota
    (let a : AllocReq := { source := .ringmaster 3, pool := 0, count := 8 }
     let s := pooled live
     a.pool < 64 ∧ a.source.exists = true ∧ s.up = true ∧ a.ok = true ∧ s.allocCheck a = stSuccess ∧
       s.partStart a.pool (s.takePart a.pool a.count) + a.count + (s.pool a.pool).filled ≤ 2 ^ 26) ∧
    (let a : AllocReq := { source := .stream 0, pool := 0, count := 9, blocking := true }
     a.ok = true ∧ (pooled live).allocCheck a ≠ stSuccess ∧ a.blocking = true) ∧
    (let a : AllocReq := { source := .stream 0, pool := 0, count := 9 }
     a.ok = true ∧ (pooled live).quotaOk 0 0 9 = true ∧ (pooled live).limitOk 0 a.cls 9 = false ∧ a.blocking = false) ∧
    (let a : AllocReq := { source := .stream 0, pool := 0, count := 2 }
     a.ok = true ∧ ((pooled live).store (oQuota 0 0) 1).quotaOk 0 0 2 = false ∧ a.blocking = false) := by decide +kernel

/-- Pool 0 with one buffer under these holders, whose final owner is the requester 3. -/
def withBuffer (hs : List (Nat × Bool)) (orphan : Bool) : State :=
  { pooled live with buffers := [(0, { requester := 3, holders := hs, owner := 3, orphan := orphan })] }

theorem witness_BuffersPoolsAndReclaim_release :
    ((Requester.stream 63).exists = true ∧ (Requester.nvme 1024).exists = true ∧ (Requester.fabric 511).exists = true ∧
      (Requester.ringmaster 4).exists = false) ∧ live.up = true ∧
    bufKey (bits (3 * 2 ^ 32) 31 26) (bits (3 * 2 ^ 32) 25 0) = 0 ∧ Tbl.find live.buffers 0 = none ∧
    -- unshared; shared and released by one who holds it no more, by one of two, by the final owner last, and by another last
    (∀ hs ∈ [[], [(3, true), (4, false)], [(3, true), (4, true)]], (Tbl.find (withBuffer hs false).buffers 0).map Buffer.holders = some hs) ∧
    ((4, true) ∉ [(3, true), (4, false)] ∧ (3, true) ∈ [(3, true), (4, false)]) ∧
    (∃ h ∈ [(3, false), (4, true)], h.2 = true) ∧ (∀ h ∈ [(3, false), (4, false)], h.2 = false) := by decide +kernel

theorem witness_BuffersPoolsAndReclaim_place :
    -- OFF to Oasis; a change while a stream names the pool; a placement without a size
    (let s := ((pooled live).store (oPoolPlace 0) 0).store (oBufSize 0) 4096
     Sends s (oPoolPlace 0) host .operator [2] ∧ (s.setAsm host none).placeAccepted 0 2 = true ∧ 2 ≠ (s.setAsm host none).stored (oPoolPlace 0)) ∧
    (Sends (streamIn .running) (oPoolPlace 0) host .operator [0] ∧ ((streamIn .running).setAsm host none).stored (oPoolPlace 0) = 2 ∧
      ((streamIn .running).setAsm host none).poolNamed 0 = true) ∧
    (Sends live (oPoolPlace 63) host .operator [3] ∧ (live.setAsm host none).stored (oBufCount 63) = 0 ∧
      3 ≠ (live.setAsm host none).stored (oPoolPlace 63)) ∧
    -- RECLAIM of an orphan, and of a buffer that is none
    ∀ o, Sends (withBuffer [] o) (oReclaim 0) host .operator [1] ∧ ((withBuffer [] o).setAsm host none).allocs = [] ∧
      (((withBuffer [] o).setAsm host none).buffers.map Prod.fst).Nodup :=
  ⟨⟨sends (by decide +kernel), by decide +kernel⟩, ⟨sends (by decide +kernel), by decide +kernel⟩, ⟨sends (by decide +kernel), by decide +kernel⟩,
    fun o => by cases o <;> exact ⟨sends (by decide +kernel), by decide +kernel⟩⟩

theorem witness_ScrubbersPatrolAndCheckpoint :
    -- a line that is not the last, and the last line of the region
    (let s : State := { live with ddrCapacity := 2 ^ 10 }
     s.up = true ∧ 12 + 1 < s.dataRegion / 64 ∧ 13 + 1 = s.dataRegion / 64 ∧ (Tbl.get s.dram {} 12).poison = false) ∧
    (oasisWords - 2 + 1 < oasisWords ∧ 0 + 1 < oasisWords ∧ 0 ∉ live.oasisFailed) ∧
    -- a victim whose units have all moved, which is chosen because it awaits refresh
    (let s : State := { live with flash := { media with blocks := media.blocks ++ [(17, { use := .closed, refresh := true, next := 1 })] } }
     s.up = true ∧ s.flashOn = true ∧ s.victim 0 = some 17 ∧ s.flash.validUnits 17 = [] ∧ (Tbl.get s.flash.blocks {} 17).use = .closed) ∧
    -- a patrol that has passed the last mapped unit, and one that reads a unit
    (live.flashOn = true ∧ live.rmRuns 3 = true ∧ live.sys.step = 0 ∧
      live.flash.map.find? (fun e => live.flash.patrol ≤ e.1 && e.2 ≠ lpnLost) = none) ∧
    (let f : FlashSt := { media with map := [(5, 15 * 2 ^ 22)] }
     f.map.find? (fun e => f.patrol ≤ e.1 && e.2 ≠ lpnLost) = some (5, 15 * 2 ^ 22)) ∧
    -- a dirty segment; the extreme temperatures
    ({ media with dirty := [(0, 0)] } : FlashSt).dirty = (0, 0) :: [] ∧ (∀ x ∈ [(-128 : Int), 127], -128 ≤ x ∧ x ≤ 127) :=
  ⟨by decide +kernel, by decide +kernel, by decide +kernel, by decide +kernel, by decide +kernel, by decide +kernel, by decide +kernel⟩

/-! ## Flash translation and media -/

theorem witness_FlashOperations :
    -- an entry that waits, and the slot it gets
    (let s : State := { live with flash := { media with wbuf := [{ lpn := 5, data := [1] }] } }
     s.up = true ∧ s.flashOn = true ∧ s.nextDestage 0 = some { lpn := 5, data := [1] } ∧
       (s.flash.takeSlot 0 .openHost).map Prod.fst = some (15 * 2 ^ 22)) ∧
    -- the end of its program operation
    (let e : WbEntry := { lpn := 5, data := [1], pun := some (15 * 2 ^ 22) }
     let f := { media with wbuf := [e] }
     f.wbuf.find? (fun x => x.pun == some (15 * 2 ^ 22)) = some e ∧ 15 * 2 ^ 22 ≠ lpnUnmapped ∧ f.validUnits (f.blockOf (15 * 2 ^ 22)) = []) ∧
    -- an erase
    (let f := { media with blocks := [(17, { use := .erasing })] }
     (Tbl.get f.blocks {} 17).use = .erasing ∧ f.validUnits 17 = []) ∧
    -- a unit that is read, and a copy of it that has been programmed and verified, whose source the map names or no longer names
    (∀ src ∈ [15 * 2 ^ 22, 15 * 2 ^ 22 + 1],
      let c : Copy := { src := 15 * 2 ^ 22, dst := 16 * 2 ^ 22, lpn := 5, programmed := true, verified := true }
      let f := { media with map := [(5, src)], units := [(16 * 2 ^ 22, { lpn := 5 })], copies := [c] }
      Tbl.find f.units (16 * 2 ^ 22) = some { lpn := 5 } ∧ (∀ c ∈ f.copies, c.dst = 16 * 2 ^ 22 → c.programmed = true) ∧
        f.copies.find? (fun x => x.src == 15 * 2 ^ 22 && x.verified) = some c ∧ c.dst ≠ lpnUnmapped ∧
        Tbl.get f.map lpnUnmapped c.lpn = src) :=
  ⟨by decide +kernel, by decide +kernel, by decide +kernel, by decide +kernel⟩

/-! ## The NVMe controller -/

/-- A medium and a DRAM that can hold namespaces. -/
def roomy (s : State) : State := { s with flash := media, ddrCapacity := 2 ^ 38 }

theorem witness_NvmeQueuesAndAdmin :
    -- completions and doorbells: the last entry of a queue
    (live.sys.pwrFail = false ∧ live.sys.flush = none ∧ Tbl.find (nvme live).host.sqs 1 = some { size := 16, tail := 1, cq := 1 } ∧
      Tbl.find (nvme live).host.cqs 1 = some { size := 16 } ∧ 15 < 16 ∧ (nvme live).host.events = []) ∧
    (live.up = true ∧ live.host.perst = false ∧ live.host.enabled = false ∧ (nvme live).host.enabled = true) ∧
    -- creation at the bounds: queue 1024, 4,096 entries, vector 1983; a vector beyond; deletion; an abort of a running command
    (let c : NvmeCmd := { cdw10 := 1024 + 4095 * 65536, cdw11 := 65536 }
     let t := (nvme live).nvmeTake c
     (nvme live).TakesCommand true c ∧ bits c.cdw10 15 0 = 1024 ∧ bits c.cdw10 31 16 = 4095 ∧ Tbl.find t.host.sqs 1024 = none ∧ bits c.cdw11 31 16 = 1 ∧
       (Tbl.find t.host.cqs 1).isSome = true ∧ Tbl.find t.host.cqs 1024 = none) ∧
    (∀ v ∈ [1983, 1984], let c : NvmeCmd := { cdw10 := 1024 + 65536, cdw11 := v * 65536 }
      (nvme live).TakesCommand true c ∧ bits c.cdw11 31 16 = v) ∧
    (let c : NvmeCmd := { cdw10 := 1 }
     let t := (nvme live).nvmeTake c
     (nvme live).TakesCommand true c ∧ bits c.cdw10 15 0 ≠ 0 ∧ (Tbl.find t.host.sqs 1).isSome = true) ∧
    (let s := nvme live
     let host := { s.host with sqs := [(0, { size := 16, tail := 1 })] }
     let t : State := { s with host := host }
     t.TakesCommand true { cdw10 := 1 } ∧ (Tbl.find (t.nvmeTake { cdw10 := 1 }).host.cqs 1).isSome = true ∧
       ∀ x ∈ (t.nvmeTake { cdw10 := 1 }).host.sqs, x.2.cq ≠ 1) ∧
    (let s := nvme live
     let host := { s.host with sqs := [(0, { size := 16, tail := 1 }), (1, { size := 16, cq := 1, busy := [9] })] }
     let t : State := { s with host := host }
     t.TakesCommand true { cdw10 := 1 + 9 * 65536 } ∧ 9 ∈ (Tbl.get (t.nvmeTake { cdw10 := 1 + 9 * 65536 }).host.sqs {} 1).busy) := by
  refine ⟨by decide +kernel, by decide +kernel, ⟨takes (by decide +kernel), by decide +kernel⟩, fun v h => ⟨takes (by revert v; decide +kernel), by revert v; decide +kernel⟩,
    ⟨takes (by decide +kernel), by decide +kernel⟩, ⟨takes (by decide +kernel), by decide +kernel⟩, takes (by decide +kernel), by decide +kernel⟩

theorem witness_NvmeQueuesAndAdmin_admin :
    -- Identify of the controller and of the last namespace; a log page there is and one there is not; features
    (∀ f ∈ [0, 1, 2, 4, 7, 8, 0x0B, 0xC1, 0xC4], (nvme live).TakesCommand true { cdw10 := f, nsid := 256 }) ∧
    (let s := nvme live
     let host := { s.host with nss := [(256, { extents := [0] })], attached := [256] }
     let t : State := { s with host := host }
     (t.nvmeTake { nsid := 256 }).ns 256 = some { extents := [0] } ∧ 256 ∈ (t.nvmeTake { nsid := 256 }).host.attached ∧ 1 < 2 ^ 46) ∧
    ((nvme live).nvmeTake { cdw10 := 0xC1 }).logPage 0xC1 = some [] ∧ ((nvme live).nvmeTake { cdw10 := 0xC4 }).logPage 0xC4 = none ∧
    isFeature 8 = true ∧ isFeature 3 = false ∧ ((nvme live).nvmeTake {}).host.events = [] ∧
    (let s := nvme live
     let host := { s.host with features := [(8, 5)] }
     let t : State := { s with host := host }
     Tbl.find (t.nvmeTake { cdw10 := 8 }).host.features 8 = some 5 ∧ bits 8 10 8 = 0) :=
  ⟨fun f h => takes (by revert f; decide +kernel), by decide +kernel, by decide +kernel, by decide +kernel, by decide +kernel, by decide +kernel, by decide +kernel, by decide +kernel⟩

/-- That controller with namespace 1 of one extent in a class, attached or not. -/
def withNs (x : Namespace) (attached : Bool) : State :=
  let s := nvme (roomy live)
  let host := { s.host with nss := [(1, x)], extents := x.extents, attached := if attached then [1] else [] }
  { s with host := host }

/-- What an accepted image of firmware, an accepted pipeline image and an accepted snapshot are is decided by free values
of the model; the clauses about them have no concrete witness. -/
theorem witness_NamespacesAndFirmware :
    (let c : NvmeCmd := { data := zeros 4096 }
     (nvme (roomy live)).TakesCommand true c ∧ bits c.cdw10 3 0 = 0 ∧ fieldAt (zeros 16) 0 8 = fieldAt (zeros 16) 8 8) ∧
    (match ((nvme (roomy live)).nvmeTake {}).createCheck 1 with | .ok _ => true | .error _ => false) = true ∧
    (let c : NvmeCmd := { nsid := 1, cdw10 := 1 }
     (withNs { extents := [0] } true).TakesCommand true c ∧ c.nsid ≠ 0xFFFFFFFF ∧
       ((withNs { extents := [0] } true).nvmeTake c).ns 1 = some { extents := [0] } ∧ 1 ∈ ((withNs { extents := [0] } true).nvmeTake c).host.attached) ∧
    (let c : NvmeCmd := { nsid := 1 }
     let s := withNs { extents := [0] } false
     s.TakesCommand true c ∧ ((s.nvmeTake c).ns 1).isSome = true ∧ 1 ∉ (s.nvmeTake c).host.attached) ∧
    -- FORMAT with SES 0 and 2
    (∀ e ∈ [0, 2], let c : NvmeCmd := { nsid := 1, cdw10 := e * 512 }
      let s := withNs { extents := [0] } true
      let t := s.nvmeTake c
      s.TakesCommand true c ∧ bits c.cdw10 11 9 = e ∧ t.named 1 = [(1, { extents := [0] })] ∧ t.domOff 2 = false ∧ t.scrubs 0 = false ∧
        t.flash.readOnly = false) ∧
    -- a download of the largest piece, and a commit of each slot
    ((nvme live).TakesCommand true { cdw10 := 65535 } ∧ 4 * (65535 + 1) ≤ 262144) ∧
    (∀ k ∈ [0, 1, 2], let c : NvmeCmd := { cdw10 := 8 + k }
      (nvme live).TakesCommand true c ∧ live.rmRuns 2 = true ∧ live.sys.step = 0 ∧ bits c.cdw10 5 3 = 1 ∧
        (((nvme live).nvmeTake c).commitSlot (bits c.cdw10 2 0)).isSome = true) := by
  refine ⟨⟨takes (by decide +kernel), by decide +kernel⟩, by decide +kernel, ⟨takes (by decide +kernel), by decide +kernel⟩, ⟨takes (by decide +kernel), by decide +kernel⟩,
    fun e h => ⟨takes (by revert e; decide +kernel), by revert e; decide +kernel⟩, ⟨takes (by decide +kernel), by decide +kernel⟩,
    fun k h => ⟨takes (by revert k; decide +kernel), by revert k; decide +kernel⟩⟩

theorem witness_NvmeReadsAndWrites :
    -- a read of the last 64 blocks of a namespace, and one that goes beyond it
    (let c : NvmeCmd := { sq := 1, nsid := 1, cdw10 := 262080, cdw12 := 63 }
     let s := withNs { extents := [0] } true
     s.TakesCommand false c ∧ s.attachedNs 1 = some { extents := [0] } ∧ s.scrubs 0 = false ∧ s.domOff 2 = false ∧ s.flashOn = true ∧
       c.blocks = 64 ∧ ({ extents := [0] } : Namespace).holds c.slba c.blocks = true ∧
       ((s.nvmeTake c).readPages { extents := [0] } c.slba 1).isSome = true) ∧
    (let c : NvmeCmd := { sq := 1, nsid := 1, cdw10 := 262144 }
     (withNs { extents := [0] } true).TakesCommand false c ∧ ({ extents := [0] } : Namespace).holds c.slba c.blocks = false ∧ c.blocks ≤ 64) ∧
    -- a page that is LOST
    (let f : FlashSt := { media with map := [(0, lpnLost)] }
     (({ roomy live with flash := f } : State).readPages { extents := [0] } 0 1) = none) ∧
    -- a write within the allowance, one beyond it, and one on READ_ONLY media
    (let c : NvmeCmd := { sq := 1, nsid := 1, data := [1] }
     let s := withNs { extents := [0] } true
     let s : State := { s with hold := { s.hold with dAllow := 4096 } }
     s.TakesCommand false c ∧ s.flash.readOnly = false ∧ s.writeWaits c { extents := [0] } = false ∧ s.goesThrough c = false) ∧
    (let c : NvmeCmd := { sq := 1, nsid := 1, data := [1] }
     let s := withNs { extents := [0] } true
     s.writeWaits c { extents := [0] } = false ∧ s.goesThrough c = true) ∧
    ({ media with readOnly := true } : FlashSt).readOnly = true ∧
    -- a deallocation of one range
    (let c : NvmeCmd := { sq := 1, nsid := 1, cdw11 := 4, data := zeros 4 ++ leBytes 4 8 ++ zeros 8 }
     (withNs { extents := [0] } true).TakesCommand false c ∧ bit c.cdw11 2 = true ∧ c.ranges = [(0, 8)] ∧
       ∀ r ∈ c.ranges, ({ extents := [0] } : Namespace).holds r.1 r.2 = true) ∧
    -- the end of a write-through write
    (let w : WriteThrough := { sq := 1, cid := 7, pages := [(5, [1])] }
     let s := nvme (roomy live)
     let host := { s.host with throughs := [w] }
     let t : State := { s with host := host }
     t.up = true ∧ t.flashOn = true ∧ t.host.throughs.find? (fun v => v.sq == w.sq && v.cid == w.cid) = some w ∧
       (t.programPages w.journal w.key w.pages).isSome = true) := by
  refine ⟨⟨takes (by decide +kernel), by decide +kernel⟩, ⟨takes (by decide +kernel), by decide +kernel⟩, by decide +kernel, ⟨takes (by decide +kernel), by decide +kernel⟩, by decide +kernel, by decide +kernel,
    ⟨takes (by decide +kernel), by decide +kernel⟩, by decide +kernel⟩

/-- The corpus of namespace 1. -/
def withCorpus (p : Corpus) : State := withNs { cls := 2, extents := [0], corpus := some p } true

theorem witness_CorporaSnapshotsAndIngest :
    (let c : NvmeCmd := { cdw10 := 5, cdw13 := 6, cdw14 := 1 }
     let s := nvme (roomy live)
     let t := s.nvmeTake c
     s.TakesCommand true c ∧ s.rmRuns 0 = true ∧ s.sys.step = 0 ∧ t.scrubs 0 = false ∧ driftOk (bits c.cdw13 7 0) = true ∧
       t.corpusOf 5 = none ∧ (match t.createCheck 1 with | .ok _ => true | .error _ => false) = true) ∧
    (let c : NvmeCmd := { nsid := 1, cdw10 := 4 }
     let s := withCorpus { id := 5 }
     s.TakesCommand true c ∧ s.rmRuns 0 = true ∧ s.sys.step = 0 ∧
       (s.nvmeTake c).ns 1 = some { cls := 2, extents := [0], corpus := some { id := 5 } } ∧ ({ id := 5 } : Corpus).sealed = false ∧
       (s.nvmeTake c).scrubs 0 = false) ∧
    -- snapshots of stream 63: with one, without; a first piece of a restore, its LAST piece when the stream is not LOADED, a broken one
    (let c : NvmeCmd := { cdw10 := 63, cdw12 := 4, data := [1, 2] }
     let s := nvme live
     s.TakesCommand true c ∧ c.cdw10 < 64 ∧ (s.nvmeTake c).scrubbed 63 = false ∧ ((s.nvmeTake c).stream 63).snapshot = none ∧
       c.data.length ≤ 262144 ∧ (Assembly.take (Tbl.find (s.nvmeTake c).host.restores 63) 0 4 0 c.data).isSome = true ∧ bit c.cdw13 0 = false) ∧
    (let c : NvmeCmd := { cdw10 := 63, cdw12 := 4, cdw13 := 1, data := [1, 2, 3, 4] }
     let s := (nvme live).updStream 63 fun x => { x with state := .running, snapshot := some [9] }
     s.TakesCommand true c ∧ ((s.nvmeTake c).stream 63).snapshot = some [9] ∧ bit c.cdw13 0 = true ∧
       (Assembly.take (Tbl.find (s.nvmeTake c).host.restores 63) 0 4 0 c.data).isSome = true ∧ ((s.nvmeTake c).stream 63).state = .running) ∧
    (Assembly.take none 4 8 0 [1] = none) ∧
    -- a whole sample stored at its home, one refused since its number is used, and one through the stream 0
    (let c : NvmeCmd := { sq := 1, nsid := 1, cdw10 := 7, cdw12 := 1, cdw14 := 1, data := [1] }
     let p : Corpus := { id := 5 }
     let s := withCorpus p
     let t := s.nvmeTake c
     s.TakesCommand false c ∧ (s.attachedNs 1).map (fun x => (x.corpus, s.scrubs x.tenant, s.ingestWaits c x, x.fits p 1)) = some (some p, false, false, true) ∧
       s.domOff 2 = false ∧ s.flashOn = true ∧ c.data.length = c.cdw12 ∧ t.ingestRefused c p = stSuccess ∧ c.last = true ∧
       (c.extend none t.gtc).stream = none ∧ (match logicalLen [1] 0 with | .ok n => n == 1 | .error _ => false) = true ∧ p.home 7 = p.own) ∧
    (let c : NvmeCmd := { sq := 1, nsid := 1, cdw10 := 0, cdw12 := 1, cdw14 := 1, data := [1] }
     let s := withCorpus twoMembers
     s.TakesCommand false c ∧ (s.nvmeTake c).ingestRefused c twoMembers = stIndexInUse ∧ stIndexInUse ≠ stSuccess) ∧
    (let c : NvmeCmd := { sq := 1, nsid := 1, cdw10 := 7, cdw12 := 1, cdw14 := 1 + 2 ^ 15, data := [1] }
     let q := withCorpus { id := 5 }
     let s : State := { q with streams := (streamIn .running).streams, images := (streamIn .running).images, od := (streamIn .running).od }
     s.TakesCommand false c ∧ (s.nvmeTake c).ingestRefused c { id := 5 } = stSuccess ∧ (c.extend none s.gtc).stream = some 0 ∧ c.last = true) ∧
    -- a piece timeout at 60 s exactly
    (let o : OpenSample := { data := [1] }
     let p : Corpus := { id := 5, open_ := [(7, o)] }
     let s := withCorpus p
     let s : State := { s with clk := { s.clk with gtc := 60 * Config.sec } }
     s.up = true ∧ (s.ns 1).map Namespace.corpus = some (some p) ∧ Tbl.find p.open_ 7 = some o ∧ o.cmd = none ∧ o.at_ + 60 * Config.sec ≤ s.gtc) := by
  refine ⟨⟨takes (by decide +kernel), by decide +kernel⟩, ⟨takes (by decide +kernel), by decide +kernel⟩, ⟨takes (by decide +kernel), by decide +kernel⟩, ⟨takes (by decide +kernel), by decide +kernel⟩,
    by decide +kernel, ⟨takes (by decide +kernel), by decide +kernel⟩, ⟨takes (by decide +kernel), by decide +kernel⟩, ⟨takes (by decide +kernel), by decide +kernel⟩, by decide +kernel⟩

/-- A piece that is not the last: any 64 KiB. -/
theorem witness_CorporaSnapshotsAndIngest_piece (d : Bytes) (h : d.length = 65536) :
    let c : NvmeCmd := { sq := 1, nsid := 1, cdw10 := 7, cdw12 := 65536, data := d }
    (withCorpus { id := 5 }).TakesCommand false c ∧ c.data.length = c.cdw12 ∧ c.last = false ∧
      ((withCorpus { id := 5 }).nvmeTake c).ingestRefused c { id := 5 } = stSuccess := by
  have hc : (withCorpus { id := 5 }).nvmeCanTake { sq := 1, nsid := 1, cdw10 := 7, cdw12 := 65536 } = true := by decide +kernel
  refine ⟨takes ⟨rfl, hc, rfl, rfl⟩, h, (by decide +kernel : bit 0 0 = false), ?_⟩
  have hr : ((withCorpus { id := 5 }).nvmeTake { sq := 1, nsid := 1, cdw10 := 7, cdw12 := 65536, data := d }).flash.readOnly = false := rfl
  simp [State.ingestRefused, h, hr, NvmeCmd.pieceAt, NvmeCmd.last, NvmeCmd.via, Tbl.find, bit]

theorem witness_piece_exists : ∃ d : Bytes, d.length = 65536 := ⟨zeros 65536, List.length_replicate⟩

theorem witness_CxlDeviceCommands :
    (∀ b, let s : State := { live with host := { live.host with cfgLoaded := b } }
      s.sys.inReset = false ∧ s.host.perst = false ∧ s.host.cfgLoaded = b) ∧
    live.stored oResultDpa < 2 ^ 60 ∧ 0 ≤ (Tbl.get live.host.cxlEvents [] 3).length ∧
    (zeros 45).length = 45 ∧ fieldAt ([1] ++ zeros 44) 0 1 = 1 ∧ live.sec.lc = 3 ∧ (∀ lc ∈ [0, 1, 4], lc ≠ 2 ∧ lc ≠ 3) ∧
    -- a withheld line, named by a list that begins at it and is one line long
    (let s := ((slotted (streamIn .running)).updSlot 0 1 fun x => { x with state := .ready, poisoned := [(128, stDram)] })
     s.poisonList = [4096 + 128] ∧ 1 < 65536) := by decide +kernel

/-! ## The Midway fabric and RoCEv2 ports -/

/-- Port 0 in a state. -/
def withPort0 (f : Port → Port) (s : State) : State := s.updPort 0 f

/-- A VERSION frame of the neighbour of port 0, with these versions and partition, from a direction and an x coordinate. -/
def version (lo hi x dir part : Nat) : Frame :=
  { ftype := 4, payload := leBytes 1 lo ++ leBytes 1 hi ++ zeros 2 ++ leBytes 4 part ++ leBytes 1 x ++ zeros 2 ++ leBytes 1 dir ++ zeros 4 }

theorem witness_LinkBringUp :
    (live.up = true ∧ live.deviceScrub = false ∧ live.portOn 0 = true ∧ (live.port 0).link = .down) ∧
    -- the peer's frame: no common version, another place, another direction, and the right ones in this partition and another
    (let s := withPort0 (fun p => { p with link := .training, pcs := true }) live
     s.portOn 0 = true ∧ (s.port 0).pcs = true ∧ (s.port 0).link ≠ .down ∧
       min (s.stored oMidwayVerMax) (fieldAt (version 9 9 0 1 0).payload 1 1) < max 1 (fieldAt (version 9 9 0 1 0).payload 0 1) ∧
       ∀ v ∈ [(0, 0, 1), (7, 0, 1), (0, 1, 1), (0, 0, 0)], let f := version 1 255 v.2.1 v.2.2 v.1
         f.good = true ∧ f.ftype = 4 ∧ max 1 (fieldAt f.payload 0 1) ≤ min (s.stored oMidwayVerMax) (fieldAt f.payload 1 1) ∧
         fieldAt f.payload 4 4 = v.1 ∧ s.stored oPartitionId = 0 ∧
         ((packCoord (fieldAt f.payload 8 1) (fieldAt f.payload 9 1) (fieldAt f.payload 10 1) = s.neighbour (s.portDir 0)) ↔ v.2.1 = 0) ∧
         ((fieldAt f.payload 11 1 = s.portDir 0 ^^^ 1) ↔ v.2.2 = 1)) ∧
    -- a lost lock, and a retrain of exactly 10 ms
    (let s := withPort0 (fun p => { p with link := .retrain }) { live with clk := { live.clk with gtc := 10 * Config.ms } }
     s.isMidway 0 = true ∧ (s.port 0).link ≠ .down ∧ (s.port 0).link = .retrain ∧ (s.port 0).retrainGtc + 10 * Config.ms ≤ s.gtc) := by decide +kernel

theorem witness_LinkSequenceCreditsAndRetry :
    (∀ l ∈ [LinkState.up, .fenced], let s := withPort0 (fun p => { p with link := l, rxSeq := 4095 }) live
      s.up = true ∧ s.deviceScrub = false ∧ s.portOn 0 = true ∧ s.linked 0 = true ∧ (s.port 0).link = l ∧
      -- damaged, out of sequence, and in sequence at the last number
      ({ decodes := false } : Frame).good = false ∧ ({ ftype := 0, fcs := some 0 } : Frame).good = false ∧ ({ lseq := 0 } : Frame).lseq ≠ (s.port 0).rxSeq ∧
      ({ lseq := 4095 } : Frame).lseq = (s.port 0).rxSeq) ∧
    -- held frames 4094, 4095 and 0, of which LACK 0 acknowledges the first two
    (∀ q ∈ [4094, 4095], 1 ≤ (0 + 4096 - q) % 4096 ∧ (0 + 4096 - q) % 4096 ≤ 2048) ∧ ¬ 1 ≤ (0 + 4096 - 0) % 4096 ∧
    -- a replay after 2 µs, the fifteenth and the one that makes the link retrain; a credit frame that is due
    (∀ n ∈ [15, 16], let s := withPort0 (fun p => { p with link := .up, held := [(0, {})], replays := n }) { live with clk := { live.clk with gtc := 2000 } }
      (s.port 0).held ≠ [] ∧ (s.port 0).replays = n ∧ (s.port 0).link = .up ∧ (s.port 0).lackGtc + 2000 ≤ s.gtc ∧ s.linked 0 = true ∧
        (s.port 0).creditGtc + 1000 ≤ s.gtc) ∧
    -- a frame to send
    (let q : QFrame := { frame := { vl := 7, payload := [1] }, since := 0 }
     let s := withPort0 (fun p => { p with link := .up, queue := [q] }) live
     s.portUp 0 = true ∧ s.portCand 0 7 = some q ∧
       s.shaperPick 0 ((List.range 8).filterMap fun c => (s.portCand 0 c).map fun q => (c, q.frame.bytes)) = some (7, q.frame.bytes, .green)) ∧
    -- a RED frame that waits
    (let s := withPort0 (fun p => { p with red := [{ frame := { vl := 7, payload := [1] }, since := 0 }], redRoce := [{ op := 2, qp := 64, cls := 7 }] })
        (((live.store (oPolice 71) 1).store (oPir 71) 0).store (oPbs 71) 0)
     (∀ g ∈ (s.port 0).red, s.policeTint 0 g.frame.vl g.frame.bytes false = .red) ∧
       ∀ x ∈ (s.port 0).redRoce, s.policeTint 0 x.cls x.bytes x.marked = .red) := by decide +kernel

theorem witness_MessagesAndRoce_messages :
    (live.up = true ∧ ({ op := opResp } : Frame).good = true ∧ ({ op := opResp } : Frame).dst = live.coord) ∧
    -- BUSY; transient on the third resend and after it; final; a message whose time has come
    (∀ n ∈ [2, 3], let m : OutMsg := { msgId := 0, head := {}, resends := n }
      let s : State := { live with fabric := { live.fabric with msgs := [m] } }
      s.message 0 = some m ∧ m.retryAt = none ∧ bit 1 0 = true ∧ bit 2 0 = false ∧ isTransient stUnreachable = true ∧
        isTransient stProtection = false ∧ m.resends = n) ∧
    (let m : OutMsg := { msgId := 0, head := { dst := 1 }, retryAt := some 0 }
      let s0 := live.store oTorusGeometry 2
      let s : State := { s0 with fabric := { s0.fabric with msgs := [m] } }
      s.message 0 = some m ∧ m.retryAt = some 0 ∧ 0 ≤ s.gtc ∧ s.inTorus m.head.dst = true ∧ m.head.dst ≠ s.coord) ∧
    -- a one-packet SEND to a system queue pair
    (let f : Frame := { src := 1, op := opSend, dqp := 15, total := 1, payload := [1], digest := (sha3_512 [1]).take 16 }
     f.op = opSend ∧ f.dqp < 16 ∧ f.dqp ≠ qpStore ∧ f.tenant = 0 ∧ f.src ≠ live.coord ∧ f.offset = 0 ∧ f.total = f.payload.length ∧ 0 < f.total ∧ f.total ≤ 4096 ∧
       live.fabric.reasm.find? (fun e => e.src == f.src && e.msgId == f.msgId) = none ∧ live.canEnter f = true ∧
       sliceZ f.digest 0 16 = (sha3_512 f.payload).take 16) ∧
    -- a frame that has waited 100 µs, with no port up, and a reassembly that has stood still
    (let q : QFrame := { frame := { dst := 1, payload := [1] }, since := 0 }
     let s : State := { live with fabric := { live.fabric with waiting := [q] }, clk := { live.clk with gtc := 100000 } }
     s.fabric.waiting.find? (fun q => q.frame.src == 0 && q.frame.msgId == 0 && q.frame.offset == 0) = some q ∧ q.since + 100000 ≤ s.gtc ∧
       s.routeFrame q.frame q.dim = none) ∧
    (let e : Reasm := { src := 0, msgId := 0, head := {}, at_ := 0 }
     let s : State := { live with fabric := { live.fabric with reasm := [e] } }
     s.fabric.reasm.find? (fun e => e.src == 0 && e.msgId == 0) = some e ∧ e.at_ + 1000 * live.stored oReasmTimeout ≤ 1000 * live.stored oReasmTimeout) ∧
    (let s : State := { live with fabric := { live.fabric with qps := [(64, {})] } }
     (Tbl.find s.fabric.qps 64).isSome = true ∧ (s.port 7).stalled = []) := by decide +kernel

/-- A cached RoCEv2 queue pair 64 of stream 0, and its credit window (key 0) and exposed window (key 1) in protection domain 1. -/
def roce (q : Qp) : State :=
  let s := (live.store (oDlvRslots 0) 4)
  let fabric := { s.fabric with
    qps := [(64, { q with pd := 1, cached := true, roce := true })],
    regions := [(0, { pd := 1, len := 64, write := true, kind := 1 }), (1, { pd := 1, len := 64, read := true, kind := 2 })] }
  { s with fabric := fabric, clk := { s.clk with gtc := 50000 } }

theorem witness_MessagesAndRoce_roce :
    (live.up = true ∧ live.roceQp 64 = none ∧ live.scrubbedQp 64 = false ∧ (roce {}).scrubbedQp 64 = false) ∧
    -- a grant of all slots, one too many, and one below what is granted
    (∀ g ∈ [4, 5], let s := roce {}
      let data := leBytes 8 g ++ leBytes 4 0
      s.roceQp 64 = some { pd := 1, cached := true, roce := true } ∧ (s.regionOf 0).map (fun r => (r.kind, r.base, r.stream)) = some (1, 0, 0) ∧
        s.rangeBad 1 0 0 data.length false = false ∧ 12 ≤ data.length ∧ data.length ≤ 64 ∧ fieldAt data 0 8 = g ∧
        fieldAt data 8 4 ≤ (s.stream 0).prot.fenceEpoch ∧ (s.stream 0).dlv.granted ≤ g ∧
        (decide (g ≤ (s.stream 0).dlv.acked + s.stored (oDlvRslots 0)) = decide (g = 4))) ∧
    -- a read of all of the exposed window
    ((roce {}).regionOf 1).map Region.kind = some 2 ∧ (roce {}).rangeBad 1 1 0 64 true = false ∧
    -- acknowledgements, timeouts before and at the seventh retry, CNPs
    (∀ n ∈ [6, 7], let s := roce { unacked := [(3, 5)], retries := n, marked := true }
      ((s.roceQp 64).map fun q => (q.unacked, q.retries, q.cnpGtc, q.cnpSent, q.marked)) = some ([(3, 5)], n, 0, 0, true) ∧
        psnReached 5 5 = true ∧ psnReached 4 5 = false ∧ 0 + 50000 ≤ s.gtc) ∧
    -- packets that pass, and one that is RED, held or dropped
    (∀ x ∈ [{ op := 0, qp := 64, data := leBytes 8 4 ++ leBytes 4 0 }, { op := 1, qp := 64 }, { op := 2, qp := 64 }],
      (roce {}).roceTint { pd := 1, cached := true, roce := true } x ≠ .red) ∧
    (∀ v ∈ [0, 1], let i := 112 + (roce {}).stored (oServiceClass 0)
      let s := ((((roce {}).store (oPolice i) 1).store (oPir i) 0).store (oPbs i) 0).store (oRedAction i) v
      let q : Qp := { pd := 1, cached := true, roce := true }
      s.roceQp 64 = some q ∧ s.roceTint q { op := 2, qp := 64 } = .red ∧ (s.roceArrival q).1 = 6 ∧ s.stored (oRedAction i) = v) :=
  ⟨by decide +kernel, by decide +kernel, by decide +kernel, by decide +kernel, by decide +kernel, by decide +kernel, by decide +kernel⟩

/-! ## Service classes -/

theorem witness_ShapersAndGates :
    -- a parameter that stands and one that does not
    (∀ q ∈ [0, 175], Sends live (keyOf (0x5100 + q) 1) host .operator (zeros 8) ∧ (live.setAsm host none).shaperAccepted q 1 0 = true) ∧
    (let s := (live.store (oPir 128) 5)
     Sends s (keyOf (0x5100 + 128) 1) host .operator (leBytes 8 6) ∧ (s.setAsm host none).shaperAccepted 128 1 6 = false) ∧
    -- a change of gate port 8 at a base that is too early, and at the first that is not
    (∀ b ∈ [99999, 100000], let s := live.store (oAdminBase 8) b
      Sends s (oConfigChange 8) host .operator [1] ∧ (s.setAsm host none).stored (oAdminBase 8) = b ∧ (s.setAsm host none).gtc = 0 ∧
      (s.setAsm host none).changeAccepted 8 = decide (b = 100000)) ∧
    -- a base that has come, and an entry that ends
    (let s := live.updGate 8 fun x => { x with armed := some (0, [0x0F4240FF]) }
     s.up = true ∧ (s.gate 8).armed = some (0, [0x0F4240FF]) ∧ 0 ≤ s.gtc) ∧
    (let s : State := { live with clk := { live.clk with gtc := 1000000 } }
     (s.gate 8).start + gateDur (gateAt (s.gate 8).oper (s.gate 8).cur) ≤ s.gtc) ∧
    -- the lowest class at the first and the last internal resource, and a queue behind which another class waits without tokens
    (∀ res ∈ [17, 20, 21], let s := (live.setQueue (8 * res + 7) { waiting := [(1, 0)] })
      s.up = true ∧ (s.queue (8 * res + 7)).waiting = (1, 0) :: [] ∧ (res = 20 → s.gateAllows 8 7 1 = true) ∧ s.tint (8 * res + 7) 1 .green = .green ∧
        ∀ d < 7, (s.queue (8 * res + d)).waiting = []) ∧
    (∀ c < 8, (live.queue (8 * 21 + c)).waiting = []) ∧ live.gtc % 2 ^ live.stored oSampleK = 0 :=
  ⟨fun q h => ⟨sends (by revert q; decide +kernel), by revert q; decide +kernel⟩, ⟨sends (by decide +kernel), by decide +kernel⟩,
    fun b h => ⟨sends (by revert b; decide +kernel), by revert b; decide +kernel⟩, by decide +kernel, by decide +kernel, by decide +kernel, by decide +kernel, by decide +kernel⟩

/-! ## Power domains, Ringmasters and mailboxes -/

theorem witness_DomainTransitions :
    -- FLASH and the last port domain to OFF, refused for a Midway port and allowed for FLASH; a wake; and the state it is in
    (Sends live (oDomainTarget 2) host .operator [2] ∧ domainAllows 2 2 = true ∧ (live.setAsm host none).targetBad 2 2 = false ∧
      ((live.setAsm host none).domain 2).state = 0 ∧ ((live.setAsm host none).domain 2).heldOff = false) ∧
    (Sends live (oDomainTarget 0x40) host .operator [2] ∧ (live.setAsm host none).targetBad 0x40 2 = true) ∧
    (Sends live (oDomainTarget 0x47) host .operator [0] ∧ domainAllows 0x47 0 = true ∧ ((live.setAsm host none).domain 0x47).state = 0) ∧
    -- the domain 0x47 asleep, ON, at the end of a transition, awaited during one, and OFF
    (∀ st ∈ [0, 1, 2, 3], ∀ w, let s : State := { live with domains := [(0x47, { state := st, going := 1, wakeAfter := w })] }
      isDomain 0x47 = true ∧ s.up = true ∧ (s.domain 0x47).state = st ∧ (s.domain 0x47).wakeAfter = w ∧ (s.domain 0x47).next = none ∧
        (s.domain 0x47).heldOff = false ∧ (s.domOff 0x47 = decide (st = 2)) ∧ 2 ^ 24 - 1 < 2 ^ 24) :=
  ⟨⟨sends (by decide +kernel), by decide +kernel⟩, ⟨sends (by decide +kernel), by decide +kernel⟩, ⟨sends (by decide +kernel), by decide +kernel⟩, by decide +kernel⟩

theorem witness_WatchdogsAndMailboxes :
    -- a second and a third expiry, a hung processor, one that restarts and one that is halted
    (∀ x ∈ [({ times := [0] } : Rm), { times := [0, 0] }, { hung := true }, { state := 1 }, { state := 2 }],
      let s : State := { live with rms := [(3, x)] }
      s.up = true ∧ s.rm 3 = x) ∧
    -- the last host channel: empty, and with a message in each direction
    (55 < 56 ∧ live.domOff 0 = false ∧ (live.chan 55).tx = none ∧ (live.chan 55).rx = none ∧ (live.domain 0).state = 0 ∧
      (∃ p ∈ chanRms 55, live.rmRuns p = true) ∧ deviceEnd 55 0x10 = true ∧ (0 : Nat) % 4096 = 0 ∧ 8191 < 8192 ∧ 2 ^ 24 ≤ 2 ^ 24) ∧
    (let m : MbxDir := { len := 1, body := [1] }
     let s := live.updChan 55 fun x => { x with tx := some m, rx := some m }
     (s.chan 55).tx.isSome = true ∧ (s.chan 55).tx = some m ∧ (s.chan 55).rx = some m) ∧
    -- both ends of channels between the device's own ends
    (∀ x ∈ [(56, 0x10, true), (56, 0x20, false), (60, 0x11, false), (63, 0x12, true), (63, 0x13, false)],
      56 ≤ x.1 ∧ x.1 < 64 ∧ deviceEnd x.1 x.2.1 = true ∧ (live.rmRuns (x.2.1 - 0x10) = true ∨ x.2.1 = 0x20) ∧
        (live.chan x.1).tx = none ∧ (live.chan x.1).rx = none ∧ decide (x.2.1 = 0x10 + (chanRms x.1).headD 0) = x.2.2) ∧
    let s := live.updChan 55 fun x => { x with rxLen := 1 }
    [(1 : Byte)] ≠ [] ∧ [(1 : Byte)].length ≤ 1048576 ∧ (s.chan 55).rx = none ∧ [(1 : Byte)].length ≤ (s.chan 55).rxLen := by decide +kernel

/-! ## Fault tolerance -/

/-- The device at a GTC. -/
def at_ (g : Nat) (s : State) : State := { s with clk := { s.clk with gtc := g } }

theorem witness_HeartbeatsAndDeclaration :
    -- a heartbeat 50 ms after the last, and 1 tick before
    (∀ g ∈ [50 * Config.ms - 1, 50 * Config.ms], let s := at_ g { live with ft := { live.ft with sent := some 0 } }
      s.up = true ∧ s.sys.step = 0 ∧ s.ft.state ≠ 2 ∧ s.deviceScrub = false ∧ s.ft.sent = some 0 ∧
        (decide (s.gtc < 0 + 50 * Config.ms) = decide (g ≠ 50 * Config.ms))) ∧
    -- a peer that is heard: declared and not
    (∀ l ∈ [[], [0x0102]], let s : State := { live with ft := { live.ft with failed := l } }
      s.up = true ∧ fieldAt (leBytes 2 0x0102) 0 2 = 0x0102 ∧ s.ft.failed = l) ∧
    -- 300 ms of silence, and 1 tick less
    ∀ g ∈ [300 * Config.ms - 1, 300 * Config.ms], let s := at_ g { live with ft := { live.ft with heard := [(1, 0)] } }
      s.rmRuns 1 = true ∧ Tbl.find s.ft.heard 1 = some 0 ∧ 1 ∉ s.ft.failed ∧ (decide (0 + 300 * Config.ms ≤ s.gtc) = decide (g = 300 * Config.ms)) := by
  refine ⟨by decide +kernel, by decide +kernel, by decide +kernel⟩

theorem witness_FencesMoveStreams :
    (live.up = true ∧ 1 ≠ live.coord ∧ live.coord = 0 ∧ live.ft.state = 0 ∧ ({ live.ft with autoRejoin := false } : FtSt).autoRejoin = false) ∧
    (let s := streamIn .running
     s.up = true ∧ s.stored (oCorpusId 0) = 0 ∧ s.member 0 = 0 ∧ fenceLt (s.fenceOf 0) (0, 1) = true ∧ (s.stream 0).state ≠ .idle ∧
       (s.stream 0).state ≠ .moved) ∧
    ∀ st ∈ [0, 1], let s : State := { live with ft := { live.ft with state := st } }
      Sends s oRejoin host .operator [1] ∧ (s.setAsm host none).rejoinOk = decide (st = 1) :=
  ⟨by decide +kernel, by decide +kernel, fun st h => ⟨sends (by revert st; decide +kernel), by revert st; decide +kernel⟩⟩

/-- Stream 0, RUNNING, with a protection state. -/
def protecting (p : ProtSt) (s : State) : State := s.updProt 0 fun _ => p

theorem witness_MirrorsOfPairs_owner :
    -- an open at its third step and at its last, and acknowledged snapshots
    (∀ i ∈ [3, 4], let s := protecting { state := 1, openStep := i } (streamIn .running)
      s.up = true ∧ (s.stream 0).prot.state = 1 ∧ (s.stream 0).prot.openStep ≠ 0 ∧ (s.stream 0).prot.openStep = i) ∧
    (let p : ProtSt := { state := 3, unacked := [(4, 1, 0), (5, 2, 0)] }
     (p.unacked.filter fun u => u.1 ≤ 4).getLast? = some (4, 1, 0) ∧ p.state = 3) ∧
    -- a lag: 100 ms and 1 tick without an acknowledgement
    (let s := at_ (100 * Config.ms + 1) (protecting { state := 2, unacked := [(4, 1, 0)] } (streamIn .running))
     (s.stream 0).prot.state = 2 ∧ ∃ u ∈ (s.stream 0).prot.unacked, u.2.2 + 100 * Config.ms < s.gtc) ∧
    -- a mark 10 s after the last, with a mirror and without
    (∀ st ∈ [0, 2], let s := at_ (10 * Config.sec) (protecting { state := st } (streamIn .running))
      (s.stream 0).state = .running ∧ (s.stream 0).prot.lastMark + 10 * Config.sec ≤ s.gtc ∧ (s.stream 0).prot.pendingMark = none ∧ s.mirrors = true ∧
        s.flashOn = true ∧ s.mirrored 0 = decide (st = 2)) ∧
    ((({ pendingMark := some ([1], 4, 0, 1) } : ProtSt).pendingMark) = some ([1], 4, 0, 1)) ∧
    -- PARTNER and MOVE_TO
    (Sends (streamIn .running) (oPartner 0) host .operator [0xFF, 0xFF] ∧ (((streamIn .running).setAsm host none).stream 0).state = .running) ∧
    (let s := protecting { state := 2 } ((streamIn .running).store oTorusGeometry (2 + 2 ^ 8 + 2 ^ 16))
     Sends s (oMoveTo 0) host .operator [1, 0] ∧ ((s.setAsm host none).scrubbing 0) = false ∧ ((s.setAsm host none).stream 0).state = .running ∧
       ((s.setAsm host none).stream 0).prot.state = 2 ∧ (s.setAsm host none).partnerOf 0 = 1 ∧ ((s.setAsm host none).stream 0).prot.moveTo = none) ∧
    (Sends (streamIn .paused) (oMoveTo 0) host .operator [1, 0] ∧ (((streamIn .paused).setAsm host none).stream 0).state ≠ .running) :=
  ⟨by decide +kernel, by decide +kernel, by decide +kernel, by decide +kernel, by decide +kernel, ⟨sends (by decide +kernel), by decide +kernel⟩, ⟨sends (by decide +kernel), by decide +kernel⟩,
    ⟨sends (by decide +kernel), by decide +kernel⟩⟩

/-- Mirror record 0 of stream 3 of the device 1, for the image of image slot 0. -/
def record0 : Mirror := { state := 3, owner := 1, stream := 3, snapshot := [1], member := (5, 0), fence := (1, 0) }

/-- The device with that record. -/
def holding : State := { streamIn .running with ft := { live.ft with mirrors := [(0, record0)] } }

/-- An open that is accepted rests on the arithmetic revisions that the firmware supports, which are a free value. -/
theorem witness_MirrorsOfPairs_partner :
    (holding.up = true ∧ holding.rmRuns 1 = true ∧ holding.sys.step = 0) ∧
    -- an open under a lower fence record; one for an image that is not here
    fenceLt (0, 5) (holding.heldFence 5 0) = true ∧
    (fenceLt (2, 0) (holding.heldFence 5 0) = false ∧ holding.mirrorFor 2 0 = none ∧ holding.freeMirror = some 1 ∧
      holding.openRefused { image := [9] } ≠ 0) ∧
    -- the record's owner: a close; snapshots under the record's fence and a lower one; a location set
    (holding.mirrorFor 1 3 = some (0, record0)) ∧
    (∀ e ∈ [0, 1], let d := zeros 0x10 ++ leBytes 8 1 ++ zeros 0x80 ++ leBytes 4 5 ++ leBytes 2 0 ++ zeros 6 ++ leBytes 4 e
      fieldAt d 0x98 4 = 5 ∧ fieldAt d 0x9C 2 = 0 ∧ (fenceLt (fieldAt d 0xA4 4, 0) (holding.heldFence 5 0) = decide (e = 0)) ∧ record0.seq < fieldAt d 0x10 8) ∧
    holding.flashOn = true ∧
    (let host := { live.host with nss := [(1, { corpus := some { id := 5 } })] }
     let s : State := { holding with host := host }
     (s.corpusOf record0.member.1).map Prod.fst = some 1 ∧ s.ns 1 ≠ none) ∧
    -- a takeover that waits: with an IDLE stream and without
    (0 < Config.mirrors ∧ holding.mirror 0 = some record0 ∧ record0.state ≠ 1 ∧ record0.snapshot ≠ [] ∧ holding.slotWith record0.image = some 0 ∧
      holding.idleOne = some 1) ∧
    (let s : State := { holding with streams := (List.range 64).map fun n => (n, { state := .held }) }
     s.idleOne = none ∧ record0.state = 3) := by
  refine ⟨by decide +kernel, by decide +kernel, by decide +kernel, by decide +kernel, by decide +kernel, by decide +kernel, by decide +kernel, by decide +kernel, by decide +kernel⟩

theorem witness_PartialResetsAndHooks :
    -- the last Caravan, the last port and FLASH; refused during start-up
    (∀ d ∈ [0x3F, 0x47, 2], Sends live oDomainReset host .operator [BitVec.ofNat 8 d] ∧ (live.setAsm host none).starting = false ∧
      ((live.setAsm host none).domain d).heldOff = false) ∧
    (let s : State := { live with sys := { live.sys with step := 9 } }
     Sends s oDomainReset host .operator [2] ∧ (s.setAsm host none).starting = true) ∧
    -- hooks 1 to 4 on their last subjects, and on one beyond
    (∀ p ∈ [(1, 0), (2, 7), (3, 3), (4, 47)], let s := live.store oHookArg p.2
      Sends s oHook host .operator [BitVec.ofNat 8 p.1] ∧ (s.setAsm host none).sec.lc = lcDeployed ∧ (s.setAsm host none).starting = false) ∧
    (∀ p ∈ [(2, 8), (3, 4), (4, 48)], ((live.store oHookArg p.2).setAsm host none).hookRefused p.1 p.2 ≠ 0) ∧
    (∀ p ∈ [(1, 0), (2, 0), (3, 3), (4, 47)], live.hookRefused p.1 p.2 = 0) ∧
    (Sends live oHook host .operator [0]) ∧
    -- a hook at the end of its time, and 1 tick before
    (∀ g ∈ [4, 5], let s := at_ g { live with ft := { live.ft with hook := some (1, 0, 5) } }
      s.up = true ∧ s.ft.hook = some (1, 0, 5) ∧ s.gtc = g) :=
  ⟨fun d h => ⟨sends (by revert d; decide +kernel), by revert d; decide +kernel⟩, ⟨sends (by decide +kernel), by decide +kernel⟩,
    fun p h => ⟨sends (by revert p; decide +kernel), by revert p; decide +kernel⟩, by decide +kernel, by decide +kernel, sends (by decide +kernel), by decide +kernel⟩

/-! ## Keys, evidence, the life cycle and the scrub -/

/-- The device in a life-cycle state, serving requests that other devices forward. -/
def inState (lc : Nat) : State := State.store { live with sec := { live.sec with lc := lc } } oRemoteOdAccept 1

/-- What a release that passes holds is decided by free values of the model (the enclave's cryptography). -/
theorem witness_KeysAndEvidence :
    (∀ lc ∈ [1, 2, 3, 4], Sends (inState lc) oEvidenceReq host .operator (zeros 44) ∧ ((inState lc).setAsm host none).sec.lc = lc) ∧
    Sends live oLcAuth host .operator (zeros 4627) ∧
    (∀ k ∈ [0, 1, 2], let d := zeros 6 ++ [BitVec.ofNat 8 k] ++ zeros 6353
      Sends live oKeyRelease host .operator d ∧ releaseKind (leNat d) = k ∧ (live.setAsm host none).releaseCheck d ≠ stSuccess) ∧
    -- a release that waits for its weights, whose namespace is not there
    (let x : Release := { tenant := 0, digest := [], key := [] }
     let i : ImageSlot := { image := zeros 0x1C ++ leBytes 2 1 ++ leBytes 2 1 ++ zeros 0x60 ++ leBytes 2 4 ++ zeros 2 ++ leBytes 4 0x90 ++ leBytes 4 96 ++ zeros 100 }
     let s : State := { live with sec := { live.sec with released := [(0, x)] }, images := [(0, i)] }
     s.up = true ∧ s.rmRuns 2 = true ∧ s.sys.step = 0 ∧ Tbl.find s.sec.released 0 = some x ∧ x.loaded = false) :=
  ⟨fun lc h => ⟨sends (by revert lc; decide +kernel), by revert lc; decide +kernel⟩, sends (by decide +kernel), fun k h => ⟨sends (by revert k; decide +kernel), by revert k; decide +kernel⟩,
    by decide +kernel⟩

theorem witness_LifeCycleAndScrub :
    -- FACTORY takes a BLANK device to MANUFACTURE; OPERATOR scraps a DEPLOYED one; and a transition that the table does not give
    (let s := inState 0
     Sends s oLcState factory .factory [1] ∧ (s.setAsm factory none).transitionOk true 1 = true ∧ (s.setAsm factory none).streamsIdle = true ∧
       s.sec.pending = none ∧ s.sec.scrub = none ∧ Tbl.get s.drawn 0 oLcState < 5) ∧
    (∀ v ∈ [5, 0], Sends (inState 3) oLcState host .operator [BitVec.ofNat 8 v] ∧ ((inState 3).setAsm host none).transitionOk false v = decide (v = 5) ∧
      ((inState 3).setAsm host none).streamsIdle = true) ∧
    -- scrubs of a tenant, of the device, of a tenant that does not exist, and while another runs
    (let s := live.store (oTenantId 31) 7
     Sends s oScrubTenant host .operator (leBytes 4 7) ∧ ((s.setAsm host none).tenantSlot 7).isSome = true ∧ (s.setAsm host none).sec.scrub = none ∧
       (s.setAsm host none).tenantSlot 8 = none) ∧
    (Sends live oScrubTenant host .operator (leBytes 4 0xFFFFFFFF) ∧ (live.setAsm host none).streamsIdle = true ∧ (live.setAsm host none).ft.mirrors = [] ∧
      Sends live oScrubTenant host .operator (leBytes 4 8)) ∧
    (let s : State := { live with sec := { live.sec with scrub := some { scope := 9 } } }
     Sends s oScrubTenant host .operator (leBytes 4 8) ∧ Sends s oScrubTenant host .operator (leBytes 4 0xFFFFFFFF) ∧ (s.setAsm host none).sec.scrub ≠ none) ∧
    -- each step of a scrub
    (∀ i ∈ [1, 2, 3, 4, 5, 6], let b : Scrub := { scope := 0xFFFFFFFF, step := i }
      let s : State := { live with sec := { live.sec with scrub := some b } }
      s.up = true ∧ s.rmRuns 2 = true ∧ s.sys.step = 0 ∧ s.sec.scrub = some b ∧ b.overwriting = false ∧ b.thenState = none ∧ s.sec.waits = false) ∧
    (let s := live.store (oTenantId 31) 7
     s.tenantSlot 7 = some 31) :=
  ⟨⟨sends (by decide +kernel), by decide +kernel⟩, fun v h => ⟨sends (by revert v; decide +kernel), by revert v; decide +kernel⟩, ⟨sends (by decide +kernel), by decide +kernel⟩,
    ⟨sends (by decide +kernel), by decide +kernel, by decide +kernel, sends (by decide +kernel)⟩, ⟨sends (by decide +kernel), sends (by decide +kernel), by decide +kernel⟩, by decide +kernel, by decide +kernel⟩

/-! ## Rails, clocks, throttle, the hold-up bank and the flush -/

/-- The device with its power registers in a state. -/
def powered (f : PowerSt → PowerSt) : State := { live with power := f live.power }

theorem witness_RailsClocksAndThrottle :
    (live.up = true ∧ 10800 ≤ 10800 ∧ 10799 < 10800 ∧ live.sys.flush = none ∧ 47 < 48 ∧ 48 ≤ 48 ∧ live.power.refLost = none) ∧
    -- a reference that is lost: 1 tick before 10 µs and at 10 µs
    (∀ g ∈ [9999, 10000], let s := at_ g (powered fun p => { p with refLost := some 0 })
      s.power.refLost = some 0 ∧ (decide (s.gtc < 0 + 10000) = decide (g = 9999))) ∧
    -- droops of the last unit; an exact stream
    (48 ≤ 48 ∧ 48 ∉ live.power.droop ∧ 48 ∈ (powered fun p => { p with droop := [48] }).power.droop ∧
      ((live.updExact 63 fun e => { e with state := 2 }).stream 63).exact.state = 2) ∧
    -- a junction at each entry point, 1 °C below, and 3 °C below it for 10 ms
    (∀ p ∈ [((97 : Int), 1), (100, 2), (103, 3), (105, 4)], enteredStep p.1 = p.2 ∧ enteredStep (p.1 - 1) = p.2 - 1 ∧ live.power.thermal < enteredStep p.1) ∧
    (∀ g ∈ [10 * Config.ms - 1, 10 * Config.ms], let s := at_ g (powered fun p => { p with thermal := 1, coolSince := some 0, power := 1, lowSince := some 0 })
      enteredStep 94 ≤ s.power.thermal ∧ s.power.thermal ≠ 0 ∧ (94 : Int) ≤ entryPoint s.power.thermal - 3 ∧ s.power.coolSince = some 0 ∧
        enteredStep 95 ≤ s.power.thermal ∧ entryPoint s.power.thermal - 3 < 95 ∧
        -- power: below 95 % of the limit
        1377 ≤ s.stored oPkgPowerLimit ∧ 100 * 1377 < 95 * s.stored oPkgPowerLimit ∧ s.power.power ≠ 0 ∧ s.power.lowSince = some 0) ∧
    (live.stored oPkgPowerLimit < 1451 ∧ (112 : Int) ≤ 112 ∧ (105 : Int) ≤ 105) :=
  ⟨by decide +kernel, by decide +kernel, by decide +kernel, by decide +kernel, by decide +kernel, by decide +kernel⟩

theorem witness_HoldUpBank :
    -- a sample with no estimate, and in each of the two parts of one
    (∀ t ∈ [none, some (3000, none, 0), some (3000, some 2999, 5)], let s : State := { live with hold := { live.hold with test := t } }
      s.up = true ∧ s.hold.test = t) ∧
    -- the second part ends at 95 % of V0
    (100 * 2850 ≤ 95 * 3000 ∧ ¬ 100 * 2851 ≤ 95 * 3000 ∧ 2850 < 2999) ∧
    -- an estimate that may start, by its period and by command, and one that may not
    (let s := at_ (365 * 86400 * Config.sec) { live with hold := { live.hold with state := 2, code := 3000, cEst := some 1000000 } }
     s.testOk = true ∧ s.hold.lastTest + s.stored oHuTestPeriod * (86400 * Config.sec) ≤ s.gtc ∧ Sends s oHuTestNow host .operator [1] ∧
       (s.setAsm host none).testOk = true) ∧
    (live.testOk = false ∧ Sends live oHuTestNow host .operator [1] ∧ (live.setAsm host none).testOk = false) :=
  ⟨by decide +kernel, by decide +kernel, ⟨by decide +kernel, by decide +kernel, sends (by decide +kernel), by decide +kernel⟩, by decide +kernel, sends (by decide +kernel), by decide +kernel⟩

theorem witness_FlushSequence :
    (live.up = true ∧ 99 < 100 ∧ 100 ≤ 100 ∧ live.sys.flush = none) ∧
    -- every step, for every cause
    (∀ w ∈ [FlushFor.powerFail, .haltFault, .clockFault, .reset, .warm], ∀ i ∈ [1, 3, 4, 5],
      let f : Flush := { step := i, why := w }
      let s : State := { live with sys := { live.sys with flush := some f } }
      s.up = true ∧ s.sys.inReset = false ∧ s.sys.flush = some f ∧ s.flash.erasingFlush = false ∧ s.sys.rstLow = false ∧ s.sys.releasePending = false) ∧
    -- a reset held and one released during the flush
    (∀ p, let f : Flush := { step := 5, why := .reset }
      let s : State := { live with sys := { live.sys with flush := some f, rstLow := !p, releasePending := p } }
      s.sys.flush = some f ∧ s.sys.rstLow = !p ∧ s.sys.releasePending = p) := by decide +kernel

/-! ## The object dictionary and the management port -/

theorem admits {s : State} {src : OdSource} {seq : Nat} {e : Bool} {role : Role}
    (h : s.enclaveUp = true ∧ s.sec.lc ≠ 5 ∧ s.rm0Serves = true ∧ s.roleOf src = some role)
    (ha : s.acceptRequest src seq = some s := by rfl) (hs : s.roleScrubbed role = false := by rfl)
    (hb : ∀ b, s.atServer src b = s := by intro b; cases b <;> rfl) : s.Admits src seq e role s where
  up := h.1
  alive := h.2.1
  served := .inr h.2.2.1
  received := ⟨s, ha, h.2.2.2, hs, by rw [hb]⟩

/-- A device with a session 5. -/
def withSession (x : Session) (s : State) : State := { s with mgmt := { s.mgmt with sessions := [(5, x)] } }

theorem witness_ObjectReads :
    (∀ k : Nat, live.Admits host 7 (enclaveServes k) .operator live) ∧
    -- objects that are not, or are not to be read, and one that is read
    live.readCheck .operator (keyOf 65535 255) = rNoObject ∧ live.readCheck .operator (keyOf 0x6000 4) = rAccess ∧
    live.readCheck .operator oPkgPowerLimit = rOk ∧ live.readCheck .operator oTjPeak = rOk ∧ oPkgPowerLimit ≠ oTjPeak ∧
    -- a segment with no copy, and descriptors
    (1 ≠ 0 ∧ live.mgmt.copies = []) ∧ rowOf (keyOf 65535 255) = none ∧
    (rowOf oTjPeak).isSome = true ∧ isObject oTjPeak = true ∧ live.mayRead .operator oTjPeak = true :=
  ⟨fun k => admits (by decide +kernel), by decide +kernel⟩

theorem witness_ObjectWrites :
    (∀ k : Nat, live.Admits host 7 (enclaveServes k) .operator live) ∧
    -- a value out of range, one that is taken, a first segment, and a later one without a first
    (live.writeCheck .operator oTelemK [255] ≠ rOk ∧ live.writeCheck .operator oTelemK [20] = rOk ∧ [(20 : Byte)].length ≤ 1024 ∧
      [(20 : Byte)].length ≤ 2 ∧ 1 ≠ 0 ∧ live.mgmt.asms = []) ∧
    -- the settings
    (∀ e ∈ [(oPkgPowerLimit, leBytes 2 1000), (oTelemK, [20]), (oTelemSet, leBytes 8 1), (oScrubOverwrite, [1]), (oWarmBist, [1])],
      Sends live e.1 host .operator e.2) ∧
    -- the placement geometry, changed, and with no count left
    Sends live oPlaceGeometry host .operator (leBytes 8 0x20202) ∧
    (let d := leBytes 8 0x20202
     let t : State := ({ live with drawn := Tbl.set live.drawn oPlaceGeometry 64 } : State)
     d.length = 8 ∧ t.sec.lc = 3 ∧ Tbl.get t.drawn 0 oPlaceGeometry = 64 ∧
       geometryOk (normalValue oPlaceGeometry (leNat d)) 32 32 32 = true ∧ normalValue oPlaceGeometry (leNat d) ≠ t.odValue oPlaceGeometry) ∧
    -- sets: malformed, one whose first entry is refused, one whose second cannot be written after its first, and one that is taken
    (let good : Nat × Nat × Bytes := (oTelemK / 256, oTelemK % 256, [21])
     let bad : Nat × Nat × Bytes := (65535, 255, [1])
     manyOk [] = false ∧ manyOk [good, bad] = true ∧ live.writeCheck .operator (keyOf bad.1 bad.2.1) bad.2.2 ≠ rOk ∧
       ((State.writeAll host .operator [good] live).toOption.any fun (u : State) =>
         (u.writeObject host .operator (keyOf bad.1 bad.2.1) bad.2.2).1 != rOk) = true) := by
  refine ⟨fun k => admits (by decide +kernel), by decide +kernel, fun e h => ?_, sends (by decide +kernel), by decide +kernel, by decide +kernel⟩
  simp only [List.mem_cons, List.not_mem_nil, or_false] at h
  rcases h with rfl | rfl | rfl | rfl | rfl <;> exact sends (by decide +kernel)

theorem witness_SessionsAndDatagrams :
    -- OPEN: no session left, no credential, a credential
    (let s : State := { live with mgmt := { live.mgmt with sessions := (List.range 8).map fun i => (i + 1, {}) } }
     8 ≤ s.mgmt.sessions.length ∧ s.up = true ∧ s.mgmt.ignoreUntil ≤ s.gtc) ∧
    (live.mgmt.ignoreUntil ≤ live.gtc ∧ live.mgmt.sessions.length < 8 ∧ live.credential 0 255 = none ∧ (live.credential 2 0).isSome = true) ∧
    -- CLOSE
    (∃ t, (withSession {} live).Admits (.session 5) 1 true .operator t) ∧
    -- sessions before and at the end of their time
    (∀ g ∈ [60 * Config.sec - 1, 60 * Config.sec], let s := at_ g (withSession { established := true } live)
      Tbl.find s.mgmt.sessions 5 = some { established := true } ∧ (decide (s.gtc < 0 + 60 * Config.sec) = decide (g ≠ 60 * Config.sec))) ∧
    -- a datagram that is too long, one that opens, and a READ: no session, a tag that fails, a request repeated and a new one
    (1232 < (zeros 1233).length ∧ (zeros 32).length = 32 ∧ 1 < 2 ^ 32 ∧ 255 < 256) ∧
    (let f := odFrame 0x10 5 1 0xFFFF (leBytes 2 0x6800 ++ leBytes 1 1 ++ zeros 1 ++ leBytes 4 0 ++ leBytes 4 4)
     let tag := odTag [] f
     tag.length = 16 ∧ zeros 16 ≠ tag ∧ Tbl.find live.mgmt.sessions 5 = none ∧
       (∀ r ∈ [f ++ tag, []], let x : Session := { established := true, request := r }
         Tbl.find (withSession x live).mgmt.sessions 5 = some x ∧ (x.request = f ++ tag ∨ x.request ≠ f ++ tag))) ∧
    -- requests that another device forwards, settings due and not yet due, and the states of the link
    (live.rm0Serves = true ∧ 65535 < 2 ^ 16) ∧
    (let s := at_ 5 { live with mgmt := { live.mgmt with due := [(5, 1, 2), (6, 3, 4)] } }
     (s.gtc < 6 ∧ 5 ≤ s.gtc) ∧ 2 < 3) := by
  refine ⟨by decide +kernel, by decide +kernel, ⟨State.atServer (withSession { established := true, seq := 1, at_ := live.gtc } live) (.session 5) true, ?_⟩, by decide +kernel, by decide +kernel, by decide +kernel, by decide +kernel, by decide +kernel⟩
  exact ⟨by decide +kernel, by decide +kernel, .inl rfl, withSession { established := true, seq := 1, at_ := live.gtc } live, rfl, rfl, rfl, rfl⟩

/-! ## Telemetry and time -/

/-- A device whose telemetry goes to these destinations, at an instant of the cadence or 1 tick after it. -/
def telem (dest head g : Nat) : State :=
  let s := (((live.store oTelemDest dest).store oTelemRingLen 65536).store oTelemRingTail head).store oTelemK 10
  at_ g { s with mgmt := { s.mgmt with ringHead := head } }

/-- A device that is not the root, whose parent is on port 0, with hops to the root. -/
def slave (f : ClkSt → ClkSt) : State :=
  let s := live.updPort 0 fun p => { p with link := .up, hops := 3 }
  { s with clk := f { s.clk with parent := some 0 } }

theorem witness_TelemetryAndTime :
    -- no instant, no destination; a record that fits, one that wraps, and one for which there is no room; a session that ended
    ((telem 1 0 1025).gtc % 2 ^ (telem 1 0 1025).stored oTelemK ≠ 0 ∧ (telem 0 0 1024).stored oTelemDest = 0) ∧
    (∀ h ∈ [0, 65530, 65536], let s := telem 1 h 1024
      s.up = true ∧ s.gtc % 2 ^ s.stored oTelemK = 0 ∧ s.stored oTelemDest = 1 ∧
        let n := (telemPart s.mgmt.recordSeq s.gtc 0 1 (s.telemKeys.map s.telemEntry)).length
        s.mgmt.ringHead - s.stored oTelemRingTail + n ≤ 65536 ∧ (decide (65536 < s.mgmt.ringHead % 65536 + n) = decide (h = 65530))) ∧
    (let s := State.store (telem 1 65536 1024) oTelemRingTail 1
     s.stored oTelemRingLen < s.mgmt.ringHead - s.stored oTelemRingTail +
       (telemPart s.mgmt.recordSeq s.gtc 0 1 (s.telemKeys.map s.telemEntry)).length) ∧
    ((telem 2 0 0).stored oTelemDest = 2 ∧ Tbl.find (telem 2 0 0).mgmt.sessions (telem 2 0 0).mgmt.telemSession = none) ∧
    -- the root, a device that asks its parent after 1 ms, and one at 64 ms without an exchange
    ((live.store oGtcRoot 1).isRoot = true) ∧
    (let s := at_ Config.ms (slave id)
     s.up = true ∧ s.isRoot = false ∧ s.clk.parent = some 0 ∧ (s.port 0).link ≠ .fenced ∧ s.clk.t1 = none ∧ s.clk.exchanged + Config.ms ≤ s.gtc) ∧
    (∀ g ∈ [64 * Config.ms - 1, 64 * Config.ms], let s := at_ g (slave fun c => { c with state := 2 })
      s.isRoot = false ∧ s.clk.state ≠ 0 ∧ s.clk.state ≠ 3 ∧ (decide (s.clk.exchanged + 64 * Config.ms ≤ s.gtc) = decide (g = 64 * Config.ms))) ∧
    -- a request at the root; an answer that is not awaited; answers that make the 15th and the 16th good exchange, and one that is far
    (let s := (slave id).store oGtcRoot 1
     s.up = true ∧ s.linked 0 = true ∧ s.isRoot = true ∧ fieldAt (timePayload 0 0 0 0 0) 0 1 = 0) ∧
    (∀ n ∈ [14, 15], let s := slave fun c => { c with state := 1, good := n, t1 := some 64 }
      let f : Frame := { ftype := 5, payload := timePayload 1 3 64 128 192 }
      s.linked 0 = true ∧ f.good = true ∧ s.isRoot = false ∧ s.clk.parent = some 0 ∧ s.bestParent = some 0 ∧
        (s.port 0).hops = fieldAt f.payload 1 1 ∧ s.clk.t1 = some (fieldAt f.payload 8 8) ∧ some 65 ≠ s.clk.t1 ∧
        (let d := fun (stamp : Int) => ((fieldAt f.payload 16 8 : Int) - 64 - (stamp - (fieldAt f.payload 24 8 : Int))) / 2
         d 256 = 0 ∧ d 128 = 64 ∧ d 126 = 65)) ∧
    -- GTC_ROOT, and the edges of the synchronising pins
    Sends live oGtcRoot host .operator [1] ∧
    (live.sys.inReset = false ∧ live.gtc < 2 ^ 24) ∧
    (let s := at_ (2 ^ 24) live
     2 ^ 24 ≤ s.gtc ∧ s.clk.syncOut ≠ some (s.gtc / 2 ^ 24 * 2 ^ 24)) :=
  ⟨by decide +kernel, by decide +kernel, by decide +kernel, by decide +kernel, by decide +kernel, by decide +kernel, by decide +kernel, by decide +kernel, by decide +kernel, sends (by decide +kernel), by decide +kernel, by decide +kernel⟩

/-! ## Start-up, resets and BIST -/

/-- A device in a start-up step. -/
def starting (i : Nat) (s : State) : State := { s with sys := { s.sys with step := i } }

theorem witness_BootAndAlignment :
    -- step 2: both slots verify; only the other; none; a slot whose security version is below FW_SVN
    (let s := starting 2 live
     s.up = true ∧ s.sys.flush = none ∧ s.sys.step = 2 ∧ s.sec.active = 0 ∧ s.sec.svn = 0 ∧ bit 3 0 = true ∧ bit 2 0 = false ∧ bit 2 1 = true ∧
       bit 0 0 = false ∧ bit 0 1 = false) ∧
    (let s : State := starting 2 { live with sec := { live.sec with svn := 2, fw := [(0, { svn := 1 }), (1, { svn := 2 })] } }
     ¬ s.sec.svn ≤ (Tbl.get s.sec.fw {} 0).svn ∧ s.sec.svn ≤ (Tbl.get s.sec.fw {} 1).svn) ∧
    -- step 3: what it finds, and 2 and 1 failed attempts before
    (∀ n ∈ [1, 2], let s : State := { live with sys := { live.sys with step := 3, alignFails := n } }
      s.up = true ∧ s.sys.flush = none ∧ s.sys.step = 3 ∧ (decide (s.sys.alignFails < 2) = decide (n = 1))) ∧
    ({ pllOk := false } : StartFacts).pllOk = false ∧ ({ alignOk := false } : StartFacts).alignOk = false := by decide +kernel

theorem witness_StartUpSteps :
    (∀ i ∈ [0, 1, 4, 5, 6, 7, 8, 9], (starting i live).up = true ∧ (starting i live).sys.flush = none ∧ (starting i live).sys.step = i ∧
      (starting i live).sec.lc ≠ 5 ∧ (starting i live).sec.lc ≠ 0 ∧ ((starting i live).clk.state = 0)) ∧
    (let s : State := starting 1 { live with sec := { live.sec with lc := 5 } }
     s.up = true ∧ s.sec.lc = 5) ∧
    -- what steps 5 and 6 find
    (let f : StartFacts := { failed := [(4, 0)] }
     let g : StartFacts := { ddr := 1 }
     let h : StartFacts := { ddr := 3 }
     let t : TargetFacts := { channel := 63, target := 15, bpl := 1, ppb := 1 }
     f.fatal.isSome = true ∧ g.fatal = none ∧ g.ddrEnabled.2.length < 2 ∧ h.ddrEnabled.2.length = 2 ∧ h.enabledTargets [] = [] ∧
       ({ h with targets := [t] } : StartFacts).enabledTargets [] = [t]) ∧
    -- admission, LOCKED and after 100 ms of FREE, and before the first heartbeat
    (let s : State := starting 9 { live with ft := { live.ft with sent := some 0 }, clk := { live.clk with state := 2 } }
     s.sys.step = 9 ∧ s.ft.sent ≠ none ∧ s.clk.state = 2) ∧
    (let s : State := at_ (100 * Config.ms) (starting 9 { live with ft := { live.ft with sent := some 0 } })
     s.ft.sent ≠ none ∧ s.clk.state = 0 ∧ s.clk.freeSince + 100 * Config.ms ≤ s.gtc) ∧
    (starting 9 live).ft.sent = none := by decide +kernel

theorem witness_ResetsTakeEffect :
    -- RST_N in reset, with records to keep and without, and its release: out of reset, in reset, during a flush
    State.reset.sys.inReset = true ∧
    (let s : State := { live with flash := { live.flash with journalBase := 1 } }
     s.sys.inReset = false ∧ s.sys.flush = none ∧ s.mustFlush = true ∧ s.sys.halted = false) ∧
    (live.mustFlush = false ∧ live.sys.releasePending = false ∧ live.sys.rstLow = false) ∧
    (State.reset.sys.rstLow = true ∧ ({ live with sys := { live.sys with rstLow := true } } : State).sys.inReset = false) ∧
    -- PERST_N, the warm reset and the phase monitors: serving, in a start and in its first steps
    ({ live with host := { live.host with perst := true } } : State).host.perst = true ∧
    (live.up = true ∧ live.sys.step = 0) ∧
    (∀ i ∈ [1, 3, 4], (starting i live).up = true ∧ (starting i live).sys.step ≠ 0 ∧ (starting i live).sys.step = i) ∧
    Sends live oWarmReset host .operator [1] :=
  ⟨by decide +kernel, by decide +kernel, by decide +kernel, by decide +kernel, by decide +kernel, by decide +kernel, by decide +kernel, sends (by decide +kernel)⟩

theorem witness_BistAndScan :
    -- a mask that may run, with no group and with groups 2 to 6, and a test that still runs
    (∀ m ∈ [0, 124], Sends (inState 4) oBistRun host .operator [BitVec.ofNat 8 m] ∧ ((inState 4).setAsm host none).bistRefused m = 0 ∧
      ((inState 4).setAsm host none).sec.lc ≠ 0) ∧
    (let s : State := { live with sys := { live.sys with bistState := 1 } }
     Sends s oBistRun host .operator [0] ∧ (s.setAsm host none).bistRefused 0 ≠ 0) ∧
    -- the last of the groups that runs, and group 5 after the others
    (∀ g ∈ [0, 5], let s : State := { live with sys := { live.sys with bistState := 1, bistGroups := 2 ^ g } }
      s.up = true ∧ s.sys.bistState = 1 ∧ bit s.sys.bistGroups g = true ∧ (g = 5 → s.sys.bistGroups % 32 = 0) ∧ setBit s.sys.bistGroups g false = 0) ∧
    -- a bank of a Caravan
    (let s : State := { live with sys := { live.sys with bistBank := some (0, 47) } }
     s.up = true ∧ s.sys.bistBank = some (0, 47) ∧ 47 < 48) ∧
    -- SCAN_RUN by FACTORY, in MANUFACTURE and RMA and elsewhere, by another role, and the end of a scan
    (∀ lc ∈ [1, 4], Sends (inState lc) oScanRun factory .factory [1] ∧ ((inState lc).setAsm factory none).sys.step = 0) ∧
    ((inState 2).Admits factory 1 (enclaveServes oScanRun) .factory (inState 2) ∧ live.Admits host 1 (enclaveServes oScanRun) .operator live ∧
      Role.operator ≠ .factory ∧ (inState 2).sec.lc ≠ 1 ∧ (inState 2).sec.lc ≠ 4) ∧
    ({ live with sys := { live.sys with scan := true } } : State).sys.scan = true ∧ live.sys.scan = false :=
  ⟨fun m h => ⟨sends (by revert m; decide +kernel), by revert m; decide +kernel, by decide +kernel⟩, ⟨sends (by decide +kernel), by decide +kernel⟩, by decide +kernel, by decide +kernel,
    fun lc h => ⟨sends (by revert lc; decide +kernel), by revert lc; decide +kernel⟩, ⟨admits (by decide +kernel), admits (by decide +kernel), by decide +kernel⟩, by decide +kernel⟩

/-! ## The block as a whole -/

theorem witness_StepRunsTheFrontCommand :
    ({ live with pending := [.jobAdmit, .telemetry] } : State).pending = .jobAdmit :: [.telemetry] ∧
    (State.reset.pending = [] ∧ State.reset.sys.inReset = true) ∧
    (live.pending = [] ∧ live.sys.inReset = false ∧ live.clk.rate = 0 ∧ live.clk.state ≠ 2 ∧ live.clk.frac < 2 ^ 32) := by decide +kernel

theorem witness_HeldInReset :
    ∃ t, step State.reset = .next t ∧ State.reset.sys.inReset = true ∧ State.reset.sys.scan = false ∧
      ∀ c ∈ State.reset.pending, ∀ v, c ≠ Instr.rstNRelease v :=
  ⟨State.reset, rfl, rfl, rfl, fun _ h => nomatch h⟩

/-- A device halted with code 3. -/
def halted : State := { live with sys := { live.sys with halted := true, faultCode := 3 } }

theorem witness_HaltedUntilReset :
    (∃ t, step { halted with pending := [.telemetry] } = .next t) ∧
    (halted.sys.halted = true ∧ halted.sys.inReset = false ∧ halted.sys.scan = false ∧ halted.sys.flush = none ∧ Instr.rstNAssert ∉ halted.pending) ∧
    halted.sys.faultCode ≠ 0 ∧ halted.sec.lc ≠ 5 ∧
    (let s1 := withSession { established := true, seq := 1, at_ := halted.gtc } halted
     (withSession {} halted).acceptRequest (.session 5) 1 = some s1 ∧ s1.roleOf (.session 5) = some .operator ∧ s1.roleScrubbed .operator = false ∧
       s1.readCheck .operator (keyOf 0x6000 1) = rOk) ∧
    (enclaveServes (keyOf 0x6000 1) = true ∧ enclaveServes (keyOf 0x6800 1) = false) :=
  ⟨⟨{ halted with pending := [] }, rfl⟩, by decide +kernel, by decide +kernel, by decide +kernel, ⟨rfl, rfl, rfl, by decide +kernel⟩, by decide +kernel⟩

/-- The bounds of the window of RESULT_DPA. -/
theorem witness_WellFormedCommandsNeverStop :
    Instr.telemetry.wf = true ∧ (Instr.cxlMemRead 0).wf = true ∧
    (let s := live.store oResultDpa 1
     gib - 1 < s.stored oResultDpa * gib ∧ ¬ gib < s.stored oResultDpa * gib) := by decide +kernel


/-! ## More clauses of the statements: a state for each -/

theorem witness_KernelClauses :
    -- SRD, DRAW and HALT aside: a TISSUE whose tag is outstanding, VREDMIN's word, HALT with a status that it may not give
    (∀ v, (atCore (tmuCore true) v).tmu.any (fun t => t.tag == 3) = true) ∧
    (∀ e ∈ [2, 7], valuOk notFp8 (vword 7 5 1 e 0 3 1 0 0 0) = true) ∧
    (let w := vword 12 0 0 0 0 0 0 0 0 0x0105
     Here {} w (12, 0) ∧ noVector w = true ∧ immOk w 16 = true ∧ haltStatus 0x0108 = false ∧ haltStatus (iImm25 w) = true) ∧
    -- HALT of a SCORE stage
    (let w := vword 12 0 0 0 0 0 0 0 0 stSuccess
     let s : State := { withStream 0 [[w0 0 5 0 1, 0, 128 * 2 ^ 32, 1 + 2 ^ 32]] .running (running {} w) with jobs := [{ id := 1, stream := 0 }] }
     s.AtWord 0 1 (atCore {} w) w (12, 0) ∧ s.job 1 = some { id := 1, stream := 0 } ∧
       ((s.descsOf 0)[(atCore {} w).stage]?).map Desc.type = some tScore) ∧
    -- a core whose clock a droop holds, and one that runs no kernel
    ({ live with power := { live.power with droop := [0] } } : State).power.droop.contains (7 / 8) = true ∧ (live.core 0).job = none :=
  ⟨fun _ => rfl, by decide +kernel, ⟨here (by decide +kernel), by decide +kernel⟩,
    ⟨⟨by decide +kernel, rfl, rfl, rfl, rfl, by decide +kernel, by decide +kernel, by decide +kernel⟩, by decide +kernel, by decide +kernel⟩, by decide +kernel, by decide +kernel⟩

/-- A saved state of no bytes, which fails its checks. -/
def brokenWork : CodecWork := { job := 1, stage := 2, cls := 4, total := 3, state := some [] }

theorem witness_StageClauses :
    -- no job, and a stage that does not run: the next one
    live.job 1 = none ∧
    (let s := working trainStages (jobAt 0)
     s.job 1 = some (jobAt 0) ∧ ((s.descsOf 0)[1]?).map (fun d => (jobAt 0).running (s.toCorpus 0) d) = some false) ∧
    -- a buffer of the job that had failed
    (let j := { jobAt 0 with struck := some stDram }
     stageRuns (working trainStages j) 0 j = true) ∧
    -- a codec engine whose work has no valid saved state, and one whose work goes on beside another of its class
    (let s : State := { live with engines := [(0, { current := some brokenWork })] }
     s.up = true ∧ (s.engine 0).current = some brokenWork ∧ brokenWork.broken = true) ∧
    (let w := { brokenWork with state := none }
     let v := { w with job := 2 }
     w.broken = false ∧ w.blocks + 1 < w.total ∧ nextWork ([v] ++ [{ w with blocks := w.blocks + 1, state := none, spilled := false }]) = some v) :=
  ⟨by decide +kernel, by decide +kernel, by decide +kernel, by decide +kernel, by decide +kernel⟩

theorem witness_RunClauses :
    -- no epoch to begin; a list that has not come, which the device sees to
    (live.nextEpoch 0 = none ∧ live.toCorpus 0 = false ∧ (live.run 0).settling = none) ∧
    -- exact mode, with every list there
    (let l : Portion := { epoch := 0, source := 0, portion := 0, entries := [(4, 100)] }
     let s := (training.store (oCarouselMode 0) 1).updRun 0 fun r => { r with lists := [l], sentLists := some 0 }
     s.up = true ∧ s.nextEpoch 0 = some 0 ∧ (s.ensureLists 0 0).epochLists 0 0 = some [l] ∧ s.exactMode 0 = true) ∧
    -- a list of an epoch that is over, and of a corpus that the stream does not use
    (let s := training.updRun 0 fun r => { r with epoch := 1, begun := true }
     s.up = true ∧ 0 < (s.run 0).epoch ∧ fieldAt (portionList 0) 8 4 ≠ live.stored (oCorpusId 0)) ∧
    -- no batch may open: no plan entry is left; and one before its first, from a kept cursor
    (let s := (inEpoch .open_ (jobAt 1)).updRun 0 fun r => { r with nextOpen := 2 }
     s.mayOpen 0 = false) ∧
    -- a release not due, a stream that has been launched, one that is not at a phase-zero instant
    (({ live with clk := { live.clk with ticks := 40, phase := some 0 } } : State).phaseZero = true ∧ ({ live with clk := { live.clk with ticks := 21, phase := some 0 } } : State).phaseZero = false) :=
  ⟨by decide +kernel, by decide +kernel, by decide +kernel, by decide +kernel, by decide +kernel⟩

/-- The first epoch of `inEpoch`, whose list has no entry left for a backfill. -/
def usedUp (s : State) : State := s.updRun 0 fun r => { r with cursor := r.sorted.length }

theorem witness_SettleClauses :
    -- a split batch; a batch that the host settles, as an older one of its epoch is split
    (let s := inEpoch .open_ (ended stReject)
     let b := { batch0 .open_ with mode := 1 }
     let s := s.updRun 0 fun r => { r with batches := [b] }
     (s.run 0).settling = some b ∧ s.hostSettles 0 b = false ∧ s.jobAt 0 0 0 0 = some (ended stReject)) ∧
    (let b := { batch0 .open_ with k := 1 }
     let s := (inEpoch .open_ (jobAt 1)).updRun 0 fun r => { r with batches := [{ batch0 .settled with mode := 1 }, b] }
     (s.run 0).settling = some b ∧ s.hostSettles 0 b = true) ∧
    -- policy 0: with an entry left, and with none
    (∀ tries ∈ [0, 3], let s := ((inEpoch .open_ (ended stReject)).store (oExclPolicy 0) 0).store (oBackfillTries 0) tries
     s.stored (oExclPolicy 0) = 0 ∧ s.stored (oBackfillTries 0) = tries ∧ (ended stReject).try_ = 0 ∧
       (s.run 0).cursor < (s.run 0).sorted.length ∧ ((usedUp s).run 0).sorted.length ≤ ((usedUp s).run 0).cursor) ∧
    -- a success that does not fit, and an attempt that has not ended
    (match ((inEpoch .open_ (ended stSuccess)).store (oBatchMaxBytes 0) 1).placing 0 (batch0 .open_) (ended stSuccess) with
      | .ok _ => false | .error _ => true) = true ∧
    (jobAt 1).status = none ∧
    -- an ingest stream: a job in EXCLUDED, of an ingest and of none
    (∀ i ∈ [none, some (1, [7])], let j := { jobAt 1 with state := .excluded, status := some stReject, ingest := i }
     let s : State := { streamIn .running with jobs := [j] }
     s.up = true ∧ (s.stream 0).state = .running ∧ s.toCorpus 0 = true ∧
       s.jobs.find? (fun j => j.stream == 0 && j.state == .excluded) = some j) :=
  ⟨by decide +kernel, by decide +kernel, by decide +kernel, by decide +kernel, by decide +kernel, by decide +kernel⟩

theorem witness_DeliveryClauses :
    -- a slot that is delivered again, the record of a backfill that has ended, and neither
    (let s := (slotted (streamIn .running)).updSlot 0 1 fun x => { x with state := .pending, content := [9] }
     s.up = true ∧ s.toFabric 0 = false ∧ (s.run 0).batches.find? (fun b => b.state == .writing) = none ∧ s.regenerating 0 = some 1) ∧
    (let j := { ended stSuccess with k := backfillK }
     let s := inEpoch .open_ j
     s.regenerating 0 = none ∧ s.jobs.find? (fun j => j.stream == 0 && j.k == backfillK && j.status.isSome) = some j) ∧
    (live.regenerating 0 = none ∧ live.jobs = []) ∧
    -- a slot that takes no batch: READY
    (let s := (slotted (inEpoch .settled (jobAt 4))).updSlot 0 0 fun x => { x with state := .ready }
     s.nextDelivery 0 = some (batch0 .settled) ∧ s.slotTakes 0 (batch0 .settled) = false) ∧
    -- Midway: coordinates in a torus and outside it
    (∀ c ∈ [0, 1], let st := fabricStages.map fun d => if d.length = 5 then d.set 4 (1 + 2 ^ 3) |>.set 1 1 else d
     let s : State := { inEpoch .settled (jobAt 1) with images := [(0, { image := img 0 st })] }
     let s := s.store (oDlvRemoteCoord 0) (c * 2 ^ 8)
     s.toFabric 0 = true ∧ s.inTorus (s.stored (oDlvRemoteCoord 0)) = decide (c = 0)) ∧
    -- no credit of this fence
    (let s := training.updDlv 0 fun d => { d with creditFence := 1 }
     (s.stream 0).prot.fenceEpoch < (s.stream 0).dlv.creditFence) ∧
    -- doorbells: a stream that is LOADED, and one whose tenant is scrubbed
    (∀ st ∈ [StreamState.loaded, .running], let s := (slotted (streamIn st)).updSlot 0 1 fun x => { x with state := .ready }
     s.scrubbed 0 = false ∧ (s.stream 0).state = st ∧ (s.slot 0 (bits 1 15 0)).state = .ready ∧ (s.slot 0 1).gen = bits 1 63 32) ∧
    (let s : State := { streamIn .moved with sec := { live.sec with scrub := some { scope := 0xFFFFFFFF } } }
     s.scrubbed 0 = true) ∧
    -- a backfill with no entry left, and one of an epoch that is gone
    (let s := usedUp (slotted (inEpoch .open_ (jobAt 1)))
     let s := s.updRun 0 fun r => { r with batches := r.batches.map fun b => { b with mode := 1 } }
     (s.touch 0).backfillCheck 0 0 0 = stSuccess ∧ ((s.run 0).epochOf 0).any (fun v => decide (v.sorted.length ≤ v.cursor)) = true ∧
       (s.touch 0).backfillCheck 0 0 7 = stSlotRetired) ∧
    -- a deadline one tick before its time
    (let s := ((slotted training).store (oHostDeadline 0) 1).updSlot 0 1 fun x => { x with state := .ready, split := true }
     let s := { s with clk := { s.clk with gtc := 999999 } }
     s.gtc < (s.slot 0 1).readyGtc + s.stored (oHostDeadline 0) * 1000000) ∧
    -- a launch that is not due
    (let s := (training.store (oLaunchAt 0) 1).updExact 0 fun e => { e with startGtc := 1 }
     s.gtc < s.stored (oLaunchAt 0) ∧ (s.stream 0).exact.startGtc ≤ s.stored (oLaunchAt 0)) :=
  ⟨by decide +kernel, by decide +kernel, by decide +kernel, by decide +kernel, by decide +kernel, by decide +kernel, by decide +kernel, by decide +kernel, by decide +kernel, by decide +kernel, by decide +kernel⟩

theorem witness_MigrationClauses :
    -- the holder of sample 0, which another member is to hold: a copy to send, and its own to drop
    (twoMembers.locNow 0 ≠ twoMembers.own ∧ twoMembers.moving.contains 0 = false ∧
      ({ twoMembers with moving := [0] } : Corpus).moving.contains 0 = true) ∧
    -- the verified copy that arrives, and one that is not
    (let m : MigCopy := { data := [1], digest := (sha3_512 [1]).take 24 }
     (sha3_512 m.data).take 24 = m.digest ∧ (sha3_512 m.data).take 24 ≠ ({ m with digest := zeros 24 } : MigCopy).digest) ∧
    -- a namespace that there is none of; a stream that does not drain
    live.ns 1 = none ∧ (live.stream 0).draining = false ∧ (live.stream 0).state ≠ .paused ∧ (live.stream 0).state ≠ .held :=
  ⟨by decide +kernel, by decide +kernel, by decide +kernel, by decide +kernel, by decide +kernel, by decide +kernel⟩

/-- A DRAM of 4 KiB whose line 0, of zeros, has been written, with a tag. -/
def scrubbedDram (tag : Bytes) : State :=
  { live with ddrCapacity := 2 ^ 12, dram := [(0, { written := true, tag := tag })] }

/-- R251: the tag of line 0. -/
def tag0 : Bytes := (scrubbedDram []).tagOf 0 ((scrubbedDram []).cipherOf 0 (zeros 64))

/-- A stored tag that no bit of is in error reads as it is. -/
theorem xor_no_error : ∀ (n : Nat) (t : Bytes), t.length ≤ n → xorBytes t (List.replicate n 0) = t
  | _, [], _ => by simp [xorBytes]
  | n + 1, b :: t, h => by
    have := xor_no_error n t (by simpa using h)
    simp_all [xorBytes, List.replicate_succ]

theorem witness_BufferAndMemoryClauses :
    -- an ALLOC of no buffer; a line that is scrubbed, whose stored tag agrees, and one whose tag does not
    ({ source := .stream 0, pool := 0, count := 0 } : AllocReq).ok = false ∧
    (∀ t, let s := scrubbedDram t
     let l := Tbl.get s.dram {} 0
     s.up = true ∧ 0 < s.dataRegion / 64 ∧ 0 < s.ddrCapacity / 64 ∧ l.poison = false ∧ l.written = true ∧ l.tag = t ∧
       s.tagOf 0 (s.cipherOf 0 (s.fabric.mem.readN 0 64)) = tag0) ∧
    (tag0 = xorBytes tag0 (leBytes 8 0) ∧ ∃ t, tag0 ≠ xorBytes t (leBytes 8 0)) ∧
    -- the first line beyond the tags, and the lines that are none
    (let s := scrubbedDram []
     63 < s.ddrCapacity / 64 ∧ s.dataRegion / 64 ≤ 63 ∧ s.tagBase + s.dataRegion / 8 ≤ 64 * 63 ∧ s.ddrCapacity / 64 ≤ 64) ∧
    -- a word with one bit in error, with two, and with two that is marked
    (0 < oasisWords ∧ (([71].filter fun b => decide (b < 72)).dedup).length = 1 ∧
      (([0, 71].filter fun b => decide (b < 72)).dedup).length = 2 ∧ 5 ∈ ({ live with oasisFailed := [5] } : State).oasisFailed) := by
  refine ⟨by decide +kernel, fun _ => ⟨rfl, (by decide +kernel : 0 < (scrubbedDram []).dataRegion / 64), (by decide +kernel : 0 < 2 ^ 12 / 64), rfl, rfl, rfl, rfl⟩, ⟨(xor_no_error 8 tag0 ?_).symm, ?_⟩, by decide +kernel, by decide +kernel⟩
  · exact List.length_take_le _ _
  · by_cases h : tag0 = []
    · exact ⟨[0], by rw [h]; decide +kernel⟩
    · exact ⟨[], by simpa [xorBytes] using h⟩

theorem witness_FlashClauses :
    -- a CLOSED pool: an entry that came before it closed; an erase that fails; an erase of the flush region, and its last block
    (let f := { media with wbuf := [{ lpn := 5, data := [1], write := 3 }], closedAt := [(0, 4)], closedGc := [0] }
     let s : State := { live with flash := f }
     (s.nextDestage 0).map (fun e => (e.lpn, e.write)) = some (5, 3)) ∧
    (let f := { media with erasingFlush := true }
     f.erasingFlush = true ∧ (f.flushErased = [])) ∧
    -- copies: a target that has been programmed and a source to be read
    (let c : Copy := { src := 15 * 2 ^ 22, dst := 16 * 2 ^ 22, lpn := 5, programmed := true }
     let f := { media with map := [(5, 15 * 2 ^ 22)], units := [(15 * 2 ^ 22, { lpn := 5 }), (16 * 2 ^ 22, { lpn := 5 })], copies := [c] }
     (∃ x ∈ f.copies, x.dst = 16 * 2 ^ 22 ∧ x.programmed = true) ∧ (∃ x ∈ f.copies, x.src = 15 * 2 ^ 22) ∧
       f.valid (15 * 2 ^ 22) = true ∧ f.isReserved (f.blockOf (15 * 2 ^ 22)) = false ∧ c.verified = false) ∧
    -- no dirty segment, and no victim
    live.flash.dirty = [] ∧ live.victim 0 = none := by decide +kernel

theorem witness_LinkAndMessageClauses :
    -- a link in RETRAIN that locks again; RED frames, of which the single one is not RED any more
    (let s := withPort0 (fun p => { p with link := .retrain }) live
     s.portOn 0 = true ∧ (s.port 0).link = .retrain ∧ s.gtc < (s.port 0).retrainGtc + 10 * Config.ms) ∧
    (let g : QFrame := { frame := { vl := 7, payload := [1] }, since := 0 }
     let s := withPort0 (fun p => { p with red := [g] }) live
     (s.port 0).red = [g] ∧ (s.port 0).redRoce = [] ∧
       (s.updPort 0 fun p => { p with red := [], redRoce := [] }).policeTint 0 g.frame.vl g.frame.bytes false ≠ .red) ∧
    (let x : RocePkt := { op := 2, qp := 64, cls := 7 }
     let s := withPort0 (fun p => { p with redRoce := [x] }) live
     (s.port 0).red = [] ∧ (s.port 0).redRoce = [x] ∧
       (s.updPort 0 fun p => { p with red := [], redRoce := [] }).policeTint 0 x.cls x.bytes x.marked ≠ .red) ∧
    -- a message to a place outside the torus; a queue pair that there is none of; a grant below what is granted; a scrub of DEVICE scope
    (live.inTorus 1 = false ∧ Tbl.find live.fabric.qps 64 = none) ∧
    (let s := (roce {}).updDlv 0 fun d => { d with granted := 4 }
     3 < (s.stream 0).dlv.granted) ∧
    (let s : State := { roce {} with sec := { live.sec with scrub := some { scope := 0xFFFFFFFF } } }
     s.scrubbedQp 64 = true ∧ s.deviceScrub = true) ∧
    -- a context that is not cached, and an access that its region does not allow
    (roce {}).rangeBad 1 0 64 1 false = true ∧ (roce {}).rangeBad 1 7 0 1 true = true := by decide +kernel

theorem witness_EnclaveAndPowerClauses :
    -- step 4 that overwrites; step 6 with a warm reset that waits, and with a state to burn
    (∀ p ∈ [(4, true, none, false), (6, false, none, true), (6, false, some 5, false)],
      let b : Scrub := { scope := 0xFFFFFFFF, step := p.1, overwriting := p.2.1, thenState := p.2.2.1 }
      let s : State := { live with sec := { live.sec with scrub := some b, waits := p.2.2.2 } }
      s.up = true ∧ s.sec.scrub = some b ∧ s.sec.waits = p.2.2.2 ∧ s.sys.flush = none) ∧
    -- a scrub of the device while a stream runs; weights that no image names
    ((streamIn .running).streamsIdle = false ∧ live.modelRefOf 0 [] = none) ∧
    -- a flush that runs, for which an undervoltage, a rail and the reference clock change nothing
    (let s : State := { live with sys := { live.sys with flush := some { why := .reset } } }
     s.up = true ∧ s.sys.flush ≠ none) ∧
    -- a power within the band, from 95 % of the limit to the limit
    (100 * 1378 ≥ 95 * live.stored oPkgPowerLimit ∧ 1378 ≤ live.stored oPkgPowerLimit ∧ live.stored oPkgPowerLimit ≤ live.stored oPkgPowerLimit) ∧
    -- a trip after 1 s above 105 °C, and 1 tick earlier
    (∀ g ∈ [Config.sec - 1, Config.sec], let s := at_ g (powered fun p => { p with hotSince := some 0 })
      s.power.hotSince = some 0 ∧ (105 : Int) < 106 ∧ (106 : Int) < 112 ∧ (decide (0 + Config.sec ≤ s.gtc) = decide (g = Config.sec))) ∧
    -- a period of the bank's test that is not over
    live.gtc < live.hold.lastTest + live.stored oHuTestPeriod * (86400 * Config.sec) ∧
    -- a flush that ends while the flush region is erased
    ({ media with erasingFlush := true } : FlashSt).erasingFlush = true := by decide +kernel

/-- The first segment of a value of two bytes of TELEM_SET, which the host on channel 0 writes. -/
def firstPart : State := live.setAsm host (some { src := host, key := oTelemSet, asm := { data := [1], total := 2 } })

theorem witness_DictionaryClauses :
    -- a segment that follows, and the last one
    (firstPart.mgmt.asms.find? (fun x => x.src == host)).map (fun a => (a.key, a.asm.total, a.asm.data)) = some (oTelemSet, 2, [1]) ∧
    -- a set of entries of two servers
    (enclaveServes oLcAuth = true ∧ enclaveServes oTelemK = false ∧
      manyOk [(oTelemK / 256, oTelemK % 256, [21]), (oLcAuth / 256, oLcAuth % 256, [1])] = true) ∧
    -- a request that names another device, and one that names this device
    (live.goesAway host 1 = true ∧ live.goesAway host 0 = false ∧ live.acceptRequest host 7 = some live ∧ live.rm0Serves = true) ∧
    -- OPEN that is ignored; a session that there is none of; a frame that is none
    (live.gtc < ({ live with mgmt := { live.mgmt with ignoreUntil := 1 } } : State).mgmt.ignoreUntil ∧ Tbl.find live.mgmt.sessions 5 = none ∧
      frameOk [] 0 = false) ∧
    -- the answer of another device to a request that was forwarded
    (let f := odFrame 0x90 0 3 0 (zeros 8)
     frameOk f 0 = true ∧ 0x80 ≤ fieldAt f 5 1 ∧ 0x10 + 0x80 = fieldAt f 5 1 ∧ 3 = fieldAt f 12 4) := by decide +kernel

theorem witness_StartClauses :
    -- BLANK in step 5; not the ninth step; a warm start; no alignment yet, and one that is there
    (let s : State := starting 5 { live with sec := { live.sec with lc := 0 } }
     s.up = true ∧ s.sys.flush = none ∧ s.sys.step = 5 ∧ s.sec.lc = 0) ∧
    (live.sys.step ≠ 9 ∧ live.clk.phase = none ∧ ({ live with clk := { live.clk with phase := some 3 } } : State).clk.phase ≠ none) ∧
    (let s : State := starting 4 { live with sys := { live.sys with warm := true } }
     s.up = true ∧ s.sys.warm = true ∧ s.flag oWarmBist = false) ∧
    -- RST_N during a flush, and its release; PERST_N low in reset
    (let s : State := { live with sys := { live.sys with flush := some { why := .reset }, rstLow := true } }
     s.sys.inReset = false ∧ s.sys.flush = some { why := .reset } ∧ s.sys.rstLow = true) ∧
    (({ State.reset with host := { live.host with perst := true } } : State).sys.inReset = true ∧ live.host.perst = false) ∧
    -- WARM_RESET in a start
    (Sends (starting 9 live) oWarmReset host .operator [1] ∧ ((starting 9 live).setAsm host none).sys.step ≠ 0) ∧
    -- group 6, a group that does not run, and no bank; SCAN_RUN in a start
    (live.sys.bistState ≠ 1 ∧ live.sys.bistBank = none) ∧
    (Sends (starting 9 (inState 4)) oScanRun factory .factory [1] ∧ ((starting 9 (inState 4)).setAsm factory none).sys.step ≠ 0) ∧
    -- a device that is not the root, and has not to ask yet; one without a port to ask
    (let s := at_ 5 (slave fun c => { c with exchanged := 1 })
     s.isRoot = false ∧ s.clk.t1 = none ∧ s.clk.exchanged ≠ 0 ∧ s.gtc < s.clk.exchanged + Config.ms) ∧ live.askPorts = [] :=
  ⟨by decide +kernel, by decide +kernel, by decide +kernel, by decide +kernel, by decide +kernel, ⟨sends (by decide +kernel), by decide +kernel⟩, by decide +kernel, ⟨sends (by decide +kernel), by decide +kernel⟩, by decide +kernel,
    by decide +kernel⟩

/-! ## Well-formed commands: an ill-formed term for each check, which the check refuses -/

/-- A request of a mailbox channel that is not there, and one whose SEQ is too wide. -/
def badReq : OdReq := { src := .channel 64, seq := 1, data := [] }
def goodReq : OdReq := { src := .channel 63, seq := 0xFFFFFFFF, data := [] }

/-- The requesters and the requests. -/
theorem test_wf_requests :
    goodReq.wf = true ∧ badReq.wf = false ∧ ({ goodReq with seq := 2 ^ 32 } : OdReq).wf = false ∧ OdSource.wf (.session 0) = false ∧
    OdSource.wf (.session (2 ^ 32)) = false ∧ OdSource.wf (.remote 8192 .factory) = false ∧ OdSource.wf (.remote 8191 .factory) = true := by decide +kernel

/-- The fields of a frame. -/
theorem test_wf_frames :
    (∀ f ∈ [({ ftype := 16 } : Frame), { vl := 8 }, { lseq := 4096 }, { lack := 4096 }, { tenant := 2 ^ 16 }, { dst := 8192 }, { src := 8192 },
      { msgId := 2 ^ 32 }, { offset := 2 ^ 32 }, { total := 2 ^ 32 }, { op := 16 }, { dqp := 2 ^ 16 }, { fence := 2 ^ 32 }, { rkey := 2 ^ 32 },
      { rbase := 2 ^ 32 }, { payload := zeros 4097 }], f.wf = false) ∧
    ({ ftype := 15, vl := 7, dst := 8191, payload := zeros 4096 } : Frame).wf = true := by decide +kernel

/-- The fields of an NVMe command and of an ALLOC. -/
theorem test_wf_nvme_and_alloc :
    (∀ c ∈ [({ sq := 1025 } : NvmeCmd), { cid := 2 ^ 16 }, { nsid := 2 ^ 32 }, { cdw2 := 2 ^ 32 }, { cdw10 := 2 ^ 32 }, { cdw11 := 2 ^ 32 },
      { cdw12 := 2 ^ 32 }, { cdw13 := 2 ^ 32 }, { cdw14 := 2 ^ 32 }, { cdw15 := 2 ^ 32 }, { prp := 2 ^ 64 }], c.wf = false ∧ (Instr.nvmeRead c).wf = false) ∧
    ({ sq := 1024, cid := 0xFFFF } : NvmeCmd).wf = true ∧
    (let a : AllocReq := { pool := 63, source := .ringmaster 3, count := 256, cls := 7 }
     a.wf = true ∧ ∀ b ∈ [{ a with pool := 64 }, { a with source := .stream 64 }, { a with source := .ringmaster 4 }, { a with count := 0 },
       { a with count := 257 }, { a with cls := 8 }], b.wf = false ∧ (Instr.bufferAlloc b).wf = false) := by decide +kernel

/-- Commands that carry a request refuse an ill-formed one, and those that name a stream refuse stream 64. -/
theorem test_wf_streams :
    (∀ c : Nat → Instr, c ∈ [Instr.imageSlotWrite goodReq, Instr.clockExactWrite goodReq, Instr.streamStart goodReq, Instr.streamPause goodReq,
      Instr.pauseDrainDone, Instr.streamResume goodReq, Instr.streamStop goodReq, Instr.pipelineReset goodReq, Instr.streamRelease goodReq,
      fun n => Instr.splitModeWrite goodReq n false, Instr.epochBegin, Instr.batchOpen, Instr.threshEpochWrite goodReq, Instr.settlePosition,
      Instr.launchWindow, Instr.slotDeliver, Instr.fabricDeliver, Instr.deliverWritten, Instr.mirrorLag, Instr.markTimer,
      Instr.partnerWrite goodReq, Instr.moveTo goodReq, Instr.snapControl goodReq, fun n => Instr.dbRetire n 0, fun n => Instr.dbRedeliver n 0,
      fun n => Instr.dbBackfill n 0, fun n => Instr.mirrorAckReceive n 0, fun n => Instr.markAckReceive n 0, fun n => Instr.staleFenceRefusal n 0 0,
      fun n => Instr.mbxTake n, fun n => Instr.mbxDeviceTake n, Instr.poolPlaceWrite goodReq, Instr.reclaim goodReq] →
      (c 63).wf = true ∧ (c 64).wf = false) ∧
    ∀ c ∈ [Instr.imageSlotWrite badReq 0, .streamStart badReq 0, .threshEpochWrite badReq 0, .reclaim badReq 0, .rejoin badReq,
      .domainReset badReq, .simDeath badReq, .portDown badReq, .rmHang badReq, .caravanLoss badReq, .hookEnd badReq, .lcStateWrite badReq,
      .lcAuthWrite badReq, .evidenceReq badReq, .modelKeyRelease badReq, .snapshotKeyRelease badReq, .withdraw badReq, .scrubTenantScope badReq,
      .scrubDeviceScope badReq, .huTestNow badReq, .gtcRootWrite badReq, .warmReset badReq, .bistRun badReq, .scanRun badReq,
      .configChange badReq 0, .shaperParamWrite badReq 0 1, .domainTargetWrite badReq 0, .unload badReq 0], c.wf = false := by
  refine ⟨fun c h => ?_, by decide +kernel⟩
  simp only [List.mem_cons, List.not_mem_nil, or_false] at h
  rcases h with rfl | rfl | rfl | rfl | rfl | rfl | rfl | rfl | rfl | rfl | rfl | rfl | rfl | rfl | rfl | rfl | rfl | rfl | rfl | rfl | rfl | rfl |
    rfl | rfl | rfl | rfl | rfl | rfl | rfl | rfl | rfl | rfl | rfl <;> decide +kernel

/-- Cores, engines, ports, gates and the other numbers. -/
theorem test_wf_numbers :
    ∀ c ∈ [Instr.add 384, .vredmax 384, .twait 384, .tmuDescriptorDone 384 0, .kernelStepLimit 384, .stageComplete 0 64 none, .codecBlockDone 16,
      .scratchReserve 0 64, .unload goodReq 16, .portionListReceive 0 (2 ^ 32) 0 [], .portionListReceive 0 0 (2 ^ 16) [], .sampleMigrate 0 0 .send,
      .sampleMigrate 257 0 .send, .sampleMigrate 1 (2 ^ 64) .send, .dedupBandReceive (2 ^ 32) 0 0 0 0, .dedupBandReceive 0 8 0 0 0,
      .dedupBandReceive 0 0 (2 ^ 32) 0 0, .dedupBandReceive 0 0 0 (2 ^ 64) 0, .dedupBandReceive 0 0 0 0 (2 ^ 256), .dbRetire 0 (2 ^ 64),
      .cxlMemRead (2 ^ 38), .cxlMemWrite (2 ^ 38) [], .cxlMemWrite 0 (zeros 65), .bufferRelease (.stream 64) 0, .bufferRelease (.stream 0) (2 ^ 64), .destage 16,
      .gcVictimSelect 16, .nandReadComplete 0 19, .patrolRead 19, .nvmeSqDoorbell 1025 0, .nvmeSqDoorbell 0 (2 ^ 16), .nvmeCqDoorbell 1025 0,
      .ingestPieceTimeout 0 0, .writeThroughDone 1025 0, .configRequest 4096 none, .getEventRecords 4, .clearEventRecords 4 0], c.wf = false := by
  decide

theorem test_wf_ports :
    ∀ c ∈ [Instr.linkPcsLock 8, .linkPcsLoss 8, .replayTimeout 8, .retrainTimeout 8, .creditFrameTimer 8, .frameTransmitDone 8, .policerHoldRecolour 8,
      .dataFrameReceive 8 {}, .dataFrameReceive 0 { vl := 8 }, .timeFrameReceive 8 {} 0, .routeWaitExpiry 0 (2 ^ 32) 0, .reassemblyTimeout 0 (2 ^ 32),
      .busyBackoffExpiry (2 ^ 32), .respReceive { vl := 8 }, .qpContextFetchDone 8 0, .qpContextFetchDone 0 (2 ^ 24), .rdmaWriteReceive (2 ^ 24) 0 0 [],
      .rdmaReadRequest 0 (2 ^ 32) 0 0, .roceSendReceive (2 ^ 24), .roceAckReceive 0 (2 ^ 24), .roceRetryTimeout (2 ^ 24), .cnpReceive (2 ^ 24),
      .cnpRateRestore (2 ^ 24), .shaperParamWrite goodReq 176 1, .shaperParamWrite goodReq 0 0, .shaperParamWrite goodReq 0 5,
      .configChange goodReq 9, .gateListSwitch 9, .gateEntryExpiry 9, .crossbarDecisionPoint 16, .crossbarDecisionPoint 22], c.wf = false := by decide +kernel

theorem test_wf_rest :
    ∀ c ∈ [Instr.watchdogExpiry 4, .ringmasterRestartDone 4, .mbxPost 64 0 [], .mbxPost 0 (2 ^ 64) [], .mbxDevicePost 0 (2 ^ 16) 0 [],
      .mbxDevicePost 0 0 (2 ^ 32) [], .registerWrite (2 ^ 24) 1 0, .registerWrite 0 0 0, .registerWrite 0 9 0, .domainTargetWrite goodReq 4,
      .domainWake 0x48, .domainTransitionDone 15, .domainOffAccess 0 (2 ^ 24) true, .declareFailed 8192, .failedMessageReceive 8192 0 0,
      .takeoverDeferred 128, .fenceMessageReceive (2 ^ 32) 0 0 0, .mirrorCloseReceive 8192 0, .mirrorCloseReceive 0 64, .markAckReceive 0 8192,
      .locationSetReceive 0 0 (2 ^ 32) [], .portionListResendRequest 0 (2 ^ 16) 0, .rejoinedReceive 8192, .caravanRailFault 48, .droopTrip 49,
      .droopRecover 49, .huSample 4096 0, .huSample 0 4096, .huTempSample 4096, .odOpen 0 0 0 (zeros 31), .odOpen 0 256 0 (zeros 32),
      .odClose (2 ^ 32) 0, .odRead host 0 0 0 256 0 0, .odRead host 0 (2 ^ 16) 0 0 0 0, .odWrite host 0 0 (2 ^ 16) 0 true 0 0 [],
      .odWriteMany host 0 0 [], .odDescribe host (2 ^ 32) 0 0 0, .segmentTimeout (.channel 64) 0, .rstNRelease 32, .bistGroupDone 7 0 0 0,
      .t1sLinkChange 4, .batchBuffersReturned 64 0], c.wf = false := by decide +kernel

theorem test_wf_mirror_open (m : MirrorOpen) :
    (Instr.mirrorOpenReceive 8192 0 m).wf = false ∧ (Instr.mirrorOpenReceive 0 64 m).wf = false := ⟨rfl, rfl⟩

/-- No row of the table gives bits: a word spells no command, and puts none into the queue. -/
theorem test_no_words : decodeTableWord 32 0x5015 = none ∧ live.withFetchWord 32 0x5015 = live := ⟨rfl, rfl⟩

/-! ## The spec's worked examples -/

/-- R162 to R168, the worked example: 8 samples of 16 bits code to the payload A2 01 81 1C 09 00 A0 10. -/
theorem test_ahnet_block :
    let g : AhCfg := { raster := true, w := 4, h := 2, ch := 1, d := 16, signed := false }
    let x : List Nat := [32800, 32800, 32800, 32804, 32800, 32802, 32803, 32805]
    (encBlock g 3 (fun i => x.getD i 0) 0 8 {}).1.drop 16 = [0xA2, 0x01, 0x81, 0x1C, 0x09, 0x00, 0xA0, 0x10] := by decide +kernel

/-- R123 to R131, the worked example: an output pixel, its source coordinate and its phases. -/
theorem test_geometry_pixel :
    domainAt { x0 := 120, y0 := 203, cw := 1440, ch := 810, flip := true } 224 224 100 50 = (59862455, 25238674) ∧
    bilinearAt (900 * 65536) (964 * 65536) 59015168 63209472 17846 1138 = 60125113 ∧
    bilinearAt 25296896 25329664 29491200 29523968 17846 1138 = 25378651 ∧
    phaseOf 60125113 = (917, 28) ∧ phaseOf 25378651 = (387, 16) ∧ filterTaps 0 28 = (0, [9216, 7168]) ∧ filterTaps 0 16 = (0, [12288, 4096]) := by decide +kernel

/-- R480, R541, the worked example: code 1,920 of HU_VSNS is 36 V; code 2,851 of HU_TSNS is 5.0 °C, rounded, and gives k_T 0.90. -/
theorem test_holdup_reading : voltsOf 1920 = f64 36 1 ∧ bankTemp 2850 = 5 ∧ bankTemp 2851 = 4 ∧ ktOf (bankTemp 2851) = 90 := by decide +kernel

/-- R355: W0 and the start of W1, written out by hand: VL 7, LSEQ 0x123, LACK 0x456, one byte, tenant 0xABCD, DST (1, 2, 3). -/
theorem test_frame_header :
    (({ vl := 7, lseq := 0x123, lack := 0x456, tenant := 0xABCD, payload := [1], dst := packCoord 1 2 3, esc := true } : Frame).header.take 12)
      = [0x70, 0x23, 0x61, 0x45, 0x01, 0x00, 0xCD, 0xAB, 0x41, 0x06, 0x00, 0x20] := by decide +kernel

/-- R8, R10, the worked example: 150 is taken for one count, 500 is refused with STATE and draws none. -/
theorem test_count_drawn :
    let m : Option State := match exec (.odWrite host 42 0xFFFF 0x3800 2 true 0 2 [0x96, 0]) live with | .next t => some t | _ => none
    m.map (fun (t : State) => (t.stored oOpPermille, Tbl.get t.drawn 0 oOpPermille, t.out)) =
      some (150, 1, [.odResponse host 0x91 42 rOk 0 []]) := by decide +kernel

end Sys2Proof.Tests
end

section
/-! Every well-formed command answers a next state (R10, R519): what stands under each guard answers, and every row of the
table stands under one of the guards. -/

namespace Sys2Proof.Machine

open Sys2Proof

/-- A command's outcome is a next state. -/
def Answers (r : Res) : Prop := ∃ t, r = .next t

theorem answers_next (s : State) : Answers (.next s) := ⟨s, rfl⟩

theorem answers_ite {p : Prop} [Decidable p] {a b : Res} (ha : Answers a) (hb : Answers b) : Answers (if p then a else b) := by
  split
  · exact ha
  · exact hb

/-- A check that faults on a number that the device does not have lets pass a number that it has. -/
theorem answers_within {p : Prop} [Decidable p] {a b : Res} (hp : p) (ha : Answers a) : Answers (if p then a else b) := by
  rwa [if_pos hp]

theorem answers_beyond {p : Prop} [Decidable p] {a b : Res} (hp : ¬ p) (hb : Answers b) : Answers (if p then a else b) := by
  rwa [if_neg hp]

/-! ## The guards that let a command wait -/

theorem whenUp_answers {s : State} {f : State → Res} (h : ∀ u, Answers (f u)) : Answers (whenUp s f) :=
  answers_ite (h s) (answers_next s)

theorem whenEnclave_answers {s : State} {f : State → Res} (h : ∀ u, Answers (f u)) : Answers (whenEnclave s f) :=
  answers_ite (h s) (answers_next s)

theorem whenRm_answers {p : Nat} {s : State} {f : State → Res} (h : ∀ u, Answers (f u)) : Answers (whenRm p s f) :=
  whenUp_answers fun u => answers_ite (h u) (answers_next u)

theorem withFlash_answers {s : State} {f : State → Res} (h : ∀ u, Answers (f u)) : Answers (withFlash s f) :=
  whenUp_answers fun u => answers_ite (h u) (answers_next u)

theorem whenServed_answers {qp : Nat} {s : State} {f : State → Res} (h : ∀ u, Answers (f u)) : Answers (whenServed qp s f) :=
  whenUp_answers fun u => answers_ite (answers_next _) (h u)

theorem withLink_answers {s : State} {f : State → State} : Answers (withLink s f) :=
  answers_ite (answers_next s) (answers_next (f s))

/-! ## The guards that ask for a number in range -/

theorem withStream_answers {n : Nat} {s : State} {f : State → Res} (hn : n < 64) (h : ∀ u, Answers (f u)) :
    Answers (withStream n s f) :=
  answers_within hn (whenUp_answers h)

theorem withRmStream_answers {p n : Nat} {s : State} {f : State → Res} (hn : n < 64) (h : ∀ u, Answers (f u)) :
    Answers (withRmStream p n s f) :=
  withStream_answers hn fun _ => whenRm_answers h

theorem withCore_answers {c : Nat} {s : State} {f : State → Res} (hc : c < 384) (h : ∀ u, Answers (f u)) :
    Answers (withCore c s f) :=
  answers_within hc (answers_ite (answers_next s) (whenUp_answers h))

theorem withPort_answers {k : Nat} {s : State} {f : State → Res} (hk : k < 8) (h : ∀ u, Answers (f u)) :
    Answers (withPort k s f) :=
  answers_within hk (whenUp_answers h)

theorem withGate_answers {g : Nat} {s : State} {f : State → Res} (hg : g < 9) (h : ∀ u, Answers (f u)) :
    Answers (withGate g s f) :=
  answers_within hg (whenUp_answers h)

theorem withRm_answers {p : Nat} {s : State} {f : State → Res} (hp : p < 4) (h : ∀ u, Answers (f u)) :
    Answers (withRm p s f) :=
  answers_within hp (whenUp_answers h)

theorem withChan_answers {c : Nat} {s : State} {f : State → Res} (hc : c < 64) (h : ∀ u, Answers (f u)) :
    Answers (withChan c s f) :=
  answers_within hc (whenUp_answers h)

theorem withUnit_answers {u : Nat} {s : State} {f : State → Res} (hu : u ≤ 48) (h : ∀ v, Answers (f v)) :
    Answers (withUnit u s f) :=
  answers_within hu (whenUp_answers h)

theorem isDomain_of_isDomainNumber {d : Nat} (h : isDomainNumber d = true) : isDomain d = true := by
  simp [isDomainNumber] at h
  simp [isDomain]
  omega

theorem withDomain_answers {d : Nat} {s : State} {f : State → Res} (hd : isDomainNumber d = true) (h : ∀ u, Answers (f u)) :
    Answers (withDomain d s f) :=
  answers_within (isDomain_of_isDomainNumber hd) (whenUp_answers h)

/-! ## The families that share their meaning -/

theorem odRow_answers {key : Nat} {own : Nat → Bool} {r : OdReq} {s : State} : Answers (odRow key own r s) :=
  whenEnclave_answers fun u => answers_ite (answers_next u) (answers_next _)

theorem streamRow_answers {n key : Nat} {own : Nat → Bool} {r : OdReq} {s : State} : Answers (streamRow n key own r s) :=
  odRow_answers

theorem nvmeRun_answers {admin : Bool} {c : NvmeCmd} {s : State} {f : State → State} : Answers (nvmeRun admin c s f) :=
  whenUp_answers fun u => answers_ite (answers_ite (answers_next _) (answers_next _)) (answers_next u)

theorem nvmeIo_answers {c : NvmeCmd} {s : State} {waits : Namespace → State → Bool} {f : Namespace → State → State} :
    Answers (nvmeIo c s waits f) := by
  unfold nvmeIo
  split
  · exact nvmeRun_answers
  · exact answers_ite nvmeRun_answers (answers_ite (whenUp_answers fun u => answers_ite (answers_next _) (answers_next u))
      (answers_ite (answers_next s) nvmeRun_answers))

/-- R97: a kernel row retires its instruction, waits, or ends the kernel. -/
theorem runRow_answers {core : Nat} {op : Nat × Nat} {f : Core → Nat → KOut} {s : State} (hc : core < 384) :
    Answers (runRow core op f s) := by
  refine withCore_answers hc fun u => ?_
  dsimp only
  repeat' split
  all_goals exact answers_next _

theorem requesterOk_exists {r : Requester} (h : requesterOk r = true) : r.exists = true := by
  cases r with
  | stream n => exact h
  | ringmaster p => exact h
  | nvme q => rfl
  | fabric d => rfl

/-! ## Every row of the table -/

/-- R10, R519: a row's guard lets it wait or lets it through, and a row that is let through answers in every branch. The
only operands that a well-formed command may name out of range are the addresses of the host's CXL accesses. -/
theorem exec_answers_of_wf (c : Instr) (s : State) (hwf : c.wf = true)
    (hread : ∀ dpa, c = .cxlMemRead dpa → dpa < s.stored oResultDpa * gib)
    (hwrite : ∀ dpa d, c = .cxlMemWrite dpa d → dpa < s.stored oResultDpa * gib) : Answers (exec c s) := by
  cases c
  all_goals dsimp only [exec]
  -- The families: writes of one object, kernel rows, NVMe commands, CXL commands.
  case unload r k | poolPlaceWrite r p | reclaim r p | shaperParamWrite r q sub | configChange r g | domainTargetWrite r d |
      rejoin r | domainReset r | simDeath r | portDown r | rmHang r | caravanLoss r | hookEnd r | lcStateWrite r |
      lcAuthWrite r | evidenceReq r | modelKeyRelease r | snapshotKeyRelease r | withdraw r | scrubTenantScope r |
      scrubDeviceScope r | huTestNow r | gtcRootWrite r | warmReset r | bistRun r | scanRun r =>
    apply odRow_answers
  case imageSlotWrite r n | splitModeWrite r n cut | clockExactWrite r n | streamStart r n | streamPause r n |
      streamResume r n | streamStop r n | pipelineReset r n | streamRelease r n | threshEpochWrite r n | partnerWrite r n |
      moveTo r n | snapControl r n =>
    apply streamRow_answers
  case add core | mul core | divs core | sar core | addi core | j core | beq core | blt core | jal core | jr core |
      ld64 core | st64 core | vadd core | vmul core | vdiv core | vmin core | vmax core | vsqrt core | vexp2 core |
      vlog2 core | vadds core | vbcast core | vfma core | vfms core | vcvt core | vcvtz core | vredsum core | vredsumw core |
      vld core | vst core | vgather core | vscatter core | vcmplt core | pfirstn core | tissue core | twait core |
      halt core | draw core | vdraw core | srd core =>
    apply runRow_answers (of_decide_eq_true hwf)
  case vredmax core =>
    have hc : core < 384 := of_decide_eq_true hwf
    exact answers_ite (runRow_answers hc) (runRow_answers hc)
  case nvmeIdentify c | nvmeGetLogPage c | nvmeGetFeatures c | nvmeSetFeatures c | nvmeCreateIoSq c | nvmeCreateIoCq c |
      nvmeDeleteIoSq c | nvmeDeleteIoCq c | nvmeAbort c | asynchronousEventRequest c | namespaceManagement c |
      namespaceAttachment c | formatNvm c | firmwareImageDownload c | nvmeFlush c =>
    apply nvmeRun_answers
  case pipelineLoad c | firmwareCommit c | corpusCreate c | corpusSeal c | snapshotRead c | snapshotRestore c =>
    exact whenRm_answers fun _ => nvmeRun_answers
  case nvmeRead c | nvmeWrite c | datasetManagement c | writeZeroes c | ingest c =>
    apply nvmeIo_answers
  case spdmVendorRequest data | identifyMemoryDevice | getPartitionInfo | getHealthInfo | getEventRecords log |
      clearEventRecords log count | getSupportedLogs | getLog data | getPoisonList dpa len =>
    apply withLink_answers
  -- The rows that may have to wait.
  case' jobAdmit | stageComplete job stage transient | scratchReserve job stage | sampleMigrate nsid idx m |
      dedupBandReceive corpus k band idx sig | exactRelease job | dramScrubRead line errors intervened |
      oasisScrubRead word errors intervened | nvmeSqDoorbell q tail | nvmeCqDoorbell q head | controllerEnable en |
      ingestPieceTimeout nsid idx | routeWaitExpiry src msgId offset | reassemblyTimeout src msgId | respReceive f |
      busyBackoffExpiry msgId | roceAckReceive qp psn | roceRetryTimeout qp | cnpReceive qp | cnpRateRestore qp |
      queueSample | heartbeatSend | heartbeatReceive data | hookExpiry | inputUndervoltage mv | railFault | refclkLoss |
      refclkReturn | refclkLossExpiry | junctionSample t | powerAverage w | thermalTrip t | huSample vsns isns |
      huTempSample code | huTestStart | pwrFailAssert ns | remoteOdRequest data | gtcExchange | gtcHoldover |
      phaseMonitorMismatch | startupStepDone facts | ringAdmission | wrstNAssert | bistBankDone ok =>
    apply whenUp_answers
    intro u
  case' odOpen seq role slot clientNonce | odClose session seq | odRead src seq target idx sub offset maxLen |
      odWrite src seq target idx sub last offset total data | odWriteMany src seq target entries |
      odDescribe src seq target idx sub | mgmtDatagramReceive data | sessionTimeout id | segmentTimeout src key |
      settingsApply | t1sLinkChange v =>
    apply whenEnclave_answers
    intro u
  case' rdmaWriteReceive qp rkey addr data | rdmaReadRequest qp rkey addr len | roceSendReceive qp =>
    apply whenServed_answers
    intro u
  case' declareFailed coord | failedMessageReceive sender peer gtc | fenceMessageReceive corpus member epoch owner |
      mirrorSnapshotReceive coord stream owner data | rejoinedReceive coord | modelWeightsLoaded slot | scrubStepDone |
      telemetry | mirrorOpenReceive coord stream o | mirrorCloseReceive coord stream |
      locationSetReceive coord stream epoch entries | markReceive coord stream owner data |
      portionListResendRequest corpus member epoch =>
    apply whenRm_answers
    intro u
  case' programComplete pun ok | eraseComplete block ok | nandReadComplete pun step | unitCopyCommit src |
      flashTempSample temps | writeThroughDone sq cid =>
    apply withFlash_answers
    intro u
  case' patrolRead step | checkpointWrite =>
    apply whenRm_answers
    intro _
    apply withFlash_answers
    intro u
  -- The rows that name a part of the device, which a well-formed command names within its range.
  case' pauseDrainDone n | portionListReceive n epoch owner data | epochBegin n | batchOpen n | settlePosition n |
      launchWindow n | slotDeliver n | fabricDeliver n | deliverWritten n | dbRetire n value | dbRedeliver n value |
      dbBackfill n value | hostDeadlineExpiry n slot | batchBuffersReturned n k =>
    apply withStream_answers (by simp [Instr.wf] at hwf; omega)
    intro u
  case' staleFenceRefusal n epoch owner | mirrorOpenAck n cause | mirrorAckReceive n seq | mirrorLag n | markTimer n |
      markAckReceive n coord =>
    apply withRmStream_answers (by simp [Instr.wf] at hwf; omega)
    intro u
  case' tmuDescriptorDone core tag | kernelStepLimit core =>
    apply withCore_answers (by simp [Instr.wf] at hwf; omega)
    intro u
  case' linkPcsLock k | versionFrameReceive k f | dataFrameReceive k f | creditFrameReceive k f | nakFrameReceive k f |
      idleFrameReceive k f | replayTimeout k | retrainTimeout k | creditFrameTimer k | qpContextFetchDone k qp |
      timeFrameReceive k f stamp | linkPcsLoss k | policerHoldRecolour k =>
    apply withPort_answers (by simp [Instr.wf] at hwf; omega)
    intro u
  case' gateListSwitch g | gateEntryExpiry g =>
    apply withGate_answers (by simp [Instr.wf] at hwf; omega)
    intro u
  case' watchdogExpiry p | ringmasterRestartDone p =>
    apply withRm_answers (by simp [Instr.wf] at hwf; omega)
    intro u
  case' mbxPost c value body | mbxTake c | mbxDeviceTake c | mbxDevicePost c sender seq body =>
    apply withChan_answers (by simp [Instr.wf] at hwf; omega)
    intro u
  case' droopTrip u | droopRecover u =>
    apply withUnit_answers (by simp [Instr.wf] at hwf; omega)
    intro u
  case' domainWake d | domainTransitionDone d =>
    apply withDomain_answers (by simpa [Instr.wf] using hwf)
    intro u
  case' bufferAlloc a =>
    simp only [Instr.wf, AllocReq.wf, Bool.and_eq_true, decide_eq_true_eq] at hwf
    obtain ⟨⟨⟨⟨hpool, hsource⟩, _⟩, _⟩, _⟩ := hwf
    apply answers_beyond (by omega)
    apply answers_beyond (by simp [requesterOk_exists hsource])
    apply whenUp_answers
    intro u
  case' bufferRelease releaser handle =>
    simp only [Instr.wf, Bool.and_eq_true] at hwf
    apply answers_beyond (by simp [requesterOk_exists hwf.1])
    apply whenUp_answers
    intro u
  case' destage m | gcVictimSelect m =>
    apply answers_beyond (by simp [Instr.wf] at hwf; omega)
    apply withFlash_answers
    intro u
  case' codecBlockDone e | caravanRailFault n | bistGroupDone g unit fails repairs | registerWrite addr size value =>
    apply answers_beyond (by simp [Instr.wf, Config.caravans] at hwf ⊢; omega)
    apply whenUp_answers
    intro u
  case' takeoverDeferred m =>
    apply answers_beyond (by simp [Instr.wf, Config.mirrors] at hwf ⊢; omega)
    apply whenRm_answers
    intro u
  case' crossbarDecisionPoint res =>
    apply answers_within hwf
    apply whenUp_answers
    intro u
  case' domainOffAccess d addr write =>
    simp only [Instr.wf, Bool.and_eq_true, decide_eq_true_eq] at hwf
    apply answers_beyond (by omega)
    apply withDomain_answers hwf.1
    intro u
  case' frameTransmitDone k =>
    have hk : k < 8 := of_decide_eq_true hwf
    apply answers_beyond (by omega)
    apply withPort_answers hk
    intro u
  -- R312: the host's accesses lie within the window of RESULT_DPA.
  case' cxlMemRead dpa =>
    apply answers_beyond (Nat.not_le.mpr (hread dpa rfl))
    apply whenUp_answers
    intro u
  case' cxlMemWrite dpa data =>
    apply answers_beyond (Nat.not_le.mpr (hwrite dpa data rfl))
    apply whenUp_answers
    intro u
  -- The rows of the pins and of the start, which have no guard.
  case' phyRecalibrate | pwrFailRelease | configRequest offset write | flushStepDone | gtcSyncInEdge | gtcSyncOutPulse |
      rstNAssert | rstNRelease straps | perstNAssert | perstNRelease | scanDone =>
    dsimp only [execPhyRecalibrate, execPwrFailRelease, execConfigRequest, execFlushStepDone, execGtcSyncInEdge,
      execGtcSyncOutPulse, execRstNAssert, execRstNRelease, execPerstNAssert, execPerstNRelease, execScanDone]
  -- Behind its guard a row is a tree of checks and case distinctions whose leaves are next states.
  all_goals try dsimp only
  all_goals repeat' with_reducible refine answers_ite ?_ ?_
  all_goals repeat' split
  all_goals exact answers_next _

end Sys2Proof.Machine

open Sys2Proof.Machine in
/-- Settles O59: every row stands under a guard, and a guard that could fault asks only for a number that a well-formed command
has in range, or for an address within the window of RESULT_DPA. -/
theorem wellFormedCommandsNeverStop : Obligations.WellFormedCommandsNeverStop := fun c s hwf hread hwrite =>
  exec_answers_of_wf c s hwf hread hwrite
end

section
/-! Requests of the object dictionary: what an accepted request, a read and an answer leave of the machine, and what the rows
READ, WRITE, WRITE_MANY and DESCRIBE come to once the gate has let a request through or sent it away (R492 to R505). -/

namespace Sys2Proof.Machine

open Sys2Proof

/-! ## What an accepted request changes -/

/-- R413: keeping a domain awake changes the domains alone. -/
theorem touch_eq (s : State) (d : Nat) : s.touch d = { s with domains := (s.touch d).domains } := by
  unfold State.touch
  dsimp only
  repeat' split
  all_goals rfl

/-- R500, R501: accepting a request changes its session alone. -/
theorem acceptRequest_eq {s s1 : State} {src : OdSource} {seq : Nat} (h : s.acceptRequest src seq = some s1) :
    s1 = { s with mgmt := { s.mgmt with sessions := s1.mgmt.sessions } } := by
  unfold State.acceptRequest at h
  split at h
  case h_2 => cases h; rfl
  case h_1 id =>
    split at h
    case h_1 => cases h
    case h_2 x _ =>
      split at h
      · cases h
      · cases h; rfl

theorem atServer_eq (s : State) (src : OdSource) (enclave : Bool) :
    s.atServer src enclave = { s with domains := (s.atServer src enclave).domains } := by
  unfold State.atServer
  split
  · exact touch_eq s 0
  · rfl

/-- R492, R500: a request that reaches its server has changed its session and the domains alone. -/
theorem State.Admits.state_eq {s t : State} {src : OdSource} {seq : Nat} {enclave : Bool} {role : Role}
    (h : s.Admits src seq enclave role t) :
    t = { s with domains := t.domains, mgmt := { s.mgmt with sessions := t.mgmt.sessions } } := by
  obtain ⟨s1, haccept, _, _, ht⟩ := h.received
  rw [ht, atServer_eq, acceptRequest_eq haccept]

theorem State.Admits.out_eq {s t : State} {src : OdSource} {seq : Nat} {enclave : Bool} {role : Role}
    (h : s.Admits src seq enclave role t) : t.out = s.out := by
  rw [h.state_eq]

theorem State.Admits.power_eq {s t : State} {src : OdSource} {seq : Nat} {enclave : Bool} {role : Role}
    (h : s.Admits src seq enclave role t) : t.power = s.power := by
  rw [h.state_eq]

/-! ## What an answer changes -/

theorem forward_eq (s : State) (q : QFrame) : s.forward q = { s with fabric := (s.forward q).fabric } := by
  unfold State.forward
  split <;> rfl

theorem foldl_forward_eq {α : Type} (g : State → α → QFrame) (l : List α) (s : State) :
    l.foldl (fun s x => s.forward (g s x)) s = { s with fabric := (l.foldl (fun s x => s.forward (g s x)) s).fabric } := by
  induction l generalizing s with
  | nil => rfl
  | cons x l ih =>
    rw [List.foldl_cons, ih, forward_eq]

/-- R355, R365: sending a message changes the fabric alone. -/
theorem sendMessage_eq (s : State) (head : Frame) (data : Bytes) (p : Purpose) (subject : Nat) :
    s.sendMessage head data p subject = { s with fabric := (s.sendMessage head data p subject).fabric } := by
  unfold State.sendMessage
  split
  · rfl
  · split
    · rfl
    · unfold State.sendAs
      dsimp only
      split
      · rw [foldl_forward_eq]
      · rfl

/-- R500, R501: an answer in a session changes that session alone, and sends at most the datagram that carries it. -/
theorem answerSession_eq (s : State) (id op seq : Nat) (body : Bytes) :
    ∃ l, s.answerSession id op seq body =
      { s with
        out := s.out ++ l
        mgmt := { s.mgmt with sessions := (s.answerSession id op seq body).mgmt.sessions } } := by
  unfold State.answerSession
  split
  · exact ⟨[], by simp⟩
  · exact ⟨[_], rfl⟩

/-- R495, R503, R504: an answer sends its response out first, and changes only the channel, the session or the fabric that
carries it. -/
theorem answer_eq (s : State) (src : OdSource) (op seq result status : Nat) (rest : Bytes) :
    ∃ l, s.answer src op seq result status rest =
      { s with
        out := s.out ++ .odResponse src (op + 0x80) seq result status rest :: l
        chans := (s.answer src op seq result status rest).chans
        fabric := (s.answer src op seq result status rest).fabric
        mgmt := { s.mgmt with sessions := (s.answer src op seq result status rest).mgmt.sessions } } := by
  unfold State.answer
  cases src with
  | channel c => exact ⟨[], rfl⟩
  | session id =>
    dsimp only
    obtain ⟨l, hl⟩ := answerSession_eq (s.emit (.odResponse (.session id) (op + 0x80) seq result status rest)) id
      (op + 0x80) seq (odBody result status rest)
    rw [hl]
    exact ⟨l, by simp only [State.emit, List.append_assoc, List.singleton_append]⟩
  | remote coord role =>
    dsimp only
    unfold State.sendOd
    rw [sendMessage_eq]
    exact ⟨[], rfl⟩

/-! ## What a read changes -/

theorem odRead_out (s : State) (key : Nat) : (s.odRead key).out = s.out := by
  unfold State.odRead
  dsimp only
  repeat' split
  all_goals rfl

theorem odRead_mgmt (s : State) (key : Nat) : (s.odRead key).mgmt = s.mgmt := by
  unfold State.odRead
  dsimp only
  repeat' split
  all_goals rfl

theorem odRead_clk (s : State) (key : Nat) : (s.odRead key).clk = s.clk := by
  unfold State.odRead
  dsimp only
  repeat' split
  all_goals rfl

/-- R485: a read of another object than TJ_PEAK leaves the power record. -/
theorem odRead_power {key : Nat} (s : State) (hkey : key ≠ oTjPeak) : (s.odRead key).power = s.power := by
  unfold State.odRead
  dsimp only
  rw [if_neg hkey]
  repeat' split
  all_goals rfl

/-- R485: a read of TJ_PEAK starts it again from the present temperature. -/
theorem odRead_tjPeak (s : State) : s.odRead oTjPeak = { s with power := { s.power with tjPeak := s.power.tj } } := rfl

/-! ## The rows behind the gate -/

theorem keyOf_eq {idx sub : Nat} (hidx : idx < 65536) (hsub : sub < 256) : keyOf idx sub = 256 * idx + sub := by
  simp [keyOf, hidx, hsub]

/-- R504: a request for another device is forwarded to it with the requester's role. -/
theorem gate_away {s t s1 : State} {src : OdSource} {seq op target : Nat} {enclave enclave' : Bool} {role : Role} {body : Bytes}
    (f : Role → State → State) (h : s.Admits src seq enclave' role t) (haccept : s.acceptRequest src seq = some s1)
    (haway : s.goesAway src target = true) (hrm : s.rm0Serves = true) :
    s.gate_ src seq op target enclave body f = s1.forwardRequest src seq op target role body := by
  obtain ⟨s2, haccept', hrole, _, _⟩ := h.received
  obtain rfl : s1 = s2 := Option.some.inj (haccept.symm.trans haccept')
  unfold State.gate_
  simp [h.alive, haccept, haway, hrm, hrole]

theorem exec_odRead_served {s : State} (h : s.enclaveUp = true) (src : OdSource) (seq target idx sub off n : Nat) :
    exec (.odRead src seq target idx sub off n) s = .next (s.readRequest src seq target idx sub off n) := by
  simp only [exec, execOdRead, whenEnclave_runs _ h]

theorem exec_odWrite_served {s : State} (h : s.enclaveUp = true) (src : OdSource) (seq target idx sub : Nat) (last : Bool)
    (off total : Nat) (data : Bytes) :
    exec (.odWrite src seq target idx sub last off total data) s =
      .next (s.writeReq src seq target idx sub last off total data) := by
  simp only [exec, execOdWrite, whenEnclave_runs _ h]

theorem exec_odWriteMany_served {s : State} (h : s.enclaveUp = true) (src : OdSource) (seq target : Nat)
    (es : List (Nat × Nat × Bytes)) :
    exec (.odWriteMany src seq target es) s = .next (s.manyRequest src seq target es) := by
  simp only [exec, execOdWriteMany, whenEnclave_runs _ h]

theorem exec_odDescribe_served {s : State} (h : s.enclaveUp = true) (src : OdSource) (seq target idx sub : Nat) :
    exec (.odDescribe src seq target idx sub) s = .next (s.describeRequest src seq target idx sub) := by
  simp only [exec, execOdDescribe, whenEnclave_runs _ h]

section Rows

variable {s t : State} {src : OdSource} {seq idx sub : Nat} {role : Role}

theorem exec_odRead_admitted (h : s.Admits src seq (enclaveServes (keyOf idx sub)) role t) (off n : Nat) :
    exec (.odRead src seq 0xFFFF idx sub off n) s = .next (t.serveRead src seq (keyOf idx sub) off n role) := by
  rw [exec_odRead_served h.up, State.readRequest, gate_admits _ h]

theorem exec_odDescribe_admitted (h : s.Admits src seq (enclaveServes (keyOf idx sub)) role t) :
    exec (.odDescribe src seq 0xFFFF idx sub) s = .next (t.serveDescribe src seq (keyOf idx sub) role) := by
  rw [exec_odDescribe_served h.up, State.describeRequest, gate_admits _ h]

theorem exec_odWrite_admitted (h : s.Admits src seq (enclaveServes (keyOf idx sub)) role t) (last : Bool) (off total : Nat)
    (data : Bytes) :
    exec (.odWrite src seq 0xFFFF idx sub last off total data) s =
      .next (t.serveWrite src seq (keyOf idx sub) last off total data role) := by
  rw [exec_odWrite_served h.up, State.writeReq, gate_admits _ h]

theorem exec_odWriteMany_admitted {es : List (Nat × Nat × Bytes)}
    (h : s.Admits src seq (es.all fun e => enclaveServes (keyOf e.1 e.2.1)) role t) :
    exec (.odWriteMany src seq 0xFFFF es) s = .next (t.serveMany src seq es role) := by
  rw [exec_odWriteMany_served h.up, State.manyRequest, gate_admits _ h]

variable {s1 : State} {target : Nat} {enclave : Bool}

theorem exec_odRead_away (h : s.Admits src seq enclave role t) (haccept : s.acceptRequest src seq = some s1)
    (haway : s.goesAway src target = true) (hrm : s.rm0Serves = true) (off n : Nat) :
    exec (.odRead src seq target idx sub off n) s = .next (s1.forwardRequest src seq 0x10 target role
      (leBytes 2 idx ++ leBytes 1 sub ++ zeros 1 ++ leBytes 4 off ++ leBytes 4 n)) := by
  rw [exec_odRead_served h.up, State.readRequest, gate_away _ h haccept haway hrm]

theorem exec_odDescribe_away (h : s.Admits src seq enclave role t) (haccept : s.acceptRequest src seq = some s1)
    (haway : s.goesAway src target = true) (hrm : s.rm0Serves = true) :
    exec (.odDescribe src seq target idx sub) s =
      .next (s1.forwardRequest src seq 0x13 target role (leBytes 2 idx ++ leBytes 1 sub ++ zeros 1)) := by
  rw [exec_odDescribe_served h.up, State.describeRequest, gate_away _ h haccept haway hrm]

theorem exec_odWrite_away (h : s.Admits src seq enclave role t) (haccept : s.acceptRequest src seq = some s1)
    (haway : s.goesAway src target = true) (hrm : s.rm0Serves = true) (last : Bool) (off total : Nat) (data : Bytes) :
    exec (.odWrite src seq target idx sub last off total data) s =
      .next (s1.forwardRequest src seq 0x11 target role (writeRequest idx sub last off total data)) := by
  rw [exec_odWrite_served h.up, State.writeReq, gate_away _ h haccept haway hrm]

theorem exec_odWriteMany_away (h : s.Admits src seq enclave role t) (haccept : s.acceptRequest src seq = some s1)
    (haway : s.goesAway src target = true) (hrm : s.rm0Serves = true) (es : List (Nat × Nat × Bytes)) :
    exec (.odWriteMany src seq target es) s = .next (s1.forwardRequest src seq 0x12 target role
      (leBytes 1 es.length ++ zeros 3 ++ (es.map entryRequest).flatten)) := by
  rw [exec_odWriteMany_served h.up, State.manyRequest, gate_away _ h haccept haway hrm]

end Rows

end Sys2Proof.Machine
end

section
/-! READ and DESCRIBE (R497, R505): what the server answers, and the copy that a READ keeps. -/

namespace Sys2Proof.Machine

open Sys2Proof

/-! ## READ -/

/-- R544: a READ at offset 0 that fails a check is answered with its RESULT. -/
theorem serveRead_refused {t : State} {role : Role} {key : Nat} (h : t.readCheck role key ≠ rOk) (src : OdSource) (seq n : Nat) :
    t.serveRead src seq key 0 n role = t.answer src 0x10 seq (t.readCheck role key) 0 [] := by
  simp [State.serveRead, h]

/-- R497: a READ at offset 0 that passes the checks keeps a copy of the value and answers from it. -/
theorem serveRead_first {t : State} {role : Role} {key : Nat} (h : t.readCheck role key = rOk) (src : OdSource) (seq n : Nat) :
    t.serveRead src seq key 0 n role =
      State.answer ((t.odRead key).keepCopy src key (t.odBytes key)) src 0x10 seq rOk 0
        (readBody (t.odBytes key) 0 (min n (t.dataLimit src))) := by
  simp [State.serveRead, h]

/-- R497: a READ at another offset by a requester with no copy of the object is answered SEGMENT. -/
theorem serveRead_noCopy {t : State} {src : OdSource} {key off : Nat} (hoff : off ≠ 0)
    (h : ∀ c ∈ t.mgmt.copies, c.src = src → c.key ≠ key) (role : Role) (seq n : Nat) :
    t.serveRead src seq key off n role = t.answer src 0x10 seq rSegment 0 [] := by
  have hnone : t.mgmt.copies.find? (fun c => c.src == src && c.key == key) = none := by
    simpa [List.find?_eq_none] using h
  simp [State.serveRead, hoff, hnone]

/-- R497: a READ at another offset answers from the requester's copy. -/
theorem serveRead_copy {t : State} {src : OdSource} {key off : Nat} {c : ReadCopy} (hoff : off ≠ 0)
    (h : t.mgmt.copies.find? (fun c => c.src == src && c.key == key) = some c) (role : Role) (seq n : Nat) :
    t.serveRead src seq key off n role =
      (t.keepCopy src key c.data).answer src 0x10 seq rOk 0 (readBody c.data off (min n (t.dataLimit src))) := by
  simp [State.serveRead, hoff, h]

theorem readBody_zero (b : Bytes) (n : Nat) :
    readBody b 0 n = leBytes 4 b.length ++ leBytes 4 (min n b.length) ++ zeros 4 ++ b.take n := by
  simp [readBody]

/-- R497: the first READ of an object: the bytes that go out, the copy that is kept, and TJ_PEAK, which alone of the power
record starts again. -/
theorem serveRead_first_spec {t : State} {role : Role} {key : Nat} (h : t.readCheck role key = rOk) (src : OdSource) (seq n : Nat) :
    ∃ l, (t.serveRead src seq key 0 n role).out = t.out ++ .odResponse src 0x90 seq rOk 0
        (leBytes 4 (t.odBytes key).length ++ leBytes 4 (min (min n (t.dataLimit src)) (t.odBytes key).length) ++ zeros 4 ++
          (t.odBytes key).take (min n (t.dataLimit src))) :: l ∧
      (∃ c ∈ (t.serveRead src seq key 0 n role).mgmt.copies,
        c.src = src ∧ c.key = key ∧ c.data = t.odBytes key ∧ c.at_ = t.gtc) ∧
      (t.serveRead src seq key 0 n role).power = (t.odRead key).power := by
  obtain ⟨l, hanswer⟩ := answer_eq ((t.odRead key).keepCopy src key (t.odBytes key)) src 0x10 seq rOk 0
    (readBody (t.odBytes key) 0 (min n (t.dataLimit src)))
  rw [serveRead_first h, hanswer, readBody_zero]
  refine ⟨l, ?_, ⟨{ src := src, key := key, data := t.odBytes key, at_ := (t.odRead key).gtc }, ?_, rfl, rfl, rfl, ?_⟩, rfl⟩
  · simp [State.keepCopy, odRead_out]
  · simp [State.keepCopy]
  · exact congrArg ClkSt.gtc (odRead_clk t key)

/-- R497: the later READ of an object sends out the piece of the copy that it names. -/
theorem serveRead_copy_out {t : State} {src : OdSource} {key off : Nat} {c : ReadCopy} (hoff : off ≠ 0)
    (h : t.mgmt.copies.find? (fun c => c.src == src && c.key == key) = some c) (role : Role) (seq n : Nat) :
    ∃ l, (t.serveRead src seq key off n role).out =
      t.out ++ .odResponse src 0x90 seq rOk 0 (readBody c.data off (min n (t.dataLimit src))) :: l := by
  obtain ⟨l, hanswer⟩ := answer_eq (t.keepCopy src key c.data) src 0x10 seq rOk 0
    (readBody c.data off (min n (t.dataLimit src)))
  rw [serveRead_copy hoff h, hanswer]
  exact ⟨l, rfl⟩

/-! ## DESCRIBE -/

theorem serveDescribe_noObject {t : State} {key : Nat} (h : rowOf key = none ∨ isObject key = false) (src : OdSource) (seq : Nat)
    (role : Role) : t.serveDescribe src seq key role = t.answer src 0x13 seq rNoObject 0 [] := by
  unfold State.serveDescribe
  split
  · rfl
  · simp_all

theorem serveDescribe_object {t : State} {key : Nat} {d : OdRow} (hrow : rowOf key = some d) (hobj : isObject key = true)
    (src : OdSource) (seq : Nat) (role : Role) :
    t.serveDescribe src seq key role =
      if t.mayRead role key = true ∨ bit (t.writeRoles role d key) role.code = true then
        t.answer src 0x13 seq rOk 0 (t.descriptor role d key)
      else t.answer src 0x13 seq rRights 0 [] := by
  cases hread : t.mayRead role key <;> cases hwrite : bit (t.writeRoles role d key) role.code <;>
    simp [State.serveDescribe, hrow, hobj, hread, hwrite]

end Sys2Proof.Machine

open Sys2Proof Sys2Proof.Machine in
/-- Settles O47: the gate lets the request through to `serveRead` or `serveDescribe`, or forwards it; their lemmas say what each
answers. -/
theorem objectReads : Obligations.ObjectReads := by
  intro s t src seq idx sub role hidx hsub key h
  refine ⟨?refused, ?first, ?noCopy, ?copy, ?noObject, ?object, ?away⟩
  case refused =>
    intro n hcheck
    rw [exec_odRead_admitted h, serveRead_refused hcheck]
  case first =>
    intro n hcheck
    obtain ⟨l, hout, hcopy, hpower⟩ := serveRead_first_spec hcheck src seq n
    refine ⟨_, l, exec_odRead_admitted h 0 n, h.out_eq ▸ hout, hcopy, fun hkey => ?_, fun hkey => ?_⟩
    · rw [hpower, odRead_power t hkey, h.power_eq]
    · rw [hpower, hkey, odRead_tjPeak, h.power_eq]
  case noCopy =>
    intro n off hoff hnone
    rw [exec_odRead_admitted h, serveRead_noCopy hoff hnone]
  case copy =>
    intro n off c hoff hfind
    obtain ⟨l, hout⟩ := serveRead_copy_out hoff hfind role seq n
    exact ⟨_, l, exec_odRead_admitted h off n, h.out_eq ▸ hout⟩
  case noObject =>
    intro hnone
    rw [exec_odDescribe_admitted h, serveDescribe_noObject hnone]
  case object =>
    intro d hrow hobj
    rw [exec_odDescribe_admitted h, serveDescribe_object hrow hobj]
  case away =>
    intro s1 target haccept haway hrm
    exact ⟨exec_odRead_away h haccept haway hrm, exec_odDescribe_away h haccept haway hrm⟩
end

section
/-! WRITE and WRITE_MANY (R497, R498, R544): the transport's limit, the assembly of segments, the checks, and the rule of the
owning chapter. -/

namespace Sys2Proof.Machine

open Sys2Proof

/-! ## The assembly of a requester -/

/-- R497: no check of a write looks at an assembly. -/
theorem writeCheck_setAsm (t : State) (src : OdSource) (a : Option WriteAsm) (role : Role) (key : Nat) (data : Bytes) :
    (t.setAsm src a).writeCheck role key data = t.writeCheck role key data := rfl

theorem mem_setAsm (t : State) (src : OdSource) (a : WriteAsm) : a ∈ (t.setAsm src (some a)).mgmt.asms := by
  simp [State.setAsm]

theorem assembled_first (t : State) (src : OdSource) (key : Nat) {total : Nat} {data : Bytes} (h : data.length ≤ total) :
    t.assembled src key 0 total data = some data := by
  simp [State.assembled, Option.filter, h]

/-- R497: a segment that follows none of the requester's is out of sequence. -/
theorem assembled_outOfSequence {t : State} {src : OdSource} {key off total : Nat} (data : Bytes) (hoff : off ≠ 0)
    (h : ∀ a ∈ t.mgmt.asms, a.src = src → a.key ≠ key ∨ a.asm.total ≠ total ∨ a.asm.data.length ≠ off) :
    t.assembled src key off total data = none := by
  unfold State.assembled
  rw [if_neg hoff]
  split
  case h_2 => rfl
  case h_1 a hfind =>
    have hsrc : a.src = src := by simpa using List.find?_some hfind
    have hne := h a (List.mem_of_find?_eq_some hfind) hsrc
    rw [if_neg (by simp only [Bool.and_eq_true, beq_iff_eq]; tauto)]
    rfl

/-- R497: a segment that follows on from the requester's assembly is added to it. -/
theorem assembled_next {t : State} {src : OdSource} {a : WriteAsm} {key total : Nat} {data : Bytes}
    (hfind : t.mgmt.asms.find? (fun x => x.src == src) = some a) (hkey : a.key = key) (htotal : a.asm.total = total)
    (hdata : a.asm.data ≠ []) (hlen : a.asm.data.length + data.length ≤ total) :
    t.assembled src key a.asm.data.length total data = some (a.asm.data ++ data) := by
  have hoff : a.asm.data.length ≠ 0 := by simpa using hdata
  simp [State.assembled, hoff, hfind, hkey, htotal, Option.filter, hlen]

/-! ## WRITE -/

/-- R497: the data of a WRITE fits its transport. -/
def State.fitsTransport (t : State) (src : OdSource) (data : Bytes) : Prop :=
  data.length ≤ 65536 ∧ (t.dataLimit src = 1024 → data.length ≤ 1024)

section Write

variable {t : State} {src : OdSource} {data : Bytes}

theorem serveWrite_tooLong (h : ¬ t.fitsTransport src data) (seq key : Nat) (last : Bool) (off total : Nat) (role : Role) :
    t.serveWrite src seq key last off total data role = t.answer src 0x11 seq rLength 0 [] := by
  have hlong : 65536 < data.length ∨ t.dataLimit src = 1024 ∧ 1024 < data.length := by
    unfold State.fitsTransport at h
    omega
  unfold State.serveWrite
  rw [if_pos (by simpa using hlong)]

theorem State.fitsTransport.not_tooLong (h : t.fitsTransport src data) :
    (65536 < data.length || (t.dataLimit src = 1024 && 1024 < data.length)) = false := by
  obtain ⟨hmax, hlimit⟩ := h
  simpa [hmax] using hlimit

variable {key off total : Nat}

theorem serveWrite_outOfSequence (h : t.fitsTransport src data) (hasm : t.assembled src key off total data = none) (seq : Nat)
    (last : Bool) (role : Role) :
    t.serveWrite src seq key last off total data role = (t.setAsm src none).answer src 0x11 seq rSegment 0 [] := by
  simp [State.serveWrite, h.not_tooLong, hasm]

theorem serveWrite_segment {b : Bytes} (h : t.fitsTransport src data)
    (hasm : t.assembled src key off total data = some b) (seq : Nat) (role : Role) :
    t.serveWrite src seq key false off total data role =
      (t.setAsm src (some { src := src, key := key, asm := { total := total, data := b, at_ := t.gtc } })).answer
        src 0x11 seq rOk 0 [] := by
  simp [State.serveWrite, h.not_tooLong, hasm]

theorem serveWrite_last {b : Bytes} (h : t.fitsTransport src data) (hasm : t.assembled src key off total data = some b)
    (hlen : b.length = total) (seq : Nat) (role : Role) :
    t.serveWrite src seq key true off total data role =
      let w := (t.setAsm src none).writeObject src role key b
      w.2.2.answer src 0x11 seq w.1 w.2.1 [] := by
  simp [State.serveWrite, h.not_tooLong, hasm, hlen]

/-- R497: a segment that is kept stands in the requester's assembly, and touches no stream, image or key. -/
theorem serveWrite_segment_spec {b : Bytes} (h : t.fitsTransport src data) (hasm : t.assembled src key off total data = some b)
    (seq : Nat) (role : Role) :
    (∃ a ∈ (t.serveWrite src seq key false off total data role).mgmt.asms,
      a.src = src ∧ a.key = key ∧ a.asm.data = b ∧ a.asm.total = total) ∧
    (t.serveWrite src seq key false off total data role).streams = t.streams ∧
    (t.serveWrite src seq key false off total data role).images = t.images ∧
    (t.serveWrite src seq key false off total data role).sec = t.sec := by
  obtain ⟨l, hanswer⟩ := answer_eq
    (t.setAsm src (some { src := src, key := key, asm := { total := total, data := b, at_ := t.gtc } })) src 0x11 seq rOk 0 []
  rw [serveWrite_segment h hasm, hanswer]
  exact ⟨⟨_, mem_setAsm t src _, rfl, rfl, rfl, rfl⟩, rfl, rfl, rfl⟩

end Write

/-! ## Checks and effect of a whole write -/

/-- R10, R544: a write that fails a check changes nothing. -/
theorem writeObject_refused {t : State} {role : Role} {key : Nat} {data : Bytes} (h : t.writeCheck role key data ≠ rOk)
    (src : OdSource) : t.writeObject src role key data = (t.writeCheck role key data, 0, t) := by
  simp [State.writeObject, h]

/-- R8: the changes of an object are counted. -/
def isLimited (key : Nat) : Bool := (rowOf key).any fun r => r.access == .rwl

/-- R8, R10, R544: the owning chapter's rule decides a write that passes the checks; an accepted change of an object whose changes
are counted draws one count. -/
theorem writeObject_passed {t : State} {role : Role} {key : Nat} {data : Bytes} (h : t.writeCheck role key data = rOk)
    (src : OdSource) :
    t.writeObject src role key data =
      let v := normalValue key (leNat data)
      let r := t.applyObject src role key v data
      if r.1 = rOk && isLimited key && key ≠ oLcState && v ≠ t.odValue key then
        accept { r.2.2 with drawn := Tbl.upd r.2.2.drawn 0 key (· + 1) }
      else r := by
  unfold State.writeObject isLimited
  rw [if_neg (not_not.mpr h)]
  cases rowOf key <;> rfl

theorem writeObject_unlimited {t : State} {role : Role} {key : Nat} {data : Bytes} (h : t.writeCheck role key data = rOk)
    (hkey : isLimited key = false) (src : OdSource) :
    t.writeObject src role key data = t.applyObject src role key (normalValue key (leNat data)) data := by
  simp [writeObject_passed h, hkey]

theorem writeObject_limited {t u : State} {role : Role} {key : Nat} {data : Bytes} {src : OdSource}
    (h : t.writeCheck role key data = rOk) (hkey : isLimited key = true) (hlc : key ≠ oLcState)
    (happly : t.applyObject src role key (normalValue key (leNat data)) data = accept u) :
    t.writeObject src role key data =
      if normalValue key (leNat data) = t.odValue key then accept u
      else accept { u with drawn := Tbl.upd u.drawn 0 key (· + 1) } := by
  simp only [writeObject_passed h, happly, accept, hkey]
  by_cases hsame : normalValue key (leNat data) = t.odValue key <;> simp [hsame, hlc]

theorem keyOf_div_mod {key : Nat} (h : key < 2 ^ 24) : keyOf (key / 256) (key % 256) = key := by
  rw [keyOf_eq (by omega) (by omega)]
  omega

/-- R493: the row WRITE with the whole of an object is the same write as the object's own row. -/
theorem exec_odWrite_received {s t : State} {r : OdReq} {key : Nat} {role : Role} (h : s.ReceivesWrite r key role t)
    (hkey : key < 2 ^ 24) :
    exec (.odWrite r.src r.seq 0xFFFF (key / 256) (key % 256) true 0 r.data.length r.data) s =
      .next (let w := t.writeObject r.src role key r.data; w.2.2.answer r.src 0x11 r.seq w.1 w.2.1 []) := by
  rw [← odRow_received (own := fun _ => true) h rfl (keyOf_div_mod hkey), exec_odWrite_served h.up]
  simp [odRow, whenEnclave_runs _ h.up]

/-- A write that the owning chapter's rule accepts is answered OK. -/
theorem exec_odWrite_accepted {s t u : State} {r : OdReq} {key : Nat} {role : Role} (h : s.ReceivesWrite r key role t)
    (hkey : key < 2 ^ 24) (hwrite : t.writeObject r.src role key r.data = accept u) :
    exec (.odWrite r.src r.seq 0xFFFF (key / 256) (key % 256) true 0 r.data.length r.data) s = u.wroteOk r := by
  rw [exec_odWrite_received h hkey, hwrite]
  rfl

theorem stored_store_self (t : State) (key v : Nat) : (t.store key v).stored key = v := by
  simp [State.stored, State.store, Tbl.find_set]

/-! ## The objects of the statement -/

/-- The objects whose accepted write stores its value and does nothing else. -/
def storedKeys : List Nat := [oPkgPowerLimit, oTelemK, oTelemSet, oScrubOverwrite, oWarmBist]

theorem storedKeys_unlimited : ∀ key ∈ storedKeys, key < 2 ^ 24 ∧ isLimited key = false := by decide +kernel

theorem normalValue_storedKeys {key : Nat} (hkey : key ∈ storedKeys) (v : Nat) : normalValue key v = v := by
  simp only [storedKeys, List.mem_cons, List.not_mem_nil, or_false] at hkey
  rcases hkey with rfl | rfl | rfl | rfl | rfl <;> rfl

theorem applyObject_storedKeys {key : Nat} (hkey : key ∈ storedKeys) (t : State) (src : OdSource) (role : Role) (v : Nat)
    (data : Bytes) : t.applyObject src role key v data = accept (t.store key v) := by
  simp only [storedKeys, List.mem_cons, List.not_mem_nil, or_false] at hkey
  rcases hkey with rfl | rfl | rfl | rfl | rfl <;> rfl

theorem applyObject_placeGeometry (t : State) (src : OdSource) (role : Role) (v : Nat) (data : Bytes) :
    t.applyObject src role oPlaceGeometry v data = accept (t.store oPlaceGeometry v) := rfl

/-- R8, R181, R209: the row of PLACE_GEOMETRY. -/
def placeGeometryRow : OdRow := ⟨0x2300, 1, 0x01, 1, 5, 8, .rwl, 0, 0, 18446744073709551615, 64⟩

theorem rowOf_placeGeometry : rowOf oPlaceGeometry = some placeGeometryRow := by decide +kernel

theorem isLimited_placeGeometry : isLimited oPlaceGeometry = true := by
  rw [isLimited, rowOf_placeGeometry]
  rfl

/-- R8: with no count left a change of PLACE_GEOMETRY is refused with COUNT. -/
theorem writeCheck_placeGeometry_spent {t : State} {data : Bytes} (hlen : data.length = 8) (hlc : t.sec.lc = 3)
    (hdrawn : Tbl.get t.drawn 0 oPlaceGeometry = 64)
    (hok : geometryOk (normalValue oPlaceGeometry (leNat data)) 32 32 32 = true)
    (hchange : normalValue oPlaceGeometry (leNat data) ≠ t.odValue oPlaceGeometry) :
    t.writeCheck .operator oPlaceGeometry data = rCount := by
  have hobject : isObject oPlaceGeometry = true := by decide +kernel
  have hright : t.mayWrite .operator oPlaceGeometry (normalValue oPlaceGeometry (leNat data)) = true := by
    simp only [State.mayWrite, hlc]
    rfl
  have hlength : placeGeometryRow.lengthOk data.length = true := by rw [hlen]; rfl
  have hrange : t.inRange placeGeometryRow oPlaceGeometry (normalValue oPlaceGeometry (leNat data)) = true := by
    have hspecial : t.specialRange oPlaceGeometry (normalValue oPlaceGeometry (leNat data)) = true := hok
    have hbound : normalValue oPlaceGeometry (leNat data) < 2 ^ 48 := Nat.mod_lt _ (by decide)
    have hhi : normalValue oPlaceGeometry (leNat data) ≤ 18446744073709551615 := by omega
    simp [State.inRange, placeGeometryRow, hspecial, hhi]
  have hspent : t.countSpent placeGeometryRow oPlaceGeometry (normalValue oPlaceGeometry (leNat data)) = true := by
    simp [State.countSpent, State.changesLeft, placeGeometryRow, hchange, hdrawn]
  have haccess : placeGeometryRow.access ≠ .ro := by decide
  simp [State.writeCheck, rowOf_placeGeometry, hobject, hright, hlength, hrange, hspent, haccess]

/-! ## WRITE_MANY -/

/-- R492: the enclave serves the object of an entry. -/
def entryServer (e : Nat × Nat × Bytes) : Bool := enclaveServes (keyOf e.1 e.2.1)

/-- R496: the first entry of a set whose object another server than the first entry's serves. -/
def firstOther (es : List (Nat × Nat × Bytes)) : Option (Nat × Nat × Bytes) :=
  es.find? fun e => entryServer e ≠ (es.head?.map entryServer).getD false

theorem firstOther_oneServer {es : List (Nat × Nat × Bytes)} (h : ∀ e ∈ es, ∀ f ∈ es, entryServer e = entryServer f) :
    firstOther es = none := by
  cases es with
  | nil => rfl
  | cons a es =>
    refine List.find?_eq_none.mpr fun e he => ?_
    simp [h e he a (.head _)]

theorem firstOther_mixed {a e : Nat × Nat × Bytes} {front : List (Nat × Nat × Bytes)} (back : List (Nat × Nat × Bytes))
    (hfront : ∀ f ∈ front, entryServer f = entryServer a) (he : entryServer e ≠ entryServer a) :
    firstOther (a :: (front ++ e :: back)) = some e := by
  have hnone : front.find? (fun f => entryServer f ≠ entryServer a) = none := by
    simpa [List.find?_eq_none] using hfront
  change List.find? (fun f => entryServer f ≠ entryServer a) (a :: (front ++ e :: back)) = some e
  rw [List.find?_cons_of_neg (by simp), List.find?_append, hnone, List.find?_cons_of_pos (by simpa using he)]
  rfl

section Many

variable {src : OdSource} {role : Role}

/-- R498: the entries after a part that is applied are applied to the machine that the part leaves. -/
theorem writeAll_append {t u : State} {front : List (Nat × Nat × Bytes)} (h : State.writeAll src role front t = .ok u)
    (rest : List (Nat × Nat × Bytes)) :
    State.writeAll src role (front ++ rest) t = State.writeAll src role rest u := by
  induction front generalizing t with
  | nil =>
    obtain rfl : t = u := by simpa [State.writeAll] using h
    rfl
  | cons e front ih =>
    obtain ⟨idx, sub, data⟩ := e
    simp only [State.writeAll, List.cons_append] at h ⊢
    split at h
    next happlied => rw [if_pos happlied, ih h]
    next => cases h

theorem writeAll_cons_refused {u : State} {e : Nat × Nat × Bytes} (h : (u.writeObject src role (keyOf e.1 e.2.1) e.2.2).1 ≠ rOk)
    (back : List (Nat × Nat × Bytes)) :
    State.writeAll src role (e :: back) u =
      .error ((u.writeObject src role (keyOf e.1 e.2.1) e.2.2).1, (u.writeObject src role (keyOf e.1 e.2.1) e.2.2).2.1,
        e.1, e.2.1) := by
  simp [State.writeAll, h]

variable {t : State} {es : List (Nat × Nat × Bytes)}

theorem serveMany_outOfBounds (h : manyOk es = false) (seq : Nat) :
    t.serveMany src seq es role = t.answer src 0x12 seq rLength 0 (refusedEntry 0xFFFF 0xFF) := by
  simp [State.serveMany, h]

/-- R496: a set of two servers' objects is refused with the first entry of the other server. -/
theorem serveMany_mixed {e : Nat × Nat × Bytes} (h : manyOk es = true) (hother : firstOther es = some e) (seq : Nat) :
    t.serveMany src seq es role = t.answer src 0x12 seq rMixed 0 (refusedEntry e.1 e.2.1) := by
  unfold State.serveMany
  rw [if_neg (by simp [h])]
  dsimp only
  split
  next e' hfind =>
    obtain rfl : e' = e := Option.some.inj (hfind.symm.trans hother)
    rfl
  next hfind => exact absurd (hfind.symm.trans hother) (by simp)

/-- R498: a set of one server's objects whose entries are all accepted is applied. -/
theorem serveMany_applied {u : State} (h : manyOk es = true) (hother : firstOther es = none)
    (hall : State.writeAll src role es t = .ok u) (seq : Nat) :
    t.serveMany src seq es role = u.answer src 0x12 seq rOk 0 (refusedEntry 0xFFFF 0xFF) := by
  unfold State.serveMany
  rw [if_neg (by simp [h])]
  dsimp only
  split
  next e' hfind => exact absurd (hother.symm.trans hfind) (by simp)
  next => rw [hall]

/-- R498: a set of one server's objects is refused with the first entry that is, and nothing of it is applied. -/
theorem serveMany_refused {u : State} {front back : List (Nat × Nat × Bytes)} {e : Nat × Nat × Bytes}
    (h : manyOk (front ++ e :: back) = true) (hother : firstOther (front ++ e :: back) = none)
    (hfront : State.writeAll src role front t = .ok u)
    (he : (u.writeObject src role (keyOf e.1 e.2.1) e.2.2).1 ≠ rOk) (seq : Nat) :
    t.serveMany src seq (front ++ e :: back) role =
      t.answer src 0x12 seq (u.writeObject src role (keyOf e.1 e.2.1) e.2.2).1
        (u.writeObject src role (keyOf e.1 e.2.1) e.2.2).2.1 (refusedEntry e.1 e.2.1) := by
  unfold State.serveMany
  rw [if_neg (by simp [h])]
  dsimp only
  split
  next e' hfind => exact absurd (hother.symm.trans hfind) (by simp)
  next => rw [writeAll_append hfront, writeAll_cons_refused he]

end Many

end Sys2Proof.Machine

open Sys2Proof Sys2Proof.Machine in
/-- Settles O48: the gate lets the request through to `serveWrite` or `serveMany`, or forwards it; their lemmas say what each
answers, and `writeObject_passed` what an accepted write does. -/
theorem objectWrites : Obligations.ObjectWrites := by
  refine ⟨?write, ?stored, ?geometry, ?spent, ?many⟩
  case write =>
    intro s t src seq idx sub role data hidx hsub key h fits
    refine ⟨?tooLong, ?refused, ?firstSegment, ?outOfSequence, ?nextSegment, ?away⟩
    case tooLong =>
      intro hlong last off total
      rw [exec_odWrite_admitted h, serveWrite_tooLong hlong]
    case refused =>
      intro hfits hcheck
      rw [exec_odWrite_admitted h, serveWrite_last hfits (assembled_first t src _ le_rfl) rfl]
      rw [writeObject_refused (t := t.setAsm src none) hcheck]
      rfl
    case firstSegment =>
      intro total hfits hlen
      exact ⟨_, exec_odWrite_admitted h false 0 total data,
        serveWrite_segment_spec hfits (assembled_first t src _ hlen) seq role⟩
    case outOfSequence =>
      intro last off total hfits hoff hnone
      rw [exec_odWrite_admitted h, serveWrite_outOfSequence hfits (assembled_outOfSequence data hoff hnone)]
    case nextSegment =>
      intro a total hfits hfind hkey htotal hdata
      refine ⟨fun hlen => ?_, fun hlen => ?_⟩
      · obtain ⟨⟨x, hx, hxsrc, hxkey, hxdata, _⟩, hstreams, _, hsec⟩ :=
          serveWrite_segment_spec hfits (assembled_next hfind hkey htotal hdata hlen) seq role
        exact ⟨_, exec_odWrite_admitted h _ _ _ _, ⟨x, hx, hxsrc, hxkey, hxdata⟩, hstreams, hsec⟩
      · rw [exec_odWrite_admitted h, serveWrite_last hfits (assembled_next hfind hkey htotal hdata hlen.le) (by simpa using hlen)]
    case away =>
      intro s1 target last off total haccept haway hrm
      exact exec_odWrite_away h haccept haway hrm last off total data
  case stored =>
    intro s t r key role hkey h
    obtain ⟨hlt, hunlimited⟩ := storedKeys_unlimited key hkey
    refine ⟨exec_odWrite_accepted h hlt ?_, stored_store_self t key _⟩
    rw [writeObject_unlimited h.valid hunlimited, normalValue_storedKeys hkey, applyObject_storedKeys hkey]
  case geometry =>
    intro s t r role key v h
    have hwrite := writeObject_limited h.valid isLimited_placeGeometry (by decide)
      (applyObject_placeGeometry t r.src role v r.data)
    by_cases hsame : v = t.odValue key
    · rw [if_pos hsame] at hwrite
      exact ⟨_, exec_odWrite_accepted h (by decide) hwrite, stored_store_self t key v, by simp [hsame]⟩
    · rw [if_neg hsame] at hwrite
      refine ⟨_, exec_odWrite_accepted h (by decide) hwrite, stored_store_self t key v, ?_⟩
      simp [hsame]
  case spent =>
    intro t data hlen hlc hdrawn hok hchange
    exact writeCheck_placeGeometry_spent hlen hlc hdrawn hok hchange
  case many =>
    intro s t src seq role es h
    refine ⟨?outOfBounds, ?oneServer, ?mixed, ?away⟩
    case outOfBounds =>
      intro hbounds
      rw [exec_odWriteMany_admitted h, serveMany_outOfBounds hbounds]
    case oneServer =>
      intro hbounds hserver
      refine ⟨fun e he hcheck hhead => ?_, fun front e back u hes hfront hrefused => ?_, fun u hall => ?_⟩
      · obtain ⟨back, rfl⟩ : ∃ back, es = e :: back := List.head?_eq_some_iff.mp hhead
        have hfirst : (t.writeObject src role (keyOf e.1 e.2.1) e.2.2).1 ≠ rOk := by rwa [writeObject_refused hcheck]
        rw [exec_odWriteMany_admitted h, ← List.nil_append (e :: back),
          serveMany_refused hbounds (firstOther_oneServer hserver) rfl hfirst, writeObject_refused hcheck]
      · subst hes
        rw [exec_odWriteMany_admitted h, serveMany_refused hbounds (firstOther_oneServer hserver) hfront hrefused]
      · rw [exec_odWriteMany_admitted h, serveMany_applied hbounds (firstOther_oneServer hserver) hall]
    case mixed =>
      rintro a front e back hbounds rfl hfront he
      rw [exec_odWriteMany_admitted h, serveMany_mixed hbounds (firstOther_mixed back hfront he)]
    case away =>
      intro s1 target haccept haway hrm
      exact exec_odWriteMany_away h haccept haway hrm es
end

section
/-! A step runs the command at the front of the queue; on an empty queue a tick of the global time counter passes (R2, R224). -/

namespace Sys2Proof.Machine

open Sys2Proof

theorem step_cons {s : State} {c : Instr} {rest : List Instr} (h : s.pending = c :: rest) :
    step s = exec c { s with pending := rest } := by
  simp [step, h]

theorem step_nil {s : State} (h : s.pending = []) : step s = .next s.tick := by
  simp [step, h]

theorem tick_inReset {s : State} (h : s.sys.inReset = true) : s.tick = s := by
  simp [State.tick, h]

theorem tick_running {s : State} (h : s.sys.inReset = false) : s.tick = { s with clk := s.clk.tick } := by
  simp [State.tick, h]

theorem clk_tick_ticks (c : ClkSt) : c.tick.ticks = c.ticks + 1 := by
  unfold ClkSt.tick
  dsimp only
  repeat' split
  all_goals rfl

/-- R224: the accumulator makes the counter advance by 0, 1 or 2. -/
theorem clk_tick_gtc (c : ClkSt) :
    c.tick.gtc = c.gtc ∨ c.tick.gtc = (c.gtc + 1) % 2 ^ 64 ∨ c.tick.gtc = (c.gtc + 2) % 2 ^ 64 := by
  unfold ClkSt.tick
  dsimp only
  generalize (c.frac : Int) + _ = acc
  split
  · exact .inl rfl
  · split
    · exact .inr (.inr rfl)
    · exact .inr (.inl rfl)

/-- R224: at the nominal rate, with no offset to remove, the accumulator stands and the counter advances by 1. -/
theorem clk_tick_nominal {c : ClkSt} (hrate : c.rate = 0) (hstate : c.state ≠ 2) (hfrac : c.frac < 2 ^ 32) :
    c.tick.gtc = (c.gtc + 1) % 2 ^ 64 := by
  have hpos : ¬ (c.frac : Int) < 0 := by omega
  have hsmall : ¬ 4294967296 ≤ c.frac := by omega
  simp [ClkSt.tick, hrate, hstate, hpos, hsmall]

end Sys2Proof.Machine

open Sys2Proof Sys2Proof.Machine in
/-- Settles O55: by the definition of a step, and by what one tick of the clock does to the counter. -/
theorem stepRunsTheFrontCommand : Obligations.StepRunsTheFrontCommand := by
  refine ⟨fun c rest s h => step_cons h, fun s h => ⟨fun hreset => ?inReset, fun hrun => ?running⟩⟩
  case inReset => rw [step_nil h, tick_inReset hreset]
  case running =>
    rw [step_nil h, tick_running hrun]
    exact ⟨_, rfl, clk_tick_ticks s.clk, h, rfl, rfl, clk_tick_gtc s.clk, clk_tick_nominal⟩
end

section
/-! The memory scrubbers and the view that they share: what a scrub read finds of a line or a word (R243, R248 to R252), and what the
jobs, slots, buffers and codec states that it strikes leave as it was (R35, R36, R246, R254 to R257). -/

namespace Sys2Proof.Machine

open Sys2Proof

/-! ## What the scrubbers keep -/

/-- The DRAM lines, the positions of the scrubbers, the failed words and the counts of what could not be corrected. -/
structure ScrubView where
  dram : Tbl DramLine
  dramScrub : Nat
  oasisScrub : Nat
  oasisFailed : List Nat
  dramUncorrectable : Nat
  tagFailures : Nat
  sramUncorrectable : Nat

def State.scrubView (s : State) : ScrubView where
  dram := s.dram
  dramScrub := s.dramScrub
  oasisScrub := s.oasisScrub
  oasisFailed := s.oasisFailed
  dramUncorrectable := s.stored oDramUncorrectable
  tagFailures := s.stored oTagFailures
  sramUncorrectable := s.stored oSramUncorrectable

section View

variable {s t : State} (h : t.scrubView = s.scrubView)
include h

theorem dram_of_scrubView : t.dram = s.dram := congrArg ScrubView.dram h
theorem dramScrub_of_scrubView : t.dramScrub = s.dramScrub := congrArg ScrubView.dramScrub h
theorem oasisScrub_of_scrubView : t.oasisScrub = s.oasisScrub := congrArg ScrubView.oasisScrub h
theorem oasisFailed_of_scrubView : t.oasisFailed = s.oasisFailed := congrArg ScrubView.oasisFailed h

end View

/-- The counters of the view. -/
def failureKeys : List Nat := [oDramUncorrectable, oTagFailures, oSramUncorrectable]

/-- States of one view have the same counts of failures. -/
theorem stored_of_scrubView {s t : State} (h : t.scrubView = s.scrubView) {key : Nat} (hkey : key ∈ failureKeys) :
    t.stored key = s.stored key := by
  simp only [failureKeys, List.mem_cons, List.not_mem_nil, or_false] at hkey
  rcases hkey with rfl | rfl | rfl
  · exact congrArg ScrubView.dramUncorrectable h
  · exact congrArg ScrubView.tagFailures h
  · exact congrArg ScrubView.sramUncorrectable h

/-- A counter outside the view leaves it. -/
theorem count_scrubView (s : State) {key : Nat} (hkey : key ∉ failureKeys) (n : Nat) : (s.count key n).scrubView = s.scrubView := by
  simp only [failureKeys, List.mem_cons, List.not_mem_nil, or_false, not_or] at hkey
  obtain ⟨hdram, htag, hsram⟩ := hkey
  simp [State.scrubView, State.stored_count, Ne.symm hdram, Ne.symm htag, Ne.symm hsram]

theorem foldl_scrubView {α : Type} {g : State → α → State} (h : ∀ u x, (g u x).scrubView = u.scrubView) (l : List α)
    (s : State) : (l.foldl g s).scrubView = s.scrubView :=
  List.foldlRecOn (motive := fun u : State => u.scrubView = s.scrubView) l g rfl fun u hu x _ => (h u x).trans hu

/-! ## Notices, pools and allocations leave the view -/

theorem raiseVector_scrubView (s : State) (v : Nat) : (s.raiseVector v).scrubView = s.scrubView := by
  unfold State.raiseVector
  split <;> rfl

theorem postHost_scrubView (s : State) (c sender seq : Nat) (body : Bytes) :
    (s.postHost c sender seq body).scrubView = s.scrubView := by
  unfold State.postHost State.wakeHost
  dsimp only
  split
  · rw [raiseVector_scrubView]; rfl
  · rfl

theorem notice_scrubView (s : State) (kind status subject detail : Nat) :
    (s.notice kind status subject detail).scrubView = s.scrubView := by
  have hlost : (s.count oNoticesLost 1).scrubView = s.scrubView := count_scrubView s (by decide) 1
  unfold State.notice
  dsimp only
  split
  · exact hlost
  · split
    · split
      · rfl
      · exact hlost
    · exact postHost_scrubView s _ _ _ _

theorem settlePool_scrubView (s : State) (p : Nat) : (s.settlePool p).scrubView = s.scrubView := by
  unfold State.settlePool
  dsimp only
  split
  · rfl
  · rw [notice_scrubView, count_scrubView _ (by decide)]; rfl

theorem occupy_scrubView (s : State) (r p n : Nat) (part : Option Nat) : (s.occupy r p n part).scrubView = s.scrubView := by
  unfold State.occupy
  split
  · rfl
  · rw [settlePool_scrubView]
    split <;> rfl

theorem vacate_scrubView (s : State) (r p n : Nat) (part : Option Nat) : (s.vacate r p n part).scrubView = s.scrubView := by
  unfold State.vacate
  split
  · rfl
  · rw [settlePool_scrubView]; rfl

theorem takeBufs_scrubView (s : State) (r caravan k at_ n : Nat) : (s.takeBufs r caravan k at_ n).scrubView = s.scrubView := by
  unfold State.takeBufs
  split
  · rfl
  · exact occupy_scrubView s _ _ _ _

theorem giveBufs_scrubView (s : State) (r caravan k at_ n : Nat) : (s.giveBufs r caravan k at_ n).scrubView = s.scrubView := by
  unfold State.giveBufs
  split
  · rfl
  · exact vacate_scrubView s _ _ _ _

theorem grant_scrubView (s : State) (a : AllocReq) : (s.grant a).scrubView = s.scrubView := by
  have hbuffers : ∀ bs, State.scrubView { s with buffers := bs } = s.scrubView := fun _ => rfl
  exact (occupy_scrubView _ _ _ _ _).trans (hbuffers _)

theorem serveAllocs_scrubView (s : State) : s.serveAllocs.scrubView = s.scrubView := by
  unfold State.serveAllocs
  refine List.foldlRecOn (motive := fun acc : State × List AllocReq => acc.1.scrubView = s.scrubView) s.allocs _ rfl ?_
  intro acc hacc a _
  split
  · exact (grant_scrubView acc.1 a).trans hacc
  · exact hacc

theorem retireCheck_scrubView (s : State) (p i : Nat) : (s.retireCheck p i).scrubView = s.scrubView := by
  unfold State.retireCheck
  dsimp only
  split
  · rw [settlePool_scrubView, count_scrubView _ (by decide)]; rfl
  · rfl

/-! ## The end, the retry and the holding of jobs leave the view -/

theorem retireStruck_scrubView (s : State) (j : Job) : (s.retireStruck j).scrubView = s.scrubView := by
  unfold State.retireStruck
  dsimp only
  split
  · split
    · rw [retireCheck_scrubView]; rfl
    · rfl
  · rfl

theorem freeJobBuffers_scrubView (s : State) (j : Job) : (s.freeJobBuffers j).scrubView = s.scrubView := by
  have hgive : ∀ (l : List (Nat × Nat × Nat)),
      (l.foldl (fun s r => s.giveBufs j.stream j.caravan r.1 r.2.1 r.2.2) s).scrubView = s.scrubView := fun l =>
    foldl_scrubView (fun u r => giveBufs_scrubView u _ _ _ _ _) l s
  unfold State.freeJobBuffers
  dsimp only
  split
  · rw [retireStruck_scrubView, hgive]
  · exact hgive _

theorem exactLose_scrubView (s : State) (n cause : Nat) : (s.exactLose n cause).scrubView = s.scrubView := by
  unfold State.exactLose
  split <;> rfl

theorem restartJob_scrubView (s : State) (id : Nat) : (s.restartJob id).scrubView = s.scrubView := by
  have hended : ∀ (u : State) (p : Nat → Bool) (q : CodecWork → Bool), ((u.freeCores p).dropCodec q).scrubView = u.scrubView :=
    fun _ _ _ => rfl
  have hjob : ∀ (u : State) (f : Job → Job), (u.updJob id f).scrubView = u.scrubView := fun _ _ => rfl
  unfold State.restartJob
  split
  · rfl
  · dsimp only
    rw [serveAllocs_scrubView, hjob, count_scrubView _ (by decide), foldl_scrubView fun u r => takeBufs_scrubView u _ _ _ _ _,
      hended, freeJobBuffers_scrubView]

theorem endJobs_scrubView (s : State) (p : Job → Bool) : (s.endJobs p).scrubView = s.scrubView := by
  have hended : ∀ (u : State) (c : Nat → Bool) (q : CodecWork → Bool),
      (((u.freeCores c).dropCodec q).dropJobs p).scrubView = u.scrubView := fun _ _ _ => rfl
  unfold State.endJobs
  dsimp only
  rw [serveAllocs_scrubView, hended, foldl_scrubView freeJobBuffers_scrubView]

theorem dropBackfill_scrubView (s : State) (n : Nat) : (s.dropBackfill n).scrubView = s.scrubView := by
  unfold State.dropBackfill
  dsimp only
  split <;> rfl

theorem holdStream_scrubView (s : State) (n status : Nat) : (s.holdStream n status).scrubView = s.scrubView := by
  have hstream : ∀ (u : State) (f : Stream → Stream), (u.updStream n f).scrubView = u.scrubView := fun _ _ => rfl
  have hrun : ∀ (u : State) (f : DlvSt → DlvSt) (g : RunSt → RunSt), ((u.updDlv n f).updRun n g).scrubView = u.scrubView :=
    fun _ _ _ => rfl
  have hsnapshot : (s.takeSnapshot n).scrubView = s.scrubView := rfl
  unfold State.holdStream State.parkStream
  dsimp only
  rw [hstream, hrun, dropBackfill_scrubView, endJobs_scrubView, hsnapshot]

theorem transientJob_scrubView (s : State) (id st : Nat) (covered : Bool) :
    (s.transientJob id st covered).scrubView = s.scrubView := by
  unfold State.transientJob
  split
  · rfl
  case h_2 j _ =>
    dsimp only
    have hstruck : (if st = stSram then s.updJob id fun j => { j with struck := some stSram } else s).scrubView = s.scrubView := by
      split <;> rfl
    have hcovered : ∀ u : State, (if covered then u.exactLose j.stream 2 else u).scrubView = u.scrubView := fun u => by
      split
      · exact exactLose_scrubView u _ _
      · rfl
    have hheld : ∀ (u : State) (f : RunSt → RunSt), (u.updRun j.stream f).scrubView = u.scrubView := fun _ _ => rfl
    split
    · rw [restartJob_scrubView, hcovered, hstruck]
    · unfold State.holdForJob
      rw [notice_scrubView, holdStream_scrubView, hheld, hcovered, hstruck]

/-! ## What a failed line or word strikes leaves the view -/

theorem poisonSlot_scrubView (s : State) (n i status word : Nat) : (s.poisonSlot n i status word).scrubView = s.scrubView := rfl

theorem draw_scrubView (s : State) : s.draw.2.scrubView = s.scrubView := rfl

theorem hitLine_scrubView (s : State) (status : Nat) : (s.hitLine status).scrubView = s.scrubView := by
  unfold State.hitLine
  dsimp only
  split
  · rw [transientJob_scrubView, draw_scrubView]
  · split
    · rw [poisonSlot_scrubView, draw_scrubView, draw_scrubView]
    · exact draw_scrubView s

theorem hitWord_scrubView (s : State) : s.hitWord.scrubView = s.scrubView := by
  unfold State.hitWord
  dsimp only
  repeat' split
  all_goals rfl

/-! ## The symbol code and a read of a recorded line (R248, R249, R251, R252) -/

theorem correct_noDevice {f : LineFault} (h : f.bad.length = 0) (c : Bytes) : f.correct c = some (c, false) := by
  simp only [LineFault.correct, h]

theorem correct_oneDevice {f : LineFault} (h : f.bad.length = 1) (c : Bytes) : f.correct c = some (c, true) := by
  simp only [LineFault.correct, h]

theorem correct_twoDevices {f : LineFault} (h : f.bad.length = 2) (c : Bytes) : f.correct c = none := by
  simp only [LineFault.correct, h]

section Line

variable {u : State} {line : Nat} {l : DramLine} (hline : Tbl.find u.dram line = some l)
include hline

theorem poisoned_recorded : u.poisoned line = l.poison := by
  simp only [State.poisoned, hline]

/-- R248, R255: a line that is poisoned, or not WRITTEN, is passed over. -/
theorem scrubLine_passedOver (h : l.poison = true ∨ l.written = false) (f : LineFault) (raced : Bool) :
    u.scrubLine line f raced = u := by
  cases hp : l.poison with
  | true => simp [State.scrubLine, poisoned_recorded hline, hp]
  | false =>
    have hw : l.written = false := by simpa [hp] using h
    simp [State.scrubLine, State.readLine, State.held, poisoned_recorded hline, hline, hp, hw]

variable (hp : l.poison = false) (hw : l.written = true)
include hp hw

/-- R248, R252: the memory dies hold the ciphertext and the tag of a line that is WRITTEN. -/
theorem readLine_recorded (f : LineFault) :
    let c := u.cipherOf line (u.fabric.mem.readN (64 * line) 64)
    (f.correct c = none → u.readLine line f = (.uncorrectable, [], u)) ∧
    ∀ x fixed, f.correct c = some (x, fixed) → u.readLine line f =
      if u.tagOf line x ≠ xorBytes l.tag (leBytes 8 f.tag) then (.tagFail, [], u)
      else (if fixed then .corrected else .clean, u.plainOf line x, u) := by
  have hheld : u.held line = (some (u.cipherOf line (u.fabric.mem.readN (64 * line) 64), l.tag), u) := by
    simp [State.held, hline, hw]
  refine ⟨fun hcorrect => ?_, fun x fixed hcorrect => ?_⟩ <;>
    simp [State.readLine, poisoned_recorded hline, hp, hheld, hcorrect]

/-- R248, R249: errors of two devices are counted, and the line fails. -/
theorem scrubLine_twoDevices {f : LineFault} (h : f.bad.length = 2) (raced : Bool) :
    u.scrubLine line f raced = (u.count oDramUncorrectable 1).lineFails line stDram := by
  have hread := (readLine_recorded hline hp hw f).1 (correct_twoDevices h _)
  simp [State.scrubLine, poisoned_recorded hline, hp, hread]

/-- R251: a tag that does not agree with the ciphertext is counted, and the line fails. -/
theorem scrubLine_badTag {f : LineFault} (h : f.bad.length ≤ 1)
    (htag : u.tagOf line (u.cipherOf line (u.fabric.mem.readN (64 * line) 64)) ≠ xorBytes l.tag (leBytes 8 f.tag)) (raced : Bool) :
    u.scrubLine line f raced = (u.count oTagFailures 1).lineFails line stTag := by
  have hread : u.readLine line f = (.tagFail, [], u) := by
    rcases Nat.le_one_iff_eq_zero_or_eq_one.mp h with h | h
    · rw [(readLine_recorded hline hp hw f).2 _ _ (correct_noDevice h _), if_pos htag]
    · rw [(readLine_recorded hline hp hw f).2 _ _ (correct_oneDevice h _), if_pos htag]
  simp [State.scrubLine, poisoned_recorded hline, hp, hread]

section GoodTag

variable {f : LineFault}
  (htag : u.tagOf line (u.cipherOf line (u.fabric.mem.readN (64 * line) 64)) = xorBytes l.tag (leBytes 8 f.tag))
include htag

theorem scrubLine_clean (h : f.bad.length = 0) (raced : Bool) : u.scrubLine line f raced = u := by
  have hread := (readLine_recorded hline hp hw f).2 _ _ (correct_noDevice h _)
  simp [State.scrubLine, poisoned_recorded hline, hp, hread, htag]

/-- R256: a corrected line is counted, and written back unless a write intervened. -/
theorem scrubLine_corrected (h : f.bad.length = 1) (raced : Bool) : u.scrubLine line f raced =
    if raced then u.count oDramCorrected 1
    else (u.count oDramCorrected 1).writeLine line (u.plainOf line (u.cipherOf line (u.fabric.mem.readN (64 * line) 64))) := by
  have hread := (readLine_recorded hline hp hw f).2 _ _ (correct_oneDevice h _)
  simp [State.scrubLine, poisoned_recorded hline, hp, hread, htag]

end GoodTag

end Line

/-! ## A line that fails (R246, R255) -/

/-- R246: a line of the regions below the pools is rebuilt at once. -/
theorem lineFails_rebuilt {u : State} {line : Nat} (h : 64 * line < u.rebuiltBytes) (status : Nat) : u.lineFails line status = u :=
  if_pos h

/-- R254, R255: another line is poisoned, and what its failure strikes leaves the view. -/
theorem lineFails_scrubView {u : State} {line : Nat} (h : u.rebuiltBytes ≤ 64 * line) (status : Nat) :
    (u.lineFails line status).scrubView = (u.poisonLine line).scrubView := by
  unfold State.lineFails
  dsimp only
  rw [if_neg (Nat.not_lt.mpr h)]
  split
  · exact hitLine_scrubView _ _
  · rfl

theorem poisonLine_poison (u : State) (line : Nat) : (Tbl.get (u.poisonLine line).dram {} line).poison = true := by
  simp [State.poisonLine, Tbl.upd]

/-- R254, R255: a failure that is counted keeps the scrubber's position, and poisons a line above the regions rebuilt at once. -/
theorem lineFails_counted (u : State) (line status : Nat) {key : Nat} (hkey : key ∈ failureKeys) :
    ((u.count key 1).lineFails line status).dramScrub = u.dramScrub ∧
    ((u.count key 1).lineFails line status).stored key = u.stored key + 1 ∧
    (u.rebuiltBytes ≤ 64 * line → (Tbl.get ((u.count key 1).lineFails line status).dram {} line).poison = true) := by
  have hposition : (u.count key 1).dramScrub = u.dramScrub := State.count_dramScrub u key 1
  have hcounted : (u.count key 1).stored key = u.stored key + 1 := by simp [State.stored_count]
  have hrebuilt : (u.count key 1).rebuiltBytes = u.rebuiltBytes := rfl
  rw [← hposition, ← hcounted, ← hrebuilt]
  generalize u.count key 1 = v
  by_cases hbelow : 64 * line < v.rebuiltBytes
  · rw [lineFails_rebuilt hbelow]
    exact ⟨rfl, rfl, fun h => absurd hbelow (Nat.not_lt.mpr h)⟩
  · have hview := lineFails_scrubView (Nat.not_lt.mp hbelow) status
    refine ⟨(dramScrub_of_scrubView hview).trans rfl, stored_of_scrubView hview hkey, fun _ => ?_⟩
    rw [dram_of_scrubView hview]
    exact poisonLine_poison v line

/-- R246, R249: a line above the data region and its tags has check symbols only. -/
theorem scrubUpper_beyondTags {u : State} {line : Nat} (h : u.tagBase + u.dataRegion / 8 ≤ 64 * line) (f : LineFault) :
    (f.bad.length = 0 → u.scrubUpper line f = u) ∧
    (f.bad.length = 1 → u.scrubUpper line f = u.count oDramCorrected 1) ∧
    (f.bad.length = 2 → u.scrubUpper line f = u.count oDramUncorrectable 1) := by
  refine ⟨fun hbad => ?_, fun hbad => ?_, fun hbad => ?_⟩
  · simp only [State.scrubUpper, correct_noDevice hbad]
  · simp only [State.scrubUpper, correct_oneDevice hbad]
  · simp only [State.scrubUpper, correct_twoDevices hbad, if_neg (Nat.not_lt.mpr h)]

/-! ## The scrubbers step on (R20, R256) -/

/-- R256: the DRAM scrubber past a line; the end of a pass is noted at the last one. -/
def State.pastLine (s : State) (line : Nat) : State :=
  if line + 1 = s.ddrCapacity / 64 then State.store { s with dramScrub := 0 } oDramScrubDone s.gtc
  else { s with dramScrub := line + 1 }

/-- R256: the Oasis scrubber past a word. -/
def State.pastWord (s : State) (word : Nat) : State :=
  if word + 1 = oasisWords then State.store { s with oasisScrub := 0 } oOasisScrubDone s.gtc
  else { s with oasisScrub := word + 1 }

theorem pastLine_dram (s : State) (line : Nat) : (s.pastLine line).dram = s.dram := by
  unfold State.pastLine
  split <;> rfl

theorem pastLine_fabric (s : State) (line : Nat) : (s.pastLine line).fabric = s.fabric := by
  unfold State.pastLine
  split <;> rfl

theorem pastWord_oasisFailed (s : State) (word : Nat) : (s.pastWord word).oasisFailed = s.oasisFailed := by
  unfold State.pastWord
  split <;> rfl

theorem exec_dramScrubRead_eq (line : Nat) (f : LineFault) (raced : Bool) (s : State) :
    exec (.dramScrubRead line f raced) s = execDramScrubRead line f raced s := rfl

theorem exec_oasisScrubRead_eq (word : Nat) (errors : List Nat) (raced : Bool) (s : State) :
    exec (.oasisScrubRead word errors raced) s = execOasisScrubRead word errors raced s := rfl

theorem exec_dramScrubRead_beyond {s : State} {line : Nat} (hup : s.up = true) (h : s.ddrCapacity / 64 ≤ line) (f : LineFault)
    (raced : Bool) : exec (.dramScrubRead line f raced) s = .next s := by
  rw [exec_dramScrubRead_eq, execDramScrubRead, whenUp_runs _ hup]
  exact if_pos h

theorem exec_dramScrubRead {s : State} {line : Nat} (hup : s.up = true) (h : line < s.ddrCapacity / 64) (f : LineFault)
    (raced : Bool) : exec (.dramScrubRead line f raced) s = .next
      (if line < s.dataRegion / 64 then (s.pastLine line).scrubLine line f raced else (s.pastLine line).scrubUpper line f) := by
  rw [exec_dramScrubRead_eq, execDramScrubRead, whenUp_runs _ hup]
  dsimp only
  rw [if_neg (Nat.not_le.mpr h)]
  by_cases hlast : line + 1 = s.ddrCapacity / 64 <;> simp [State.pastLine, hlast]

theorem exec_oasisScrubRead_beyond {s : State} {word : Nat} (hup : s.up = true) (h : oasisWords ≤ word) (errors : List Nat)
    (raced : Bool) : exec (.oasisScrubRead word errors raced) s = .next s := by
  rw [exec_oasisScrubRead_eq, execOasisScrubRead, whenUp_runs _ hup]
  exact if_pos h

/-- R243, R256: what a read of an Oasis word finds. -/
theorem exec_oasisScrubRead {s : State} {word : Nat} (hup : s.up = true) (h : word < oasisWords) (errors : List Nat)
    (raced : Bool) :
    let r := exec (.oasisScrubRead word errors raced) s
    let on := s.pastWord word
    (secded errors = .clean → r = .next { on with oasisFailed := s.oasisFailed.filter (· ≠ word) }) ∧
    (secded errors = .corrected → r = .next (on.count oSramCorrected 1)) ∧
    (secded errors = .uncorrectable → word ∈ s.oasisFailed → r = .next on) ∧
    (secded errors = .uncorrectable → word ∉ s.oasisFailed →
      r = .next (State.count { on with oasisFailed := s.oasisFailed ++ [word] } oSramUncorrectable 1).hitWord) := by
  have hin : ¬ oasisWords ≤ word := Nat.not_le.mpr h
  have hon : (if (word + 1 == oasisWords) = true then
      State.store { s with oasisScrub := if (word + 1 == oasisWords) = true then 0 else word + 1 } oOasisScrubDone s.gtc
      else { s with oasisScrub := if (word + 1 == oasisWords) = true then 0 else word + 1 }) = s.pastWord word := by
    by_cases hlast : word + 1 = oasisWords <;> simp [State.pastWord, hlast]
  dsimp only
  rw [exec_oasisScrubRead_eq, execOasisScrubRead, whenUp_runs _ hup]
  dsimp only
  rw [if_neg hin, hon, ← pastWord_oasisFailed s word]
  refine ⟨fun hfind => ?_, fun hfind => ?_, fun hfind hfailed => ?_, fun hfind hfailed => ?_⟩
  · rw [hfind]
  · rw [hfind]
  · rw [hfind]
    exact if_pos (by simpa [pastWord_oasisFailed] using hfailed)
  · rw [hfind]
    exact if_neg (by simpa [pastWord_oasisFailed] using hfailed)

theorem secded_noBit {errors : List Nat} (h : ((errors.filter fun b => decide (b < 72)).dedup).length = 0) :
    secded errors = .clean := by
  simp only [secded, h]

theorem secded_oneBit {errors : List Nat} (h : ((errors.filter fun b => decide (b < 72)).dedup).length = 1) :
    secded errors = .corrected := by
  simp only [secded, h]

theorem secded_twoBits {errors : List Nat} (h : ((errors.filter fun b => decide (b < 72)).dedup).length = 2) :
    secded errors = .uncorrectable := by
  simp only [secded, h]

/-- R256, R257: a word that is marked failed is counted, and what it strikes leaves the mark, the position and the count. -/
theorem hitWord_counted (u : State) :
    let t := (u.count oSramUncorrectable 1).hitWord
    t.oasisFailed = u.oasisFailed ∧ t.oasisScrub = u.oasisScrub ∧
      t.stored oSramUncorrectable = u.stored oSramUncorrectable + 1 := by
  have hview := hitWord_scrubView (u.count oSramUncorrectable 1)
  refine ⟨(oasisFailed_of_scrubView hview).trans (State.count_oasisFailed ..),
    (oasisScrub_of_scrubView hview).trans (State.count_oasisScrub ..), ?_⟩
  rw [stored_of_scrubView hview (by decide)]
  simp [State.stored_count]

end Sys2Proof.Machine
end

section
/-! Garbage collection, patrol, checkpoints and temperature samples: what each leaves of the flash state (R285, R293 to R298, R303,
R307), and the readings of a sample. -/

namespace Sys2Proof.Machine

open Sys2Proof

/-! ## What the state of the media pools changes (R300, R301, R303, R348) -/

theorem raiseVector_flash (s : State) (v : Nat) : (s.raiseVector v).flash = s.flash := by
  unfold State.raiseVector
  split <;> rfl

theorem complete_flash (s : State) (sq cid sct sc : Nat) (dnr : Bool) (dw0 : Nat) (data : Bytes) :
    (s.complete sq cid sct sc dnr dw0 data).flash = s.flash := by
  unfold State.complete
  dsimp only
  split
  · rfl
  · split
    · rw [raiseVector_flash]; rfl
    · rfl

theorem asyncEvent_flash (s : State) (type info page : Nat) : (s.asyncEvent type info page).flash = s.flash := by
  unfold State.asyncEvent
  split
  · split
    · rw [complete_flash]
    · rfl
  · rfl

theorem warn_flash (s : State) : s.warn.flash = s.flash := by
  have hbit : ∀ (u : State) (p : Bool), (if p then u.asyncEvent 1 2 2 else u).flash = u.flash := fun u p => by
    cases p
    · rfl
    · exact asyncEvent_flash u 1 2 2
  unfold State.warn
  dsimp only
  split
  · rw [asyncEvent_flash, hbit]
  · rw [hbit]

theorem followMedia_flash (s : State) : s.followMedia.flash = { s.flash with readOnly := s.followMedia.flash.readOnly } := by
  unfold State.followMedia
  dsimp only
  split
  · rw [warn_flash]
  · split
    · rw [warn_flash]
    · rw [warn_flash, asyncEvent_flash]

/-- R300, R303: bringing a pool up to date changes which pools are CLOSED and MEDIA_STATE alone. -/
theorem followGc_flash (s : State) (m : Nat) : (s.followGc m).flash = { s.flash with
    closedRetire := (s.followGc m).flash.closedRetire
    closedGc := (s.followGc m).flash.closedGc
    gained := (s.followGc m).flash.gained
    closedAt := (s.followGc m).flash.closedAt
    readOnly := (s.followGc m).flash.readOnly } := by
  unfold State.followGc
  dsimp only
  rw [followMedia_flash]

/-! ## Map entries and slots (R276, R280, R283) -/

theorem append_eq (f : FlashSt) (g : List JRec) :
    f.append g = { f with journal := (f.append g).journal, journalDone := (f.append g).journalDone } := by
  unfold FlashSt.append
  split
  · split <;> rfl
  · rfl

/-- R280, R283: one map entry is changed, and one record appended. -/
theorem remap_eq (f : FlashSt) (lpn value type : Nat) : f.remap lpn value type =
    (f.setEntry lpn value).append [{ lpn := lpn, value := value, type := type, group := groupBits 0 1 }] := rfl

/-- R280, R295: an entry that becomes LOST changes itself, its segment and the journal alone. -/
theorem lose_flash (s : State) (lpn : Nat) : (s.lose lpn).flash = { s.flash with
    map := Tbl.set s.flash.map lpn lpnLost
    dirty := (s.lose lpn).flash.dirty
    journal := (s.lose lpn).flash.journal
    journalDone := (s.lose lpn).flash.journalDone } := by
  unfold State.lose
  rw [warn_flash]
  dsimp only
  rw [remap_eq, append_eq]
  rfl

theorem openBlock_eq {f g : FlashSt} {m b : Nat} {u : BlockUse} (h : f.openBlock m u = some (b, g)) :
    g = { f with blocks := g.blocks } := by
  unfold FlashSt.openBlock at h
  split at h
  · cases h; rfl
  · obtain ⟨k, _, hk⟩ := Option.map_eq_some_iff.mp h
    cases hk; rfl

/-- R276: taking a slot changes the block table alone. -/
theorem takeSlot_eq {f g : FlashSt} {m pun : Nat} {u : BlockUse} (h : f.takeSlot m u = some (pun, g)) :
    g = { f with blocks := g.blocks } := by
  unfold FlashSt.takeSlot at h
  split at h
  · cases h
  case h_2 b f' hopen =>
    cases h
    rw [openBlock_eq hopen]
    rfl

theorem relocSlot_eq {f g : FlashSt} {m pun : Nat} (h : f.relocSlot m = some (pun, g)) : g = { f with blocks := g.blocks } := by
  unfold FlashSt.relocSlot at h
  dsimp only at h
  split at h
  · cases h
  · exact takeSlot_eq h

/-! ## The relocation of a block (R293 to R295, R297) -/

/-- What the relocation of block b has made of the flash state f: no unit has changed, an entry at most has become LOST, no copy has
gone, and each new one is of a valid unit of b, neither read nor verified. -/
structure FlashSt.Relocating (f : FlashSt) (b : Nat) (g : FlashSt) : Prop where
  units : g.units = f.units
  map : ∀ l, Tbl.get g.map lpnUnmapped l = Tbl.get f.map lpnUnmapped l ∨
    Tbl.get g.map lpnUnmapped l = lpnLost ∧ ∃ p ∈ f.validUnits b, ∃ u, Tbl.find f.units p = some u ∧ u.bad = true ∧ u.lpn = l
  kept : ∀ c ∈ f.copies, c ∈ g.copies
  begun : ∀ c ∈ g.copies, c ∉ f.copies → c.src ∈ f.validUnits b ∧ c.read = false ∧ c.verified = false

section Relocation

variable {f g h : FlashSt} {b : Nat}

theorem FlashSt.Relocating.refl (f : FlashSt) (b : Nat) : f.Relocating b f :=
  ⟨rfl, fun _ => .inl rfl, fun _ hc => hc, fun _ hc hnew => absurd hc hnew⟩

/-- Other parts of the flash state do not count. -/
theorem FlashSt.Relocating.congr (hr : f.Relocating b g) (hunits : h.units = g.units) (hmap : h.map = g.map)
    (hcopies : h.copies = g.copies) : f.Relocating b h :=
  ⟨hunits.trans hr.units, hmap ▸ hr.map, hcopies ▸ hr.kept, hcopies ▸ hr.begun⟩

theorem FlashSt.Relocating.lost (hr : f.Relocating b g) {pun : Nat} {u : NandUnit} (hpun : pun ∈ f.validUnits b)
    (hunit : Tbl.find f.units pun = some u) (hbad : u.bad = true) (hunits : h.units = g.units)
    (hmap : h.map = Tbl.set g.map u.lpn lpnLost) (hcopies : h.copies = g.copies) : f.Relocating b h where
  units := hunits.trans hr.units
  map l := by
    rw [hmap, Tbl.get_set]
    split
    case isTrue hl => exact .inr ⟨rfl, pun, hpun, u, hunit, hbad, hl.symm⟩
    case isFalse => exact hr.map l
  kept := hcopies ▸ hr.kept
  begun := hcopies ▸ hr.begun

theorem FlashSt.Relocating.copied (hr : f.Relocating b g) {c : Copy} (hsrc : c.src ∈ f.validUnits b) (hread : c.read = false)
    (hverified : c.verified = false) (hunits : h.units = g.units) (hmap : h.map = g.map) (hcopies : h.copies = g.copies ++ [c]) :
    f.Relocating b h where
  units := hunits.trans hr.units
  map := hmap ▸ hr.map
  kept x hx := by
    rw [hcopies]
    exact List.mem_append_left _ (hr.kept x hx)
  begun x hx hnew := by
    rw [hcopies, List.mem_append, List.mem_singleton] at hx
    rcases hx with hx | rfl
    · exact hr.begun x hx hnew
    · exact ⟨hsrc, hread, hverified⟩

end Relocation

/-- R294, R295: a unit's copy begins, or the unit is LOST, or nothing changes. -/
theorem beginCopy_relocating {f : FlashSt} {b : Nat} {s : State} (hr : f.Relocating b s.flash) {pun : Nat}
    (hpun : pun ∈ f.validUnits b) (m : Nat) : f.Relocating b (s.beginCopy m pun).flash := by
  unfold State.beginCopy
  split
  · exact hr
  · split
    · exact hr
    case h_2 u hunit =>
      rw [hr.units] at hunit
      split
      case isTrue hbad =>
        have hlose := lose_flash s u.lpn
        exact hr.lost hpun hunit hbad (by rw [hlose]) (by rw [hlose]) (by rw [hlose])
      case isFalse =>
        split
        case h_2 => exact hr
        case h_1 dst g hslot =>
          have hg := relocSlot_eq hslot
          exact hr.copied (c := { src := pun, dst := dst, lpn := u.lpn }) hpun rfl rfl (by rw [hg]) (by rw [hg]) (by rw [hg])

theorem afterMove_flash (s : State) (b : Nat) : (s.afterMove b).flash = { s.flash with blocks := (s.afterMove b).flash.blocks } := by
  unfold State.afterMove
  dsimp only
  split <;> rfl

/-- R294: the units of b are relocated from a state in which b is marked as a victim. -/
def State.markVictim (s : State) (b : Nat) : State :=
  { s with flash := s.flash.updBlock b fun x => { x with victim := true } }

theorem afterMove_relocating {f : FlashSt} {b : Nat} {s : State} (hr : f.Relocating b s.flash) :
    f.Relocating b (s.afterMove b).flash := by
  rw [afterMove_flash]
  exact hr.congr rfl rfl rfl

theorem evacuate_relocating (s : State) (b : Nat) : s.flash.Relocating b (s.evacuate b).flash := by
  have hmarked : s.flash.Relocating b (s.markVictim b).flash := (FlashSt.Relocating.refl s.flash b).congr rfl rfl rfl
  exact afterMove_relocating (List.foldlRecOn (motive := fun u : State => s.flash.Relocating b u.flash) (s.flash.validUnits b) _
    hmarked fun u hu p hp => beginCopy_relocating hu hp _)

/-- R293: a victim that is closed and holds nothing, and from which nothing is copied, is erased. -/
theorem afterMove_erases {s : State} {b : Nat} (hvictim : (Tbl.get s.flash.blocks {} b).victim = true)
    (hclosed : s.flash.isClosed b = true) (hvalid : s.flash.validUnits b = [])
    (hcopies : ∀ c ∈ s.flash.copies, s.flash.blockOf c.src ≠ b) :
    s.afterMove b = { s with flash := s.flash.updBlock b fun x => { x with use := .erasing } } := by
  have hnone : (s.flash.copies.any fun c => s.flash.blockOf c.src == b) = false := by simpa using hcopies
  simp [State.afterMove, hvictim, hclosed, hvalid, hnone]

theorem evacuate_empty {s : State} {b : Nat} (hvalid : s.flash.validUnits b = []) (hclosed : s.flash.isClosed b = true)
    (hcopies : ∀ c ∈ s.flash.copies, s.flash.blockOf c.src ≠ b) :
    (Tbl.get (s.evacuate b).flash.blocks {} b).use = .erasing ∧ (s.evacuate b).flash.copies = s.flash.copies := by
  have hblock : Tbl.get (s.markVictim b).flash.blocks {} b = { Tbl.get s.flash.blocks {} b with victim := true } := by
    simp [State.markVictim, FlashSt.updBlock]
  have hstill : (s.markVictim b).flash.isClosed b = true := by
    have hpending : (s.markVictim b).flash.pending b = s.flash.pending b := rfl
    simpa [FlashSt.isClosed, hblock, hpending] using hclosed
  have hevacuate : s.evacuate b = (s.markVictim b).afterMove b := by
    rw [State.evacuate, hvalid]
    rfl
  rw [hevacuate, afterMove_erases (by rw [hblock]) hstill hvalid hcopies]
  exact ⟨by simp [FlashSt.updBlock], rfl⟩

/-! ## GC_VICTIM_SELECT, PATROL_READ, CHECKPOINT_WRITE and FLASH_TEMP_SAMPLE -/

theorem exec_gcVictimSelect {s : State} {m : Nat} (hm : m < 16) (hup : s.up = true) (hon : s.flashOn = true) :
    (s.victim m = none → exec (.gcVictimSelect m) s = .next (s.followGc m)) ∧
    ∀ b, s.victim m = some b → exec (.gcVictimSelect m) s = .next ((s.evacuate b).followGc m) := by
  have hexec : exec (.gcVictimSelect m) s = execGcVictimSelect m s := rfl
  rw [hexec, execGcVictimSelect, if_neg (Nat.not_le.mpr hm), withFlash_runs _ hup hon]
  exact ⟨fun h => by rw [h], fun b h => by rw [h]⟩

/-- R292: the counter of the step at which a codeword decoded. -/
def decodeKey (step : Nat) : Nat :=
  if step = 0 then oCorHard else if step ≤ 16 then oCorRetry else if step = 17 then oCorSoft else oUncorrectable

theorem countDecode_eq (s : State) (step : Nat) : s.countDecode step = s.count (decodeKey step) 1 := by
  unfold State.countDecode decodeKey
  repeat' split
  all_goals rfl

/-- R292: each step has one counter. -/
theorem decodeKey_iff (step : Nat) :
    (oCorHard = decodeKey step ↔ step = 0) ∧ (oCorRetry = decodeKey step ↔ 1 ≤ step ∧ step ≤ 16) ∧
    (oCorSoft = decodeKey step ↔ step = 17) ∧ (oUncorrectable = decodeKey step ↔ 17 < step) := by
  unfold decodeKey
  split_ifs <;> simp [oCorHard, oCorRetry, oCorSoft, oUncorrectable] <;> omega

theorem countDecode_stored (s : State) (step : Nat) :
    (s.countDecode step).stored oCorHard = s.stored oCorHard + (if step = 0 then 1 else 0) ∧
    (s.countDecode step).stored oCorRetry = s.stored oCorRetry + (if 1 ≤ step ∧ step ≤ 16 then 1 else 0) ∧
    (s.countDecode step).stored oCorSoft = s.stored oCorSoft + (if step = 17 then 1 else 0) ∧
    (s.countDecode step).stored oUncorrectable = s.stored oUncorrectable + (if 17 < step then 1 else 0) := by
  have hcount : ∀ key, (s.countDecode step).stored key = s.stored key + if key = decodeKey step then 1 else 0 := fun key => by
    rw [countDecode_eq, State.stored_count]
    split
    case isTrue h => rw [h]
    case isFalse => rfl
  obtain ⟨hhard, hretry, hsoft, hfail⟩ := decodeKey_iff step
  simp only [← hhard, ← hretry, ← hsoft, ← hfail]
  exact ⟨hcount _, hcount _, hcount _, hcount _⟩

theorem markUnit_eq (s : State) (pun : Nat) (bad : Bool) :
    s.markUnit pun bad = { s with flash := { s.flash with units := (s.markUnit pun bad).flash.units } } := by
  unfold State.markUnit
  split <;> rfl

/-- R292, R293, R298: a read of a mapped unit is counted with its step and in its block; it changes no map entry and sends nothing. -/
theorem patrolUnit_spec (s : State) (pun step : Nat) :
    let u := ((s.countDecode step).countRead (s.flash.blockOf pun) step).markUnit pun (decide (17 < step))
    u.flash.map = s.flash.map ∧ u.flash.report = s.flash.report ∧ u.out = s.out ∧
    (∀ key, u.stored key = (s.countDecode step).stored key) ∧
    (Tbl.get u.flash.blocks {} (s.flash.blockOf pun)).reads = (Tbl.get s.flash.blocks {} (s.flash.blockOf pun)).reads + 1 := by
  have hflash : (s.countDecode step).flash = s.flash := by rw [countDecode_eq]; rfl
  have hout : (s.countDecode step).out = s.out := by rw [countDecode_eq]; rfl
  rw [← hflash, ← hout]
  dsimp only
  rw [markUnit_eq]
  exact ⟨rfl, rfl, rfl, fun _ => rfl, by simp [State.countRead]⟩

/-- R298: the patrol reads the next mapped unit, or ends its pass. -/
theorem exec_patrolRead {s : State} (hup : s.up = true) (hon : s.flashOn = true) (hrm : s.rmRuns 3 = true) (hstep : s.sys.step = 0)
    (step : Nat) :
    (s.flash.map.find? (fun e => s.flash.patrol ≤ e.1 && e.2 ≠ lpnLost) = none → exec (.patrolRead step) s =
      .next (State.store { s with flash := { s.flash with patrol := 0 } } oPatrolDone s.gtc)) ∧
    ∀ lpn pun, s.flash.map.find? (fun e => s.flash.patrol ≤ e.1 && e.2 ≠ lpnLost) = some (lpn, pun) →
      let u := ((s.countDecode step).countRead (s.flash.blockOf pun) step).markUnit pun (decide (17 < step))
      exec (.patrolRead step) s = .next { u with flash := { u.flash with
        patrol := lpn + 1
        report := if 17 < step then ((s.gtc, lpn, pun, step) :: u.flash.report).take 4096 else u.flash.report } } := by
  have hexec : exec (.patrolRead step) s = execPatrolRead step s := rfl
  rw [hexec, execPatrolRead, whenRm_runs _ hup hrm (.inl hstep), withFlash_runs _ hup hon]
  exact ⟨fun h => by rw [h], fun lpn pun h => by rw [h]⟩

theorem mem_dropWhile_of_not {α : Type} {p : α → Bool} {l : List α} {x : α} (hx : x ∈ l) (hp : p x = false) :
    x ∈ l.dropWhile p := by
  rw [← List.takeWhile_append_dropWhile (p := p) (l := l), List.mem_append] at hx
  rcases hx with hx | hx
  · exact absurd (List.mem_takeWhile_imp hx) (by simp [hp])
  · exact hx

/-- R285: the oldest dirty segment is written, and an anchor that points to it; the journal is kept from the change of the next
dirty segment on. -/
theorem checkpoint_dirty {f : FlashSt} {seg q : Nat} {rest : List (Nat × Nat)} (h : f.dirty = (seg, q) :: rest) :
    f.checkpoint = FlashSt.trim { f with
      root :=
        { base := (rest.head?.map Prod.snd).getD f.seq
          ckpts := Tbl.set f.root.ckpts seg (f.seq, f.map.filter fun e => segmentOf e.1 == seg)
          blocks := f.blocks }
      older := f.root
      dirty := rest
      journalDone := f.seq } f.root.base := by
  unfold FlashSt.checkpoint
  cases rest <;> simp [h]

theorem checkpoint_clean {f : FlashSt} (h : f.dirty = []) : f.checkpoint = f := by
  simp [FlashSt.checkpoint, h]

/-- R283, R285: a page with a record that the anchor before needs stays in the journal. -/
theorem mem_trim_journal {f : FlashSt} {base : Nat} {p : JPage} (hp : p ∈ f.journal) (hneeded : base < p.base + p.recs.length) :
    p ∈ (f.trim base).journal :=
  mem_dropWhile_of_not hp (by simpa using hneeded)

theorem exec_checkpointWrite {s : State} (hup : s.up = true) (hon : s.flashOn = true) (hrm : s.rmRuns 3 = true)
    (hstep : s.sys.step = 0) : exec .checkpointWrite s = .next { s with flash := s.flash.checkpoint } := by
  have hexec : exec .checkpointWrite s = execCheckpointWrite s := rfl
  rw [hexec, execCheckpointWrite, whenRm_runs _ hup hrm (.inl hstep), withFlash_runs _ hup hon]

/-! ## Temperatures (R307) -/

/-- The hottest of the readings and of a first one. -/
def hottest (a : Int) (temps : List Int) : Int := temps.foldl (fun a t => if a < t then t else a) a

theorem hottest_cons (a x : Int) (l : List Int) : hottest a (x :: l) = hottest (if a < x then x else a) l := rfl

/-- It is at least as hot as each of them, and is one of them. -/
theorem hottest_spec (a : Int) (l : List Int) :
    a ≤ hottest a l ∧ (∀ x ∈ l, x ≤ hottest a l) ∧ (hottest a l = a ∨ hottest a l ∈ l) := by
  induction l generalizing a with
  | nil => exact ⟨le_refl a, fun x hx => absurd hx List.not_mem_nil, .inl rfl⟩
  | cons y l ih =>
    obtain ⟨hfirst, hrest, hone⟩ := ih (if a < y then y else a)
    rw [hottest_cons]
    generalize hottest (if a < y then y else a) l = m at *
    refine ⟨?_, ?_, ?_⟩
    · split at hfirst <;> omega
    · rintro x (_ | ⟨_, hx⟩)
      · split at hfirst <;> omega
      · exact hrest x hx
    · rcases hone with hfirst | hlater
      · split at hfirst
        · exact .inr (hfirst ▸ List.mem_cons_self)
        · exact .inl hfirst
      · exact .inr (List.mem_cons_of_mem _ hlater)

/-- From the lowest reading of a sensor up, the hottest is a reading whenever there is one. -/
theorem hottest_mem {a : Int} {l : List Int} (hlow : ∀ x ∈ l, a ≤ x) (hl : l ≠ []) : hottest a l ∈ l := by
  obtain ⟨_, hrest, hfirst | hmem⟩ := hottest_spec a l
  · obtain ⟨x, hx⟩ := List.exists_mem_of_ne_nil l hl
    have heq : hottest a l = x := le_antisymm (by rw [hfirst]; exact hlow x hx) (hrest x hx)
    exact heq ▸ hx
  · exact hmem

/-- A signed byte holds every hottest reading. -/
theorem hottest_range {l : List Int} (h : ∀ x ∈ l, -128 ≤ x ∧ x ≤ 127) : -128 ≤ hottest (-128) l ∧ hottest (-128) l ≤ 127 := by
  obtain ⟨hlow, _, hfirst | hmem⟩ := hottest_spec (-128) l
  · exact ⟨hlow, by omega⟩
  · exact h _ hmem

theorem toSigned_ofSigned {x : Int} (hlow : -128 ≤ x) (hhigh : x ≤ 127) : toSigned 8 (ofSigned 8 x) = x := by
  unfold toSigned ofSigned
  split <;> omega

/-- Counters that a list of events raises by 1 each rise by the number of their events. -/
theorem stored_foldl_count {α : Type} (key : α → Nat) (l : List α) (s : State) (k : Nat) :
    (l.foldl (fun s x => s.count (key x) 1) s).stored k = s.stored k + (l.filter fun x => key x = k).length := by
  induction l generalizing s with
  | nil => rfl
  | cons x l ih =>
    rw [List.foldl_cons, ih, State.stored_count]
    by_cases h : key x = k
    · simp [h]; omega
    · simp [h, Ne.symm h]

/-- Each bin has its own counter, and none of them is TEMP_NOW. -/
theorem oTempHist_inj (i k : Nat) : oTempHist i = oTempHist k ↔ i = k := by
  simp [oTempHist]

theorem oTempHist_ne_oTempNow (i : Nat) : oTempHist i ≠ oTempNow := by
  simp only [oTempHist, oTempNow]
  omega

theorem flash_foldl_count {α : Type} (key : α → Nat) (l : List α) (s : State) :
    (l.foldl (fun s x => s.count (key x) 1) s).flash = s.flash :=
  List.foldlRecOn (motive := fun u : State => u.flash = s.flash) l _ rfl fun _ hu _ _ => hu

theorem exec_flashTempSample {s : State} (hup : s.up = true) (hon : s.flashOn = true) (temps : List Int) :
    exec (.flashTempSample temps) s = .next (temps.foldl (fun s t => s.count (oTempHist (tempBin t)) 1)
      (s.store oTempNow (ofSigned 8 (hottest (-128) temps)))) := by
  have hexec : exec (.flashTempSample temps) s = execFlashTempSample temps s := rfl
  rw [hexec, execFlashTempSample, withFlash_runs _ hup hon]
  rfl

end Sys2Proof.Machine

open Sys2Proof Sys2Proof.Machine in
/-- Settles O25: what a failed line or word strikes leaves the view of the scrubbers, and the relocation of a victim keeps
`FlashSt.Relocating`; the patrol, the checkpoint and the temperature sample are read off their equations. -/
theorem scrubbersPatrolAndCheckpoint : Obligations.ScrubbersPatrolAndCheckpoint := by
  refine ⟨⟨fun s line f raced hup => ?dram, fun s word errors raced hup => ?oasis, fun s => rfl⟩,
    fun s m hm hup hon => ?collection, fun s step hup hon hrm hstep => ?patrol, fun s hup hon hrm hstep => ?checkpoint,
    fun s temps hup hon hrange => ?temperatures⟩
  case dram =>
    have hpast : s.pastLine line = if line + 1 = s.ddrCapacity / 64 then State.store { s with dramScrub := 0 } oDramScrubDone s.gtc
      else { s with dramScrub := line + 1 } := rfl
    dsimp only
    rw [← hpast, ← pastLine_fabric s line, ← pastLine_dram s line]
    refine ⟨fun hbeyond => exec_dramScrubRead_beyond hup hbeyond f raced, fun hin hdata l hline => ?data,
      fun hin habove htags => ?above⟩
    case data =>
      rw [exec_dramScrubRead hup hin f raced, if_pos hdata]
      refine ⟨fun hpassed => by rw [scrubLine_passedOver hline hpassed], fun hp hw => ⟨?_, ?_, ?_, ?_, ?_⟩⟩
      · intro hbad htag
        rw [scrubLine_clean hline hp hw htag hbad]
      · intro hbad htag hraced
        rw [scrubLine_corrected hline hp hw htag hbad, if_pos hraced]
      · intro hbad htag hraced
        rw [scrubLine_corrected hline hp hw htag hbad, if_neg (by simp [hraced])]
      · intro hbad
        rw [scrubLine_twoDevices hline hp hw hbad]
        exact ⟨_, rfl, lineFails_counted _ line stDram (by decide)⟩
      · intro hbad htag
        rw [scrubLine_badTag hline hp hw hbad htag]
        exact ⟨_, rfl, lineFails_counted _ line stTag (by decide)⟩
    case above =>
      rw [exec_dramScrubRead hup hin f raced, if_neg (Nat.not_lt.mpr habove)]
      obtain ⟨hclean, hone, htwo⟩ := scrubUpper_beyondTags htags f
      exact ⟨fun h => by rw [hclean h], fun h => by rw [hone h], fun h => by rw [htwo h]⟩
  case oasis =>
    have hpast : s.pastWord word = if word + 1 = oasisWords then State.store { s with oasisScrub := 0 } oOasisScrubDone s.gtc
      else { s with oasisScrub := word + 1 } := rfl
    dsimp only
    rw [← hpast]
    have hread (hin : word < oasisWords) := exec_oasisScrubRead hup hin errors raced
    refine ⟨fun hbeyond => exec_oasisScrubRead_beyond hup hbeyond errors raced, fun hin hbad => ?clean, fun hin hbad => ?one,
      fun hin hbad hfailed => ?known, fun hin hbad hfailed => ?new⟩
    case clean =>
      obtain ⟨hclean, _⟩ := hread hin
      exact hclean (secded_noBit hbad)
    case one =>
      obtain ⟨_, hcorrected, _⟩ := hread hin
      exact hcorrected (secded_oneBit hbad)
    case known =>
      obtain ⟨_, _, hknown, _⟩ := hread hin
      exact hknown (secded_twoBits hbad) hfailed
    case new =>
      obtain ⟨_, _, _, hnew⟩ := hread hin
      exact ⟨_, hnew (secded_twoBits hbad) hfailed, hitWord_counted { s.pastWord word with oasisFailed := s.oasisFailed ++ [word] }⟩
  case collection =>
    obtain ⟨hnone, hsome⟩ := exec_gcVictimSelect hm hup hon
    refine ⟨hnone, fun b hb => ⟨_, hsome b hb, ?_⟩⟩
    obtain ⟨hunits, hmap, hkept, hbegun⟩ := evacuate_relocating s b
    rw [followGc_flash]
    exact ⟨hunits, hmap, hkept, hbegun, evacuate_empty⟩
  case patrol =>
    obtain ⟨hpassed, hread⟩ := exec_patrolRead hup hon hrm hstep step
    refine ⟨fun hmap => ⟨_, hpassed hmap, rfl, State.stored_store_self .., rfl⟩, fun lpn pun hmap => ⟨_, hread lpn pun hmap, ?_⟩⟩
    obtain ⟨hkept, hreport, hout, hcount, hreads⟩ := patrolUnit_spec s pun step
    obtain ⟨hhard, hretry, hsoft, hfail⟩ := countDecode_stored s step
    exact ⟨rfl, hkept, hout, (hcount _).trans hhard, (hcount _).trans hretry, (hcount _).trans hsoft, (hcount _).trans hfail,
      fun hbad => (if_pos hbad).trans (by rw [hreport]), fun hgood => (if_neg (Nat.not_lt.mpr hgood)).trans hreport, hreads⟩
  case checkpoint =>
    rw [exec_checkpointWrite hup hon hrm hstep]
    refine ⟨fun hdirty => by rw [checkpoint_clean hdirty], fun seg q rest hdirty => ⟨_, rfl, ?_⟩⟩
    rw [checkpoint_dirty hdirty]
    refine ⟨rfl, rfl, rfl, ?_, ?_, rfl, fun p hp hneeded => mem_trim_journal hp hneeded⟩
    · simp [FlashSt.trim, Tbl.find_set]
    · cases rest <;> rfl
  case temperatures =>
    obtain ⟨hlow, hhigh⟩ := hottest_range hrange
    obtain ⟨_, hmax, _⟩ := hottest_spec (-128) temps
    refine ⟨_, exec_flashTempSample hup hon temps, flash_foldl_count .., ?_⟩
    rw [stored_foldl_count]
    simp only [stored_foldl_count, oTempHist_ne_oTempNow, oTempHist_inj, State.stored_store, decide_false, List.filter_false,
      List.length_nil, Nat.add_zero, if_true, if_false, toSigned_ofSigned hlow hhigh]
    exact ⟨hmax, hottest_mem fun x hx => (hrange x hx).1, fun _ _ => trivial⟩
end

section
/-! What the buffer manager's doings leave of the machine (R257 to R272, R410): buffers taken and given back, allocations served,
notices and completions change the manager's own records and nothing of a stream, an image, a setting or a job. -/

namespace Sys2Proof.Machine

open Sys2Proof

/-! ## The state without the manager's records -/

/-- The counters that the buffer manager, the notices and the retries of jobs raise. -/
def tallyKeys : List Nat := [oNoticesLost, oPoolStateEvents, oRetiredBuffers, oJobsRetried]

/-- A state without what the buffer manager records, the notices that wait, what has gone out and the NVMe queues. -/
def State.work (s : State) : State :=
  { s with out := [], fresh := 0, od := s.od.filter fun e => e.1 ∉ tallyKeys, pools := [], buffers := [], s0Used := 0,
           allocs := [], charged := [], granules := [], chans := [], notices := [], recovery := [],
           host := { s.host with msixPending := 0, sqs := [], cqs := [] } }

theorem Tbl.filter_set {α : Type} {p : Nat → Bool} {k : Nat} (hk : p k = false) (t : Tbl α) (v : α) :
    (Tbl.set t k v).filter (fun e => p e.1) = t.filter fun e => p e.1 := by
  induction t with
  | nil => simp [Tbl.set, hk]
  | cons e r ih =>
    unfold Tbl.set
    split
    · simp [hk]
    · split
      case isTrue heq => simp [hk, ← heq]
      case isFalse => simp [List.filter_cons, ih]

theorem Tbl.find_filter {α : Type} {p : Nat → Bool} {k : Nat} (hk : p k = true) (t : Tbl α) :
    Tbl.find (t.filter fun e => p e.1) k = Tbl.find t k := by
  induction t with
  | nil => rfl
  | cons e r ih =>
    by_cases he : e.1 = k
    · simp [Tbl.find, he, hk]
    · by_cases hp : p e.1 = true <;> simp [Tbl.find, he, hp, ih]

theorem count_work (s : State) {key : Nat} (hkey : key ∈ tallyKeys) (n : Nat) : (s.count key n).work = s.work := by
  have hod := Tbl.filter_set (p := fun k => k ∉ tallyKeys) (by simpa using hkey) s.od (s.stored key + n)
  unfold State.count State.store State.work
  rw [hod]

section Work

variable {s t : State} (h : t.work = s.work)
include h

theorem streams_of_work : t.streams = s.streams := (congrArg State.streams h :)
theorem images_of_work : t.images = s.images := (congrArg State.images h :)
theorem jobs_of_work : t.jobs = s.jobs := (congrArg State.jobs h :)
theorem nss_of_work : t.host.nss = s.host.nss := (congrArg (fun u : State => u.host.nss) h :)
theorem domains_of_work : t.domains = s.domains := (congrArg State.domains h :)

theorem stored_of_work {key : Nat} (hkey : key ∉ tallyKeys) : t.stored key = s.stored key := by
  have hfind : ∀ u : State, Tbl.find u.work.od key = Tbl.find u.od key := fun u =>
    Tbl.find_filter (p := fun k => k ∉ tallyKeys) (by simpa using hkey) u.od
  unfold State.stored
  rw [← hfind t, ← hfind s, h]

theorem stream_of_work (n : Nat) : t.stream n = s.stream n := by
  unfold State.stream
  rw [streams_of_work h]

end Work

theorem foldl_work {α : Type} {g : State → α → State} (h : ∀ u x, (g u x).work = u.work) (l : List α) (s : State) :
    (l.foldl g s).work = s.work :=
  List.foldlRecOn (motive := fun u : State => u.work = s.work) l g rfl fun u hu x _ => (h u x).trans hu

/-! ## Notices and completions (R335, R339, R408, R410, R517) -/

theorem raiseVector_work (s : State) (v : Nat) : (s.raiseVector v).work = s.work := by
  unfold State.raiseVector
  split <;> rfl

theorem wakeHost_work (s : State) (c : Nat) : (s.wakeHost c).work = s.work := by
  unfold State.wakeHost
  dsimp only
  split
  · exact raiseVector_work _ _
  · rfl

theorem postHost_work (s : State) (c sender seq : Nat) (body : Bytes) : (s.postHost c sender seq body).work = s.work :=
  wakeHost_work _ c

theorem notice_work (s : State) (kind status subject detail : Nat) : (s.notice kind status subject detail).work = s.work := by
  unfold State.notice
  dsimp only
  split
  · exact count_work s (by decide) 1
  · split
    · split
      · rfl
      · exact count_work s (by decide) 1
    · exact postHost_work s _ _ _ _

theorem recover_work (s : State) (kind status subject detail : Nat) : (s.recover kind status subject detail).work = s.work := by
  unfold State.recover
  dsimp only
  split
  · exact count_work s (by decide) 1
  · split
    · split
      · rfl
      · exact count_work s (by decide) 1
    · exact postHost_work s _ _ _ _

theorem complete_work (s : State) (sq cid sct sc : Nat) (dnr : Bool) (dw0 : Nat) (data : Bytes) :
    (s.complete sq cid sct sc dnr dw0 data).work = s.work := by
  unfold State.complete
  dsimp only
  split
  · rfl
  · split
    · exact raiseVector_work _ _
    · rfl

theorem vendorDone_work (s : State) (c : NvmeCmd) (status : Nat) (result : Option Nat) (data : Bytes) :
    (s.vendorDone c status result data).work = s.work := by
  unfold State.vendorDone
  dsimp only
  split <;> exact complete_work s _ _ _ _ _ _ _

/-! ## Buffers (R257, R260 to R272) -/

theorem settlePool_work (s : State) (p : Nat) : (s.settlePool p).work = s.work := by
  unfold State.settlePool
  dsimp only
  split
  · rfl
  · exact (notice_work _ _ _ _ _).trans (count_work _ (by decide) 1)

theorem occupy_work (s : State) (r p n : Nat) (part : Option Nat) : (s.occupy r p n part).work = s.work := by
  unfold State.occupy
  dsimp only
  split
  · rfl
  · refine (settlePool_work _ p).trans ?_
    split <;> rfl

theorem vacate_work (s : State) (r p n : Nat) (part : Option Nat) : (s.vacate r p n part).work = s.work := by
  unfold State.vacate
  dsimp only
  split
  · rfl
  · exact settlePool_work _ p

theorem takeBufs_work (s : State) (r caravan k at_ n : Nat) : (s.takeBufs r caravan k at_ n).work = s.work := by
  unfold State.takeBufs
  split
  · rfl
  · exact occupy_work s _ _ _ _

theorem giveBufs_work (s : State) (r caravan k at_ n : Nat) : (s.giveBufs r caravan k at_ n).work = s.work := by
  unfold State.giveBufs
  split
  · rfl
  · exact vacate_work s _ _ _ _

theorem grant_work (s : State) (a : AllocReq) : (s.grant a).work = s.work := occupy_work _ _ _ _ _

theorem serveAllocs_work (s : State) : s.serveAllocs.work = s.work := by
  unfold State.serveAllocs
  refine List.foldlRecOn (motive := fun acc : State × List AllocReq => acc.1.work = s.work) s.allocs _ rfl ?_
  intro acc hacc a _
  split
  · exact (grant_work acc.1 a).trans hacc
  · exact hacc

theorem retireCheck_work (s : State) (p i : Nat) : (s.retireCheck p i).work = s.work := by
  unfold State.retireCheck
  dsimp only
  split
  · exact (settlePool_work _ p).trans (count_work _ (by decide) 1)
  · rfl

theorem retireStruck_work (s : State) (j : Job) : (s.retireStruck j).work = s.work := by
  unfold State.retireStruck
  dsimp only
  split
  · split
    · exact retireCheck_work _ _ _
    · rfl
  · rfl

theorem freeJobBuffers_work (s : State) (j : Job) : (s.freeJobBuffers j).work = s.work := by
  have hgiven := foldl_work (fun u (r : Nat × Nat × Nat) => giveBufs_work u j.stream j.caravan r.1 r.2.1 r.2.2) j.reserved s
  unfold State.freeJobBuffers
  dsimp only
  split
  · exact (retireStruck_work _ j).trans hgiven
  · exact hgiven

theorem freeBuffer_work (s : State) (key : Nat) (b : Buffer) : (s.freeBuffer key b).work = s.work := by
  have hvacated := vacate_work { s with buffers := Tbl.del s.buffers key } b.requester (key / 2 ^ 26) 1 b.part
  unfold State.freeBuffer
  dsimp only
  split
  · exact (retireCheck_work _ _ _).trans hvacated
  · exact hvacated

/-- R272: freeing what a requester holds changes the manager's records alone. -/
theorem freeRequester_work (s : State) (r : Nat) : (s.freeRequester r).work = s.work := by
  unfold State.freeRequester
  dsimp only
  refine (serveAllocs_work _).trans (foldl_work (fun u kb => ?_) s.buffers s)
  split
  · exact freeBuffer_work u _ _
  · split
    · split
      · rfl
      · exact freeBuffer_work u _ _
    · rfl

/-! ## The end of jobs (R98, R272) -/

/-- R98, R272: the jobs that end leave, with their kernels and codec work, and the manager's records follow. -/
theorem endJobs_work (s : State) (p : Job → Bool) : (s.endJobs p).work =
    (((s.freeCores ((s.jobs.filter p).map Job.id).contains).dropCodec fun w =>
      ((s.jobs.filter p).map Job.id).contains w.job).dropJobs p).work := by
  have hfreed := foldl_work freeJobBuffers_work (s.jobs.filter p) s
  unfold State.endJobs
  dsimp only
  rw [serveAllocs_work]
  generalize ((s.jobs.filter p).foldl State.freeJobBuffers s) = u at hfreed ⊢
  have hcongr : ∀ v : State, (((v.freeCores ((s.jobs.filter p).map Job.id).contains).dropCodec fun w =>
      ((s.jobs.filter p).map Job.id).contains w.job).dropJobs p).work =
    ((((v.work).freeCores ((s.jobs.filter p).map Job.id).contains).dropCodec fun w =>
      ((s.jobs.filter p).map Job.id).contains w.job).dropJobs p) := fun _ => rfl
  rw [hcongr u, hcongr s, hfreed]

theorem endJobs_jobs (s : State) (p : Job → Bool) : (s.endJobs p).jobs = s.jobs.filter fun j => !p j :=
  jobs_of_work (endJobs_work s p)

theorem endJobs_stream (s : State) (p : Job → Bool) (n : Nat) : (s.endJobs p).stream n = s.stream n :=
  stream_of_work (endJobs_work s p) n

theorem endJobs_stored (s : State) (p : Job → Bool) {key : Nat} (hkey : key ∉ tallyKeys) :
    (s.endJobs p).stored key = s.stored key :=
  stored_of_work (endJobs_work s p) hkey

/-- No setting of a stream is among the counters. -/
theorem oSlotCount_untallied {n : Nat} (hn : n < 64) : oSlotCount n ∉ tallyKeys := by
  simp [tallyKeys, oSlotCount, oNoticesLost, oPoolStateEvents, oRetiredBuffers, oJobsRetried]
  omega

end Sys2Proof.Machine
end

section
/-! Writes of the objects of a stream (R39 to R51, R192, R544): what a write that reaches the owning chapter's rule is answered, and
what the commands of CONTROL leave of a stream. -/

namespace Sys2Proof.Machine

open Sys2Proof

/-! ## The answer to a write -/

/-- R495: a write is answered with the RESULT and STATUS of the owning chapter's rule. -/
def Applied.answered (w : Applied) (r : OdReq) : Res := .next (w.2.2.answer r.src 0x11 r.seq w.1 w.2.1 [])

theorem accept_answered (u : State) (r : OdReq) : (accept u).answered r = u.wroteOk r := rfl

theorem refuse_answered (t : State) (status : Nat) (r : OdReq) : (refuse t status).answered r = t.wroteNot r status := rfl

/-- R544: a write under a condition is answered OK where it holds and STATE where it does not. -/
theorem acceptIf_answered (ok : Bool) (t u : State) (r : OdReq) :
    (ok = true → (acceptIf ok t u).answered r = u.wroteOk r) ∧ (ok = false → (acceptIf ok t u).answered r = t.wroteNot r 0) :=
  ⟨fun h => by rw [h]; rfl, fun h => by rw [h]; rfl⟩

/-- R493, R544: the row of an object whose changes are not counted answers what the owning chapter's rule says of the value. -/
theorem odRow_answered {s t : State} {r : OdReq} {key : Nat} {own : Nat → Bool} {role : Role} (h : s.ReceivesWrite r key role t)
    (hown : own (leNat r.data) = true) (hkey : key < 2 ^ 24) (hlimit : isLimited key = false) :
    odRow key own r s = (t.applyObject r.src role key (normalValue key (leNat r.data)) r.data).answered r := by
  rw [odRow_received h hown (keyOf_div_mod hkey), writeObject_unlimited h.valid hlimit]
  rfl

/-! ## The objects of a stream (R46 to R51, R192) -/

/-- The subindexes of IMAGE_SLOT, SPLIT_MODE, SPLIT_CUT, CLOCK_EXACT, CONTROL and THRESH_EPOCH. -/
def streamSubs : List Nat := [0x01, 0x07, 0x08, 0x0C, 0x0D, 0x1B]

/-- R50: the key of a subindex of stream n. -/
def streamKey (n u : Nat) : Nat := 0x210000 + u + 256 * n

theorem isLimited_streamKey : ∀ n < 64, ∀ u ∈ streamSubs, isLimited (streamKey n u) = false := by decide +kernel

theorem lt_of_mem_streamSubs : ∀ u ∈ streamSubs, u < 32 := by decide

section StreamKey

variable {n u : Nat} (hu : u < 32)
include hu

theorem streamKey_div : streamKey n u / 256 = 0x2100 + n := by unfold streamKey; omega

theorem streamKey_mod : streamKey n u % 256 = u := by unfold streamKey; omega

variable (hn : n < 64)
include hn

/-- R488: none of these values is normalised. -/
theorem normalValue_streamKey (v : Nat) : normalValue (streamKey n u) v = v := by
  have hplace : streamKey n u ≠ oPlaceGeometry ∧ streamKey n u ≠ oTorusGeometry := by
    simp only [streamKey, oPlaceGeometry, oTorusGeometry]
    omega
  simp [normalValue, hplace.1, hplace.2, streamKey_mod hu, hu]

/-- R544: the chapter that owns the objects of a stream decides their writes. -/
theorem applyObject_streamKey (t : State) (src : OdSource) (role : Role) (v : Nat) (data : Bytes) :
    t.applyObject src role (streamKey n u) v data = t.applyStream n u (streamKey n u) v := by
  have hoff : t.objectOff (0x2100 + n) = false := by
    unfold State.objectOff
    rw [if_neg (by simp only [Bool.and_eq_true, decide_eq_true_eq]; omega),
      if_neg (by simp only [Bool.and_eq_true, decide_eq_true_eq]; omega)]
  have hstream : (0x2100 ≤ 0x2100 + n && 0x2100 + n < 0x2140) = true := by
    simp only [Bool.and_eq_true, decide_eq_true_eq]; omega
  have hslot : (0x2010 ≤ 0x2100 + n && 0x2100 + n < 0x2020) = false := by
    simp only [Bool.and_eq_false_iff, decide_eq_false_iff_not]; omega
  unfold State.applyObject
  rw [streamKey_div hu, streamKey_mod hu]
  simp only [hoff, hslot, hstream, Bool.false_eq_true, if_false, if_true, Nat.add_sub_cancel_left,
    show ¬ 0x2100 + n < 0x1140 by omega, show ¬ 0x2100 + n < 0x1400 by omega, show ¬ 0x2100 + n < 0x2000 by omega]

end StreamKey

/-- R39 to R51, R192: the row of an object of a stream answers what the stream's chapter says of the value written. -/
theorem streamRow_answered {s t : State} {r : OdReq} {n u : Nat} {own : Nat → Bool} {role : Role} (hn : n < 64)
    (hu : u ∈ streamSubs) (h : s.ReceivesWrite r (streamKey n u) role t) (hown : own (leNat r.data) = true) :
    streamRow n (streamKey n u) own r s = (t.applyStream n u (streamKey n u) (leNat r.data)).answered r := by
  have hsub := lt_of_mem_streamSubs u hu
  have hkey : streamKey n u < 2 ^ 24 := by unfold streamKey; omega
  have hblock : blockKey (decide (n < 64)) (streamKey n u) = streamKey n u := by simp [blockKey, hn]
  rw [streamRow, hblock, odRow_answered h hown hkey (isLimited_streamKey n hn u hu), normalValue_streamKey hsub hn,
    applyObject_streamKey hsub hn]

/-! ## CONTROL (R39) -/

theorem ofExcept_ok_answered (t u : State) (r : OdReq) : (ofExcept t (.ok u)).answered r = u.wroteOk r := rfl

theorem ofExcept_error_answered (t : State) (st : Nat) (r : OdReq) : (ofExcept t (.error st)).answered r = t.wroteNot r st := rfl

/-- R39, R463: each row of CONTROL answers what its command gives, where no scrub stands in the way. -/
theorem exec_control {s t : State} {r : OdReq} {n : Nat} {role : Role} (hn : n < 64) (h : s.ReceivesWrite r (oControl n) role t)
    (hscrub : t.scrubbing n = false) :
    (leNat r.data = 1 → exec (.streamStart r n) s = (ofExcept t (t.startCmd n)).answered r) ∧
    (leNat r.data = 2 → exec (.streamPause r n) s = (ofExcept t (t.pauseCmd n)).answered r) ∧
    (leNat r.data = 3 → exec (.streamResume r n) s = (ofExcept t (t.resumeCmd n)).answered r) ∧
    (leNat r.data = 4 → exec (.streamStop r n) s = (ofExcept t (t.stopCmd n)).answered r) ∧
    (leNat r.data = 5 → exec (.pipelineReset r n) s = (ofExcept t (t.resetCmd n)).answered r) ∧
    (leNat r.data = 6 → exec (.streamRelease r n) s = (ofExcept t (t.releaseCmd n)).answered r) := by
  have hrow : ∀ v, leNat r.data = v → streamRow n (oControl n) (· == v) r s = (t.control_ n v).answered r := by
    rintro v rfl
    exact streamRow_answered hn (u := 0x0D) (by decide) h (by simp)
  refine ⟨fun hv => ?_, fun hv => ?_, fun hv => ?_, fun hv => ?_, fun hv => ?_, fun hv => ?_⟩
  all_goals
    refine (hrow _ hv).trans ?_
    simp [State.control_, hscrub]

/-! ### Result slots that are retired (R320) -/

/-- R320: a FREE or PENDING slot of a stream that enters LOADED is RETIRED; a READY or RETIRED one stays. -/
def Slot.withdrawn (x : Slot) : Slot := if x.state = .free || x.state = .pending then { state := .retired, gen := x.gen } else x

theorem withdrawn_state (x : Slot) : x.withdrawn.state = if x.state = .ready then .ready else .retired := by
  unfold Slot.withdrawn
  cases hx : x.state <;> simp [hx]

theorem slot_updSlot (s : State) (n i j : Nat) (f : Slot → Slot) :
    (s.updSlot n i f).slot n j = if j = i then f (s.slot n i) else s.slot n j := by
  unfold State.updSlot State.slot
  rw [State.stream_updDlv, if_pos rfl]
  exact Tbl.get_upd ..

/-- One step of the withdrawal of a stream's slots. -/
def State.withdrawSlot (n : Nat) (s : State) (i : Nat) : State :=
  if (s.slot n i).state = .free || (s.slot n i).state = .pending then
    s.updSlot n i fun x => { state := .retired, gen := x.gen }
  else s

theorem withdrawSlot_slot (s : State) (n i j : Nat) :
    (State.withdrawSlot n s i).slot n j = if j = i then (s.slot n i).withdrawn else s.slot n j := by
  unfold State.withdrawSlot Slot.withdrawn
  by_cases hopen : (s.slot n i).state = .free ∨ (s.slot n i).state = .pending
  · simp [hopen, slot_updSlot]
  · by_cases hj : j = i <;> simp [hopen, hj]

theorem withdrawn_withdrawn (x : Slot) : x.withdrawn.withdrawn = x.withdrawn := by
  have hkept : ∀ y : Slot, y.state = .ready ∨ y.state = .retired → y.withdrawn = y := fun y hy => by
    rcases hy with hy | hy <;> simp [Slot.withdrawn, hy]
  refine hkept _ ?_
  rw [withdrawn_state]
  split
  · exact .inl rfl
  · exact .inr rfl

theorem foldl_withdrawSlot_slot (n j : Nat) (l : List Nat) (s : State) :
    (l.foldl (State.withdrawSlot n) s).slot n j = if j ∈ l then (s.slot n j).withdrawn else s.slot n j := by
  induction l generalizing s with
  | nil => rfl
  | cons i l ih =>
    rw [List.foldl_cons, ih, withdrawSlot_slot]
    by_cases hj : j = i
    · subst hj
      by_cases hl : j ∈ l <;> simp [hl, withdrawn_withdrawn]
    · simp [hj]

theorem retireSlots_eq (s : State) (n : Nat) :
    s.retireSlots n = (List.range (s.stored (oSlotCount n))).foldl (State.withdrawSlot n) s := rfl

/-- R320: every slot of the stream is withdrawn. -/
theorem retireSlots_slot (s : State) (n : Nat) {i : Nat} (hi : i < s.stored (oSlotCount n)) :
    ((s.retireSlots n).slot n i).state = if (s.slot n i).state = .ready then .ready else .retired := by
  rw [retireSlots_eq, foldl_withdrawSlot_slot, if_pos (List.mem_range.mpr hi), withdrawn_state]

/-- R320: a stream with other slots. -/
def Stream.withSlots (x : Stream) (l : Tbl Slot) : Stream := { x with dlv := { x.dlv with slots := l } }

theorem withSlots_state (x : Stream) (l : Tbl Slot) : (x.withSlots l).state = x.state := rfl
theorem withSlots_snapshot (x : Stream) (l : Tbl Slot) : (x.withSlots l).snapshot = x.snapshot := rfl
theorem withSlots_run (x : Stream) (l : Tbl Slot) : (x.withSlots l).run = x.run := rfl

/-- R320: the withdrawal of slots changes nothing but the slots of the stream. -/
theorem retireSlots_keeps (s : State) (n : Nat) :
    (∃ l, (s.retireSlots n).stream n = (s.stream n).withSlots l) ∧
    s.retireSlots n = { s with streams := (s.retireSlots n).streams } := by
  rw [retireSlots_eq]
  refine List.foldlRecOn (motive := fun u : State =>
    (∃ l, u.stream n = (s.stream n).withSlots l) ∧ u = { s with streams := u.streams })
    _ _ ⟨⟨_, rfl⟩, rfl⟩ fun u hu i _ => ?_
  obtain ⟨⟨l, hstream⟩, hrest⟩ := hu
  unfold State.withdrawSlot
  split
  · refine ⟨⟨Tbl.upd l {} i fun x => { state := .retired, gen := x.gen }, ?_⟩, ?_⟩
    · rw [State.updSlot, State.stream_updDlv, if_pos rfl, hstream]
      rfl
    · rw [hrest]; rfl
  · exact ⟨⟨l, hstream⟩, hrest⟩

theorem retireSlots_stored (s : State) (n key : Nat) : (s.retireSlots n).stored key = s.stored key := by
  rw [(retireSlots_keeps s n).2]
  rfl

/-! ### The end of a run and of a credit window (R40, R272, R378) -/

theorem unregister_eq (s : State) (key : Nat) : s.unregister key = { s with fabric := (s.unregister key).fabric } := by
  unfold State.unregister
  split <;> rfl

/-- R378: the end of a credit window changes the window of the stream alone. -/
theorem closeCredit_eq (s : State) (n : Nat) :
    s.closeCredit n = State.updDlv { s with fabric := (s.closeCredit n).fabric } n fun d =>
      { d with creditKey := 0, granted := 0, creditFence := 0 } := by
  unfold State.closeCredit
  conv_lhs => rw [unregister_eq]
  rfl

theorem closeCredit_stored (s : State) (n key : Nat) : (s.closeCredit n).stored key = s.stored key := by
  rw [closeCredit_eq]
  rfl

theorem closeCredit_slot (s : State) (n i : Nat) : (s.closeCredit n).slot n i = s.slot n i := by
  unfold State.slot
  rw [closeCredit_eq, State.stream_updDlv, if_pos rfl]
  rfl

/-- R40, R272: a run that ends leaves the stream without open batches and jobs to admit. -/
theorem endRun_stream (s : State) (n : Nat) :
    (s.endRun n).stream n = { s.stream n with run := { s.run n with batches := [], toAdmit := [] } } := by
  have hfreed := stream_of_work (freeRequester_work (s.endJobs fun j => j.stream == n) n) n
  rw [endJobs_stream] at hfreed
  have hqp : ∀ u : State, (if (Tbl.find u.fabric.qps (dlvQpn n)).isSome then
      u.updQp (dlvQpn n) fun q => { q with unacked := [] } else u).stream n = u.stream n := fun u => by
    split <;> rfl
  unfold State.endRun
  dsimp only
  rw [State.stream_updRun, if_pos rfl, hqp, hfreed]
  rfl

theorem endRun_stored (s : State) (n : Nat) {key : Nat} (hkey : key ∉ tallyKeys) : (s.endRun n).stored key = s.stored key := by
  have hfreed := stored_of_work (freeRequester_work (s.endJobs fun j => j.stream == n) n) hkey
  rw [endJobs_stored s _ hkey] at hfreed
  have hqp : ∀ u : State, (if (Tbl.find u.fabric.qps (dlvQpn n)).isSome then
      u.updQp (dlvQpn n) fun q => { q with unacked := [] } else u).stored key = u.stored key := fun u => by
    split <;> rfl
  exact (hqp _).trans hfreed

/-! ### Ingest samples that are given up (R40, R341) -/

theorem updCorpus_eq (s : State) (nsid : Nat) (f : Corpus → Corpus) :
    s.updCorpus nsid f = { s with host := (s.updCorpus nsid f).host } := by
  unfold State.updCorpus
  split <;> rfl

/-- The delivery of stream n and the settings are in two states the same. -/
structure SameDelivery (n : Nat) (s t : State) : Prop where
  dlv : (t.stream n).dlv = (s.stream n).dlv
  stored : ∀ key ∉ tallyKeys, t.stored key = s.stored key

theorem SameDelivery.trans {n : Nat} {s t u : State} (h : SameDelivery n s t) (h' : SameDelivery n t u) : SameDelivery n s u :=
  ⟨h'.dlv.trans h.dlv, fun key hkey => (h'.stored key hkey).trans (h.stored key hkey)⟩

theorem SameDelivery.of_work {s t : State} (h : t.work = s.work) (n : Nat) : SameDelivery n s t :=
  ⟨by rw [stream_of_work h], fun _ hkey => stored_of_work h hkey⟩

theorem SameDelivery.slot {n : Nat} {s t : State} (h : SameDelivery n s t) (i : Nat) : t.slot n i = s.slot n i := by
  unfold State.slot
  rw [h.dlv]

theorem endJobs_delivery (s : State) (p : Job → Bool) (n : Nat) : SameDelivery n s (s.endJobs p) :=
  ⟨by rw [endJobs_stream], fun _ hkey => endJobs_stored s p hkey⟩

theorem endIngestJob_delivery (s : State) (nsid idx status n : Nat) : SameDelivery n s (s.endIngestJob nsid idx status) := by
  unfold State.endIngestJob
  split
  · exact ⟨rfl, fun _ _ => rfl⟩
  · exact endJobs_delivery s _ n

theorem updCorpus_delivery (s : State) (nsid : Nat) (f : Corpus → Corpus) (n : Nat) : SameDelivery n s (s.updCorpus nsid f) := by
  rw [updCorpus_eq]
  exact ⟨rfl, fun _ _ => rfl⟩

theorem openSamples_delivery (s : State) (m n : Nat) (f : List Nat → List Nat) :
    SameDelivery n s (s.updStream m fun x => { x with openSamples := f x.openSamples }) := by
  refine ⟨?_, fun _ _ => rfl⟩
  rw [State.stream_updStream]
  split
  case isTrue h => rw [h]
  case isFalse => rfl

/-- R340: the job of an open sample has ended, and neither its corpus nor its stream `o` counts it as open. -/
def State.closeSample (s : State) (nsid idx status : Nat) (o : Option Nat) : State :=
  let closed := (s.endIngestJob nsid idx status).updCorpus nsid fun c => { c with open_ := Tbl.del c.open_ idx }
  match o with
  | some m => closed.updStream m fun x => { x with openSamples := x.openSamples.filter (· ≠ idx) }
  | none => closed

theorem closeSample_delivery (s : State) (nsid idx status n : Nat) (o : Option Nat) :
    SameDelivery n s (s.closeSample nsid idx status o) := by
  have hended := fun f => (endIngestJob_delivery s nsid idx status n).trans (updCorpus_delivery _ nsid f n)
  cases o with
  | some m => exact (hended _).trans (openSamples_delivery _ _ n _)
  | none => exact hended _

/-- R340: the end of an open sample of an ingest stream touches no slot and no setting. -/
theorem endSample_delivery (s : State) (nsid idx status n : Nat) : SameDelivery n s (s.endSample nsid idx status) := by
  unfold State.endSample
  split
  · exact .of_work rfl n
  · split
    · exact .of_work rfl n
    case h_2 o _ =>
      dsimp only
      have hclosed := closeSample_delivery s nsid idx status n o.stream
      split
      · exact hclosed.trans (.of_work (vendorDone_work _ _ _ _ _) n)
      · exact hclosed

theorem foldl_delivery {α : Type} {g : State → α → State} {n : Nat} (h : ∀ u x, SameDelivery n u (g u x)) (l : List α) (s : State) :
    SameDelivery n s (l.foldl g s) :=
  List.foldlRecOn (motive := SameDelivery n s) l g (.of_work rfl n) fun u hu x _ => hu.trans (h u x)

/-- R40: the samples that a stopped ingest stream gives up touch no slot and no setting. -/
theorem refuseIngest_delivery (s : State) (n m : Nat) : SameDelivery m s (s.refuseIngest n) :=
  foldl_delivery (fun _ _ => foldl_delivery (fun u _ => endSample_delivery u _ _ _ m) _ _) _ s

/-! ### Stop, reset and release (R39, R40) -/

theorem endRun_delivery (s : State) (n : Nat) : SameDelivery n s (s.endRun n) :=
  ⟨by rw [endRun_stream], fun _ hkey => endRun_stored s n hkey⟩

/-- R320: a stream that is changed beside its slots, which are then withdrawn. -/
theorem updStream_retireSlots (w : State) (n : Nat) {f : Stream → Stream} (hf : ∀ x, (f x).dlv.slots = x.dlv.slots) :
    (∃ l, ((w.updStream n f).retireSlots n).stream n = (f (w.stream n)).withSlots l) ∧
    ∀ i, i < w.stored (oSlotCount n) →
      (((w.updStream n f).retireSlots n).slot n i).state = if (w.slot n i).state = .ready then .ready else .retired := by
  have hstream : (w.updStream n f).stream n = f (w.stream n) := by rw [State.stream_updStream, if_pos rfl]
  have hslot : ∀ i, (w.updStream n f).slot n i = w.slot n i := fun i => by
    unfold State.slot
    rw [hstream, hf]
  refine ⟨?_, fun i hi => ?_⟩
  · rw [← hstream]
    exact (retireSlots_keeps _ n).1
  · rw [retireSlots_slot (w.updStream n f) n hi, hslot]

/-- R40: what a stop makes of a stream, its slots apart. -/
def Stream.stopped (x : Stream) : Stream :=
  { x with state := .loaded, draining := false, snapshot := none, armedAfter := x.armedAfter.map fun _ => 0
           run := { ingested := x.run.ingested }, dlv := { x.dlv with dlvSeq := 0 } }

theorem stopStream_eq (t : State) (n : Nat) :
    t.stopStream n = ((((t.endRun n).closeCredit n).refuseIngest n).updStream n Stream.stopped).retireSlots n := rfl

/-- R40: a stopped stream is LOADED without cursor and snapshot, and its slots are withdrawn. -/
theorem stopStream_spec (t : State) {n : Nat} (hn : n < 64) :
    let u := t.stopStream n
    (u.stream n).state = .loaded ∧ (u.stream n).snapshot = none ∧ (u.run n).hasCursor = false ∧
      ∀ i, i < t.stored (oSlotCount n) → (u.slot n i).state = if (t.slot n i).state = .ready then .ready else .retired := by
  have hkey := oSlotCount_untallied hn
  have hslots : ∀ i, (((t.endRun n).closeCredit n).refuseIngest n).slot n i = t.slot n i := fun i => by
    rw [(refuseIngest_delivery _ n n).slot, closeCredit_slot, (endRun_delivery t n).slot]
  have hcount : (((t.endRun n).closeCredit n).refuseIngest n).stored (oSlotCount n) = t.stored (oSlotCount n) := by
    rw [(refuseIngest_delivery _ n n).stored _ hkey, closeCredit_stored, (endRun_delivery t n).stored _ hkey]
  obtain ⟨⟨l, hstream⟩, hwithdrawn⟩ :=
    updStream_retireSlots (((t.endRun n).closeCredit n).refuseIngest n) n (f := Stream.stopped) fun _ => rfl
  rw [hcount] at hwithdrawn
  rw [← stopStream_eq] at hstream hwithdrawn
  dsimp only
  rw [State.run, hstream, withSlots_state, withSlots_snapshot, withSlots_run]
  exact ⟨rfl, rfl, rfl, fun i hi => by rw [hwithdrawn i hi, hslots]⟩

/-- R40: what a pipeline reset makes of a stream, its slots apart: it delivers next the batch with the number `seq`, and its run
stands at `kept` where a cursor is kept. -/
def Stream.rewound (seq : Nat) (kept : Option RunSt) (x : Stream) : Stream :=
  { x with state := .loaded, draining := false, dlv := { x.dlv with dlvSeq := seq }, run := kept.getD x.run }

/-- R40: the cursor that a pipeline reset keeps: that of a stream that has started, or that has one. -/
def State.keptRun (t : State) (n : Nat) : Option RunSt :=
  if (t.stream n).state.active || (t.run n).hasCursor then
    some { (t.run n).park false with toAdmit := t.ingestQueue n, batches := [] }
  else none

theorem resetStream_eq (t : State) (n : Nat) :
    t.resetStream n = ((t.endRun n).updStream n (Stream.rewound (t.nextDlvSeq n) (t.keptRun n))).retireSlots n := by
  unfold State.resetStream State.keptRun Stream.rewound
  dsimp only
  by_cases hkeep : ((t.stream n).state.active || (t.run n).hasCursor) = true
  · simp only [hkeep, if_true]; rfl
  · simp only [hkeep]; rfl

/-- R40: a stream that is reset is LOADED, keeps its cursor at the first batch not delivered where it had started, and its slots
are withdrawn. -/
theorem resetStream_spec (t : State) {n : Nat} (hn : n < 64) :
    let u := t.resetStream n
    (u.stream n).state = .loaded ∧
    ((t.stream n).state.active = true → (u.run n).hasCursor = true ∧ (u.run n).nextBatch = (t.run n).nextBatch) ∧
    ∀ i, i < t.stored (oSlotCount n) → (u.slot n i).state = if (t.slot n i).state = .ready then .ready else .retired := by
  obtain ⟨⟨l, hstream⟩, hwithdrawn⟩ :=
    updStream_retireSlots (t.endRun n) n (f := Stream.rewound (t.nextDlvSeq n) (t.keptRun n)) fun _ => rfl
  rw [(endRun_delivery t n).stored _ (oSlotCount_untallied hn)] at hwithdrawn
  rw [← resetStream_eq] at hstream hwithdrawn
  dsimp only
  rw [State.run, hstream, withSlots_state, withSlots_run]
  refine ⟨rfl, fun hactive => ?_, fun i hi => by rw [hwithdrawn i hi, (endRun_delivery t n).slot]⟩
  have hkept : t.keptRun n = some { (t.run n).park false with toAdmit := t.ingestQueue n, batches := [] } := by
    simp only [State.keptRun, hactive, Bool.true_or, if_true]
  rw [hkept]
  exact ⟨rfl, rfl⟩

theorem idleStream_stream (w : State) (n : Nat) :
    (w.idleStream n).stream n = { w.stream n with state := .idle, snapshot := none, run := {}, draining := false } := by
  unfold State.idleStream
  rw [State.stream_updStream, if_pos rfl]
  rfl

theorem idleStream_imageSlot (w : State) (n : Nat) : (w.idleStream n).stored (oImageSlot n) = 0xFF :=
  State.stored_store_self w (oImageSlot n) 0xFF

/-! ### Start (R39, R215, R218, R378, R420) -/

/-- What a start decides of a stream: its state, that it does not drain, and the settings in force. -/
def Stream.course (x : Stream) : StreamState × Bool × InForce := (x.state, x.draining, x.inForce)

/-- A change of a stream beside its course leaves the course of every stream. -/
theorem course_updStream (s : State) (n m : Nat) {f : Stream → Stream} (hf : ∀ x, (f x).course = x.course) :
    ((s.updStream n f).stream m).course = (s.stream m).course := by
  rw [State.stream_updStream]
  split
  case isTrue h => rw [hf, h]
  case isFalse => rfl

theorem course_updDlv (s : State) (n m : Nat) (f : DlvSt → DlvSt) : ((s.updDlv n f).stream m).course = (s.stream m).course :=
  course_updStream s n m fun _ => rfl

theorem course_updProt (s : State) (n m : Nat) (f : ProtSt → ProtSt) : ((s.updProt n f).stream m).course = (s.stream m).course :=
  course_updStream s n m fun _ => rfl

theorem exactLose_course (s : State) (m cause n : Nat) : ((s.exactLose m cause).stream n).course = (s.stream n).course := by
  unfold State.exactLose
  split
  · exact course_updStream s m n fun _ => rfl
  · rfl

theorem exactShared_course (s : State) (m n : Nat) : ((s.exactShared m).stream n).course = (s.stream n).course := by
  unfold State.exactShared
  refine List.foldlRecOn (motive := fun u : State => (u.stream n).course = (s.stream n).course) _ _ rfl fun u hu k _ => ?_
  split
  · exact (exactLose_course u k 8 n).trans hu
  · exact hu

theorem openCredit_course (s : State) (m granted n : Nat) : ((s.openCredit m granted).stream n).course = (s.stream n).course := by
  have hqp : ((s.ensureQp m).stream n).course = (s.stream n).course := course_updDlv _ m n _
  exact (course_updDlv _ m n _).trans hqp

theorem unprotect_course (s : State) (m cause n : Nat) : ((s.unprotect m cause).stream n).course = (s.stream n).course := by
  unfold State.unprotect
  rw [stream_of_work (recover_work _ _ _ _ _)]
  exact course_updProt s m n _

theorem sendSnapshot_course (s : State) (m n : Nat) : ((s.sendSnapshot m).stream n).course = (s.stream n).course := by
  have htaken : ((s.takeBoundary m).stream n).course = (s.stream n).course := course_updStream s m n fun _ => rfl
  exact (course_updProt _ m n _).trans htaken

theorem openSend_course (s : State) (m step n : Nat) : ((s.openSend m step).stream n).course = (s.stream n).course := by
  have hstep : ((s.updProt m fun p => { p with openStep := step }).stream n).course = (s.stream n).course :=
    course_updProt s m n _
  unfold State.openSend
  dsimp only
  repeat' split
  · exact hstep
  · exact hstep
  · exact hstep
  · exact (sendSnapshot_course _ m n).trans hstep

/-- R420: opening a mirror leaves the course of every stream. -/
theorem openMirror_course (s : State) (m n : Nat) : ((s.openMirror m).stream n).course = (s.stream n).course := by
  have hcleared : ((s.updProt m fun p => { p with cause := 0, ackedBatch := 0, unacked := [], moveTo := none }).stream n).course =
      (s.stream n).course := course_updProt s m n _
  unfold State.openMirror
  dsimp only
  repeat' split
  · exact (unprotect_course _ m 4 n).trans hcleared
  · exact (unprotect_course _ m 1 n).trans hcleared
  · exact hcleared
  · exact (openSend_course _ m 1 n).trans ((course_updProt _ m n _).trans hcleared)

/-- R39: a stream that starts is RUNNING with the settings written in force. -/
theorem startStream_course (t : State) (n : Nat) :
    ((t.startStream n).stream n).course = (.running, false, t.writtenSettings n) := by
  unfold State.startStream
  dsimp only
  rw [openMirror_course, exactShared_course]
  have hcredit : ∀ (w : State) (p : Prop) [Decidable p] (g : Nat),
      ((if p then w.openCredit n g else w).stream n).course = (w.stream n).course := fun w p _ g => by
    split
    · exact openCredit_course w n g n
    · rfl
  rw [hcredit, State.stream_updStream, if_pos rfl]
  rfl

/-! ### The commands in the states that R39's table gives -/

theorem startCmd_loaded {t : State} {n : Nat} (h : (t.stream n).state = .loaded) :
    (t.startCheck n = stSuccess → t.startCmd n = .ok (t.startStream n)) ∧
    (t.startCheck n ≠ stSuccess → t.startCmd n = .error (t.startCheck n)) := by
  constructor <;> intro hcheck <;> simp [State.startCmd, h, hcheck]

theorem startCmd_refused {t : State} {n : Nat} (h : (t.stream n).state ≠ .loaded) :
    t.startCmd n = .error (if (t.stream n).state = .moved then stMoved else stState) := by
  simp [State.startCmd, h]

theorem stopCmd_ok {t : State} {n : Nat} (hidle : (t.stream n).state ≠ .idle) (hmoved : (t.stream n).state ≠ .moved) :
    t.stopCmd n = .ok (t.stopStream n) ∧ t.resetCmd n = .ok (t.resetStream n) := by
  unfold State.stopCmd State.resetCmd
  cases hstate : (t.stream n).state <;> simp_all

theorem active_of_started {x : StreamState} (hidle : x ≠ .idle) (hmoved : x ≠ .moved) (hloaded : x ≠ .loaded) : x.active = true := by
  cases x <;> simp_all [StreamState.active]

end Sys2Proof.Machine

open Sys2Proof Sys2Proof.Machine in
/-- Settles O13: each command of CONTROL is answered by the row of R39's table that its stream's state selects; what a start, a stop
and a reset leave of the stream is read off their definitions. -/
theorem streamCommands : Obligations.StreamCommands := by
  unfold Obligations.StreamCommands
  refine ⟨fun s t r n role hn h hv hscrub => ?start, fun s t r n role hn h hscrub => ?pauseAndResume,
    fun s t r n role hn h hscrub => ?ends⟩
  case start =>
    rw [(exec_control hn h hscrub).1 hv]
    refine ⟨fun hloaded hcheck => ?_, fun hloaded hcheck => ?_, fun hmoved => ?_, fun hloaded hmoved => ?_⟩
    · rw [(startCmd_loaded hloaded).1 hcheck]
      have hcourse := startStream_course t n
      simp only [Stream.course, Prod.mk.injEq] at hcourse
      exact ⟨t.startStream n, ofExcept_ok_answered t _ r, hcourse⟩
    · rw [(startCmd_loaded hloaded).2 hcheck]; rfl
    · rw [startCmd_refused (by simp [hmoved]), if_pos hmoved]; rfl
    · rw [startCmd_refused hloaded, if_neg hmoved]; rfl
  case pauseAndResume =>
    obtain ⟨_, hpause, hresume, _⟩ := exec_control hn h hscrub
    refine ⟨fun hv => ?_, fun hv => ?_⟩
    · rw [hpause hv]
      refine ⟨fun hs => ?_, fun hs => ?_, fun hs => ?_, ?_⟩
      · simp only [State.pauseCmd, hs]; rfl
      · simp only [State.pauseCmd, hs]; rfl
      · simp only [State.pauseCmd, hs]; rfl
      · rintro (hs | hs | hs) <;> simp only [State.pauseCmd, hs] <;> rfl
    · rw [hresume hv]
      refine ⟨?_, ?_, fun hs => ?_, ?_⟩
      · rintro (hs | hs) hkeys <;> simp only [State.resumeCmd, hs, hkeys] <;> rfl
      · rintro (hs | hs) hkeys <;> simp only [State.resumeCmd, hs, hkeys] <;> rfl
      · simp only [State.resumeCmd, hs]; rfl
      · rintro (hs | hs | hs) <;> simp only [State.resumeCmd, hs] <;> rfl
  case ends =>
    obtain ⟨_, _, _, hstop, hreset, hrelease⟩ := exec_control hn h hscrub
    refine ⟨fun hv hidle hmoved => ?_, fun hv hidle hmoved => ?_, fun hv hmoved hready => ?_, fun hidle => ⟨fun hv => ?_, fun hv => ?_⟩,
      fun hv hrefused => ?_, fun hmoved => ⟨fun hv => ?_, fun hv => ?_⟩⟩
    · rw [hstop hv, (stopCmd_ok hidle hmoved).1]
      exact ⟨t.stopStream n, ofExcept_ok_answered t _ r, stopStream_spec t hn⟩
    · rw [hreset hv, (stopCmd_ok hidle hmoved).2]
      obtain ⟨hstate, hcursor, hslots⟩ := resetStream_spec t hn
      exact ⟨t.resetStream n, ofExcept_ok_answered t _ r, hstate, fun hloaded => hcursor (active_of_started hidle hmoved hloaded), hslots⟩
    · have hok : t.releaseCmd n = .ok ((t.closeCredit n).idleStream n) := by simp [State.releaseCmd, hmoved, hready]
      rw [hrelease hv, hok]
      exact ⟨(t.closeCredit n).idleStream n, ofExcept_ok_answered t _ r, by rw [idleStream_stream], idleStream_imageSlot _ n⟩
    · simp only [hstop hv, State.stopCmd, hidle]; rfl
    · simp only [hreset hv, State.resetCmd, hidle]; rfl
    · have hno : t.releaseCmd n = .error stState := by
        unfold State.releaseCmd
        rcases hrefused with hmoved | hready
        · rw [if_pos hmoved]
        · simp [hready]
      rw [hrelease hv, hno]; rfl
    · simp only [hstop hv, State.stopCmd, hmoved]; rfl
    · simp only [hreset hv, State.resetCmd, hmoved]; rfl
end

section
/-! The settings of a stream, the unloading of an image and the load of one (R27, R30, R46 to R51, R192, R338). -/

namespace Sys2Proof.Machine

open Sys2Proof

/-! ## The settings (R46 to R51, R192) -/

section Settings

variable {s t : State} {r : OdReq} {n : Nat} {role : Role} (hn : n < 64)
include hn

theorem exec_imageSlotWrite (h : s.ReceivesWrite r (oImageSlot n) role t) : exec (.imageSlotWrite r n) s =
    (acceptIf (t.imageSlotOk n (leNat r.data)) t (t.setImageSlot n (leNat r.data))).answered r :=
  streamRow_answered hn (u := 0x01) (own := fun _ => true) (by decide) h rfl

theorem exec_splitModeWrite (h : s.ReceivesWrite r (oSplitMode n) role t) : exec (.splitModeWrite r n false) s =
    (acceptIf (t.splitModeOk n (leNat r.data)) t (t.store (oSplitMode n) (leNat r.data))).answered r :=
  streamRow_answered hn (u := 0x07) (own := fun _ => true) (by decide) h rfl

theorem exec_splitCutWrite (h : s.ReceivesWrite r (oSplitCut n) role t) : exec (.splitModeWrite r n true) s =
    (acceptIf (t.splitCutOk n (leNat r.data)) t (t.store (oSplitCut n) (leNat r.data))).answered r :=
  streamRow_answered hn (u := 0x08) (own := fun _ => true) (by decide) h rfl

theorem exec_clockExactWrite (h : s.ReceivesWrite r (oClockExact n) role t) : exec (.clockExactWrite r n) s =
    (acceptIf (t.clockExactOk n (leNat r.data)) t (t.store (oClockExact n) (leNat r.data))).answered r :=
  streamRow_answered hn (u := 0x0C) (own := fun _ => true) (by decide) h rfl

theorem exec_threshEpochWrite (h : s.ReceivesWrite r (oThreshEpoch n) role t) :
    exec (.threshEpochWrite r n) s = (t.armThresholds n (leNat r.data)).wroteOk r :=
  streamRow_answered hn (u := 0x1B) (own := fun _ => true) (by decide) h rfl

end Settings

/-- R51: IMAGE_SLOT 0xFF leaves the stream IDLE, another image than before leaves it LOADED, and the value is the one written. -/
theorem setImageSlot_spec (t : State) (n v : Nat) :
    (t.setImageSlot n v).stored (oImageSlot n) = v ∧
    (v = 0xFF → ((t.setImageSlot n v).stream n).state = .idle) ∧
    (v ≠ 0xFF → v ≠ t.stored (oImageSlot n) → ((t.setImageSlot n v).stream n).state = .loaded) := by
  unfold State.setImageSlot
  by_cases hnone : v = 0xFF
  · rw [if_pos hnone, idleStream_imageSlot, idleStream_stream]
    exact ⟨hnone.symm, fun _ => rfl, fun h => absurd hnone h⟩
  · rw [if_neg hnone]
    by_cases hsame : v = t.stored (oImageSlot n)
    · rw [if_pos hsame]
      exact ⟨hsame.symm, fun h => absurd h hnone, fun _ h => absurd hsame h⟩
    · rw [if_neg hsame]
      dsimp only
      obtain ⟨⟨l, hstream⟩, -⟩ := updStream_retireSlots ((t.closeCredit n).store (oImageSlot n) v) n
        (f := fun x => { x.loadThresholds with state := .loaded, snapshot := none, run := {} }) fun _ => rfl
      rw [hstream, retireSlots_stored, withSlots_state]
      exact ⟨State.stored_store_self (t.closeCredit n) _ v, fun h => absurd h hnone, fun _ _ => rfl⟩

/-- R192: THRESH_EPOCH arms the staged set, or none for 0xFFFF_FFFF, and leaves the set in force. -/
theorem armThresholds_spec (t : State) (n v : Nat) :
    (t.armThresholds n v).stored (oThreshEpoch n) = v ∧
    (((t.armThresholds n v).stream n).armedAfter = none ↔ v = 0xFFFFFFFF) ∧
    ((t.armThresholds n v).stream n).force = (t.stream n).force := by
  unfold State.armThresholds
  dsimp only
  rw [State.stream_updStream, if_pos rfl]
  refine ⟨State.stored_store_self t _ v, ?_, rfl⟩
  by_cases hnone : v = 0xFFFFFFFF <;> simp [hnone]

/-! ## UNLOAD (R30, R420) -/

theorem isLimited_oUnload : ∀ k < 16, isLimited (oUnload k) = false := by decide +kernel

theorem applyObject_oUnload (t : State) (src : OdSource) (role : Role) {k : Nat} (hk : k < 16) (v : Nat) (data : Bytes) :
    t.applyObject src role (oUnload k) v data = t.unload k := by
  have hidx : oUnload k / 256 = 0x2010 + k := by unfold oUnload; omega
  have hoff : t.objectOff (0x2010 + k) = false := by
    unfold State.objectOff
    rw [if_neg (by simp only [Bool.and_eq_true, decide_eq_true_eq]; omega),
      if_neg (by simp only [Bool.and_eq_true, decide_eq_true_eq]; omega)]
  have hslot : (0x2010 ≤ 0x2010 + k && 0x2010 + k < 0x2020) = true := by
    simp only [Bool.and_eq_true, decide_eq_true_eq]; omega
  unfold State.applyObject
  rw [hidx]
  simp only [hoff, hslot, Bool.false_eq_true, if_false, if_true, Nat.add_sub_cancel_left,
    show ¬ 0x2010 + k < 0x1140 by omega, show ¬ 0x2010 + k < 0x1400 by omega, show ¬ 0x2010 + k < 0x2000 by omega]

theorem exec_unload {s t : State} {r : OdReq} {k : Nat} {role : Role} (hk : k < 16) (h : s.ReceivesWrite r (oUnload k) role t) :
    exec (.unload r k) s = (t.unload k).answered r := by
  have hkey : oUnload k < 2 ^ 24 := by unfold oUnload; omega
  have hblock : blockKey (decide (k < 16)) (oUnload k) = oUnload k := by simp [blockKey, hk]
  have hrow : exec (.unload r k) s = odRow (blockKey (decide (k < 16)) (oUnload k)) (fun _ => true) r s := rfl
  rw [hrow, hblock, odRow_answered h rfl hkey (isLimited_oUnload k hk), applyObject_oUnload t _ _ hk]

theorem image_set (t : State) (k j : Nat) (i : ImageSlot) :
    State.image { t with images := Tbl.set t.images k i } j = if j = k then i else t.image j :=
  Tbl.get_set ..

/-! ## PIPELINE_LOAD (R27, R338) -/

/-- R338: what a piece of an image load that follows on comes to, in a controller that takes the command. -/
theorem exec_pipelineLoad {s : State} {c : NvmeCmd} {a : Assembly} (hrm : s.rm0Serves = true) (h : s.TakesCommand true c)
    (hlen : c.data.length ≤ 262144)
    (htake : Assembly.take (Tbl.find (s.nvmeTake c).host.loads (bits c.cdw13 1 0)) c.cdw10 c.cdw11 (s.nvmeTake c).gtc c.data = some a) :
    exec (.pipelineLoad c) s = .next (
      if !bit c.cdw12 0 then ((s.nvmeTake c).setLoad (bits c.cdw13 1 0) (some a)).vendorDone c stSuccess none []
      else if a.data.length ≠ a.total then
        ((s.nvmeTake c).setLoad (bits c.cdw13 1 0) none).vendorDone c stImageMalformed none []
      else
        let w := ((s.nvmeTake c).setLoad (bits c.cdw13 1 0) none).loadWhole a.data
        w.2.2.vendorDone c w.1 (if w.1 = stSuccess then some w.2.1 else none) []) := by
  have hserves : s.rmRuns 0 = true ∧ (s.sys.step = 0 ∨ 5 ≤ s.sys.step) := by
    simp only [State.rm0Serves, Bool.and_eq_true, Bool.or_eq_true, beq_iff_eq, decide_eq_true_eq] at hrm
    exact ⟨hrm.1.2, hrm.2⟩
  have hrow : exec (.pipelineLoad c) s = execPipelineLoad c s := rfl
  rw [hrow, execPipelineLoad, whenRm_runs _ h.up hserves.1 hserves.2, nvmeRun_takes _ h]
  dsimp only
  rw [if_neg (show ¬ vendorMax < c.data.length from Nat.not_lt.mpr hlen), htake]

/-- R27: an image that passes the checks is kept in the slot that takes it; a slot that held it already keeps it. -/
theorem loadWhole_accepted {m : State} {b : Bytes} {k : Nat} (hscrub : m.scrubs (imageTenant { image := b }) = false)
    (h : m.acceptImage b = .ok k) :
    ∃ i : ImageSlot, m.loadWhole b = (stSuccess, k, { m with images := Tbl.set m.images k i }) ∧ i.loadStatus = stSuccess ∧
      (m.hasImage k = false → i.image = b) := by
  unfold State.loadWhole State.loadImage
  simp only [hscrub, h]
  refine ⟨_, rfl, ?_, fun hfree => by rw [hfree]; rfl⟩
  split <;> rfl

theorem loadWhole_refused {m : State} {b : Bytes} {e : Nat} (hscrub : m.scrubs (imageTenant { image := b }) = false)
    (h : m.acceptImage b = .error e) : m.loadWhole b = (e, 0, m) := by
  unfold State.loadWhole State.loadImage
  simp only [hscrub, h]
  rfl

end Sys2Proof.Machine

open Sys2Proof Sys2Proof.Machine in
/-- Settles O14: each setting is answered by its rule, UNLOAD by the condition of R30, and a piece of an image load by R27 and R338. -/
theorem streamSettingsAndImages : Obligations.StreamSettingsAndImages := by
  unfold Obligations.StreamSettingsAndImages
  refine ⟨fun s t r n role => ⟨fun hn h => ?imageSlot, fun hn h => ?splitMode, fun hn h => ?splitCut, fun hn h => ?clockExact,
    fun hn h => ?thresholds, fun hn h => ?unload⟩, fun s c a hrm h hlen htake => ?load⟩
  case imageSlot =>
    obtain ⟨hok, hno⟩ := acceptIf_answered (t.imageSlotOk n (leNat r.data)) t (t.setImageSlot n (leNat r.data)) r
    rw [exec_imageSlotWrite hn h]
    exact ⟨fun hrule => ⟨_, hok hrule, setImageSlot_spec t n _⟩, hno⟩
  case splitMode =>
    rw [exec_splitModeWrite hn h]
    exact acceptIf_answered ..
  case splitCut =>
    rw [exec_splitCutWrite hn h]
    exact acceptIf_answered ..
  case clockExact =>
    rw [exec_clockExactWrite hn h]
    exact acceptIf_answered ..
  case thresholds =>
    exact ⟨_, exec_threshEpochWrite hn h, armThresholds_spec t n _⟩
  case unload =>
    rw [exec_unload hn h, State.unload]
    refine ⟨fun himage huse hpins => ⟨_, (acceptIf_answered _ t _ r).1 (by simp [himage, huse, hpins]), ?_, fun k hk => ?_⟩,
      fun hrefused => (acceptIf_answered _ t _ r).2 ?_⟩
    · rw [image_set, if_pos rfl]
    · rw [image_set, if_neg hk]
    · rcases hrefused with himage | huse | hpins
      · simp [himage]
      · simp [huse]
      · simp [hpins]
  case load =>
    rw [exec_pipelineLoad hrm h hlen htake]
    refine ⟨fun hpiece => by simp [hpiece], fun hlast hwhole hscrub => ?_, fun hlast hshort => by simp [hlast, hshort]⟩
    simp only [hlast, hwhole, ne_eq, not_true_eq_false, if_false, Bool.not_true, Bool.false_eq_true]
    have hscrub' : ((s.nvmeTake c).setLoad (bits c.cdw13 1 0) none).scrubs (imageTenant { image := a.data }) = false := hscrub
    refine ⟨fun k haccept => ?_, fun e hreject he => ?_⟩
    · obtain ⟨i, hloaded, hstatus, hfree⟩ := loadWhole_accepted hscrub' haccept
      refine ⟨_, by rw [hloaded, if_pos rfl], ?_, ?_, fun j hj => ?_⟩
      · rw [image_set, if_pos rfl]
        exact hstatus
      · rw [image_set, if_pos rfl]
        exact hfree
      · rw [image_set, if_neg hj]
        rfl
    · rw [loadWhole_refused hscrub' hreject, if_neg he]
end

section
/-! JOB_ADMIT (R34, R38, R48, R263): the start of FETCH stages, and the admission of the first job of the stream that is served next. -/

namespace Sys2Proof.Machine

open Sys2Proof

/-! ## What a reservation leaves (R44, R263, R268) -/

/-- The jobs, the domains and the runs of the streams are in two states the same. -/
structure SameRuns (s t : State) : Prop where
  jobs : t.jobs = s.jobs
  domains : t.domains = s.domains
  run : ∀ n, t.run n = s.run n

theorem SameRuns.refl (s : State) : SameRuns s s := ⟨rfl, rfl, fun _ => rfl⟩

theorem SameRuns.trans {s t u : State} (h : SameRuns s t) (h' : SameRuns t u) : SameRuns s u :=
  ⟨h'.jobs.trans h.jobs, h'.domains.trans h.domains, fun n => (h'.run n).trans (h.run n)⟩

theorem SameRuns.of_work {s t : State} (h : t.work = s.work) : SameRuns s t :=
  ⟨jobs_of_work h, domains_of_work h, fun n => congrArg Stream.run (stream_of_work h n)⟩

theorem run_updExact (s : State) (m n : Nat) (f : ExactSt → ExactSt) : (s.updExact m f).run n = s.run n := by
  unfold State.run
  rw [State.stream_updExact]
  split
  case isTrue h => rw [h]
  case isFalse => rfl

theorem exactLose_runs (s : State) (m cause : Nat) : SameRuns s (s.exactLose m cause) := by
  unfold State.exactLose
  split
  · exact ⟨rfl, rfl, fun n => run_updExact s m n _⟩
  · exact .refl s

theorem reserveOne_runs {s s' : State} {r cls caravan k n at_ : Nat} (h : s.reserveOne r cls caravan k n = some (s', at_)) :
    SameRuns s s' := by
  have htaken : ∀ a, SameRuns s (s.takeBufs r caravan k a n) := fun a => .of_work (takeBufs_work s r caravan k a n)
  have hspilled : ∀ a, SameRuns s ((s.takeBufs r caravan k a n).updPool k fun x => { x with spills := x.spills + 1 }) := fun a =>
    (htaken a).trans (.of_work rfl)
  unfold State.reserveOne at h
  split at h
  · cases h
  · split at h
    · cases h
    · split at h
      · split at h
        · simp only [Option.some.injEq, Prod.mk.injEq] at h
          rw [← h.1]
          split
          · exact (hspilled _).trans (exactLose_runs _ r 4)
          · exact hspilled _
        · cases h
      · simp only [Option.some.injEq, Prod.mk.injEq] at h
        rw [← h.1]
        exact htaken _

theorem reserveAll_runs {r cls caravan : Nat} {l : List (Nat × Nat)} {s s' : State} {res : List (Nat × Nat × Nat)}
    (h : State.reserveAll r cls caravan l s = some (s', res)) : SameRuns s s' := by
  induction l generalizing s res with
  | nil =>
    simp only [State.reserveAll, Option.some.injEq, Prod.mk.injEq] at h
    rw [← h.1]
    exact .refl s
  | cons e l ih =>
    unfold State.reserveAll at h
    split at h
    · exact ih h
    · split at h
      · cases h
      case h_2 u at_ hone =>
        obtain ⟨q, hrest, hq⟩ := Option.map_eq_some_iff.mp h
        simp only [Prod.mk.injEq] at hq
        exact (reserveOne_runs hone).trans (ih (res := q.2) (by rw [hrest, ← hq.1]))

/-- R263: a reservation takes buffers and may end a stream's clock-exact guarantee. -/
theorem reserveJob_runs {s s' : State} {r cls caravan : Nat} {ds : List Desc} {res : List (Nat × Nat × Nat)}
    (h : s.reserveJob r cls caravan ds = some (s', res)) : SameRuns s s' := by
  unfold State.reserveJob at h
  split at h
  · exact reserveAll_runs h
  · cases h

/-- R45: the choice of a host set draws at most a free value. -/
theorem hostSetFor_runs (s : State) (n : Nat) (f : Nat × Nat) : SameRuns s (s.hostSetFor n f).2 := by
  unfold State.hostSetFor
  dsimp only
  split
  · exact .refl s
  · split
    · exact .refl s
    · split
      · exact .refl s
      · exact .of_work rfl

/-! ## One admission (R38, R48) -/

theorem takeTokens_eq (s : State) (q n : Nat) (c : Tint) : s.takeTokens q n c = { s with queues := (s.takeTokens q n c).queues } := by
  unfold State.takeTokens
  split
  · rfl
  · cases c <;> rfl

/-- R385, R392, R413: the shaper's tokens, the wait of a queue and the domains that a job keeps awake touch no job and no stream. -/
theorem admit_keeps (s : State) (c q since d e : Nat) :
    let t := (((s.shaperAdmit c).leave q since).touch d).touch e
    t.jobs = s.jobs ∧ t.streams = s.streams ∧ t.lastServed = s.lastServed := by
  have hshaped : ∃ l, (s.shaperAdmit c).leave q since = { s with queues := l } := by
    unfold State.shaperAdmit
    rw [takeTokens_eq]
    exact ⟨_, rfl⟩
  obtain ⟨l, hl⟩ := hshaped
  dsimp only
  rw [hl, touch_eq, touch_eq]
  exact ⟨rfl, rfl, rfl⟩

/-- R216, R396: the release slot that an admission takes and the count of a missing reserved core touch no job and no queue of jobs. -/
theorem noteAdmission_keeps (s : State) (n key : Nat) (slotTaken short : Prop) [Decidable slotTaken] [Decidable short]
    (f : ExactSt → ExactSt) :
    (if short then (if slotTaken then s.updExact n f else s).count key 1 else (if slotTaken then s.updExact n f else s)).jobs = s.jobs ∧
    (if short then (if slotTaken then s.updExact n f else s).count key 1
      else (if slotTaken then s.updExact n f else s)).lastServed = s.lastServed ∧
    (if short then (if slotTaken then s.updExact n f else s).count key 1
      else (if slotTaken then s.updExact n f else s)).run n = s.run n := by
  have hslot : (if slotTaken then s.updExact n f else s).jobs = s.jobs ∧
      (if slotTaken then s.updExact n f else s).lastServed = s.lastServed ∧
      (if slotTaken then s.updExact n f else s).run n = s.run n := by
    split
    · exact ⟨rfl, rfl, run_updExact s n n f⟩
    · exact ⟨rfl, rfl, rfl⟩
  split <;> exact hslot

/-- R34, R38: a stream whose checks hold has its first job admitted in class c, and is the stream that the class served last. -/
theorem tryAdmit_spec {s t : State} {c n : Nat} (h : s.tryAdmit c n = some t) :
    ∃ (j : Job) (w : ToRun) (rest : List ToRun), (s.run n).toAdmit = w :: rest ∧ t.jobs = s.jobs ++ [j] ∧ j.stream = n ∧ j.cls = c ∧
      j.pos = w.pos ∧ j.sample = w.sample ∧ j.attempts = 1 ∧ j.state = (if s.flashOn then .fetching else .admitted) ∧
      (t.run n).toAdmit = rest ∧ Tbl.get t.lastServed 63 c = n := by
  unfold State.tryAdmit at h
  dsimp only at h
  split at h; · cases h
  split at h; · cases h
  split at h; · cases h
  split at h; · cases h
  case _ w rest hqueue =>
  split at h; · cases h
  case _ car core short hplace =>
  split at h; · cases h
  case _ s1 res hreserve =>
  have hruns := (reserveJob_runs hreserve).trans (hostSetFor_runs s1 n (s1.splitFor n w))
  generalize (s1.hostSetFor n (s1.splitFor n w)).2 = s2 at h hruns
  have hflash : s2.flashOn = s.flashOn := by
    unfold State.flashOn State.domain
    rw [hruns.domains]
  simp only [Option.some.injEq] at h
  obtain ⟨hjobs, hstreams, hserved⟩ := admit_keeps _ c (128 + c) w.since (carDomain car) 2
  rw [h] at hjobs hstreams hserved
  have hrun : ∀ u : State, t.streams = u.streams → t.run n = u.run n := fun u hu => by
    unfold State.run State.stream
    rw [hu]
  replace hstreams := hrun _ hstreams
  rw [(noteAdmission_keeps _ n _ _ _ _).1] at hjobs
  rw [(noteAdmission_keeps _ n _ _ _ _).2.1] at hserved
  rw [(noteAdmission_keeps _ n _ _ _ _).2.2] at hstreams
  refine ⟨_, w, rest, hqueue, hjobs.trans (by rw [State.updRun_jobs, hruns.jobs]), rfl, rfl, rfl, rfl, rfl, ?_, ?_, ?_⟩
  · simp only [hflash]
  · rw [hstreams, State.run, State.stream_updRun, if_pos rfl]
  · rw [hserved, State.updRun_lastServed]
    exact Tbl.get_set_self ..

/-! ## The decision (R38, R385) -/

theorem startFetches_jobs (s : State) : s.startFetches.jobs =
    s.jobs.map fun j => if s.flashOn = true ∧ j.state = .admitted then { j with state := .fetching } else j := by
  unfold State.startFetches
  by_cases hflash : s.flashOn = true <;> simp [hflash]

theorem startFetches_keeps (s : State) : s.startFetches = { s with jobs := s.startFetches.jobs } := by
  unfold State.startFetches
  split <;> rfl

theorem startFetches_flashOn (s : State) : s.startFetches.flashOn = s.flashOn := by
  rw [startFetches_keeps]
  rfl

theorem startFetches_run (s : State) (n : Nat) : s.startFetches.run n = s.run n := by
  rw [startFetches_keeps]
  rfl

theorem exec_jobAdmit {s : State} (hserving : s.serving = true) (hflush : s.sys.flush = none) :
    exec .jobAdmit s = .next s.startFetches.admitNext := by
  have hup : s.up = true := by
    simp only [State.serving, Bool.and_eq_true] at hserving
    exact hserving.1
  have hrow : exec .jobAdmit s = execJobAdmit s := rfl
  rw [hrow, execJobAdmit, whenUp_runs _ hup]
  simp [hserving, hflush]

theorem exec_jobAdmit_waits {s : State} (h : s.serving = false ∨ s.sys.flush ≠ none) : exec .jobAdmit s = .next s := by
  have hno : (s.serving && s.sys.flush.isNone) = false := by
    rcases h with h | h
    · simp [h]
    · simp [Option.isSome_iff_ne_none.mpr h, ← Option.not_isSome]
  have hrow : exec .jobAdmit s = execJobAdmit s := rfl
  rw [hrow, execJobAdmit, whenUp]
  split
  · simp [hno]
  · rfl

/-- R38: what one class admits, when its limit, its shaper and its streams allow it. -/
def State.admitIn (s : State) (c : Nat) : Option State :=
  if c = 0 && Config.maxS0Jobs ≤ s.jobsS0 then none
  else if c ≠ 0 && Config.maxOtherJobs ≤ s.jobsInFlight - s.jobsS0 then none
  else if !s.shaperAllows c (((List.range 8).filter fun c => !(s.roundRobin c).isEmpty).filter (· < c)) then none
  else (s.roundRobin c).findSome? (s.tryAdmit c)

theorem admitNext_eq (s : State) : s.admitNext = ((List.range 8).findSome? s.admitIn).getD s := by
  unfold State.admitNext
  dsimp only
  split
  case h_1 t h =>
    have hfirst : (List.range 8).findSome? s.admitIn = some t := h
    rw [hfirst, Option.getD_some]
  case h_2 h =>
    have hnone : (List.range 8).findSome? s.admitIn = none := h
    rw [hnone, Option.getD_none]

theorem admitIn_empty {s : State} {c : Nat} (h : s.roundRobin c = []) : s.admitIn c = none := by
  unfold State.admitIn
  rw [h]
  simp

/-- R38, R385: the lowest class with a stream to serve admits the first job of the stream that is served next. -/
theorem admitIn_first {s t : State} {c n : Nat} {rest : List Nat} (hbelow : ∀ b, b < c → s.roundRobin b = [])
    (hnext : s.roundRobin c = n :: rest) (hadmit : s.tryAdmit c n = some t) (hshaper : s.shaperAllows c [] = true)
    (hS0 : c = 0 → s.jobsS0 < 512) (hother : c ≠ 0 → s.jobsInFlight - s.jobsS0 < 7680) : s.admitIn c = some t := by
  have hlower : ((List.range 8).filter fun b => !(s.roundRobin b).isEmpty).filter (· < c) = [] := by
    refine List.filter_eq_nil_iff.mpr fun b hb => ?_
    obtain ⟨_, hwaits⟩ := List.mem_filter.mp hb
    intro hlt
    rw [hbelow b (of_decide_eq_true hlt)] at hwaits
    cases hwaits
  have hS0' : (c = 0 && Config.maxS0Jobs ≤ s.jobsS0) = false :=
    Bool.and_eq_false_imp.mpr fun hc => decide_eq_false (Nat.not_le.mpr (hS0 (of_decide_eq_true hc)))
  have hother' : (c ≠ 0 && Config.maxOtherJobs ≤ s.jobsInFlight - s.jobsS0) = false :=
    Bool.and_eq_false_imp.mpr fun hc => decide_eq_false (Nat.not_le.mpr (hother (of_decide_eq_true hc)))
  unfold State.admitIn
  rw [hlower, hshaper, hS0', hother', hnext]
  simp [hadmit]

theorem findSome_range_first {α : Type} {f : Nat → Option α} {c k : Nat} {x : α} (hc : c < k) (hbelow : ∀ b, b < c → f b = none)
    (hfirst : f c = some x) : (List.range k).findSome? f = some x := by
  obtain ⟨d, rfl⟩ := Nat.exists_eq_add_of_lt hc
  refine List.findSome?_eq_some_iff.mpr ⟨List.range c, c, (List.range d).map (c + 1 + ·), ?_, hfirst, fun b hb =>
    hbelow b (List.mem_range.mp hb)⟩
  rw [Nat.add_right_comm, List.range_add, List.range_succ, List.append_assoc]
  rfl

end Sys2Proof.Machine

open Sys2Proof Sys2Proof.Machine in
/-- Settles O15: the lowest class with a stream to serve decides, and its first stream is admitted where its checks hold. That an
admitted job goes to FETCHING only while FLASH is ON, and else stays ADMITTED, is the model's choice (log entry 140). -/
theorem jobAdmission : Obligations.JobAdmission := by
  unfold Obligations.JobAdmission
  refine ⟨fun s h => exec_jobAdmit_waits h, fun s hserving hflush hempty => ?none,
    fun s t c n rest hserving hflush hc hbelow hnext hadmit hshaper hS0 hother => ?first⟩
  case none =>
    have hnone : (List.range 8).findSome? s.startFetches.admitIn = none :=
      List.findSome?_eq_none_iff.mpr fun c hc => admitIn_empty (hempty c (List.mem_range.mp hc))
    rw [exec_jobAdmit hserving hflush, admitNext_eq, hnone]
    rfl
  case first =>
    have hdecided := findSome_range_first hc (fun b hb => admitIn_empty (hbelow b hb))
      (admitIn_first hbelow hnext hadmit hshaper hS0 hother)
    obtain ⟨j, w, later, hqueue, hjobs, hstream, hcls, hpos, hsample, hattempts, hstate, hleft, hserved⟩ := tryAdmit_spec hadmit
    rw [startFetches_run] at hqueue
    rw [startFetches_flashOn] at hstate
    refine ⟨by rw [exec_jobAdmit hserving hflush, admitNext_eq, hdecided]; rfl, j, w, ?_, ?_, hstream, hcls, hpos, hsample, hattempts,
      hstate, ?_, hserved⟩
    · rw [hjobs, startFetches_jobs]
    · rw [hqueue]; rfl
    · rw [hleft, hqueue]; rfl
end

section
/-! What reset leaves (R39, R258, R411, R417, R444, R506, R519; log entry 1). -/

namespace Sys2Proof.Machine

open Sys2Proof

/-- R7: with nothing written an object holds its fixed default, or else the default of its row. -/
theorem reset_stored (key : Nat) : State.reset.stored key = (fixedDefault key).getD (((rowOf key).map OdRow.dflt).getD 0) := by
  have hunwritten : Tbl.find State.reset.od key = none := rfl
  unfold State.stored
  rw [hunwritten]
  cases fixedDefault key with
  | some v => rfl
  | none => cases rowOf key <;> rfl

theorem reset_poolPlace : ∀ p < 64, State.reset.stored (oPoolPlace p) = 0 := by decide +kernel

theorem reset_portRole : ∀ k < 8, State.reset.stored (oPortRole k) = if k < 6 then 0 else 1 := by decide +kernel

theorem reset_imageSlot : ∀ n < 64, State.reset.stored (oImageSlot n) = 0xFF ∧ State.reset.stored (oClockExact n) = 0 := by
  decide +kernel

theorem reset_domains : ∀ d < 3, (State.reset.domain d).state = 2 := by decide

theorem reset_hasImage (k : Nat) : State.reset.hasImage k = false := by
  have hempty : (State.reset.image k).image = [] := rfl
  simp [State.hasImage, hempty]

end Sys2Proof.Machine

open Sys2Proof Sys2Proof.Machine in
/-- Settles O56: nothing is listed in the tables of the reset state but the three domains that start-up powers, so every part reads as
its default; where the spec gives no reset value that is zero or empty by the model's choice (log entry 1). -/
theorem resetLeaves : Obligations.ResetLeaves := by
  unfold Obligations.ResetLeaves
  refine ⟨rfl, rfl, rfl, rfl, rfl, rfl, rfl, rfl, rfl, rfl, fun _ => rfl, reset_hasImage, fun _ => ⟨rfl, rfl⟩,
    fun p hp => ⟨reset_poolPlace p hp, rfl⟩, reset_domains, fun k hk => ⟨rfl, reset_portRole k hk⟩, reset_imageSlot, ?_, ?_, rfl,
    fun key r hrow hfixed => ?_⟩
  · decide +kernel
  · decide +kernel
  · rw [reset_stored, hfixed, hrow]
    rfl
end

section
/-! The end of a stage's operation and of a codec engine's block (R34 to R36, R174, R546). -/

namespace Sys2Proof.Machine

open Sys2Proof

/-! ## STAGE_COMPLETE: what stops it and what runs (R34, R546) -/

theorem exec_stageComplete_eq (id stage : Nat) (o : Option Nat) (s : State) :
    exec (.stageComplete id stage o) s = execStageComplete id stage o s := rfl

theorem exec_stageComplete_noJob {s : State} {id : Nat} (h : s.job id = none) (stage : Nat) (o : Option Nat) :
    exec (.stageComplete id stage o) s = .next s := by
  rw [exec_stageComplete_eq, execStageComplete, whenUp]
  split
  · simp only [h]
  · rfl

theorem exec_stageComplete_down {s : State} (hup : s.up = false) (id stage : Nat) (o : Option Nat) :
    exec (.stageComplete id stage o) s = .next s := by
  rw [exec_stageComplete_eq, execStageComplete, whenUp_down _ hup]

/-- R34, R216, R413: a stage does not run now: it is not the job's to run, awaits its release, or its domain does not run. -/
def State.stageWaits (s : State) (j : Job) (d : Desc) : Bool :=
  !j.running (s.toCorpus j.stream) d || s.waitsRelease j d || (d.type = tFetch && !s.flashOn) ||
    (j.onCaravan d && (s.domain (carDomain j.caravan)).state ≠ 0)

theorem stageWaits_iff (s : State) (j : Job) (d : Desc) : s.stageWaits j d = true ↔
    j.running (s.toCorpus j.stream) d = false ∨ s.waitsRelease j d = true ∨ (d.type = tFetch ∧ s.flashOn = false) ∨
      (j.onCaravan d = true ∧ (s.domain (carDomain j.caravan)).state ≠ 0) := by
  simp [State.stageWaits, or_assoc]

theorem stageWaits_runs {s : State} {j : Job} {d : Desc} (hrunning : j.running (s.toCorpus j.stream) d = true)
    (hrelease : s.waitsRelease j d = false) (hflash : d.type = tFetch → s.flashOn = true)
    (hcar : j.onCaravan d = true → (s.domain (carDomain j.caravan)).state = 0) : s.stageWaits j d = false := by
  rw [← Bool.not_eq_true, stageWaits_iff]
  rintro (h | h | ⟨htype, hoff⟩ | ⟨hon, hoff⟩)
  · simp [hrunning] at h
  · simp [hrelease] at h
  · simp [hflash htype] at hoff
  · exact hoff (hcar hon)

/-- R32, R174: a stage that ends by itself, a kernel at HALT and codec blocks when they are coded. -/
def Job.endsByItself (j : Job) (d : Desc) (stage : Nat) : Bool :=
  d.type = tKernel || d.type = tScore || (j.onCodec d && !j.coded.contains stage)

theorem endsByItself_iff (j : Job) (d : Desc) (stage : Nat) :
    j.endsByItself d stage = true ↔ d.type = tKernel ∨ d.type = tScore ∨ (j.onCodec d = true ∧ stage ∉ j.coded) := by
  simp [Job.endsByItself, or_assoc]

theorem endsByItself_no {j : Job} {d : Desc} {stage : Nat} (hkernel : d.type ≠ tKernel) (hscore : d.type ≠ tScore)
    (hcoded : j.onCodec d = true → stage ∈ j.coded) : j.endsByItself d stage = false := by
  rw [← Bool.not_eq_true, endsByItself_iff]
  rintro (h | h | ⟨hcodec, hleft⟩)
  · exact hkernel h
  · exact hscore h
  · exact hleft (hcoded hcodec)

section Stage

variable {s : State} {id stage : Nat} {j : Job} {d : Desc} (hjob : s.job id = some j) (hdesc : (s.descsOf j.stream)[stage]? = some d)
include hjob hdesc

theorem exec_stageComplete_waits (h : s.stageWaits j d = true) (o : Option Nat) : exec (.stageComplete id stage o) s = .next s := by
  rw [exec_stageComplete_eq, execStageComplete, whenUp]
  split
  · simp only [hjob, hdesc]
    exact if_pos h
  · rfl

variable (hup : s.up = true) (hruns : s.stageWaits j d = false)
include hup hruns

/-- R36, R428, R546: a stage that runs ends with a status. -/
theorem exec_stageComplete_status (st : Nat) : exec (.stageComplete id stage (some st)) s = .next (
    if !isTransient st then s
    else if s.lostSample j st d then
      (s.updJob id fun x => { x with stored := some (stMedia, [], 0) }).finishStage id stage (.error stMedia)
    else (s.meetFailure st).transientJob id st (j.covers d)) := by
  unfold State.stageWaits at hruns
  rw [exec_stageComplete_eq, execStageComplete, whenUp_runs _ hup]
  simp only [hjob, hdesc, hruns, Bool.false_eq_true, if_false]
  split
  · rfl
  · split <;> rfl

/-- R257: a buffer of the job that had failed ends the attempt. -/
theorem exec_stageComplete_struck {st : Nat} (hstruck : j.struck = some st) :
    exec (.stageComplete id stage none) s = .next (s.transientJob id st (j.covers d)) := by
  unfold State.stageWaits at hruns
  rw [exec_stageComplete_eq, execStageComplete, whenUp_runs _ hup]
  simp only [hjob, hdesc, hruns, hstruck, Bool.false_eq_true, if_false]

/-- R340, R546: a stage that runs ends without a status. -/
theorem exec_stageComplete_ends (hstruck : j.struck = none) : exec (.stageComplete id stage none) s = .next (
    if j.endsByItself d stage then s
    else if d.type = tDeliver then (if s.deliverWaits j d then s else s.deliverSample j d)
    else s.completeStage j d) := by
  unfold State.stageWaits at hruns
  rw [exec_stageComplete_eq, execStageComplete, whenUp_runs _ hup]
  simp only [hjob, hdesc, hruns, hstruck, Bool.false_eq_true, if_false]
  unfold Job.endsByItself
  split
  · rfl
  · split
    · split <;> rfl
    · rfl

end Stage

/-- R137, R306: the end of a stage that neither reads the stored sample nor compiles a lens. -/
theorem completeStage_eq {s : State} {id : Nat} {j : Job} {d : Desc} (hjob : s.job id = some j) (hid : j.id = id)
    (hfetch : d.type ≠ tFetch) (hlens : d.type ≠ tGeometry) :
    s.completeStage j d = (s.moveOutput j d (s.stageRun j d)).finishStage id d.id (s.stageRun j d) := by
  have hcompiled : s.compileLens j.stream d = s := by simp [State.compileLens, hlens]
  unfold State.completeStage
  dsimp only
  rw [if_neg hfetch, hcompiled, hid, hjob]

/-! ## Retry and hold (R35, R36) -/

theorem job_of_jobs {s t : State} (h : t.jobs = s.jobs) (id : Nat) : t.job id = s.job id := by
  unfold State.job
  rw [h]

/-- R34: a change of a job that keeps its number is what its record then shows. -/
theorem job_updJob (s : State) (id : Nat) {f : Job → Job} (hf : ∀ x, (f x).id = x.id) :
    (s.updJob id f).job id = (s.job id).map f := by
  have hnumber : ∀ x : Job, ((if (x.id == id) = true then f x else x).id == id) = (x.id == id) := fun x => by
    split
    · rw [hf]
    · rfl
  unfold State.job State.updJob
  dsimp only
  rw [List.find?_map]
  have hsame : ((fun x : Job => x.id == id) ∘ fun x => if (x.id == id) = true then f x else x) = fun x => x.id == id :=
    funext hnumber
  rw [hsame]
  cases hfound : s.jobs.find? fun x => x.id == id with
  | none => rfl
  | some x =>
    have hx : x.id = id := by simpa using List.find?_some (p := fun y : Job => y.id == id) hfound
    simp [hx]

theorem meetFailure_jobs (s : State) (st : Nat) : (s.meetFailure st).jobs = s.jobs := by
  unfold State.meetFailure
  dsimp only
  repeat' split
  all_goals rfl

/-- R35: a job at its next attempt, with the buffers `need` reserved. -/
def Job.restarted (need : List (Nat × Nat × Nat)) (j : Job) : Job :=
  { j with state := .admitted, attempts := j.attempts + 1, outputs := [], failing := none, status := none, stored := none,
           reserved := need, coded := [], sig := none, struck := none }

/-- R35: a job that starts again is in ADMITTED, at its next attempt. -/
theorem restartJob_job {s : State} {id : Nat} {j : Job} (h : s.job id = some j) :
    ∃ need, (s.restartJob id).job id = some (j.restarted need) := by
  have hfreed : ∀ (l : List (Nat × Nat × Nat)) (p : Nat → Bool) (q : CodecWork → Bool),
      (l.foldl (fun s r => s.takeBufs j.stream j.caravan r.1 r.2.1 r.2.2) (((s.freeJobBuffers j).freeCores p).dropCodec q)).jobs =
        s.jobs := fun l p q => by
    rw [jobs_of_work (foldl_work (fun u (r : Nat × Nat × Nat) => takeBufs_work u j.stream j.caravan r.1 r.2.1 r.2.2) l _)]
    exact (jobs_of_work (freeJobBuffers_work s j) :)
  unfold State.restartJob
  rw [h]
  dsimp only
  refine ⟨j.reserved.map fun r => (r.1, r.2.1, s.needOf (s.descsOf j.stream) r.1), ?_⟩
  refine (job_of_jobs (jobs_of_work (serveAllocs_work _)) id).trans
    ((job_updJob (f := Job.restarted _) _ id fun _ => rfl).trans ?_)
  rw [State.count_job, job_of_jobs (hfreed _ _ _), h]
  rfl

/-- R36: a stream that is held for a job is HELD with the job's status. -/
theorem holdForJob_stream (s : State) (n st pos : Nat) :
    ((s.holdForJob n st pos).stream n).state = .held ∧ ((s.holdForJob n st pos).stream n).lastStatus = st := by
  unfold State.holdForJob State.holdStream
  rw [stream_of_work (notice_work _ _ _ _ _), State.stream_updStream, if_pos rfl]
  exact ⟨rfl, rfl⟩

/-- R257: the mark of a failed word changes a job's record alone. -/
theorem markStruck_job {s : State} {id : Nat} {j : Job} (h : s.job id = some j) (st : Nat) :
    ∃ k, (if st = stSram then s.updJob id fun x => { x with struck := some stSram } else s).job id = some k ∧
      k.stream = j.stream ∧ k.attempts = j.attempts := by
  split
  · rw [job_updJob (f := fun x => { x with struck := some stSram }) s id fun _ => rfl, h]
    exact ⟨_, rfl, rfl, rfl⟩
  · exact ⟨j, h, rfl, rfl⟩

/-- R35: below the fourth attempt a transient status starts the job again. -/
theorem transientJob_restarts {s : State} {id st : Nat} {j : Job} (h : s.job id = some j) (hleft : j.attempts < 4) :
    ∃ k, (s.transientJob id st false).job id = some k ∧ k.state = .admitted ∧ k.attempts = j.attempts + 1 ∧ k.outputs = [] ∧
      k.failing = none ∧ k.status = none := by
  obtain ⟨k, hk, _, hattempts⟩ := markStruck_job h st
  obtain ⟨need, hrestarted⟩ := restartJob_job hk
  unfold State.transientJob
  rw [h]
  simp only [Config.maxAttempts, hleft, Bool.false_eq_true, if_true, if_false]
  exact ⟨_, hrestarted, rfl, by rw [← hattempts]; rfl, rfl, rfl, rfl⟩

/-- R36: on the fourth attempt a transient status holds the stream. -/
theorem transientJob_holds {s : State} {id : Nat} {j : Job} (h : s.job id = some j) (hspent : 4 ≤ j.attempts) (st : Nat) :
    ((s.transientJob id st false).stream j.stream).state = .held ∧
    ((s.transientJob id st false).stream j.stream).lastStatus = st := by
  unfold State.transientJob
  rw [h]
  simp only [Config.maxAttempts, Nat.not_lt.mpr hspent, Bool.false_eq_true, if_false]
  exact holdForJob_stream _ _ _ _

/-! ## CODEC_BLOCK_DONE (R173, R174) -/

/-- R174: a work with one block more, its state in its engine. -/
def CodecWork.stepped (w : CodecWork) : CodecWork := { w with blocks := w.blocks + 1, state := none, spilled := false }

/-- R174: what waits of the highest class, the oldest first. -/
theorem nextWork_eq (ws : List CodecWork) :
    nextWork ws = ws.find? fun w => w.cls == (ws.map CodecWork.cls).foldl min 8 := rfl

/-- R174: the choice among waiting work does not look at the state of a work beyond its class. -/
theorem nextWork_append_of_ne {ws : List CodecWork} {w w' v : CodecWork} (hcls : w'.cls = w.cls)
    (h : nextWork (ws ++ [w]) = some v) (hv : v ≠ w) : nextWork (ws ++ [w']) = some v := by
  rw [nextWork_eq] at h ⊢
  have hbest : (ws ++ [w']).map CodecWork.cls = (ws ++ [w]).map CodecWork.cls := by simp [hcls]
  rw [hbest]
  rw [List.find?_append] at h ⊢
  cases hfound : ws.find? fun x => x.cls == ((ws ++ [w]).map CodecWork.cls).foldl min 8 with
  | some u =>
    rw [hfound] at h
    exact h
  | none =>
    rw [hfound, Option.none_or] at h
    exact absurd (List.mem_singleton.mp (List.mem_of_find?_eq_some h)) hv

theorem nextWork_singleton {w : CodecWork} (h : w.cls < 8) : nextWork [w] = some w := by
  have hbest : min 8 w.cls = w.cls := by omega
  simp [nextWork, hbest]

/-- R174: an engine without work takes up what comes next. -/
theorem takeUp_current {e : CodecEngine} (h : e.current = none) : e.takeUp.current = nextWork e.waiting := by
  unfold CodecEngine.takeUp
  rw [h]
  dsimp only
  split
  case h_1 hnext => rw [hnext]; rfl
  case h_2 hnext => rw [hnext]; exact h

theorem engine_setEngine (s : State) (e : Nat) (x : CodecEngine) : (s.setEngine e x).engine e = x := Tbl.get_set_self ..

theorem setEngine_jobs (s : State) (e : Nat) (x : CodecEngine) : (s.setEngine e x).jobs = s.jobs := rfl

theorem exec_codecBlockDone_eq {e : Nat} (he : e < 16) (s : State) :
    exec (.codecBlockDone e) s = execCodecBlockDone e s ∧ ¬ 16 ≤ e := ⟨rfl, Nat.not_le.mpr he⟩

theorem exec_codecBlockDone_idle {s : State} {e : Nat} (he : e < 16) (h : (s.engine e).current = none) :
    exec (.codecBlockDone e) s = .next s := by
  rw [(exec_codecBlockDone_eq he s).1, execCodecBlockDone, if_neg (exec_codecBlockDone_eq he s).2, whenUp]
  split
  · simp only [h]
  · rfl

/-- R174: what the end of a block does with the work in progress. -/
theorem exec_codecBlockDone_works {s : State} {e : Nat} {w : CodecWork} (he : e < 16) (hup : s.up = true)
    (h : (s.engine e).current = some w) : exec (.codecBlockDone e) s = .next (
      if w.broken then s.transientJob w.job w.lossStatus false
      else if w.total ≤ w.blocks + 1 then
        (s.setEngine e (CodecEngine.takeUp { s.engine e with current := none })).updJob w.job fun j =>
          { j with coded := j.coded ++ [w.stage] }
      else if nextWork ((s.engine e).waiting ++ [w.stepped]) = some w.stepped then
        s.setEngine e { s.engine e with current := some w.stepped }
      else s.setEngine e (s.setAside (s.engine e) w.stepped).takeUp) := by
  rw [(exec_codecBlockDone_eq he s).1, execCodecBlockDone, if_neg (exec_codecBlockDone_eq he s).2, whenUp_runs _ hup]
  simp only [h, apply_ite Host.Outcome.next]
  rfl

/-- R174: a work that goes on, and what the engine then continues. -/
theorem exec_codecBlockDone_goesOn {s : State} {e : Nat} {w v : CodecWork} (he : e < 16) (hup : s.up = true)
    (h : (s.engine e).current = some w) (hsound : w.broken = false) (hleft : w.blocks + 1 < w.total)
    (hnext : nextWork ((s.engine e).waiting ++ [w.stepped]) = some v) :
    ∃ t, exec (.codecBlockDone e) s = .next t ∧ (t.engine e).current = some v ∧ t.jobs = s.jobs := by
  rw [exec_codecBlockDone_works he hup h, hsound, if_neg (by decide), if_neg (Nat.not_le.mpr hleft), hnext]
  by_cases hown : v = w.stepped
  · rw [if_pos (congrArg some hown)]
    exact ⟨_, rfl, by rw [engine_setEngine, hown], setEngine_jobs ..⟩
  · rw [if_neg fun heq => hown (Option.some.inj heq)]
    refine ⟨_, rfl, ?_, setEngine_jobs ..⟩
    rw [engine_setEngine, takeUp_current rfl]
    exact nextWork_append_of_ne (w := w.stepped) rfl hnext hown

/-- R174: a work whose blocks are coded ends its stage's coding, and the engine takes up what waits. -/
theorem exec_codecBlockDone_coded {s : State} {e : Nat} {w : CodecWork} (he : e < 16) (hup : s.up = true)
    (h : (s.engine e).current = some w) (hsound : w.broken = false) (hlast : w.total ≤ w.blocks + 1) :
    ∃ t, exec (.codecBlockDone e) s = .next t ∧ (t.engine e).current = nextWork (s.engine e).waiting ∧
      t.jobs = s.jobs.map fun j => if j.id == w.job then { j with coded := j.coded ++ [w.stage] } else j := by
  rw [exec_codecBlockDone_works he hup h, hsound, if_neg (by decide), if_pos hlast]
  exact ⟨_, rfl, by rw [State.updJob_engine, engine_setEngine, takeUp_current rfl], rfl⟩

end Sys2Proof.Machine

open Sys2Proof Sys2Proof.Machine in
/-- Settles O16: what a running stage comes to at its end, by its status, its type and the job's attempts, and what a codec engine
takes up at the end of a block. That an engine beyond the sixteenth faults is the model's choice (log entry 8), and that a restored
state is judged at the end of the next block is deduced (log entry 171). -/
theorem stageAndCodecCompletion : Obligations.StageAndCodecCompletion := by
  unfold Obligations.StageAndCodecCompletion
  refine ⟨fun s id stage o h => exec_stageComplete_noJob h stage o, fun s id stage o j d hjob hdesc h => ?nothing,
    fun s id stage j d hup hjob hid hdesc hstage hrunning hrelease hflash hcar => ?stage,
    fun s e he h => exec_codecBlockDone_idle he h, fun s e he => ?noEngine, fun s e w v he hup hcur => ?engine⟩
  case nothing =>
    by_cases hup : s.up = true
    case neg => exact exec_stageComplete_down (by simpa using hup) id stage o
    by_cases hwaits : s.stageWaits j d = true
    case pos => exact exec_stageComplete_waits hjob hdesc hwaits o
    have hruns : s.stageWaits j d = false := by simpa using hwaits
    have hnot := (not_congr (stageWaits_iff s j d)).mp hwaits
    simp only [not_or] at hnot
    obtain ⟨hrunning, hrelease, hflash, hcar⟩ := hnot
    rcases h with h | h | h | h | ⟨st, rfl, hfinal⟩ | ⟨rfl, hstruck, hgoes⟩
    · exact absurd h hrunning
    · exact absurd h hrelease
    · exact absurd h hflash
    · exact absurd h hcar
    · rw [exec_stageComplete_status hjob hdesc hup hruns, hfinal]
      rfl
    · rw [exec_stageComplete_ends hjob hdesc hup hruns hstruck]
      by_cases hself : j.endsByItself d stage = true
      · rw [if_pos hself]
      · have hnone := (not_congr (endsByItself_iff j d stage)).mp hself
        simp only [not_or] at hnone
        obtain ⟨hkernel, hscore, hcodec⟩ := hnone
        obtain ⟨hdeliver, hroom⟩ := ((hgoes.resolve_left hkernel).resolve_left hscore).resolve_left hcodec
        rw [if_neg hself, if_pos hdeliver, if_pos hroom]
  case stage =>
    have hruns := stageWaits_runs hrunning hrelease hflash hcar
    have hends : j.struck = none → d.type ≠ tKernel → d.type ≠ tScore → d.type ≠ tDeliver →
        (j.onCodec d = true → stage ∈ j.coded) →
        exec (.stageComplete id stage none) s = .next (s.completeStage j d) := fun hstruck hkernel hscore hdeliver hcoded => by
      rw [exec_stageComplete_ends hjob hdesc hup hruns hstruck, endsByItself_no hkernel hscore hcoded, if_neg hdeliver]
      rfl
    refine ⟨hends, fun hstruck hkernel hscore hdeliver hfetch hlens hcoded => ?_, fun hstruck hdeliver hroom => ?_,
      fun st hstruck => exec_stageComplete_struck hjob hdesc hup hruns hstruck, fun st htransient hlost => ?_,
      fun st htransient hlost hcovers hleft => ?_, fun st htransient hlost hcovers hspent => ?_⟩
    · rw [hends hstruck hkernel hscore hdeliver hcoded, completeStage_eq hjob hid hfetch hlens, hstage]
    · have hcodec : j.onCodec d = false := by simp [Job.onCodec, hdeliver, tDeliver, tCodec, tDecode]
      rw [exec_stageComplete_ends hjob hdesc hup hruns hstruck,
        endsByItself_no (by simp [hdeliver, tDeliver, tKernel]) (by simp [hdeliver, tDeliver, tScore]) (by simp [hcodec]),
        if_pos hdeliver, hroom]
      rfl
    · rw [exec_stageComplete_status hjob hdesc hup hruns, htransient, hlost]
      rfl
    · have hfailed := (job_of_jobs (meetFailure_jobs s st) id).trans hjob
      rw [exec_stageComplete_status hjob hdesc hup hruns, htransient, hlost, hcovers]
      obtain ⟨k, hk⟩ := transientJob_restarts (st := st) hfailed hleft
      exact ⟨_, k, rfl, hk⟩
    · have hfailed := (job_of_jobs (meetFailure_jobs s st) id).trans hjob
      rw [exec_stageComplete_status hjob hdesc hup hruns, htransient, hlost, hcovers]
      exact ⟨_, rfl, transientJob_holds hfailed hspent st⟩
  case noEngine =>
    exact if_pos he
  case engine =>
    refine ⟨fun hbroken => ?_, fun hsound hlast hnext => ?_, fun hsound hlast hnone => ?_, exec_codecBlockDone_goesOn he hup hcur,
      fun hsound hleft hnone hcls => ?_⟩
    · rw [exec_codecBlockDone_works he hup hcur, if_pos hbroken]
    · rw [← hnext]
      exact exec_codecBlockDone_coded he hup hcur hsound hlast
    · obtain ⟨t, hexec, hcurrent, _⟩ := exec_codecBlockDone_coded he hup hcur hsound hlast
      exact ⟨t, hexec, by rw [hcurrent, hnone]; rfl⟩
    · refine exec_codecBlockDone_goesOn he hup hcur hsound hleft ?_
      rw [hnone]
      exact nextWork_singleton hcls
end

section
/-! The delivery of a batch to its slot (R34, R319, R320, R323, R331). -/

namespace Sys2Proof.Machine

open Sys2Proof

/-! ## What the steps of a delivery write -/

/-- An event of a stream that does nothing when the device is in service does nothing at all. -/
theorem withStream_idle {n : Nat} {s : State} {f : State → Res} (hn : n < 64) (h : f s = .next s) : withStream n s f = .next s := by
  by_cases hup : s.up = true
  · rw [withStream_runs f hn hup, h]
  · rw [withStream, if_pos (show n < Config.streams from hn), whenUp_down f (by simpa using hup)]

theorem run_updRun (s : State) (n : Nat) (f : RunSt → RunSt) : (s.updRun n f).run n = f (s.run n) := by
  unfold State.run
  rw [State.stream_updRun, if_pos rfl]

theorem batches_updBatch (s : State) (n k : Nat) (f : OpenBatch → OpenBatch) :
    ((s.updBatch n k f).run n).batches = (s.run n).batches.map fun x => if x.k = k then f x else x := by
  unfold State.updBatch
  rw [run_updRun]

theorem dlv_updDlv (s : State) (n : Nat) (f : DlvSt → DlvSt) : ((s.updDlv n f).stream n).dlv = f (s.stream n).dlv := by
  rw [State.stream_updDlv, if_pos rfl]

/-- The slots of a stream lie in its delivery record. -/
theorem slot_of_slots {s t : State} {n : Nat} (h : (t.stream n).dlv.slots = (s.stream n).dlv.slots) (i : Nat) :
    t.slot n i = s.slot n i := by
  unfold State.slot
  rw [h]

theorem dlv_updRun (s : State) (n : Nat) (f : RunSt → RunSt) : ((s.updRun n f).stream n).dlv = (s.stream n).dlv := by
  rw [State.stream_updRun, if_pos rfl]

theorem run_updSlot (s : State) (n i : Nat) (f : Slot → Slot) : (s.updSlot n i f).run n = s.run n := by
  unfold State.run State.updSlot
  rw [State.stream_updDlv, if_pos rfl]

theorem slot_updBatch (s : State) (n k i : Nat) (f : OpenBatch → OpenBatch) : (s.updBatch n k f).slot n i = s.slot n i :=
  slot_of_slots (by rw [State.updBatch, dlv_updRun]) i

/-- R320: a slot that is made READY, with its content, at this tick. -/
theorem slot_readySlot (s : State) (n i : Nat) (content : Bytes) (ptr : Nat) :
    ((s.readySlot n i content ptr).slot n i).state = .ready ∧ ((s.readySlot n i content ptr).slot n i).content = content ∧
      ((s.readySlot n i content ptr).slot n i).readyGtc = s.gtc := by
  unfold State.readySlot
  rw [slot_updSlot, if_pos rfl]
  exact ⟨rfl, rfl, rfl⟩

/-- R325: READY_SEQ rises by 1 beside what becomes of a slot. -/
theorem readySeq_readySlot (s : State) (n i : Nat) (content : Bytes) (ptr : Nat) :
    ((s.readySlot n i content ptr).stream n).dlv.readySeq = (s.stream n).dlv.readySeq := by
  unfold State.readySlot State.updSlot
  rw [dlv_updDlv]

/-! ## SLOT_DELIVER (R319, R423) -/

theorem exec_slotDeliver_eq (n : Nat) (s : State) : exec (.slotDeliver n) s = execSlotDeliver n s := rfl

/-- R319, R320: the slot of a batch is PENDING under the batch's header, and the batch is being written. -/
def State.beginWrite (s : State) (n : Nat) (b : OpenBatch) : State :=
  (s.updSlot n b.slot fun x => { s.nameSlot n b x with state := .pending }).updBatch n b.k fun x => { x with state := .writing }

section Stream

variable {s : State} {n : Nat} (hn : n < 64)
include hn

theorem exec_slotDeliver_fabric (h : s.toFabric n = true) : exec (.slotDeliver n) s = .next s := by
  rw [exec_slotDeliver_eq, execSlotDeliver, withStream_idle hn (if_pos h)]

/-- R319: without a settled batch that its slot takes nothing is written. -/
theorem exec_slotDeliver_waits (h : ∀ b, s.nextDelivery n = some b → s.slotTakes n b = false) :
    exec (.slotDeliver n) s = .next s := by
  rw [exec_slotDeliver_eq, execSlotDeliver]
  refine withStream_idle hn ?_
  cases hnext : s.nextDelivery n with
  | none => exact ite_self _
  | some b =>
    simp only [h b hnext, Bool.false_eq_true, if_false]
    exact ite_self _

theorem exec_slotDeliver_begins {b : OpenBatch} (hup : s.up = true) (hhost : s.toFabric n = false)
    (hnext : s.nextDelivery n = some b) (htakes : s.slotTakes n b = true) :
    exec (.slotDeliver n) s = .next (s.beginWrite n b) := by
  rw [exec_slotDeliver_eq, execSlotDeliver, withStream_runs _ hn hup]
  simp only [hhost, hnext, htakes, Bool.false_eq_true, if_false, if_true]
  rfl

end Stream

theorem beginWrite_slot (s : State) (n : Nat) (b : OpenBatch) :
    (s.beginWrite n b).slot n b.slot = { s.nameSlot n b (s.slot n b.slot) with state := .pending } := by
  unfold State.beginWrite
  rw [slot_updBatch, slot_updSlot, if_pos rfl]

theorem beginWrite_batches (s : State) (n : Nat) (b : OpenBatch) : ((s.beginWrite n b).run n).batches =
    (s.run n).batches.map fun x => if x.k = b.k then { x with state := .writing } else x := by
  unfold State.beginWrite
  rw [batches_updBatch, run_updSlot]

/-! ## A batch that has been delivered (R34, R422) -/

/-- R422: a snapshot that goes to the partner leaves the run and the delivery of its stream. -/
theorem sendSnapshot_stream (s : State) (n : Nat) :
    (s.sendSnapshot n).run n = s.run n ∧ ((s.sendSnapshot n).stream n).dlv = (s.stream n).dlv := by
  have htaken : ((s.takeBoundary n).stream n).run = (s.stream n).run ∧ ((s.takeBoundary n).stream n).dlv = (s.stream n).dlv := by
    unfold State.takeBoundary
    dsimp only
    rw [State.stream_updStream, if_pos rfl]
    exact ⟨rfl, rfl⟩
  unfold State.sendSnapshot State.run
  dsimp only
  rw [State.stream_updProt, if_pos rfl]
  exact htaken

theorem sendSnapshot_jobs (s : State) (n : Nat) : (s.sendSnapshot n).jobs = s.jobs := rfl

theorem sendSnapshot_stored (s : State) (n key : Nat) : (s.sendSnapshot n).stored key = s.stored key := rfl

/-- R34: what the delivery of a batch writes of the stream's run: one batch more, and NEXT_BATCH behind it. -/
def RunSt.passed (b : OpenBatch) (r : RunSt) : RunSt := { r with delivered := r.delivered + 1, nextBatch := b.b + 1 }

/-- R206: the stream's last digest is the batch's. -/
def Stream.lastDigest (b : OpenBatch) (x : Stream) : Stream :=
  { x with lastBatchDigest := if b.digest.isEmpty then x.lastBatchDigest else b.digest }

/-- R34: the jobs, the cursors and the counter of a batch that has been delivered. -/
def State.passBatch (s : State) (n : Nat) (b : OpenBatch) (js : JobState) : State :=
  (((s.moveJobs n b.k .packed js).updStream n (Stream.lastDigest b)).updRun n (RunSt.passed b)).count oBatchesDelivered 1

/-- R422: a delivery goes with a snapshot or without one. -/
theorem delivered_eq (s : State) (n : Nat) (b : OpenBatch) (js : JobState) :
    s.delivered n b js = (s.passBatch n b js).sendSnapshot n ∨ s.delivered n b js = s.passBatch n b js :=
  ite_eq_or_eq _ _ _

theorem passBatch_stream (s : State) (n : Nat) (b : OpenBatch) (js : JobState) :
    ((s.passBatch n b js).run n).nextBatch = b.b + 1 ∧ ((s.passBatch n b js).stream n).dlv = (s.stream n).dlv := by
  unfold State.passBatch State.run
  rw [State.count_stream, State.stream_updRun, if_pos rfl, State.stream_updStream, if_pos rfl]
  exact ⟨rfl, rfl⟩

theorem passBatch_stored (s : State) (n : Nat) (b : OpenBatch) (js : JobState) :
    (s.passBatch n b js).stored oBatchesDelivered = s.stored oBatchesDelivered + 1 := by
  unfold State.passBatch
  rw [State.stored_count, if_pos rfl]
  rfl

/-- R34: where the jobs of a batch leave PACKED, none of them is in it. -/
theorem moveJobs_none_packed (s : State) {n k : Nat} {js : JobState} (hjs : js ≠ .packed) :
    ∀ j ∈ (s.moveJobs n k .packed js).jobs, j.stream = n → j.k = k → j.state ≠ .packed := by
  intro j hj hstream hk
  obtain ⟨x, _, rfl⟩ := List.mem_map.mp hj
  by_cases hmoves : (x.stream = n && x.k = k && x.state = .packed) = true
  · rw [if_pos hmoves]
    exact hjs
  · rw [if_neg hmoves] at hstream hk ⊢
    intro hpacked
    exact hmoves (by simp [hstream, hk, hpacked])

/-- R34, R422: what the delivery of a batch leaves: its slot record as it was, the cursor behind it, one delivery more counted,
and no job of it PACKED. -/
theorem delivered_spec (s : State) (n : Nat) (b : OpenBatch) {js : JobState} (hjs : js ≠ .packed) :
    ((s.delivered n b js).run n).nextBatch = b.b + 1 ∧ ((s.delivered n b js).stream n).dlv = (s.stream n).dlv ∧
      (s.delivered n b js).stored oBatchesDelivered = s.stored oBatchesDelivered + 1 ∧
      ∀ j ∈ (s.delivered n b js).jobs, j.stream = n → j.k = b.k → j.state ≠ .packed := by
  obtain ⟨hnext, hdlv⟩ := passBatch_stream s n b js
  have hstored := passBatch_stored s n b js
  have hjobs : ∀ j ∈ (s.passBatch n b js).jobs, j.stream = n → j.k = b.k → j.state ≠ .packed := moveJobs_none_packed s hjs
  rcases delivered_eq s n b js with h | h
  · obtain ⟨hrun, hkept⟩ := sendSnapshot_stream (s.passBatch n b js) n
    rw [h, hrun, hkept, sendSnapshot_stored, sendSnapshot_jobs]
    exact ⟨hnext, hdlv, hstored, hjobs⟩
  · rw [h]
    exact ⟨hnext, hdlv, hstored, hjobs⟩

/-! ## DELIVER_WRITTEN (R320, R327, R331) -/

theorem exec_deliverWritten_eq (n : Nat) (s : State) : exec (.deliverWritten n) s = execDeliverWritten n s := rfl

/-- R320, R325: the slot of a batch is READY with the batch's content, the batch has been written, and READY_SEQ is one more. -/
def State.endWrite (s : State) (n : Nat) (b : OpenBatch) : State :=
  ((s.readySlot n b.slot b.content (if b.mode ≠ 0 then 0 else digestPtr b.entries)).updBatch n b.k fun x =>
    { x with state := .ready }).updDlv n fun d => { d with readySeq := d.readySeq + 1 }

theorem endWrite_slot (s : State) (n : Nat) (b : OpenBatch) : ((s.endWrite n b).slot n b.slot).state = .ready ∧
    ((s.endWrite n b).slot n b.slot).content = b.content ∧ ((s.endWrite n b).slot n b.slot).readyGtc = s.gtc := by
  have hkept : (s.endWrite n b).slot n b.slot =
      (s.readySlot n b.slot b.content (if b.mode ≠ 0 then 0 else digestPtr b.entries)).slot n b.slot := by
    refine slot_of_slots ?_ _
    unfold State.endWrite State.updBatch
    rw [dlv_updDlv, dlv_updRun]
  rw [hkept]
  exact slot_readySlot ..

theorem endWrite_readySeq (s : State) (n : Nat) (b : OpenBatch) :
    ((s.endWrite n b).stream n).dlv.readySeq = (s.stream n).dlv.readySeq + 1 := by
  unfold State.endWrite State.updBatch
  rw [dlv_updDlv, dlv_updRun, readySeq_readySlot]

theorem endWrite_stored (s : State) (n : Nat) (b : OpenBatch) (key : Nat) : (s.endWrite n b).stored key = s.stored key := rfl

/-- R331: the backfill job of a stream that has ended. -/
def State.backfilled (s : State) (n : Nat) : Option Job :=
  s.jobs.find? fun j => j.stream == n && j.k == backfillK && j.status.isSome

/-- R331: the batch of the epoch that a backfill job serves. -/
def State.backfillBatch (s : State) (n : Nat) (j : Job) : Nat :=
  (((s.run n).epochOf j.epoch).map fun v => v.batchHolding j.pos).getD 0

/-- R331: the content of a backfill slot: the record of the job that has ended. -/
def State.backfillContent (s : State) (n : Nat) (j : Job) : Bytes :=
  splitContent j.epoch (s.backfillBatch n j) [splitRecord (s.descsOf n) j (j.status.getD stSuccess) false]

/-- R331: the request that a backfill slot awaited is answered. -/
def State.endBackfill (s : State) (n : Nat) (j : Job) : State :=
  ((s.readySlot n (s.backfillSlot n) (s.backfillContent n j) 0).endJobs fun x => x.id == j.id).updRun n fun r =>
    { r with backfillFor := none }

theorem endBackfill_slot (s : State) (n : Nat) (j : Job) :
    ((s.endBackfill n j).slot n (s.backfillSlot n)).state = .ready ∧
      ((s.endBackfill n j).slot n (s.backfillSlot n)).content = s.backfillContent n j := by
  have hkept : (s.endBackfill n j).slot n (s.backfillSlot n) =
      (s.readySlot n (s.backfillSlot n) (s.backfillContent n j) 0).slot n (s.backfillSlot n) := by
    refine slot_of_slots ?_ _
    unfold State.endBackfill
    rw [dlv_updRun, endJobs_stream]
  obtain ⟨hstate, hcontent, _⟩ := slot_readySlot s n (s.backfillSlot n) (s.backfillContent n j) 0
  rw [hkept]
  exact ⟨hstate, hcontent⟩

/-- The batch of a stream that is being written. -/
def State.writingBatch (s : State) (n : Nat) : Option OpenBatch := (s.run n).batches.find? fun b => b.state == .writing

section Written

variable {s : State} {n : Nat} (hn : n < 64)
include hn

theorem exec_deliverWritten_fabric (h : s.toFabric n = true) : exec (.deliverWritten n) s = .next s := by
  rw [exec_deliverWritten_eq, execDeliverWritten, withStream_idle hn (if_pos h)]

variable (hup : s.up = true) (hhost : s.toFabric n = false)
include hup hhost

theorem exec_deliverWritten_batch {b : OpenBatch} (h : s.writingBatch n = some b) :
    exec (.deliverWritten n) s = .next ((s.endWrite n b).delivered n b .delivered) := by
  unfold State.writingBatch at h
  rw [exec_deliverWritten_eq, execDeliverWritten, withStream_runs _ hn hup]
  simp only [hhost, h, Bool.false_eq_true, if_false]
  rfl

variable (hnone : s.writingBatch n = none)
include hnone

theorem exec_deliverWritten_again {i : Nat} (h : s.regenerating n = some i) :
    exec (.deliverWritten n) s = .next (s.readySlot n i (s.slot n i).content (s.slot n i).digestPtr) := by
  unfold State.writingBatch at hnone
  rw [exec_deliverWritten_eq, execDeliverWritten, withStream_runs _ hn hup]
  simp only [hhost, hnone, h, Bool.false_eq_true, if_false]

theorem exec_deliverWritten_backfill {j : Job} (hfull : s.regenerating n = none) (h : s.backfilled n = some j) :
    exec (.deliverWritten n) s = .next (s.endBackfill n j) := by
  unfold State.writingBatch at hnone
  unfold State.backfilled at h
  rw [exec_deliverWritten_eq, execDeliverWritten, withStream_runs _ hn hup]
  simp only [hhost, hnone, hfull, h, Bool.false_eq_true, if_false]
  rfl

theorem exec_deliverWritten_nothing (hfull : s.regenerating n = none) (h : s.backfilled n = none) :
    exec (.deliverWritten n) s = .next s := by
  unfold State.writingBatch at hnone
  unfold State.backfilled at h
  rw [exec_deliverWritten_eq, execDeliverWritten, withStream_runs _ hn hup]
  simp only [hhost, hnone, hfull, h, Bool.false_eq_true, if_false]

end Written

/-! ## BATCH_BUFFERS_RETURNED (R34) -/

theorem exec_batchBuffersReturned_runs {s : State} {n : Nat} (hn : n < 64) (hup : s.up = true) (k : Nat) :
    exec (.batchBuffersReturned n k) s = .next (s.endJobs fun j => j.stream == n && j.k == k && j.state == .retired) :=
  withStream_runs _ hn hup

end Sys2Proof.Machine

open Sys2Proof Sys2Proof.Machine in
/-- Settles O20: the begin and the end of a write to a slot, by what is being written: a batch, a slot that is delivered again, or
the record of a backfill. -/
theorem slotDelivery : Obligations.SlotDelivery := by
  unfold Obligations.SlotDelivery
  refine ⟨fun s n hn hfabric => ⟨exec_slotDeliver_fabric hn hfabric, exec_deliverWritten_fabric hn hfabric⟩,
    fun s n hn h => exec_slotDeliver_waits hn h, fun s n hn hup hhost hnone => ?noBatch, fun s n b hn hup => ?batch⟩
  case noBatch =>
    refine ⟨fun i hagain => ?_, fun j hfull hended => ?_, exec_deliverWritten_nothing hn hup hhost hnone⟩
    · obtain ⟨hstate, hcontent, _⟩ := slot_readySlot s n i (s.slot n i).content (s.slot n i).digestPtr
      exact ⟨_, exec_deliverWritten_again hn hup hhost hnone hagain, hstate, hcontent⟩
    · exact ⟨_, exec_deliverWritten_backfill hn hup hhost hnone hfull hended, endBackfill_slot s n j⟩
  case batch =>
    refine ⟨fun hhost hnext htakes => ?_, fun hhost hwriting => ?_, fun k => ?_⟩
    · refine ⟨_, exec_slotDeliver_begins hn hup hhost hnext htakes, ?_⟩
      rw [beginWrite_slot, beginWrite_batches]
      exact ⟨rfl, rfl, rfl, rfl, rfl⟩
    · obtain ⟨hnext, hdlv, hcount, hjobs⟩ := delivered_spec (s.endWrite n b) n b (js := .delivered) (by decide)
      obtain ⟨hstate, hcontent, hready⟩ := endWrite_slot s n b
      refine ⟨_, exec_deliverWritten_batch hn hup hhost hwriting, ?_⟩
      rw [slot_of_slots (congrArg DlvSt.slots hdlv), hdlv, endWrite_readySeq, hcount, endWrite_stored]
      exact ⟨hstate, hcontent, hready, rfl, rfl, hnext, hjobs⟩
    · exact ⟨_, exec_batchBuffersReturned_runs hn hup k, endJobs_jobs _ _⟩
end

section
/-! What a kernel row answers at a word of its own, by what its instruction does to the core: it retires, it waits, or it faults (R65,
R89, R97). -/

namespace Sys2Proof.Machine

open Sys2Proof

theorem kIf_ok {ok : Bool} (h : ok = true) (f : KOut) : kIf ok f = f := if_pos h

/-- R65: an instruction that faults does so whether its encoding is sound or not. -/
theorem kIf_fault (ok : Bool) {f : KOut} (h : f = kFault) : kIf ok f = kFault := by
  rw [h]
  exact ite_self _

section Row

variable {s : State} {core id : Nat} {x : Core} {w : Nat} {op : Nat × Nat} {f : Core → Nat → KOut}
  (hat : s.AtWord core id x w op)
include hat

theorem runRow_retires {y : Core} (hop : op ∈ knownOps) (hf : f x w = .next y) : runRow core op f s = .next (s.setCore core y) :=
  (runRow_atWord hat (.inl hop)).1 y hf

theorem runRow_waits (hop : op ∈ knownOps) (hf : f x w = .wait) : runRow core op f s = .next s :=
  (runRow_atWord hat (.inl hop)).2.1 hf

theorem runRow_faults (hop : op ∈ knownOps) (hf : f x w = kFault) :
    runRow core op f s = .next (s.endKernel core id x.stage (.error stKernelFault)) :=
  (runRow_atWord hat (.inl hop)).2.2.1 _ hf

theorem runRow_halts {status len : Nat} (hop : op ∈ knownOps) (hf : f x w = .halt status len) :
    runRow core op f s = .next (s.haltKernel core x id status len) :=
  (runRow_atWord hat (.inl hop)).2.2.2 _ _ hf

end Row

end Sys2Proof.Machine
end

section
/-! Registers of a core (R58). -/

open Sys2Proof Sys2Proof.Machine in
/-- Settles O3: a write of X0 or P0 leaves the core as it is, and the tables of the other registers read what was last written. -/
theorem registerReadAfterWrite : Obligations.RegisterReadAfterWrite := by
  unfold Obligations.RegisterReadAfterWrite
  intro x q r v n m
  exact ⟨Core.xr_zero x, rfl, Core.setX_zero x v, Core.setP_zero x m,
    Core.xr_setX x r q v, Core.vr_setV x r q n, Core.pr_setP x r q m⟩
end

section
/-! Scalar arithmetic (R65, R67, R70). -/

namespace Sys2Proof.Machine

open Sys2Proof

theorem kScalar_next {w : Nat} (hok : saluOk w = true) (f : Word → Word → Word) (x : Core) :
    kScalar f x w = .next (x.setX (iDst w) (f (x.xr (iSrcA w)) (x.xr (iSrcB w)))).advance :=
  kIf_ok hok _

/-- R70: the quotient truncated toward zero, 0 by zero, and the most negative value by −1 itself. -/
theorem toInt_divs (a b : Word) :
    (if b = 0 then 0 else a.sdiv b).toInt =
      if b = 0 then 0 else if a.toInt = -2 ^ 63 ∧ b.toInt = -1 then -2 ^ 63 else a.toInt.tdiv b.toInt := by
  by_cases hzero : b = 0
  · simp [hzero]
  rw [if_neg hzero, if_neg hzero]
  have hmin : a.toInt = -2 ^ 63 ↔ a = BitVec.intMin 64 := BitVec.toInt_inj (y := BitVec.intMin 64)
  have hone : b.toInt = -1 ↔ b = -1#64 := BitVec.toInt_inj (y := -1#64)
  simp only [hmin, hone]
  by_cases hover : a = BitVec.intMin 64 ∧ b = -1#64
  · rw [if_pos hover, hover.1, hover.2]
    decide
  · rw [if_neg hover]
    exact BitVec.toInt_sdiv_of_ne_or_ne a b (not_and_or.mp hover)

/-- R65: SAR divides by a power of two and rounds down. -/
theorem toInt_sar (a : Word) (k : Nat) : (a.sshiftRight k).toInt = a.toInt / 2 ^ k := by
  rw [BitVec.toInt_sshiftRight, Int.shiftRight_eq_div_pow]
  norm_cast

/-- R67: the address, or the sum of ADDI, is taken modulo 2^64. -/
theorem addr_eq_emod (x : Core) (w : Nat) : (x.addr w : Int) = ((x.xn (iSrcA w) : Int) + iImm35 w) % 2 ^ 64 := by
  have hpos : (0 : Int) ≤ ((x.xn (iSrcA w) : Int) + iImm35 w) % 2 ^ 64 := Int.emod_nonneg _ (by decide)
  rw [addrN (Int.toNat_of_nonneg hpos), Int.toNat_of_nonneg hpos]

end Sys2Proof.Machine

open Sys2Proof Sys2Proof.Machine in
/-- Settles O1: the row writes X[DST] and retires, and the value is that of the operation on the two registers, or on one and IMM35. -/
theorem scalarArithmeticResults : Obligations.ScalarArithmeticResults := by
  unfold Obligations.ScalarArithmeticResults
  intro s core id x w
  refine ⟨fun hat hok => ?add, fun hat hok => ?mul, fun hat hok => ?divs, fun hat hok => ?sar, fun hat hok => ?addi⟩
  case add => exact ⟨_, runRow_retires hat (by decide) (kScalar_next hok _ x), BitVec.toNat_add _ _⟩
  case mul => exact ⟨_, runRow_retires hat (by decide) (kScalar_next hok _ x), BitVec.toNat_mul _ _⟩
  case divs => exact ⟨_, runRow_retires hat (by decide) (kScalar_next hok _ x), toInt_divs _ _⟩
  case sar => exact ⟨_, runRow_retires hat (by decide) (kScalar_next hok _ x), toInt_sar _ _⟩
  case addi => exact ⟨_, runRow_retires hat (by decide) (kIf_ok hok _), addr_eq_emod x w⟩
end

section
/-! Branches and jumps (R68). -/

namespace Sys2Proof.Machine

open Sys2Proof

theorem kJump_inside {x : Core} {u : Int} {t : Nat} (ht : (t : Int) = u) (h : t < x.kernel.length) :
    kJump x u = .next (x.goto t) := by
  subst ht
  exact if_pos ⟨Int.natCast_nonneg t, Int.ofNat_lt.mpr h⟩

theorem kJump_outside {x : Core} {u : Int} (h : u < 0 ∨ (x.kernel.length : Int) ≤ u) : kJump x u = kFault :=
  if_neg (by omega)

theorem setXn_kernel (x : Core) (r v : Nat) : (x.setXn r v).kernel = x.kernel := by
  unfold Core.setXn Core.setX
  split <;> rfl

section Branch

variable {x : Core} {w : Nat} {c : Word → Word → Bool}

theorem kBranch_taken (hok : branchOk w = true) (hc : c (x.xr (iSrcA w)) (x.xr (iSrcB w)) = true) :
    kBranch c x w = kJump x (kTarget x w) := by
  rw [kBranch, kIf_ok hok, if_pos hc]

theorem kBranch_falls (hok : branchOk w = true) (hc : c (x.xr (iSrcA w)) (x.xr (iSrcB w)) = false) :
    kBranch c x w = .next x.advance := by
  rw [kBranch, kIf_ok hok, if_neg (by simp [hc])]

/-- R65, R68: a branch that would leave the kernel faults, be its reserved field zero or not. -/
theorem kBranch_leaves (hc : c (x.xr (iSrcA w)) (x.xr (iSrcB w)) = true)
    (hout : kTarget x w < 0 ∨ (x.kernel.length : Int) ≤ kTarget x w) : kBranch c x w = kFault := by
  rw [kBranch, if_pos hc]
  exact kIf_fault _ (kJump_outside hout)

end Branch

end Sys2Proof.Machine

open Sys2Proof Sys2Proof.Machine in
/-- Settles O2: a jump, and a branch whose condition holds, go to a target in the kernel and fault on one outside it; a branch whose
condition does not hold falls through. -/
theorem branchesAndJumps : Obligations.BranchesAndJumps := by
  unfold Obligations.BranchesAndJumps
  refine ⟨fun s core id x w t hok hin => ⟨fun hat ht => ?j, fun hat ht heq => ?beq, fun hat hne => ?beqFalls, fun hat ht hlt => ?blt,
      fun hat hle => ?bltFalls, fun hat ht => ?jal, fun hat ht => ?jr⟩,
    fun s core id x w => ⟨fun hout => ⟨fun hat => ?jOut, fun hat heq => ?beqOut, fun hat hlt => ?bltOut, fun hat => ?jalOut⟩,
      fun hat hout => ?jrOut⟩⟩
  case j => exact runRow_retires hat (by decide) ((kIf_ok hok _).trans (kJump_inside ht hin))
  case beq => exact runRow_retires hat (by decide) ((kBranch_taken hok (beq_iff_eq.mpr heq)).trans (kJump_inside ht hin))
  case beqFalls => exact runRow_retires hat (by decide) (kBranch_falls hok (beq_eq_false_iff_ne.mpr hne))
  case blt => exact runRow_retires hat (by decide) ((kBranch_taken hok (decide_eq_true hlt)).trans (kJump_inside ht hin))
  case bltFalls => exact runRow_retires hat (by decide) (kBranch_falls hok (decide_eq_false (not_lt.mpr hle)))
  case jal =>
    have hkept : t < (x.setXn 31 (x.pc + 1)).kernel.length := (setXn_kernel x 31 _).symm ▸ hin
    exact runRow_retires hat (by decide) ((kIf_ok hok _).trans (kJump_inside ht hkept))
  case jr => exact runRow_retires hat (by decide) ((kIf_ok hok _).trans (kJump_inside (congrArg Nat.cast ht) hin))
  case jOut => exact runRow_faults hat (by decide) (kIf_fault _ (kJump_outside hout))
  case beqOut => exact runRow_faults hat (by decide) (kBranch_leaves (beq_iff_eq.mpr heq) hout)
  case bltOut => exact runRow_faults hat (by decide) (kBranch_leaves (decide_eq_true hlt) hout)
  case jalOut =>
    have hkept : kTarget x w < 0 ∨ ((x.setXn 31 (x.pc + 1)).kernel.length : Int) ≤ kTarget x w := (setXn_kernel x 31 _).symm ▸ hout
    exact runRow_faults hat (by decide) (kIf_fault _ (kJump_outside hkept))
  case jrOut => exact runRow_faults hat (by decide) (kIf_fault _ (kJump_outside (.inr (Int.ofNat_le.mpr hout))))
end

section
/-! Scalar memory (R61 to R63). -/

namespace Sys2Proof.Machine

open Sys2Proof

/-- R63: an access that meets no fault and waits for no TMU descriptor goes on. -/
theorem kAccess_goes {x : Core} {write : Bool} {a n size : Nat} (haccess : x.access write a n size = 0)
    (hfree : x.blocked write a n = false) (f : KOut) :
    kAccess (x.access write a n size) (if x.blocked write a n then .wait else f) = f := by
  rw [haccess, hfree]
  rfl

/-- R62: the bytes of an aligned word that a load answers are those at its addresses. -/
theorem byte_of_load {x : Core} {write : Bool} {a : Nat} (haccess : x.access write a 8 8 = 0) {j : Nat} (hj : j < 8) :
    BitVec.ofNat 8 ((BitVec.ofNat 64 (leNat (x.load a 8))).toNat / 256 ^ j) = x.byteAt (a + j) := by
  obtain ⟨haligned, hmapped, -⟩ := access_zero haccess
  have hlen : (x.load a 8).length = 8 := load_length x a 8
  have hword : leNat (x.load a 8) < 2 ^ 64 := by
    have hlt := leNat_lt (x.load a 8)
    rwa [hlen] at hlt
  rw [BitVec.toNat_ofNat, Nat.mod_eq_of_lt hword, leNat_byte _ _ (by rwa [hlen])]
  exact load_getD x a 8 j hj (aligned_fits (by decide) haligned) hmapped

theorem save_eq (x : Core) (a : Nat) (b : Bytes) :
    x.save a b = { x with scratch := (x.save a b).scratch, output := (x.save a b).output } := by
  unfold Core.save
  split <;> rfl

/-- R61, R63: a store of an aligned word to a writable window. -/
theorem storesElems_word {x : Core} {a : Nat} (haccess : x.access true a 8 8 = 0) (v : Nat) :
    x.storesElems (x.save a (leBytes 8 v)).advance [0] 8 (fun _ => a) (fun _ => v) := by
  obtain ⟨haligned, -, hwritable⟩ := access_zero haccess
  have hbyte (c : Nat) : (x.save a (leBytes 8 v)).advance.byteAt c =
      if a ≤ c ∧ c < a + 8 then (leBytes 8 v).getD (c - a) 0 else x.byteAt c :=
    save_byteAt x a (leBytes 8 v) (aligned_fits (n := 8) (by decide) haligned) (Nat.zero_lt_succ _) (hwritable rfl) c
  refine ⟨?frame, fun c hout => ?kept, fun i _ j hj _ => ?stored⟩
  case frame => exact congrArg Core.advance (save_eq x a (leBytes 8 v))
  case kept =>
    have hbeyond : c < a ∨ a + 8 ≤ c := hout 0 (List.mem_singleton.mpr rfl)
    rw [hbyte, if_neg (by omega)]
  case stored =>
    have hin : a ≤ a + j ∧ a + j < a + 8 := by omega
    rw [hbyte, if_pos hin, Nat.add_sub_cancel_left, leBytes_getD 8 v j hj]

end Sys2Proof.Machine

open Sys2Proof Sys2Proof.Machine in
/-- Settles O4: LD64 reads the aligned word at its address as the bytes there, and ST64 writes the bytes of X[DST] there and no
other. -/
theorem scalarMemoryAccess : Obligations.ScalarMemoryAccess := by
  unfold Obligations.ScalarMemoryAccess
  refine ⟨fun s core id x w a hat hok ha haccess hfree => ?load, fun s core id x w a hat hok ha haccess hfree => ?store⟩
  all_goals
    have haddr : x.addr w = a := addrN ha
  case load =>
    refine ⟨BitVec.ofNat 64 (leNat (x.load a 8)), runRow_retires hat (by decide) ((kIf_ok hok _).trans ?_),
      fun j hj => byte_of_load haccess hj⟩
    rw [haddr]
    exact kAccess_goes haccess hfree _
  case store =>
    refine ⟨(x.save a (leBytes 8 (x.xn (iDst w)))).advance, runRow_retires hat (by decide) ((kIf_ok hok _).trans ?_),
      storesElems_word haccess _⟩
    rw [haddr]
    exact kAccess_goes haccess hfree _
end

section
/-! Vector instructions, element by element (R69 to R74, R79 to R84). -/

namespace Sys2Proof.Machine

open Sys2Proof

/-- R71: a row whose instruction writes the elements of V[DST] that the predicate selects. -/
theorem runRow_writesElems {s : State} {core id : Nat} {x : Core} {w : Nat} {op : Nat × Nat} {f : Core → Nat → KOut}
    (hat : s.AtWord core id x w op) (hop : op ∈ knownOps ∨ op = (4, Config.opVmax.toNat) ∨ op = (4, Config.opVlog2.toNat))
    {new : Nat → Nat} (hf : f x w = .next (x.writeElems w (eBits (iEtype w)) (eCount (iEtype w)) new).advance) :
    ∃ y, runRow core op f s = .next (s.setCore core y) ∧ x.writesElems y w (eBits (iEtype w)) (eCount (iEtype w)) new :=
  ⟨_, (runRow_atWord hat hop).1 _ hf, Core.writesElems_writeElems x w _ _ new (eBits_mul_eCount _).le⟩

theorem valuOk_types {types : Nat → Bool} {w : Nat} (h : valuOk types w = true) : types (iEtype w) = true :=
  (Bool.and_eq_true_iff.mp h).1

/-- R69: BF16, FP16 and FP32 are no integer types. -/
theorem eInt_of_wideFp {e : Nat} (h : wideFp e = true) : eInt e = false := by
  simp only [wideFp, eInt, decide_eq_true_eq, decide_eq_false_iff_not] at h ⊢
  omega

section Vec2

variable {types : Nat → Bool} {w : Nat} (hok : valuOk types w = true) (fi : Nat → Int → Int → Int)
  (ff : Fmt → Nat → Nat → Nat) (x : Core)
include hok

/-- R84: an operation for integer types alone. -/
theorem kVec2_ints (htypes : eInt (iEtype w) = true) :
    kVec2 types fi ff x w = .next (x.writeElems w (eBits (iEtype w)) (eCount (iEtype w)) fun i =>
      ofSigned (eBits (iEtype w)) (fi (eBits (iEtype w)) (toSigned (eBits (iEtype w)) (elem (x.vr (iSrcA w)) (eBits (iEtype w)) i))
        (toSigned (eBits (iEtype w)) (elem (x.vr (iSrcB w)) (eBits (iEtype w)) i)))).advance := by
  simp only [kVec2, kIf_ok hok, htypes, if_true]

/-- R81: an operation for floating-point types alone. -/
theorem kVec2_floats (htypes : eInt (iEtype w) = false) :
    kVec2 types fi ff x w = .next (x.writeElems w (eBits (iEtype w)) (eCount (iEtype w)) fun i =>
      ff (eFmt (iEtype w)) (elem (x.vr (iSrcA w)) (eBits (iEtype w)) i) (elem (x.vr (iSrcB w)) (eBits (iEtype w)) i)).advance := by
  simp only [kVec2, kIf_ok hok, htypes, Bool.false_eq_true, if_false]

end Vec2

theorem sMin_eq (b : Nat) : sMin b = -2 ^ (b - 1) := by
  simp [sMin]

theorem sMax_eq (b : Nat) : sMax b = 2 ^ (b - 1) - 1 := by
  simp [sMax]

theorem kFused_next {w : Nat} (htype : wideFp (iEtype w) = true) (himm : iImm25 w = 0)
    (ff : Fmt → Nat → Nat → Nat → Nat) (x : Core) :
    kFused ff x w = .next (x.writeElems w (eBits (iEtype w)) (eCount (iEtype w)) fun i =>
      ff (eFmt (iEtype w)) (elem (x.vr (iSrcA w)) (eBits (iEtype w)) i) (elem (x.vr (iSrcB w)) (eBits (iEtype w)) i)
        (elem (x.vr (iSrcC w)) (eBits (iEtype w)) i)).advance :=
  kIf_ok (by simp [htype, himm]) _

end Sys2Proof.Machine

open Sys2Proof Sys2Proof.Machine in
/-- Settles O5: each instruction writes the elements of its operation, integer or floating-point by its type. The OPs of VMAX and
VLOG2 and the types that they take are the model's choice (log entries 19 and 149). -/
theorem vectorElementResults : Obligations.VectorElementResults := by
  unfold Obligations.VectorElementResults
  intro s core id x w e b A B C gives
  refine ⟨fun hat hok => ?vadd, fun hat hok => ?vmul, fun hat hok => ?vmin, fun hat hok => ?vmax, fun hat hok => ?vadds,
    fun hat hok => ?vdiv, fun hat hok => ?vsqrt, fun hat hok => ?vexp2, fun hat hok => ?vlog2, fun hat hok => ?vbcast,
    fun hat htype himm => ?vfma, fun hat htype himm => ?vfms⟩
  case vadd | vmul | vmin | vsqrt | vexp2 => exact runRow_writesElems hat (.inl (by decide)) (kIf_ok hok _)
  case vmax => exact runRow_writesElems hat (.inr (.inl rfl)) (kIf_ok hok _)
  case vadds =>
    simp only [gives, ← sMin_eq, ← sMax_eq]
    exact runRow_writesElems hat (.inl (by decide)) (kVec2_ints hok _ _ x (valuOk_types hok))
  case vdiv => exact runRow_writesElems hat (.inl (by decide)) (kVec2_floats hok _ _ x (eInt_of_wideFp (valuOk_types hok)))
  case vlog2 => exact runRow_writesElems hat (.inr (.inr rfl)) (kIf_ok hok _)
  case vbcast =>
    obtain ⟨y, hrun, honly, hothers, helems⟩ :=
      runRow_writesElems (f := kVbcast) (new := fun _ => x.xn (iSrcA w) % 2 ^ b) hat (.inl (by decide)) (kIf_ok hok _)
    exact ⟨y, hrun, honly, hothers, fun i hi => by rw [helems i hi, Nat.mod_mod]⟩
  case vfma | vfms => exact runRow_writesElems hat (.inl (by decide)) (kFused_next htype himm _ x)
end

section
/-! Vector loads, stores, gathers and scatters (R71 to R74), and predicates (R60, R71). -/

namespace Sys2Proof.Machine

open Sys2Proof

section Access

variable {s : State} {core id : Nat} {x : Core} {w : Nat} {op : Nat × Nat} {f : Core → Nat → KOut} {adr : Nat → Nat}
  (hat : s.AtWord core id x w op) (hop : op ∈ knownOps)
include hat hop

/-- R71, R74: a row whose instruction loads the selected elements from addresses that are free to read. -/
theorem runRow_loadElems (hf : f x w = kLoadElems x w adr)
    (hfree : ∀ i ∈ activeElems (x.pr (iPred w)) (eCount (iEtype w)),
      x.access false (adr i) (eBytes (iEtype w)) (eBytes (iEtype w)) = 0 ∧ x.blocked false (adr i) (eBytes (iEtype w)) = false) :
    ∃ y, runRow core op f s = .next (s.setCore core y) ∧
      x.writesElems y w (eBits (iEtype w)) (eCount (iEtype w)) fun i => leNat (x.load (adr i) (eBytes (iEtype w))) :=
  runRow_writesElems hat (.inl hop) (hf.trans (kLoad_ok x w adr hfree))

/-- R71, R73, R74: a row whose instruction stores the selected elements to addresses that are free to write. -/
theorem runRow_storeElems (hf : f x w = kStoreElems x w adr)
    (hfree : ∀ i ∈ activeElems (x.pr (iPred w)) (eCount (iEtype w)),
      x.access true (adr i) (eBytes (iEtype w)) (eBytes (iEtype w)) = 0 ∧ x.blocked true (adr i) (eBytes (iEtype w)) = false) :
    ∃ y, runRow core op f s = .next (s.setCore core y) ∧
      x.storesElems y (activeElems (x.pr (iPred w)) (eCount (iEtype w))) (eBytes (iEtype w)) adr
        fun i => elem (x.vr (iDst w)) (eBits (iEtype w)) i := by
  obtain ⟨y, hy, hstores⟩ := kStore_ok x w adr hfree
  exact ⟨y, runRow_retires hat hop (hf.trans hy), hstores⟩

end Access

/-- R72: the index registers and the base of a gather or scatter are aligned. -/
theorem gatherOk_of_aligned {x : Core} {w : Nat} (hregs : iSrcB w % (32 / eBits (iEtype w)) = 0)
    (hbase : x.xn (iSrcA w) % eBytes (iEtype w) = 0) : gatherOk x w = true := by
  simp [gatherOk, indexRegs, hregs, hbase]

/-- R72, R73: a gather or scatter of sound encoding and alignment makes its access. -/
theorem kIf_gather {x : Core} {w : Nat} (hok : immOk w 0 = true) (hregs : iSrcB w % (32 / eBits (iEtype w)) = 0)
    (hbase : x.xn (iSrcA w) % eBytes (iEtype w) = 0) (f : KOut) : kIf (immOk w 0) (kIf (gatherOk x w) f) = f := by
  rw [kIf_ok hok, kIf_ok (gatherOk_of_aligned hregs hbase)]

end Sys2Proof.Machine

open Sys2Proof Sys2Proof.Machine in
/-- Settles O8: each selected element is read or stored at its address, in increasing number, so that the highest-numbered of those
stored at one address stays. -/
theorem vectorMemoryAccess : Obligations.VectorMemoryAccess := by
  unfold Obligations.VectorMemoryAccess
  refine ⟨fun s core id x w adr hfree => ⟨fun hat hadr => ?vld, fun hat hok hregs hbase hadr => ?vgather⟩,
    fun s core id x w adr hfree => ⟨fun hat hpz hadr => ?vst, fun hat hok hregs hbase hadr => ?vscatter⟩⟩
  case vld => exact runRow_loadElems hat (by decide) (congrArg (kLoadElems x w) (vaddrN hadr)) hfree
  case vst =>
    have hok : (!iPz w) = true := by simp [hpz]
    exact runRow_storeElems hat (by decide) ((kIf_ok hok _).trans (congrArg (kStoreElems x w) (vaddrN hadr))) hfree
  all_goals
    have hgaddr : x.gaddr w = adr := funext fun i => (hadr i).symm
  case vgather =>
    exact runRow_loadElems hat (by decide) ((kIf_gather hok hregs hbase _).trans (congrArg (kLoadElems x w) hgaddr)) hfree
  case vscatter =>
    exact runRow_storeElems hat (by decide) ((kIf_gather hok hregs hbase _).trans (congrArg (kStoreElems x w) hgaddr)) hfree

open Sys2Proof Sys2Proof.Machine in
/-- Settles O9: both rows write the predicate register that DST names, VCMPLT as many bits as the type has elements and PFIRSTN all
128. -/
theorem predicateResults : Obligations.PredicateResults := by
  unfold Obligations.PredicateResults
  intro s core id x w e b A B d gives
  refine ⟨fun hat hok => ?vcmplt, fun hat hok => ?pfirstn⟩
  case vcmplt | pfirstn => exact ⟨_, runRow_retires hat (by decide) (kIf_ok hok _), writePred_spec x w _ _⟩
end

section
/-! Conversions (R82 to R84): the parts of a register that they fill and keep. -/

namespace Sys2Proof.Machine

open Sys2Proof

/-- R60: element i of a register that is written from its elements. -/
theorem elem_setV_packElems (x : Core) (r b n : Nat) (f : Nat → Nat) (hn : b * n ≤ 1024) {i : Nat} (hi : i < n) :
    elem ((x.setV r (packElems b ((List.range n).map f))).vr r) b i = f i % 2 ^ b := by
  have hlen : ((List.range n).map f).length = n := by rw [List.length_map, List.length_range]
  have hlt : packElems b ((List.range n).map f) < 2 ^ 1024 :=
    lt_of_lt_of_le (packElems_lt b _) (Nat.pow_le_pow_right (by decide) (hlen.symm ▸ hn))
  have hget : ((List.range n).map f).getD i 0 = f i := by simp [List.getD, hi]
  rw [Core.vr_setV, if_pos rfl, Nat.mod_eq_of_lt hlt, elem_packElems _ _ _ (by rwa [hlen]), hget]

/-- R84: the elements of V[DST] after a narrowing conversion: those of the part from `lo`, of n elements, are the results. -/
def Core.narrowed (x : Core) (w b lo n : Nat) (new : Nat → Nat) (j : Nat) : Nat :=
  if lo ≤ j && j < lo + n then
    predicated (x.pr (iPred w)) (iPz w) (fun i => elem (x.vr (iDst w)) b (lo + i)) new (j - lo)
  else elem (x.vr (iDst w)) b j

theorem narrowed_part (x : Core) (w b lo n : Nat) (new : Nat → Nat) {i : Nat} (hi : i < n) :
    x.narrowed w b lo n new (lo + i) % 2 ^ b =
      if (x.pr (iPred w)).testBit i then new i % 2 ^ b else if iPz w then 0 else elem (x.vr (iDst w)) b (lo + i) := by
  have hin : (decide (lo ≤ lo + i) && decide (lo + i < lo + n)) = true := by simp [hi]
  rw [Core.narrowed, if_pos hin, Nat.add_sub_cancel_left, predicated]
  split
  · rfl
  · split
    · exact Nat.zero_mod _
    · exact Nat.mod_eq_of_lt (elem_lt _ _ _)

theorem narrowed_rest (x : Core) (w b lo n : Nat) (new : Nat → Nat) {j : Nat} (hj : j < lo ∨ lo + n ≤ j) :
    x.narrowed w b lo n new j % 2 ^ b = elem (x.vr (iDst w)) b j := by
  rw [Core.narrowed, if_neg (by simp only [Bool.and_eq_true, decide_eq_true_eq]; omega)]
  exact Nat.mod_eq_of_lt (elem_lt _ _ _)

/-- R84: part `part` of a register, of as many elements as the wider type has, lies within the elements of the narrower one. -/
theorem part_fits {part wide narrow : Nat} (hpart : part < wide / narrow) (hnarrow : 0 < narrow) :
    part * (1024 / wide) + 1024 / wide ≤ 1024 / narrow := by
  rw [Nat.le_div_iff_mul_le hnarrow]
  calc (part * (1024 / wide) + 1024 / wide) * narrow = (part + 1) * narrow * (1024 / wide) := by ring
    _ ≤ wide * (1024 / wide) := Nat.mul_le_mul_right _ (le_trans (Nat.mul_le_mul_right _ hpart) (Nat.div_mul_le_self _ _))
    _ ≤ 1024 := Nat.mul_div_le _ _

theorem eBits_pos (e : Nat) : 0 < eBits e := by
  unfold eBits
  split <;> decide

section Convert

variable {x : Core} {w part e t : Nat} {z : Bool} {ok : Nat → Nat → Bool} (hetype : e = iEtype w)
  (ht : t = bits (iImm25 w) 2 0) (hpartOf : part = bits (iImm25 w) 4 3) (himm : immOk w 5 = true) (hok : ok e t = true)
include hetype ht hpartOf himm hok

/-- R84: a conversion to a type as wide or wider. -/
theorem kConvert_widens (hwide : eBits e ≤ eBits t) (hpart : part < eBits t / eBits e) :
    kConvert z ok x w = .next (x.writeElems w (eBits t) (1024 / max (eBits e) (eBits t)) fun i =>
      convElem z e t (elem (x.vr (iSrcA w)) (eBits e)
        (if eBits e < eBits t then part * (1024 / max (eBits e) (eBits t)) + i else i))).advance := by
  subst hetype ht hpartOf
  rw [kConvert, kIf_ok (by simp [himm, hok, hpart]), if_neg (not_lt.mpr hwide)]

/-- R84: a narrowing conversion. -/
theorem kConvert_narrows (hnarrow : eBits t < eBits e) (hpart : part < eBits e / eBits t) :
    kConvert z ok x w = .next (x.setV (iDst w) (packElems (eBits t) ((List.range (1024 / eBits t)).map
      (x.narrowed w (eBits t) (part * (1024 / max (eBits e) (eBits t))) (1024 / max (eBits e) (eBits t)) fun i =>
        convElem z e t (elem (x.vr (iSrcA w)) (eBits e) i))))).advance := by
  subst hetype ht hpartOf
  rw [kConvert, kIf_ok (by simp [himm, hok, hpart]), if_pos hnarrow]
  simp only [if_neg (not_lt.mpr hnarrow.le)]
  rfl

end Convert

/-- R82, R83: which source and target types the row of VCVTZ, or of VCVT, takes. -/
def convertTypes (z : Bool) (e t : Nat) : Bool := !z || (wideFp e && eInt t)

theorem exec_convert {s : State} {core id : Nat} {x y : Core} {w : Nat} {z : Bool}
    (hat : s.AtWord core id x w (6, if z then 0x01 else 0x00)) (hnext : kConvert z (convertTypes z) x w = .next y) :
    (if z then exec (.vcvtz core) s else exec (.vcvt core) s) = .next (s.setCore core y) := by
  cases z with
  | false => exact runRow_retires hat (by decide) hnext
  | true => exact runRow_retires hat (by decide) hnext

end Sys2Proof.Machine

open Sys2Proof Sys2Proof.Machine in
/-- Settles O6: a widening conversion writes V[DST] as the element-wise instructions do, and a narrowing one writes all of its
elements, those outside the part with what they held. -/
theorem conversionParts : Obligations.ConversionParts := by
  unfold Obligations.ConversionParts
  intro s core id x w z e t part be bt n r hat himm htypes
  have hok : convertTypes z e t = true := by
    cases z with
    | false => rfl
    | true => simp [convertTypes, htypes rfl]
  refine ⟨fun hwide hpart => ?widens, fun hnarrow hpart => ?narrows⟩
  case widens =>
    have hn : bt * n ≤ 1024 := by
      have hmax : n = 1024 / bt := by simp only [n, max_eq_right hwide]
      rw [hmax]
      exact Nat.mul_div_le _ _
    exact ⟨_, exec_convert hat (kConvert_widens rfl rfl rfl himm hok hwide hpart), Core.writesElems_writeElems x w bt n _ hn⟩
  case narrows =>
    have hmax : n = 1024 / be := by simp only [n, max_eq_left hnarrow.le]
    have hfits : part * n + n ≤ 1024 / bt := hmax ▸ part_fits hpart (eBits_pos t)
    have helem {j : Nat} (hj : j < 1024 / bt) := elem_setV_packElems x (iDst w) bt (1024 / bt)
      (x.narrowed w bt (part * n) n fun i => convElem z e t (elem (x.vr (iSrcA w)) be i)) (Nat.mul_div_le _ _) hj
    refine ⟨_, exec_convert hat (kConvert_narrows rfl rfl rfl himm hok hnarrow hpart), rfl, fun q hq => ?others, fun i hi => ?part,
      fun j hj hout => ?rest⟩
    case others => exact (Core.vr_setV ..).trans (if_neg hq)
    case part => exact (helem (by omega)).trans (narrowed_part x w bt _ n _ hi)
    case rest => exact (helem hj).trans (narrowed_rest x w bt _ n _ hout)
end

section
/-! Reductions (R79, R85): what a tree over a register's elements comes to. -/

namespace Sys2Proof.Machine

open Sys2Proof

/-! ## The tree -/

theorem length_pairUp {α : Type} (op : α → α → α) : ∀ (n : Nat) (l : List α), l.length = 2 * n → (pairUp op l).length = n
  | 0, [], _ => rfl
  | n + 1, a :: b :: r, h => by
    simp only [List.length_cons] at h
    rw [pairUp, List.length_cons, length_pairUp op n r (by omega)]

theorem pairUp_append {α : Type} (op : α → α → α) : ∀ (n : Nat) (l m : List α), l.length = 2 * n →
    pairUp op (l ++ m) = pairUp op l ++ pairUp op m
  | 0, [], _, _ => rfl
  | n + 1, a :: b :: r, m, h => by
    simp only [List.length_cons] at h
    simp only [List.cons_append, pairUp, pairUp_append op n r m (by omega)]

/-- R85: the last level of a tree joins the trees of the two halves. -/
theorem treeReduce_append {α : Type} (op : α → α → α) {k : Nat} {l m : List α} {a b : α} (hl : l.length = 2 ^ k)
    (hm : m.length = 2 ^ k) (ha : treeReduce op k l = [a]) (hb : treeReduce op k m = [b]) :
    treeReduce op (k + 1) (l ++ m) = [op a b] := by
  induction k generalizing l m with
  | zero =>
    have hla : l = [a] := ha
    have hmb : m = [b] := hb
    rw [hla, hmb]
    rfl
  | succ k ih =>
    have hhalf {l : List α} (h : l.length = 2 ^ (k + 1)) : l.length = 2 * 2 ^ k := by rw [h, Nat.pow_succ, Nat.mul_comm]
    rw [treeReduce, pairUp_append op _ l m (hhalf hl)]
    exact ih (length_pairUp op _ l (hhalf hl)) (length_pairUp op _ m (hhalf hm)) ha hb

section Induction

variable {α : Type} {op : α → α → α} {P : List α → α → Prop} (hone : ∀ a, P [a] a)
  (hjoin : ∀ l m a b, P l a → P m b → P (l ++ m) (op a b))
include hone hjoin

/-- R85: what holds of one element, and of two runs of elements joined, holds of a tree. -/
theorem treeReduce_induction (k : Nat) {l : List α} (hl : l.length = 2 ^ k) : ∃ r, treeReduce op k l = [r] ∧ P l r := by
  induction k generalizing l with
  | zero =>
    obtain ⟨a, rfl⟩ := List.length_eq_one_iff.mp hl
    exact ⟨a, rfl, hone a⟩
  | succ k ih =>
    have hsum : l.length = 2 ^ k + 2 ^ k := by rw [hl, Nat.pow_succ, Nat.mul_two]
    have htake : (l.take (2 ^ k)).length = 2 ^ k := by rw [List.length_take]; omega
    have hdrop : (l.drop (2 ^ k)).length = 2 ^ k := by rw [List.length_drop]; omega
    obtain ⟨a, ha, hPa⟩ := ih htake
    obtain ⟨b, hb, hPb⟩ := ih hdrop
    have htree := treeReduce_append op htake hdrop ha hb
    have hjoined := hjoin _ _ a b hPa hPb
    rw [List.take_append_drop] at htree hjoined
    exact ⟨_, htree, hjoined⟩

/-- R85: the elements of a register and what a reduction makes of them. -/
theorem vred_induction (z : α) (f : Nat → α) (p e : Nat) :
    P ((List.range (eCount e)).map fun i => if p.testBit i then f i else z) (vred op z f p (eCount e)) := by
  obtain ⟨k, hk⟩ : ∃ k, eCount e = 2 ^ k := by
    unfold eCount eBits
    split
    case h_1 | h_4 | h_5 => exact ⟨7, rfl⟩
    case h_2 | h_6 | h_7 => exact ⟨6, rfl⟩
    all_goals exact ⟨5, rfl⟩
  have hlen : ((List.range (eCount e)).map fun i => if p.testBit i then f i else z).length = 2 ^ k := by
    rw [List.length_map, List.length_range, hk]
  obtain ⟨r, htree, hP⟩ := treeReduce_induction hone hjoin k hlen
  have hr : vred op z f p (eCount e) = r := by
    rw [vred, show (eCount e).log2 = k by rw [hk, Nat.log2_two_pow], htree]
    rfl
  rwa [hr]

end Induction

/-! ## Sums of integers -/

/-- R85: a sum that wraps at every level is the sum of the selected elements, wrapped. -/
theorem vred_sum (m : Nat) (f : Nat → Nat) (p e : Nat) :
    vred (fun s t => (s + t) % m) 0 f p (eCount e) % m = ((activeElems p (eCount e)).map f).sum % m := by
  have hcong : vred (fun s t => (s + t) % m) 0 f p (eCount e) ≡
      ((List.range (eCount e)).map fun i => if p.testBit i then f i else 0).sum [MOD m] := by
    refine vred_induction (P := fun l r => r ≡ l.sum [MOD m]) (fun a => ?one) (fun l₁ l₂ a b ha hb => ?join) 0 f p e
    case one => rw [List.sum_singleton]
    case join =>
      rw [List.sum_append]
      exact (Nat.mod_modEq _ _).trans (ha.add hb)
  have hselected : ((List.range (eCount e)).map fun i => if p.testBit i then f i else 0).sum =
      ((activeElems p (eCount e)).map f).sum := by
    simp [List.sum_map_ite, activeElems]
  rw [← hselected]
  exact hcong

theorem ofSigned_cast (b : Nat) (i : Int) : (ofSigned b i : Int) = i % (2 ^ b : Nat) :=
  Int.toNat_of_nonneg (Int.emod_nonneg _ (by positivity))

/-- R85: a sum of codes is the code of the sum, wrapped. -/
theorem sum_ofSigned (b : Nat) (l : List Nat) (f : Nat → Int) :
    (l.map fun i => ofSigned b (f i)).sum ≡ ofSigned b (l.map f).sum [MOD 2 ^ b] := by
  rw [← Int.natCast_modEq_iff, ofSigned_cast]
  refine Int.ModEq.trans ?_ (Int.mod_modEq _ _).symm
  induction l with
  | nil => rfl
  | cons a l ih =>
    simp only [List.map_cons, List.sum_cons, Nat.cast_add, ofSigned_cast]
    exact (Int.mod_modEq _ _).add ih

/-! ## The best of several integers -/

/-- R85: `r` is the best of the integers `l` by an operation that keeps the better of two; none of none. -/
def BestOf (op : Int → Int → Int) (l : List Int) (r : Option Int) : Prop :=
  (l = [] ∧ r = none) ∨ ∃ v ∈ l, r = some v ∧ ∀ m ∈ l, op v m = v

/-- R71: the values of the selected elements, among those of all. -/
theorem filterMap_selected {α : Type} (q : Nat → Bool) (f : Nat → α) (l : List Nat) :
    (l.map fun i => if q i then some (f i) else none).filterMap id = (l.filter q).map f := by
  rw [List.filterMap_map]
  induction l with
  | nil => rfl
  | cons i l ih => cases hq : q i <;> simp [hq, ← ih]

section Best

variable {op : Int → Int → Int} (hsel : ∀ a b, op a b = a ∨ op a b = b)
include hsel

theorem bestOf_one (a : Option Int) : BestOf op ([a].filterMap id) a := by
  cases a with
  | none => exact .inl ⟨rfl, rfl⟩
  | some v =>
    have hself : op v v = v := (hsel v v).elim id id
    exact .inr ⟨v, List.mem_singleton.mpr rfl, rfl, fun n hn => by rw [List.mem_singleton.mp hn, hself]⟩

variable (hassoc : ∀ a b c, op (op a b) c = op a (op b c)) (hcomm : ∀ a b, op a b = op b a)
include hassoc hcomm

theorem BestOf.append {l m : List Int} {a b : Option Int} (ha : BestOf op l a) (hb : BestOf op m b) :
    BestOf op (l ++ m) (a.merge op b) := by
  rcases ha with ⟨rfl, rfl⟩ | ⟨u, hu, rfl, hbu⟩
  · simpa using hb
  rcases hb with ⟨rfl, rfl⟩ | ⟨v, hv, rfl, hbv⟩
  · simpa using .inr ⟨u, hu, rfl, hbu⟩
  refine .inr ⟨op u v, ?mem, rfl, fun n hn => ?best⟩
  case mem =>
    rcases hsel u v with h | h <;> rw [h, List.mem_append]
    · exact .inl hu
    · exact .inr hv
  case best =>
    rcases List.mem_append.mp hn with hn | hn
    · rw [hcomm u v, hassoc, hbu n hn]
    · rw [hassoc, hbv n hn]

/-- R85: the tree over the selected integers finds the best of them. -/
theorem intBest_bestOf (b va p e : Nat) :
    BestOf op ((activeElems p (eCount e)).map fun i => toSigned b (elem va b i)) (intBest op b va p (eCount e)) := by
  have htree : intBest op b va p (eCount e) = vred (Option.merge op) none (fun i => some (toSigned b (elem va b i))) p (eCount e) := by
    unfold intBest
    congr 1
    funext u v
    cases u <;> cases v <;> rfl
  have hbest := vred_induction (op := Option.merge op) (P := fun l r => BestOf op (l.filterMap id) r) (bestOf_one hsel)
    (fun l m a b ha hb => by rw [List.filterMap_append]; exact ha.append hsel hassoc hcomm hb)
    none (fun i => some (toSigned b (elem va b i))) p e
  rw [htree]
  rwa [filterMap_selected] at hbest

/-- R85: an integer that no selected one betters is what the tree finds. -/
theorem intBest_eq_some {b va p e m : Nat} (hm : m ∈ activeElems p (eCount e))
    (hbest : ∀ i ∈ activeElems p (eCount e), op (toSigned b (elem va b m)) (toSigned b (elem va b i)) = toSigned b (elem va b m)) :
    intBest op b va p (eCount e) = some (toSigned b (elem va b m)) := by
  rcases intBest_bestOf hsel hassoc hcomm b va p e with ⟨hempty, -⟩ | ⟨v, hv, hr, hbestv⟩
  · rw [List.map_eq_nil_iff.mp hempty] at hm
    exact absurd hm (List.not_mem_nil)
  · obtain ⟨i, hi, rfl⟩ := List.mem_map.mp hv
    have hvm := hbestv _ (List.mem_map_of_mem hm)
    rw [hr, ← hvm, hcomm, hbest i hi]

theorem intBest_eq_none {b va p e : Nat} (hnone : activeElems p (eCount e) = []) : intBest op b va p (eCount e) = none := by
  rcases intBest_bestOf hsel hassoc hcomm b va p e with ⟨-, hr⟩ | ⟨v, hv, -⟩
  · exact hr
  · rw [hnone] at hv
    exact absurd hv (List.not_mem_nil)

end Best

/-- R69: an element is the code of the integer that it stands for. -/
theorem ofSigned_toSigned (b v : Nat) : ofSigned b (toSigned b v) = v % 2 ^ b := by
  have hcast : (ofSigned b (toSigned b v) : Int) = (v % 2 ^ b : Nat) := by
    rw [ofSigned_cast, toSigned]
    split <;> simp
  exact_mod_cast hcast

/-! ## The rows -/

/-- R85: a reduction writes element 0 and zero to the others, and nothing else. -/
theorem writeRed_spec (x : Core) (w b v : Nat) (hb : b ≤ 1024) :
    x.onlyVectors (x.writeRed w b v).advance ∧ (∀ q, q ≠ iDst w → (x.writeRed w b v).advance.vr q = x.vr q) ∧
      (x.writeRed w b v).advance.vr (iDst w) = v % 2 ^ b := by
  refine ⟨rfl, fun q hq => (Core.vr_setV ..).trans (if_neg hq), (Core.vr_setV ..).trans ?_⟩
  rw [if_pos rfl]
  exact Nat.mod_eq_of_lt (lt_of_lt_of_le (Nat.mod_lt _ (Nat.two_pow_pos b)) (Nat.pow_le_pow_right (by decide) hb))

theorem eBits_le (e : Nat) : eBits e ≤ 1024 := by
  unfold eBits
  split <;> decide

/-- R85: what a row leaves whose instruction writes a reduction; its value counts modulo 2^b. -/
theorem writeRed_gives {s : State} {core : Nat} {x : Core} {w : Nat} {r : Res} {b v v' : Nat} (hb : b ≤ 1024)
    (hr : r = .next (s.setCore core (x.writeRed w b v').advance)) (hv : v' % 2 ^ b = v % 2 ^ b) :
    ∃ y, r = .next (s.setCore core y) ∧ x.onlyVectors y ∧ (∀ q, q ≠ iDst w → y.vr q = x.vr q) ∧ y.vr (iDst w) = v % 2 ^ b := by
  rw [← hv]
  exact ⟨_, hr, writeRed_spec x w b v' hb⟩

/-- R79, R85: what the reduction by VMAX or VMIN finds among a register's selected elements. -/
def Core.redBest (x : Core) (w : Nat) (max_ : Bool) : Nat :=
  if eInt (iEtype w) then
    (match intBest (if max_ then max else min) (eBits (iEtype w)) (x.vr (iSrcA w)) (x.pr (iPred w)) (eCount (iEtype w)) with
     | some m => ofSigned (eBits (iEtype w)) m
     | none => (Config.redNone max_ (iEtype w)).toNat)
  else vred (if max_ then fpMax (eFmt (iEtype w)) else fpMin (eFmt (iEtype w))) (eFmt (iEtype w)).nan
    (elem (x.vr (iSrcA w)) (eBits (iEtype w))) (x.pr (iPred w)) (eCount (iEtype w))

theorem kVredBest_next {w : Nat} (hok : valuOk notFp8 w = true) (max_ : Bool) (x : Core) :
    kVredBest max_ x w = .next (x.writeRed w (eBits (iEtype w)) (x.redBest w max_)).advance :=
  kIf_ok hok _

section RedBest

variable {x : Core} {w : Nat} {max_ : Bool}

theorem redBest_float (hint : eInt (iEtype w) = false) : x.redBest w max_ =
    vred (if max_ then fpMax (eFmt (iEtype w)) else fpMin (eFmt (iEtype w))) (eFmt (iEtype w)).nan
      (elem (x.vr (iSrcA w)) (eBits (iEtype w))) (x.pr (iPred w)) (eCount (iEtype w)) := by
  rw [Core.redBest, if_neg (by simp [hint])]

theorem redBest_some (hint : eInt (iEtype w) = true) {m : Nat}
    (hbest : intBest (if max_ then max else min) (eBits (iEtype w)) (x.vr (iSrcA w)) (x.pr (iPred w)) (eCount (iEtype w)) =
      some (toSigned (eBits (iEtype w)) (elem (x.vr (iSrcA w)) (eBits (iEtype w)) m))) :
    x.redBest w max_ % 2 ^ eBits (iEtype w) = elem (x.vr (iSrcA w)) (eBits (iEtype w)) m % 2 ^ eBits (iEtype w) := by
  rw [Core.redBest, if_pos hint, hbest]
  simp only [ofSigned_toSigned, Nat.mod_mod]

theorem redBest_none (hint : eInt (iEtype w) = true)
    (hbest : intBest (if max_ then max else min) (eBits (iEtype w)) (x.vr (iSrcA w)) (x.pr (iPred w)) (eCount (iEtype w)) = none) :
    x.redBest w max_ = (Config.redNone max_ (iEtype w)).toNat := by
  rw [Core.redBest, if_pos hint, hbest]

end RedBest

section Row

variable {s : State} {core id : Nat} {x : Core} {w : Nat} {op : Nat × Nat} (hat : s.AtWord core id x w op)
include hat

/-- R79: a word of the reduction by VMIN, which has no row in the tables, retires under the OP that the model gives it. -/
theorem runRow_retires_of_defined {f : Core → Nat → KOut} (hdefined : opDefined w = true) {y : Core} (hf : f x w = .next y) :
    runRow core op f s = .next (s.setCore core y) := by
  obtain ⟨v, hfetch, rfl⟩ := Option.map_eq_some_iff.mp hat.word
  rw [runRow, withCore_runs _ hat.isCore hat.clocked hat.up]
  simp only [hat.here, hat.running, not_le.mpr hat.within, hfetch, hdefined, hat.row, hf, if_false, Bool.not_true,
    Bool.false_eq_true, ne_eq, not_true_eq_false]

/-- R79, R85: VREDMAX judges the word at PC by its OP. -/
theorem exec_vredmax_eq : exec (.vredmax core) s =
    if iOp w = 3 then runRow core (7, 0x03) kVredmax s else runRow core (7, Config.opVredmin.toNat) kVredmin s := by
  obtain ⟨v, hfetch, rfl⟩ := Option.map_eq_some_iff.mp hat.word
  show execVredmax core s = _
  simp only [execVredmax, hat.here, hfetch, Option.getD_some]

end Row

theorem exec_vredmax_max {s : State} {core id : Nat} {x : Core} {w : Nat} (hat : s.AtWord core id x w (7, 0x03))
    (hok : valuOk notFp8 w = true) :
    exec (.vredmax core) s = .next (s.setCore core (x.writeRed w (eBits (iEtype w)) (x.redBest w true)).advance) := by
  have hop : iOp w = 3 := congrArg Prod.snd hat.row
  rw [exec_vredmax_eq hat, if_pos hop]
  exact runRow_retires hat (by decide) (kVredBest_next hok true x)

theorem exec_vredmax_min {s : State} {core id : Nat} {x : Core} {w : Nat} (hmin : Config.opVredmin.toNat ≠ 3)
    (hat : s.AtWord core id x w (7, Config.opVredmin.toNat)) (hok : valuOk notFp8 w = true) :
    exec (.vredmax core) s = .next (s.setCore core (x.writeRed w (eBits (iEtype w)) (x.redBest w false)).advance) := by
  have hclass : iClass w = 7 := congrArg Prod.fst hat.row
  have hop : iOp w = Config.opVredmin.toNat := congrArg Prod.snd hat.row
  rw [exec_vredmax_eq hat, if_neg (hop ▸ hmin)]
  exact runRow_retires_of_defined hat (by simp [opDefined, hclass, hop]) (kVredBest_next hok false x)

end Sys2Proof.Machine

open Sys2Proof Sys2Proof.Machine in
/-- Settles O7: a tree of wrapping sums is the wrapped sum of the selected elements, a tree of maxima is the largest of them, and a
floating-point tree stands as it is. -/
theorem reductionResults : Obligations.ReductionResults := by
  unfold Obligations.ReductionResults
  intro s core id x w e b n p A on tree gives
  have hb : b ≤ 1024 := eBits_le e
  refine ⟨fun hat hok => ?vredsum, fun hat htype himm => ?vredsumw, fun hat hok hint => ?maxFloat,
    fun hat hok hint m hm hbest => ?maxInt, fun hat hok hint hnone => ?maxNone, fun hop hat hok hint => ?minFloat, fun hop hat hok hint m hm hbest => ?minInt⟩
  case vredsum =>
    refine writeRed_gives hb (runRow_retires hat (by decide) (kIf_ok hok _)) ?_
    split
    · exact vred_sum _ A p e
    · rfl
  case vredsumw =>
    have hok : valuOk (fun e => e == 0 || e == 1 || e == 5 || e == 6) w = true := by
      simp only [valuOk, himm, Bool.and_true, Bool.or_eq_true, beq_iff_eq]
      tauto
    refine writeRed_gives (by decide) (runRow_retires hat (by decide) (kIf_ok hok _)) ?_
    split
    · exact (vred_sum _ _ p e).trans (sum_ofSigned 32 on fun i => toSigned b (A i))
    · rfl
  case maxFloat => exact writeRed_gives hb (exec_vredmax_max hat hok) (congrArg (· % 2 ^ b) (redBest_float hint))
  case minFloat => exact writeRed_gives hb (exec_vredmax_min hop hat hok) (congrArg (· % 2 ^ b) (redBest_float hint))
  case maxNone =>
    exact writeRed_gives hb (exec_vredmax_max hat hok)
      (congrArg (· % 2 ^ b) (redBest_none hint (intBest_eq_none max_choice max_assoc max_comm hnone)))
  case maxInt =>
    exact writeRed_gives hb (exec_vredmax_max hat hok)
      (redBest_some hint (intBest_eq_some max_choice max_assoc max_comm hm fun i hi => max_eq_left (hbest i hi)))
  case minInt =>
    exact writeRed_gives hb (exec_vredmax_min hop hat hok)
      (redBest_some hint (intBest_eq_some min_choice min_assoc min_comm hm fun i hi => min_eq_left (hbest i hi)))
end

section
/-! The tile matrix unit (R89 to R93). -/

namespace Sys2Proof.Machine

open Sys2Proof

theorem tagTaken_iff (x : Core) (tag : Nat) : (x.tmu.any fun j => j.tag == tag) = true ↔ ∃ t ∈ x.tmu, t.tag = tag := by
  simp

theorem tagFree_iff (x : Core) (tag : Nat) : (x.tmu.any fun j => j.tag == tag) = false ↔ ∀ t ∈ x.tmu, t.tag ≠ tag := by
  simp

/-- R65: PRED, ETYPE and PZ are 0, and IMM25 has as many bits as the instruction has room for. -/
theorem fields_ok {w n : Nat} (hfields : noVector w = true) (himm : immOk w n = true) : (noVector w && immOk w n) = true :=
  Bool.and_eq_true_iff.mpr ⟨hfields, himm⟩

section Tag

variable {x : Core} {w : Nat} (hok : (noVector w && immOk w 2) = true)
include hok

/-- R89 to R91: TISSUE of a sound descriptor under a free tag. -/
theorem kTissue_issues (hfree : ∀ t ∈ x.tmu, t.tag ≠ iImm25 w) (haccess : x.access false (x.xn (iSrcA w)) 64 8 = 0)
    (hunblocked : x.blocked false (x.xn (iSrcA w)) 64 = false) (hfields : (tmuDesc (x.load (x.xn (iSrcA w)) 64)).fieldsOk = true)
    (hcheck : (tmuDesc (x.load (x.xn (iSrcA w)) 64)).check x = 0) :
    kTissue x w = .next ({ x with tmu := x.tmu ++ [{ tag := iImm25 w, desc := x.load (x.xn (iSrcA w)) 64 }] } : Core).advance := by
  have htag := (tagFree_iff x (iImm25 w)).mpr hfree
  rw [kTissue, kIf_ok hok]
  dsimp only
  rw [if_neg (by simp only [htag, Bool.false_eq_true, not_false_eq_true]), kAccess_goes haccess hunblocked, kIf_ok hfields, hcheck]
  rfl

/-- R89: TISSUE waits while its tag is outstanding. -/
theorem kTissue_waits (htaken : ∃ t ∈ x.tmu, t.tag = iImm25 w) : kTissue x w = .wait := by
  rw [kTissue, kIf_ok hok]
  exact if_pos ((tagTaken_iff x _).mpr htaken)

theorem kTwait_goes (hfree : ∀ t ∈ x.tmu, t.tag ≠ iImm25 w) : kTwait x w = .next x.advance := by
  have htag := (tagFree_iff x (iImm25 w)).mpr hfree
  rw [kTwait, kIf_ok hok]
  exact if_neg (by simp only [htag, Bool.false_eq_true, not_false_eq_true])

theorem kTwait_waits (htaken : ∃ t ∈ x.tmu, t.tag = iImm25 w) : kTwait x w = .wait := by
  rw [kTwait, kIf_ok hok]
  exact if_pos ((tagTaken_iff x _).mpr htaken)

end Tag

section Outstanding

variable {pre post : List TmuJob} {t : TmuJob} (hothers : ∀ u ∈ pre ++ post, u.tag ≠ t.tag)
include hothers

/-- R89: a tag names one outstanding descriptor. -/
theorem find_tag : (pre ++ t :: post).find? (fun u => u.tag == t.tag) = some t := by
  have hpre : pre.find? (fun u => u.tag == t.tag) = none :=
    List.find?_eq_none.mpr fun u hu => by simpa using hothers u (List.mem_append_left _ hu)
  rw [List.find?_append, hpre, List.find?_cons_of_pos (by simp)]
  rfl

/-- R92: a tag that is free again names none. -/
theorem filter_tag : (pre ++ t :: post).filter (fun u => u.tag ≠ t.tag) = pre ++ post := by
  rw [List.filter_append, List.filter_cons_of_neg (by simp), ← List.filter_append]
  exact List.filter_eq_self.mpr fun u hu => by simpa using hothers u hu

/-- R92: TMU_DESCRIPTOR_DONE of an outstanding tag. -/
theorem exec_tmuDescriptorDone_done {s : State} {core : Nat} {x : Core} (hcore : core < Config.cores)
    (hclocked : s.power.droop.contains (core / 8) = false) (hup : s.up = true) (hhere : s.core core = x)
    (htmu : x.tmu = pre ++ t :: post) : exec (.tmuDescriptorDone core t.tag) s =
      .next (s.setCore core ((tmuDesc t.desc).run { x with tmu := pre ++ post })) := by
  show execTmuDescriptorDone core t.tag s = _
  rw [execTmuDescriptorDone, withCore_runs _ hcore hclocked hup]
  simp only [hhere, htmu, find_tag hothers, filter_tag hothers]

end Outstanding

end Sys2Proof.Machine

open Sys2Proof Sys2Proof.Machine in
/-- Settles O10: by whether the tag is outstanding; a tag names one descriptor, which is done as the unit computes it. -/
theorem tileMatrixUnit : Obligations.TileMatrixUnit := by
  unfold Obligations.TileMatrixUnit
  intro s core id x w a tag
  refine ⟨fun hat hfields himm haccess hdesc hcheck hunblocked hfree => ?issues, fun hat hfields himm htaken => ?issueWaits,
    fun hat hfields himm hfree => ?goes, fun hat hfields himm htaken => ?waits,
    fun k pre post t hcore hclocked hup hhere htmu htag hothers => ?done⟩
  case issues =>
    exact runRow_retires hat (by decide) (kTissue_issues (fields_ok hfields himm) hfree haccess hunblocked hdesc hcheck)
  case issueWaits => exact runRow_waits hat (by decide) (kTissue_waits (fields_ok hfields himm) htaken)
  case goes => exact runRow_retires hat (by decide) (kTwait_goes (fields_ok hfields himm) hfree)
  case waits => exact runRow_waits hat (by decide) (kTwait_waits (fields_ok hfields himm) htaken)
  case done =>
    subst htag
    exact exec_tmuDescriptorDone_done hothers hcore hclocked hup hhere htmu
end

section
/-! System instructions (R87, R88, R95). -/

namespace Sys2Proof.Machine

open Sys2Proof

/-! ## The generator (R87, R145) -/

theorem quadNat_lt (q : Quad) : quadNat q < 2 ^ 128 := by
  have h0 := q.w0.isLt
  have h1 := q.w1.isLt
  have h2 := q.w2.isLt
  have h3 := q.w3.isLt
  unfold quadNat
  omega

/-- R87: the low word of a draw. -/
theorem quadNat_low (q : Quad) : BitVec.ofNat 64 (quadNat q) = BitVec.ofNat 64 (q.w0.toNat + 2 ^ 32 * q.w1.toNat) := by
  apply BitVec.eq_of_toNat_eq
  rw [BitVec.toNat_ofNat, BitVec.toNat_ofNat, quadNat]
  omega

/-- R87: the high word of a draw. -/
theorem quadNat_high (q : Quad) :
    BitVec.ofNat 64 (quadNat q / 2 ^ 64) = BitVec.ofNat 64 (q.w2.toNat + 2 ^ 32 * q.w3.toNat) := by
  have h0 := q.w0.isLt
  have h1 := q.w1.isLt
  congr 1
  unfold quadNat
  omega

theorem setX_pc (x : Core) (r : Nat) (v : Word) : (x.setX r v).pc = x.pc := by
  unfold Core.setX
  split <;> rfl

theorem setX_steps (x : Core) (r : Nat) (v : Word) : (x.setX r v).steps = x.steps := by
  unfold Core.setX
  split <;> rfl

theorem iDst_lt (w : Nat) : iDst w < 32 := Nat.mod_lt _ (by decide)

theorem kDraw_next {x : Core} {w : Nat} (hok : (noVector w && immOk w 0) = true) (heven : iDst w % 2 = 0) (hdraw : x.draw < 2 ^ 26) :
    kDraw x w = .next
      { (x.setX (iDst w) (BitVec.ofNat 64 ((x.drawOut x.draw).w0.toNat + 2 ^ 32 * (x.drawOut x.draw).w1.toNat))).setX
          (iDst w + 1) (BitVec.ofNat 64 ((x.drawOut x.draw).w2.toNat + 2 ^ 32 * (x.drawOut x.draw).w3.toNat)) with
        draw := x.draw + 1, pc := x.pc + 1, steps := x.steps + 1 } := by
  have hdst : (iDst w % 2 == 0 && decide (iDst w ≤ 30) && decide (x.draw < 2 ^ 26)) = true := by
    have hlt := iDst_lt w
    simp only [Bool.and_eq_true, beq_iff_eq, decide_eq_true_eq]
    omega
  rw [kDraw, kIf_ok hok, kIf_ok hdst, Core.setXn, Core.setXn, quadNat_low, quadNat_high]
  simp only [Core.advance, setX_pc, setX_steps]

/-- R87: the eight draws of VDRAW fill a register. -/
theorem kVdraw_next {x : Core} {w : Nat} (hok : (noVector w && immOk w 0) = true) (hdraw : x.draw + 7 < 2 ^ 26) :
    kVdraw x w = .next ({ x.setV (iDst w) (packElems 128 ((List.range 8).map fun i => quadNat (x.drawOut (x.draw + i)))) with
      draw := x.draw + 8 } : Core).advance := by
  rw [kVdraw, kIf_ok hok, kIf_ok (decide_eq_true hdraw)]

/-! ## System registers (R88) -/

section Srd

variable {x : Core} {w : Nat} (hok : (noVector w && immOk w 8) = true)
include hok

theorem kSrd_next {v : Nat} (hreg : x.sr (iImm25 w) = some v) :
    kSrd x w = .next (x.setX (iDst w) (BitVec.ofNat 64 v)).advance := by
  rw [kSrd, kIf_ok hok, hreg]
  rfl

theorem kSrd_fault (hreg : x.sr (iImm25 w) = none) : kSrd x w = kFault := by
  rw [kSrd, kIf_ok hok, hreg]

end Srd

/-! ## HALT (R95) -/

section Halt

variable {x : Core} {w : Nat} (hok : (noVector w && immOk w 16) = true)
include hok

theorem kHalt_halts (hstatus : haltStatus (iImm25 w) = true) (hlen : x.xn (iSrcA w) ≤ x.outMax) :
    kHalt x w = .halt (iImm25 w) (x.xn (iSrcA w)) := by
  rw [kHalt, kIf_ok hok]
  exact kIf_ok (by simp [hstatus, hlen]) _

theorem kHalt_fault (hbad : haltStatus (iImm25 w) = false ∨ x.outMax < x.xn (iSrcA w)) : kHalt x w = kFault := by
  rw [kHalt, kIf_ok hok]
  refine if_neg ?_
  rcases hbad with h | h
  · simp [h]
  · simp [not_le.mpr h]

end Halt

section HaltKernel

variable {s : State} {core id len : Nat} {x : Core}

/-- R95: HALT with another status than SUCCESS. -/
theorem haltKernel_status {status : Nat} (h : status ≠ stSuccess) :
    s.haltKernel core x id status len = s.endKernel core id x.stage (.error status) := if_pos h

variable {j : Job} {d : Desc} (hjob : s.job id = some j) (hdesc : (s.descsOf j.stream)[x.stage]? = some d)
include hjob hdesc

/-- R95: HALT with SUCCESS of a stage that is no SCORE stage. -/
theorem haltKernel_output (htype : d.type ≠ tScore) : s.haltKernel core x id stSuccess len =
    (s.moveOutput j d (.ok (x.output.readN 0 len))).endKernel core id x.stage (.ok (x.output.readN 0 len)) := by
  rw [State.haltKernel, if_neg (not_not.mpr rfl)]
  simp only [hjob, hdesc, if_neg htype]

/-- R95, R191: HALT with SUCCESS of a SCORE stage. -/
theorem haltKernel_score (htype : d.type = tScore) : s.haltKernel core x id stSuccess len =
    ((s.moveOutput j d (s.score j d (x.output.readN 0 len)).1).updJob id fun k =>
      { k with sig := if (s.score j d (x.output.readN 0 len)).2.isSome then (s.score j d (x.output.readN 0 len)).2 else k.sig }).endKernel
        core id x.stage (s.score j d (x.output.readN 0 len)).1 := by
  rw [State.haltKernel, if_neg (not_not.mpr rfl)]
  simp only [hjob, hdesc, if_pos htype]

end HaltKernel

end Sys2Proof.Machine

open Sys2Proof Sys2Proof.Machine in
/-- Settles O11: the draws are taken in order, a system register is there or is not, and HALT judges its status and length before
the stage's type decides what becomes of the output. -/
theorem systemInstructions : Obligations.SystemInstructions := by
  unfold Obligations.SystemInstructions
  intro s core id x w hfields
  refine ⟨fun hat himm heven hdraw => ?draw, fun hat himm hdraw => ?vdraw, fun hat himm v hreg => ?srd, fun hat himm hreg => ?srdFault,
    fun hat himm hstatus hlen hother => ?haltStatus, fun hat himm hsuccess hlen j d hjob hdesc htype => ?haltOutput,
    fun hat himm hsuccess hlen j d hjob hdesc htype => ?haltScore, fun hat himm hbad => ?haltFault⟩
  case draw => exact runRow_retires hat (by decide) (kDraw_next (fields_ok hfields himm) heven hdraw)
  case vdraw =>
    refine ⟨_, runRow_retires hat (by decide) (kVdraw_next (fields_ok hfields himm) hdraw), rfl,
      fun q hq => (Core.vr_setV ..).trans (if_neg hq), fun i hi => ?_⟩
    exact (elem_setV_packElems x (iDst w) 128 8 _ (by decide) hi).trans (Nat.mod_eq_of_lt (quadNat_lt _))
  case srd => exact runRow_retires hat (by decide) (kSrd_next (fields_ok hfields himm) hreg)
  case srdFault => exact runRow_faults hat (by decide) (kSrd_fault (fields_ok hfields himm) hreg)
  case haltStatus =>
    exact (runRow_halts hat (by decide) (kHalt_halts (fields_ok hfields himm) hstatus hlen)).trans
      (congrArg _ (haltKernel_status hother))
  case haltFault => exact runRow_faults hat (by decide) (kHalt_fault (fields_ok hfields himm) hbad)
  all_goals
    have hhalt : exec (.halt core) s = .next (s.haltKernel core x id stSuccess (x.xn (iSrcA w))) := by
      have hstatus : haltStatus (iImm25 w) = true := by rw [hsuccess]; decide
      have hrow := runRow_halts hat (by decide) (kHalt_halts (fields_ok hfields himm) hstatus hlen)
      rwa [hsuccess] at hrow
  case haltOutput => exact hhalt.trans (congrArg _ (haltKernel_output hjob hdesc htype))
  case haltScore => exact hhalt.trans (congrArg _ (haltKernel_score hjob hdesc htype))
end

section
/-! The entry of a kernel (R56, R58), and its end by the step limit or a fault (R65, R96, R97). -/

namespace Sys2Proof.Machine

open Sys2Proof

/-! ## The end by the step limit or a fault -/

theorem whenUp_idle {s : State} {f : State → Res} (h : f s = .next s) : whenUp s f = .next s := by
  rw [whenUp, h]
  exact ite_self _

/-- R55, R472: a row changes nothing on a core whose clock a droop holds, or where it has nothing to do. -/
theorem withCore_idle {c : Nat} {s : State} {f : State → Res} (hc : c < Config.cores)
    (h : s.power.droop.contains (c / 8) = true ∨ f s = .next s) : withCore c s f = .next s := by
  rw [withCore, if_pos hc]
  split
  · rfl
  · next hclocked => exact whenUp_idle (h.resolve_left hclocked)

theorem exec_kernelStepLimit_idle {s : State} {core : Nat} (hcore : core < Config.cores)
    (h : s.power.droop.contains (core / 8) = true ∨ (s.core core).job = none) : exec (.kernelStepLimit core) s = .next s := by
  refine withCore_idle hcore (h.imp_right fun hnone => ?_)
  simp only [hnone]

section Running

variable {s : State} {core id : Nat} {x : Core} (hcore : core < Config.cores)
  (hclocked : s.power.droop.contains (core / 8) = false) (hup : s.up = true) (hhere : s.core core = x) (hjob : x.job = some id)
include hcore hclocked hup hhere hjob

theorem exec_kernelStepLimit_eq : exec (.kernelStepLimit core) s =
    if x.stepLimit * 1024 ≤ x.steps then .next (s.endKernel core id x.stage (.error stStepLimit)) else .next s := by
  show execKernelStepLimit core s = _
  rw [execKernelStepLimit, withCore_runs _ hcore hclocked hup]
  simp only [hhere, hjob]

/-- R96, R97: the step limit comes before the word at PC. -/
theorem runRow_atLimit (hlimit : x.stepLimit * 1024 ≤ x.steps) (op : Nat × Nat) (f : Core → Nat → KOut) :
    runRow core op f s = .next (s.endKernel core id x.stage (.error stStepLimit)) := by
  rw [runRow, withCore_runs _ hcore hclocked hup]
  simp only [hhere, hjob, hlimit, if_true]

/-- R65, R97: a PC past the kernel, or a word that no class defines, faults whichever row is sent (log entry 20). -/
theorem runRow_noWord (hwithin : x.steps < x.stepLimit * 1024)
    (hword : x.kernel.length ≤ x.pc ∨ ∃ w, x.kernel[x.pc]? = some w ∧ opDefined w.toNat = false) (op : Nat × Nat)
    (f : Core → Nat → KOut) : runRow core op f s = .next (s.endKernel core id x.stage (.error stKernelFault)) := by
  rw [runRow, withCore_runs _ hcore hclocked hup]
  simp only [hhere, hjob, not_le.mpr hwithin, if_false]
  rcases hword with hpast | ⟨w, hfetch, hundefined⟩
  · rw [List.getElem?_eq_none hpast]
  · simp only [hfetch, hundefined, Bool.not_false, if_true]

end Running

/-! ## The core at the entry of a kernel (R58) -/

theorem xn_setXn (x : Core) (r q v : Nat) : (x.setXn r v).xn q = if q = r ∧ r ≠ 0 then v % 2 ^ 64 else x.xn q := by
  unfold Core.xn Core.setXn
  rw [Core.xr_setX]
  split
  · exact BitVec.toNat_ofNat v 64
  · rfl

theorem xn_unlisted {x : Core} (hx : x.x = []) (r : Nat) : x.xn r = 0 := by
  unfold Core.xn Core.xr
  rw [hx]
  split <;> rfl

/-- R58: the table of the scalar registers at entry. -/
theorem enterKernel_xn (s : State) (j : Job) (d : Desc) (r : Nat) : (s.enterKernel j d).xn r =
    if r = 9 then d.word 6 % 2 ^ 64 else if r = 8 then d.word 5 % 2 ^ 64 else if r = 7 then d.word 4 % 2 ^ 64
    else if r = 6 then j.epoch % 2 ^ 64 else if r = 5 then j.pos % 2 ^ 64 else if r = 4 then j.sample % 2 ^ 64
    else if r = 3 then d.outMax % 2 ^ 64 else if r = 2 then d.inCount % 2 ^ 64
    else if r = 1 then ((d.preds.map j.output).headD []).length % 2 ^ 64 else 0 := by
  simp only [State.enterKernel, List.foldl_cons, List.foldl_nil, xn_setXn, ne_eq, OfNat.ofNat_ne_zero, one_ne_zero,
    not_false_eq_true, and_true]
  rw [xn_unlisted rfl]

theorem enterKernel_vr (s : State) (j : Job) (d : Desc) (r : Nat) : (s.enterKernel j d).vr r = 0 := BitVec.toNat_zero

theorem enterKernel_pr (s : State) (j : Job) (d : Desc) {r : Nat} (hr : r ≠ 0) : (s.enterKernel j d).pr r = 0 := if_neg hr

/-! ## SCRATCH_RESERVE (R56, R94) -/

/-- R56, R94: a KERNEL or SCORE stage of a job starts now. -/
def State.kernelEnters (s : State) (id stage : Nat) (j : Job) (d : Desc) : Bool :=
  (d.type = tKernel || d.type = tScore) && j.running (s.toCorpus j.stream) d && !s.waitsRelease j d &&
    !(s.cores.any fun x => x.2.job == some id && x.2.stage == stage) && (s.core (8 * j.caravan + j.core)).job.isNone &&
    (s.domain (carDomain j.caravan)).state = 0 && s.scratchUsed j.caravan + kernelMem d ≤ s.scratchMax j.caravan 64 0

theorem kernelEnters_iff (s : State) (id stage : Nat) (j : Job) (d : Desc) : s.kernelEnters id stage j d = true ↔
    (d.type = tKernel ∨ d.type = tScore) ∧ j.running (s.toCorpus j.stream) d = true ∧ s.waitsRelease j d = false ∧
      (∀ x ∈ s.cores, ¬ (x.2.job = some id ∧ x.2.stage = stage)) ∧ (s.core (8 * j.caravan + j.core)).job = none ∧
      (s.domain (carDomain j.caravan)).state = 0 ∧ s.scratchUsed j.caravan + kernelMem d ≤ s.scratchMax j.caravan 64 0 := by
  simp [State.kernelEnters, and_assoc]

section Reserve

variable {s : State} {id stage : Nat} {j : Job} {d : Desc} (hjob : s.job id = some j) (hdesc : (s.descsOf j.stream)[stage]? = some d)
include hjob hdesc

theorem exec_scratchReserve_enters (hup : s.up = true) (h : s.kernelEnters id stage j d = true) :
    exec (.scratchReserve id stage) s = .next (s.setCore (8 * j.caravan + j.core) (s.enterKernel j d)) := by
  show execScratchReserve id stage s = _
  rw [execScratchReserve, whenUp_runs _ hup]
  simp only [hjob, hdesc]
  exact if_pos h

theorem exec_scratchReserve_waits (h : s.kernelEnters id stage j d = false) : exec (.scratchReserve id stage) s = .next s := by
  show execScratchReserve id stage s = _
  refine whenUp_idle ?_
  simp only [hjob, hdesc]
  exact if_neg (ne_true_of_eq_false h)

end Reserve

end Sys2Proof.Machine

open Sys2Proof Sys2Proof.Machine in
/-- Settles O12: the step limit is tested before the word; a stage starts when every condition of SCRATCH_RESERVE holds, and one
that fails leaves the machine as it is. -/
theorem kernelEntryAndEnd : Obligations.KernelEntryAndEnd := by
  unfold Obligations.KernelEntryAndEnd
  refine ⟨⟨fun s core hcore h => exec_kernelStepLimit_idle hcore h, fun s core id x hcore hclocked hup hhere hjob => ?ends⟩,
    fun s id stage j d hjob hdesc hwaits => ?waits,
    fun s id stage j d hup hjob hid hdesc htype hstage hruns hrelease hnew hfree hon => ?enters⟩
  case ends =>
    have hlimit := exec_kernelStepLimit_eq hcore hclocked hup hhere hjob
    refine ⟨fun hreached => ⟨hlimit.trans (if_pos hreached), ?_, ?_⟩, fun hwithin => hlimit.trans (if_neg (not_le.mpr hwithin)),
      fun hwithin hword => ⟨?_, ?_⟩⟩
    · exact runRow_atLimit hcore hclocked hup hhere hjob hreached _ _
    · exact runRow_atLimit hcore hclocked hup hhere hjob hreached _ _
    · exact runRow_noWord hcore hclocked hup hhere hjob hwithin hword _ _
    · exact runRow_noWord hcore hclocked hup hhere hjob hwithin hword _ _
  case waits =>
    refine exec_scratchReserve_waits hjob hdesc (Bool.eq_false_iff.mpr fun henters => ?_)
    obtain ⟨htype, hruns, hrelease, hnew, hfree, hon, -⟩ := (kernelEnters_iff ..).mp henters
    rcases hwaits with ⟨hkernel, hscore⟩ | hstill | hheld | ⟨x, hx, hstarted⟩ | hbusy | hoff
    · exact htype.elim hkernel hscore
    · exact ne_true_of_eq_false hstill hruns
    · exact ne_true_of_eq_false hrelease hheld
    · exact hnew x hx hstarted
    · exact hbusy hfree
    · exact hoff hon
  case enters =>
    refine ⟨fun hroom => ?room, fun hfull => ?full⟩
    case full =>
      refine exec_scratchReserve_waits hjob hdesc (Bool.eq_false_iff.mpr fun henters => ?_)
      obtain ⟨-, -, -, -, -, -, hroom⟩ := (kernelEnters_iff ..).mp henters
      exact absurd hroom (not_le.mpr hfull)
    case room =>
      have henters := (kernelEnters_iff s id stage j d).mpr ⟨htype, hruns, hrelease, hnew, hfree, hon, hroom⟩
      have hreg := enterKernel_xn s j d
      subst hid hstage
      have hzero (r : Nat) (hr : 10 ≤ r) : (s.enterKernel j d).xn r = 0 := by
        rw [hreg]
        repeat rw [if_neg (by omega)]
      exact ⟨_, exec_scratchReserve_enters hjob hdesc hup henters, rfl, rfl, rfl, rfl, rfl, rfl, rfl, rfl, rfl, rfl, rfl, hreg 1,
        hreg 2, hreg 3, hreg 4, hreg 5, hreg 6, hreg 7, hreg 8, hreg 9, rfl, hzero, enterKernel_vr s j d, rfl,
        fun r hr => enterKernel_pr s j d hr⟩
end

section
/-! The opening of a batch (R192, R200, R218, R320) and clock-exact releases and launches (R216, R226, R227). -/

namespace Sys2Proof.Machine

open Sys2Proof

/-! ## The settings that come into force (R51, R192, R218) -/

/-- A part of a stream that does not lie in its clock-exact state is untouched by a change of that state. -/
theorem updExact_part {α : Type} (part : Stream → α) (hpart : ∀ x e, part { x with exact := e } = part x) (s : State) (m n : Nat)
    (f : ExactSt → ExactSt) : part ((s.updExact m f).stream n) = part (s.stream n) := by
  rw [State.stream_updExact]
  split
  case isTrue h => rw [hpart, h]
  case isFalse => rfl

theorem exactLose_part {α : Type} (part : Stream → α) (hpart : ∀ x e, part { x with exact := e } = part x) (s : State)
    (m cause n : Nat) : part ((s.exactLose m cause).stream n) = part (s.stream n) := by
  unfold State.exactLose
  split
  · exact updExact_part part hpart s m n _
  · rfl

theorem exactShared_part {α : Type} (part : Stream → α) (hpart : ∀ x e, part { x with exact := e } = part x) (s : State)
    (m n : Nat) : part ((s.exactShared m).stream n) = part (s.stream n) := by
  unfold State.exactShared
  refine List.foldlRecOn (motive := fun u : State => part (u.stream n) = part (s.stream n)) _ _ rfl fun u hu k _ => ?_
  split
  · exact (exactLose_part part hpart u k 8 n).trans hu
  · exact hu

theorem exactLose_eq (s : State) (m cause : Nat) : s.exactLose m cause = { s with streams := (s.exactLose m cause).streams } := by
  unfold State.exactLose
  split <;> rfl

/-- R218: streams that share a Caravan lose their clock-exact state alone. -/
theorem exactShared_eq (s : State) (m : Nat) : s.exactShared m = { s with streams := (s.exactShared m).streams } := by
  unfold State.exactShared
  refine List.foldlRecOn (motive := fun u : State => u = { s with streams := u.streams }) _ _ rfl fun u hu k _ => ?_
  split
  · rw [exactLose_eq, hu]
  · exact hu

/-- R51: the settings written come into force, and what does not hold settings or the clock-exact state stays. -/
theorem applySettings_stream (s : State) (n : Nat) :
    ((s.applySettings n).stream n).inForce = s.writtenSettings n ∧
    ((s.applySettings n).stream n).run = (s.stream n).run ∧
    ((s.applySettings n).stream n).force = (s.stream n).force ∧
    ((s.applySettings n).stream n).dlv = (s.stream n).dlv := by
  have hset : (s.updStream n fun x => { x with inForce := s.writtenSettings n }).stream n =
      { s.stream n with inForce := s.writtenSettings n } := by rw [State.stream_updStream, if_pos rfl]
  unfold State.applySettings
  dsimp only
  split
  · rw [hset]
    exact ⟨rfl, rfl, rfl, rfl⟩
  · rw [exactShared_part Stream.inForce fun _ _ => rfl, exactShared_part Stream.run fun _ _ => rfl,
      exactShared_part Stream.force fun _ _ => rfl, exactShared_part Stream.dlv fun _ _ => rfl, hset]
    exact ⟨rfl, rfl, rfl, rfl⟩

theorem applySettings_eq (s : State) (n : Nat) : s.applySettings n = { s with streams := (s.applySettings n).streams } := by
  unfold State.applySettings
  dsimp only
  split
  · rfl
  · rw [exactShared_eq]
    rfl

/-- R192: an armed threshold set that takes effect changes the thresholds of its stream and THRESH_EPOCH alone. -/
theorem applyThresholds_keeps (s : State) (n epoch b : Nat) :
    ((s.applyThresholds n epoch b).stream n).run = (s.stream n).run ∧
    ((s.applyThresholds n epoch b).stream n).dlv = (s.stream n).dlv ∧
    (s.applyThresholds n epoch b).images = s.images ∧
    ∀ key ≠ oThreshEpoch n, (s.applyThresholds n epoch b).stored key = s.stored key := by
  unfold State.applyThresholds
  dsimp only
  split
  · split
    · rw [State.stream_updStream, if_pos rfl]
      exact ⟨rfl, rfl, rfl, fun key hkey => (State.stored_store s _ _ key).trans (if_neg hkey)⟩
    · exact ⟨rfl, rfl, rfl, fun _ _ => rfl⟩
  · exact ⟨rfl, rfl, rfl, fun _ _ => rfl⟩

/-- R51: none of the settings that come into force is THRESH_EPOCH. -/
theorem writtenSettings_applyThresholds (s : State) (n epoch b : Nat) :
    (s.applyThresholds n epoch b).writtenSettings n = s.writtenSettings n := by
  obtain ⟨-, -, -, hstored⟩ := applyThresholds_keeps s n epoch b
  unfold State.writtenSettings State.flag
  rw [hstored (oSplitMode n) (by simp [oSplitMode, oThreshEpoch]), hstored (oSplitCut n) (by simp [oSplitCut, oThreshEpoch]),
    hstored (oLoadbal n) (by simp [oLoadbal, oThreshEpoch]), hstored (oCaravanMask n) (by simp [oCaravanMask, oThreshEpoch]),
    hstored (oMaxInFlight n) (by simp [oMaxInFlight, oThreshEpoch]), hstored (oBatchWindow n) (by simp [oBatchWindow, oThreshEpoch])]

/-! ## BATCH_OPEN (R200, R204, R234, R320) -/

/-- R51, R192: the state in which the next batch of stream n opens: its thresholds and its settings are in force. -/
def State.atOpening (s : State) (n : Nat) : State :=
  (s.applyThresholds n (s.run n).epoch (s.run n).nextOpen).applySettings n

theorem atOpening_stream (s : State) (n : Nat) :
    ((s.atOpening n).stream n).inForce = s.writtenSettings n ∧ (s.atOpening n).run n = s.run n ∧
    ((s.atOpening n).stream n).dlv = (s.stream n).dlv := by
  obtain ⟨hforce, hrun, -, hdlv⟩ := applySettings_stream (s.applyThresholds n (s.run n).epoch (s.run n).nextOpen) n
  obtain ⟨hrun', hdlv', -, -⟩ := applyThresholds_keeps s n (s.run n).epoch (s.run n).nextOpen
  exact ⟨hforce.trans (writtenSettings_applyThresholds s n _ _), hrun.trans hrun', hdlv.trans hdlv'⟩

/-- R376: thresholds and settings do not decide where a stream delivers. -/
theorem atOpening_toFabric (s : State) (n : Nat) : (s.atOpening n).toFabric n = s.toFabric n := by
  obtain ⟨-, -, himages, hstored⟩ := applyThresholds_keeps s n (s.run n).epoch (s.run n).nextOpen
  unfold State.atOpening
  rw [applySettings_eq]
  unfold State.toFabric State.imageOf State.image
  dsimp only
  have hslot : State.stored { s.applyThresholds n (s.run n).epoch (s.run n).nextOpen with
      streams := ((s.applyThresholds n (s.run n).epoch (s.run n).nextOpen).applySettings n).streams } (oImageSlot n) =
      s.stored (oImageSlot n) := hstored (oImageSlot n) (by simp [oImageSlot, oThreshEpoch])
  rw [hslot, himages]

/-- R230, R234: the records of settled attempts with which the next batch goes on from a kept cursor. -/
def State.keptEntries (s : State) (n : Nat) (p : BatchPlan) : List Entry :=
  let l := rebase (p.positions.headD 0) (if (s.run n).hasCursor then (s.run n).partials else [])
  if (s.run n).restored then s.nameRecords n (s.run n).batchCursor l else l

/-- R230: the positions that are settled when the next batch opens. -/
def State.keptSettled (s : State) (n : Nat) (p : BatchPlan) : Nat :=
  if (if (s.run n).hasCursor then (s.run n).partials else []).isEmpty then 0
  else if p.positions.contains (s.run n).nextPos then (p.positions.takeWhile (· ≠ (s.run n).nextPos)).length
  else p.positions.length

/-- R200, R204, R234: the batch of plan p that stream n opens next. -/
def State.openingBatch (s : State) (n : Nat) (p : BatchPlan) : OpenBatch :=
  let r := s.run n
  let x := (s.atOpening n).stream n
  { k := r.k, epoch := r.epoch, b := r.nextOpen, last := r.nextOpen + 1 == r.plan.length, plan := p
    cursor0 := if r.hasCursor then r.batchCursor else r.cursor, threshGen := x.threshGen, thresholds := x.force
    entries := s.keptEntries n p, settled := s.keptSettled n p
    mode := x.inForce.splitMode, cut := x.inForce.splitCut, slot := (s.atOpening n).slotOf n r.k }

/-- R200: the run behind the opening of batch b, with the jobs that follow at its backfill cursor. -/
def RunSt.opened (b : OpenBatch) (jobs : Nat → List ToRun) (r : RunSt) : RunSt :=
  { r with hasCursor := false, restored := false, partials := [], nextOpen := r.nextOpen + 1, k := r.k + 1
           batches := r.batches ++ [b], toAdmit := r.toAdmit ++ jobs r.cursor }

theorem openNext_eq {s : State} {n : Nat} {p : BatchPlan} (hplan : (s.run n).plan[(s.run n).nextOpen]? = some p) :
    s.openNext n = ((s.atOpening n).updRun n (RunSt.opened (s.openingBatch n p) fun cursor =>
      (s.atOpening n).batchJobs n cursor (s.openingBatch n p))).pendSlot n (s.openingBatch n p) := by
  unfold State.openNext
  simp only [hplan]
  rfl

/-- R320: the slot that a batch takes is the only thing that becomes PENDING. -/
theorem pendSlot_stream (s : State) (n : Nat) (b : OpenBatch) :
    (s.pendSlot n b).run n = s.run n ∧ ((s.pendSlot n b).stream n).force = (s.stream n).force ∧
    ((s.pendSlot n b).stream n).inForce = (s.stream n).inForce := by
  unfold State.pendSlot State.run State.updSlot
  dsimp only
  split
  · exact ⟨rfl, rfl, rfl⟩
  · split
    · rw [State.stream_updDlv, if_pos rfl]
      exact ⟨rfl, rfl, rfl⟩
    · exact ⟨rfl, rfl, rfl⟩

theorem pendSlot_pending {s : State} {n : Nat} {b : OpenBatch} (hhost : s.toFabric n = false) (hfree : (s.slot n b.slot).state = .free) :
    ((s.pendSlot n b).slot n b.slot).state = .pending := by
  unfold State.pendSlot
  dsimp only
  rw [hhost, if_neg Bool.false_ne_true, if_pos hfree, slot_updSlot, if_pos rfl]

/-- R200: without a kept cursor a batch opens with the positions' own samples, one for each position of its plan. -/
theorem batchJobs_fresh {s : State} (u : State) {n cursor : Nat} {p : BatchPlan} (hcursor : (s.run n).hasCursor = false) :
    (u.batchJobs n cursor (s.openingBatch n p)).map ToRun.pos = p.positions ∧
    ∀ w ∈ u.batchJobs n cursor (s.openingBatch n p), w.k = (s.run n).k ∧ w.try_ = 0 := by
  have hentries : (s.openingBatch n p).entries = [] := by
    have hnone : s.keptEntries n p = [] := by
      unfold State.keptEntries
      rw [hcursor]
      exact ite_self _
    exact hnone
  have hsettled : (s.openingBatch n p).settled = 0 := by
    have hzero : s.keptSettled n p = 0 := by
      unfold State.keptSettled
      rw [hcursor]
      rfl
    exact hzero
  have hjobs : u.batchJobs n cursor (s.openingBatch n p) = p.positions.zipIdx.map fun x => u.attempt n (s.run n).k x.1 0 cursor := by
    unfold State.batchJobs OpenBatch.tries
    rw [hentries, hsettled]
    simp only [List.filter_nil, List.map_nil, List.nil_append, List.length_nil, ite_self, List.drop_zero]
    rfl
  rw [hjobs]
  refine ⟨?_, fun w hw => ?_⟩
  · rw [List.map_map]
    exact List.zipIdx_map_fst 0 p.positions
  · obtain ⟨x, -, rfl⟩ := List.mem_map.mp hw
    exact ⟨rfl, rfl⟩

theorem exec_batchOpen_eq (n : Nat) (s : State) : exec (.batchOpen n) s = execBatchOpen n s := rfl

theorem exec_batchOpen_waits {s : State} {n : Nat} (hn : n < 64) (h : s.mayOpen n = false) : exec (.batchOpen n) s = .next s := by
  rw [exec_batchOpen_eq, execBatchOpen]
  exact withStream_idle hn (if_neg (by simp [h]))

theorem exec_batchOpen_opens {s : State} {n : Nat} (hn : n < 64) (hup : s.up = true) (h : s.mayOpen n = true) :
    exec (.batchOpen n) s = .next (s.openNext n) := by
  rw [exec_batchOpen_eq, execBatchOpen, withStream_runs _ hn hup, if_pos h]

/-! ## EXACT_RELEASE (R216, R218) -/

theorem exec_exactRelease_eq (id : Nat) (s : State) : exec (.exactRelease id) s = execExactRelease id s := rfl

/-- R216: there is nothing to release for no job, out of EXACT, for a job that is released, or before its cycle. -/
theorem exec_exactRelease_waits {s : State} {id : Nat} (h : ∀ j, s.job id = some j →
    (s.stream j.stream).exact.state ≠ 2 ∨ j.released = true ∨ s.releaseDue j = false) : exec (.exactRelease id) s = .next s := by
  rw [exec_exactRelease_eq, execExactRelease]
  refine whenUp_idle ?_
  cases hjob : s.job id with
  | none => rfl
  | some j =>
    have hwaits : ((s.stream j.stream).exact.state ≠ 2 || j.released || !s.releaseDue j) = true := by
      rcases h j hjob with h | h | h <;> simp [h]
    exact if_pos hwaits

/-- R216: the job is released. -/
def State.releaseJob (s : State) (id : Nat) : State := s.updJob id fun j => { j with released := true }

/-- R216, R218: a release that is late costs its stream the clock-exact mode. -/
def State.lateRelease (s : State) (n : Nat) : State := (s.updExact n fun x => { x with late := x.late + 1 }).exactLose n 5

theorem releaseJob_job {s : State} {id : Nat} {j : Job} (h : s.job id = some j) :
    (s.releaseJob id).job id = some { j with released := true } := by
  unfold State.releaseJob
  rw [job_updJob s id (f := fun j => { j with released := true }) fun _ => rfl, h]
  rfl

theorem lateRelease_job (s : State) (n id : Nat) : (s.lateRelease n).job id = s.job id :=
  job_of_jobs ((exactLose_runs _ n 5).jobs.trans (State.updExact_jobs s n _)) id

theorem lateRelease_exact {s : State} {n : Nat} (h : (s.stream n).exact.state = 2) :
    ((s.lateRelease n).stream n).exact = { (s.stream n).exact with late := (s.stream n).exact.late + 1, state := 3, cause := 5 } := by
  have hcounted : ((s.updExact n fun x => { x with late := x.late + 1 }).stream n).exact =
      { (s.stream n).exact with late := (s.stream n).exact.late + 1 } := by rw [State.stream_updExact, if_pos rfl]
  unfold State.lateRelease State.exactLose
  rw [hcounted, if_pos h, State.stream_updExact, if_pos rfl, hcounted]

theorem exec_exactRelease_due {s : State} {id : Nat} {j : Job} (hup : s.up = true) (hjob : s.job id = some j)
    (hexact : (s.stream j.stream).exact.state = 2) (hheld : j.released = false) (hdue : s.releaseDue j = true) :
    exec (.exactRelease id) s =
      .next (if s.coveredReady j then s.releaseJob id else (s.lateRelease j.stream).releaseJob id) := by
  rw [exec_exactRelease_eq, execExactRelease, whenUp_runs _ hup]
  simp only [hjob, hexact, hheld, hdue]
  cases hready : s.coveredReady j <;> rfl

/-! ## LAUNCH_WINDOW (R226, R227) -/

theorem exec_launchWindow_eq (n : Nat) (s : State) : exec (.launchWindow n) s = execLaunchWindow n s := rfl

/-- R226, R227: the window of stream n comes now. -/
def State.launches (s : State) (n : Nat) : Bool :=
  (s.stream n).state = .running && !(s.stream n).exact.launched && s.phaseZero &&
    (s.stored (oLaunchAt n) ≤ s.gtc || s.stored (oLaunchAt n) < (s.stream n).exact.startGtc)

theorem exec_launchWindow_waits {s : State} {n : Nat} (hn : n < 64) (h : s.launches n = false) :
    exec (.launchWindow n) s = .next s := by
  rw [exec_launchWindow_eq, execLaunchWindow]
  refine withStream_idle hn (if_neg ?_)
  unfold State.launches at h
  rw [h]
  exact Bool.false_ne_true

theorem exec_launchWindow_launches {s : State} {n : Nat} (hn : n < 64) (hup : s.up = true) (h : s.launches n = true) :
    exec (.launchWindow n) s = .next (s.updExact n fun e => { e with launched := true, t0 := s.clk.ticks }) := by
  rw [exec_launchWindow_eq, execLaunchWindow, withStream_runs _ hn hup]
  exact if_pos h

end Sys2Proof.Machine

open Sys2Proof Sys2Proof.Machine in
/-- Settles O18: an opened batch is read off the run behind it; a release and a launch happen when their conditions hold. -/
theorem batchOpeningAndReleases : Obligations.BatchOpeningAndReleases := by
  unfold Obligations.BatchOpeningAndReleases
  refine ⟨fun s n p hn hup hplan => ⟨exec_batchOpen_waits hn, fun hopens => ?opens⟩, fun s id h => exec_exactRelease_waits h,
    fun s n hn h => exec_launchWindow_waits hn ?never, fun s id j hup hjob _ hexact hheld hdue => ?release,
    fun s n hn hup hrunning hwaiting => ⟨fun hphase => exec_launchWindow_waits hn ?phase,
      fun hearly hstart => exec_launchWindow_waits hn ?early, fun hphase hcome => exec_launchWindow_launches hn hup ?launch⟩⟩
  case opens =>
    have hrow := exec_batchOpen_opens hn hup hopens
    rw [openNext_eq hplan] at hrow
    obtain ⟨hforce, hrun, hdlv⟩ := atOpening_stream s n
    have hhost := atOpening_toFabric s n
    generalize hb : s.openingBatch n p = b at hrow
    generalize hjobs : (fun cursor => (s.atOpening n).batchJobs n cursor b) = jobs at hrow
    obtain ⟨hrun', hthresholds, hforce'⟩ := pendSlot_stream ((s.atOpening n).updRun n (RunSt.opened b jobs)) n b
    have hstream : ((s.atOpening n).updRun n (RunSt.opened b jobs)).stream n =
        { (s.atOpening n).stream n with run := RunSt.opened b jobs (s.run n) } := by
      rw [State.stream_updRun, if_pos rfl, ← hrun]
      rfl
    rw [run_updRun, hrun] at hrun'
    rw [hstream] at hthresholds hforce'
    refine ⟨_, b, hrow, ?_⟩
    rw [hrun', hthresholds, hforce', hforce]
    subst hb
    refine ⟨rfl, rfl, rfl, rfl, rfl, rfl, ?_, rfl, rfl, rfl, rfl, ?_, ⟨jobs (s.run n).cursor, rfl, fun hfresh => ?_⟩, fun hslots hfree => ?_⟩
    · exact Bool.beq_eq_decide_eq _ _
    · exact congrArg InForce.splitMode hforce
    · rw [← hjobs]
      exact batchJobs_fresh _ hfresh
    · refine pendSlot_pending ?_ ?_
      · exact hhost.trans hslots
      · rw [slot_of_slots (s := s) ?_, hfree]
        rw [hstream, hdlv]
  case never =>
    unfold State.launches
    rcases h with h | h <;> simp [h]
  case release =>
    rw [exec_exactRelease_due hup hjob hexact hheld hdue]
    refine ⟨_, rfl, ?_, fun hready => ?_, fun hlate => ?_⟩
    · split
      · exact releaseJob_job hjob
      · exact releaseJob_job ((lateRelease_job s j.stream id).trans hjob)
    · rw [if_pos hready]
      rfl
    · have hexact' := lateRelease_exact hexact
      rw [hlate, if_neg Bool.false_ne_true, State.releaseJob, State.updJob_stream, hexact']
      exact ⟨rfl, rfl, rfl⟩
  case phase =>
    unfold State.launches
    simp [hphase]
  case early =>
    unfold State.launches
    simp [Nat.not_le.mpr hearly, Nat.not_lt.mpr hstart]
  case launch =>
    unfold State.launches
    rcases hcome with hcome | hcome <;> simp [hrunning, hwaiting, hphase, hcome]
end

section
/-! SETTLE_POSITION (R34, R199, R201, R330, R341): the attempt that comes next, what its outcome records, and where the batch then
stands. -/

namespace Sys2Proof.Machine

open Sys2Proof

/-! ## What is recorded in a batch (R200, R201, R204) -/

/-- R201: two records of a batch agree in its number, its entries and its settled positions. -/
structure OpenBatch.Agrees (x y : OpenBatch) : Prop where
  k : y.k = x.k
  settled : y.settled = x.settled
  entries : y.entries = x.entries

/-- R201: a batch with entries added, and one position more settled when `ends`. -/
def OpenBatch.recorded (es : List Entry) (ends : Bool) (b : OpenBatch) : OpenBatch :=
  { b with entries := b.entries ++ es, settled := b.settled + (if ends then 1 else 0) }

/-- R200, R206, R330: building a batch changes neither its entries nor its settled positions, nor anything else of the run. -/
theorem closeBatch_run (s : State) (n k : Nat) : ∃ f : OpenBatch → OpenBatch, (∀ x, OpenBatch.Agrees x (f x)) ∧
    (s.closeBatch n k).run n = { s.run n with batches := (s.run n).batches.map f } := by
  have hsame : ∃ f : OpenBatch → OpenBatch, (∀ x, OpenBatch.Agrees x (f x)) ∧
      s.run n = { s.run n with batches := (s.run n).batches.map f } :=
    ⟨id, fun _ => ⟨rfl, rfl, rfl⟩, by rw [List.map_id]⟩
  have hbuilt : ∀ g : OpenBatch → OpenBatch, (∀ x, OpenBatch.Agrees x (g x)) → ∃ f : OpenBatch → OpenBatch, (∀ x, OpenBatch.Agrees x (f x)) ∧
      (s.updBatch n k g).run n = { s.run n with batches := (s.run n).batches.map f } := fun g hg => by
    refine ⟨fun x => if x.k = k then g x else x, fun x => ?_, by rw [State.updBatch, run_updRun]⟩
    dsimp only
    split
    · exact hg x
    · exact ⟨rfl, rfl, rfl⟩
  unfold State.closeBatch
  split
  · exact hsame
  · split
    · exact hsame
    · split
      · exact hbuilt _ fun _ => ⟨rfl, rfl, rfl⟩
      · exact hbuilt _ fun _ => ⟨rfl, rfl, rfl⟩

/-- R204: moving the cursors of the batches that have not begun to settle leaves their records. -/
theorem moveCursors_run (r : RunSt) : ∃ f : OpenBatch → OpenBatch, (∀ x, OpenBatch.Agrees x (f x)) ∧
    r.moveCursors = { r with batches := r.batches.map f } := by
  refine ⟨_, fun x => ?_, rfl⟩
  split
  · exact ⟨rfl, rfl, rfl⟩
  · exact ⟨rfl, rfl, rfl⟩

/-- R201, R204: what the record of an attempt leaves of the run: the batch's own record, and the backfill cursor. -/
theorem record_run (s : State) (n k : Nat) (es : List Entry) (ends took : Bool) : ∃ f : OpenBatch → OpenBatch,
    (∀ x : OpenBatch, (if x.k = k then x.recorded es ends else x).Agrees (f x)) ∧
    (s.record n k es ends took).run n =
      { s.run n with batches := (s.run n).batches.map f, cursor := (s.run n).cursor + (if took then 1 else 0) } := by
  obtain ⟨f, hf, hclosed⟩ := closeBatch_run ((s.updBatch n k (OpenBatch.recorded es ends)).updRun n fun r =>
    { r with cursor := r.cursor + (if took then 1 else 0) }) n k
  obtain ⟨g, hg, hmoved⟩ := moveCursors_run ((((s.updBatch n k (OpenBatch.recorded es ends)).updRun n fun r =>
    { r with cursor := r.cursor + (if took then 1 else 0) }).closeBatch n k).run n)
  refine ⟨fun x => g (f (if x.k = k then x.recorded es ends else x)), fun x => ?_, ?_⟩
  · obtain ⟨hk, hsettled, hentries⟩ := hf (if x.k = k then x.recorded es ends else x)
    obtain ⟨hk', hsettled', hentries'⟩ := hg (f (if x.k = k then x.recorded es ends else x))
    exact ⟨hk'.trans hk, hsettled'.trans hsettled, hentries'.trans hentries⟩
  · have hrecord : s.record n k es ends took = (((s.updBatch n k (OpenBatch.recorded es ends)).updRun n fun r =>
        { r with cursor := r.cursor + (if took then 1 else 0) }).closeBatch n k).updRun n RunSt.moveCursors := rfl
    rw [hrecord, run_updRun, hmoved, hclosed, run_updRun, State.updBatch, run_updRun]
    simp only [List.map_map]
    rfl

theorem record_cursor (s : State) (n k : Nat) (es : List Entry) (ends took : Bool) :
    ((s.record n k es ends took).run n).cursor = (s.run n).cursor + (if took then 1 else 0) := by
  obtain ⟨f, -, hrun⟩ := record_run s n k es ends took
  rw [hrun]

theorem record_toAdmit (s : State) (n k : Nat) (es : List Entry) (ends took : Bool) :
    ((s.record n k es ends took).run n).toAdmit = (s.run n).toAdmit := by
  obtain ⟨f, -, hrun⟩ := record_run s n k es ends took
  rw [hrun]

/-- R201: a run whose batches are those of the record of an attempt holds the batch with the entries added. -/
theorem mem_batches_of_record {s t : State} {n : Nat} {b : OpenBatch} {es : List Entry} {ends took : Bool}
    (hb : b ∈ (s.run n).batches) (ht : (t.run n).batches = ((s.record n b.k es ends took).run n).batches) :
    ∃ x ∈ (t.run n).batches, x.k = b.k ∧ x.settled = b.settled + (if ends then 1 else 0) ∧ x.entries = b.entries ++ es := by
  obtain ⟨f, hf, hrun⟩ := record_run s n b.k es ends took
  have hrecorded := hf b
  rw [if_pos rfl] at hrecorded
  obtain ⟨hk, hsettled, hentries⟩ := hrecorded
  refine ⟨f b, ?_, hk, hsettled, hentries⟩
  rw [ht, hrun]
  exact List.mem_map_of_mem hb

/-! ## What the assembler does with a job (R34) -/

/-- R44, R263: buffers that a job no longer needs go back, and no stream changes. -/
theorem trimJob_stream (s : State) (id n : Nat) : (s.trimJob id).stream n = s.stream n := by
  unfold State.trimJob
  split
  · rfl
  case h_2 j _ =>
    dsimp only
    rw [stream_of_work (serveAllocs_work _), State.updJob_stream]
    refine List.foldlRecOn (motive := fun acc : State × List (Nat × Nat × Nat) => acc.1.stream n = s.stream n) j.reserved _ rfl
      fun acc hacc r _ => ?_
    exact (stream_of_work (giveBufs_work acc.1 _ _ _ _ _) n).trans hacc

theorem packJob_run (s : State) (id n : Nat) : (s.packJob id).run n = s.run n := by
  unfold State.packJob State.run
  dsimp only
  rw [State.count_stream, trimJob_stream, State.updJob_stream]

theorem takeExcluded_run (s : State) (j : Job) (n : Nat) : (s.takeExcluded j).run n = s.run n :=
  congrArg Stream.run (endJobs_stream s _ n)

/-- R216: the release slot of a replacement lies in the clock-exact state. -/
theorem replacementSlot_run (s : State) (n : Nat) : (s.replacementSlot n).2.run n = s.run n := by
  unfold State.replacementSlot
  dsimp only
  split
  · exact run_updExact s n n _
  · rfl

/-! ## The outcomes of an attempt (R199, R201, R330) -/

/-- R201: the attempt at a position of a batch that settles now. -/
def OpenBatch.attemptNo (b : OpenBatch) (p : Nat) : Nat := if b.mode ≠ 0 then 0 else b.tries p

/-- R201: the entry of job j, which has ended with a status, at position p, with what the batch keeps of it. -/
def OpenBatch.entryOf (b : OpenBatch) (p : Nat) (j : Job) (st : Nat) (output : Bytes) : Entry :=
  { sample := j.sample, pos := p, status := st, try_ := b.attemptNo p, digest := j.digest, output := output }

/-- R330: the outcome of job j at position p of a split batch. -/
def State.settleSplit (s : State) (n : Nat) (b : OpenBatch) (p : Nat) (j : Job) (st : Nat) : State :=
  let s1 := s.record n b.k [b.entryOf p j st (splitRecord (s.descsOf n) j st false)] true false
  if st = stSuccess then s1.packJob j.id else s1.takeExcluded j

/-- R199: job j is placed at position p with an output. -/
def State.settlePlaced (s : State) (n : Nat) (b : OpenBatch) (p : Nat) (j : Job) (out : Bytes) : State :=
  (s.record n b.k [b.entryOf p j stSuccess out] true (b.attemptNo p ≠ 0)).packJob j.id

/-- R199, R201, R330: the outcome of job j, which has ended with a status, at position p of batch b. -/
def State.settleOutcome (s : State) (n : Nat) (b : OpenBatch) (p : Nat) (j : Job) (st : Nat) : State :=
  if b.mode ≠ 0 then s.settleSplit n b p j st
  else if st = stSuccess then
    match s.placing n b j with
    | .ok out => s.settlePlaced n b p j out
    | .error x => ((s.settleExcluded n b j x).count oJobsExcluded 1).takeExcluded j
  else (s.settleExcluded n b j st).takeExcluded j

section Attempt

variable {s : State} {n p : Nat} {b : OpenBatch}

theorem settleNext_noBatch (h : (s.run n).settling = none) : s.settleNext n = none := by
  unfold State.settleNext
  rw [h]

variable (hsettling : (s.run n).settling = some b)
include hsettling

theorem settleNext_hostSettles (h : s.hostSettles n b = true) : s.settleNext n = none := by
  unfold State.settleNext
  simp only [hsettling, h, if_true]

variable (hplaced : b.entries.find? (fun e => e.rebuild) = none) (hpos : b.plan.positions[b.settled]? = some p)
include hplaced hpos

/-- R201: an attempt that has not ended settles nothing. -/
theorem settleNext_waits (h : ∀ j, s.jobAt n b.k p (if b.mode ≠ 0 then 0 else b.tries p) = some j → j.status = none) :
    s.settleNext n = none := by
  unfold State.settleNext
  simp only [hsettling, hplaced, hpos]
  split
  · rfl
  · cases hjob : s.jobAt n b.k p (if b.mode ≠ 0 then 0 else b.tries p) with
    | none => rfl
    | some j => simp only [Option.bind_some, h j hjob, Option.map_none]

/-- R201: the attempt that has ended settles with its outcome. -/
theorem settleNext_settles {j : Job} {st : Nat} (hhost : s.hostSettles n b = false)
    (hjob : s.jobAt n b.k p (if b.mode ≠ 0 then 0 else b.tries p) = some j) (hst : j.status = some st) :
    s.settleNext n = some (s.settleOutcome n b p j st) := by
  unfold State.settleNext
  simp only [hsettling, hplaced, hpos, hhost, hjob, hst, Bool.false_eq_true, if_false, Option.bind_some, Option.map_some]
  rfl

end Attempt

/-- R201: the attempt at a position is a job of that position. -/
theorem jobAt_pos {s : State} {n k p t : Nat} {j : Job} (h : s.jobAt n k p t = some j) : j.pos = p := by
  have hj := List.find?_some h
  simp only [Bool.and_eq_true, beq_iff_eq] at hj
  exact hj.1.2

theorem settleSplit_run (s : State) (n : Nat) (b : OpenBatch) (p : Nat) (j : Job) (st : Nat) :
    (s.settleSplit n b p j st).run n =
      (s.record n b.k [b.entryOf p j st (splitRecord (s.descsOf n) j st false)] true false).run n := by
  unfold State.settleSplit
  dsimp only
  split
  · exact packJob_run _ _ n
  · exact takeExcluded_run _ j n

/-! ### An attempt that does not place its sample (R201) -/

section Excluded

variable (s : State) (n : Nat) (b : OpenBatch) (j : Job) (x : Nat)

/-- R201: the tail entry of an attempt that ends with a status. -/
def Job.tailEntry (j : Job) (x : Nat) : Entry :=
  { sample := j.sample, pos := j.pos, status := x, try_ := j.try_, kind := 1
    digest := if x = stMedia || x = stSampleNotFound then zeros 24 else j.digest }

/-- R201: the pad of a position, with the status of its first attempt. -/
def State.padEntry : Entry :=
  { sample := s.sampleAt n j.pos, pos := j.pos, try_ := j.try_, kind := 2
    status := match b.entries.find? fun e => e.pos == j.pos && e.kind == 1 with
      | some e => e.status
      | none => x }

/-- R201: the backfill cursor behind an attempt: a replacement has consumed its entry. -/
def State.cursorBehind : Nat := (s.run n).cursor + (if j.try_ ≠ 0 then 1 else 0)

/-- R201: no try or no entry is left for the position of job j. -/
def State.triesSpent : Bool :=
  s.stored (oBackfillTries n) < j.try_ + 1 || (s.run n).sorted.length ≤ s.cursorBehind n j

/-- R201, R216: the next replacement for the position of job j, with its release slot. -/
def State.replacement (slot : Option Nat) : ToRun :=
  { s.attempt n b.k j.pos (j.try_ + 1) (s.cursorBehind n j) with slot := slot }

variable {s n b j x}

theorem settleExcluded_tail (h : s.stored (oExclPolicy n) = 1) :
    s.settleExcluded n b j x = s.record n b.k [j.tailEntry x] true false := by
  unfold State.settleExcluded
  rw [h]
  rfl

theorem settleExcluded_pad (h : s.stored (oExclPolicy n) = 2) :
    s.settleExcluded n b j x = s.record n b.k [s.padEntry n b j x] true false := by
  unfold State.settleExcluded
  rw [h]
  rfl

theorem settleExcluded_spent (h : s.stored (oExclPolicy n) = 0) (hspent : s.triesSpent n j = true) :
    s.settleExcluded n b j x = s.record n b.k [j.tailEntry x, s.padEntry n b j x] true (j.try_ ≠ 0) := by
  unfold State.triesSpent State.cursorBehind at hspent
  unfold State.settleExcluded
  dsimp only
  rw [h, if_neg (by decide), if_neg (by decide)]
  exact if_pos hspent

/-- R201: the run behind an attempt that the next replacement follows: the tail entry is recorded, and the replacement is to be
admitted first. -/
theorem settleExcluded_again (h : s.stored (oExclPolicy n) = 0) (hleft : s.triesSpent n j = false) :
    (s.settleExcluded n b j x).run n =
      { (s.record n b.k [j.tailEntry x] false (j.try_ ≠ 0)).run n with
        toAdmit := s.replacement n b j ((s.record n b.k [j.tailEntry x] false (j.try_ ≠ 0)).replacementSlot n).1 ::
          ((s.record n b.k [j.tailEntry x] false (j.try_ ≠ 0)).run n).toAdmit } := by
  have hagain : s.settleExcluded n b j x =
      (((s.record n b.k [j.tailEntry x] false (j.try_ ≠ 0)).replacementSlot n).2.updRun n fun r => { r with
        toAdmit := s.replacement n b j ((s.record n b.k [j.tailEntry x] false (j.try_ ≠ 0)).replacementSlot n).1 :: r.toAdmit }) := by
    unfold State.triesSpent State.cursorBehind at hleft
    unfold State.settleExcluded
    dsimp only
    rw [h, if_neg (by decide), if_neg (by decide)]
    exact if_neg (ne_true_of_eq_false hleft)
  rw [hagain, run_updRun, replacementSlot_run]

end Excluded

/-! ## The row -/

theorem exec_settlePosition_eq (n : Nat) (s : State) : exec (.settlePosition n) s = execSettlePosition n s := rfl

/-- R34, R201: what settles next on stream n. -/
def State.settles (s : State) (n : Nat) : Option State := if s.toCorpus n then s.settleIngest n else s.settleNext n

section Row

variable {s : State} {n : Nat} (hn : n < 64)
include hn

theorem exec_settlePosition_stopped (h : (s.stream n).state ≠ .running) : exec (.settlePosition n) s = .next s := by
  rw [exec_settlePosition_eq, execSettlePosition]
  exact withStream_idle hn (if_pos h)

theorem exec_settlePosition_nothing (h : s.settles n = none) : exec (.settlePosition n) s = .next s := by
  unfold State.settles at h
  rw [exec_settlePosition_eq, execSettlePosition]
  refine withStream_idle hn ?_
  rw [h]
  exact ite_self _

theorem exec_settlePosition_settles {t : State} (hup : s.up = true) (hrunning : (s.stream n).state = .running)
    (h : s.settles n = some t) : exec (.settlePosition n) s = .next t := by
  unfold State.settles at h
  rw [exec_settlePosition_eq, execSettlePosition, withStream_runs _ hn hup, h, if_neg (not_not_intro hrunning)]

end Row

theorem settles_toCorpus {s : State} {n : Nat} (h : s.toCorpus n = true) : s.settles n = s.settleIngest n := if_pos h

theorem settles_toHost {s : State} {n : Nat} (h : s.toCorpus n = false) : s.settles n = s.settleNext n :=
  if_neg (by rw [h]; exact Bool.false_ne_true)

end Sys2Proof.Machine

open Sys2Proof Sys2Proof.Machine in
/-- Settles O19: the attempt that comes next is found as the row finds it, and its outcome is the record of the batch; what the
assembler then does with the job leaves the run. That a job of an ingest stream is taken in EXCLUDED is the model's choice (log
entry 47), and that a batch waits for an earlier one that the host settles is deduced (log entry 38). -/
theorem settlePositionOutcomes : Obligations.SettlePositionOutcomes := by
  unfold Obligations.SettlePositionOutcomes
  dsimp only
  refine ⟨fun s n hn hup hrunning hcorpus => ⟨fun hnone => ?noJob, fun j hfirst => ⟨fun hplain => ?plain, fun i hingest => ?ingest⟩⟩,
    fun s n hn h => exec_settlePosition_stopped hn h, fun s n hn htarget h => ?noBatch, fun s n p b hn htarget hsettling h => ?waits,
    fun s n p b j st hn hup hrunning htarget hsettling hhost hplaced hpos hjob hst _ => ?settled⟩
  case noJob =>
    refine exec_settlePosition_nothing hn ?_
    rw [settles_toCorpus hcorpus, State.settleIngest, hnone, Option.map_none]
  case plain =>
    refine exec_settlePosition_settles hn hup hrunning ?_
    rw [settles_toCorpus hcorpus, State.settleIngest, hfirst, Option.map_some, hplain]
  case ingest =>
    refine exec_settlePosition_settles hn hup hrunning ?_
    rw [settles_toCorpus hcorpus, State.settleIngest, hfirst, Option.map_some, hingest]
  case noBatch =>
    exact exec_settlePosition_nothing hn ((settles_toHost htarget).trans (settleNext_noBatch h))
  case waits =>
    refine exec_settlePosition_nothing hn ((settles_toHost htarget).trans ?_)
    rcases h with h | ⟨hplaced, hpos, hrun⟩
    · exact settleNext_hostSettles hsettling h
    · exact settleNext_waits hsettling hplaced hpos hrun
  case settled =>
    have hrow := exec_settlePosition_settles hn hup hrunning
      ((settles_toHost htarget).trans (settleNext_settles hsettling hplaced hpos hhost hjob hst))
    have hb : b ∈ (s.run n).batches := List.mem_of_find?_eq_some hsettling
    obtain rfl : j.pos = p := jobAt_pos hjob
    refine ⟨fun hsplit => ?split, fun hwhole hok out hout => ?placed, fun hwhole x hx => ?excluded⟩
    case split =>
      rw [State.settleOutcome, if_pos hsplit] at hrow
      obtain ⟨y, hy, hk, hsettled, hentries⟩ := mem_batches_of_record hb (congrArg RunSt.batches (settleSplit_run s n b j.pos j st))
      refine ⟨_, y, _, hrow, hy, hk, hsettled, hentries, ?_⟩
      rw [OpenBatch.entryOf, OpenBatch.attemptNo, if_pos hsplit]
    case placed =>
      rw [State.settleOutcome, if_neg (not_not_intro hwhole), if_pos hok, hout] at hrow
      obtain ⟨y, hy, hk, hsettled, hentries⟩ := mem_batches_of_record (t := s.settlePlaced n b j.pos j out) hb
        (congrArg RunSt.batches (packJob_run _ j.id n))
      refine ⟨_, y, _, hrow, hy, hk, hsettled, hentries, ?_⟩
      rw [OpenBatch.entryOf, OpenBatch.attemptNo, if_neg (not_not_intro hwhole)]
    case excluded =>
      obtain ⟨t, hrow', hrun⟩ : ∃ t, exec (.settlePosition n) s = .next t ∧ t.run n = (s.settleExcluded n b j x).run n := by
        rcases hx with ⟨hfailed, rfl⟩ | ⟨hok, hout⟩
        · rw [State.settleOutcome, if_neg (not_not_intro hwhole), if_neg hfailed] at hrow
          exact ⟨_, hrow, takeExcluded_run _ j n⟩
        · rw [State.settleOutcome, if_neg (not_not_intro hwhole), if_pos hok, hout] at hrow
          exact ⟨_, hrow, takeExcluded_run _ j n⟩
      have hcursor : s.cursorBehind n j = (s.run n).cursor + (if j.try_ = 0 then 0 else 1) := by
        unfold State.cursorBehind
        rw [ite_not]
      refine ⟨fun hpolicy => ?_, fun hpolicy => ?_, fun hpolicy htries hentry => ?_, fun hpolicy hspent => ?_⟩
      · rw [settleExcluded_tail hpolicy] at hrun
        obtain ⟨y, hy, hk, hsettled, hentries⟩ := mem_batches_of_record hb (congrArg RunSt.batches hrun)
        exact ⟨t, y, _, hrow', hy, hk, hsettled, hentries, _, rfl, rfl, rfl, rfl, rfl⟩
      · rw [settleExcluded_pad hpolicy] at hrun
        obtain ⟨y, hy, hk, hsettled, hentries⟩ := mem_batches_of_record hb (congrArg RunSt.batches hrun)
        exact ⟨t, y, _, hrow', hy, hk, hsettled, hentries, _, rfl, rfl, rfl, rfl⟩
      · have hleft : s.triesSpent n j = false := by
          unfold State.triesSpent
          rw [hcursor]
          simp [Nat.not_lt.mpr htries, Nat.not_le.mpr hentry]
        rw [settleExcluded_again hpolicy hleft] at hrun
        obtain ⟨y, hy, hk, hsettled, hentries⟩ := mem_batches_of_record (es := [j.tailEntry x]) (ends := false)
          (took := j.try_ ≠ 0) hb (by rw [hrun])
        refine ⟨t, y, _, hrow', hy, hk, hsettled, hentries, ⟨_, rfl, rfl, rfl, rfl, rfl⟩, ?_,
          s.replacement n b j ((s.record n b.k [j.tailEntry x] false (j.try_ ≠ 0)).replacementSlot n).1, ?_, rfl, rfl, rfl, ?_⟩
        · rw [hrun, ← hcursor]
          simpa [State.cursorBehind] using record_cursor s n b.k [j.tailEntry x] false (j.try_ ≠ 0)
        · rw [hrun, record_toAdmit]
        · rw [← hcursor]
          rfl
      · have hnone : s.triesSpent n j = true := by
          unfold State.triesSpent
          rw [hcursor]
          rcases hspent with h | h <;> simp [h]
        rw [settleExcluded_spent hpolicy hnone] at hrun
        obtain ⟨y, hy, hk, hsettled, hentries⟩ := mem_batches_of_record hb (congrArg RunSt.batches hrun)
        exact ⟨t, y, _, hrow', hy, hk, hsettled, hentries, _, _, rfl, ⟨rfl, rfl, rfl, rfl⟩, rfl, rfl, rfl⟩
end

section
/-! Portion lists (R177, R185, R429) and the begin of an epoch (R185, R188, R189, R197). -/

namespace Sys2Proof.Machine

open Sys2Proof

/-! ## A message that is acted on (R365) -/

theorem freeReceive_work (s : State) (qp pool n : Nat) (part : Option Nat) : (s.freeReceive qp pool n part).work = s.work := by
  unfold State.freeReceive
  split
  · rfl
  · exact (serveAllocs_work _).trans (vacate_work s _ _ _ _)

/-- R365: acting on a message changes the messages that have arrived and the buffer manager's records alone. -/
theorem takeInbox_work (s : State) (data : Bytes) :
    (s.takeInbox data).work = State.work { s with fabric := (s.takeInbox data).fabric } := by
  unfold State.takeInbox
  split
  case h_1 m _ =>
    have hwork := freeReceive_work { s with fabric := { s.fabric with inbox := s.fabric.inbox.erase m } } m.qp m.pool m.count m.part
    have hfabric : State.fabric (State.freeReceive { s with fabric := { s.fabric with inbox := s.fabric.inbox.erase m } } m.qp m.pool
        m.count m.part) = { s.fabric with inbox := s.fabric.inbox.erase m } := (congrArg State.fabric hwork :)
    rw [hwork, hfabric]
  case h_2 => rfl

theorem takeInbox_streams (s : State) (data : Bytes) : (s.takeInbox data).streams = s.streams :=
  streams_of_work (s := { s with fabric := (s.takeInbox data).fabric }) (takeInbox_work s data)

theorem takeInbox_stored (s : State) (data : Bytes) {key : Nat} (hkey : key ∉ tallyKeys) :
    (s.takeInbox data).stored key = s.stored key :=
  stored_of_work (s := { s with fabric := (s.takeInbox data).fabric }) (takeInbox_work s data) hkey

theorem run_of_streams {s t : State} (h : t.streams = s.streams) (n : Nat) : t.run n = s.run n := by
  unfold State.run State.stream
  rw [h]

/-! ## PORTION_LIST_RECEIVE (R177, R185, R429) -/

/-- R185: the message is a portion list. -/
def isPortionList (data : Bytes) : Bool :=
  32 ≤ data.length && fieldAt data 0 4 == 0x4E4C5050 && data.length == 32 + 16 * fieldAt data 24 8

theorem isPortionList_iff (data : Bytes) : isPortionList data = true ↔
    32 ≤ data.length ∧ fieldAt data 0 4 = 0x4E4C5050 ∧ data.length = 32 + 16 * fieldAt data 24 8 := by
  simp [isPortionList, and_assoc]

/-- R185: the list that a message carries. -/
def portionIn (data : Bytes) : Portion :=
  { epoch := fieldAt data 12 4, source := fieldAt data 16 2, portion := fieldAt data 18 2
    entries := portionEntries (data.drop 32) (fieldAt data 24 8) }

/-- R177: the message is taken, and a list under another check value is counted. -/
def State.checkList (s : State) (n : Nat) (data : Bytes) : State :=
  if isPortionList data && fieldAt data 4 4 ≠ s.checkOf n then (s.takeInbox data).count (oPlanMismatch n) 1 else s.takeInbox data

theorem checkList_streams (s : State) (n : Nat) (data : Bytes) : (s.checkList n data).streams = s.streams := by
  unfold State.checkList
  split <;> exact takeInbox_streams s data

/-- PLAN_MISMATCH and FENCE_REFUSALS are not among the counters of the buffer manager. -/
theorem mismatch_untallied (n : Nat) : oPlanMismatch n ∉ tallyKeys := by
  simp [tallyKeys, oPlanMismatch, oNoticesLost, oPoolStateEvents, oRetiredBuffers, oJobsRetried]
  omega

theorem refusals_untallied : oFenceRefusals ∉ tallyKeys := by decide

theorem refusals_ne_mismatch (n : Nat) : oFenceRefusals ≠ oPlanMismatch n := by
  simp [oFenceRefusals, oPlanMismatch]
  omega

theorem checkList_same {s : State} {n : Nat} {data : Bytes} (h : fieldAt data 4 4 = s.checkOf n) :
    s.checkList n data = s.takeInbox data := by
  unfold State.checkList
  rw [if_neg (by simp [h])]

theorem checkList_mismatch {s : State} {n : Nat} {data : Bytes} (hlist : isPortionList data = true) :
    (s.checkList n data).stored (oPlanMismatch n) =
      s.stored (oPlanMismatch n) + (if fieldAt data 4 4 = s.checkOf n then 0 else 1) := by
  by_cases h : fieldAt data 4 4 = s.checkOf n
  · rw [checkList_same h, if_pos h, takeInbox_stored s data (mismatch_untallied n), Nat.add_zero]
  · unfold State.checkList
    rw [if_neg h, if_pos (by simp [hlist, h]), State.stored_count, if_pos rfl,
      takeInbox_stored s data (mismatch_untallied n)]

theorem checkList_refusals (s : State) (n : Nat) (data : Bytes) :
    (s.checkList n data).stored oFenceRefusals = s.stored oFenceRefusals := by
  unfold State.checkList
  split
  · rw [State.stored_count, if_neg (refusals_ne_mismatch n), takeInbox_stored s data refusals_untallied]
  · exact takeInbox_stored s data refusals_untallied

theorem updCorpus_streams (s : State) (nsid : Nat) (f : Corpus → Corpus) : (s.updCorpus nsid f).streams = s.streams := by
  rw [updCorpus_eq]

theorem updCorpus_stored (s : State) (nsid : Nat) (f : Corpus → Corpus) (key : Nat) :
    (s.updCorpus nsid f).stored key = s.stored key := by
  rw [updCorpus_eq]
  rfl

theorem raiseMember_streams (s : State) (nsid m : Nat) (f : Nat × Nat) : (s.raiseMember nsid m f).streams = s.streams :=
  updCorpus_streams s nsid _

/-- R429: the refusal of a list under a lower fence record: it is counted, and its sender is told the record held. -/
def State.refuseList (s : State) (n dest m : Nat) (c : Corpus) : State :=
  (s.count oFenceRefusals 1).emit (.mirror dest mkStale n
    (leBytes 4 c.id ++ leBytes 2 m ++ leBytes 4 (Tbl.get c.fences (0, 0) m).1 ++ leBytes 2 (Tbl.get c.fences (0, 0) m).2))

theorem refuseList_refusals (s : State) (n dest m : Nat) (c : Corpus) :
    (s.refuseList n dest m c).stored oFenceRefusals = s.stored oFenceRefusals + 1 := by
  unfold State.refuseList
  rw [State.emit_stored, State.stored_count, if_pos rfl]

theorem exec_portionListReceive_eq (n fe fo : Nat) (data : Bytes) (s : State) :
    exec (.portionListReceive n fe fo data) s = execPortionListReceive n fe fo data s := rfl

section Message

variable {s : State} {n : Nat} (fe fo : Nat) {data : Bytes} (hn : n < 64) (hup : s.up = true)
include hn hup

/-- R177, R185: a message that is no list, or a list of another corpus, is taken and changes no list. -/
theorem exec_portionListReceive_other
    (h : isPortionList data = false ∨ fieldAt data 8 4 ≠ s.stored (oCorpusId n) ∨ s.corpusFor n = none) :
    exec (.portionListReceive n fe fo data) s = .next (s.checkList n data) := by
  rw [exec_portionListReceive_eq, execPortionListReceive, withStream_runs _ hn hup]
  rcases h with h | h | h
  · exact if_pos (show (!isPortionList data || fieldAt data 8 4 ≠ s.stored (oCorpusId n)) = true by simp [h])
  · exact if_pos (show (!isPortionList data || fieldAt data 8 4 ≠ s.stored (oCorpusId n)) = true by simp [h])
  · rw [h]
    exact ite_self _

variable {nsid : Nat} {c : Corpus} (hlist : isPortionList data = true) (hcorpus : fieldAt data 8 4 = s.stored (oCorpusId n))
  (hheld : s.corpusFor n = some (nsid, c))
include hlist hcorpus hheld

theorem exec_portionListReceive_list : exec (.portionListReceive n fe fo data) s =
    if fenceLt (fe, fo) (Tbl.get c.fences (0, 0) (portionIn data).source) then
      .next ((s.checkList n data).refuseList n (s.coordOfRank fo) (portionIn data).source c)
    else if (portionIn data).epoch < (s.run n).epoch || ((portionIn data).epoch = (s.run n).epoch && (s.run n).begun) then
      .next ((s.checkList n data).raiseMember nsid (portionIn data).source (fe, fo))
    else .next (((s.checkList n data).raiseMember nsid (portionIn data).source (fe, fo)).updRun n fun r =>
      r.keepList (portionIn data)) := by
  have hpass : ¬ (!isPortionList data || fieldAt data 8 4 ≠ s.stored (oCorpusId n)) = true := by simp [hlist, hcorpus]
  rw [exec_portionListReceive_eq, execPortionListReceive, withStream_runs _ hn hup, hheld]
  exact if_neg hpass

end Message

/-- R185: a kept list is there, beside those of other epochs, sources and portions. -/
theorem keepList_lists (r : RunSt) (p : Portion) : p ∈ (r.keepList p).lists ∧
    ∀ l ∈ r.lists, l.epoch ≠ p.epoch ∨ l.source ≠ p.source ∨ l.portion ≠ p.portion → l ∈ (r.keepList p).lists := by
  unfold RunSt.keepList
  refine ⟨List.mem_append_right _ (List.mem_singleton_self p), fun l hl hother => List.mem_append_left _ ?_⟩
  refine List.mem_filter.mpr ⟨hl, ?_⟩
  rcases hother with h | h | h <;> simp [h]

/-! ## Sending the lists of an epoch (R183, R185, R189) -/

/-- A stream without the lists that it has received and the note of those that it has sent. -/
def Stream.unlisted (x : Stream) : Stream := { x with run := { x.run with lists := [], sentLists := none } }

/-- Two states that differ, of a stream, in portion lists and PLAN_MISMATCH at most, and in no namespace. -/
structure SameButLists (s t : State) : Prop where
  stream : ∀ n, (t.stream n).unlisted = (s.stream n).unlisted
  nss : t.host.nss = s.host.nss
  stored : ∀ key, key % 256 ≠ 0x1E → t.stored key = s.stored key

theorem SameButLists.refl (s : State) : SameButLists s s := ⟨fun _ => rfl, rfl, fun _ _ => rfl⟩

theorem SameButLists.trans {s t u : State} (h : SameButLists s t) (h' : SameButLists t u) : SameButLists s u :=
  ⟨fun n => (h'.stream n).trans (h.stream n), h'.nss.trans h.nss, fun key hkey => (h'.stored key hkey).trans (h.stored key hkey)⟩

theorem SameButLists.foldl {α : Type} {g : State → α → State} (h : ∀ u x, SameButLists u (g u x)) (l : List α) (s : State) :
    SameButLists s (l.foldl g s) :=
  List.foldlRecOn (motive := SameButLists s) l g (.refl s) fun u hu x _ => hu.trans (h u x)

theorem sendMessage_sameButLists (s : State) (head : Frame) (data : Bytes) (p : Purpose) (subject : Nat) :
    SameButLists s (s.sendMessage head data p subject) := by
  rw [sendMessage_eq]
  exact ⟨fun _ => rfl, rfl, fun _ _ => rfl⟩

theorem updRun_sameButLists (s : State) (m : Nat) {f : RunSt → RunSt}
    (hf : ∀ r, { f r with lists := [], sentLists := none } = { r with lists := [], sentLists := none }) :
    SameButLists s (s.updRun m f) := by
  refine ⟨fun n => ?_, rfl, fun _ _ => rfl⟩
  rw [State.stream_updRun]
  split
  case isTrue h =>
    unfold Stream.unlisted
    dsimp only
    rw [hf, h]
  case isFalse => rfl

/-- R177: PLAN_MISMATCH of a stream is the object of subindex 1E. -/
theorem mismatch_sameButLists (s : State) (m k : Nat) : SameButLists s (s.count (oPlanMismatch m) k) := by
  refine ⟨fun _ => rfl, rfl, fun key hkey => ?_⟩
  rw [State.stored_count, if_neg]
  rintro rfl
  exact hkey (by unfold oPlanMismatch; omega)

theorem sendList_sameButLists (s : State) (n epoch : Nat) (l : Nat × Nat × List (Nat × Nat)) :
    SameButLists s (s.sendList n epoch l) := by
  have hgive : ∀ (u : State) (m : Nat) (p : Portion), SameButLists u (u.updRun m fun r => r.keepList p) := fun u m p =>
    updRun_sameButLists u m fun _ => rfl
  unfold State.sendList
  split
  · exact .refl s
  · dsimp only
    split
    · exact sendMessage_sameButLists s _ _ _ _
    · split
      · exact .foldl (fun u m => (mismatch_sameButLists u m 1).trans (hgive _ m _)) _ s
      · exact .foldl (fun u m => hgive u m _) _ s

/-- R183, R185: a device that sees to the lists of an epoch changes lists alone. -/
theorem ensureLists_sameButLists (s : State) (n epoch : Nat) : SameButLists s (s.ensureLists n epoch) := by
  have hsend : SameButLists s (s.sendLists n epoch) :=
    (SameButLists.foldl (fun u l => sendList_sameButLists u n epoch l) (s.listsOf n epoch) s).trans
      (updRun_sameButLists _ n fun _ => rfl)
  unfold State.ensureLists
  split
  · split
    · exact .refl s
    · exact hsend
  · exact hsend

section Same

variable {s t : State} (h : SameButLists s t) (n : Nat)
include h

/-- R185, R230: lists apart, the run of a stream is the same. -/
theorem SameButLists.run : { t.run n with lists := [], sentLists := none } = { s.run n with lists := [], sentLists := none } :=
  congrArg Stream.run (h.stream n)

theorem SameButLists.exactMode : t.exactMode n = s.exactMode n := by
  unfold State.exactMode
  rw [h.stored _ (by unfold oCarouselMode; omega)]

theorem SameButLists.kc : t.kc n = s.kc n := by
  unfold State.kc
  rw [h.stored _ (by unfold oSeed; omega), h.stored _ (by unfold oCorpusId; omega)]

theorem SameButLists.corpusFor : t.corpusFor n = s.corpusFor n := by
  unfold State.corpusFor State.corpusOf State.corpora
  rw [h.stored _ (by unfold oCorpusId; omega), h.nss]

theorem SameButLists.member : t.member n = s.member n := by
  have hwritten : (t.stream n).memberWritten = (s.stream n).memberWritten := (congrArg Stream.memberWritten (h.stream n) :)
  have hfixed : (t.stream n).memberFixed = (s.stream n).memberFixed := (congrArg Stream.memberFixed (h.stream n) :)
  unfold State.member State.place
  dsimp only
  rw [hwritten, hfixed, h.stored _ (by unfold oMember; omega), h.stored oPlaceGeometry (by decide)]

end Same

/-! ## EPOCH_BEGIN (R185, R188, R189, R197) -/

theorem noteEpoch_run (s : State) (n e : Nat) : (s.noteEpoch n e).run n = s.run n := by
  unfold State.noteEpoch
  split
  · exact run_of_streams (updCorpus_streams s _ _) n
  · rfl

/-- R181: the members of the corpus of stream n; one without a corpus. -/
def State.membersFor (s : State) (n : Nat) : Nat :=
  match s.corpusFor n with
  | some c => geoCount c.2.geometry
  | none => 1

/-- R185, R189, R236: the set and the order with which epoch e begins, and where the run then stands. -/
theorem beginEpoch_run (s : State) (n e : Nat) (g : List (Nat × Nat)) :
    let r := (s.beginEpoch n e g).run n
    r.begun = true ∧ r.epoch = e ∧ (s.exactMode n = false → r.sorted = g) ∧
    (s.exactMode n = true → r.order = (exactOrder (s.kc n) g (s.membersFor n) e (s.member n)).map Prod.fst) ∧
    (((s.run n).hasCursor && (s.run n).epoch == e) = false → r.nextBatch = 0 ∧ r.nextOpen = 0 ∧ r.cursor = 0) ∧
    (((s.run n).hasCursor && (s.run n).epoch == e) = true → r.nextBatch = (s.run n).nextBatch ∧ r.cursor = (s.run n).cursor) := by
  unfold State.beginEpoch
  dsimp only
  rw [run_updRun, noteEpoch_run]
  refine ⟨rfl, rfl, fun hmode => ?_, fun hmode => ?_, fun hkeep => ?_, fun hkeep => ?_⟩
  · simp only [hmode, Bool.false_eq_true, if_false]
  · have hmembers : (match (s.corpusFor n).map Prod.snd with | some c => geoCount c.geometry | none => 1) = s.membersFor n := by
      unfold State.membersFor
      cases s.corpusFor n <;> rfl
    simp only [hmode, if_true]
    exact congrArg (fun k => (exactOrder (s.kc n) g k e (s.member n)).map Prod.fst) hmembers
  · simp only [hkeep, Bool.false_eq_true, if_false, and_self]
  · simp only [hkeep, if_true, and_self]

/-- R422: what goes to the partner of a protected stream changes no stream. -/
theorem mirrorLocations_run (s : State) (n e : Nat) : (s.mirrorLocations n e).run n = s.run n := by
  unfold State.mirrorLocations
  dsimp only
  split <;> rfl

/-- R185: the merged entries of the lists of an epoch, and how many of them were there twice. -/
def mergedLists (ls : List Portion) : List (Nat × Nat) × Nat := mergeEntries (ls.flatMap Portion.entries)

/-- R185, R422: epoch e of stream n begins with its lists, in a device that then sees to the lists of the epoch after. -/
def State.epochWith (s : State) (n e : Nat) (ls : List Portion) : State :=
  (((s.count (oPlanMismatch n) (mergedLists ls).2).beginEpoch n e (mergedLists ls).1).ensureLists n (e + 1)).mirrorLocations n (e + 1)

theorem exec_epochBegin_eq (n : Nat) (s : State) : exec (.epochBegin n) s = execEpochBegin n s := rfl

section Epoch

variable {s : State} {n : Nat} (hn : n < 64)
include hn

theorem exec_epochBegin_nothing (h : s.nextEpoch n = none) : exec (.epochBegin n) s = .next s := by
  rw [exec_epochBegin_eq, execEpochBegin]
  refine withStream_idle hn ?_
  rw [h]

variable {e : Nat} (hup : s.up = true) (hnext : s.nextEpoch n = some e)
include hup hnext

theorem exec_epochBegin_waits (h : (s.ensureLists n e).epochLists n e = none) :
    exec (.epochBegin n) s = .next (s.ensureLists n e) := by
  rw [exec_epochBegin_eq, execEpochBegin, withStream_runs _ hn hup]
  simp only [hnext, h]

variable {ls : List Portion} (hlists : (s.ensureLists n e).epochLists n e = some ls)
include hlists

theorem exec_epochBegin_tooMany (h : planLimit < (mergedLists ls).1.length) : exec (.epochBegin n) s =
    .next (((s.ensureLists n e).count (oPlanMismatch n) (mergedLists ls).2).holdStream n stUnsupported) := by
  rw [exec_epochBegin_eq, execEpochBegin, withStream_runs _ hn hup]
  simp only [hnext, hlists]
  exact if_pos h

theorem exec_epochBegin_begins (h : (mergedLists ls).1.length ≤ planLimit) :
    exec (.epochBegin n) s = .next ((s.ensureLists n e).epochWith n e ls) := by
  rw [exec_epochBegin_eq, execEpochBegin, withStream_runs _ hn hup]
  simp only [hnext, hlists]
  exact if_neg (Nat.not_lt.mpr h)

end Epoch

theorem holdStream_state (s : State) (n status : Nat) :
    ((s.holdStream n status).stream n).state = .held ∧ ((s.holdStream n status).stream n).lastStatus = status := by
  unfold State.holdStream
  rw [State.stream_updStream, if_pos rfl]
  exact ⟨rfl, rfl⟩

/-- R185: whether a cursor was kept for the epoch that begins. -/
theorem keepsCursor_eq_false {r : RunSt} {e : Nat} (h : r.hasCursor = false ∨ r.epoch ≠ e) : (r.hasCursor && r.epoch == e) = false := by
  rcases h with h | h <;> simp [h]

/-- R185, R189, R236: where a run stands that has begun an epoch, in terms of the state before the device saw to its lists. -/
theorem epochWith_run {s u : State} (hsame : SameButLists s u) (n e : Nat) (ls : List Portion) :
    let r := (u.epochWith n e ls).run n
    let g := (mergedLists ls).1
    r.begun = true ∧ r.epoch = e ∧ (s.exactMode n = false → r.sorted = g) ∧
    (s.exactMode n = true → r.order = (exactOrder (s.kc n) g (s.membersFor n) e (s.member n)).map Prod.fst) ∧
    (((s.run n).hasCursor && (s.run n).epoch == e) = false → r.nextBatch = 0 ∧ r.nextOpen = 0 ∧ r.cursor = 0) ∧
    (((s.run n).hasCursor && (s.run n).epoch == e) = true → r.nextBatch = (s.run n).nextBatch ∧ r.cursor = (s.run n).cursor) := by
  have hcounted := hsame.trans (mismatch_sameButLists u n (mergedLists ls).2)
  have hbegun := beginEpoch_run (u.count (oPlanMismatch n) (mergedLists ls).2) n e (mergedLists ls).1
  have hmembers : (u.count (oPlanMismatch n) (mergedLists ls).2).membersFor n = s.membersFor n := by
    unfold State.membersFor
    rw [hcounted.corpusFor n]
  have hrun := hcounted.run n
  have hcursor := congrArg RunSt.hasCursor hrun
  have hepoch := congrArg RunSt.epoch hrun
  have hnextBatch := congrArg RunSt.nextBatch hrun
  have hbackfill := congrArg RunSt.cursor hrun
  dsimp only at hbegun hcursor hepoch hnextBatch hbackfill
  rw [hcounted.exactMode, hcounted.kc, hcounted.member, hmembers, hcursor, hepoch, hnextBatch, hbackfill] at hbegun
  have hafter := (ensureLists_sameButLists ((u.count (oPlanMismatch n) (mergedLists ls).2).beginEpoch n e (mergedLists ls).1) n
    (e + 1)).run n
  unfold State.epochWith
  rw [mirrorLocations_run]
  generalize ((u.count (oPlanMismatch n) (mergedLists ls).2).beginEpoch n e (mergedLists ls).1).run n = r0 at hbegun hafter
  generalize (((u.count (oPlanMismatch n) (mergedLists ls).2).beginEpoch n e (mergedLists ls).1).ensureLists n (e + 1)).run n = r
    at hafter ⊢
  have hsorted := congrArg RunSt.sorted hafter
  have horder := congrArg RunSt.order hafter
  have hopen := congrArg RunSt.nextOpen hafter
  have hbatch := congrArg RunSt.nextBatch hafter
  have hcur := congrArg RunSt.cursor hafter
  have hbeg := congrArg RunSt.begun hafter
  have hep := congrArg RunSt.epoch hafter
  dsimp only at hsorted horder hopen hbatch hcur hbeg hep ⊢
  rw [hsorted, horder, hopen, hbatch, hcur, hbeg, hep]
  exact hbegun

end Sys2Proof.Machine

open Sys2Proof Sys2Proof.Machine in
/-- Settles O17: a list is kept, is late or is refused by its epoch and its fence record, and an epoch begins with the merged entries
of its lists. The bytes of the refusal (`mkStale`) are the model's layout (log entry 48). -/
theorem portionListsAndEpochs : Obligations.PortionListsAndEpochs := by
  unfold Obligations.PortionListsAndEpochs
  dsimp only
  refine ⟨⟨fun s n fe fo data hn hup hother => ?other, fun s n fe fo nsid data c hn hup hlen hmagic hwhole hcorpus hheld => ?list⟩,
    fun s n hn h => exec_epochBegin_nothing hn h, fun s n e hn hup hnext h => exec_epochBegin_waits hn hup hnext h,
    fun s n e ls hn hup hnext hlists hmany => ⟨_, exec_epochBegin_tooMany hn hup hnext hlists hmany, holdStream_state _ n _⟩,
    fun s n e ls hn hup hnext hlists hfew => ?begins⟩
  case other =>
    refine ⟨_, exec_portionListReceive_other fe fo hn hup ?_, checkList_streams s n data⟩
    rw [← Bool.not_eq_true, isPortionList_iff, not_and_or, not_and_or, not_le, or_assoc, or_assoc]
    exact hother
  case list =>
    have hrow := exec_portionListReceive_list fe fo hn hup ((isPortionList_iff data).mpr ⟨hlen, hmagic, hwhole⟩) hcorpus hheld
    have hmismatch := checkList_mismatch (s := s) (n := n) ((isPortionList_iff data).mpr ⟨hlen, hmagic, hwhole⟩)
    refine ⟨fun hfence hopen => ?kept, fun hfence hover => ?late, fun hfence => ?stale, fun hfence hcheck => ?staleSame⟩
    case kept =>
      have hkept : ¬ (fieldAt data 12 4 < (s.run n).epoch || (fieldAt data 12 4 = (s.run n).epoch && (s.run n).begun)) = true := by
        rcases hopen with h | ⟨h, hbegun⟩
        · simp; omega
        · simp [h, hbegun]
      refine ⟨_, hrow.trans ((if_neg (ne_true_of_eq_false hfence)).trans (if_neg hkept)), ?_⟩
      rw [run_updRun, run_of_streams ((raiseMember_streams _ _ _ _).trans (checkList_streams s n data))]
      obtain ⟨hmem, hothers⟩ := keepList_lists (s.run n) (portionIn data)
      exact ⟨hmem, hothers, (updCorpus_stored _ nsid _ _).trans hmismatch⟩
    case late =>
      have hlate : (fieldAt data 12 4 < (s.run n).epoch || (fieldAt data 12 4 = (s.run n).epoch && (s.run n).begun)) = true := by
        rcases hover with h | ⟨h, hbegun⟩
        · simp [h]
        · simp [h, hbegun]
      exact ⟨_, hrow.trans ((if_neg (ne_true_of_eq_false hfence)).trans (if_pos hlate)),
        (raiseMember_streams _ _ _ _).trans (checkList_streams s n data)⟩
    case stale =>
      refine ⟨_, hrow.trans (if_pos hfence), checkList_streams s n data, ?_, List.mem_append_right _ (List.mem_singleton_self _)⟩
      rw [refuseList_refusals, checkList_refusals]
    case staleSame =>
      rw [checkList_same hcheck] at hrow
      exact hrow.trans (if_pos hfence)
  case begins =>
    obtain ⟨hbegun, hepoch, hset, horder, hfresh, hkept⟩ := epochWith_run (ensureLists_sameButLists s n e) n e ls
    refine ⟨_, exec_epochBegin_begins hn hup hnext hlists hfew, hbegun, hepoch, hset, horder,
      fun h => hfresh (keepsCursor_eq_false h), fun hcursor he => hkept (by simp [hcursor, he])⟩
end

section
/-! Signature bands (R194), the migration of samples (R186) and the snapshots of a stream (R232, R233). -/

namespace Sys2Proof.Machine

open Sys2Proof

/-! ## DEDUP_BAND_RECEIVE (R194) -/

/-- R194: a recorded band is there, beside those that were. -/
theorem recordBand_bands (s : State) (b : Band) : b ∈ (s.recordBand b).bands ∧ ∀ x ∈ s.bands, x ∈ (s.recordBand b).bands := by
  unfold State.recordBand
  split
  case isTrue h => exact ⟨List.contains_iff_mem.mp h, fun _ hx => hx⟩
  case isFalse => exact ⟨List.mem_append_right _ (List.mem_singleton_self b), fun _ hx => List.mem_append_left _ hx⟩

theorem takeInbox_bands (s : State) (data : Bytes) : (s.takeInbox data).bands = s.bands := by
  have hwork := congrArg State.bands (takeInbox_work s data)
  exact hwork

theorem exec_dedupBandReceive {s : State} {k band idx sig : Nat} (corpus : Nat) (hup : s.up = true) (hk : k < 8)
    (hband : band < 2 ^ 32) (hidx : idx < 2 ^ 64) (hsig : sig < 2 ^ 256) :
    let b : Band := { corpus := corpus, k := k, band := band, sample := idx, sig := sig }
    exec (.dedupBandReceive corpus k band idx sig) s = .next ((s.takeInbox (bandMessage b)).recordBand b) := by
  have hrow : exec (.dedupBandReceive corpus k band idx sig) s = execDedupBandReceive corpus k band idx sig s := rfl
  rw [hrow, execDedupBandReceive, whenUp_runs _ hup, Nat.mod_eq_of_lt hk, Nat.mod_eq_of_lt hband, Nat.mod_eq_of_lt hidx,
    Nat.mod_eq_of_lt hsig]

/-! ## SAMPLE_MIGRATE (R186) -/

theorem exec_sampleMigrate_eq (nsid idx : Nat) (m : Migrate) (s : State) :
    exec (.sampleMigrate nsid idx m) s = execSampleMigrate nsid idx m s := rfl

theorem exec_sampleMigrate_noCorpus {s : State} {nsid : Nat} (idx : Nat) (m : Migrate)
    (h : ∀ x, s.ns nsid = some x → x.corpus = none) : exec (.sampleMigrate nsid idx m) s = .next s := by
  rw [exec_sampleMigrate_eq, execSampleMigrate]
  refine whenUp_idle ?_
  cases hns : s.ns nsid with
  | none => rfl
  | some x => simp only [h x hns]

section Corpus

variable {s : State} {nsid : Nat} {x : Namespace} {c : Corpus} (idx : Nat) (hup : s.up = true) (hns : s.ns nsid = some x)
  (hcorpus : x.corpus = some c)
include hup hns hcorpus

/-- R186: the holder sends a copy of a sample that another member is to hold, once. -/
theorem exec_sampleMigrate_send : exec (.sampleMigrate nsid idx .send) s = .next (
    match Tbl.find c.records idx with
    | some r => if c.locNow idx = c.own ∨ c.moving.contains idx = true then s else s.sendCopy x nsid idx c r
    | none => s) := by
  rw [exec_sampleMigrate_eq, execSampleMigrate, whenUp_runs _ hup]
  simp only [hns, hcorpus]
  cases Tbl.find c.records idx with
  | none => rfl
  | some r =>
    simp only [Bool.or_eq_true, beq_iff_eq]
    split <;> rfl

/-- R186: the member towards which a sample moves keeps a verified copy that it has not, when it fits. -/
theorem exec_sampleMigrate_arrive (m : MigCopy) : exec (.sampleMigrate nsid idx (.arrive m)) s = .next (
    if c.locNow idx = c.own ∧ Tbl.find c.records idx = none ∧ (sha3_512 m.data).take 24 = m.digest ∧
      x.fits c m.data.length = true ∧ s.sampleRoom c m.data.length = true
    then s.storeRecord nsid idx m.data m.flags m.logical else s) := by
  rw [exec_sampleMigrate_eq, execSampleMigrate, whenUp_runs _ hup]
  simp only [hns, hcorpus]
  cases Tbl.find c.records idx with
  | none =>
    simp only [MigCopy.verified, Bool.and_eq_true, beq_iff_eq, and_assoc, true_and]
    split <;> rfl
  | some r => simp

/-- R186: the holder drops its own once a copy with the digest of its record is committed. -/
theorem exec_sampleMigrate_committed (g : Bytes) : exec (.sampleMigrate nsid idx (.committed g)) s = .next (
    match Tbl.find c.records idx with
    | some r => if c.moving.contains idx = true ∧ g = r.digest then s.dropSample nsid idx else s
    | none => s) := by
  rw [exec_sampleMigrate_eq, execSampleMigrate, whenUp_runs _ hup]
  simp only [hns, hcorpus]
  cases Tbl.find c.records idx with
  | none => rfl
  | some r =>
    simp only [Bool.and_eq_true, beq_iff_eq]
    split <;> rfl

end Corpus

/-! ## SNAP_CONTROL (R232) -/

theorem isLimited_oSnapControl : ∀ n < 64, isLimited (oSnapControl n) = false := by decide +kernel

theorem oSnapControl_div (n : Nat) : oSnapControl n / 256 = 0x2200 + n := by unfold oSnapControl; omega

theorem oSnapControl_mod (n : Nat) : oSnapControl n % 256 = 6 := by unfold oSnapControl; omega

section SnapControl

variable {n : Nat} (hn : n < 64)
include hn

theorem normalValue_oSnapControl (v : Nat) : normalValue (oSnapControl n) v = v := by
  have hplace : oSnapControl n ≠ oPlaceGeometry ∧ oSnapControl n ≠ oTorusGeometry := by
    simp only [oSnapControl, oPlaceGeometry, oTorusGeometry]
    omega
  simp [normalValue, hplace.1, hplace.2, oSnapControl_mod]

theorem applyObject_oSnapControl (t : State) (src : OdSource) (role : Role) (v : Nat) (data : Bytes) :
    t.applyObject src role (oSnapControl n) v data = t.applyExact n 6 (oSnapControl n) v := by
  have hoff : t.objectOff (0x2200 + n) = false := by
    unfold State.objectOff
    rw [if_neg (by simp only [Bool.and_eq_true, decide_eq_true_eq]; omega),
      if_neg (by simp only [Bool.and_eq_true, decide_eq_true_eq]; omega)]
  have hexact : (0x2200 ≤ 0x2200 + n && 0x2200 + n < 0x2240) = true := by
    simp only [Bool.and_eq_true, decide_eq_true_eq]; omega
  have hstream : (0x2100 ≤ 0x2200 + n && 0x2200 + n < 0x2140) = false := by
    simp only [Bool.and_eq_false_iff, decide_eq_false_iff_not]; omega
  have hslot : (0x2010 ≤ 0x2200 + n && 0x2200 + n < 0x2020) = false := by
    simp only [Bool.and_eq_false_iff, decide_eq_false_iff_not]; omega
  unfold State.applyObject
  rw [oSnapControl_div, oSnapControl_mod]
  simp only [hoff, hslot, hstream, hexact, Bool.false_eq_true, if_false, if_true, Nat.add_sub_cancel_left,
    show ¬ 0x2200 + n < 0x1140 by omega, show ¬ 0x2200 + n < 0x1400 by omega, show ¬ 0x2200 + n < 0x2000 by omega]

/-- R232: SNAP_CONTROL takes a snapshot of a stream that is PAUSED or HELD. -/
theorem exec_snapControl {s t : State} {r : OdReq} {role : Role} (h : s.ReceivesWrite r (oSnapControl n) role t)
    (hscrub : t.scrubbing n = false) : exec (.snapControl r n) s =
    (acceptIf ((t.stream n).state == .paused || (t.stream n).state == .held) t (t.takeSnapshot n)).answered r := by
  have hkey : oSnapControl n < 2 ^ 24 := by unfold oSnapControl; omega
  have hblock : blockKey (decide (n < 64)) (oSnapControl n) = oSnapControl n := by simp [blockKey, hn]
  have hrow : exec (.snapControl r n) s = odRow (blockKey (decide (n < 64)) (oSnapControl n)) (fun _ => true) r s := rfl
  rw [hrow, hblock, odRow_answered h rfl hkey (isLimited_oSnapControl n hn), normalValue_oSnapControl hn,
    applyObject_oSnapControl hn, State.applyExact, if_pos rfl, if_neg (ne_true_of_eq_false hscrub)]

end SnapControl

/-! ## PAUSE_DRAIN_DONE (R233) -/

theorem takeSnapshot_snapshot (s : State) (n : Nat) :
    ((s.takeSnapshot n).stream n).snapshot = some (s.snapshotBytes n ((s.stream n).snapSeq + 1)) := by
  unfold State.takeSnapshot
  rw [State.stream_updStream, if_pos rfl]

theorem snapshot_updDlv (s : State) (n : Nat) (f : DlvSt → DlvSt) : ((s.updDlv n f).stream n).snapshot = (s.stream n).snapshot := by
  rw [State.stream_updDlv, if_pos rfl]

theorem dropBackfill_snapshot (s : State) (n : Nat) : ((s.dropBackfill n).stream n).snapshot = (s.stream n).snapshot := by
  unfold State.dropBackfill
  dsimp only
  split
  · exact snapshot_updDlv s n _
  · rfl

/-- R232, R233: a stream that stops at its cursor has taken its snapshot, and keeps the cursor. -/
theorem parkStream_kept (s : State) (n : Nat) :
    ((s.parkStream n).stream n).snapshot = some (s.snapshotBytes n ((s.stream n).snapSeq + 1)) ∧
      ((s.parkStream n).run n).hasCursor = true := by
  unfold State.parkStream
  dsimp only
  rw [run_updRun, State.stream_updRun, if_pos rfl]
  refine ⟨?_, rfl⟩
  dsimp only
  rw [snapshot_updDlv, dropBackfill_snapshot, endJobs_stream, takeSnapshot_snapshot]

section Pause

variable {s : State} {n : Nat} (hn : n < 64)
include hn

theorem exec_pauseDrainDone_idle (h : (s.stream n).state ≠ .running ∨ (s.stream n).draining = false ∨ s.drained n = false) :
    exec (.pauseDrainDone n) s = .next s := by
  have hrow : exec (.pauseDrainDone n) s = execPauseDrainDone n s := rfl
  rw [hrow, execPauseDrainDone]
  refine withStream_idle hn (if_neg ?_)
  rcases h with h | h | h <;> simp [h]

theorem exec_pauseDrainDone_drained (hup : s.up = true) (hrunning : (s.stream n).state = .running)
    (hdraining : (s.stream n).draining = true) (hdrained : s.drained n = true) : exec (.pauseDrainDone n) s =
    .next ((s.parkStream n).updStream n fun x => { x with state := .paused, draining := false }) := by
  have hrow : exec (.pauseDrainDone n) s = execPauseDrainDone n s := rfl
  rw [hrow, execPauseDrainDone, withStream_runs _ hn hup]
  exact if_pos (by simp [hrunning, hdraining, hdrained])

end Pause

end Sys2Proof.Machine

open Sys2Proof Sys2Proof.Machine in
/-- Settles O23: what a band, a migration, SNAP_CONTROL and the end of a pause come to. The messages of a migration and that a sample
is sent once, with its digest, are the model's choice (log entry 48), as is the refusal of SNAP_CONTROL with STATUS 0 (log entry 80). -/
theorem bandsMigrationAndSnapshots : Obligations.BandsMigrationAndSnapshots := by
  unfold Obligations.BandsMigrationAndSnapshots
  refine ⟨fun s corpus k band idx sig hup hk hband hidx hsig => ?band, fun s nsid idx x c hup hns hcorpus => ?migrate,
    fun s nsid idx m h => exec_sampleMigrate_noCorpus idx m h, fun s n hn h => exec_pauseDrainDone_idle hn h,
    fun s t r n role hn h hscrub => ?snapControl, fun s n hn hup hrunning hdraining hdrained => ?pause⟩
  case band =>
    refine ⟨_, exec_dedupBandReceive corpus hup hk hband hidx hsig, ?_⟩
    obtain ⟨hmem, hothers⟩ := recordBand_bands (s.takeInbox _) _
    exact ⟨hmem, fun b hb => hothers b ((takeInbox_bands s _).symm ▸ hb)⟩
  case migrate =>
    have hsend := exec_sampleMigrate_send idx hup hns hcorpus
    have harrive := exec_sampleMigrate_arrive idx hup hns hcorpus
    have hcommitted := exec_sampleMigrate_committed idx hup hns hcorpus
    refine ⟨fun r hr haway hstill => ?sends, fun m hhere hnew hgood hfits hroom => ?stores, fun r hr hmoving => ?drops,
      fun h => ?unsent, fun m h => ?unstored, fun g h => ?undropped⟩
    case sends =>
      rw [hsend, hr]
      exact congrArg Host.Outcome.next (if_neg (not_or.mpr ⟨haway, ne_true_of_eq_false hstill⟩))
    case stores => rw [harrive, if_pos ⟨hhere, hnew, hgood, hfits, hroom⟩]
    case drops =>
      rw [hcommitted, hr]
      exact congrArg Host.Outcome.next (if_pos ⟨hmoving, rfl⟩)
    case unsent =>
      rw [hsend]
      cases hr : Tbl.find c.records idx with
      | none => rfl
      | some r => exact congrArg Host.Outcome.next (if_pos (h.resolve_left (by simp [hr])))
    case unstored =>
      rw [harrive, if_neg]
      rintro ⟨hhere, hnew, hgood, hfits, hroom⟩
      simp [hhere, hnew, hgood, hfits, hroom] at h
    case undropped =>
      rw [hcommitted]
      cases hr : Tbl.find c.records idx with
      | none => rfl
      | some r =>
        refine congrArg Host.Outcome.next (if_neg ?_)
        rintro ⟨hmoving, hdigest⟩
        exact (h r hr).elim (fun hstill => ne_true_of_eq_false hstill hmoving) fun hother => hother hdigest
  case snapControl =>
    rw [exec_snapControl hn h hscrub]
    obtain ⟨hok, hno⟩ := acceptIf_answered ((t.stream n).state == .paused || (t.stream n).state == .held) t (t.takeSnapshot n) r
    refine ⟨fun hstate => hok (by simpa using hstate), fun hpaused hheld => hno (by simp [hpaused, hheld])⟩
  case pause =>
    refine ⟨_, exec_pauseDrainDone_drained hn hup hrunning hdraining hdrained, ?_⟩
    obtain ⟨hsnapshot, hcursor⟩ := parkStream_kept s n
    rw [State.run, State.stream_updStream, if_pos rfl]
    exact ⟨rfl, rfl, hsnapshot, hcursor⟩
end

section
/-! Corpora (R178, R181, R182, R195), snapshots read and restored (R232, R235) and ingest (R340, R341). -/

namespace Sys2Proof.Machine

open Sys2Proof

/-! ## What leaves the namespaces as they are -/

theorem complete_nss (s : State) (sq cid sct sc : Nat) (dnr : Bool) (dw0 : Nat) (data : Bytes) :
    (s.complete sq cid sct sc dnr dw0 data).host.nss = s.host.nss :=
  nss_of_work (complete_work s sq cid sct sc dnr dw0 data)

theorem asyncEvent_nss (s : State) (type info page : Nat) : (s.asyncEvent type info page).host.nss = s.host.nss := by
  unfold State.asyncEvent
  split
  · split
    · exact complete_nss _ _ _ _ _ _ _ _
    · rfl
  · rfl

theorem warn_nss (s : State) : s.warn.host.nss = s.host.nss := by
  have hspare : ∀ (u : State) (p : Bool), (if p then u.asyncEvent 1 2 2 else u).host.nss = u.host.nss := fun u p => by
    cases p
    · rfl
    · exact asyncEvent_nss u 1 2 2
  unfold State.warn
  dsimp only
  split
  · rw [asyncEvent_nss, hspare]
  · rw [hspare]

theorem followMedia_nss (s : State) : s.followMedia.host.nss = s.host.nss := by
  unfold State.followMedia
  dsimp only
  split
  · exact warn_nss s
  · split
    · rw [warn_nss]
    · rw [warn_nss, asyncEvent_nss]

theorem followGc_nss (s : State) (m : Nat) : (s.followGc m).host.nss = s.host.nss := by
  unfold State.followGc
  dsimp only
  rw [followMedia_nss]

theorem followPools_nss (s : State) : s.followPools.host.nss = s.host.nss := by
  unfold State.followPools
  exact List.foldlRecOn (motive := fun u : State => u.host.nss = s.host.nss) _ _ rfl fun u hu m _ => (followGc_nss u m).trans hu

theorem programFrom_nss (key : Nat) (pages : List (Nat × Bytes)) : ∀ (s : State) {q : State × List (Nat × Nat)},
    State.programFrom key pages s = some q → q.1.host.nss = s.host.nss := by
  induction pages with
  | nil =>
    intro s q h
    cases h
    rfl
  | cons p r ih =>
    intro s q h
    rw [State.programFrom] at h
    split at h
    · cases h
    · obtain ⟨q', hrest, rfl⟩ := Option.map_eq_some_iff.mp h
      have hnss := ih _ hrest
      exact hnss

theorem programPages_nss {s t : State} {journal : Bool} {key : Nat} {pages : List (Nat × Bytes)}
    (h : s.programPages journal key pages = some t) : t.host.nss = s.host.nss := by
  unfold State.programPages at h
  obtain ⟨q, hfrom, rfl⟩ := Option.map_eq_some_iff.mp h
  dsimp only
  rw [followPools_nss]
  exact programFrom_nss key pages s hfrom

theorem writeBytes_nss (s : State) (x : Namespace) (off : Nat) (b : Bytes) : (s.writeBytes x off b).host.nss = s.host.nss := by
  unfold State.writeBytes
  dsimp only
  split
  · rfl
  · generalize hthrough : State.programPages _ _ _ _ = w
    cases w with
    | none => rfl
    | some t =>
      have hnss := programPages_nss hthrough
      exact hnss

theorem ns_of_nss {s t : State} (h : t.host.nss = s.host.nss) (nsid : Nat) : t.ns nsid = s.ns nsid := by
  unfold State.ns
  rw [h]

/-! ## The corpus of a namespace -/

section Corpus

variable {s : State} {nsid : Nat} {x : Namespace} (hns : s.ns nsid = some x)
include hns

theorem ns_updCorpus (f : Corpus → Corpus) : (s.updCorpus nsid f).ns nsid = some { x with corpus := x.corpus.map f } := by
  unfold State.updCorpus
  rw [hns]
  dsimp only
  rw [State.ns_setNs, if_pos rfl]

variable {p : Corpus} (hcorpus : x.corpus = some p)
include hcorpus

theorem corpus_of_ns : (s.ns nsid).bind Namespace.corpus = some p := by rw [hns]; exact hcorpus

end Corpus

theorem corpus_updCorpus (s : State) (nsid : Nat) (f : Corpus → Corpus) :
    ((s.updCorpus nsid f).ns nsid).bind Namespace.corpus = ((s.ns nsid).bind Namespace.corpus).map f := by
  cases hns : s.ns nsid with
  | none =>
    unfold State.updCorpus
    simp only [hns]
    rfl
  | some x =>
    rw [ns_updCorpus hns]
    rfl

/-! ## CORPUS_CREATE and CORPUS_SEAL (R178, R181, R182, R195) -/

section Admin

variable {s : State} {c : NvmeCmd} (h : s.TakesCommand true c) (hrm : s.rmRuns 0 = true) (hstep : s.sys.step = 0)
include h hrm hstep

/-- R338, R402: a vendor command of Ringmaster 0 that the controller takes runs. -/
theorem adminRun_takes (f : State → State) : (whenRm 0 s fun s => nvmeRun true c s f) = .next (f (s.nvmeTake c)) := by
  rw [whenRm_runs _ h.up hrm (.inl hstep), nvmeRun_takes _ h]

theorem exec_corpusCreate {k : Nat} (hscrub : (s.nvmeTake c).scrubs c.cdw15 = false) (hdrift : driftOk (bits c.cdw13 7 0) = true)
    (hnew : (s.nvmeTake c).corpusOf c.cdw10 = none) (hroom : (s.nvmeTake c).createCheck c.cdw14 = .ok k) :
    exec (.corpusCreate c) s = .next (((s.nvmeTake c).addNamespace k c.cdw14
      { cls := 2, tenant := c.cdw15, corpus := some { id := c.cdw10, seed := c.cdw11 + 2 ^ 32 * c.cdw12, drift := bits c.cdw13 7 0,
                                                      geometry := (s.nvmeTake c).place } }).vendorDone c stSuccess (some k) []) := by
  have hrow : exec (.corpusCreate c) s = execCorpusCreate c s := rfl
  rw [hrow, execCorpusCreate, adminRun_takes h hrm hstep, if_neg (ne_true_of_eq_false hscrub), if_neg (by simp [hdrift, hnew]), hroom]

theorem exec_corpusSeal {x : Namespace} {p : Corpus} (hns : (s.nvmeTake c).ns c.nsid = some x) (hcorpus : x.corpus = some p)
    (hscrub : (s.nvmeTake c).scrubs x.tenant = false) :
    exec (.corpusSeal c) s = .next (((s.nvmeTake c).sealCorpus c.nsid p).vendorDone c stSuccess none
      ((match (((s.nvmeTake c).sealCorpus c.nsid p).ns c.nsid).bind Namespace.corpus with
        | some q => sealReport q | none => []).take c.cdw10)) := by
  have hrow : exec (.corpusSeal c) s = execCorpusSeal c s := rfl
  rw [hrow, execCorpusSeal, adminRun_takes h hrm hstep]
  simp only [hns, hcorpus, hscrub, Bool.false_eq_true, if_false] <;> rfl

end Admin

theorem addNamespace_corpus (s : State) (k g : Nat) (x : Namespace) :
    ((s.addNamespace k g x).ns k).bind Namespace.corpus = x.corpus := by
  unfold State.addNamespace State.settleSpares
  rw [ns_of_nss (followPools_nss _), State.ns, Tbl.find_set, if_pos rfl]
  rfl

/-- R195: the record of a sample of a corpus that is sealed: a DUPLICATE sample is marked. -/
def State.sealRecord (s : State) (p : Corpus) (r : Nat × SampleRec) : Nat × SampleRec :=
  if s.duplicate p r.1 then (r.1, { r.2 with flags := setBit r.2.flags 2 true }) else r

theorem sealRecord_index (s : State) (p : Corpus) (r : Nat × SampleRec) : (s.sealRecord p r).1 = r.1 := by
  unfold State.sealRecord
  split <;> rfl

theorem bit_setBit_true (v i : Nat) : bit (setBit v i true) i = true := by
  unfold bit setBit
  by_cases h : v.testBit i = true
  · simp [h]
  · simp [h, Nat.add_comm v, Nat.testBit_two_pow_add_eq]

theorem sealRecord_duplicate (s : State) (p : Corpus) (i : Nat) (r : SampleRec) :
    bit (s.sealRecord p (i, r)).2.flags 2 = (s.duplicate p i || bit r.flags 2) := by
  unfold State.sealRecord
  cases hdup : s.duplicate p i with
  | true => exact bit_setBit_true r.flags 2
  | false => rfl

theorem sealCorpus_corpus {s : State} {nsid : Nat} {x : Namespace} {p : Corpus} (hns : s.ns nsid = some x)
    (hcorpus : x.corpus = some p) (hopen : p.sealed = false) : ((s.sealCorpus nsid p).ns nsid).bind Namespace.corpus =
    some { p with sealed := true, records := p.records.map (s.sealRecord p) } := by
  unfold State.sealCorpus
  dsimp only
  rw [corpus_updCorpus, corpus_of_ns hns hcorpus, Option.map_some, if_neg (ne_true_of_eq_false hopen)]
  rfl

/-! ## SNAPSHOT_READ and SNAPSHOT_RESTORE (R232, R235) -/

section Snapshot

variable {s : State} {c : NvmeCmd} (h : s.TakesCommand true c) (hrm : s.rmRuns 0 = true) (hstep : s.sys.step = 0)
  (hn : c.cdw10 < 64) (hscrub : (s.nvmeTake c).scrubbed c.cdw10 = false)
include h hrm hstep hn hscrub

theorem exec_snapshotRead : exec (.snapshotRead c) s = .next (
    match ((s.nvmeTake c).stream c.cdw10).snapshot with
    | some b => (s.nvmeTake c).complete c.sq c.cid 0 0 false (snapDwords (fieldAt b 0x10 8)) ((b.drop c.cdw11).take 262144)
    | none => (s.nvmeTake c).vendorDone c stState none []) := by
  have hrow : exec (.snapshotRead c) s = execSnapshotRead c s := rfl
  rw [hrow, execSnapshotRead, adminRun_takes h hrm hstep]
  dsimp only
  rw [if_neg (Nat.not_le.mpr hn), if_neg (ne_true_of_eq_false hscrub)] <;> rfl

omit hscrub

/-- R235, R338: a piece of a snapshot is kept, or breaks the transfer, or is the last one. -/
theorem exec_snapshotRestore (hlen : c.data.length ≤ 262144) : exec (.snapshotRestore c) s = .next (
    match Assembly.take (Tbl.find (s.nvmeTake c).host.restores c.cdw10) c.cdw11 c.cdw12 (s.nvmeTake c).gtc c.data with
    | none => ((s.nvmeTake c).setRestore c.cdw10 none).vendorDone c stImageMalformed none []
    | some a =>
      if bit c.cdw13 0 = false then ((s.nvmeTake c).setRestore c.cdw10 (some a)).vendorDone c stSuccess none []
      else
        let r := ((s.nvmeTake c).setRestore c.cdw10 none).restoreInto c.cdw10 a.data
        r.2.vendorDone c r.1 none []) := by
  have hrow : exec (.snapshotRestore c) s = execSnapshotRestore c s := rfl
  have hfits : ¬ (64 ≤ c.cdw10 || vendorMax < c.data.length) = true := by
    rw [Bool.or_eq_true, decide_eq_true_eq, decide_eq_true_eq]
    exact not_or.mpr ⟨Nat.not_le.mpr hn, Nat.not_lt.mpr hlen⟩
  rw [hrow, execSnapshotRestore, adminRun_takes h hrm hstep]
  dsimp only
  rw [if_neg hfits]
  cases bit c.cdw13 0 <;> rfl

end Snapshot

/-- The transfer of a snapshot is no part of the stream. -/
theorem stream_setRestore (s : State) (n m : Nat) (a : Option Assembly) : (s.setRestore n a).stream m = s.stream m := rfl

theorem restoreStatus_setRestore (s : State) (n m : Nat) (a : Option Assembly) (b : Bytes) (fence : Bool) :
    (s.setRestore n a).restoreStatus m b fence = s.restoreStatus m b fence := rfl

section Restore

variable {t : State} {n : Nat} {b : Bytes} (hscrub : t.scrubbed n = false)
include hscrub

/-- R235: what a restore comes to on a stream that is not LOADED. -/
theorem restoreInto_refused (h : (t.stream n).state ≠ .loaded) :
    t.restoreInto n b = (if (t.stream n).state = .moved then stMoved else stState, t) := by
  unfold State.restoreInto
  rw [if_neg (ne_true_of_eq_false hscrub)]
  by_cases hmoved : (t.stream n).state = .moved
  · rw [if_pos hmoved, if_pos hmoved]
  · rw [if_neg hmoved, if_neg hmoved, if_pos h]

/-- R235: what a restore comes to on a LOADED stream. -/
theorem restoreInto_loaded (h : (t.stream n).state = .loaded) : t.restoreInto n b =
    if t.restoreStatus n b true = stSuccess then (stSuccess, t.applySnapshot n b) else (t.restoreStatus n b true, t) := by
  unfold State.restoreInto State.restoreBytes
  rw [if_neg (ne_true_of_eq_false hscrub), if_neg (by simp [h]), if_neg (by simp [h])]
  dsimp only
  by_cases hok : t.restoreStatus n b true = stSuccess
  · rw [if_pos hok, if_pos hok]
  · rw [if_neg hok, if_neg hok]

end Restore

/-- R320: slots that a restore frees: nothing else of the stream changes. -/
theorem freeRetired_stream (s : State) (n : Nat) : ∃ l, (s.freeRetired n).stream n = (s.stream n).withSlots l := by
  unfold State.freeRetired
  refine List.foldlRecOn (motive := fun u : State => ∃ l, u.stream n = (s.stream n).withSlots l) _ _ ⟨_, rfl⟩ fun u hu i _ => ?_
  obtain ⟨l, hstream⟩ := hu
  dsimp only
  split
  · refine ⟨Tbl.upd l {} i Slot.freed, ?_⟩
    rw [State.updSlot, State.stream_updDlv, if_pos rfl, hstream]
    rfl
  · exact ⟨l, hstream⟩

/-- R230, R234: the stream stands at the cursor of the snapshot, in the state in which it was. -/
theorem applySnapshot_cursor (s : State) (n : Nat) (b : Bytes) :
    ((s.applySnapshot n b).run n).hasCursor = true ∧ ((s.applySnapshot n b).run n).nextBatch = fieldAt b 0xB0 8 ∧
    ((s.applySnapshot n b).run n).epoch = fieldAt b 0xA0 4 ∧ ((s.applySnapshot n b).stream n).state = (s.stream n).state ∧
    ((s.applySnapshot n b).stream n).dlv.dlvSeq = fieldAt b 0x160 8 := by
  unfold State.applySnapshot
  dsimp only
  rw [State.run]
  obtain ⟨l, hstream⟩ := freeRetired_stream (State.updStream _ n _) n
  rw [hstream, State.stream_updStream, if_pos rfl]
  exact ⟨rfl, rfl, rfl, rfl, rfl⟩

/-! ## INGEST (R340, R341) -/

/-- R340: a corpus with a sample kept open. -/
def Corpus.keeping (p : Corpus) (idx : Nat) (o : OpenSample) : Corpus :=
  { p with open_ := Tbl.set p.open_ idx o, discarded := p.discarded.filter (· ≠ idx) }

/-- R304: a corpus with a sample stored at the end of what was stored before. -/
def Corpus.storing (p : Corpus) (idx : Nat) (b : Bytes) (flags logical : Nat) : Corpus :=
  { p with
    records := Tbl.set p.records idx
      { offset := p.next, len := b.length, logical := logical, flags := flags, digest := (sha3_512 b).take 24 }
    next := p.next + roundUp b.length 128 }

theorem keeping_open (p : Corpus) (idx : Nat) (o : OpenSample) : Tbl.find (p.keeping idx o).open_ idx = some o := by
  unfold Corpus.keeping
  rw [Tbl.find_set, if_pos rfl]

theorem storing_record (p : Corpus) (idx : Nat) (b : Bytes) (flags logical : Nat) :
    Tbl.find (p.storing idx b flags logical).records idx =
      some { offset := p.next, len := b.length, logical := logical, flags := flags, digest := (sha3_512 b).take 24 } := by
  unfold Corpus.storing
  rw [Tbl.find_set, if_pos rfl]

/-- R340: a sample that is kept open changes its corpus and the open samples of its stream alone. -/
theorem keepOpen_eq (s : State) (nsid idx : Nat) (first : Bool) (o : OpenSample) : s.keepOpen nsid idx first o =
    { s with host := (s.keepOpen nsid idx first o).host, streams := (s.keepOpen nsid idx first o).streams } := by
  unfold State.keepOpen
  dsimp only
  rw [updCorpus_eq]
  split
  · split <;> rfl
  · rfl

theorem openSamples_run (s : State) (m idx n : Nat) :
    (s.updStream m fun x => { x with openSamples := x.openSamples ++ [idx] }).run n = s.run n := by
  unfold State.run
  rw [State.stream_updStream]
  split
  case isTrue h => rw [h]
  case isFalse => rfl

theorem keepOpen_run (s : State) (nsid idx : Nat) (first : Bool) (o : OpenSample) (n : Nat) :
    (s.keepOpen nsid idx first o).run n = s.run n := by
  have hcorpus := run_of_streams (updCorpus_streams s nsid fun p => p.keeping idx o) n
  unfold State.keepOpen
  dsimp only
  split
  · split
    · exact (openSamples_run _ _ idx n).trans hcorpus
    · exact hcorpus
  · exact hcorpus

theorem keepOpen_ns {s : State} {nsid : Nat} {x : Namespace} {p : Corpus} (hns : s.ns nsid = some x) (hcorpus : x.corpus = some p)
    (idx : Nat) (first : Bool) (o : OpenSample) : (s.keepOpen nsid idx first o).ns nsid =
    some { x with corpus := some (p.keeping idx o) } := by
  have hopen := ns_updCorpus hns fun p => p.keeping idx o
  rw [hcorpus] at hopen
  unfold State.keepOpen
  dsimp only
  split
  · split
    · exact hopen
    · exact hopen
  · exact hopen

theorem endIngestJob_nss (s : State) (nsid idx status : Nat) : (s.endIngestJob nsid idx status).host.nss = s.host.nss := by
  unfold State.endIngestJob
  split
  · rfl
  · have hnss := congrArg (fun u : State => u.host.nss) (endJobs_work s fun j => j.carries nsid idx && j.undelivered)
    exact hnss

theorem closeSample_corpus (s : State) (nsid idx status : Nat) (n : Option Nat) :
    ((s.closeSample nsid idx status n).ns nsid).bind Namespace.corpus =
      ((s.ns nsid).bind Namespace.corpus).map fun c => { c with open_ := Tbl.del c.open_ idx } := by
  have hclosed := corpus_updCorpus (s.endIngestJob nsid idx status) nsid fun c => { c with open_ := Tbl.del c.open_ idx }
  rw [ns_of_nss (endIngestJob_nss s nsid idx status)] at hclosed
  cases n with
  | none => exact hclosed
  | some m => exact hclosed

section Commit

variable {s : State} {nsid : Nat} {x : Namespace} {p : Corpus} (hns : s.ns nsid = some x) (hcorpus : x.corpus = some p)
include hns hcorpus

/-- R340: the end of an open sample; the INGEST command that waits for it is completed. -/
theorem endSample_open {idx : Nat} {o : OpenSample} (hopen : Tbl.find p.open_ idx = some o) (status : Nat) :
    s.endSample nsid idx status = match o.cmd with
      | some q => (s.closeSample nsid idx status o.stream).vendorDone { sq := q.1, cid := q.2 } status none []
      | none => s.closeSample nsid idx status o.stream := by
  unfold State.endSample
  simp only [corpus_of_ns hns hcorpus, hopen] <;> rfl

/-- R304: a stored sample has its record at the end of what was stored before. -/
theorem storeRecord_ns (idx : Nat) (b : Bytes) (flags logical : Nat) : (s.storeRecord nsid idx b flags logical).ns nsid =
    some { x with corpus := some (p.storing idx b flags logical) } := by
  unfold State.storeRecord
  simp only [hns, hcorpus]
  rw [ns_updCorpus ((ns_of_nss (writeBytes_nss s x p.next b) nsid).trans hns), hcorpus]
  rfl

/-- R340: a whole sample without a signature that fits at its home is stored there, and the command that waits for it is completed. -/
theorem commitSample_home {c : NvmeCmd} {idx : Nat} {b : Bytes} {o : OpenSample} (hopen : Tbl.find p.open_ idx = some o)
    (hcmd : o.cmd = some (c.sq, c.cid)) (hhome : p.home idx = p.own) (hfits : x.fits p b.length = true) (flags logical : Nat) :
    s.commitSample nsid idx b flags logical none =
      ((s.storeRecord nsid idx b flags logical).closeSample nsid idx stSuccess o.stream).vendorDone c stSuccess none [] := by
  have hended := endSample_open (storeRecord_ns hns hcorpus idx b flags logical) rfl hopen stSuccess
  rw [hcmd] at hended
  unfold State.commitSample
  simp only [hns, hcorpus, hhome, hfits, if_true]
  exact hended

end Commit

section Ingest

variable {s : State} {c : NvmeCmd} {x : Namespace} {p : Corpus} (h : s.TakesCommand false c) (hns : s.attachedNs c.nsid = some x)
  (hcorpus : x.corpus = some p)
include hns

/-- The namespace of the command as the controller finds it when it takes the command. -/
theorem ns_of_attached : (s.nvmeTake c).ns c.nsid = some x := by
  unfold State.attachedNs at hns
  split at hns
  · exact hns
  · cases hns

include h hcorpus

/-- R340, R341: a piece is refused, is kept, or is the last of its sample. -/
theorem exec_ingest (hscrub : s.scrubs x.tenant = false) (hserves : s.domOff 2 = false) (hflash : s.flashOn = true)
    (hroom : s.ingestWaits c x = false) (hlen : c.data.length ≤ 262144) (hwhole : c.data.length = c.cdw12) :
    exec (.ingest c) s = .next (
      if (s.nvmeTake c).ingestRefused c p ≠ stSuccess then
        (s.nvmeTake c).vendorDone c ((s.nvmeTake c).ingestRefused c p) none []
      else if c.last then
        (s.nvmeTake c).ingestLast c (c.pieceAt = 0) (c.extend (Tbl.find p.open_ c.index) (s.nvmeTake c).gtc)
      else
        ((s.nvmeTake c).keepOpen c.nsid c.index (c.pieceAt = 0)
          (c.extend (Tbl.find p.open_ c.index) (s.nvmeTake c).gtc)).vendorDone c stSuccess none []) := by
  have hrow : exec (.ingest c) s = execIngest c s := rfl
  have hfits : ¬ (vendorMax < c.data.length || c.data.length ≠ c.cdw12) = true := by
    rw [Bool.or_eq_true, decide_eq_true_eq, decide_eq_true_eq]
    exact not_or.mpr ⟨Nat.not_lt.mpr hlen, not_not.mpr hwhole⟩
  rw [hrow, execIngest, nvmeIo]
  simp only [hns, hscrub, hserves, hflash, hroom, Bool.or_self, Bool.not_true, Bool.false_eq_true, if_false]
  rw [nvmeRun_takes _ h]
  simp only [hcorpus]
  rw [if_neg hfits]

end Ingest

/-- R340: the last piece of a sample that goes through a stream makes it the stream's next job. -/
theorem ingestLast_stream (t : State) (c : NvmeCmd) (first : Bool) {o : OpenSample} {n : Nat} (hvia : o.stream = some n) :
    (t.ingestLast c first o).out = t.out ∧ ((t.ingestLast c first o).run n).ingested = (t.run n).ingested + 1 ∧
    ((t.ingestLast c first o).run n).toAdmit =
      (t.run n).toAdmit ++ [{ k := (t.run n).ingested, pos := (t.run n).ingested, sample := c.index, since := t.gtc }] := by
  have hlast : t.ingestLast c first o =
      (t.keepOpen c.nsid c.index first { o with cmd := some (c.sq, c.cid) }).queueIngest n c.index := by
    unfold State.ingestLast
    dsimp only
    rw [hvia]
  have hkept := keepOpen_eq t c.nsid c.index first { o with cmd := some (c.sq, c.cid) }
  have hout : (t.keepOpen c.nsid c.index first { o with cmd := some (c.sq, c.cid) }).out = t.out := by rw [hkept]
  have hgtc : (t.keepOpen c.nsid c.index first { o with cmd := some (c.sq, c.cid) }).gtc = t.gtc := by rw [hkept]; rfl
  rw [hlast, State.queueIngest, run_updRun, keepOpen_run, hgtc]
  exact ⟨hout, rfl, rfl⟩

/-- R340: the last piece of a sample that is stored directly at its home, with room for it, stores the sample. -/
theorem ingestLast_direct {t : State} {c : NvmeCmd} {x : Namespace} {p : Corpus} (hns : t.ns c.nsid = some x)
    (hcorpus : x.corpus = some p) (first : Bool) {o : OpenSample} {n : Nat} (hdirect : o.stream = none)
    (hlogical : logicalLen o.data o.flags = .ok n) (hhome : p.home c.index = p.own) (hfits : x.fits p o.data.length = true) :
    ∃ (u : State) (q : Corpus) (r : SampleRec), t.ingestLast c first o = u.vendorDone c stSuccess none [] ∧
      (u.ns c.nsid).bind Namespace.corpus = some q ∧ Tbl.find q.open_ c.index = none ∧
      Tbl.find q.records c.index = some r ∧ r.offset = p.next ∧ r.len = o.data.length ∧ r.logical = n ∧
      r.digest = (sha3_512 o.data).take 24 := by
  have hkept := keepOpen_ns hns hcorpus c.index first { o with cmd := some (c.sq, c.cid) }
  have hcommit := commitSample_home (c := c) hkept rfl (keeping_open p c.index _) rfl hhome hfits o.flags n
  have hclosed := closeSample_corpus ((t.keepOpen c.nsid c.index first { o with cmd := some (c.sq, c.cid) }).storeRecord c.nsid c.index
    o.data o.flags n) c.nsid c.index stSuccess o.stream
  rw [storeRecord_ns hkept rfl] at hclosed
  have hlast : t.ingestLast c first o =
      (t.keepOpen c.nsid c.index first { o with cmd := some (c.sq, c.cid) }).commitSample c.nsid c.index o.data o.flags n none := by
    unfold State.ingestLast
    dsimp only
    rw [hdirect]
    dsimp only
    rw [hlogical]
  refine ⟨_, _, _, hlast.trans hcommit, hclosed, ?_, storing_record _ c.index o.data o.flags n, rfl, rfl, rfl, rfl⟩
  rw [Tbl.find_del, if_pos rfl]

/-! ## INGEST_PIECE_TIMEOUT (R341) -/

section Timeout

variable {s : State} {nsid idx : Nat} {x : Namespace} {p : Corpus} {o : OpenSample} (hup : s.up = true) (hns : s.ns nsid = some x)
  (hcorpus : x.corpus = some p) (hopen : Tbl.find p.open_ idx = some o)
include hup hns hcorpus hopen

theorem exec_ingestPieceTimeout : exec (.ingestPieceTimeout nsid idx) s = .next (
    if o.cmd ≠ none ∨ s.gtc < o.at_ + 60 * Config.sec then s
    else (s.endSample nsid idx stSampleNotFound).updCorpus nsid fun p => { p with discarded := p.discarded ++ [idx] }) := by
  have hrow : exec (.ingestPieceTimeout nsid idx) s = execIngestPieceTimeout nsid idx s := rfl
  rw [hrow, execIngestPieceTimeout, whenUp_runs _ hup]
  simp only [corpus_of_ns hns hcorpus, hopen, Bool.or_eq_true, Option.isSome_iff_ne_none, decide_eq_true_eq]
  split <;> rfl

end Timeout

end Sys2Proof.Machine

open Sys2Proof Sys2Proof.Machine in
/-- Settles O30: what each of the vendor commands of corpora, snapshots and ingest comes to, and the timeout of an open sample. The
answer of a SNAPSHOT_READ and of a transfer out of order is the model's choice (log entry 129), as are the refusals of INGEST (log
entry 127) and those of the corpus commands (log entry 128). -/
theorem corporaSnapshotsAndIngest : Obligations.CorporaSnapshotsAndIngest := by
  unfold Obligations.CorporaSnapshotsAndIngest
  dsimp only
  refine ⟨fun s c h hrm hstep => ⟨fun hscrub hdrift hnew k hroom => ?create, fun x p hns hcorpus hopen hscrub => ?seals,
    fun hn hscrub => ⟨fun b hb => ?read, fun hnone => ?unread, fun hlen => ⟨fun a htake => ?restore, fun hbroken => ?broken⟩⟩⟩,
    fun s c x p h hns hscrub hserves hflash hroom hcorpus hlen hwhole => ?ingest,
    fun s nsid idx x p o hup hns hcorpus hopen => ?timeout⟩
  case create => exact ⟨_, exec_corpusCreate h hrm hstep hscrub hdrift hnew hroom, addNamespace_corpus _ k _ _⟩
  case seals =>
    have hsealed := sealCorpus_corpus hns hcorpus hopen
    have hrow := exec_corpusSeal h hrm hstep hns hcorpus hscrub
    rw [hsealed] at hrow
    refine ⟨_, _, hrow, hsealed, rfl, ?_, fun i r hr => ?_⟩
    · rw [List.map_map]
      exact List.map_congr_left fun r _ => sealRecord_index _ p r
    · refine ⟨((s.nvmeTake c).sealRecord p (i, r)).2, List.mem_map.mpr ⟨(i, r), hr, Prod.ext (sealRecord_index _ p _) rfl⟩, ?_⟩
      exact sealRecord_duplicate _ p i r
  case read => rw [exec_snapshotRead h hrm hstep hn hscrub, hb]
  case unread => rw [exec_snapshotRead h hrm hstep hn hscrub, hnone]
  case broken => rw [exec_snapshotRestore h hrm hstep hn hlen, hbroken]
  case restore =>
    have hrow := exec_snapshotRestore h hrm hstep hn hlen
    have hfree : ((s.nvmeTake c).setRestore c.cdw10 none).scrubbed c.cdw10 = false := hscrub
    rw [htake] at hrow
    dsimp only at hrow
    refine ⟨fun hmore => ?more, fun hlast hloaded hok => ?accepted, fun hlast hloaded hbad => ?failed, fun hlast hmoved => ?moved,
      fun hlast hloaded hmoved => ?elsewhere⟩
    case more => rw [hrow, if_pos hmore]
    case accepted =>
      obtain ⟨hcursor, hbatch, hepoch, hstate, hseq⟩ := applySnapshot_cursor ((s.nvmeTake c).setRestore c.cdw10 none) c.cdw10 a.data
      rw [if_neg (by simp [hlast]), restoreInto_loaded hfree hloaded, restoreStatus_setRestore, if_pos hok] at hrow
      exact ⟨_, hrow, hcursor, hbatch, hepoch, hstate.trans hloaded, hseq⟩
    case failed =>
      rw [if_neg (by simp [hlast]), restoreInto_loaded hfree hloaded, restoreStatus_setRestore, if_neg hbad] at hrow
      exact hrow
    case moved =>
      rw [if_neg (by simp [hlast]), restoreInto_refused hfree (by simp [stream_setRestore, hmoved]),
        stream_setRestore, if_pos hmoved] at hrow
      exact hrow
    case elsewhere =>
      rw [if_neg (by simp [hlast]), restoreInto_refused hfree hloaded, stream_setRestore, if_neg hmoved] at hrow
      exact hrow
  case ingest =>
    have hrow := exec_ingest h hns hcorpus hscrub hserves hflash hroom hlen hwhole
    have htaken := ns_of_attached hns
    refine ⟨fun hrefused => ?refused, fun hok => ⟨fun hmore => ?kept, fun n hlast hdirect hlogical hhome hfits => ?direct,
      fun n hlast hvia => ?via⟩⟩
    case refused => rw [hrow, if_pos hrefused]
    case kept =>
      rw [if_neg (not_not.mpr hok), if_neg (ne_true_of_eq_false hmore)] at hrow
      exact ⟨_, _, hrow, corpus_of_ns (keepOpen_ns htaken hcorpus _ _ _) rfl, keeping_open p _ _, rfl⟩
    case direct =>
      rw [if_neg (not_not.mpr hok), if_pos hlast] at hrow
      obtain ⟨u, q, r, hu, hq⟩ := ingestLast_direct htaken hcorpus (c.pieceAt = 0) hdirect hlogical hhome hfits
      exact ⟨u, q, r, hrow.trans (congrArg Host.Outcome.next hu), hq⟩
    case via =>
      rw [if_neg (not_not.mpr hok), if_pos hlast] at hrow
      exact ⟨_, hrow, ingestLast_stream _ c _ hvia⟩
  case timeout =>
    have hrow := exec_ingestPieceTimeout hup hns hcorpus hopen
    refine ⟨fun hstays => by rw [hrow, if_pos hstays], fun hcmd hdue => ?_⟩
    rw [if_neg (by simp [hcmd, hdue]), endSample_open hns hcorpus hopen, hcmd] at hrow
    have hcorpus' := corpus_updCorpus (s.closeSample nsid idx stSampleNotFound o.stream) nsid fun p =>
      { p with discarded := p.discarded ++ [idx] }
    rw [closeSample_corpus, corpus_of_ns hns hcorpus] at hcorpus'
    refine ⟨_, _, hrow, hcorpus', ?_, List.mem_append_right _ (List.mem_singleton_self idx), rfl⟩
    rw [Tbl.find_del, if_pos rfl]
end

section
/-! The resets (R220, R511, R519 to R522): what RST_N, PERST_N, WRST_N, WARM_RESET and the phase monitors do to the device. -/

namespace Sys2Proof.Machine

open Sys2Proof

/-! ## The begin of a flush and of a warm reset (R483, R520) -/

theorem beginFlush_none {s : State} (h : s.sys.flush = none) (why : FlushFor) :
    s.beginFlush why =
      { s with sys := { s.sys with flush := some { why := why, began := s.gtc }, pwrFail := s.sys.pwrFail || why == .powerFail }
               hold := { s.hold with test := none, state := if s.hold.state == 3 then 2 else s.hold.state } } := by
  unfold State.beginFlush
  rw [h]

theorem beginFlush_some {s : State} {f : Flush} (h : s.sys.flush = some f) (why : FlushFor) : s.beginFlush why = s := by
  unfold State.beginFlush
  rw [h]

/-- R483: a flush that runs goes on; else one begins with its cause. -/
theorem beginFlush_flush (s : State) (why : FlushFor) :
    (s.beginFlush why).sys.flush = some (s.sys.flush.getD { why := why, began := s.gtc }) := by
  cases h : s.sys.flush with
  | none => rw [beginFlush_none h]; rfl
  | some f => rw [beginFlush_some h, h]; rfl

theorem beginFlush_stored (s : State) (why : FlushFor) (key : Nat) : (s.beginFlush why).stored key = s.stored key := by
  cases h : s.sys.flush with
  | none => rw [beginFlush_none h]; rfl
  | some f => rw [beginFlush_some h]

theorem serving_beginWarm {s : State} (hstep : s.sys.step = 0) (hflush : s.sys.flush = none) (cause : Nat) :
    s.beginWarm cause = State.beginFlush { s with sys := { s.sys with cause := cause } } .warm := by
  simp [State.beginWarm, hstep, hflush]

theorem busy_beginWarm {s : State} (h : s.sys.step ≠ 0 ∨ s.sys.flush ≠ none) (cause : Nat) : s.beginWarm cause = s :=
  if_pos (by rcases h with h | h <;> simp [h, Option.isSome_iff_ne_none])

/-- R520, R530: a warm reset that begins records its cause and starts its flush. -/
theorem sys_beginWarm {s : State} (hstep : s.sys.step = 0) (hflush : s.sys.flush = none) (cause : Nat) :
    (s.beginWarm cause).sys.cause = cause ∧
    (s.beginWarm cause).sys.flush = some { why := .warm, began := s.gtc } := by
  rw [serving_beginWarm hstep hflush, beginFlush_none (s := { s with sys := { s.sys with cause := cause } }) hflush]
  exact ⟨rfl, rfl⟩

/-! ## RST_N (R511, R519, R521) -/

/-- R521: RST_N goes low. -/
def State.rstDown (s : State) : State := { s with sys := { s.sys with rstLow := true } }

/-- R519: the state after a cold reset by RST_N. -/
def State.rstCold (s : State) : State := { s.coldReset with sys := { s.coldReset.sys with cause := 1 } }

/-- R519: a cold reset keeps an object's value, or drops it. -/
theorem mem_coldReset_od {s : State} {e : Nat × Nat} (h : e ∈ s.coldReset.od) : keptObject e.1 = true ∧ e ∈ s.od :=
  (List.mem_filter.mp h).symm

theorem enterReset_held {s : State} (h : s.sys.releasePending = false) : s.enterReset = s.rstCold :=
  if_neg (ne_true_of_eq_false h)

/-- R521: a release of RST_N that came before the reset starts the device at once. -/
theorem enterReset_released {s : State} (h : s.sys.releasePending = true) : s.enterReset = s.rstCold.beginStart s.sys.straps :=
  if_pos h

theorem exec_rstNAssert_eq (s : State) :
    exec .rstNAssert s =
      if s.sys.inReset || s.sys.flush.isSome then .next s.rstDown
      else if s.mustFlush && !s.sys.halted then .next (s.rstDown.beginFlush .reset)
      else .next s.rstDown.enterReset := rfl

theorem exec_rstNAssert_waits {s : State} (h : s.sys.inReset = true ∨ s.sys.flush.isSome = true) :
    exec .rstNAssert s = .next s.rstDown := by
  rw [exec_rstNAssert_eq, if_pos (Bool.or_eq_true_iff.mpr h)]

section Assert

variable {s : State} (hrun : s.sys.inReset = false) (hflush : s.sys.flush = none)
include hrun hflush

theorem exec_rstNAssert_flushes (hmust : s.mustFlush = true) (hhalted : s.sys.halted = false) :
    exec .rstNAssert s = .next (s.rstDown.beginFlush .reset) := by
  simp [exec_rstNAssert_eq, hrun, hflush, hmust, hhalted]

theorem exec_rstNAssert_resets (h : s.mustFlush = false ∨ s.sys.halted = true) :
    exec .rstNAssert s = .next s.rstDown.enterReset := by
  have hnow : (s.mustFlush && !s.sys.halted) = false := by
    rcases h with h | h <;> simp [h]
  simp [exec_rstNAssert_eq, hrun, hflush, hnow]

end Assert

theorem exec_rstNRelease_eq (straps : Nat) (s : State) :
    exec (.rstNRelease straps) s =
      if !s.sys.rstLow then .next s
      else if s.sys.inReset then .next (s.beginStart straps)
      else .next { s with sys := { s.sys with rstLow := false, releasePending := true, straps := straps } } := rfl

/-! ## PERST_N (R517, R519) -/

/-- R338: a change of a corpus changes the namespaces' records alone. -/
theorem updCorpus_nss (s : State) (nsid : Nat) (f : Corpus → Corpus) :
    s.updCorpus nsid f = { s with host := { s.host with nss := (s.updCorpus nsid f).host.nss } } := by
  unfold State.updCorpus
  cases s.ns nsid <;> rfl

/-- R340: the samples of the corpora lie in the namespaces' records; nothing else changes. -/
theorem forgetCommands_eq (s : State) :
    s.forgetCommands = { s with host := { s.host with nss := s.forgetCommands.host.nss } } := by
  unfold State.forgetCommands
  refine List.foldlRecOn (motive := fun u : State => u = { s with host := { s.host with nss := u.host.nss } }) _ _ rfl
    fun u hu x _ => ?_
  rw [updCorpus_nss, hu]

theorem trainLink_eq (s : State) :
    s.trainLink = { s with fresh := s.trainLink.fresh, host := { s.trainLink.host with perst := s.host.perst } } := by
  unfold State.trainLink
  split <;> rfl

/-- R517: the start of the host die changes the host die, and takes free values. -/
theorem loadHost_eq (s : State) :
    s.loadHost = { s with fresh := s.loadHost.fresh, host := { s.loadHost.host with perst := s.host.perst } } := by
  unfold State.loadHost
  split
  · rfl
  · rw [trainLink_eq]

theorem forgetCommands_domain (s : State) (d : Nat) : s.forgetCommands.domain d = s.domain d := by
  rw [forgetCommands_eq]
  rfl

theorem loadHost_domain (s : State) (d : Nat) : s.loadHost.domain d = s.domain d := by
  rw [loadHost_eq]
  rfl

/-- R519: the host die in reset: its namespaces, failed parts and CXL event records stand, and the controller is disabled. -/
def HostSt.inPerst (h : HostSt) : HostSt :=
  { nss := h.nss, extents := h.extents, attached := h.attached, keyGen := h.keyGen, half := h.half, noLink := h.noLink
    cxlEvents := h.cxlEvents, perst := true }

/-- R519: the host die is reset and its domain OFF. -/
def State.hostDown (s : State) : State := State.updDomain { s with host := s.host.inPerst } 3 fun x => { x with state := 2 }

/-- R517: the host die is released from its reset and its domain ON. -/
def State.hostOn (s : State) : State :=
  State.updDomain { s with host := { s.host with perst := false } } 3 fun x => { x with state := 0 }

theorem hostDown_domain (s : State) : (s.hostDown.domain 3).state = 2 := by
  rw [State.hostDown, State.domain_updDomain, if_pos rfl]

theorem hostOn_domain (s : State) : (s.hostOn.domain 3).state = 0 := by
  rw [State.hostOn, State.domain_updDomain, if_pos rfl]

theorem exec_perstNAssert_held {s : State} (h : s.sys.inReset = true) :
    exec .perstNAssert s = .next { s with host := { s.host with perst := true } } := if_pos h

theorem exec_perstNAssert {s : State} (h : s.sys.inReset = false) :
    exec .perstNAssert s = .next s.hostDown.forgetCommands :=
  if_neg (ne_true_of_eq_false h)

theorem exec_perstNRelease_idle {s : State} (h : s.host.perst = false) : exec .perstNRelease s = .next s :=
  if_pos (by rw [h]; rfl)

theorem exec_perstNRelease {s : State} (h : s.host.perst = true) :
    exec .perstNRelease s = .next s.hostOn.loadHost :=
  if_neg (by simp [h])

/-! ## WRST_N, WARM_RESET and the phase monitors (R220, R520, R522) -/

theorem exec_wrstNAssert {s : State} (hup : s.up = true) : exec .wrstNAssert s = .next (s.beginWarm 2) := by
  have hrow : exec .wrstNAssert s = whenUp s fun s => .next (s.beginWarm 2) := rfl
  rw [hrow, whenUp_runs _ hup]

theorem isLimited_oWarmReset : isLimited oWarmReset = false := by decide +kernel

theorem applyObject_oWarmReset (t : State) (src : OdSource) (role : Role) (v : Nat) (data : Bytes) :
    t.applyObject src role oWarmReset v data = accept (t.beginWarm 3) := rfl

/-- R530: a write of WARM_RESET is answered OK, whether a warm reset begins or not. -/
theorem exec_warmReset {s t : State} {r : OdReq} {role : Role} (h : s.ReceivesWrite r oWarmReset role t) :
    exec (.warmReset r) s = (t.beginWarm 3).wroteOk r := by
  have hrow : exec (.warmReset r) s = odRow oWarmReset (fun _ => true) r s := rfl
  rw [hrow, odRow_answered h rfl (by decide) isLimited_oWarmReset, applyObject_oWarmReset, accept_answered]

theorem exec_phaseMonitorMismatch_eq (s : State) :
    exec .phaseMonitorMismatch s = whenUp s fun s =>
      if s.clk.phase.isNone then .next s
      else if s.sys.step = 0 then .next ((s.count oClockAlignFaults 1).beginFlush .clockFault)
      else .next ((s.count oClockAlignFaults 1).fatal 3) := rfl

theorem exec_phaseMonitorMismatch_unaligned {s : State} (h : s.clk.phase = none) : exec .phaseMonitorMismatch s = .next s := by
  rw [exec_phaseMonitorMismatch_eq]
  exact whenUp_idle (if_pos (by rw [h]; rfl))

theorem exec_phaseMonitorMismatch {s : State} (hup : s.up = true) (hphase : s.clk.phase ≠ none) :
    exec .phaseMonitorMismatch s =
      if s.sys.step = 0 then .next ((s.count oClockAlignFaults 1).beginFlush .clockFault)
      else .next ((s.count oClockAlignFaults 1).fatal 3) := by
  rw [exec_phaseMonitorMismatch_eq, whenUp_runs _ hup, if_neg (by rwa [Option.isNone_iff_eq_none])]

theorem stored_count_self (s : State) (key n : Nat) : (s.count key n).stored key = s.stored key + n := by
  rw [State.stored_count, if_pos rfl]

end Sys2Proof.Machine

open Sys2Proof Sys2Proof.Machine in
/-- Settles O53: each pin's row is one of a few next states, by whether the device is in reset, flushes, must flush, is halted or
starts; what such a state holds is read off it. -/
theorem resetsTakeEffect : Obligations.ResetsTakeEffect := by
  unfold Obligations.ResetsTakeEffect
  refine ⟨fun s => ⟨fun hreset => exec_rstNAssert_waits (.inl hreset), fun f _ hflush => exec_rstNAssert_waits (.inr (by rw [hflush]; rfl)),
    fun hrun hflush hmust hhalted => ?flushFirst, fun hrun hflush hnow hpending => ?cold, fun hrun hflush hnow hpending => ?coldReleased,
    fun v hhigh => ?released, fun v hlow hreset => ?starts, fun v hlow hrun => ?waits, exec_perstNAssert_held, exec_perstNRelease_idle,
    fun hrun => ?perst, fun hperst => ?perstReleased, fun hup hstep hflush => ?warm, fun hup hbusy => ?warmBusy,
    fun hup hphase hstep => ?mismatch, fun hup hphase hstep => ?mismatchStarting, exec_phaseMonitorMismatch_unaligned⟩,
    fun s t r role h => ⟨fun hstep hflush => ?warmWrite, fun hbusy => ?warmWriteBusy⟩⟩
  case flushFirst =>
    refine ⟨_, exec_rstNAssert_flushes hrun hflush hmust hhalted, ?_⟩
    rw [beginFlush_none (s := s.rstDown) hflush]
    exact ⟨rfl, rfl, hrun⟩
  case cold =>
    refine ⟨s.rstDown.rstCold, ?_, rfl, rfl, rfl, rfl, rfl, rfl, rfl, rfl, rfl, rfl, rfl, rfl, fun e he => mem_coldReset_od he⟩
    rw [exec_rstNAssert_resets hrun hflush hnow, enterReset_held (s := s.rstDown) hpending]
  case coldReleased =>
    refine ⟨s.rstDown.rstCold.beginStart s.sys.straps, ?_, rfl, rfl, rfl, rfl⟩
    rw [exec_rstNAssert_resets hrun hflush hnow, enterReset_released (s := s.rstDown) hpending]
    rfl
  case released =>
    rw [exec_rstNRelease_eq, if_pos (by rw [hhigh]; rfl)]
  case starts =>
    refine ⟨s.beginStart v, ?_, rfl, rfl, rfl, rfl⟩
    rw [exec_rstNRelease_eq, if_neg (by simp [hlow]), if_pos hreset]
  case waits =>
    rw [exec_rstNRelease_eq, if_neg (by simp [hlow]), if_neg (ne_true_of_eq_false hrun)]
    exact ⟨_, rfl, rfl, hrun, rfl⟩
  case perst =>
    refine ⟨_, exec_perstNAssert hrun, ?_⟩
    rw [forgetCommands_domain, hostDown_domain, forgetCommands_eq]
    exact ⟨rfl, rfl, rfl, rfl, rfl, rfl, rfl, rfl⟩
  case perstReleased =>
    refine ⟨_, exec_perstNRelease hperst, ?_⟩
    rw [loadHost_domain, hostOn_domain, loadHost_eq]
    exact ⟨rfl, rfl, rfl, rfl, rfl, rfl⟩
  case warm =>
    exact ⟨_, exec_wrstNAssert hup, sys_beginWarm hstep hflush 2⟩
  case warmBusy =>
    rw [exec_wrstNAssert hup, busy_beginWarm hbusy]
  case mismatch =>
    rw [exec_phaseMonitorMismatch hup hphase, if_pos hstep]
    exact ⟨_, rfl, (beginFlush_stored _ _ _).trans (stored_count_self s _ 1), beginFlush_flush _ _⟩
  case mismatchStarting =>
    rw [exec_phaseMonitorMismatch hup hphase, if_neg hstep]
    exact ⟨_, rfl, rfl, rfl, rfl, stored_count_self s _ 1⟩
  case warmWrite =>
    exact ⟨_, exec_warmReset h, sys_beginWarm hstep hflush 3⟩
  case warmWriteBusy =>
    rw [exec_warmReset h, busy_beginWarm hbusy]
end

section
/-! The buffer pool manager's own records (R257 to R272): what a notice leaves of them, what buffers taken and given back make of them,
the answers of ALLOC and RELEASE, and the placement and reclaim of a pool. -/

namespace Sys2Proof.Machine

open Sys2Proof

/-! ## Keyed tables without two entries of a key -/

theorem Tbl.mem_of_find {α : Type} {t : Tbl α} {k : Nat} {v : α} (h : Tbl.find t k = some v) : (k, v) ∈ t := by
  induction t with
  | nil => cases h
  | cons e r ih =>
    rw [Tbl.find] at h
    split at h
    case isTrue hkey =>
      cases h
      exact hkey ▸ List.mem_cons_self
    case isFalse => exact List.mem_cons_of_mem _ (ih h)

theorem Tbl.find_of_mem {α : Type} {t : Tbl α} (hkeys : (t.map Prod.fst).Nodup) {k : Nat} {v : α} (h : (k, v) ∈ t) :
    Tbl.find t k = some v := by
  induction t with
  | nil => cases h
  | cons e r ih =>
    obtain ⟨hfresh, hrest⟩ := List.nodup_cons.mp (List.map_cons ▸ hkeys)
    rw [Tbl.find]
    rcases List.mem_cons.mp h with rfl | htail
    · exact if_pos rfl
    · have hne : e.1 ≠ k := fun he => hfresh (List.mem_map.mpr ⟨(k, v), htail, he.symm⟩)
      rw [if_neg hne, ih hrest htail]

/-! ## Notices and the state of a pool (R266, R410) -/

theorem raiseVector_eq (s : State) (v : Nat) :
    s.raiseVector v = { s with out := (s.raiseVector v).out, host := (s.raiseVector v).host } := by
  unfold State.raiseVector
  split <;> rfl

theorem wakeHost_eq (s : State) (c : Nat) :
    s.wakeHost c = { s with out := (s.wakeHost c).out, host := (s.wakeHost c).host, chans := (s.wakeHost c).chans } := by
  unfold State.wakeHost
  dsimp only
  split
  · rw [raiseVector_eq]
    rfl
  · rfl

theorem postHost_eq (s : State) (c sender seq : Nat) (body : Bytes) :
    s.postHost c sender seq body = { s with out := (s.postHost c sender seq body).out, host := (s.postHost c sender seq body).host,
                                            chans := (s.postHost c sender seq body).chans } := by
  unfold State.postHost
  dsimp only
  rw [wakeHost_eq]
  rfl

/-- R410: a notice goes out on channel 0, waits, or is counted as lost. -/
theorem notice_eq (s : State) (kind status subject detail : Nat) :
    s.notice kind status subject detail =
      { s with out := (s.notice kind status subject detail).out, od := (s.notice kind status subject detail).od,
               host := (s.notice kind status subject detail).host, chans := (s.notice kind status subject detail).chans,
               notices := (s.notice kind status subject detail).notices } := by
  unfold State.notice
  dsimp only
  split
  · rfl
  · split
    · split <;> rfl
    · rw [postHost_eq]

/-- R266: the state of a pool stands in its record; a change is counted and noticed. -/
theorem settlePool_eq (s : State) (p : Nat) :
    s.settlePool p =
      { s with out := (s.settlePool p).out, od := (s.settlePool p).od, host := (s.settlePool p).host, chans := (s.settlePool p).chans,
               notices := (s.settlePool p).notices,
               pools := Tbl.upd s.pools {} p fun x => { x with peak := max x.peak x.occupied, state := s.poolLevel p } } := by
  unfold State.settlePool
  dsimp only
  split
  · rfl
  · rw [notice_eq]
    rfl

theorem settlePool_buffers (s : State) (p : Nat) : (s.settlePool p).buffers = s.buffers := (congrArg State.buffers (settlePool_eq s p) :)

theorem settlePool_allocs (s : State) (p : Nat) : (s.settlePool p).allocs = s.allocs := (congrArg State.allocs (settlePool_eq s p) :)

theorem settlePool_charged (s : State) (p : Nat) : (s.settlePool p).charged = s.charged := (congrArg State.charged (settlePool_eq s p) :)

theorem settlePool_occupied (s : State) (p : Nat) : ((s.settlePool p).pool p).occupied = (s.pool p).occupied := by
  have hpools := congrArg State.pools (settlePool_eq s p)
  dsimp only at hpools
  rw [State.pool, hpools, Tbl.get_upd_self]
  rfl

/-! ## Buffers taken and given back (R257, R260, R267, R269) -/

theorem pool_updPool_charged (s : State) (p : Nat) (f : PoolSt → PoolSt) (c : Tbl Nat) :
    State.pool { s.updPool p f with charged := c } p = f (s.pool p) := Tbl.get_upd_self ..

theorem occupy_charged (s : State) (r p n : Nat) (part : Option Nat) :
    Tbl.get (s.occupy r p n part).charged 0 (64 * r + p) = Tbl.get s.charged 0 (64 * r + p) + n := by
  unfold State.occupy
  split
  case isTrue hnone => rw [hnone, Nat.add_zero]
  case isFalse =>
    dsimp only
    rw [settlePool_charged, Tbl.get_upd_self]
    split <;> rfl

theorem occupy_occupied (s : State) (r p n : Nat) (part : Option Nat) :
    ((s.occupy r p n part).pool p).occupied = (s.pool p).occupied + n := by
  unfold State.occupy
  split
  case isTrue hnone => rw [hnone, Nat.add_zero]
  case isFalse =>
    dsimp only
    rw [settlePool_occupied, pool_updPool_charged]
    split <;> rfl

theorem vacate_buffers (s : State) (r p n : Nat) (part : Option Nat) : (s.vacate r p n part).buffers = s.buffers := by
  unfold State.vacate
  split
  · rfl
  · exact settlePool_buffers _ p

theorem vacate_allocs (s : State) (r p n : Nat) (part : Option Nat) : (s.vacate r p n part).allocs = s.allocs := by
  unfold State.vacate
  split
  · rfl
  · exact settlePool_allocs _ p

theorem vacate_charged (s : State) (r p n : Nat) (part : Option Nat) :
    Tbl.get (s.vacate r p n part).charged 0 (64 * r + p) = Tbl.get s.charged 0 (64 * r + p) - n := by
  unfold State.vacate
  split
  case isTrue hnone => rw [hnone, Nat.sub_zero]
  case isFalse =>
    dsimp only
    rw [settlePool_charged, Tbl.get_upd_self]
    rfl

theorem vacate_occupied (s : State) (r p n : Nat) (part : Option Nat) :
    ((s.vacate r p n part).pool p).occupied = (s.pool p).occupied - n := by
  unfold State.vacate
  split
  case isTrue hnone => rw [hnone, Nat.sub_zero]
  case isFalse =>
    dsimp only
    rw [settlePool_occupied, pool_updPool_charged]

theorem retireCheck_buffers (s : State) (p i : Nat) : (s.retireCheck p i).buffers = s.buffers := by
  unfold State.retireCheck
  dsimp only
  split
  · exact settlePool_buffers _ p
  · rfl

theorem retireCheck_allocs (s : State) (p i : Nat) : (s.retireCheck p i).allocs = s.allocs := by
  unfold State.retireCheck
  dsimp only
  split
  · exact settlePool_allocs _ p
  · rfl

theorem freeBuffer_buffers (s : State) (key : Nat) (b : Buffer) : (s.freeBuffer key b).buffers = Tbl.del s.buffers key := by
  have hvacated := vacate_buffers { s with buffers := Tbl.del s.buffers key } b.requester (key / 2 ^ 26) 1 b.part
  unfold State.freeBuffer
  dsimp only
  split
  · exact (retireCheck_buffers _ _ _).trans hvacated
  · exact hvacated

theorem freeBuffer_allocs (s : State) (key : Nat) (b : Buffer) : (s.freeBuffer key b).allocs = s.allocs := by
  have hvacated := vacate_allocs { s with buffers := Tbl.del s.buffers key } b.requester (key / 2 ^ 26) 1 b.part
  unfold State.freeBuffer
  dsimp only
  split
  · exact (retireCheck_allocs _ _ _).trans hvacated
  · exact hvacated

/-- R269: a buffer without a failed word is freed: its record goes, and its pool and its requester have one less. -/
theorem freeBuffer_sound {b : Buffer} (hsound : b.failed = false) (s : State) (key : Nat) :
    (s.freeBuffer key b).buffers = Tbl.del s.buffers key ∧
    ((s.freeBuffer key b).pool (key / 2 ^ 26)).occupied = (s.pool (key / 2 ^ 26)).occupied - 1 ∧
    Tbl.get (s.freeBuffer key b).charged 0 (64 * b.requester + key / 2 ^ 26) =
      Tbl.get s.charged 0 (64 * b.requester + key / 2 ^ 26) - 1 := by
  refine ⟨freeBuffer_buffers s key b, ?_⟩
  have hfreed : s.freeBuffer key b =
      State.vacate { s with buffers := Tbl.del s.buffers key } b.requester (key / 2 ^ 26) 1 b.part :=
    if_neg (ne_true_of_eq_false hsound)
  rw [hfreed]
  exact ⟨vacate_occupied .., vacate_charged ..⟩

/-! ## The buffers that an ALLOC takes (R261, R269) -/

/-- R257, R269: buffer i of pool p is neither ALLOCATED nor retired. -/
def State.isFree (s : State) (p i : Nat) : Bool :=
  !((Tbl.find s.buffers (bufKey p i)).isSome || (s.pool p).gone.contains i)

theorem isFree_iff {s : State} {p i : Nat} :
    s.isFree p i = true ↔ Tbl.find s.buffers (bufKey p i) = none ∧ i ∉ (s.pool p).gone := by
  simp [State.isFree]

/-- R269: the indices are the first n FREE ones among the f from i up. -/
theorem freeIndices_eq (s : State) (p f n i : Nat) :
    s.freeIndices p f n i = ((List.range' i f).filter (s.isFree p)).take n := by
  induction f generalizing n i with
  | zero => cases n <;> rfl
  | succ f ih =>
    cases n with
    | zero => rfl
    | succ n =>
      rw [State.freeIndices, List.range'_succ, List.filter_cons]
      cases hfree : (Tbl.find s.buffers (bufKey p i)).isSome || (s.pool p).gone.contains i
      · rw [if_neg Bool.false_ne_true, if_pos (by rw [State.isFree, hfree]; rfl), List.take_succ_cons, ih]
      · rw [if_pos rfl, if_neg (by rw [State.isFree, hfree]; decide), ih]

theorem mem_freeIndices {s : State} {p f n i j : Nat} (h : j ∈ s.freeIndices p f n i) :
    (i ≤ j ∧ j < i + f) ∧ s.isFree p j = true := by
  rw [freeIndices_eq] at h
  obtain ⟨hrange, hfree⟩ := List.mem_filter.mp (List.mem_of_mem_take h)
  exact ⟨List.mem_range'_1.mp hrange, hfree⟩

theorem nodup_freeIndices (s : State) (p f n i : Nat) : (s.freeIndices p f n i).Nodup := by
  rw [freeIndices_eq]
  exact ((List.nodup_range' (step := 1)).filter _).sublist (List.take_sublist n _)

/-- R269: the records of pool p. -/
def State.records (s : State) (p : Nat) : List (Nat × Buffer) := s.buffers.filter fun b => b.1 / 2 ^ 26 == p

/-- R257, R269: a buffer of the pool that is not FREE has a record or is retired, so they are no more than both together. -/
theorem length_notFree_le (s : State) (p : Nat) {i f : Nat} (hroom : i + f ≤ 2 ^ 26) :
    ((List.range' i f).filter fun j => !s.isFree p j).length ≤ (s.records p).length + (s.pool p).gone.length := by
  have hsubset : ((List.range' i f).filter fun j => !s.isFree p j) ⊆
      (s.records p).map (fun b => b.1 % 2 ^ 26) ++ (s.pool p).gone := by
    intro j hj
    obtain ⟨hrange, hused⟩ := List.mem_filter.mp hj
    have hlt : j < 2 ^ 26 := (List.mem_range'_1.mp hrange).2.trans_le hroom
    rw [State.isFree, Bool.not_not, Bool.or_eq_true, Option.isSome_iff_exists, List.contains_iff_mem] at hused
    rw [List.mem_append, List.mem_map]
    rcases hused with ⟨b, hb⟩ | hgone
    · refine .inl ⟨(bufKey p j, b), List.mem_filter.mpr ⟨Tbl.mem_of_find hb, ?_⟩, ?_⟩
      · simp only [bufKey, beq_iff_eq]
        omega
      · simp only [bufKey]
        omega
    · exact .inr hgone
  have hle := (((List.nodup_range' (step := 1)).filter fun j => !s.isFree p j).subperm hsubset).length_le
  rwa [List.length_append, List.length_map] at hle

/-- R262: n FREE buffers are found among those that the search visits, where the records are no more than OCCUPIED. -/
theorem length_freeIndices {s : State} {p n i : Nat} (hroom : i + (n + (s.pool p).filled) ≤ 2 ^ 26)
    (hrecords : (s.records p).length ≤ (s.pool p).occupied) :
    (s.freeIndices p (n + (s.pool p).filled) n i).length = n := by
  have hused := length_notFree_le s p hroom
  have hsplit := List.length_eq_length_filter_add (l := List.range' i (n + (s.pool p).filled)) (s.isFree p)
  rw [List.length_range'] at hsplit
  rw [freeIndices_eq, List.length_take, Nat.min_eq_left]
  simp only [PoolSt.filled] at hsplit hused ⊢
  omega

/-! ## Handles (R261) -/

theorem bit_eq_decide (v i : Nat) : bit v i = decide (v / 2 ^ i % 2 = 1) := Nat.testBit_eq_decide_div_mod_eq

/-- R261: the fields of a handle. -/
theorem handleOf_fields {p i : Nat} {b : Buffer} (hp : p < 64) (hi : i < 2 ^ 26) (hr : b.requester < 1024) :
    bits (handleOf p i b) 31 26 = p ∧ bits (handleOf p i b) 41 32 = b.requester ∧ bit (handleOf p i b) 42 = !b.holders.isEmpty ∧
    handleOf p i b < 2 ^ 43 ∧ bits (handleOf p i b) 25 0 = i := by
  rw [bit_eq_decide]
  unfold bits handleOf
  cases b.holders.isEmpty
  · simp only [Bool.not_false, decide_eq_true_eq, Bool.false_eq_true, if_false]
    omega
  · simp only [Bool.not_true, decide_eq_false_iff_not, if_true]
    omega

theorem handleOf_injective (p : Nat) (b : Buffer) : Function.Injective fun i => handleOf p i b := fun i j h => by
  simp only [handleOf] at h
  omega

theorem requesterId_lt {q : Requester} (h : q.exists = true) : q.id < 1024 := by
  cases q with
  | stream n => exact (of_decide_eq_true h).trans (by decide)
  | nvme n => simp only [Requester.id]; omega
  | fabric n => simp only [Requester.id]; omega
  | ringmaster n =>
    have hn : n < 4 := of_decide_eq_true h
    simp only [Requester.id]
    omega

/-! ## ALLOC (R260, R262, R265) -/

/-- R262: the record of each buffer that an ALLOC takes. -/
def State.grantRecord (s : State) (a : AllocReq) : Buffer where
  requester := a.requester
  holders := a.holders.map fun h => (h, true)
  owner := a.owner
  part := s.takePart a.pool a.count

/-- R262: the indices that an ALLOC takes. -/
def State.grantIndices (s : State) (a : AllocReq) : List Nat :=
  s.freeIndices a.pool (a.count + (s.pool a.pool).filled) a.count (s.partStart a.pool (s.takePart a.pool a.count))

/-- R262: the machine with the buffers of an ALLOC recorded and charged, before its answer. -/
def State.granted (s : State) (a : AllocReq) : State :=
  State.occupy
    { s with buffers := (s.grantIndices a).foldl (fun t i => Tbl.set t (bufKey a.pool i) (s.grantRecord a)) s.buffers }
    a.requester a.pool a.count (s.takePart a.pool a.count)

theorem grant_eq (s : State) (a : AllocReq) :
    s.grant a =
      (s.granted a).emit (.buffers a.requester stSuccess ((s.grantIndices a).map fun i => handleOf a.pool i (s.grantRecord a))) := rfl

/-- R261, R262: every handle of a grant names the pool and the caller, and a buffer that was not in use. -/
theorem grant_handle {s : State} {a : AllocReq} {h : Nat} (hpool : a.pool < 64) (hsource : a.source.exists = true)
    (hroom : s.partStart a.pool (s.takePart a.pool a.count) + a.count + (s.pool a.pool).filled ≤ 2 ^ 26)
    (hmem : h ∈ (s.grantIndices a).map fun i => handleOf a.pool i (s.grantRecord a)) :
    bits h 31 26 = a.pool ∧ bits h 41 32 = a.requester ∧ bit h 42 = !a.holders.isEmpty ∧ h < 2 ^ 43 ∧
    Tbl.find s.buffers (bufKey a.pool (bits h 25 0)) = none ∧ bits h 25 0 ∉ (s.pool a.pool).gone := by
  obtain ⟨i, hi, rfl⟩ := List.mem_map.mp hmem
  obtain ⟨⟨-, hlast⟩, hfree⟩ := mem_freeIndices hi
  obtain ⟨hnamed, hcaller, hshared, hwidth, hindex⟩ :=
    handleOf_fields (b := s.grantRecord a) hpool (i := i) (by omega) (requesterId_lt hsource)
  rw [hindex]
  refine ⟨hnamed, hcaller, hshared.trans ?_, hwidth, isFree_iff.mp hfree⟩
  cases hs : a.holders <;> simp [State.grantRecord, hs]

section Alloc

variable {s : State} {a : AllocReq}

/-- R265: the quota is checked first; then the placement, the limit and the room of a Caravan's part. -/
theorem allocCheck_quota (h : s.quotaOk a.requester a.pool a.count = false) : s.allocCheck a = stQuota := by
  rw [State.allocCheck, h]
  rfl

theorem allocCheck_exhausted (hquota : s.quotaOk a.requester a.pool a.count = true)
    (h : s.stored (oPoolPlace a.pool) = 0 ∨ s.limitOk a.pool a.cls a.count = false ∨
      (s.stored (oPoolPlace a.pool) = 1 ∧ s.allocPart a.pool a.count = none)) : s.allocCheck a = stPoolExhausted := by
  rw [State.allocCheck, if_neg (by simp [hquota]), if_pos]
  rcases h with h | h | ⟨h, hpart⟩
  · simp [h]
  · simp [h]
  · simp [h, hpart]

variable (hpool : a.pool < 64) (hsource : a.source.exists = true) (hup : s.up = true)
include hpool hsource hup

theorem exec_bufferAlloc :
    exec (.bufferAlloc a) s =
      if !a.ok then .next s
      else if s.allocCheck a = stSuccess then .next (s.grant a)
      else if a.blocking then .next { s with allocs := s.allocs ++ [a] }
      else .next (s.emit (.buffers a.requester (s.allocCheck a) [])) := by
  have hrow : exec (.bufferAlloc a) s = execBufferAlloc a s := rfl
  rw [hrow, execBufferAlloc, if_neg (Nat.not_le.mpr hpool), if_neg (by simp [hsource]), whenUp_runs _ hup]

variable (hok : a.ok = true)
include hok

theorem exec_bufferAlloc_granted (h : s.allocCheck a = stSuccess) : exec (.bufferAlloc a) s = .next (s.grant a) := by
  rw [exec_bufferAlloc hpool hsource hup, if_neg (by simp [hok]), if_pos h]

theorem exec_bufferAlloc_waits (h : s.allocCheck a ≠ stSuccess) (hblocking : a.blocking = true) :
    exec (.bufferAlloc a) s = .next { s with allocs := s.allocs ++ [a] } := by
  rw [exec_bufferAlloc hpool hsource hup, if_neg (by simp [hok]), if_neg h, if_pos hblocking]

theorem exec_bufferAlloc_refused {st : Nat} (h : s.allocCheck a = st) (hst : st ≠ stSuccess) (hblocking : a.blocking = false) :
    exec (.bufferAlloc a) s = .next (s.emit (.buffers a.requester st [])) := by
  rw [exec_bufferAlloc hpool hsource hup, if_neg (by simp [hok]), h, if_neg hst, if_neg (by simp [hblocking])]

end Alloc

/-! ## RELEASE (R269 to R271) -/

theorem exec_bufferRelease {s : State} {q : Requester} (hq : q.exists = true) (hup : s.up = true) (handle : Nat) :
    exec (.bufferRelease q handle) s =
      .next ((s.release q.id handle).1.serveAllocs.emit (.buffers q.id (s.release q.id handle).2 [])) := by
  have hrow : exec (.bufferRelease q handle) s = execBufferRelease q handle s := rfl
  rw [hrow, execBufferRelease, if_neg (by simp [hq]), whenUp_runs _ hup]

/-- R271: a refused release is counted, and is the newest of at most 64 records. -/
theorem logRelease_spec (s : State) (r status handle : Nat) :
    (s.logRelease r status handle).relCount = s.relCount + 1 ∧ (s.logRelease r status handle).relLog.length ≤ 64 ∧
    (s.logRelease r status handle).relLog.head? =
      some ({ gtc := s.gtc, requester := r, status := status, handle := handle } : RelLog) :=
  ⟨rfl, List.length_take_le _ _, rfl⟩

/-- R270: the holders of a buffer once requester r has released it. -/
def Buffer.holdersWithout (b : Buffer) (r : Nat) : List (Nat × Bool) := b.holders.map fun h => if h.1 = r then (h.1, false) else h

/-- R261: the key of the record that a handle names. -/
def handleKey (handle : Nat) : Nat := bufKey (bits handle 31 26) (bits handle 25 0)

theorem release_none {s : State} {handle : Nat} (h : Tbl.find s.buffers (handleKey handle) = none) (r : Nat) :
    s.release r handle = (s.logRelease r stDoubleFree handle, stDoubleFree) := by
  unfold handleKey at h
  unfold State.release
  dsimp only
  rw [h]

section Release

variable {s : State} {r handle : Nat} {b : Buffer} (hb : Tbl.find s.buffers (handleKey handle) = some b)
include hb

theorem release_some :
    s.release r handle =
      if b.holders.isEmpty then (s.freeBuffer (handleKey handle) b, stSuccess)
      else if !b.holders.contains (r, true) then (s.logRelease r stDoubleFree handle, stDoubleFree)
      else if (b.holdersWithout r).any fun h => h.2 then
        ({ s with buffers := Tbl.set s.buffers (handleKey handle) { b with holders := b.holdersWithout r } }, stSuccess)
      else if r = b.owner then (s.freeBuffer (handleKey handle) { b with holders := b.holdersWithout r }, stSuccess)
      else
        (State.logRelease
          { s with buffers := Tbl.set s.buffers (handleKey handle) { b with holders := b.holdersWithout r, orphan := true } } r
          stNotFinalOwner handle, stNotFinalOwner) := by
  unfold handleKey at hb
  unfold State.release
  dsimp only
  rw [hb]
  rfl

theorem release_unshared (h : b.holders = []) : s.release r handle = (s.freeBuffer (handleKey handle) b, stSuccess) := by
  rw [release_some hb, if_pos (by rw [h]; rfl)]

theorem release_stranger (hshared : b.holders ≠ []) (h : (r, true) ∉ b.holders) :
    s.release r handle = (s.logRelease r stDoubleFree handle, stDoubleFree) := by
  rw [release_some hb, if_neg (by simpa using hshared), if_pos (by simpa using h)]

variable (h : (r, true) ∈ b.holders)
include h

theorem release_holder :
    s.release r handle =
      if (b.holdersWithout r).any fun h => h.2 then
        ({ s with buffers := Tbl.set s.buffers (handleKey handle) { b with holders := b.holdersWithout r } }, stSuccess)
      else if r = b.owner then (s.freeBuffer (handleKey handle) { b with holders := b.holdersWithout r }, stSuccess)
      else
        (State.logRelease
          { s with buffers := Tbl.set s.buffers (handleKey handle) { b with holders := b.holdersWithout r, orphan := true } } r
          stNotFinalOwner handle, stNotFinalOwner) := by
  rw [release_some hb, if_neg (by simpa using List.ne_nil_of_mem h), if_neg (by simpa using h)]

theorem release_othersHold (hleft : ∃ x ∈ b.holdersWithout r, x.2 = true) :
    s.release r handle =
      ({ s with buffers := Tbl.set s.buffers (handleKey handle) { b with holders := b.holdersWithout r } }, stSuccess) := by
  rw [release_holder hb h, if_pos (List.any_eq_true.mpr hleft)]

variable (hlast : ∀ x ∈ b.holdersWithout r, x.2 = false)
include hlast

theorem release_lastOwner (howner : r = b.owner) :
    s.release r handle = (s.freeBuffer (handleKey handle) { b with holders := b.holdersWithout r }, stSuccess) := by
  rw [release_holder hb h, if_neg (by simpa using hlast), if_pos howner]

theorem release_lastOther (howner : r ≠ b.owner) :
    s.release r handle =
      (State.logRelease
        { s with buffers := Tbl.set s.buffers (handleKey handle) { b with holders := b.holdersWithout r, orphan := true } } r
        stNotFinalOwner handle, stNotFinalOwner) := by
  rw [release_holder hb h, if_neg (by simpa using hlast), if_neg howner]

end Release

/-! ## Writes of POOL_PLACE and RECLAIM (R258, R259) -/

theorem isLimited_oPoolPlace : ∀ p < 64, isLimited (oPoolPlace p) = false := by decide +kernel

theorem isLimited_oReclaim : ∀ p < 64, isLimited (oReclaim p) = false := by decide +kernel

/-- R258: the key of a subindex of pool p. -/
def poolObject (p u : Nat) : Nat := 0x310000 + u + 256 * p

/-- R258: the chapter that owns the objects of a pool decides their writes. -/
theorem applyObject_pool {p u : Nat} (hp : p < 64) (hu : u < 256) (t : State) (src : OdSource) (role : Role) (v : Nat) (data : Bytes) :
    t.applyObject src role (poolObject p u) v data = t.applyPool p u (poolObject p u) v := by
  have hidx : poolObject p u / 256 = 0x3100 + p := by unfold poolObject; omega
  have hsub : poolObject p u % 256 = u := by unfold poolObject; omega
  have hoff : t.objectOff (0x3100 + p) = false := by
    unfold State.objectOff
    rw [if_neg (by simp only [Bool.and_eq_true, decide_eq_true_eq]; omega),
      if_neg (by simp only [Bool.and_eq_true, decide_eq_true_eq]; omega)]
  unfold State.applyObject
  dsimp only
  rw [hidx, hsub, hoff, if_neg Bool.false_ne_true, if_neg (by omega), if_neg (by omega), if_neg (by omega),
    if_neg (by simp only [Bool.and_eq_true, decide_eq_true_eq]; omega),
    if_neg (by simp only [Bool.and_eq_true, decide_eq_true_eq]; omega),
    if_neg (by simp only [Bool.and_eq_true, decide_eq_true_eq]; omega),
    if_neg (by simp only [poolObject, oGtcRoot]; omega), if_neg (by omega), if_pos (by omega), State.applyMemory,
    if_neg (by simp only [poolObject, oModelOasisMib]; omega),
    if_pos (by simp only [Bool.and_eq_true, decide_eq_true_eq]; omega), Nat.add_sub_cancel_left]

/-- R488: no value of a pool's object is normalised. -/
theorem normalValue_pool {p u : Nat} (hp : p < 64) (hu : u < 256) (v : Nat) : normalValue (poolObject p u) v = v := by
  have hplace : poolObject p u ≠ oPlaceGeometry ∧ poolObject p u ≠ oTorusGeometry := by
    simp only [poolObject, oPlaceGeometry, oTorusGeometry]
    omega
  rw [normalValue, if_neg (by simp [hplace]), poolObject,
    if_neg (by simp only [Bool.and_eq_true, decide_eq_true_eq]; omega)]

theorem oPoolPlace_eq (p : Nat) : oPoolPlace p = poolObject p 1 := rfl

theorem oNoticeAt_eq (p : Nat) : oNoticeAt p = poolObject p 6 := rfl

theorem oReclaim_eq (p : Nat) : oReclaim p = poolObject p 0x0F := rfl

section Write

variable {s t : State} {r : OdReq} {p : Nat} {role : Role} (hp : p < 64)
include hp

theorem exec_poolPlaceWrite (h : s.ReceivesWrite r (oPoolPlace p) role t) :
    exec (.poolPlaceWrite r p) s =
      (acceptIf (t.placeAccepted p (leNat r.data)) t (t.placePool p (leNat r.data)).serveAllocs).answered r := by
  have hrow : exec (.poolPlaceWrite r p) s = odRow (blockKey (decide (p < 64)) (oPoolPlace p)) (fun _ => true) r s := rfl
  have hblock : blockKey (decide (p < 64)) (oPoolPlace p) = oPoolPlace p := by simp [blockKey, hp]
  rw [hrow, hblock, odRow_answered h rfl (by unfold oPoolPlace; omega) (isLimited_oPoolPlace p hp), oPoolPlace_eq,
    normalValue_pool hp (by decide), applyObject_pool hp (by decide)]
  rfl

theorem exec_reclaim (h : s.ReceivesWrite r (oReclaim p) role t) : exec (.reclaim r p) s = (t.reclaimPool p).wroteOk r := by
  have hrow : exec (.reclaim r p) s = odRow (blockKey (decide (p < 64)) (oReclaim p)) (fun _ => true) r s := rfl
  have hblock : blockKey (decide (p < 64)) (oReclaim p) = oReclaim p := by simp [blockKey, hp]
  rw [hrow, hblock, odRow_answered h rfl (by unfold oReclaim; omega) (isLimited_oReclaim p hp), oReclaim_eq,
    applyObject_pool hp (by decide)]
  rfl

end Write

/-! ## The placement of a pool (R258, R259) -/

section Place

variable {t : State} {p v : Nat}

/-- R259: pool p is empty, and no image of a stream that is not IDLE names it. -/
def State.poolUnused (t : State) (p : Nat) : Prop := (t.pool p).occupied = 0 ∧ t.poolNamed p = false

theorem placeAccepted_off : t.placeAccepted p 0 = true ↔ t.poolUnused p := by
  simp [State.placeAccepted, State.poolUnused]

theorem placeAccepted_same (hv : v ≠ 0) (hsame : v = t.stored (oPoolPlace p)) : t.placeAccepted p v = true := by
  rw [State.placeAccepted, if_neg hv, if_pos hsame]

theorem placeAccepted_other (hv : v ≠ 0) (hother : v ≠ t.stored (oPoolPlace p)) :
    t.placeAccepted p v = true ↔ (t.stored (oPoolPlace p) = 0 ∨ t.poolUnused p) ∧ t.placeOk p v = true := by
  rw [State.placeAccepted, if_neg hv, if_neg hother]
  simp [State.poolUnused]

/-- R259: a pool without buffers, or with buffers of a size that its memory does not allow, cannot be placed. -/
theorem placeOk_badSize
    (h : t.stored (oBufCount p) = 0 ∨ t.stored (oBufSize p) < 256 ∨ (v ≠ 3 ∧ 65536 < t.stored (oBufSize p))) :
    t.placeOk p v = false := by
  rw [← Bool.not_eq_true]
  intro hok
  simp only [State.placeOk, State.placeFits, Bool.and_eq_true, decide_eq_true_eq] at hok
  obtain ⟨⟨⟨⟨⟨⟨⟨⟨⟨hmin, hmax⟩, hcount⟩, -⟩, -⟩, -⟩, -⟩, -⟩, -⟩, -⟩ := hok
  rcases h with h | h | ⟨hplace, h⟩
  · omega
  · omega
  · rw [if_neg hplace] at hmax
    omega

theorem placePool_same (hsame : v = t.stored (oPoolPlace p)) : t.placePool p v = t := if_pos hsame

theorem poolObject_untallied {u : Nat} (hp : p < 64) (hu : u < 256) : poolObject p u ∉ tallyKeys := by
  simp [poolObject, tallyKeys, oNoticesLost, oPoolStateEvents, oRetiredBuffers, oJobsRetried]
  omega

/-- R266: the state of a pool, and the ALLOCs that are served, leave the objects of a pool. -/
theorem settledAndServed_stored (u : State) {k : Nat} (hk : k < 256) (hp : p < 64) :
    (u.settlePool p).serveAllocs.stored (poolObject p k) = u.stored (poolObject p k) :=
  stored_of_work ((serveAllocs_work _).trans (settlePool_work u p)) (poolObject_untallied hp hk)

theorem placePool_off (hp : p < 64) : (t.placePool p 0).serveAllocs.stored (oPoolPlace p) = 0 := by
  by_cases hsame : 0 = t.stored (oPoolPlace p)
  · rw [placePool_same hsame, hsame]
    exact stored_of_work (serveAllocs_work t) (poolObject_untallied hp (u := 1) (by decide))
  · rw [State.placePool, if_neg hsame, if_pos rfl, oPoolPlace_eq, settledAndServed_stored _ (by decide) hp]
    exact State.stored_store_self t _ 0

/-- R258: another placement takes effect, with the thresholds in force for its total. -/
theorem placePool_stored (hp : p < 64) (hv : v ≠ 0) (hother : v ≠ t.stored (oPoolPlace p)) :
    (t.placePool p v).serveAllocs.stored (oPoolPlace p) = v ∧
    (t.placePool p v).serveAllocs.stored (oNoticeAt p) = (t.marksFor p (t.poolTotalAs p v)).1 := by
  rw [State.placePool, if_neg hother, if_neg hv, oPoolPlace_eq, oNoticeAt_eq, settledAndServed_stored _ (by decide) hp,
    settledAndServed_stored _ (by decide) hp, State.updPool_stored, State.updPool_stored]
  refine ⟨State.stored_store_self _ _ v, ?_⟩
  simp only [State.stored_store, poolObject, oPressureAt, oStopAt, oHyst]
  rw [if_neg (by omega), if_neg (by omega), if_neg (by omega), if_neg (by omega), if_pos trivial]

/-- R258: a NOTICE_AT that has not been written takes the default of the total. -/
theorem marksFor_default (h : oNoticeAt p ∉ t.written) (total : Nat) : (t.marksFor p total).1 = ceilDiv (3 * total) 4 :=
  if_neg (by simpa using h)

end Place

/-! ## RECLAIM (R258) -/

theorem serveAllocs_none {s : State} (h : s.allocs = []) : s.serveAllocs = s := by
  unfold State.serveAllocs
  rw [h]
  dsimp only [List.foldl_nil]
  rw [← h]

/-- R258: a record is that of an orphaned buffer of pool p. -/
def isOrphanOf (p : Nat) (e : Nat × Buffer) : Bool := e.1 / 2 ^ 26 = p && e.2.orphan

theorem isOrphanOf_iff {p : Nat} {e : Nat × Buffer} : isOrphanOf p e = true ↔ e.1 / 2 ^ 26 = p ∧ e.2.orphan = true := by
  simp only [isOrphanOf, Bool.and_eq_true, decide_eq_true_eq]

/-- R258: the buffer of a record is freed when it is an orphan of pool p. -/
def State.reclaimRecord (p : Nat) (u : State) (e : Nat × Buffer) : State := if isOrphanOf p e then u.freeBuffer e.1 e.2 else u

theorem reclaimPool_eq (t : State) (p : Nat) : t.reclaimPool p = (t.buffers.foldl (State.reclaimRecord p) t).serveAllocs := rfl

theorem reclaimRecord_allocs (p : Nat) (u : State) (e : Nat × Buffer) : (u.reclaimRecord p e).allocs = u.allocs := by
  unfold State.reclaimRecord
  split
  · exact freeBuffer_allocs u _ _
  · rfl

theorem reclaimRecord_find (p k : Nat) (u : State) (e : Nat × Buffer) :
    Tbl.find (u.reclaimRecord p e).buffers k = if e.1 = k && isOrphanOf p e then none else Tbl.find u.buffers k := by
  unfold State.reclaimRecord
  cases isOrphanOf p e
  · simp
  · simp [freeBuffer_buffers, Tbl.find_del, eq_comm]

/-- R258: of the records walked over, the orphans of the pool leave the table and nothing else does. -/
theorem find_reclaimed (p k : Nat) (l : List (Nat × Buffer)) (u : State) :
    Tbl.find (l.foldl (State.reclaimRecord p) u).buffers k =
      if l.any fun e => e.1 = k && isOrphanOf p e then none else Tbl.find u.buffers k := by
  induction l generalizing u with
  | nil => rfl
  | cons e r ih =>
    rw [List.foldl_cons, ih, reclaimRecord_find, List.any_cons]
    cases r.any fun e => e.1 = k && isOrphanOf p e <;> simp

/-- R258: with no ALLOC that waits, RECLAIM takes the orphaned buffers of the pool out and leaves every other. -/
theorem reclaimPool_find {t : State} (hallocs : t.allocs = []) (hkeys : (t.buffers.map Prod.fst).Nodup) {p k : Nat} {b : Buffer}
    (hb : (k, b) ∈ t.buffers) :
    (k / 2 ^ 26 = p → b.orphan = true → Tbl.find (t.reclaimPool p).buffers k = none) ∧
    (k / 2 ^ 26 ≠ p ∨ b.orphan = false → Tbl.find (t.reclaimPool p).buffers k = some b) := by
  have hwaiting : (t.buffers.foldl (State.reclaimRecord p) t).allocs = [] :=
    List.foldlRecOn (motive := fun u : State => u.allocs = []) _ _ hallocs fun u hu e _ => (reclaimRecord_allocs p u e).trans hu
  have hmarked : (t.buffers.any fun e => e.1 = k && isOrphanOf p e) = isOrphanOf p (k, b) := by
    rw [Bool.eq_iff_iff, List.any_eq_true]
    refine ⟨fun ⟨⟨j, c⟩, he, hmark⟩ => ?_, fun horphan => ⟨_, hb, by simpa using horphan⟩⟩
    obtain ⟨rfl, horphan⟩ : j = k ∧ isOrphanOf p (j, c) = true := by simpa using hmark
    have hsame : some b = some c := (Tbl.find_of_mem hkeys hb).symm.trans (Tbl.find_of_mem hkeys he)
    cases hsame
    exact horphan
  rw [reclaimPool_eq, serveAllocs_none hwaiting, find_reclaimed, hmarked, Tbl.find_of_mem hkeys hb]
  refine ⟨fun hpool horphan => if_pos (isOrphanOf_iff.mpr ⟨hpool, horphan⟩), fun hkept => if_neg fun h => ?_⟩
  obtain ⟨hpool, horphan⟩ := isOrphanOf_iff.mp h
  exact hkept.elim (fun hother => hother hpool) fun hlive => Bool.false_ne_true (hlive.symm.trans horphan)

end Sys2Proof.Machine

open Sys2Proof Sys2Proof.Machine in
/-- Settles O24: an ALLOC and a RELEASE come to one case each of their checks, POOL_PLACE to the conditions of R259, and RECLAIM to a
walk over the records. The part of a CARAVAN pool that serves an ALLOC is the model's choice (log entry 58). -/
theorem buffersPoolsAndReclaim : Obligations.BuffersPoolsAndReclaim := by
  unfold Obligations.BuffersPoolsAndReclaim
  refine ⟨⟨fun s a hpool hsource hup => ⟨fun hbad => ?notAlloc, fun hok hcheck hroom => ?granted, fun hok hcheck hblocking => ?waits,
    fun hok hquota hblocking => ?quota, fun hok hquota hblocking hfull => ?exhausted⟩, ?release⟩, ?place⟩
  case notAlloc => rw [exec_bufferAlloc hpool hsource hup, if_pos (by rw [hbad]; rfl)]
  case granted =>
    refine ⟨s.granted a, _, (exec_bufferAlloc_granted hpool hsource hup hok hcheck).trans (congrArg _ (grant_eq s a)),
      occupy_occupied .., occupy_charged .., (nodup_freeIndices ..).map (handleOf_injective _ _), fun hrecords => ?_,
      fun h hmem => grant_handle hpool hsource hroom hmem⟩
    rw [List.length_map]
    exact length_freeIndices (by rwa [← Nat.add_assoc]) hrecords
  case waits => exact exec_bufferAlloc_waits hpool hsource hup hok hcheck hblocking
  case quota => exact exec_bufferAlloc_refused hpool hsource hup hok (allocCheck_quota hquota) (by decide) hblocking
  case exhausted => exact exec_bufferAlloc_refused hpool hsource hup hok (allocCheck_exhausted hquota hfull) (by decide) hblocking
  case release =>
    intro s q handle
    dsimp only
    intro hq hup
    have hrow := exec_bufferRelease hq hup handle
    refine ⟨fun hnone => ?unknown, fun b hb => ⟨fun hunshared => ?unshared, fun hshared hstranger => ?stranger,
      fun hholds hleft => ?left, fun hholds hlast howner => ?owner, fun hholds hlast hother => ?other,
      fun hsound => freeBuffer_sound hsound s _⟩⟩
    case unknown =>
      rw [release_none hnone] at hrow
      exact ⟨_, hrow, logRelease_spec .., rfl⟩
    case unshared => rwa [release_unshared hb hunshared] at hrow
    case stranger =>
      rw [release_stranger hb hshared hstranger] at hrow
      exact ⟨_, hrow, logRelease_spec .., rfl⟩
    case left => rwa [release_othersHold hb hholds hleft] at hrow
    case owner => rwa [release_lastOwner hb hholds hlast howner] at hrow
    case other =>
      rw [release_lastOther hb hholds hlast hother] at hrow
      exact ⟨_, rfl, hrow, logRelease_spec ..⟩
  case place =>
    intro s t r p role
    dsimp only
    intro hp
    refine ⟨fun h => ?write, fun h => ⟨exec_reclaim hp h, fun hallocs hkeys k b hb => reclaimPool_find hallocs hkeys hb⟩⟩
    have hrow := exec_poolPlaceWrite hp h
    obtain ⟨hyes, hno⟩ := acceptIf_answered (t.placeAccepted p (leNat r.data)) t (t.placePool p (leNat r.data)).serveAllocs r
    refine ⟨fun hv hunused => ?off, fun hv hused => ?notOff, fun hv hsame => ?same, fun hv hother hfree hok => ?placed,
      fun hv hother hplaced hused => ?inUse, fun hv hother hbad => ?bad, fun _ => placeOk_badSize⟩
    case off =>
      refine ⟨_, hrow.trans (hyes ?_), ?_⟩
      · rw [hv]
        exact placeAccepted_off.mpr hunused
      · rw [hv]
        exact placePool_off hp
    case notOff =>
      refine hrow.trans (hno ?_)
      rw [hv, ← Bool.not_eq_true, placeAccepted_off]
      exact hused
    case same => rw [hrow, hyes (placeAccepted_same hv hsame), placePool_same hsame]
    case placed =>
      obtain ⟨hplace, hnotice⟩ := placePool_stored hp hv hother
      exact ⟨_, hrow.trans (hyes ((placeAccepted_other hv hother).mpr ⟨hfree, hok⟩)), hplace,
        fun hunwritten => hnotice.trans (marksFor_default hunwritten _)⟩
    case inUse =>
      refine hrow.trans (hno ?_)
      rw [← Bool.not_eq_true, placeAccepted_other hv hother]
      exact fun hallowed => hallowed.1.elim hplaced hused
    case bad =>
      refine hrow.trans (hno ?_)
      rw [← Bool.not_eq_true, placeAccepted_other hv hother, hbad]
      exact fun hallowed => Bool.false_ne_true hallowed.2
end

section
/-! The steps of a start and ring admission (R244, R245, R275, R512 to R518, R522, R524, R526): what each step of STARTUP_STEP_DONE
comes to, with what the notices, the pools and the media pools that it brings up to date leave as it was. -/

namespace Sys2Proof.Machine

open Sys2Proof

/-! ## The step in progress (R512) -/

theorem exec_startupStepDone_eq (f : StartFacts) (s : State) :
    exec (.startupStepDone f) s = whenUp s fun s => if s.sys.step = 0 || s.sys.flush.isSome then .next s else .next (s.stepDone f) := rfl

theorem exec_startupStepDone_started {s : State} (h : s.sys.step = 0) (f : StartFacts) : exec (.startupStepDone f) s = .next s := by
  rw [exec_startupStepDone_eq]
  exact whenUp_idle (if_pos (by simp [h]))

section Step

variable {s : State}

theorem exec_startupStepDone_runs (hup : s.up = true) (hflush : s.sys.flush = none) (hstep : s.sys.step ≠ 0) (f : StartFacts) :
    exec (.startupStepDone f) s = .next (s.stepDone f) := by
  rw [exec_startupStepDone_eq, whenUp_runs _ hup, if_neg (by simp [hstep, hflush])]

theorem stepDone_one (h : s.sys.step = 1) (f : StartFacts) :
    s.stepDone f =
      if s.sec.lc = 5 then { s with sys := { s.sys with halted := true, ledFault := 1 } }
      else State.toStep { s with sec := { s.sec with uds := s.sec.uds || s.sec.lc == 1 } } 2 := by
  unfold State.stepDone
  rw [h]
  rfl

/-- R411, R416: the spine is switched on, the notices that wait go out, and the dies take the states of their targets. -/
def State.spineOn (s : State) : State := (((s.updDomain 0 fun x => { x with state := 0 }).pumpNotices 0).pumpNotices 8).wakeDies

theorem stepDone_four (h : s.sys.step = 4) (f : StartFacts) :
    s.stepDone f = s.spineOn.toStep (if s.sys.warm && !s.flag oWarmBist then 6 else 5) := by
  unfold State.stepDone
  rw [h]
  rfl

theorem stepDone_five (h : s.sys.step = 5) (f : StartFacts) :
    s.stepDone f =
      if s.sec.lc = 0 then s else f.fatal.elim ((s.applyBist f).toStep 6) (s.applyBist f).fatal := by
  unfold State.stepDone
  rw [h]
  cases f.fatal <;> rfl

theorem stepDone_blank (h : s.sys.step = 5) (hlc : s.sec.lc = 0) (f : StartFacts) : s.stepDone f = s := by
  rw [stepDone_five h, if_pos hlc]

theorem stepDone_fatal {f : StartFacts} {c : Nat} (h : s.sys.step = 5) (hlc : s.sec.lc ≠ 0) (hfatal : f.fatal = some c) :
    s.stepDone f = (s.applyBist f).fatal c := by
  rw [stepDone_five h, if_neg hlc, hfatal, Option.elim_some]

theorem stepDone_tested {f : StartFacts} (h : s.sys.step = 5) (hlc : s.sec.lc ≠ 0) (hfatal : f.fatal = none) :
    s.stepDone f = (s.applyBist f).toStep 6 := by
  rw [stepDone_five h, if_neg hlc, hfatal, Option.elim_none]

theorem stepDone_six (h : s.sys.step = 6) (f : StartFacts) : s.stepDone f = s.trained f := by
  unfold State.stepDone
  rw [h]
  rfl

theorem stepDone_seven (h : s.sys.step = 7) (f : StartFacts) : s.stepDone f = s.rebuilt f := by
  unfold State.stepDone
  rw [h]
  rfl

theorem stepDone_eight (h : s.sys.step = 8) (f : StartFacts) : s.stepDone f = s.settlePorts := by
  unfold State.stepDone
  rw [h]
  rfl

/-- R512: step 9 ends with ring admission alone. -/
theorem stepDone_last (h : 9 ≤ s.sys.step) (f : StartFacts) : s.stepDone f = s := by
  unfold State.stepDone
  split
  case h_9 => rfl
  all_goals omega

end Step

/-! ## Step 4: the spine and the dies (R411, R416) -/

theorem pumpNotices_domain (s : State) (c d : Nat) : (s.pumpNotices c).domain d = s.domain d := by
  have hposted : ∀ (u : State) (c' sender : Nat) (body : Bytes), (u.postHost c' sender 0 body).domain d = u.domain d :=
    fun u c' sender body => by rw [postHost_eq]; rfl
  unfold State.pumpNotices
  split
  · split
    · exact hposted _ _ _ _
    · rfl
  · split
    · split
      · exact hposted _ _ _ _
      · rfl
    · rfl

theorem domainToTarget_domain_ne {s : State} {d j : Nat} (h : j ≠ d) : (s.domainToTarget d).domain j = s.domain j := by
  rw [State.domainToTarget, State.domain_updDomain, if_neg h]

/-- R411: the dies' domains are those from 0x10 up; the others stay as they are. -/
theorem wakeDies_domain (s : State) {d : Nat} (hd : d < 0x10) : s.wakeDies.domain d = s.domain d := by
  unfold State.wakeDies
  refine List.foldlRecOn (motive := fun u : State => u.domain d = s.domain d) _ _ rfl fun u hu j hj => ?_
  have hne : d ≠ j := by
    simp only [List.mem_append, List.mem_map, carDomain, portDomain] at hj
    omega
  exact (domainToTarget_domain_ne hne).trans hu

theorem spineOn_domain (s : State) : (s.spineOn.domain 0).state = 0 := by
  rw [State.spineOn, wakeDies_domain _ (by decide), pumpNotices_domain, pumpNotices_domain, State.domain_updDomain, if_pos rfl]

theorem toStep_domain (s : State) (k d : Nat) : (s.toStep k).domain d = s.domain d := rfl

/-! ## Step 5: BIST (R525, R526) -/

/-- R525: the results of BIST at a start are recorded, before the failed parts are held OFF. -/
def State.bistRecorded (s : State) (f : StartFacts) : State :=
  { s with sys := { s.sys with groups := (List.range 7).map fun g => (g, groupOf (f.bad g) (Tbl.get f.repairs 0 g)), bistMode := 1
                               bistGtc := s.gtc, bistState := 2, badBanks := (f.bad 6).filter (72 ≤ ·) }
           host := { s.host with half := (f.bad 1).any (fun u => 8 ≤ u), noLink := (f.bad 1).any (· < 8) || (f.bad 4).contains 41 }
           hold := { s.hold with adcBad := (f.bad 5).any (· < 3) } }

/-- R526: Caravan n is held OFF. -/
def State.badCaravan (s : State) (n : Nat) : State := s.holdOff (carDomain n)

/-- R526: the processor whose SRAM is unit u of group 6 has failed. -/
def State.badProcessor (s : State) (u : Nat) : State := s.updRm (u - 48) fun r => { r with state := 2 }

theorem applyBist_eq (s : State) (f : StartFacts) :
    s.applyBist f =
      ((f.bad 6).filter fun u => 49 ≤ u && u ≤ 51).foldl State.badProcessor
        (f.badCaravans.foldl State.badCaravan (f.badPorts.foldl State.badPort (s.bistRecorded f))) := rfl

/-- A property that every step of a walk keeps, and the step of one member makes, holds at the end. -/
theorem foldl_of_mem {α β : Type} {P : β → Prop} {g : β → α → β} (hkeeps : ∀ u y, P u → P (g u y)) {x : α}
    (hmakes : ∀ u, P (g u x)) {l : List α} (hx : x ∈ l) (s : β) : P (l.foldl g s) := by
  obtain ⟨before, after, rfl⟩ := List.append_of_mem hx
  rw [List.foldl_append, List.foldl_cons]
  exact List.foldlRecOn (motive := P) after g (hmakes _) fun u hu y _ => hkeeps u y hu

theorem applyBist_sys (s : State) (f : StartFacts) : (s.applyBist f).sys = (s.bistRecorded f).sys := by
  have hwalk : ∀ {g : State → Nat → State} (_ : ∀ u x, (g u x).sys = u.sys) (l : List Nat) (u : State), (l.foldl g u).sys = u.sys :=
    fun h l u => List.foldlRecOn (motive := fun v : State => v.sys = u.sys) l _ rfl fun v hv x _ => (h v x).trans hv
  rw [applyBist_eq, hwalk (g := State.badProcessor) fun _ _ => rfl, hwalk (g := State.badCaravan) fun _ _ => rfl,
    hwalk (g := State.badPort) fun _ _ => rfl]

theorem holdOff_heldOff_self (s : State) (d : Nat) : ((s.holdOff d).domain d).heldOff = true := by
  rw [State.holdOff, State.domain_updDomain, if_pos rfl]

theorem holdOff_heldOff {s : State} {j : Nat} (h : (s.domain j).heldOff = true) (d : Nat) : ((s.holdOff d).domain j).heldOff = true := by
  rw [State.holdOff, State.domain_updDomain]
  split
  · rfl
  · exact h

/-- R526: the ports and the Caravans that failed are held OFF, and stay so. -/
theorem applyBist_heldOff (s : State) (f : StartFacts) :
    (∀ n ∈ f.badCaravans, ((s.applyBist f).domain (carDomain n)).heldOff = true) ∧
    ∀ k ∈ f.badPorts, ((s.applyBist f).domain (portDomain k)).heldOff = true := by
  rw [applyBist_eq]
  have hprocessors : ∀ (l : List Nat) (u : State) (j : Nat), (l.foldl State.badProcessor u).domain j = u.domain j := fun l u j =>
    List.foldlRecOn (motive := fun v : State => v.domain j = u.domain j) l _ rfl fun v hv _ _ => hv
  refine ⟨fun n hn => ?_, fun k hk => ?_⟩
  · rw [hprocessors]
    exact foldl_of_mem (P := fun u : State => (u.domain (carDomain n)).heldOff = true) (fun u m h => holdOff_heldOff h _)
      (fun u => holdOff_heldOff_self u _) hn _
  · rw [hprocessors]
    have hport : ((f.badPorts.foldl State.badPort (s.bistRecorded f)).domain (portDomain k)).heldOff = true :=
      foldl_of_mem (P := fun u : State => (u.domain (portDomain k)).heldOff = true)
        (fun u m h => holdOff_heldOff (s := u.updPort m fun p => { p with link := .down, cause := 4 }) h _)
        (fun u => holdOff_heldOff_self _ _) hk _
    exact List.foldlRecOn (motive := fun u : State => (u.domain (portDomain k)).heldOff = true) _ _ hport
      fun u hu n _ => holdOff_heldOff hu _

/-! ## Step 6: the memories that trained (R244, R245, R275, R524) -/

/-- A state without the pools' records and objects and what their notices send. -/
def State.unpooled (s : State) : State := { s with out := [], od := [], host := {}, chans := [], notices := [], pools := [] }

section Unpooled

variable {s t : State} (h : t.unpooled = s.unpooled)
include h

theorem sys_of_unpooled : t.sys = s.sys := (congrArg State.sys h :)
theorem flash_of_unpooled : t.flash = s.flash := (congrArg State.flash h :)
theorem domain_of_unpooled (d : Nat) : t.domain d = s.domain d := (congrArg (fun u : State => u.domain d) h :)
theorem ddr_of_unpooled : t.ddrChannels = s.ddrChannels ∧ t.ddrRate = s.ddrRate ∧ t.ddrCapacity = s.ddrCapacity :=
  ⟨(congrArg State.ddrChannels h :), (congrArg State.ddrRate h :), (congrArg State.ddrCapacity h :)⟩

end Unpooled

theorem store_unpooled (s : State) (key v : Nat) : (s.store key v).unpooled = s.unpooled := rfl

theorem updPool_unpooled (s : State) (p : Nat) (f : PoolSt → PoolSt) : (s.updPool p f).unpooled = s.unpooled := rfl

theorem settlePool_unpooled (s : State) (p : Nat) : (s.settlePool p).unpooled = s.unpooled :=
  (congrArg State.unpooled (settlePool_eq s p) :)

theorem placePool_unpooled (s : State) (p v : Nat) : (s.placePool p v).unpooled = s.unpooled := by
  unfold State.placePool
  dsimp only
  split
  · rfl
  · split
    · rw [settlePool_unpooled, store_unpooled]
    · simp only [settlePool_unpooled, updPool_unpooled, store_unpooled]

/-- R524: the placement of the pools changes the pools alone. -/
theorem placePools_unpooled (s : State) : s.placePools.unpooled = s.unpooled := by
  unfold State.placePools
  refine List.foldlRecOn (motive := fun u : State => u.unpooled = s.unpooled) _ _ ?_ fun u hu p _ => ?_
  · exact List.foldlRecOn (motive := fun u : State => u.unpooled = s.unpooled) _ _ rfl fun u hu p _ => hu
  · dsimp only
    split
    · exact (placePool_unpooled u p _).trans hu
    · exact hu

/-- R526: the NAND channels whose interface or PLL failed. -/
def StartFacts.deadChannels (f : StartFacts) : List Nat :=
  f.bad 3 ++ ((f.bad 4).filter fun u => 17 ≤ u && u ≤ 32).flatMap fun u => (List.range 4).map (4 * (u - 17) + ·)

/-- R244, R245, R275: the memories that trained are in force and their domains ON, before the pools are placed. -/
def State.memoriesOn (s : State) (f : StartFacts) : State :=
  (State.updDomain
    { s with ddrChannels := stageMask f.ddrEnabled.2, ddrRate := ddrRateOf f.ddrEnabled.1
             ddrCapacity := f.ddrEnabled.2.length * f.ddrEnabled.1.1 * f.ddrEnabled.1.2 * 10 ^ 9
             granules := [(0, 0), (33, 0)]
             flash := s.flash.withTargets (f.enabledTargets f.deadChannels) } 1 fun x => { x with state := 0 }).updDomain 2
    fun x => { x with state := 0 }

section Trained

variable {s : State} {f : StartFacts}

theorem trained_fewChannels (h : f.ddrEnabled.2.length < 2) : s.trained f = s.fatal 5 := if_pos h

theorem trained_noTargets (hddr : 2 ≤ f.ddrEnabled.2.length) (h : f.enabledTargets f.deadChannels = []) : s.trained f = s.fatal 6 :=
  (if_neg (Nat.not_lt.mpr hddr)).trans (if_pos (List.isEmpty_iff.mpr h))

theorem trained_both (hddr : 2 ≤ f.ddrEnabled.2.length) (h : f.enabledTargets f.deadChannels ≠ []) :
    s.trained f = ((s.memoriesOn f).toStep 7).placePools :=
  (if_neg (Nat.not_lt.mpr hddr)).trans (if_neg (mt List.isEmpty_iff.mp h))

end Trained

theorem memoriesOn_domain (s : State) (f : StartFacts) :
    ((s.memoriesOn f).domain 1).state = 0 ∧ ((s.memoriesOn f).domain 2).state = 0 := by
  simp [State.memoriesOn, State.domain_updDomain]

theorem memoriesOn_flash (s : State) (f : StartFacts) :
    (s.memoriesOn f).flash = s.flash.withTargets (f.enabledTargets f.deadChannels) := by
  rw [State.memoriesOn, State.updDomain_flash, State.updDomain_flash]

theorem toStep_flash (s : State) (k : Nat) : (s.toStep k).flash = s.flash := rfl

/-- R275: the geometry of the flash is that of the first enabled target. -/
theorem withTargets_geometry (x : FlashSt) (r : TargetFacts) (rest : List TargetFacts) :
    (x.withTargets (r :: rest)).luns = r.luns ∧ (x.withTargets (r :: rest)).bpl = r.bpl ∧ (x.withTargets (r :: rest)).ppb = r.ppb :=
  ⟨rfl, rfl, rfl⟩

/-! ## Step 7: the media pools (R303, R348) -/

/-- The part of the state that says whether the controller of a starting device is ready. -/
def State.readiness (s : State) : SysSt × Bool := (s.sys, s.host.ready)

theorem complete_readiness (s : State) (sq cid sct sc : Nat) (dnr : Bool) (dw0 : Nat) (data : Bytes) :
    (s.complete sq cid sct sc dnr dw0 data).readiness = s.readiness :=
  (congrArg State.readiness (complete_work s sq cid sct sc dnr dw0 data) :)

theorem asyncEvent_readiness (s : State) (type info page : Nat) : (s.asyncEvent type info page).readiness = s.readiness := by
  unfold State.asyncEvent
  split
  · split
    · exact complete_readiness _ _ _ _ _ _ _ _
    · rfl
  · rfl

theorem warn_readiness (s : State) : s.warn.readiness = s.readiness := by
  have hevent : ∀ (u : State) (b : Bool) (info : Nat), (if b then u.asyncEvent 1 info 2 else u).readiness = u.readiness := by
    intro u b info
    cases b
    · rfl
    · exact asyncEvent_readiness u 1 info 2
  exact (hevent _ _ 0).trans (hevent _ _ 2)

theorem followMedia_readiness (s : State) : s.followMedia.readiness = s.readiness := by
  unfold State.followMedia
  dsimp only
  split
  · exact warn_readiness s
  · split
    · exact warn_readiness _
    · exact (warn_readiness _).trans (asyncEvent_readiness _ _ _ _)

/-- R303: bringing the media pools up to date leaves the step in progress and the controller as they are. -/
theorem followPools_readiness (s : State) : s.followPools.readiness = s.readiness := by
  unfold State.followPools
  refine List.foldlRecOn (motive := fun u : State => u.readiness = s.readiness) _ _ rfl fun u hu m _ => Eq.trans ?_ hu
  exact followMedia_readiness _

theorem rebuilt_readiness (s : State) (f : StartFacts) : (s.rebuilt f).readiness = ({ s.sys with step := 8 }, s.host.enabled) :=
  followPools_readiness _

theorem rebuilt_ready (s : State) (f : StartFacts) :
    (s.rebuilt f).sys = { s.sys with step := 8 } ∧ (s.rebuilt f).host.ready = s.host.enabled :=
  Prod.mk.inj (rebuilt_readiness s f)

/-! ## Step 8: the links (R353) -/

/-- R353: once the training is over no port trains. -/
theorem settlePorts_settled (s : State) : ∀ p ∈ s.settlePorts.fabric.ports, p.2.link ≠ .training ∧ p.2.link ≠ .retrain := by
  intro p hp
  obtain ⟨q, -, rfl⟩ := List.mem_map.mp hp
  dsimp only
  split
  · exact ⟨nofun, nofun⟩
  · rename_i htrains
    simpa using htrains

/-! ## Ring admission (R515) -/

/-- R515: the counter is LOCKED, or has been FREE for 100 ms. -/
def State.counterSteady (s : State) : Prop :=
  s.clk.state = 2 ∨ (s.clk.state = 0 ∧ s.clk.freeSince + 100 * Config.ms ≤ s.gtc)

/-- R515: the machine when ring admission ends its start. -/
def State.admitted (s : State) : State :=
  State.domainToTarget { s with sys := { s.sys with step := 0, warm := false, startupMs := (s.clk.ticks - s.sys.began) / Config.ms } } 2

theorem exec_ringAdmission_eq (s : State) :
    exec .ringAdmission s = whenUp s fun s =>
      if s.sys.step ≠ 9 || s.sys.flush.isSome ||
          !(s.clk.state = 2 || (s.clk.state = 0 && s.clk.freeSince + 100 * Config.ms ≤ s.gtc)) || s.ft.sent.isNone then .next s
      else .next s.admitted := rfl

theorem exec_ringAdmission_ends {s : State} (hup : s.up = true) (hflush : s.sys.flush = none) (hstep : s.sys.step = 9)
    (hsent : s.ft.sent ≠ none) (hsteady : s.counterSteady) : exec .ringAdmission s = .next s.admitted := by
  have hfree : (s.clk.state = 2 || (s.clk.state = 0 && s.clk.freeSince + 100 * Config.ms ≤ s.gtc)) = true := by
    simpa [State.counterSteady] using hsteady
  rw [exec_ringAdmission_eq, whenUp_runs _ hup, hfree, if_neg (by simp [hstep, hflush, hsent])]

theorem exec_ringAdmission_waits {s : State} (h : s.sys.step ≠ 9 ∨ s.ft.sent = none ∨ ¬ s.counterSteady) :
    exec .ringAdmission s = .next s := by
  rw [exec_ringAdmission_eq]
  refine whenUp_idle (if_pos ?_)
  rcases h with h | h | h
  · simp [h]
  · simp [h]
  · have hfree : (s.clk.state = 2 || (s.clk.state = 0 && s.clk.freeSince + 100 * Config.ms ≤ s.gtc)) = false := by
      rw [← Bool.not_eq_true]
      simpa [State.counterSteady] using h
    simp [hfree]

theorem admitted_serving {s : State} (hup : s.up = true) : s.admitted.serving = true := by
  have hstill : s.admitted.up = s.up := rfl
  have hstep : s.admitted.sys.step = 0 := rfl
  rw [State.serving, hstill, hup, hstep]
  rfl

end Sys2Proof.Machine

open Sys2Proof Sys2Proof.Machine in
/-- Settles O52: one equation of `stepDone` per step, and what the step's operation leaves of the machine. Which unit numbers of a
failed BIST group mean which part is the model's choice (log entry 106). -/
theorem startUpSteps : Obligations.StartUpSteps := by
  unfold Obligations.StartUpSteps
  intro s hup hflush
  have hrow : ∀ {k : Nat} (_ : s.sys.step = k + 1) (f : StartFacts), exec (.startupStepDone f) s = .next (s.stepDone f) :=
    fun hk => exec_startupStepDone_runs hup hflush (by omega)
  refine ⟨fun f => ⟨fun hstep => exec_startupStepDone_started hstep f, fun hstep hlc => ?scrapped, fun hstep hlc => ?identity,
    fun hstep => ?spine, fun c hstep hlc hfatal => ?fatal, fun hstep hlc => ?blank, fun hstep hlc hfatal => ?tested, ?memories,
    fun hstep => ?last, fun hstep => ?media, fun hstep => ?links⟩, fun hstep hsent hsteady => ?admission,
    fun h => exec_ringAdmission_waits h⟩
  case scrapped => exact ⟨_, (hrow hstep f).trans (congrArg _ ((stepDone_one hstep f).trans (if_pos hlc))), rfl, rfl⟩
  case identity => exact ⟨_, (hrow hstep f).trans (congrArg _ ((stepDone_one hstep f).trans (if_neg hlc))), rfl, rfl⟩
  case spine =>
    refine ⟨_, (hrow hstep f).trans (congrArg _ (stepDone_four hstep f)), by rw [toStep_domain, spineOn_domain], ?_⟩
    exact if_congr (by simp) rfl rfl
  case fatal => exact ⟨_, (hrow hstep f).trans (congrArg _ (stepDone_fatal hstep hlc hfatal)), rfl, rfl⟩
  case blank => rw [hrow hstep, stepDone_blank hstep hlc]
  case tested =>
    have hsys := applyBist_sys s f
    refine ⟨_, (hrow hstep f).trans (congrArg _ (stepDone_tested hstep hlc hfatal)), rfl, ?_, ?_, applyBist_heldOff s f⟩
    · exact congrArg SysSt.bistState hsys
    · exact congrArg SysSt.bistMode hsys
  case memories =>
    dsimp only
    have hmemories : s.sys.step = 6 → exec (.startupStepDone f) s = .next (s.trained f) := fun hstep => by
      rw [hrow hstep, stepDone_six hstep]
    refine ⟨fun hstep hfew => ?_, fun hstep hddr hnone => ?_, fun r rest hstep hddr htargets => ?_⟩
    · rw [hmemories hstep, trained_fewChannels hfew]
    · rw [hmemories hstep, trained_noTargets hddr hnone]
    · have hfirst : f.enabledTargets f.deadChannels = r :: rest := htargets
      have htrained := trained_both (s := s) hddr (ne_of_eq_of_ne hfirst (List.cons_ne_nil r rest))
      have hkept := placePools_unpooled ((s.memoriesOn f).toStep 7)
      obtain ⟨hchannels, hrate, hcapacity⟩ := ddr_of_unpooled hkept
      obtain ⟨hddrOn, hflashOn⟩ := memoriesOn_domain s f
      have hflash := (flash_of_unpooled hkept).trans ((toStep_flash _ 7).trans (memoriesOn_flash s f))
      obtain ⟨hluns, hbpl, hppb⟩ := withTargets_geometry s.flash r rest
      rw [← hfirst, ← hflash] at hluns hbpl hppb
      exact ⟨_, (hmemories hstep).trans (congrArg _ htrained), congrArg SysSt.step (sys_of_unpooled hkept), hchannels, hrate,
        hcapacity, hluns, hbpl, hppb, by rw [domain_of_unpooled hkept, toStep_domain, hddrOn],
        by rw [domain_of_unpooled hkept, toStep_domain, hflashOn]⟩
  case last => rw [exec_startupStepDone_runs hup hflush (by omega), stepDone_last hstep]
  case media =>
    obtain ⟨hsys, hready⟩ := rebuilt_ready s f
    exact ⟨_, (hrow hstep f).trans (congrArg _ (stepDone_seven hstep f)), congrArg SysSt.step hsys, hready⟩
  case links => exact ⟨_, (hrow hstep f).trans (congrArg _ (stepDone_eight hstep f)), rfl, settlePorts_settled s⟩
  case admission => exact ⟨_, exec_ringAdmission_ends hup hflush hstep hsent hsteady, rfl, rfl, admitted_serving hup⟩
end

section
/-! The map, the journal and the write buffer (R280, R283, R284, R344): what a group of map changes makes of an entry and of the
journal, what settling the writes leaves, and the page that a reader gets. -/

namespace Sys2Proof.Machine

open Sys2Proof

/-! ## Map entries (R280) -/

theorem Tbl.get_del {α : Type} (t : Tbl α) (d : α) (k j : Nat) :
    Tbl.get (Tbl.del t k) d j = if j = k then d else Tbl.get t d j := by
  by_cases h : j = k <;> simp [Tbl.get, Tbl.find_del, h]

/-- R280: an entry of a map changed; an UNMAPPED entry is not listed. -/
def putEntry (m : Tbl Nat) (x : Nat × Nat × Nat) : Tbl Nat :=
  if x.2.1 = lpnUnmapped then Tbl.del m x.1 else Tbl.set m x.1 x.2.1

theorem get_putEntry (m : Tbl Nat) (x : Nat × Nat × Nat) (l : Nat) :
    Tbl.get (putEntry m x) lpnUnmapped l = if l = x.1 then x.2.1 else Tbl.get m lpnUnmapped l := by
  unfold putEntry
  split
  case isTrue h => rw [Tbl.get_del, h]
  case isFalse => exact Tbl.get_set ..

/-- An entry has the one value that the changes give it, or keeps the value that it had. -/
theorem get_foldl_putEntry {m : Tbl Nat} {c : List (Nat × Nat × Nat)} {l v : Nat} (hgiven : ∀ x ∈ c, x.1 = l → x.2.1 = v)
    (hv : (∃ x ∈ c, x.1 = l) ∨ Tbl.get m lpnUnmapped l = v) : Tbl.get (c.foldl putEntry m) lpnUnmapped l = v := by
  induction c generalizing m with
  | nil => simpa using hv
  | cons x c ih =>
    refine ih (fun y hy => hgiven y (List.mem_cons_of_mem _ hy)) ?_
    rw [get_putEntry]
    by_cases hx : l = x.1
    · exact .inr ((if_pos hx).trans (hgiven x List.mem_cons_self hx.symm))
    · rw [if_neg hx]
      exact hv.imp_left fun ⟨y, hy, hl⟩ => ⟨y, (List.mem_cons.mp hy).resolve_left fun h => hx (h ▸ hl.symm), hl⟩

/-! ## Groups of map changes (R283, R284) -/

/-- R284: the records of a group of map changes: LPN, VALUE and TYPE. -/
def groupRecords (c : List (Nat × Nat × Nat)) : List JRec :=
  c.zipIdx.map fun x => { lpn := x.1.1, value := x.1.2.1, type := x.1.2.2, group := groupBits x.2 c.length }

/-- R280: map changes that are not yet journalled. -/
def FlashSt.putEntries (f : FlashSt) (c : List (Nat × Nat × Nat)) : FlashSt := c.foldl (fun f x => f.setEntry x.1 x.2.1) f

/-- R284: map changes journalled as one group. -/
def FlashSt.putGroup (f : FlashSt) (c : List (Nat × Nat × Nat)) : FlashSt := (f.putEntries c).append (groupRecords c)

theorem remapGroup_pieces (f : FlashSt) (c : List (Nat × Nat × Nat)) :
    f.remapGroup c = (pieces 254 c.length c).foldl FlashSt.putGroup f := rfl

theorem putEntries_map (f : FlashSt) (c : List (Nat × Nat × Nat)) : (f.putEntries c).map = c.foldl putEntry f.map := by
  induction c generalizing f with
  | nil => rfl
  | cons x c ih => exact ih _

theorem putEntries_eq (f : FlashSt) (c : List (Nat × Nat × Nat)) :
    f.putEntries c = { f with map := (f.putEntries c).map, dirty := (f.putEntries c).dirty } :=
  List.foldlRecOn (motive := fun g : FlashSt => g = { f with map := g.map, dirty := g.dirty }) c _ rfl fun g hg x _ => by
    rw [hg]
    rfl

theorem append_map (f : FlashSt) (g : List JRec) : (f.append g).map = f.map := by
  rw [append_eq]

/-- R283, R284: the records of a group come after those that the journal holds. -/
theorem append_records (f : FlashSt) (g : List JRec) : (f.append g).records = f.records ++ g := by
  unfold FlashSt.append FlashSt.records
  cases hlast : f.journal.getLast? with
  | none =>
    rw [List.getLast?_eq_none_iff.mp hlast]
    simp
  | some p =>
    obtain ⟨l, hl⟩ := List.getLast?_eq_some_iff.mp hlast
    dsimp only
    split <;> simp [hl]

theorem pieces_flatten {α : Type} (n : Nat) (hn : 0 < n) (k : Nat) (l : List α) (hk : l.length ≤ k) :
    (pieces n k l).flatten = l := by
  induction k generalizing l with
  | zero => rw [List.length_eq_zero_iff.mp (Nat.le_zero.mp hk)]; rfl
  | succ k ih =>
    unfold pieces
    cases l with
    | nil => rfl
    | cons a r =>
      have hrest : ((a :: r).drop n).length ≤ k := by
        simp only [List.length_drop, List.length_cons] at hk ⊢
        omega
      rw [if_neg (by simp), List.flatten_cons, ih _ hrest, List.take_append_drop]

theorem pieces_one {α : Type} {n : Nat} {l : List α} (hl : l ≠ []) (hn : l.length ≤ n) : pieces n l.length l = [l] := by
  obtain ⟨a, r, rfl⟩ := List.exists_cons_of_ne_nil hl
  rw [List.length_cons, pieces, if_neg (by simp), List.take_of_length_le hn, List.drop_of_length_le hn]
  cases r.length <;> rfl

/-- R280, R284: map changes change the map as they stand, in whatever groups they are journalled. -/
theorem remapGroup_map (f : FlashSt) (c : List (Nat × Nat × Nat)) : (f.remapGroup c).map = c.foldl putEntry f.map := by
  have hgroups : ∀ (ps : List (List (Nat × Nat × Nat))) (f : FlashSt),
      (ps.foldl FlashSt.putGroup f).map = ps.flatten.foldl putEntry f.map := by
    intro ps
    induction ps with
    | nil => intro f; rfl
    | cons c ps ih =>
      intro f
      rw [List.foldl_cons, ih, FlashSt.putGroup, append_map, putEntries_map, List.flatten_cons, List.foldl_append]
  rw [remapGroup_pieces, hgroups, pieces_flatten 254 (by decide) _ c le_rfl]

/-- R280, R284: the entry of a page after map changes. -/
theorem remapGroup_entry {f : FlashSt} {c : List (Nat × Nat × Nat)} {l v : Nat} (hgiven : ∀ x ∈ c, x.1 = l → x.2.1 = v)
    (hv : (∃ x ∈ c, x.1 = l) ∨ Tbl.get f.map lpnUnmapped l = v) : Tbl.get (f.remapGroup c).map lpnUnmapped l = v := by
  rw [remapGroup_map]
  exact get_foldl_putEntry hgiven hv

/-- R284: the map changes of one write are one group when a page holds them. -/
theorem remapGroup_records {f : FlashSt} {c : List (Nat × Nat × Nat)} (hc : c ≠ []) (hfits : c.length ≤ 254) :
    (f.remapGroup c).records = f.records ++ groupRecords c := by
  rw [remapGroup_pieces, pieces_one hc hfits, List.foldl_cons, List.foldl_nil, FlashSt.putGroup, append_records, putEntries_eq]
  rfl

/-- R280, R283: map changes change the map, its dirty segments and the journal alone. -/
theorem remapGroup_eq (f : FlashSt) (c : List (Nat × Nat × Nat)) : f.remapGroup c = { f with
    map := (f.remapGroup c).map
    dirty := (f.remapGroup c).dirty
    journal := (f.remapGroup c).journal
    journalDone := (f.remapGroup c).journalDone } := by
  rw [remapGroup_pieces]
  refine List.foldlRecOn (motive := fun g : FlashSt =>
    g = { f with map := g.map, dirty := g.dirty, journal := g.journal, journalDone := g.journalDone }) _ _ rfl fun g hg p _ => ?_
  rw [FlashSt.putGroup, append_eq, putEntries_eq, hg]

theorem remapGroup_wbuf (f : FlashSt) (c : List (Nat × Nat × Nat)) : (f.remapGroup c).wbuf = f.wbuf := by
  rw [remapGroup_eq]

theorem remapGroup_units (f : FlashSt) (c : List (Nat × Nat × Nat)) : (f.remapGroup c).units = f.units := by
  rw [remapGroup_eq]

/-! ## Writes whose pages have been programmed (R284, R288) -/

/-- R284: the map change of a programmed page: its LPN, the slot that it took, and MAP. -/
def WbEntry.mapChange (e : WbEntry) : Nat × Nat × Nat := (e.lpn, e.pun.getD lpnUnmapped, 1)

/-- R284, R288: a write that ends: its entries are released, and the map names its slots. -/
def FlashSt.endWrite (f : FlashSt) (w : Nat) : FlashSt :=
  FlashSt.remapGroup { f with wbuf := f.wbuf.filter fun e => e.write ≠ w }
    ((f.wbuf.filter fun e => e.write == w).map WbEntry.mapChange)

theorem settleWrite_eq (f : FlashSt) (w : Nat) : f.settleWrite w =
    if (!(f.wbuf.filter fun e => e.write == w).isEmpty && (f.wbuf.filter fun e => e.write == w).all WbEntry.done) then f.endWrite w
    else f := rfl

/-- R288: a write of which a page is still to be programmed waits. -/
theorem settleWrite_waits {f : FlashSt} {w : Nat} {e : WbEntry} (he : e ∈ f.wbuf) (hw : e.write = w) (hdone : e.done = false) :
    f.settleWrite w = f := by
  rw [settleWrite_eq, if_neg]
  have hnot : ((f.wbuf.filter fun e => e.write == w).all WbEntry.done) = false :=
    List.all_eq_false.mpr ⟨e, List.mem_filter.mpr ⟨he, by simp [hw]⟩, by simp [hdone]⟩
  simp [hnot]

/-- R284, R288: a write ends when every page of it has been programmed. -/
theorem settleWrite_ends {f : FlashSt} {w : Nat} (hsome : ∃ e ∈ f.wbuf, e.write = w)
    (hdone : ∀ e ∈ f.wbuf, e.write = w → e.done = true) : f.settleWrite w = f.endWrite w := by
  rw [settleWrite_eq, if_pos]
  simpa [← imp_iff_not_or] using ⟨hsome, hdone⟩

/-- R284: with no page programmed no write ends. -/
theorem settle_undone {f : FlashSt} (h : ∀ e ∈ f.wbuf, e.done = false) : f.settle = f := by
  unfold FlashSt.settle
  refine List.foldlRecOn (motive := fun g : FlashSt => g = f) _ _ rfl fun g hg w hw => ?_
  obtain ⟨e, he, hwrite⟩ := List.mem_map.mp (List.mem_dedup.mp hw)
  rw [hg]
  exact settleWrite_waits he hwrite (h e he)

/-- A page has no entry in the write buffer, and the map gives it a value. -/
def FlashSt.MappedTo (f : FlashSt) (l v : Nat) : Prop := (∀ e ∈ f.wbuf, e.lpn ≠ l) ∧ Tbl.get f.map lpnUnmapped l = v

/-- R284: the writes that end change no entry of a page that waits in none of them. -/
theorem settle_mappedTo {f : FlashSt} {l v : Nat} (h : f.MappedTo l v) : f.settle.MappedTo l v := by
  unfold FlashSt.settle
  refine List.foldlRecOn (motive := fun g : FlashSt => g.MappedTo l v) _ _ h fun g hg w _ => ?_
  rw [settleWrite_eq]
  split
  case isFalse => exact hg
  case isTrue =>
    obtain ⟨hbuf, hmap⟩ := hg
    refine ⟨fun e he => ?_, remapGroup_entry (fun x hx hl => ?_) (.inr hmap)⟩
    · rw [FlashSt.endWrite, remapGroup_wbuf] at he
      exact hbuf e (List.mem_of_mem_filter he)
    · obtain ⟨e, he, rfl⟩ := List.mem_map.mp hx
      exact absurd hl (hbuf e (List.mem_of_mem_filter he))

/-! ## The page that a reader gets (R280, R292) -/

/-- R280: the entries of the write buffer for a page, oldest first. -/
def FlashSt.buffered (f : FlashSt) (l : Nat) : List WbEntry := f.wbuf.filter fun e => e.lpn == l

/-- A filter that keeps every entry of a page keeps what a reader of the page sees of the write buffer. -/
theorem filter_lpn_filter {p : WbEntry → Bool} {l : Nat} (h : ∀ e : WbEntry, e.lpn = l → p e = true) (es : List WbEntry) :
    (es.filter p).filter (fun e => e.lpn == l) = es.filter fun e => e.lpn == l := by
  rw [List.filter_filter]
  refine List.filter_congr fun e _ => ?_
  by_cases he : e.lpn = l
  · simp [he, h e he]
  · simp [he]

theorem find_reverse_buffered (f : FlashSt) (l : Nat) :
    (f.wbuf.reverse.find? fun e => e.lpn == l) = (f.buffered l).getLast? := by
  rw [← List.head?_filter, List.filter_reverse, List.head?_reverse]
  rfl

/-- R280: the newest data of the write buffer is what a reader gets. -/
theorem page_buffered {f : FlashSt} {l : Nat} {e : WbEntry} (h : (f.buffered l).getLast? = some e) :
    f.page l = some (sliceZ e.data 0 4096) := by
  unfold FlashSt.page
  rw [find_reverse_buffered, h]

/-- R280: an UNMAPPED page that no write has admitted reads as zeros. -/
theorem page_unmapped {f : FlashSt} {l : Nat} (h : f.MappedTo l lpnUnmapped) : f.page l = some (zeros 4096) := by
  obtain ⟨hbuf, hmap⟩ := h
  have hnone : f.buffered l = [] := List.filter_eq_nil_iff.mpr fun e he => by simpa using hbuf e he
  unfold FlashSt.page
  rw [find_reverse_buffered, hnone, List.getLast?_nil]
  exact if_pos hmap

/-- R280: what a reader gets depends on the page's entries, its map entry and the units. -/
theorem page_congr {f g : FlashSt} {l : Nat} (hbuf : g.buffered l = f.buffered l)
    (hmap : Tbl.get g.map lpnUnmapped l = Tbl.get f.map lpnUnmapped l) (hunits : g.units = f.units) : g.page l = f.page l := by
  unfold FlashSt.page
  rw [find_reverse_buffered, find_reverse_buffered, hbuf, hmap, hunits]

end Sys2Proof.Machine
end

section
/-! The I/O commands of the NVMe controller (R280, R290, R301, R335, R342 to R346): what admission and deallocation make of a page,
and what each command is answered. -/

namespace Sys2Proof.Machine

open Sys2Proof

/-! ## Admission (R280, R344, R345) -/

/-- R344, R345: pages entered into the write buffer one after the other, the i-th as part of write w i. -/
def FlashSt.enterPages (f : FlashSt) (w : Nat → Nat) (j : Bool) (key : Nat) (ps : List ((Nat × Bytes) × Nat)) : FlashSt :=
  ps.foldl (fun g p => g.admitPage j key (w p.2) p.1) f

/-- R344, R345: the number of the write to which the i-th page of an admitted write belongs. -/
def FlashSt.writeOf (f : FlashSt) (j : Bool) (i : Nat) : Nat := if j then f.nextWrite + i else f.nextWrite

section Enter

variable (f : FlashSt) (w : Nat → Nat) (j : Bool) (key : Nat)

theorem admitPage_buffered_ne (n : Nat) {p : Nat × Bytes} {l : Nat} (h : p.1 ≠ l) :
    (f.admitPage j key n p).buffered l = f.buffered l := by
  unfold FlashSt.buffered FlashSt.admitPage
  rw [List.filter_append, filter_lpn_filter fun e he => by simp [he, Ne.symm h]]
  simp [h]

/-- R344: the newest data of a page is what was last admitted for it. -/
theorem admitPage_newest (n : Nat) (p : Nat × Bytes) : ((f.admitPage j key n p).buffered p.1).getLast? =
    some { lpn := p.1, data := sliceZ p.2 0 4096, journal := j, key := key, write := n } := by
  simp [FlashSt.buffered, FlashSt.admitPage]

theorem enterPages_eq (ps : List ((Nat × Bytes) × Nat)) :
    f.enterPages w j key ps = { f with wbuf := (f.enterPages w j key ps).wbuf } :=
  List.foldlRecOn (motive := fun g : FlashSt => g = { f with wbuf := g.wbuf }) ps _ rfl fun g hg p _ => by
    rw [hg]
    rfl

theorem enterPages_undone (h : ∀ e ∈ f.wbuf, e.done = false) (ps : List ((Nat × Bytes) × Nat)) :
    ∀ e ∈ (f.enterPages w j key ps).wbuf, e.done = false := by
  refine List.foldlRecOn (motive := fun g : FlashSt => ∀ e ∈ g.wbuf, e.done = false) ps _ h fun g hg p _ e he => ?_
  rcases List.mem_append.mp he with hold | hnew
  · exact hg e (List.mem_of_mem_filter hold)
  · rw [List.mem_singleton.mp hnew]

theorem enterPages_buffered {ps : List ((Nat × Bytes) × Nat)} {l : Nat} (h : ∀ p ∈ ps, p.1.1 ≠ l) :
    (f.enterPages w j key ps).buffered l = f.buffered l :=
  List.foldlRecOn (motive := fun g : FlashSt => g.buffered l = f.buffered l) ps _ rfl fun g hg p hp =>
    (admitPage_buffered_ne g j key _ (h p hp)).trans hg

/-- R344: a page that is entered last of its kind is the newest data of its page. -/
theorem enterPages_newest (as : List ((Nat × Bytes) × Nat)) {bs : List ((Nat × Bytes) × Nat)} {p : Nat × Bytes}
    (h : ∀ q ∈ bs, q.1.1 ≠ p.1) (n : Nat) : ((f.enterPages w j key (as ++ (p, n) :: bs)).buffered p.1).getLast? =
    some { lpn := p.1, data := sliceZ p.2 0 4096, journal := j, key := key, write := w n } := by
  rw [FlashSt.enterPages, List.foldl_append, List.foldl_cons]
  exact (congrArg List.getLast? (enterPages_buffered _ w j key h)).trans (admitPage_newest _ j key (w n) p)

/-- R345: while no page of a write has been programmed, an admission enters its pages and takes their numbers, and ends no write. -/
theorem admitPages_undone (h : ∀ e ∈ f.wbuf, e.done = false) (ps : List (Nat × Bytes)) : f.admitPages ps j key =
    { f.enterPages (f.writeOf j) j key ps.zipIdx with nextWrite := f.nextWrite + (if j then ps.length else 1) } :=
  settle_undone (enterPages_undone f (f.writeOf j) j key h ps.zipIdx)

end Enter

theorem sliceZ_whole (b : Bytes) (n : Nat) : sliceZ (sliceZ b 0 n) 0 n = sliceZ b 0 n := by
  have hlen := sliceZ_length b 0 n
  generalize sliceZ b 0 n = c at hlen ⊢
  simp [sliceZ, ← hlen]

/-- R344: a page that a write admits last is what a reader gets. -/
theorem admitPages_page {f : FlashSt} (h : ∀ e ∈ f.wbuf, e.done = false) (ps : List (Nat × Bytes)) {qs : List (Nat × Bytes)}
    {p : Nat × Bytes} (hlast : ∀ q ∈ qs, q.1 ≠ p.1) (j : Bool) (key : Nat) :
    (f.admitPages (ps ++ p :: qs) j key).page p.1 = some (sliceZ p.2 0 4096) := by
  have hlater : ∀ q ∈ qs.zipIdx (0 + ps.length + 1), q.1.1 ≠ p.1 := fun q hq => hlast q.1 (List.fst_mem_of_mem_zipIdx hq)
  have hnewest := enterPages_newest f (f.writeOf j) j key ps.zipIdx hlater (0 + ps.length)
  rw [admitPages_undone f j key h, List.zipIdx_append, List.zipIdx_cons]
  exact (page_buffered hnewest).trans (congrArg some (sliceZ_whole p.2 4096))

/-- R344: a page that is not among those admitted reads as before. -/
theorem admitPages_page_ne {f : FlashSt} (h : ∀ e ∈ f.wbuf, e.done = false) {ps : List (Nat × Bytes)} {l : Nat}
    (hl : ∀ q ∈ ps, q.1 ≠ l) (j : Bool) (key : Nat) : (f.admitPages ps j key).page l = f.page l := by
  have hkept := enterPages_eq f (f.writeOf j) j key ps.zipIdx
  have hbuf := enterPages_buffered f (f.writeOf j) j key (ps := ps.zipIdx) fun p hp => hl p.1 (List.fst_mem_of_mem_zipIdx hp)
  rw [admitPages_undone f j key h]
  exact page_congr hbuf (by rw [hkept]) (by rw [hkept])

/-! ## Deallocation (R280, R335) -/

/-- R280: the pages of a deallocation that have data: a map entry or an entry of the write buffer. -/
def FlashSt.withData (f : FlashSt) (ls : List Nat) : List Nat :=
  ls.filter fun l => (Tbl.find f.map l).isSome || f.wbuf.any fun e => e.lpn == l

/-- R280: the flash state after a deallocation, before writes that have lost pages by it are settled. -/
def FlashSt.unmapped (f : FlashSt) (ls : List Nat) : FlashSt :=
  FlashSt.unmap { f with wbuf := f.wbuf.filter fun e => !ls.contains e.lpn } (f.withData ls)

theorem dealloc_eq (f : FlashSt) (ls : List Nat) : f.dealloc ls = (f.unmapped ls).settle := rfl

theorem unmapped_wbuf (f : FlashSt) (ls : List Nat) : (f.unmapped ls).wbuf = f.wbuf.filter fun e => !ls.contains e.lpn :=
  remapGroup_wbuf _ _

theorem unmapped_entry_ne (f : FlashSt) {ls : List Nat} {l : Nat} (hl : l ∉ ls) :
    Tbl.get (f.unmapped ls).map lpnUnmapped l = Tbl.get f.map lpnUnmapped l := by
  refine remapGroup_entry (fun x hx hk => ?_) (.inr rfl)
  obtain ⟨k, hk', rfl⟩ := List.mem_map.mp hx
  exact absurd (hk ▸ List.mem_of_mem_filter hk') hl

theorem get_of_find_none {α : Type} {t : Tbl α} {k : Nat} (h : Tbl.find t k = none) (d : α) : Tbl.get t d k = d := by
  rw [Tbl.get, h]

theorem unmapped_entry (f : FlashSt) {ls : List Nat} {l : Nat} (hl : l ∈ ls) :
    Tbl.get (f.unmapped ls).map lpnUnmapped l = lpnUnmapped := by
  refine remapGroup_entry (fun x hx _ => ?_) ?_
  · obtain ⟨k, _, rfl⟩ := List.mem_map.mp hx
    rfl
  · cases hfind : Tbl.find f.map l with
    | none => exact .inr (get_of_find_none hfind lpnUnmapped)
    | some v => exact .inl ⟨_, List.mem_map.mpr ⟨l, List.mem_filter.mpr ⟨hl, by simp [hfind]⟩, rfl⟩, rfl⟩

theorem unmapped_mappedTo (f : FlashSt) {ls : List Nat} {l : Nat} (hl : l ∈ ls) : (f.unmapped ls).MappedTo l lpnUnmapped := by
  refine ⟨fun e he hk => ?_, unmapped_entry f hl⟩
  rw [unmapped_wbuf, List.mem_filter, hk] at he
  simp [hl] at he

/-- R280: a deallocated page reads as zeros. -/
theorem dealloc_page (f : FlashSt) {ls : List Nat} {l : Nat} (hl : l ∈ ls) : (f.dealloc ls).page l = some (zeros 4096) :=
  page_unmapped (settle_mappedTo (unmapped_mappedTo f hl))

/-- R280: a page without data reads as zeros after a deallocation, whether it is deallocated or not. -/
theorem dealloc_page_free {f : FlashSt} {l : Nat} (h : f.MappedTo l lpnUnmapped) (ls : List Nat) :
    (f.dealloc ls).page l = some (zeros 4096) := by
  by_cases hl : l ∈ ls
  · exact dealloc_page f hl
  · obtain ⟨hbuf, hmap⟩ := h
    refine page_unmapped (settle_mappedTo (f := f.unmapped ls) ⟨fun e he => ?_, (unmapped_entry_ne f hl).trans hmap⟩)
    rw [unmapped_wbuf] at he
    exact hbuf e (List.mem_of_mem_filter he)

/-- R280: a page that is not deallocated reads as before. -/
theorem dealloc_page_ne {f : FlashSt} (h : ∀ e ∈ f.wbuf, e.done = false) {ls : List Nat} {l : Nat} (hl : l ∉ ls) :
    (f.dealloc ls).page l = f.page l := by
  have hundone : ∀ e ∈ (f.unmapped ls).wbuf, e.done = false := fun e he =>
    h e (List.mem_of_mem_filter (unmapped_wbuf f ls ▸ he))
  have hbuf : (f.unmapped ls).buffered l = f.buffered l := by
    rw [FlashSt.buffered, unmapped_wbuf]
    exact filter_lpn_filter (fun e he => by simp [he, hl]) f.wbuf
  rw [dealloc_eq, settle_undone hundone]
  exact page_congr hbuf (unmapped_entry_ne f hl) (remapGroup_units _ _)

/-! ## The gate of an I/O command (R335, R342) -/

/-- R335, R342: the controller takes the I/O command c, which names the attached namespace x, and the namespace is ready. -/
structure State.TakesIo (s : State) (c : NvmeCmd) (x : Namespace) : Prop where
  /-- R335: the command stands at the head of an I/O queue. -/
  takes : s.TakesCommand false c
  /-- R335: the namespace is attached. -/
  attached : s.attachedNs c.nsid = some x
  /-- R342: no scrub of its tenant runs. -/
  unscrubbed : s.scrubs x.tenant = false
  /-- R342: the FLASH domain is not OFF. -/
  serves : s.domOff 2 = false
  /-- R413: the FLASH domain is awake. -/
  awake : s.flashOn = true

section Gate

variable {s : State} {c : NvmeCmd} {x : Namespace} (w : Namespace → State → Bool) (f : Namespace → State → State)

theorem nvmeIo_detached (h : s.TakesCommand false c) (hns : s.attachedNs c.nsid = none) :
    nvmeIo c s w f = .next ((s.nvmeTake c).nvmeErr c 0 0x0B) := by
  unfold nvmeIo
  rw [hns]
  exact nvmeRun_takes _ h

theorem nvmeIo_notReady (h : s.TakesCommand false c) (hns : s.attachedNs c.nsid = some x)
    (hbusy : s.scrubs x.tenant = true ∨ s.domOff 2 = true) :
    nvmeIo c s w f = .next ((s.nvmeTake c).nvmeErr c 0 0x82 false) := by
  unfold nvmeIo
  rw [hns]
  dsimp only
  rw [if_pos (by simpa using hbusy)]
  exact nvmeRun_takes _ h

theorem nvmeIo_ready (h : s.TakesIo c x) :
    nvmeIo c s w f = if w x s then .next s else .next (f x (s.nvmeTake c)) := by
  unfold nvmeIo
  rw [h.attached]
  dsimp only
  rw [if_neg (by simp [h.unscrubbed, h.serves]), if_neg (by simp [h.awake]), nvmeRun_takes _ h.takes]

variable {w}

theorem nvmeIo_waits (h : s.TakesIo c x) (hw : w x s = true) : nvmeIo c s w f = .next s :=
  (nvmeIo_ready w f h).trans (if_pos hw)

theorem nvmeIo_runs (h : s.TakesIo c x) (hw : w x s = false) : nvmeIo c s w f = .next (f x (s.nvmeTake c)) :=
  (nvmeIo_ready w f h).trans (if_neg (ne_true_of_eq_false hw))

end Gate

theorem exec_nvmeRead_eq (c : NvmeCmd) (s : State) : exec (.nvmeRead c) s = execNvmeRead c s := rfl
theorem exec_nvmeWrite_eq (c : NvmeCmd) (s : State) : exec (.nvmeWrite c) s = execNvmeWrite c s := rfl
theorem exec_writeZeroes_eq (c : NvmeCmd) (s : State) : exec (.writeZeroes c) s = execWriteZeroes c s := rfl
theorem exec_datasetManagement_eq (c : NvmeCmd) (s : State) : exec (.datasetManagement c) s = execDatasetManagement c s := rfl
theorem exec_ingest_eq (c : NvmeCmd) (s : State) : exec (.ingest c) s = execIngest c s := rfl

/-- R335, R342: the I/O commands on a namespace stand behind the one gate. -/
theorem exec_behindGate {c : NvmeCmd} {i : Instr}
    (hi : i = .nvmeRead c ∨ i = .nvmeWrite c ∨ i = .writeZeroes c ∨ i = .datasetManagement c ∨ i = .ingest c) (s : State) :
    ∃ w f, exec i s = nvmeIo c s w f := by
  rcases hi with rfl | rfl | rfl | rfl | rfl
  · rw [exec_nvmeRead_eq]; exact ⟨_, _, rfl⟩
  · rw [exec_nvmeWrite_eq]; exact ⟨_, _, rfl⟩
  · rw [exec_writeZeroes_eq]; exact ⟨_, _, rfl⟩
  · rw [exec_datasetManagement_eq]; exact ⟨_, _, rfl⟩
  · rw [exec_ingest_eq]; exact ⟨_, _, rfl⟩

/-! ## Read, Write Zeroes and Dataset Management (R335, R342) -/

section Io

variable {s : State} {c : NvmeCmd} {x : Namespace} (h : s.TakesIo c x)
include h

theorem exec_nvmeRead_tooLong (hlong : 64 < c.blocks) : exec (.nvmeRead c) s = .next ((s.nvmeTake c).nvmeErr c 0 0x02) := by
  have hmdts : mdtsBlocks < c.blocks := hlong
  rw [exec_nvmeRead_eq, execNvmeRead, nvmeIo_runs _ h rfl, if_pos hmdts]

/-- R280, R342: a read within MDTS of blocks that the namespace does not hold is refused. -/
theorem exec_nvmeRead_beyond (hshort : c.blocks ≤ 64) (hout : x.holds c.slba c.blocks = false) :
    exec (.nvmeRead c) s = .next ((s.nvmeTake c).nvmeErr c 0 0x80) := by
  have hmdts : ¬ mdtsBlocks < c.blocks := Nat.not_lt.mpr hshort
  rw [exec_nvmeRead_eq, execNvmeRead, nvmeIo_runs _ h rfl, if_neg hmdts, if_pos (by simp [hout])]

/-- R280, R342: a read of blocks that the namespace holds returns its pages, or ends with Unrecovered Read Error. -/
theorem exec_nvmeRead_pages (hshort : c.blocks ≤ 64) (hin : x.holds c.slba c.blocks = true) :
    (∀ d, (s.nvmeTake c).readPages x c.slba c.blocks = some d →
      exec (.nvmeRead c) s = .next (((s.nvmeTake c).count oFlashReadBytes d.length).nvmeOk c 0 d)) ∧
    ((s.nvmeTake c).readPages x c.slba c.blocks = none → exec (.nvmeRead c) s = .next ((s.nvmeTake c).nvmeErr c 2 0x81)) := by
  have hmdts : ¬ mdtsBlocks < c.blocks := Nat.not_lt.mpr hshort
  rw [exec_nvmeRead_eq, execNvmeRead, nvmeIo_runs _ h rfl, if_neg hmdts, if_neg (by simp [hin])]
  exact ⟨fun d hd => by rw [hd], fun hd => by rw [hd]⟩

theorem exec_writeZeroes_corpus (hcls : x.cls = 2) : exec (.writeZeroes c) s = .next ((s.nvmeTake c).nvmeErr c 0 0x02) := by
  rw [exec_writeZeroes_eq, execWriteZeroes, nvmeIo_runs _ h rfl, if_pos hcls]

/-- R301, R335: blocks are deallocated, unless the namespace does not hold them or the media is READ_ONLY. -/
theorem exec_writeZeroes_blocks (hcls : x.cls ≠ 2) : exec (.writeZeroes c) s = .next (
    if x.holds c.slba c.blocks = false then (s.nvmeTake c).nvmeErr c 0 0x80
    else if s.flash.readOnly then (s.nvmeTake c).nvmeErr c 0 0x20
    else ((s.nvmeTake c).deallocate (x.lpns c.slba c.blocks)).nvmeOk c 0 []) := by
  rw [exec_writeZeroes_eq, execWriteZeroes, nvmeIo_runs _ h rfl, if_neg hcls]
  cases x.holds c.slba c.blocks <;> rfl

theorem exec_datasetManagement_idle (hbit : bit c.cdw11 2 = false) :
    exec (.datasetManagement c) s = .next ((s.nvmeTake c).nvmeOk c 0 []) := by
  rw [exec_datasetManagement_eq, execDatasetManagement, nvmeIo_runs _ h rfl]
  exact congrArg _ (if_pos (by simp [hbit]))

/-- R335, R342: a deallocation is refused on a CORPUS namespace and beyond the namespace. -/
theorem exec_datasetManagement_deallocate (hbit : bit c.cdw11 2 = true) :
    exec (.datasetManagement c) s = .next (
      if x.cls = 2 then (s.nvmeTake c).nvmeErr c 0 0x02
      else if c.ranges.any fun r => !x.holds r.1 r.2 then (s.nvmeTake c).nvmeErr c 0 0x80
      else ((s.nvmeTake c).deallocate (c.ranges.flatMap fun r => x.lpns r.1 r.2)).nvmeOk c 0 []) := by
  rw [exec_datasetManagement_eq, execDatasetManagement, nvmeIo_runs _ h rfl]
  exact congrArg _ (if_neg (by simp [hbit]))

/-! ## Write (R301, R342 to R346) -/

omit h in
theorem writeWaits_refused {e : Nat × Nat} (he : s.writeRefused c x = some e) : s.writeWaits c x = false := by
  simp [State.writeWaits, he]

theorem exec_nvmeWrite_waits (hw : s.writeWaits c x = true) : exec (.nvmeWrite c) s = .next s := by
  rw [exec_nvmeWrite_eq]
  exact nvmeIo_waits _ h hw

theorem exec_nvmeWrite_refused {sct sc : Nat} (he : s.writeRefused c x = some (sct, sc)) :
    exec (.nvmeWrite c) s = .next ((s.nvmeTake c).nvmeErr c sct sc) := by
  have hstill : (s.nvmeTake c).writeRefused c x = some (sct, sc) := he
  rw [exec_nvmeWrite_eq, execNvmeWrite, nvmeIo_runs _ h (writeWaits_refused he), hstill]

theorem exec_nvmeWrite_admitted (hnot : s.writeRefused c x = none) (hw : s.writeWaits c x = false) :
    exec (.nvmeWrite c) s = .next ((s.nvmeTake c).admitWrite c x) := by
  have hstill : (s.nvmeTake c).writeRefused c x = none := hnot
  rw [exec_nvmeWrite_eq, execNvmeWrite, nvmeIo_runs _ h hw, hstill]

omit h

theorem writeRefused_corpus (hcls : x.cls = 2) : s.writeRefused c x = some (0, 0x02) := by
  simp [State.writeRefused, hcls]

variable (hcls : x.cls ≠ 2) (hshort : c.blocks ≤ 64)
include hcls hshort

theorem writeRefused_beyond (hout : x.holds c.slba c.blocks = false) : s.writeRefused c x = some (0, 0x80) := by
  simp [State.writeRefused, mdtsBlocks, hcls, Nat.not_lt.mpr hshort, hout]

theorem writeRefused_held (hin : x.holds c.slba c.blocks = true) :
    s.writeRefused c x = if s.flash.readOnly then some (0, 0x20) else none := by
  simp [State.writeRefused, mdtsBlocks, hcls, Nat.not_lt.mpr hshort, hin]

end Io

/-- R346: Flush completes at once. -/
theorem exec_nvmeFlush {s : State} {c : NvmeCmd} (h : s.TakesCommand false c) :
    exec (.nvmeFlush c) s = .next ((s.nvmeTake c).nvmeOk c 0 []) := by
  have hrow : exec (.nvmeFlush c) s = execNvmeFlush c s := rfl
  rw [hrow, execNvmeFlush, nvmeRun_takes _ h]

/-- R345, R346: the pages that a write admits. -/
def NvmeCmd.pagesOf (c : NvmeCmd) (x : Namespace) : List (Nat × Bytes) :=
  (x.lpns c.slba c.blocks).zipIdx.map fun p => (p.1, sliceZ c.data (4096 * p.2) 4096)

theorem admitWrite_buffered {t : State} {c : NvmeCmd} (h : t.goesThrough c = false) (x : Namespace) :
    t.admitWrite c x = State.nvmeOk { t.count oNvmeWriteBytes (4096 * c.blocks) with
      flash := t.flash.admitPages (c.pagesOf x) (x.cls == 1) x.key } c 0 [] :=
  if_neg (ne_true_of_eq_false h)

/-- R346: a write-through write: its pages are still to be programmed. -/
def NvmeCmd.through (c : NvmeCmd) (x : Namespace) : WriteThrough :=
  { sq := c.sq, cid := c.cid, pages := c.pagesOf x, key := x.key, journal := x.cls == 1 }

theorem admitWrite_through {t : State} {c : NvmeCmd} (h : t.goesThrough c = true) (x : Namespace) :
    t.admitWrite c x = State.count { t.count oNvmeWriteBytes (4096 * c.blocks) with
      host := { t.host with throughs := t.host.throughs ++ [c.through x] } } oWriteThrough 1 :=
  if_pos h

/-! ## WRITE_THROUGH_DONE (R301, R346) -/

/-- R346: a state without the write-through writes of a queue and an identifier. -/
def State.dropThrough (s : State) (sq cid : Nat) : State :=
  { s with host := { s.host with throughs := s.host.throughs.filter fun v => !(v.sq == sq && v.cid == cid) } }

theorem dropThrough_gone (s : State) (sq cid : Nat) : ∀ y ∈ (s.dropThrough sq cid).host.throughs, y.sq ≠ sq ∨ y.cid ≠ cid := by
  intro y hy
  obtain ⟨_, hnot⟩ := List.mem_filter.mp hy
  simpa [imp_iff_not_or] using hnot

theorem exec_writeThroughDone {s : State} {w : WriteThrough} (hup : s.up = true) (hon : s.flashOn = true)
    (hw : s.host.throughs.find? (fun v => v.sq == w.sq && v.cid == w.cid) = some w) :
    (∀ u, s.programPages w.journal w.key w.pages = some u →
      exec (.writeThroughDone w.sq w.cid) s = .next ((u.dropThrough w.sq w.cid).complete w.sq w.cid 0 0 false 0 [])) ∧
    (s.programPages w.journal w.key w.pages = none → exec (.writeThroughDone w.sq w.cid) s =
      if s.flash.readOnly then .next ((s.dropThrough w.sq w.cid).complete w.sq w.cid 0 0x20 true 0 []) else .next s) := by
  have hrow : exec (.writeThroughDone w.sq w.cid) s = execWriteThroughDone w.sq w.cid s := rfl
  rw [hrow, execWriteThroughDone, withFlash_runs _ hup hon, hw]
  dsimp only
  exact ⟨fun u hu => by rw [hu]; rfl, fun hu => by rw [hu]; rfl⟩

end Sys2Proof.Machine

open Sys2Proof Sys2Proof.Machine in
/-- Settles O29: a page's newest entry and its map entry say what a reader gets, and each command is one branch of its row behind
the gate of I/O commands. That a waiting write-through ends write-protected (log entry 131), and that a Dataset Management command
without deallocate does nothing (log entry 125), is the model's choice. -/
theorem nvmeReadsAndWrites : Obligations.NvmeReadsAndWrites := by
  refine ⟨fun f ps qs p j key hundone hlast => admitPages_page hundone ps hlast j key,
    fun f ps j key l hundone hl => admitPages_page_ne hundone hl j key,
    fun f ls l => ⟨dealloc_page f, fun hl hundone => dealloc_page_ne hundone hl⟩, ?detached, ?notReady, fun s c x => ?ready,
    fun s c h => exec_nvmeFlush h, fun s w hup hon hw => ?through⟩
  case detached =>
    intro s c h hns i hi
    obtain ⟨w, f, hrow⟩ := exec_behindGate hi s
    exact hrow.trans (nvmeIo_detached w f h hns)
  case notReady =>
    intro s c x h hns hbusy i hi
    obtain ⟨w, f, hrow⟩ := exec_behindGate hi s
    exact hrow.trans (nvmeIo_notReady w f h hns hbusy)
  case ready =>
    intro t htakes hns hscrub hserves hawake
    have h : s.TakesIo c x := ⟨htakes, hns, hscrub, hserves, hawake⟩
    refine ⟨exec_nvmeRead_tooLong h, exec_nvmeWrite_waits h,
      fun hcls => ⟨exec_nvmeWrite_refused h (writeRefused_corpus hcls), exec_writeZeroes_corpus h hcls⟩,
      exec_datasetManagement_idle h, fun hshort hin => ?held,
      fun hout hshort => ⟨exec_nvmeRead_beyond h hshort hout, fun hcls => ?outside⟩, fun hbit hcls => ?corpus,
      fun hbit hcls hout => ?beyond, fun hbit hcls hin => ?ranges⟩
    case held =>
      obtain ⟨hread, hlost⟩ := exec_nvmeRead_pages h hshort hin
      have hzeroes := fun hcls => exec_writeZeroes_blocks h hcls
      have hrefused := fun hcls => writeRefused_held (s := s) hcls hshort hin
      refine ⟨hread, hlost, fun hcls hro hwaits => ?_, fun hcls hro => ⟨?_, ?_⟩, fun hcls hro => ?_⟩
      · have hadmit := exec_nvmeWrite_admitted h (by rw [hrefused hcls, hro]; rfl) hwaits
        refine ⟨fun hbuffer => ⟨_, hadmit.trans (congrArg _ (admitWrite_buffered (t := s.nvmeTake c) hbuffer x)), rfl, ?_⟩,
          fun hthrough => ⟨_, hadmit.trans (congrArg _ (admitWrite_through (t := s.nvmeTake c) hthrough x)), rfl, rfl, rfl, ?_⟩⟩
        · exact stored_count_self _ _ _
        · exact (stored_count_self _ _ _).trans (congrArg (· + 1) (State.stored_count ..))
      · exact exec_nvmeWrite_refused h (by rw [hrefused hcls, hro]; rfl)
      · rw [hzeroes hcls, if_neg (by simp [hin]), if_pos hro]
      · rw [hzeroes hcls, if_neg (by simp [hin]), if_neg (ne_true_of_eq_false hro)]
    case outside =>
      exact ⟨exec_nvmeWrite_refused h (writeRefused_beyond hcls hshort hout), by rw [exec_writeZeroes_blocks h hcls, if_pos hout]⟩
    case corpus => rw [exec_datasetManagement_deallocate h hbit, if_pos hcls]
    case beyond =>
      rw [exec_datasetManagement_deallocate h hbit, if_neg hcls, if_pos]
      simpa using hout
    case ranges =>
      rw [exec_datasetManagement_deallocate h hbit, if_neg hcls, if_neg]
      simpa using hin
  case through =>
    obtain ⟨hdone, hfull⟩ := exec_writeThroughDone hup hon hw
    refine ⟨fun u hu => ⟨_, hdone u hu, rfl, dropThrough_gone u w.sq w.cid⟩, fun hnone => ⟨fun hro => ?_, fun hro => ?_⟩⟩
    · rw [hfull hnone, if_neg (ne_true_of_eq_false hro)]
    · exact ⟨_, (hfull hnone).trans (if_pos hro), rfl, dropThrough_gone s w.sq w.cid⟩
end

section
/-! What the state of the media pools, and the relocation and the retirement of a block, leave of the machine (R289, R293 to R296,
R300, R303, R348). -/

namespace Sys2Proof.Machine

open Sys2Proof

/-! ## What the media pools and relocations leave -/

/-- A state without what relocations change of the flash, what says whether pools are CLOSED, and the events that wait for the
host. -/
def State.sansMedia (s : State) : State :=
  { s with
    flash := { s.flash with blocks := [], map := [], dirty := [], journal := [], journalDone := 0, copies := [], closedRetire := [],
                            closedGc := [], gained := [], closedAt := [], readOnly := false }
    host := { s.host with aers := [], events := [], warned := 0, changed := [] } }

/-- What pools that change their state, and copies of units that begin, leave of the machine. -/
def State.aside (s : State) : State := s.work.sansMedia

section Aside

variable {s t : State} (h : t.aside = s.aside)
include h

theorem wbuf_of_aside : t.flash.wbuf = s.flash.wbuf := (congrArg (fun u : State => u.flash.wbuf) h :)
theorem retiredIn_of_aside : t.flash.retiredIn = s.flash.retiredIn := (congrArg (fun u : State => u.flash.retiredIn) h :)
theorem blockOf_of_aside (p : Nat) : t.flash.blockOf p = s.flash.blockOf p := (congrArg (fun u : State => u.flash.blockOf p) h :)
theorem attached_of_aside : t.host.attached = s.host.attached := (congrArg (fun u : State => u.host.attached) h :)

theorem stored_of_aside {key : Nat} (hkey : key ∉ tallyKeys) : t.stored key = s.stored key := by
  have hfind : ∀ u : State, Tbl.find u.aside.od key = Tbl.find u.od key := fun u =>
    Tbl.find_filter (p := fun k => k ∉ tallyKeys) (by simpa using hkey) u.od
  unfold State.stored
  rw [← hfind t, ← hfind s, h]

end Aside

theorem complete_aside (s : State) (sq cid sct sc : Nat) (dnr : Bool) (dw0 : Nat) (data : Bytes) :
    (s.complete sq cid sct sc dnr dw0 data).aside = s.aside :=
  congrArg State.sansMedia (complete_work s sq cid sct sc dnr dw0 data)

theorem asyncEvent_aside (s : State) (type info page : Nat) : (s.asyncEvent type info page).aside = s.aside := by
  unfold State.asyncEvent
  split
  · split
    · exact complete_aside _ _ _ _ _ _ _ _
    · rfl
  · rfl

theorem warn_aside (s : State) : s.warn.aside = s.aside := by
  have hevent : ∀ (u : State) (b : Bool) (info : Nat), (if b then u.asyncEvent 1 info 2 else u).aside = u.aside := by
    intro u b info
    cases b
    · rfl
    · exact asyncEvent_aside u 1 info 2
  exact (hevent _ _ 0).trans (hevent _ _ 2)

theorem followMedia_aside (s : State) : s.followMedia.aside = s.aside := by
  unfold State.followMedia
  dsimp only
  split
  · exact warn_aside s
  · split
    · exact warn_aside _
    · exact (warn_aside _).trans (asyncEvent_aside _ _ _ _)

theorem followGc_aside (s : State) (m : Nat) : (s.followGc m).aside = s.aside := followMedia_aside _

theorem followPools_aside (s : State) : s.followPools.aside = s.aside :=
  List.foldlRecOn (motive := fun u : State => u.aside = s.aside) _ _ rfl fun u hu m _ => (followGc_aside u m).trans hu

/-- R300, R303: bringing the pools up to date changes which of them are CLOSED and MEDIA_STATE alone. -/
theorem followPools_flash (s : State) : s.followPools.flash = { s.flash with
    closedRetire := s.followPools.flash.closedRetire
    closedGc := s.followPools.flash.closedGc
    gained := s.followPools.flash.gained
    closedAt := s.followPools.flash.closedAt
    readOnly := s.followPools.flash.readOnly } := by
  unfold State.followPools
  refine List.foldlRecOn (motive := fun u : State => u.flash = { s.flash with
    closedRetire := u.flash.closedRetire
    closedGc := u.flash.closedGc
    gained := u.flash.gained
    closedAt := u.flash.closedAt
    readOnly := u.flash.readOnly }) _ _ rfl fun u hu m _ => ?_
  rw [followGc_flash, hu]

/-! ## Relocation (R293 to R295) -/

theorem lose_aside (s : State) (lpn : Nat) : (s.lose lpn).aside = s.aside := by
  unfold State.lose
  rw [warn_aside, remap_eq, append_eq]
  rfl

theorem beginCopy_aside (s : State) (m pun : Nat) : (s.beginCopy m pun).aside = s.aside := by
  unfold State.beginCopy
  split
  · rfl
  · split
    · rfl
    · split
      · exact lose_aside s _
      · split
        case h_1 dst g hslot =>
          rw [relocSlot_eq hslot]
          rfl
        case h_2 => rfl

theorem foldl_beginCopy_aside {α : Type} (m pun : State → α → Nat) (l : List α) (s : State) :
    (l.foldl (fun (s : State) x => s.beginCopy (m s x) (pun s x)) s).aside = s.aside :=
  List.foldlRecOn (motive := fun u : State => u.aside = s.aside) l _ rfl fun u hu x _ =>
    (beginCopy_aside u (m u x) (pun u x)).trans hu

theorem afterMove_aside (s : State) (b : Nat) : (s.afterMove b).aside = s.aside := by
  unfold State.afterMove
  dsimp only
  split <;> rfl

theorem evacuate_aside (s : State) (b : Nat) : (s.evacuate b).aside = s.aside :=
  (afterMove_aside _ b).trans
    (foldl_beginCopy_aside (fun s _ => s.flash.mpoolOf b) (fun _ p => p) (s.flash.validUnits b) (s.markVictim b))

/-- R294: a block that is not closed and holds no valid unit is marked as a victim alone. -/
theorem evacuate_unclosed {s : State} {b : Nat} (hvalid : s.flash.validUnits b = [])
    (hopen : (Tbl.get s.flash.blocks {} b).use ≠ .closed) : s.evacuate b = s.markVictim b := by
  have hblock : (Tbl.get (s.markVictim b).flash.blocks {} b).use = (Tbl.get s.flash.blocks {} b).use := by
    simp [State.markVictim, FlashSt.updBlock]
  have hclosed : (s.markVictim b).flash.isClosed b = false := by simp [FlashSt.isClosed, hblock, hopen]
  have hevacuate : s.evacuate b = (s.markVictim b).afterMove b := by
    rw [State.evacuate, hvalid]
    rfl
  rw [hevacuate, State.afterMove]
  simp [hclosed]

@[simp] theorem updBlock_self (f : FlashSt) (b : Nat) (g : Block → Block) :
    Tbl.get (f.updBlock b g).blocks {} b = g (Tbl.get f.blocks {} b) := Tbl.get_upd_self ..

/-! ## The retirement of a block (R289, R296, R299, R300) -/

/-- R289, R299: block b is retired and leaves its pool, unless it has done so before. -/
def State.leavePool (s : State) (b : Nat) : State :=
  let m := s.flash.mpoolOf b
  let closes := s.spares m == 0 && !s.flash.closedRetire.contains m
  if (Tbl.get s.flash.blocks {} b).use = .retired then s
  else State.count { s with flash := { s.flash.updBlock b fun x => { x with use := .retired } with
    retiredIn := Tbl.upd s.flash.retiredIn 0 m (· + 1)
    closedRetire := if closes then s.flash.closedRetire ++ [m] else s.flash.closedRetire
    closedAt := if closes && !s.flash.closedGc.contains m then Tbl.set s.flash.closedAt m s.flash.nextWrite
      else s.flash.closedAt } } oRetiredBlocks 1

/-- R289: an entry of the write buffer whose program operation is of block b waits again. -/
def FlashSt.waitAgain (f : FlashSt) (b : Nat) (x : WbEntry) : WbEntry :=
  if x.pun.any fun p => f.blockOf p == b then { x with pun := none, done := false } else x

/-- R289, R296: the program operations of block b are withdrawn, those of copies among them. -/
def State.withdrawPrograms (s : State) (b : Nat) : State :=
  { s with flash := { s.flash with wbuf := s.flash.wbuf.map (s.flash.waitAgain b)
                                   copies := s.flash.copies.filter fun c => s.flash.blockOf c.dst ≠ b } }

theorem retireBlock_eq (s : State) (b : Nat) :
    s.retireBlock b = (((s.leavePool b).evacuate b).restartPrograms b).followPools := rfl

theorem restartPrograms_eq (s : State) (b : Nat) : s.restartPrograms b =
    (s.flash.copies.filter fun c => s.flash.blockOf c.dst == b).foldl
      (fun (s : State) c => s.beginCopy (s.flash.mpoolOf (s.flash.blockOf c.src)) c.src) (s.withdrawPrograms b) := rfl

theorem restartPrograms_aside (s : State) (b : Nat) : (s.restartPrograms b).aside = (s.withdrawPrograms b).aside := by
  rw [restartPrograms_eq]
  exact foldl_beginCopy_aside (fun s (c : Copy) => s.flash.mpoolOf (s.flash.blockOf c.src)) (fun _ c => c.src) _ _

theorem retireBlock_aside (s : State) (b : Nat) :
    (s.retireBlock b).aside = (((s.leavePool b).evacuate b).withdrawPrograms b).aside := by
  rw [retireBlock_eq, followPools_aside, restartPrograms_aside]

section Retire

variable (s : State) (b : Nat)

/-- R289: retiring a block changes no entry of the write buffer or of the map, no unit and no copy. -/
theorem leavePool_kept : (s.leavePool b).flash.wbuf = s.flash.wbuf ∧ (s.leavePool b).flash.map = s.flash.map ∧
    (s.leavePool b).flash.copies = s.flash.copies ∧ (s.leavePool b).flash.validUnits = s.flash.validUnits ∧
    (s.leavePool b).flash.blockOf = s.flash.blockOf := by
  unfold State.leavePool
  dsimp only
  split <;> exact ⟨rfl, rfl, rfl, rfl, rfl⟩

theorem leavePool_use : (Tbl.get (s.leavePool b).flash.blocks {} b).use = .retired := by
  unfold State.leavePool
  dsimp only
  split
  case isTrue huse => exact huse
  case isFalse => exact congrArg Block.use (updBlock_self s.flash b fun x => { x with use := .retired })

theorem leavePool_stored {key : Nat} (hkey : key ≠ oRetiredBlocks) : (s.leavePool b).stored key = s.stored key := by
  unfold State.leavePool
  dsimp only
  split
  · rfl
  · exact (State.stored_count ..).trans (if_neg hkey)

/-- R289: the entries that the block held wait again. -/
theorem retireBlock_wbuf : (s.retireBlock b).flash.wbuf = s.flash.wbuf.map (s.flash.waitAgain b) := by
  have hmoved := evacuate_aside (s.leavePool b) b
  obtain ⟨hwbuf, -, -, -, hblock⟩ := leavePool_kept s b
  have hback : ((s.leavePool b).evacuate b).flash.waitAgain b = s.flash.waitAgain b := by
    funext x
    simp only [FlashSt.waitAgain, blockOf_of_aside hmoved, hblock]
  rw [wbuf_of_aside (retireBlock_aside s b), State.withdrawPrograms]
  dsimp only
  rw [wbuf_of_aside hmoved, hwbuf, hback]

theorem retireBlock_retiredIn : Tbl.get (s.retireBlock b).flash.retiredIn 0 (s.flash.mpoolOf b) =
    Tbl.get s.flash.retiredIn 0 (s.flash.mpoolOf b) + (if (Tbl.get s.flash.blocks {} b).use = .retired then 0 else 1) := by
  have hwithdrawn : ∀ u : State, (u.withdrawPrograms b).flash.retiredIn = u.flash.retiredIn := fun _ => rfl
  rw [retiredIn_of_aside (retireBlock_aside s b), hwithdrawn, retiredIn_of_aside (evacuate_aside (s.leavePool b) b),
    State.leavePool]
  dsimp only
  split
  · rfl
  · exact Tbl.get_upd_self ..

theorem withdrawPrograms_stored (key : Nat) : (s.withdrawPrograms b).stored key = s.stored key := rfl

theorem retireBlock_stored_left {key : Nat} (hkey : key ∉ tallyKeys) :
    (s.retireBlock b).stored key = (s.leavePool b).stored key := by
  rw [stored_of_aside (retireBlock_aside s b) hkey, withdrawPrograms_stored,
    stored_of_aside (evacuate_aside (s.leavePool b) b) hkey]

/-- R289, R299: a retirement counts nothing but retired blocks. -/
theorem retireBlock_stored {key : Nat} (hkey : key ∉ oRetiredBlocks :: tallyKeys) :
    (s.retireBlock b).stored key = s.stored key := by
  rw [retireBlock_stored_left s b (List.not_mem_of_not_mem_cons hkey), leavePool_stored s b (List.ne_of_not_mem_cons hkey)]

variable {s b}

/-- R299: a block is counted when it is retired first. -/
theorem retireBlock_counted (huse : (Tbl.get s.flash.blocks {} b).use ≠ .retired) :
    (s.retireBlock b).stored oRetiredBlocks = s.stored oRetiredBlocks + 1 := by
  rw [retireBlock_stored_left s b (by decide), State.leavePool]
  dsimp only
  rw [if_neg huse]
  exact stored_count_self ..

/-- R289: a block that holds no valid unit, and into which nothing is copied, is retired and no map entry changes. -/
theorem retireBlock_unused (hvalid : s.flash.validUnits b = []) (hcopies : ∀ c ∈ s.flash.copies, s.flash.blockOf c.dst ≠ b) :
    (Tbl.get (s.retireBlock b).flash.blocks {} b).use = .retired ∧ (s.retireBlock b).flash.map = s.flash.map := by
  obtain ⟨-, hmap, hkept, hunits, hblock⟩ := leavePool_kept s b
  have huse := leavePool_use s b
  have hmarked : (s.leavePool b).evacuate b = (s.leavePool b).markVictim b :=
    evacuate_unclosed (by rw [hunits, hvalid]) (by rw [huse]; decide)
  have hnone : ((s.leavePool b).markVictim b).flash.copies.filter
      (fun c => ((s.leavePool b).markVictim b).flash.blockOf c.dst == b) = [] := by
    refine List.filter_eq_nil_iff.mpr fun c hc => ?_
    have hdst := hcopies c (hkept ▸ hc)
    have hsame : ((s.leavePool b).markVictim b).flash.blockOf c.dst = s.flash.blockOf c.dst := congrFun hblock c.dst
    simpa [hsame] using hdst
  rw [retireBlock_eq, hmarked, restartPrograms_eq, hnone, List.foldl_nil, followPools_flash]
  refine ⟨?_, hmap⟩
  simp [State.withdrawPrograms, State.markVictim, FlashSt.updBlock, huse]

end Retire

end Sys2Proof.Machine
end

section
/-! DESTAGE, PROGRAM_COMPLETE, ERASE_COMPLETE, NAND_READ_COMPLETE and UNIT_COPY_COMMIT (R276, R283, R284, R288, R289, R291 to R295,
R300, R347). -/

namespace Sys2Proof.Machine

open Sys2Proof

/-! ## DESTAGE (R288, R300, R347) -/

/-- R288, R300: an entry that pool m may take: no program operation holds it, it was admitted before the pool closed, and no older
data of its page is being programmed. -/
def State.mayDestage (s : State) (m : Nat) (e : WbEntry) : Bool :=
  e.pun.isNone && (s.mediaPool m ≠ 2 || decide (e.write < Tbl.get s.flash.closedAt 0 m)) &&
  !s.flash.wbuf.any fun o => o.lpn == e.lpn && o.pun.isSome

/-- R347: the entry to destage next is of JOURNAL class, or no entry of JOURNAL class may be taken. -/
theorem nextDestage_cases {s : State} {m : Nat} {e : WbEntry} (h : s.nextDestage m = some e) :
    e ∈ s.flash.wbuf ∧ s.mayDestage m e = true ∧
    (e.journal = true ∨ ∀ x ∈ s.flash.wbuf, x.journal = true → s.mayDestage m x = false) := by
  have hnext : s.nextDestage m = match s.flash.wbuf.find? fun x => s.mayDestage m x && x.journal with
    | some x => some x
    | none => s.flash.wbuf.find? (s.mayDestage m) := rfl
  rw [hnext] at h
  cases hjournal : s.flash.wbuf.find? fun x => s.mayDestage m x && x.journal with
  | some x =>
    rw [hjournal] at h
    cases h
    have hboth := List.find?_some hjournal
    obtain ⟨hmay, hj⟩ := Bool.and_eq_true_iff.mp hboth
    exact ⟨List.mem_of_find?_eq_some hjournal, hmay, .inl hj⟩
  | none =>
    rw [hjournal] at h
    refine ⟨List.mem_of_find?_eq_some h, List.find?_some h, .inr fun x hx hj => ?_⟩
    simpa [hj] using List.find?_eq_none.mp hjournal x hx

theorem mayDestage_iff {s : State} {m : Nat} {e : WbEntry} : s.mayDestage m e = true ↔
    e.pun = none ∧ (s.mediaPool m ≠ 2 ∨ e.write < Tbl.get s.flash.closedAt 0 m) ∧
    ∀ y ∈ s.flash.wbuf, y.lpn = e.lpn → y.pun = none := by
  simp [State.mayDestage, and_assoc]

theorem exec_destage {s : State} {m : Nat} (hm : m < 16) (hup : s.up = true) (hon : s.flashOn = true) :
    (∀ e pun f, s.nextDestage m = some e → s.flash.takeSlot m .openHost = some (pun, f) →
      exec (.destage m) s = .next { s with flash := { f with
        wbuf := f.wbuf.map fun (x : WbEntry) => if x = e then { x with pun := some pun } else x } }) ∧
    (s.nextDestage m = none ∨ s.flash.takeSlot m .openHost = none → exec (.destage m) s = .next s) := by
  have hrow : exec (.destage m) s = execDestage m s := rfl
  rw [hrow, execDestage, if_neg (Nat.not_le.mpr hm), withFlash_runs _ hup hon]
  refine ⟨fun e pun f he hslot => by rw [he, hslot], fun hnone => ?_⟩
  rcases hnone with hnone | hnone
  · rw [hnone]
  · rw [hnone]
    cases s.nextDestage m <;> rfl

/-! ## PROGRAM_COMPLETE (R284, R288, R289) -/

/-- R288: an entry of the write buffer when the program operation of a slot has reported success. -/
def WbEntry.programmedAt (pun : Nat) (x : WbEntry) : WbEntry := if x.pun = some pun then { x with done := true } else x

/-- R288: the flash state when the program operation of an entry has reported success, before its write is settled. -/
def FlashSt.programEntry (f : FlashSt) (pun : Nat) (e : WbEntry) : FlashSt :=
  { f with units := Tbl.set f.units pun { lpn := e.lpn, key := e.key, data := e.data }
           wbuf := f.wbuf.map (WbEntry.programmedAt pun) }

theorem programmed_eq (s : State) (pun : Nat) (e : WbEntry) :
    s.programmed pun e = { s with flash := (s.flash.programEntry pun e).settleWrite e.write } := rfl

section Program

variable (pun : Nat) (x : WbEntry)

theorem programmedAt_write : (x.programmedAt pun).write = x.write := by
  unfold WbEntry.programmedAt
  split <;> rfl

theorem programmedAt_mapChange : (x.programmedAt pun).mapChange = x.mapChange := by
  unfold WbEntry.programmedAt
  split <;> rfl

theorem programmedAt_done : (x.programmedAt pun).done = true ↔ x.pun = some pun ∨ x.done = true := by
  unfold WbEntry.programmedAt
  split
  case isTrue h => simp [h]
  case isFalse h => simp [h]

variable {pun x}

theorem programmedAt_ne (h : x.pun ≠ some pun) : x.programmedAt pun = x := if_neg h

end Program

section Entry

variable {f : FlashSt} {pun : Nat} {e : WbEntry}

/-- R284: the entries of a write stay entries of it. -/
theorem programEntry_filter (w : Nat) : (f.programEntry pun e).wbuf.filter (fun x => x.write == w) =
    (f.wbuf.filter fun x => x.write == w).map (WbEntry.programmedAt pun) := by
  rw [FlashSt.programEntry, List.filter_map]
  refine congrArg _ (List.filter_congr fun x _ => ?_)
  rw [Function.comp, programmedAt_write]

theorem settleWrite_units (f : FlashSt) (w : Nat) : (f.settleWrite w).units = f.units := by
  rw [settleWrite_eq]
  split
  · exact remapGroup_units _ _
  · rfl

/-- R284: an entry of another write stays in the write buffer. -/
theorem mem_settleWrite {x : WbEntry} {w : Nat} (hx : x ∈ f.wbuf) (hw : x.write ≠ w) : x ∈ (f.settleWrite w).wbuf := by
  rw [settleWrite_eq]
  split
  · rw [FlashSt.endWrite, remapGroup_wbuf]
    exact List.mem_filter.mpr ⟨hx, by simpa using hw⟩
  · exact hx

/-- R288: a write of which a program operation is still in progress waits. -/
theorem programEntry_waits {w : Nat} (h : ∃ x ∈ f.wbuf.filter (fun x => x.write == w), x.pun ≠ some pun ∧ x.done = false) :
    (f.programEntry pun e).settleWrite w = f.programEntry pun e := by
  obtain ⟨x, hx, hpun, hdone⟩ := h
  obtain ⟨hmem, hwrite⟩ := List.mem_filter.mp hx
  have hsame : x ∈ (f.programEntry pun e).wbuf := List.mem_map.mpr ⟨x, hmem, programmedAt_ne hpun⟩
  exact settleWrite_waits hsame (by simpa using hwrite) hdone

/-- R288: the last program operation of a write ends it. -/
theorem programEntry_ends (he : e ∈ f.wbuf)
    (h : ∀ x ∈ f.wbuf.filter (fun x => x.write == e.write), x.pun = some pun ∨ x.done = true) :
    (f.programEntry pun e).settleWrite e.write = (f.programEntry pun e).endWrite e.write := by
  refine settleWrite_ends ⟨_, List.mem_map_of_mem he, programmedAt_write pun e⟩ fun y hy hwrite => ?_
  obtain ⟨x, hx, rfl⟩ := List.mem_map.mp hy
  exact (programmedAt_done pun x).mpr (h x (List.mem_filter.mpr ⟨hx, by simpa [programmedAt_write] using hwrite⟩))

/-- R284: the map changes of a write are those that its entries name. -/
theorem programEntry_endWrite (w : Nat) : (f.programEntry pun e).endWrite w =
    FlashSt.remapGroup { f.programEntry pun e with wbuf := (f.programEntry pun e).wbuf.filter fun x => x.write ≠ w }
      ((f.wbuf.filter fun x => x.write == w).map WbEntry.mapChange) := by
  have hchanges : WbEntry.mapChange ∘ WbEntry.programmedAt pun = WbEntry.mapChange := funext (programmedAt_mapChange pun)
  rw [FlashSt.endWrite, programEntry_filter, List.map_map, hchanges]

end Entry

/-- R284: the records of a write's group. -/
theorem groupRecords_mapChange (es : List WbEntry) : groupRecords (es.map WbEntry.mapChange) = es.zipIdx.map fun x =>
    { lpn := x.1.lpn, value := x.1.pun.getD lpnUnmapped, type := 1, group := groupBits x.2 es.length } := by
  rw [groupRecords, List.zipIdx_map, List.map_map, List.length_map]
  rfl

theorem exec_programComplete_entry {s : State} {pun : Nat} {e : WbEntry} (hup : s.up = true) (hon : s.flashOn = true)
    (he : s.flash.wbuf.find? (fun x => x.pun == some pun && !x.done) = some e) :
    exec (.programComplete pun true) s = .next ((s.programmed pun e).followGc (s.flash.mpoolOf (s.flash.blockOf pun))) ∧
    exec (.programComplete pun false) s = .next ((s.count oProgramFails 1).retireBlock (s.flash.blockOf pun)) := by
  have hrow : ∀ ok, exec (.programComplete pun ok) s = execProgramComplete pun ok s := fun _ => rfl
  rw [hrow, hrow, execProgramComplete, execProgramComplete, withFlash_runs _ hup hon, withFlash_runs _ hup hon, he]
  exact ⟨rfl, rfl⟩

/-! ## ERASE_COMPLETE (R289, R291, R293) -/

section Erase

variable {s : State} {b : Nat} (hup : s.up = true) (hon : s.flashOn = true)
include hup hon

/-- R289, R293: the erase of a block frees it, or retires it. -/
theorem exec_eraseComplete_erasing (huse : (Tbl.get s.flash.blocks {} b).use = .erasing) :
    exec (.eraseComplete b true) s = .next (State.followPools { s with flash := { s.flash with
      units := s.flash.units.filter fun u => s.flash.blockOf u.1 ≠ b
      blocks := Tbl.set s.flash.blocks b { erases := (Tbl.get s.flash.blocks {} b).erases + 1 } } }) ∧
    exec (.eraseComplete b false) s = .next ((s.count oEraseFails 1).retireBlock b) := by
  have hrow : ∀ ok, exec (.eraseComplete b ok) s = execEraseComplete b ok s := fun _ => rfl
  rw [hrow, hrow, execEraseComplete, execEraseComplete, withFlash_runs _ hup hon, withFlash_runs _ hup hon]
  dsimp only
  rw [if_pos huse, if_pos huse]
  exact ⟨rfl, rfl⟩

/-- R291: a block of the flush region is erased; the erase of the region ends with its last block. -/
theorem exec_eraseComplete_flush (huse : (Tbl.get s.flash.blocks {} b).use ≠ .erasing) (herasing : s.flash.erasingFlush = true)
    (hblock : s.flash.isBlock b = true) (hflush : s.flash.isFlush b = true) (hnew : b ∉ s.flash.flushErased) :
    exec (.eraseComplete b true) s = .next { s with flash := { s.flash with
      flushErased := s.flash.flushErased ++ [b]
      erasingFlush := !decide (s.flash.flushBlocks ≤ (s.flash.flushErased ++ [b]).length)
      flushed := if decide (s.flash.flushBlocks ≤ (s.flash.flushErased ++ [b]).length) then [] else s.flash.flushed
      blocks := Tbl.set s.flash.blocks b { erases := (Tbl.get s.flash.blocks {} b).erases + 1 } } } := by
  have hrow : exec (.eraseComplete b true) s = execEraseComplete b true s := rfl
  rw [hrow, execEraseComplete, withFlash_runs _ hup hon]
  dsimp only
  rw [if_neg huse, if_pos (by simp [herasing, hblock, hflush, hnew])]
  rfl

end Erase

/-! ## NAND_READ_COMPLETE (R292 to R296) -/

/-- R292, R293: a read of a unit is counted with its step and in its block, and marks the unit. -/
def State.readUnit (s : State) (pun step : Nat) : State :=
  ((s.countDecode step).countRead (s.flash.blockOf pun) step).markUnit pun (decide (17 < step))

/-- R294: the copies that a test names are changed. -/
def State.markCopies (s : State) (g : Copy → Copy) (p : Copy → Bool) : State :=
  { s with flash := { s.flash with copies := s.flash.copies.map fun x => if p x then g x else x } }

/-- R295: the copies of a source are dropped. -/
def State.dropCopies (s : State) (src : Nat) : State :=
  { s with flash := { s.flash with copies := s.flash.copies.filter fun x => x.src ≠ src } }

/-- R293 to R296: what a read of a unit of LPN `lpn` comes to, outside the reserved areas. -/
def State.readOutcome (s : State) (pun step lpn : Nat) : State :=
  let u := s.readUnit pun step
  let b := s.flash.blockOf pun
  if s.flash.copies.any fun c => c.dst == pun && c.programmed then
    if step = 0 then u.markCopies (fun x => { x with verified := true }) (·.dst == pun) else u.retireBlock b
  else if s.flash.copies.any fun c => c.src == pun then
    if step ≤ 17 then u.markCopies (fun x => { x with read := true }) (·.src == pun)
    else (if s.flash.valid pun then (u.dropCopies pun).lose lpn else u.dropCopies pun).afterMove b
  else u

/-- R292: the parts of the state that the read of a unit leaves. -/
theorem readUnit_kept (s : State) (pun step : Nat) :
    (s.readUnit pun step).flash.map = s.flash.map ∧
    (Tbl.get (s.readUnit pun step).flash.blocks {} (s.flash.blockOf pun)).use =
      (Tbl.get s.flash.blocks {} (s.flash.blockOf pun)).use ∧
    ∀ key, (s.readUnit pun step).stored key = (s.countDecode step).stored key := by
  have hflash : (s.countDecode step).flash = s.flash := by rw [countDecode_eq]; rfl
  obtain ⟨hmap, -, -, hstored, -⟩ := patrolUnit_spec s pun step
  refine ⟨hmap, ?_, hstored⟩
  rw [State.readUnit, markUnit_eq, ← hflash]
  simp [State.countRead]

/-- R292: the counters of the decode steps are no counters of the buffer manager, nor that of retired blocks. -/
theorem decodeKeys_kept : ∀ key ∈ [oCorHard, oCorRetry, oCorSoft, oUncorrectable], key ∉ oRetiredBlocks :: tallyKeys := by decide

theorem countDecode_retiredBlocks (s : State) (step : Nat) :
    (s.countDecode step).stored oRetiredBlocks = s.stored oRetiredBlocks := by
  have hne : oRetiredBlocks ≠ decodeKey step := by
    unfold decodeKey
    split_ifs <;> decide
  rw [countDecode_eq, State.stored_count, if_neg hne]

section Outcome

variable {s : State} {pun step : Nat} (lpn : Nat)

/-- R292: whatever comes of a read, its step alone is counted. -/
theorem readOutcome_stored {key : Nat} (hkey : key ∉ oRetiredBlocks :: tallyKeys) :
    (s.readOutcome pun step lpn).stored key = (s.countDecode step).stored key := by
  obtain ⟨-, -, hstored⟩ := readUnit_kept s pun step
  have htally := List.not_mem_of_not_mem_cons hkey
  have hdropped : ((s.readUnit pun step).dropCopies pun).stored key = (s.readUnit pun step).stored key := rfl
  have hmarked : ∀ g p, ((s.readUnit pun step).markCopies g p).stored key = (s.readUnit pun step).stored key := fun _ _ => rfl
  rw [← hstored]
  unfold State.readOutcome
  dsimp only
  split_ifs
  · exact hmarked _ _
  · exact retireBlock_stored _ _ hkey
  · exact hmarked _ _
  · rw [stored_of_aside (afterMove_aside _ _) htally, stored_of_aside (lose_aside _ _) htally, hdropped]
  · rw [stored_of_aside (afterMove_aside _ _) htally, hdropped]
  · rfl

section Target

variable (htarget : ∃ c ∈ s.flash.copies, c.dst = pun ∧ c.programmed = true)
include htarget

theorem readOutcome_verifies (hstep : step = 0) : s.readOutcome pun step lpn =
    (s.readUnit pun step).markCopies (fun x => { x with verified := true }) (·.dst == pun) := by
  unfold State.readOutcome
  dsimp only
  rw [if_pos (by simpa using htarget), if_pos hstep]

theorem readOutcome_retires (hstep : step ≠ 0) :
    s.readOutcome pun step lpn = (s.readUnit pun step).retireBlock (s.flash.blockOf pun) := by
  unfold State.readOutcome
  dsimp only
  rw [if_pos (by simpa using htarget), if_neg hstep]

end Target

variable (htarget : ¬ ∃ c ∈ s.flash.copies, c.dst = pun ∧ c.programmed = true)
include htarget

theorem readOutcome_plain (hsource : ¬ ∃ c ∈ s.flash.copies, c.src = pun) : s.readOutcome pun step lpn = s.readUnit pun step := by
  unfold State.readOutcome
  dsimp only
  rw [if_neg (by simpa using htarget), if_neg (by simpa using hsource)]

variable (hsource : ∃ c ∈ s.flash.copies, c.src = pun)
include hsource

theorem readOutcome_reads (hstep : step ≤ 17) : s.readOutcome pun step lpn =
    (s.readUnit pun step).markCopies (fun x => { x with read := true }) (·.src == pun) := by
  unfold State.readOutcome
  dsimp only
  rw [if_neg (by simpa using htarget), if_pos (by simpa using hsource), if_pos hstep]

theorem readOutcome_loses (hstep : 17 < step) : s.readOutcome pun step lpn =
    (if s.flash.valid pun then ((s.readUnit pun step).dropCopies pun).lose lpn else (s.readUnit pun step).dropCopies pun).afterMove
      (s.flash.blockOf pun) := by
  unfold State.readOutcome
  dsimp only
  rw [if_neg (by simpa using htarget), if_pos (by simpa using hsource), if_neg (Nat.not_le.mpr hstep)]

end Outcome

/-- Marking the copies that a test names leaves them marked. -/
theorem markCopies_marked (s : State) {g : Copy → Copy} {p q : Copy → Bool} (hq : ∀ x, p x = true → q (g x) = true) :
    ∀ c ∈ (s.markCopies g p).flash.copies, p c = true → q c = true := by
  intro c hc hpc
  obtain ⟨x, -, rfl⟩ := List.mem_map.mp hc
  by_cases hx : p x = true
  · rw [if_pos hx]
    exact hq x hx
  · rw [if_neg hx] at hpc
    exact absurd hpc hx

/-- R295: a copy's source that does not decode has no copy left, and is LOST while the map names it. -/
theorem loses_spec (u : State) (pun lpn b : Nat) (valid : Bool) :
    let t := (if valid then (u.dropCopies pun).lose lpn else u.dropCopies pun).afterMove b
    (∀ c ∈ t.flash.copies, c.src ≠ pun) ∧ (valid = true → Tbl.get t.flash.map lpnUnmapped lpn = lpnLost) := by
  have hgone : ∀ c ∈ (u.dropCopies pun).flash.copies, c.src ≠ pun := fun c hc => by simpa using (List.mem_filter.mp hc).2
  dsimp only
  rw [afterMove_flash]
  cases valid with
  | true =>
    rw [if_pos rfl, lose_flash]
    exact ⟨hgone, fun _ => Tbl.get_set_self ..⟩
  | false => exact ⟨hgone, nofun⟩

theorem exec_nandReadComplete {s : State} {pun : Nat} {u : NandUnit} (hup : s.up = true) (hon : s.flashOn = true)
    (hunit : Tbl.find s.flash.units pun = some u) (step : Nat) : exec (.nandReadComplete pun step) s = .next (
      if s.flash.isBlock (s.flash.blockOf pun) && s.flash.isReserved (s.flash.blockOf pun) then
        (s.countDecode step).countRead (s.flash.blockOf pun) step
      else s.readOutcome pun step u.lpn) := by
  have hrow : exec (.nandReadComplete pun step) s = execNandReadComplete pun step s := rfl
  rw [hrow, execNandReadComplete, withFlash_runs _ hup hon, hunit]
  unfold State.readOutcome
  dsimp only
  split_ifs <;> rfl

/-! ## UNIT_COPY_COMMIT (R294, R295) -/

theorem exec_unitCopyCommit_none {s : State} {src : Nat} (hup : s.up = true) (hon : s.flashOn = true)
    (h : s.flash.copies.find? (fun c => c.src == src && c.verified) = none) : exec (.unitCopyCommit src) s = .next s := by
  have hrow : exec (.unitCopyCommit src) s = execUnitCopyCommit src s := rfl
  rw [hrow, execUnitCopyCommit, withFlash_runs _ hup hon, h]

/-- R294, R295: the flash state in which a verified copy commits, or lapses. -/
def FlashSt.commitCopy (f : FlashSt) (c : Copy) (src : Nat) : FlashSt :=
  let g := { f with copies := f.copies.filter fun x => x.src ≠ src }
  if Tbl.get f.map lpnUnmapped c.lpn = src then g.remap c.lpn c.dst 1 else g

theorem exec_unitCopyCommit_some {s : State} {src : Nat} {c : Copy} (hup : s.up = true) (hon : s.flashOn = true)
    (h : s.flash.copies.find? (fun c => c.src == src && c.verified) = some c) : exec (.unitCopyCommit src) s =
      .next ((State.afterMove { s with flash := s.flash.commitCopy c src } (s.flash.blockOf src)).followGc
        (s.flash.mpoolOf (s.flash.blockOf src))) := by
  have hrow : exec (.unitCopyCommit src) s = execUnitCopyCommit src s := rfl
  rw [hrow, execUnitCopyCommit, withFlash_runs _ hup hon, h]
  rfl

/-- R294: a copy that commits moves one entry, with one record. -/
theorem commitCopy_commits {f : FlashSt} {c : Copy} {src : Nat} (h : Tbl.get f.map lpnUnmapped c.lpn = src) :
    Tbl.get (f.commitCopy c src).map lpnUnmapped c.lpn = c.dst ∧
    (f.commitCopy c src).records = f.records ++ [{ lpn := c.lpn, value := c.dst, type := 1, group := 3 }] ∧
    ∀ l, l ≠ c.lpn → Tbl.get (f.commitCopy c src).map lpnUnmapped l = Tbl.get f.map lpnUnmapped l := by
  have hcommit : f.commitCopy c src =
      FlashSt.remapGroup { f with copies := f.copies.filter fun x => x.src ≠ src } [(c.lpn, c.dst, 1)] := if_pos h
  rw [hcommit]
  exact ⟨remapGroup_entry (by simp) (.inl (by simp)), remapGroup_records (by simp) (by simp),
    fun l hl => remapGroup_entry (by simp [Ne.symm hl]) (.inr rfl)⟩

theorem commitCopy_copies (f : FlashSt) (c : Copy) (src : Nat) :
    (f.commitCopy c src).copies = f.copies.filter fun x => x.src ≠ src := by
  unfold FlashSt.commitCopy
  dsimp only
  split
  · exact congrArg FlashSt.copies (remapGroup_eq _ [(c.lpn, c.dst, 1)])
  · rfl

end Sys2Proof.Machine

open Sys2Proof Sys2Proof.Machine in
/-- Settles O26: the branch of each row, what the group of a write makes of the map and the journal, and what the retirement of a
block leaves of the machine. That a write is journalled, and its entries released, when all its pages are programmed is the model's
choice (log entry 159). -/
theorem flashOperations : Obligations.FlashOperations := by
  refine ⟨⟨fun s m hm hup hon => ?destage, fun s pun e hup hon he => ?programmed, fun s pun e hup hon he => ?failed⟩,
    ⟨fun s b hup hon => ⟨fun huse => ⟨?erased, ?eraseFailed⟩, fun huse herasing hblock hflush hnew => ?flush⟩,
      fun s pun step u hup hon hunit => ?read, fun s src hup hon => ⟨fun hnone => ?uncommitted, fun c hc => ?committed⟩⟩⟩
  case destage =>
    obtain ⟨htakes, hidle⟩ := exec_destage hm hup hon
    refine ⟨htakes, hidle, fun e he => ?_⟩
    obtain ⟨hmem, hmay, hclass⟩ := nextDestage_cases he
    obtain ⟨hpun, hopen, -⟩ := mayDestage_iff.mp hmay
    refine ⟨hmem, hpun, fun hclosed => hopen.resolve_left (not_not.mpr hclosed), fun hnormal hnot x hx hj hwaits => ?_⟩
    have hheld := hclass.resolve_left (by simp [hnormal]) x hx hj
    by_contra hfree
    have hmayx : s.mayDestage m x = true := mayDestage_iff.mpr
      ⟨hwaits, .inl hnot, fun y hy hl => by_contra fun hp => hfree ⟨y, hy, hl, hp⟩⟩
    rw [hheld] at hmayx
    cases hmayx
  case programmed =>
    obtain ⟨hok, -⟩ := exec_programComplete_entry hup hon he
    have hmem := List.mem_of_find?_eq_some he
    refine ⟨_, hok, ?_⟩
    rw [followGc_flash, programmed_eq]
    dsimp only
    refine ⟨?_, fun x hx hw hpun => ?_, fun hopen => ?_, fun hdone => ?_⟩
    · rw [settleWrite_units]
      exact (Tbl.find_set ..).trans (if_pos rfl)
    · exact mem_settleWrite (List.mem_map.mpr ⟨x, hx, programmedAt_ne hpun⟩) hw
    · rw [programEntry_waits hopen]
      exact ⟨rfl, rfl, rfl⟩
    · rw [programEntry_ends hmem hdone, programEntry_endWrite]
      refine ⟨fun x hx => ?_, fun l hl => ?_, fun hnodup x hx => ?_, fun hfits => ?_⟩
      · rw [remapGroup_wbuf] at hx
        simpa using (List.mem_filter.mp hx).2
      · refine remapGroup_entry (fun y hy hk => ?_) (.inr rfl)
        obtain ⟨z, hz, rfl⟩ := List.mem_map.mp hy
        exact absurd hk (hl z hz)
      · refine remapGroup_entry (fun y hy hk => ?_) (.inl ⟨_, List.mem_map_of_mem hx, rfl⟩)
        obtain ⟨z, hz, rfl⟩ := List.mem_map.mp hy
        rw [List.inj_on_of_nodup_map hnodup hz hx hk]
        rfl
      · have hsome : (s.flash.wbuf.filter fun x => x.write == e.write).map WbEntry.mapChange ≠ [] :=
          List.ne_nil_of_mem (List.mem_map_of_mem (List.mem_filter.mpr ⟨hmem, beq_self_eq_true e.write⟩))
        have hrecords := remapGroup_records (f := { s.flash.programEntry pun e with
          wbuf := (s.flash.programEntry pun e).wbuf.filter fun x => x.write ≠ e.write }) hsome (by rwa [List.length_map])
        rw [groupRecords_mapChange] at hrecords
        exact hrecords
  case failed =>
    obtain ⟨-, hfail⟩ := exec_programComplete_entry hup hon he
    exact ⟨_, hfail, (retireBlock_stored _ _ (by decide)).trans (stored_count_self ..),
      retireBlock_wbuf (s.count oProgramFails 1) _,
      retireBlock_retiredIn (s.count oProgramFails 1) _, retireBlock_unused (s := s.count oProgramFails 1)⟩
  case erased =>
    obtain ⟨hok, -⟩ := exec_eraseComplete_erasing hup hon huse
    refine ⟨_, hok, ?_⟩
    rw [followPools_flash]
    refine ⟨?_, ?_, ?_, rfl, fun u hu => by simpa using (List.mem_filter.mp hu).2⟩ <;> rw [Tbl.get_set_self]
  case eraseFailed =>
    obtain ⟨-, hfail⟩ := exec_eraseComplete_erasing hup hon huse
    have hretired := retireBlock_retiredIn (s.count oEraseFails 1) b
    exact ⟨_, hfail, hretired.trans (congrArg _ (if_neg (by rw [State.count_flash, huse]; decide))),
      (retireBlock_stored _ _ (by decide)).trans (stored_count_self ..), retireBlock_unused (s := s.count oEraseFails 1)⟩
  case flush =>
    refine ⟨_, exec_eraseComplete_flush hup hon huse herasing hblock hflush hnew, rfl, ?_, rfl, by rw [Tbl.get_set_self]⟩
    simp [← decide_not]
  case read =>
    intro b target source
    obtain ⟨hmap, huse, hunread⟩ := readUnit_kept s pun step
    refine ⟨_, exec_nandReadComplete hup hon hunit step, ?_⟩
    by_cases hreserved : (s.flash.isBlock b && s.flash.isReserved b) = true
    · rw [if_pos hreserved]
      obtain ⟨hhard, hretry, hsoft, hfail⟩ := countDecode_stored s step
      exact ⟨hhard, hretry, hsoft, hfail, fun _ _ => rfl, fun hnot => by simp [hnot] at hreserved⟩
    · rw [if_neg hreserved]
      have hstored : ∀ key ∈ [oCorHard, oCorRetry, oCorSoft, oUncorrectable],
          (s.readOutcome pun step u.lpn).stored key = (s.countDecode step).stored key :=
        fun key hkey => readOutcome_stored u.lpn (decodeKeys_kept key hkey)
      obtain ⟨hhard, hretry, hsoft, hfail⟩ := countDecode_stored s step
      refine ⟨(hstored _ (by decide)).trans hhard, (hstored _ (by decide)).trans hretry, (hstored _ (by decide)).trans hsoft,
        (hstored _ (by decide)).trans hfail, fun hblock hres => absurd (by rw [hblock, hres]; rfl) hreserved, fun _ => ?_⟩
      refine ⟨fun htarget hsource => readOutcome_plain u.lpn htarget hsource, fun htarget hstep => ?_,
        fun htarget hstep hlive => ?_,
        fun htarget hsource hstep => ?_, fun htarget hsource hstep => ?_⟩
      · rw [readOutcome_verifies u.lpn htarget hstep]
        exact ⟨fun c hc hdst => markCopies_marked _ (q := Copy.verified) (fun _ _ => rfl) c hc (by simp [hdst]), hmap⟩
      · rw [readOutcome_retires u.lpn htarget hstep, retireBlock_counted (by rw [huse]; exact hlive)]
        exact congrArg (· + 1) ((hunread _).trans (countDecode_retiredBlocks s step))
      · rw [readOutcome_reads u.lpn htarget hsource hstep]
        exact ⟨fun c hc hsrc => markCopies_marked _ (q := Copy.read) (fun _ _ => rfl) c hc (by simp [hsrc]), hmap⟩
      · rw [readOutcome_loses u.lpn htarget hsource hstep]
        exact loses_spec (s.readUnit pun step) pun u.lpn b (s.flash.valid pun)
  case uncommitted =>
    refine exec_unitCopyCommit_none hup hon (List.find?_eq_none.mpr fun c hc => ?_)
    by_cases hsrc : c.src = src
    · simp [hnone c hc hsrc]
    · simp [hsrc]
  case committed =>
    refine ⟨_, exec_unitCopyCommit_some hup hon hc, ?_⟩
    rw [followGc_flash, afterMove_flash]
    dsimp only
    refine ⟨fun x hx => ?_, fun hnames => commitCopy_commits hnames, fun hmoved => ?_⟩
    · rw [commitCopy_copies] at hx
      simpa using (List.mem_filter.mp hx).2
    · rw [FlashSt.commitCopy, if_neg hmoved]
      exact ⟨rfl, rfl⟩
end

section
/-! Namespaces created, deleted, attached and formatted (R280, R335 to R337, R449), and firmware downloaded and committed (R335,
R454, R460). -/

namespace Sys2Proof.Machine

open Sys2Proof

/-! ## Create (R280, R336, R337) -/

/-- R280: extents that no namespace holds never run out. -/
theorem freeExtents_length (s : State) (n : Nat) : (s.freeExtents n).length = n := by
  have hsplit := List.length_eq_length_filter_add (l := List.range (s.host.extents.length + n)) fun e => !s.host.extents.contains e
  have hheld : ((List.range (s.host.extents.length + n)).filter fun e => !!s.host.extents.contains e).length ≤
      s.host.extents.length :=
    (List.nodup_range.filter _).length_le_of_subset fun e he => by simpa using (List.mem_filter.mp he).2
  rw [List.length_range] at hsplit
  rw [State.freeExtents, List.length_take]
  omega

theorem freeExtents_free (s : State) (n : Nat) : ∀ e ∈ s.freeExtents n, e ∉ s.host.extents := fun e he => by
  simpa using (List.mem_filter.mp (List.mem_of_mem_take he)).2

theorem addNamespace_ns (s : State) (k g : Nat) (x : Namespace) :
    (s.addNamespace k g x).ns k = some { x with extents := s.freeExtents g, key := s.host.keyGen } := by
  unfold State.addNamespace State.settleSpares
  rw [ns_of_nss (followPools_nss _), State.ns, Tbl.find_set, if_pos rfl]

theorem addNamespace_attached (s : State) (k g : Nat) (x : Namespace) : k ∈ (s.addNamespace k g x).host.attached := by
  unfold State.addNamespace State.settleSpares
  rw [attached_of_aside (followPools_aside _)]
  exact List.mem_append_right _ List.mem_cons_self

theorem createNamespace_refused {s : State} {c : NvmeCmd} (h : fieldAt c.data 0 8 ≠ fieldAt c.data 8 8 ∨ 2 ≤ fieldAt c.data 3072 1 ∨
    (fieldAt c.data 3072 1 = 1 ∧ s.stored oJournalGrant ≤ s.journals)) : s.createNamespace c = s.nvmeErr c 0 0x02 := by
  unfold State.createNamespace
  dsimp only
  split
  · rfl
  · rename_i hform
    rw [if_pos]
    simp only [Bool.or_eq_true, decide_eq_true_eq] at hform
    simpa using (h.resolve_left fun h => hform (.inl h)).resolve_left fun h => hform (.inr h)

theorem createNamespace_creates {s : State} {c : NvmeCmd} {k : Nat} (hsize : fieldAt c.data 0 8 = fieldAt c.data 8 8)
    (hcls : fieldAt c.data 3072 1 = 0 ∨ (fieldAt c.data 3072 1 = 1 ∧ s.journals < s.stored oJournalGrant))
    (hroom : s.createCheck (ceilDiv (fieldAt c.data 0 8) 262144) = .ok k) : s.createNamespace c =
      (s.addNamespace k (ceilDiv (fieldAt c.data 0 8) 262144)
        { cls := fieldAt c.data 3072 1, tenant := fieldAt c.data 3076 4 }).nvmeOk c k [] := by
  have hform : ¬ (fieldAt c.data 0 8 ≠ fieldAt c.data 8 8 || decide (2 ≤ fieldAt c.data 3072 1)) = true := by
    simp [hsize]
    omega
  have hgrant : ¬ (fieldAt c.data 3072 1 = 1 && decide (s.stored oJournalGrant ≤ s.journals)) = true := by
    simp
    omega
  unfold State.createNamespace
  dsimp only
  rw [if_neg hform, if_neg hgrant, hroom]

/-! ## Delete and attach (R280, R335) -/

theorem updCorpus_ns_ne (s : State) {nsid k : Nat} (hk : k ≠ nsid) (f : Corpus → Corpus) : (s.updCorpus nsid f).ns k = s.ns k := by
  unfold State.updCorpus
  split
  · exact (State.ns_setNs ..).trans (if_neg hk)
  · rfl

/-- R340: an open sample that ends changes the record of its own namespace alone. -/
theorem endSample_ns_ne (s : State) {nsid k : Nat} (hk : k ≠ nsid) (idx status : Nat) :
    (s.endSample nsid idx status).ns k = s.ns k := by
  have hclosed : ∀ o : Option Nat, (s.closeSample nsid idx status o).ns k = s.ns k := fun o => by
    have hcorpus := (updCorpus_ns_ne (s.endIngestJob nsid idx status) hk fun c => { c with open_ := Tbl.del c.open_ idx }).trans
      (ns_of_nss (endIngestJob_nss s nsid idx status) k)
    cases o <;> exact hcorpus
  unfold State.endSample
  split
  · rfl
  · split
    · rfl
    case h_2 o _ =>
      dsimp only
      split
      · exact (ns_of_nss (nss_of_work (vendorDone_work _ _ _ _ _)) k).trans (hclosed o.stream)
      · exact hclosed o.stream

/-- R280, R340: the open samples of a namespace that is deleted end. -/
def State.endOpenSamples (s : State) (nsid : Nat) (x : Namespace) : State :=
  match x.corpus with
  | some c => c.open_.foldl (fun (s : State) (o : Nat × OpenSample) => s.endSample nsid o.1 stNsNotReady) s
  | none => s

theorem endOpenSamples_ns_ne (s : State) {nsid k : Nat} (hk : k ≠ nsid) (x : Namespace) :
    (s.endOpenSamples nsid x).ns k = s.ns k := by
  unfold State.endOpenSamples
  split
  · exact List.foldlRecOn (motive := fun u : State => u.ns k = s.ns k) _ _ rfl fun u hu o _ => (endSample_ns_ne u hk o.1 _).trans hu
  · rfl

theorem dropNamespace_eq (s : State) (nsid : Nat) (x : Namespace) : ∃ bands, s.dropNamespace nsid x =
    State.settleSpares { (s.endOpenSamples nsid x).dropPages x with
      bands := bands
      host := { ((s.endOpenSamples nsid x).dropPages x).host with
        nss := Tbl.del ((s.endOpenSamples nsid x).dropPages x).host.nss nsid
        extents := ((s.endOpenSamples nsid x).dropPages x).host.extents.filter (fun e => !x.extents.contains e)
        attached := ((s.endOpenSamples nsid x).dropPages x).host.attached.filter (· ≠ nsid) } } := ⟨_, rfl⟩

/-- R280, R335: namespace nsid of s has gone in u and is not attached, and every other namespace is as it was. -/
structure State.Dropped (s : State) (nsid : Nat) (u : State) : Prop where
  /-- R280: the namespace has gone. -/
  gone : u.ns nsid = none
  /-- R280: the others have not changed. -/
  kept : ∀ k, k ≠ nsid → u.ns k = s.ns k
  /-- R335: it is not attached. -/
  detached : nsid ∉ u.host.attached

theorem State.Dropped.trans {s u v : State} {nsid : Nat} (h : s.Dropped nsid u) (h' : u.Dropped nsid v) : s.Dropped nsid v :=
  ⟨h'.gone, fun k hk => (h'.kept k hk).trans (h.kept k hk), h'.detached⟩

theorem dropNamespace_dropped (s : State) (nsid : Nat) (x : Namespace) : s.Dropped nsid (s.dropNamespace nsid x) := by
  obtain ⟨bands, hdrop⟩ := dropNamespace_eq s nsid x
  refine ⟨?_, fun k hk => ?_, ?_⟩ <;> rw [hdrop, State.settleSpares]
  · rw [ns_of_nss (followPools_nss _), State.ns, Tbl.find_del, if_pos rfl]
  · rw [ns_of_nss (followPools_nss _), State.ns, Tbl.find_del, if_neg hk]
    exact endOpenSamples_ns_ne s hk x
  · rw [attached_of_aside (followPools_aside _)]
    simp

/-- R280, R335: every entry of an NSID is deleted. -/
theorem foldl_dropNamespace_dropped {nsid : Nat} {l : List (Nat × Namespace)} (hnsid : ∀ x ∈ l, x.1 = nsid) (hsome : l ≠ [])
    (s : State) : s.Dropped nsid (l.foldl (fun (s : State) x => s.dropNamespace x.1 x.2) s) := by
  induction l generalizing s with
  | nil => exact absurd rfl hsome
  | cons x l ih =>
    have hfirst : s.Dropped nsid (s.dropNamespace x.1 x.2) := hnsid x List.mem_cons_self ▸ dropNamespace_dropped s x.1 x.2
    rw [List.foldl_cons]
    cases l with
    | nil =>
      rw [List.foldl_nil]
      exact hfirst
    | cons y r =>
      have hrest := ih (fun z hz => hnsid z (List.mem_cons_of_mem _ hz)) (List.cons_ne_nil y r) (s.dropNamespace x.1 x.2)
      exact hfirst.trans hrest

theorem named_one {s : State} {nsid : Nat} (h : nsid ≠ 0xFFFFFFFF) :
    s.named nsid = s.host.nss.filter fun x => x.1 == nsid := if_neg h

/-- R335: an NSID in use names a namespace. -/
theorem named_ne_nil {s : State} {nsid : Nat} {x : Namespace} (h : nsid ≠ 0xFFFFFFFF) (hx : s.ns nsid = some x) :
    s.named nsid ≠ [] := by
  rw [named_one h]
  exact List.ne_nil_of_mem (List.mem_filter.mpr ⟨Tbl.mem_of_find hx, beq_self_eq_true nsid⟩)

section Rows

variable {s : State} {c : NvmeCmd} (h : s.TakesCommand true c)
include h

theorem exec_namespaceManagement_create (hsel : bits c.cdw10 3 0 = 0) :
    exec (.namespaceManagement c) s = .next ((s.nvmeTake c).createNamespace c) := by
  have hrow : exec (.namespaceManagement c) s = execNamespaceManagement c s := rfl
  rw [hrow, execNamespaceManagement, nvmeRun_takes _ h, hsel]
  rfl

theorem exec_namespaceManagement_delete (hsel : bits c.cdw10 3 0 = 1) (hone : c.nsid ≠ 0xFFFFFFFF) :
    exec (.namespaceManagement c) s = .next (if (s.nvmeTake c).named c.nsid = [] then (s.nvmeTake c).nvmeErr c 0 0x0B
      else (((s.nvmeTake c).named c.nsid).foldl (fun (s : State) x => s.dropNamespace x.1 x.2) (s.nvmeTake c)).nvmeOk c 0 []) := by
  have hrow : exec (.namespaceManagement c) s = execNamespaceManagement c s := rfl
  rw [hrow, execNamespaceManagement, nvmeRun_takes _ h, hsel]
  dsimp only
  simp [hone]

theorem exec_namespaceAttachment_unknown (hns : (s.nvmeTake c).ns c.nsid = none) :
    exec (.namespaceAttachment c) s = .next ((s.nvmeTake c).nvmeErr c 0 0x0B) := by
  have hrow : exec (.namespaceAttachment c) s = execNamespaceAttachment c s := rfl
  rw [hrow, execNamespaceAttachment, nvmeRun_takes _ h]
  dsimp only
  rw [hns]
  rfl

/-- R335: SEL 0 attaches a namespace that is not attached, and SEL 1 detaches one that is. -/
theorem exec_namespaceAttachment (hns : ((s.nvmeTake c).ns c.nsid).isSome = true) :
    (bits c.cdw10 3 0 = 0 → exec (.namespaceAttachment c) s = .next (
      if c.nsid ∈ (s.nvmeTake c).host.attached then (s.nvmeTake c).nvmeErr c 1 0x18
      else State.nvmeOk { s.nvmeTake c with host := { (s.nvmeTake c).host with
        attached := (s.nvmeTake c).host.attached ++ [c.nsid] } } c 0 [])) ∧
    (bits c.cdw10 3 0 = 1 → exec (.namespaceAttachment c) s = .next (
      if c.nsid ∉ (s.nvmeTake c).host.attached then (s.nvmeTake c).nvmeErr c 1 0x1A
      else State.nvmeOk { s.nvmeTake c with host := { (s.nvmeTake c).host with
        attached := (s.nvmeTake c).host.attached.filter (· ≠ c.nsid) } } c 0 [])) := by
  have hrow : exec (.namespaceAttachment c) s = execNamespaceAttachment c s := rfl
  rw [hrow, execNamespaceAttachment, nvmeRun_takes _ h]
  dsimp only
  obtain ⟨x, hx⟩ := Option.isSome_iff_exists.mp hns
  rw [hx, if_neg (by simp)]
  refine ⟨fun hsel => ?_, fun hsel => ?_⟩
  · rw [hsel]
    simp
  · rw [hsel]
    simp

end Rows

/-! ## Format (R335, R449) -/

/-- R280, R336: after the pages of a namespace are deallocated, each of them reads as zeros. -/
theorem dealloc_lpnsOf_page (s : State) {x : Namespace} {i l : Nat} (hl : x.lpn i = some l) :
    (s.flash.dealloc (s.lpnsOf x)).page l = some (zeros 4096) := by
  have hmine : x.extents.contains (l / 262144) = true := by
    obtain ⟨e, he, rfl⟩ := Option.map_eq_some_iff.mp hl
    have hextent : (e * 262144 + i % 262144) / 262144 = e := by omega
    rw [hextent]
    simpa using List.mem_of_getElem? he
  by_cases hmem : l ∈ s.lpnsOf x
  · exact dealloc_page _ hmem
  · have hidle : l ∉ s.flash.map.map Prod.fst ++ s.flash.wbuf.map WbEntry.lpn := fun hin =>
      hmem (List.mem_eraseDups.mpr (List.mem_filter.mpr ⟨hin, hmine⟩))
    rw [List.mem_append, not_or] at hidle
    obtain ⟨hmap, hbuf⟩ := hidle
    refine dealloc_page_free ⟨fun e he hk => hbuf (List.mem_map.mpr ⟨e, he, hk⟩), ?_⟩ (s.lpnsOf x)
    cases hfind : Tbl.find s.flash.map l with
    | none => exact get_of_find_none hfind lpnUnmapped
    | some v => exact absurd (List.mem_map.mpr ⟨_, Tbl.mem_of_find hfind, rfl⟩) hmap

/-- R335, R449: a formatted namespace after SES 2 has the next media key. -/
theorem formatOne_ns (s : State) (x : Nat × Namespace) :
    ((s.formatOne true x).ns x.1).map Namespace.key = some s.host.keyGen := by
  rw [State.formatOne, if_pos rfl, State.ns, Tbl.find_set, if_pos rfl]
  rfl

theorem freePages_page (s : State) (ls : List Nat) (l : Nat) : (s.freePages ls).flash.page l = (s.flash.dealloc ls).page l := by
  unfold State.freePages
  exact page_congr rfl rfl rfl

theorem formatOne_flash (s : State) (erase : Bool) (x : Nat × Namespace) :
    (s.formatOne erase x).flash = (s.freePages (s.lpnsOf x.2)).flash := by
  unfold State.formatOne
  cases erase <;> rfl

theorem followPools_page (s : State) (l : Nat) : s.followPools.flash.page l = s.flash.page l := by
  have hbuf : s.followPools.flash.buffered l = s.flash.buffered l := by
    rw [FlashSt.buffered, followPools_flash]
    rfl
  exact page_congr hbuf (by rw [followPools_flash]) (by rw [followPools_flash])

section FormatRow

variable {s : State} {c : NvmeCmd} (h : s.TakesCommand true c)
include h

theorem exec_formatNvm_unknown (hnone : (s.nvmeTake c).named c.nsid = []) :
    exec (.formatNvm c) s = .next ((s.nvmeTake c).nvmeErr c 0 0x0B) := by
  have hrow : exec (.formatNvm c) s = execFormatNvm c s := rfl
  rw [hrow, execFormatNvm, nvmeRun_takes _ h]
  dsimp only
  rw [hnone]
  rfl

variable {x : Namespace} (hone : (s.nvmeTake c).named c.nsid = [(c.nsid, x)])
include hone

/-- R342: a CORPUS namespace is not formatted. -/
theorem exec_formatNvm_corpus (hcls : x.cls = 2) : exec (.formatNvm c) s = .next ((s.nvmeTake c).nvmeErr c 0 0x02) := by
  have hrow : exec (.formatNvm c) s = execFormatNvm c s := rfl
  rw [hrow, execFormatNvm, nvmeRun_takes _ h]
  dsimp only
  rw [hone, if_neg (by simp), if_pos (by simp [hcls])]

theorem exec_formatNvm (hcls : x.cls ≠ 2) (hsel : bits c.cdw10 3 0 = 0) (hses : bits c.cdw10 11 9 = 0 ∨ bits c.cdw10 11 9 = 2)
    (hdom : (s.nvmeTake c).domOff 2 = false) (hscrub : (s.nvmeTake c).scrubs x.tenant = false)
    (hro : (s.nvmeTake c).flash.readOnly = false) : exec (.formatNvm c) s =
      .next (((s.nvmeTake c).formatOne (bits c.cdw10 11 9 == 2) (c.nsid, x)).followPools.nvmeOk c 0 []) := by
  have hrow : exec (.formatNvm c) s = execFormatNvm c s := rfl
  have hknown : (bits c.cdw10 11 9 == 0 || bits c.cdw10 11 9 == 2) = true := by simpa using hses
  rw [hrow, execFormatNvm, nvmeRun_takes _ h]
  dsimp only
  rw [hone, if_neg (by simp), hknown, if_neg (by simp [hcls]), if_neg (by simp [hsel]), if_neg (by simp [hdom, hscrub]),
    if_neg (by simp [hro])]
  rfl

end FormatRow

/-! ## Firmware (R335, R454, R460) -/

/-- R460: the image of a commit: the downloaded one, or that of the slot for action 2, or for action 3 without a download. -/
def State.commitImage (s : State) (k action : Nat) : Bytes :=
  if action = 2 ∨ (action = 3 ∧ s.host.fwLen = 0) then (Tbl.get s.sec.fw {} k).image
  else Memory.readN s.host.fwBuf 0 s.host.fwLen

theorem commitImage_eq (s : State) (k action : Nat) :
    (if action ≠ 2 && !(action = 3 && s.host.fwLen = 0) then Memory.readN s.host.fwBuf 0 s.host.fwLen
      else (Tbl.get s.sec.fw {} k).image) = s.commitImage k action := by
  have hfresh : (action ≠ 2 && !(action = 3 && s.host.fwLen = 0)) = true ↔ ¬ (action = 2 ∨ (action = 3 ∧ s.host.fwLen = 0)) := by
    simp [imp_iff_not_or]
  rw [if_congr hfresh rfl rfl, ite_not, State.commitImage]

/-- R460: slot k keeps an image with its security version, and the download is used up. -/
def State.keepFirmware (s : State) (k : Nat) (b : Bytes) (v : Nat) : State :=
  { s with sec := { s.sec with fw := Tbl.set s.sec.fw k { image := b, svn := v, version := (Config.fwVersionOf b).toNat } }
           host := { s.host with fwBuf := [], fwLen := 0 } }

theorem stage_fw (s : State) (k action : Nat) : (s.stage k action).sec.fw = s.sec.fw := by
  unfold State.stage
  split <;> rfl

theorem stage_commit (s : State) (k action : Nat) :
    (s.stage k action).sec.commit = if action = 0 then s.sec.commit else some k := by
  unfold State.stage
  split <;> rfl

section FirmwareRow

variable {s : State} {c : NvmeCmd} (h : s.TakesCommand true c)
include h

theorem exec_firmwareImageDownload : exec (.firmwareImageDownload c) s = .next (
    if 262144 < 4 * (c.cdw10 + 1) then (s.nvmeTake c).nvmeErr c 0 0x02
    else State.nvmeOk { s.nvmeTake c with host := { (s.nvmeTake c).host with
      fwBuf := Memory.writeN (s.nvmeTake c).host.fwBuf (4 * c.cdw11) (sliceZ c.data 0 (4 * (c.cdw10 + 1)))
      fwLen := max (s.nvmeTake c).host.fwLen (4 * c.cdw11 + 4 * (c.cdw10 + 1)) } } c 0 []) := by
  have hrow : exec (.firmwareImageDownload c) s = execFirmwareImageDownload c s := rfl
  rw [hrow, execFirmwareImageDownload, nvmeRun_takes _ h]

/-- R335, R454, R460: a commit of an image that the enclave does not accept, and of one that it accepts. -/
theorem exec_firmwareCommit (hrm : s.rmRuns 2 = true) (hstep : s.sys.step = 0) (haction : bits c.cdw10 5 3 ≤ 3) {k : Nat}
    (hk : (s.nvmeTake c).commitSlot (bits c.cdw10 2 0) = some k) :
    ((s.nvmeTake c).acceptFirmware ((s.nvmeTake c).commitImage k (bits c.cdw10 5 3)) = none →
      exec (.firmwareCommit c) s = .next ((s.nvmeTake c).nvmeErr c 1 0x07)) ∧
    ∀ v, (s.nvmeTake c).acceptFirmware ((s.nvmeTake c).commitImage k (bits c.cdw10 5 3)) = some v →
      let u := ((s.nvmeTake c).keepFirmware k ((s.nvmeTake c).commitImage k (bits c.cdw10 5 3)) v).stage k (bits c.cdw10 5 3)
      exec (.firmwareCommit c) s = if bits c.cdw10 5 3 = 3 ∧ (s.nvmeTake c).sec.scrub = none then
        .next ((u.nvmeOk c 0 []).beginWarm 4) else .next (u.nvmeOk c 0 []) := by
  have hrow : exec (.firmwareCommit c) s = execFirmwareCommit c s := rfl
  have hfresh := commitImage_eq (s.nvmeTake c) k (bits c.cdw10 5 3)
  rw [hrow, execFirmwareCommit, whenRm_runs _ h.up hrm (.inl hstep), nvmeRun_takes _ h]
  dsimp only
  rw [if_neg (Nat.not_lt.mpr haction), hk]
  dsimp only
  rw [hfresh]
  refine ⟨fun hnone => by rw [hnone], fun v hv => ?_⟩
  rw [hv]
  dsimp only
  by_cases hnow : bits c.cdw10 5 3 = 3 ∧ (s.nvmeTake c).sec.scrub = none
  · rw [if_pos hnow, if_pos (by simpa using hnow)]
    rfl
  · rw [if_neg hnow, if_neg (by simpa using hnow)]
    rfl

end FirmwareRow

end Sys2Proof.Machine

open Sys2Proof Sys2Proof.Machine in
/-- Settles O28: one equation per branch of each row, and what a create, a delete and a format make of the namespaces and of their
pages. The slots and the action 3 of a commit (log entry 126), and what a format does (log entry 125), are the model's choice. -/
theorem namespacesAndFirmware : Obligations.NamespacesAndFirmware := by
  intro s c t sel h
  refine ⟨fun hsel hbad => ?_, fun k hsel hsize hcls hroom => ?create, fun x hsel hone hx => ?delete, fun hnone hone => ?unknown,
    exec_namespaceAttachment_unknown h, fun hns => ?attach, fun x hone hcls hsel hses hdom hscrub hro => ?format,
    fun x hone hcls => exec_formatNvm_corpus h hone hcls, fun hlong => ?tooLong, fun hshort => ?download,
    fun hrm hstep haction k hk => ?commit⟩
  · rw [exec_namespaceManagement_create h hsel, createNamespace_refused hbad]
  case create =>
    have hcreates := createNamespace_creates hsize hcls hroom
    refine ⟨_, _, (exec_namespaceManagement_create h hsel).trans (congrArg _ hcreates), addNamespace_ns .., freeExtents_length ..,
      freeExtents_free t _, rfl, rfl, rfl, addNamespace_attached ..⟩
  case delete =>
    have hdropped := foldl_dropNamespace_dropped (nsid := c.nsid) (l := t.named c.nsid)
      (by rw [named_one hone]; exact fun y hy => by simpa using (List.mem_filter.mp hy).2) (named_ne_nil hone hx) t
    exact ⟨_, (exec_namespaceManagement_delete h hsel hone).trans (congrArg _ (if_neg (named_ne_nil hone hx))), hdropped.gone,
      hdropped.kept, hdropped.detached⟩
  case unknown =>
    exact ⟨fun hsel => (exec_namespaceManagement_delete h hsel hone).trans (congrArg _ (if_pos hnone)),
      exec_formatNvm_unknown h hnone⟩
  case attach =>
    obtain ⟨hattach, hdetach⟩ := exec_namespaceAttachment h hns
    exact ⟨fun hsel hon => (hattach hsel).trans (congrArg _ (if_pos hon)),
      fun hsel hoff => (hdetach hsel).trans (congrArg _ (if_pos hoff)),
      fun hsel hoff => (hattach hsel).trans (congrArg _ (if_neg hoff)),
      fun hsel hon => ⟨_, (hdetach hsel).trans (congrArg _ (if_neg (not_not.mpr hon))), by simp⟩⟩
  case format =>
    refine ⟨_, exec_formatNvm h hone hcls hsel hses hdom hscrub hro, fun i l hl => ?_, fun herase => ?_⟩
    · rw [followPools_page, formatOne_flash, freePages_page]
      exact dealloc_lpnsOf_page t hl
    · rw [ns_of_nss (followPools_nss _), herase]
      exact formatOne_ns t (c.nsid, x)
  case tooLong => rw [exec_firmwareImageDownload h, if_pos hlong]
  case download =>
    refine ⟨_, (exec_firmwareImageDownload h).trans (congrArg _ (if_neg (Nat.not_lt.mpr hshort))), fun i hi => ?_⟩
    dsimp only
    rw [Memory.read_writeN, sliceZ_length, if_pos (by omega), Nat.add_sub_cancel_left]
  case commit =>
    obtain ⟨hrefused, haccepted⟩ := exec_firmwareCommit h hrm hstep haction hk
    refine ⟨hrefused, fun v hv => ⟨_, haccepted v hv, ?_, ?_, stage_commit ..⟩⟩
    · rw [stage_fw]
      exact congrArg FwSlot.image (Tbl.get_set_self ..)
    · rw [stage_fw]
      exact congrArg FwSlot.svn (Tbl.get_set_self ..)
end

section
/-! Byte strings that are put together: the fields of a concatenation and of a patched structure (R4, R335). -/

namespace Sys2Proof.Machine

open Sys2Proof

theorem fieldAt_append_left {a : Bytes} {o n : Nat} (h : o + n ≤ a.length) (b : Bytes) : fieldAt (a ++ b) o n = fieldAt a o n := by
  rw [fieldAt, fieldAt, List.drop_append_of_le_length (by omega), List.take_append_of_le_length (by rw [List.length_drop]; omega)]

theorem fieldAt_append_right {a : Bytes} {k : Nat} (h : a.length = k) (b : Bytes) (i n : Nat) :
    fieldAt (a ++ b) (k + i) n = fieldAt b i n := by
  rw [fieldAt, fieldAt, ← h, ← List.drop_drop, List.drop_left]

theorem fieldAt_leBytes (n v : Nat) : fieldAt (leBytes n v) 0 n = v % 256 ^ n := by
  rw [fieldAt, List.drop_zero, List.take_of_length_le (leBytes_length n v).le, leNat_leBytes]

theorem zeros_length (n : Nat) : (zeros n).length = n := List.length_replicate

/-- The first field of a structure. -/
theorem fieldAt_leBytes_append {n v : Nat} (h : v < 256 ^ n) (b : Bytes) : fieldAt (leBytes n v ++ b) 0 n = v := by
  rw [fieldAt_append_left (by simp) b, fieldAt_leBytes, Nat.mod_eq_of_lt h]

end Sys2Proof.Machine
end

section
/-! The CXL device commands and configuration requests (R309, R312, R328, R453, R517): what stands behind the link, and what each
command is answered. -/

namespace Sys2Proof.Machine

open Sys2Proof

/-! ## Configuration requests (R517) -/

/-- The bits of a value that a mask clears by subtraction. -/
theorem testBit_sub_and (n m i : Nat) : (n - (n &&& m)).testBit i = (n.testBit i && !m.testBit i) := by
  induction i generalizing n m with
  | zero =>
    have hle : n &&& m ≤ n := Nat.and_le_left
    have hand : (n &&& m) % 2 = 1 ↔ n % 2 = 1 ∧ m % 2 = 1 := Nat.and_mod_two_eq_one
    rw [Nat.testBit_zero, Nat.testBit_zero, Nat.testBit_zero, ← decide_not, ← Bool.decide_and]
    exact decide_eq_decide.mpr (by omega)
  | succ i ih =>
    have hle : n &&& m ≤ n := Nat.and_le_left
    have hand : (n &&& m) % 2 = 1 ↔ n % 2 = 1 ∧ m % 2 = 1 := Nat.and_mod_two_eq_one
    have hhalf : (n - (n &&& m)) / 2 = n / 2 - (n / 2 &&& m / 2) := by
      rw [← Nat.and_div_two]
      omega
    rw [Nat.testBit_add_one, Nat.testBit_add_one, Nat.testBit_add_one, hhalf, ih]

theorem cfgWord_cfgWrite_self (s : State) (a v : Nat) : (s.cfgWrite a v).cfgWord a =
    (s.cfgWord a - (s.cfgWord a &&& (Config.configMask a).toNat)) ||| (v % 2 ^ 32 &&& (Config.configMask a).toNat) := by
  rw [State.cfgWord, State.cfgWrite, Tbl.find_set, if_pos rfl, Option.getD_some]

theorem cfgWord_cfgWrite_ne (s : State) {a b : Nat} (h : b ≠ a) (v : Nat) : (s.cfgWrite a v).cfgWord b = s.cfgWord b := by
  rw [State.cfgWord, State.cfgWrite, Tbl.find_set, if_neg h, State.cfgWord]

/-- R517: a write changes the bits of the mask. -/
theorem cfgWord_cfgWrite_bit (s : State) (a v : Nat) {i : Nat} (hi : i < 32) : bit ((s.cfgWrite a v).cfgWord a) i =
    if bit (Config.configMask a).toNat i then bit v i else bit (s.cfgWord a) i := by
  rw [cfgWord_cfgWrite_self]
  unfold bit
  rw [Nat.testBit_or, testBit_sub_and, Nat.testBit_and, Nat.testBit_mod_two_pow]
  cases (Config.configMask a).toNat.testBit i <;> simp [hi]

theorem exec_configRequest_eq (a : Nat) (w : Option Nat) (s : State) : exec (.configRequest a w) s = execConfigRequest a w s := rfl

theorem exec_configRequest_reset {s : State} (h : s.sys.inReset = true ∨ s.host.perst = true) (a : Nat) (w : Option Nat) :
    exec (.configRequest a w) s = .next s := by
  rw [exec_configRequest_eq, execConfigRequest, if_pos (by simpa using h)]

theorem exec_configRequest_retry {s : State} (hreset : s.sys.inReset = false) (hperst : s.host.perst = false)
    (hloaded : s.host.cfgLoaded = false) (a : Nat) (w : Option Nat) :
    exec (.configRequest a w) s = .next (s.emit (.cfg true 0)) := by
  rw [exec_configRequest_eq, execConfigRequest, if_neg (by simp [hreset, hperst]), if_pos (by simp [hloaded])]

/-! ## Payloads (R309, R312, R328) -/

/-- R309, R312: the answer to IDENTIFY_MEMORY_DEVICE: a payload of the standard with the total, volatile and persistent capacity. -/
def memoryIdentity (p : Bytes) (v : Nat) : Bytes := p.take 16 ++ leBytes 8 v ++ leBytes 8 v ++ zeros 8 ++ p.drop 40

section Identity

variable {p : Bytes} (hp : p.length = 69) (v : Nat)
include hp

theorem memoryIdentity_length : (memoryIdentity p v).length = 69 := by
  simp [memoryIdentity, zeros_length, hp]

/-- R309, R312: the whole capacity is volatile. -/
theorem memoryIdentity_fields : fieldAt (memoryIdentity p v) 32 8 = 0 ∧
    (v < 2 ^ 64 → fieldAt (memoryIdentity p v) 16 8 = v ∧ fieldAt (memoryIdentity p v) 24 8 = v) := by
  have hhead : (p.take 16).length = 16 := by rw [List.length_take, hp]; rfl
  have hcap : (leBytes 8 v).length = 8 := leBytes_length 8 v
  have hsplit : ∀ b i n, fieldAt (p.take 16 ++ b) (16 + i) n = fieldAt b i n := fieldAt_append_right hhead
  have hskip : ∀ b i n, fieldAt (leBytes 8 v ++ b) (8 + i) n = fieldAt b i n := fieldAt_append_right hcap
  simp only [memoryIdentity, List.append_assoc]
  refine ⟨?_, fun hv => ⟨?_, ?_⟩⟩
  · rw [hsplit _ 16, hskip _ 8, hskip _ 0, fieldAt_append_left (zeros_length 8).ge]
    rfl
  · rw [hsplit _ 0, fieldAt_leBytes_append hv]
  · rw [hsplit _ 8, hskip _ 0, fieldAt_leBytes_append hv]

end Identity

/-- R309, R328: the answer to GET_POISON_LIST: the number of media errors, and a record of each line. -/
def poisonPayload (l : List Nat) : Bytes :=
  zeros 10 ++ leBytes 2 l.length ++ zeros 20 ++ l.flatMap fun a => leBytes 8 a ++ leBytes 4 1 ++ zeros 4

theorem poisonPayload_count (l : List Nat) : fieldAt (poisonPayload l) 10 2 = l.length % 65536 := by
  rw [poisonPayload, List.append_assoc, List.append_assoc]
  exact (fieldAt_append_right (zeros_length 10) _ 0 2).trans
    ((fieldAt_append_left (leBytes_length 2 _).ge _).trans (fieldAt_leBytes 2 l.length))

theorem poisonPayload_records (l : List Nat) :
    (poisonPayload l).drop 32 = l.flatMap fun a => leBytes 8 a ++ leBytes 4 1 ++ zeros 4 := by
  rw [poisonPayload, List.drop_left']
  simp [zeros_length]

theorem freePayload_length (s : State) (op n : Nat) : (s.freePayload op n).1.length = n := sliceZ_length _ _ _

/-! ## Evidence (R452, R453) -/

/-- R452: the evidence for a 44-byte request. -/
def State.evidenceFor (s : State) (req : Bytes) : Bytes :=
  s.evidenceBytes (sliceZ req 0 32) (fieldAt req 32 4) (fieldAt req 36 8)

theorem evidenceCmd_refused {s : State} (hp : s.sec.lc ≠ 2) (hd : s.sec.lc ≠ 3) (req : Bytes) :
    s.evidenceCmd req = .error stKeyRefused := by
  rw [State.evidenceCmd, if_pos (by simp [hp, hd])]

/-- R452, R456: the evidence is kept, and its nonce remembered. -/
theorem evidenceCmd_signs {s : State} (h : s.sec.lc = 2 ∨ s.sec.lc = 3) (req : Bytes) : ∃ l, s.evidenceCmd req =
    .ok { s with sec := { s.sec with evidence := s.evidenceFor req, signed := l } } := by
  rw [State.evidenceCmd, if_neg (by simpa [imp_iff_not_or] using h)]
  exact ⟨_, rfl⟩

/-! ## The rows -/

theorem exec_identifyMemoryDevice_eq (s : State) : exec .identifyMemoryDevice s = execIdentifyMemoryDevice s := rfl
theorem exec_getPartitionInfo_eq (s : State) : exec .getPartitionInfo s = execGetPartitionInfo s := rfl
theorem exec_getHealthInfo_eq (s : State) : exec .getHealthInfo s = execGetHealthInfo s := rfl
theorem exec_getEventRecords_eq (log : Nat) (s : State) : exec (.getEventRecords log) s = execGetEventRecords log s := rfl
theorem exec_clearEventRecords_eq (log k : Nat) (s : State) :
    exec (.clearEventRecords log k) s = execClearEventRecords log k s := rfl
theorem exec_getSupportedLogs_eq (s : State) : exec .getSupportedLogs s = execGetSupportedLogs s := rfl
theorem exec_getLog_eq (data : Bytes) (s : State) : exec (.getLog data) s = execGetLog data s := rfl
theorem exec_getPoisonList_eq (dpa len : Nat) (s : State) : exec (.getPoisonList dpa len) s = execGetPoisonList dpa len s := rfl
theorem exec_spdmVendorRequest_eq (data : Bytes) (s : State) :
    exec (.spdmVendorRequest data) s = execSpdmVendorRequest data s := rfl

/-! ## Behind the link -/

section Link

variable {s : State} (hreset : s.sys.inReset = false) (hperst : s.host.perst = false) (hloaded : s.host.cfgLoaded = true)
include hreset hperst hloaded

theorem exec_configRequest_read (a : Nat) :
    exec (.configRequest a none) s = .next (s.emit (.cfg false (s.cfgWord (a % 4096 / 4 * 4)))) := by
  rw [exec_configRequest_eq, execConfigRequest, if_neg (by simp [hreset, hperst]), if_neg (by simp [hloaded])]

theorem exec_configRequest_write (a v : Nat) :
    exec (.configRequest a (some v)) s = .next ((s.cfgWrite (a % 4096 / 4 * 4) v).emit (.cfg false 0)) := by
  rw [exec_configRequest_eq, execConfigRequest, if_neg (by simp [hreset, hperst]), if_neg (by simp [hloaded])]

/-- R517: a command that reaches the loaded host die runs its meaning. -/
theorem withLink_runs (f : State → State) : withLink s f = .next (f s) := by
  rw [withLink, if_neg (by simp [hreset, hperst, hloaded])]

/-! ## Identity and capacity (R309, R312) -/

theorem exec_identifyMemoryDevice : exec .identifyMemoryDevice s = .next ((s.freePayload 0x4000 69).2.emit
    (.cxlMailbox 0x4000 0 (memoryIdentity (s.freePayload 0x4000 69).1 s.volatile))) := by
  rw [exec_identifyMemoryDevice_eq, execIdentifyMemoryDevice, withLink_runs hreset hperst hloaded]
  rfl

theorem exec_getPartitionInfo :
    exec .getPartitionInfo s = .next (s.emit (.cxlMailbox 0x4100 0 (leBytes 8 s.volatile ++ zeros 24))) := by
  rw [exec_getPartitionInfo_eq, execGetPartitionInfo, withLink_runs hreset hperst hloaded]

theorem exec_getHealthInfo :
    exec .getHealthInfo s = .next ((s.freePayload 0x4200 18).2.emit (.cxlMailbox 0x4200 0 (s.freePayload 0x4200 18).1)) := by
  rw [exec_getHealthInfo_eq, execGetHealthInfo, withLink_runs hreset hperst hloaded]

/-! ## Logs and the poison list (R309, R328) -/

theorem exec_getEventRecords_unknown {log : Nat} (h : 4 ≤ log) :
    exec (.getEventRecords log) s = .next (s.emit (.cxlMailbox 0x0100 2 [])) := by
  rw [exec_getEventRecords_eq, execGetEventRecords, withLink_runs hreset hperst hloaded]
  exact congrArg _ (if_pos h)

/-- R309: the records of a log, with those logged meanwhile. -/
theorem exec_getEventRecords {log : Nat} (h : log < 4) :
    let l := Tbl.get s.host.cxlEvents [] log ++ Config.cxlNewEvents s.draw.1 log
    exec (.getEventRecords log) s = .next (State.emit { s.draw.2 with host := { s.draw.2.host with
      cxlEvents := Tbl.set s.draw.2.host.cxlEvents log l } }
        (.cxlMailbox 0x0100 0 (zeros 20 ++ leBytes 2 l.length ++ zeros 10 ++ l.flatten))) := by
  rw [exec_getEventRecords_eq, execGetEventRecords, withLink_runs hreset hperst hloaded]
  exact congrArg _ (if_neg (Nat.not_le.mpr h))

/-- R309: a log that does not exist, and more records than a log holds, are refused. -/
theorem exec_clearEventRecords (log k : Nat) : exec (.clearEventRecords log k) s = .next (
    if 4 ≤ log ∨ (Tbl.get s.host.cxlEvents [] log).length < k then s.emit (.cxlMailbox 0x0101 2 [])
    else State.emit { s with host := { s.host with
      cxlEvents := Tbl.set s.host.cxlEvents log ((Tbl.get s.host.cxlEvents [] log).drop k) } } (.cxlMailbox 0x0101 0 [])) := by
  rw [exec_clearEventRecords_eq, execClearEventRecords, withLink_runs hreset hperst hloaded]
  exact congrArg _ (if_congr (by simp) rfl rfl)

theorem exec_getSupportedLogs : exec .getSupportedLogs s = .next (s.emit (.cxlMailbox 0x0400 0 (Config.cxlData 0x0400 []))) := by
  rw [exec_getSupportedLogs_eq, execGetSupportedLogs, withLink_runs hreset hperst hloaded]

theorem exec_getLog (data : Bytes) : exec (.getLog data) s = .next (s.emit (.cxlMailbox 0x0401 0 (Config.cxlData 0x0401 data))) := by
  rw [exec_getLog_eq, execGetLog, withLink_runs hreset hperst hloaded]

theorem exec_getPoisonList (dpa len : Nat) : exec (.getPoisonList dpa len) s = .next (s.emit (.cxlMailbox 0x4300 0
    (poisonPayload (s.poisonList.filter fun a => decide (dpa ≤ a) && decide (a < dpa + 64 * len))))) := by
  rw [exec_getPoisonList_eq, execGetPoisonList, withLink_runs hreset hperst hloaded]
  rfl

/-! ## Evidence over SPDM (R453) -/

theorem exec_spdmVendorRequest_other {data : Bytes} (h : data.length ≠ 45 ∨ fieldAt data 0 1 ≠ 1) :
    exec (.spdmVendorRequest data) s = .next s := by
  rw [exec_spdmVendorRequest_eq, execSpdmVendorRequest, withLink_runs hreset hperst hloaded]
  exact congrArg _ (if_pos (by simpa using h.symm))

section Request

variable {data : Bytes} (hlen : data.length = 45) (hop : fieldAt data 0 1 = 1)
include hlen hop

theorem exec_spdmVendorRequest_refused {e : Nat} (he : s.evidenceCmd (data.drop 1) = .error e) :
    exec (.spdmVendorRequest data) s = .next (s.emit (.spdm (leBytes 2 e))) := by
  rw [exec_spdmVendorRequest_eq, execSpdmVendorRequest, withLink_runs hreset hperst hloaded,
    if_neg (by simp [hlen, hop]), he]

theorem exec_spdmVendorRequest_signs {t : State} (ht : s.evidenceCmd (data.drop 1) = .ok t) :
    exec (.spdmVendorRequest data) s =
      .next (State.emit { t with sec := { t.sec with evidence := s.sec.evidence } } (.spdm t.sec.evidence)) := by
  rw [exec_spdmVendorRequest_eq, execSpdmVendorRequest, withLink_runs hreset hperst hloaded,
    if_neg (by simp [hlen, hop]), ht]

end Request

end Link

end Sys2Proof.Machine

open Sys2Proof Sys2Proof.Machine in
/-- Settles O31: what each command behind the link is answered, with the bits of a configuration dword after a write and the fields
of the two payloads. Payloads of the published standard (log entry 117), SPDM payloads other than a request for evidence (133) and
the lines of the poison list (134) are the model's choice. -/
theorem cxlDeviceCommands : Obligations.CxlDeviceCommands := by
  refine ⟨fun s a w h => exec_configRequest_reset h a w, fun s a w hreset hperst =>
    ⟨fun hloaded => exec_configRequest_retry hreset hperst hloaded a w, fun hloaded => ⟨?read, fun v => ?write⟩⟩,
    fun s hreset hperst hloaded => ⟨?identity, ?partition, ?health, fun log hlog => ?records, fun log k hlog hk => ?clear, ?supported,
      fun data => ⟨_, exec_getLog hreset hperst hloaded data⟩, fun log k h => ?clearRefused,
      fun log h => exec_getEventRecords_unknown hreset hperst hloaded h, fun dpa len => ?poison,
      fun data h => exec_spdmVendorRequest_other hreset hperst hloaded h, fun data hlen hop => ⟨fun hlc => ?evidence, ?refused⟩⟩⟩
  case read => exact exec_configRequest_read hreset hperst hloaded a
  case write =>
    exact ⟨_, exec_configRequest_write hreset hperst hloaded a v, rfl, fun b hb => cfgWord_cfgWrite_ne s hb v,
      fun i hi => cfgWord_cfgWrite_bit s _ v hi⟩
  case identity =>
    have hp := freePayload_length s 0x4000 69
    obtain ⟨hpersistent, hvolatile⟩ := memoryIdentity_fields hp s.volatile
    refine ⟨_, _, exec_identifyMemoryDevice hreset hperst hloaded, rfl, memoryIdentity_length hp s.volatile, hpersistent,
      fun hdpa => hvolatile ?_⟩
    unfold State.volatile
    omega
  case partition => exact exec_getPartitionInfo hreset hperst hloaded
  case health => exact ⟨_, _, exec_getHealthInfo hreset hperst hloaded, rfl, freePayload_length s 0x4200 18⟩
  case records =>
    refine ⟨_, _, exec_getEventRecords hreset hperst hloaded hlog, Tbl.get_set_self .., ?_⟩
    rw [State.emit_host, State.emit_out]
    dsimp only
    rw [Tbl.get_set_self]
    rfl
  case clear =>
    refine ⟨_, (exec_clearEventRecords hreset hperst hloaded log k).trans (congrArg _ (if_neg (by omega))), rfl, ?_⟩
    exact Tbl.get_set_self ..
  case supported => exact ⟨_, exec_getSupportedLogs hreset hperst hloaded⟩
  case clearRefused => exact (exec_clearEventRecords hreset hperst hloaded log k).trans (congrArg _ (if_pos h))
  case poison => exact ⟨_, exec_getPoisonList hreset hperst hloaded dpa len, poisonPayload_count _, poisonPayload_records _⟩
  case evidence =>
    obtain ⟨l, hsigns⟩ := evidenceCmd_signs hlc (data.drop 1)
    exact ⟨_, exec_spdmVendorRequest_signs hreset hperst hloaded hlen hop hsigns, rfl, rfl⟩
  case refused =>
    exact fun hp hd => exec_spdmVendorRequest_refused hreset hperst hloaded hlen hop (evidenceCmd_refused hp hd _)
end

section
/-! Data structures of the published standard in which the device writes its own fields (R335). -/

namespace Sys2Proof.Machine

open Sys2Proof

section Patch

variable {b : Bytes} {m : Nat} (hb : b.length = m) {off : Nat} {x : Bytes}
include hb

theorem patch_length (h : off + x.length ≤ m) : (patch b off x).length = m := by
  simp only [patch, List.length_append, List.length_take, List.length_drop]
  omega

/-- A field that lies in the bytes written. -/
theorem fieldAt_patch (hoff : off ≤ m) {i n : Nat} (h : i + n ≤ x.length) :
    fieldAt (patch b off x) (off + i) n = fieldAt x i n := by
  have hhead : (b.take off).length = off := List.length_take_of_le (hb.symm ▸ hoff)
  rw [patch, List.append_assoc, fieldAt_append_right hhead, fieldAt_append_left h]

/-- A field that lies before the bytes written. -/
theorem fieldAt_patch_before (hoff : off ≤ m) {o n : Nat} (h : o + n ≤ off) :
    fieldAt (patch b off x) o n = fieldAt b o n := by
  have hhead : o + n ≤ (b.take off).length := (List.length_take_of_le (hb.symm ▸ hoff)).symm ▸ h
  have hkept := fieldAt_append_left hhead (b.drop off)
  rw [List.take_append_drop] at hkept
  rw [patch, List.append_assoc, fieldAt_append_left hhead, hkept]

end Patch

end Sys2Proof.Machine
end

section
/-! The queues of the NVMe controller (R310, R311, R335, R518): completions, doorbells, the controller's enabling, and the I/O queues
that are created and deleted. -/

namespace Sys2Proof.Machine

open Sys2Proof

theorem get_of_find {α : Type} {t : Tbl α} {k : Nat} {v : α} (h : Tbl.find t k = some v) (d : α) : Tbl.get t d k = v := by
  rw [Tbl.get, h]

/-! ## Completions (R335, R347, R517) -/

theorem raiseVector_out (s : State) (v : Nat) : ∃ l, (s.raiseVector v).out = s.out ++ l := by
  unfold State.raiseVector
  split
  · exact ⟨[], (List.append_nil _).symm⟩
  · exact ⟨_, rfl⟩

/-- R335: a completion goes out first, and the vector of its queue after it. -/
theorem complete_out {s : State} {sq : Nat} {q : SQueue} (hpower : s.sys.pwrFail = false) (hflush : s.sys.flush = none)
    (hq : Tbl.find s.host.sqs sq = some q) (cid sct sc : Nat) (dnr : Bool) (dw0 : Nat) (data : Bytes) :
    ∃ l, (s.complete sq cid sct sc dnr dw0 data).out = s.out ++ .cqe q.cq sq cid sct sc dnr dw0 data :: l := by
  unfold State.complete
  rw [if_neg (by simp [hpower, hflush, hq]), get_of_find hq]
  dsimp only
  split
  · obtain ⟨l, hl⟩ := raiseVector_out (State.emit _ (.cqe q.cq sq cid sct sc dnr dw0 data)) (Tbl.get s.host.cqs {} q.cq).vector
    exact ⟨l, hl.trans (List.append_assoc ..)⟩
  · exact ⟨[], rfl⟩

theorem raiseVector_aers (s : State) (v : Nat) : (s.raiseVector v).host.aers = s.host.aers := by
  unfold State.raiseVector
  split <;> rfl

/-- R348: a completion leaves the requests that wait. -/
theorem complete_aers (s : State) (sq cid sct sc : Nat) (dnr : Bool) (dw0 : Nat) (data : Bytes) :
    (s.complete sq cid sct sc dnr dw0 data).host.aers = s.host.aers := by
  unfold State.complete
  dsimp only
  split
  · rfl
  · split
    · exact raiseVector_aers _ _
    · rfl

theorem nvmeTake_head (s : State) (c : NvmeCmd) : (Tbl.get (s.nvmeTake c).host.sqs {} c.sq).head =
    if (Tbl.get s.host.sqs {} c.sq).head + 1 = (Tbl.get s.host.sqs {} c.sq).size then 0
    else (Tbl.get s.host.sqs {} c.sq).head + 1 :=
  congrArg SQueue.head (Tbl.get_set_self ..)

/-! ## Doorbells (R310) -/

theorem exec_nvmeSqDoorbell_eq (k v : Nat) (s : State) : exec (.nvmeSqDoorbell k v) s = execNvmeSqDoorbell k v s := rfl
theorem exec_nvmeCqDoorbell_eq (k v : Nat) (s : State) : exec (.nvmeCqDoorbell k v) s = execNvmeCqDoorbell k v s := rfl

theorem pumpEvents_none {s : State} (h : s.host.events = []) : s.pumpEvents = s := by
  rw [State.pumpEvents, h]
  rfl

section Doorbell

variable {s : State} (hup : s.up = true) {k : Nat}
include hup

theorem exec_nvmeSqDoorbell_unknown (h : Tbl.find s.host.sqs k = none) (v : Nat) : exec (.nvmeSqDoorbell k v) s = .next s := by
  rw [exec_nvmeSqDoorbell_eq, execNvmeSqDoorbell, whenUp_runs _ hup, h]

theorem exec_nvmeSqDoorbell {q : SQueue} (h : Tbl.find s.host.sqs k = some q) (v : Nat) : exec (.nvmeSqDoorbell k v) s =
    if v < q.size then .next { s with host := { s.host with sqs := Tbl.set s.host.sqs k { q with tail := v } } } else .next s := by
  rw [exec_nvmeSqDoorbell_eq, execNvmeSqDoorbell, whenUp_runs _ hup, h]

theorem exec_nvmeCqDoorbell_unknown (h : Tbl.find s.host.cqs k = none) (v : Nat) : exec (.nvmeCqDoorbell k v) s = .next s := by
  rw [exec_nvmeCqDoorbell_eq, execNvmeCqDoorbell, whenUp_runs _ hup, h]

theorem exec_nvmeCqDoorbell {q : CQueue} (h : Tbl.find s.host.cqs k = some q) (v : Nat) : exec (.nvmeCqDoorbell k v) s =
    if v < q.size then
      .next (State.pumpEvents { s with host := { s.host with cqs := Tbl.set s.host.cqs k { q with head := v } } })
    else .next s := by
  rw [exec_nvmeCqDoorbell_eq, execNvmeCqDoorbell, whenUp_runs _ hup, h]

end Doorbell

/-! ## CONTROLLER_ENABLE (R518) -/

section Enable

variable {s : State} (hup : s.up = true) (hperst : s.host.perst = false)
include hup hperst

theorem exec_controllerEnable (en : Bool) : exec (.controllerEnable en) s =
    if en = s.host.enabled then .next s
    else if en then
      .next { s with host := { s.host.withAdmin with enabled := true, ready := s.sys.step == 0 || 8 ≤ s.sys.step } }
    else .next (State.forgetCommands { s with host := s.host.disabled }) := by
  have hrow : exec (.controllerEnable en) s = execControllerEnable en s := rfl
  rw [hrow, execControllerEnable, whenUp_runs _ hup]
  exact if_congr (by simp [hperst]) rfl rfl

/-- R335, R518: a controller that is disabled has no queue and is not ready. -/
theorem exec_controllerEnable_clear (hen : s.host.enabled = true) : ∃ t, exec (.controllerEnable false) s = .next t ∧
    t.host.enabled = false ∧ t.host.ready = false ∧ t.host.sqs = [] ∧ t.host.cqs = [] ∧ t.flash = s.flash := by
  refine ⟨_, (exec_controllerEnable hup hperst false).trans ((if_neg (by simp [hen])).trans (if_neg Bool.false_ne_true)), ?_⟩
  rw [forgetCommands_eq]
  exact ⟨rfl, rfl, rfl, rfl, rfl⟩

end Enable

/-! ## I/O queues (R311, R335) -/

theorem queueNumberOk_refused (q : Nat) (used : Bool) :
    (!queueNumberOk q used) = true ↔ q = 0 ∨ 1024 < q ∨ used = true := by
  have hlimit : maxQueues = 1024 := rfl
  cases used with
  | true => simp [queueNumberOk]
  | false =>
    simp [queueNumberOk, hlimit]

/-- R334, R335: the sizes that the device does not support. -/
theorem entries_refused (n : Nat) : (n = 0 || decide (maxEntries ≤ n)) = true ↔ n = 0 ∨ 4096 ≤ n := by
  rw [Bool.or_eq_true, decide_eq_true_eq, decide_eq_true_eq]
  rfl

theorem queueNumber_free {α : Type} {t : Tbl α} {q : Nat} (hlow : 1 ≤ q) (hhigh : q ≤ 1024) (hnew : Tbl.find t q = none) :
    ¬ (q = 0 ∨ 1024 < q ∨ (Tbl.find t q).isSome = true) := by
  simp only [hnew, Option.isSome_none, Bool.false_eq_true, or_false]
  omega

theorem queueNumber_used {α : Type} {t : Tbl α} {q : Nat} (hq : q ≠ 0) (hused : (Tbl.find t q).isSome = true) :
    ¬ (q = 0 ∨ Tbl.find t q = none) :=
  not_or.mpr ⟨hq, Option.isSome_iff_ne_none.mp hused⟩

section Row

variable {s : State} {c : NvmeCmd} (h : s.TakesCommand true c)
include h

/-- R335: a submission queue needs a number from 1 to 1,024 that is free, a completion queue that exists, and 2 to 4,096 entries. -/
theorem exec_nvmeCreateIoSq : exec (.nvmeCreateIoSq c) s = .next (
    if bits c.cdw10 15 0 = 0 ∨ 1024 < bits c.cdw10 15 0 ∨
        (Tbl.find (s.nvmeTake c).host.sqs (bits c.cdw10 15 0)).isSome = true then
      (s.nvmeTake c).nvmeErr c 1 0x01
    else if bits c.cdw11 31 16 = 0 ∨ Tbl.find (s.nvmeTake c).host.cqs (bits c.cdw11 31 16) = none then
      (s.nvmeTake c).nvmeErr c 1 0x00
    else if bits c.cdw10 31 16 = 0 ∨ 4096 ≤ bits c.cdw10 31 16 then (s.nvmeTake c).nvmeErr c 1 0x02
    else State.nvmeOk { s.nvmeTake c with host := { (s.nvmeTake c).host with
      sqs := Tbl.set (s.nvmeTake c).host.sqs (bits c.cdw10 15 0)
        { size := bits c.cdw10 31 16 + 1, cq := bits c.cdw11 31 16, base := c.prp } } } c 0 []) := by
  have hrow : exec (.nvmeCreateIoSq c) s = execNvmeCreateIoSq c s := rfl
  rw [hrow, execNvmeCreateIoSq, nvmeRun_takes _ h]
  exact congrArg _ (if_congr (queueNumberOk_refused _ _) rfl (if_congr (by simp) rfl (if_congr (entries_refused _) rfl rfl)))

/-- R311, R335: a completion queue needs a number from 1 to 1,024 that is free, 2 to 4,096 entries, and a vector that is not that of
a mailbox channel. -/
theorem exec_nvmeCreateIoCq : exec (.nvmeCreateIoCq c) s = .next (
    if bits c.cdw10 15 0 = 0 ∨ 1024 < bits c.cdw10 15 0 ∨
        (Tbl.find (s.nvmeTake c).host.cqs (bits c.cdw10 15 0)).isSome = true then
      (s.nvmeTake c).nvmeErr c 1 0x01
    else if bits c.cdw10 31 16 = 0 ∨ 4096 ≤ bits c.cdw10 31 16 then (s.nvmeTake c).nvmeErr c 1 0x02
    else if 1984 ≤ bits c.cdw11 31 16 then (s.nvmeTake c).nvmeErr c 1 0x08
    else State.nvmeOk { s.nvmeTake c with host := { (s.nvmeTake c).host with
      cqs := Tbl.set (s.nvmeTake c).host.cqs (bits c.cdw10 15 0)
        { size := bits c.cdw10 31 16 + 1, vector := bits c.cdw11 31 16, base := c.prp, ien := bit c.cdw11 1 } } } c 0 []) := by
  have hrow : exec (.nvmeCreateIoCq c) s = execNvmeCreateIoCq c s := rfl
  rw [hrow, execNvmeCreateIoCq, nvmeRun_takes _ h]
  exact congrArg _ (if_congr (queueNumberOk_refused _ _) rfl (if_congr (entries_refused _) rfl rfl))

/-- R335: a submission queue goes with its write-through writes. -/
theorem exec_nvmeDeleteIoSq : exec (.nvmeDeleteIoSq c) s = .next (
    if bits c.cdw10 15 0 = 0 ∨ Tbl.find (s.nvmeTake c).host.sqs (bits c.cdw10 15 0) = none then (s.nvmeTake c).nvmeErr c 1 0x01
    else State.nvmeOk { s.nvmeTake c with host := { (s.nvmeTake c).host with
      sqs := Tbl.del (s.nvmeTake c).host.sqs (bits c.cdw10 15 0)
      throughs := (s.nvmeTake c).host.throughs.filter fun w => w.sq ≠ bits c.cdw10 15 0 } } c 0 []) := by
  have hrow : exec (.nvmeDeleteIoSq c) s = execNvmeDeleteIoSq c s := rfl
  rw [hrow, execNvmeDeleteIoSq, nvmeRun_takes _ h]
  exact congrArg _ (if_congr (by simp) rfl rfl)

/-- R335: a completion queue on which a submission queue stands is not deleted. -/
theorem exec_nvmeDeleteIoCq : exec (.nvmeDeleteIoCq c) s = .next (
    if bits c.cdw10 15 0 = 0 ∨ Tbl.find (s.nvmeTake c).host.cqs (bits c.cdw10 15 0) = none then (s.nvmeTake c).nvmeErr c 1 0x01
    else if ∃ x ∈ (s.nvmeTake c).host.sqs, x.2.cq = bits c.cdw10 15 0 then (s.nvmeTake c).nvmeErr c 1 0x0C
    else State.nvmeOk { s.nvmeTake c with host := { (s.nvmeTake c).host with
      cqs := Tbl.del (s.nvmeTake c).host.cqs (bits c.cdw10 15 0) } } c 0 []) := by
  have hrow : exec (.nvmeDeleteIoCq c) s = execNvmeDeleteIoCq c s := rfl
  rw [hrow, execNvmeDeleteIoCq, nvmeRun_takes _ h]
  exact congrArg _ (if_congr (by simp) rfl (if_congr (by simp) rfl rfl))

section Create

variable (hlow : 1 ≤ bits c.cdw10 15 0) (hhigh : bits c.cdw10 15 0 ≤ 1024) (hsize : 1 ≤ bits c.cdw10 31 16)
  (hmax : bits c.cdw10 31 16 < 4096)
include hlow hhigh hsize hmax

theorem exec_nvmeCreateIoSq_creates (hnew : Tbl.find (s.nvmeTake c).host.sqs (bits c.cdw10 15 0) = none)
    (hcq : bits c.cdw11 31 16 ≠ 0) (hfound : (Tbl.find (s.nvmeTake c).host.cqs (bits c.cdw11 31 16)).isSome = true) :
    ∃ u : State, exec (.nvmeCreateIoSq c) s = .next (u.nvmeOk c 0 []) ∧ Tbl.find u.host.sqs (bits c.cdw10 15 0) =
      some { size := bits c.cdw10 31 16 + 1, cq := bits c.cdw11 31 16, base := c.prp } := by
  exact ⟨_, (exec_nvmeCreateIoSq h).trans (congrArg _ ((if_neg (queueNumber_free hlow hhigh hnew)).trans
    ((if_neg (queueNumber_used hcq hfound)).trans (if_neg (by omega))))), (Tbl.find_set ..).trans (if_pos rfl)⟩

variable (hnew : Tbl.find (s.nvmeTake c).host.cqs (bits c.cdw10 15 0) = none)
include hnew

theorem exec_nvmeCreateIoCq_creates (hvector : bits c.cdw11 31 16 < 1984) :
    ∃ u : State, exec (.nvmeCreateIoCq c) s = .next (u.nvmeOk c 0 []) ∧ Tbl.find u.host.cqs (bits c.cdw10 15 0) =
      some { size := bits c.cdw10 31 16 + 1, vector := bits c.cdw11 31 16, base := c.prp, ien := bit c.cdw11 1 } := by
  exact ⟨_, (exec_nvmeCreateIoCq h).trans (congrArg _ ((if_neg (queueNumber_free hlow hhigh hnew)).trans
    ((if_neg (by omega)).trans (if_neg (Nat.not_le.mpr hvector))))), (Tbl.find_set ..).trans (if_pos rfl)⟩

/-- R311: the vectors from 1984 are those of the mailbox channels. -/
theorem exec_nvmeCreateIoCq_vector (hvector : 1984 ≤ bits c.cdw11 31 16) :
    exec (.nvmeCreateIoCq c) s = .next ((s.nvmeTake c).nvmeErr c 1 0x08) := by
  rw [exec_nvmeCreateIoCq h, if_neg (queueNumber_free hlow hhigh hnew), if_neg (by omega), if_pos hvector]

end Create

theorem exec_nvmeDeleteIoSq_deletes (hq : bits c.cdw10 15 0 ≠ 0)
    (hsq : (Tbl.find (s.nvmeTake c).host.sqs (bits c.cdw10 15 0)).isSome = true) :
    ∃ u : State, exec (.nvmeDeleteIoSq c) s = .next (u.nvmeOk c 0 []) ∧ Tbl.find u.host.sqs (bits c.cdw10 15 0) = none :=
  ⟨_, (exec_nvmeDeleteIoSq h).trans (congrArg _ (if_neg (queueNumber_used hq hsq))), (Tbl.find_del ..).trans (if_pos rfl)⟩

section Delete

variable (hq : bits c.cdw10 15 0 ≠ 0) (hcq : (Tbl.find (s.nvmeTake c).host.cqs (bits c.cdw10 15 0)).isSome = true)
include hq hcq

theorem exec_nvmeDeleteIoCq_deletes (hidle : ∀ x ∈ (s.nvmeTake c).host.sqs, x.2.cq ≠ bits c.cdw10 15 0) :
    ∃ u : State, exec (.nvmeDeleteIoCq c) s = .next (u.nvmeOk c 0 []) ∧ Tbl.find u.host.cqs (bits c.cdw10 15 0) = none := by
  exact ⟨_, (exec_nvmeDeleteIoCq h).trans (congrArg _ ((if_neg (queueNumber_used hq hcq)).trans
    (if_neg fun ⟨x, hx, he⟩ => hidle x hx he))), (Tbl.find_del ..).trans (if_pos rfl)⟩

theorem exec_nvmeDeleteIoCq_inUse (hused : ∃ x ∈ (s.nvmeTake c).host.sqs, x.2.cq = bits c.cdw10 15 0) :
    exec (.nvmeDeleteIoCq c) s = .next ((s.nvmeTake c).nvmeErr c 1 0x0C) := by
  rw [exec_nvmeDeleteIoCq h, if_neg (queueNumber_used hq hcq), if_pos hused]

end Delete

end Row

/-! ## Abort (R335) -/

/-- R310: the entries that wait in a submission queue. -/
def SQueue.waiting (x : SQueue) : Nat := (x.tail + x.size - x.head) % max 1 x.size

theorem waiting_empty {x : SQueue} (h : x.tail = x.head) : x.waiting = 0 := by
  rw [SQueue.waiting, h, Nat.add_sub_cancel_left]
  rcases Nat.eq_zero_or_pos x.size with hzero | hpos
  · rw [hzero, Nat.zero_mod]
  · rw [Nat.max_eq_right hpos, Nat.mod_self]

/-- R335: an abort of entry `id` of queue `q` is noted until the entries that wait there have been taken. -/
def State.noteAbort (s : State) (q id : Nat) : State :=
  { s with host := { s.host with aborts := s.host.aborts ++ [(q, id, (Tbl.get s.host.sqs {} q).waiting)] } }

theorem exec_nvmeAbort {s : State} {c : NvmeCmd} (h : s.TakesCommand true c) : exec (.nvmeAbort c) s = .next (
    if bits c.cdw10 31 16 ∈ (Tbl.get (s.nvmeTake c).host.sqs {} (bits c.cdw10 15 0)).busy ∨
        (Tbl.get (s.nvmeTake c).host.sqs {} (bits c.cdw10 15 0)).waiting = 0 then (s.nvmeTake c).nvmeOk c 1 []
    else if Config.freeBool (s.nvmeTake c).draw.1 then
      ((s.nvmeTake c).draw.2.noteAbort (bits c.cdw10 15 0) (bits c.cdw10 31 16)).nvmeOk c 0 []
    else (s.nvmeTake c).draw.2.nvmeOk c 1 []) := by
  have hrow : exec (.nvmeAbort c) s = execNvmeAbort c s := rfl
  rw [hrow, execNvmeAbort, nvmeRun_takes _ h]
  exact congrArg _ (if_congr (by simp [SQueue.waiting]) rfl rfl)

/-- R335: an abort is answered 0 when it has been noted, and else 1. -/
theorem exec_nvmeAbort_answers {s : State} {c : NvmeCmd} (h : s.TakesCommand true c) :
    ∃ (u : State) (k : Nat), exec (.nvmeAbort c) s = .next (u.nvmeOk c k []) ∧ (k = 0 ∨ k = 1) ∧
      (k = 0 → ∃ a, u.host.aborts = (s.nvmeTake c).host.aborts ++ [(bits c.cdw10 15 0, bits c.cdw10 31 16, a)]) ∧
      (k = 1 → u.host = (s.nvmeTake c).host) := by
  rw [exec_nvmeAbort h]
  split
  · exact ⟨_, 1, rfl, .inr rfl, fun hk => absurd hk Nat.one_ne_zero, fun _ => rfl⟩
  · split
    · exact ⟨_, 0, rfl, .inl rfl, fun _ => ⟨_, rfl⟩, fun hk => absurd hk Nat.zero_ne_one⟩
    · exact ⟨_, 1, rfl, .inr rfl, fun hk => absurd hk Nat.one_ne_zero, fun _ => rfl⟩

end Sys2Proof.Machine
end

section
/-! Identify, log pages, features and asynchronous events of the NVMe controller (R308, R334 to R336, R348). -/

namespace Sys2Proof.Machine

open Sys2Proof

/-! ## The data that Identify returns (R334, R336) -/

/-- R334: MDTS, NN and VWC. -/
theorem identifyController_data : identifyController.length = 4096 ∧ fieldAt identifyController 77 1 = 6 ∧
    fieldAt identifyController 516 4 = 256 ∧ fieldAt identifyController 525 1 = 0 := by
  have hstandard := sliceZ_length (Config.nvmeData 0 1 4096) 0 4096
  have hmdts := patch_length hstandard (off := 77) (x := leBytes 1 6) (by decide)
  have hnn := patch_length hmdts (off := 516) (x := leBytes 4 256) (by decide)
  unfold identifyController
  refine ⟨patch_length hnn (by decide), ?_, ?_, ?_⟩
  · rw [fieldAt_patch_before hnn (by decide) (by decide), fieldAt_patch_before hmdts (by decide) (by decide)]
    exact fieldAt_patch hstandard (by decide) (i := 0) (by decide)
  · rw [fieldAt_patch_before hnn (by decide) (by decide)]
    exact fieldAt_patch hmdts (by decide) (i := 0) (by decide)
  · exact fieldAt_patch hnn (by decide) (i := 0) (by decide)

/-- R336: NSZE and NCAP, and the size of a block as a power of two. -/
theorem identify_data {x : Namespace} (nsid : Nat) (h : x.extents.length < 2 ^ 46) :
    (x.identify nsid).length = 4096 ∧ fieldAt (x.identify nsid) 0 8 = x.extents.length * 262144 ∧
      fieldAt (x.identify nsid) 8 8 = x.extents.length * 262144 ∧ fieldAt (x.identify nsid) 130 1 = 12 := by
  have hsize : x.extents.length * 262144 < 256 ^ 8 := by omega
  unfold Namespace.identify
  dsimp only
  generalize x.extents.length * 262144 = k at hsize ⊢
  generalize (if x.cls = 0 then 63 else 0) = w
  have hstandard := sliceZ_length (Config.nvmeData 1 nsid 4096) 0 4096
  have hcapacity := patch_length hstandard (off := 0) (x := leBytes 8 k ++ leBytes 8 k) (by simp)
  have hformats := patch_length hcapacity (off := 25) (x := zeros 5) (by decide)
  have hwidths := patch_length hformats (off := 34) (x := leBytes 2 w ++ leBytes 2 w) (by simp)
  refine ⟨patch_length hwidths (by decide), ?nsze, ?ncap, fieldAt_patch hwidths (off := 128) (by decide) (i := 2) (by decide)⟩
  all_goals rw [fieldAt_patch_before hwidths (by decide) (by decide), fieldAt_patch_before hformats (by decide) (by decide),
    fieldAt_patch_before hcapacity (by decide) (by decide)]
  case nsze => exact (fieldAt_patch hstandard (Nat.zero_le _) (i := 0) (by simp)).trans (fieldAt_leBytes_append hsize _)
  case ncap =>
    refine (fieldAt_patch hstandard (off := 0) (Nat.zero_le _) (i := 8) (by simp)).trans ?_
    rw [fieldAt_append_right (leBytes_length 8 k) _ 0, fieldAt_leBytes, Nat.mod_eq_of_lt hsize]

/-! ## Identify (R335) -/

/-- R335: Identify of an attached namespace returns its data. -/
theorem identify_attached {s : State} {nsid : Nat} {x : Namespace} (hns : s.ns nsid = some x) (hon : nsid ∈ s.host.attached)
    (hlow : 1 ≤ nsid) (hhigh : nsid ≤ 256) : s.identify 0 nsid = .ok (x.identify nsid) := by
  have hlisted : ∃ y, (nsid, y) ∈ s.host.nss := ⟨x, Tbl.mem_of_find hns⟩
  unfold State.identify
  dsimp only
  rw [if_pos (by decide), if_neg (by omega), if_neg (by simpa using ⟨Nat.ne_of_gt hlow, hhigh⟩), hns]
  exact if_pos (by simpa [hon] using hlisted)

theorem identify_unknown (s : State) {cns : Nat} (nsid : Nat)
    (h : cns ∉ [0, 1, 2, 3, 0x10, 0x11, 0x12, 0x13]) : s.identify cns nsid = .error 0x02 := by
  simp only [List.mem_cons, List.not_mem_nil, or_false, not_or] at h
  simp [State.identify, h]

/-! ## What Get Log Page changes (R348) -/

/-- R348: a read of the Changed Namespace List clears it, unless the event is retained. -/
def State.logRead (s : State) (c : NvmeCmd) : State :=
  if bits c.cdw10 7 0 = 4 && !bit c.cdw10 15 then { s with host := { s.host with changed := [] } } else s

theorem logRead_retained (s : State) {c : NvmeCmd} (h : bits c.cdw10 7 0 ≠ 4 ∨ bit c.cdw10 15 = true) : s.logRead c = s :=
  if_neg (by simpa [imp_iff_not_or] using h)

theorem logRead_changed (s : State) {c : NvmeCmd} (hpage : bits c.cdw10 7 0 = 4) (hclear : bit c.cdw10 15 = false) :
    (s.logRead c).host.changed = [] := by
  rw [State.logRead, if_pos (by simp [hpage, hclear])]

/-! ## The rows of Identify (R335) -/

section Row

variable {s : State} {c : NvmeCmd} (h : s.TakesCommand true c)
include h

theorem exec_nvmeIdentify_data {b : Bytes} (hb : (s.nvmeTake c).identify (bits c.cdw10 7 0) c.nsid = .ok b) :
    exec (.nvmeIdentify c) s = .next ((s.nvmeTake c).nvmeOk c 0 b) := by
  have hrow : exec (.nvmeIdentify c) s = execNvmeIdentify c s := rfl
  rw [hrow, execNvmeIdentify, nvmeRun_takes _ h, hb]

theorem exec_nvmeIdentify_refused {e : Nat} (he : (s.nvmeTake c).identify (bits c.cdw10 7 0) c.nsid = .error e) :
    exec (.nvmeIdentify c) s = .next ((s.nvmeTake c).nvmeErr c 0 e) := by
  have hrow : exec (.nvmeIdentify c) s = execNvmeIdentify c s := rfl
  rw [hrow, execNvmeIdentify, nvmeRun_takes _ h, he]

/-! ## Get Log Page (R308, R348) -/

theorem exec_nvmeGetLogPage_unknown (hpage : (s.nvmeTake c).logPage (bits c.cdw10 7 0) = none) :
    exec (.nvmeGetLogPage c) s = .next ((s.nvmeTake c).nvmeErr c 1 0x09) := by
  have hrow : exec (.nvmeGetLogPage c) s = execNvmeGetLogPage c s := rfl
  rw [hrow, execNvmeGetLogPage, nvmeRun_takes _ h]
  dsimp only
  rw [hpage]

/-- R308: the part of a page from an offset within it is returned. -/
theorem exec_nvmeGetLogPage {b : Bytes} (hpage : (s.nvmeTake c).logPage (bits c.cdw10 7 0) = some b) :
    exec (.nvmeGetLogPage c) s = .next (
      if b.length < c.cdw12 + 2 ^ 32 * c.cdw13 then (s.nvmeTake c).nvmeErr c 0 0x02
      else ((s.nvmeTake c).logRead c).nvmeOk c 0 ((b.drop (c.cdw12 + 2 ^ 32 * c.cdw13)).take
        (4 * (bits c.cdw10 31 16 + 65536 * bits c.cdw11 15 0 + 1)))) := by
  have hrow : exec (.nvmeGetLogPage c) s = execNvmeGetLogPage c s := rfl
  rw [hrow, execNvmeGetLogPage, nvmeRun_takes _ h]
  dsimp only
  rw [hpage]
  rfl

/-! ## Features (R334, R335) -/

theorem exec_nvmeGetFeatures : exec (.nvmeGetFeatures c) s = .next (
    if isFeature (bits c.cdw10 7 0) = false then (s.nvmeTake c).nvmeErr c 0 0x02
    else if bits c.cdw10 10 8 = 3 then (s.nvmeTake c).nvmeOk c (fieldAt (Config.nvmeData 9 (bits c.cdw10 7 0) 4) 0 4) []
    else (s.nvmeTake c).nvmeOk c ((s.nvmeTake c).feature (bits c.cdw10 7 0) (bits c.cdw10 10 8 = 0)) []) := by
  have hrow : exec (.nvmeGetFeatures c) s = execNvmeGetFeatures c s := rfl
  rw [hrow, execNvmeGetFeatures, nvmeRun_takes _ h]
  exact congrArg _ (if_congr (by simp) rfl rfl)

/-- R335: a feature that the controller supports is answered. -/
theorem exec_nvmeGetFeatures_answers (hf : isFeature (bits c.cdw10 7 0) = true) :
    ∃ v, exec (.nvmeGetFeatures c) s = .next ((s.nvmeTake c).nvmeOk c v []) := by
  rw [exec_nvmeGetFeatures h, if_neg (by simp [hf])]
  split <;> exact ⟨_, rfl⟩

theorem exec_nvmeSetFeatures : exec (.nvmeSetFeatures c) s = .next (
    if isFeature (bits c.cdw10 7 0) = false then (s.nvmeTake c).nvmeErr c 0 0x02
    else if bits c.cdw10 7 0 = 7 then (s.nvmeTake c).nvmeOk c ((s.nvmeTake c).feature 7 true) []
    else State.nvmeOk { s.nvmeTake c with host := { (s.nvmeTake c).host with
      features := Tbl.set (s.nvmeTake c).host.features (bits c.cdw10 7 0) c.cdw11 } } c 0 []) := by
  have hrow : exec (.nvmeSetFeatures c) s = execNvmeSetFeatures c s := rfl
  rw [hrow, execNvmeSetFeatures, nvmeRun_takes _ h]
  exact congrArg _ (if_congr (by simp) rfl rfl)

end Row

/-- R334: Number of Queues allots every pair. -/
theorem feature_queues (s : State) (current : Bool) : s.feature 7 current = 1023 + 65536 * 1023 := if_pos rfl

theorem feature_set {s : State} {f v : Nat} (hf : f ≠ 7) (hv : Tbl.find s.host.features f = some v) : s.feature f true = v := by
  rw [State.feature, if_neg hf, if_pos rfl, hv, Option.getD_some]

/-! ## Asynchronous events (R348) -/

/-- R348: the oldest event that waits answers the oldest request, when its completion has room. -/
def State.pumpEvent (s : State) : State :=
  match s.host.events with
  | e :: r =>
    if s.host.aers.isEmpty || s.cqFree 0 = 0 then s
    else State.asyncEvent { s with host := { s.host with events := r } } e.1 e.2.1 e.2.2
  | [] => s

theorem pumpEvents_eq (s : State) :
    s.pumpEvents = (List.range s.host.events.length).foldl (fun (s : State) _ => s.pumpEvent) s := rfl

theorem pumpEvent_idle {s : State} (h : s.host.aers = []) : s.pumpEvent = s := by
  unfold State.pumpEvent
  split
  · exact if_pos (by simp [h])
  · rfl

theorem pumpEvent_answers {s : State} {e : Nat × Nat × Nat} {r : List (Nat × Nat × Nat)} {cid : Nat}
    (hevents : s.host.events = e :: r) (haers : s.host.aers = [cid]) (hroom : 0 < s.cqFree 0) :
    s.pumpEvent = State.complete { s with host := { s.host with events := r, aers := [] } } 0 cid 0 0 false
      (e.1 + 256 * e.2.1 + 65536 * e.2.2) [] := by
  unfold State.pumpEvent
  rw [hevents]
  dsimp only
  rw [if_neg (by simp [haers, hroom.ne']), State.asyncEvent]
  dsimp only
  rw [haers]
  exact if_pos hroom

/-- R348: with one request that waits, the oldest event answers it, and the later events wait. -/
theorem pumpEvents_answers {s : State} {e : Nat × Nat × Nat} {r : List (Nat × Nat × Nat)} {cid : Nat}
    (hevents : s.host.events = e :: r) (haers : s.host.aers = [cid]) (hroom : 0 < s.cqFree 0) :
    s.pumpEvents = State.complete { s with host := { s.host with events := r, aers := [] } } 0 cid 0 0 false
      (e.1 + 256 * e.2.1 + 65536 * e.2.2) [] := by
  rw [pumpEvents_eq, hevents, List.length_cons, List.range_succ_eq_map, List.foldl_cons, pumpEvent_answers hevents haers hroom]
  exact List.foldl_fixed' (fun _ => pumpEvent_idle (complete_aers ..)) _

theorem exec_asynchronousEventRequest {s : State} {c : NvmeCmd} (h : s.TakesCommand true c) :
    exec (.asynchronousEventRequest c) s = .next (State.pumpEvents { s.nvmeTake c with
      host := { (s.nvmeTake c).host with aers := (s.nvmeTake c).host.aers ++ [c.cid] } }) := by
  have hrow : exec (.asynchronousEventRequest c) s = execAsynchronousEventRequest c s := rfl
  rw [hrow, execAsynchronousEventRequest, nvmeRun_takes _ h]

end Sys2Proof.Machine

open Sys2Proof Sys2Proof.Machine in
/-- Settles O27: one equation per branch of each row, and the fields of the two structures that Identify returns. Doorbells beyond
their queue (log entry 120), the answers to event requests (121), the outcome of an Abort (122), the features (123) and the codes of
the published standard (116) are the model's choice. -/
theorem nvmeQueuesAndAdmin : Obligations.NvmeQueuesAndAdmin := by
  refine ⟨⟨fun s sq cid sct sc dw0 dnr data q hpower hflush hq => complete_out hpower hflush hq cid sct sc dnr dw0 data,
    nvmeTake_head, fun s k v hup => ?doorbells, fun s hup hperst => ?enable, fun s c h => ?queues⟩, fun s c h => ?admin⟩
  case doorbells =>
    refine ⟨fun hq => exec_nvmeSqDoorbell_unknown hup hq v,
      fun q hq hv => (exec_nvmeSqDoorbell hup hq v).trans (if_neg (Nat.not_lt.mpr hv)),
      fun hq => exec_nvmeCqDoorbell_unknown hup hq v,
      fun q hq hv => (exec_nvmeCqDoorbell hup hq v).trans (if_neg (Nat.not_lt.mpr hv)),
      fun q hq hv => (exec_nvmeSqDoorbell hup hq v).trans (if_pos hv), fun q hq hv hevents => ?_⟩
    exact (exec_nvmeCqDoorbell hup hq v).trans ((if_pos hv).trans (congrArg _ (pumpEvents_none hevents)))
  case enable =>
    refine ⟨(exec_controllerEnable hup hperst _).trans (if_pos rfl), fun hoff => ?_, exec_controllerEnable_clear hup hperst⟩
    exact (exec_controllerEnable hup hperst true).trans ((if_neg (by simp [hoff])).trans (if_pos rfl))
  case queues =>
    exact ⟨fun hlow hhigh hsize hmax => ⟨exec_nvmeCreateIoSq_creates h hlow hhigh hsize hmax,
        exec_nvmeCreateIoCq_creates h hlow hhigh hsize hmax, exec_nvmeCreateIoCq_vector h hlow hhigh hsize hmax⟩,
      fun hbad => (exec_nvmeCreateIoSq h).trans (congrArg _ (if_pos hbad)),
      fun hbad => (exec_nvmeCreateIoCq h).trans (congrArg _ (if_pos hbad)),
      fun hbad => (exec_nvmeDeleteIoSq h).trans (congrArg _ (if_pos hbad)),
      fun hbad => (exec_nvmeDeleteIoCq h).trans (congrArg _ (if_pos hbad)),
      exec_nvmeDeleteIoSq_deletes h, exec_nvmeDeleteIoCq_deletes h, exec_nvmeDeleteIoCq_inUse h,
      fun hrun => (exec_nvmeAbort h).trans (congrArg _ (if_pos (hrun.imp_right waiting_empty))), exec_nvmeAbort_answers h⟩
  case admin =>
    refine ⟨fun hf => ?controller, fun x hf hns hon hlow hhigh hcap => ?attached, fun h2 h3 h10 h11 h12 h13 _ => ?cns,
      fun b hb => ?page, exec_nvmeGetLogPage_unknown h, fun hf hother => ?feature, fun hf => ?number,
      exec_nvmeGetFeatures_answers h, fun hf => ?noFeature, fun hevents => ?kept, fun e r hevents haers hroom => ?answered⟩
    case controller =>
      exact ⟨identifyController, exec_nvmeIdentify_data h (by rw [hf]; rfl), identifyController_data⟩
    case attached =>
      exact ⟨x.identify c.nsid, exec_nvmeIdentify_data h (by rw [hf]; exact identify_attached hns hon hlow hhigh),
        identify_data c.nsid hcap⟩
    case cns =>
      refine exec_nvmeIdentify_refused h (identify_unknown _ _ ?_)
      simp only [List.mem_cons, List.not_mem_nil, or_false]
      omega
    case page =>
      have hread := exec_nvmeGetLogPage h hb
      exact ⟨fun hout => hread.trans (congrArg _ (if_pos hout)), fun hin =>
        ⟨_, hread.trans (congrArg _ (if_neg (Nat.not_lt.mpr hin))), logRead_retained _, logRead_changed _⟩⟩
    case feature =>
      refine ⟨(exec_nvmeSetFeatures h).trans (congrArg _ ((if_neg (by simp [hf])).trans (if_neg hother))), fun v hv hsel => ?_⟩
      rw [exec_nvmeGetFeatures h, if_neg (by simp [hf]), if_neg (by omega), decide_eq_true hsel, feature_set hother hv]
    case number =>
      have hsupported : ¬ isFeature (bits c.cdw10 7 0) = false := by rw [hf]; decide
      refine ⟨(exec_nvmeSetFeatures h).trans (congrArg _ ((if_neg hsupported).trans (if_pos hf))), fun hsel => ?_⟩
      rw [exec_nvmeGetFeatures h, if_neg hsupported, if_neg hsel, hf, feature_queues]
    case noFeature =>
      exact ⟨(exec_nvmeGetFeatures h).trans (congrArg _ (if_pos hf)), (exec_nvmeSetFeatures h).trans (congrArg _ (if_pos hf))⟩
    case kept => exact (exec_asynchronousEventRequest h).trans (congrArg _ (pumpEvents_none hevents))
    case answered =>
      have hone : (s.nvmeTake c).host.aers ++ [c.cid] = [c.cid] := congrArg (· ++ [c.cid]) haers
      exact (exec_asynchronousEventRequest h).trans (congrArg _ (pumpEvents_answers hevents hone hroom))
end

section
/-! The fabric ports: what the forwarding of frames, a control frame and an acknowledgement leave of a port and of the machine (R354,
R357 to R363). -/

namespace Sys2Proof.Machine

open Sys2Proof

/-- R351: what a change of a port makes of it. -/
theorem port_updPort_self (s : State) (k : Nat) (f : Port → Port) : (s.updPort k f).port k = f (s.port k) := by
  rw [State.port_updPort, if_pos rfl]

/-- R350: a fabric event that does nothing when the device is in service does nothing at all. -/
theorem withPort_idle {k : Nat} {s : State} {f : State → Res} (hk : k < 8) (h : f s = .next s) : withPort k s f = .next s := by
  by_cases hup : s.up = true
  · rw [withPort_runs f hk hup, h]
  · rw [withPort, if_pos hk, whenUp_down f (by simpa using hup)]

/-- R7: a count leaves every other object. -/
theorem stored_count_ne (s : State) {key k : Nat} (h : k ≠ key) (n : Nat) : (s.count key n).stored k = s.stored k := by
  rw [State.stored_count, if_neg h]

/-! ## Routing (R362) -/

/-- R362: the port with the most free credits is one of those asked for. -/
theorem bestPort_mem {s : State} {vl k : Nat} {ks : List Nat} (h : s.bestPort vl ks = some k) : k ∈ ks := by
  refine List.foldlRecOn (motive := fun b : Option Nat => ∀ k, b = some k → k ∈ ks) ks _ (fun _ h => by cases h) ?_ k h
  intro b hb j hj k h
  cases b with
  | none => exact Option.some.inj h ▸ hj
  | some i =>
    dsimp only at h
    split at h
    · exact Option.some.inj h ▸ hj
    · exact hb k h

theorem portUp_of_mem_portsOf {s : State} {k dir : Nat} (h : k ∈ s.portsOf dir) : s.portUp k = true := by
  simp only [State.portsOf, List.mem_filter, Bool.and_eq_true] at h
  exact h.2.1

/-- R362: a frame is routed only to a port that is up. -/
theorem portUp_of_routeFrame {s : State} {f : Frame} {dim : Option Nat} {k b : Nat} {dl : Bool}
    (h : s.routeFrame f dim = some (k, b, dl)) : s.portUp k = true := by
  unfold State.routeFrame at h
  dsimp only at h
  split at h
  case h_1 j hbest =>
    simp only [Option.some.injEq, Prod.mk.injEq] at h
    have hmem := bestPort_mem (Option.filter_eq_some_iff.mp hbest).1
    simp only [List.mem_filter, List.any_eq_true, List.contains_iff_mem] at hmem
    obtain ⟨_, dir, _, hports⟩ := hmem
    exact h.1 ▸ portUp_of_mem_portsOf hports
  case h_2 =>
    split at h
    · cases h
    · obtain ⟨j, hfind, hj⟩ := Option.map_eq_some_iff.mp h
      simp only [Prod.mk.injEq] at hj
      exact hj.1 ▸ portUp_of_mem_portsOf (List.mem_of_find?_eq_some hfind)

/-! ## Frames that are forwarded (R362, R363) -/

/-- R362: a port without the frames that routing gives it and the credits that they use. -/
def Port.unrouted (p : Port) : Port := { p with used := [], queue := [] }

/-- R362: the machine without its ports and the frames that wait. -/
def State.unrouted (s : State) : State := { s with fabric := { s.fabric with ports := [], waiting := [] } }

/-- R362, R363: forwarding frames has led from s to t: it has given frames to ports that are up, or left them to wait. -/
structure Forwarded (s t : State) : Prop where
  rest : t.unrouted = s.unrouted
  kept : ∀ k, (t.port k).unrouted = (s.port k).unrouted
  notUp : ∀ k, s.portUp k = false → t.port k = s.port k

namespace Forwarded

variable {s t u : State}

theorem refl (s : State) : Forwarded s s := ⟨rfl, fun _ => rfl, fun _ _ => rfl⟩

theorem portUp (h : Forwarded s t) (k : Nat) : t.portUp k = s.portUp k := by
  have hod : t.od = s.od := (congrArg State.od h.rest :)
  have hdomains : t.domains = s.domains := (congrArg State.domains h.rest :)
  have hlink : (t.port k).link = (s.port k).link := (congrArg Port.link (h.kept k) :)
  unfold State.portUp State.isMidway State.stored State.domOff State.domain
  rw [hod, hdomains, hlink]

theorem trans (h : Forwarded s t) (h' : Forwarded t u) : Forwarded s u :=
  ⟨h'.rest.trans h.rest, fun k => (h'.kept k).trans (h.kept k),
    fun k hk => (h'.notUp k ((h.portUp k).trans hk)).trans (h.notUp k hk)⟩

theorem od (h : Forwarded s t) : t.od = s.od := (congrArg State.od h.rest :)

theorem reasm (h : Forwarded s t) : t.fabric.reasm = s.fabric.reasm := (congrArg (fun s => s.fabric.reasm) h.rest :)

theorem msgs (h : Forwarded s t) : t.fabric.msgs = s.fabric.msgs := (congrArg (fun s => s.fabric.msgs) h.rest :)

theorem nextMsg (h : Forwarded s t) : t.fabric.nextMsg = s.fabric.nextMsg := (congrArg (fun s => s.fabric.nextMsg) h.rest :)

theorem inbox (h : Forwarded s t) : t.fabric.inbox = s.fabric.inbox := (congrArg (fun s => s.fabric.inbox) h.rest :)

theorem foldl {α : Type} {g : State → α → State} (h : ∀ u x, Forwarded u (g u x)) (l : List α) (s : State) :
    Forwarded s (l.foldl g s) :=
  List.foldlRecOn (motive := fun u => Forwarded s u) l g (.refl s) fun u hu x _ => hu.trans (h u x)

end Forwarded

/-- R362, R363: a frame goes to the port that routing finds for it, or the frames that wait become `w`. -/
def State.routed (s : State) (q : QFrame) (w : List QFrame) : State :=
  match s.routeFrame q.frame q.dim with
  | some (k, b, dl) =>
    let f := { q.frame with esc := b ≠ 0, dl := dl }
    s.updPort k fun p => { p.use (bufOf f.vl b) f.credits with queue := p.queue ++ [{ q with frame := f, since := s.gtc }] }
  | none => { s with fabric := { s.fabric with waiting := w } }

theorem routed_forwarded (s : State) (q : QFrame) (w : List QFrame) : Forwarded s (s.routed q w) := by
  unfold State.routed
  split
  case h_1 k b dl hroute =>
    refine ⟨rfl, fun j => ?_, fun j hj => ?_⟩
    · rw [State.port_updPort]
      split
      case isTrue h => rw [h]; rfl
      case isFalse => rfl
    · have hne : j ≠ k := fun h => by simp [h, portUp_of_routeFrame hroute] at hj
      rw [State.port_updPort, if_neg hne]
  case h_2 => exact ⟨rfl, fun _ => rfl, fun _ _ => rfl⟩

theorem forward_forwarded (s : State) (q : QFrame) : Forwarded s (s.forward q) := by
  have h : s.forward q = s.routed q (s.fabric.waiting ++ [{ q with since := s.gtc }]) := by
    unfold State.forward State.routed
    rfl
  exact h ▸ routed_forwarded ..

/-- R363: the waiting frames go on, or wait on. -/
theorem retryWaiting_forwarded (s : State) : Forwarded s s.retryWaiting := by
  have hnone : Forwarded s { s with fabric := { s.fabric with waiting := [] } } := ⟨rfl, fun _ => rfl, fun _ _ => rfl⟩
  refine hnone.trans (.foldl (fun u q => ?_) _ _)
  exact routed_forwarded u q (u.fabric.waiting ++ [q])

/-- R361: frames that are routed again leave their port empty. -/
theorem reroute_forwarded (s : State) (k : Nat) : Forwarded (s.updPort k fun p => { p with held := [], queue := [] }) (s.reroute k) :=
  .foldl forward_forwarded _ _

/-! ## Control frames and acknowledgements (R357, R360) -/

/-- R357: a control frame goes out with LACK; a scrub of DEVICE scope lets IDLE and CREDIT frames through. -/
theorem control_sent {s : State} {ftype : Nat} (h : s.deviceScrub = false ∨ ftype < 3) (k : Nat) (payload : Bytes) :
    s.control k ftype payload = s.emit (.frame k { ftype := ftype, lack := (s.port k).rxSeq, payload := payload }) := by
  unfold State.control
  rcases h with h | h
  · simp [h]
  · simp [Nat.not_le.mpr h]

end Sys2Proof.Machine
end

section
/-! Delivery to a fabric port (R376 to R378), and the doorbells that retire and redeliver a slot (R320, R325 to R329). -/

namespace Sys2Proof.Machine

open Sys2Proof

/-! ## FABRIC_DELIVER (R376 to R378) -/

/-- R377: the batch that DELIVER sends next, under the DLV_SEQ that it takes. -/
def State.sending (s : State) (n : Nat) (b : OpenBatch) : OpenBatch := { b with state := .writing, dlvSeq := (s.stream n).dlv.dlvSeq }

/-- R377: the batch is being written under its DLV_SEQ, the next one is one higher, and the delivery queue pair exists. -/
def State.takeDlvSeq (s : State) (n : Nat) (b : OpenBatch) : State :=
  ((s.updBatch n b.k fun _ => s.sending n b).updDlv n fun d => { d with dlvSeq := d.dlvSeq + 1 }).ensureQp n

/-- R369: seeing to the delivery queue pair leaves the run, the fence and DLV_SEQ of a stream. -/
theorem ensureQp_stream (s : State) (n : Nat) : (s.ensureQp n).run n = s.run n ∧ ((s.ensureQp n).stream n).prot = (s.stream n).prot ∧
    ((s.ensureQp n).stream n).dlv.dlvSeq = (s.stream n).dlv.dlvSeq := by
  unfold State.ensureQp State.run
  dsimp only
  rw [State.stream_updDlv, if_pos rfl]
  exact ⟨rfl, rfl, rfl⟩

theorem takeDlvSeq_stream (s : State) (n : Nat) (b : OpenBatch) :
    ((s.takeDlvSeq n b).run n).batches = ((s.run n).batches.map fun x => if x.k = b.k then s.sending n b else x) ∧
    ((s.takeDlvSeq n b).stream n).prot = (s.stream n).prot ∧
    ((s.takeDlvSeq n b).stream n).dlv.dlvSeq = (s.stream n).dlv.dlvSeq + 1 := by
  obtain ⟨hrun, hprot, hseq⟩ :=
    ensureQp_stream ((s.updBatch n b.k fun _ => s.sending n b).updDlv n fun d => { d with dlvSeq := d.dlvSeq + 1 }) n
  unfold State.takeDlvSeq
  rw [hrun, hprot, hseq, dlv_updDlv, State.updBatch, dlv_updRun]
  refine ⟨?_, ?_, rfl⟩
  · rw [← batches_updBatch s n b.k fun _ => s.sending n b]
    unfold State.run
    rw [State.stream_updDlv, if_pos rfl]
    rfl
  · rw [State.stream_updDlv, if_pos rfl, State.stream_updRun, if_pos rfl]

theorem exec_fabricDeliver_eq (n : Nat) (s : State) : exec (.fabricDeliver n) s = execFabricDeliver n s := rfl

section Deliver

variable {s : State} {n : Nat} (hn : n < 64)
include hn

/-- R377, R378: nothing is written without a fabric port, credits, their fence or a settled batch. -/
theorem exec_fabricDeliver_waits (h : s.toFabric n = false ∨ (s.stream n).dlv.granted ≤ (s.stream n).dlv.dlvSeq ∨
    (s.stream n).prot.fenceEpoch < (s.stream n).dlv.creditFence ∨ s.nextDelivery n = none) : exec (.fabricDeliver n) s = .next s := by
  rw [exec_fabricDeliver_eq, execFabricDeliver]
  refine withStream_idle hn ?_
  dsimp only
  rcases h with h | h | h | h
  · simp [h]
  · simp [h]
  · simp [h]
  · rw [h]
    exact ite_self _

/-- R377: without a port that could take it nothing is written. -/
theorem exec_fabricDeliver_noPort (hproto : imgProto (s.imageOf n).image ≠ 1) (hport : s.deliveryPort n = none) :
    exec (.fabricDeliver n) s = .next s := by
  cases hnext : s.nextDelivery n with
  | none => exact exec_fabricDeliver_waits hn (.inr (.inr (.inr hnext)))
  | some b =>
    rw [exec_fabricDeliver_eq, execFabricDeliver]
    refine withStream_idle hn ?_
    simp only [hnext, if_neg hproto, hport]
    exact ite_self _

variable (hup : s.up = true) (hfabric : s.toFabric n = true) (hfence : (s.stream n).dlv.creditFence ≤ (s.stream n).prot.fenceEpoch)
  (hcredit : (s.stream n).dlv.dlvSeq < (s.stream n).dlv.granted) {b : OpenBatch} (hnext : s.nextDelivery n = some b)
include hup hfabric hfence hcredit hnext

/-- R377: within its credits a stream sends its next settled batch, by the protocol of its DELIVER stage. -/
theorem exec_fabricDeliver_sends : exec (.fabricDeliver n) s =
    if imgProto (s.imageOf n).image = 1 then
      if s.inTorus (s.stored (oDlvRemoteCoord n)) then
        .next (((s.takeDlvSeq n b).sendNotify n (s.sending n b)).deliverOwn (s.takeDlvSeq n b).fabric.nextMsg)
      else .next (((s.takeDlvSeq n b).holdStream n stUnreachable).notice 1 stUnreachable n 0)
    else .next ((s.deliveryPort n).elim s fun k => (s.takeDlvSeq n b).sendRdma n k (s.sending n b)) := by
  rw [exec_fabricDeliver_eq, execFabricDeliver, withStream_runs _ hn hup]
  simp only [hfabric, hnext, Nat.not_le.mpr hcredit, Nat.not_lt.mpr hfence, Bool.not_true, Bool.false_or, decide_false,
    Bool.false_eq_true, if_false]
  cases s.deliveryPort n <;> rfl

end Deliver

/-- R376: what goes out for a batch on a RoCEv2 queue pair; no stream is changed. -/
theorem sendRdma_spec (s : State) (n k : Nat) (b : OpenBatch) :
    (s.sendRdma n k b).streams = s.streams ∧
    (s.sendRdma n k b).out = s.out ++ [.rdmaWrite k (s.stored (oDlvRemoteQpn n)) (s.stored (oDlvRaddr n) + s.remoteOffset n b.dlvSeq)
      (s.stored (oDlvRkey n)) (s.immediate n b.dlvSeq) b.content] := ⟨rfl, rfl⟩

/-- R376, R377: the RDMA WRITE of a batch names the consumer's slot, and the stream's fence and DLV_SEQ in its immediate. -/
theorem takeDlvSeq_sendRdma (s : State) (n k : Nat) (b : OpenBatch) :
    let d := (s.stream n).dlv
    let t := (s.takeDlvSeq n b).sendRdma n k (s.sending n b)
    (t.stream n).dlv.dlvSeq = d.dlvSeq + 1 ∧
    t.out = s.out ++ [.rdmaWrite k (s.stored (oDlvRemoteQpn n))
      (s.stored (oDlvRaddr n) + d.dlvSeq % max 1 (s.stored (oDlvRslots n)) * s.stored (oDlvRslotBytes n))
      (s.stored (oDlvRkey n)) ((s.stream n).prot.fenceEpoch % 256 * 2 ^ 24 + d.dlvSeq % 2 ^ 24) b.content] ∧
    (t.run n).batches = (s.run n).batches.map fun x => if x.k = b.k then s.sending n b else x := by
  obtain ⟨hbatches, hprot, hseq⟩ := takeDlvSeq_stream s n b
  obtain ⟨hstreams, hout⟩ := sendRdma_spec (s.takeDlvSeq n b) n k (s.sending n b)
  have hstored : ∀ key, (s.takeDlvSeq n b).stored key = s.stored key := fun _ => rfl
  dsimp only
  unfold State.run at hbatches ⊢
  unfold State.stream at hbatches hseq ⊢
  rw [hstreams, hout, State.immediate, hprot, State.remoteOffset]
  simp only [hstored]
  exact ⟨hseq, rfl, hbatches⟩

theorem notice_streams (s : State) (kind status subject detail : Nat) : (s.notice kind status subject detail).streams = s.streams :=
  (congrArg State.streams (notice_eq s kind status subject detail) :)

/-- R363: a stream that is held because its consumer cannot be reached. -/
theorem holdNotice_stream (s : State) (n st kind subject detail : Nat) :
    (((s.holdStream n st).notice kind st subject detail).stream n).state = .held ∧
      (((s.holdStream n st).notice kind st subject detail).stream n).lastStatus = st := by
  have hstream := congrArg (fun l => Tbl.get l {} n) (notice_streams (s.holdStream n st) kind st subject detail)
  obtain ⟨hstate, hstatus⟩ := holdStream_state s n st
  exact ⟨(congrArg Stream.state hstream).trans hstate, (congrArg Stream.lastStatus hstream).trans hstatus⟩

/-! ## Doorbells (R320, R325 to R329) -/

/-- R326: what a refused doorbell leaves: DB_STATUS names it, and the slots and the jobs are as they were. -/
theorem doorRefused_spec (s : State) (n st : Nat) {i : Nat} (hi : i < 65536) :
    ((s.doorRefused n st i).stream n).dlv.dbLast = st ∧ ((s.doorRefused n st i).stream n).dlv.dbSlot = i ∧
    ((s.doorRefused n st i).stream n).dlv.dbCount = ((s.stream n).dlv.dbCount + 1) % 2 ^ 32 ∧
    ((s.doorRefused n st i).stream n).dlv.slots = (s.stream n).dlv.slots ∧ (s.doorRefused n st i).jobs = s.jobs := by
  unfold State.doorRefused
  rw [dlv_updDlv]
  exact ⟨rfl, Nat.mod_eq_of_lt hi, rfl, rfl, rfl⟩

/-- R320: what a slot is once it is retired in a stream of a state. -/
def Slot.retiredIn (st : StreamState) (x : Slot) : Slot :=
  if st = .loaded || st = .moved then { x.freed with state := .retired } else x.freed

theorem retiredIn_spec (st : StreamState) (x : Slot) :
    (x.retiredIn st).state = (if st = .loaded ∨ st = .moved then .retired else .free) ∧ (x.retiredIn st).gen = (x.gen + 1) % 2 ^ 32 := by
  unfold Slot.retiredIn
  cases st <;> exact ⟨rfl, rfl⟩

/-- R320, R325: the delivery record once slot i is retired: RETIRED_SEQ counts no backfill slot. -/
def DlvSt.retire (st : StreamState) (i : Nat) (d : DlvSt) : DlvSt :=
  { d with slots := Tbl.upd d.slots {} i (Slot.retiredIn st)
           retiredSeq := d.retiredSeq + (if (Tbl.get d.slots {} i).bfill then 0 else 1) }

theorem retireSlot_dlv (s : State) (n i : Nat) :
    ((s.retireSlot n i).stream n).dlv = (s.stream n).dlv.retire (s.stream n).state i := by
  have hjobs : ∀ (u : State) k g, (((u.retireJobs n k).updRun n g).stream n).dlv = (u.stream n).dlv := fun u k g => by
    rw [dlv_updRun]
    rfl
  unfold State.retireSlot DlvSt.retire
  dsimp only
  split
  case isTrue hbfill =>
    unfold State.slot at hbfill
    rw [State.updSlot, dlv_updDlv, if_pos hbfill]
    rfl
  case isFalse hbfill =>
    unfold State.slot at hbfill
    rw [if_neg hbfill]
    split
    · rw [hjobs, dlv_updDlv, State.updSlot, dlv_updDlv]
      rfl
    · rw [dlv_updDlv, State.updSlot, dlv_updDlv]
      rfl

/-- R320: the slot that a retirement leaves, and RETIRED_SEQ. -/
theorem retireSlot_spec (s : State) (n i : Nat) :
    ((s.retireSlot n i).slot n i).state = (if (s.stream n).state = .loaded ∨ (s.stream n).state = .moved then .retired else .free) ∧
    ((s.retireSlot n i).slot n i).gen = ((s.slot n i).gen + 1) % 2 ^ 32 ∧
    ((s.retireSlot n i).stream n).dlv.retiredSeq = (s.stream n).dlv.retiredSeq + (if (s.slot n i).bfill then 0 else 1) := by
  have hslot : (s.retireSlot n i).slot n i = (s.slot n i).retiredIn (s.stream n).state := by
    unfold State.slot
    rw [retireSlot_dlv]
    exact Tbl.get_upd_self ..
  obtain ⟨hstate, hgen⟩ := retiredIn_spec (s.stream n).state (s.slot n i)
  rw [hslot]
  exact ⟨hstate, hgen, congrArg DlvSt.retiredSeq (retireSlot_dlv s n i)⟩

/-- R413: what is read of streams and objects does not depend on the domains that a doorbell keeps awake. -/
theorem touch_doors (s : State) (d n : Nat) : (s.touch d).streams = s.streams ∧ (s.touch d).jobs = s.jobs ∧
    (∀ key, (s.touch d).stored key = s.stored key) ∧ (s.touch d).scrubbed n = s.scrubbed n ∧
    ∀ i gen, (s.touch d).doorCheck n i gen = s.doorCheck n i gen := by
  rw [touch_eq]
  exact ⟨rfl, rfl, fun _ => rfl, rfl, fun _ _ => rfl⟩

theorem stream_of_streams {s t : State} (h : t.streams = s.streams) (n : Nat) : t.stream n = s.stream n := by
  unfold State.stream
  rw [h]

theorem bits_lt_65536 (v : Nat) : bits v 15 0 < 65536 := Nat.mod_lt _ (by decide)

/-- R327: the status with which DB_REDELIVER is refused, or SUCCESS. -/
def State.redeliverCheck (s : State) (n i gen : Nat) : Nat :=
  if !s.scrubbed n && (s.stream n).state = .moved then stMoved else s.doorCheck n i gen

theorem redeliverCheck_moved {s : State} {n : Nat} (hscrub : s.scrubbed n = false) (hmoved : (s.stream n).state = .moved) (i gen : Nat) :
    s.redeliverCheck n i gen = stMoved := if_pos (by simp [hscrub, hmoved])

theorem redeliverCheck_stays {s : State} {n : Nat} (h : (s.stream n).state ≠ .moved ∨ s.scrubbed n = true) (i gen : Nat) :
    s.redeliverCheck n i gen = s.doorCheck n i gen := if_neg (by rcases h with h | h <;> simp [h])

section Door

variable {s : State} {n v : Nat} (hn : n < 64) (hup : s.up = true)
include hn hup

theorem exec_dbRetire_check : exec (.dbRetire n v) s =
    if s.doorCheck n (bits v 15 0) (bits v 63 32) = stSuccess then .next ((s.touch 0).retireSlot n (bits v 15 0))
    else .next ((s.touch 0).doorRefused n (s.doorCheck n (bits v 15 0) (bits v 63 32)) (bits v 15 0)) := by
  obtain ⟨-, -, -, -, hcheck⟩ := touch_doors s 0 n
  have hrow : exec (.dbRetire n v) s = execDbRetire n v s := rfl
  rw [hrow, execDbRetire, withStream_runs _ hn hup]
  simp only [hcheck]

/-- R327, R329: DB_REDELIVER of a stream that has moved is refused with STREAM_MOVED, unless its tenant is being scrubbed. -/
theorem exec_dbRedeliver_check : exec (.dbRedeliver n v) s =
    if s.redeliverCheck n (bits v 15 0) (bits v 63 32) = stSuccess then
      .next (((s.touch 0).updSlot n (bits v 15 0) fun x => { x with state := .pending }).count (oRedeliveries n) 1)
    else .next ((s.touch 0).doorRefused n (s.redeliverCheck n (bits v 15 0) (bits v 63 32)) (bits v 15 0)) := by
  obtain ⟨hstreams, -, -, hscrub, hcheck⟩ := touch_doors s 0 n
  have hrow : exec (.dbRedeliver n v) s = execDbRedeliver n v s := rfl
  rw [hrow, execDbRedeliver, withStream_runs _ hn hup]
  simp only [hcheck, hscrub, stream_of_streams hstreams n]
  rfl

end Door

/-- R326: a doorbell that is refused with a status. -/
def State.RefusesDoor (s t : State) (n i st : Nat) : Prop :=
  (t.stream n).dlv.dbLast = st ∧ (t.stream n).dlv.dbSlot = i ∧ (t.stream n).dlv.dbCount = ((s.stream n).dlv.dbCount + 1) % 2 ^ 32 ∧
    (t.stream n).dlv.slots = (s.stream n).dlv.slots ∧ t.jobs = s.jobs

theorem touch_refusesDoor (s : State) (n v st : Nat) :
    s.RefusesDoor ((s.touch 0).doorRefused n st (bits v 15 0)) n (bits v 15 0) st := by
  obtain ⟨hstreams, hjobs, -⟩ := touch_doors s 0 n
  obtain ⟨hlast, hslot, hcount, hslots, hkept⟩ := doorRefused_spec (s.touch 0) n st (bits_lt_65536 v)
  rw [stream_of_streams hstreams n] at hcount hslots
  exact ⟨hlast, hslot, hcount, hslots, hkept.trans hjobs⟩

/-- R320: the retirement of a READY slot, by what the stream and its slot were. -/
theorem touch_retireSlot (s : State) (n i : Nat) :
    let t := (s.touch 0).retireSlot n i
    (t.slot n i).state = (if (s.stream n).state = .loaded ∨ (s.stream n).state = .moved then .retired else .free) ∧
    (t.slot n i).gen = ((s.slot n i).gen + 1) % 2 ^ 32 ∧
    (t.stream n).dlv.retiredSeq = (s.stream n).dlv.retiredSeq + (if (s.slot n i).bfill then 0 else 1) := by
  have hspec := retireSlot_spec (s.touch 0) n i
  have hstream := stream_of_streams (touch_doors s 0 n).1 n
  have hslot : (s.touch 0).slot n i = s.slot n i := slot_of_slots (by rw [hstream]) i
  rwa [hstream, hslot] at hspec

/-- R327: the slot whose batch is delivered again, and the count of such deliveries. -/
theorem touch_redeliver (s : State) (n i : Nat) :
    let t := ((s.touch 0).updSlot n i fun x => { x with state := .pending }).count (oRedeliveries n) 1
    (t.slot n i).state = .pending ∧ (t.slot n i).gen = (s.slot n i).gen ∧
      t.stored (oRedeliveries n) = s.stored (oRedeliveries n) + 1 := by
  obtain ⟨hstreams, -, hstored, -⟩ := touch_doors s 0 n
  have hslot : (s.touch 0).slot n i = s.slot n i := slot_of_slots (by rw [stream_of_streams hstreams n]) i
  have hpending : ∀ u : State, ((u.updSlot n i fun x => { x with state := .pending }).slot n i) = { u.slot n i with state := .pending } :=
    fun u => by rw [slot_updSlot, if_pos rfl]
  have hgen := congrArg Slot.gen hslot
  refine ⟨congrArg Slot.state (hpending _), (congrArg Slot.gen (hpending _)).trans hgen, ?_⟩
  rw [State.stored_count, if_pos rfl]
  exact congrArg (· + 1) (hstored _)

end Sys2Proof.Machine

open Sys2Proof Sys2Proof.Machine in
/-- Settles O21: what holds a delivery to a fabric port back, how a batch goes out under each protocol, and what each doorbell comes
to by the status of its checks. -/
theorem fabricDeliveryAndDoorbells : Obligations.FabricDeliveryAndDoorbells := by
  unfold Obligations.FabricDeliveryAndDoorbells
  refine ⟨⟨fun s n hn h => ?_, ?_⟩, ?_⟩
  · rcases h with h | h | h | ⟨hproto, hport⟩
    · exact exec_fabricDeliver_waits hn (.inl h)
    · exact exec_fabricDeliver_waits hn (.inr (.inr (.inl h)))
    · exact exec_fabricDeliver_waits hn (.inr (.inr (.inr h)))
    · exact exec_fabricDeliver_noPort hn hproto hport
  · intro s n b d w hn hup hfabric hfence
    refine ⟨fun h => exec_fabricDeliver_waits hn (.inr (.inl h)), fun k hcredit hnext hproto hport => ?_,
      fun hcredit hnext hproto htorus => ?_, fun hcredit hnext hproto htorus => ?_⟩
    · refine ⟨(s.takeDlvSeq n b).sendRdma n k (s.sending n b), ?_, takeDlvSeq_sendRdma s n k b⟩
      rw [exec_fabricDeliver_sends hn hup hfabric hfence hcredit hnext, if_neg hproto, hport]
      rfl
    · exact (exec_fabricDeliver_sends hn hup hfabric hfence hcredit hnext).trans ((if_pos hproto).trans (if_pos htorus))
    · refine ⟨_, (exec_fabricDeliver_sends hn hup hfabric hfence hcredit hnext).trans ((if_pos hproto).trans ?_),
        holdNotice_stream (s.takeDlvSeq n b) n stUnreachable 1 n 0⟩
      rw [htorus]
      rfl
  · intro s n v i x st refusedWith hn hup
    have hretire := exec_dbRetire_check (v := v) hn hup
    have hredeliver := exec_dbRedeliver_check (v := v) hn hup
    have hrefused : ∀ st, s.RefusesDoor ((s.touch 0).doorRefused n st i) n i st := touch_refusesDoor s n v
    refine ⟨fun h => ⟨_, hretire.trans (if_pos h), touch_retireSlot s n i⟩, fun h hmoved => ?_, fun hscrub hmoved => ?_,
      fun h => ⟨_, hretire.trans (if_neg h), hrefused st⟩, fun h hstays => ?_⟩
    · rw [redeliverCheck_stays (.inl hmoved)] at hredeliver
      exact ⟨_, hredeliver.trans (if_pos h), touch_redeliver s n i⟩
    · rw [redeliverCheck_moved hscrub hmoved] at hredeliver
      exact ⟨_, hredeliver.trans (if_neg (by decide)), hrefused stMoved⟩
    · rw [redeliverCheck_stays hstays] at hredeliver
      exact ⟨_, hredeliver.trans (if_neg h), hrefused st⟩
end

section
/-! The links of the Midway ports: a lock and its loss, the VERSION frames, and retraining (R353, R354, R361, R418). -/

namespace Sys2Proof.Machine

open Sys2Proof

/-! ## What sending and replaying leave of a port (R357, R359 to R361) -/

/-- Things that go out one after another stand at the end of what has gone out. -/
theorem foldl_emit {α : Type} (g : α → Emit) (l : List α) (s : State) :
    l.foldl (fun s x => s.emit (g x)) s = { s with out := s.out ++ l.map g } := by
  induction l generalizing s with
  | nil => simp
  | cons x l ih =>
    rw [List.foldl_cons, ih]
    simp [State.emit]

/-- R351: a change of a port counts by what it makes of the port as it stands. -/
theorem updPort_congr {s : State} {k : Nat} {f g : Port → Port} (h : f (s.port k) = g (s.port k)) : s.updPort k f = s.updPort k g := by
  unfold State.port at h
  unfold State.updPort Tbl.upd
  rw [h]

theorem control_fabric (s : State) (k ftype : Nat) (payload : Bytes) : (s.control k ftype payload).fabric = s.fabric := by
  unfold State.control
  split <;> rfl

theorem port_of_fabric {s t : State} (h : t.fabric = s.fabric) (k : Nat) : t.port k = s.port k := by
  unfold State.port
  rw [h]

/-- R359: a CREDIT frame notes that it was sent, and when. -/
theorem sendCredit_port (s : State) (k : Nat) :
    (s.sendCredit k).port k = { s.port k with creditDue := false, creditGtc := s.gtc } := by
  unfold State.sendCredit
  rw [port_updPort_self, port_of_fabric (control_fabric s k 2 _)]

theorem replay_nothing {s : State} {k : Nat} (h : (s.port k).held = []) : s.replay k = s := by
  unfold State.replay
  simp [h]

/-- R360: a port that has replayed its held frames once more. -/
def Port.replayed (gtc : Nat) (p : Port) : Port := { p with replays := p.replays + 1, lackGtc := gtc }

/-- R360, R361: the held frames are sent again, and the replay is counted. -/
theorem replay_sends {s : State} {k : Nat} (hscrub : s.deviceScrub = false) (hheld : (s.port k).held ≠ [])
    (hfew : (s.port k).replays < 16) : s.replay k =
      (State.count { s with out := s.out ++ (s.port k).held.map fun h => .frame k { h.2 with lack := (s.port k).rxSeq } }
        (oReplays k) 1).updPort k (Port.replayed s.gtc) := by
  unfold State.replay
  have hsome : (s.port k).held.isEmpty = false := by simpa using hheld
  simp only [hsome, hscrub, Nat.not_le.mpr hfew, Bool.or_self, Bool.false_eq_true, if_false]
  rw [foldl_emit]
  exact updPort_congr rfl

/-- R361: after 16 replays the link goes into RETRAIN. -/
theorem replay_retrains {s : State} {k : Nat} (hscrub : s.deviceScrub = false) (hheld : (s.port k).held ≠ [])
    (hmany : 16 ≤ (s.port k).replays) : s.replay k = s.updPort k fun p => { p with link := .retrain, retrainGtc := s.gtc } := by
  unfold State.replay
  simp [hscrub, hheld, hmany]

/-! ## The standing of a link -/

/-- R353, R381: LINK_STATE, LINK_VERSION, PEER_PARTITION and PORT_DOWN_CAUSE of a port. -/
def Port.standingOf (p : Port) : LinkState × Nat × Nat × Nat := (p.link, p.version, p.peerPartition, p.cause)

theorem standingOf_spec {p : Port} {link : LinkState} {version partition cause : Nat} (h : p.standingOf = (link, version, partition, cause)) :
    p.version = version ∧ p.peerPartition = partition ∧ p.cause = cause ∧ p.link = link := by
  simp only [Port.standingOf, Prod.mk.injEq] at h
  obtain ⟨hlink, hversion, hpartition, hcause⟩ := h
  exact ⟨hversion, hpartition, hcause, hlink⟩

theorem Forwarded.standingOf {s t : State} (h : Forwarded s t) (k : Nat) : (t.port k).standingOf = (s.port k).standingOf :=
  (congrArg Port.standingOf (h.kept k) :)

theorem replay_standingOf {s : State} {k : Nat} (h : (s.port k).replays < 16) :
    ((s.replay k).port k).standingOf = (s.port k).standingOf := by
  by_cases hscrub : s.deviceScrub = false
  · by_cases hheld : (s.port k).held = []
    · rw [replay_nothing hheld]
    · rw [replay_sends hscrub hheld h, port_updPort_self]
      rfl
  · unfold State.replay
    simp [hscrub]

/-- R353, R354: a link that comes up stands UP, under the version and for the partition agreed. -/
theorem linkUp_standingOf (s : State) (k version partition : Nat) :
    ((s.linkUp k version partition).port k).standingOf = (.up, version, partition, 0) := by
  unfold State.linkUp
  dsimp only
  rw [(retryWaiting_forwarded _).standingOf, sendCredit_port]
  split
  · refine (replay_standingOf (by rw [port_updPort_self]; exact Nat.zero_lt_succ 15)).trans ?_
    rw [port_updPort_self, port_updPort_self]
    rfl
  · exact congrArg Port.standingOf (port_updPort_self s k _)

/-- R354: a link whose peer is of another partition is FENCED, and its frames take other ports. -/
def Port.fencedFor (gtc version partition : Nat) (p : Port) : Port :=
  { (if p.link = .training then p.fresh gtc else p) with link := .fenced, version := version, peerPartition := partition, cause := 0 }

theorem fenced_standingOf (s : State) (k version partition : Nat) :
    (((s.updPort k (Port.fencedFor s.gtc version partition)).reroute k).port k).standingOf = (.fenced, version, partition, 0) := by
  rw [(reroute_forwarded _ k).standingOf, port_updPort_self, port_updPort_self]
  rfl

/-- R353, R361: a link that goes DOWN holds and queues no frame: its own frames are routed to ports that are up. -/
theorem linkDown_port (s : State) (k cause : Nat) :
    ((s.linkDown k cause).port k).link = .down ∧ ((s.linkDown k cause).port k).cause = cause ∧
      ((s.linkDown k cause).port k).held = [] ∧ ((s.linkDown k cause).port k).queue = [] := by
  unfold State.linkDown
  dsimp only
  rw [(reroute_forwarded _ k).notUp k (by simp [State.portUp, port_updPort_self]), port_updPort_self, port_updPort_self]
  exact ⟨rfl, rfl, rfl, rfl⟩

/-! ## The events of a link -/

/-- R353: a port whose PCS has locked while its link was in a state: from DOWN it starts training. -/
def Port.locked (l : LinkState) (p : Port) : Port :=
  { p with pcs := true, link := if l = .down then .training else l, cause := if l = .down then 0 else p.cause }

/-- R354: the versions that both ends speak: the highest of the lows, and the lowest of the highs. -/
def State.versionsWith (s : State) (f : Frame) : Nat × Nat :=
  (max 1 (fieldAt f.payload 0 1), min (s.stored oMidwayVerMax) (fieldAt f.payload 1 1))

/-- R353: the peer stands where the geometry puts the neighbour of port k, and faces it. -/
def State.rightPeer (s : State) (k : Nat) (f : Frame) : Prop :=
  packCoord (fieldAt f.payload 8 1) (fieldAt f.payload 9 1) (fieldAt f.payload 10 1) = s.neighbour (s.portDir k) ∧
    fieldAt f.payload 11 1 = s.portDir k ^^^ 1

section Events

variable {s : State} {k : Nat} (hk : k < 8)
include hk

theorem exec_retrainTimeout_early (h : (s.port k).link ≠ .retrain ∨ s.gtc < (s.port k).retrainGtc + 10 * Config.ms) :
    exec (.retrainTimeout k) s = .next s := by
  have hrow : exec (.retrainTimeout k) s = execRetrainTimeout k s := rfl
  rw [hrow, execRetrainTimeout]
  refine withPort_idle hk (if_neg ?_)
  rcases h with h | h
  · simp [h]
  · simp [Nat.not_le.mpr h]

variable (hup : s.up = true)
include hup

theorem exec_retrainTimeout_down (hlink : (s.port k).link = .retrain) (h : (s.port k).retrainGtc + 10 * Config.ms ≤ s.gtc) :
    exec (.retrainTimeout k) s = .next (s.linkDown k 3) := by
  have hrow : exec (.retrainTimeout k) s = execRetrainTimeout k s := rfl
  rw [hrow, execRetrainTimeout, withPort_runs _ hk hup]
  exact if_pos (by simp [hlink, h])

theorem exec_linkPcsLoss_down (hmidway : s.isMidway k = true) (h : (s.port k).link ≠ .down) :
    exec (.linkPcsLoss k) s = .next (s.linkDown k 4) := by
  have hrow : exec (.linkPcsLoss k) s = execLinkPcsLoss k s := rfl
  rw [hrow, execLinkPcsLoss, withPort_runs _ hk hup]
  exact if_pos (by simp [hmidway, h])

/-- R353: a lock sends a VERSION frame. -/
theorem exec_linkPcsLock_sends (hscrub : s.deviceScrub = false) (hon : s.portOn k = true)
    (h : (s.port k).link = .down ∨ (s.port k).link = .retrain) : exec (.linkPcsLock k) s =
      .next ((s.updPort k (Port.locked (s.port k).link)).emit
        (.frame k { ftype := 4, lack := (s.port k).rxSeq, payload := s.versionPayload k })) := by
  have hrow : exec (.linkPcsLock k) s = execLinkPcsLock k s := rfl
  have hlocks : ((s.port k).link == .down || (s.port k).link == .retrain) = true := by rcases h with h | h <;> simp [h]
  have hlack : ((s.updPort k (Port.locked (s.port k).link)).port k).rxSeq = (s.port k).rxSeq := by
    rw [port_updPort_self]
    rfl
  rw [hrow, execLinkPcsLock, withPort_runs _ hk hup]
  simp only [hon, hlocks, Bool.not_true, Bool.or_self, Bool.false_eq_true, if_false]
  have hsent := control_sent (s := s.updPort k (Port.locked (s.port k).link)) (ftype := 4) (.inl hscrub) k (s.versionPayload k)
  rw [hlack] at hsent
  exact congrArg Host.Outcome.next hsent

variable {f : Frame} (hon : s.portOn k = true) (hpcs : (s.port k).pcs = true) (hlink : (s.port k).link ≠ .down) (hgood : f.good = true)
  (htype : f.ftype = 4)
include hon hpcs hlink hgood htype

/-- R353, R354: what the peer's VERSION frame makes of the link. -/
theorem exec_versionFrameReceive_answers :
    ((s.versionsWith f).2 < (s.versionsWith f).1 → exec (.versionFrameReceive k f) s = .next (s.linkDown k 1)) ∧
    ((s.versionsWith f).1 ≤ (s.versionsWith f).2 → ¬ s.rightPeer k f → exec (.versionFrameReceive k f) s = .next (s.linkDown k 2)) ∧
    ((s.versionsWith f).1 ≤ (s.versionsWith f).2 → s.rightPeer k f → exec (.versionFrameReceive k f) s =
      .next (if fieldAt f.payload 4 4 = s.stored oPartitionId then s.linkUp k (s.versionsWith f).2 (fieldAt f.payload 4 4)
        else (s.updPort k (Port.fencedFor s.gtc (s.versionsWith f).2 (fieldAt f.payload 4 4))).reroute k)) := by
  have hrow : exec (.versionFrameReceive k f) s = execVersionFrameReceive k f s := rfl
  rw [hrow, execVersionFrameReceive, withPort_runs _ hk hup]
  simp only [hon, hpcs, hlink, hgood, htype, Bool.not_true, ne_eq, not_true_eq_false, decide_false, Bool.or_self, Bool.false_eq_true,
    if_false]
  refine ⟨fun h => if_pos h, fun h hpeer => (if_neg (Nat.not_lt.mpr h)).trans (if_pos ?_),
    fun h hpeer => (if_neg (Nat.not_lt.mpr h)).trans ((if_neg ?_).trans ?_)⟩
  · unfold State.rightPeer at hpeer
    simpa [or_iff_not_imp_left] using hpeer
  · simp [hpeer.1, hpeer.2]
  · split <;> rfl

end Events

end Sys2Proof.Machine

open Sys2Proof Sys2Proof.Machine in
/-- Settles O32: each event of a link by the state in which it finds the port, and a link that goes DOWN by where its frames go. -/
theorem linkBringUp : Obligations.LinkBringUp := by
  unfold Obligations.LinkBringUp
  intro s k f p lo hi coord part hk hup hscrub
  refine ⟨fun hon hdown => ?_, fun hon hretrain => ?_, fun hon hpcs hlink hgood htype => ?_, exec_linkPcsLoss_down hk hup,
    exec_retrainTimeout_early hk, exec_retrainTimeout_down hk hup, linkDown_port s k⟩
  · refine ⟨_, exec_linkPcsLock_sends hk hup hscrub hon (.inl hdown), ?_⟩
    rw [State.emit_port, port_updPort_self]
    exact ⟨if_pos hdown, rfl, if_pos hdown, rfl⟩
  · refine ⟨_, exec_linkPcsLock_sends hk hup hscrub hon (.inr hretrain), ?_⟩
    have hnot : (s.port k).link ≠ .down := fun h => by cases hretrain.symm.trans h
    rw [State.emit_port, port_updPort_self]
    exact ⟨(if_neg hnot).trans hretrain, rfl, rfl⟩
  · obtain ⟨hnone, hwrong, hright⟩ := exec_versionFrameReceive_answers hk hup hon hpcs hlink hgood htype
    refine ⟨hnone, fun h hpeer => hwrong h fun hr => ?_, fun h hcoord hdir => ⟨_, hright h ⟨hcoord, hdir⟩, ?_⟩⟩
    · rcases hpeer with hpeer | hpeer
      · exact hpeer hr.1
      · exact hpeer hr.2
    · by_cases hpart : part = s.stored oPartitionId
      · rw [if_pos hpart, if_pos hpart]
        exact standingOf_spec (linkUp_standingOf s k hi part)
      · rw [if_neg hpart, if_neg hpart]
        exact standingOf_spec (fenced_standingOf s k hi part)
end

section
/-! Frames, and the sequence, the credits and the replay of a link (R354 to R361, R385, R387). -/

namespace Sys2Proof.Machine

open Sys2Proof

/-! ## Frames (R355, R356) -/

theorem covered_length (g : Frame) : g.covered.length = 56 + roundUp g.payload.length 8 := by
  simp only [Frame.covered, Frame.header, List.length_append, leBytes_length, sliceZ_length]
  omega

theorem wire_length (g : Frame) : g.wire.length = g.bytes := by
  simp only [Frame.wire, Frame.bytes, zeros, List.length_append, leBytes_length, List.length_replicate, covered_length]
  omega

/-- R356: FCS covers what stands on the line before its last 8 bytes. -/
theorem wire_covered (g : Frame) : g.wire.take (g.bytes - 8) = g.covered := by
  have hlength : g.bytes - 8 = g.covered.length := by
    rw [covered_length, Frame.bytes]
    omega
  rw [hlength, Frame.wire, List.append_assoc, List.take_left]

/-- R356: a frame that arrives under an FCS is good when it decodes and the FCS is the one of its bytes. -/
theorem good_iff {g : Frame} {x : Nat} (h : g.fcs = some x) :
    g.good = true ↔ g.decodes = true ∧ x = crc32c (g.wire.take (g.bytes - 8)) := by
  rw [wire_covered, Frame.good, h, Bool.and_eq_true, beq_iff_eq]
  rfl

/-! ## Acknowledgements (R360) -/

/-- R360: LACK frees the frame of a number. -/
def frees (lack q : Nat) : Bool := (lack + 4096 - q) % 4096 ≠ 0 && (lack + 4096 - q) % 4096 ≤ 2048

theorem frees_iff (lack q : Nat) :
    frees lack q = true ↔ 1 ≤ (lack + 4096 - q) % 4096 ∧ (lack + 4096 - q) % 4096 ≤ 2048 := by
  simp only [frees, Bool.and_eq_true, decide_eq_true_eq]
  omega

/-- A port without its replay buffer and what is counted of it. -/
def Port.unacked (p : Port) : Port := { p with held := [], replays := 0, lackGtc := 0 }

theorem fields_of_unacked {p q : Port} (h : p.unacked = q.unacked) :
    p.rxSeq = q.rxSeq ∧ p.nakSent = q.nakSent ∧ p.granted = q.granted :=
  ⟨(congrArg Port.rxSeq h :), (congrArg Port.nakSent h :), (congrArg Port.granted h :)⟩

/-- R360: an acknowledgement leaves all but the replay buffer of its port. -/
theorem acked_kept (s : State) (k lack : Nat) : (s.acked k lack).out = s.out ∧ (s.acked k lack).od = s.od ∧
    (s.acked k lack).fabric.reasm = s.fabric.reasm ∧ (s.acked k lack).sec = s.sec ∧
    ((s.acked k lack).port k).unacked = (s.port k).unacked := by
  unfold State.acked
  dsimp only
  split
  · exact ⟨rfl, rfl, rfl, rfl, rfl⟩
  · refine ⟨rfl, rfl, rfl, rfl, ?_⟩
    rw [port_updPort_self]
    rfl

theorem acked_held (s : State) (k lack : Nat) :
    ((s.acked k lack).port k).held = (s.port k).held.dropWhile fun h => frees lack h.1 := by
  unfold State.acked
  dsimp only
  split
  case isTrue h => exact ((List.dropWhile_suffix _).eq_of_length h).symm
  case isFalse => rw [port_updPort_self]; rfl

theorem dropWhile_split {α : Type} {p : α → Bool} {a b : List α} (ha : ∀ x ∈ a, p x = true)
    (hb : ∀ x, b.head? = some x → p x = false) : (a ++ b).dropWhile p = b := by
  rw [List.dropWhile_append_of_pos ha]
  cases b with
  | nil => rfl
  | cons x b => exact List.dropWhile_cons_of_neg (by simp [hb x rfl])

/-! ## DATA_FRAME_RECEIVE (R354, R356, R360) -/

/-- R381: the codewords that FEC corrected are counted. -/
def State.fecCounted (s : State) (k : Nat) (f : Frame) : State := if f.fec = 0 then s else s.count (oFecCorrected k) f.fec

theorem fecCounted_kept (s : State) (k : Nat) (f : Frame) : (s.fecCounted k f).out = s.out ∧ (s.fecCounted k f).fabric = s.fabric ∧
    (s.fecCounted k f).sec = s.sec ∧ (s.fecCounted k f).stored (oFecUncorrected k) = s.stored (oFecUncorrected k) := by
  unfold State.fecCounted
  split
  · exact ⟨rfl, rfl, rfl, rfl⟩
  · refine ⟨rfl, rfl, rfl, stored_count_ne s ?_ _⟩
    unfold oFecUncorrected oFecCorrected
    omega

/-- R463: whether a scrub of DEVICE scope runs stands in the enclave's record. -/
theorem deviceScrub_of_sec {s t : State} (h : t.sec = s.sec) : t.deviceScrub = s.deviceScrub := by
  unfold State.deviceScrub
  rw [h]

/-- R360: for a gap one NAK is sent, with the number expected. -/
theorem gapNak_spec {s : State} (hscrub : s.deviceScrub = false) (k : Nat) : ((s.gapNak k).port k).nakSent = true ∧
    ((s.gapNak k).port k).rxSeq = (s.port k).rxSeq ∧ (s.gapNak k).od = s.od ∧ (s.gapNak k).fabric.reasm = s.fabric.reasm ∧
    (s.gapNak k).out = s.out ++ (if (s.port k).nakSent then [] else [.frame k { ftype := 3, lack := (s.port k).rxSeq }]) := by
  unfold State.gapNak
  split
  case isTrue h => exact ⟨h, rfl, rfl, rfl, (List.append_nil _).symm⟩
  case isFalse h =>
    rw [control_sent (.inl hscrub), port_updPort_self]
    exact ⟨rfl, rfl, rfl, rfl, rfl⟩

/-- R356, R360: what a damaged DATA frame leaves. -/
def State.frameDamaged (s : State) (k : Nat) (f : Frame) : State := ((s.fecCounted k f).count (oFecUncorrected k) 1).gapNak k

/-- R360: what a good DATA frame has done before its number is looked at: its LACK frees held frames. -/
def State.frameAcked (s : State) (k : Nat) (f : Frame) : State := (s.fecCounted k f).acked k f.lack

/-- R360: what a DATA frame in sequence has done before it is policed. -/
def State.frameTaken (s : State) (k : Nat) (f : Frame) : State :=
  (s.frameAcked k f).updPort k fun p => { p with rxSeq := (p.rxSeq + 1) % 4096, nakSent := false }

section Data

variable {s : State} {k : Nat} {f : Frame} (hk : k < 8) (hup : s.up = true) (hon : s.portOn k = true) (htype : f.ftype = 0)
include hk hup hon htype

theorem exec_dataFrameReceive_fenced (hlink : (s.port k).link = .fenced) :
    exec (.dataFrameReceive k f) s = .next (s.count (oFencedDrops k) 1) := by
  have hrow : exec (.dataFrameReceive k f) s = execDataFrameReceive k f s := rfl
  rw [hrow, execDataFrameReceive, withPort_runs _ hk hup]
  simp [hon, htype, hlink]

variable (hlink : (s.port k).link = .up)
include hlink

/-- R356, R360: a frame of a link that is UP is damaged, beside the number expected, or in sequence. -/
theorem exec_dataFrameReceive_up : exec (.dataFrameReceive k f) s =
    if f.good = true then
      if f.lseq = (s.port k).rxSeq then .next ((s.frameTaken k f).policeFrame k { f with fec := 0, fcs := none })
      else .next ((s.frameAcked k f).gapNak k)
    else .next (s.frameDamaged k f) := by
  have hrow : exec (.dataFrameReceive k f) s = execDataFrameReceive k f s := rfl
  rw [hrow, execDataFrameReceive, withPort_runs _ hk hup]
  simp only [hon, htype, hlink, Bool.not_true, ne_eq, not_true_eq_false, decide_false, Bool.or_self, Bool.false_eq_true, if_false,
    reduceCtorEq]
  by_cases hgood : f.good = true
  · simp only [hgood, Bool.not_true, Bool.false_eq_true, if_false, if_true]
    by_cases hseq : f.lseq = (s.port k).rxSeq
    · rw [if_pos hseq, if_neg (not_not.mpr hseq)]
      rfl
    · rw [if_neg hseq, if_pos hseq]
      rfl
  · rw [if_neg hgood, if_pos (by simpa using hgood)]
    rfl

end Data

section Scrub

variable {s : State} (hscrub : s.deviceScrub = false) (k : Nat) (f : Frame)

theorem frameAcked_kept : (s.frameAcked k f).out = s.out ∧ (s.frameAcked k f).fabric.reasm = s.fabric.reasm ∧
    (s.frameAcked k f).sec = s.sec ∧ ((s.frameAcked k f).port k).unacked = (s.port k).unacked := by
  obtain ⟨hout, hfabric, hsec, -⟩ := fecCounted_kept s k f
  obtain ⟨hout', -, hreasm, hsec', hport⟩ := acked_kept (s.fecCounted k f) k f.lack
  exact ⟨hout'.trans hout, hreasm.trans (by rw [hfabric]), hsec'.trans hsec, hport.trans (by rw [port_of_fabric hfabric])⟩

theorem frameTaken_kept : ((s.frameTaken k f).port k).rxSeq = ((s.port k).rxSeq + 1) % 4096 ∧
    ((s.frameTaken k f).port k).nakSent = false ∧ (s.frameTaken k f).fabric.reasm = s.fabric.reasm ∧ (s.frameTaken k f).out = s.out := by
  obtain ⟨hout, hreasm, -, hport⟩ := frameAcked_kept (s := s) k f
  obtain ⟨hrx, -⟩ := fields_of_unacked hport
  unfold State.frameTaken
  rw [port_updPort_self, State.updPort_fabric_reasm, State.updPort_out]
  exact ⟨congrArg (fun a => (a + 1) % 4096) hrx, rfl, hreasm, hout⟩

include hscrub

theorem frameAcked_gapNak : let t := (s.frameAcked k f).gapNak k
    (t.port k).nakSent = true ∧ (t.port k).rxSeq = (s.port k).rxSeq ∧ t.fabric.reasm = s.fabric.reasm ∧
    t.out = s.out ++ (if (s.port k).nakSent then [] else [.frame k { ftype := 3, lack := (s.port k).rxSeq }]) := by
  obtain ⟨hout, hreasm, hsec, hport⟩ := frameAcked_kept (s := s) k f
  obtain ⟨hrx, hnak, -⟩ := fields_of_unacked hport
  obtain ⟨hsent, hrx', -, hreasm', hout'⟩ := gapNak_spec ((deviceScrub_of_sec hsec).trans hscrub) k
  rw [hrx, hnak, hout] at hout'
  exact ⟨hsent, hrx'.trans hrx, hreasm'.trans hreasm, hout'⟩

theorem frameDamaged_spec : ((s.frameDamaged k f).port k).nakSent = true ∧ ((s.frameDamaged k f).port k).rxSeq = (s.port k).rxSeq ∧
    (s.frameDamaged k f).stored (oFecUncorrected k) = s.stored (oFecUncorrected k) + 1 ∧
    (s.frameDamaged k f).out = s.out ++ (if (s.port k).nakSent then [] else [.frame k { ftype := 3, lack := (s.port k).rxSeq }]) := by
  obtain ⟨hout, hfabric, hsec, hstored⟩ := fecCounted_kept s k f
  obtain ⟨hsent, hrx, hod, -, hout'⟩ :=
    gapNak_spec (s := (s.fecCounted k f).count (oFecUncorrected k) 1) ((deviceScrub_of_sec hsec).trans hscrub) k
  rw [State.count_port, port_of_fabric hfabric] at hrx hout'
  rw [State.count_out, hout] at hout'
  refine ⟨hsent, hrx, ?_, hout'⟩
  rw [← hstored, ← (State.stored_count _ (oFecUncorrected k) 1 _).trans (if_pos rfl)]
  unfold State.frameDamaged State.stored
  rw [hod]

end Scrub

/-! ## Control frames and their timers (R357 to R361) -/

theorem find_map_self {α : Type} (g : Nat → α) {l : List Nat} {k : Nat} (h : k ∈ l) :
    Tbl.find (l.map fun i => (i, g i)) k = some (g k) := by
  induction l with
  | nil => cases h
  | cons i l ih =>
    rw [List.map_cons, Tbl.find]
    by_cases hi : i = k
    · rw [if_pos hi, hi]
    · rw [if_neg hi]
      exact ih ((List.mem_cons.mp h).resolve_left (Ne.symm hi))

/-- R358: the credits that a CREDIT frame shows, by buffer. -/
def Frame.shownCredits (f : Frame) : Tbl Nat := (List.range 24).map fun key => (key, fieldAt f.payload (4 * key) 4)

theorem get_shownCredits (f : Frame) {key : Nat} (h : key < 24) : Tbl.get f.shownCredits 0 key = fieldAt f.payload (4 * key) 4 := by
  unfold Tbl.get Frame.shownCredits
  rw [find_map_self _ (List.mem_range.mpr h)]

theorem acked_granted (s : State) (k lack : Nat) : ((s.acked k lack).port k).granted = (s.port k).granted := by
  obtain ⟨-, -, -, -, hport⟩ := acked_kept s k lack
  exact (fields_of_unacked hport).2.2

theorem retryWaiting_granted (s : State) (k : Nat) : (s.retryWaiting.port k).granted = (s.port k).granted :=
  (congrArg Port.granted ((retryWaiting_forwarded s).kept k) :)

/-- R358: the credits shown replace those known. -/
def State.creditsKnown (s : State) (k : Nat) (f : Frame) : State :=
  ((s.updPort k fun p => { p with granted := f.shownCredits }).acked k f.lack).retryWaiting

theorem creditsKnown_granted (s : State) (k : Nat) (f : Frame) : ((s.creditsKnown k f).port k).granted = f.shownCredits := by
  rw [State.creditsKnown, retryWaiting_granted, acked_granted, port_updPort_self]

section Linked

variable {s : State} {k : Nat} {f : Frame} (hk : k < 8) (hup : s.up = true) (hlinked : s.linked k = true) (hgood : f.good = true)
include hk hup hlinked hgood

theorem exec_creditFrameReceive_runs (htype : f.ftype = 2) : exec (.creditFrameReceive k f) s = .next (s.creditsKnown k f) := by
  have hrow : exec (.creditFrameReceive k f) s = execCreditFrameReceive k f s := rfl
  rw [hrow, execCreditFrameReceive, withPort_runs _ hk hup]
  exact if_neg (by simp [hlinked, hgood, htype])

theorem exec_idleFrameReceive_runs (htype : f.ftype = 1) : exec (.idleFrameReceive k f) s = .next (s.acked k f.lack) := by
  have hrow : exec (.idleFrameReceive k f) s = execIdleFrameReceive k f s := rfl
  rw [hrow, execIdleFrameReceive, withPort_runs _ hk hup]
  exact if_neg (by simp [hlinked, hgood, htype])

theorem exec_nakFrameReceive_runs (htype : f.ftype = 3) : exec (.nakFrameReceive k f) s = .next ((s.acked k f.lack).replay k) := by
  have hrow : exec (.nakFrameReceive k f) s = execNakFrameReceive k f s := rfl
  rw [hrow, execNakFrameReceive, withPort_runs _ hk hup]
  exact if_neg (by simp [hlinked, hgood, htype])

end Linked

/-- R360: what a replay sends and counts. -/
theorem replay_spec {s : State} {k : Nat} (hscrub : s.deviceScrub = false) (hheld : (s.port k).held ≠ [])
    (hfew : (s.port k).replays < 16) :
    (s.replay k).out = s.out ++ (s.port k).held.map (fun h => Emit.frame k { h.2 with lack := (s.port k).rxSeq }) ∧
    ((s.replay k).port k).replays = (s.port k).replays + 1 ∧ (s.replay k).stored (oReplays k) = s.stored (oReplays k) + 1 := by
  rw [replay_sends hscrub hheld hfew, port_updPort_self, State.updPort_stored, State.stored_count, if_pos rfl]
  exact ⟨rfl, rfl, rfl⟩

theorem replay_retrains_spec {s : State} {k : Nat} (hscrub : s.deviceScrub = false) (hheld : (s.port k).held ≠ [])
    (hmany : 16 ≤ (s.port k).replays) : ((s.replay k).port k).link = .retrain ∧ ((s.replay k).port k).retrainGtc = s.gtc := by
  rw [replay_retrains hscrub hheld hmany, port_updPort_self]
  exact ⟨rfl, rfl⟩

section Timers

variable {s : State} {k : Nat} (hk : k < 8)
include hk

theorem exec_replayTimeout_idle (h : (s.port k).link ≠ .up ∨ (s.port k).held = [] ∨ s.gtc < (s.port k).lackGtc + 2000) :
    exec (.replayTimeout k) s = .next s := by
  have hrow : exec (.replayTimeout k) s = execReplayTimeout k s := rfl
  rw [hrow, execReplayTimeout]
  refine withPort_idle hk (if_neg ?_)
  rcases h with h | h | h
  · simp [h]
  · simp [h]
  · simp [Nat.not_le.mpr h]

theorem exec_creditFrameTimer_idle (hdue : (s.port k).creditDue = false) (h : s.gtc < (s.port k).creditGtc + 1000) :
    exec (.creditFrameTimer k) s = .next s := by
  have hrow : exec (.creditFrameTimer k) s = execCreditFrameTimer k s := rfl
  rw [hrow, execCreditFrameTimer]
  exact withPort_idle hk (if_neg (by simp [hdue, Nat.not_le.mpr h]))

variable (hup : s.up = true)
include hup

theorem exec_replayTimeout_replays (hlink : (s.port k).link = .up) (hheld : (s.port k).held ≠ [])
    (h : (s.port k).lackGtc + 2000 ≤ s.gtc) : exec (.replayTimeout k) s = .next (s.replay k) := by
  have hrow : exec (.replayTimeout k) s = execReplayTimeout k s := rfl
  rw [hrow, execReplayTimeout, withPort_runs _ hk hup]
  exact if_pos (by simp [hlink, hheld, h])

theorem exec_creditFrameTimer_sends (hlinked : s.linked k = true)
    (h : (s.port k).creditDue = true ∨ (s.port k).creditGtc + 1000 ≤ s.gtc) :
    exec (.creditFrameTimer k) s = .next (s.sendCredit k) := by
  have hrow : exec (.creditFrameTimer k) s = execCreditFrameTimer k s := rfl
  rw [hrow, execCreditFrameTimer, withPort_runs _ hk hup]
  exact if_pos (by simpa [hlinked] using h)

end Timers

/-- R359: a CREDIT frame goes out with the counts given. -/
theorem sendCredit_out (s : State) (k : Nat) : (s.sendCredit k).out =
    s.out ++ [.frame k { ftype := 2, lack := (s.port k).rxSeq, payload := (s.port k).creditPayload }] := by
  unfold State.sendCredit
  rw [control_sent (.inr (by decide))]
  rfl

/-! ## FRAME_TRANSMIT_DONE (R360, R385) -/

/-- A port without the credits that it has given. -/
def Port.ungiven (p : Port) : Port := { p with stale := [], given := [], creditDue := false }

theorem fields_of_ungiven {p q : Port} (h : p.ungiven = q.ungiven) : p.txSeq = q.txSeq ∧ p.held = q.held ∧ p.queue = q.queue :=
  ⟨(congrArg Port.txSeq h :), (congrArg Port.held h :), (congrArg Port.queue h :)⟩

theorem giveBack_kept (s : State) (b : Option (Nat × Nat × Nat)) (k : Nat) :
    (s.giveBack b).out = s.out ∧ ((s.giveBack b).port k).ungiven = (s.port k).ungiven := by
  unfold State.giveBack
  split
  case h_1 j key n =>
    refine ⟨rfl, ?_⟩
    rw [State.port_updPort]
    split
    case isTrue h => rw [h]; rfl
    case isFalse => rfl
  case h_2 => exact ⟨rfl, rfl⟩

/-- R360: the frame that goes out as the next of port k. -/
def State.nextFrame (s : State) (k : Nat) (q : QFrame) : Frame := { q.frame with lseq := (s.port k).txSeq, lack := (s.port k).rxSeq }

/-- R360: a port that has sent a frame out of its queue holds it. -/
def Port.sends (gtc : Nat) (q : QFrame) (f : Frame) (p : Port) : Port :=
  { p with txSeq := (p.txSeq + 1) % 4096, queue := p.queue.erase q, held := p.held ++ [(f.lseq, f)]
           lackGtc := if p.held.isEmpty then gtc else p.lackGtc }

/-- R360, R385: what the sending of a frame writes, before its input buffer's credits go back. -/
def State.sentFrame (s : State) (k : Nat) (q : QFrame) (t : Tint) : State :=
  ((((s.takeTokens (8 * k + q.frame.vl) (s.nextFrame k q).bytes t).updPort k (Port.sends s.gtc q (s.nextFrame k q))).leave
    (8 * k + q.frame.vl) q.since).emit (.frame k (s.nextFrame k q))).count oFabricTxBytes (s.nextFrame k q).bytes

theorem sendFrame_eq (s : State) (k : Nat) (q : QFrame) (t : Tint) : s.sendFrame k q t = (s.sentFrame k q t).giveBack q.back := rfl

theorem sentFrame_spec (s : State) (k : Nat) (q : QFrame) (t : Tint) :
    (s.sentFrame k q t).out = s.out ++ [.frame k (s.nextFrame k q)] ∧
    (s.sentFrame k q t).port k = (s.port k).sends s.gtc q (s.nextFrame k q) := by
  unfold State.sentFrame
  rw [takeTokens_eq]
  exact ⟨rfl, port_updPort_self ..⟩

/-- R360: a frame that is sent is held under its number, and has left its queue. -/
theorem sendFrame_spec (s : State) (k : Nat) (q : QFrame) (t : Tint) : (s.sendFrame k q t).out = s.out ++ [.frame k (s.nextFrame k q)] ∧
    ((s.sendFrame k q t).port k).txSeq = ((s.port k).txSeq + 1) % 4096 ∧
    ((s.sendFrame k q t).port k).held = (s.port k).held ++ [((s.port k).txSeq, s.nextFrame k q)] ∧
    ((s.sendFrame k q t).port k).queue = (s.port k).queue.erase q := by
  obtain ⟨hout, hport⟩ := giveBack_kept (s.sentFrame k q t) q.back k
  obtain ⟨hout', hport'⟩ := sentFrame_spec s k q t
  rw [hport'] at hport
  rw [sendFrame_eq]
  obtain ⟨hseq, hheld, hqueue⟩ := fields_of_ungiven hport
  exact ⟨hout.trans hout', hseq, hheld, hqueue⟩

/-- R385: the frames that port k may send now, one a class. -/
def State.portCands (s : State) (k : Nat) : List (Nat × Nat) :=
  (List.range 8).filterMap fun c => (s.portCand k c).map fun q => (c, q.frame.bytes)

/-- R385: the shaper's choice among the candidates of a port is sent. -/
theorem exec_frameTransmitDone_sends {s : State} {k c n : Nat} {t : Tint} {q : QFrame} (hk : k < 8) (hup : s.up = true)
    (hport : s.portUp k = true) (hpick : s.shaperPick k (s.portCands k) = some (c, n, t)) (hcand : s.portCand k c = some q) :
    exec (.frameTransmitDone k) s = .next (s.sendFrame k q t) := by
  unfold State.portCands at hpick
  have hrow : exec (.frameTransmitDone k) s = execFrameTransmitDone k s := rfl
  rw [hrow, execFrameTransmitDone, if_neg (by omega), withPort_runs _ hk hup]
  simp only [hport, hpick, hcand, Bool.not_true, Bool.false_eq_true, if_false]

/-! ## POLICER_HOLD_RECOLOUR (R387) -/

/-- R387: the policing of port k that led from s to t has held frames and packets, and changed nothing else of what goes on. -/
structure Holds (k : Nat) (s t : State) (frames : List QFrame) (packets : List RocePkt) : Prop where
  red : (t.port k).red = (s.port k).red ++ frames
  redRoce : (t.port k).redRoce = (s.port k).redRoce ++ packets
  out : t.out = s.out
  reasm : t.fabric.reasm = s.fabric.reasm
  tint : ∀ c n marked, t.policeTint k c n marked = s.policeTint k c n marked

theorem Holds.refl (k : Nat) (s : State) : Holds k s s [] [] :=
  ⟨(List.append_nil _).symm, (List.append_nil _).symm, rfl, rfl, fun _ _ _ => rfl⟩

theorem Holds.trans {k : Nat} {s t u : State} {a a' : List QFrame} {b b' : List RocePkt} (h : Holds k s t a b) (h' : Holds k t u a' b') :
    Holds k s u (a ++ a') (b ++ b') :=
  ⟨by rw [h'.red, h.red, List.append_assoc], by rw [h'.redRoce, h.redRoce, List.append_assoc], h'.out.trans h.out,
    h'.reasm.trans h.reasm, fun c n marked => (h'.tint c n marked).trans (h.tint c n marked)⟩

/-- R387: the frames of a list are still RED at port k. -/
def State.stillRed (s : State) (k : Nat) (l : List QFrame) : Prop :=
  ∀ x ∈ l, s.policeTint k x.frame.vl x.frame.bytes false = .red

/-- R387: the packets of a list are still RED at port k. -/
def State.stillRedRoce (s : State) (k : Nat) (l : List RocePkt) : Prop :=
  ∀ x ∈ l, s.policeTint k x.cls x.bytes x.marked = .red

theorem recolour_holds {s : State} {k : Nat} {x : QFrame} (h : s.policeTint k x.frame.vl x.frame.bytes false = .red) :
    Holds k s (s.recolour k x) [x] [] := by
  unfold State.recolour
  dsimp only
  rw [if_pos h]
  exact ⟨by rw [port_updPort_self], by rw [port_updPort_self, List.append_nil], rfl, rfl, fun _ _ _ => rfl⟩

theorem recolourRoce_holds {s : State} {k : Nat} {x : RocePkt} (h : s.policeTint k x.cls x.bytes x.marked = .red) :
    Holds k s (s.recolourRoce k x) [] [x] := by
  unfold State.recolourRoce
  dsimp only
  rw [if_pos h]
  exact ⟨by rw [port_updPort_self, List.append_nil], by rw [port_updPort_self], rfl, rfl, fun _ _ _ => rfl⟩

theorem foldl_recolour_holds {k : Nat} {l : List QFrame} {s : State} (h : s.stillRed k l) :
    Holds k s (l.foldl (fun s x => s.recolour k x) s) l [] := by
  induction l generalizing s with
  | nil => exact .refl k s
  | cons x l ih =>
    have hfirst := recolour_holds (h x (List.mem_cons_self ..))
    exact hfirst.trans (ih fun y hy => (hfirst.tint ..).trans (h y (List.mem_cons_of_mem x hy)))

theorem foldl_recolourRoce_holds {k : Nat} {l : List RocePkt} {s : State} (h : s.stillRedRoce k l) :
    Holds k s (l.foldl (fun s x => s.recolourRoce k x) s) [] l := by
  induction l generalizing s with
  | nil => exact .refl k s
  | cons x l ih =>
    have hfirst := recolourRoce_holds (h x (List.mem_cons_self ..))
    exact hfirst.trans (ih fun y hy => (hfirst.tint ..).trans (h y (List.mem_cons_of_mem x hy)))

/-- R387: port k with nothing held RED. -/
def State.noneRed (s : State) (k : Nat) : State := s.updPort k fun p => { p with red := [], redRoce := [] }

section Recolour

variable {s : State} {k : Nat} (hk : k < 8) (hup : s.up = true)
include hk hup

theorem exec_policerHoldRecolour_runs : exec (.policerHoldRecolour k) s =
    .next ((s.port k).redRoce.foldl (fun s x => s.recolourRoce k x)
      ((s.port k).red.foldl (fun s x => s.recolour k x) (s.noneRed k))) := by
  have hrow : exec (.policerHoldRecolour k) s = execPolicerHoldRecolour k s := rfl
  rw [hrow, execPolicerHoldRecolour, withPort_runs _ hk hup]
  rfl

/-- R387: what is still RED stays held. -/
theorem exec_policerHoldRecolour_red (hred : s.stillRed k (s.port k).red) (hroce : s.stillRedRoce k (s.port k).redRoce) :
    ∃ t, exec (.policerHoldRecolour k) s = .next t ∧ Holds k (s.noneRed k) t (s.port k).red (s.port k).redRoce := by
  have hframes : Holds k (s.noneRed k) _ _ _ := foldl_recolour_holds (s := s.noneRed k) hred
  have hpackets := foldl_recolourRoce_holds (s := (s.port k).red.foldl (fun s x => s.recolour k x) (s.noneRed k))
    (l := (s.port k).redRoce) fun x hx => (hframes.tint ..).trans (hroce x hx)
  have hboth := hframes.trans hpackets
  rw [List.append_nil, List.nil_append] at hboth
  exact ⟨_, exec_policerHoldRecolour_runs hk hup, hboth⟩

theorem exec_policerHoldRecolour_frame {g : QFrame} (hred : (s.port k).red = [g]) (hroce : (s.port k).redRoce = []) :
    exec (.policerHoldRecolour k) s = .next ((s.noneRed k).recolour k g) := by
  rw [exec_policerHoldRecolour_runs hk hup, hred, hroce]
  rfl

theorem exec_policerHoldRecolour_packet {x : RocePkt} (hred : (s.port k).red = []) (hroce : (s.port k).redRoce = [x]) :
    exec (.policerHoldRecolour k) s = .next ((s.noneRed k).recolourRoce k x) := by
  rw [exec_policerHoldRecolour_runs hk hup, hred, hroce]
  rfl

end Recolour

end Sys2Proof.Machine

open Sys2Proof Sys2Proof.Machine in
/-- Settles O33: a DATA frame by its check and its number, the control frames and their timers by what they write, a frame that is sent
by what its port then holds, and the held frames and packets by their colour. That every frame that fails its check is counted in
FEC_UNCORRECTED is the model's choice. -/
theorem linkSequenceCreditsAndRetry : Obligations.LinkSequenceCreditsAndRetry := by
  unfold Obligations.LinkSequenceCreditsAndRetry
  refine ⟨fun g => ⟨wire_length g, fun x hx => good_iff hx⟩, ?_⟩
  intro s k f p before hk hup hscrub
  refine ⟨fun hon htype => ⟨exec_dataFrameReceive_fenced hk hup hon htype, fun hlink hbad => ?_, fun hlink hgood hseq => ?_,
      fun hlink hgood hseq => ?_⟩,
    fun hlinked hgood => ⟨fun htype => ?_, exec_idleFrameReceive_runs hk hup hlinked hgood, exec_nakFrameReceive_runs hk hup hlinked hgood⟩,
    fun a b hheld hbefore hafter => ?_,
    fun hheld => ⟨replay_spec hscrub hheld, replay_retrains_spec hscrub hheld, fun hlink => exec_replayTimeout_replays hk hup hlink hheld⟩,
    exec_replayTimeout_idle hk, exec_creditFrameTimer_idle hk, fun hlinked h => ?_, fun hport c n tint q hpick hcand => ?_,
    fun hred hroce => ?_, ?_⟩
  · exact ⟨_, (exec_dataFrameReceive_up hk hup hon htype hlink).trans (if_neg (by simp [hbad])), frameDamaged_spec hscrub k f⟩
  · exact ⟨_, (exec_dataFrameReceive_up hk hup hon htype hlink).trans ((if_pos hgood).trans (if_neg hseq)), frameAcked_gapNak hscrub k f⟩
  · exact ⟨_, (exec_dataFrameReceive_up hk hup hon htype hlink).trans ((if_pos hgood).trans (if_pos hseq)), frameTaken_kept k f⟩
  · refine ⟨_, exec_creditFrameReceive_runs hk hup hlinked hgood htype, fun key hkey => ?_⟩
    rw [creditsKnown_granted]
    exact get_shownCredits f hkey
  · rw [acked_held, show (s.port k).held = a ++ b from hheld]
    exact dropWhile_split (fun h hh => (frees_iff ..).mpr (hbefore h hh))
      fun h hh => Bool.eq_false_iff.mpr fun hfrees => hafter h hh ((frees_iff ..).mp hfrees)
  · refine ⟨_, exec_creditFrameTimer_sends hk hup hlinked h, ?_⟩
    rw [sendCredit_port, sendCredit_out]
    exact ⟨rfl, rfl, rfl⟩
  · obtain ⟨hout, hseq, hheld, hqueue⟩ := sendFrame_spec s k q tint
    exact ⟨_, exec_frameTransmitDone_sends hk hup hport hpick hcand, hout, hseq, hheld, hqueue⟩
  · obtain ⟨t, hexec, hholds⟩ := exec_policerHoldRecolour_red hk hup hred hroce
    have hnone : ((s.noneRed k).port k).red = [] ∧ ((s.noneRed k).port k).redRoce = [] := by
      unfold State.noneRed
      rw [port_updPort_self]
      exact ⟨rfl, rfl⟩
    refine ⟨t, hexec, ?_, ?_, hholds.out, hholds.reasm⟩
    · rw [hholds.red, hnone.1]
      rfl
    · rw [hholds.redRoce, hnone.2]
      rfl
  · intro e
    exact ⟨fun g hred hroce hpass => (exec_policerHoldRecolour_frame hk hup hred hroce).trans (congrArg Host.Outcome.next (if_neg hpass)),
      fun x hred hroce hpass => (exec_policerHoldRecolour_packet hk hup hred hroce).trans (congrArg Host.Outcome.next (if_neg hpass))⟩
end

section
/-! Messages of the fabric: answers and repeats (R366 to R368), frames and reassemblies that stand still (R363, R366), messages of one
packet (R364, R365), and contexts that are fetched (R374). -/

namespace Sys2Proof.Machine

open Sys2Proof

/-! ## The answer to a message (R366 to R368) -/

section Response

variable {s : State} {f : Frame} (hup : s.up = true)
include hup

theorem exec_respReceive_own (hgood : f.good = true) (hop : f.op = opResp) (hdst : f.dst = s.coord) : exec (.respReceive f) s =
    .next (s.respond (fieldAt f.payload 0 4) (fieldAt f.payload 4 2) (fieldAt f.payload 6 2)) := by
  have hrow : exec (.respReceive f) s = execRespReceive f s := rfl
  rw [hrow, execRespReceive, whenUp_runs _ hup]
  exact if_neg (by simp [hgood, hop, hdst])

theorem exec_respReceive_other (h : f.good = false ∨ f.op ≠ opResp ∨ f.dst ≠ s.coord) : exec (.respReceive f) s = .next s := by
  have hrow : exec (.respReceive f) s = execRespReceive f s := rfl
  rw [hrow, execRespReceive, whenUp_runs _ hup]
  exact if_pos (by rcases h with h | h | h <;> simp [h])

end Response

/-- A test that a change of the elements leaves finds the changed element. -/
theorem find_map_of_kept {α : Type} {p : α → Bool} {g : α → α} (h : ∀ x, p (g x) = p x) (l : List α) :
    (l.map g).find? p = (l.find? p).map g := by
  rw [List.find?_map]
  exact congrArg (fun q => (l.find? q).map g) (funext h)

/-- R368: a message that waits to be sent again: 2 µs, doubled with each BUSY answer, at most 1 ms. -/
def OutMsg.backedOff (gtc : Nat) (m : OutMsg) : OutMsg :=
  { m with busy := m.busy + 1, retryAt := some (gtc + min Config.ms (2000 * 2 ^ m.busy)) }

section Answered

variable {s : State} {id : Nat} {m : OutMsg} (hmsg : s.message id = some m)
include hmsg

theorem msgId_of_message : m.msgId = id := by
  have h := List.find?_some hmsg
  simpa using h

section

variable {status flags : Nat}

theorem respond_busy (hbusy : bit flags 0 = true) (hnew : m.retryAt = none) :
    (s.respond id status flags).message id = some (m.backedOff s.gtc) := by
  have hid := msgId_of_message hmsg
  unfold State.respond
  rw [hmsg]
  simp only [hbusy, hnew, Option.isSome_none, Bool.false_eq_true, if_true, if_false]
  unfold State.message at hmsg ⊢
  rw [find_map_of_kept (fun x => by split <;> rfl), hmsg, Option.map_some, if_pos hid]
  rfl

theorem respond_waiting (hbusy : bit flags 0 = true) (hwaits : m.retryAt ≠ none) : s.respond id status flags = s := by
  unfold State.respond
  rw [hmsg]
  simp [hbusy, Option.isSome_iff_ne_none.mpr hwaits]

theorem respond_transient (hbusy : bit flags 0 = false) (hstatus : isTransient status = true) (hfew : m.resends < 3) :
    s.respond id status flags = (s.dropMessage id).sendAs { m with resends := m.resends + 1 } := by
  unfold State.respond
  rw [hmsg]
  simp [hbusy, hstatus, hfew]

theorem respond_ends (hbusy : bit flags 0 = false) (h : isTransient status = false ∨ 3 ≤ m.resends) :
    s.respond id status flags = (s.dropMessage id).passUp m status := by
  have hfinal : (isTransient status && decide (m.resends < 3)) = false := by
    rcases h with h | h
    · simp [h]
    · simp [Nat.not_lt.mpr h]
  unfold State.respond
  rw [hmsg]
  simp only [hbusy, hfinal, Bool.false_eq_true, if_false]

end

/-! ## A message that is sent again (R363, R368) -/

theorem exec_busyBackoffExpiry_none (hup : s.up = true) (h : m.retryAt = none) : exec (.busyBackoffExpiry id) s = .next s := by
  have hrow : exec (.busyBackoffExpiry id) s = execBusyBackoffExpiry id s := rfl
  rw [hrow, execBusyBackoffExpiry, whenUp_runs _ hup]
  simp only [hmsg, h]

theorem exec_busyBackoffExpiry_waits (hup : s.up = true) {g : Nat} (h : m.retryAt = some g) (hearly : s.gtc < g) :
    exec (.busyBackoffExpiry id) s = .next s := by
  have hrow : exec (.busyBackoffExpiry id) s = execBusyBackoffExpiry id s := rfl
  rw [hrow, execBusyBackoffExpiry, whenUp_runs _ hup]
  simp only [hmsg, h, hearly, if_true]

theorem exec_busyBackoffExpiry_unreachable (hup : s.up = true) {g : Nat} (h : m.retryAt = some g) (hdue : g ≤ s.gtc)
    (haway : s.inTorus m.head.dst = false) : exec (.busyBackoffExpiry id) s = .next ((s.dropMessage id).passUp m stUnreachable) := by
  have hrow : exec (.busyBackoffExpiry id) s = execBusyBackoffExpiry id s := rfl
  rw [hrow, execBusyBackoffExpiry, whenUp_runs _ hup]
  simp only [hmsg, h, Nat.not_lt.mpr hdue, haway, Bool.false_eq_true, if_false]

theorem exec_busyBackoffExpiry_again (hup : s.up = true) {g : Nat} (h : m.retryAt = some g) (hdue : g ≤ s.gtc)
    (htorus : s.inTorus m.head.dst = true) :
    exec (.busyBackoffExpiry id) s = .next (((s.dropMessage id).sendAs m).deliverOwn s.fabric.nextMsg) := by
  have hrow : exec (.busyBackoffExpiry id) s = execBusyBackoffExpiry id s := rfl
  rw [hrow, execBusyBackoffExpiry, whenUp_runs _ hup]
  simp only [hmsg, h, Nat.not_lt.mpr hdue, htorus, if_true, if_false]

end Answered

/-- R367: a message as it is sent: under the next MSG_ID, with the header that its packets carry. -/
def OutMsg.sentBy (s : State) (m : OutMsg) : OutMsg :=
  { m with msgId := s.fabric.nextMsg, head := s.msgHead m.head m.data, retryAt := none }

/-- R367: the record of a message that is sent. -/
def State.noted (s : State) (m : OutMsg) : State :=
  { s with fabric := { s.fabric with nextMsg := (s.fabric.nextMsg + 1) % 2 ^ 32, msgs := s.fabric.msgs ++ [m.sentBy s] } }

/-- R355, R367: beside the record of a message its packets are forwarded. -/
theorem sendAs_forwarded (s : State) (m : OutMsg) : Forwarded (s.noted m) (s.sendAs m) := by
  unfold State.sendAs
  dsimp only
  split
  · exact .foldl (fun u f => forward_forwarded u _) _ _
  · exact .refl _

theorem Forwarded.coord {s t : State} (h : Forwarded s t) : t.coord = s.coord := by
  unfold State.coord State.torus State.stored
  rw [h.od]

theorem Forwarded.message {s t : State} (h : Forwarded s t) (id : Nat) : t.message id = s.message id := by
  unfold State.message
  rw [h.msgs]

/-- R367: under a MSG_ID that is free the message that is sent is found again. -/
theorem noted_message {s : State} (hfree : s.message s.fabric.nextMsg = none) (m : OutMsg) :
    (s.noted m).message s.fabric.nextMsg = some (m.sentBy s) := by
  unfold State.message at hfree ⊢
  unfold State.noted
  rw [List.find?_append, hfree, Option.none_or]
  exact List.find?_cons_of_pos (beq_self_eq_true _)

theorem dropMessage_free {s : State} {i : Nat} (h : s.message i = none) (id : Nat) : (s.dropMessage id).message i = none := by
  unfold State.message at h ⊢
  simp only [List.find?_eq_none] at h ⊢
  exact fun x hx => h x (List.mem_of_mem_filter hx)

/-- R362, R368: a message for another device is sent again, and nothing of it is delivered here. -/
theorem sendAs_again {s : State} {m : OutMsg} (hdst : m.head.dst ≠ s.coord) (hfree : s.message s.fabric.nextMsg = none) :
    let t := (s.sendAs m).deliverOwn s.fabric.nextMsg
    m.sentBy s ∈ t.fabric.msgs ∧ t.fabric.nextMsg = (s.fabric.nextMsg + 1) % 2 ^ 32 := by
  have hsent := sendAs_forwarded s m
  have hown : (s.sendAs m).deliverOwn s.fabric.nextMsg = s.sendAs m := by
    have hcoord : (s.sendAs m).coord = s.coord := hsent.coord
    unfold State.deliverOwn
    rw [hsent.message, noted_message hfree]
    exact if_neg (fun h => hdst (h.trans hcoord))
  dsimp only
  rw [hown, hsent.msgs, hsent.nextMsg]
  exact ⟨List.mem_append_right _ (List.mem_singleton_self _), rfl⟩

/-! ## Frames and reassemblies that stand still (R363, R366) -/

/-- R363: the frame that waits for credits under its source, MSG_ID and offset. -/
def State.waitingFrame (s : State) (src id off : Nat) : Option QFrame :=
  s.fabric.waiting.find? fun q => q.frame.src == src && q.frame.msgId == id && q.frame.offset == off

/-- R364: the reassembly entry of a message. -/
def State.entryFor (s : State) (src id : Nat) : Option Reasm := s.fabric.reasm.find? fun e => e.src == src && e.msgId == id

section Still

variable {s : State} (hup : s.up = true)
include hup

theorem exec_routeWaitExpiry_waits {src id off : Nat} {q : QFrame} (hq : s.waitingFrame src id off = some q)
    (h : s.gtc < q.since + 100000 ∨ s.routeFrame q.frame q.dim ≠ none) : exec (.routeWaitExpiry src id off) s = .next s := by
  have hrow : exec (.routeWaitExpiry src id off) s = execRouteWaitExpiry src id off s := rfl
  unfold State.waitingFrame at hq
  rw [hrow, execRouteWaitExpiry, whenUp_runs _ hup]
  simp only [hq]
  refine if_neg ?_
  rcases h with h | h
  · simp [Nat.not_le.mpr h]
  · simp [h]

theorem exec_routeWaitExpiry_drops {src id off : Nat} {q : QFrame} (hq : s.waitingFrame src id off = some q)
    (hdue : q.since + 100000 ≤ s.gtc) (hroute : s.routeFrame q.frame q.dim = none) : exec (.routeWaitExpiry src id off) s =
      .next ((({ s with fabric := { s.fabric with waiting := s.fabric.waiting.erase q } } : State).giveBack q.back).unreachable q) := by
  have hrow : exec (.routeWaitExpiry src id off) s = execRouteWaitExpiry src id off s := rfl
  unfold State.waitingFrame at hq
  rw [hrow, execRouteWaitExpiry, whenUp_runs _ hup]
  simp only [hq]
  exact if_pos (by simp [hdue, hroute])

theorem exec_reassemblyTimeout_waits {src id : Nat} {e : Reasm} (he : s.entryFor src id = some e)
    (h : s.gtc < e.at_ + 1000 * s.stored oReasmTimeout) : exec (.reassemblyTimeout src id) s = .next s := by
  have hrow : exec (.reassemblyTimeout src id) s = execReassemblyTimeout src id s := rfl
  unfold State.entryFor at he
  rw [hrow, execReassemblyTimeout, whenUp_runs _ hup]
  simp only [he]
  exact if_neg (Nat.not_le.mpr h)

theorem exec_reassemblyTimeout_ends {src id : Nat} {e : Reasm} (he : s.entryFor src id = some e)
    (h : e.at_ + 1000 * s.stored oReasmTimeout ≤ s.gtc) : exec (.reassemblyTimeout src id) s = .next (s.failEntry e stReasm) := by
  have hrow : exec (.reassemblyTimeout src id) s = execReassemblyTimeout src id s := rfl
  unfold State.entryFor at he
  rw [hrow, execReassemblyTimeout, whenUp_runs _ hup]
  simp only [he]
  exact if_pos h

end Still

/-- R365: giving receive buffers back, and the ALLOCs that it serves, leave the fabric. -/
theorem freeReceive_fabric (s : State) (qp pool n : Nat) (part : Option Nat) : (s.freeReceive qp pool n part).fabric = s.fabric := by
  unfold State.freeReceive
  split
  · rfl
  · exact (congrArg State.fabric ((serveAllocs_work _).trans (vacate_work ..)) :)

/-- R248, R370: a write into a plain region changes its bytes and the lines that hold them. -/
theorem writePlain_reasm {s t : State} {a : Nat} {b : Bytes} (h : s.writePlain a b = some t) : t.fabric.reasm = s.fabric.reasm := by
  unfold State.writePlain at h
  split at h
  · cases h
  · obtain rfl := Option.some.inj h
    exact List.foldlRecOn (motive := fun u : State => u.fabric.reasm = s.fabric.reasm) _ _ rfl fun u hu _ _ => hu

theorem undefine_reasm (n : Nat) (s : State) (base : Nat) : (s.undefine base n).fabric.reasm = s.fabric.reasm := by
  induction n generalizing s base with
  | zero => rfl
  | succ n ih =>
    rw [State.undefine, ih]
    cases h : s.draw.2.writePlain base [Config.undefinedByte s.draw.1] with
    | none => rfl
    | some t => exact writePlain_reasm (s := s.draw.2) h

/-- R366, R368: an answer is a message of its own: its packets are forwarded. -/
theorem sendResp_forwarded (s : State) (f : Frame) (status flags : Nat) :
    Forwarded { s with fabric := { s.fabric with nextMsg := (s.fabric.nextMsg + 1) % 2 ^ 32 } } (s.sendResp f status flags) :=
  .foldl (fun u _ => forward_forwarded u _) _ _

/-- R365, R366: the entries that are left when one ends. -/
def State.otherEntries (s : State) (src id : Nat) : List Reasm := s.fabric.reasm.filter fun x => !(x.src == src && x.msgId == id)

theorem mem_otherEntries {s : State} {src id : Nat} {x : Reasm} (h : x ∈ s.otherEntries src id) :
    x ∈ s.fabric.reasm ∧ (x.src ≠ src ∨ x.msgId ≠ id) := by
  simp only [State.otherEntries, List.mem_filter, Bool.not_eq_true', Bool.and_eq_false_iff, beq_eq_false_iff_ne] at h
  exact h

theorem otherEntries_of_none {s : State} {src id : Nat} (h : s.entryFor src id = none) : s.otherEntries src id = s.fabric.reasm := by
  unfold State.entryFor at h
  simp only [List.find?_eq_none] at h
  exact List.filter_eq_self.mpr fun x hx => by simpa [imp_iff_not_or] using h x hx

theorem failEntry_reasm (s : State) (e : Reasm) (status : Nat) : (s.failEntry e status).fabric.reasm = s.otherEntries e.src e.msgId := by
  have hdropped : ((s.dropEntry e).sendResp e.head status 0).fabric.reasm = s.otherEntries e.src e.msgId := by
    rw [(sendResp_forwarded _ e.head status 0).reasm]
    exact congrArg FabricSt.reasm (freeReceive_fabric ..)
  unfold State.failEntry
  dsimp only
  split
  · exact (undefine_reasm ..).trans hdropped
  · exact hdropped

/-- R366: a reassembly that stands still ends: the entries of other messages stay. -/
theorem failEntry_others {s : State} {src id : Nat} {e : Reasm} (he : s.entryFor src id = some e) (status : Nat) :
    ∀ x ∈ (s.failEntry e status).fabric.reasm, x ∈ s.fabric.reasm ∧ (x.src ≠ src ∨ x.msgId ≠ id) := by
  have hnamed := List.find?_some he
  simp only [Bool.and_eq_true, beq_iff_eq] at hnamed
  intro x hx
  rw [failEntry_reasm, hnamed.1, hnamed.2] at hx
  exact mem_otherEntries hx

/-! ## A SEND of one packet to a system queue pair (R364, R365, R369) -/

/-- Bytes written into empty memory read back. -/
theorem readN_writeN (b : Bytes) : Memory.readN (Memory.writeN [] 0 b) 0 b.length = b := by
  refine List.ext_getElem (Memory.length_readN ..) fun i hi hib => ?_
  have hread := Memory.getD_readN (Memory.writeN [] 0 b) 0 b.length i hib
  rw [Nat.zero_add, Memory.read_writeN, if_pos ⟨Nat.zero_le i, by omega⟩] at hread
  simpa [List.getD_eq_getElem?_getD, List.getElem?_eq_getElem hi, List.getElem?_eq_getElem hib] using hread

/-- R364, R365: the entry that a packet opens, before anything of it is written. -/
def State.entryOpened (s : State) (f : Frame) : Reasm :=
  { src := f.src, msgId := f.msgId, head := f, at_ := s.gtc, buffers := (0, 0), part := s.takePart 0 0 }

/-- R364: the state with a new entry. -/
def State.withEntry (s : State) (e : Reasm) : State := { s with fabric := { s.fabric with reasm := s.fabric.reasm ++ [e] } }

/-- R364: the entry once the packet is written into it. -/
def Reasm.taking (gtc : Nat) (f : Frame) (e : Reasm) : Reasm :=
  { e with data := e.data.writeN f.offset f.payload, received := e.received + f.payload.length, at_ := gtc }

/-- R364: the state with an entry put in the place of the one of its message. -/
def State.putEntry (s : State) (src id : Nat) (e : Reasm) : State :=
  { s with fabric := { s.fabric with reasm := s.fabric.reasm.map fun x => if x.src = src && x.msgId = id then e else x } }

/-- R364, R369: an accepted SEND of one packet from another device to a system queue pair. -/
structure State.OnePacket (s : State) (f : Frame) : Prop where
  op : f.op = opSend
  system : f.dqp < 16
  notStore : f.dqp ≠ qpStore
  tenant : f.tenant = 0
  src : f.src ≠ s.coord
  offset : f.offset = 0
  total : f.total = f.payload.length
  new : s.entryFor f.src f.msgId = none
  room : s.canEnter f = true
  digest : sliceZ f.digest 0 16 = (sha3_512 f.payload).take 16

namespace State.OnePacket

variable {s : State} {f : Frame} (h : s.OnePacket f)
include h

/-- R369: the checks of a first packet ask nothing of a SEND to a system queue pair but its tenant. -/
theorem entryCheck : s.entryCheck f = stSuccess := by
  have hnotRead : ¬ f.op = opReadReq := by rw [h.op]; decide
  have hnotWrite : ¬ f.op = opWrite := by rw [h.op]; decide
  have hnotNotify : ¬ f.op = opWriteNotify := by rw [h.op]; decide
  have hlow : ¬ 16 ≤ f.dqp := Nat.not_le.mpr h.system
  unfold State.entryCheck State.qpDomain
  simp [h.system, h.tenant, hnotRead, hnotWrite, hnotNotify, hlow]

/-- R364: it takes no receive buffers. -/
theorem recvBuffers : s.recvBuffers f = (0, 0) :=
  if_neg (by simp [Nat.not_le.mpr h.system])

theorem requestPacket : s.requestPacket f = (s.withEntry (s.entryOpened f)).takePacket (s.entryOpened f) f := by
  have hnew := h.new
  unfold State.entryFor at hnew
  have hidle : s.busyTenant f = false := by simp [State.busyTenant, h.tenant]
  have hqp : s.enterQp f = s := if_pos h.system
  have htaken : ∀ (r : Nat) (part : Option Nat), s.occupy r 0 0 part = s := fun r part => if_pos rfl
  unfold State.requestPacket
  simp only [hnew, hidle, h.entryCheck, h.room, h.recvBuffers, hqp, htaken, ne_eq, not_true_eq_false, Bool.not_true, Bool.false_eq_true,
    if_false]
  rfl

/-- R365: its one packet completes it. -/
theorem takePacket (u : State) : u.takePacket (s.entryOpened f) f =
    (u.putEntry f.src f.msgId ((s.entryOpened f).taking u.gtc f)).deliverMessage ((s.entryOpened f).taking u.gtc f) f.payload := by
  have hplaced : (agrees (s.entryOpened f).head f && placed f) = true := by
    simp [State.entryOpened, agrees, placed, h.offset, h.total]
  have hbase : u.writeBase (s.entryOpened f).head = none := by
    have hhead : (s.entryOpened f).head = f := rfl
    rw [hhead, State.writeBase, h.op]
    exact if_neg (by decide)
  have hall : ¬ (s.entryOpened f).received + f.payload.length ≠ f.total := by simp [State.entryOpened, h.total]
  have hdata : Memory.readN ((s.entryOpened f).data.writeN f.offset f.payload) 0 f.total = f.payload := by
    rw [h.offset, h.total]
    exact readN_writeN f.payload
  unfold State.takePacket
  simp only [hplaced, Bool.not_true, Bool.false_eq_true, if_false, hbase, hdata]
  rw [if_neg hall, if_pos h.digest.symm]
  rfl

/-- R365: the message as it stands in its queue pair's inbox. -/
def message (_ : s.OnePacket f) : InMsg :=
  { src := f.src, qp := f.dqp, data := f.payload, pool := 0, count := 0, part := s.takePart 0 0 }

end State.OnePacket

/-- R373: credits that are granted change a queue pair alone. -/
theorem grantCredits_fabric (s : State) (dqp : Nat) :
    (s.grantCredits dqp).fabric.inbox = s.fabric.inbox ∧ (s.grantCredits dqp).fabric.reasm = s.fabric.reasm := by
  unfold State.grantCredits
  split <;> exact ⟨rfl, rfl⟩

/-- R367, R373: the answer to a message of another device leaves what has been delivered and what is being put together. -/
theorem answerMessage_fabric {s : State} {f : Frame} (h : f.src ≠ s.coord) (status flags : Nat) :
    (s.answerMessage f status flags).fabric.inbox = s.fabric.inbox ∧ (s.answerMessage f status flags).fabric.reasm = s.fabric.reasm := by
  unfold State.answerMessage
  rw [if_neg h, (sendResp_forwarded _ f status flags).inbox, (sendResp_forwarded _ f status flags).reasm]
  split
  · exact grantCredits_fabric s f.dqp
  · exact ⟨rfl, rfl⟩

/-- R365: a message delivered to a queue pair; its entry ends. -/
def State.received (s : State) (e : Reasm) (data : Bytes) : State :=
  { s with fabric := { s.fabric with
    reasm := s.otherEntries e.src e.msgId
    inbox := s.fabric.inbox ++ [{ src := e.src, qp := e.head.dqp, data := data, pool := e.buffers.1, count := e.buffers.2, part := e.part }] } }

theorem deliverMessage_send {s : State} {e : Reasm} (hop : e.head.op = opSend) (hqp : e.head.dqp ≠ qpStore) (data : Bytes) :
    s.deliverMessage e data = (s.received e data).answerMessage e.head stSuccess 0 := by
  unfold State.deliverMessage
  dsimp only
  rw [if_pos hop, if_neg hqp]
  rfl

/-- Elements that pass a test, changed to one that passes it, are left out all the same. -/
theorem filter_not_map_ite {α : Type} {p : α → Bool} {e : α} (he : p e = true) (l : List α) :
    (l.map fun x => if p x then e else x).filter (fun x => !p x) = l.filter fun x => !p x := by
  induction l with
  | nil => rfl
  | cons x l ih =>
    rw [List.map_cons]
    by_cases hx : p x = true
    · simp [hx, he, ih]
    · simp [hx, ih]

/-- R365: putting an entry in its place leaves the entries of other messages. -/
theorem otherEntries_putEntry (s : State) (e : Reasm) : (s.putEntry e.src e.msgId e).otherEntries e.src e.msgId = s.otherEntries e.src e.msgId :=
  filter_not_map_ite (p := fun x : Reasm => x.src == e.src && x.msgId == e.msgId) (by simp) _

/-- R365: a new entry is not among those of other messages. -/
theorem otherEntries_withEntry (s : State) (e : Reasm) : (s.withEntry e).otherEntries e.src e.msgId = s.otherEntries e.src e.msgId := by
  unfold State.otherEntries State.withEntry
  dsimp only
  rw [List.filter_append]
  simp

/-- R365: a SEND of one packet is delivered to its system queue pair, and no entry of it is left. -/
theorem processLocal_onePacket {s : State} {f : Frame} (h : s.OnePacket f) :
    (s.processLocal f).fabric.inbox = s.fabric.inbox ++ [h.message] ∧ (s.processLocal f).fabric.reasm = s.fabric.reasm := by
  have hresp : ¬ f.op = opResp := by rw [h.op]; decide
  have hreq : f.op ≤ opReadReq := by rw [h.op]; decide
  have hsend : s.processLocal f = s.requestPacket f := by
    unfold State.processLocal
    rw [if_neg hresp, if_pos hreq]
  rw [hsend, h.requestPacket, h.takePacket]
  generalize hw : s.withEntry (s.entryOpened f) = w
  generalize he : (s.entryOpened f).taking w.gtc f = e
  have hsrc : e.src = f.src := by rw [← he]; rfl
  have hid : e.msgId = f.msgId := by rw [← he]; rfl
  have hhead : e.head = f := by rw [← he]; rfl
  have hmessage : ({ src := e.src, qp := e.head.dqp, data := f.payload, pool := e.buffers.1, count := e.buffers.2, part := e.part } : InMsg) =
      h.message := by
    rw [← he]
    rfl
  have hleft : (w.putEntry f.src f.msgId e).otherEntries e.src e.msgId = s.fabric.reasm := by
    rw [← hsrc, ← hid, otherEntries_putEntry, ← hw, hsrc, hid]
    exact (otherEntries_withEntry s (s.entryOpened f)).trans (otherEntries_of_none h.new)
  have hop : e.head.op = opSend := by rw [hhead, h.op]
  have hqp : e.head.dqp ≠ qpStore := by rw [hhead]; exact h.notStore
  have haway : e.head.src ≠ ((w.putEntry f.src f.msgId e).received e f.payload).coord := by
    rw [hhead, ← hw]
    exact h.src
  obtain ⟨hinbox, hreasm⟩ := answerMessage_fabric haway stSuccess 0
  rw [deliverMessage_send hop hqp, hinbox, hreasm]
  refine ⟨?_, hleft⟩
  unfold State.received
  dsimp only
  rw [hmessage, ← hw]
  rfl

/-! ## QP_CONTEXT_FETCH_DONE (R374) -/

section Fetch

variable {s : State} {k qp : Nat} (hk : k < 8) (hup : s.up = true)
include hk hup

theorem exec_qpContextFetchDone_none (h : Tbl.find s.fabric.qps qp = none) : exec (.qpContextFetchDone k qp) s = .next s := by
  have hrow : exec (.qpContextFetchDone k qp) s = execQpContextFetchDone k qp s := rfl
  rw [hrow, execQpContextFetchDone, withPort_runs _ hk hup]
  exact if_pos (by simp [h])

theorem exec_qpContextFetchDone_some (h : (Tbl.find s.fabric.qps qp).isSome = true) :
    exec (.qpContextFetchDone k qp) s = .next ((s.port k).stalled.foldl (fun s f => s.localFrame k f)
      (((s.port k).miss.filter fun f => f.dqp == qp).foldl (fun s f => (s.processLocal f).giveBack (backOf k f))
        ((s.cacheQp qp).updPort k fun p => { p with miss := p.miss.filter fun f => f.dqp ≠ qp, stalled := [] }))) := by
  have hrow : exec (.qpContextFetchDone k qp) s = execQpContextFetchDone k qp s := rfl
  rw [hrow, execQpContextFetchDone, withPort_runs _ hk hup]
  exact if_neg (by simpa [Option.isSome_iff_ne_none] using h)

end Fetch

end Sys2Proof.Machine
end

section
/-! RoCEv2 on ports 6 and 7 (R370, R374 to R380, R386, R387, R463): a consumer's packets by the policer, the context and the region that
they meet, and the acknowledgements, the retries and the rate of the device's own writes. -/

namespace Sys2Proof.Machine

open Sys2Proof

/-! ## A packet that has been policed and has found its context (R374, R379, R386) -/

/-- R387: the counters of the policers. -/
def isTintCounter (key : Nat) : Prop := ∃ i, key = oGreenUnits i ∨ key = oYellowUnits i ∨ key = oRedUnits i

/-- R374, R379, R384: the machine without the tokens, the counts, the draws and the contexts that the taking of a packet touches. -/
def State.untaken (s : State) : State := { s with fresh := 0, queues := [], od := [], fabric := { s.fabric with qps := [] } }

/-- R374, R379, R384: the taking of a packet has led from s to t. -/
structure Taken (s t : State) : Prop where
  rest : t.untaken = s.untaken
  stored : ∀ key, ¬ isTintCounter key → t.stored key = s.stored key

namespace Taken

variable {s t u : State}

theorem trans (h : Taken s t) (h' : Taken t u) : Taken s u :=
  ⟨h'.rest.trans h.rest, fun key hkey => (h'.stored key hkey).trans (h.stored key hkey)⟩

theorem out (h : Taken s t) : t.out = s.out := (congrArg State.out h.rest :)

theorem streams (h : Taken s t) : t.streams = s.streams := (congrArg State.streams h.rest :)

theorem images (h : Taken s t) : t.images = s.images := (congrArg State.images h.rest :)

theorem ports (h : Taken s t) : t.fabric.ports = s.fabric.ports := (congrArg (fun s => s.fabric.ports) h.rest :)

theorem regions (h : Taken s t) : t.fabric.regions = s.fabric.regions := (congrArg (fun s => s.fabric.regions) h.rest :)

theorem stream (h : Taken s t) (n : Nat) : t.stream n = s.stream n := stream_of_streams h.streams n

theorem port (h : Taken s t) (k : Nat) : t.port k = s.port k := by
  unfold State.port
  rw [h.ports]

theorem regionOf (h : Taken s t) (key : Nat) : t.regionOf key = s.regionOf key := by
  unfold State.regionOf
  rw [h.regions]

theorem rangeBad (h : Taken s t) (pd key addr n : Nat) (read : Bool) :
    t.rangeBad pd key addr n read = s.rangeBad pd key addr n read := by
  unfold State.rangeBad State.accessBad
  rw [h.regionOf]

end Taken

/-- R7: an object whose subindex is none of those of the policers' counters is not one of them. -/
theorem not_isTintCounter {key : Nat} (h : key < 0x510000 ∨ ¬ (7 ≤ key % 256 ∧ key % 256 ≤ 9)) : ¬ isTintCounter key := by
  rintro ⟨i, hi⟩
  simp only [oGreenUnits, oYellowUnits, oRedUnits] at hi
  omega

theorem countTint_taken (s : State) (i n : Nat) (c : Tint) : Taken s (s.countTint i n c) := by
  have hcount : ∀ key, isTintCounter key → Taken s (s.count key n) := fun key hkey =>
    ⟨rfl, fun k hk => stored_count_ne s (fun h => hk (by rw [h]; exact hkey)) n⟩
  cases c with
  | green => exact hcount _ ⟨i, .inl rfl⟩
  | yellow => exact hcount _ ⟨i, .inr (.inl rfl)⟩
  | red => exact hcount _ ⟨i, .inr (.inr rfl)⟩

theorem takeTokens_taken (s : State) (i n : Nat) (c : Tint) : Taken s (s.takeTokens i n c) := by
  rw [takeTokens_eq]
  exact ⟨rfl, fun _ _ => rfl⟩

/-- R386: the queue of the policer that a packet for queue pair q meets. -/
def State.policerOf (s : State) (q : Qp) : Nat := 8 * (8 + (s.roceArrival q).1) + s.stored (oServiceClass q.stream)

/-- R386: a packet with its class, its mark and its arrival. -/
def State.arrived (s : State) (q : Qp) (x : RocePkt) : RocePkt :=
  { x with cls := s.stored (oServiceClass q.stream), marked := (s.roceArrival q).2, since := s.gtc }

/-- R386: the policer has coloured a packet. -/
def State.policed (s : State) (q : Qp) (x : RocePkt) : State :=
  (if s.stored (oPolice (s.policerOf q)) = 0 then s.draw.2 else s.draw.2.takeTokens (s.policerOf q) x.bytes (s.roceTint q x)).countTint
    (s.policerOf q) x.bytes (s.roceTint q x)

theorem policed_taken (s : State) (q : Qp) (x : RocePkt) : Taken s (s.policed q x) := by
  have hdrawn : Taken s s.draw.2 := ⟨rfl, fun _ _ => rfl⟩
  unfold State.policed
  refine Taken.trans ?_ (countTint_taken ..)
  split
  · exact hdrawn
  · exact hdrawn.trans (takeTokens_taken ..)

theorem policed_qps (s : State) (q : Qp) (x : RocePkt) : (s.policed q x).fabric = s.fabric := by
  have hcounted : ∀ (u : State) i n c, (u.countTint i n c).fabric = u.fabric := fun u i n c => by cases c <;> rfl
  unfold State.policed
  rw [hcounted]
  split
  · rfl
  · rw [takeTokens_eq]
    rfl

theorem roceQp_of_fabric {s t : State} (h : t.fabric = s.fabric) (qp : Nat) : t.roceQp qp = s.roceQp qp := by
  unfold State.roceQp
  rw [h]

/-- R379: a packet of a queue pair is taken, and whether it was marked ECN-CE is noted. -/
def State.marking (s : State) (qp : Nat) : State := s.draw.2.updQp qp fun x => { x with marked := x.marked || Config.freeBool s.draw.1 }

theorem marking_taken (s : State) (qp : Nat) : Taken s (s.marking qp) := ⟨rfl, fun _ _ => rfl⟩

/-- R374: with its context cached a packet is acted on at once. -/
theorem rocePacket_cached {s : State} {q : Qp} (h : q.cached = true) (qp bytes : Nat) (f : State → State) :
    s.rocePacket qp q bytes f = f (s.marking qp) := if_pos (by simp [h])

/-- R375: while the miss buffer is full a packet whose context is not cached gets RNR NAK. -/
theorem rocePacket_full {s : State} {qp bytes : Nat} {q : Qp} (hcached : q.cached = false) (hpinned : s.pinnedQp (qp, q) = false)
    (hfull : s.missFull q.stream bytes = true) (f : State → State) :
    s.rocePacket qp q bytes f = ((s.marking qp).emit (.nak qp (32 + s.stored oRnrTimer))).count oRnrNaksSent 1 :=
  (if_neg (by simp [hcached, hpinned])).trans (if_pos hfull)

/-! ## The arrival of a packet (R386, R387, R463) -/

theorem roceArrive_none {s : State} {x : RocePkt} (h : s.roceQp x.qp = none) : s.roceArrive x = s.roceAct x := by
  unfold State.roceArrive
  rw [h]

section Arrive

variable {s : State} {x : RocePkt} {q : Qp} (hq : s.roceQp x.qp = some q)
include hq

theorem roceArrive_accepted (h : s.roceTint q x ≠ .red) : s.roceArrive x = (s.policed q x).roceAct (s.arrived q x) := by
  unfold State.roceArrive
  rw [hq]
  exact if_pos h

theorem roceArrive_red (h : s.roceTint q x = .red) : s.roceArrive x =
    if s.stored (oRedAction (s.policerOf q)) = 1 then s.policed q x
    else (s.policed q x).updPort (s.roceArrival q).1 fun p => { p with redRoce := p.redRoce ++ [s.arrived q x] } := by
  unfold State.roceArrive
  rw [hq]
  exact if_neg (not_not.mpr h)

/-- R387: a RED packet is dropped, or held with its mark and its arrival; nothing answers it. -/
theorem roceArrive_red_spec (h : s.roceTint q x = .red) : (s.roceArrive x).out = s.out ∧ (s.roceArrive x).streams = s.streams ∧
    (s.stored (oRedAction (s.policerOf q)) = 1 → (s.roceArrive x).fabric.ports = s.fabric.ports) ∧
    (s.stored (oRedAction (s.policerOf q)) ≠ 1 → ((s.roceArrive x).port (s.roceArrival q).1).redRoce =
      (s.port (s.roceArrival q).1).redRoce ++ [s.arrived q x]) := by
  have htaken := policed_taken s q x
  rw [roceArrive_red hq h]
  by_cases hdrop : s.stored (oRedAction (s.policerOf q)) = 1
  · rw [if_pos hdrop]
    exact ⟨htaken.out, htaken.streams, fun _ => htaken.ports, fun hkept => absurd hdrop hkept⟩
  · rw [if_neg hdrop, State.updPort_out, State.updPort_streams, port_updPort_self, htaken.port]
    exact ⟨htaken.out, htaken.streams, fun hdropped => absurd hdropped hdrop, fun _ => rfl⟩

end Arrive

/-- R376: a packet of queue pair qp, and the command that brings it. -/
def bringsPacket (qp : Nat) (x : RocePkt) (i : Instr) : Prop :=
  (x = { op := 2, qp := qp } ∧ i = .roceSendReceive qp) ∨
  (∃ key addr data, x = { op := 0, qp := qp, rkey := key, addr := addr, data := data } ∧ i = .rdmaWriteReceive qp key addr data) ∨
  ∃ key addr len, x = { op := 1, qp := qp, rkey := key, addr := addr, len := len } ∧ i = .rdmaReadRequest qp key addr len

/-- R463: a queue pair that is being scrubbed is not served. -/
theorem whenServed_runs {qp : Nat} {s : State} (hup : s.up = true) (f : State → Res) : whenServed qp s f =
    if s.scrubbedQp qp then .next ((s.emit (.nak qp (32 + s.stored oRnrTimer))).count oRnrNaksSent 1) else f s := whenUp_runs _ hup

section Packet

variable {s : State} {qp : Nat} {x : RocePkt} {i : Instr} (hup : s.up = true) (h : bringsPacket qp x i)
include hup h

/-- R375, R463: a packet of a queue pair that is being scrubbed gets RNR NAK; any other arrives at its policer. -/
theorem exec_packet : exec i s =
    if s.scrubbedQp qp then .next ((s.emit (.nak qp (32 + s.stored oRnrTimer))).count oRnrNaksSent 1) else .next (s.roceArrive x) := by
  rcases h with ⟨rfl, rfl⟩ | ⟨key, addr, data, rfl, rfl⟩ | ⟨key, addr, len, rfl, rfl⟩
  all_goals exact whenServed_runs hup fun u => .next (u.roceArrive _)

theorem exec_packet_arrives (hserved : s.scrubbedQp qp = false) : exec i s = .next (s.roceArrive x) := by
  rw [exec_packet hup h, hserved]
  rfl

end Packet

theorem qp_of_bringsPacket {qp : Nat} {x : RocePkt} {i : Instr} (h : bringsPacket qp x i) : x.qp = qp := by
  rcases h with ⟨rfl, -⟩ | ⟨key, addr, data, rfl, -⟩ | ⟨key, addr, len, rfl, -⟩
  all_goals rfl

/-! ## What an accepted packet comes to (R370, R376, R378, R380) -/

/-- R370: a refused access is answered and counted. -/
theorem nakAccessAt_taken {s t : State} (h : Taken s t) (qp : Nat) : (t.nakAccessAt qp).out = s.out ++ [.nak qp 2] ∧
    (t.nakAccessAt qp).streams = s.streams ∧ (t.nakAccessAt qp).stored oProtectionViolations = s.stored oProtectionViolations + 1 := by
  have hkey : ¬ isTintCounter oProtectionViolations := not_isTintCounter (.inl (by decide))
  unfold State.nakAccessAt
  rw [State.emit_stored, State.stored_count, if_pos rfl, h.stored _ hkey]
  exact ⟨congrArg (· ++ _) h.out, h.streams, rfl⟩

/-- R370, R376, R378: a write with its context: into the credit window that its key names. -/
def State.writeWindow (s : State) (q : Qp) (x : RocePkt) : State :=
  if s.rangeBad q.pd x.rkey x.addr x.data.length false then s.nakAccessAt x.qp
  else match s.regionOf x.rkey with
    | some r => if r.kind = 1 then s.creditWrite r.stream (x.addr - r.base) x.data else s.nakAccessAt x.qp
    | none => s.nakAccessAt x.qp

theorem writeWindow_credit {s : State} {q : Qp} {x : RocePkt} {r : Region}
    (hrange : s.rangeBad q.pd x.rkey x.addr x.data.length false = false) (hregion : s.regionOf x.rkey = some r) (hkind : r.kind = 1) :
    s.writeWindow q x = s.creditWrite r.stream (x.addr - r.base) x.data := by
  unfold State.writeWindow
  rw [hrange, hregion]
  exact if_pos hkind

/-- R380: what a read of an exposed window answers: its bytes, or Remote Operational Error where a line of it is withheld. -/
def State.answerRead (s : State) (qp addr len : Nat) : State :=
  if (s.readExposed addr len).2.1 = stSuccess then (s.readExposed addr len).2.2.emit (.rdmaRead qp (s.readExposed addr len).1)
  else (s.readExposed addr len).2.2.emit (.nak qp 3)

/-- R370, R376, R380: a read with its context: of the exposed window that its key names. -/
def State.readWindowAt (s : State) (q : Qp) (x : RocePkt) : State :=
  if s.rangeBad q.pd x.rkey x.addr x.len true then s.nakAccessAt x.qp
  else match s.regionOf x.rkey with
    | some r => if r.kind = 2 then s.answerRead x.qp x.addr x.len else s.nakAccessAt x.qp
    | none => s.nakAccessAt x.qp

theorem readWindowAt_exposed {s : State} {q : Qp} {x : RocePkt} {r : Region}
    (hrange : s.rangeBad q.pd x.rkey x.addr x.len true = false) (hregion : s.regionOf x.rkey = some r) (hkind : r.kind = 2) :
    s.readWindowAt q x = s.answerRead x.qp x.addr x.len := by
  unfold State.readWindowAt
  rw [hrange, hregion]
  exact if_pos hkind

/-- R374: the state in which an accepted packet is acted on when its context is cached. -/
def State.taken (s : State) (q : Qp) (x : RocePkt) : State := (s.policed q x).marking x.qp

theorem taken_taken (s : State) (q : Qp) (x : RocePkt) : Taken s (s.taken q x) := (policed_taken s q x).trans (marking_taken _ _)

section Accepted

variable {s : State} {q : Qp} {x : RocePkt} (hq : s.roceQp x.qp = some q) (hpass : s.roceTint q x ≠ .red)
include hq

theorem policed_roceQp : (s.policed q x).roceQp (s.arrived q x).qp = some q := (roceQp_of_fabric (policed_qps s q x) x.qp).trans hq

include hpass

/-- R376: an accepted SEND is answered with NAK Invalid Request. -/
theorem roceArrive_send (hop : x.op = 2) : (s.roceArrive x).out = s.out ++ [.nak x.qp 1] ∧ (s.roceArrive x).streams = s.streams := by
  have htaken := policed_taken s q x
  have hact : (s.policed q x).roceAct (s.arrived q x) = (s.policed q x).emit (.nak x.qp 1) := by
    unfold State.roceAct
    rw [if_neg (show (s.arrived q x).op ≠ 0 from hop ▸ by decide), if_neg (show (s.arrived q x).op ≠ 1 from hop ▸ by decide)]
    rfl
  rw [roceArrive_accepted hq hpass, hact]
  exact ⟨congrArg (· ++ _) htaken.out, htaken.streams⟩

theorem roceArrive_write (hop : x.op = 0) : s.roceArrive x =
    (s.policed q x).rocePacket x.qp q x.data.length fun u => u.writeWindow q x := by
  have hfound := policed_roceQp (x := x) hq
  rw [roceArrive_accepted hq hpass, State.roceAct, if_pos (show (s.arrived q x).op = 0 from hop), State.roceWrite, hfound]
  rfl

theorem roceArrive_read (hop : x.op = 1) : s.roceArrive x =
    (s.policed q x).rocePacket x.qp q 64 fun u => u.readWindowAt q x := by
  have hfound := policed_roceQp (x := x) hq
  rw [roceArrive_accepted hq hpass, State.roceAct, if_neg (show (s.arrived q x).op ≠ 0 from hop ▸ by decide),
    if_pos (show (s.arrived q x).op = 1 from hop), State.roceRead, hfound]
  rfl

/-- R374: with its context cached a write is acted on at once. -/
theorem roceArrive_write_cached (hop : x.op = 0) (hcached : q.cached = true) : s.roceArrive x = (s.taken q x).writeWindow q x :=
  (roceArrive_write hq hpass hop).trans (rocePacket_cached hcached ..)

theorem roceArrive_read_cached (hop : x.op = 1) (hcached : q.cached = true) : s.roceArrive x = (s.taken q x).readWindowAt q x :=
  (roceArrive_read hq hpass hop).trans (rocePacket_cached hcached ..)

/-- R370: a write that its region does not allow. -/
theorem roceArrive_write_bad (hop : x.op = 0) (hcached : q.cached = true)
    (hrange : s.rangeBad q.pd x.rkey x.addr x.data.length false = true) : s.roceArrive x = (s.taken q x).nakAccessAt x.qp := by
  rw [roceArrive_write_cached hq hpass hop hcached]
  exact if_pos (((taken_taken s q x).rangeBad ..).trans hrange)

/-- R370: a read that its region does not allow. -/
theorem roceArrive_read_bad (hop : x.op = 1) (hcached : q.cached = true)
    (hrange : s.rangeBad q.pd x.rkey x.addr x.len true = true) : s.roceArrive x = (s.taken q x).nakAccessAt x.qp := by
  rw [roceArrive_read_cached hq hpass hop hcached]
  exact if_pos (((taken_taken s q x).rangeBad ..).trans hrange)

/-- R378: a write into a credit window. -/
theorem roceArrive_credit (hop : x.op = 0) (hcached : q.cached = true) {r : Region} (hregion : s.regionOf x.rkey = some r)
    (hkind : r.kind = 1) (hrange : s.rangeBad q.pd x.rkey x.addr x.data.length false = false) :
    s.roceArrive x = (s.taken q x).creditWrite r.stream (x.addr - r.base) x.data := by
  have htaken := taken_taken s q x
  rw [roceArrive_write_cached hq hpass hop hcached]
  exact writeWindow_credit ((htaken.rangeBad ..).trans hrange) ((htaken.regionOf _).trans hregion) hkind

/-- R380: a read of an exposed window. -/
theorem roceArrive_exposed (hop : x.op = 1) (hcached : q.cached = true) {r : Region} (hregion : s.regionOf x.rkey = some r)
    (hkind : r.kind = 2) (hrange : s.rangeBad q.pd x.rkey x.addr x.len true = false) :
    s.roceArrive x = (s.taken q x).answerRead x.qp x.addr x.len := by
  have htaken := taken_taken s q x
  rw [roceArrive_read_cached hq hpass hop hcached]
  exact readWindowAt_exposed ((htaken.rangeBad ..).trans hrange) ((htaken.regionOf _).trans hregion) hkind

/-- R375: a write whose context cannot be fetched. -/
theorem roceArrive_full (hop : x.op = 0) (hcached : q.cached = false) (hpinned : s.pinnedQp (x.qp, q) = false)
    (hfull : s.missFull q.stream x.data.length = true) : (s.roceArrive x).out = s.out ++ [.nak x.qp (32 + s.stored oRnrTimer)] ∧
    (s.roceArrive x).streams = s.streams ∧ (s.roceArrive x).stored oRnrNaksSent = s.stored oRnrNaksSent + 1 := by
  have hpoliced := policed_taken s q x
  have htaken := taken_taken s q x
  have hclass : ¬ isTintCounter (oServiceClass q.stream) := not_isTintCounter (.inr (by unfold oServiceClass; omega))
  have hslot : ¬ isTintCounter (oImageSlot q.stream) := not_isTintCounter (.inr (by unfold oImageSlot; omega))
  have hpinned' : (s.policed q x).pinnedQp (x.qp, q) = false := by
    unfold State.pinnedQp at hpinned ⊢
    rwa [hpoliced.stored _ hclass, hpoliced.stream]
  have hfull' : (s.policed q x).missFull q.stream x.data.length = true := by
    unfold State.missFull State.imageOf State.image at hfull ⊢
    rw [hpoliced.stored _ hslot, hpoliced.images]
    simpa only [hpoliced.port] using hfull
  have htimer := hpoliced.stored oRnrTimer (not_isTintCounter (.inl (by decide)))
  have hnaks := htaken.stored oRnrNaksSent (not_isTintCounter (.inl (by decide)))
  rw [roceArrive_write hq hpass hop, rocePacket_full hcached hpinned' hfull', htimer, State.stored_count, if_pos rfl, State.emit_stored]
  exact ⟨congrArg (· ++ _) htaken.out, htaken.streams, congrArg (· + 1) hnaks⟩

end Accepted

/-! ## The credit window (R378) -/

/-- R378: the credit window of a stream holds the grant, the fence of the credits, and zeros. -/
def DlvSt.creditWindow (d : DlvSt) : Bytes := leBytes 8 d.granted ++ leBytes 4 d.creditFence ++ zeros 52

theorem creditWindow_length (d : DlvSt) : d.creditWindow.length = 64 := by
  simp [DlvSt.creditWindow, zeros_length]

/-- R378: the window after a write at its start. -/
def DlvSt.creditWritten (d : DlvSt) (data : Bytes) : Bytes := sliceZ (d.creditWindow.take 0 ++ data ++ d.creditWindow.drop (0 + data.length)) 0 64

/-- R378: a field that a write at the window's start covers is the write's. -/
theorem fieldAt_creditWritten (d : DlvSt) {data : Bytes} (hlen : data.length ≤ 64) {o n : Nat} (h : o + n ≤ data.length) :
    fieldAt (d.creditWritten data) o n = fieldAt data o n := by
  have hwhole : d.creditWritten data = data ++ d.creditWindow.drop data.length := by
    have hall : (data ++ d.creditWindow.drop data.length).length = 64 := by
      rw [List.length_append, List.length_drop, creditWindow_length]
      omega
    unfold DlvSt.creditWritten sliceZ
    dsimp only
    rw [List.take_zero, List.nil_append, Nat.zero_add, List.drop_zero, List.take_of_length_le hall.le, hall]
    exact List.append_nil _
  rw [hwhole, fieldAt_append_left h]

/-- R378: the state once a grant has been judged. -/
def State.granting (s : State) (n g : Nat) : State :=
  if g = (s.stream n).dlv.granted then s
  else if g < (s.stream n).dlv.granted || (s.stream n).dlv.acked + s.stored (oDlvRslots n) < g then s.count oCreditViolations 1
  else s.updDlv n fun d => { d with granted := g }

section Credit

variable {s : State} {n : Nat}

/-- R378: under a fence that the stream has reached a write at the window's start gives its grant and its fence. -/
theorem creditWrite_reached {data : Bytes} (hshort : 12 ≤ data.length) (hlen : data.length ≤ 64)
    (hfence : fieldAt data 8 4 ≤ (s.stream n).prot.fenceEpoch) :
    s.creditWrite n 0 data = (s.granting n (fieldAt data 0 8)).updDlv n fun d => { d with creditFence := fieldAt data 8 4 } := by
  have hgrant : fieldAt ((s.stream n).dlv.creditWritten data) 0 8 = fieldAt data 0 8 := fieldAt_creditWritten _ hlen (by omega)
  have hepoch : fieldAt ((s.stream n).dlv.creditWritten data) 8 4 = fieldAt data 8 4 := fieldAt_creditWritten _ hlen (by omega)
  rw [← hepoch] at hfence
  rw [← hgrant, ← hepoch]
  exact if_neg (by simp [DlvSt.creditWritten, DlvSt.creditWindow] at hfence ⊢; omega)

theorem granting_legal {g : Nat} (hlow : (s.stream n).dlv.granted ≤ g) (hhigh : g ≤ (s.stream n).dlv.acked + s.stored (oDlvRslots n)) :
    (s.granting n g).out = s.out ∧ ((s.granting n g).stream n).dlv.granted = g := by
  unfold State.granting
  by_cases hsame : g = (s.stream n).dlv.granted
  · rw [if_pos hsame]
    exact ⟨rfl, hsame.symm⟩
  · rw [if_neg hsame, if_neg (by simp [Nat.not_lt.mpr hlow, Nat.not_lt.mpr hhigh]), dlv_updDlv]
    exact ⟨rfl, rfl⟩

theorem granting_illegal {g : Nat} (h : g < (s.stream n).dlv.granted ∨ (s.stream n).dlv.acked + s.stored (oDlvRslots n) < g)
    (hother : g ≠ (s.stream n).dlv.granted) : s.granting n g = s.count oCreditViolations 1 :=
  (if_neg hother).trans (if_pos (by simpa using h))

end Credit

section Grant

variable {s : State} {q : Qp} {x : RocePkt} {r : Region}
variable (hshort : 12 ≤ x.data.length) (hlen : x.data.length ≤ 64)
variable (hfence : fieldAt x.data 8 4 ≤ (s.stream r.stream).prot.fenceEpoch)
include hshort hlen hfence

/-- R378: a legal grant gives the stream its credits. -/
theorem creditWrite_legal (hlow : (s.stream r.stream).dlv.granted ≤ fieldAt x.data 0 8)
    (hhigh : fieldAt x.data 0 8 ≤ (s.stream r.stream).dlv.acked + s.stored (oDlvRslots r.stream)) :
    ((s.taken q x).creditWrite r.stream 0 x.data).out = s.out ∧
    (((s.taken q x).creditWrite r.stream 0 x.data).stream r.stream).dlv.granted = fieldAt x.data 0 8 ∧
    (((s.taken q x).creditWrite r.stream 0 x.data).stream r.stream).dlv.creditFence = fieldAt x.data 8 4 := by
  have htaken := taken_taken s q x
  have hslots := htaken.stored (oDlvRslots r.stream) (not_isTintCounter (.inr (by unfold oDlvRslots; omega)))
  rw [← htaken.stream] at hfence hlow hhigh
  rw [← hslots] at hhigh
  obtain ⟨hout, hgranted⟩ := granting_legal hlow hhigh
  rw [creditWrite_reached hshort hlen hfence, dlv_updDlv, State.updDlv_out]
  exact ⟨hout.trans htaken.out, hgranted, rfl⟩

/-- R378: an illegal grant is counted and gives nothing. -/
theorem creditWrite_illegal (h : fieldAt x.data 0 8 < (s.stream r.stream).dlv.granted ∨
      (s.stream r.stream).dlv.acked + s.stored (oDlvRslots r.stream) < fieldAt x.data 0 8)
    (hother : fieldAt x.data 0 8 ≠ (s.stream r.stream).dlv.granted) :
    (((s.taken q x).creditWrite r.stream 0 x.data).stream r.stream).dlv.granted = (s.stream r.stream).dlv.granted ∧
    ((s.taken q x).creditWrite r.stream 0 x.data).stored oCreditViolations = s.stored oCreditViolations + 1 := by
  have htaken := taken_taken s q x
  have hslots := htaken.stored (oDlvRslots r.stream) (not_isTintCounter (.inr (by unfold oDlvRslots; omega)))
  have hcount := htaken.stored oCreditViolations (not_isTintCounter (.inl (by decide)))
  rw [← htaken.stream] at hfence h hother
  rw [← hslots] at h
  rw [creditWrite_reached hshort hlen hfence, granting_illegal h hother, dlv_updDlv, State.updDlv_stored, stored_count_self, hcount]
  exact ⟨congrArg (fun st => st.dlv.granted) (htaken.stream r.stream), rfl⟩

end Grant

/-! ## Packets of no queue pair (R370, R376) -/

section NoQp

variable {s : State} {x : RocePkt} (h : s.roceQp x.qp = none)
include h

theorem roceArrive_none_send (hop : x.op = 2) : s.roceArrive x = s.emit (.nak x.qp 1) := by
  rw [roceArrive_none h, State.roceAct, hop]
  rfl

theorem roceArrive_none_write (hop : x.op = 0) : s.roceArrive x = s.nakAccessAt x.qp := by
  rw [roceArrive_none h, State.roceAct, if_pos hop, State.roceWrite, h]

theorem roceArrive_none_read (hop : x.op = 1) : s.roceArrive x = s.nakAccessAt x.qp := by
  rw [roceArrive_none h, State.roceAct, hop, State.roceRead, h]
  rfl

end NoQp

/-! ## Acknowledgements, retries and the rate (R34, R376, R377, R379) -/

section Own

variable {s : State} {qp : Nat} (hup : s.up = true)
include hup

theorem exec_roceAckReceive_none (h : s.roceQp qp = none) (psn : Nat) : exec (.roceAckReceive qp psn) s = .next s := by
  have hrow : exec (.roceAckReceive qp psn) s = execRoceAckReceive qp psn s := rfl
  rw [hrow, execRoceAckReceive, whenUp_runs _ hup, h]

theorem exec_roceRetryTimeout_none (h : s.roceQp qp = none) : exec (.roceRetryTimeout qp) s = .next s := by
  have hrow : exec (.roceRetryTimeout qp) s = execRoceRetryTimeout qp s := rfl
  rw [hrow, execRoceRetryTimeout, whenUp_runs _ hup, h]

theorem exec_cnpReceive_none (h : s.roceQp qp = none) : exec (.cnpReceive qp) s = .next s := by
  have hrow : exec (.cnpReceive qp) s = execCnpReceive qp s := rfl
  rw [hrow, execCnpReceive, whenUp_runs _ hup, h]

theorem exec_cnpRateRestore_none (h : s.roceQp qp = none) : exec (.cnpRateRestore qp) s = .next s := by
  have hrow : exec (.cnpRateRestore qp) s = execCnpRateRestore qp s := rfl
  rw [hrow, execCnpRateRestore, whenUp_runs _ hup, h]

section Oldest

variable {q : Qp} (hq : s.roceQp qp = some q)
include hq

theorem exec_roceAckReceive_oldest {a last : Nat} {rest : List (Nat × Nat)} (holdest : q.unacked = (a, last) :: rest) (psn : Nat) :
    exec (.roceAckReceive qp psn) s = if psnReached psn last then
      .next ((s.updQp qp fun x => { x with unacked := rest.dropWhile fun u => psnReached psn u.2, retries := 0 }).fabricAcked q.stream)
      else .next s := by
  have hrow : exec (.roceAckReceive qp psn) s = execRoceAckReceive qp psn s := rfl
  rw [hrow, execRoceAckReceive, whenUp_runs _ hup]
  simp only [hq, holdest]

theorem exec_roceAckReceive_idle (hidle : q.unacked = []) (psn : Nat) : exec (.roceAckReceive qp psn) s = .next s := by
  have hrow : exec (.roceAckReceive qp psn) s = execRoceAckReceive qp psn s := rfl
  rw [hrow, execRoceAckReceive, whenUp_runs _ hup]
  simp only [hq, hidle]

theorem exec_roceRetryTimeout_some : exec (.roceRetryTimeout qp) s =
    if q.unacked.isEmpty then .next s
    else if q.retries < 7 then .next ((s.resendBatch q.stream).updQp qp fun x => { x with retries := x.retries + 1 })
    else .next (((s.updQp qp fun x => { x with unacked := [], retries := 0 }).holdStream q.stream stUnreachable).notice 1 stUnreachable
      q.stream 0) := by
  have hrow : exec (.roceRetryTimeout qp) s = execRoceRetryTimeout qp s := rfl
  rw [hrow, execRoceRetryTimeout, whenUp_runs _ hup, hq]

theorem exec_roceRetryTimeout_idle (hidle : q.unacked = []) : exec (.roceRetryTimeout qp) s = .next s :=
  (exec_roceRetryTimeout_some hup hq).trans (if_pos (List.isEmpty_iff.mpr hidle))

theorem exec_roceRetryTimeout_again (hsent : q.unacked ≠ []) (hfew : q.retries < 7) : exec (.roceRetryTimeout qp) s =
    .next ((s.resendBatch q.stream).updQp qp fun x => { x with retries := x.retries + 1 }) :=
  (exec_roceRetryTimeout_some hup hq).trans ((if_neg (mt List.isEmpty_iff.mp hsent)).trans (if_pos hfew))

theorem exec_roceRetryTimeout_holds (hsent : q.unacked ≠ []) (hmany : 7 ≤ q.retries) : exec (.roceRetryTimeout qp) s =
    .next (((s.updQp qp fun x => { x with unacked := [], retries := 0 }).holdStream q.stream stUnreachable).notice 1 stUnreachable
      q.stream 0) :=
  (exec_roceRetryTimeout_some hup hq).trans ((if_neg (mt List.isEmpty_iff.mp hsent)).trans (if_neg (Nat.not_lt.mpr hmany)))

theorem exec_cnpReceive_some : exec (.cnpReceive qp) s =
    .next (s.updQp qp fun x => { x with rate := max 16 (x.rate / 2), cnpGtc := s.gtc }) := by
  have hrow : exec (.cnpReceive qp) s = execCnpReceive qp s := rfl
  rw [hrow, execCnpReceive, whenUp_runs _ hup, hq]

end Oldest

end Own

/-- R369: a RoCEv2 queue pair is the entry of its number. -/
theorem get_of_roceQp {s : State} {qp : Nat} {q : Qp} (h : s.roceQp qp = some q) : Tbl.get s.fabric.qps {} qp = q := by
  unfold State.roceQp at h
  unfold Tbl.get
  split at h
  next p hp =>
    rw [hp]
    split at h
    · exact Option.some.inj h
    · cases h
  next => cases h

/-- A change of a queue pair is read back at it. -/
theorem get_updQp (s : State) (qp : Nat) (f : Qp → Qp) :
    Tbl.get (s.updQp qp f).fabric.qps {} qp = f (Tbl.get s.fabric.qps {} qp) := Tbl.get_upd_self ..

/-- R379: 1/16 of the port rate comes back for each 50 µs without a CNP. -/
def State.rateRestored (s : State) (qp : Nat) (q : Qp) : State :=
  if q.cnpGtc + 50000 ≤ s.gtc then s.updQp qp fun x => { x with rate := min 1600 (x.rate + 100), cnpGtc := s.gtc } else s

/-- R379: one CNP is sent for each 50 µs in which marked packets came. -/
def State.marksAnswered (s : State) (qp : Nat) (q : Qp) : State :=
  if q.marked && q.cnpSent + 50000 ≤ s.gtc then (s.emit (.cnp qp)).updQp qp fun x => { x with marked := false, cnpSent := s.gtc } else s

section Rate

variable {s : State} {qp : Nat} {q : Qp}

theorem rateRestored_gtc : (s.rateRestored qp q).gtc = s.gtc := by
  unfold State.rateRestored
  split
  · rfl
  · rfl

theorem rateRestored_out : (s.rateRestored qp q).out = s.out := by
  unfold State.rateRestored
  split
  · rfl
  · rfl

theorem marksAnswered_rate : (Tbl.get (s.marksAnswered qp q).fabric.qps {} qp).rate = (Tbl.get s.fabric.qps {} qp).rate := by
  unfold State.marksAnswered
  split
  · rw [get_updQp]
    rfl
  · rfl

theorem exec_cnpRateRestore_some (hup : s.up = true) (hq : s.roceQp qp = some q) :
    exec (.cnpRateRestore qp) s = .next ((s.rateRestored qp q).marksAnswered qp q) := by
  have hrow : exec (.cnpRateRestore qp) s = execCnpRateRestore qp s := rfl
  rw [hrow, execCnpRateRestore, whenUp_runs _ hup, hq, State.marksAnswered, rateRestored_gtc]
  rfl

theorem rateRestored_early (h : s.gtc < q.cnpGtc + 50000) : s.rateRestored qp q = s := if_neg (Nat.not_le.mpr h)

theorem marksAnswered_none (h : q.marked = false ∨ s.gtc < q.cnpSent + 50000) : s.marksAnswered qp q = s :=
  if_neg (by rcases h with h | h <;> simp [h])

theorem rateRestored_rate (hq : s.roceQp qp = some q) (h : q.cnpGtc + 50000 ≤ s.gtc) :
    (Tbl.get (s.rateRestored qp q).fabric.qps {} qp).rate = min 1600 (q.rate + 100) := by
  unfold State.rateRestored
  rw [if_pos h, get_updQp, get_of_roceQp hq]

theorem marksAnswered_sent (hmarked : q.marked = true) (h : q.cnpSent + 50000 ≤ s.gtc) :
    (s.marksAnswered qp q).out = s.out ++ [.cnp qp] ∧ (Tbl.get (s.marksAnswered qp q).fabric.qps {} qp).marked = false := by
  unfold State.marksAnswered
  rw [if_pos (by simp [hmarked, h]), get_updQp]
  exact ⟨rfl, rfl⟩

end Rate

end Sys2Proof.Machine

open Sys2Proof Sys2Proof.Machine in
/-- Settles O34: a message by its answer, a frame and a reassembly by their clocks, a RoCEv2 packet by what its policer, its context and
its region say of it, and the device's own writes by their acknowledgements, their timeout and their rate. That a RoCEv2 packet is policed
in the class of its stream, at a free port, and held with that class is log entry 146, the model's choice. -/
theorem messagesAndRoce : Obligations.MessagesAndRoce := by
  unfold Obligations.MessagesAndRoce
  refine ⟨fun s hup => ⟨fun f => exec_respReceive_own hup, fun f => exec_respReceive_other hup, fun id status flags m hmsg => ?_,
      fun f hop hsystem hstore htenant hsrc hoffset htotal _ _ hnew hroom hdigest => ?_, fun src id off q hq => ?_, fun src id e he => ?_,
      fun k qp hk => ⟨exec_qpContextFetchDone_none hk hup, exec_qpContextFetchDone_some hk hup⟩⟩,
    fun s qp i hup hscrub hi => ?_, fun s qp hup hserved => ⟨fun hnone => ?_, fun hnone => ?_, fun hnone key addr data => ?_, fun q hq => ?_⟩⟩
  · refine ⟨fun hbusy hnew => ⟨_, respond_busy hmsg hbusy hnew, rfl, rfl⟩, respond_transient hmsg, respond_ends hmsg, respond_waiting hmsg,
      exec_busyBackoffExpiry_none hmsg hup, fun g => exec_busyBackoffExpiry_waits hmsg hup,
      fun g => exec_busyBackoffExpiry_unreachable hmsg hup, fun g hretry hdue htorus haway hfree => ?_⟩
    obtain ⟨hsent, hnext⟩ := sendAs_again (s := s.dropMessage id) haway (dropMessage_free hfree id)
    exact ⟨_, _, exec_busyBackoffExpiry_again hmsg hup hretry hdue htorus, hsent, rfl, rfl, rfl, rfl, hnext⟩
  · have hpacket : s.OnePacket f := ⟨hop, hsystem, hstore, htenant, hsrc, hoffset, htotal, hnew, hroom, hdigest⟩
    obtain ⟨hinbox, hreasm⟩ := processLocal_onePacket hpacket
    exact ⟨⟨_, hinbox, rfl, rfl, rfl⟩, hreasm⟩
  · exact ⟨exec_routeWaitExpiry_waits hup hq, exec_routeWaitExpiry_drops hup hq⟩
  · exact ⟨exec_reassemblyTimeout_waits hup he, fun hdue => ⟨exec_reassemblyTimeout_ends hup he hdue, failEntry_others he stReasm⟩⟩
  · have hbrings : ∃ x, bringsPacket qp x i := by
      rcases hi with hi | ⟨key, addr, data, hi⟩ | ⟨key, addr, len, hi⟩
      · exact ⟨_, .inl ⟨rfl, hi⟩⟩
      · exact ⟨_, .inr (.inl ⟨key, addr, data, rfl, hi⟩)⟩
      · exact ⟨_, .inr (.inr ⟨key, addr, len, rfl, hi⟩)⟩
    obtain ⟨x, hx⟩ := hbrings
    exact (exec_packet hup hx).trans (if_pos hscrub)
  · rw [exec_packet_arrives hup (.inl ⟨rfl, rfl⟩) hserved, roceArrive_none_send hnone rfl]
  · refine ⟨exec_cnpReceive_none hup hnone, exec_cnpRateRestore_none hup hnone, exec_roceRetryTimeout_none hup hnone,
      exec_roceAckReceive_none hup hnone, fun key addr len => ?_⟩
    rw [exec_packet_arrives hup (.inr (.inr ⟨key, addr, len, rfl, rfl⟩)) hserved, roceArrive_none_read hnone rfl]
    rfl
  · rw [exec_packet_arrives hup (.inr (.inl ⟨key, addr, data, rfl, rfl⟩)) hserved, roceArrive_none_write hnone rfl]
    rfl
  · have hsend := exec_packet_arrives hup (.inl ⟨rfl, rfl⟩) hserved
    have hwrite := fun key addr data => exec_packet_arrives hup (.inr (.inl ⟨key, addr, data, rfl, rfl⟩)) hserved
    have hread := fun key addr len => exec_packet_arrives hup (.inr (.inr ⟨key, addr, len, rfl, rfl⟩)) hserved
    refine ⟨fun x i hx hred => ?_, fun hpass => ?_, fun key addr data r hpass hcached hregion hkind hrange haddr hshort hlen hfence => ?_,
      fun key addr data hpass hcached hrange => ?_, fun key addr len hpass hcached hrange => ?_,
      fun key addr data hpass hcached hpinned hfull => ?_, fun key addr len r hpass hcached hregion hkind hrange => ?_,
      fun psn a last rest holdest hreached => (exec_roceAckReceive_oldest hup hq holdest psn).trans (if_pos hreached),
      fun psn a last rest holdest hshort => (exec_roceAckReceive_oldest hup hq holdest psn).trans (if_neg (by simp [hshort])),
      fun hidle => ⟨exec_roceAckReceive_idle hup hq hidle, exec_roceRetryTimeout_idle hup hq hidle⟩,
      exec_roceRetryTimeout_again hup hq, exec_roceRetryTimeout_holds hup hq, ⟨_, exec_cnpReceive_some hup hq, ?_⟩,
      fun hearly hnone => ?_, fun hdue => ⟨_, exec_cnpRateRestore_some hup hq, ?_⟩,
      fun hmarked hdue => ⟨_, exec_cnpRateRestore_some hup hq, ?_⟩⟩
    · have hqx : s.roceQp x.qp = some q := by rw [qp_of_bringsPacket hx, hq]
      exact ⟨_, exec_packet_arrives hup hx hserved, roceArrive_red_spec hqx hred⟩
    · exact ⟨_, hsend, roceArrive_send (x := { op := 2, qp := qp }) hq hpass rfl⟩
    · subst haddr
      have hcredit := (hwrite key r.base data).trans (congrArg Host.Outcome.next
        (roceArrive_credit (x := { op := 0, qp := qp, rkey := key, addr := r.base, data := data }) hq hpass rfl hcached hregion hkind hrange))
      rw [Nat.sub_self] at hcredit
      exact ⟨fun hlow hhigh => ⟨_, hcredit, creditWrite_legal hshort hlen hfence hlow hhigh⟩,
        fun hbad hother => ⟨_, hcredit, creditWrite_illegal hshort hlen hfence hbad hother⟩⟩
    · have hbad := roceArrive_write_bad (x := { op := 0, qp := qp, rkey := key, addr := addr, data := data }) hq hpass rfl hcached hrange
      exact ⟨_, (hwrite key addr data).trans (congrArg Host.Outcome.next hbad), nakAccessAt_taken (taken_taken ..) qp⟩
    · have hbad := roceArrive_read_bad (x := { op := 1, qp := qp, rkey := key, addr := addr, len := len }) hq hpass rfl hcached hrange
      exact ⟨_, (hread key addr len).trans (congrArg Host.Outcome.next hbad), nakAccessAt_taken (taken_taken ..) qp⟩
    · exact ⟨_, hwrite key addr data,
        roceArrive_full (x := { op := 0, qp := qp, rkey := key, addr := addr, data := data }) hq hpass rfl hcached hpinned hfull⟩
    · have hexposed := roceArrive_exposed (x := { op := 1, qp := qp, rkey := key, addr := addr, len := len }) hq hpass rfl hcached hregion hkind
        hrange
      have htaken := taken_taken s q { op := 1, qp := qp, rkey := key, addr := addr, len := len }
      exact ⟨_, htaken.streams, htaken.out, (hread key addr len).trans (congrArg Host.Outcome.next hexposed)⟩
    · rw [get_updQp, get_of_roceQp hq]
      exact ⟨rfl, rfl⟩
    · rw [exec_cnpRateRestore_some hup hq, rateRestored_early hearly, marksAnswered_none hnone]
    · rw [marksAnswered_rate, rateRestored_rate hq hdue]
    · obtain ⟨hout, hmark⟩ := marksAnswered_sent (s := s.rateRestored qp q) (qp := qp) hmarked (by rwa [rateRestored_gtc])
      exact ⟨by rw [hout, rateRestored_out], hmark⟩
end

section
/-! Service classes (R383 to R385, R388 to R390, R392): the writes of a shaper and of a gate list, the two events of a gate port, a decision
point of an internal resource, and a sample. -/

namespace Sys2Proof.Machine

open Sys2Proof

/-! ## Writes of the objects of a queue and of a gate port (R398, R544) -/

/-- R398: a class queue or a gate port has an object of index i. -/
def isClassIndex (i : Nat) : Prop := 0x5100 ≤ i ∧ i < 0x5209

section ClassObject

variable {i u : Nat} (hi : isClassIndex i) (hu : u < 256)
include hi hu

/-- R398: the chapter on service classes decides the writes of these objects. -/
theorem applyObject_class (t : State) (src : OdSource) (role : Role) (v : Nat) (data : Bytes) :
    t.applyObject src role (256 * i + u) v data = t.applyClasses i u (256 * i + u) v := by
  obtain ⟨hlow, hhigh⟩ := hi
  have hidx : (256 * i + u) / 256 = i := by omega
  have hsub : (256 * i + u) % 256 = u := by omega
  have hoff : t.objectOff i = false := by
    unfold State.objectOff
    rw [if_neg (by simp only [Bool.and_eq_true, decide_eq_true_eq]; omega),
      if_neg (by simp only [Bool.and_eq_true, decide_eq_true_eq]; omega)]
  unfold State.applyObject
  dsimp only
  rw [hidx, hsub, hoff, if_neg Bool.false_ne_true, if_neg (by omega), if_neg (by omega), if_neg (by omega),
    if_neg (by simp only [Bool.and_eq_true, decide_eq_true_eq]; omega),
    if_neg (by simp only [Bool.and_eq_true, decide_eq_true_eq]; omega),
    if_neg (by simp only [Bool.and_eq_true, decide_eq_true_eq]; omega),
    if_neg (by simp only [oGtcRoot]; omega), if_neg (by omega), if_neg (by omega),
    if_neg (by simp only [Bool.and_eq_true, decide_eq_true_eq]; omega),
    if_neg (by simp only [Bool.and_eq_true, decide_eq_true_eq]; omega), if_pos (by omega)]

/-- R488: none of their values is normalised. -/
theorem normalValue_class (v : Nat) : normalValue (256 * i + u) v = v := by
  obtain ⟨hlow, hhigh⟩ := hi
  have hplace : 256 * i + u ≠ oPlaceGeometry ∧ 256 * i + u ≠ oTorusGeometry := by
    simp only [oPlaceGeometry, oTorusGeometry]
    omega
  rw [normalValue, if_neg (by simp [hplace]), if_neg (by simp only [Bool.and_eq_true, decide_eq_true_eq]; omega)]

/-- R398, R544: the row of such an object answers what the chapter on service classes says of the value written. -/
theorem classRow_answered {s t : State} {r : OdReq} {role : Role} (hlimit : isLimited (256 * i + u) = false)
    (h : s.ReceivesWrite r (256 * i + u) role t) :
    odRow (256 * i + u) (fun _ => true) r s = (t.applyClasses i u (256 * i + u) (leNat r.data)).answered r := by
  have hkey : 256 * i + u < 2 ^ 24 := by
    have := hi.2
    omega
  rw [odRow_answered h rfl hkey hlimit, normalValue_class hi hu, applyObject_class hi hu]

end ClassObject

/-! ## A shaper parameter (R383) -/

theorem keyOf_shaper {q sub : Nat} (hq : q < 176) (hsub : sub ≤ 4) : keyOf (0x5100 + q) sub = 256 * (0x5100 + q) + sub :=
  keyOf_eq (by omega) (by omega)

theorem isLimited_shaper : ∀ q < 176, ∀ sub ≤ 4, 1 ≤ sub → isLimited (256 * (0x5100 + q) + sub) = false := by decide +kernel

theorem applyClasses_shaper {q sub : Nat} (hq : q < 176) (hsub : sub ≤ 4) (t : State) (v : Nat) :
    t.applyClasses (0x5100 + q) sub (256 * (0x5100 + q) + sub) v = acceptIf (t.shaperAccepted q sub v) t (t.setShaper q sub v) := by
  unfold State.applyClasses State.applyQueue
  rw [if_neg (by simp only [oResultDpa]; omega), if_neg (by simp only [Bool.and_eq_true, decide_eq_true_eq]; omega),
    if_pos (by simp only [Bool.and_eq_true, decide_eq_true_eq]; omega), Nat.add_sub_cancel_left]
  split
  · omega
  · omega
  · rfl

theorem exec_shaperParamWrite {s t : State} {r : OdReq} {q sub : Nat} {role : Role} (hq : q < 176) (hlow : 1 ≤ sub) (hhigh : sub ≤ 4)
    (h : s.ReceivesWrite r (keyOf (0x5100 + q) sub) role t) : exec (.shaperParamWrite r q sub) s =
    (acceptIf (t.shaperAccepted q sub (leNat r.data)) t (t.setShaper q sub (leNat r.data))).answered r := by
  have hrow : exec (.shaperParamWrite r q sub) s =
    odRow (blockKey (decide (q < 176) && decide (1 ≤ sub) && decide (sub ≤ 4)) (keyOf (0x5100 + q) sub)) (fun _ => true) r s := rfl
  have hblock : blockKey (decide (q < 176) && decide (1 ≤ sub) && decide (sub ≤ 4)) (keyOf (0x5100 + q) sub) =
      256 * (0x5100 + q) + sub := by
    simp [blockKey, hq, hlow, hhigh, keyOf_shaper hq hhigh]
  rw [keyOf_shaper hq hhigh] at h
  rw [hrow, hblock, classRow_answered ⟨by omega, by omega⟩ (by omega) (isLimited_shaper q hq sub hhigh hlow) h,
    applyClasses_shaper hq hhigh]

theorem queue_setQueue (s : State) (q k : Nat) (x : Queue) : (s.setQueue q x).queue k = if k = q then x else s.queue k :=
  Tbl.get_set ..

theorem setQueue_gtc (s : State) (q : Nat) (x : Queue) : (s.setQueue q x).gtc = s.gtc := rfl

/-- R383: the state with an accepted parameter stored, and the peak that follows it. -/
def State.storeShaper (s : State) (q sub v : Nat) : State :=
  match sub with
  | 1 => if boundQueue q then (s.store (oCir q) v).store (oPir q) v else s.store (oCir q) v
  | 2 => if boundQueue q then (s.store (oCbs q) v).store (oPbs q) v else s.store (oCbs q) v
  | 3 => s.store (oPir q) v
  | _ => s.store (oPbs q) v

theorem setShaper_eq (s : State) (q sub v : Nat) : s.setShaper q sub v = (s.storeShaper q sub v).fillBuckets q := rfl

/-- R383: a parameter is kept under its own subindex; at a port of the bound PIR follows CIR and PBS follows CBS. -/
theorem storeShaper_stored {sub : Nat} (hlow : 1 ≤ sub) (hhigh : sub ≤ 4) (s : State) (q v : Nat) :
    (s.storeShaper q sub v).stored (256 * (0x5100 + q) + sub) = v ∧
    (boundQueue q = true → sub ≤ 2 → (s.storeShaper q sub v).stored (256 * (0x5100 + q) + (sub + 2)) = v) := by
  have hcir : 256 * (0x5100 + q) + 1 = oCir q := by unfold oCir; omega
  have hcbs : 256 * (0x5100 + q) + 2 = oCbs q := by unfold oCbs; omega
  have hpir : 256 * (0x5100 + q) + 3 = oPir q := by unfold oPir; omega
  have hpbs : 256 * (0x5100 + q) + 4 = oPbs q := by unfold oPbs; omega
  obtain rfl | rfl | rfl | rfl : sub = 1 ∨ sub = 2 ∨ sub = 3 ∨ sub = 4 := by omega
  · rw [hcir, hpir]
    cases hbound : boundQueue q <;> simp [State.storeShaper, hbound, State.stored_store]
  · rw [hcbs, hpbs]
    cases hbound : boundQueue q <;> simp [State.storeShaper, hbound, State.stored_store]
  · rw [hpir]
    exact ⟨State.stored_store_self .., fun _ h => absurd h (by decide)⟩
  · rw [hpbs]
    exact ⟨State.stored_store_self .., fun _ h => absurd h (by decide)⟩

theorem storeShaper_eq (s : State) (q sub v : Nat) :
    s.storeShaper q sub v = { s with od := (s.storeShaper q sub v).od } := by
  unfold State.storeShaper
  split
  · split <;> rfl
  · split <;> rfl
  · rfl
  · rfl

/-- R383: an accepted parameter fills the buckets of its queue alone. -/
theorem setShaper_queue (s : State) (q sub v k : Nat) :
    (s.setShaper q sub v).queue k = if k = q then { s.queue q with full := true, last := s.gtc } else s.queue k := by
  rw [setShaper_eq, storeShaper_eq]
  exact queue_setQueue ..

/-! ## CONFIG_CHANGE (R388, R390) -/

theorem oConfigChange_eq (g : Nat) : oConfigChange g = 256 * (0x5200 + g) + 4 := by unfold oConfigChange; omega

theorem isLimited_oConfigChange : ∀ g < 9, isLimited (oConfigChange g) = false := by decide +kernel

theorem applyClasses_configChange {g : Nat} (hg : g < 9) (t : State) (v : Nat) :
    t.applyClasses (0x5200 + g) 4 (256 * (0x5200 + g) + 4) v = acceptIf (t.changeAccepted g) t (t.armChange g) := by
  unfold State.applyClasses
  rw [if_neg (by simp only [oResultDpa]; omega), if_neg (by simp only [Bool.and_eq_true, decide_eq_true_eq]; omega),
    if_neg (by simp only [Bool.and_eq_true, decide_eq_true_eq]; omega),
    if_pos (by simp only [Bool.and_eq_true, decide_eq_true_eq, and_true]; omega), Nat.add_sub_cancel_left]

theorem exec_configChange {s t : State} {r : OdReq} {g : Nat} {role : Role} (hg : g < 9)
    (h : s.ReceivesWrite r (oConfigChange g) role t) :
    exec (.configChange r g) s = (acceptIf (t.changeAccepted g) t (t.armChange g)).answered r := by
  have hrow : exec (.configChange r g) s = odRow (blockKey (decide (g < 9)) (oConfigChange g)) (fun _ => true) r s := rfl
  have hblock : blockKey (decide (g < 9)) (oConfigChange g) = oConfigChange g := by simp [blockKey, hg]
  have hlimit := isLimited_oConfigChange g hg
  rw [oConfigChange_eq] at h hlimit
  rw [hrow, hblock, oConfigChange_eq, classRow_answered ⟨by omega, by omega⟩ (by decide) hlimit h, applyClasses_configChange hg]

theorem changeAccepted_iff (t : State) (g : Nat) : t.changeAccepted g = true ↔
    (∀ e ∈ t.adminList g, gateDur e ≠ 0) ∧ (∃ e ∈ t.adminList g, gateOpen e 0 = true) ∧ t.gtc + 100000 ≤ t.stored (oAdminBase g) := by
  simp [State.changeAccepted, and_assoc]

/-- R388, R390: a change is refused for its base, for an entry without a duration, or for S0 closed throughout. -/
theorem changeAccepted_false {t : State} {g : Nat}
    (h : t.stored (oAdminBase g) < t.gtc + 100000 ∨ (∃ e ∈ t.adminList g, gateDur e = 0) ∨ ∀ e ∈ t.adminList g, gateOpen e 0 = false) :
    t.changeAccepted g = false := by
  rw [Bool.eq_false_iff, Ne, changeAccepted_iff]
  rintro ⟨hdur, ⟨e, he, hopen⟩, hbase⟩
  rcases h with hearly | ⟨e, he, hzero⟩ | hclosed
  · omega
  · exact hdur e he hzero
  · exact Bool.false_ne_true ((hclosed e he).symm.trans hopen)

/-! ## The events of a gate port (R388, R390) -/

/-- R388: the current entry of a gate port. -/
def Gate.entry (x : Gate) : Nat := gateAt x.oper x.cur

section GateEvents

variable {s : State} {g : Nat} (hg : g < 9) (hup : s.up = true)
include hg hup

theorem exec_gateListSwitch_none (harmed : (s.gate g).armed = none) : exec (.gateListSwitch g) s = .next s := by
  have hrow : exec (.gateListSwitch g) s = execGateListSwitch g s := rfl
  rw [hrow, execGateListSwitch, withGate_runs _ hg hup]
  simp only [harmed]

theorem exec_gateListSwitch_early {base : Nat} {l : List Nat} (harmed : (s.gate g).armed = some (base, l)) (hearly : s.gtc < base) :
    exec (.gateListSwitch g) s = .next s := by
  have hrow : exec (.gateListSwitch g) s = execGateListSwitch g s := rfl
  rw [hrow, execGateListSwitch, withGate_runs _ hg hup]
  simp only [harmed, if_pos hearly]

/-- R390: at its base the admin list becomes operational from entry 0, at its own gate port alone. -/
theorem exec_gateListSwitch_due {base : Nat} {l : List Nat} (harmed : (s.gate g).armed = some (base, l)) (hdue : base ≤ s.gtc) :
    ∃ straddle, exec (.gateListSwitch g) s = .next
      ((s.updGate g fun _ => { oper := l, armed := none, cur := 0, start := base, straddle := straddle }).store (oOperBase g) base) := by
  have hrow : exec (.gateListSwitch g) s = execGateListSwitch g s := rfl
  rw [hrow, execGateListSwitch, withGate_runs _ hg hup]
  simp only [harmed, if_neg (Nat.not_lt.mpr hdue)]
  exact ⟨_, rfl⟩

theorem exec_gateEntryExpiry_early (hearly : s.gtc < (s.gate g).start + gateDur (s.gate g).entry) :
    exec (.gateEntryExpiry g) s = .next s := by
  have hrow : exec (.gateEntryExpiry g) s = execGateEntryExpiry g s := rfl
  rw [hrow, execGateEntryExpiry, withGate_runs _ hg hup]
  exact if_pos hearly

/-- R388: an entry that has ended gives way to the next, which begins where it ended. -/
theorem exec_gateEntryExpiry_due (hdue : (s.gate g).start + gateDur (s.gate g).entry ≤ s.gtc) :
    ∃ t, exec (.gateEntryExpiry g) s = .next t ∧ (t.gate g).cur = ((s.gate g).cur + 1) % (s.gate g).oper.length ∧
      (t.gate g).oper = (s.gate g).oper ∧ (t.gate g).start = (s.gate g).start + gateDur (s.gate g).entry := by
  have hrow : exec (.gateEntryExpiry g) s = execGateEntryExpiry g s := rfl
  rw [hrow, execGateEntryExpiry, withGate_runs _ hg hup]
  refine ⟨_, if_neg (Nat.not_lt.mpr hdue), ?_⟩
  rw [State.gate_updGate, if_pos rfl]
  exact ⟨rfl, rfl, rfl⟩

end GateEvents

/-! ## The tokens of a queue (R384) -/

/-- R384: queue q after a unit of n units and a colour has taken its tokens. -/
def State.paid (s : State) (q n : Nat) (T : Tint) : Queue :=
  if s.unshaped q then s.queue q
  else { s.queue q with
    tc := (s.tokens q).1 - (if T = .green then n * tokenScale else 0), tp := (s.tokens q).2 - (if T = .red then 0 else n * tokenScale)
    last := s.gtc, full := false }

theorem queue_takeTokens (s : State) (q n : Nat) (T : Tint) (k : Nat) :
    (s.takeTokens q n T).queue k = if k = q then s.paid q n T else s.queue k := by
  unfold State.takeTokens State.paid
  by_cases hfree : s.unshaped q = true
  · rw [if_pos hfree, if_pos hfree]
    split
    case isTrue h => rw [h]
    case isFalse => rfl
  · rw [if_neg hfree, if_neg hfree]
    cases T <;> exact queue_setQueue ..

/-- R384: a payment leaves the units that wait and the longest wait. -/
theorem paid_kept (s : State) (q n : Nat) (T : Tint) :
    (s.paid q n T).waiting = (s.queue q).waiting ∧ (s.paid q n T).maxWait = (s.queue q).maxWait := by
  unfold State.paid
  split <;> exact ⟨rfl, rfl⟩

theorem paid_tokens {s : State} {q : Nat} {T : Tint} (hshaped : s.unshaped q = false) (hred : T ≠ .red) (n : Nat) :
    (s.paid q n T).tc = (s.tokens q).1 - (if T = .green then n * 10 ^ 9 else 0) ∧
    (s.paid q n T).tp = (s.tokens q).2 - n * 10 ^ 9 ∧ (s.paid q n T).last = s.gtc := by
  rw [State.paid, if_neg (by simp [hshaped]), if_neg hred]
  exact ⟨rfl, rfl, rfl⟩

/-! ## The candidates and the choice (R385, R389) -/

/-- R385, R389: the candidate of class c at an internal resource: the head of its queue, where its gate lets it start. -/
def State.candidate (s : State) (r c : Nat) : Option (Nat × Nat) :=
  match (s.queue (8 * r + c)).waiting with
  | (n, _) :: _ => if r = 20 && !s.gateAllows 8 c n then none else some (c, n)
  | [] => none

theorem internalCands_eq (s : State) (r : Nat) : s.internalCands r = (List.range 8).filterMap (s.candidate r) := rfl

/-- R385, R389: a unit of n units heads the queue of class c at a resource, and its gate lets it start. -/
def State.mayStart (s : State) (r c n : Nat) : Prop :=
  (∃ since rest, (s.queue (8 * r + c)).waiting = (n, since) :: rest) ∧ (r = 20 → s.gateAllows 8 c n = true)

theorem mayStart_iff {s : State} {r c n since : Nat} {rest : List (Nat × Nat)}
    (hhead : (s.queue (8 * r + c)).waiting = (n, since) :: rest) (m : Nat) :
    s.mayStart r c m ↔ n = m ∧ (r = 20 → s.gateAllows 8 c n = true) := by
  unfold State.mayStart
  rw [hhead]
  constructor
  · rintro ⟨⟨_, _, heq⟩, hgate⟩
    obtain ⟨⟨rfl, -⟩, -⟩ : (n = m ∧ since = _) ∧ rest = _ := by simpa using heq
    exact ⟨rfl, hgate⟩
  · rintro ⟨rfl, hgate⟩
    exact ⟨⟨since, rest, rfl⟩, hgate⟩

theorem candidate_eq_some (s : State) (r c : Nat) (x : Nat × Nat) : s.candidate r c = some x ↔ x.1 = c ∧ s.mayStart r c x.2 := by
  obtain ⟨d, m⟩ := x
  unfold State.candidate
  cases hwait : (s.queue (8 * r + c)).waiting with
  | nil => simp [State.mayStart, hwait]
  | cons y ys =>
    obtain ⟨n, since⟩ := y
    rw [mayStart_iff hwait]
    by_cases hgate : r = 20 → s.gateAllows 8 c n = true
    · have hpass : (decide (r = 20) && !s.gateAllows 8 c n) = false := by simpa using hgate
      simp only [hpass, Bool.false_eq_true, if_false, Option.some.injEq, Prod.mk.injEq, iff_true_intro hgate, and_true,
        eq_comm (a := d)]
    · have hshut : (decide (r = 20) && !s.gateAllows 8 c n) = true := by simpa using hgate
      simp only [hshut, if_true, reduceCtorEq, hgate, and_false]

theorem mem_internalCands (s : State) (r : Nat) (x : Nat × Nat) : x ∈ s.internalCands r ↔ x.1 < 8 ∧ s.mayStart r x.1 x.2 := by
  simp only [internalCands_eq, List.mem_filterMap, List.mem_range, candidate_eq_some]
  constructor
  · rintro ⟨c, hc, rfl, hstart⟩
    exact ⟨hc, hstart⟩
  · rintro ⟨hc, hstart⟩
    exact ⟨x.1, hc, rfl, hstart⟩

/-- R385: the candidates stand in the order of their classes. -/
theorem internalCands_sorted (s : State) (r : Nat) : (s.internalCands r).Pairwise fun x y => x.1 < y.1 := by
  rw [internalCands_eq, List.pairwise_filterMap]
  refine List.pairwise_lt_range.imp fun {c d} hlt x hx y hy => ?_
  rw [((candidate_eq_some s r c x).mp hx).1, ((candidate_eq_some s r d y).mp hy).1]
  exact hlt

/-- In an ordered list a search finds the member that passes and that no earlier member forestalls. -/
theorem find?_of_first {α : Type} {R : α → α → Prop} {l : List α} (hsorted : l.Pairwise R) {p : α → Bool} {x : α} (hx : x ∈ l)
    (hp : p x = true) (hfirst : ∀ y ∈ l, R y x → p y = false) : l.find? p = some x := by
  obtain ⟨before, after, rfl⟩ := List.append_of_mem hx
  refine List.find?_eq_some_iff_append.mpr ⟨hp, before, after, rfl, fun y hy => ?_⟩
  have horder := (List.pairwise_append.mp hsorted).2.2 y hy x (List.mem_cons_self ..)
  simp [hfirst y (List.mem_append_left _ hy) horder]

section Pick

variable {s : State} {r : Nat} {cands : List (Nat × Nat)}

/-- R385: the shaper sends the GREEN candidate of the highest class, or without one the YELLOW candidate of the highest class. -/
theorem shaperPick_first (hsorted : cands.Pairwise fun x y => x.1 < y.1) {x : Nat × Nat} (hx : x ∈ cands) {T : Tint}
    (hT : s.tint (8 * r + x.1) x.2 .green = T) (hred : T ≠ .red)
    (hfirst : ∀ y ∈ cands, y.1 < x.1 → s.tint (8 * r + y.1) y.2 .green ≠ T)
    (hgreen : T = .yellow → ∀ y ∈ cands, s.tint (8 * r + y.1) y.2 .green ≠ .green) :
    s.shaperPick r cands = some (x.1, x.2, T) := by
  have hfound : cands.find? (fun y => s.tint (8 * r + y.1) y.2 .green == T) = some x :=
    find?_of_first hsorted hx (by simpa using hT) fun y hy hlt => by simpa using hfirst y hy hlt
  unfold State.shaperPick
  cases T with
  | green => simp only [hfound]
  | yellow =>
    have hnone : cands.find? (fun y => s.tint (8 * r + y.1) y.2 .green == .green) = none :=
      List.find?_eq_none.mpr fun y hy => by simpa using hgreen rfl y hy
    simp only [hnone, hfound, Option.map_some]
  | red => exact absurd rfl hred

/-- R385: RED units wait. -/
theorem shaperPick_red (hred : ∀ y ∈ cands, s.tint (8 * r + y.1) y.2 .green = .red) : s.shaperPick r cands = none := by
  have hnone : ∀ T : Tint, T ≠ .red → cands.find? (fun y => s.tint (8 * r + y.1) y.2 .green == T) = none := fun T hT =>
    List.find?_eq_none.mpr fun y hy => by simpa [hred y hy] using hT.symm
  unfold State.shaperPick
  simp only [hnone .green (by decide), hnone .yellow (by decide), Option.map_none]

end Pick

/-! ## A decision point (R384, R385) -/

/-- R385, R392: queue q after its head unit, of n units and offered at `since`, has gone with a colour. -/
def State.served (s : State) (q n since : Nat) (rest : List (Nat × Nat)) (T : Tint) : Queue :=
  { s.paid q n T with waiting := rest, maxWait := max (s.queue q).maxWait (s.gtc - since) }

theorem queue_decide_picked {s : State} {r c n since : Nat} {rest : List (Nat × Nat)} {T : Tint}
    (hpick : s.shaperPick r (s.internalCands r) = some (c, n, T)) (hhead : (s.queue (8 * r + c)).waiting = (n, since) :: rest) (k : Nat) :
    (s.decide_ r).queue k = if k = 8 * r + c then s.served (8 * r + c) n since rest T else s.queue k := by
  obtain ⟨hwait, hmax⟩ := paid_kept s (8 * r + c) n T
  have hgtc : (s.takeTokens (8 * r + c) n T).gtc = s.gtc := by rw [takeTokens_eq]; rfl
  have hself : (s.takeTokens (8 * r + c) n T).queue (8 * r + c) = s.paid (8 * r + c) n T := by rw [queue_takeTokens, if_pos rfl]
  unfold State.decide_
  simp only [hpick, hself, hwait, hhead]
  unfold State.leave
  by_cases hk : k = 8 * r + c
  · rw [queue_setQueue, if_pos hk, if_pos hk, queue_setQueue, if_pos rfl]
    simp only [State.served, setQueue_gtc, hgtc, hmax]
  · rw [queue_setQueue, if_neg hk, queue_setQueue, if_neg hk, queue_takeTokens, if_neg hk, if_neg hk]

theorem decide_eq_self {s : State} {r : Nat} (hpick : s.shaperPick r (s.internalCands r) = none) : s.decide_ r = s := by
  unfold State.decide_
  simp only [hpick]

theorem exec_crossbarDecisionPoint {s : State} {res : Nat} (hlow : 17 ≤ res) (hhigh : res ≤ 21) (hup : s.up = true) :
    exec (.crossbarDecisionPoint res) s = .next (s.decide_ res) := by
  have hrow : exec (.crossbarDecisionPoint res) s = execCrossbarDecisionPoint res s := rfl
  rw [hrow, execCrossbarDecisionPoint, if_pos (by simp [hlow, hhigh]), whenUp_runs _ hup]

/-- R385: a frame boundary of gate port 8 is a decision point of the CXL.mem data. -/
theorem exec_frameTransmitDone_gate8 {s : State} (hup : s.up = true) : exec (.frameTransmitDone 8) s = .next (s.decide_ 20) := by
  have hrow : exec (.frameTransmitDone 8) s = execFrameTransmitDone 8 s := rfl
  rw [hrow, execFrameTransmitDone, if_pos rfl, whenUp_runs _ hup]

/-! ## A sample (R392) -/

/-- R392: an object set to a value that it may hold already. -/
def State.keep (s : State) (key v : Nat) : State := if s.stored key = v then s else s.store key v

theorem keep_eq (s : State) (key v : Nat) : s.keep key v = { s with od := (s.keep key v).od } := by
  unfold State.keep
  split <;> rfl

theorem stored_keep (s : State) (key v k : Nat) : (s.keep key v).stored k = if k = key then v else s.stored k := by
  unfold State.keep
  split
  case isTrue h =>
    split
    case isTrue hk => rw [hk, h]
    case isFalse => rfl
  case isFalse => exact State.stored_store ..

/-- R392: DEPTH of a sample of queue q. -/
def State.depthNow (s : State) (q : Nat) : Nat := min (s.depthOf q) (2 ^ 32 - 1)

/-- R392: DELAY of a sample of queue q. -/
def State.delayNow (s : State) (q : Nat) : Nat := min (s.queue q).maxWait (2 ^ 32 - 1)

/-- R392: the sample of queue q and the peaks are recorded. -/
def State.recordSample (s : State) (q : Nat) : State :=
  (((s.keep (oDepth q) (s.depthNow q)).keep (oDelay q) (s.delayNow q)).keep (oDepthPeak q)
    (max (s.stored (oDepthPeak q)) (s.depthNow q))).keep (oDelayPeak q) (max (s.stored (oDelayPeak q)) (s.delayNow q))

theorem recordSample_eq (s : State) (q : Nat) : s.recordSample q = { s with od := (s.recordSample q).od } := by
  unfold State.recordSample
  rw [keep_eq, keep_eq (State.keep _ _ _), keep_eq (State.keep _ _ _), keep_eq s]

theorem sampleQueue_eq (s : State) (q : Nat) : s.sampleQueue q =
    if ((s.recordSample q).queue q).maxWait = 0 then s.recordSample q
    else (s.recordSample q).setQueue q { (s.recordSample q).queue q with maxWait := 0 } := rfl

/-- R392: a sample writes the record of its queue, and restarts its wait. -/
theorem sampleQueue_rest (s : State) (q : Nat) :
    s.sampleQueue q = { s with od := (s.recordSample q).od, queues := (s.sampleQueue q).queues } := by
  rw [sampleQueue_eq]
  split
  · rw [recordSample_eq]
  · rw [recordSample_eq]
    rfl

theorem queue_recordSample (s : State) (q k : Nat) : (s.recordSample q).queue k = s.queue k := by
  rw [recordSample_eq]
  rfl

theorem queue_sampleQueue (s : State) (q k : Nat) :
    (s.sampleQueue q).queue k = if k = q then { s.queue q with maxWait := 0 } else s.queue k := by
  rw [sampleQueue_eq]
  split
  case isTrue hzero =>
    rw [queue_recordSample] at hzero ⊢
    split
    case isTrue hk => rw [hk, ← hzero]
    case isFalse => rfl
  case isFalse => rw [queue_setQueue, queue_recordSample, queue_recordSample]

theorem stored_sampleQueue (s : State) (q key : Nat) : (s.sampleQueue q).stored key = (s.recordSample q).stored key := by
  rw [sampleQueue_rest]
  rfl

/-- R392: an object of the record of queue q. -/
def isSampleKey (q key : Nat) : Prop := key = oDepth q ∨ key = oDelay q ∨ key = oDepthPeak q ∨ key = oDelayPeak q

theorem isSampleKey_index {q key : Nat} (h : isSampleKey q key) : key / 256 = 0x5100 + q := by
  simp only [isSampleKey, oDepth, oDelay, oDepthPeak, oDelayPeak] at h
  omega

theorem stored_sampleQueue_ne (s : State) {q key : Nat} (h : ¬ isSampleKey q key) : (s.sampleQueue q).stored key = s.stored key := by
  simp only [isSampleKey, not_or] at h
  obtain ⟨hdepth, hdelay, hdepthPeak, hdelayPeak⟩ := h
  simp only [stored_sampleQueue, State.recordSample, stored_keep, if_neg hdepth, if_neg hdelay, if_neg hdepthPeak, if_neg hdelayPeak]

/-- R392: the record of a queue is that of a sample of s. -/
structure Sampled (q : Nat) (s t : State) : Prop where
  depth : t.stored (oDepth q) = s.depthNow q
  delay : t.stored (oDelay q) = s.delayNow q
  depthPeak : t.stored (oDepthPeak q) = max (s.stored (oDepthPeak q)) (s.depthNow q)
  delayPeak : t.stored (oDelayPeak q) = max (s.stored (oDelayPeak q)) (s.delayNow q)
  restarted : (t.queue q).maxWait = 0

theorem sampleQueue_sampled (s : State) (q : Nat) : Sampled q s (s.sampleQueue q) := by
  have hkeys : oDepth q ≠ oDelay q ∧ oDepth q ≠ oDepthPeak q ∧ oDepth q ≠ oDelayPeak q ∧ oDelay q ≠ oDepthPeak q ∧
      oDelay q ≠ oDelayPeak q ∧ oDepthPeak q ≠ oDelayPeak q := by
    simp only [oDepth, oDelay, oDepthPeak, oDelayPeak]
    omega
  obtain ⟨h1, h2, h3, h4, h5, h6⟩ := hkeys
  refine ⟨?_, ?_, ?_, ?_, ?_⟩
  · simp [stored_sampleQueue, State.recordSample, stored_keep, h1, h2, h3]
  · simp [stored_sampleQueue, State.recordSample, stored_keep, h4, h5]
  · simp [stored_sampleQueue, State.recordSample, stored_keep, h6]
  · simp [stored_sampleQueue, State.recordSample, stored_keep]
  · rw [queue_sampleQueue, if_pos rfl]

/-- R392: the samples of other queues than q have led from s to t. -/
structure SamplesOthers (q : Nat) (s t : State) : Prop where
  fabric : t.fabric = s.fabric
  streams : t.streams = s.streams
  queue : t.queue q = s.queue q
  stored : ∀ key, (∀ i ≠ q, ¬ isSampleKey i key) → t.stored key = s.stored key

namespace SamplesOthers

variable {q : Nat} {s t u : State}

theorem refl (q : Nat) (s : State) : SamplesOthers q s s := ⟨rfl, rfl, rfl, fun _ _ => rfl⟩

theorem trans (h : SamplesOthers q s t) (h' : SamplesOthers q t u) : SamplesOthers q s u :=
  ⟨h'.fabric.trans h.fabric, h'.streams.trans h.streams, h'.queue.trans h.queue,
    fun key hkey => (h'.stored key hkey).trans (h.stored key hkey)⟩

theorem sampleQueue {i : Nat} (hi : i ≠ q) (s : State) : SamplesOthers q s (s.sampleQueue i) :=
  ⟨by rw [sampleQueue_rest], by rw [sampleQueue_rest], by rw [queue_sampleQueue, if_neg hi.symm],
    fun _ hkey => stored_sampleQueue_ne s (hkey i hi)⟩

theorem foldl {l : List Nat} (hl : q ∉ l) (s : State) : SamplesOthers q s (l.foldl State.sampleQueue s) :=
  List.foldlRecOn (motive := SamplesOthers q s) l _ (refl q s) fun u hu _ hi =>
    hu.trans (sampleQueue (ne_of_mem_of_not_mem hi hl) u)

/-- R392: they leave the record of queue q. -/
theorem record (h : SamplesOthers q s t) {key : Nat} (hkey : isSampleKey q key) : t.stored key = s.stored key :=
  h.stored key fun i hi hother => hi (by have := isSampleKey_index hkey; have := isSampleKey_index hother; omega)

/-- R392: they leave the units queued at queue q, of whatever resource it is. -/
theorem depthOf (h : SamplesOthers q s t) : t.depthOf q = s.depthOf q := by
  have hport : ∀ k, t.port k = s.port k := fun k => by unfold State.port; rw [h.fabric]
  have hstream := stream_of_streams h.streams
  have hrun : ∀ n, t.run n = s.run n := fun n => by unfold State.run; rw [hstream]
  have hclass : ∀ n ∈ List.range Config.streams, t.stored (oServiceClass n) = s.stored (oServiceClass n) := fun n hn =>
    h.stored _ fun i _ hkey => by
      have hindex := isSampleKey_index hkey
      have hlt : n < 64 := List.mem_range.mp hn
      simp only [oServiceClass] at hindex
      omega
  have hjobs : ((List.range Config.streams).map fun n =>
        if (t.stream n).state = .running && t.stored (oServiceClass n) = q % 8 then (t.run n).toAdmit.length else 0) =
      (List.range Config.streams).map fun n =>
        if (s.stream n).state = .running && s.stored (oServiceClass n) = q % 8 then (s.run n).toAdmit.length else 0 :=
    List.map_congr_left fun n hn => by rw [hstream, hrun, hclass n hn]
  unfold State.depthOf
  simp only [hport, hjobs, h.queue]

end SamplesOthers

/-- R392: a walk over distinct queues samples each of them as it stood at the beginning. -/
theorem foldl_sampleQueue_sampled {l : List Nat} (hdistinct : l.Nodup) {q : Nat} (hq : q ∈ l) (s : State) :
    Sampled q s (l.foldl State.sampleQueue s) := by
  obtain ⟨before, after, rfl⟩ := List.append_of_mem hq
  obtain ⟨hbefore, hafter⟩ : q ∉ before ∧ q ∉ after := by
    rw [List.nodup_middle, List.nodup_cons, List.mem_append] at hdistinct
    exact not_or.mp hdistinct.1
  rw [List.foldl_append, List.foldl_cons]
  have hfirst := SamplesOthers.foldl hbefore s
  generalize before.foldl State.sampleQueue s = u at hfirst ⊢
  have hown := sampleQueue_sampled u q
  have hlast := SamplesOthers.foldl hafter (u.sampleQueue q)
  have hdepth : u.depthNow q = s.depthNow q := by rw [State.depthNow, hfirst.depthOf]; rfl
  have hdelay : u.delayNow q = s.delayNow q := by rw [State.delayNow, hfirst.queue]; rfl
  refine ⟨?_, ?_, ?_, ?_, ?_⟩
  · rw [hlast.record (.inl rfl), hown.depth, hdepth]
  · rw [hlast.record (.inr (.inl rfl)), hown.delay, hdelay]
  · rw [hlast.record (.inr (.inr (.inl rfl))), hown.depthPeak, hdepth, hfirst.record (.inr (.inr (.inl rfl)))]
  · rw [hlast.record (.inr (.inr (.inr rfl))), hown.delayPeak, hdelay, hfirst.record (.inr (.inr (.inr rfl)))]
  · rw [hlast.queue, hown.restarted]

theorem exec_queueSample {s : State} (hup : s.up = true) : exec .queueSample s =
    if s.gtc % 2 ^ s.stored oSampleK = 0 then .next ((List.range 176).foldl State.sampleQueue s) else .next s := by
  have hrow : exec .queueSample s = execQueueSample s := rfl
  rw [hrow, execQueueSample, whenUp_runs _ hup]

end Sys2Proof.Machine

open Sys2Proof Sys2Proof.Machine in
/-- Settles O35: the two writes by what their chapter says of the value, the events of a gate port by their clocks, a decision point by the
first candidate of the best colour, and a sample queue by queue, since the record of one queue leaves that of every other. Which units a
gate lets start (`State.gateAllows`) is log entry 114, the model's choice. -/
theorem shapersAndGates : Obligations.ShapersAndGates := by
  unfold Obligations.ShapersAndGates
  dsimp only
  refine ⟨⟨fun s t r q sub role hq hlow hhigh h => ⟨fun hok => ⟨t.setShaper q sub (leNat r.data), ?_⟩, fun hbad => ?_⟩,
      fun s t r g role hg h => ⟨fun hbad => ?_, fun hbase hdur hopen => ?_⟩,
      fun s g hg hup => ⟨exec_gateListSwitch_none hg hup, fun base l => exec_gateListSwitch_early hg hup,
        exec_gateEntryExpiry_early hg hup, fun base l harmed hdue => ?_, exec_gateEntryExpiry_due hg hup⟩⟩,
    fun s res c n since rest T hlow hhigh hc hup hhead hmay hT hred hfirst hgreen => ?_,
    fun s res hlow hhigh hup hred => ?_,
    fun s hup => ⟨fun hoff => ?_, fun hat => ⟨_, (exec_queueSample hup).trans (if_pos hat), fun q hq => ?_⟩⟩⟩
  · obtain ⟨hkept, hfollows⟩ := storeShaper_stored hlow hhigh t q (leNat r.data)
    refine ⟨(exec_shaperParamWrite hq hlow hhigh h).trans ((acceptIf_answered _ _ _ r).1 hok), ?_, fun hbound hsub => ?_, ?_, ?_,
      fun k hk => by rw [setShaper_queue, if_neg hk]⟩
    · rw [keyOf_shaper hq hhigh]
      exact hkept
    · rw [keyOf_shaper hq (by omega)]
      exact hfollows hbound hsub
    · rw [setShaper_queue, if_pos rfl]
    · rw [setShaper_queue, if_pos rfl]
  · exact (exec_shaperParamWrite hq hlow hhigh h).trans ((acceptIf_answered _ _ _ r).2 hbad)
  · exact (exec_configChange hg h).trans ((acceptIf_answered _ _ _ r).2 (changeAccepted_false hbad))
  · exact (exec_configChange hg h).trans ((acceptIf_answered _ _ _ r).1 ((changeAccepted_iff t g).mpr ⟨hdur, hopen, hbase⟩))
  · obtain ⟨straddle, hnext⟩ := exec_gateListSwitch_due hg hup harmed hdue
    refine ⟨_, hnext, ?_⟩
    simp +contextual [State.gate_updGate]
  · have hcand : (c, n) ∈ s.internalCands res := (mem_internalCands ..).mpr ⟨hc, ⟨since, rest, hhead⟩, hmay⟩
    have hpick : s.shaperPick res (s.internalCands res) = some (c, n, T) := by
      refine shaperPick_first (internalCands_sorted s res) hcand hT hred (fun y hy hlt => ?_) fun hyellow y hy => ?_
      · obtain ⟨_, hheads, hgate⟩ := (mem_internalCands ..).mp hy
        exact hfirst y.1 y.2 hlt hheads hgate
      · obtain ⟨hclass, hheads, hgate⟩ := (mem_internalCands ..).mp hy
        exact hgreen hyellow y.1 y.2 hclass hheads hgate
    have hqueue := queue_decide_picked hpick hhead
    refine ⟨_, exec_crossbarDecisionPoint hlow hhigh hup, fun h20 => h20 ▸ exec_frameTransmitDone_gate8 hup, ?_, ?_, fun hshaped => ?_,
      fun k hk => by rw [hqueue, if_neg hk]⟩
    · rw [hqueue, if_pos rfl]
      rfl
    · rw [hqueue, if_pos rfl]
      rfl
    · rw [hqueue, if_pos rfl]
      exact paid_tokens hshaped hred n
  · have hnone : s.decide_ res = s := decide_eq_self (shaperPick_red fun y hy => by
      obtain ⟨hclass, ⟨x, rest, hhead⟩, hgate⟩ := (mem_internalCands ..).mp hy
      exact hred y.1 y.2 x rest hclass hhead hgate)
    have hpoint := exec_crossbarDecisionPoint hlow hhigh hup
    rw [hnone] at hpoint
    refine ⟨hpoint, fun h20 => ?_⟩
    subst h20
    rw [exec_frameTransmitDone_gate8 hup, hnone]
  · rw [exec_queueSample hup, if_neg hoff]
  · obtain ⟨hdepth, hdelay, hdepthPeak, hdelayPeak, hrestarted⟩ :=
      foldl_sampleQueue_sampled List.nodup_range (List.mem_range.mpr hq) s
    exact ⟨hdepth, hdelay, hdepthPeak, hdelayPeak, hrestarted⟩
end

section
/-! A device that is held in reset or halted (R475, R484, R492, R511, R519, R522): what its enclave, its host die and its pins can do,
and what every other row leaves as it is. -/

namespace Sys2Proof.Machine

open Sys2Proof

/-! ## What a device that is not up keeps (R484, R519, R522) -/

/-- R519, R522: where the device stands between its resets, its halts and its flushes, and the commands that wait. -/
def State.standing (s : State) : SysSt × List Instr := (s.sys, s.pending)

theorem acceptRequest_standing {s s1 : State} {src : OdSource} {seq : Nat} (h : s.acceptRequest src seq = some s1) :
    s1.standing = s.standing := by
  rw [acceptRequest_eq h]
  rfl

theorem answer_standing (s : State) (src : OdSource) (op seq result status : Nat) (rest : Bytes) :
    (s.answer src op seq result status rest).standing = s.standing := by
  obtain ⟨l, hl⟩ := answer_eq s src op seq result status rest
  rw [hl]
  rfl

theorem odRead_standing (s : State) (key : Nat) : (s.odRead key).standing = s.standing := by
  unfold State.odRead
  dsimp only
  repeat' split
  all_goals rfl

/-- R492, R522: while the device is halted, a request ends at the gate or reaches the enclave. -/
theorem gate_standing {s : State} (hhalted : s.sys.halted = true) (src : OdSource) (seq op target : Nat) {enclave : Bool}
    (body : Bytes) {f : Role → State → State} (hf : enclave = true → ∀ r u, (f r u).standing = u.standing) :
    (s.gate_ src seq op target enclave body f).standing = s.standing := by
  have hrm : s.rm0Serves = false := by simp [State.rm0Serves, hhalted]
  unfold State.gate_
  split
  · rfl
  split
  · rfl
  case h_2 s1 haccept =>
    have hs1 := acceptRequest_standing haccept
    dsimp only
    rw [hrm]
    split
    · split
      · rw [answer_standing, hs1]
      · rfl
    case isFalse hhere =>
      obtain ⟨haway, henclave⟩ : s.goesAway src target = false ∧ enclave = true := by simpa using hhere
      subst henclave
      split
      · rw [answer_standing, hs1]
      · rw [haway]
        simp only [Bool.false_eq_true, if_false]
        split
        · rw [answer_standing, hs1]
        · cases src <;> exact (hf rfl _ _).trans hs1

theorem serveRead_standing (s : State) (src : OdSource) (seq key off n : Nat) (role : Role) :
    (s.serveRead src seq key off n role).standing = s.standing := by
  unfold State.serveRead
  dsimp only
  split
  · split
    · exact answer_standing _ _ _ _ _ _ _
    · exact answer_standing _ _ _ _ _ _ _
  · split
    · exact answer_standing _ _ _ _ _ _ _
    · exact (answer_standing _ _ _ _ _ _ _).trans (odRead_standing s key)

theorem serveDescribe_standing (s : State) (src : OdSource) (seq key : Nat) (role : Role) :
    (s.serveDescribe src seq key role).standing = s.standing := by
  unfold State.serveDescribe
  split
  · exact answer_standing _ _ _ _ _ _ _
  · split
    · exact answer_standing _ _ _ _ _ _ _
    · split
      · exact answer_standing _ _ _ _ _ _ _
      · exact answer_standing _ _ _ _ _ _ _

/-! ## Writes to the enclave (R446, R459, R461, R492) -/

theorem foldl_standing {α : Type} {g : State → α → State} (h : ∀ u x, (g u x).standing = u.standing) (l : List α) (s : State) :
    (l.foldl g s).standing = s.standing :=
  List.foldlRecOn (motive := fun u : State => u.standing = s.standing) l g rfl fun u hu x _ => (h u x).trans hu

theorem endJobs_standing (s : State) (p : Job → Bool) : (s.endJobs p).standing = s.standing :=
  (congrArg State.standing (endJobs_work s p) :)

theorem dropBackfill_standing (s : State) (n : Nat) : (s.dropBackfill n).standing = s.standing := by
  unfold State.dropBackfill
  dsimp only
  split <;> rfl

theorem parkStream_standing (s : State) (n : Nat) : (s.parkStream n).standing = s.standing := by
  have hstream : ∀ (u : State) (f : Stream → Stream), (u.updStream n f).standing = u.standing := fun _ _ => rfl
  unfold State.parkStream State.updRun State.updDlv
  dsimp only
  rw [hstream, hstream, dropBackfill_standing, endJobs_standing]
  rfl

theorem holdStream_standing (s : State) (n status : Nat) : (s.holdStream n status).standing = s.standing :=
  parkStream_standing s n

/-- R458, R459: streams are held and keys go; the device stands where it stood. -/
theorem destroyKeys_standing (s : State) (models snaps : Nat → Bool) : (s.destroyKeys models snaps).standing = s.standing :=
  foldl_standing (g := fun (s : State) n => s.holdStream n stModelNotReleased) (fun u n => holdStream_standing u n _) _ s

theorem burnState_standing (s : State) (v : Nat) : (s.burnState v).standing = s.standing :=
  destroyKeys_standing s (fun _ => true) fun _ => true

theorem keyReleaseCmd_standing {s u : State} {b : Bytes} (h : s.keyReleaseCmd b = .ok u) : u.standing = s.standing := by
  unfold State.keyReleaseCmd at h
  dsimp only at h
  split at h
  · cases h
  · split at h <;> cases h
    · rfl
    · rfl
    · exact destroyKeys_standing s _ _

theorem lcCmd_standing {s u : State} {factory : Bool} {v : Nat} (h : s.lcCmd factory v = .ok u) : u.standing = s.standing := by
  unfold State.lcCmd at h
  dsimp only at h
  split at h
  · cases h
  · generalize hs1 : (if v = 4 then { s with sec := { s.sec with nonceNo := s.sec.nonceNo + 1 } } else s) = s1 at h
    have hkept : s1.standing = s.standing := by
      rw [← hs1]
      split <;> rfl
    split at h <;> cases h
    · exact hkept
    · exact (burnState_standing s1 v).trans hkept

theorem scrubCmd_standing {s u : State} {v : Nat} (h : s.scrubCmd v = .ok u) : u.standing = s.standing := by
  unfold State.scrubCmd at h
  repeat' split at h
  all_goals cases h
  all_goals rfl

theorem evidenceCmd_standing {s u : State} {b : Bytes} (h : s.evidenceCmd b = .ok u) : u.standing = s.standing := by
  unfold State.evidenceCmd at h
  split at h <;> cases h
  rfl

theorem ofExcept_standing {s : State} {e : Except Nat State} (h : ∀ u, e = .ok u → u.standing = s.standing) :
    (ofExcept s e).2.2.standing = s.standing ∧ (ofExcept0 s e).2.2.standing = s.standing := by
  cases e with
  | ok u => exact ⟨h u rfl, h u rfl⟩
  | error st => exact ⟨rfl, rfl⟩

theorem acceptIf_standing {s u : State} (ok : Bool) (h : u.standing = s.standing) : (acceptIf ok s u).2.2.standing = s.standing := by
  cases ok
  · rfl
  · exact h

theorem setTenantId_standing (s : State) (t v : Nat) : (s.setTenantId t v).standing = s.standing := by
  unfold State.setTenantId
  dsimp only
  split <;> rfl

/-- R445 to R461, R467, R502: a write of an object of the enclave's area leaves the device where it stands. -/
theorem applySecurity_standing (s : State) (role : Role) (i u key v : Nat) (data : Bytes) :
    (s.applySecurity role i u key v data).2.2.standing = s.standing := by
  unfold State.applySecurity
  split
  · split
    · rfl
    · exact (ofExcept_standing fun _ => lcCmd_standing).2
  split
  · rfl
  split
  · cases h : s.scrubCmd v with
    | ok u => exact scrubCmd_standing h
    | error st => rfl
  split
  · exact (ofExcept_standing fun _ => evidenceCmd_standing).1
  split
  · exact (ofExcept_standing fun _ => keyReleaseCmd_standing).1
  split
  · exact acceptIf_standing _ rfl
  split
  · unfold State.applyCred
    dsimp only
    split <;> rfl
  split
  · split
    · exact acceptIf_standing _ (setTenantId_standing s _ _)
    · exact acceptIf_standing _ rfl
    · rfl
  · rfl

/-- R492: the indices of the enclave's objects. -/
theorem enclaveServes_iff {key : Nat} :
    enclaveServes key = true ↔ (0x1000 ≤ key / 256 ∧ key / 256 < 0x1200) ∨ (0x6000 ≤ key / 256 ∧ key / 256 < 0x6200) := by
  simp [enclaveServes]

/-- R492, R506: a setting of the management port is stored, at once or later. -/
theorem applyDevice_standing {key : Nat} (hkey : key / 256 < 0x1140) (s : State) (src : OdSource) (v : Nat) :
    (s.applyDevice src key v).2.2.standing = s.standing := by
  have hne : ∀ k, 0x1140 ≤ k / 256 → key ≠ k := fun k hk he => by subst he; omega
  have hring : ¬ (key = oTelemRingBase || key = oTelemRingLen) = true := by
    rw [Bool.or_eq_true, decide_eq_true_eq, decide_eq_true_eq, not_or]
    exact ⟨hne oTelemRingBase (by decide), hne oTelemRingLen (by decide)⟩
  unfold State.applyDevice
  by_cases hlater : appliesLater key = true
  · rw [if_pos hlater]
    rfl
  · rw [if_neg hlater, if_neg (hne oTelemDest (by decide)), if_neg hring, if_neg (hne oBistRun (by decide)),
      if_neg (hne oScanRun (by decide)), if_neg (hne oWarmReset (by decide))]
    rfl

/-- R492: a write of an object of the enclave leaves the device where it stands. -/
theorem applyObject_standing {key : Nat} (henclave : enclaveServes key = true) (s : State) (src : OdSource) (role : Role) (v : Nat)
    (data : Bytes) : (s.applyObject src role key v data).2.2.standing = s.standing := by
  have hkey := enclaveServes_iff.mp henclave
  have hoff : s.objectOff (key / 256) = false := by
    unfold State.objectOff
    rw [if_neg (by simp; omega), if_neg (by simp; omega)]
  rw [State.applyObject, if_neg (ne_true_of_eq_false hoff)]
  by_cases hportal : key / 256 < 0x1140
  · rw [if_pos hportal, State.applyPortal]
    by_cases hcred : key = oFactoryCred
    · rw [if_pos hcred]
      exact applySecurity_standing _ _ _ _ _ _ _
    · rw [if_neg hcred]
      exact applyDevice_standing hportal s src v
  rw [if_neg hportal]
  by_cases hfirst : key / 256 < 0x1400
  · rw [if_pos hfirst]
    exact applySecurity_standing _ _ _ _ _ _ _
  rw [if_neg hfirst]
  have hidx : ¬ key / 256 < 0x2000 := by omega
  have hroot : key ≠ oGtcRoot := fun he => by
    rw [he] at hkey
    revert hkey
    decide
  rw [if_neg hidx, if_neg (by simp; omega), if_neg (by simp; omega), if_neg (by simp; omega), if_neg hroot, if_neg (by omega),
    if_neg (by omega), if_neg (by simp; omega), if_neg (by simp; omega), if_neg (by omega), if_neg (by simp; omega),
    if_neg (by omega), if_pos (by omega)]
  exact applySecurity_standing _ _ _ _ _ _ _

theorem writeObject_standing {key : Nat} (henclave : enclaveServes key = true) (s : State) (src : OdSource) (role : Role)
    (data : Bytes) : (s.writeObject src role key data).2.2.standing = s.standing := by
  have happlied := applyObject_standing henclave s src role (normalValue key (leNat data)) data
  by_cases hcheck : s.writeCheck role key data = rOk
  · rw [writeObject_passed hcheck]
    dsimp only
    split <;> exact happlied
  · rw [writeObject_refused hcheck]

theorem serveWrite_standing {key : Nat} (henclave : enclaveServes key = true) (s : State) (src : OdSource) (seq : Nat) (last : Bool)
    (off total : Nat) (data : Bytes) (role : Role) :
    (s.serveWrite src seq key last off total data role).standing = s.standing := by
  unfold State.serveWrite
  split
  · exact answer_standing _ _ _ _ _ _ _
  split
  · exact answer_standing _ _ _ _ _ _ _
  split
  · exact answer_standing _ _ _ _ _ _ _
  dsimp only
  split
  · exact answer_standing _ _ _ _ _ _ _
  · exact (answer_standing _ _ _ _ _ _ _).trans (writeObject_standing henclave (s.setAsm src none) src role _)

theorem writeAll_standing {src : OdSource} {role : Role} {es : List (Nat × Nat × Bytes)}
    (henclave : ∀ e ∈ es, enclaveServes (keyOf e.1 e.2.1) = true) {s u : State} (h : State.writeAll src role es s = .ok u) :
    u.standing = s.standing := by
  induction es generalizing s with
  | nil => cases h; rfl
  | cons e es ih =>
    obtain ⟨idx, sub, data⟩ := e
    unfold State.writeAll at h
    dsimp only at h
    split at h
    · rw [ih (fun e he => henclave e (List.mem_cons_of_mem _ he)) h]
      exact writeObject_standing (henclave _ List.mem_cons_self) s src role data
    · cases h

theorem serveMany_standing {es : List (Nat × Nat × Bytes)} (henclave : ∀ e ∈ es, enclaveServes (keyOf e.1 e.2.1) = true) (s : State)
    (src : OdSource) (seq : Nat) (role : Role) : (s.serveMany src seq es role).standing = s.standing := by
  unfold State.serveMany
  split
  · exact answer_standing _ _ _ _ _ _ _
  dsimp only
  split
  · exact answer_standing _ _ _ _ _ _ _
  split
  · exact (answer_standing _ _ _ _ _ _ _).trans (writeAll_standing henclave ‹_›)
  · exact answer_standing _ _ _ _ _ _ _

/-! ## Requests of a halted device (R492, R522) -/

section Halted

variable {s : State} (hhalted : s.sys.halted = true)
include hhalted

theorem readRequest_standing (src : OdSource) (seq target idx sub off n : Nat) :
    (s.readRequest src seq target idx sub off n).standing = s.standing :=
  gate_standing hhalted _ _ _ _ _ fun _ r u => serveRead_standing u src seq _ off n r

theorem writeReq_standing (src : OdSource) (seq target idx sub : Nat) (last : Bool) (off total : Nat) (data : Bytes) :
    (s.writeReq src seq target idx sub last off total data).standing = s.standing :=
  gate_standing hhalted _ _ _ _ _ fun henclave r u => serveWrite_standing henclave u src seq last off total data r

theorem manyRequest_standing (src : OdSource) (seq target : Nat) (es : List (Nat × Nat × Bytes)) :
    (s.manyRequest src seq target es).standing = s.standing :=
  gate_standing hhalted _ _ _ _ _ fun henclave r u => serveMany_standing (List.all_eq_true.mp henclave) u src seq r

theorem describeRequest_standing (src : OdSource) (seq target idx sub : Nat) :
    (s.describeRequest src seq target idx sub).standing = s.standing :=
  gate_standing hhalted _ _ _ _ _ fun _ r u => serveDescribe_standing u src seq _ r

theorem malformed_standing (src : OdSource) (seq op : Nat) : (s.malformed src seq op).standing = s.standing :=
  gate_standing hhalted _ _ _ _ _ fun _ _ u => answer_standing u _ _ _ _ _ _

theorem closeRequest_standing (id seq : Nat) : (s.closeRequest id seq).standing = s.standing := by
  refine gate_standing hhalted _ _ _ _ _ fun _ _ u => Eq.trans ?_ (answer_standing u (.session id) 0x02 seq rOk 0 [])
  unfold State.closeSession
  dsimp only
  split <;> rfl

theorem dispatchFrame_standing (src : OdSource) (f : Bytes) : (s.dispatchFrame src f).standing = s.standing := by
  unfold State.dispatchFrame
  dsimp only
  split
  · exact readRequest_standing hhalted _ _ _ _ _ _ _
  split
  · exact writeReq_standing hhalted _ _ _ _ _ _ _ _ _
  split
  · split
    · exact manyRequest_standing hhalted _ _ _ _
    · exact malformed_standing hhalted _ _ _
  split
  · exact describeRequest_standing hhalted _ _ _ _ _
  split
  · split
    · exact closeRequest_standing hhalted _ _
    · exact malformed_standing hhalted _ _ _
  · exact malformed_standing hhalted _ _ _

end Halted


/-! ## The guards of a device that is not up (R519, R522) -/

/-- A next state that a command answers leaves the device where it stands. -/
def Stands (s : State) (r : Res) : Prop := ∀ t, r = .next t → t.standing = s.standing

theorem stands_next {s u : State} (h : u.standing = s.standing) : Stands s (.next u) := fun t ht => by cases ht; exact h

theorem stands_ite {s : State} {p : Prop} [Decidable p] {a b : Res} (ha : Stands s a) (hb : Stands s b) :
    Stands s (if p then a else b) := by
  split
  · exact ha
  · exact hb

/-- A next state that a command answers leaves the device where it stands, and in reset it leaves the whole state. -/
def Rests (s : State) (r : Res) : Prop := Stands s r ∧ (s.sys.inReset = true → ∀ t, r = .next t → t = s)

theorem rests_self (s : State) : Rests s (.next s) := ⟨stands_next rfl, fun _ t ht => by cases ht; rfl⟩

theorem rests_fault (s : State) (e : Fault) : Rests s (.fault e) := ⟨fun _ h => (nomatch h), fun _ _ h => (nomatch h)⟩

theorem rests_ite {s : State} {p : Prop} [Decidable p] {a b : Res} (ha : Rests s a) (hb : Rests s b) :
    Rests s (if p then a else b) := by
  split
  · exact ha
  · exact hb

theorem rests_running {s : State} {r : Res} (hrun : s.sys.inReset = false) (h : Stands s r) : Rests s r :=
  ⟨h, fun hreset => absurd hreset (ne_true_of_eq_false hrun)⟩

theorem unlessReset_rests {s : State} {r : Res} (h : Stands s r) : Rests s (if s.sys.inReset then .next s else r) := by
  split
  · exact rests_self s
  case isFalse hrun => exact rests_running (eq_false_of_ne_true hrun) h

/-- R522: the enclave of a device that is not up serves in a halt alone. -/
theorem whenEnclave_rests {s : State} {f : State → Res} (hup : s.up = false) (h : s.sys.halted = true → Stands s (f s)) :
    Rests s (whenEnclave s f) := by
  unfold whenEnclave
  split
  case isTrue henclave =>
    obtain ⟨⟨⟨hhalted, _⟩, hrun⟩, _⟩ :
        ((s.sys.halted = true ∧ s.sys.faultCode ≠ 0) ∧ s.sys.inReset = false) ∧ s.sys.scan = false := by
      simpa [State.enclaveUp, hup] using henclave
    exact rests_running hrun (h hhalted)
  · exact rests_self s

theorem withLink_rests {s : State} {f : State → State} (h : (f s).standing = s.standing) : Rests s (withLink s f) := by
  unfold withLink
  split
  · exact rests_self s
  case isFalse hlink =>
    exact rests_running (by simp at hlink; exact hlink.1.1) (stands_next h)

section Down

variable {s : State} (hup : s.up = false)
include hup

theorem whenUp_rests (f : State → Res) : Rests s (whenUp s f) := by
  rw [whenUp_down f hup]
  exact rests_self s

theorem whenRm_rests (p : Nat) (f : State → Res) : Rests s (whenRm p s f) := whenUp_rests hup _

theorem withFlash_rests (f : State → Res) : Rests s (withFlash s f) := whenUp_rests hup _

theorem whenServed_rests (qp : Nat) (f : State → Res) : Rests s (whenServed qp s f) := whenUp_rests hup _

theorem withStream_rests (n : Nat) (f : State → Res) : Rests s (withStream n s f) :=
  rests_ite (whenUp_rests hup f) (rests_fault s _)

theorem withCore_rests (core : Nat) (f : State → Res) : Rests s (withCore core s f) :=
  rests_ite (rests_ite (rests_self s) (whenUp_rests hup f)) (rests_fault s _)

theorem withPort_rests (k : Nat) (f : State → Res) : Rests s (withPort k s f) := rests_ite (whenUp_rests hup f) (rests_fault s _)

theorem withGate_rests (g : Nat) (f : State → Res) : Rests s (withGate g s f) := rests_ite (whenUp_rests hup f) (rests_fault s _)

theorem withRm_rests (p : Nat) (f : State → Res) : Rests s (withRm p s f) := rests_ite (whenUp_rests hup f) (rests_fault s _)

theorem withChan_rests (c : Nat) (f : State → Res) : Rests s (withChan c s f) := rests_ite (whenUp_rests hup f) (rests_fault s _)

theorem withUnit_rests (u : Nat) (f : State → Res) : Rests s (withUnit u s f) := rests_ite (whenUp_rests hup f) (rests_fault s _)

theorem withDomain_rests (d : Nat) (f : State → Res) : Rests s (withDomain d s f) := rests_ite (whenUp_rests hup f) (rests_fault s _)

theorem nvmeRun_rests (admin : Bool) (c : NvmeCmd) (f : State → State) : Rests s (nvmeRun admin c s f) := whenUp_rests hup _

theorem nvmeIo_rests (c : NvmeCmd) (waits : Namespace → State → Bool) (f : Namespace → State → State) :
    Rests s (nvmeIo c s waits f) := by
  unfold nvmeIo
  split
  · exact nvmeRun_rests hup _ _ _
  · exact rests_ite (nvmeRun_rests hup _ _ _) (rests_ite (whenUp_rests hup _) (rests_ite (rests_self s) (nvmeRun_rests hup _ _ _)))

theorem odRow_rests (key : Nat) (own : Nat → Bool) (r : OdReq) : Rests s (odRow key own r s) :=
  whenEnclave_rests hup fun hhalted =>
    stands_ite (stands_next rfl) (stands_next (writeReq_standing hhalted _ _ _ _ _ _ _ _ _))

theorem streamRow_rests (n key : Nat) (own : Nat → Bool) (r : OdReq) : Rests s (streamRow n key own r s) := odRow_rests hup _ _ _

theorem runRow_rests (core : Nat) (op : Nat × Nat) (f : Core → Nat → KOut) : Rests s (runRow core op f s) := withCore_rests hup _ _

end Down

/-! ## Rows of the enclave and of the host die (R309, R499 to R502, R517) -/

theorem openRequest_standing (s : State) (seq role slot : Nat) (nonce : Bytes) :
    (s.openRequest seq role slot nonce).standing = s.standing := by
  unfold State.openRequest
  repeat' split
  all_goals rfl

theorem closeSession_standing (s : State) (id : Nat) : (s.closeSession id).standing = s.standing := by
  unfold State.closeSession
  dsimp only
  split <;> rfl

/-- R499 to R501: a datagram that reaches a halted device is served by its enclave or dropped. -/
theorem mgmtDatagramReceive_rests {s : State} (hup : s.up = false) (data : Bytes) : Rests s (execMgmtDatagramReceive data s) := by
  refine whenEnclave_rests hup fun hhalted => ?_
  have hframe := dispatchFrame_standing hhalted (.session (fieldAt data 8 4)) (data.take (data.length - 16))
  dsimp only
  refine stands_ite (stands_next rfl) (stands_ite (stands_ite (stands_next (openRequest_standing _ _ _ _ _)) (stands_next rfl))
    (stands_ite (stands_next rfl) ?_))
  split
  · exact stands_next rfl
  · refine stands_ite (stands_next rfl) (stands_ite (stands_next rfl) ?_)
    split
    · exact stands_next hframe
    · exact stands_ite (stands_next hframe) (stands_next hframe)

theorem spdmVendorRequest_rests (s : State) (data : Bytes) : Rests s (execSpdmVendorRequest data s) := by
  refine withLink_rests ?_
  split
  · rfl
  · split
    · exact (evidenceCmd_standing ‹_› :)
    · rfl

/-! ## Every row -/

/-- The rows of the reset pins, of the flush and of the end of a scan. -/
def isPinRow : Instr → Bool
  | .rstNAssert | .rstNRelease _ | .perstNAssert | .perstNRelease | .pwrFailRelease | .flushStepDone | .scanDone => true
  | _ => false

/-- R484, R519, R522: no row but those of the reset pins, of the flush and of the end of a scan moves a device that is not up, and
none changes anything in reset. Every such row stands under a guard that asks for a device that is up, for its enclave, or
for the link of a host die that is out of reset. -/
theorem exec_rests (c : Instr) {s : State} (hup : s.up = false) (hpin : isPinRow c = false) : Rests s (exec c s) := by
  cases c
  all_goals dsimp only [exec]
  case rstNAssert | rstNRelease | perstNAssert | perstNRelease | pwrFailRelease | flushStepDone | scanDone => cases hpin
  -- Writes of one object, kernel rows, NVMe commands and CXL commands.
  case unload | poolPlaceWrite | reclaim | shaperParamWrite | configChange | domainTargetWrite | rejoin | domainReset | simDeath |
      portDown | rmHang | caravanLoss | hookEnd | lcStateWrite | lcAuthWrite | evidenceReq | modelKeyRelease |
      snapshotKeyRelease | withdraw | scrubTenantScope | scrubDeviceScope | huTestNow | gtcRootWrite | warmReset | bistRun |
      scanRun =>
    apply odRow_rests hup
  case imageSlotWrite | splitModeWrite | clockExactWrite | streamStart | streamPause | streamResume | streamStop |
      pipelineReset | streamRelease | threshEpochWrite | partnerWrite | moveTo | snapControl =>
    apply streamRow_rests hup
  case add | mul | divs | sar | addi | j | beq | blt | jal | jr | ld64 | st64 | vadd | vmul | vdiv | vmin | vmax | vsqrt | vexp2 |
      vlog2 | vadds | vbcast | vfma | vfms | vcvt | vcvtz | vredsum | vredsumw | vld | vst | vgather | vscatter | vcmplt |
      pfirstn | tissue | twait | halt | draw | vdraw | srd =>
    apply runRow_rests hup
  case vredmax => exact rests_ite (runRow_rests hup _ _ _) (runRow_rests hup _ _ _)
  case nvmeIdentify | nvmeGetLogPage | nvmeGetFeatures | nvmeSetFeatures | nvmeCreateIoSq | nvmeCreateIoCq | nvmeDeleteIoSq |
      nvmeDeleteIoCq | nvmeAbort | asynchronousEventRequest | namespaceManagement | namespaceAttachment | formatNvm |
      firmwareImageDownload | nvmeFlush =>
    apply nvmeRun_rests hup
  case nvmeRead | nvmeWrite | datasetManagement | writeZeroes | ingest => apply nvmeIo_rests hup
  case spdmVendorRequest => apply spdmVendorRequest_rests
  case identifyMemoryDevice | getPartitionInfo | getHealthInfo | getSupportedLogs | getLog | getPoisonList =>
    exact withLink_rests rfl
  case getEventRecords =>
    refine withLink_rests ?_
    split <;> rfl
  case clearEventRecords =>
    refine withLink_rests ?_
    dsimp only
    split <;> rfl
  -- The enclave's rows.
  case odOpen => exact whenEnclave_rests hup fun _ => stands_next (openRequest_standing _ _ _ _ _)
  case odClose => exact whenEnclave_rests hup fun hhalted => stands_next (closeRequest_standing hhalted _ _)
  case odRead => exact whenEnclave_rests hup fun hhalted => stands_next (readRequest_standing hhalted _ _ _ _ _ _ _)
  case odWrite => exact whenEnclave_rests hup fun hhalted => stands_next (writeReq_standing hhalted _ _ _ _ _ _ _ _ _)
  case odWriteMany => exact whenEnclave_rests hup fun hhalted => stands_next (manyRequest_standing hhalted _ _ _ _)
  case odDescribe => exact whenEnclave_rests hup fun hhalted => stands_next (describeRequest_standing hhalted _ _ _ _ _)
  case mgmtDatagramReceive => exact mgmtDatagramReceive_rests hup _
  case sessionTimeout =>
    refine whenEnclave_rests hup fun _ => ?_
    split
    · exact stands_next rfl
    · exact stands_ite (stands_next (closeSession_standing s _)) (stands_next rfl)
  case segmentTimeout | settingsApply => exact whenEnclave_rests hup fun _ => stands_next rfl
  case t1sLinkChange => exact whenEnclave_rests hup fun _ => stands_ite (stands_next rfl) (stands_next rfl)
  -- The rows of a device that is up.
  case jobAdmit | stageComplete | scratchReserve | sampleMigrate | dedupBandReceive | exactRelease | dramScrubRead |
      oasisScrubRead | nvmeSqDoorbell | nvmeCqDoorbell | controllerEnable | ingestPieceTimeout | routeWaitExpiry |
      reassemblyTimeout | respReceive | busyBackoffExpiry | roceAckReceive | roceRetryTimeout | cnpReceive | cnpRateRestore |
      queueSample | heartbeatSend | heartbeatReceive | hookExpiry | inputUndervoltage | railFault | refclkLoss | refclkReturn |
      refclkLossExpiry | junctionSample | powerAverage | thermalTrip | huSample | huTempSample | huTestStart | pwrFailAssert |
      remoteOdRequest | gtcExchange | gtcHoldover | phaseMonitorMismatch | startupStepDone | ringAdmission | wrstNAssert |
      bistBankDone =>
    apply whenUp_rests hup
  case rdmaWriteReceive | rdmaReadRequest | roceSendReceive => apply whenServed_rests hup
  case declareFailed | failedMessageReceive | fenceMessageReceive | mirrorSnapshotReceive | rejoinedReceive |
      modelWeightsLoaded | scrubStepDone | telemetry | mirrorOpenReceive | mirrorCloseReceive | locationSetReceive |
      markReceive | portionListResendRequest | patrolRead | checkpointWrite | pipelineLoad | firmwareCommit | corpusCreate |
      corpusSeal | snapshotRead | snapshotRestore =>
    apply whenRm_rests hup
  case programComplete | eraseComplete | nandReadComplete | unitCopyCommit | flashTempSample | writeThroughDone =>
    apply withFlash_rests hup
  case pauseDrainDone | portionListReceive | epochBegin | batchOpen | settlePosition | launchWindow | slotDeliver |
      fabricDeliver | deliverWritten | dbRetire | dbRedeliver | dbBackfill | hostDeadlineExpiry | batchBuffersReturned |
      staleFenceRefusal | mirrorOpenAck | mirrorAckReceive | mirrorLag | markTimer | markAckReceive =>
    apply withStream_rests hup
  case tmuDescriptorDone | kernelStepLimit => apply withCore_rests hup
  case linkPcsLock | versionFrameReceive | dataFrameReceive | creditFrameReceive | nakFrameReceive | idleFrameReceive |
      replayTimeout | retrainTimeout | creditFrameTimer | qpContextFetchDone | timeFrameReceive | linkPcsLoss |
      policerHoldRecolour =>
    apply withPort_rests hup
  case gateListSwitch | gateEntryExpiry => apply withGate_rests hup
  case watchdogExpiry | ringmasterRestartDone => apply withRm_rests hup
  case mbxPost | mbxTake | mbxDeviceTake | mbxDevicePost => apply withChan_rests hup
  case droopTrip | droopRecover => apply withUnit_rests hup
  case domainWake | domainTransitionDone => apply withDomain_rests hup
  case domainOffAccess => exact rests_ite (rests_fault s _) (withDomain_rests hup _ _)
  case frameTransmitDone => exact rests_ite (whenUp_rests hup _) (withPort_rests hup _ _)
  case bufferAlloc => exact rests_ite (rests_fault s _) (rests_ite (rests_fault s _) (whenUp_rests hup _))
  case bufferRelease | codecBlockDone | caravanRailFault | bistGroupDone | registerWrite | cxlMemRead | cxlMemWrite =>
    exact rests_ite (rests_fault s _) (whenUp_rests hup _)
  case destage | gcVictimSelect => exact rests_ite (rests_fault s _) (withFlash_rests hup _)
  case takeoverDeferred => exact rests_ite (rests_fault s _) (whenRm_rests hup _ _)
  case crossbarDecisionPoint => exact rests_ite (whenUp_rests hup _) (rests_fault s _)
  -- The clock's two pins and a configuration request do nothing in reset.
  case phyRecalibrate => exact rests_self s
  case gtcSyncInEdge => exact unlessReset_rests (stands_next rfl)
  case gtcSyncOutPulse =>
    unfold execGtcSyncOutPulse
    dsimp only
    split
    · exact rests_self s
    case isFalse hpulse => exact rests_running (by simp at hpulse; exact hpulse.1.1) (stands_next rfl)
  case configRequest =>
    unfold execConfigRequest
    split
    · exact rests_self s
    case isFalse hperst =>
      refine rests_running (by simp at hperst; exact hperst.1) (stands_ite (stands_next rfl) ?_)
      dsimp only
      split <;> exact stands_next rfl


/-! ## The rows of the pins in reset and in a halt (R484, R519, R522) -/

/-- R519: held in reset, the device changes at most its pins and its host die. -/
structure HeldSame (s t : State) : Prop where
  pending : t.pending = s.pending
  inReset : t.sys.inReset = s.sys.inReset
  scan : t.sys.scan = s.sys.scan
  out : t.out = s.out
  clk : t.clk = s.clk
  streams : t.streams = s.streams
  flash : t.flash = s.flash
  sec : t.sec = s.sec
  cores : t.cores = s.cores

theorem HeldSame.refl (s : State) : HeldSame s s := ⟨rfl, rfl, rfl, rfl, rfl, rfl, rfl, rfl, rfl⟩

/-- R511, R519: in reset every row but a release of RST_N leaves the device as it is. -/
theorem exec_heldSame {s t : State} {c : Instr} (hreset : s.sys.inReset = true) (hscan : s.sys.scan = false)
    (hrelease : ∀ v, c ≠ .rstNRelease v) (h : exec c s = .next t) : HeldSame s t := by
  have hup : s.up = false := by simp [State.up, hreset]
  by_cases hpin : isPinRow c = false
  · rw [(exec_rests c hup hpin).2 hreset t h]
    exact HeldSame.refl s
  · cases c
    case rstNRelease v => exact absurd rfl (hrelease v)
    case rstNAssert =>
      rw [exec_rstNAssert_waits (.inl hreset)] at h
      cases h
      exact ⟨rfl, rfl, rfl, rfl, rfl, rfl, rfl, rfl, rfl⟩
    case perstNAssert =>
      rw [exec_perstNAssert_held hreset] at h
      cases h
      exact ⟨rfl, rfl, rfl, rfl, rfl, rfl, rfl, rfl, rfl⟩
    case perstNRelease =>
      cases hperst : s.host.perst
      · rw [exec_perstNRelease_idle hperst] at h
        cases h
        exact HeldSame.refl s
      · rw [exec_perstNRelease hperst, loadHost_eq] at h
        cases h
        exact ⟨rfl, rfl, rfl, rfl, rfl, rfl, rfl, rfl, rfl⟩
    case pwrFailRelease =>
      cases h
      exact ⟨rfl, rfl, rfl, rfl, rfl, rfl, rfl, rfl, rfl⟩
    case flushStepDone =>
      obtain rfl : s = t := Host.Outcome.next.inj ((if_pos hreset).symm.trans h)
      exact HeldSame.refl s
    case scanDone =>
      obtain rfl : s = t := Host.Outcome.next.inj ((if_neg (ne_true_of_eq_false hscan)).symm.trans h)
      exact HeldSame.refl s
    all_goals exact absurd rfl hpin

/-- R475, R484, R522: where two states stand in the same halt. -/
structure SysSt.SameHalt (x y : SysSt) : Prop where
  halted : y.halted = x.halted
  inReset : y.inReset = x.inReset
  scan : y.scan = x.scan
  flush : y.flush = x.flush
  ledFault : y.ledFault = x.ledFault
  faultCode : y.faultCode = x.faultCode

theorem SysSt.SameHalt.refl (x : SysSt) : x.SameHalt x := ⟨rfl, rfl, rfl, rfl, rfl, rfl⟩

/-- R522: in a halt with no flush every row but an assertion of RST_N leaves the device in the same halt. -/
theorem exec_sameHalt {s t : State} {c : Instr} (hhalted : s.sys.halted = true) (hrun : s.sys.inReset = false)
    (hscan : s.sys.scan = false) (hflush : s.sys.flush = none) (hassert : c ≠ .rstNAssert) (h : exec c s = .next t) :
    s.sys.SameHalt t.sys ∧ t.pending = s.pending := by
  have hsame : t.standing = s.standing → s.sys.SameHalt t.sys ∧ t.pending = s.pending := fun hstand => by
    obtain ⟨hsys, hpending⟩ := Prod.mk.inj hstand
    rw [hsys]
    exact ⟨SysSt.SameHalt.refl _, hpending⟩
  by_cases hpin : isPinRow c = false
  · exact hsame ((exec_rests c (by simp [State.up, hhalted]) hpin).1 t h)
  · cases c
    case rstNAssert => exact absurd rfl hassert
    case rstNRelease v =>
      rw [exec_rstNRelease_eq] at h
      split at h
      · cases h
        exact hsame rfl
      · rw [if_neg (ne_true_of_eq_false hrun)] at h
        cases h
        exact ⟨⟨rfl, rfl, rfl, rfl, rfl, rfl⟩, rfl⟩
    case perstNAssert =>
      rw [exec_perstNAssert hrun, forgetCommands_eq] at h
      cases h
      exact hsame rfl
    case perstNRelease =>
      cases hperst : s.host.perst
      · rw [exec_perstNRelease_idle hperst] at h
        cases h
        exact hsame rfl
      · rw [exec_perstNRelease hperst, loadHost_eq] at h
        cases h
        exact hsame rfl
    case pwrFailRelease =>
      cases h
      exact ⟨⟨rfl, rfl, rfl, by rw [hflush]; rfl, rfl, rfl⟩, rfl⟩
    case flushStepDone =>
      have hrow : exec .flushStepDone s = .next s := by
        simp only [exec, execFlushStepDone, hrun, hflush, Bool.false_eq_true, if_false]
      rw [hrow] at h
      cases h
      exact hsame rfl
    case scanDone =>
      obtain rfl : s = t := Host.Outcome.next.inj ((if_neg (ne_true_of_eq_false hscan)).symm.trans h)
      exact hsame rfl
    all_goals exact absurd rfl hpin

/-! ## A READ in a halt that has a fault code (R492, R522) -/

section Read

variable {s s1 : State} {id seq idx sub : Nat} {role : Role} (hlc : s.sec.lc ≠ 5)
  (haccept : s.acceptRequest (.session id) seq = some s1)
include hlc haccept

/-- R522: Ringmaster 0 does not serve in a halt. -/
theorem readRequest_busy (hhalted : s.sys.halted = true) (hserver : enclaveServes (keyOf idx sub) = false) (off n : Nat) :
    s.readRequest (.session id) seq 0xFFFF idx sub off n = s1.answer (.session id) 0x10 seq rBusy 0 [] := by
  have hrm : s.rm0Serves = false := by simp [State.rm0Serves, hhalted]
  unfold State.readRequest State.gate_
  dsimp only
  rw [if_neg hlc, haccept, hserver, hrm]
  rfl

theorem readRequest_enclave (hrole : s1.roleOf (.session id) = some role) (hscrub : s1.roleScrubbed role = false)
    (hserver : enclaveServes (keyOf idx sub) = true) (off n : Nat) :
    s.readRequest (.session id) seq 0xFFFF idx sub off n = s1.serveRead (.session id) seq (keyOf idx sub) off n role := by
  have haway : s.goesAway (.session id) 0xFFFF = false := by simp [State.goesAway]
  unfold State.readRequest State.gate_
  dsimp only
  rw [if_neg hlc, haccept, hserver, haway]
  simp only [hrole, hscrub]
  rfl

end Read

end Sys2Proof.Machine

open Sys2Proof Sys2Proof.Machine in
/-- Settles O58: every row of a device that is not up stands under a guard, or is a pin's or the flush's row that leaves a halt with
no flush as it is; the enclave alone serves in a halt that has a code (log entries 6 and 7). -/
theorem haltedUntilReset : Obligations.HaltedUntilReset := by
  unfold Obligations.HaltedUntilReset
  refine ⟨fun s t hhalted hrun hscan hflush hassert h => ?step, fun s s1 id seq idx sub n role hhalted hrun hscan hcode hlc haccept
    hrole hscrub => ⟨fun hserver hread => ?value, fun hserver => ?busy⟩⟩
  case step =>
    suffices hsame : s.sys.SameHalt t.sys ∧ Instr.rstNAssert ∉ t.pending by
      obtain ⟨⟨hhalted', hrun', hscan', hflush', hled, hcode⟩, hassert'⟩ := hsame
      rw [hhalted] at hhalted'
      exact ⟨hhalted', hrun'.trans hrun, hscan'.trans hscan, hflush'.trans hflush, hassert', hled, hcode,
        by simp [State.up, hhalted']⟩
    cases hpending : s.pending with
    | nil =>
      rw [step_nil hpending, tick_running hrun] at h
      cases h
      exact ⟨SysSt.SameHalt.refl _, hassert⟩
    | cons c rest =>
      rw [step_cons hpending] at h
      rw [hpending, List.mem_cons, not_or] at hassert
      obtain ⟨hsame, hrest⟩ := exec_sameHalt (s := { s with pending := rest }) hhalted hrun hscan hflush (Ne.symm hassert.1) h
      exact ⟨hsame, by rw [hrest]; exact hassert.2⟩
  case value =>
    have henclave : s.enclaveUp = true := by simp [State.enclaveUp, hhalted, hcode, hrun, hscan]
    rw [exec_odRead_served henclave, readRequest_enclave hlc haccept hrole hscrub hserver]
    obtain ⟨l, hl⟩ := serveRead_first_spec hread (.session id) seq n
    exact ⟨_, _, rfl, by rw [hl.1]; exact List.mem_append_right _ List.mem_cons_self⟩
  case busy =>
    have henclave : s.enclaveUp = true := by simp [State.enclaveUp, hhalted, hcode, hrun, hscan]
    rw [exec_odRead_served henclave, readRequest_busy hlc haccept hhalted hserver]

open Sys2Proof Sys2Proof.Machine in
/-- Settles O57: in reset every row stands under a guard that fails, or is a pin's row that touches the pins and the host die alone
(log entry 6), and on an empty queue no tick passes (log entry 2). -/
theorem heldInReset : Obligations.HeldInReset := by
  unfold Obligations.HeldInReset
  intro s t hreset hscan hrelease h
  cases hpending : s.pending with
  | nil =>
    rw [step_nil hpending, tick_inReset hreset] at h
    cases h
    exact ⟨hreset, hscan, hrelease, rfl, rfl, rfl, rfl, rfl, rfl⟩
  | cons c rest =>
    rw [step_cons hpending] at h
    rw [hpending] at hrelease
    obtain ⟨hrest, hreset', hscan', hout, hclk, hstreams, hflash, hsec, hcores⟩ :=
      exec_heldSame (s := { s with pending := rest }) hreset hscan (hrelease c List.mem_cons_self) h
    have hpending' : t.pending = rest := hrest
    exact ⟨hreset'.trans hreset, hscan'.trans hscan, fun d hd => hrelease d (List.mem_cons_of_mem _ (hpending' ▸ hd)), hout, hclk,
      hstreams, hflash, hsec, hcores⟩
end

section
/-! What a loss of a Caravan, of a port or of a stream's run leaves of the plant: the power domains, the resets, the supply, the
keys and the clocks stand apart from streams, jobs, cores, buffers and frames. -/

namespace Sys2Proof.Machine

open Sys2Proof

/-! ## The state without its work -/

/-- A state without streams, jobs, cores, codec work, frames and host, and without what the buffer manager records. -/
def State.plant (s : State) : State :=
  { s.work with streams := [], jobs := [], cores := [], engines := [], spilled := 0, fabric := {}, host := {} }

theorem plant_of_work {s t : State} (h : t.work = s.work) : t.plant = s.plant :=
  congrArg (fun u : State =>
    { u with streams := [], jobs := [], cores := [], engines := [], spilled := 0, fabric := {}, host := {} }) h

section Plant

variable {s t : State} (h : t.plant = s.plant)
include h

theorem sys_of_plant : t.sys = s.sys := (congrArg State.sys h :)
theorem domains_of_plant : t.domains = s.domains := (congrArg State.domains h :)
theorem sec_of_plant : t.sec = s.sec := (congrArg State.sec h :)
theorem ft_of_plant : t.ft = s.ft := (congrArg State.ft h :)

theorem stored_of_plant {key : Nat} (hkey : key ∉ tallyKeys) : t.stored key = s.stored key := by
  have hfind : ∀ u : State, Tbl.find u.plant.od key = Tbl.find u.od key := fun u =>
    Tbl.find_filter (p := fun k => k ∉ tallyKeys) (by simpa using hkey) u.od
  unfold State.stored
  rw [← hfind t, ← hfind s, h]

end Plant

theorem count_plant (s : State) {key : Nat} (hkey : key ∈ tallyKeys) (n : Nat) : (s.count key n).plant = s.plant :=
  plant_of_work (count_work s hkey n)

theorem foldl_plant {α : Type} {g : State → α → State} (h : ∀ u x, (g u x).plant = u.plant) (l : List α) (s : State) :
    (l.foldl g s).plant = s.plant :=
  List.foldlRecOn (motive := fun u : State => u.plant = s.plant) l g rfl fun u hu x _ => (h u x).trans hu

/-! ## Streams and jobs (R35, R36, R39, R98, R218, R232) -/

theorem updStream_plant (s : State) (n : Nat) (f : Stream → Stream) : (s.updStream n f).plant = s.plant := rfl

theorem exactLose_plant (s : State) (n cause : Nat) : (s.exactLose n cause).plant = s.plant := by
  rw [exactLose_eq]
  rfl

theorem endJobs_plant (s : State) (p : Job → Bool) : (s.endJobs p).plant = s.plant :=
  (plant_of_work (endJobs_work s p)).trans rfl

theorem dropBackfill_plant (s : State) (n : Nat) : (s.dropBackfill n).plant = s.plant := by
  unfold State.dropBackfill
  dsimp only
  split <;> rfl

theorem parkStream_plant (s : State) (n : Nat) : (s.parkStream n).plant = s.plant := by
  have hrun : ∀ (u : State) (f : DlvSt → DlvSt) (g : RunSt → RunSt), ((u.updDlv n f).updRun n g).plant = u.plant :=
    fun _ _ _ => rfl
  have hsnapshot : (s.takeSnapshot n).plant = s.plant := rfl
  unfold State.parkStream
  dsimp only
  rw [hrun, dropBackfill_plant, endJobs_plant, hsnapshot]

theorem holdStream_plant (s : State) (n status : Nat) : (s.holdStream n status).plant = s.plant := by
  unfold State.holdStream
  rw [updStream_plant, parkStream_plant]

theorem holdForJob_plant (s : State) (n status pos : Nat) : (s.holdForJob n status pos).plant = s.plant :=
  (plant_of_work (notice_work _ _ _ _ _)).trans (holdStream_plant s n status)

theorem restartJob_plant (s : State) (id : Nat) : (s.restartJob id).plant = s.plant := by
  have hended : ∀ (u : State) (p : Nat → Bool) (q : CodecWork → Bool), ((u.freeCores p).dropCodec q).plant = u.plant :=
    fun _ _ _ => rfl
  have hjob : ∀ (u : State) (f : Job → Job), (u.updJob id f).plant = u.plant := fun _ _ => rfl
  unfold State.restartJob
  split
  · rfl
  · dsimp only
    rw [plant_of_work (serveAllocs_work _), hjob, count_plant _ (by decide),
      foldl_plant fun u r => plant_of_work (takeBufs_work u _ _ _ _ _), hended, plant_of_work (freeJobBuffers_work s _)]

theorem transientJob_plant (s : State) (id st : Nat) (covered : Bool) : (s.transientJob id st covered).plant = s.plant := by
  unfold State.transientJob
  split
  · rfl
  case h_2 j _ =>
    dsimp only
    have hstruck : (if st = stSram then s.updJob id fun j => { j with struck := some stSram } else s).plant = s.plant := by
      split <;> rfl
    have hcovered : ∀ u : State, (if covered then u.exactLose j.stream 2 else u).plant = u.plant := fun u => by
      split
      · exact exactLose_plant u _ _
      · rfl
    have hheld : ∀ (u : State) (f : RunSt → RunSt), (u.updRun j.stream f).plant = u.plant := fun _ _ => rfl
    split
    · rw [restartJob_plant, hcovered, hstruck]
    · rw [holdForJob_plant, hheld, hcovered, hstruck]

/-! ## Caravans and ports (R99, R361, R439, R440) -/

theorem caravanJobs_plant (s : State) (n : Nat) : (s.caravanJobs n).plant = s.plant :=
  foldl_plant (fun u id => transientJob_plant u id _ _) _ s

theorem freeBuffer_plant (s : State) (key : Nat) (b : Buffer) : (s.freeBuffer key b).plant = s.plant :=
  plant_of_work (freeBuffer_work s key b)

/-- R99, R218, R439: the reset of a Caravan reaches its work alone. -/
theorem clearCaravan_plant (s : State) (n : Nat) : (s.clearCaravan n).plant = s.plant := by
  have hcores : ∀ (u : State) (l : Tbl Core), State.plant { u with cores := l } = u.plant := fun _ _ => rfl
  unfold State.clearCaravan
  dsimp only
  rw [foldl_plant, hcores, caravanJobs_plant, foldl_plant]
  · intro u m
    split
    · exact exactLose_plant u m 3
    · rfl
  · intro u kb
    split
    · exact freeBuffer_plant u _ _
    · rfl

theorem forward_plant (s : State) (q : QFrame) : (s.forward q).plant = s.plant := by
  rw [forward_eq]
  rfl

theorem linkDown_plant (s : State) (k cause : Nat) : (s.linkDown k cause).plant = s.plant := by
  unfold State.linkDown State.reroute
  dsimp only
  rw [foldl_plant forward_plant]
  rfl

theorem clearPort_plant (s : State) (k : Nat) : (s.clearPort k).plant = s.plant := rfl

end Sys2Proof.Machine
end

section
/-! Power domains (R411 to R416): what a write of DOMAIN_TARGET asks, and the events of a domain. -/

namespace Sys2Proof.Machine

open Sys2Proof

/-! ## Notices (R406, R410) -/

theorem wakeHost_out (s : State) (c : Nat) : ∃ l, (s.wakeHost c).out = s.out ++ l := by
  unfold State.wakeHost
  dsimp only
  split
  · exact raiseVector_out _ _
  · exact ⟨[], (List.append_nil _).symm⟩

theorem postHost_out (s : State) (c sender seq : Nat) (body : Bytes) : ∃ l, (s.postHost c sender seq body).out = s.out ++ l := by
  obtain ⟨l, hl⟩ := wakeHost_out ((s.emit (.dma (s.chan c).rxBase body)).updChan c fun x =>
    { x with rx := some { ptr := (s.chan c).rxBase, len := body.length, seq := seq, sender := sender, body := body },
             posted := x.posted + 1 }) c
  refine ⟨[.dma (s.chan c).rxBase body] ++ l, ?_⟩
  rw [← List.append_assoc]
  exact hl

/-- R410: a notice takes nothing back that has gone out. -/
theorem notice_out (s : State) (kind status subject detail : Nat) : ∃ l, (s.notice kind status subject detail).out = s.out ++ l := by
  unfold State.notice
  dsimp only
  split
  · exact ⟨[], (List.append_nil _).symm⟩
  · split
    · split
      · exact ⟨[], (List.append_nil _).symm⟩
      · exact ⟨[], (List.append_nil _).symm⟩
    · exact postHost_out s _ _ _ _

/-! ## Writes of the upper areas (R544) -/

theorem objectOff_upper {i : Nat} (hi : 0x4818 ≤ i) (t : State) : t.objectOff i = false := by
  unfold State.objectOff
  rw [if_neg (by simp only [Bool.and_eq_true, decide_eq_true_eq]; omega),
    if_neg (by simp only [Bool.and_eq_true, decide_eq_true_eq]; omega)]

/-- R488: no value of these objects is normalised. -/
theorem normalValue_upper {key : Nat} (hkey : 0x4A0000 ≤ key) (v : Nat) : normalValue key v = v := by
  have hplace : key ≠ oPlaceGeometry ∧ key ≠ oTorusGeometry := by
    simp only [oPlaceGeometry, oTorusGeometry]
    omega
  rw [normalValue, if_neg (by simp [hplace]), if_neg (by simp only [Bool.and_eq_true, decide_eq_true_eq]; omega)]

/-- R411: the key of DOMAIN_TARGET of a domain. -/
theorem oDomainTarget_div_mod (d : Nat) : oDomainTarget d / 256 = 0x6A00 + d ∧ oDomainTarget d % 256 = 2 := by
  unfold oDomainTarget
  omega

/-- R8: the objects whose changes are counted. -/
def counted (key : Nat) : Bool :=
  key == 0x230001 || key == 0x380002 || key == 0x600001 || (0x6100 ≤ key / 256 && key / 256 < 0x6120 && key % 256 == 2)

theorem counted_eq_false {key : Nat} (h : ¬ (0x230001 ≤ key ∧ key < 0x380003 ∨ 0x600001 ≤ key ∧ key < 0x612000)) :
    counted key = false := by
  simp only [counted, Bool.or_eq_false_iff, Bool.and_eq_false_iff, decide_eq_false_iff_not, beq_eq_false_iff_ne]
  omega

theorem countedRows : ∀ r ∈ odTable, r.access = .rwl → r.subs = 1 ∧
    (r.span = 1 ∧ (r.base = 0x2300 ∧ r.sub = 1 ∨ r.base = 0x3800 ∧ r.sub = 2 ∨ r.base = 0x6000 ∧ r.sub = 1) ∨
      r.base = 0x6100 ∧ r.span = 32 ∧ r.sub = 2) := by
  decide +kernel

/-- R8: a write of another object draws no count. -/
theorem isLimited_eq_false {key : Nat} (h : counted key = false) : isLimited key = false := by
  refine Bool.eq_false_iff.mpr fun hlimited => ?_
  rw [isLimited, Option.any_eq_true] at hlimited
  obtain ⟨r, hrow, haccess⟩ := hlimited
  have hplace := countedRows r (List.mem_of_find?_eq_some hrow) (eq_of_beq haccess)
  have hin := List.find?_some hrow
  simp only [Bool.and_eq_true, decide_eq_true_eq] at hin
  simp only [counted, Bool.or_eq_false_iff, Bool.and_eq_false_iff, decide_eq_false_iff_not, beq_eq_false_iff_ne] at h
  omega

theorem isLimited_oDomainTarget (d : Nat) : isLimited (oDomainTarget d) = false :=
  isLimited_eq_false (counted_eq_false (by unfold oDomainTarget; omega))

theorem applyObject_oDomainTarget {d : Nat} (hd : d < 72) (t : State) (src : OdSource) (role : Role) (v : Nat) (data : Bytes) :
    t.applyObject src role (oDomainTarget d) v data = ofExcept0 t (t.targetCmd d v) := by
  obtain ⟨hidx, hsub⟩ := oDomainTarget_div_mod d
  unfold State.applyObject
  dsimp only
  rw [hidx, hsub, objectOff_upper (by omega), if_neg Bool.false_ne_true, if_neg (by omega), if_neg (by omega), if_neg (by omega),
    if_neg (by simp only [Bool.and_eq_true, decide_eq_true_eq]; omega),
    if_neg (by simp only [Bool.and_eq_true, decide_eq_true_eq]; omega),
    if_neg (by simp only [Bool.and_eq_true, decide_eq_true_eq]; omega),
    if_neg (by unfold oDomainTarget oGtcRoot; omega), if_neg (by omega), if_neg (by omega),
    if_neg (by simp only [Bool.and_eq_true, decide_eq_true_eq]; omega),
    if_neg (by simp only [Bool.and_eq_true, decide_eq_true_eq]; omega), if_neg (by omega),
    if_neg (by simp only [Bool.and_eq_true, decide_eq_true_eq]; omega), if_neg (by omega), if_neg (by omega), if_pos (by omega),
    State.applyControl, if_neg (by simp only [Bool.and_eq_true, decide_eq_true_eq]; omega),
    if_pos (by simp only [Bool.and_eq_true, decide_eq_true_eq, and_true]; omega), Nat.add_sub_cancel_left]

/-- R411, R544: the row of DOMAIN_TARGET answers what its command gives. -/
theorem exec_domainTargetWrite {s t : State} {r : OdReq} {d : Nat} {role : Role} (hd : d < 72)
    (h : s.ReceivesWrite r (oDomainTarget d) role t) :
    exec (.domainTargetWrite r d) s = (ofExcept0 t (t.targetCmd d (leNat r.data))).answered r := by
  have hrow : exec (.domainTargetWrite r d) s = odRow (blockKey (decide (d < 72)) (oDomainTarget d)) (fun _ => true) r s := rfl
  have hblock : blockKey (decide (d < 72)) (oDomainTarget d) = oDomainTarget d := by simp [blockKey, hd]
  rw [hrow, hblock, odRow_answered h rfl (by unfold oDomainTarget; omega) (isLimited_oDomainTarget d),
    normalValue_upper (by unfold oDomainTarget; omega), applyObject_oDomainTarget hd]

/-! ## DOMAIN_TARGET (R411, R412, R416) -/

theorem targetCmd_error {t : State} {d v : Nat} (hallow : domainAllows d v = true) (hv : v ≠ 0) (hbad : t.targetBad d v = true)
    (hawake : (t.domain d).state = 3 → (t.domain d).going ≠ 0) : t.targetCmd d v = .error stState := by
  have hwaking : ¬ ((t.domain d).state = 3 ∧ (t.domain d).going = 0) := fun ⟨hs, hg⟩ => hawake hs hg
  unfold State.targetCmd
  dsimp only
  rw [if_neg (by simp [hallow]), if_pos (by simpa [hv, hbad, imp_iff_not_or] using hawake)]

theorem targetCmd_ok {t : State} {d v : Nat} (hallow : domainAllows d v = true)
    (hok : v = 0 ∨ (t.domain d).state = 3 ∧ (t.domain d).going = 0 ∨ t.targetBad d v = false) :
    t.targetCmd d v = .ok ((t.store (oDomainTarget d) v).setTarget d v) := by
  unfold State.targetCmd
  dsimp only
  rw [if_neg (by simp [hallow]), if_neg]
  rcases hok with h | ⟨h, h'⟩ | h <;> simp [*]

theorem updDomain_domain_self (s : State) (d : Nat) (f : Domain → Domain) : (s.updDomain d f).domain d = f (s.domain d) := by
  rw [State.domain_updDomain, if_pos rfl]

/-- R439: a domain that turns OFF loses what it holds; no domain and no setting changes by it. -/
theorem losePower_domains (s : State) (d : Nat) : (s.losePower d).domains = s.domains := by
  unfold State.losePower
  split
  · exact domains_of_plant (clearCaravan_plant s _)
  · split
    · exact domains_of_plant ((linkDown_plant _ _ _).trans (clearPort_plant s _))
    · split <;> rfl

theorem losePower_stored (s : State) (d : Nat) {key : Nat} (hkey : key ∉ tallyKeys) : (s.losePower d).stored key = s.stored key := by
  unfold State.losePower
  split
  · exact stored_of_plant (clearCaravan_plant s _) hkey
  · split
    · exact stored_of_plant ((linkDown_plant _ _ _).trans (clearPort_plant s _)) hkey
    · split <;> rfl

theorem beginTransition_same {s : State} {d v : Nat} (h : (s.domain d).heldOff = true ∨ (s.domain d).state = v) :
    s.beginTransition d v = s := by
  unfold State.beginTransition
  dsimp only
  rw [if_pos (by simpa using h)]

/-- R413, R414: the transition of a domain that is not held OFF leads to its new state. -/
theorem beginTransition_begins {s : State} {d v : Nat} (hheld : (s.domain d).heldOff = false) (hstate : (s.domain d).state ≠ v) :
    ∃ w, (s.beginTransition d v).domain d = { s.domain d with state := 3, going := v, next := none, wakes := w } := by
  unfold State.beginTransition
  dsimp only
  rw [if_neg (by simp [hheld, hstate])]
  split
  · rw [State.domain, losePower_domains]
    exact ⟨_, updDomain_domain_self s d _⟩
  · exact ⟨_, updDomain_domain_self s d _⟩

theorem beginTransition_stored (s : State) (d v : Nat) {key : Nat} (hkey : key ∉ tallyKeys) :
    (s.beginTransition d v).stored key = s.stored key := by
  unfold State.beginTransition
  dsimp only
  repeat' split
  · rfl
  · exact losePower_stored _ d hkey
  · rfl

theorem oDomainTarget_untallied (d : Nat) : oDomainTarget d ∉ tallyKeys := by
  simp [tallyKeys, oDomainTarget, oNoticesLost, oPoolStateEvents, oRetiredBuffers, oJobsRetried]
  omega

theorem setTarget_idle {s : State} {d : Nat} (h : (s.domain d).state ≠ 3) (v : Nat) : s.setTarget d v = s.beginTransition d v :=
  if_pos h

theorem setTarget_stored (s : State) (d v : Nat) : (s.setTarget d v).stored (oDomainTarget d) = s.stored (oDomainTarget d) := by
  unfold State.setTarget
  dsimp only
  repeat' split
  · exact beginTransition_stored s d v (oDomainTarget_untallied d)
  all_goals rfl

/-- R416: what a domain in transition keeps of a request. -/
def Domain.asked (x : Domain) (v : Nat) : Domain :=
  if x.going = v then { x with next := none, wakeAfter := false }
  else if v = 0 && x.going = 1 then { x with next := none, wakeAfter := true }
  else { x with next := some v }

theorem setTarget_moving {s : State} {d : Nat} (h : (s.domain d).state = 3) (v : Nat) :
    (s.setTarget d v).domain d = (s.domain d).asked v := by
  unfold State.setTarget Domain.asked
  dsimp only
  rw [if_neg (not_not.mpr h)]
  repeat' split
  all_goals exact updDomain_domain_self s d _

/-- R412, R416: an accepted write stores the target, and the domain follows it. -/
theorem exec_domainTargetWrite_ok {s t : State} {r : OdReq} {d : Nat} {role : Role} (hd : d < 72)
    (h : s.ReceivesWrite r (oDomainTarget d) role t) (hallow : domainAllows d (leNat r.data) = true)
    (hok : leNat r.data = 0 ∨ (t.domain d).state = 3 ∧ (t.domain d).going = 0 ∨ t.targetBad d (leNat r.data) = false) :
    ∃ u : State, exec (.domainTargetWrite r d) s = u.wroteOk r ∧ u.stored (oDomainTarget d) = leNat r.data ∧
      u = (t.store (oDomainTarget d) (leNat r.data)).setTarget d (leNat r.data) := by
  refine ⟨_, ?_, ?_, rfl⟩
  · rw [exec_domainTargetWrite hd h, targetCmd_ok hallow hok]
    rfl
  · rw [setTarget_stored, State.stored_store_self]

theorem domainAllows_lt {d v : Nat} (h : domainAllows d v = true) : v < 3 := by
  simp only [domainAllows, Bool.and_eq_true, Bool.or_eq_true, beq_iff_eq] at h
  omega

/-! ## The events of a domain (R413 to R416) -/

theorem touch_sleeping {s : State} {d : Nat} (h : (s.domain d).state = 1) : (s.touch d).domain d =
    { s.domain d with state := 3, going := 0, held := (s.domain d).held + 1, wakes := (s.domain d).wakes + 1 } := by
  unfold State.touch
  dsimp only
  rw [if_pos h, updDomain_domain_self]

theorem touch_moving {s : State} {d : Nat} (h : (s.domain d).state = 3) (hgoing : (s.domain d).going < 2) : (s.touch d).domain d =
    { s.domain d with held := (s.domain d).held + 1
                      wakeAfter := if (s.domain d).going = 1 then true else (s.domain d).wakeAfter } := by
  unfold State.touch
  dsimp only
  rw [if_neg (by omega)]
  by_cases hwake : (s.domain d).going = 0
  · rw [if_pos (by simp [h, hwake]), updDomain_domain_self, hwake]
    rfl
  · have hsleep : (s.domain d).going = 1 := by omega
    rw [if_neg (by simp [hwake]), if_pos (by simp [h, hsleep]), updDomain_domain_self, hsleep]
    rfl

theorem touch_kept {s : State} {d : Nat} (h : (s.domain d).state = 0 ∨ s.domOff d = true) : s.touch d = s := by
  have hstate : (s.domain d).state = 0 ∨ (s.domain d).state = 2 ∨ (s.domain d).state = 3 ∧ (s.domain d).going = 2 := by
    simpa [State.domOff] using h
  unfold State.touch
  dsimp only
  rw [if_neg (by omega), if_neg (by simp; omega), if_neg (by simp; omega)]

/-- R414: a domain whose transition is over. -/
def Domain.arrived (x : Domain) : Domain :=
  { x with state := x.going, next := none, wakeAfter := false, held := if x.going = 0 then 0 else x.held }

theorem arrived_on {x : Domain} (hgoing : x.going = 0) (hwake : x.wakeAfter = false) :
    x.arrived = { x with state := 0, next := none, held := 0 } := by
  rw [Domain.arrived, hgoing, ← hwake]
  rfl

/-- R414: the device with a domain's transition over. -/
def State.arrive (s : State) (d : Nat) : State := s.updDomain d Domain.arrived

theorem arrive_domain (s : State) (d : Nat) : (s.arrive d).domain d = (s.domain d).arrived := updDomain_domain_self s d _

theorem arrive_domain_ne (s : State) {d k : Nat} (h : k ≠ d) : (s.arrive d).domain k = s.domain k := by
  rw [State.arrive, State.domain_updDomain, if_neg h]

section Transition

variable {s : State} {d : Nat} (hd : isDomain d = true) (hup : s.up = true)
include hd hup

theorem exec_domainTransitionDone (h : (s.domain d).state = 3) : exec (.domainTransitionDone d) s =
    if (s.domain d).wakeAfter then .next ((s.arrive d).beginTransition d 0)
    else
      match (s.domain d).next with
      | none => .next (if d = 0 then ((s.arrive d).pumpNotices 0).pumpNotices 8 else s.arrive d)
      | some v => if v ≠ 0 && (s.arrive d).targetBad d v then .next (s.arrive d) else .next ((s.arrive d).beginTransition d v) := by
  have hrow : exec (.domainTransitionDone d) s = execDomainTransitionDone d s := rfl
  rw [hrow, execDomainTransitionDone, withDomain_runs _ hd hup]
  dsimp only
  rw [if_neg (not_not.mpr h)]
  rfl

theorem exec_domainTransitionDone_idle (h : (s.domain d).state ≠ 3) : exec (.domainTransitionDone d) s = .next s := by
  have hrow : exec (.domainTransitionDone d) s = execDomainTransitionDone d s := rfl
  rw [hrow, execDomainTransitionDone, withDomain_runs _ hd hup]
  exact if_pos h

/-- R413, R416: a wake, or a request for ON, that arrived on the way to another state follows the transition. -/
theorem exec_domainTransitionDone_wakes (h : (s.domain d).state = 3) (hgoing : (s.domain d).going ≠ 0)
    (hheld : (s.domain d).heldOff = false)
    (hask : (s.domain d).wakeAfter = true ∨ (s.domain d).wakeAfter = false ∧ (s.domain d).next = some 0) :
    ∃ t, exec (.domainTransitionDone d) s = .next t ∧ (t.domain d).state = 3 ∧ (t.domain d).going = 0 ∧
      (t.domain d).wakeAfter = false := by
  have hnext : exec (.domainTransitionDone d) s = .next ((s.arrive d).beginTransition d 0) := by
    rw [exec_domainTransitionDone hd hup h]
    rcases hask with hwake | ⟨hwake, hnext⟩
    · rw [if_pos hwake]
    · rw [if_neg (by simp [hwake]), hnext]
      rfl
  obtain ⟨w, hw⟩ := beginTransition_begins (s := s.arrive d) (d := d) (v := 0) (by rw [arrive_domain]; exact hheld)
    (by rw [arrive_domain]; exact hgoing)
  refine ⟨_, hnext, ?_, ?_, ?_⟩
  · rw [hw]
  · rw [hw]
  · rw [hw, arrive_domain]
    rfl

theorem exec_domainTransitionDone_rests (h : (s.domain d).state = 3) (hwake : (s.domain d).wakeAfter = false)
    (hnext : (s.domain d).next = none) :
    ∃ t, exec (.domainTransitionDone d) s = .next t ∧ ∀ k, t.domain k = (s.arrive d).domain k := by
  rw [exec_domainTransitionDone hd hup h, if_neg (by simp [hwake]), hnext]
  refine ⟨_, rfl, fun k => ?_⟩
  split
  · rw [pumpNotices_domain, pumpNotices_domain]
  · rfl

end Transition

/-- R415: what the device records of an access to a domain that is OFF, with what it sends. -/
def State.offNoted (s : State) (d addr : Nat) (l : List Emit) : State :=
  State.updDomain { s with out := s.out ++ l, offStatus := stDomainOff, offDomain := d, offAddr := addr, offGtc := s.gtc } d fun x =>
    { x with offAccesses := x.offAccesses + 1 }

theorem offAccess_eq (s : State) (d addr : Nat) (w : Bool) :
    s.offAccess d addr w = (s.offNoted d addr (if w then [] else [.abort addr])).notice 4 stDomainOff d addr := by
  unfold State.offAccess State.offNoted
  cases w
  · rfl
  · simp only [if_true, List.append_nil]

/-- R415: an access to a domain that is OFF is recorded, counted and noticed, and a read is aborted. -/
theorem offAccess_spec (s : State) (d addr : Nat) (w : Bool) :
    ∃ l, (s.offAccess d addr w).offStatus = stDomainOff ∧ (s.offAccess d addr w).offDomain = d ∧
      (s.offAccess d addr w).offAddr = addr ∧ (s.offAccess d addr w).offGtc = s.gtc ∧
      ((s.offAccess d addr w).domain d).offAccesses = (s.domain d).offAccesses + 1 ∧
      (s.offAccess d addr w).out = s.out ++ (if w then [] else [.abort addr]) ++ l := by
  obtain ⟨l, hl⟩ := notice_out (s.offNoted d addr (if w then [] else [.abort addr])) 4 stDomainOff d addr
  have hnoted : ((s.offNoted d addr (if w then [] else [.abort addr])).domain d).offAccesses = (s.domain d).offAccesses + 1 :=
    congrArg Domain.offAccesses (updDomain_domain_self _ d _)
  rw [offAccess_eq]
  refine ⟨l, ?_, ?_, ?_, ?_, ?_, hl⟩
  all_goals rw [notice_eq]
  · rfl
  · rfl
  · rfl
  · rfl
  · exact hnoted

end Sys2Proof.Machine

open Sys2Proof Sys2Proof.Machine in
/-- Settles O36: a write of DOMAIN_TARGET is judged by the domain's state, an accepted one begins its transition or is kept with
the one that runs, and each event of a domain moves its record as its rule says. That a sleeping port holds its frames, and what
else counts as an access that needs a domain, is the model's reading (DEDUCED, log entry 176); that a notice waits while SPINE is
not ON is its choice (DESIGN CHOICE, log entry 110). -/
theorem domainTransitions : Obligations.DomainTransitions := by
  unfold Obligations.DomainTransitions
  refine ⟨?_, ?_⟩
  · intro s t r d role v hd h hallow
    have hlt := domainAllows_lt hallow
    have hkept : ∀ u : State, u = (t.store (oDomainTarget d) v).setTarget d v → (t.domain d).state ≠ 3 →
        ((t.domain d).heldOff = true ∨ (t.domain d).state = v) → u.domains = t.domains := by
      intro u hu hidle hsame
      rw [hu, setTarget_idle (s := t.store (oDomainTarget d) v) hidle, beginTransition_same (s := t.store (oDomainTarget d) v) hsame]
      rfl
    have hrefused : v ≠ 0 → ((t.domain d).state = 3 → (t.domain d).going ≠ 0) → t.targetBad d v = true →
        exec (.domainTargetWrite r d) s = t.wroteNot r 0 := fun hv hawake hbad => by
      rw [exec_domainTargetWrite hd h, targetCmd_error hallow hv hbad hawake]
      rfl
    refine ⟨fun hv hidle => hrefused hv fun hmoving => absurd hmoving hidle, fun hok hidle hne hheld => ?_, fun hok hsame => ?_,
      fun hok hidle hheld => ?_, fun hv _ hgoing => hrefused hv fun _ => hgoing, fun hmoving hok => ?_⟩
    · obtain ⟨u, hexec, hstored, hu⟩ := exec_domainTargetWrite_ok hd h hallow (hok.imp_right .inr)
      obtain ⟨w, hw⟩ := beginTransition_begins (s := t.store (oDomainTarget d) v) (d := d) hheld hne
      rw [setTarget_idle (s := t.store (oDomainTarget d) v) hidle] at hu
      refine ⟨u, hexec, hstored, ?_, ?_⟩
      · rw [hu, hw]
      · rw [hu, hw]
    · obtain ⟨u, hexec, hstored, hu⟩ := exec_domainTargetWrite_ok hd h hallow (hok.imp_right .inr)
      exact ⟨u, hexec, hstored, hkept u hu (by omega) (.inr hsame)⟩
    · obtain ⟨u, hexec, hstored, hu⟩ := exec_domainTargetWrite_ok hd h hallow (hok.imp_right .inr)
      exact ⟨u, hexec, hstored, hkept u hu hidle (.inl hheld)⟩
    · obtain ⟨u, hexec, hstored, hu⟩ := exec_domainTargetWrite_ok hd h hallow (hok.imp_right (.imp_left (⟨hmoving, ·⟩)))
      have hasked : u.domain d = (t.domain d).asked v := by
        rw [hu, setTarget_moving (s := t.store (oDomainTarget d) v) hmoving]
        rfl
      refine ⟨u, hexec, hstored, ?_, ?_, fun hv hsleep => ?_, fun hne hnot => ?_⟩
      · rw [hasked, Domain.asked]
        repeat' split
        all_goals exact hmoving
      · rw [hasked, Domain.asked]
        repeat' split
        all_goals rfl
      · rw [hasked, Domain.asked, if_neg (by omega), if_pos (by simp [hv, hsleep])]
      · rw [hasked, Domain.asked, if_neg (Ne.symm hne), if_neg (by simpa using hnot)]
  · intro s d hd hup
    have hwakes : exec (.domainWake d) s = .next (s.touch d) := withDomain_runs _ hd hup
    have hoff : ∀ addr w, addr < 2 ^ 24 → exec (.domainOffAccess d addr w) s =
        if s.domOff d then .next (s.offAccess d addr w) else .next s := fun addr w haddr => by
      have hrow : exec (.domainOffAccess d addr w) s = execDomainOffAccess d addr w s := rfl
      rw [hrow, execDomainOffAccess, if_neg (by omega), withDomain_runs _ hd hup]
    refine ⟨fun hsleep => ?_, fun hkept => ?_, fun hmoving hgoing => ?_, exec_domainTransitionDone_idle hd hup,
      fun hmoving hwake hnext hgoing hheld => ?_, fun hmoving hwake hnext hgoing hheld => ?_, fun hmoving hwake hnext => ?_,
      fun hmoving hwake hgoing hheld => ?_, fun addr w haddr hon => ?_, fun addr w haddr hdown => ?_⟩
    · refine ⟨_, hwakes, ?_⟩
      rw [touch_sleeping hsleep]
      exact ⟨rfl, rfl, rfl, rfl⟩
    · rw [hwakes, touch_kept hkept]
    · refine ⟨_, hwakes, ?_⟩
      rw [touch_moving hmoving hgoing]
      exact ⟨hmoving, rfl, fun h => if_pos h⟩
    · obtain ⟨t, hexec, hstate, hto, -⟩ := exec_domainTransitionDone_wakes hd hup hmoving hgoing hheld (.inr ⟨hwake, hnext⟩)
      exact ⟨t, hexec, hstate, hto⟩
    · refine ⟨s.arrive d, ?_, ?_⟩
      · exact congrArg (Tbl.set s.domains d) (arrived_on hgoing hwake)
      · rw [exec_domainTransitionDone hd hup hmoving, if_neg (by simp [hwake]), hnext]
        dsimp only
        simp only [ne_eq, one_ne_zero, not_false_eq_true, decide_true, Bool.true_and]
        split <;> rfl
    · obtain ⟨t, hexec, hdomain⟩ := exec_domainTransitionDone_rests hd hup hmoving hwake hnext
      refine ⟨t, hexec, ?_, fun hon => ?_, fun k hk => (hdomain k).trans (arrive_domain_ne s hk)⟩
      · rw [hdomain, arrive_domain]
        rfl
      · rw [hdomain, arrive_domain]
        exact if_pos hon
    · exact exec_domainTransitionDone_wakes hd hup hmoving (by omega) hheld (.inl hwake)
    · rw [hoff addr w haddr, if_neg (by simp [hon])]
    · obtain ⟨l, hspec⟩ := offAccess_spec s d addr w
      exact ⟨_, l, (hoff addr w haddr).trans (if_pos hdown), hspec⟩
end

section
/-! Rails, the reference clock, droop, throttle and trips (R218, R469 to R475). -/

namespace Sys2Proof.Machine

open Sys2Proof

/-! ## A power demand beyond its range (R473 to R475) -/

/-- A device in service with a power demand of 5, beyond the 4 of R474. -/
def overdrawn : State :=
  { State.reset with sys := { inReset := false, rstLow := false }, sec := { lc := 3 }, domains := [], power := { power := 5 } }

/-- R475: at THROTTLE_STEP 5 a junction of 106 °C is not counted as above 105 °C at step 4. -/
theorem exec_junctionSample_overdrawn : exec (.junctionSample 106) overdrawn =
    .next { overdrawn with power := { power := 5, thermal := 4, tj := 106, tjPeak := 106 } } := rfl

end Sys2Proof.Machine

open Sys2Proof Sys2Proof.Machine in
/-- Refutes O44: the clause on the time since which a junction has been above 105 °C at step 4 reads the thermal demand where the
model reads THROTTLE_STEP, the higher of the two demands (R473). They differ on a state whose power demand is 5, which R474 does
not give and no run reaches, but which the statement, made of every state, does not exclude: there a sample of 106 °C leaves
no such time. -/
theorem not_railsClocksAndThrottle : ¬ Obligations.RailsClocksAndThrottle := by
  unfold Obligations.RailsClocksAndThrottle
  rintro ⟨-, h⟩
  obtain ⟨-, -, -, -, hjunction, -⟩ := h overdrawn rfl
  obtain ⟨t, hexec, -, -, -, -, hhot, -⟩ := hjunction 106
  rw [exec_junctionSample_overdrawn] at hexec
  cases hexec
  exact absurd hhot (by decide)
end

section
/-! The hold-up bank (R477 to R481, R541): its samples, its estimates and the write allowance. -/

namespace Sys2Proof.Machine

open Sys2Proof

/-! ## The allowance (R480, R481) -/

theorem hold_of_aside {s t : State} (h : t.aside = s.aside) : t.hold = s.hold := (congrArg State.hold h :)

/-- R481: a state whose bank holds a new usable energy and allowance. -/
def State.allowed (s : State) : State :=
  let a := s.allowance (voltsOf s.hold.code)
  { s with hold := { s.hold with eUsable := f64Floor a.1
                                 dAllow := if s.hold.state = 0 ∨ s.hold.state = 4 then 0 else f64Floor a.2 } }

/-- R348, R481: besides the warnings that it raises, a recomputation changes the bank's energy and allowance. -/
theorem recompute_aside (s : State) : s.recompute.aside = s.allowed.aside := by
  unfold State.recompute State.allowed
  dsimp only
  rw [warn_aside]
  simp only [Bool.or_eq_true, decide_eq_true_eq]

theorem recompute_hold (s : State) : s.recompute.hold = s.allowed.hold := hold_of_aside (recompute_aside s)

/-- R481: a recomputation leaves the rest of the bank's record. -/
theorem recompute_kept (s : State) : ∃ e d, s.recompute.hold = { s.hold with eUsable := e, dAllow := d } := by
  rw [recompute_hold]
  exact ⟨_, _, rfl⟩

theorem recompute_stored (s : State) {key : Nat} (hkey : key ∉ tallyKeys) : s.recompute.stored key = s.stored key :=
  stored_of_aside (recompute_aside s) hkey

theorem recompute_allowance (s : State) (v : Nat) : s.recompute.allowance v = s.allowance v := by
  unfold State.allowance
  dsimp only
  rw [recompute_hold, recompute_stored s (by decide), recompute_stored s (by decide)]
  rfl

theorem recompute_bankState (s : State) : s.recompute.bankState = s.bankState := by
  unfold State.bankState
  dsimp only
  rw [recompute_hold, recompute_stored s (by decide), recompute_stored s (by decide), recompute_stored s (by decide)]
  rfl

/-! ## A sample (R477 to R479, R541) -/

/-- R541: the voltage, the current and the code that a sample gives. -/
def State.measured (s : State) (v i : Nat) : State :=
  { s with hold := { s.hold with mv := v % 4096 * 75 / 4, ma := ((i % 4096 * 375 / 64 : Nat) : Int) - 12000, code := v % 4096 } }

/-- R477: outside an estimate a sample sets the state of the bank. -/
def State.judged (s : State) : State :=
  if s.hold.test.isSome then s else { s with hold := { s.hold with state := s.bankState } }

/-- R477, R479: what a sample leaves: the charger watched outside an estimate, or the estimate continued. -/
def State.sampled (s : State) (v i : Nat) : State :=
  let s1 := s.measured v i
  match s.hold.test with
  | some (v0, after, nc) => s1.estimate (v % 4096) (((i % 4096 * 375 / 64 : Nat) : Int) - 12000) v0 after nc
  | none => { s1 with hold := s1.hold.watch (s.charges (v % 4096 * 75 / 4)) s.gtc (v % 4096 * 75 / 4) }

theorem exec_huSample {s : State} (hup : s.up = true) (v i : Nat) :
    exec (.huSample v i) s = .next (s.sampled v i).judged.recompute := by
  have hrow : exec (.huSample v i) s = execHuSample v i s := rfl
  rw [hrow, execHuSample, whenUp_runs _ hup]
  rfl

theorem judged_estimating {s : State} (h : s.hold.test ≠ none) : s.judged = s :=
  if_pos (Option.isSome_iff_ne_none.mpr h)

theorem judged_idle {s : State} (h : s.hold.test = none) : s.judged = { s with hold := { s.hold with state := s.bankState } } :=
  if_neg (by simp [h])

/-- What a sample measures stands in the bank's record: the watch of the charger and an estimate leave it. -/
def HoldUp.reading (h : HoldUp) : Nat × Int × Nat := (h.mv, h.ma, h.code)

theorem watch_spec (h : HoldUp) (on : Bool) (gtc mv : Nat) : (h.watch on gtc mv).reading = h.reading ∧
    (h.watch on gtc mv).test = h.test ∧ (h.watch on gtc mv).charging = on := by
  unfold HoldUp.watch
  repeat' split
  case isTrue hoff => exact ⟨rfl, rfl, by simpa using hoff.symm⟩
  all_goals exact ⟨rfl, rfl, by simp_all⟩

theorem estimate_reading (s : State) (code : Nat) (ma : Int) (v0 : Nat) (after : Option Nat) (nc : Nat) :
    (s.estimate code ma v0 after nc).hold.reading = s.hold.reading := by
  unfold State.estimate
  dsimp only
  repeat' split
  all_goals rfl

theorem sampled_reading (s : State) (v i : Nat) : (s.sampled v i).hold.reading = (s.measured v i).hold.reading := by
  unfold State.sampled
  dsimp only
  split
  · exact estimate_reading _ _ _ _ _ _
  · exact (watch_spec _ _ _ _).1

theorem judged_reading (s : State) : s.judged.hold.reading = s.hold.reading := by
  unfold State.judged
  split <;> rfl

/-- R479: the first sample of an estimate gives the ESR where a current flows. -/
theorem estimate_first (s : State) (code : Nat) (ma : Int) (v0 nc : Nat) :
    let t := s.estimate code ma v0 none nc
    t.hold.test = some (v0, some code, nc + 100 * ma.natAbs) ∧ t.hold.state = s.hold.state ∧ t.hold.cEst = s.hold.cEst ∧
      (ma.natAbs ≠ 0 → t.hold.esr = (v0 - code) * 18750000 / ma.natAbs) :=
  ⟨rfl, rfl, rfl, fun h => if_neg h⟩

/-- R479: an estimate whose voltage has fallen far enough ends with the capacitance. -/
theorem estimate_last {s : State} {code v0 : Nat} (h : 100 * code ≤ 95 * v0) (ma : Int) (v1 nc : Nat) :
    let t := s.estimate code ma v0 (some v1) nc
    t.hold.test = none ∧ t.hold.lastTest = s.gtc ∧ t.hold.charging = true ∧ t.hold.cEst ≠ none ∧
      (code < v1 → t.hold.cEst = some ((nc + 100 * ma.natAbs) * 4 / (75 * (v1 - code)))) := by
  unfold State.estimate
  dsimp only
  rw [if_pos h]
  exact ⟨rfl, rfl, rfl, nofun, fun hfell => congrArg some (if_neg (by omega))⟩

theorem estimate_goes {s : State} {code v0 : Nat} (h : ¬ 100 * code ≤ 95 * v0) (ma : Int) (v1 nc : Nat) :
    s.estimate code ma v0 (some v1) nc = { s with hold := { s.hold with test := some (v0, some v1, nc + 100 * ma.natAbs) } } := by
  unfold State.estimate
  dsimp only
  rw [if_neg h]

theorem sampled_idle {s : State} (h : s.hold.test = none) (v i : Nat) :
    (s.sampled v i).hold.test = none ∧ (s.sampled v i).hold.charging = s.charges (v % 4096 * 75 / 4) := by
  obtain ⟨-, htest, hcharging⟩ := watch_spec (s.measured v i).hold (s.charges (v % 4096 * 75 / 4)) s.gtc (v % 4096 * 75 / 4)
  unfold State.sampled
  rw [h]
  exact ⟨htest.trans h, hcharging⟩

theorem sampled_estimate {s : State} {v0 nc : Nat} {after : Option Nat} (h : s.hold.test = some (v0, after, nc)) (v i : Nat) :
    s.sampled v i = (s.measured v i).estimate (v % 4096) (((i % 4096 * 375 / 64 : Nat) : Int) - 12000) v0 after nc := by
  unfold State.sampled
  rw [h]

theorem judged_sampled_idle {s : State} (h : s.hold.test = none) (v i : Nat) :
    (s.sampled v i).judged.hold.state = (s.sampled v i).judged.bankState ∧
      (s.sampled v i).judged.hold.charging = s.charges (v % 4096 * 75 / 4) := by
  obtain ⟨hidle, hcharging⟩ := sampled_idle h v i
  rw [judged_idle hidle]
  exact ⟨rfl, hcharging⟩

theorem judged_sampled_first {s : State} {v0 nc : Nat} (h : s.hold.test = some (v0, none, nc)) (v i : Nat) :
    let amps := (((i % 4096 * 375 / 64 : Nat) : Int) - 12000).natAbs
    let t := (s.sampled v i).judged
    t.hold.test = some (v0, some (v % 4096), nc + 100 * amps) ∧ t.hold.state = s.hold.state ∧ t.hold.cEst = s.hold.cEst ∧
      (amps ≠ 0 → t.hold.esr = (v0 - v % 4096) * 18750000 / amps) := by
  have hfirst := estimate_first (s.measured v i) (v % 4096) (((i % 4096 * 375 / 64 : Nat) : Int) - 12000) v0 nc
  rw [← sampled_estimate h] at hfirst
  obtain ⟨htest, hrest⟩ := hfirst
  dsimp only
  rw [judged_estimating (by rw [htest]; exact nofun)]
  exact ⟨htest, hrest⟩

theorem judged_sampled_rest {s : State} {v0 v1 nc : Nat} (h : s.hold.test = some (v0, some v1, nc)) (v i : Nat) :
    let amps := (((i % 4096 * 375 / 64 : Nat) : Int) - 12000).natAbs
    let t := (s.sampled v i).judged
    if 100 * (v % 4096) ≤ 95 * v0 then t.hold.test = none ∧ t.hold.state = t.bankState ∧ t.hold.lastTest = s.gtc ∧
      t.hold.charging = true ∧ t.hold.cEst ≠ none ∧
      (v % 4096 < v1 → t.hold.cEst = some ((nc + 100 * amps) * 4 / (75 * (v1 - v % 4096))))
    else t.hold.test = some (v0, some v1, nc + 100 * amps) ∧ t.hold.state = s.hold.state ∧ t.hold.cEst = s.hold.cEst := by
  dsimp only
  split
  case isTrue hfell =>
    have hlast := estimate_last (s := s.measured v i) hfell (((i % 4096 * 375 / 64 : Nat) : Int) - 12000) v1 nc
    rw [← sampled_estimate h] at hlast
    obtain ⟨htest, hrest⟩ := hlast
    rw [judged_idle htest]
    exact ⟨htest, rfl, hrest⟩
  case isFalse hgoes =>
    have hgone := estimate_goes (s := s.measured v i) hgoes (((i % 4096 * 375 / 64 : Nat) : Int) - 12000) v1 nc
    rw [← sampled_estimate h] at hgone
    rw [judged_estimating (by rw [hgone]; exact nofun), hgone]
    exact ⟨rfl, rfl, rfl⟩

/-! ## Temperatures and the start of an estimate (R479, R480, R541) -/

theorem bankTemp_lt {code : Nat} (h : 206 < code) : bankTemp code < 127 := by
  have hshort : (ntcCodes.filter (code ≤ ·)).length < ntcCodes.length :=
    List.length_filter_lt_length_iff_exists.mpr ⟨206, by decide +kernel, by simpa using h⟩
  have hlength : ntcCodes.length = 256 := by decide +kernel
  unfold bankTemp
  omega

/-- R541: below 127 °C the reading is a neighbouring whole degree. -/
theorem bankReading_near {code : Nat} (h : 206 < code) :
    bankReading code = ofSigned 8 (bankTemp code) ∨ bankReading code = ofSigned 8 (bankTemp code + 1) := by
  have hcold := bankTemp_lt h
  unfold bankReading
  dsimp only
  rw [if_neg (by omega)]
  split
  · exact .inr rfl
  · exact .inl rfl

theorem exec_huTempSample {s : State} (hup : s.up = true) (code : Nat) : exec (.huTempSample code) s =
    .next { s with hold := { s.hold with temp := bankTemp code, tempRead := bankReading code, kt := ktOf (bankTemp code) } } := by
  have hrow : exec (.huTempSample code) s = execHuTempSample code s := rfl
  rw [hrow, execHuTempSample, whenUp_runs _ hup]

theorem exec_huTestStart {s : State} (hup : s.up = true) : exec .huTestStart s =
    if s.testOk && s.hold.lastTest + s.stored oHuTestPeriod * (86400 * Config.sec) ≤ s.gtc then .next s.startTest else .next s := by
  have hrow : exec .huTestStart s = execHuTestStart s := rfl
  rw [hrow, execHuTestStart, whenUp_runs _ hup]

theorem exec_huTestNow {s t : State} {r : OdReq} {role : Role} (h : s.ReceivesWrite r oHuTestNow role t) :
    exec (.huTestNow r) s = (ofExcept0 t t.testNowCmd).answered r := by
  have hrow : exec (.huTestNow r) s = odRow oHuTestNow (fun _ => true) r s := rfl
  rw [hrow, odRow_answered h rfl (by decide) (isLimited_eq_false (by decide))]
  rfl

end Sys2Proof.Machine

open Sys2Proof Sys2Proof.Machine in
/-- Settles O45: a sample is measured, watched or taken by the estimate, judged and followed by a recomputation, whose warnings
reach neither the bank nor its settings. That a HU_TEST_NOW which may not start is refused with STATE is the model's deduction
(DEDUCED, log entry 71), as is when the charger is on (DEDUCED, log entry 70); that the reading of HU_TEMP is one of the two
neighbouring whole degrees (DESIGN CHOICE, log entry 69), and what an estimate does without a current or a fall of the voltage
(DESIGN CHOICE, log entry 68), are its choices. -/
theorem holdUpBank : Obligations.HoldUpBank := by
  unfold Obligations.HoldUpBank
  refine ⟨?_, ?_, ?_⟩
  · intro s v i hup code amps
    have hexec := exec_huSample hup v i
    generalize hu : (s.sampled v i).judged = u at hexec
    have hreading : u.hold.reading = (code * 75 / 4, ((i % 4096 * 375 / 64 : Nat) : Int) - 12000, code) := by
      rw [← hu, judged_reading, sampled_reading]
      rfl
    obtain ⟨hmv, hma, hcode⟩ : u.hold.mv = code * 75 / 4 ∧ u.hold.ma = ((i % 4096 * 375 / 64 : Nat) : Int) - 12000 ∧
        u.hold.code = code := by
      simpa [HoldUp.reading] using hreading
    obtain ⟨e, d, hkept⟩ := recompute_kept u
    refine ⟨u.recompute, hexec, ?_, ?_, ?_, ?_, ?_, fun htest => ?_, fun v0 nc htest => ?_, fun v0 v1 nc htest => ?_⟩
    · rw [hkept, ← hmv]
    · rw [hkept, ← hma]
    · rw [hkept, ← hcode]
    · rw [recompute_hold, recompute_allowance, ← hcode]
      rfl
    · rw [recompute_hold, recompute_allowance, ← hcode]
      rfl
    · rw [recompute_bankState, hkept, ← hu]
      exact judged_sampled_idle htest v i
    · rw [hkept, ← hu]
      exact judged_sampled_first htest v i
    · rw [recompute_bankState, hkept, ← hu]
      exact judged_sampled_rest htest v i
  · intro s hup
    refine ⟨fun code => ⟨exec_huTempSample hup code, bankReading_near⟩, fun hok hdue => ⟨s.startTest, ?_, rfl, rfl, rfl⟩,
      fun hnot => ?_⟩
    · rw [exec_huTestStart hup, if_pos (by simp [hok, hdue])]
    · rw [exec_huTestStart hup, if_neg]
      rcases hnot with h | h
      · simp [h]
      · simp [Nat.not_le.mpr h]
  · intro s t r role h
    have hexec := exec_huTestNow h
    refine ⟨fun hok => ⟨t.startTest, ?_, rfl, rfl, rfl⟩, fun hbad => ?_⟩
    · rw [hexec, State.testNowCmd, if_pos hok]
      rfl
    · rw [hexec, State.testNowCmd, if_neg (by simp [hbad])]
      rfl
end

section
/-! The flush (R483, R484, R519 to R522): PWR_FAIL_N, the steps, and what follows the last of them. -/

namespace Sys2Proof.Machine

open Sys2Proof

/-! ## What the clearing of a warm reset leaves (R460, R520) -/

/-- R221, R477: the clocks and the hold-up bank. -/
def State.clocksBank (s : State) : ClkSt × HoldUp := (s.clk, s.hold)

theorem clk_of_clocksBank {s t : State} (h : t.clocksBank = s.clocksBank) : t.clk = s.clk := congrArg Prod.fst h

theorem hold_of_clocksBank {s t : State} (h : t.clocksBank = s.clocksBank) : t.hold = s.hold := congrArg Prod.snd h

theorem foldl_clocksBank {α : Type} {g : State → α → State} (h : ∀ u x, (g u x).clocksBank = u.clocksBank) (l : List α) (s : State) :
    (l.foldl g s).clocksBank = s.clocksBank :=
  List.foldlRecOn (motive := fun u : State => u.clocksBank = s.clocksBank) l g rfl fun u hu x _ => (h u x).trans hu

theorem flushMail_clocksBank (s : State) : s.flushMail.clocksBank = s.clocksBank := by
  refine foldl_clocksBank (fun u c => ?_) _ s
  dsimp only
  generalize (if (u.chan c).tx.isSome then 1 else 0) + (if (u.chan c).rx.isSome then 1 else 0) = n
  split <;> rfl

theorem rotateKey_clocksBank (s : State) (key : Nat) : (s.rotateKey key).clocksBank = s.clocksBank := rfl

theorem rotateTenants_clocksBank (s : State) : s.rotateTenants.clocksBank = s.clocksBank :=
  foldl_clocksBank (fun u t => rotateKey_clocksBank u (t + 1)) _ s

theorem activate_clocksBank (s : State) : s.activate.clocksBank = s.clocksBank := by
  have hsec : ∀ (u : State) (x : SecSt), State.clocksBank { u with sec := x } = u.clocksBank := fun _ _ => rfl
  unfold State.activate
  split
  · rfl
  · dsimp only
    rw [hsec, rotateTenants_clocksBank, hsec]

/-- R520: the warm reset keeps the counter and the record of the flush, and begins at the verification of the firmware. -/
theorem warmReset_spec (s : State) : s.warmReset.clk = s.clk ∧ s.warmReset.hold = { s.hold with test := none } ∧
    s.warmReset.sys.flush = none ∧ s.warmReset.sys.halted = false ∧ s.warmReset.sys.step = 2 ∧ s.warmReset.sys.warm = true := by
  have hkept : s.flushMail.activate.clocksBank = s.clocksBank := (activate_clocksBank _).trans (flushMail_clocksBank s)
  have hclk : s.flushMail.activate.clk = s.clk := clk_of_clocksBank hkept
  have hhold : s.flushMail.activate.hold = s.hold := hold_of_clocksBank hkept
  unfold State.warmReset
  generalize s.flushMail.activate = u at hclk hhold
  rw [← hhold]
  exact ⟨hclk, rfl, rfl, rfl, rfl, rfl⟩

/-! ## FLUSH_STEP_DONE (R483, R521) -/

/-- R483: the flush has ended and is recorded. -/
def State.flushed (s : State) (f : Flush) : State :=
  { s with hold := { s.hold with pfCount := s.hold.pfCount + 1, pfMs := (s.gtc - f.began) / Config.ms, pfBytes := s.dirtyBytes }
           sys := { s.sys with flush := none } }

/-- R469, R471, R475, R483, R520: what follows a flush while RST_N stands, by its cause. -/
def State.afterFlush (s : State) (why : FlushFor) : State :=
  match why with
  | .powerFail => { s with sys := { s.sys with halted := true, ledFault := 1 } }
  | .haltFault => { s with sys := { s.sys with halted := true, ledFault := 1 } }
  | .clockFault => s.fatal 3
  | .reset => s.enterReset
  | .warm => s.warmReset

theorem endFlush_reset {s : State} (h : s.sys.rstLow = true ∨ s.sys.releasePending = true) (f : Flush) :
    s.endFlush f = (s.flushed f).enterReset := if_pos (Bool.or_eq_true_iff.mpr h)

theorem endFlush_stands {s : State} (hrst : s.sys.rstLow = false) (hrelease : s.sys.releasePending = false) (f : Flush) :
    s.endFlush f = (s.flushed f).afterFlush f.why := if_neg (by simp [hrst, hrelease])

/-- R483: the count, the dirty bytes and the end of the flush stand after whatever follows it. -/
def State.Recorded (s t : State) : Prop :=
  t.sys.flush = none ∧ t.hold.pfCount = s.hold.pfCount + 1 ∧ t.hold.pfBytes = s.dirtyBytes

theorem rstCold_recorded (s : State) (f : Flush) : s.Recorded (s.flushed f).rstCold := ⟨rfl, rfl, rfl⟩

theorem enterReset_recorded (s : State) (f : Flush) : s.Recorded (s.flushed f).enterReset := by
  cases h : (s.flushed f).sys.releasePending with
  | false => rw [enterReset_held h]; exact rstCold_recorded s f
  | true => rw [enterReset_released h]; exact rstCold_recorded s f

theorem afterFlush_recorded (s : State) (f : Flush) (why : FlushFor) : s.Recorded ((s.flushed f).afterFlush why) := by
  cases why with
  | powerFail => exact ⟨rfl, rfl, rfl⟩
  | haltFault => exact ⟨rfl, rfl, rfl⟩
  | clockFault => exact ⟨rfl, rfl, rfl⟩
  | reset => exact enterReset_recorded s f
  | warm =>
    obtain ⟨-, hhold, hflush, -⟩ := warmReset_spec (s.flushed f)
    refine ⟨hflush, ?_, ?_⟩
    · exact (congrArg HoldUp.pfCount hhold).trans rfl
    · exact (congrArg HoldUp.pfBytes hhold).trans rfl

theorem endFlush_recorded (s : State) (f : Flush) : s.Recorded (s.endFlush f) := by
  by_cases h : s.sys.rstLow = true ∨ s.sys.releasePending = true
  · rw [endFlush_reset h]
    exact enterReset_recorded s f
  · obtain ⟨hrst, hrelease⟩ : s.sys.rstLow = false ∧ s.sys.releasePending = false := by simpa using h
    rw [endFlush_stands hrst hrelease]
    exact afterFlush_recorded s f f.why

theorem exec_flushStepDone {s : State} {f : Flush} (hrun : s.sys.inReset = false) (hflush : s.sys.flush = some f) :
    exec .flushStepDone s =
      let s1 := if f.step = 3 then s.flushJournal else if f.step = 4 then s.flushData else s
      if f.step < 5 then .next { s1 with sys := { s1.sys with flush := some { f with step := f.step + 1 } } }
      else .next (s1.endFlush f) := by
  have hrow : exec .flushStepDone s = execFlushStepDone s := rfl
  rw [hrow, execFlushStepDone, if_neg (by simp [hrun]), hflush]

theorem exec_flushStepDone_idle {s : State} (h : s.sys.inReset = true ∨ s.sys.flush = none) :
    exec .flushStepDone s = .next s := by
  have hrow : exec .flushStepDone s = execFlushStepDone s := rfl
  rw [hrow, execFlushStepDone]
  split
  · rfl
  case isFalse hrun =>
    rw [h.resolve_left hrun]

theorem flushData_flash (s : State) :
    s.flushData.flash = if s.flash.erasingFlush then s.flash else { s.flash with flushed := s.flash.wbuf } := by
  unfold State.flushData
  split <;> rfl

theorem exec_pwrFailAssert {s : State} (hup : s.up = true) (ns : Nat) :
    exec (.pwrFailAssert ns) s =
      if ns < 100 then .next s
      else
        match s.sys.flush with
        | some f => .next { s with sys :=
            { s.sys with pwrFail := true, flush := some { f with why := if f.why = .warm then .powerFail else f.why } } }
        | none => .next (s.beginFlush .powerFail) := by
  have hrow : exec (.pwrFailAssert ns) s = execPwrFailAssert ns s := rfl
  rw [hrow, execPwrFailAssert, whenUp_runs _ hup] <;> rfl

end Sys2Proof.Machine

open Sys2Proof Sys2Proof.Machine in
/-- Settles O46: each step of a flush by its number, and the last by what follows it: a reset while RST_N is low or was released,
else what the cause of the flush asks. That every flush, whatever its cause, is counted with its dirty bytes as it ends, and what
follows it, is the model's deduction (DEDUCED, log entry 73), and so is the loss that begins a flush (log entry 66); what the LED
shows is its choice (DESIGN CHOICE, log entry 65). -/
theorem flushSequence : Obligations.FlushSequence := by
  unfold Obligations.FlushSequence
  refine ⟨fun s ns hup => ⟨fun hshort => ?_, fun hlong hflush => ?_, fun f hlong hflush => ?_⟩, fun s => rfl,
    fun s h => exec_flushStepDone_idle h, fun s f hrun hflush => ⟨fun hstep => ?_, fun hlast => ?_⟩⟩
  · rw [exec_pwrFailAssert hup, if_pos hshort]
  · refine ⟨s.beginFlush .powerFail, ?_, ?_⟩
    · rw [exec_pwrFailAssert hup, if_neg (by omega), hflush]
    · rw [beginFlush_none hflush]
      exact ⟨rfl, Bool.or_true _, rfl, rfl⟩
  · rw [exec_pwrFailAssert hup, if_neg (by omega), hflush]
  · refine ⟨_, (exec_flushStepDone hrun hflush).trans (if_pos hstep), rfl, fun h3 => ?_, fun h4 => ?_, fun h3 h4 => ?_⟩
    · rw [if_pos h3]
      rfl
    · rw [if_neg (by omega), if_pos h4]
      exact flushData_flash s
    · rw [if_neg h3, if_neg h4]
  · have hexec : exec .flushStepDone s = .next (s.endFlush f) := by
      rw [exec_flushStepDone hrun hflush]
      dsimp only
      rw [if_neg (by omega), if_neg (by omega), if_neg (by omega)]
    obtain ⟨hended, hcount, hbytes⟩ := endFlush_recorded s f
    refine ⟨_, hexec, hended, hcount, hbytes, fun hrst hrelease => ?_, fun hrelease => ?_, fun hrst hrelease => ?_⟩
    · rw [endFlush_reset (.inl hrst), enterReset_held (s := s.flushed f) hrelease]
      exact ⟨rfl, rfl⟩
    · rw [endFlush_reset (.inr hrelease), enterReset_released (s := s.flushed f) hrelease]
      exact ⟨rfl, rfl, rfl⟩
    · rw [endFlush_stands hrst hrelease]
      refine ⟨fun h => ?_, fun h => ?_, fun h => ?_, fun h => ?_, fun h => ?_⟩ <;> rw [h]
      · exact ⟨rfl, rfl⟩
      · exact ⟨rfl, rfl⟩
      · exact ⟨rfl, rfl⟩
      · rw [State.afterFlush, enterReset_held (s := s.flushed f) hrelease]
        exact ⟨rfl, rfl⟩
      · obtain ⟨hclk, -, -, hhalted, hstep, hwarm⟩ := warmReset_spec (s.flushed f)
        exact ⟨hhalted, hstep, hwarm, congrArg ClkSt.gtc hclk⟩
end

section
/-! Start-up steps 2 and 3 (R513, R514, R522): the firmware slot that boots, and the alignment of the clocks. -/

namespace Sys2Proof.Machine

open Sys2Proof

/-! ## Step 2: the firmware (R460, R513) -/

/-- R460, R513: slot k may boot: it verifies, and its security version is not below FW_SVN. -/
def State.bootable (s : State) (fwOk k : Nat) : Bool :=
  bit fwOk k && (s.sec.svn == 0 || s.sec.svn ≤ (Tbl.get s.sec.fw {} k).svn)

theorem bootable_iff (s : State) (fwOk k : Nat) :
    s.bootable fwOk k = true ↔ bit fwOk k = true ∧ (s.sec.svn = 0 ∨ s.sec.svn ≤ (Tbl.get s.sec.fw {} k).svn) := by
  simp [State.bootable]

/-- R513: the active slot comes before the other. -/
theorem bootSlot_eq (s : State) (fwOk : Nat) : s.bootSlot fwOk =
    if s.bootable fwOk s.sec.active then some s.sec.active
    else if s.bootable fwOk (1 - s.sec.active) then some (1 - s.sec.active) else none := by
  have hfind : s.bootSlot fwOk = [s.sec.active, 1 - s.sec.active].find? (s.bootable fwOk) := rfl
  rw [hfind, List.find?_cons, List.find?_cons, List.find?_nil]
  cases s.bootable fwOk s.sec.active <;> cases s.bootable fwOk (1 - s.sec.active) <;> rfl

section Step

variable {s : State} {f : StartFacts}

theorem stepDone_two (h : s.sys.step = 2) :
    s.stepDone f = (s.bootSlot f.fwOk).elim (s.fatal 1) fun k => ((s.boot k).toStep (if s.sys.warm then 4 else 3)).loadHost := by
  unfold State.stepDone
  rw [h]
  cases s.bootSlot f.fwOk <;> rfl

/-- R513: the slot that boots is the active one, FW_SVN rises to its version, and the next step follows. -/
theorem stepDone_boots {k : Nat} (h : s.sys.step = 2) (hslot : s.bootSlot f.fwOk = some k) :
    (s.stepDone f).sec.active = k ∧ (s.stepDone f).sys.halted = s.sys.halted ∧
      (s.stepDone f).sys.step = (if s.sys.warm then 4 else 3) ∧
        (s.stepDone f).sec.svn = max s.sec.svn (Tbl.get s.sec.fw {} k).svn := by
  rw [stepDone_two h, hslot, Option.elim_some, loadHost_eq]
  exact ⟨rfl, rfl, rfl, rfl⟩

/-! ## Step 3: the clocks (R514) -/

theorem stepDone_three (h : s.sys.step = 3) :
    s.stepDone f =
      if !f.pllOk then s.fatal 2
      else if f.alignOk then State.toStep { s with clk := { s.clk with phase := some (s.clk.ticks % 20) } } 4
      else if s.sys.alignFails + 1 < 3 then { s with sys := { s.sys with alignFails := s.sys.alignFails + 1 } }
      else s.fatal 3 := by
  unfold State.stepDone
  rw [h]
  rfl

end Step

end Sys2Proof.Machine

open Sys2Proof Sys2Proof.Machine in
/-- Settles O51: one equation of `stepDone` for each of the two steps, and the slot that `bootSlot` finds. That the dividers take
their phase from the tick at which the alignment is confirmed is the model's deduction (DEDUCED, log entry 168). -/
theorem bootAndAlignment : Obligations.BootAndAlignment := by
  unfold Obligations.BootAndAlignment
  intro s f hup hflush ok boots
  have hhalted : s.sys.halted = false := by
    simp only [State.up, Bool.and_eq_true, Bool.not_eq_true'] at hup
    exact hup.1.2
  have hrow : ∀ {k : Nat} (_ : s.sys.step = k + 1), exec (.startupStepDone f) s = .next (s.stepDone f) :=
    fun hk => exec_startupStepDone_runs hup hflush (by omega) f
  have hboots : ∀ k, s.sys.step = 2 → s.bootSlot f.fwOk = some k → boots k := fun k hstep hslot => by
    obtain ⟨hactive, hrun, hnext, hsvn⟩ := stepDone_boots (f := f) hstep hslot
    exact ⟨_, hrow hstep, hactive, hrun.trans hhalted, hnext, hsvn⟩
  have hok : ∀ k, s.bootable f.fwOk k = true ↔ ok k := bootable_iff s f.fwOk
  refine ⟨fun hstep hactive => hboots _ hstep ?_, fun hstep hbad hother => hboots _ hstep ?_,
    fun hstep hbad hbad' => ⟨_, hrow hstep, ?_⟩, fun hstep hpll => ⟨_, hrow hstep, ?_⟩, fun hstep hpll halign => ?_,
    fun hstep hpll halign => ⟨fun hfew => ⟨_, hrow hstep, ?_⟩, fun hlast => ⟨_, hrow hstep, ?_⟩⟩⟩
  · rw [bootSlot_eq, if_pos ((hok _).mpr hactive)]
  · rw [bootSlot_eq, if_neg (mt (hok _).mp hbad), if_pos ((hok _).mpr hother)]
  · rw [stepDone_two hstep, bootSlot_eq, if_neg (mt (hok _).mp hbad), if_neg (mt (hok _).mp hbad')]
    exact ⟨rfl, rfl, rfl⟩
  · rw [stepDone_three hstep, if_pos (by simp [hpll])]
    exact ⟨rfl, rfl⟩
  · rw [hrow hstep, stepDone_three hstep, if_neg (by simp [hpll]), if_pos halign]
  · rw [stepDone_three hstep, if_neg (by simp [hpll]), if_neg (by simp [halign]), if_pos (by omega)]
    exact ⟨hstep, hhalted, rfl⟩
  · rw [stepDone_three hstep, if_neg (by simp [hpll]), if_neg (by simp [halign]), if_neg (by omega)]
    exact ⟨rfl, rfl⟩
end

section
/-! BIST on demand and the structural scan (R525 to R531). -/

namespace Sys2Proof.Machine

open Sys2Proof

/-! ## BIST_RUN (R527 to R529) -/

theorem State.ReceivesWrite.alive_after {s t : State} {r : OdReq} {key : Nat} {role : Role} (h : s.ReceivesWrite r key role t) :
    t.sec = s.sec := by
  obtain ⟨s1, haccept, -, -, ht⟩ := h.received
  rw [ht, acceptRequest_eq haccept, atServer_eq]
  rfl

theorem exec_bistRun {s t : State} {r : OdReq} {role : Role} (h : s.ReceivesWrite r oBistRun role t) :
    exec (.bistRun r) s = (match t.bistCmd (leNat r.data) with
      | (.ok u, _) => accept u
      | (.error _, u) => refuse u).answered r := by
  have hrow : exec (.bistRun r) s = odRow oBistRun (fun _ => true) r s := rfl
  rw [hrow, odRow_answered h rfl (by decide) (isLimited_eq_false (by decide)), normalValue_upper (by decide)]
  rfl

/-- R527: a run of the groups of a mask, or one that is DONE at once, has begun. -/
def State.bistBegun (s : State) (mask : Nat) : State :=
  { s with sys := { s.sys with bistState := if mask = 0 then 2 else 1, bistCause := 0, bistGroups := mask
                               bistBank := if bit mask 6 then some (0, 0) else none
                               groups := if bit mask 6 then Tbl.set s.sys.groups 6 { result := 1 } else s.sys.groups } }

theorem bistCmd_runs {t : State} {mask : Nat} (h : t.bistRefused mask = 0) (hblank : t.sec.lc ≠ 0) (hscrapped : t.sec.lc ≠ 5) :
    t.bistCmd mask = (.ok (t.bistBegun mask), t) := by
  unfold State.bistCmd
  dsimp only
  rw [if_neg (by simp [h, hblank, hscrapped])]
  rfl

/-- R529: a refusal records its case. -/
def State.bistNoted (s : State) (mask : Nat) : State :=
  { s with sys := { s.sys with bistState := if s.sys.bistState = 1 then 1 else 3, bistCause := s.bistRefused mask } }

theorem bistCmd_refused {t : State} {mask : Nat} (h : t.bistRefused mask ≠ 0 ∨ t.sec.lc = 0) :
    t.bistCmd mask = (.error stState, t.bistNoted mask) := by
  unfold State.bistCmd
  dsimp only
  rw [if_pos (by rcases h with h | h <;> simp [h])]
  rfl

/-! ## The end of a group (R525, R531) -/

/-- R525, R531: the result that a group ends with. -/
def groupResult (unit fails repairs : Nat) : BistGroup :=
  { result := if fails ≠ 0 then 3 else if repairs ≠ 0 then 2 else 1, unit := if fails ≠ 0 then unit else 0xFFFFFFFF
    fails := fails, repairs := repairs }

/-- R531: a group's result is recorded. -/
def State.withGroup (s : State) (g : Nat) (r : BistGroup) : State :=
  { s with sys := { s.sys with groups := Tbl.set s.sys.groups g r } }

theorem withGroup_group (s : State) (g : Nat) (r : BistGroup) : Tbl.find (s.withGroup g r).sys.groups g = some r := by
  rw [State.withGroup, Tbl.find_set, if_pos rfl]

/-- R531: the group leaves the run, and the last one ends it. -/
theorem endGroup_spec (s : State) (g : Nat) :
    (s.endGroup g).sys.groups = s.sys.groups ∧ (s.endGroup g).sys.bistGroups = setBit s.sys.bistGroups g false ∧
    (setBit s.sys.bistGroups g false = 0 → (s.endGroup g).sys.bistState = 2 ∧ (s.endGroup g).sys.bistMode = 2 ∧
      (s.endGroup g).sys.bistGtc = s.gtc) ∧
    (g = 6 → (s.endGroup g).sys.bistBank = none) ∧ (s.endGroup g).domains = s.domains := by
  unfold State.endGroup
  dsimp only
  split
  case isTrue hlast => exact ⟨rfl, hlast.symm, fun _ => ⟨rfl, rfl, rfl⟩, fun _ => rfl, rfl⟩
  case isFalse hmore => exact ⟨rfl, rfl, fun hlast => absurd hlast hmore, fun h => if_pos h, rfl⟩

/-- R531: group g ends now: it runs, it is not the memory's, and group 5 comes after the others. -/
def State.groupEnds (s : State) (g : Nat) : Prop :=
  g ≠ 6 ∧ s.sys.bistState = 1 ∧ bit s.sys.bistGroups g = true ∧ (g = 5 → s.sys.bistGroups % 32 = 0)

theorem exec_bistGroupDone {s : State} {g : Nat} (hup : s.up = true) (hg : g < 7) (h : s.groupEnds g) (unit fails repairs : Nat) :
    exec (.bistGroupDone g unit fails repairs) s = .next ((s.withGroup g (groupResult unit fails repairs)).endGroup g) := by
  have hrow : exec (.bistGroupDone g unit fails repairs) s = execBistGroupDone g unit fails repairs s := rfl
  obtain ⟨hmemory, hruns, hgroup, hlast⟩ := h
  rw [hrow, execBistGroupDone, if_neg (by omega), whenUp_runs _ hup, if_neg (by simpa [hmemory, hruns, hgroup] using hlast)]
  rfl

theorem exec_bistGroupDone_idle {s : State} {g : Nat} (hg : g < 7)
    (h : g = 6 ∨ s.sys.bistState ≠ 1 ∨ bit s.sys.bistGroups g = false ∨ (g = 5 ∧ s.sys.bistGroups % 32 ≠ 0))
    (unit fails repairs : Nat) : exec (.bistGroupDone g unit fails repairs) s = .next s := by
  have hrow : exec (.bistGroupDone g unit fails repairs) s = execBistGroupDone g unit fails repairs s := rfl
  rw [hrow, execBistGroupDone, if_neg (by omega)]
  refine whenUp_idle (if_pos ?_)
  simpa [or_assoc] using h

/-! ## The end of a bank (R528) -/

/-- R528: group 6 after the test of a bank. -/
def BistGroup.banked (g : BistGroup) (ok : Bool) (bank : Nat) : BistGroup :=
  if ok then g else { g with result := 3, unit := min g.unit bank, fails := g.fails + 1 }

/-- R528: the bank's result is recorded, and a Caravan that failed is held OFF. -/
def State.bankTested (s : State) (ok : Bool) (bank : Nat) : State :=
  let s1 := s.withGroup 6 ((Tbl.get s.sys.groups {} 6).banked ok bank)
  if !ok && bank < 48 then s1.caravanOff bank else s1

theorem exec_bistBankDone {s : State} {region bank : Nat} (hup : s.up = true) (h : s.sys.bistBank = some (region, bank)) (ok : Bool) :
    exec (.bistBankDone ok) s =
      let d := (s.bankTested ok bank).draw
      if Config.freeBool d.1 then .next { d.2 with sys := { d.2.sys with bistBank := some (region, bank + 1) } }
      else .next (d.2.endGroup 6) := by
  have hrow : exec (.bistBankDone ok) s = execBistBankDone ok s := rfl
  rw [hrow, execBistBankDone, whenUp_runs _ hup, h]
  rfl

theorem exec_bistBankDone_idle {s : State} (h : s.sys.bistBank = none) (ok : Bool) : exec (.bistBankDone ok) s = .next s := by
  have hrow : exec (.bistBankDone ok) s = execBistBankDone ok s := rfl
  rw [hrow, execBistBankDone]
  exact whenUp_idle (by rw [h])

theorem caravanOff_sys (s : State) (n : Nat) : (s.caravanOff n).sys = s.sys := by
  rw [State.caravanOff, State.updDomain_sys, sys_of_plant (clearCaravan_plant s n)]

theorem caravanOff_domain (s : State) (n : Nat) : ((s.caravanOff n).domain (carDomain n)).heldOff = true := by
  rw [State.caravanOff, updDomain_domain_self]

theorem bankTested_sys (s : State) (ok : Bool) (bank : Nat) :
    (s.bankTested ok bank).sys = (s.withGroup 6 ((Tbl.get s.sys.groups {} 6).banked ok bank)).sys := by
  unfold State.bankTested
  dsimp only
  split
  · exact caravanOff_sys _ bank
  · rfl

theorem bankTested_heldOff (s : State) {bank : Nat} (h : bank < 48) :
    ((s.bankTested false bank).domain (carDomain bank)).heldOff = true := by
  unfold State.bankTested
  dsimp only
  rw [if_pos (by simp [h])]
  exact caravanOff_domain _ bank

/-- R528: a further bank follows, or the group ends; the bank's result and the Caravan that is held OFF stand in both cases. -/
theorem exec_bistBankDone_spec {s : State} {region bank : Nat} (hup : s.up = true) (h : s.sys.bistBank = some (region, bank))
    (ok : Bool) : ∃ t, exec (.bistBankDone ok) s = .next t ∧
      t.sys.groups = (s.bankTested ok bank).sys.groups ∧ t.domains = (s.bankTested ok bank).domains ∧
      (t.sys.bistBank = some (region, bank + 1) ∨
        (t.sys.bistBank = none ∧ t.sys.bistGroups = setBit s.sys.bistGroups 6 false)) := by
  have hgroups : (s.bankTested ok bank).sys.bistGroups = s.sys.bistGroups := by
    rw [bankTested_sys]
    rfl
  rw [exec_bistBankDone hup h]
  dsimp only
  split
  · exact ⟨_, rfl, rfl, rfl, .inl rfl⟩
  · obtain ⟨hresults, hleft, -, hbank, hdomains⟩ := endGroup_spec (s.bankTested ok bank).draw.2 6
    exact ⟨_, rfl, hresults, hdomains, .inr ⟨hbank rfl, by rw [← hgroups]; exact hleft⟩⟩

/-! ## The scan (R527) -/

/-- R490, R531: SCAN_RUN is within FACTORY's reach in MANUFACTURE and RMA alone. -/
theorem lifeReach_oScanRun (lc : Nat) : lifeReach lc .factory oScanRun = true ↔ lc = 1 ∨ lc = 4 := by
  unfold lifeReach
  dsimp only
  split <;> simp_all [oScanRun, oLcState, oLcPending]

/-- R490, R527, R531: FACTORY alone may write SCAN_RUN. -/
theorem mayWrite_oScanRun (t : State) (role : Role) (v : Nat) :
    t.mayWrite role oScanRun v = true ↔ role = .factory ∧ (t.sec.lc = 1 ∨ t.sec.lc = 4) := by
  unfold State.mayWrite
  dsimp only
  rw [Bool.and_eq_true]
  cases role with
  | operator => simp
  | tenant id => simp [show tenantWrites oScanRun = false by decide]
  | factory => simp [lifeReach_oScanRun, show factoryWrites oScanRun = true by decide, show oScanRun ≠ oLcState by decide]

theorem writeCheck_oScanRun_rights {t : State} {role : Role} {data : Bytes}
    (h : t.mayWrite role oScanRun (normalValue oScanRun (leNat data)) = false) : t.writeCheck role oScanRun data = rRights := by
  have hrow : rowOf oScanRun = some ⟨0x7800, 1, 0x08, 1, 2, 1, .wo, 0, 1, 1, 0⟩ := by decide +kernel
  have hobject : isObject oScanRun = true := by decide +kernel
  unfold State.writeCheck
  rw [hrow]
  dsimp only
  rw [if_neg (by simp [hobject]), if_pos (by simp [h])]

theorem exec_scanRun {s t : State} {r : OdReq} {role : Role} (h : s.ReceivesWrite r oScanRun role t) :
    exec (.scanRun r) s = (ofExcept0 t t.scanCmd).answered r := by
  have hrow : exec (.scanRun r) s = odRow oScanRun (fun _ => true) r s := rfl
  rw [hrow, odRow_answered h rfl (by decide) (isLimited_eq_false (by decide)), normalValue_upper (by decide)]
  rfl

theorem exec_scanRun_refused {s t : State} {r : OdReq} {role : Role}
    (h : s.Admits r.src r.seq (enclaveServes oScanRun) role t) (hdata : r.data.length = 1)
    (hrights : ∀ v, t.mayWrite role oScanRun v = false) :
    exec (.scanRun r) s = .next ((t.setAsm r.src none).answer r.src 0x11 r.seq rRights 0 []) := by
  have hrow : exec (.scanRun r) s = odRow oScanRun (fun _ => true) r s := rfl
  have hkey : keyOf (oScanRun / 256) (oScanRun % 256) = oScanRun := keyOf_div_mod (by decide)
  have hfits : t.fitsTransport r.src r.data := ⟨by omega, fun _ => by omega⟩
  have hcheck : (t.setAsm r.src none).writeCheck role oScanRun r.data = rRights :=
    (writeCheck_setAsm ..).trans (writeCheck_oScanRun_rights (hrights _))
  rw [hrow, odRow, whenEnclave_runs _ h.up, if_neg (by simp), State.writeReq, hkey, gate_admits _ h,
    serveWrite_last hfits (assembled_first t r.src oScanRun le_rfl) rfl, writeObject_refused (by rw [hcheck]; decide), hcheck]

/-- R527: the scan begins once the start is over, in the two states of the life cycle that have it. -/
theorem scanCmd_ok {t : State} (hlc : t.sec.lc = 1 ∨ t.sec.lc = 4) (hstep : t.sys.step = 0) :
    ∃ u : State, t.scanCmd = .ok u ∧ u.sys.scan = true := by
  unfold State.scanCmd
  rw [if_neg (by rcases hlc with h | h <;> simp [h, hstep])]
  exact ⟨_, rfl, rfl⟩

theorem scanCmd_starting {t : State} (hstep : t.sys.step ≠ 0) : t.scanCmd = .error stState :=
  if_pos (by simp [hstep])

theorem up_of_scan {u : State} (h : u.sys.scan = true) : u.up = false := by
  simp [State.up, h]

/-- A write that passes its checks has the right to be made. -/
theorem mayWrite_of_passed {t : State} {role : Role} {data : Bytes} (h : t.writeCheck role oScanRun data = rOk) :
    t.mayWrite role oScanRun (normalValue oScanRun (leNat data)) = true := by
  by_contra hno
  rw [writeCheck_oScanRun_rights (by simpa using hno)] at h
  exact absurd h (by decide)

end Sys2Proof.Machine

open Sys2Proof Sys2Proof.Machine in
/-- Settles O54: what a write of BIST_RUN begins or refuses, one equation for the end of a group and one for that of a bank, and the
rights, the begin and the end of the scan. That a group beyond the seven stops with noSuchGroup is the model's choice (DESIGN
CHOICE, log entry 8), as are the units by which the groups record their parts (DESIGN CHOICE, log entry 106); whether a further
bank follows is stated nowhere, so the model takes a free value for it (DESIGN CHOICE, log entry 3). -/
theorem bistAndScan : Obligations.BistAndScan := by
  unfold Obligations.BistAndScan
  refine ⟨?run, ?group, ?idle, ?noGroup, ?noBank, ?bank, ?scan, ?rights, ?done⟩
  case run =>
    intro s t r role h v
    have hexec := exec_bistRun h
    refine ⟨fun hfree hblank => ⟨t.bistBegun v, ?_, rfl, rfl, rfl⟩, fun hbad => ⟨t.bistNoted v, ?_, rfl, rfl, rfl, rfl⟩⟩
    · rw [hexec, bistCmd_runs hfree hblank (by rw [h.alive_after]; exact h.alive)]
      rfl
    · rw [hexec, bistCmd_refused hbad]
      rfl
  case group =>
    intro s g unit fails repairs hup hg hmemory hruns hbit hlast
    obtain ⟨hresults, hleft, hended, -⟩ := endGroup_spec (s.withGroup g (groupResult unit fails repairs)) g
    exact ⟨_, _, exec_bistGroupDone hup hg ⟨hmemory, hruns, hbit, hlast⟩ unit fails repairs, hresults ▸ withGroup_group s g _, rfl,
      rfl, rfl, hleft, hended⟩
  case idle => exact fun s g unit fails repairs hg h => exec_bistGroupDone_idle hg h unit fails repairs
  case noGroup => exact fun s g unit fails repairs hg => if_pos hg
  case noBank => exact fun s ok h => exec_bistBankDone_idle h ok
  case bank =>
    intro s ok region bank hup h
    obtain ⟨t, hexec, hgroups, hdomains, hnext⟩ := exec_bistBankDone_spec hup h ok
    refine ⟨t, (Tbl.get s.sys.groups {} 6).banked ok bank, hexec, ?_, fun hbad => ?_, fun hok => ?_, fun hbad hcaravan => ?_, hnext⟩
    · rw [hgroups, bankTested_sys]
      exact withGroup_group s 6 _
    · rw [hbad]
      exact ⟨rfl, Nat.le_add_left 1 _⟩
    · rw [hok]
      rfl
    · rw [State.domain, hdomains, hbad]
      exact bankTested_heldOff s hcaravan
  case scan =>
    intro s t r role h
    have hexec := exec_scanRun h
    obtain ⟨-, hlc⟩ := (mayWrite_oScanRun t role _).mp (mayWrite_of_passed h.valid)
    refine ⟨fun hstep => ?_, fun hstep => ?_⟩
    · obtain ⟨u, hok, hscan⟩ := scanCmd_ok hlc hstep
      exact ⟨u, by rw [hexec, hok]; rfl, hscan, up_of_scan hscan⟩
    · rw [hexec, scanCmd_starting hstep]
      rfl
  case rights =>
    intro s t r role h hdata hwho
    refine exec_scanRun_refused h (by rw [hdata]; rfl) fun v => ?_
    rw [Bool.eq_false_iff, Ne, mayWrite_oScanRun]
    rintro ⟨hfactory, hlc⟩
    rcases hwho with hother | ⟨h1, h4⟩
    · exact hother hfactory
    · exact hlc.elim h1 h4
  case done =>
    intro s
    exact ⟨fun hscan => ⟨_, if_pos hscan, rfl, rfl, rfl, rfl, rfl⟩, fun hno => if_neg (by simp [hno])⟩
end

section
/-! Keys and evidence (R445, R452, R455 to R459): what the enclave signs, keeps, destroys and places. -/

namespace Sys2Proof.Machine

open Sys2Proof

/-! ## Streams that are held (R39, R232) -/

theorem dropBackfill_stream_ne (s : State) {n j : Nat} (h : j ≠ n) : (s.dropBackfill n).stream j = s.stream j := by
  unfold State.dropBackfill
  dsimp only
  split
  · rw [State.updSlot, State.stream_updDlv, if_neg h]
  · rfl

theorem parkStream_stream_ne (s : State) {n j : Nat} (h : j ≠ n) : (s.parkStream n).stream j = s.stream j := by
  unfold State.parkStream
  dsimp only
  rw [State.stream_updRun, if_neg h, State.stream_updDlv, if_neg h, dropBackfill_stream_ne _ h, endJobs_stream, State.takeSnapshot,
    State.stream_updStream, if_neg h]

theorem holdStream_stream_ne (s : State) (status : Nat) {n j : Nat} (h : j ≠ n) : (s.holdStream n status).stream j = s.stream j := by
  unfold State.holdStream
  rw [State.stream_updStream, if_neg h, parkStream_stream_ne s h]

theorem holdStream_keeps_held {s : State} {n : Nat} (h : (s.stream n).state = .held) (m status : Nat) :
    ((s.holdStream m status).stream n).state = .held := by
  by_cases hm : n = m
  · rw [hm]
    exact (holdStream_state s m status).1
  · rw [holdStream_stream_ne s status hm]
    exact h

/-- R39: each of several streams that are held goes HELD. -/
theorem foldl_holdStream_held {l : List Nat} {n : Nat} (h : n ∈ l) (s : State) (status : Nat) :
    ((l.foldl (fun (s : State) n => s.holdStream n status) s).stream n).state = .held :=
  foldl_of_mem (P := fun u : State => (u.stream n).state = .held) (g := fun (s : State) n => s.holdStream n status)
    (fun _ m hu => holdStream_keeps_held hu m status) (fun u => (holdStream_state u n status).1) h s

theorem foldl_holdStream_plant (l : List Nat) (s : State) (status : Nat) :
    (l.foldl (fun (s : State) n => s.holdStream n status) s).plant = s.plant :=
  foldl_plant (fun u n => holdStream_plant u n status) l s

/-! ## The destruction of keys (R459) -/

/-- R458, R459: a RUNNING stream uses a key that the tests name: a model of its image is released before and not after, or its
tenant's snapshot key goes. -/
def State.losesKey (s : State) (models snaps : Nat → Bool) (n : Nat) : Bool :=
  (s.stream n).state == .running &&
    (snaps (imageTenant (s.imageOf n)) || (imgModels (s.imageOf n).image).any fun d =>
      s.modelReleased (imageTenant (s.imageOf n)) d && !(s.dropKeys models snaps).modelReleased (imageTenant (s.imageOf n)) d)

theorem destroyKeys_eq (s : State) (models snaps : Nat → Bool) : s.destroyKeys models snaps =
    (((List.range Config.streams).filter (s.losesKey models snaps)).foldl (fun (s : State) n => s.holdStream n stModelNotReleased)
      s).dropKeys models snaps := rfl

/-- R459: the keys that go are those that the tests name. -/
theorem destroyKeys_sec (s : State) (models snaps : Nat → Bool) :
    (s.destroyKeys models snaps).sec = (s.dropKeys models snaps).sec := by
  have hsec := sec_of_plant (foldl_holdStream_plant
    ((List.range Config.streams).filter (s.losesKey models snaps)) s stModelNotReleased)
  rw [destroyKeys_eq]
  unfold State.dropKeys
  rw [hsec]

theorem destroyKeys_modelReleased (s : State) (models snaps : Nat → Bool) (tenant : Nat) (d : Bytes) :
    (s.destroyKeys models snaps).modelReleased tenant d = (s.dropKeys models snaps).modelReleased tenant d := by
  unfold State.modelReleased
  rw [destroyKeys_sec]

/-- R458: each RUNNING stream that used a key which is gone goes HELD. -/
theorem destroyKeys_held {s : State} {models snaps : Nat → Bool} {n : Nat} (hn : n < 64) (h : s.losesKey models snaps n = true) :
    ((s.destroyKeys models snaps).stream n).state = .held := by
  rw [destroyKeys_eq]
  exact foldl_holdStream_held (List.mem_filter.mpr ⟨List.mem_range.mpr hn, h⟩) s stModelNotReleased

theorem losesKey_of_model {s : State} {models snaps : Nat → Bool} {n : Nat} {d : Bytes} (hrun : (s.stream n).state = .running)
    (hd : d ∈ imgModels (s.imageOf n).image) (hbefore : s.modelReleased (imageTenant (s.imageOf n)) d = true)
    (hafter : (s.destroyKeys models snaps).modelReleased (imageTenant (s.imageOf n)) d = false) :
    s.losesKey models snaps n = true := by
  rw [destroyKeys_modelReleased] at hafter
  unfold State.losesKey
  rw [hrun, Bool.and_eq_true, Bool.or_eq_true, List.any_eq_true]
  exact ⟨rfl, .inr ⟨d, hd, by simp [hbefore, hafter]⟩⟩

/-! ## KEY_RELEASE (R455 to R459) -/

theorem exec_evidenceReq {s t : State} {r : OdReq} {role : Role} (h : s.ReceivesWrite r oEvidenceReq role t) :
    exec (.evidenceReq r) s = (ofExcept t (t.evidenceCmd r.data)).answered r := by
  have hrow : exec (.evidenceReq r) s = odRow oEvidenceReq (fun _ => true) r s := rfl
  rw [hrow, odRow_answered h rfl (by decide) (isLimited_eq_false (by decide))]
  rfl

theorem exec_lcAuthWrite {s t : State} {r : OdReq} {role : Role} (h : s.ReceivesWrite r oLcAuth role t) :
    exec (.lcAuthWrite r) s = State.wroteOk { t with sec := { t.sec with auth := r.data } } r := by
  have hrow : exec (.lcAuthWrite r) s = odRow oLcAuth (fun _ => true) r s := rfl
  rw [hrow, odRow_answered h rfl (by decide) (isLimited_eq_false (by decide))]
  rfl

/-- A byte of a string is a digit of its little-endian value. -/
theorem fieldAt_byte (b : Bytes) (o : Nat) : fieldAt b o 1 = leNat b / 256 ^ o % 256 := by
  induction o generalizing b with
  | zero =>
    cases b with
    | nil => rfl
    | cons x b =>
      have hx := x.isLt
      simp only [fieldAt, List.drop_zero, List.take_succ_cons, List.take_zero, leNat]
      omega
  | succ o ih =>
    cases b with
    | nil => simp [fieldAt, leNat]
    | cons x b =>
      have hx := x.isLt
      have hrest : (x.toNat + 256 * leNat b) / 256 = leNat b := by omega
      rw [leNat, pow_succ', ← Nat.div_div_eq_div_mul, hrest, ← ih b]
      rfl

/-- R455: KIND of a release message is its byte 6. -/
theorem releaseKind_eq (b : Bytes) : releaseKind (leNat b) = fieldAt b 6 1 := by
  rw [fieldAt_byte, releaseKind]
  norm_num

theorem odRow_keyRelease {s t : State} {r : OdReq} {role : Role} (h : s.ReceivesWrite r oKeyRelease role t) {own : Nat → Bool}
    (hown : own (leNat r.data) = true) : odRow oKeyRelease own r s = (ofExcept t (t.keyReleaseCmd r.data)).answered r := by
  rw [odRow_answered h hown (by decide) (isLimited_eq_false (by decide))]
  rfl

/-- R456: the release that a message with a model key leaves. -/
def State.modelKeyed (s : State) (b : Bytes) : Release :=
  { Tbl.get s.sec.released { tenant := fieldAt b 8 4, digest := sliceZ b 48 64, key := (s.unwrap b).getD [] } (releaseOf b) with
    key := (s.unwrap b).getD [] }

/-- R456: the device with the model key of a message. -/
def State.withModelKey (s : State) (b : Bytes) : State :=
  { s with sec := { s.sec with released := Tbl.set s.sec.released (releaseOf b) (s.modelKeyed b) } }

/-- R456: the device with the snapshot key of a message. -/
def State.withSnapshotKey (s : State) (b : Bytes) : State :=
  { s with sec := { s.sec with snapKeys := Tbl.set s.sec.snapKeys (fieldAt b 8 4) ((s.unwrap b).getD []) } }

theorem withModelKey_release (s : State) (b : Bytes) :
    Tbl.find (s.withModelKey b).sec.released (releaseOf b) = some (s.modelKeyed b) := by
  rw [State.withModelKey, Tbl.find_set, if_pos rfl]

theorem withSnapshotKey_key (s : State) (b : Bytes) :
    Tbl.find (s.withSnapshotKey b).sec.snapKeys (fieldAt b 8 4) = some ((s.unwrap b).getD []) := by
  rw [State.withSnapshotKey, Tbl.find_set, if_pos rfl]

theorem modelKeyed_new {s : State} {b : Bytes} (h : Tbl.find s.sec.released (releaseOf b) = none) :
    (s.modelKeyed b).tenant = fieldAt b 8 4 ∧ (s.modelKeyed b).digest = sliceZ b 48 64 ∧ (s.modelKeyed b).loaded = false := by
  rw [State.modelKeyed, Tbl.get, h]
  exact ⟨rfl, rfl, rfl⟩

section KeyRelease

variable {t : State} {b : Bytes}

theorem keyReleaseCmd_refused (h : t.releaseCheck b ≠ stSuccess) : t.keyReleaseCmd b = .error (t.releaseCheck b) := if_pos h

variable (h : t.releaseCheck b = stSuccess)
include h

/-- R456: a model key is kept in the release of its tenant and slot. -/
theorem keyReleaseCmd_model (hkind : releaseKind (leNat b) = 0) : t.keyReleaseCmd b = .ok (t.withModelKey b) := by
  unfold State.keyReleaseCmd
  dsimp only
  rw [if_neg (not_not.mpr h), ← releaseKind_eq, hkind]
  rfl

theorem keyReleaseCmd_snapshot (hkind : releaseKind (leNat b) = 1) : t.keyReleaseCmd b = .ok (t.withSnapshotKey b) := by
  unfold State.keyReleaseCmd
  dsimp only
  rw [if_neg (not_not.mpr h), ← releaseKind_eq, hkind]
  rfl

theorem keyReleaseCmd_withdraw (hkind : releaseKind (leNat b) = 2) :
    t.keyReleaseCmd b = .ok (t.destroyKeys (fun k => k == releaseOf b) fun _ => false) := by
  unfold State.keyReleaseCmd
  dsimp only
  rw [if_neg (not_not.mpr h), ← releaseKind_eq, hkind]
  rfl

end KeyRelease

/-- R459: a withdrawal destroys the release that it names and no other key. -/
theorem withdrawn_keys (t : State) (k : Nat) :
    (t.destroyKeys (fun x => x == k) fun _ => false).sec.released = t.sec.released.filter (fun e => e.1 ≠ k) ∧
    (t.destroyKeys (fun x => x == k) fun _ => false).sec.snapKeys = t.sec.snapKeys := by
  rw [destroyKeys_sec]
  refine ⟨?_, List.filter_eq_self.mpr fun _ _ => rfl⟩
  show t.sec.released.filter (fun e => !(e.1 == k)) = _
  simp only [Bool.beq_eq_decide_eq, decide_not]

/-! ## MODEL_WEIGHTS_LOADED (R457) -/

theorem exec_modelWeightsLoaded_eq (slot : Nat) (s : State) : exec (.modelWeightsLoaded slot) s = execModelWeightsLoaded slot s := rfl

section Weights

variable {s : State} {slot : Nat} {x : Release} {ref : Bytes} (hup : s.up = true) (hrm : s.rmRuns 2 = true) (hstep : s.sys.step = 0)
  (hfind : Tbl.find s.sec.released slot = some x) (hnew : x.loaded = false) (href : s.modelRefOf x.tenant x.digest = some ref)
include hup hrm hstep hfind hnew href

/-- R457: the weights of a release are placed where its tag and digest agree. -/
theorem exec_modelWeightsLoaded_places {w : Bytes} (h : (s.ciphertext ref).bind (openWeights x.key x.digest) = some w) :
    ∃ (t : State) (y : Release), exec (.modelWeightsLoaded slot) s = .next t ∧ Tbl.find t.sec.released slot = some y ∧
      y.loaded = true ∧ y.weights = w ∧ y.key = x.key ∧ t.out = s.out ++ [.modelReport x.tenant (slot % 256) stSuccess] := by
  rw [exec_modelWeightsLoaded_eq, execModelWeightsLoaded, whenRm_runs _ hup hrm (.inl hstep), hfind]
  dsimp only
  rw [if_neg (by simp [hnew]), href]
  dsimp only
  rw [h]
  exact ⟨_, _, rfl, (Tbl.find_set ..).trans (if_pos rfl), rfl, rfl, rfl, rfl⟩

/-- R457: else the release is dropped. -/
theorem exec_modelWeightsLoaded_drops (h : (s.ciphertext ref).bind (openWeights x.key x.digest) = none) :
    ∃ t : State, exec (.modelWeightsLoaded slot) s = .next t ∧ t.sec.released = Tbl.del s.sec.released slot ∧
      t.out = s.out ++ [.modelReport x.tenant (slot % 256) stModelDigest] := by
  rw [exec_modelWeightsLoaded_eq, execModelWeightsLoaded, whenRm_runs _ hup hrm (.inl hstep), hfind]
  dsimp only
  rw [if_neg (by simp [hnew]), href]
  dsimp only
  rw [h]
  exact ⟨_, rfl, rfl, rfl⟩

end Weights

theorem whenRm_idle {p : Nat} {s : State} {f : State → Res} (h : f s = .next s) : whenRm p s f = .next s := by
  refine whenUp_idle ?_
  split
  · exact h
  · rfl

theorem exec_modelWeightsLoaded_idle {s : State} {slot : Nat}
    (h : ∀ x, Tbl.find s.sec.released slot = some x → x.loaded = true ∨ s.modelRefOf x.tenant x.digest = none) :
    exec (.modelWeightsLoaded slot) s = .next s := by
  rw [exec_modelWeightsLoaded_eq, execModelWeightsLoaded]
  refine whenRm_idle ?_
  split
  case h_1 => rfl
  case h_2 x hfind =>
    rcases h x hfind with hloaded | hnone
    · exact if_pos hloaded
    · split
      · rfl
      · rw [hnone]

end Sys2Proof.Machine

open Sys2Proof Sys2Proof.Machine in
/-- Settles O42: one equation for each command of the enclave, the keys that a destruction leaves, and the streams that lose one.
That a release is named by its tenant and slot is the model's deduction (DEDUCED, log entry 102); that the outcome of the placing
of weights is reported, and how, is its choice (DESIGN CHOICE, log entry 103). -/
theorem keysAndEvidence : Obligations.KeysAndEvidence := by
  unfold Obligations.KeysAndEvidence
  refine ⟨fun s t r role h => ⟨fun hlc => ?_, fun h2 h3 => ?_⟩, fun s t r role h => exec_lcAuthWrite h, fun s t r role h => ?release,
    fun s slot x ref hup hrm hstep hfind hnew href =>
      ⟨fun w => exec_modelWeightsLoaded_places hup hrm hstep hfind hnew href,
        exec_modelWeightsLoaded_drops hup hrm hstep hfind hnew href⟩,
    fun s slot h => exec_modelWeightsLoaded_idle h⟩
  · rw [exec_evidenceReq h, State.evidenceCmd, if_neg (by rcases hlc with h | h <;> simp [h])]
    exact ⟨_, rfl, rfl, _, List.mem_append_right _ (List.mem_singleton_self _), rfl, rfl, rfl⟩
  · rw [exec_evidenceReq h, State.evidenceCmd, if_pos (by simp [h2, h3])]
    rfl
  case release =>
    have hrow : ∀ k, releaseKind (leNat r.data) = k →
        odRow oKeyRelease (fun v => releaseKind v == k) r s = (ofExcept t (t.keyReleaseCmd r.data)).answered r :=
      fun k hk => odRow_keyRelease h (beq_iff_eq.mpr hk)
    have hrefused : ∀ k, releaseKind (leNat r.data) = k → t.releaseCheck r.data ≠ stSuccess →
        odRow oKeyRelease (fun v => releaseKind v == k) r s = t.wroteNot r (t.releaseCheck r.data) := fun k hk hbad => by
      rw [hrow k hk, keyReleaseCmd_refused hbad]
      rfl
    refine ⟨fun hkind => ⟨fun hok => ?_, hrefused 0 hkind⟩, fun hkind => ⟨fun hok => ?_, hrefused 1 hkind⟩,
      fun hkind => ⟨fun hok => ?_, hrefused 2 hkind⟩⟩
    · exact ⟨t.withModelKey r.data, t.modelKeyed r.data, (hrow 0 hkind).trans (by rw [keyReleaseCmd_model hok hkind]; rfl),
        withModelKey_release t r.data, rfl, modelKeyed_new⟩
    · exact ⟨t.withSnapshotKey r.data, (hrow 1 hkind).trans (by rw [keyReleaseCmd_snapshot hok hkind]; rfl),
        withSnapshotKey_key t r.data, rfl⟩
    · obtain ⟨hreleased, hsnaps⟩ := withdrawn_keys t (releaseOf r.data)
      refine ⟨_, (hrow 2 hkind).trans (by rw [keyReleaseCmd_withdraw hok hkind]; rfl), hreleased, hsnaps, ?_⟩
      rintro n hn hrun ⟨d, hd, hbefore, hafter⟩
      exact destroyKeys_held hn (losesKey_of_model hrun hd hbefore hafter)
end

section
/-! The life cycle and the tenant scrub (R445, R446, R461 to R464). -/

namespace Sys2Proof.Machine

open Sys2Proof

/-! ## LC_STATE (R445, R446) -/

theorem transitionOk_self (t : State) (factory : Bool) : t.transitionOk factory t.sec.lc = false := by
  unfold State.transitionOk
  split <;> simp_all

/-- R445, R446: a transition that the table gives may begin now. -/
def State.mayTransit (t : State) (factory : Bool) (v : Nat) : Prop :=
  t.transitionOk factory v = true ∧ t.streamsIdle = true ∧ t.sec.pending = none ∧ t.sec.scrub = none ∧ Tbl.get t.drawn 0 oLcState < 5

theorem exec_lcStateWrite {s t : State} {r : OdReq} {role : Role} (h : s.ReceivesWrite r oLcState role t) :
    exec (.lcStateWrite r) s =
      (if leNat r.data = t.sec.lc then accept t else ofExcept0 t (t.lcCmd (role == .factory) (leNat r.data))).answered r := by
  have hrow : exec (.lcStateWrite r) s = odRow oLcState (fun _ => true) r s := rfl
  have happly : t.applyObject r.src role oLcState (leNat r.data) r.data =
      if leNat r.data = t.sec.lc then accept t else ofExcept0 t (t.lcCmd (role == .factory) (leNat r.data)) := rfl
  rw [hrow, odRow_received h rfl (keyOf_div_mod (by decide)), writeObject_passed h.valid, normalValue_upper (by decide), ← happly]
  dsimp only
  rw [if_neg (by simp)]
  rfl

/-- R446: the state with which the command of a transition works: RMA takes a new nonce. -/
def State.transiting (t : State) (v : Nat) : State :=
  if v = 4 then { t with sec := { t.sec with nonceNo := t.sec.nonceNo + 1 } } else t

theorem transiting_drawn (t : State) (v : Nat) : (t.transiting v).drawn = t.drawn := by
  unfold State.transiting
  split <;> rfl

theorem transiting_pending (t : State) (v : Nat) : (t.transiting v).sec.pending = t.sec.pending := by
  unfold State.transiting
  split <;> rfl

theorem lcCmd_ok {t : State} {factory : Bool} {v : Nat} (h : t.mayTransit factory v) : t.lcCmd factory v =
    if v = 4 || v = 5 then .ok ((t.transiting v).beginScrub 0xFFFFFFFF (some v)) else .ok ((t.transiting v).burnState v) := by
  obtain ⟨hgiven, hidle, hpending, hscrub, hleft⟩ := h
  unfold State.lcCmd
  dsimp only
  rw [if_neg (by simp [hgiven, hidle, hpending, hscrub, hleft])]
  rfl

theorem lcCmd_refused {t : State} {factory : Bool} {v : Nat} (h : ¬ t.mayTransit factory v) : t.lcCmd factory v = .error stState := by
  unfold State.lcCmd
  dsimp only
  rw [if_pos]
  by_contra hno
  refine h ?_
  simp only [Bool.or_eq_true, not_or] at hno
  obtain ⟨⟨⟨⟨hgiven, hidle⟩, hpending⟩, hscrub⟩, hleft⟩ := hno
  exact ⟨by simpa using hgiven, by simpa using hidle, by simpa using hpending, by simpa using hscrub, by simpa using hleft⟩

/-- R459: the destruction of keys leaves the counts, the resets and the failed set. -/
theorem destroyKeys_kept (s : State) (models snaps : Nat → Bool) : (s.destroyKeys models snaps).drawn = s.drawn ∧
    (s.destroyKeys models snaps).sys = s.sys ∧ (s.destroyKeys models snaps).ft = s.ft ∧ (s.destroyKeys models snaps).clk = s.clk := by
  have hplant := foldl_holdStream_plant ((List.range Config.streams).filter (s.losesKey models snaps)) s stModelNotReleased
  rw [destroyKeys_eq]
  generalize List.foldl _ s _ = u at hplant
  have hdrawn : u.drawn = s.drawn := (congrArg State.drawn hplant :)
  have hsys : u.sys = s.sys := sys_of_plant hplant
  have hft : u.ft = s.ft := ft_of_plant hplant
  have hclk : u.clk = s.clk := (congrArg State.clk hplant :)
  exact ⟨hdrawn, hsys, hft, hclk⟩

/-- R446, R459: the burning of a state draws a count and destroys every released key. -/
theorem burnState_spec (s : State) (v : Nat) :
    (s.burnState v).sec = { s.sec with pending := some v, released := [], snapKeys := [] } ∧
    Tbl.get (s.burnState v).drawn 0 oLcState = Tbl.get s.drawn 0 oLcState + 1 ∧ (s.burnState v).sys = s.sys ∧
    (s.burnState v).ft = s.ft ∧ (s.burnState v).gtc = s.gtc := by
  obtain ⟨hdrawn, hsys, hft, hclk⟩ : s.destroyAllKeys.drawn = s.drawn ∧ s.destroyAllKeys.sys = s.sys ∧
      s.destroyAllKeys.ft = s.ft ∧ s.destroyAllKeys.clk = s.clk := destroyKeys_kept s _ _
  have hsec : s.destroyAllKeys.sec = { s.sec with released := [], snapKeys := [] } := by
    rw [State.destroyAllKeys, destroyKeys_sec]
    simp [State.dropKeys]
  unfold State.burnState
  dsimp only
  rw [hsec, hdrawn, hsys, hft, Tbl.get_upd_self]
  exact ⟨rfl, rfl, rfl, rfl, congrArg ClkSt.gtc hclk⟩

/-! ## SCRUB_TENANT (R461) -/

theorem odRow_scrubTenant {s t : State} {r : OdReq} {role : Role} (h : s.ReceivesWrite r oScrubTenant role t) {own : Nat → Bool}
    (hown : own (leNat r.data) = true) : odRow oScrubTenant own r s = (match t.scrubCmd (leNat r.data) with
      | .ok u => accept u
      | .error st => refuse t (if st = stScrub then st else 0)).answered r := by
  rw [odRow_answered h hown (by decide) (isLimited_eq_false (by decide)), normalValue_upper (by decide)]
  rfl

theorem odRow_scrubTenant_ok {s t u : State} {r : OdReq} {role : Role} (h : s.ReceivesWrite r oScrubTenant role t) {own : Nat → Bool}
    (hown : own (leNat r.data) = true) (hcmd : t.scrubCmd (leNat r.data) = .ok u) : odRow oScrubTenant own r s = u.wroteOk r := by
  rw [odRow_scrubTenant h hown, hcmd]
  rfl

theorem odRow_scrubTenant_error {s t : State} {r : OdReq} {role : Role} {st : Nat} (h : s.ReceivesWrite r oScrubTenant role t)
    {own : Nat → Bool} (hown : own (leNat r.data) = true) (hcmd : t.scrubCmd (leNat r.data) = .error st) :
    odRow oScrubTenant own r s = t.wroteNot r (if st = stScrub then st else 0) := by
  rw [odRow_scrubTenant h hown, hcmd]
  rfl

section ScrubCmd

variable {t : State} {v : Nat}

theorem scrubCmd_busy (h : t.sec.scrub ≠ none) : t.scrubCmd v = .error stScrub :=
  if_pos (Option.isSome_iff_ne_none.mpr h)

variable (h : t.sec.scrub = none)
include h

theorem scrubCmd_device (hidle : t.streamsIdle = true) (hmirrors : t.ft.mirrors = []) :
    t.scrubCmd 0xFFFFFFFF = .ok (t.beginScrub 0xFFFFFFFF none) := by
  simp [State.scrubCmd, h, hidle, hmirrors]

theorem scrubCmd_device_refused (hbusy : t.streamsIdle = false ∨ t.ft.mirrors ≠ []) : t.scrubCmd 0xFFFFFFFF = .error stState := by
  rcases hbusy with hbusy | hbusy <;> simp [State.scrubCmd, h, hbusy]

theorem scrubCmd_tenant (hv : v ≠ 0xFFFFFFFF) (hslot : (t.tenantSlot v).isSome = true) : t.scrubCmd v = .ok (t.beginScrub v none) := by
  simp [State.scrubCmd, h, hv, hslot]

theorem scrubCmd_tenant_refused (hv : v ≠ 0xFFFFFFFF) (hslot : t.tenantSlot v = none) : t.scrubCmd v = .error stState := by
  simp [State.scrubCmd, h, hv, hslot]

end ScrubCmd

/-! ## SCRUB_STEP_DONE (R462, R463) -/

theorem exec_scrubStepDone_eq (s : State) : exec .scrubStepDone s = execScrubStepDone s := rfl

theorem exec_scrubStepDone_idle {s : State} (h : s.sec.scrub = none) : exec .scrubStepDone s = .next s := by
  rw [exec_scrubStepDone_eq, execScrubStepDone]
  exact whenRm_idle (by rw [h])

theorem exec_scrubStepDone {s : State} {b : Scrub} (hup : s.up = true) (hrm : s.rmRuns 2 = true) (hstep : s.sys.step = 0)
    (h : s.sec.scrub = some b) : exec .scrubStepDone s = .next (s.scrubStep b) := by
  rw [exec_scrubStepDone_eq, execScrubStepDone, whenRm_runs _ hup hrm (.inl hstep), h]

/-- R462: the scrub stands at another step. -/
def State.scrubAt (s : State) (b : Scrub) : State := { s with sec := { s.sec with scrub := some b } }

section At

variable (s : State) (b : Scrub)

theorem scrubAt_scrub : (s.scrubAt b).sec.scrub = some b := rfl
theorem scrubAt_sec : (s.scrubAt b).sec = { s.sec with scrub := some b } := rfl
theorem scrubAt_images : (s.scrubAt b).images = s.images := rfl
theorem scrubAt_pds : (s.scrubAt b).fabric.pds = s.fabric.pds := rfl
theorem scrubAt_released : (s.scrubAt b).sec.released = s.sec.released := rfl
theorem scrubAt_snapKeys : (s.scrubAt b).sec.snapKeys = s.sec.snapKeys := rfl
theorem scrubAt_granules : (s.scrubAt b).granules = s.granules := rfl
theorem scrubAt_nss : (s.scrubAt b).host.nss = s.host.nss := rfl

/-- R463: a scrub of the same scope scrubs the same tenants. -/
theorem scrubs_scrubAt {s : State} {x : Scrub} (t : State) (hscrub : s.sec.scrub = some x) (hscope : b.scope = x.scope) (n : Nat) :
    (t.scrubAt b).scrubs n = s.scrubs n := by
  simp only [State.scrubs, scrubAt_scrub, hscrub, hscope]

end At

section Steps

variable {s : State} {b : Scrub}

theorem scrubStep_one (h : b.step = 1) :
    s.scrubStep b = (s.scrubQuiesce b).scrubAt { b with step := 2, qps := s.scrubQps b.covers } := by
  unfold State.scrubStep
  rw [h]
  rfl

theorem scrubStep_two (h : b.step = 2) : s.scrubStep b = (s.scrubKeys b).scrubAt { b with step := 3 } := by
  unfold State.scrubStep
  rw [h]
  rfl

theorem scrubStep_three (h : b.step = 3) : s.scrubStep b = s.scrubAt { b with step := 4 } := by
  unfold State.scrubStep
  rw [h]
  rfl

theorem scrubStep_four (h : b.step = 4) : s.scrubStep b =
    if b.overwriting then ((s.scrubKeyIds b).foldl State.overwriteKey s).scrubAt { b with step := 5, overwriting := false }
    else if s.flag oScrubOverwrite then (s.scrubRotate b).scrubAt { b with overwriting := true }
    else (s.scrubRotate b).scrubAt { b with step := 5 } := by
  unfold State.scrubStep
  rw [h]
  rfl

theorem scrubStep_overwritten (h : b.step = 4) (hover : b.overwriting = true) : s.scrubStep b =
    ((s.scrubKeyIds b).foldl State.overwriteKey s).scrubAt { b with step := 5, overwriting := false } :=
  (scrubStep_four h).trans (if_pos hover)

theorem scrubStep_rotated (h : b.step = 4) (hover : b.overwriting = false) : s.scrubStep b =
    (s.scrubRotate b).scrubAt (if s.flag oScrubOverwrite then { b with overwriting := true } else { b with step := 5 }) := by
  rw [scrubStep_four h, if_neg (by simp [hover])]
  split <;> rfl

theorem scrubStep_five (h : b.step = 5) :
    s.scrubStep b = ((s.scrubSpaces b).foldl State.scrubSpace s).scrubAt { b with step := 6 } := by
  unfold State.scrubStep
  rw [h]
  rfl

theorem scrubStep_six (h : b.step = 6) : s.scrubStep b = s.scrubReport b := by
  unfold State.scrubStep
  rw [h]
  rfl

end Steps

/-! ### Step 1: images and domains -/

theorem giveBack_images_pds (s : State) (x : Option (Nat × Nat × Nat)) :
    (s.giveBack x).images = s.images ∧ (s.giveBack x).fabric.pds = s.fabric.pds := by
  unfold State.giveBack
  split
  · exact ⟨rfl, rfl⟩
  · exact ⟨rfl, rfl⟩

theorem foldl_giveBack_images_pds (l : List (Nat × Nat × Nat)) (s : State) :
    (l.foldl (fun (s : State) x => s.giveBack (some x)) s).images = s.images ∧
    (l.foldl (fun (s : State) x => s.giveBack (some x)) s).fabric.pds = s.fabric.pds := by
  refine List.foldlRecOn (motive := fun u : State => u.images = s.images ∧ u.fabric.pds = s.fabric.pds) l _ ⟨rfl, rfl⟩
    fun u hu x _ => ?_
  obtain ⟨himages, hpds⟩ := giveBack_images_pds u (some x)
  exact ⟨himages.trans hu.1, hpds.trans hu.2⟩

/-- R462: after step 1 no image and no protection domain of the scope is left. -/
theorem scrubQuiesce_clears (s : State) (b : Scrub) :
    (∀ i ∈ (s.scrubQuiesce b).images, b.covers (imageTenant i.2) = false) ∧
    ∀ q ∈ (s.scrubQuiesce b).fabric.pds, b.covers q.2 = false := by
  unfold State.scrubQuiesce
  dsimp only
  generalize State.dropReceives _ b.covers = s2
  obtain ⟨himages, hpds⟩ := foldl_giveBack_images_pds (s2.fabric.backs fun f => b.covers f.tenant)
    { s2 with images := s2.images.filter fun i => !b.covers (imageTenant i.2), fabric := s2.fabric.scrub b.covers }
  rw [himages, hpds]
  refine ⟨fun i hi => ?_, fun q hq => ?_⟩
  · simpa using (List.mem_filter.mp hi).2
  · simpa using (List.mem_filter.mp hq).2

/-! ### Steps 2 and 4: keys -/

theorem scrubKeys_clears (s : State) (b : Scrub) :
    (∀ k ∈ (s.scrubKeys b).sec.released, b.covers (k.1 / 256) = false) ∧ ∀ k ∈ (s.scrubKeys b).sec.snapKeys, b.covers k.1 = false := by
  rw [State.scrubKeys, destroyKeys_sec]
  refine ⟨fun k hk => ?_, fun k hk => ?_⟩
  · simpa using (List.mem_filter.mp hk).2
  · simpa using (List.mem_filter.mp hk).2

theorem foldl_overwriteKey_sec (l : List Nat) (s : State) : (l.foldl State.overwriteKey s).sec = s.sec :=
  List.foldlRecOn (motive := fun u : State => u.sec = s.sec) l _ rfl fun _ hu _ _ => hu

/-- R462: the granules of each key that is overwritten read as zeros. -/
theorem foldl_overwriteKey_granules {l : List Nat} {k : Nat} (hk : k ∈ l) (s : State) :
    Tbl.get (l.foldl State.overwriteKey s).granules 0 k = 2 := by
  have hself : ∀ u : State, Tbl.get (u.overwriteKey k).granules 0 k = 2 := fun u => Tbl.get_set_self ..
  refine foldl_of_mem (P := fun u : State => Tbl.get u.granules 0 k = 2) (g := State.overwriteKey) (fun u j hu => ?_) hself hk s
  show Tbl.get (Tbl.set u.granules j 2) 0 k = 2
  rw [Tbl.get_set]
  split
  · rfl
  · exact hu

/-- R253, R462: each rotation of a key raises its number. -/
theorem foldl_rotateKey_dramKeys (l : List Nat) (s : State) (k : Nat) :
    Tbl.get (l.foldl State.rotateKey s).sec.dramKeys 0 k = Tbl.get s.sec.dramKeys 0 k + l.count k := by
  induction l generalizing s with
  | nil => rfl
  | cons j l ih =>
    have hone : Tbl.get (s.rotateKey j).sec.dramKeys 0 k = Tbl.get s.sec.dramKeys 0 k + if j = k then 1 else 0 := by
      show Tbl.get (Tbl.upd s.sec.dramKeys 0 j (· + 1)) 0 k = _
      rw [Tbl.get_upd]
      by_cases hk : k = j
      · simp [hk]
      · simp [hk, Ne.symm hk]
    rw [List.foldl_cons, ih, hone, List.count_cons]
    simp only [beq_iff_eq]
    omega

theorem scrubKeyIds_device {b : Scrub} (h : b.scope = 0xFFFFFFFF) (s : State) {k : Nat} (hlow : 1 ≤ k) (hhigh : k ≤ 33) :
    (s.scrubKeyIds b).count k = 1 := by
  have hids : s.scrubKeyIds b = (List.range 33).map (· + 1) := if_pos h
  have hnodup : ((List.range 33).map (· + 1)).Nodup := by decide
  rw [hids]
  exact List.count_eq_one_of_mem hnodup (List.mem_map.mpr ⟨k - 1, List.mem_range.mpr (by omega), by omega⟩)

theorem scrubKeyIds_tenant {b : Scrub} {s : State} {k : Nat} (h : b.scope ≠ 0xFFFFFFFF) (hslot : s.tenantSlot b.scope = some k) :
    (s.scrubKeyIds b).count (k + 1) = 1 := by
  have hids : s.scrubKeyIds b = (s.tenantSlot b.scope).toList.map (· + 1) := if_neg h
  rw [hids, hslot]
  simp

/-! ### Step 5: namespaces -/

theorem mem_updCorpus {s : State} {nsid : Nat} {f : Corpus → Corpus} {e : Nat × Namespace} (h : e ∈ (s.updCorpus nsid f).host.nss) :
    e.1 = nsid ∨ e ∈ s.host.nss := by
  unfold State.updCorpus at h
  split at h
  · rcases Tbl.mem_set _ _ _ _ h with h | h
    · exact .inl (by rw [h])
    · exact .inr h
  · exact .inr h

/-- R340: the end of an open sample touches its own namespace alone. -/
theorem mem_endSample {s : State} {nsid idx status : Nat} {e : Nat × Namespace} (h : e ∈ (s.endSample nsid idx status).host.nss) :
    e.1 = nsid ∨ e ∈ s.host.nss := by
  have hclosed : ∀ o : Option Nat, e ∈ (s.closeSample nsid idx status o).host.nss → e.1 = nsid ∨ e ∈ s.host.nss := fun o ho => by
    have hnss : (s.closeSample nsid idx status o).host.nss =
        ((s.endIngestJob nsid idx status).updCorpus nsid fun c => { c with open_ := Tbl.del c.open_ idx }).host.nss := by
      cases o <;> rfl
    rw [hnss] at ho
    rw [← endIngestJob_nss s nsid idx status]
    exact mem_updCorpus ho
  unfold State.endSample at h
  split at h
  · exact .inr h
  · split at h
    · exact .inr h
    case h_2 o _ =>
      dsimp only at h
      split at h
      · rw [nss_of_work (vendorDone_work _ _ _ _ _)] at h
        exact hclosed o.stream h
      · exact hclosed o.stream h

theorem mem_endOpenSamples {s : State} {nsid : Nat} {x : Namespace} {e : Nat × Namespace}
    (h : e ∈ (s.endOpenSamples nsid x).host.nss) : e.1 = nsid ∨ e ∈ s.host.nss := by
  unfold State.endOpenSamples at h
  split at h
  case h_2 => exact .inr h
  case h_1 c _ =>
    revert h
    refine List.foldlRecOn (motive := fun u : State => e ∈ u.host.nss → e.1 = nsid ∨ e ∈ s.host.nss) c.open_ _ .inr
      fun u hu o _ h => ?_
    exact (mem_endSample h).elim .inl hu

theorem mem_del {α : Type} {t : Tbl α} {k : Nat} {e : Nat × α} : e ∈ Tbl.del t k ↔ e ∈ t ∧ e.1 ≠ k := by
  simp [Tbl.del]

theorem dropNamespace_nss (s : State) (nsid : Nat) (x : Namespace) :
    (s.dropNamespace nsid x).host.nss = Tbl.del (s.endOpenSamples nsid x).host.nss nsid := by
  unfold State.dropNamespace State.settleSpares
  dsimp only
  rw [followPools_nss]
  rfl

/-- R280: a namespace that is dropped leaves the others. -/
theorem mem_dropNamespace {s : State} {nsid : Nat} {x : Namespace} {e : Nat × Namespace} (h : e ∈ (s.dropNamespace nsid x).host.nss) :
    e ∈ s.host.nss := by
  rw [dropNamespace_nss] at h
  obtain ⟨hmem, hkey⟩ := mem_del.mp h
  exact (mem_endOpenSamples hmem).resolve_left hkey

theorem dropNamespace_key {s : State} {nsid : Nat} {x : Namespace} {e : Nat × Namespace}
    (h : e ∈ (s.dropNamespace nsid x).host.nss) : e.1 ≠ nsid := by
  rw [dropNamespace_nss] at h
  exact (mem_del.mp h).2

/-- R462: every namespace of the scope that is a corpus is still to be scrubbed. -/
def State.SpacesLeft (s : State) (b : Scrub) (rest : List (Nat × Namespace)) : Prop :=
  ∀ e ∈ s.host.nss, b.covers e.2.tenant = true → e.2.corpus = none ∨ e ∈ rest

theorem scrubSpace_corpus_nss (s : State) {x : Nat × Namespace} (h : x.2.corpus.isSome = true) :
    (s.scrubSpace x).host.nss = (s.dropNamespace x.1 x.2).host.nss := by
  unfold State.scrubSpace
  rw [if_pos h]

theorem scrubSpace_plain_nss (s : State) {x : Nat × Namespace} (h : x.2.corpus.isSome = false) :
    (s.scrubSpace x).host.nss = Tbl.set s.host.nss x.1 { x.2 with key := s.host.keyGen } := by
  unfold State.scrubSpace
  rw [if_neg (by simp [h])]
  rfl

theorem scrubSpace_left {s : State} {b : Scrub} {x : Nat × Namespace} {rest : List (Nat × Namespace)}
    (h : s.SpacesLeft b (x :: rest)) : (s.scrubSpace x).SpacesLeft b rest := by
  have hother : ∀ e ∈ s.host.nss, e ≠ x ∨ x.2.corpus = none → b.covers e.2.tenant = true → e.2.corpus = none ∨ e ∈ rest := by
    intro e he hne hcovered
    rcases h e he hcovered with hnone | hmem
    · exact .inl hnone
    · rcases List.mem_cons.mp hmem with heq | hrest
      · exact .inl (by rw [heq]; exact hne.resolve_left (not_not.mpr heq))
      · exact .inr hrest
  intro e he
  cases hcorpus : x.2.corpus.isSome with
  | true =>
    rw [scrubSpace_corpus_nss s hcorpus] at he
    exact hother e (mem_dropNamespace he) (.inl fun heq => dropNamespace_key he (by rw [heq]))
  | false =>
    have hnone : x.2.corpus = none := by simpa using hcorpus
    rw [scrubSpace_plain_nss s hcorpus] at he
    rcases Tbl.mem_set _ _ _ _ he with heq | hmem
    · exact fun _ => .inl (by rw [heq]; exact hnone)
    · exact hother e hmem (.inr hnone)

/-- R462: after step 5 no namespace of the scope is a corpus. -/
theorem foldl_scrubSpace_clears {b : Scrub} (l : List (Nat × Namespace)) {s : State} (h : s.SpacesLeft b l) :
    (l.foldl State.scrubSpace s).SpacesLeft b [] := by
  induction l generalizing s with
  | nil => exact h
  | cons x l ih => exact ih (scrubSpace_left h)

theorem scrubSpaces_left (s : State) (b : Scrub) : s.SpacesLeft b (s.scrubSpaces b) :=
  fun _ he hcovered => .inr (List.mem_filter.mpr ⟨he, hcovered⟩)

/-! ### Step 6: the report -/

/-- R462, R463: the end of the scrub is recorded. -/
def State.scrubEnded (s : State) (b : Scrub) : State :=
  { s with sec := { s.sec with scrub := none, scrubDone := true, scrubGtc := s.gtc }
           fabric := if b.scope = 0xFFFFFFFF then s.fabric.freeze false else s.fabric
           ft := if b.scope = 0xFFFFFFFF then { s.ft with autoRejoin := true } else s.ft }

/-- R446: the state of the life cycle that waits for the scrub is burnt. -/
def State.scrubBurnt (s : State) (b : Scrub) : State := b.thenState.elim (s.scrubEnded b) (s.scrubEnded b).burnState

theorem beginWarm_kept (s : State) (cause : Nat) :
    (s.beginWarm cause).sec = s.sec ∧ (s.beginWarm cause).ft = s.ft ∧ (s.beginWarm cause).drawn = s.drawn := by
  by_cases hbusy : s.sys.step ≠ 0 ∨ s.sys.flush ≠ none
  · rw [busy_beginWarm hbusy]
    exact ⟨rfl, rfl, rfl⟩
  · obtain ⟨hstep, hflush⟩ : s.sys.step = 0 ∧ s.sys.flush = none := by simpa using hbusy
    rw [serving_beginWarm hstep hflush, beginFlush_none (s := { s with sys := { s.sys with cause := cause } }) hflush]
    exact ⟨rfl, rfl, rfl⟩

/-- R522: the warm reset that waits for the end of a scrub begins. -/
def State.warmAfter (s : State) : State := State.beginWarm { s with sec := { s.sec with waits := false } } 4

theorem warmAfter_spec {s u : State} (hsys : u.sys = s.sys) (hgtc : u.gtc = s.gtc) (hstep : s.sys.step = 0) :
    u.warmAfter.sec = { u.sec with waits := false } ∧ u.warmAfter.ft = u.ft ∧ u.warmAfter.drawn = u.drawn ∧
    (s.sys.flush = none → u.warmAfter.sys.flush = some { why := .warm, began := s.gtc } ∧ u.warmAfter.sys.cause = 4) := by
  obtain ⟨hsec, hft, hdrawn⟩ := beginWarm_kept { u with sec := { u.sec with waits := false } } 4
  refine ⟨hsec, hft, hdrawn, fun hflush => ?_⟩
  rw [← hsys] at hstep hflush
  obtain ⟨hcause, hbegun⟩ := sys_beginWarm (s := { u with sec := { u.sec with waits := false } }) hstep hflush 4
  exact ⟨hbegun.trans (by rw [← hgtc]; rfl), hcause⟩

theorem scrubReport_eq (s : State) (b : Scrub) : s.scrubReport b =
    if (s.scrubBurnt b).sec.waits then (s.scrubBurnt b).warmAfter else s.scrubBurnt b := by
  unfold State.scrubReport State.scrubBurnt
  cases b.thenState <;> rfl

/-- R462, R463: what the last step of a scrub leaves before a warm reset that waits. -/
theorem scrubBurnt_spec (s : State) (b : Scrub) :
    (s.scrubBurnt b).sec.scrub = none ∧ (s.scrubBurnt b).sec.scrubDone = true ∧ (s.scrubBurnt b).sec.scrubGtc = s.gtc ∧
    (s.scrubBurnt b).sec.waits = s.sec.waits ∧ (b.scope = 0xFFFFFFFF → (s.scrubBurnt b).ft.autoRejoin = true) ∧
    (s.scrubBurnt b).sys = s.sys ∧ (s.scrubBurnt b).gtc = s.gtc ∧
    (b.thenState = none → (s.scrubBurnt b).sec.pending = s.sec.pending ∧ (s.scrubBurnt b).sec.released = s.sec.released) ∧
    ∀ v, b.thenState = some v → (s.scrubBurnt b).sec.pending = some v ∧ (s.scrubBurnt b).sec.released = [] ∧
      (s.scrubBurnt b).sec.snapKeys = [] ∧ Tbl.get (s.scrubBurnt b).drawn 0 oLcState = Tbl.get s.drawn 0 oLcState + 1 := by
  have hrejoin : b.scope = 0xFFFFFFFF → (s.scrubEnded b).ft.autoRejoin = true := fun h =>
    congrArg FtSt.autoRejoin (if_pos h)
  unfold State.scrubBurnt
  cases hthen : b.thenState with
  | none => exact ⟨rfl, rfl, rfl, rfl, hrejoin, rfl, rfl, fun _ => ⟨rfl, rfl⟩, nofun⟩
  | some v =>
    obtain ⟨hsec, hdrawn, hsys, hft, hgtc⟩ := burnState_spec (s.scrubEnded b) v
    rw [Option.elim_some, hsec, hsys, hft]
    refine ⟨rfl, rfl, rfl, rfl, hrejoin, rfl, hgtc, nofun, fun w hw => ?_⟩
    cases hw
    exact ⟨rfl, rfl, rfl, hdrawn⟩

end Sys2Proof.Machine

open Sys2Proof Sys2Proof.Machine in
/-- Settles O43: the commands of LC_STATE and SCRUB_TENANT by their conditions, and one equation for each step of a scrub with what
the step clears. A write of LC_STATE of its present value is no change (R8, which the model reads over R445) and is accepted; that a
transition is refused while another waits or a scrub runs is the model's choice, which no rule and no entry of the log states. What
step 1 does to a stream is its deduction (DEDUCED, log entry 104), and a new release key is its choice (DESIGN CHOICE, log entry
100; DESIGN CHOICE, log entry 105). -/
theorem lifeCycleAndScrub : Obligations.LifeCycleAndScrub := by
  unfold Obligations.LifeCycleAndScrub
  refine ⟨?lc, ?tenant, fun s => exec_scrubStepDone_idle, ?steps⟩
  case lc =>
    intro s t r role h v ok
    have hexec := exec_lcStateWrite h
    have hother : ok → v ≠ t.sec.lc := fun hok heq => by
      obtain ⟨hgiven, -⟩ := hok
      rw [heq, transitionOk_self] at hgiven
      exact Bool.false_ne_true hgiven
    refine ⟨fun hok h4 h5 => ⟨(t.transiting v).burnState v, ?_, ?_⟩,
      fun hok hscrub => ⟨(t.transiting v).beginScrub 0xFFFFFFFF (some v), _, ?_, rfl, rfl, rfl, rfl, ?_⟩,
      fun hsame => ?_, fun hbad hne => ?_⟩
    · rw [hexec, if_neg (hother hok), lcCmd_ok hok, if_neg (by simp [v, h4, h5])]
      rfl
    · obtain ⟨hsec, hdrawn, -⟩ := burnState_spec (t.transiting v) v
      rw [hsec, hdrawn, transiting_drawn]
      exact ⟨rfl, rfl, rfl, rfl⟩
    · rw [hexec, if_neg (hother hok), lcCmd_ok hok, if_pos (by simpa [v] using hscrub)]
      rfl
    · obtain ⟨-, -, hpending, -⟩ := hok
      exact (transiting_pending t v).trans hpending
    · rw [hexec, if_pos hsame]
      rfl
    · rw [hexec, if_neg hne, lcCmd_refused hbad]
      rfl
  case tenant =>
    intro s t r role h v
    have htenant : v ≠ 0xFFFFFFFF → decide (v ≠ 0xFFFFFFFF) = true := decide_eq_true
    have hdevice : v = 0xFFFFFFFF → (v == 0xFFFFFFFF) = true := beq_iff_eq.mpr
    refine ⟨fun hv hslot hscrub => ?_, fun hv hidle hmirrors hscrub => ?_, fun hv hbusy hscrub => ?_, fun hscrub hv => ?_,
      fun hscrub hv => ?_, fun hscrub hv hslot => ?_⟩
    · exact ⟨_, _, odRow_scrubTenant_ok (own := fun v => v ≠ 0xFFFFFFFF) h (htenant hv) (scrubCmd_tenant hscrub hv hslot), rfl,
      rfl, rfl, rfl,
        by simp [State.scrubs, State.beginScrub, v]⟩
    · exact ⟨_, _, odRow_scrubTenant_ok (own := (· == 0xFFFFFFFF)) h (hdevice hv) (hv ▸ scrubCmd_device hscrub hidle hmirrors),
        rfl, rfl, rfl, rfl⟩
    · exact odRow_scrubTenant_error (own := (· == 0xFFFFFFFF)) h (hdevice hv) (hv ▸ scrubCmd_device_refused hscrub hbusy)
    · exact odRow_scrubTenant_error (own := fun v => v ≠ 0xFFFFFFFF) h (htenant hv) (scrubCmd_busy hscrub)
    · exact odRow_scrubTenant_error (own := (· == 0xFFFFFFFF)) h (hdevice hv) (scrubCmd_busy hscrub)
    · exact odRow_scrubTenant_error (own := fun v => v ≠ 0xFFFFFFFF) h (htenant hv) (scrubCmd_tenant_refused hscrub hv hslot)
  case steps =>
    intro s b hup hrm hstep hscrub
    have hexec := exec_scrubStepDone hup hrm hstep hscrub
    refine ⟨fun h => ?_, fun h => ?_, fun h => ?_, fun h hover => ?_, fun h hover => ?_, fun h => ?_, fun h => ?_⟩
    · rw [scrubStep_one h] at hexec
      refine ⟨_, hexec, scrubAt_scrub _ _, ?_⟩
      rw [scrubAt_images, scrubAt_pds]
      exact scrubQuiesce_clears s b
    · rw [scrubStep_two h] at hexec
      refine ⟨_, hexec, scrubAt_scrub _ _, ?_⟩
      rw [scrubAt_released, scrubAt_snapKeys]
      exact scrubKeys_clears s b
    · rw [scrubStep_three h] at hexec
      exact hexec
    · rw [scrubStep_overwritten h hover] at hexec
      refine ⟨_, hexec, ?_, fun k hk => ?_⟩
      · rw [scrubAt_sec, foldl_overwriteKey_sec]
      · rw [scrubAt_granules]
        exact foldl_overwriteKey_granules hk s
    · rw [scrubStep_rotated h hover] at hexec
      refine ⟨_, hexec, scrubs_scrubAt _ _ hscrub (by split <;> rfl), scrubAt_scrub _ _, fun hdevice k hlow hhigh => ?_,
        fun k hslot htenant => ?_⟩
      · have hcount := scrubKeyIds_device hdevice s hlow hhigh
        exact (foldl_rotateKey_dramKeys _ s k).trans (by rw [hcount])
      · have hcount := scrubKeyIds_tenant htenant hslot
        exact (foldl_rotateKey_dramKeys _ s (k + 1)).trans (by rw [hcount])
    · rw [scrubStep_five h] at hexec
      refine ⟨_, hexec, scrubAt_scrub _ _, fun x hx hcovered => ?_⟩
      rw [scrubAt_nss] at hx
      exact (foldl_scrubSpace_clears _ (scrubSpaces_left s b) x hx hcovered).resolve_right (List.not_mem_nil)
    · obtain ⟨hdone, hreport, hgtc, hwaits, hrejoin, hsys, hclock, hnothing, hburnt⟩ := scrubBurnt_spec s b
      rw [scrubStep_six h, scrubReport_eq] at hexec
      cases hw : s.sec.waits with
      | false =>
        rw [if_neg (by rw [hwaits, hw]; exact Bool.false_ne_true)] at hexec
        exact ⟨_, hexec, hdone, hreport, hgtc, hwaits.trans hw, hrejoin, fun _ => hsys, nofun, hnothing, hburnt⟩
      | true =>
        rw [if_pos (by rw [hwaits, hw])] at hexec
        obtain ⟨hsec, hft, hdrawn, hwarm⟩ := warmAfter_spec hsys hclock hstep
        refine ⟨_, hexec, ?_⟩
        rw [hsec, hft, hdrawn]
        exact ⟨hdone, hreport, hgtc, rfl, hrejoin, nofun, fun _ => hwarm, hnothing, hburnt⟩
end

section
/-! Watchdogs, mailbox channels and the registers of BAR0 (R310, R400 to R408, R415, R440). -/

namespace Sys2Proof.Machine

open Sys2Proof

/-! ## What notices leave (R410) -/

theorem notice_rm (s : State) (kind status subject detail p : Nat) : (s.notice kind status subject detail).rm p = s.rm p := by
  rw [notice_eq]
  rfl

theorem notice_sys (s : State) (kind status subject detail : Nat) : (s.notice kind status subject detail).sys = s.sys := by
  rw [notice_eq]

theorem pumpNotices_rm (s : State) (c p : Nat) : (s.pumpNotices c).rm p = s.rm p := by
  unfold State.pumpNotices
  split
  · split
    · rw [postHost_eq]
      rfl
    · rfl
  · split
    · split
      · rw [postHost_eq]
        rfl
      · rfl
    · rfl

/-! ## Watchdogs (R400, R401, R440) -/

/-- R400, R401: what the expiry of a processor's watchdog makes of its record. -/
def State.rmExpired (s : State) (p : Nat) : Rm :=
  let x := s.rm p
  let times := if x.hung then x.times else (x.times.filter fun t => s.gtc ≤ t + 60 * Config.sec) ++ [s.gtc]
  { x with expiries := x.expiries + 1, times := times, hung := false, state := if times.length < 3 || x.hung then 1 else 2 }

/-- R401: LED_FAULT is on once a processor is HALTED. -/
def State.ledAfter (s : State) (x : Rm) : Nat := if x.state = 1 then s.sys.ledFault else 1

theorem rm_updRm_self (s : State) (p : Nat) (f : Rm → Rm) : (s.updRm p f).rm p = f (s.rm p) := Tbl.get_upd_self s.rms {} p f

def State.expiring (s : State) (p : Nat) : State := s.updRm p fun _ => s.rmExpired p

theorem expiring_rm (s : State) (p : Nat) : (s.expiring p).rm p = s.rmExpired p := rm_updRm_self s p _

/-- R401: LED_FAULT goes on. -/
def State.faultOn (s : State) : State := { s with sys := { s.sys with ledFault := 1 } }

theorem faultOn_rm (s : State) (p : Nat) : s.faultOn.rm p = s.rm p := rfl

section Watchdog

variable {s : State} {p : Nat} (hp : p < 4) (hup : s.up = true)
include hp hup

theorem exec_watchdogExpiry (h : (s.rm p).state = 0) : ∃ t, exec (.watchdogExpiry p) s = .next t ∧ t.rm p = s.rmExpired p ∧
    t.sys.ledFault = s.ledAfter (s.rmExpired p) := by
  have hrow : exec (.watchdogExpiry p) s = execWatchdogExpiry p s := rfl
  rw [hrow, execWatchdogExpiry, withRm_runs _ hp hup]
  dsimp only
  rw [if_neg (by omega)]
  by_cases hrestart : (s.rmExpired p).state = 1
  · refine ⟨(s.expiring p).notice 5 0 p (s.rmExpired p).expiries, if_pos hrestart, ?_, ?_⟩
    · rw [notice_rm, expiring_rm]
    · rw [notice_sys, State.ledAfter, if_pos hrestart]
      rfl
  · refine ⟨(s.expiring p).faultOn.notice 6 0 p (s.rmExpired p).expiries, if_neg hrestart, ?_, ?_⟩
    · rw [notice_rm, faultOn_rm, expiring_rm]
    · rw [notice_sys, State.ledAfter, if_neg hrestart]
      rfl

theorem exec_watchdogExpiry_stopped (h : (s.rm p).state ≠ 0) : exec (.watchdogExpiry p) s = .next s := by
  have hrow : exec (.watchdogExpiry p) s = execWatchdogExpiry p s := rfl
  rw [hrow, execWatchdogExpiry, withRm_runs _ hp hup]
  exact if_pos h

theorem exec_ringmasterRestartDone_idle (h : (s.rm p).state ≠ 1) : exec (.ringmasterRestartDone p) s = .next s := by
  have hrow : exec (.ringmasterRestartDone p) s = execRingmasterRestartDone p s := rfl
  rw [hrow, execRingmasterRestartDone, withRm_runs _ hp hup, if_pos h]

theorem exec_ringmasterRestartDone (h : (s.rm p).state = 1) : ∃ t, exec (.ringmasterRestartDone p) s = .next t ∧
    t.rm p = { s.rm p with state := 0, lastRestart := s.gtc } := by
  have hrow : exec (.ringmasterRestartDone p) s = execRingmasterRestartDone p s := rfl
  rw [hrow, execRingmasterRestartDone, withRm_runs _ hp hup, if_neg (by omega)]
  refine ⟨_, rfl, ?_⟩
  rw [pumpNotices_rm, pumpNotices_rm]
  exact rm_updRm_self s p _

end Watchdog

theorem rmExpired_hung {s : State} {p : Nat} (h : (s.rm p).hung = true) :
    (s.rmExpired p).state = 1 ∧ (s.rmExpired p).times = (s.rm p).times := by
  simp [State.rmExpired, h]

theorem rmExpired_counted {s : State} {p : Nat} (h : (s.rm p).hung = false) : (s.rmExpired p).state =
    if ((s.rm p).times.filter fun t => s.gtc ≤ t + 60 * Config.sec).length < 2 then 1 else 2 := by
  have hshort : ∀ l : List Nat, (l ++ [s.gtc]).length < 3 ↔ l.length < 2 := fun l => by simp; omega
  simp only [State.rmExpired, h, Bool.or_false, decide_eq_true_eq, Bool.false_eq_true, if_false, hshort]

/-! ## Channels: what a change of one shows (R402) -/

theorem chan_updChan_self (s : State) (c : Nat) (f : Chan → Chan) : (s.updChan c f).chan c = f (s.chan c) := Tbl.get_upd_self ..

theorem chan_count (s : State) (key n c : Nat) : (s.count key n).chan c = s.chan c := rfl

theorem chan_touch (s : State) (d c : Nat) : (s.touch d).chan c = s.chan c := by
  rw [touch_eq]
  rfl

theorem chan_emit (s : State) (e : Emit) (c : Nat) : (s.emit e).chan c = s.chan c := rfl

theorem chan_raiseVector (s : State) (v c : Nat) : (s.raiseVector v).chan c = s.chan c := by
  rw [raiseVector_eq]
  rfl

theorem chan_wakeHost_self (s : State) (c : Nat) : (s.wakeHost c).chan c = { s.chan c with wake := true } := by
  unfold State.wakeHost
  dsimp only
  split
  · rw [chan_raiseVector, chan_updChan_self]
  · rw [chan_updChan_self]

/-- R406: the message that a device end posts to the host. -/
def State.toHost (s : State) (c sender seq : Nat) (body : Bytes) : MbxDir :=
  { ptr := (s.chan c).rxBase, len := body.length, seq := seq, sender := sender, body := body }

theorem chan_postHost_self (s : State) (c sender seq : Nat) (body : Bytes) : (s.postHost c sender seq body).chan c =
    { s.chan c with rx := some (s.toHost c sender seq body), posted := (s.chan c).posted + 1, wake := true } := by
  unfold State.postHost
  dsimp only
  rw [chan_wakeHost_self, chan_updChan_self]
  rfl

theorem out_postHost (s : State) (c sender seq : Nat) (body : Bytes) :
    ∃ l, (s.postHost c sender seq body).out = s.out ++ .dma (s.chan c).rxBase body :: l := by
  unfold State.postHost
  dsimp only
  obtain ⟨l, hl⟩ := wakeHost_out ((s.emit (.dma (s.chan c).rxBase body)).updChan c fun x =>
    { x with rx := some (s.toHost c sender seq body), posted := x.posted + 1 }) c
  exact ⟨l, hl.trans (List.append_assoc ..)⟩

/-- R410: a notice that follows a take leaves what the device ends of the channel have seen. -/
theorem pumpNotices_chan (s : State) (c : Nat) : ((s.pumpNotices c).chan c).taken = (s.chan c).taken ∧
    ((s.pumpNotices c).chan c).first = (s.chan c).first ∧
    (s.notices = [] → s.recovery = [] → (s.pumpNotices c).chan c = s.chan c) ∧ ∃ l, (s.pumpNotices c).out = s.out ++ l := by
  have hsame : (s.chan c).taken = (s.chan c).taken ∧ (s.chan c).first = (s.chan c).first ∧
      (s.notices = [] → s.recovery = [] → s.chan c = s.chan c) ∧ ∃ l, s.out = s.out ++ l :=
    ⟨rfl, rfl, fun _ _ => rfl, [], (List.append_nil _).symm⟩
  have hposts : ∀ (u : State) (sender : Nat) (body : Bytes), u.chan c = s.chan c → u.out = s.out →
      ((u.postHost c sender 0 body).chan c).taken = (s.chan c).taken ∧
      ((u.postHost c sender 0 body).chan c).first = (s.chan c).first ∧ ∃ l, (u.postHost c sender 0 body).out = s.out ++ l := by
    intro u sender body hchan hout
    obtain ⟨l, hl⟩ := out_postHost u c sender 0 body
    rw [chan_postHost_self, hchan, hl, hout]
    exact ⟨rfl, rfl, _, rfl⟩
  unfold State.pumpNotices
  split
  case isTrue h =>
    obtain rfl : c = 0 := by simp_all
    split
    case h_1 n r hq =>
      obtain ⟨htaken, hfirst, hout⟩ := hposts { s with notices := r } 0x0010 (noticeBody n) rfl rfl
      exact ⟨htaken, hfirst, fun hn => absurd (hn.symm.trans hq) (by simp), hout⟩
    case h_2 => exact hsame
  case isFalse =>
    split
    case isTrue h =>
      obtain rfl : c = 8 := by simp_all
      split
      case h_1 n r hq =>
        obtain ⟨htaken, hfirst, hout⟩ := hposts { s with recovery := r } 0x0011 (noticeBody n) rfl rfl
        exact ⟨htaken, hfirst, fun _ hr => absurd (hr.symm.trans hq) (by simp), hout⟩
      case h_2 => exact hsame
    case isFalse => exact hsame

/-! ## The host's end (R404 to R408, R415) -/

theorem hostChan_eq {c : Nat} : hostChan c = true ↔ c < 56 := decide_eq_true_iff

theorem hostChan_not {c : Nat} (h : 56 ≤ c) : hostChan c = false := decide_eq_false (by omega)

theorem exec_mbxPost_eq (c v : Nat) (body : Bytes) (s : State) : exec (.mbxPost c v body) s = execMbxPost c v body s := rfl

theorem exec_mbxTake_eq (c : Nat) (s : State) : exec (.mbxTake c) s = execMbxTake c s := rfl

section HostEnd

variable {s : State} {c : Nat} (hc : c < 64) (hup : s.up = true)
include hc hup

theorem exec_mbxPost_off (hoff : s.domOff 0 = true) (v : Nat) (body : Bytes) :
    exec (.mbxPost c v body) s = .next (s.offAccess 0 (0x200008 + 0x1000 * c) true) := by
  rw [exec_mbxPost_eq, execMbxPost, withChan_runs _ hc hup, if_pos hoff,
    show 0x200000 + 0x1000 * c + 8 = 0x200008 + 0x1000 * c by omega]

theorem exec_mbxTake_off (hoff : s.domOff 0 = true) :
    exec (.mbxTake c) s = .next (s.offAccess 0 (0x200018 + 0x1000 * c) false) := by
  rw [exec_mbxTake_eq, execMbxTake, withChan_runs _ hc hup, if_pos hoff,
    show 0x200000 + 0x1000 * c + 0x18 = 0x200018 + 0x1000 * c by omega]

variable (hon : s.domOff 0 = false)
include hon

theorem exec_mbxPost_denied (h : 56 ≤ c) (v : Nat) (body : Bytes) : exec (.mbxPost c v body) s =
    .next ((s.updChan c fun x => { x with denied := true }).count oMbxDenied 1) := by
  rw [exec_mbxPost_eq, execMbxPost, withChan_runs _ hc hup, if_neg (by simp [hon]), if_pos (by simp [hostChan_not h])]

theorem exec_mbxPost_full (h : c < 56) (hfull : (s.chan c).tx.isSome = true) (v : Nat) (body : Bytes) :
    exec (.mbxPost c v body) s = .next ((s.updChan c fun x => { x with overrun := true }).count oMbxOverruns 1) := by
  rw [exec_mbxPost_eq, execMbxPost, withChan_runs _ hc hup, if_neg (by simp [hon]), if_neg (by simp [hostChan_eq.mpr h]), if_pos hfull]

/-- R402: the message that the host posts. -/
def State.fromHost (s : State) (c v : Nat) (body : Bytes) : MbxDir :=
  { ptr := (s.chan c).sendPtr, len := bits v 31 0, seq := bits v 47 32, sender := 1, body := body }

theorem exec_mbxPost_fills (h : c < 56) (hempty : (s.chan c).tx = none) (v : Nat) (body : Bytes) :
    ∃ t, exec (.mbxPost c v body) s = .next t ∧ t.chan c = { s.chan c with
      tx := some (s.fromHost c v body), posted := (s.chan c).posted + 1, first := { (s.chan c).first with wake := true } } := by
  rw [exec_mbxPost_eq, execMbxPost, withChan_runs _ hc hup, if_neg (by simp [hon]), if_neg (by simp [hostChan_eq.mpr h]),
    if_neg (by simp [hempty])]
  refine ⟨_, rfl, ?_⟩
  rw [chan_touch, chan_updChan_self]
  rfl

theorem exec_mbxTake_nothing (h : 56 ≤ c ∨ (s.chan c).rx = none) : exec (.mbxTake c) s = .next (s.emit (.bar0 0)) := by
  rw [exec_mbxTake_eq, execMbxTake, withChan_runs _ hc hup, if_neg (by simp [hon])]
  rcases h with h | h
  · rw [hostChan_not h]
  · rw [h]
    cases hostChan c <;> rfl

/-- R406: the channel after the host has taken a message. -/
def State.hostTakes (s : State) (c : Nat) (m : MbxDir) : State :=
  (s.updChan c fun x => { x with rx := none, taken := x.taken + 1, first := s.emptied x.first }).emit (.bar0 m.meta_)

theorem exec_mbxTake_message (h : c < 56) {m : MbxDir} (hm : (s.chan c).rx = some m) :
    exec (.mbxTake c) s = .next ((s.hostTakes c m).pumpNotices c) := by
  rw [exec_mbxTake_eq, execMbxTake, withChan_runs _ hc hup, if_neg (by simp [hon]), hostChan_eq.mpr h, hm]
  rfl

end HostEnd

theorem chan_hostTakes (s : State) (c : Nat) (m : MbxDir) : (s.hostTakes c m).chan c =
    { s.chan c with rx := none, taken := (s.chan c).taken + 1, first := s.emptied (s.chan c).first } := by
  rw [State.hostTakes, chan_emit, chan_updChan_self]

/-! ## The device's ends (R402 to R407) -/

theorem exec_mbxDeviceTake_eq (c : Nat) (s : State) : exec (.mbxDeviceTake c) s = execMbxDeviceTake c s := rfl

theorem exec_mbxDevicePost_eq (c sender seq : Nat) (body : Bytes) (s : State) :
    exec (.mbxDevicePost c sender seq body) s = execMbxDevicePost c sender seq body s := rfl

section DeviceEnd

variable {s : State} {c : Nat} (hup : s.up = true)
include hup

theorem exec_mbxDeviceTake_empty (hc : c < 56) (hempty : (s.chan c).tx = none) : exec (.mbxDeviceTake c) s = .next s := by
  rw [exec_mbxDeviceTake_eq, execMbxDeviceTake, withChan_runs _ (by omega) hup, hempty, hostChan_eq.mpr hc]
  dsimp only
  rw [if_pos rfl, ite_self]

theorem exec_mbxDeviceTake_message (hc : c < 56) (hspine : (s.domain 0).state = 0) (hrm : ∃ p ∈ chanRms c, s.rmRuns p = true)
    {m : MbxDir} (hm : (s.chan c).tx = some m) : ∃ t, exec (.mbxDeviceTake c) s = .next t ∧ t.chan c =
      { s.chan c with tx := none, taken := (s.chan c).taken + 1, inbox := (s.chan c).inbox ++ [m]
                      emptyIrq := (s.chan c).emptyIrq || s.devMode ≠ 1 } := by
  have hany : (chanRms c).any s.rmRuns = true := List.any_eq_true.mpr hrm
  rw [exec_mbxDeviceTake_eq, execMbxDeviceTake, withChan_runs _ (by omega) hup, if_neg (by simp [hspine, hany]), hm]
  simp only [hostChan_eq.mpr hc, if_true, Bool.not_true, Bool.false_or, decide_eq_true_eq]
  by_cases hservice : s.devMode = 1
  · rw [if_pos hservice]
    refine ⟨_, rfl, ?_⟩
    rw [chan_updChan_self]
    simp [hservice]
  · rw [if_neg hservice]
    split
    · refine ⟨_, rfl, ?_⟩
      rw [chan_raiseVector, chan_updChan_self, chan_updChan_self]
      simp [hservice]
    · refine ⟨_, rfl, ?_⟩
      rw [chan_updChan_self, chan_updChan_self]
      simp [hservice]

theorem exec_mbxDevicePost_denied (hc : c < 64) {sender : Nat} (hend : deviceEnd c sender = false) (seq : Nat) (body : Bytes) :
    exec (.mbxDevicePost c sender seq body) s =
      .next ((s.updChan c fun x => { x with deniedTo := sender :: x.deniedTo.filter (· ≠ sender) }).count oMbxDenied 1) := by
  rw [exec_mbxDevicePost_eq, execMbxDevicePost, withChan_runs _ hc hup, if_pos (by simp [hend])]

variable {sender : Nat} {body : Bytes} (hend : deviceEnd c sender = true) (hspine : (s.domain 0).state = 0)
  (hrm : s.rmRuns (sender - 0x10) = true ∨ sender = 0x20) (hbody : body ≠ []) (hlen : body.length ≤ 1048576)
include hend hspine hrm hbody hlen

omit hup hend in
/-- R402, R403: nothing holds the post of a device end. -/
theorem posts_freely : ¬ ((decide ((s.domain 0).state ≠ 0) || (!s.rmRuns (sender - 0x0010) && decide (sender ≠ 0x0020)) ||
    body.isEmpty || decide (1048576 < body.length)) = true) := by
  rcases hrm with hrm | hrm <;> simp [hspine, hrm, hbody] <;> omega

theorem exec_mbxDevicePost_overrun (hc : c < 56) (seq : Nat) (hfull : (s.chan c).rx.isSome = true) :
    exec (.mbxDevicePost c sender seq body) s =
      .next ((s.updChan c fun x => { x with first := { x.first with overrun := true } }).count oMbxOverruns 1) := by
  rw [exec_mbxDevicePost_eq, execMbxDevicePost, withChan_runs _ (by omega) hup, if_neg (by simp [hend]),
    if_neg (posts_freely hspine hrm hbody hlen), if_pos (hostChan_eq.mpr hc), if_pos hfull]

theorem exec_mbxDevicePost_host (hc : c < 56) (seq : Nat) (hempty : (s.chan c).rx = none) (hfits : body.length ≤ (s.chan c).rxLen) :
    exec (.mbxDevicePost c sender seq body) s = .next (s.postHost c sender seq body) := by
  rw [exec_mbxDevicePost_eq, execMbxDevicePost, withChan_runs _ (by omega) hup, if_neg (by simp [hend]),
    if_neg (posts_freely hspine hrm hbody hlen), if_pos (hostChan_eq.mpr hc), if_neg (by simp [hempty]), if_neg (by omega)]

/-- R406: the message between two ends of the device. -/
def betweenEnds (sender seq : Nat) (body : Bytes) : MbxDir := { len := body.length, seq := seq, sender := sender, body := body }

theorem exec_mbxDevicePost_lower (hc : c < 64) (hinner : 56 ≤ c) (seq : Nat) (hlower : sender = 0x10 + (chanRms c).headD 0)
    (hempty : (s.chan c).tx = none) : exec (.mbxDevicePost c sender seq body) s = .next (s.updChan c fun x =>
      { x with tx := some (betweenEnds sender seq body), posted := x.posted + 1, second := { x.second with wake := true } }) := by
  rw [exec_mbxDevicePost_eq, execMbxDevicePost, withChan_runs _ hc hup, if_neg (by simp [hend]),
    if_neg (posts_freely hspine hrm hbody hlen), if_neg (by simp [hostChan_not hinner])]
  generalize 0x10 + (chanRms c).headD 0 = low at hlower ⊢
  simp [hlower, hempty, betweenEnds]

theorem exec_mbxDevicePost_upper (hc : c < 64) (hinner : 56 ≤ c) (seq : Nat) (hupper : sender ≠ 0x10 + (chanRms c).headD 0)
    (hempty : (s.chan c).rx = none) : exec (.mbxDevicePost c sender seq body) s = .next (s.updChan c fun x =>
      { x with rx := some (betweenEnds sender seq body), posted := x.posted + 1, first := { x.first with wake := true } }) := by
  rw [exec_mbxDevicePost_eq, execMbxDevicePost, withChan_runs _ hc hup, if_neg (by simp [hend]),
    if_neg (posts_freely hspine hrm hbody hlen), if_neg (by simp [hostChan_not hinner])]
  generalize 0x10 + (chanRms c).headD 0 = low at hupper ⊢
  simp [hupper, hempty, betweenEnds]

end DeviceEnd

/-! ## Registers of BAR0 (R5, R6, R310, R404) -/

theorem bar0Read_window (s : State) {c off : Nat} (hc : c < 64) (hoff : off < 0x1000) (haligned : off % 8 = 0) :
    s.bar0Read (0x200000 + 0x1000 * c + off) 8 = s.mailboxRead c off := by
  have hchannel : (0x200000 + 0x1000 * c + off - 0x200000) / 0x1000 = c := by omega
  have hplace : (0x200000 + 0x1000 * c + off) % 0x1000 = off := by omega
  unfold State.bar0Read
  dsimp only
  rw [if_pos (by simp; omega)]
  unfold State.bar0Word
  dsimp only
  rw [if_neg (by omega), if_neg (by simp; omega), if_neg (by simp; omega), if_neg (by simp; omega), if_pos (by simp; omega),
    hchannel, hplace]

theorem bar0Read_unlisted (s : State) {a : Nat} (hlow : 0x140000 ≤ a) (hhigh : a < 0x200000) (size : Nat) : s.bar0Read a size = 0 := by
  have hword : s.bar0Word a = 0 := by
    unfold State.bar0Word
    dsimp only
    rw [if_neg (by omega), if_neg (by simp; omega), if_neg (by simp; omega), if_neg (by simp; omega), if_neg (by simp; omega),
      if_neg (by simp; omega)]
  unfold State.bar0Read
  dsimp only
  rw [hword, if_neg (c := (_ && _ && !_) = true) (by simp; omega), ite_self]

/-- R404: MBX_STATUS: seven bits, the device's mode above them, and the version. -/
theorem mbxStatus_split (s : State) (c : Nat) : ∃ k, k < 32 ∧ s.mbxStatus c = (hostChan c && (s.chan c).tx.isSome).toNat +
    2 * (hostChan c && (s.chan c).rx.isSome).toNat + 4 * k + 2 ^ 8 * s.devMode + 2 ^ 16 := by
  have hflag : ∀ b i, flagAt b i = 2 ^ i * b.toNat := fun b i => by cases b <;> simp [flagAt]
  have hbit : ∀ b : Bool, b.toNat < 2 := Bool.toNat_lt
  refine ⟨(s.chan c).emptyIrq.toNat + 2 * (s.chan c).wake.toNat + 4 * (s.chan c).overrun.toNat + 8 * (s.chan c).flushed.toNat +
    16 * (s.chan c).denied.toNat, ?_, ?_⟩
  · have := hbit (s.chan c).emptyIrq
    have := hbit (s.chan c).wake
    have := hbit (s.chan c).overrun
    have := hbit (s.chan c).flushed
    have := hbit (s.chan c).denied
    omega
  · simp only [State.mbxStatus, hflag]
    omega

theorem mbxStatus_fields (s : State) (c : Nat) : bit (s.mbxStatus c) 0 = (hostChan c && (s.chan c).tx.isSome) ∧
    bit (s.mbxStatus c) 1 = (hostChan c && (s.chan c).rx.isSome) ∧ bits (s.mbxStatus c) 7 7 = 0 ∧
    (s.devMode < 4 → bits (s.mbxStatus c) 15 10 = 0 ∧ bits (s.mbxStatus c) 9 8 = s.devMode) := by
  obtain ⟨k, hk, hstatus⟩ := mbxStatus_split s c
  have htx := Bool.toNat_lt (hostChan c && (s.chan c).tx.isSome)
  have hrx := Bool.toNat_lt (hostChan c && (s.chan c).rx.isSome)
  have hdecide : ∀ b : Bool, b = decide (b.toNat = 1) := by decide
  rw [hstatus, bit_eq_decide, bit_eq_decide]
  refine ⟨?_, ?_, by unfold bits; omega, fun hmode => ⟨by unfold bits; omega, by unfold bits; omega⟩⟩
  · rw [hdecide (hostChan c && (s.chan c).tx.isSome)]
    exact decide_eq_decide.mpr (by rw [← hdecide]; omega)
  · rw [hdecide (hostChan c && (s.chan c).rx.isSome)]
    exact decide_eq_decide.mpr (by rw [← hdecide]; omega)

/-- R404: an aligned 8-byte write to a channel's window, with SPINE ON. -/
theorem exec_registerWrite_window {s : State} (hup : s.up = true) (hon : s.domOff 0 = false) {c off : Nat} (hc : c < 64)
    (hoff : off < 0x1000) (haligned : off % 8 = 0) (v : Nat) {a : Nat} (ha : a = 0x200000 + 0x1000 * c + off) :
    exec (.registerWrite a 8 v) s = .next (s.mailboxWrite c off v) := by
  have hrow : exec (.registerWrite a 8 v) s = execRegisterWrite a 8 v s := rfl
  have hchannel : (a - 0x200000) / 0x1000 = c := by omega
  have hplace : a % 0x1000 = off := by omega
  rw [hrow, execRegisterWrite, if_neg (by omega), whenUp_runs _ hup]
  dsimp only
  rw [if_neg (by omega), if_neg (by simp; omega), if_neg (by simp; omega), if_pos (by simp; omega), if_neg (by simp [hon]),
    if_pos (by simp; omega), hchannel, hplace]

theorem exec_registerWrite_msix {s : State} (hup : s.up = true) {i : Nat} (hi : i < 8192) (v : Nat) :
    exec (.registerWrite (0x10000 + 4 * i) 4 v) s = .next (s.msixWrite i (bits v 31 0)) := by
  have hrow : exec (.registerWrite (0x10000 + 4 * i) 4 v) s = execRegisterWrite (0x10000 + 4 * i) 4 v s := rfl
  have hentry : (0x10000 + 4 * i - 0x10000) / 4 = i := by omega
  rw [hrow, execRegisterWrite, if_neg (by omega), whenUp_runs _ hup]
  dsimp only
  rw [if_neg (by omega), if_pos (by simp; omega), if_neg (by simp), if_pos (by simp), hentry]

theorem msixWrite_find (s : State) (i v : Nat) : Tbl.find (s.msixWrite i v).host.msix i = some v := by
  have hset : Tbl.find (Tbl.set s.host.msix i v) i = some v := by rw [Tbl.find_set, if_pos rfl]
  unfold State.msixWrite
  dsimp only
  split <;> exact hset

end Sys2Proof.Machine

open Sys2Proof Sys2Proof.Machine in
/-- Settles O37: the watchdog by what an expiry makes of a processor's record, the channels by the equation of each row on the slot
it finds, the registers by the window they lie in. The fault outsideBar0 is the model's choice (DESIGN CHOICE, log entry 8), as are
the ignored misaligned receive base (DESIGN CHOICE, log entry 109) and the reads of a channel without the host (DESIGN CHOICE, log
entry 150). -/
theorem watchdogsAndMailboxes : Obligations.WatchdogsAndMailboxes := by
  unfold Obligations.WatchdogsAndMailboxes
  refine ⟨?watchdog, ?spine, ?reads, fun s a size hlow hhigh => bar0Read_unlisted s hlow hhigh size, ?inner, ?host⟩
  case watchdog =>
    intro s p hp hup
    refine ⟨fun hruns hhung => ?_, fun hruns hhung => ?_, exec_watchdogExpiry_stopped hp hup, exec_ringmasterRestartDone_idle hp hup,
      fun hrestarts => ?_⟩
    · obtain ⟨t, hexec, hrm, hled⟩ := exec_watchdogExpiry hp hup hruns
      have hstate := rmExpired_counted hhung
      refine ⟨fun hfew => ⟨t, hexec, ?_⟩, fun hmany => ⟨t, hexec, ?_⟩⟩
      · rw [if_pos hfew] at hstate
        rw [hrm, hled, State.ledAfter, if_pos hstate]
        exact ⟨hstate, rfl, rfl⟩
      · rw [if_neg (by omega)] at hstate
        rw [hrm, hled, State.ledAfter, if_neg (by omega)]
        exact ⟨hstate, rfl, rfl⟩
    · obtain ⟨t, hexec, hrm, -⟩ := exec_watchdogExpiry hp hup hruns
      exact ⟨t, hexec, hrm ▸ rmExpired_hung hhung⟩
    · obtain ⟨t, hexec, hrm⟩ := exec_ringmasterRestartDone hp hup hrestarts
      exact ⟨t, hexec, hrm ▸ ⟨rfl, rfl⟩⟩
  case spine =>
    intro s c v body hc hup
    exact ⟨fun hoff => ⟨exec_mbxPost_off hc hup hoff v body, exec_mbxTake_off hc hup hoff⟩,
      fun hon hinner => ⟨exec_mbxTake_nothing hc hup hon (.inl hinner), exec_mbxPost_denied hc hup hon hinner v body⟩⟩
  case reads =>
    intro s c hc
    have hwindow : ∀ off, off < 0x1000 → off % 8 = 0 → s.bar0Read (0x200000 + 0x1000 * c + off) 8 = s.mailboxRead c off :=
      fun off hoff haligned => bar0Read_window s hc hoff haligned
    dsimp only
    rw [hwindow 0 (by omega) rfl, hwindow 8 (by omega) rfl, hwindow 0x28 (by omega) rfl, hwindow 0x30 (by omega) rfl,
      hwindow 0x38 (by omega) rfl, hwindow 0x20 (by omega) rfl, hwindow 0x10 (by omega) rfl, hwindow 0x18 (by omega) rfl]
    refine ⟨rfl, rfl, rfl, rfl, rfl, rfl, fun m hhost hm => ?_, fun hnone => ?_, mbxStatus_fields s c⟩
    · simp [State.mailboxRead, hostChan_eq.mpr hhost, hm, MbxDir.meta_]
    · rcases hnone with hinner | hempty
      · simp [State.mailboxRead, hostChan_not hinner]
      · simp [State.mailboxRead, hempty]
  case inner =>
    intro s c sender seq body hinner hc hup hend hspine hrm hbody hlen
    refine ⟨fun hlower hempty => ⟨_, exec_mbxDevicePost_lower hup hend hspine hrm hbody hlen hc hinner seq hlower hempty, ?_⟩,
      fun hupper hempty => ⟨_, exec_mbxDevicePost_upper hup hend hspine hrm hbody hlen hc hinner seq hupper hempty, ?_⟩⟩
    · rw [chan_updChan_self]
      exact ⟨rfl, rfl, rfl⟩
    · rw [chan_updChan_self]
      exact ⟨rfl, rfl, rfl⟩
  case host =>
    intro s c hhost hup hon
    have hc : c < 64 := by omega
    have hwrite : ∀ a off v, a = 0x200000 + 0x1000 * c + off → off < 0x1000 → off % 8 = 0 →
        exec (.registerWrite a 8 v) s = .next (s.mailboxWrite c off v) :=
      fun a off v ha hoff haligned => exec_registerWrite_window hup hon hc hoff haligned v ha
    refine ⟨fun v body => ⟨fun hempty => ?_, fun hfull => ?_⟩, fun hempty => exec_mbxTake_nothing hc hup hon (.inr hempty),
      fun m hm => ?_, fun m hspine hrm hm => ?_, fun _ hempty => exec_mbxDeviceTake_empty hup hhost hempty,
      fun sender seq body hend => exec_mbxDevicePost_denied hup hc hend seq body,
      fun sender seq body hend hspine hrm hbody hlen hfull =>
        exec_mbxDevicePost_overrun hup hend hspine (.inl hrm) hbody hlen hhost seq hfull,
      fun sender seq body hend hspine hrm hbody hlen hempty hfits => ?_,
      fun v => hwrite _ 0 v rfl (by omega) rfl, fun v => hwrite _ 0x28 v (by omega) (by omega) rfl,
      fun v => hwrite _ 0x20 v (by omega) (by omega) rfl, fun v hmis => ?_, fun v hpage => ?_,
      fun i v hi => ⟨_, exec_registerWrite_msix hup hi v, msixWrite_find s i _⟩, fun addr size v hbeyond => if_pos hbeyond⟩
    · obtain ⟨t, hexec, hchan⟩ := exec_mbxPost_fills hc hup hon hhost hempty v body
      refine ⟨t, hexec, ?_⟩
      rw [hchan]
      exact ⟨rfl, rfl, rfl, rfl⟩
    · refine ⟨_, exec_mbxPost_full hc hup hon hhost hfull v body, ?_⟩
      rw [chan_count, chan_updChan_self, stored_count_self]
      exact ⟨rfl, rfl, rfl⟩
    · obtain ⟨htaken, hfirst, hquiet, l, hout⟩ := pumpNotices_chan (s.hostTakes c m) c
      rw [chan_hostTakes] at htaken hfirst hquiet
      refine ⟨_, l, exec_mbxTake_message hc hup hon hhost hm, htaken, hout.trans (List.append_assoc ..), fun hn hr => ?_, ?_⟩
      · rw [hquiet hn hr]
      · rw [hfirst]
        rfl
    · obtain ⟨t, hexec, hchan⟩ := exec_mbxDeviceTake_message hup hhost hspine hrm hm
      refine ⟨t, hexec, ?_⟩
      rw [hchan]
      exact ⟨rfl, rfl, rfl, rfl⟩
    · obtain ⟨l, hout⟩ := out_postHost s c sender seq body
      refine ⟨_, l, exec_mbxDevicePost_host hup hend hspine (.inl hrm) hbody hlen hhost seq hempty hfits, hout, ?_⟩
      rw [chan_postHost_self]
      exact ⟨rfl, rfl⟩
    · rw [hwrite _ 0x30 v (by omega) (by omega) rfl]
      simp [State.mailboxWrite, hmis]
    · rw [hwrite _ 0x30 v (by omega) (by omega) rfl]
      simp [State.mailboxWrite, hpage]
end

section
/-! Heartbeats and the declaration of a failed device (R425 to R427, R433, R438, R440, R463), and what the duties of Ringmaster 1
leave of the FAILED set and of what has gone out. -/

namespace Sys2Proof.Machine

open Sys2Proof

/-! ## What is kept of fault tolerance and of what has gone out -/

/-- The record of fault tolerance is kept, and nothing that has gone out is taken back. -/
structure Tells (s t : State) : Prop where
  ft : t.ft = s.ft
  out : s.out <+: t.out

/-- The FAILED set is kept, and nothing that has gone out is taken back. -/
structure Spreads (s t : State) : Prop where
  failed : t.ft.failed = s.ft.failed
  out : s.out <+: t.out

namespace Tells

variable {s t u : State}

theorem same (hft : t.ft = s.ft) (hout : t.out = s.out) : Tells s t := ⟨hft, hout ▸ List.prefix_rfl⟩

theorem refl (s : State) : Tells s s := same rfl rfl

theorem trans (h : Tells s t) (h' : Tells t u) : Tells s u := ⟨h'.ft.trans h.ft, h.out.trans h'.out⟩

theorem foldl {α : Type} {g : State → α → State} (h : ∀ u x, Tells u (g u x)) (l : List α) (s : State) : Tells s (l.foldl g s) :=
  List.foldlRecOn (motive := Tells s) l g (refl s) fun u hu x _ => hu.trans (h u x)

theorem ite {p : Prop} [Decidable p] (h : Tells s t) : Tells s (if p then t else s) := by
  split
  · exact h
  · exact refl s

theorem spreads (h : Tells s t) : Spreads s t := ⟨congrArg FtSt.failed h.ft, h.out⟩

end Tells

namespace Spreads

variable {s t u : State}

theorem refl (s : State) : Spreads s s := (Tells.refl s).spreads

theorem trans (h : Spreads s t) (h' : Spreads t u) : Spreads s u := ⟨h'.failed.trans h.failed, h.out.trans h'.out⟩

theorem foldl {α : Type} {g : State → α → State} (h : ∀ u x, Spreads u (g u x)) (l : List α) (s : State) :
    Spreads s (l.foldl g s) :=
  List.foldlRecOn (motive := Spreads s) l g (refl s) fun u hu x _ => hu.trans (h u x)

end Spreads

theorem emit_tells (s : State) (e : Emit) : Tells s (s.emit e) := ⟨rfl, List.prefix_append ..⟩

theorem updStream_tells (s : State) (n : Nat) (f : Stream → Stream) : Tells s (s.updStream n f) := .same rfl rfl

theorem updProt_tells (s : State) (n : Nat) (f : ProtSt → ProtSt) : Tells s (s.updProt n f) := .same rfl rfl

theorem updRun_tells (s : State) (n : Nat) (f : RunSt → RunSt) : Tells s (s.updRun n f) := .same rfl rfl

theorem store_tells (s : State) (key v : Nat) : Tells s (s.store key v) := .same rfl rfl

theorem count_tells (s : State) (key n : Nat) : Tells s (s.count key n) := .same rfl rfl

theorem setMarks_tells (s : State) (n : Nat) (l : List Bytes) : Tells s (s.setMarks n l) := .same rfl rfl

theorem postHost_tells (s : State) (c sender seq : Nat) (body : Bytes) : Tells s (s.postHost c sender seq body) := by
  obtain ⟨l, hout⟩ := out_postHost s c sender seq body
  exact ⟨by rw [postHost_eq], ⟨_, hout.symm⟩⟩

/-- R442: a recovery notice goes out, waits or is lost. -/
theorem recover_tells (s : State) (kind status subject detail : Nat) : Tells s (s.recover kind status subject detail) := by
  unfold State.recover
  dsimp only
  split
  · exact count_tells ..
  · split
    · split
      · exact .same rfl rfl
      · exact count_tells ..
    · exact postHost_tells ..

theorem updCorpus_tells (s : State) (nsid : Nat) (f : Corpus → Corpus) : Tells s (s.updCorpus nsid f) := by
  rw [updCorpus_eq]
  exact .same rfl rfl

theorem unprotect_tells (s : State) (n cause : Nat) : Tells s (s.unprotect n cause) :=
  (updProt_tells s n _).trans (recover_tells ..)

/-! ## The start of a stream (R39, R378, R420) -/

theorem freeRetired_tells (s : State) (n : Nat) : Tells s (s.freeRetired n) := by
  refine .foldl (fun u i => ?_) _ s
  dsimp only
  exact .ite (.same rfl rfl)

theorem retireSlots_tells (s : State) (n : Nat) : Tells s (s.retireSlots n) := by
  rw [(retireSlots_keeps s n).2]
  exact .same rfl rfl

theorem closeCredit_tells (s : State) (n : Nat) : Tells s (s.closeCredit n) := by
  rw [closeCredit_eq]
  exact .same rfl rfl

theorem openCredit_tells (s : State) (n granted : Nat) : Tells s (s.openCredit n granted) := .same rfl rfl

theorem exactShared_tells (s : State) (n : Nat) : Tells s (s.exactShared n) := by
  rw [exactShared_eq]
  exact .same rfl rfl

theorem sendSnapshot_tells (s : State) (n : Nat) : Tells s (s.sendSnapshot n) := ⟨rfl, List.prefix_append ..⟩

theorem openSend_tells (s : State) (n step : Nat) : Tells s (s.openSend n step) := by
  have hstep := updProt_tells s n fun p => { p with openStep := step }
  unfold State.openSend
  dsimp only
  repeat' split
  · exact hstep.trans (emit_tells ..)
  · exact hstep.trans (emit_tells ..)
  · exact hstep.trans ((emit_tells ..).trans (emit_tells ..))
  · exact hstep.trans (sendSnapshot_tells ..)

theorem openMirror_tells (s : State) (n : Nat) : Tells s (s.openMirror n) := by
  have hcleared := updProt_tells s n fun p => { p with cause := 0, ackedBatch := 0, unacked := [], moveTo := none }
  unfold State.openMirror
  dsimp only
  repeat' split
  · exact hcleared.trans (unprotect_tells ..)
  · exact hcleared.trans (unprotect_tells ..)
  · exact hcleared
  · exact hcleared.trans ((updProt_tells ..).trans (openSend_tells ..))

theorem startStream_tells (s : State) (n : Nat) : Tells s (s.startStream n) := by
  exact (freeRetired_tells s n).trans ((updStream_tells _ n _).trans ((Tells.ite (openCredit_tells ..)).trans
    ((exactShared_tells _ n).trans (openMirror_tells _ n))))

/-! ## Takeover (R433, R436) -/

theorem sendList_tells (s : State) (n epoch : Nat) (l : Nat × Nat × List (Nat × Nat)) : Tells s (s.sendList n epoch l) := by
  unfold State.sendList
  split
  · exact .refl s
  · dsimp only
    split
    · rw [sendMessage_eq]
      exact .same rfl rfl
    · split
      · exact .foldl (fun u m => (count_tells u _ _).trans (updRun_tells _ m _)) _ s
      · exact .foldl (fun u m => updRun_tells u m _) _ s

theorem resendTo_tells (s : State) (corpus member epoch : Nat) : Tells s (s.resendTo corpus member epoch) :=
  .foldl (fun u m => .ite (.foldl (fun v l => sendList_tells v m epoch l) _ u)) _ s

theorem applySnapshot_tells (s : State) (n : Nat) (b : Bytes) : Tells s (s.applySnapshot n b) :=
  (store_tells s _ _).trans ((updStream_tells _ n _).trans (freeRetired_tells _ n))

theorem setImageSlot_tells (s : State) (n v : Nat) : Tells s (s.setImageSlot n v) := by
  unfold State.setImageSlot
  split
  · exact (closeCredit_tells s n).trans ((store_tells ..).trans (updStream_tells ..))
  · split
    · exact .refl s
    · exact (closeCredit_tells s n).trans ((store_tells ..).trans ((updStream_tells ..).trans (retireSlots_tells ..)))

theorem loadMirror_tells (s : State) (n k : Nat) (x : Mirror) : Tells s (s.loadMirror n k x) := by
  refine (setImageSlot_tells s n k).trans (Tells.trans (.foldl (fun u e => ?_) _ _) (updStream_tells _ n _))
  split
  · exact .refl u
  · exact store_tells ..

theorem takeRole_tells (s : State) (corpus member : Nat) : Tells s (s.takeRole corpus member) := by
  unfold State.takeRole
  split
  · exact updCorpus_tells ..
  · exact .refl s

theorem pin_tells (s : State) (digest : Bytes) (f : Nat → Nat) : Tells s (s.pin digest f) := by
  unfold State.pin
  split
  · exact .same rfl rfl
  · exact .refl s

theorem closeRecord_spreads (s : State) (m : Nat) : Spreads s (s.closeRecord m) := by
  unfold State.closeRecord
  have hfreed : Spreads s { s with ft := { s.ft with mirrors := Tbl.del s.ft.mirrors m } } := ⟨rfl, List.prefix_rfl⟩
  split
  · exact hfreed.trans (pin_tells ..).spreads
  · exact .refl s

theorem setMirror_spreads (s : State) (m : Nat) (x : Mirror) : Spreads s (s.setMirror m x) := ⟨rfl, List.prefix_rfl⟩

/-- R430: the location entry of a member is raised where the device has the corpus. -/
def State.raiseLocation (s : State) (corpus member : Nat) (f : Nat × Nat) : State :=
  match s.corpusOf corpus with
  | some (nsid, _) => s.raiseMember nsid member f
  | none => s

/-- R430: a mirror record of the member under a fence record that is no lower. -/
def Mirror.raised (x : Mirror) (corpus member : Nat) (f : Nat × Nat) : Mirror :=
  if x.member == (corpus, member) && fenceLt x.fence f then { x with fence := f } else x

theorem raiseLocation_tells (s : State) (corpus member : Nat) (f : Nat × Nat) : Tells s (s.raiseLocation corpus member f) := by
  unfold State.raiseLocation
  split
  · exact updCorpus_tells ..
  · exact .refl s

theorem raiseFence_eq (s : State) (corpus member : Nat) (f : Nat × Nat) : s.raiseFence corpus member f =
    { s.raiseLocation corpus member f with
      ft := { s.ft with mirrors := s.ft.mirrors.map fun r => (r.1, r.2.raised corpus member f) } } := by
  have hft := (raiseLocation_tells s corpus member f).ft
  have hraised : s.raiseFence corpus member f = { s.raiseLocation corpus member f with
      ft := { (s.raiseLocation corpus member f).ft with
        mirrors := (s.raiseLocation corpus member f).ft.mirrors.map fun r => (r.1, r.2.raised corpus member f) } } := rfl
  rw [hraised, hft]

theorem raiseFence_spreads (s : State) (corpus member : Nat) (f : Nat × Nat) : Spreads s (s.raiseFence corpus member f) := by
  rw [raiseFence_eq]
  exact ⟨rfl, (raiseLocation_tells s corpus member f).out⟩

/-! ### A stream that is brought up (R430, R433) -/

/-- R433: the fence epoch of a stream that is brought up from bytes. -/
def State.raisedEpoch (s : State) (x : Mirror) (bytes : Bytes) : Nat :=
  1 + max (max x.fence.1 (fieldAt bytes 0xA4 4))
    (max (fieldAt (x.marks.headD []) 0xA4 4) (s.heldFence x.member.1 x.member.2).1)

/-- R433: the stream that takes over, with its settings, its marks and its fence record. -/
def State.takesOver (s : State) (n k : Nat) (x : Mirror) (e : Nat) : State :=
  ((((s.loadMirror n k x).updProt n fun p =>
    { p with fenceEpoch := e, fenceOwner := s.rank, pendingMark := none, movedTo := 0xFFFF }).setMarks n x.marks).store
      (oPartner n) 0xFFFF).raiseFence x.member.1 x.member.2 (e, s.rank)

/-- R433: the start of a stream whose snapshot is restored. -/
def State.startsOver (s : State) (n : Nat) (x : Mirror) : State :=
  if s.startCheck n ≠ stSuccess then s.updStream n fun y => { y with lastStatus := s.startCheck n }
  else ((s.startStream n).resendTo x.member.1 x.member.2 (s.run n).epoch).emit
    (.resendLists x.member.1 x.member.2 (s.run n).epoch)

/-- R235, R433: the restore and the start of a stream that takes over. -/
def State.resumes (s : State) (n : Nat) (x : Mirror) (bytes : Bytes) : State :=
  match s.restoreBytes n bytes false with
  | .error st => s.updStream n fun y => { y with lastStatus := st }
  | .ok u => u.startsOver n x

/-- R433: what follows the FENCE message of a takeover. -/
def State.afterFence (s : State) (n m : Nat) (x : Mirror) (e rank : Nat) : State :=
  (((s.closeRecord m).takeRole x.member.1 x.member.2).count oTakeovers 1).recover 17 0 n (e + 2 ^ 32 * rank)

theorem bringUp_eq (s : State) (n k m : Nat) (x : Mirror) (bytes : Bytes) : s.bringUp n k m x bytes =
    (((s.takesOver n k x (s.raisedEpoch x bytes)).emit (.fence x.member.1 x.member.2 (s.raisedEpoch x bytes) s.rank)).afterFence
      n m x (s.raisedEpoch x bytes) s.rank).resumes n x bytes := rfl

theorem takesOver_spreads (s : State) (n k : Nat) (x : Mirror) (e : Nat) : Spreads s (s.takesOver n k x e) :=
  ((loadMirror_tells s n k x).trans ((updProt_tells _ n _).trans ((setMarks_tells _ n _).trans (store_tells ..)))).spreads.trans
    (raiseFence_spreads ..)

theorem afterFence_spreads (s : State) (n m : Nat) (x : Mirror) (e rank : Nat) : Spreads s (s.afterFence n m x e rank) :=
  (closeRecord_spreads s m).trans ((takeRole_tells _ _ _).trans ((count_tells ..).trans (recover_tells ..))).spreads

theorem startsOver_tells (s : State) (n : Nat) (x : Mirror) : Tells s (s.startsOver n x) := by
  unfold State.startsOver
  split
  · exact updStream_tells ..
  · exact (startStream_tells s n).trans ((resendTo_tells ..).trans (emit_tells ..))

theorem resumes_tells (s : State) (n : Nat) (x : Mirror) (bytes : Bytes) : Tells s (s.resumes n x bytes) := by
  unfold State.resumes State.restoreBytes
  dsimp only
  by_cases hok : s.restoreStatus n bytes false = stSuccess
  · rw [if_pos hok]
    exact (applySnapshot_tells s n bytes).trans (startsOver_tells ..)
  · rw [if_neg hok]
    exact updStream_tells ..

theorem bringUp_spreads (s : State) (n k m : Nat) (x : Mirror) (bytes : Bytes) : Spreads s (s.bringUp n k m x bytes) := by
  rw [bringUp_eq]
  exact (takesOver_spreads ..).trans ((emit_tells ..).spreads.trans ((afterFence_spreads ..).trans (resumes_tells ..).spreads))

/-- R433, R436: a takeover adds no device to the FAILED set and takes back nothing that has gone out. -/
theorem takeover_spreads (s : State) (m : Nat) : Spreads s (s.takeover m) := by
  unfold State.takeover
  split
  · exact .refl s
  case h_2 x _ =>
    generalize (if x.snapshot.isEmpty then x.marks.headD [] else x.snapshot) = bytes
    dsimp only
    split
    · exact .refl s
    · split
      · exact bringUp_spreads ..
      · split
        · exact .refl s
        · exact (setMirror_spreads s m _).trans (recover_tells ..).spreads

/-! ## Heartbeats and the FAILED set (R425 to R427, R438) -/

theorem addFailed_mem (s : State) (c gtc : Nat) : c ∈ (s.addFailed c gtc).ft.failed := by
  unfold State.addFailed
  split
  case isTrue h => simpa using h
  case isFalse => exact List.mem_append_right _ (List.mem_singleton_self c)

theorem losePartner_tells (s : State) (c : Nat) : Tells s (s.losePartner c) :=
  .foldl (fun u n => .ite (unprotect_tells u n 1)) _ s

/-- R426, R433: what follows when a device is in the FAILED set. -/
def State.losesDevice (s : State) (c : Nat) : State := (s.losePartner c).toTake.foldl State.takeover (s.losePartner c)

theorem losesDevice_spreads (s : State) (c : Nat) : Spreads s (s.losesDevice c) :=
  (losePartner_tells s c).spreads.trans (.foldl takeover_spreads _ _)

theorem foldl_heartbeat (l : List Nat) (s : State) : l.foldl (fun (s : State) c => s.emit (.heartbeat c s.heartbeatBody)) s =
    { s with out := s.out ++ l.map fun c => Emit.heartbeat c s.heartbeatBody } := by
  induction l generalizing s with
  | nil => simp
  | cons c l ih =>
    have hbody : (s.emit (.heartbeat c s.heartbeatBody)).heartbeatBody = s.heartbeatBody := rfl
    rw [List.foldl_cons, ih, hbody]
    simp [State.emit]

theorem exec_heartbeatSend_eq (s : State) : exec .heartbeatSend s = execHeartbeatSend s := rfl

theorem exec_heartbeatSend_silent {s : State} (hup : s.up = true) (h : s.ft.state = 2 ∨ s.deviceScrub = true) :
    exec .heartbeatSend s = .next s := by
  rw [exec_heartbeatSend_eq, execHeartbeatSend, whenUp_runs _ hup]
  rcases h with h | h
  · exact if_pos (by simp [h])
  · exact if_pos (by simp [h])

/-- R425: 50 ms have passed since the last heartbeat. -/
def State.heartbeatDue (s : State) : Bool := match s.ft.sent with | some g => decide (g + 50 * Config.ms ≤ s.gtc) | none => true

section Heartbeat

variable {s : State} (hup : s.up = true)
include hup

theorem exec_heartbeatSend_waits (h : s.heartbeatDue = false) : exec .heartbeatSend s = .next s := by
  rw [exec_heartbeatSend_eq, execHeartbeatSend, whenUp_runs _ hup]
  refine if_pos (c := (_ || !s.heartbeatDue || _ || _) = true) ?_
  simp [h]

theorem exec_heartbeatSend_beats (hstep : s.sys.step = 0) (hft : s.ft.state ≠ 2) (hscrub : s.deviceScrub = false)
    (h : s.heartbeatDue = true) : exec .heartbeatSend s = .next { s with
      out := s.out ++ s.heartbeatPeers.map fun c => Emit.heartbeat c s.heartbeatBody, ft := { s.ft with sent := some s.gtc } } := by
  rw [exec_heartbeatSend_eq, execHeartbeatSend, whenUp_runs _ hup]
  refine (if_neg (c := (_ || !s.heartbeatDue || _ || _) = true) ?_).trans ?_
  · simp [h, hstep, hft, hscrub]
  · dsimp only
    rw [foldl_heartbeat]

theorem exec_heartbeatReceive (data : Bytes) : exec (.heartbeatReceive data) s =
    let c := fieldAt data 0 2
    let s1 : State := { s with ft := { s.ft with heard := Tbl.set s.ft.heard c s.gtc } }
    if s.ft.failed.contains c then .next (s1.emit (.failed c c (Tbl.get s.ft.declared 0 c))) else .next s1 := by
  have hrow : exec (.heartbeatReceive data) s = execHeartbeatReceive data s := rfl
  rw [hrow, execHeartbeatReceive, whenUp_runs _ hup]

variable (hrm : s.rmRuns 1 = true) (hstep : s.sys.step = 0) {c : Nat}
include hrm hstep

theorem exec_declareFailed_unheard (h : Tbl.find s.ft.heard c = none) : exec (.declareFailed c) s = .next s := by
  have hrow : exec (.declareFailed c) s = execDeclareFailed c s := rfl
  rw [hrow, execDeclareFailed, whenRm_runs _ hup hrm (.inl hstep), h]

theorem exec_declareFailed_heard {g : Nat} (h : Tbl.find s.ft.heard c = some g) : exec (.declareFailed c) s =
    if s.gtc < g + 300 * Config.ms || s.ft.failed.contains c then .next s
    else .next ((((s.addFailed c s.gtc).emit (.failed 0xFFFF c s.gtc)).recover 16 0 c g).losesDevice c) := by
  have hrow : exec (.declareFailed c) s = execDeclareFailed c s := rfl
  rw [hrow, execDeclareFailed, whenRm_runs _ hup hrm (.inl hstep), h]
  rfl

theorem exec_rejoinedReceive : exec (.rejoinedReceive c) s = .next { s with ft := { s.ft with
    failed := s.ft.failed.filter fun d => d ≠ c, heard := Tbl.del s.ft.heard c, declared := Tbl.del s.ft.declared c } } := by
  have hrow : exec (.rejoinedReceive c) s = execRejoinedReceive c s := rfl
  rw [hrow, execRejoinedReceive, whenRm_runs _ hup hrm (.inl hstep)]

end Heartbeat

end Sys2Proof.Machine

open Sys2Proof Sys2Proof.Machine in
/-- Settles O38: each row by its conditions; a declared device stays in the FAILED set, and its announcement out, through the
takeovers that follow (`Spreads`). A peer that was never heard is not declared by the model's choice (DESIGN CHOICE, log
entry 82). -/
theorem heartbeatsAndDeclaration : Obligations.HeartbeatsAndDeclaration := by
  unfold Obligations.HeartbeatsAndDeclaration
  refine ⟨fun s => exec_heartbeatSend_silent, ?beats, ?received, ?kept, ?declared, ?rejoined⟩
  case beats =>
    intro s hup hstep hft hscrub
    refine ⟨fun hpassed => ?_, fun g hg hearly => exec_heartbeatSend_waits hup ?_⟩
    · refine ⟨_, exec_heartbeatSend_beats hup hstep hft hscrub ?_, rfl, rfl⟩
      unfold State.heartbeatDue
      split
      case h_1 g hg => exact decide_eq_true (hpassed g hg)
      case h_2 => rfl
    · rw [State.heartbeatDue, hg]
      exact decide_eq_false (by omega)
  case received =>
    intro s data c s1 hup
    have hexec := exec_heartbeatReceive hup data
    exact ⟨fun hserving => hexec.trans (if_neg (by simpa using hserving)),
      fun hfailed => hexec.trans (if_pos (by simpa using hfailed))⟩
  case kept =>
    intro s c hup hrm hstep h
    cases hheard : Tbl.find s.ft.heard c with
    | none => exact exec_declareFailed_unheard hup hrm hstep hheard
    | some g =>
      rw [exec_declareFailed_heard hup hrm hstep hheard]
      exact if_pos (by simp [h.resolve_left (by simp [hheard])])
  case declared =>
    intro s c g hup hrm hstep hheard
    rw [exec_declareFailed_heard hup hrm hstep hheard]
    refine ⟨fun hearly => if_pos (by simp [hearly]), fun hsilent hnew => ⟨_, if_neg (by simp [hnew]; omega), ?_⟩⟩
    have htold := (recover_tells ((s.addFailed c s.gtc).emit (.failed 0xFFFF c s.gtc)) 16 0 c g).spreads.trans
      (losesDevice_spreads _ c)
    refine ⟨?_, htold.out.subset (List.mem_append_right _ (List.mem_singleton_self _))⟩
    rw [htold.failed]
    exact addFailed_mem s c s.gtc
  case rejoined =>
    intro s c hup hrm hstep
    refine ⟨_, exec_rejoinedReceive hup hrm hstep, ?_, ?_, fun d hd => ?_⟩
    · simp
    · rw [Tbl.find_del, if_pos rfl]
    · simp [hd]
end

section
/-! The fence (R429 to R431, R435), the FAILED messages (R426, R431, R515) and REJOIN (R438). -/

namespace Sys2Proof.Machine

open Sys2Proof

/-! ## A stream beside its open samples (R340) -/

/-- A stream without the note of its open samples. -/
def Stream.standing (x : Stream) : Stream := { x with openSamples := [] }

/-- Stream m stands in two states alike, and the settings are the same. -/
structure StandsAs (m : Nat) (s t : State) : Prop where
  stream : (t.stream m).standing = (s.stream m).standing
  stored : ∀ key ∉ tallyKeys, t.stored key = s.stored key

namespace StandsAs

variable {m : Nat} {s t u : State}

theorem trans (h : StandsAs m s t) (h' : StandsAs m t u) : StandsAs m s u :=
  ⟨h'.stream.trans h.stream, fun key hkey => (h'.stored key hkey).trans (h.stored key hkey)⟩

theorem of_work (h : t.work = s.work) (m : Nat) : StandsAs m s t :=
  ⟨by rw [stream_of_work h], fun _ hkey => stored_of_work h hkey⟩

theorem refl (m : Nat) (s : State) : StandsAs m s s := of_work rfl m

theorem foldl {α : Type} {g : State → α → State} (h : ∀ u x, StandsAs m u (g u x)) (l : List α) (s : State) :
    StandsAs m s (l.foldl g s) :=
  List.foldlRecOn (motive := StandsAs m s) l g (refl m s) fun u hu x _ => hu.trans (h u x)

section Same

variable (h : StandsAs m s t)
include h

theorem state : (t.stream m).state = (s.stream m).state := (congrArg Stream.state h.stream :)
theorem lastStatus : (t.stream m).lastStatus = (s.stream m).lastStatus := (congrArg Stream.lastStatus h.stream :)
theorem prot : (t.stream m).prot = (s.stream m).prot := (congrArg Stream.prot h.stream :)

theorem fenceOf : t.fenceOf m = s.fenceOf m := by
  unfold State.fenceOf
  rw [h.prot]

theorem member (hm : m < 64) : t.member m = s.member m := by
  have hwritten : (t.stream m).memberWritten = (s.stream m).memberWritten := (congrArg Stream.memberWritten h.stream :)
  have hfixed : (t.stream m).memberFixed = (s.stream m).memberFixed := (congrArg Stream.memberFixed h.stream :)
  have hkey : oMember m ∉ tallyKeys := by
    simp [tallyKeys, oMember, oNoticesLost, oPoolStateEvents, oRetiredBuffers, oJobsRetried]
    omega
  simp only [State.member, State.place, hwritten, hfixed, h.stored _ hkey, h.stored oPlaceGeometry (by decide)]

end Same

end StandsAs

theorem endJobs_stands (s : State) (p : Job → Bool) (m : Nat) : StandsAs m s (s.endJobs p) :=
  ⟨by rw [endJobs_stream], fun _ hkey => endJobs_stored s p hkey⟩

theorem closeSample_stands (s : State) (nsid idx status : Nat) (o : Option Nat) (m : Nat) :
    StandsAs m s (s.closeSample nsid idx status o) := by
  have hended : StandsAs m s (s.endIngestJob nsid idx status) := by
    unfold State.endIngestJob
    split
    · exact ⟨rfl, fun _ _ => rfl⟩
    · exact endJobs_stands s _ m
  have hclosed : ∀ f, StandsAs m s ((s.endIngestJob nsid idx status).updCorpus nsid f) := fun f =>
    hended.trans (by rw [updCorpus_eq]; exact ⟨rfl, fun _ _ => rfl⟩)
  cases o with
  | none => exact hclosed _
  | some k =>
    refine (hclosed fun c => { c with open_ := Tbl.del c.open_ idx }).trans ⟨?_, fun _ _ => rfl⟩
    unfold State.closeSample
    dsimp only
    rw [State.stream_updStream]
    split
    case isTrue h => rw [h]; rfl
    case isFalse => rfl

theorem endSample_stands (s : State) (nsid idx status m : Nat) : StandsAs m s (s.endSample nsid idx status) := by
  unfold State.endSample
  split
  · exact .refl m s
  · split
    · exact .refl m s
    case h_2 o _ =>
      dsimp only
      have hclosed := closeSample_stands s nsid idx status o.stream m
      split
      · exact hclosed.trans (.of_work (vendorDone_work _ _ _ _ _) m)
      · exact hclosed

/-- R341: the samples that a stream gives up leave every stream standing. -/
theorem refuseIngest_stands (s : State) (n m : Nat) : StandsAs m s (s.refuseIngest n) :=
  .foldl (fun _ _ => .foldl (fun u _ => endSample_stands u _ _ _ m) _ _) _ s

/-! ## A stream that is moved (R39, R431) -/

theorem withdrawSlot_stream_ne {n m : Nat} (hm : m ≠ n) (s : State) (i : Nat) : (s.withdrawSlot n i).stream m = s.stream m := by
  unfold State.withdrawSlot
  split
  · rw [State.updSlot, State.stream_updDlv, if_neg hm]
  · rfl

theorem retireSlots_stream_ne {n m : Nat} (hm : m ≠ n) (s : State) : (s.retireSlots n).stream m = s.stream m := by
  rw [retireSlots_eq]
  exact List.foldlRecOn (motive := fun u : State => u.stream m = s.stream m) _ _ rfl fun u hu i _ =>
    (withdrawSlot_stream_ne hm u i).trans hu

theorem endRun_stream_ne {n m : Nat} (hm : m ≠ n) (s : State) : (s.endRun n).stream m = s.stream m := by
  have hfreed := stream_of_work (freeRequester_work (s.endJobs fun j => j.stream == n) n) m
  have hqp : ∀ u : State, (if (Tbl.find u.fabric.qps (dlvQpn n)).isSome then
      u.updQp (dlvQpn n) fun q => { q with unacked := [] } else u).stream m = u.stream m := fun u => by
    split <;> rfl
  unfold State.endRun
  dsimp only
  rw [State.stream_updRun, if_neg hm, hqp, hfreed, endJobs_stream]

/-- R431: what a move makes of a stream. -/
def Stream.movedTo (x : Stream) (to_ status : Nat) : Stream :=
  { x with state := .moved, lastStatus := status, draining := false
           prot := { x.prot with state := 0, cause := 0, openStep := 0, unacked := [], moveTo := none, movedTo := to_,
                                 pendingMark := none } }

theorem moveStream_eq (s : State) (n to_ status : Nat) :
    s.moveStream n to_ status = ((s.endRun n).updStream n fun x => x.movedTo to_ status).retireSlots n := rfl

theorem moveStream_stored (s : State) (n to_ status : Nat) {key : Nat} (hkey : key ∉ tallyKeys) :
    (s.moveStream n to_ status).stored key = s.stored key := by
  have hmoved : ∀ (u : State) (f : Stream → Stream), (u.updStream n f).stored key = u.stored key := fun _ _ => rfl
  rw [moveStream_eq, retireSlots_stored, hmoved, endRun_stored s n hkey]

theorem moveStream_stands {n m : Nat} (hm : m ≠ n) (s : State) (to_ status : Nat) : StandsAs m s (s.moveStream n to_ status) := by
  refine ⟨?_, fun _ hkey => moveStream_stored s n to_ status hkey⟩
  rw [moveStream_eq, retireSlots_stream_ne hm, State.stream_updStream, if_neg hm, endRun_stream_ne hm]

/-- R431: a stream that is moved is MOVED with the status and MOVED_TO given; its fence record stays. -/
theorem moveStream_self (s : State) (n to_ status : Nat) : ((s.moveStream n to_ status).stream n).state = .moved ∧
    ((s.moveStream n to_ status).stream n).lastStatus = status ∧
    ((s.moveStream n to_ status).stream n).prot = ((s.stream n).movedTo to_ status).prot := by
  obtain ⟨⟨l, hstream⟩, -⟩ := updStream_retireSlots (s.endRun n) n (f := fun x => x.movedTo to_ status) fun _ => rfl
  rw [moveStream_eq, hstream, endRun_stream]
  exact ⟨rfl, rfl, rfl⟩

theorem endRun_plant (s : State) (n : Nat) : (s.endRun n).plant = s.plant := by
  have hqp : ∀ u : State, ((if (Tbl.find u.fabric.qps (dlvQpn n)).isSome then
      u.updQp (dlvQpn n) fun q => { q with unacked := [] } else u).updRun n fun r => { r with batches := [], toAdmit := [] }).plant =
      u.plant := fun u => by
    split <;> rfl
  unfold State.endRun
  dsimp only
  rw [hqp, plant_of_work (freeRequester_work _ n), endJobs_plant]

theorem retireSlots_plant (s : State) (n : Nat) : (s.retireSlots n).plant = s.plant := by
  rw [(retireSlots_keeps s n).2]
  rfl

theorem moveStream_plant (s : State) (n to_ status : Nat) : (s.moveStream n to_ status).plant = s.plant := by
  rw [moveStream_eq, retireSlots_plant, updStream_plant, endRun_plant]

theorem endSample_plant (s : State) (nsid idx status : Nat) : (s.endSample nsid idx status).plant = s.plant := by
  have hended : (s.endIngestJob nsid idx status).plant = s.plant := by
    unfold State.endIngestJob
    split
    · rfl
    · exact endJobs_plant s _
  have hclosed : ∀ o, (s.closeSample nsid idx status o).plant = s.plant := fun o => by
    have hcorpus : ∀ f, ((s.endIngestJob nsid idx status).updCorpus nsid f).plant = s.plant := fun f => by
      rw [updCorpus_eq]
      exact hended
    cases o with
    | none => exact hcorpus _
    | some k => exact (updStream_plant _ k _).trans (hcorpus _)
  unfold State.endSample
  split
  · rfl
  · split
    · rfl
    case h_2 o _ =>
      dsimp only
      split
      · exact (plant_of_work (vendorDone_work _ _ _ _ _)).trans (hclosed o.stream)
      · exact hclosed o.stream

theorem refuseIngest_plant (s : State) (n : Nat) : (s.refuseIngest n).plant = s.plant :=
  foldl_plant (fun u _ => foldl_plant (fun v _ => endSample_plant v _ _ _) _ u) _ s

/-! ## A device that fences itself (R431, R515) -/

/-- R431: a state that a self-fenced device leaves to a stream. -/
def StreamState.fenced (x : StreamState) : StreamState := if x = .idle then .idle else .moved

/-- R431: stream n moves where the device owns it. -/
def State.yield_ (s : State) (n : Nat) : State :=
  if (s.stream n).state = .idle || (s.stream n).state = .moved then s else (s.moveStream n 0xFFFF stMoved).refuseIngest n

theorem moveAll_eq (s : State) : s.moveAll = (List.range 64).foldl State.yield_ s := rfl

theorem yield_state (s : State) (n m : Nat) :
    ((s.yield_ n).stream m).state = if m = n then (s.stream m).state.fenced else (s.stream m).state := by
  unfold State.yield_
  by_cases hrest : (s.stream n).state = .idle || (s.stream n).state = .moved
  · rw [if_pos hrest]
    split
    case isTrue h =>
      subst h
      rcases (by simpa using hrest : (s.stream m).state = .idle ∨ (s.stream m).state = .moved) with h | h <;>
        simp [StreamState.fenced, h]
    case isFalse => rfl
  · rw [if_neg hrest, (refuseIngest_stands _ n m).state]
    split
    case isTrue h =>
      subst h
      rw [(moveStream_self s m 0xFFFF stMoved).1, StreamState.fenced, if_neg (by simp_all)]
    case isFalse h => rw [(moveStream_stands h s 0xFFFF stMoved).state]

theorem fenced_fenced (x : StreamState) : x.fenced.fenced = x.fenced := by
  unfold StreamState.fenced
  split
  · rfl
  · exact if_neg (by decide)

theorem foldl_yield_state (l : List Nat) (s : State) (m : Nat) :
    ((l.foldl State.yield_ s).stream m).state = if m ∈ l then (s.stream m).state.fenced else (s.stream m).state := by
  induction l generalizing s with
  | nil => rfl
  | cons n l ih =>
    rw [List.foldl_cons, ih, yield_state]
    by_cases hn : m = n
    · subst hn
      by_cases hl : m ∈ l <;> simp [hl, fenced_fenced]
    · simp [hn]

theorem yield_plant (s : State) (n : Nat) : (s.yield_ n).plant = s.plant := by
  unfold State.yield_
  split
  · rfl
  · exact (refuseIngest_plant _ n).trans (moveStream_plant s n _ _)

theorem moveAll_plant (s : State) : s.moveAll.plant = s.plant := foldl_plant yield_plant _ s

theorem find_ne_none_of_mem {α : Type} {t : Tbl α} {e : Nat × α} (h : e ∈ t) : Tbl.find t e.1 ≠ none := by
  induction t with
  | nil => exact absurd h List.not_mem_nil
  | cons a t ih =>
    unfold Tbl.find
    split
    · nofun
    case isFalse hne =>
      rcases List.mem_cons.mp h with heq | hmem
      · exact absurd (by rw [heq]) hne
      · exact ih hmem

/-- R438: a record that is closed leaves the others. -/
theorem mem_closeRecord {s : State} {m : Nat} {e : Nat × Mirror} (h : e ∈ (s.closeRecord m).ft.mirrors) :
    e ∈ s.ft.mirrors ∧ e.1 ≠ m := by
  unfold State.closeRecord at h
  split at h
  · rw [(pin_tells _ _ _).ft] at h
    exact mem_del.mp h
  case h_2 hnone =>
    refine ⟨h, fun hkey => ?_⟩
    exact find_ne_none_of_mem h (hkey ▸ hnone)

theorem foldl_closeRecord_left (l : List (Nat × Mirror)) (s : State) :
    ∀ e ∈ (l.foldl (fun (s : State) r => s.closeRecord r.1) s).ft.mirrors, e ∈ s.ft.mirrors ∧ e ∉ l := by
  induction l generalizing s with
  | nil => exact fun e he => ⟨he, List.not_mem_nil⟩
  | cons r l ih =>
    intro e he
    obtain ⟨hmem, hleft⟩ := ih (s.closeRecord r.1) e he
    obtain ⟨hold, hkey⟩ := mem_closeRecord hmem
    refine ⟨hold, fun hl => ?_⟩
    rcases List.mem_cons.mp hl with heq | hl
    · exact hkey (by rw [heq])
    · exact hleft hl

/-- R438: no mirror record is left. -/
theorem closeRecords_mirrors (s : State) : s.closeRecords.ft.mirrors = [] := by
  refine List.eq_nil_iff_forall_not_mem.mpr fun e he => ?_
  obtain ⟨hmem, hnot⟩ := foldl_closeRecord_left s.ft.mirrors s e he
  exact hnot hmem

theorem closeRecord_streams (s : State) (m : Nat) : (s.closeRecord m).streams = s.streams := by
  unfold State.closeRecord State.pin
  split
  · split <;> rfl
  · rfl

theorem closeRecord_od (s : State) (m : Nat) : (s.closeRecord m).od = s.od := by
  unfold State.closeRecord State.pin
  split
  · split <;> rfl
  · rfl

theorem closeRecords_kept (s : State) : s.closeRecords.streams = s.streams ∧ s.closeRecords.od = s.od :=
  List.foldlRecOn (motive := fun u : State => u.streams = s.streams ∧ u.od = s.od) s.ft.mirrors _ ⟨rfl, rfl⟩ fun u hu r _ =>
    ⟨(closeRecord_streams u r.1).trans hu.1, (closeRecord_od u r.1).trans hu.2⟩

/-- R431: the device has moved its streams, closed its records and noticed who refused it. -/
def State.fencesItself (s : State) (sender : Nat) : State := s.moveAll.closeRecords.recover 19 0 sender 0

theorem fencesItself_mirrors (s : State) (sender : Nat) : (s.fencesItself sender).ft.mirrors = [] := by
  rw [State.fencesItself, (recover_tells _ _ _ _ _).ft, closeRecords_mirrors]

theorem fencesItself_state (s : State) (sender n : Nat) (hn : n < 64) :
    ((s.fencesItself sender).stream n).state = if (s.stream n).state = .idle then .idle else .moved := by
  have hstream : (s.fencesItself sender).stream n = s.moveAll.stream n := by
    rw [State.fencesItself, stream_of_work (recover_work _ _ _ _ _)]
    unfold State.stream
    rw [(closeRecords_kept s.moveAll).1]
  rw [hstream, moveAll_eq, foldl_yield_state, if_pos (List.mem_range.mpr hn)]
  rfl

theorem fencesItself_coord (s : State) (sender : Nat) : (s.fencesItself sender).coord = s.coord := by
  have htorus : (s.fencesItself sender).stored oTorusGeometry = s.stored oTorusGeometry := by
    have hclosed : s.moveAll.closeRecords.stored oTorusGeometry = s.moveAll.stored oTorusGeometry := by
      unfold State.stored
      rw [(closeRecords_kept s.moveAll).2]
    rw [State.fencesItself, stored_of_work (recover_work _ _ _ _ _) (by decide), hclosed]
    exact stored_of_plant (moveAll_plant s) (by decide)
  unfold State.coord State.torus
  rw [htorus]

/-- R431: the device is SELF_FENCED. -/
def State.selfFenced (s : State) : State := { s with ft := { s.ft with state := 1 } }

/-- R515: the device will not rejoin by itself. -/
def State.noRejoin (s : State) : State := { s with ft := { s.ft with autoRejoin := false } }

section Marks

variable (s : State)

theorem selfFenced_ft : s.selfFenced.ft = { s.ft with state := 1 } := rfl
theorem selfFenced_stream (n : Nat) : s.selfFenced.stream n = s.stream n := rfl
theorem selfFenced_coord : s.selfFenced.coord = s.coord := rfl
theorem noRejoin_ft : s.noRejoin.ft = { s.ft with autoRejoin := false } := rfl
theorem noRejoin_stream (n : Nat) : s.noRejoin.stream n = s.stream n := rfl
theorem noRejoin_coord : s.noRejoin.coord = s.coord := rfl
theorem rejoinRing_ft : s.rejoinRing.ft = { s.ft with state := 0 } := rfl
theorem rejoinRing_out : s.rejoinRing.out = s.out ++ [.rejoined s.coord] := rfl

end Marks

theorem selfFence_serving {s : State} (h : s.ft.state = 0) (sender : Nat) :
    s.selfFence sender = (s.fencesItself sender).selfFenced := by
  have hmark : ∀ u : State, (if s.ft.state = 0 then { u with ft := { u.ft with state := 1 } } else u) = u.selfFenced :=
    fun u => if_pos h
  exact hmark _

/-! ## FAILED messages (R426, R431, R515) -/

/-- R515: the device is SELF_FENCED and will not rejoin by itself. -/
def State.staysOut (s : State) (sender : Nat) : State := (s.selfFence sender).noRejoin

section StaysOut

variable {s : State} (h : s.ft.state = 0) (sender : Nat)
include h

theorem staysOut_ft : (s.staysOut sender).ft.state = 1 ∧ (s.staysOut sender).ft.autoRejoin = false ∧
    (s.staysOut sender).ft.mirrors = [] := by
  have hmirrors := fencesItself_mirrors s sender
  rw [State.staysOut, selfFence_serving h, noRejoin_ft, selfFenced_ft]
  generalize (s.fencesItself sender).ft = x at hmirrors ⊢
  exact ⟨rfl, rfl, hmirrors⟩

theorem staysOut_stream (n : Nat) : (s.staysOut sender).stream n = (s.fencesItself sender).stream n := by
  rw [State.staysOut, selfFence_serving h, noRejoin_stream, selfFenced_stream]

theorem staysOut_coord : (s.staysOut sender).coord = s.coord := by
  rw [State.staysOut, selfFence_serving h, noRejoin_coord, selfFenced_coord, fencesItself_coord]

end StaysOut

section Messages

variable {s : State} (hup : s.up = true) (hrm : s.rmRuns 1 = true) (hstep : s.sys.step = 0)
include hup hrm hstep

theorem exec_failedMessage (sender peer gtc : Nat) : exec (.failedMessageReceive sender peer gtc) s =
    if peer ≠ s.coord then .next ((s.addFailed peer gtc).losesDevice peer)
    else if s.ft.state = 1 then .next s
    else if s.ft.autoRejoin && ((List.range Config.streams).all fun n => (s.stream n).state == .idle) && s.ft.state = 0 then
      .next (s.staysOut sender).rejoinRing
    else .next (s.staysOut sender) := by
  have hrow : exec (.failedMessageReceive sender peer gtc) s = execFailedMessageReceive sender peer gtc s := rfl
  rw [hrow, execFailedMessageReceive, whenRm_runs _ hup hrm (.inl hstep)]
  rfl

theorem exec_failedMessage_self {sender peer gtc : Nat} (hpeer : peer = s.coord) (hft : s.ft.state = 0)
    (hstays : s.ft.autoRejoin = false) : exec (.failedMessageReceive sender peer gtc) s = .next (s.staysOut sender) := by
  rw [exec_failedMessage hup hrm hstep, if_neg (by simp [hpeer]), if_neg (by omega), if_neg (by simp [hstays])]

theorem exec_failedMessage_rejoins {sender peer gtc : Nat} (hpeer : peer = s.coord) (hft : s.ft.state = 0)
    (hauto : s.ft.autoRejoin = true) (hidle : ∀ n, n < 64 → (s.stream n).state = .idle) :
    exec (.failedMessageReceive sender peer gtc) s = .next (s.staysOut sender).rejoinRing := by
  have hall : ((List.range Config.streams).all fun n => (s.stream n).state == .idle) = true :=
    List.all_eq_true.mpr fun n hn => by rw [hidle n (List.mem_range.mp hn)]; rfl
  rw [exec_failedMessage hup hrm hstep, if_neg (by simp [hpeer]), if_neg (by omega), if_pos (by rw [hall]; simp [hauto, hft])]

/-! ## FENCE messages and refusals (R430, R431) -/

/-- R430, R431: what a fence record means to stream n. -/
def State.meetsFence (s : State) (corpus member : Nat) (f : Nat × Nat) (by_ n : Nat) : State :=
  if s.stored (oCorpusId n) ≠ corpus || s.member n ≠ member || !fenceLt (s.fenceOf n) f then s
  else
    match (s.stream n).state with
    | .idle => s
    | .moved => if (s.stream n).prot.movedTo = 0xFFFF then s.updProt n fun p => { p with movedTo := by_ } else s
    | _ => (s.moveStream n by_ stMoved).refuseIngest n

theorem exec_fenceMessage (corpus member epoch owner : Nat) : exec (.fenceMessageReceive corpus member epoch owner) s =
    .next ((List.range 64).foldl (fun u n => u.meetsFence corpus member (epoch, owner) (s.coordOfRank owner) n)
      (s.raiseFence corpus member (epoch, owner))) := by
  have hrow : exec (.fenceMessageReceive corpus member epoch owner) s = execFenceMessageReceive corpus member epoch owner s := rfl
  rw [hrow, execFenceMessageReceive, whenRm_runs _ hup hrm (.inl hstep)]
  rfl

end Messages

/-- R431: stream n is MOVED to a device. -/
def State.movedOff (s : State) (n by_ : Nat) : Prop := (s.stream n).state = .moved ∧ (s.stream n).prot.movedTo = by_

theorem movedOff_of_stands {s t : State} {n by_ : Nat} (h : StandsAs n s t) (hmoved : s.movedOff n by_) : t.movedOff n by_ := by
  obtain ⟨hstate, hto⟩ := hmoved
  exact ⟨h.state.trans hstate, by rw [h.prot, hto]⟩

theorem moveStream_movedOff (s : State) (n by_ status : Nat) : ((s.moveStream n by_ status).refuseIngest n).movedOff n by_ := by
  obtain ⟨hstate, -, hprot⟩ := moveStream_self s n by_ status
  exact movedOff_of_stands (refuseIngest_stands _ n n) ⟨hstate, by rw [hprot]; rfl⟩

/-- R431: a fence of another stream leaves a stream as it stands. -/
theorem meetsFence_ne {m n : Nat} (hm : m ≠ n) (s : State) (corpus member : Nat) (f : Nat × Nat) (by_ : Nat) :
    StandsAs m s (s.meetsFence corpus member f by_ n) := by
  unfold State.meetsFence
  split
  · exact .refl m s
  · split
    · exact .refl m s
    · split
      · refine ⟨?_, fun _ _ => rfl⟩
        rw [State.updProt, State.stream_updStream, if_neg hm]
      · exact .refl m s
    · exact (moveStream_stands hm s by_ stMoved).trans (refuseIngest_stands _ n m)

theorem meetsFence_moved (s : State) (corpus member : Nat) (f : Nat × Nat) (by_ n : Nat) (h : s.movedOff n by_) :
    (s.meetsFence corpus member f by_ n).movedOff n by_ := by
  obtain ⟨hstate, hto⟩ := h
  unfold State.meetsFence
  rw [hstate]
  dsimp only
  split
  · exact ⟨hstate, hto⟩
  · split
    · refine ⟨?_, ?_⟩
      · rw [State.updProt, State.stream_updStream, if_pos rfl]
        exact hstate
      · rw [State.updProt, State.stream_updStream, if_pos rfl]
    · exact ⟨hstate, hto⟩

/-- R430, R431: stream n, which the device owns, is one that the record fences. -/
structure Fenced (s : State) (corpus member : Nat) (f : Nat × Nat) (n : Nat) : Prop where
  corpus : s.stored (oCorpusId n) = corpus
  member : s.member n = member
  lower : fenceLt (s.fenceOf n) f = true
  owned : (s.stream n).state ≠ .idle ∧ (s.stream n).state ≠ .moved

theorem oCorpusId_untallied {n : Nat} (hn : n < 64) : oCorpusId n ∉ tallyKeys := by
  simp [tallyKeys, oCorpusId, oNoticesLost, oPoolStateEvents, oRetiredBuffers, oJobsRetried]
  omega

theorem Fenced.of_stands {s t : State} {corpus member n : Nat} {f : Nat × Nat} (h : Fenced s corpus member f n)
    (hst : StandsAs n s t) (hn : n < 64) : Fenced t corpus member f n :=
  ⟨(hst.stored _ (oCorpusId_untallied hn)).trans h.corpus, (hst.member hn).trans h.member, hst.fenceOf ▸ h.lower,
    hst.state ▸ h.owned⟩

theorem Fenced.moves {s : State} {corpus member n : Nat} {f : Nat × Nat} (h : Fenced s corpus member f n) (by_ : Nat) :
    (s.meetsFence corpus member f by_ n).movedOff n by_ := by
  obtain ⟨hcorpus, hmember, hlower, hidle, hmoved⟩ := h
  unfold State.meetsFence
  rw [if_neg (by simp [hcorpus, hmember, hlower])]
  split
  case h_1 h => exact absurd h hidle
  case h_2 h => exact absurd h hmoved
  case h_3 => exact moveStream_movedOff s n by_ stMoved

/-- R431: the stream moves when its turn comes, whatever the streams before it, and stays moved. -/
theorem foldl_meetsFence {s : State} {corpus member n : Nat} {f : Nat × Nat} (h : Fenced s corpus member f n) (hn : n < 64)
    (by_ : Nat) {l : List Nat} (hl : n ∈ l) : (l.foldl (fun u k => u.meetsFence corpus member f by_ k) s).movedOff n by_ := by
  have hstays : ∀ (l : List Nat) (u : State), u.movedOff n by_ →
      (l.foldl (fun u k => u.meetsFence corpus member f by_ k) u).movedOff n by_ := fun l u hu =>
    List.foldlRecOn (motive := fun v : State => v.movedOff n by_) l _ hu fun v hv k _ => by
      by_cases hk : n = k
      · rw [← hk]
        exact meetsFence_moved v corpus member f by_ n hv
      · exact movedOff_of_stands (meetsFence_ne hk v corpus member f by_) hv
  induction l generalizing s with
  | nil => exact absurd hl List.not_mem_nil
  | cons k l ih =>
    rw [List.foldl_cons]
    by_cases hk : n = k
    · rw [← hk]
      exact hstays l _ (h.moves by_)
    · exact ih (h.of_stands (meetsFence_ne hk s corpus member f by_) hn) ((List.mem_cons.mp hl).resolve_left hk)

theorem raiseFence_stands (s : State) (corpus member : Nat) (f : Nat × Nat) (n : Nat) :
    StandsAs n s (s.raiseFence corpus member f) := by
  have hlocation : StandsAs n s (s.raiseLocation corpus member f) := by
    unfold State.raiseLocation State.raiseMember
    split
    · rw [updCorpus_eq]
      exact ⟨rfl, fun _ _ => rfl⟩
    · exact .refl n s
  rw [raiseFence_eq]
  exact hlocation.trans ⟨rfl, fun _ _ => rfl⟩

section Refusal

variable {s : State} {n : Nat} (hup : s.up = true) (hrm : s.rmRuns 1 = true) (hstep : s.sys.step = 0) (hn : n < 64)
include hup hrm hstep hn

theorem exec_staleFenceRefusal_idle (h : (s.stream n).state = .idle) (epoch owner : Nat) :
    exec (.staleFenceRefusal n epoch owner) s = .next s := by
  have hrow : exec (.staleFenceRefusal n epoch owner) s = execStaleFenceRefusal n epoch owner s := rfl
  rw [hrow, execStaleFenceRefusal, withRmStream_runs _ hn hup hrm (.inl hstep)]
  dsimp only
  rw [h]

theorem exec_staleFenceRefusal_moved (h : (s.stream n).state = .moved) (epoch owner : Nat)
    (hto : (s.stream n).prot.movedTo = 0xFFFF) : exec (.staleFenceRefusal n epoch owner) s =
      .next (s.updProt n fun p => { p with movedTo := s.coordOfRank owner }) := by
  have hrow : exec (.staleFenceRefusal n epoch owner) s = execStaleFenceRefusal n epoch owner s := rfl
  rw [hrow, execStaleFenceRefusal, withRmStream_runs _ hn hup hrm (.inl hstep)]
  dsimp only
  rw [h]
  exact if_pos hto

theorem exec_staleFenceRefusal_owned (hidle : (s.stream n).state ≠ .idle) (hmoved : (s.stream n).state ≠ .moved)
    (epoch owner : Nat) : exec (.staleFenceRefusal n epoch owner) s =
      if fenceLt (s.fenceOf n) (epoch, owner) then
        .next ((((s.count oFenceRefusedOwn 1).moveStream n (s.coordOfRank owner) stStaleFence).refuseIngest n).recover 19 0
          (s.coordOfRank owner) epoch)
      else .next s := by
  have hrow : exec (.staleFenceRefusal n epoch owner) s = execStaleFenceRefusal n epoch owner s := rfl
  rw [hrow, execStaleFenceRefusal, withRmStream_runs _ hn hup hrm (.inl hstep)]
  dsimp only
  split
  case h_1 h => exact absurd h hidle
  case h_2 h => exact absurd h hmoved
  case h_3 => rfl

end Refusal

/-! ## REJOIN (R438) -/

theorem exec_rejoin {s t : State} {r : OdReq} {role : Role} (h : s.ReceivesWrite r oRejoin role t) :
    exec (.rejoin r) s = (acceptIf t.rejoinOk t t.rejoinRing).answered r := by
  have hrow : exec (.rejoin r) s = odRow oRejoin (fun _ => true) r s := rfl
  rw [hrow, odRow_answered h rfl (by decide) (isLimited_eq_false (by decide))]
  rfl

theorem rejoinOk_iff (t : State) : t.rejoinOk = true ↔
    t.ft.state = 1 ∧ ∀ n, n < 64 → (t.stream n).state = .idle ∨ (t.stream n).state = .moved := by
  simp [State.rejoinOk, Config.streams, List.all_eq_true]

end Sys2Proof.Machine

open Sys2Proof Sys2Proof.Machine in
/-- Settles O39: what a move, a fence and a self-fence make of a stream, each said once (`StandsAs`, `State.movedOff`), and the rows
by their conditions. -/
theorem fencesMoveStreams : Obligations.FencesMoveStreams := by
  unfold Obligations.FencesMoveStreams
  refine ⟨?failed, ?refusal, ?fence, ?rejoin⟩
  case failed =>
    intro s sender peer gtc hup hrm hstep
    have hexec := exec_failedMessage hup hrm hstep sender peer gtc
    refine ⟨fun hpeer => ⟨_, hexec.trans (if_pos hpeer), ?_⟩,
      fun hpeer hft hstays => ⟨_, exec_failedMessage_self hup hrm hstep hpeer hft hstays, ?_⟩,
      fun hpeer hft hauto hidle => ⟨_, exec_failedMessage_rejoins hup hrm hstep hpeer hft hauto hidle, ?_⟩, fun hpeer hft => ?_⟩
    · rw [(losesDevice_spreads _ peer).failed]
      exact addFailed_mem s peer gtc
    · obtain ⟨hstate, -, hmirrors⟩ := staysOut_ft hft sender
      refine ⟨hstate, hmirrors, fun n hn => ?_⟩
      rw [staysOut_stream hft]
      exact fencesItself_state s sender n hn
    · obtain ⟨-, hnever, hmirrors⟩ := staysOut_ft hft sender
      rw [rejoinRing_ft, rejoinRing_out, staysOut_coord hft]
      exact ⟨rfl, hnever, hmirrors, List.mem_append_right _ (List.mem_singleton_self _)⟩
    · rw [hexec, if_neg (by simp [hpeer]), if_pos hft]
  case refusal =>
    intro s epoch owner n hup hrm hstep hn
    refine ⟨fun hidle => exec_staleFenceRefusal_idle hup hrm hstep hn hidle epoch owner, fun hidle hmoved hlower => ?_,
      fun hmoved hto => exec_staleFenceRefusal_moved hup hrm hstep hn hmoved epoch owner hto⟩
    rw [exec_staleFenceRefusal_owned hup hrm hstep hn hidle hmoved]
    exact if_neg (by simp [hlower])
  case fence =>
    intro s corpus member epoch owner n hup hrm hstep hn hcorpus hmember hlower hidle hmoved
    have hfenced : Fenced s corpus member (epoch, owner) n := ⟨hcorpus, hmember, hlower, hidle, hmoved⟩
    refine ⟨⟨_, exec_fenceMessage hup hrm hstep corpus member epoch owner, ?_⟩,
      ⟨_, (exec_staleFenceRefusal_owned hup hrm hstep hn hidle hmoved epoch owner).trans (if_pos hlower), ?_⟩⟩
    · exact foldl_meetsFence (hfenced.of_stands (raiseFence_stands s corpus member (epoch, owner) n) hn) hn _
        (List.mem_range.mpr hn)
    · have hnotice := StandsAs.of_work (recover_work (((s.count oFenceRefusedOwn 1).moveStream n (s.coordOfRank owner)
        stStaleFence).refuseIngest n) 19 0 (s.coordOfRank owner) epoch) n
      have hstands := (refuseIngest_stands ((s.count oFenceRefusedOwn 1).moveStream n (s.coordOfRank owner) stStaleFence) n n).trans
        hnotice
      obtain ⟨hstate, hstatus, hprot⟩ := moveStream_self (s.count oFenceRefusedOwn 1) n (s.coordOfRank owner) stStaleFence
      rw [hstands.state, hstands.lastStatus, hstands.prot, hstands.stored _ (by decide), moveStream_stored _ _ _ _ (by decide), hprot,
        stored_count_self]
      exact ⟨hstate, hstatus, rfl, rfl⟩
  case rejoin =>
    intro s t r role h
    obtain ⟨hyes, hno⟩ := acceptIf_answered t.rejoinOk t t.rejoinRing r
    rw [exec_rejoin h]
    refine ⟨fun hmay => ⟨t.rejoinRing, hyes ((rejoinOk_iff t).mpr hmay), rfl, rfl⟩, fun hmay => hno ?_⟩
    exact Bool.eq_false_iff.mpr fun hok => hmay ((rejoinOk_iff t).mp hok)
end

section
/-! Mirrors of pairs: the owner's side, the partner's side, and the takeover of a record (R420 to R424, R429, R433, R435 to R437). -/

namespace Sys2Proof.Machine

open Sys2Proof

/-! ## The owner's side (R421 to R424) -/

theorem askHandoff_stream (s : State) (n m : Nat) : (s.askHandoff n).stream m = s.stream m := by
  unfold State.askHandoff
  dsimp only
  split
  · split <;> rfl
  · rfl

/-- R424: the condition under which a mark of stream n is begun. -/
def State.markWaits (s : State) (n : Nat) : Prop :=
  (s.stream n).state ≠ .running ∨ s.gtc < (s.stream n).prot.lastMark + 10 * Config.sec ∨ (s.stream n).prot.pendingMark ≠ none ∨
    s.mirrors = false ∨ s.flashOn = false

/-- R424: the snapshot that becomes a mark is taken. -/
def State.beginsMark (s : State) (n : Nat) : State := (s.takeSnapshot n).updProt n fun p => { p with lastMark := s.gtc }

/-- R424: the mark that waits for its holder: its bytes, SNAP_SEQ, the time and the holder. -/
def State.markSent (s : State) (n : Nat) : Bytes × Nat × Nat × Nat :=
  (((s.beginsMark n).stream n).snapshot.getD [], ((s.beginsMark n).stream n).snapSeq, s.gtc, s.partnerOf n)

/-- R424: the mark goes to the holder of the mirror record. -/
def State.sendsMark (s : State) (n : Nat) : State :=
  ((s.beginsMark n).emit (.mirror (s.partnerOf n) mkMark n (s.markSent n).1)).updProt n fun p =>
    { p with pendingMark := some (s.markSent n) }

theorem beginsMark_stream (s : State) (n : Nat) : (s.beginsMark n).stream n = { s.stream n with
    snapshot := some (s.snapshotBytes n ((s.stream n).snapSeq + 1)), snapSeq := (s.stream n).snapSeq + 1
    prot := { (s.stream n).prot with lastMark := s.gtc } } := by
  unfold State.beginsMark State.takeSnapshot
  rw [State.stream_updProt, if_pos rfl, State.stream_updStream, if_pos rfl]

theorem sendsMark_stream (s : State) (n : Nat) : (s.sendsMark n).stream n = { (s.beginsMark n).stream n with
    prot := { ((s.beginsMark n).stream n).prot with pendingMark := some (s.markSent n) } } := by
  unfold State.sendsMark
  rw [State.stream_updProt, if_pos rfl]
  rfl

theorem markDone_stream (s : State) (n : Nat) (b : Bytes) (seq gtc : Nat) : (s.markDone n b seq gtc).stream n = { s.stream n with
    prot := { (s.stream n).prot with markSeq := seq, markGtc := gtc, pendingMark := none } } := by
  unfold State.markDone
  rw [State.stream_updProt, if_pos rfl]
  rfl

theorem markDone_marksOf (s : State) (n : Nat) (b : Bytes) (seq gtc : Nat) :
    (s.markDone n b seq gtc).marksOf n = (b :: s.marksOf n).take 2 := Tbl.get_set_self s.flash.marks [] n _

section Owner

variable {s : State} {n : Nat} (hn : n < 64) (hup : s.up = true) (hrm : s.rmRuns 1 = true) (hstep : s.sys.step = 0)
include hn hup hrm hstep

theorem exec_mirrorOpenAck (cause : Nat) : exec (.mirrorOpenAck n cause) s =
    if (s.stream n).prot.state ≠ 1 || (s.stream n).prot.openStep = 0 then .next s
    else if cause ≠ 0 then .next (s.unprotect n cause)
    else if (s.stream n).prot.openStep < 4 then .next (s.openSend n ((s.stream n).prot.openStep + 1))
    else .next (s.updProt n fun p => { p with state := 2, openStep := 0 }) := by
  have hrow : exec (.mirrorOpenAck n cause) s = execMirrorOpenAck n cause s := rfl
  rw [hrow, execMirrorOpenAck, withRmStream_runs _ hn hup hrm (.inl hstep)]

theorem exec_mirrorAck_stale {seq : Nat} (h : ∀ u ∈ (s.stream n).prot.unacked, seq < u.1) :
    exec (.mirrorAckReceive n seq) s = .next s := by
  have hnone : ((s.stream n).prot.unacked.filter fun u => u.1 ≤ seq) = [] :=
    List.filter_eq_nil_iff.mpr fun u hu => by simpa using h u hu
  have hrow : exec (.mirrorAckReceive n seq) s = execMirrorAckReceive n seq s := rfl
  rw [hrow, execMirrorAckReceive, withRmStream_runs _ hn hup hrm (.inl hstep)]
  dsimp only
  rw [hnone]
  rfl

/-- R422, R423: the snapshots up to SNAP_SEQ leave what is to be acknowledged, and a lag ends. -/
theorem exec_mirrorAck {seq : Nat} {g : Nat × Nat × Nat}
    (h : ((s.stream n).prot.unacked.filter fun u => u.1 ≤ seq).getLast? = some g) : ∃ t, exec (.mirrorAckReceive n seq) s = .next t ∧
      (t.stream n).prot.unacked = (s.stream n).prot.unacked.filter (fun u => !(u.1 ≤ seq)) ∧
      (t.stream n).prot.ackedBatch = g.2.1 ∧ ((s.stream n).prot.state = 3 → (t.stream n).prot.state = 2) := by
  have hrow : exec (.mirrorAckReceive n seq) s = execMirrorAckReceive n seq s := rfl
  rw [hrow, execMirrorAckReceive, withRmStream_runs _ hn hup hrm (.inl hstep)]
  dsimp only
  rw [h]
  refine ⟨_, rfl, ?_⟩
  rw [askHandoff_stream, State.stream_updProt, if_pos rfl]
  exact ⟨rfl, rfl, fun hlag => if_pos (by simp [hlag])⟩

theorem exec_mirrorLag : exec (.mirrorLag n) s =
    if (s.stream n).prot.state = 2 && (s.stream n).prot.unacked.any fun u => u.2.2 + 100 * Config.ms < s.gtc then
      .next (s.updProt n fun p => { p with state := 3 })
    else .next s := by
  have hrow : exec (.mirrorLag n) s = execMirrorLag n s := rfl
  rw [hrow, execMirrorLag, withRmStream_runs _ hn hup hrm (.inl hstep)]

theorem exec_markTimer_waits (h : s.markWaits n) : exec (.markTimer n) s = .next s := by
  have hrow : exec (.markTimer n) s = execMarkTimer n s := rfl
  rw [hrow, execMarkTimer, withRmStream_runs _ hn hup hrm (.inl hstep)]
  refine if_pos ?_
  rcases h with h | h | h | h | h
  · simp [h]
  · simp [h]
  · simp [Option.isSome_iff_ne_none.mpr h]
  · simp [h]
  · simp [h]

theorem exec_markTimer (h : ¬ s.markWaits n) : exec (.markTimer n) s = .next (if s.mirrored n then s.sendsMark n else
    (s.beginsMark n).markDone n (((s.beginsMark n).stream n).snapshot.getD []) ((s.beginsMark n).stream n).snapSeq s.gtc) := by
  have hrow : exec (.markTimer n) s = execMarkTimer n s := rfl
  simp only [State.markWaits, not_or, not_not, not_lt, Bool.not_eq_false] at h
  obtain ⟨hruns, hdue, hnone, hmirrors, hflash⟩ := h
  rw [hrow, execMarkTimer, withRmStream_runs _ hn hup hrm (.inl hstep)]
  dsimp only
  rw [if_neg (by simp [hruns, hdue, hnone, hmirrors, hflash])]
  cases hmirrored : s.mirrored n <;> rfl

theorem exec_markAck_none (h : (s.stream n).prot.pendingMark = none) (c : Nat) : exec (.markAckReceive n c) s = .next s := by
  have hrow : exec (.markAckReceive n c) s = execMarkAckReceive n c s := rfl
  rw [hrow, execMarkAckReceive, withRmStream_runs _ hn hup hrm (.inl hstep), h]

theorem exec_markAck {b : Bytes} {seq g c : Nat} (h : (s.stream n).prot.pendingMark = some (b, seq, g, c)) (d : Nat) :
    exec (.markAckReceive n d) s = if c = d then .next (s.markDone n b seq g) else .next s := by
  have hrow : exec (.markAckReceive n d) s = execMarkAckReceive n d s := rfl
  rw [hrow, execMarkAckReceive, withRmStream_runs _ hn hup hrm (.inl hstep), h]

end Owner

/-! ## PARTNER and MOVE_TO (R420, R435) -/

theorem isLimited_pair {key : Nat} (h : 0x581000 ≤ key) (h' : key < 0x600000) : isLimited key = false :=
  isLimited_eq_false (counted_eq_false (by omega))

/-- R420, R435: the objects of OD 5810+n: PARTNER, and else MOVE_TO. -/
theorem applyObject_pair {key n u : Nat} (hkey : key = 256 * (0x5810 + n) + u) (hn : n < 64) (hu : u < 256) (t : State)
    (src : OdSource) (role : Role) (v : Nat) (data : Bytes) : t.applyObject src role key v data =
      if u = 1 then accept (t.setPartner n v)
      else if t.scrubbing n then refuse t stScrub else ofExcept0 t (t.moveToCmd n v) := by
  have hidx : key / 256 = 0x5810 + n := by omega
  have hsub : key % 256 = u := by omega
  unfold State.applyObject
  dsimp only
  rw [hidx, hsub, objectOff_upper (by omega), if_neg Bool.false_ne_true, if_neg (by omega), if_neg (by omega), if_neg (by omega),
    if_neg (by simp only [Bool.and_eq_true, decide_eq_true_eq]; omega),
    if_neg (by simp only [Bool.and_eq_true, decide_eq_true_eq]; omega),
    if_neg (by simp only [Bool.and_eq_true, decide_eq_true_eq]; omega),
    if_neg (by unfold oGtcRoot; omega), if_neg (by omega), if_neg (by omega),
    if_neg (by simp only [Bool.and_eq_true, decide_eq_true_eq]; omega),
    if_neg (by simp only [Bool.and_eq_true, decide_eq_true_eq]; omega), if_neg (by omega),
    if_pos (by simp only [Bool.and_eq_true, decide_eq_true_eq]; omega), Nat.add_sub_cancel_left]

section Pair

variable {s t : State} {r : OdReq} {n : Nat} {role : Role} (hn : n < 64)
include hn

theorem exec_partnerWrite (h : s.ReceivesWrite r (oPartner n) role t) :
    exec (.partnerWrite r n) s = (t.setPartner n (leNat r.data)).wroteOk r := by
  have hrow : exec (.partnerWrite r n) s = odRow (blockKey (decide (n < 64)) (oPartner n)) (fun _ => true) r s := rfl
  have hblock : blockKey (decide (n < 64)) (oPartner n) = oPartner n := by simp [blockKey, hn]
  rw [hrow, hblock, odRow_answered h rfl (by unfold oPartner; omega)
    (isLimited_pair (by unfold oPartner; omega) (by unfold oPartner; omega)),
    normalValue_upper (by unfold oPartner; omega), applyObject_pair (u := 1) (by unfold oPartner; omega) hn (by decide)]
  rfl

theorem exec_moveTo (h : s.ReceivesWrite r (oMoveTo n) role t) (hscrub : t.scrubbing n = false) :
    exec (.moveTo r n) s = (ofExcept0 t (t.moveToCmd n (leNat r.data))).answered r := by
  have hrow : exec (.moveTo r n) s = odRow (blockKey (decide (n < 64)) (oMoveTo n)) (fun _ => true) r s := rfl
  have hblock : blockKey (decide (n < 64)) (oMoveTo n) = oMoveTo n := by simp [blockKey, hn]
  rw [hrow, hblock, odRow_answered h rfl (by unfold oMoveTo; omega)
    (isLimited_pair (by unfold oMoveTo; omega) (by unfold oMoveTo; omega)),
    normalValue_upper (by unfold oMoveTo; omega), applyObject_pair (u := 9) (by unfold oMoveTo; omega) hn (by decide),
    if_neg (by decide), if_neg (by simp [hscrub])]

theorem oPartner_untallied : oPartner n ∉ tallyKeys := by
  simp [tallyKeys, oPartner, oNoticesLost, oPoolStateEvents, oRetiredBuffers, oJobsRetried]
  omega

end Pair

theorem unprotect_stored (s : State) (n cause : Nat) {key : Nat} (hkey : key ∉ tallyKeys) :
    (s.unprotect n cause).stored key = s.stored key := stored_of_work (recover_work _ _ _ _ _) hkey

theorem openMirror_stored (s : State) (n : Nat) {key : Nat} (hkey : key ∉ tallyKeys) : (s.openMirror n).stored key = s.stored key := by
  unfold State.openMirror
  dsimp only
  split
  · exact unprotect_stored _ n 4 hkey
  · split
    · exact unprotect_stored _ n 1 hkey
    · split <;> rfl

theorem unprotect_prot (s : State) (n cause : Nat) : ((s.unprotect n cause).stream n).prot.state = 4 ∧
    ((s.unprotect n cause).stream n).prot.cause = cause := by
  unfold State.unprotect
  rw [stream_of_work (recover_work _ _ _ _ _), State.stream_updProt, if_pos rfl]
  exact ⟨rfl, rfl⟩

/-- R420: without a partner the stream is UNPROTECTED with cause 4. -/
theorem openMirror_none {s : State} {n : Nat} (h : s.partnerOf n = 0xFFFF) :
    ((s.openMirror n).stream n).prot.state = 4 ∧ ((s.openMirror n).stream n).prot.cause = 4 := by
  unfold State.openMirror
  dsimp only
  rw [if_pos h]
  exact unprotect_prot _ n 4

theorem partnerOf_store (s : State) (n v : Nat) : (s.store (oPartner n) v).partnerOf n = v := by
  unfold State.partnerOf State.store
  rw [Tbl.find_set, if_pos rfl]
  rfl

theorem setPartner_stored (t : State) {n : Nat} (hn : n < 64) (v : Nat) : (t.setPartner n v).stored (oPartner n) = v := by
  unfold State.setPartner
  dsimp only
  split
  · rw [openMirror_stored _ n (oPartner_untallied hn), State.stored_store_self]
  · rw [State.stored_store_self]

theorem setPartner_none {t : State} {n : Nat} (h : (t.stream n).state = .running) :
    ((t.setPartner n 0xFFFF).stream n).prot.state = 4 ∧ ((t.setPartner n 0xFFFF).stream n).prot.cause = 4 := by
  unfold State.setPartner
  dsimp only
  rw [if_pos h]
  exact openMirror_none (partnerOf_store _ n _)

theorem sendSnapshot_moveTo (s : State) (n : Nat) : ((s.sendSnapshot n).stream n).prot.moveTo = (s.stream n).prot.moveTo := by
  have htaken : ((s.takeBoundary n).stream n).prot = (s.stream n).prot := by
    unfold State.takeBoundary
    rw [State.stream_updStream, if_pos rfl]
  unfold State.sendSnapshot
  dsimp only
  rw [State.stream_updProt, if_pos rfl]
  show ((s.takeBoundary n).stream n).prot.moveTo = _
  rw [htaken]

theorem moveToCmd_refused {t : State} {n v : Nat} (h : (t.stream n).state ≠ .running ∨ (t.stream n).prot.state ≠ 2 ∨
    t.partnerOf n ≠ v ∨ (t.stream n).prot.moveTo ≠ none) : t.moveToCmd n v = .error stState := by
  refine if_pos ?_
  rcases h with h | h | h | h
  · simp [h]
  · simp [h]
  · simp [h]
  · simp [Option.isSome_iff_ne_none.mpr h]

/-- R435: a planned handoff is kept. -/
theorem moveToCmd_kept {t : State} {n v : Nat} (hruns : (t.stream n).state = .running) (hprot : (t.stream n).prot.state = 2)
    (hpartner : t.partnerOf n = v) (hfree : (t.stream n).prot.moveTo = none) :
    ∃ u, t.moveToCmd n v = .ok u ∧ (u.stream n).prot.moveTo = some v := by
  have hmoving : ((t.updProt n fun p => { p with moveTo := some v }).stream n).prot.moveTo = some v := by
    rw [State.stream_updProt, if_pos rfl]
  unfold State.moveToCmd
  dsimp only
  rw [if_neg (by simp [hruns, hprot, hpartner, hfree])]
  split
  · exact ⟨_, rfl, (sendSnapshot_moveTo _ n).trans hmoving⟩
  · exact ⟨_, rfl, hmoving⟩

/-! ## Mirror records (R420, R429, R430) -/

theorem fenceLt_irrefl (f : Nat × Nat) : fenceLt f f = false := by simp [fenceLt]

theorem mirror_setMirror_self (s : State) (m : Nat) (x : Mirror) : (s.setMirror m x).mirror m = some x := by
  unfold State.mirror State.setMirror
  rw [Tbl.find_set, if_pos rfl]

theorem find_map_value {α : Type} (g : α → α) (t : Tbl α) (k : Nat) :
    Tbl.find (t.map fun e => (e.1, g e.2)) k = (Tbl.find t k).map g := by
  induction t with
  | nil => rfl
  | cons e t ih =>
    rw [List.map_cons, Tbl.find, Tbl.find, ih]
    split <;> rfl

theorem mirror_raiseFence (s : State) (corpus member : Nat) (f : Nat × Nat) (m : Nat) :
    (s.raiseFence corpus member f).mirror m = (s.mirror m).map fun x => x.raised corpus member f := by
  rw [raiseFence_eq]
  exact find_map_value (fun x : Mirror => x.raised corpus member f) s.ft.mirrors m

theorem raised_self {x : Mirror} {f : Nat × Nat} (h : x.fence = f) (corpus member : Nat) : x.raised corpus member f = x := by
  rw [Mirror.raised, h, fenceLt_irrefl, Bool.and_false, if_neg Bool.false_ne_true]

theorem mirror_of_tells {s t : State} (h : Tells s t) (m : Nat) : t.mirror m = s.mirror m := by
  unfold State.mirror
  rw [h.ft]

theorem mirror_closeRecord_self (s : State) (m : Nat) : (s.closeRecord m).mirror m = none := by
  unfold State.closeRecord
  split
  · rw [mirror_of_tells (pin_tells ..)]
    unfold State.mirror
    rw [Tbl.find_del, if_pos rfl]
  case h_2 h => exact h

theorem pin_out (s : State) (digest : Bytes) (f : Nat → Nat) : (s.pin digest f).out = s.out := by
  unfold State.pin
  split <;> rfl

theorem closeRecord_out (s : State) (m : Nat) : (s.closeRecord m).out = s.out := by
  unfold State.closeRecord
  split
  · rw [pin_out]
  · rfl

theorem raiseFence_out (s : State) (corpus member : Nat) (f : Nat × Nat) : (s.raiseFence corpus member f).out = s.out := by
  rw [raiseFence_eq]
  unfold State.raiseLocation State.raiseMember
  split
  · rw [updCorpus_eq]
  · rfl

/-! ## The partner's side (R420 to R424, R429, R437) -/

/-- R429: a message under a lower fence record is refused and told the record held. -/
def State.refusesStale (s : State) (coord stream corpus member : Nat) : State :=
  (s.count oFenceRefusals 1).emit (.mirror coord mkStale stream (staleBody corpus member (s.heldFence corpus member)))

/-- R429: the fence record that mirrored data of an owner names. -/
def fenceIn (data : Bytes) (owner : Nat) : Nat × Nat := (fieldAt data 0xA4 4, owner)

/-- R429: the fence record held for the member that mirrored data names. -/
def State.heldFor (s : State) (data : Bytes) : Nat × Nat := s.heldFence (fieldAt data 0x98 4) (fieldAt data 0x9C 2)

theorem mirrorData_refused {s : State} {owner : Nat} {data : Bytes} (h : fenceLt (fenceIn data owner) (s.heldFor data) = true)
    (coord stream : Nat) (f : State → Nat → Mirror → State) :
    s.mirrorData coord stream owner data f = s.refusesStale coord stream (fieldAt data 0x98 4) (fieldAt data 0x9C 2) := if_pos h

theorem mirrorData_taken {s : State} {owner coord stream m : Nat} {x : Mirror} {data : Bytes}
    (h : fenceLt (fenceIn data owner) (s.heldFor data) = false) (hrecord : s.mirrorFor coord stream = some (m, x))
    (f : State → Nat → Mirror → State) : s.mirrorData coord stream owner data f =
      (f s m { x with fence := fenceIn data owner }).raiseFence (fieldAt data 0x98 4) (fieldAt data 0x9C 2) (fenceIn data owner) := by
  refine (if_neg (ne_true_of_eq_false h)).trans ?_
  rw [hrecord]
  rfl

/-- R420, R422, R424: a record that is kept and answered stands so under its fence record. -/
theorem answered_record (s : State) (m : Nat) {y : Mirror} {f : Nat × Nat} (hfence : y.fence = f) (corpus member : Nat) (e : Emit) :
    (((s.setMirror m y).emit e).raiseFence corpus member f).mirror m = some y ∧
    e ∈ (((s.setMirror m y).emit e).raiseFence corpus member f).out := by
  rw [mirror_raiseFence, mirror_of_tells (emit_tells ..), mirror_setMirror_self, raiseFence_out, Option.map_some, raised_self hfence]
  exact ⟨rfl, List.mem_append_right _ (List.mem_singleton_self e)⟩

/-- R422: the record after a snapshot. -/
def Mirror.withSnapshot (x : Mirror) (data : Bytes) : Mirror :=
  if x.seq < fieldAt data 0x10 8 || x.snapshot.isEmpty then
    { x with snapshot := data, seq := fieldAt data 0x10 8, nextBatch := fieldAt data 0xB0 8
             state := if x.state = 1 then 2 else x.state }
  else x

theorem withSnapshot_fence (x : Mirror) (data : Bytes) : (x.withSnapshot data).fence = x.fence := by
  unfold Mirror.withSnapshot
  split <;> rfl

theorem withSnapshot_newer {x : Mirror} {data : Bytes} (h : x.seq < fieldAt data 0x10 8) : (x.withSnapshot data).snapshot = data ∧
    (x.withSnapshot data).seq = fieldAt data 0x10 8 ∧ (x.withSnapshot data).state ≠ 1 := by
  unfold Mirror.withSnapshot
  rw [if_pos (by simp [h])]
  refine ⟨rfl, rfl, ?_⟩
  dsimp only
  split
  · decide
  · assumption

theorem withSnapshot_older {x : Mirror} {data : Bytes} (h : fieldAt data 0x10 8 ≤ x.seq) (hheld : x.snapshot ≠ []) :
    x.withSnapshot data = x := by
  unfold Mirror.withSnapshot
  exact if_neg (by simp [hheld, h])

section Partner

variable {s : State} (hup : s.up = true) (hrm : s.rmRuns 1 = true) (hstep : s.sys.step = 0)
include hup hrm hstep

/-! ### Opens and closes -/

/-- R420: the record of the stream is given up for the one that is opened. -/
def State.reopened (s : State) (coord stream : Nat) : State :=
  match s.mirrorFor coord stream with
  | some r => s.closeRecord r.1
  | none => s

/-- R420, R421: the record of an open. -/
def MirrorOpen.record (o : MirrorOpen) (coord stream : Nat) : Mirror :=
  { owner := coord, stream := stream, image := o.image, tenant := o.tenant, settings := o.settings, fence := o.fence,
    marks := if o.mark.isEmpty then [] else [o.mark], member := o.member, partner := o.partner }

/-- R420, R430: a record is opened. -/
def State.opensRecord (s : State) (m coord stream : Nat) (o : MirrorOpen) : State :=
  (((s.setMirror m (o.record coord stream)).pin o.image fun p => p + 1).raiseFence o.member.1 o.member.2 o.fence).emit
    (.mirror coord mkOpenAck stream (leBytes 1 0))

theorem exec_mirrorOpen (coord stream : Nat) (o : MirrorOpen) : exec (.mirrorOpenReceive coord stream o) s =
    if fenceLt o.fence (s.heldFence o.member.1 o.member.2) then .next (s.refusesStale coord stream o.member.1 o.member.2)
    else
      match (s.reopened coord stream).freeMirror with
      | none => .next ((s.reopened coord stream).emit (.mirror coord mkOpenAck stream (leBytes 1 3)))
      | some m =>
        if (s.reopened coord stream).openRefused o ≠ 0 then
          .next ((s.reopened coord stream).emit (.mirror coord mkOpenAck stream (leBytes 1 ((s.reopened coord stream).openRefused o))))
        else .next ((s.reopened coord stream).opensRecord m coord stream o) := by
  have hrow : exec (.mirrorOpenReceive coord stream o) s = execMirrorOpenReceive coord stream o s := rfl
  rw [hrow, execMirrorOpenReceive, whenRm_runs _ hup hrm (.inl hstep)] <;> rfl

theorem exec_mirrorClose (coord stream : Nat) : exec (.mirrorCloseReceive coord stream) s = .next (s.reopened coord stream) := by
  have hrow : exec (.mirrorCloseReceive coord stream) s = execMirrorCloseReceive coord stream s := rfl
  rw [hrow, execMirrorCloseReceive, whenRm_runs _ hup hrm (.inl hstep), State.reopened]
  cases s.mirrorFor coord stream <;> rfl

/-! ### Snapshots, marks and location sets -/

theorem exec_mirrorSnapshot (coord stream owner : Nat) (data : Bytes) : exec (.mirrorSnapshotReceive coord stream owner data) s =
    .next (s.mirrorData coord stream owner data fun s m x =>
      (s.setMirror m (x.withSnapshot data)).emit (.mirror coord mkSnapAck stream (leBytes 8 (fieldAt data 0x10 8)))) := by
  have hrow : exec (.mirrorSnapshotReceive coord stream owner data) s = execMirrorSnapshotReceive coord stream owner data s := rfl
  rw [hrow, execMirrorSnapshotReceive, whenRm_runs _ hup hrm (.inl hstep)]
  rfl

theorem exec_markReceive_off (h : s.flashOn = false) (coord stream owner : Nat) (data : Bytes) :
    exec (.markReceive coord stream owner data) s = .next s := by
  have hrow : exec (.markReceive coord stream owner data) s = execMarkReceive coord stream owner data s := rfl
  rw [hrow, execMarkReceive, whenRm_runs _ hup hrm (.inl hstep), if_pos (by simp [h])]

theorem exec_markReceive (h : s.flashOn = true) (coord stream owner : Nat) (data : Bytes) :
    exec (.markReceive coord stream owner data) s = .next (s.mirrorData coord stream owner data fun s m x =>
      (s.setMirror m { x with marks := (data :: x.marks).take 2 }).emit
        (.mirror coord mkMarkAck stream (leBytes 8 (fieldAt data 0x10 8)))) := by
  have hrow : exec (.markReceive coord stream owner data) s = execMarkReceive coord stream owner data s := rfl
  rw [hrow, execMarkReceive, whenRm_runs _ hup hrm (.inl hstep), if_neg (by simp [h])]

theorem exec_locationSet_unknown {coord stream : Nat} (h : s.mirrorFor coord stream = none) (epoch : Nat)
    (entries : List (Nat × Nat)) :
    exec (.locationSetReceive coord stream epoch entries) s = .next s := by
  have hrow : exec (.locationSetReceive coord stream epoch entries) s = execLocationSetReceive coord stream epoch entries s := rfl
  rw [hrow, execLocationSetReceive, whenRm_runs _ hup hrm (.inl hstep), h]

/-- R421, R422: a corpus that holds a location set. -/
def Corpus.holdingSet (c : Corpus) (member epoch : Nat) (entries : List (Nat × Nat)) : Corpus :=
  { c with locSets := (c.locSets.filter fun l => !(l.1 == member && (l.2.1 == epoch || l.2.1 + 1 < epoch))) ++
             [(member, epoch, entries)] }

theorem exec_locationSet {coord stream m nsid : Nat} {x : Mirror} {c : Corpus} (h : s.mirrorFor coord stream = some (m, x))
    (hcorpus : s.corpusOf x.member.1 = some (nsid, c)) (epoch : Nat) (entries : List (Nat × Nat)) :
    exec (.locationSetReceive coord stream epoch entries) s =
      .next (s.updCorpus nsid fun c => c.holdingSet x.member.2 epoch entries) := by
  have hrow : exec (.locationSetReceive coord stream epoch entries) s = execLocationSetReceive coord stream epoch entries s := rfl
  rw [hrow, execLocationSetReceive, whenRm_runs _ hup hrm (.inl hstep), h]
  dsimp only
  rw [hcorpus]
  rfl

theorem exec_resendRequest (corpus member epoch : Nat) :
    exec (.portionListResendRequest corpus member epoch) s = .next (s.resendTo corpus member epoch) := by
  have hrow : exec (.portionListResendRequest corpus member epoch) s = execPortionListResendRequest corpus member epoch s := rfl
  rw [hrow, execPortionListResendRequest, whenRm_runs _ hup hrm (.inl hstep)]

/-! ### Takeover (R433) -/

theorem exec_takeoverDeferred {m : Nat} {x : Mirror} (hm : m < Config.mirrors) (h : s.mirror m = some x) (hstate : x.state ≠ 1) :
    exec (.takeoverDeferred m) s = .next (s.takeover m) := by
  have hrow : exec (.takeoverDeferred m) s = execTakeoverDeferred m s := rfl
  rw [hrow, execTakeoverDeferred, if_neg (by omega), whenRm_runs _ hup hrm (.inl hstep), h]
  exact if_neg hstate

end Partner

theorem reopened_out (s : State) (coord stream : Nat) : (s.reopened coord stream).out = s.out := by
  unfold State.reopened
  split
  · exact closeRecord_out ..
  · rfl

/-- R420, R421: the record that is opened, and the answer. -/
theorem opensRecord_spec (s : State) (m coord stream : Nat) (o : MirrorOpen) :
    (s.opensRecord m coord stream o).mirror m = some (o.record coord stream) ∧
    (s.opensRecord m coord stream o).out = s.out ++ [.mirror coord mkOpenAck stream [0]] := by
  have hout : ∀ u : State, u.out = s.out →
      (u.emit (.mirror coord mkOpenAck stream (leBytes 1 0))).out = s.out ++ [.mirror coord mkOpenAck stream [0]] := fun u hu => by
    rw [← hu]
    rfl
  refine ⟨?_, hout _ ?_⟩
  · unfold State.opensRecord
    rw [mirror_of_tells (emit_tells ..), mirror_raiseFence, mirror_of_tells (pin_tells ..), mirror_setMirror_self, Option.map_some,
      raised_self (f := o.fence) rfl]
  · rw [raiseFence_out, pin_out]
    rfl

section Takeover

variable {s : State} {m k : Nat} {x : Mirror} (h : s.mirror m = some x) (hbytes : x.snapshot ≠ [])
include h hbytes

theorem takeover_brings {n : Nat} (hidle : s.idleOne = some n) (hslot : s.slotWith x.image = some k) :
    s.takeover m = s.bringUp n k m x x.snapshot := by
  have hfull : x.snapshot.isEmpty = false := by simpa using hbytes
  unfold State.takeover
  rw [h]
  dsimp only
  rw [hfull, if_neg Bool.false_ne_true, hfull, if_neg Bool.false_ne_true, hidle, hslot]

theorem takeover_waits (hidle : s.idleOne = none) : s.takeover m =
    if x.state = 3 then s else (s.setMirror m { x with state := 3 }).recover 18 0 x.stream 1 := by
  have hfull : x.snapshot.isEmpty = false := by simpa using hbytes
  unfold State.takeover
  rw [h]
  dsimp only
  rw [hfull, if_neg Bool.false_ne_true, hfull, if_neg Bool.false_ne_true, hidle]

end Takeover

/-- R430, R433: a stream that is brought up: its record is closed, and its higher fence record goes to every device. -/
theorem bringUp_spec (s : State) (n k m : Nat) (x : Mirror) (bytes : Bytes) : (s.bringUp n k m x bytes).mirror m = none ∧
    x.fence.1 < s.raisedEpoch x bytes ∧
    .fence x.member.1 x.member.2 (s.raisedEpoch x bytes) s.rank ∈ (s.bringUp n k m x bytes).out := by
  rw [bringUp_eq]
  generalize s.takesOver n k x (s.raisedEpoch x bytes) = u
  refine ⟨?_, by unfold State.raisedEpoch; omega, ?_⟩
  · rw [mirror_of_tells (resumes_tells ..), State.afterFence,
      mirror_of_tells ((takeRole_tells ..).trans ((count_tells ..).trans (recover_tells ..))), mirror_closeRecord_self]
  · exact ((afterFence_spreads _ n m x _ _).trans (resumes_tells _ n x bytes).spreads).out.subset
      (List.mem_append_right _ (List.mem_singleton_self _))

end Sys2Proof.Machine

open Sys2Proof Sys2Proof.Machine in
/-- Settles O40: the rows of both sides by their conditions, the record that a message leaves (`answered_record`), and what a
takeover leaves of its record (`bringUp_spec`). The bytes of the messages are the model's choice (DESIGN CHOICE, log entry 48);
the trigger of a planned handoff, the place of the marks, and the partner that cannot be reached are its deductions (DEDUCED, log
entries 81, 177 and 178). -/
theorem mirrorsOfPairs : Obligations.MirrorsOfPairs := by
  unfold Obligations.MirrorsOfPairs
  refine ⟨⟨?owner, ?writes⟩, ?partner⟩
  case owner =>
    intro s n hn hup hrm hstep p
    have hack := exec_mirrorOpenAck hn hup hrm hstep
    have hlag := exec_mirrorLag hn hup hrm hstep
    refine ⟨fun hstate hopen => ?_, fun cause hidle => ?_, fun seq => exec_mirrorAck_stale hn hup hrm hstep, fun hprompt => ?_,
      exec_markTimer_waits hn hup hrm hstep, exec_markAck_none hn hup hrm hstep, fun b seq g c d hpending hother => ?_,
      fun seq g hg => exec_mirrorAck hn hup hrm hstep hg, fun hstate hoverdue => ?_, fun hruns hdue hnone hmirrors hflash => ?_,
      fun b seq g c hpending => ?_⟩
    · have hopening : ¬ (((s.stream n).prot.state ≠ 1 || (s.stream n).prot.openStep = 0) = true) := by
        simpa using And.intro hstate hopen
      refine ⟨fun cause hcause => ?_, fun hfew => ?_, fun hlast => ?_⟩
      · rw [hack, if_neg hopening, if_pos hcause]
      · rw [hack, if_neg hopening, if_neg (by simp), if_pos hfew]
      · rw [hack, if_neg hopening, if_neg (by simp), if_neg (not_lt.mpr hlast)]
    · rw [hack, if_pos (by simpa using hidle)]
    · rw [hlag]
      refine if_neg ?_
      rcases hprompt with hstate | hprompt
      · simp [p] at hstate
        simp [hstate]
      · simpa [p] using fun _ a b c hu => hprompt (a, b, c) hu
    · rw [exec_markAck hn hup hrm hstep hpending, if_neg hother]
    · rw [hlag]
      refine if_pos ?_
      obtain ⟨u, hu, hlate⟩ := hoverdue
      rw [Bool.and_eq_true, List.any_eq_true]
      exact ⟨decide_eq_true hstate, u, hu, decide_eq_true hlate⟩
    · have hruns' : ¬ s.markWaits n := by
        simp only [State.markWaits, not_or, not_not, not_lt, Bool.not_eq_false]
        exact ⟨hruns, hdue, hnone, hmirrors, hflash⟩
      refine ⟨_, exec_markTimer hn hup hrm hstep hruns', ?_⟩
      cases hmirrored : s.mirrored n with
      | false =>
        rw [if_neg Bool.false_ne_true, markDone_stream, markDone_marksOf, beginsMark_stream]
        exact ⟨rfl, rfl, fun _ => ⟨rfl, rfl⟩, nofun⟩
      | true =>
        rw [if_pos rfl, sendsMark_stream, State.markSent, beginsMark_stream]
        exact ⟨rfl, rfl, nofun, fun _ => rfl⟩
    · rw [exec_markAck hn hup hrm hstep hpending, if_pos rfl]
      rfl
  case writes =>
    intro s t r n role hn
    refine ⟨fun h => ⟨_, exec_partnerWrite hn h, setPartner_stored t hn _, fun hruns hnone => ?_⟩, fun h hscrub => ?_⟩
    · rw [hnone]
      exact setPartner_none hruns
    · have hexec := exec_moveTo hn h hscrub
      refine ⟨fun hruns hprot hpartner hfree => ?_, fun hbad => ?_⟩
      · obtain ⟨u, hcmd, hmove⟩ := moveToCmd_kept hruns hprot hpartner hfree
        rw [hcmd] at hexec
        exact ⟨u, hexec, hmove⟩
      · rw [moveToCmd_refused hbad] at hexec
        exact hexec
  case partner =>
    intro s hup hrm hstep
    refine ⟨fun coord stream o => ?_, fun coord stream hnone => ?_, fun coord stream owner data hoff =>
      exec_markReceive_off hup hrm hstep hoff coord stream owner data, fun coord stream m x hrecord => ?_,
      exec_resendRequest hup hrm hstep, fun m n k x hm h hstate hbytes hslot => ?_⟩
    · have hopen := exec_mirrorOpen hup hrm hstep coord stream o
      refine ⟨fun hlower => hopen.trans (if_pos hlower), fun hfence => ?_⟩
      rw [hopen, if_neg (by simp [hfence])]
      intro s0
      have hs0 : s0 = s.reopened coord stream := rfl
      clear_value s0
      subst hs0
      refine ⟨fun hfull => by rw [hfull], fun m hfree => ?_⟩
      rw [hfree]
      refine ⟨fun hrefused => if_pos hrefused, fun htaken => ?_⟩
      obtain ⟨hmirror, hout⟩ := opensRecord_spec (s.reopened coord stream) m coord stream o
      exact ⟨_, _, if_neg (by simp [htaken]), hmirror, rfl, rfl, rfl, rfl, rfl, by rw [hout, reopened_out]⟩
    · refine ⟨?_, exec_locationSet_unknown hup hrm hstep hnone⟩
      rw [exec_mirrorClose hup hrm hstep, State.reopened, hnone]
    · refine ⟨⟨_, exec_mirrorClose hup hrm hstep coord stream, ?_⟩,
        fun owner data => ⟨fun hlower => ⟨?_, fun hflash => ?_⟩, fun hfence => ?_⟩,
        fun epoch entries nsid c hcorpus hns => ?_⟩
      · rw [State.reopened, hrecord]
        exact mirror_closeRecord_self s m
      · rw [exec_mirrorSnapshot hup hrm hstep, mirrorData_refused hlower]
        rfl
      · rw [exec_markReceive hup hrm hstep hflash, mirrorData_refused hlower]
        rfl
      · have hsnapshot := exec_mirrorSnapshot hup hrm hstep coord stream owner data
        rw [mirrorData_taken hfence hrecord] at hsnapshot
        obtain ⟨hmirror, hout⟩ := answered_record s m (y := Mirror.withSnapshot { x with fence := fenceIn data owner } data)
          (withSnapshot_fence _ data) (fieldAt data 0x98 4) (fieldAt data 0x9C 2)
          (.mirror coord mkSnapAck stream (leBytes 8 (fieldAt data 0x10 8)))
        refine ⟨fun hnewer => ?_, fun holder hheld => ?_, fun hflash => ?_⟩
        · obtain ⟨hdata, hseq, hstate⟩ := withSnapshot_newer (x := { x with fence := fenceIn data owner }) hnewer
          exact ⟨_, _, hsnapshot, hmirror, hdata, hseq, withSnapshot_fence _ data, hstate, hout⟩
        · rw [withSnapshot_older (x := { x with fence := fenceIn data owner }) holder hheld] at hmirror hout hsnapshot
          exact ⟨_, _, hsnapshot, hmirror, rfl, rfl, hout⟩
        · have hmark := exec_markReceive hup hrm hstep hflash coord stream owner data
          rw [mirrorData_taken hfence hrecord] at hmark
          obtain ⟨hmirror, hout⟩ := answered_record s m
            (y := { x with fence := fenceIn data owner, marks := (data :: x.marks).take 2 })
            rfl (fieldAt data 0x98 4) (fieldAt data 0x9C 2) (.mirror coord mkMarkAck stream (leBytes 8 (fieldAt data 0x10 8)))
          exact ⟨_, _, hmark, hmirror, rfl, hout⟩
      · obtain ⟨y, hy, hc⟩ := Option.bind_eq_some_iff.mp hns
        refine ⟨_, c.holdingSet x.member.2 epoch entries, exec_locationSet hup hrm hstep hrecord hcorpus epoch entries, ?_,
          List.mem_append_right _ (List.mem_singleton_self _)⟩
        rw [ns_updCorpus hy, Option.bind_some, hc]
        rfl
    · have hexec := exec_takeoverDeferred hup hrm hstep hm h hstate
      refine ⟨fun hidle => ?_, fun hidle htaking => ?_, fun hidle hmirroring => ?_⟩
      · rw [takeover_brings h hbytes hidle hslot] at hexec
        obtain ⟨hmirror, hhigher, hout⟩ := bringUp_spec s n k m x x.snapshot
        exact ⟨_, _, hexec, hmirror, hhigher, hout⟩
      · rw [hexec, takeover_waits h hbytes hidle, if_pos htaking]
      · rw [takeover_waits h hbytes hidle, if_neg hmirroring] at hexec
        refine ⟨_, hexec, ?_, ?_⟩
        · rw [mirror_of_tells (recover_tells ..), mirror_setMirror_self]
        · rw [streams_of_work (recover_work _ _ _ _ _)]
          rfl
end

section
/-! The management port (R494 to R506): the fields of a frame, sessions and their datagrams, forwarded requests and settings. -/

namespace Sys2Proof.Machine

open Sys2Proof

/-! ## The fields of a frame (R494, R495, R504) -/

/-- R4: a field that stands between the bytes before it and those after it. -/
theorem fieldAt_of_split {bs a b : Bytes} {o n v : Nat} (hbs : bs = a ++ (leBytes n v ++ b)) (ha : a.length = o) (hv : v < 256 ^ n) :
    fieldAt bs o n = v := by
  have hright := fieldAt_append_right ha (leBytes n v ++ b) 0 n
  rw [hbs, ← Nat.add_zero o, hright, fieldAt_leBytes_append hv]

section Frame

variable {op session seq target : Nat} {body : Bytes}

theorem odFrame_length : (odFrame op session seq target body).length = 24 + body.length := by
  simp only [odFrame, List.length_append, leBytes_length, zeros_length]

theorem odFrame_body : (odFrame op session seq target body).drop 24 = body := by
  rw [odFrame]
  exact List.drop_left' (by simp only [List.length_append, leBytes_length, zeros_length])

theorem odFrame_magic : fieldAt (odFrame op session seq target body) 0 4 = 0x4D444F41 :=
  fieldAt_of_split (a := []) (by simp only [odFrame, List.append_assoc, List.nil_append]; rfl) rfl (by decide)

theorem odFrame_version : fieldAt (odFrame op session seq target body) 4 1 = 1 :=
  fieldAt_of_split (a := leBytes 4 0x4D444F41) (by simp only [odFrame, List.append_assoc]; rfl) rfl (by decide)

theorem odFrame_op (h : op < 256) : fieldAt (odFrame op session seq target body) 5 1 = op :=
  fieldAt_of_split (a := leBytes 4 0x4D444F41 ++ leBytes 1 1) (by simp only [odFrame, List.append_assoc]; rfl) rfl h

theorem odFrame_session (h : session < 2 ^ 32) : fieldAt (odFrame op session seq target body) 8 4 = session :=
  fieldAt_of_split (a := leBytes 4 0x4D444F41 ++ leBytes 1 1 ++ leBytes 1 op ++ zeros 2)
    (by simp only [odFrame, List.append_assoc]; rfl) rfl h

theorem odFrame_seq (h : seq < 2 ^ 32) : fieldAt (odFrame op session seq target body) 12 4 = seq :=
  fieldAt_of_split (a := leBytes 4 0x4D444F41 ++ leBytes 1 1 ++ leBytes 1 op ++ zeros 2 ++ leBytes 4 session)
    (by simp only [odFrame, List.append_assoc]; rfl) rfl h

theorem odFrame_bodyLength (h : body.length < 2 ^ 16) : fieldAt (odFrame op session seq target body) 16 2 = body.length :=
  fieldAt_of_split (a := leBytes 4 0x4D444F41 ++ leBytes 1 1 ++ leBytes 1 op ++ zeros 2 ++ leBytes 4 session ++ leBytes 4 seq)
    (by simp only [odFrame, List.append_assoc]; rfl) rfl h

theorem odFrame_target (h : target < 2 ^ 16) : fieldAt (odFrame op session seq target body) 18 2 = target :=
  fieldAt_of_split (a := leBytes 4 0x4D444F41 ++ leBytes 1 1 ++ leBytes 1 op ++ zeros 2 ++ leBytes 4 session ++ leBytes 4 seq ++
    leBytes 2 body.length) (by simp only [odFrame, List.append_assoc]; rfl) rfl h

/-- R499: a field of the header is not touched by what follows the frame. -/
theorem odFrame_header {o n : Nat} (h : o + n ≤ 24) (tag : Bytes) :
    fieldAt (odFrame op session seq target body ++ tag) o n = fieldAt (odFrame op session seq target body) o n :=
  fieldAt_append_left (by rw [odFrame_length]; omega) tag

theorem frameOk_odFrame (h : body.length < 2 ^ 16) {tag : Bytes} {k : Nat} (hk : tag.length = k) :
    frameOk (odFrame op session seq target body ++ tag) k = true := by
  simp only [frameOk, Bool.and_eq_true, decide_eq_true_eq, beq_iff_eq]
  rw [odFrame_header (by omega), odFrame_header (by omega), odFrame_header (by omega), odFrame_magic, odFrame_version,
    odFrame_bodyLength h, List.length_append, odFrame_length, hk]
  omega

end Frame

/-- R494: a field of the body. -/
theorem odFrame_field (op session seq target : Nat) (body : Bytes) (i n : Nat) :
    fieldAt (odFrame op session seq target body) (24 + i) n = fieldAt body i n := by
  rw [fieldAt, fieldAt, ← List.drop_drop, odFrame_body]

theorem odFrame_sliceZ (op session seq target : Nat) (body : Bytes) (i n : Nat) :
    sliceZ (odFrame op session seq target body) (24 + i) n = sliceZ body i n := by
  rw [sliceZ, sliceZ, ← List.drop_drop, odFrame_body]

/-- R500: the body of an OPEN request. -/
def openFields (role slot : Nat) (nonce : Bytes) : Bytes := leBytes 1 role ++ leBytes 1 slot ++ zeros 2 ++ nonce

section OpenFields

variable {role slot : Nat} {nonce : Bytes}

theorem openFields_length (h : nonce.length = 32) : (openFields role slot nonce).length = 36 := by
  simp only [openFields, List.length_append, leBytes_length, zeros_length, h]

theorem openFields_role (h : role < 256) : fieldAt (openFields role slot nonce) 0 1 = role :=
  fieldAt_of_split (a := []) (by simp only [openFields, List.append_assoc, List.nil_append]; rfl) rfl h

theorem openFields_slot (h : slot < 256) : fieldAt (openFields role slot nonce) 1 1 = slot :=
  fieldAt_of_split (a := leBytes 1 role) (by simp only [openFields, List.append_assoc]; rfl) rfl h

theorem openFields_nonce (h : nonce.length = 32) : sliceZ (openFields role slot nonce) 4 32 = nonce := by
  have hdrop : (openFields role slot nonce).drop 4 = nonce := List.drop_left' rfl
  rw [sliceZ, hdrop, List.take_of_length_le h.le, h]
  exact List.append_nil _

end OpenFields

/-- R495: the body of a READ request. -/
def readFields (idx sub off n : Nat) : Bytes := leBytes 2 idx ++ leBytes 1 sub ++ zeros 1 ++ leBytes 4 off ++ leBytes 4 n

theorem readFields_length (idx sub off n : Nat) : (readFields idx sub off n).length = 12 := rfl

/-- R495: a frame that carries a READ is that READ. -/
theorem dispatchFrame_read {id seq target idx sub off n : Nat} (hseq : seq < 2 ^ 32) (htarget : target < 2 ^ 16) (hidx : idx < 2 ^ 16)
    (hsub : sub < 2 ^ 8) (hoff : off < 2 ^ 32) (hn : n < 2 ^ 32) (s : State) (src : OdSource) :
    s.dispatchFrame src (odFrame 0x10 id seq target (readFields idx sub off n)) = s.readRequest src seq target idx sub off n := by
  have hidx' : fieldAt (readFields idx sub off n) 0 2 = idx :=
    fieldAt_of_split (a := []) (by simp only [readFields, List.append_assoc, List.nil_append]; rfl) rfl hidx
  have hsub' : fieldAt (readFields idx sub off n) 2 1 = sub :=
    fieldAt_of_split (a := leBytes 2 idx) (by simp only [readFields, List.append_assoc]; rfl) rfl hsub
  have hoff' : fieldAt (readFields idx sub off n) 4 4 = off :=
    fieldAt_of_split (a := leBytes 2 idx ++ leBytes 1 sub ++ zeros 1) (by simp only [readFields, List.append_assoc]; rfl) rfl hoff
  have hn' : fieldAt (readFields idx sub off n) 8 4 = n :=
    fieldAt_of_split (a := leBytes 2 idx ++ leBytes 1 sub ++ zeros 1 ++ leBytes 4 off) (b := [])
      (by simp only [readFields, List.append_nil]) rfl hn
  unfold State.dispatchFrame
  dsimp only
  rw [odFrame_body, odFrame_op (by decide), odFrame_seq hseq, odFrame_target htarget, hidx', hsub', hoff', hn', readFields_length,
    if_pos (by decide)]

/-! ## What goes before a forwarded frame (R504) -/

theorem odPrefix_length (coord : Nat) (r : Role) : (odPrefix coord r).length = 16 := by
  simp only [odPrefix, List.length_append, leBytes_length, zeros_length]

theorem odPrefix_coord {coord : Nat} (h : coord < 2 ^ 16) (r : Role) (f : Bytes) : fieldAt (odPrefix coord r ++ f) 0 2 = coord := by
  rw [fieldAt_append_left (by rw [odPrefix_length]; decide)]
  exact fieldAt_of_split (a := [])
    (by unfold odPrefix; rw [List.nil_append, List.append_assoc, List.append_assoc, List.append_assoc]) rfl h

theorem odPrefix_operator (coord : Nat) (f : Bytes) : fieldAt (odPrefix coord .operator ++ f) 2 1 = 0 := by
  rw [fieldAt_append_left (by rw [odPrefix_length]; decide)]
  exact fieldAt_of_split (a := leBytes 2 coord)
    (by unfold odPrefix Role.code; rw [List.append_assoc, List.append_assoc, List.append_assoc])
    (leBytes_length ..) (by decide)

/-! ## Sessions (R499 to R502) -/

theorem answerOpen_sent (s : State) (id seq result : Nat) (rest : Bytes) :
    .odResponse (.session id) 0x81 seq result 0 rest ∈ (s.answerOpen id seq result rest).out := by
  simp [State.answerOpen, State.emit]

/-- R500: the numbers that a new session may take, from a free choice on. -/
def sessionNumbers (w : Nat) : List Nat := (List.range 10).map fun i => (w + i) % 2 ^ 32

theorem sessionNumbers_nodup (w : Nat) : (sessionNumbers w).Nodup := by
  refine List.Nodup.map_on (fun i hi j hj hij => ?_) List.nodup_range
  rw [List.mem_range] at hi hj
  omega

/-- R500: with fewer than 8 sessions one of ten numbers in a row is free and not 0. -/
theorem exists_freeNumber {t : Tbl Session} (h : t.length < 8) (w : Nat) :
    ∃ i ∈ List.range 10, (w + i) % 2 ^ 32 ≠ 0 ∧ Tbl.find t ((w + i) % 2 ^ 32) = none := by
  by_contra! hnone
  have htaken : sessionNumbers w ⊆ 0 :: t.map Prod.fst := by
    intro k hk
    obtain ⟨i, hi, rfl⟩ := List.mem_map.mp hk
    by_cases hzero : (w + i) % 2 ^ 32 = 0
    · rw [hzero]
      exact List.mem_cons_self
    · obtain ⟨x, hx⟩ := Option.ne_none_iff_exists'.mp (hnone i hi hzero)
      exact List.mem_cons_of_mem _ (List.mem_map.mpr ⟨_, Tbl.mem_of_find hx, rfl⟩)
  have hle := ((sessionNumbers_nodup w).subperm htaken).length_le
  simp only [sessionNumbers, List.length_map, List.length_range, List.length_cons] at hle
  omega

theorem newSession_free {s : State} (h : s.mgmt.sessions.length < 8) (w : Nat) :
    s.newSession w ≠ 0 ∧ s.newSession w < 2 ^ 32 ∧ Tbl.find s.mgmt.sessions (s.newSession w) = none := by
  obtain ⟨j, hj, hnonzero, hfree⟩ := exists_freeNumber h w
  unfold State.newSession
  cases hfind : (List.range 10).find? fun i => (w + i) % 2 ^ 32 ≠ 0 && (Tbl.find s.mgmt.sessions ((w + i) % 2 ^ 32)).isNone with
  | none =>
    have hnot := List.find?_eq_none.mp hfind j hj
    exact absurd (by simp only [Bool.and_eq_true, decide_eq_true_eq, hfree]; exact ⟨hnonzero, rfl⟩) hnot
  | some i =>
    have hi := List.find?_some hfind
    simp only [Bool.and_eq_true, decide_eq_true_eq, Option.isNone_iff_eq_none] at hi
    exact ⟨hi.1, Nat.mod_lt _ (by decide), hi.2⟩

/-- R501: OPEN is ignored by a SCRAPPED device, and for a second after 16 discarded frames. -/
theorem openRequest_ignored {s : State} (h : s.sec.lc = 5 ∨ s.gtc < s.mgmt.ignoreUntil) (seq role slot : Nat) (nonce : Bytes) :
    s.openRequest seq role slot nonce = s := by
  rw [State.openRequest, if_pos (by simpa using h)]

/-- R500: OPEN of a role that has a credential. -/
theorem openRequest_opens {s : State} {seq role slot : Nat} {nonce cred : Bytes} (halive : s.sec.lc ≠ 5)
    (hignore : s.mgmt.ignoreUntil ≤ s.gtc) (hroom : s.mgmt.sessions.length < 8) (hcred : s.credential role slot = some cred) :
    ∃ id salt x, id ≠ 0 ∧ id < 2 ^ 32 ∧ Tbl.find s.mgmt.sessions id = none ∧
      Tbl.find (s.openRequest seq role slot nonce).mgmt.sessions id = some x ∧ x.established = false ∧
      x.role = (if role = 2 then .factory else .operator) ∧
      x.key = kmac256 cred (sliceZ nonce 0 32 ++ salt ++ leBytes 4 id) 32 "OA1640 OD SESSION" ∧
      .odResponse (.session id) 0x81 seq rOk 0 (leBytes 4 id ++ salt) ∈ (s.openRequest seq role slot nonce).out := by
  obtain ⟨hnonzero, hlt, hfree⟩ := newSession_free hroom (Config.freeWord s.fresh).toNat
  unfold State.openRequest
  rw [if_neg (by simp [halive, hignore]), if_neg (by omega), hcred]
  dsimp only
  exact ⟨_, _, _, hnonzero, hlt, hfree, (Tbl.find_set ..).trans (if_pos rfl), rfl, rfl, rfl, answerOpen_sent ..⟩

theorem closeSession_mgmt (s : State) (id : Nat) : (s.closeSession id).mgmt =
    { s.mgmt with sessions := Tbl.del s.mgmt.sessions id
                  copies := s.mgmt.copies.filter fun c => !(c.src == .session id)
                  asms := s.mgmt.asms.filter fun a => !(a.src == .session id) } := by
  unfold State.closeSession
  dsimp only
  split <;> rfl

theorem closeSession_out (s : State) (id : Nat) : (s.closeSession id).out = s.out := by
  unfold State.closeSession
  dsimp only
  split <;> rfl

theorem closeSession_find (s : State) (id k : Nat) :
    Tbl.find (s.closeSession id).mgmt.sessions k = if k = id then none else Tbl.find s.mgmt.sessions k := by
  rw [closeSession_mgmt, Tbl.find_del]

theorem answerSession_others (s : State) (op seq : Nat) (body : Bytes) {id k : Nat} (h : k ≠ id) :
    Tbl.find (s.answerSession id op seq body).mgmt.sessions k = Tbl.find s.mgmt.sessions k := by
  unfold State.answerSession
  split
  · rfl
  · exact (Tbl.find_set ..).trans (if_neg h)

theorem admits_otherSessions {s t : State} {id seq : Nat} {enclave : Bool} {role : Role}
    (h : s.Admits (.session id) seq enclave role t)
    {k : Nat} (hk : k ≠ id) : Tbl.find t.mgmt.sessions k = Tbl.find s.mgmt.sessions k := by
  obtain ⟨s1, haccept, _, _, rfl⟩ := h.received
  rw [atServer_eq]
  unfold State.acceptRequest at haccept
  dsimp only at haccept
  split at haccept
  · cases haccept
  · split at haccept
    · cases haccept
    · cases haccept
      exact (Tbl.find_set ..).trans (if_neg hk)

/-- R500: CLOSE ends its session alone. -/
theorem exec_odClose_closes {s t : State} {id seq : Nat} {role : Role} (h : s.Admits (.session id) seq true role t) :
    ∃ u, exec (.odClose id seq) s = .next u ∧ Tbl.find u.mgmt.sessions id = none ∧
      .odResponse (.session id) 0x82 seq rOk 0 [] ∈ u.out ∧
      ∀ k, k ≠ id → Tbl.find u.mgmt.sessions k = Tbl.find s.mgmt.sessions k := by
  have hrow : exec (.odClose id seq) s = execOdClose id seq s := rfl
  rw [hrow, execOdClose, whenEnclave_runs _ h.up, State.closeRequest, gate_admits _ h]
  obtain ⟨l, hout⟩ := answer_out t (.session id) 0x02 seq rOk 0 [] (by simp)
  refine ⟨_, rfl, ?_, ?_, fun k hk => ?_⟩
  · rw [closeSession_find, if_pos rfl]
  · rw [closeSession_out, hout]
    simp
  · rw [closeSession_find, if_neg hk, ← admits_otherSessions h hk]
    exact answerSession_others (t.emit _) _ _ _ hk

section Management

variable {s : State} (hup : s.up = true)
include hup

theorem exec_odOpen (seq role slot : Nat) (nonce : Bytes) :
    exec (.odOpen seq role slot nonce) s = .next (s.openRequest seq role slot nonce) := by
  have hrow : exec (.odOpen seq role slot nonce) s = execOdOpen seq role slot nonce s := rfl
  rw [hrow, execOdOpen, whenEnclave_runs _ (enclaveUp_of_up hup)]

theorem exec_sessionTimeout {id : Nat} {x : Session} (hfind : Tbl.find s.mgmt.sessions id = some x) :
    exec (.sessionTimeout id) s =
      if x.at_ + (if x.established then 60 else 10) * Config.sec ≤ s.gtc then .next (s.closeSession id) else .next s := by
  have hrow : exec (.sessionTimeout id) s = execSessionTimeout id s := rfl
  rw [hrow, execSessionTimeout, whenEnclave_runs _ (enclaveUp_of_up hup), hfind]

theorem exec_segmentTimeout (src : OdSource) (key : Nat) : exec (.segmentTimeout src key) s =
    .next { s with mgmt := { s.mgmt with
      copies := s.mgmt.copies.filter fun c => !(c.src == src && c.key == key && decide (c.at_ + 10 * Config.sec ≤ s.gtc))
      asms := s.mgmt.asms.filter fun a => !(a.src == src && a.key == key && decide (a.asm.at_ + 10 * Config.sec ≤ s.gtc)) } } := by
  have hrow : exec (.segmentTimeout src key) s = execSegmentTimeout src key s := rfl
  rw [hrow, execSegmentTimeout, whenEnclave_runs _ (enclaveUp_of_up hup)]

/-! ## Datagrams (R499 to R501) -/

theorem exec_datagram_long {data : Bytes} (h : 1232 < data.length) : exec (.mgmtDatagramReceive data) s = .next s := by
  have hrow : exec (.mgmtDatagramReceive data) s = execMgmtDatagramReceive data s := rfl
  rw [hrow, execMgmtDatagramReceive, whenEnclave_runs _ (enclaveUp_of_up hup), if_pos (by simp [h])]

section Datagram

variable (halive : s.sec.lc ≠ 5)
include halive

theorem exec_datagram_open {seq role slot : Nat} {nonce : Bytes} (hseq : seq < 2 ^ 32) (hrole : role < 256) (hslot : slot < 256)
    (hnonce : nonce.length = 32) :
    exec (.mgmtDatagramReceive (odFrame 0x01 0 seq 0xFFFF (openFields role slot nonce))) s =
      exec (.odOpen seq role slot nonce) s := by
  have hrow (data : Bytes) : exec (.mgmtDatagramReceive data) s = execMgmtDatagramReceive data s := rfl
  have hlength := openFields_length (role := role) (slot := slot) hnonce
  have hok := frameOk_odFrame (op := 0x01) (session := 0) (seq := seq) (target := 0xFFFF)
    (body := openFields role slot nonce) (tag := []) (k := 0) (by rw [hlength]; decide) rfl
  rw [List.append_nil] at hok
  rw [hrow, execMgmtDatagramReceive, whenEnclave_runs _ (enclaveUp_of_up hup), if_neg (by simp [odFrame_length, hlength, halive]),
    if_pos (odFrame_op (by decide)), if_pos (by simp [hok, odFrame_length, hlength]), odFrame_seq hseq,
    odFrame_field (i := 0), odFrame_field (i := 1), odFrame_sliceZ (i := 4), openFields_role hrole, openFields_slot hslot,
      openFields_nonce hnonce,
    exec_odOpen hup]

section Tagged

variable {f tag : Bytes} {id : Nat} (hshort : f.length + 16 ≤ 1232) (htag : tag.length = 16) (hop : fieldAt (f ++ tag) 5 1 ≠ 0x01)
  (hok : frameOk (f ++ tag) 16 = true) (hid : fieldAt (f ++ tag) 8 4 = id)
include hshort htag hop hok hid

/-- R499: a tagged datagram in the order of its checks. -/
theorem exec_datagram_tagged : exec (.mgmtDatagramReceive (f ++ tag)) s =
    match Tbl.find s.mgmt.sessions id with
    | none => .next s.discardFrame
    | some x =>
      if odTag x.key f ≠ tag then .next s.discardFrame
      else if x.established && f ++ tag = x.request then
        .next (State.emit { s with mgmt := { s.mgmt with sessions := Tbl.set s.mgmt.sessions id { x with at_ := s.gtc } } }
          (.datagram id x.response))
      else
        let s1 := s.dispatchFrame (.session id) f
        match Tbl.find s1.mgmt.sessions id with
        | none => .next s1
        | some y =>
          if s1.stored oAuthFailures ≠ s.stored oAuthFailures then .next s1
          else .next { s1 with mgmt := { s1.mgmt with sessions := Tbl.set s1.mgmt.sessions id { y with request := f ++ tag } } } := by
  have hrow (data : Bytes) : exec (.mgmtDatagramReceive data) s = execMgmtDatagramReceive data s := rfl
  have hsize : (f ++ tag).length - 16 = f.length := by rw [List.length_append, htag, Nat.add_sub_cancel]
  rw [hrow, execMgmtDatagramReceive, whenEnclave_runs _ (enclaveUp_of_up hup), if_neg (by simp [halive, htag]; omega), if_neg hop,
    if_neg (by simp [hok]), hid, hsize, List.take_left, List.drop_left] <;> rfl

theorem exec_datagram_noSession (h : Tbl.find s.mgmt.sessions id = none) :
    exec (.mgmtDatagramReceive (f ++ tag)) s = .next s.discardFrame := by
  rw [exec_datagram_tagged hup halive hshort htag hop hok hid, h]

variable {x : Session} (hx : Tbl.find s.mgmt.sessions id = some x)
include hx

theorem exec_datagram_badTag (h : tag ≠ odTag x.key f) : exec (.mgmtDatagramReceive (f ++ tag)) s = .next s.discardFrame := by
  rw [exec_datagram_tagged hup halive hshort htag hop hok hid, hx]
  exact if_pos h.symm

/-- R501: a repeat of the last request gets the kept response. -/
theorem exec_datagram_repeat (h : tag = odTag x.key f) (hestablished : x.established = true) (hrequest : x.request = f ++ tag) :
    exec (.mgmtDatagramReceive (f ++ tag)) s =
      .next (State.emit { s with mgmt := { s.mgmt with sessions := Tbl.set s.mgmt.sessions id { x with at_ := s.gtc } } }
        (.datagram id x.response)) := by
  rw [exec_datagram_tagged hup halive hshort htag hop hok hid, hx]
  exact (if_neg (not_not_intro h.symm)).trans (if_pos (by simp [hestablished, hrequest]))

/-- R500, R501: another request is served; only its session keeps more than its frame says. -/
theorem exec_datagram_served (h : tag = odTag x.key f) (hfresh : x.established = false ∨ x.request ≠ f ++ tag) :
    ∃ m, exec (.mgmtDatagramReceive (f ++ tag)) s = .next { s.dispatchFrame (.session id) f with mgmt := m } := by
  have hnew : ¬ (x.established && decide (f ++ tag = x.request)) = true := by
    rcases hfresh with hnew | hother
    · simp [hnew]
    · simp [Ne.symm hother]
  rw [exec_datagram_tagged hup halive hshort htag hop hok hid, hx]
  generalize s.dispatchFrame (.session id) f = t
  dsimp only
  rw [if_neg (not_not_intro h.symm), if_neg hnew]
  split
  · exact ⟨t.mgmt, rfl⟩
  · split
    · exact ⟨t.mgmt, rfl⟩
    · exact ⟨_, rfl⟩

end Tagged

end Datagram

/-! ## Forwarded requests (R504) and settings (R506) -/

/-- R504: a frame that has arrived in the order of its checks. -/
theorem exec_remoteOdRequest {data f : Bytes} {op : Nat} (hf : data.drop 16 = f) (hop : fieldAt f 5 1 = op) :
    exec (.remoteOdRequest data) s =
      if !frameOk f 0 then .next (s.takeInbox data)
      else if 0x80 ≤ op then
        match s.mgmt.forwards.find? fun x => x.op + 0x80 == op && x.seq == fieldAt f 12 4 with
        | none => .next (s.takeInbox data)
        | some x => .next ((s.takeInbox data).answerForward x.num (fieldAt f 24 1) (fieldAt f 26 2) (f.drop 28))
      else if !s.rm0Serves then .next s
      else if 3 ≤ fieldAt data 2 1 then .next (s.takeInbox data)
      else
        .next ((s.takeInbox data).dispatchFrame (.remote (fieldAt data 0 2)
          (if fieldAt data 2 1 = 0 then .operator else if fieldAt data 2 1 = 2 then .factory else .tenant (fieldAt data 4 4))) f) := by
  have hrow : exec (.remoteOdRequest data) s = execRemoteOdRequest data s := rfl
  subst hf hop
  rw [hrow, execRemoteOdRequest, whenUp_runs _ hup] <;> rfl

theorem exec_remoteOdRequest_noFrame {data : Bytes} (h : frameOk (data.drop 16) 0 = false) :
    exec (.remoteOdRequest data) s = .next (s.takeInbox data) := by
  rw [exec_remoteOdRequest hup rfl rfl, if_pos (by simp [h])]

theorem exec_remoteOdRequest_response {data : Bytes} {x : Forward} (h : frameOk (data.drop 16) 0 = true)
    (hop : 0x80 ≤ fieldAt (data.drop 16) 5 1)
    (hx : s.mgmt.forwards.find?
      (fun x => x.op + 0x80 == fieldAt (data.drop 16) 5 1 && x.seq == fieldAt (data.drop 16) 12 4) = some x) :
    exec (.remoteOdRequest data) s = .next ((s.takeInbox data).answerForward x.num (fieldAt (data.drop 16) 24 1)
      (fieldAt (data.drop 16) 26 2) ((data.drop 16).drop 28)) := by
  rw [exec_remoteOdRequest hup rfl rfl, if_neg (by simp [h]), if_pos hop, hx]

theorem takeInbox_enclaveUp (data : Bytes) : (s.takeInbox data).enclaveUp = true := by
  have hsys : (s.takeInbox data).sys = s.sys := (congrArg State.sys (takeInbox_work s data) :)
  have hruns : (s.takeInbox data).up = s.up := by simp only [State.up, hsys]
  exact enclaveUp_of_up (hruns.trans hup)

/-- R504: a READ that another device forwards for OPERATOR. -/
theorem exec_remoteOdRequest_read {from_ seq target idx sub off n : Nat} (hrm : s.rm0Serves = true) (hfrom : from_ < 2 ^ 16)
    (hseq : seq < 2 ^ 32) (htarget : target < 2 ^ 16) (hidx : idx < 2 ^ 16) (hsub : sub < 2 ^ 8) (hoff : off < 2 ^ 32)
    (hn : n < 2 ^ 32) {data : Bytes}
    (hdata : data = odPrefix from_ .operator ++ odFrame 0x10 0 seq target (readFields idx sub off n)) :
    exec (.remoteOdRequest data) s = exec (.odRead (.remote from_ .operator) seq target idx sub off n) (s.takeInbox data) := by
  have hframe : data.drop 16 = odFrame 0x10 0 seq target (readFields idx sub off n) := by
    rw [hdata, List.drop_left' (odPrefix_length ..)]
  have hok := frameOk_odFrame (op := 0x10) (session := 0) (seq := seq) (target := target) (body := readFields idx sub off n)
    (tag := []) (k := 0) (by rw [readFields_length]; decide) rfl
  rw [List.append_nil] at hok
  have hcoord : fieldAt data 0 2 = from_ := by rw [hdata, odPrefix_coord hfrom]
  have hrole : fieldAt data 2 1 = 0 := by rw [hdata, odPrefix_operator]
  rw [exec_remoteOdRequest hup hframe (odFrame_op (by decide)), if_neg (by simp [hok]), if_neg (by decide), if_neg (by simp [hrm]),
    hrole, if_neg (by decide), if_pos rfl, hcoord, dispatchFrame_read hseq htarget hidx hsub hoff hn,
    exec_odRead_served (takeInbox_enclaveUp hup data)]

/-- R506: the settings that are due at the time of the machine. -/
def State.ripe (s : State) : List (Nat × Nat × Nat) := s.mgmt.due.filter fun d => d.1 ≤ s.gtc

theorem exec_settingsApply : exec .settingsApply s =
    .next { s with mgmt := { s.mgmt with due := s.mgmt.due.filter fun d => !(d.1 ≤ s.gtc)
                                         inForce := s.ripe.foldl (fun t d => Tbl.set t d.2.1 d.2.2) s.mgmt.inForce } } := by
  have hrow : exec .settingsApply s = execSettingsApply s := rfl
  rw [hrow, execSettingsApply, whenEnclave_runs _ (enclaveUp_of_up hup)]
  rfl

theorem exec_t1sLinkChange (v : Nat) :
    exec (.t1sLinkChange v) s = .next (if v < 3 then { s with mgmt := { s.mgmt with link := v } } else s) := by
  have hrow : exec (.t1sLinkChange v) s = execT1sLinkChange v s := rfl
  rw [hrow, execT1sLinkChange, whenEnclave_runs _ (enclaveUp_of_up hup)]
  split <;> rfl

end Management

/-- R506: of settings that are applied in order, the only one of a key gives it its value. -/
theorem find_foldl_set {l : List (Nat × Nat × Nat)} {key v : Nat} (hvalue : ∀ e ∈ l, e.2.1 = key → e.2.2 = v) (t : Tbl Nat)
    (hset : (∃ e ∈ l, e.2.1 = key) ∨ Tbl.find t key = some v) :
    Tbl.find (l.foldl (fun t d => Tbl.set t d.2.1 d.2.2) t) key = some v := by
  induction l generalizing t with
  | nil =>
    rcases hset with ⟨e, he, _⟩ | h
    · cases he
    · exact h
  | cons d l ih =>
    rw [List.foldl_cons]
    refine ih (fun e he => hvalue e (List.mem_cons_of_mem _ he)) _ ?_
    by_cases hkey : d.2.1 = key
    · exact .inr (by rw [Tbl.find_set, if_pos hkey.symm, hvalue d List.mem_cons_self hkey])
    · rw [Tbl.find_set, if_neg (Ne.symm hkey)]
      exact hset.imp_left fun ⟨e, he, hekey⟩ => ⟨e, (List.mem_cons.mp he).resolve_left fun h => hkey (h ▸ hekey), hekey⟩

end Sys2Proof.Machine

open Sys2Proof Sys2Proof.Machine in
/-- Settles O49: each row against its definition. A datagram and a forwarded request are taken apart by the fields of their
frame; the number of a new session is free among ten in a row, since fewer than eight are taken and one may be 0 (which number
is the model's choice, log entry 88). That the first request of a session may carry any SEQ is log entry 87, and that a later
write of a setting replaces one that waits is log entry 86. -/
theorem sessionsAndDatagrams : Obligations.SessionsAndDatagrams := by
  unfold Obligations.SessionsAndDatagrams
  refine ⟨fun s seq role slot nonce hignored => ?ignored, fun s seq role slot nonce hup halive hignore => ⟨fun hfull => ?full,
    fun hroom hcred => ?noCredential, fun cred hroom hcred => ?opens⟩, fun s t id seq role h => exec_odClose_closes h,
    fun s id hnone => ?noSession, fun s id x hup hx => ⟨fun hidle => ?used, fun hidle => ?timeout⟩,
    fun s src key hup => ⟨_, exec_segmentTimeout hup src key, fun c hc hsrc hkey => ?copies, fun a ha hsrc hkey => ?assemblies, rfl⟩,
    fun s data hup halive => ⟨exec_datagram_long hup, ?datagramOpen, ?datagramRead⟩, ?forwarded,
    fun s data hup => ⟨exec_remoteOdRequest_noFrame hup, fun hok hop x hx => exec_remoteOdRequest_response hup hok hop hx⟩,
    fun s hup => ⟨⟨_, exec_settingsApply hup, ?due, ?later, ?applied⟩, exec_t1sLinkChange hup⟩⟩
  case ignored =>
    have hrow : exec (.odOpen seq role slot nonce) s = execOdOpen seq role slot nonce s := rfl
    rw [hrow, execOdOpen, whenEnclave, openRequest_ignored hignored, ite_self]
  case full =>
    rw [exec_odOpen hup, State.openRequest, if_neg (by simp [halive, hignore]), if_pos hfull]
  case noCredential =>
    rw [exec_odOpen hup, State.openRequest, if_neg (by simp [halive, hignore]), if_neg (by omega), hcred]
  case opens =>
    obtain ⟨id, salt, x, hopens⟩ := openRequest_opens (seq := seq) (nonce := nonce) halive hignore hroom hcred
    exact ⟨_, id, salt, x, exec_odOpen hup seq role slot nonce, hopens⟩
  case noSession =>
    have hrow : exec (.sessionTimeout id) s = execSessionTimeout id s := rfl
    rw [hrow, execSessionTimeout, whenEnclave, hnone, ite_self]
  case used => exact (exec_sessionTimeout hup hx).trans (if_neg (by omega))
  case timeout =>
    refine ⟨_, (exec_sessionTimeout hup hx).trans (if_pos hidle), by rw [closeSession_find, if_pos rfl], fun c hc => ?_,
      fun a ha => ?_⟩
    · rw [closeSession_mgmt] at hc
      simpa using (List.mem_filter.mp hc).2
    · rw [closeSession_mgmt] at ha
      simpa using (List.mem_filter.mp ha).2
  case copies => simpa [hsrc, hkey] using (List.mem_filter.mp hc).2
  case assemblies => simpa [hsrc, hkey] using (List.mem_filter.mp ha).2
  case datagramOpen =>
    rintro seq role slot nonce rfl hseq hrole hslot hnonce
    exact exec_datagram_open hup halive hseq hrole hslot hnonce
  case datagramRead =>
    intro id seq target idx sub off n tag
    rintro f rfl htag hid hseq htarget hidx hsub hoff hn
    have hf : f = odFrame 0x10 id seq target (readFields idx sub off n) := rfl
    clear_value f
    have hshort : f.length + 16 ≤ 1232 := by rw [hf, odFrame_length, readFields_length]; decide
    have hop : fieldAt (f ++ tag) 5 1 ≠ 0x01 := by rw [hf, odFrame_header (by decide), odFrame_op (by decide)]; decide
    have hok : frameOk (f ++ tag) 16 = true := by rw [hf]; exact frameOk_odFrame (by rw [readFields_length]; decide) htag
    have hsession : fieldAt (f ++ tag) 8 4 = id := by rw [hf, odFrame_header (by decide), odFrame_session hid]
    refine ⟨exec_datagram_noSession hup halive hshort htag hop hok hsession, fun x hx =>
      ⟨exec_datagram_badTag hup halive hshort htag hop hok hsession hx, fun hgood hestablished hrequest =>
        ⟨_, exec_datagram_repeat hup halive hshort htag hop hok hsession hx hgood hestablished hrequest, rfl, rfl⟩,
        fun hgood hfresh => ?_⟩⟩
    obtain ⟨m, hserved⟩ := exec_datagram_served hup halive hshort htag hop hok hsession hx hgood hfresh
    have hread : s.dispatchFrame (.session id) f = s.readRequest (.session id) seq target idx sub off n := by
      rw [hf, dispatchFrame_read hseq htarget hidx hsub hoff hn]
    rw [hread] at hserved
    exact ⟨_, _, exec_odRead_served (enclaveUp_of_up hup) .., hserved, rfl, rfl, rfl⟩
  case forwarded =>
    intro s from_ seq target idx sub off n hup hrm hfrom hseq htarget hidx hsub hoff hn
    exact exec_remoteOdRequest_read hup hrm hfrom hseq htarget hidx hsub hoff hn rfl
  case due =>
    intro d hd
    simpa using (List.mem_filter.mp hd).2
  case later =>
    intro d hd hlater
    exact List.mem_filter.mpr ⟨hd, by simpa using hlater⟩
  case applied =>
    intro d hd hripe honly
    refine find_foldl_set (fun e he hkey => ?_) _ (.inl ⟨d, List.mem_filter.mpr ⟨hd, by simpa using hripe⟩, rfl⟩)
    rw [honly e (List.mem_filter.mp he).1 hkey]
end

section
/-! The global time counter (R222 to R225, R241, R540): the exchange, its frames, the choice of the parent and the pins. -/

namespace Sys2Proof.Machine

open Sys2Proof

/-! ## TIME frames that go out (R222, R223, R354) -/

theorem oFencedDrops_ne_oGtcRoot (k : Nat) : oGtcRoot ≠ oFencedDrops k := by
  unfold oGtcRoot oFencedDrops
  omega

/-- R354, R463: what port k sends when it is to send a TIME frame. -/
def State.timeSent (s : State) (k : Nat) (payload : Bytes) : List Emit :=
  if (s.port k).link = .fenced ∨ s.deviceScrub = true then []
  else [.frame k { ftype := 5, lack := (s.port k).rxSeq, payload := payload }]

/-- R354: sending TIME frames has led from s to t. -/
structure Timed (s t : State) (sent : List Emit) : Prop where
  out : t.out = s.out ++ sent
  clk : t.clk = s.clk
  sec : t.sec = s.sec
  sys : t.sys = s.sys
  fabric : t.fabric = s.fabric
  root : t.isRoot = s.isRoot

namespace Timed

variable {s t u : State} {a b : List Emit}

theorem trans (h : Timed s t a) (h' : Timed t u b) : Timed s u (a ++ b) :=
  ⟨by rw [h'.out, h.out, List.append_assoc], h'.clk.trans h.clk, h'.sec.trans h.sec, h'.sys.trans h.sys, h'.fabric.trans h.fabric,
    h'.root.trans h.root⟩

theorem timeSent (h : Timed s t a) (k : Nat) (payload : Bytes) : t.timeSent k payload = s.timeSent k payload := by
  unfold State.timeSent State.deviceScrub
  rw [port_of_fabric h.fabric, h.sec]

theorem hops (h : Timed s t a) : t.ownHops = s.ownHops := by
  unfold State.ownHops
  rw [h.root, h.clk]

end Timed

theorem sendTime_timed (s : State) (k : Nat) (payload : Bytes) : Timed s (s.sendTime k payload) (s.timeSent k payload) := by
  unfold State.sendTime State.timeSent
  by_cases hfenced : (s.port k).link = .fenced
  · rw [if_pos hfenced, if_pos (.inl hfenced)]
    refine ⟨(List.append_nil _).symm, rfl, rfl, rfl, rfl, ?_⟩
    rw [State.isRoot, State.isRoot, State.flag, State.flag, stored_count_ne s (oFencedDrops_ne_oGtcRoot k)]
  · rw [if_neg hfenced]
    cases hscrub : s.deviceScrub with
    | true =>
      rw [if_pos (.inr rfl), State.control, if_pos (by simp [hscrub])]
      exact ⟨(List.append_nil _).symm, rfl, rfl, rfl, rfl, rfl⟩
    | false =>
      rw [if_neg (by simp [hfenced]), control_sent (.inl hscrub)]
      exact ⟨rfl, rfl, rfl, rfl, rfl, rfl⟩

/-- R223: the device asks on a port, with its time as T1. -/
def State.askOn (t1 : Nat) (s : State) (k : Nat) : State := s.sendTime k (timePayload 0 s.ownHops t1 0 0)

theorem foldl_askOn_timed (t1 : Nat) (l : List Nat) (s : State) :
    Timed s (l.foldl (State.askOn t1) s) (l.flatMap fun k => s.timeSent k (timePayload 0 s.ownHops t1 0 0)) := by
  induction l generalizing s with
  | nil => exact ⟨(List.append_nil _).symm, rfl, rfl, rfl, rfl, rfl⟩
  | cons k l ih =>
    have hfirst := sendTime_timed s k (timePayload 0 s.ownHops t1 0 0)
    have hrest := ih (s.askOn t1 k)
    have hsame (j : Nat) : (s.askOn t1 k).timeSent j (timePayload 0 (s.askOn t1 k).ownHops t1 0 0) =
        s.timeSent j (timePayload 0 s.ownHops t1 0 0) := by
      rw [State.askOn, hfirst.hops, hfirst.timeSent]
    simp only [hsame] at hrest
    exact hfirst.trans hrest

/-- R463: what goes out on the ports of a list. -/
theorem flatMap_timeSent (s : State) (payload : Bytes) (l : List Nat) : (l.flatMap fun k => s.timeSent k payload) =
    if s.deviceScrub then [] else (l.filter fun k => (s.port k).link ≠ .fenced).map fun k =>
      .frame k { ftype := 5, lack := (s.port k).rxSeq, payload := payload } := by
  cases hscrub : s.deviceScrub with
  | true => simp [State.timeSent, hscrub]
  | false =>
    induction l with
    | nil => rfl
    | cons k l ih =>
      rw [List.flatMap_cons, ih]
      by_cases hfenced : (s.port k).link = .fenced <;> simp [State.timeSent, hscrub, hfenced]

/-! ## The exchange and the holdover (R223, R225) -/

/-- R223: an exchange is due. -/
def State.exchangeDue (s : State) : Prop :=
  (∃ t, s.clk.t1 = some t ∧ t / 64 + Config.ms ≤ s.gtc) ∨
    (s.clk.t1 = none ∧ (s.clk.exchanged = 0 ∨ s.clk.exchanged + Config.ms ≤ s.gtc))

/-- R223: the same, as the row computes it. -/
def State.exchangeTest (s : State) : Bool :=
  match s.clk.t1 with
  | some t => decide (t / 64 + Config.ms ≤ s.gtc)
  | none => s.clk.exchanged == 0 || decide (s.clk.exchanged + Config.ms ≤ s.gtc)

theorem exchangeTest_iff (s : State) : s.exchangeTest = true ↔ s.exchangeDue := by
  unfold State.exchangeTest State.exchangeDue
  cases s.clk.t1 with
  | none => simp
  | some t => simp

section Exchange

variable {s : State} (hup : s.up = true)
include hup

theorem exec_gtcExchange : exec .gtcExchange s =
    if s.isRoot || !s.exchangeTest || s.askPorts.isEmpty then .next s
    else .next { s.askPorts.foldl (State.askOn s.stampNow) s with
      clk := { (s.askPorts.foldl (State.askOn s.stampNow) s).clk with t1 := some s.stampNow } } := by
  have hrow : exec .gtcExchange s = execGtcExchange s := rfl
  rw [hrow, execGtcExchange, whenUp_runs _ hup] <;> rfl

theorem exec_gtcExchange_idle (h : s.isRoot = true ∨ ¬ s.exchangeDue ∨ s.askPorts = []) : exec .gtcExchange s = .next s := by
  rw [exec_gtcExchange hup, if_pos]
  rw [← exchangeTest_iff] at h
  rcases h with h | h | h <;> simp [h]

theorem exec_gtcExchange_asks (hroot : s.isRoot = false) (hdue : s.exchangeDue) (hports : s.askPorts ≠ []) :
    ∃ t, exec .gtcExchange s = .next t ∧ t.clk.t1 = some s.stampNow ∧
      t.out = s.out ++ if s.deviceScrub then [] else
        (s.askPorts.filter fun k => (s.port k).link ≠ .fenced).map fun k =>
          .frame k { ftype := 5, lack := (s.port k).rxSeq, payload := timePayload 0 s.clk.hops s.stampNow 0 0 } := by
  have hasked := foldl_askOn_timed s.stampNow s.askPorts s
  have hhops : s.ownHops = s.clk.hops := by rw [State.ownHops, hroot, if_neg Bool.false_ne_true]
  refine ⟨_, (exec_gtcExchange hup).trans (if_neg (by simp [hroot, (exchangeTest_iff s).mpr hdue, hports])), rfl, ?_⟩
  rw [hhops, flatMap_timeSent] at hasked
  exact hasked.out

theorem exec_gtcHoldover : exec .gtcHoldover s =
    if s.isRoot || s.clk.state = 0 || s.clk.state = 3 || s.gtc < s.clk.exchanged + 64 * Config.ms then .next s
    else .next { s with
      clk := { s.clk with state := 3, parent := none, hops := 0xFF, good := 0, t1 := none }
      fabric := { s.fabric with ports := s.fabric.ports.map fun q => (q.1, { q.2 with hops := 0xFF }) } } := by
  have hrow : exec .gtcHoldover s = execGtcHoldover s := rfl
  rw [hrow, execGtcHoldover, whenUp_runs _ hup]

end Exchange

/-! ## The parent (R222, R225) -/

/-- R222: the choice rests on the ports that are up and their hops. -/
theorem bestParent_congr {s t : State} (hup : ∀ k, t.portUp k = s.portUp k) (hhops : ∀ k, (t.port k).hops = (s.port k).hops) :
    t.bestParent = s.bestParent := by
  simp only [State.bestParent, hup, hhops]

/-- R222, R225: the counter after the parent has been taken anew. -/
def State.reparented (s : State) : ClkSt := s.chooseParent.clk

theorem chooseParent_eq (s : State) : s.chooseParent = { s with clk := s.reparented } := by
  unfold State.reparented State.chooseParent
  split
  · rfl
  · split
    · split <;> rfl
    · dsimp only
      split <;> rfl

theorem reparented_kept (s : State) :
    s.reparented.gtc = s.clk.gtc ∧ s.reparented.offset = s.clk.offset ∧ s.reparented.delay = s.clk.delay := by
  unfold State.reparented State.chooseParent
  split
  · exact ⟨rfl, rfl, rfl⟩
  · split
    · split <;> exact ⟨rfl, rfl, rfl⟩
    · dsimp only
      split <;> exact ⟨rfl, rfl, rfl⟩

theorem reparented_root {s : State} (h : s.isRoot = true) : s.reparented.state = 0 ∧ s.reparented.parent = none := by
  rw [State.reparented, State.chooseParent, if_pos h]
  exact ⟨rfl, rfl⟩

theorem reparented_alone {s : State} (hroot : s.isRoot = false) (h : s.bestParent = none) :
    s.reparented.parent = none ∧ s.reparented.hops = 0xFF := by
  rw [State.reparented, State.chooseParent, if_neg (by simp [hroot]), h]
  dsimp only
  split <;> exact ⟨rfl, rfl⟩

/-- R225: a device whose parent stays keeps its state. -/
theorem reparented_same {s : State} {k : Nat} (hroot : s.isRoot = false) (h : s.bestParent = some k) (hparent : s.clk.parent = some k)
    (hstate : s.clk.state = 1 ∨ s.clk.state = 2) :
    s.reparented = { s.clk with parent := some k, hops := (s.port k).hops + 1 } := by
  rw [State.reparented, State.chooseParent, if_neg (by simp [hroot]), h]
  dsimp only
  rw [if_pos (by simpa [hparent] using hstate)]

/-! ## TIME_FRAME_RECEIVE (R222 to R225) -/

theorem acked_eq (s : State) (k lack : Nat) : s.acked k lack = { s with fabric := (s.acked k lack).fabric } := by
  unfold State.acked
  dsimp only
  split <;> rfl

theorem acked_port (s : State) (k lack j : Nat) : ((s.acked k lack).port j).unacked = (s.port j).unacked := by
  unfold State.acked
  dsimp only
  split
  · rfl
  · rw [State.port_updPort]
    split
    case isTrue h => rw [h]; rfl
    case isFalse => rfl

/-- R222, R360: a TIME frame on port k has acknowledged frames and told the neighbour's hops. -/
def State.toldHops (s : State) (k : Nat) (f : Frame) : State :=
  (s.acked k f.lack).updPort k fun p => { p with hops := fieldAt f.payload 1 1 }

theorem toldHops_eq (s : State) (k : Nat) (f : Frame) : s.toldHops k f = { s with fabric := (s.toldHops k f).fabric } := by
  unfold State.toldHops
  rw [acked_eq]
  rfl

/-- R222: of each port its link and what it has received stay; its neighbour's hops are those told. -/
theorem toldHops_port (s : State) (k : Nat) (f : Frame) (j : Nat) :
    ((s.toldHops k f).port j).link = (s.port j).link ∧ ((s.toldHops k f).port j).rxSeq = (s.port j).rxSeq ∧
      ((s.toldHops k f).port j).hops = if j = k then fieldAt f.payload 1 1 else (s.port j).hops := by
  have hport := acked_port s k f.lack
  have hlink (j : Nat) : ((s.acked k f.lack).port j).link = (s.port j).link := (congrArg Port.link (hport j) :)
  have hrx (j : Nat) : ((s.acked k f.lack).port j).rxSeq = (s.port j).rxSeq := (congrArg Port.rxSeq (hport j) :)
  have hhops (j : Nat) : ((s.acked k f.lack).port j).hops = (s.port j).hops := (congrArg Port.hops (hport j) :)
  rw [State.toldHops, State.port_updPort]
  split
  case isTrue h => exact ⟨h ▸ hlink k, h ▸ hrx k, rfl⟩
  case isFalse => exact ⟨hlink j, hrx j, hhops j⟩

theorem toldHops_isRoot (s : State) (k : Nat) (f : Frame) : (s.toldHops k f).isRoot = s.isRoot := by
  rw [toldHops_eq]
  rfl

theorem portUp_of_fabric (s : State) (x : FabricSt) (k : Nat) (hlink : (State.port { s with fabric := x } k).link = (s.port k).link) :
    State.portUp { s with fabric := x } k = s.portUp k := by
  unfold State.portUp
  rw [hlink]
  rfl

theorem toldHops_bestParent {s : State} {k : Nat} {f : Frame} (h : (s.port k).hops = fieldAt f.payload 1 1) :
    (s.toldHops k f).bestParent = s.bestParent := by
  refine bestParent_congr (fun j => ?_) (fun j => ?_)
  · have hlink := (toldHops_port s k f j).1
    rw [toldHops_eq] at hlink ⊢
    exact portUp_of_fabric s _ j hlink
  · rw [(toldHops_port s k f j).2.2]
    split
    case isTrue hj => rw [hj, h]
    case isFalse => rfl

/-- R222: the machine that a TIME frame on port k has reached. -/
def State.heardTime (s : State) (k : Nat) (f : Frame) : State := (s.toldHops k f).chooseParent

theorem heardTime_eq (s : State) (k : Nat) (f : Frame) :
    s.heardTime k f = { s with fabric := (s.toldHops k f).fabric, clk := (s.toldHops k f).reparented } := by
  rw [State.heardTime, chooseParent_eq]
  generalize (s.toldHops k f).reparented = r
  rw [toldHops_eq]

/-- R223: an answer on port k, which has told its two stamps. -/
def State.answeredTime (s : State) (k : Nat) (a b : Int) : State :=
  if s.clk.parent = some k then
    State.correct { s with clk := { s.clk with delay := Tbl.set s.clk.delay k ((a + b) / 2).toNat } } ((a - b) / 2)
  else { s with clk := { s.clk with delay := Tbl.set s.clk.delay k ((a + b) / 2).toNat } }

theorem heardTime_clk (s : State) (k : Nat) (f : Frame) : (s.heardTime k f).gtc = s.gtc ∧
    (s.heardTime k f).clk.offset = s.clk.offset ∧ (s.heardTime k f).clk.delay = s.clk.delay := by
  have hkept := reparented_kept (s.toldHops k f)
  rw [toldHops_eq] at hkept
  rw [heardTime_eq, toldHops_eq]
  exact hkept

theorem heardTime_port (s : State) (k : Nat) (f : Frame) (j : Nat) : ((s.heardTime k f).port j).link = (s.port j).link ∧
    ((s.heardTime k f).port j).rxSeq = (s.port j).rxSeq := by
  obtain ⟨hlink, hrx, _⟩ := toldHops_port s k f j
  rw [heardTime_eq]
  exact ⟨hlink, hrx⟩

theorem heardTime_isRoot (s : State) (k : Nat) (f : Frame) : (s.heardTime k f).isRoot = s.isRoot := by
  rw [heardTime_eq]
  rfl

/-- R223: the answer to a TIME frame that asks. -/
theorem heardTime_answers {s : State} {k : Nat} (hopen : (s.port k).link ≠ .fenced) (hscrub : s.deviceScrub = false) (f : Frame)
    (hops t1 stamp : Nat) : Timed (s.heardTime k f)
      ((s.heardTime k f).sendTime k (timePayload 1 hops t1 stamp (s.heardTime k f).stampNow))
      [.frame k { ftype := 5, lack := (s.port k).rxSeq, payload := timePayload 1 hops t1 stamp s.stampNow }] := by
  obtain ⟨hlink, hrx⟩ := heardTime_port s k f k
  have hsent := sendTime_timed (s.heardTime k f) k (timePayload 1 hops t1 stamp (s.heardTime k f).stampNow)
  have hscrub' : (s.heardTime k f).deviceScrub = false := by rw [heardTime_eq]; exact hscrub
  have hstamp : (s.heardTime k f).stampNow = s.stampNow := by
    rw [State.stampNow, State.stampNow, (heardTime_clk s k f).1]
  rw [State.timeSent, if_neg (by simp [hlink, hopen, hscrub']), hrx, hstamp] at hsent
  rwa [hstamp]

/-- R225: from a parent that stays the frame changes nothing of the counter but its hops. -/
theorem heardTime_parent {s : State} {k : Nat} {f : Frame} (hroot : s.isRoot = false) (hparent : s.clk.parent = some k)
    (hbest : s.bestParent = some k) (hhops : (s.port k).hops = fieldAt f.payload 1 1) (hstate : s.clk.state = 1 ∨ s.clk.state = 2) :
    ∃ h, (s.heardTime k f).clk = { s.clk with hops := h } := by
  have hclk : (s.toldHops k f).clk = s.clk := by rw [toldHops_eq]
  have hsame := reparented_same ((toldHops_isRoot s k f).trans hroot) ((toldHops_bestParent hhops).trans hbest)
    (hclk ▸ hparent) (hclk ▸ hstate)
  rw [hclk, ← hparent] at hsame
  rw [heardTime_eq]
  exact ⟨_, hsame⟩

theorem answeredTime_delay (s : State) (k : Nat) (a b : Int) :
    Tbl.find (s.answeredTime k a b).clk.delay k = some ((a + b) / 2).toNat := by
  have hset : Tbl.find (Tbl.set s.clk.delay k ((a + b) / 2).toNat) k = some ((a + b) / 2).toNat := by
    rw [Tbl.find_set, if_pos rfl]
  unfold State.answeredTime
  split
  · exact hset
  · exact hset

/-- R223 to R225: what an exchange with the parent makes of the counter. -/
theorem answeredTime_parent {s : State} {k : Nat} (h : s.clk.parent = some k) (a b : Int) :
    (s.answeredTime k a b).clk.offset = (a - b) / 2 ∧ (s.answeredTime k a b).clk.t1 = none ∧
      (s.answeredTime k a b).clk.good = (if -64 ≤ (a - b) / 2 ∧ (a - b) / 2 ≤ 64 then s.clk.good + 1 else 0) ∧
      (s.answeredTime k a b).clk.state = (if 16 ≤ (s.answeredTime k a b).clk.good then 2 else s.clk.state) ∧
      (s.answeredTime k a b).gtc =
        (if s.sys.step ≠ 0 ∧ s.clk.state = 1 then ((s.gtc : Int) + (a - b) / 2 / 64).toNat % 2 ^ 64 else s.gtc) := by
  rw [State.answeredTime, if_pos h]
  generalize (a - b) / 2 = offset
  refine ⟨rfl, rfl, ?_, rfl, ?_⟩
  · simp only [State.correct, Bool.and_eq_true, decide_eq_true_eq]
  · simp only [State.correct, State.gtc, and_comm, Bool.and_eq_true, decide_eq_true_eq]

section TimeFrame

variable {s : State} {k : Nat} {f : Frame} (hk : k < 8) (hup : s.up = true) (stamp : Nat)
include hk hup

theorem exec_timeFrameReceive_ignored (h : s.linked k = false ∨ f.good = false ∨ f.ftype ≠ 5) :
    exec (.timeFrameReceive k f stamp) s = .next s := by
  have hrow : exec (.timeFrameReceive k f stamp) s = execTimeFrameReceive k f stamp s := rfl
  rw [hrow, execTimeFrameReceive, withPort_runs _ hk hup, if_pos]
  rcases h with h | h | h <;> simp [h]

variable (hlinked : s.linked k = true) (hgood : f.good = true) (htype : f.ftype = 5)
include hlinked hgood htype

theorem exec_timeFrameReceive_fenced (h : (s.port k).link = .fenced) :
    exec (.timeFrameReceive k f stamp) s = .next (s.count (oFencedDrops k) 1) := by
  have hrow : exec (.timeFrameReceive k f stamp) s = execTimeFrameReceive k f stamp s := rfl
  rw [hrow, execTimeFrameReceive, withPort_runs _ hk hup, if_neg (by simp [hlinked, hgood, htype]), if_pos h]

variable (hopen : (s.port k).link ≠ .fenced)
include hopen

theorem exec_timeFrameReceive : exec (.timeFrameReceive k f stamp) s =
    if fieldAt f.payload 0 1 = 0 then
      .next ((s.heardTime k f).sendTime k
        (timePayload 1 (s.heardTime k f).ownHops (fieldAt f.payload 8 8) stamp (s.heardTime k f).stampNow))
    else if s.clk.t1 ≠ some (fieldAt f.payload 8 8) then .next (s.heardTime k f)
    else .next ((s.heardTime k f).answeredTime k ((fieldAt f.payload 16 8 : Int) - fieldAt f.payload 8 8)
      ((stamp : Int) - (fieldAt f.payload 24 8 : Int))) := by
  have hrow : exec (.timeFrameReceive k f stamp) s = execTimeFrameReceive k f stamp s := rfl
  rw [hrow, execTimeFrameReceive, withPort_runs _ hk hup, if_neg (by simp [hlinked, hgood, htype]), if_neg hopen]
  unfold State.answeredTime State.heardTime State.toldHops
  dsimp only
  generalize State.chooseParent _ = t
  split
  · rfl
  · split
    · rfl
    · split <;> rfl

end TimeFrame

/-! ## GTC_ROOT (R222, R241) -/

theorem exec_gtcRootWrite {s t : State} {r : OdReq} {role : Role} (h : s.ReceivesWrite r oGtcRoot role t) :
    exec (.gtcRootWrite r) s = (t.setRoot (leNat r.data)).wroteOk r := by
  have hrow : exec (.gtcRootWrite r) s = odRow oGtcRoot (fun _ => true) r s := rfl
  rw [hrow, odRow_answered h rfl (by decide) (isLimited_eq_false (by decide))]
  rfl

theorem setRoot_eq (t : State) (v : Nat) : t.setRoot v = { t.store oGtcRoot v with clk := (t.store oGtcRoot v).reparented } :=
  chooseParent_eq _

theorem isRoot_store (t : State) (v : Nat) : (t.store oGtcRoot v).isRoot = (v == 1) := by
  rw [State.isRoot, State.flag, State.stored_store_self]

theorem setRoot_isRoot (t : State) (v : Nat) : (t.setRoot v).isRoot = (v == 1) := by
  rw [setRoot_eq, ← isRoot_store t v]
  rfl

/-- R222: whether the device is the root does not count for the choice of a parent. -/
theorem bestParent_store (t : State) (v : Nat) : (t.store oGtcRoot v).bestParent = t.bestParent := by
  refine bestParent_congr (fun k => ?_) fun _ => rfl
  have hrole : (t.store oGtcRoot v).stored (oPortRole k) = t.stored (oPortRole k) := by
    rw [State.stored_store, if_neg]
    unfold oPortRole oGtcRoot
    omega
  rw [State.portUp, State.portUp, State.isMidway, State.isMidway, hrole]
  rfl

/-! ## Pins (R225, R540) -/

section Pins

variable {s : State}

theorem exec_gtcSyncInEdge (h : s.sys.inReset = false) : exec .gtcSyncInEdge s =
    .next { s with fresh := s.fresh + 1, clk := { s.clk with latch := s.gtc + (Config.freeWord s.fresh).toNat % 5 - 2 } } := by
  have hrow : exec .gtcSyncInEdge s = execGtcSyncInEdge s := rfl
  rw [hrow, execGtcSyncInEdge, if_neg (by simp [h])]
  rfl

/-- R225: the multiple of 2^24 that the counter has reached. -/
def State.pulseAt (s : State) : Nat := s.gtc / 2 ^ 24 * 2 ^ 24

theorem exec_gtcSyncOutPulse : exec .gtcSyncOutPulse s =
    if s.sys.inReset || s.pulseAt = 0 || s.clk.syncOut = some s.pulseAt then .next s
    else .next (State.emit { s with clk := { s.clk with syncOut := some s.pulseAt } } .syncOut) := rfl

theorem exec_gtcSyncOutPulse_idle (h : s.sys.inReset = true ∨ s.pulseAt = 0 ∨ s.clk.syncOut = some s.pulseAt) :
    exec .gtcSyncOutPulse s = .next s := by
  rw [exec_gtcSyncOutPulse, if_pos]
  rcases h with h | h | h <;> simp [h]

theorem exec_gtcSyncOutPulse_once (hrun : s.sys.inReset = false) (hreached : s.pulseAt ≠ 0)
    (hnew : s.clk.syncOut ≠ some s.pulseAt) :
    ∃ t, exec .gtcSyncOutPulse s = .next t ∧ t.out = s.out ++ [.syncOut] ∧ exec .gtcSyncOutPulse t = .next t :=
  ⟨_, exec_gtcSyncOutPulse.trans (if_neg (by simp [hrun, hreached, hnew])), rfl, exec_gtcSyncOutPulse_idle (.inr (.inr rfl))⟩

end Pins

end Sys2Proof.Machine
end

section
/-! Telemetry (R507, R508): a record on its way to the host ring and to the session that asked for it. -/

namespace Sys2Proof.Machine

open Sys2Proof

/-- R507: a record, or a part of what is done with it, has gone out or is lost: only what is sent, the records lost, the head
of the ring and the free choices change. -/
structure Telemetered (s t : State) (sent : List Emit) (lost head : Nat) : Prop where
  out : t.out = s.out ++ sent
  dropped : t.stored oTelemDropped = s.stored oTelemDropped + lost
  streams : t.streams = s.streams
  sys : t.sys = s.sys
  mgmt : t.mgmt = { s.mgmt with ringHead := head }
  coord : t.coord = s.coord

namespace Telemetered

variable {s t u : State} {a b : List Emit} {m n head head' : Nat}

theorem refl (s : State) : Telemetered s s [] 0 s.mgmt.ringHead := ⟨(List.append_nil _).symm, rfl, rfl, rfl, rfl, rfl⟩

theorem trans (h : Telemetered s t a m head) (h' : Telemetered t u b n head') : Telemetered s u (a ++ b) (m + n) head' :=
  ⟨by rw [h'.out, h.out, List.append_assoc], by rw [h'.dropped, h.dropped, Nat.add_assoc], h'.streams.trans h.streams,
    h'.sys.trans h.sys, by rw [h'.mgmt, h.mgmt], h'.coord.trans h.coord⟩

end Telemetered

theorem telemDrop_telemetered (s : State) : Telemetered s s.telemDrop [] 1 s.mgmt.ringHead := by
  refine ⟨(List.append_nil _).symm, stored_count_self .., rfl, rfl, rfl, ?_⟩
  rw [State.coord, State.coord, State.torus, State.torus, State.telemDrop,
    stored_count_ne s (show oTorusGeometry ≠ oTelemDropped by decide)]

theorem emit_telemetered (s : State) (e : Emit) : Telemetered s (s.emit e) [e] 0 s.mgmt.ringHead := ⟨rfl, rfl, rfl, rfl, rfl, rfl⟩

theorem draw_telemetered (s : State) : Telemetered s s.draw.2 [] 0 s.mgmt.ringHead :=
  ⟨(List.append_nil _).symm, rfl, rfl, rfl, rfl, rfl⟩

/-! ## The host ring (R507, R510) -/

/-- R507: the ring has room for a record. -/
abbrev State.ringRoom (s : State) (b : Bytes) : Prop := s.mgmt.ringHead - s.stored oTelemRingTail + b.length ≤ s.stored oTelemRingLen

/-- R507: where in the ring the next record begins. -/
def State.ringAt (s : State) : Nat := s.mgmt.ringHead % max 1 (s.stored oTelemRingLen)

/-- R507: the pieces in which a record goes to the ring. -/
def State.ringPieces (s : State) (b : Bytes) : List Emit :=
  if s.ringAt + b.length ≤ s.stored oTelemRingLen then [.dma (s.stored oTelemRingBase + s.ringAt) b]
  else [.dma (s.stored oTelemRingBase + s.ringAt) (b.take (s.stored oTelemRingLen - s.ringAt)),
    .dma (s.stored oTelemRingBase) (b.drop (s.stored oTelemRingLen - s.ringAt))]

theorem ringAt_le (s : State) : s.ringAt ≤ s.stored oTelemRingLen := by
  have hlt : s.ringAt < max 1 (s.stored oTelemRingLen) := Nat.mod_lt _ (by omega)
  omega

theorem telemRing_full {s : State} {b : Bytes} (h : ¬ s.ringRoom b) : s.telemRing b = s.telemDrop := by
  unfold State.ringRoom at h
  unfold State.telemRing
  dsimp only
  rw [if_pos (by omega)]

theorem telemRing_room {s : State} {b : Bytes} (h : s.ringRoom b) :
    Telemetered s (s.telemRing b) (s.ringPieces b) 0 (s.mgmt.ringHead + b.length) := by
  have hat := ringAt_le s
  unfold State.ringAt at hat
  unfold State.ringRoom at h
  unfold State.telemRing State.ringPieces State.ringAt
  dsimp only
  rw [if_neg (by omega)]
  by_cases hwhole : s.mgmt.ringHead % max 1 (s.stored oTelemRingLen) + b.length ≤ s.stored oTelemRingLen
  · rw [if_neg (by omega), if_pos hwhole, List.take_of_length_le (by omega)]
    exact ⟨rfl, rfl, rfl, rfl, rfl, rfl⟩
  · rw [if_pos (by omega), if_neg hwhole]
    exact ⟨by simp [State.emit], rfl, rfl, rfl, rfl, rfl⟩

/-! ## The session that asked (R500, R507) -/

/-- R500: the datagram that carries a part. -/
def telemDatagram (id coord : Nat) (x : Session) (b : Bytes) : Emit :=
  .datagram id (odFrame 0x20 id 0 coord b ++ odTag x.key (odFrame 0x20 id 0 coord b))

theorem foldl_telemFrame {id : Nat} {x : Session} (parts : List Bytes) {s : State} (h : Tbl.find s.mgmt.sessions id = some x) :
    Telemetered s (parts.foldl (fun s b => s.telemFrame id b) s) (parts.map (telemDatagram id s.coord x)) 0 s.mgmt.ringHead := by
  induction parts generalizing s with
  | nil => exact .refl s
  | cons b parts ih =>
    have hfirst : s.telemFrame id b = s.emit (telemDatagram id s.coord x b) := by rw [State.telemFrame, h]; rfl
    rw [List.foldl_cons, hfirst, List.map_cons]
    exact (emit_telemetered s _).trans (ih (s := s.emit (telemDatagram id s.coord x b)) h)

/-- R507: a record for the port goes out as its parts, or is lost. -/
theorem telemPort_cases (s : State) (parts : List Bytes) :
    Telemetered s (s.telemPort parts) [] 1 s.mgmt.ringHead ∨
    ∃ x, Tbl.find s.mgmt.sessions s.mgmt.telemSession = some x ∧
      Telemetered s (s.telemPort parts) (parts.map (telemDatagram s.mgmt.telemSession s.coord x)) 0 s.mgmt.ringHead := by
  unfold State.telemPort
  dsimp only
  split
  · exact .inl ((draw_telemetered s).trans (telemDrop_telemetered s.draw.2))
  case isFalse hsent =>
    have hfound : (Tbl.find s.mgmt.sessions s.mgmt.telemSession).isNone = false := by
      rw [Bool.not_eq_true, Bool.or_eq_false_iff] at hsent
      exact hsent.1
    obtain ⟨x, hx⟩ := Option.isSome_iff_exists.mp (by simpa using hfound)
    exact .inr ⟨x, hx, (draw_telemetered s).trans (foldl_telemFrame parts (s := s.draw.2) hx)⟩

/-! ## TELEMETRY (R399, R507, R508) -/

/-- R508: the units that the queues have carried when the record is sampled. -/
def State.unitsNow (s : State) : Tbl Nat :=
  (List.range 176).foldl (fun (t : Tbl Nat) q => if s.unitsOf q = 0 then t else Tbl.set t q (s.unitsOf q)) []

/-- R508: the machine that has sampled and numbered a record. -/
def State.telemSampled (s : State) : State :=
  { s with mgmt := { s.mgmt with recordSeq := (s.mgmt.recordSeq + 1) % 2 ^ 32, telemUnits := s.unitsNow } }

/-- R507: the record on the host ring, where that is a destination. -/
def State.ringServed (s : State) (b : Bytes) : State :=
  if bit (s.stored oTelemDest) 0 then s.telemSampled.telemRing b else s.telemSampled

theorem ringServed_telemetered (s : State) (b : Bytes) : Telemetered s.telemSampled (s.ringServed b)
    (if bit (s.stored oTelemDest) 0 = true ∧ s.ringRoom b then s.ringPieces b else [])
    (if bit (s.stored oTelemDest) 0 = true ∧ ¬ s.ringRoom b then 1 else 0)
    (s.mgmt.ringHead + if bit (s.stored oTelemDest) 0 = true ∧ s.ringRoom b then b.length else 0) := by
  unfold State.ringServed
  by_cases hring : bit (s.stored oTelemDest) 0 = true
  · rw [if_pos hring]
    by_cases hroom : s.ringRoom b
    · rw [if_pos ⟨hring, hroom⟩, if_neg (fun h => h.2 hroom), if_pos ⟨hring, hroom⟩]
      exact telemRing_room (s := s.telemSampled) hroom
    · rw [if_neg (fun h => hroom h.2), if_pos ⟨hring, hroom⟩, if_neg (fun h => hroom h.2), telemRing_full (s := s.telemSampled) hroom]
      exact telemDrop_telemetered s.telemSampled
  · rw [if_neg hring, if_neg (fun h => hring h.1), if_neg (fun h => hring h.1), if_neg (fun h => hring h.1)]
    exact .refl _

theorem Telemetered.record {s t : State} {sent : List Emit} {lost head : Nat} (h : Telemetered s.telemSampled t sent lost head) :
    t.mgmt.recordSeq = (s.mgmt.recordSeq + 1) % 2 ^ 32 ∧ t.streams = s.streams ∧ t.sys = s.sys ∧ t.mgmt.ringHead = head ∧
      t.out = s.out ++ sent ∧ t.stored oTelemDropped = s.stored oTelemDropped + lost :=
  ⟨by rw [h.mgmt]; rfl, h.streams, h.sys, by rw [h.mgmt], h.out, h.dropped⟩

section Telemetry

variable {s : State} (hup : s.up = true) (hrm : s.rmRuns 3 = true) (hstep : s.sys.step = 0)
include hup hrm hstep

theorem exec_telemetry : exec .telemetry s =
    if s.gtc % 2 ^ s.stored oTelemK ≠ 0 || s.stored oTelemDest = 0 then .next s
    else .next
      (if bit (s.stored oTelemDest) 1 then
        (s.ringServed (telemPart s.mgmt.recordSeq s.gtc 0 1 (s.telemKeys.map s.telemEntry))).telemPort
          (telemParts s.mgmt.recordSeq s.gtc (s.telemKeys.map s.telemEntry))
      else s.ringServed (telemPart s.mgmt.recordSeq s.gtc 0 1 (s.telemKeys.map s.telemEntry))) := by
  have hrow : exec .telemetry s = execTelemetry s := rfl
  rw [hrow, execTelemetry, whenRm_runs _ hup hrm (.inl hstep)] <;> rfl

theorem exec_telemetry_idle (h : s.gtc % 2 ^ s.stored oTelemK ≠ 0 ∨ s.stored oTelemDest = 0) : exec .telemetry s = .next s := by
  rw [exec_telemetry hup hrm hstep, if_pos]
  rcases h with h | h <;> simp [h]

/-- R507, R508: a record that is sampled goes to its destinations. -/
theorem exec_telemetry_samples (hdue : s.gtc % 2 ^ s.stored oTelemK = 0) (hdest : s.stored oTelemDest ≠ 0) {sent : List Emit}
    {lost more : Nat} (hring : Telemetered s.telemSampled (s.ringServed (telemPart s.mgmt.recordSeq s.gtc 0 1
      (s.telemKeys.map s.telemEntry))) sent lost (s.mgmt.ringHead + more)) :
    ∃ t, exec .telemetry s = .next t ∧
      t.mgmt.recordSeq = (s.mgmt.recordSeq + 1) % 2 ^ 32 ∧ t.streams = s.streams ∧ t.sys = s.sys ∧
      t.mgmt.ringHead = s.mgmt.ringHead + more ∧
      ((bit (s.stored oTelemDest) 1 = false ∧ t.out = s.out ++ sent ∧ t.stored oTelemDropped = s.stored oTelemDropped + lost) ∨
       (bit (s.stored oTelemDest) 1 = true ∧ t.out = s.out ++ sent ∧ t.stored oTelemDropped = s.stored oTelemDropped + lost + 1) ∨
       (∃ x, bit (s.stored oTelemDest) 1 = true ∧ Tbl.find s.mgmt.sessions s.mgmt.telemSession = some x ∧
         t.stored oTelemDropped = s.stored oTelemDropped + lost ∧
         t.out = s.out ++ sent ++ (telemParts s.mgmt.recordSeq s.gtc (s.telemKeys.map s.telemEntry)).map
          (telemDatagram s.mgmt.telemSession s.coord x))) := by
  refine ⟨_, (exec_telemetry hup hrm hstep).trans (if_neg (by simp [hdue, hdest])), ?_⟩
  generalize s.ringServed _ = u at hring
  cases hport : bit (s.stored oTelemDest) 1 with
  | false =>
    obtain ⟨hseq, hstreams, hsys, hhead, hout, hdropped⟩ := hring.record
    exact ⟨hseq, hstreams, hsys, hhead, .inl ⟨rfl, hout, hdropped⟩⟩
  | true =>
    have hhead : u.mgmt.ringHead = s.mgmt.ringHead + more := by rw [hring.mgmt]
    have hcoord : u.coord = s.coord := hring.coord
    rcases telemPort_cases u (telemParts s.mgmt.recordSeq s.gtc (s.telemKeys.map s.telemEntry)) with hlost | ⟨x, hx, hsent⟩
    · obtain ⟨hseq, hstreams, hsys, hhead', hout, hdropped⟩ := (hring.trans hlost).record
      exact ⟨hseq, hstreams, hsys, hhead'.trans hhead, .inr (.inl ⟨rfl, by rw [← List.append_nil sent]; exact hout, hdropped⟩)⟩
    · obtain ⟨hseq, hstreams, hsys, hhead', hout, hdropped⟩ := (hring.trans hsent).record
      rw [hcoord, hring.mgmt, ← List.append_assoc] at hout
      rw [hring.mgmt] at hx
      exact ⟨hseq, hstreams, hsys, hhead'.trans hhead, .inr (.inr ⟨x, rfl, hx, hdropped, hout⟩)⟩

end Telemetry

end Sys2Proof.Machine

open Sys2Proof Sys2Proof.Machine in
/-- Settles O50: each row against its definition. A record is followed to its two destinations (`Telemetered`); its number, the
parts and the drop of each destination by itself are the model's choice (log entry 135). A TIME frame is followed through the
choice of the parent, which the answer of a parent that remains leaves with the counter's state; the ports on which the device
asks are log entry 64, the rate that it takes from an exchange log entry 62, the instant of the latch log entry 63, and the
TARGET of the response to GTC_ROOT log entry 89. -/
theorem telemetryAndTime : Obligations.TelemetryAndTime := by
  unfold Obligations.TelemetryAndTime
  refine ⟨fun s hup hrm hstep => ⟨fun hidle => exec_telemetry_idle hup hrm hstep hidle, fun hdue hdest => ?telemetry⟩,
    fun s hup => ⟨fun hidle => exec_gtcExchange_idle hup hidle, fun hroot hdue hports => exec_gtcExchange_asks hup hroot hdue hports,
      ?parentPort, ?steady, ?holdover⟩,
    fun s k f stamp hk hup => ⟨fun hother => exec_timeFrameReceive_ignored hk hup stamp hother,
      fun hlinked hgood htype hfenced => exec_timeFrameReceive_fenced hk hup stamp hlinked hgood htype hfenced⟩,
    fun s k f stamp hk hup hlinked hgood htype hopen => ⟨fun hasks hscrub => ?asks, fun hanswers hother => ?otherStamp,
      fun hanswers hown => ?delay, fun hanswers hown hroot hparent hbest hhops hstate => ?offset⟩,
    fun s t r role h => ⟨fun hone => ⟨_, exec_gtcRootWrite h, ?becomesRoot⟩, fun hzero => ⟨_, exec_gtcRootWrite h, ?endsRoot⟩⟩,
    fun s => ⟨fun hreset => ⟨?noEdge, exec_gtcSyncOutPulse_idle (.inl hreset)⟩,
      fun hrun => ⟨_, exec_gtcSyncInEdge hrun, ?early, ?late, rfl⟩, fun hrun hlate hnew => ?pulse, fun hnone => ?noPulse⟩⟩
  case telemetry =>
    exact exec_telemetry_samples hup hrm hstep hdue hdest (ringServed_telemetered ..)
  case parentPort =>
    intro k hparent
    rw [State.askPorts, hparent]
  case steady =>
    intro hsteady
    rw [exec_gtcHoldover hup, if_pos]
    rcases hsteady with h | h | h | h <;> simp [h]
  case holdover =>
    intro hroot hfree hheld hlong
    refine ⟨_, (exec_gtcHoldover hup).trans (if_neg ?_), rfl, rfl, rfl, rfl, rfl⟩
    simp [hroot, hfree, hheld, hlong]
  case asks =>
    have hsent := heardTime_answers hopen hscrub f (s.heardTime k f).ownHops (fieldAt f.payload 8 8) stamp
    refine ⟨_, (s.heardTime k f).ownHops, (exec_timeFrameReceive hk hup stamp hlinked hgood htype hopen).trans (if_pos hasks),
      fun hroot => ?_, ?_, ?_⟩
    · rw [State.ownHops, heardTime_isRoot, if_pos hroot]
    · rw [State.gtc, hsent.clk]
      exact (heardTime_clk s k f).1
    · rw [hsent.out]
      exact List.mem_append_right _ List.mem_cons_self
  case otherStamp =>
    exact ⟨_, (exec_timeFrameReceive hk hup stamp hlinked hgood htype hopen).trans ((if_neg hanswers).trans (if_pos hother)),
      heardTime_clk s k f⟩
  case delay =>
    exact ⟨_, (exec_timeFrameReceive hk hup stamp hlinked hgood htype hopen).trans
      ((if_neg hanswers).trans (if_neg (not_not_intro hown))), answeredTime_delay ..⟩
  case offset =>
    obtain ⟨hops, hclk⟩ := heardTime_parent hroot hparent hbest hhops hstate
    have hsys : (s.heardTime k f).sys = s.sys := by rw [heardTime_eq]
    have hanswered := answeredTime_parent (s := s.heardTime k f) (by rw [hclk]; exact hparent)
      ((fieldAt f.payload 16 8 : Int) - fieldAt f.payload 8 8) ((stamp : Int) - (fieldAt f.payload 24 8 : Int))
    rw [hclk, hsys, (heardTime_clk s k f).1] at hanswered
    obtain ⟨hoffset, ht1, hgood', hstate', hgtc⟩ := hanswered
    refine ⟨_, (exec_timeFrameReceive hk hup stamp hlinked hgood htype hopen).trans
      ((if_neg hanswers).trans (if_neg (not_not_intro hown))), hoffset, ht1, hgood', fun hlocked => ?_, fun hshort => ?_, hgtc⟩
    · rw [hstate', if_pos hlocked]
    · rw [hstate', if_neg (by omega)]
  case becomesRoot =>
    have hroot : (t.setRoot (leNat r.data)).isRoot = true := by rw [setRoot_isRoot, hone]; rfl
    obtain ⟨hstate, hparent⟩ := reparented_root (s := t.store oGtcRoot (leNat r.data)) (by rw [isRoot_store, hone]; rfl)
    refine ⟨hroot, ?_, ?_, by rw [State.ownHops, if_pos hroot]⟩
    · rw [setRoot_eq]
      exact hstate
    · rw [setRoot_eq]
      exact hparent
  case endsRoot =>
    refine ⟨by rw [setRoot_isRoot, hzero]; rfl, fun hbest => ?_⟩
    rw [setRoot_eq]
    exact reparented_alone (by rw [isRoot_store, hzero]; rfl) ((bestParent_store t _).trans hbest)
  case noEdge =>
    have hrow : exec .gtcSyncInEdge s = execGtcSyncInEdge s := rfl
    rw [hrow, execGtcSyncInEdge, if_pos hreset]
  case early =>
    dsimp only
    omega
  case late =>
    dsimp only
    omega
  case pulse => exact exec_gtcSyncOutPulse_once hrun (by rw [State.pulseAt]; omega) hnew
  case noPulse =>
    refine exec_gtcSyncOutPulse_idle (.inr (hnone.imp_left fun hearly => ?_))
    rw [State.pulseAt]
    omega
end
